-- ==== Sys2Proof/Word.lean ====
section
/-! DEFINITION. The word types of the FPV-9600 block: registers are 64 bits wide (R4), storage is bytes. -/
namespace Sys2Proof

/-- A 64-bit register, stack entry or pointer (R4). -/
abbrev Word := BitVec 64

/-- One byte of storage. -/
abbrev Byte := BitVec 8

end Sys2Proof
end

