-- ==== Sys2Proof/Syntax.lean ====
section
/-! DEFINITION. The commands of the block: one constructor per row of spec/opcode_table.json, with the row's
operands, and the small types those operands are made of. The docstring of a constructor names its row. -/
namespace Sys2Proof

/-- Core number: clusters 0 to 23, SUP_A 24, SUP_B 25 (the numbering of R581). -/
abbrev Core := Fin 26
/-- Hardware task number within a core; a cluster core has 16, a supervisor core 64. -/
abbrev Task := Fin 64
abbrev Chan := Fin 96
abbrev Svu := Fin 96
abbrev Tower := Fin 12
abbrev Cluster := Fin 24
abbrev Ring := Fin 64
abbrev Slot := Fin 12
abbrev Mbx := Fin 30
abbrev BmvCh := Fin 32
abbrev Pool := Fin 64
abbrev Port := Fin 16
abbrev Node := Fin 1024
abbrev Pll := Fin 31
abbrev Source := Fin 640

/-- The masters of the control matrix (R643), with the task, channel or nothing that its ID names. -/
inductive Master where
  | core (c : Core) (t : Task)
  | bmv (ch : BmvCh)
  | host
  | gloley
  deriving DecidableEq, Repr

/-- A write to a register with a row of its own: the master, the byte of the register at which the access starts
(0 or 4), its width in bytes, and the value. -/
structure RegWrite where
  m : Master
  lane : Nat
  width : Nat
  v : Word
  deriving DecidableEq, Repr

/-- What a register write carries: the word, and the W1C bits of the register that hardware sets in the same clock (R7). -/
structure RegData where
  word : Word
  hw : Word := 0
  deriving DecidableEq, Repr

/-- A line that the host sends by CXL: its bytes, and whether it carries the poison indication (R64). -/
structure LineData where
  bytes : List Byte
  poison : Bool := false
  deriving DecidableEq, Repr

/-- A cell error found by the access: the symbol (R55) or bit (R306) of the ECC word it lies in. -/
structure Upset where
  word : Nat
  symbol : Nat
  deriving DecidableEq, Repr

/-- A bit error of a 64-bit word of a physical loft (0 to 31) or mask (32 to 39) register (R306). -/
structure LoftUpset where
  reg : Nat
  word : Nat
  bit : Nat
  deriving DecidableEq, Repr

/-- The parity outcome of a crossbar transfer (R579). -/
inductive XbarParity where
  | good | once | twice
  deriving DecidableEq, Repr

/-- The checks of one element group (R595): all pass, a pipe fails, a spool fails, or an undetected defect flips bit `bit` of what lane
`lane` of pipe instance `pipe` computes for the group, the pipes numbered F0 to F3, I0, X0, P0, A0 (R131, R315). -/
inductive GroupCheck where
  | good
  | pipe (n : Fin 8)
  | spool (n : Fin 12)
  | upset (pipe : Fin 8) (lane : Fin 16) (bit : Fin 64)
  deriving DecidableEq, Repr

/-- What a core presents with each instruction: the issuing task, and the prefixes decoded before it (R338). -/
structure Issue where
  c : Core
  t : Task
  guard : Option (Bool × Fin 8)
  lck : Bool
  rep : Bool
  deriving DecidableEq, Repr

/-- What host memory answers a read: bytes, or a failure status (R417 codes). -/
inductive HostData where
  | ok (bytes : List Byte)
  | fail (status : Nat)
  deriving DecidableEq, Repr

/-- The path of a doorbell write: the BAR4 page, or CMDR_DB by a master (R404 to R406). -/
inductive Doorbell where
  | bar4
  | cmdr (m : Master)
  deriving DecidableEq, Repr

/-- The host's atomic operations (R475). -/
inductive AtomicKind where
  | fetchAdd | swap | cas
  deriving DecidableEq, Repr

/-- A TRAIN record with what the training measured (R488): sender, BOOT, serial, lanes that locked, one-way delay in ns. -/
structure TrainRec where
  node : Node
  boot : Nat
  serial : Word
  lanes : Nat
  delay : Nat
  deriving DecidableEq, Repr

/-- The straps that power-on samples: BOOT_MODE[2:0] (R606) and GL_ADDR[1:0] (R629). -/
structure Straps where
  bootMode : Fin 8
  glAddr : Fin 4
  deriving DecidableEq, Repr

/-- A Gloley request frame's fields as received: the bytes of the frame (R633 to R635). -/
structure Frame where
  bytes : List Byte
  deriving DecidableEq, Repr


/-- A command to the block. -/
inductive Instr where
  /-- REGISTER_WRITE (R5): A master writes a register that has no row of its own; the access codes, reserved-bit and unlisted-encoding rules apply. -/
  | registerWrite (m : Master) (off : Nat) (width : Nat) (v : RegData)
  /-- READ_CLEAR_FIELD (R5): A read of an RC field returns its value and clears it, and a hardware update in the same clock is kept for the next read. -/
  | readClearField (m : Master) (off : Nat) (width : Nat) (hw : Option Nat)
  /-- COUNTER_LOW_HALF_READ (R50): A 32-bit read of the lower half of a 64-bit counter latches the upper half for that master. -/
  | counterLowHalfRead (m : Master) (off : Nat)
  /-- HOST_BAR2_READ (R23): The host reads through BAR2 at a local offset, with the outcome that the range gives and a poisoned completion for poison. -/
  | hostBar2Read (off : Nat) (len : Nat)
  /-- HOST_BAR2_WRITE (R23): The host writes through BAR2; the write is refused whole when it crosses a range, and a poisoned write poisons every word it touches. -/
  | hostBar2Write (off : Nat) (data : List Byte) (poisoned : Bool)
  /-- CHANNEL_GRANT (R43): A channel port grants one waiting request by the local-share, age and round-robin rule, and the controller performs it on whole ECC words. -/
  | channelGrant (ch : Chan) (upsets : List Upset) (xbar : XbarParity)
  /-- REFRESH (R47): A channel performs mandatory refresh and interface calibration, holding foreground requests for at most 350 ns in 3.9 µs. -/
  | refresh (ch : Chan) (clocks : Nat)
  /-- SCRUB_READ (R73): Patrol scrub reads one granule while position is below target and handles each of its four words by decode outcome. -/
  | scrubRead (ch : Chan) (upsets : List Upset)
  /-- SCRUB_CTL_WRITE (R74): A write of MEMC_SCRUB_CTL stops or resumes scrub at once and applies a new period at the next pass start. -/
  | scrubCtlWrite (ch : Chan) (w : RegWrite)
  /-- INTLV_ARB_WRITE (R53): A write of LOCAL_SHARE is checked against 48 and applied by each channel from its next window start. -/
  | intlvArbWrite (w : RegWrite)
  /-- MEMC_PERF_CLEAR (R51): A write of MEMC_PERF_CTL.CLEAR clears every counter of the block, keeping the events of that clock. -/
  | memcPerfClear (ch : Chan) (w : RegWrite)
  /-- MEMC_INJECT_WRITE (R90): Ring 0 firmware in MANUFACTURE or RETURNED arms an injection kind, and ARM with KIND OFF reads 0. -/
  | memcInjectWrite (ch : Chan) (w : RegWrite)
  /-- ROW_SPARE (R78): A channel copies a failing row to a spare row and redirects it, with requests to the row waiting for the copy. -/
  | rowSpare (ch : Chan) (bank : Nat) (row : Nat)
  /-- LANE_SPARE (R79): A channel switches a symbol position to a spare lane group within one refresh interval. -/
  | laneSpare (ch : Chan) (lane : Nat)
  /-- WIPE_COMPLETE (R68): A channel finishes writing every reachable word as zero and leaves STATE INIT. -/
  | wipeComplete (ch : Chan)
  /-- WEAR_TICK (R83): Once per minute each serving tower adds the weight of its hottest junction temperature to its wear count. -/
  | wearTick (tower : Tower) (temp : Nat)
  /-- WEAR_SAVE (R84): Once per hour the module writes each tower's wear count and peak temperature to flash. -/
  | wearSave
  /-- CHAIN (R92): An inline CHAIN command carries a 384-byte descriptor that is read with its packet, checked and issued. -/
  | chain (r : Ring)
  /-- CHAIN_REF (R93): CHAIN_REF reads its descriptor by address as part of its packet and issues the chain, failing with the block-mover status when the read fails. -/
  | chainRef (r : Ring)
  /-- CHAIN_RESUME (R277): CHAIN_RESUME runs a kept stopped chain from its resume index, or discards its stop state. -/
  | chainResume (r : Ring)
  /-- CHAIN_DISPATCH (R210): When earlier chains of its ring have computed or stopped, the dispatcher divides the chain into slices and hands out ranges. -/
  | chainDispatch (id : Nat)
  /-- LIFT_GRANT (R536): The envelope manager grants a waiting lift when the committed power with it fits the envelope, in arrival order. -/
  | liftGrant
  /-- INPUT_RAMP_START (R540): The scheduled input ramp for a granted lift begins and rises at the slew until the new committed power is carried. -/
  | inputRampStart
  /-- INPUT_RAMP_DOWN (R541): The dispatcher forecasts a fall in charged lift and begins lowering the input current at the slew. -/
  | inputRampDown (u : Svu)
  /-- SPOOL_PREFETCH (R120): An input spool issues prefetch reads for its slice's range in ascending index order within its capacity. -/
  | spoolPrefetch (u : Svu) (slot : Slot)
  /-- PIPES_START (R135): A slice's pipes start once the envelope grant is held and the first group has reached every input spool. -/
  | pipesStart (u : Svu)
  /-- GROUP_COMPUTE (R91): A slice computes one element group through every node, applying masks, exceptions, accumulation and stop conditions. -/
  | groupCompute (u : Svu) (check : GroupCheck)
  /-- SP_SWAP_WAIT (R679): A provisional SP_SWAP and its slice wait until its element lies below the clear index. -/
  | spSwapWait (u : Svu)
  /-- SPOOL_WRITE_ISSUE (R122): An output spool issues a write of whole words of one granule with a byte or bit mask. -/
  | spoolWriteIssue (u : Svu) (slot : Slot)
  /-- TETHER_RELEASE (R217): An earlier chain's write to a granule is performed, and reads and writes held on that granule's tether are issued. -/
  | tetherRelease (granule : Nat)
  /-- BLOCK_SWITCH (R436): At a block boundary an SVU holding several ranges chooses the next block and saves and loads range contexts. -/
  | blockSwitch (u : Svu)
  /-- SLICE_END (R128): A slice finishes its range and sends its accumulator images to the dispatcher. -/
  | sliceEnd (u : Svu)
  /-- REDUCTION_WRITE (R680): After every slice finishes, the module merges the slices' images and writes reduction outputs and exported images. -/
  | reductionWrite (id : Nat)
  /-- CHAIN_STOP (R230): After lower slices finish, a stopped chain discards higher spool writes, restores provisional writes and releases its tail records. -/
  | chainStop (id : Nat)
  /-- COMPLETION_POST (R224): Once the command's writes are performed and no tail record is held, the completion entry is written in ring order. -/
  | completionPost (r : Ring) (hostOk : Bool)
  /-- COMPLETION_MSI (R421): COAL_TIME passes since an uncovered entry was posted, and the completion MSI-X vector is sent. -/
  | completionMsi (r : Ring)
  /-- TABLE_WALK_READ (R259): A walk reads the entry at one level and checks it in order, ending at a leaf or with a walk fault. -/
  | tableWalkRead (u : Svu) (slot : Slot) (upsets : List Upset)
  /-- SCRATCH_BANK_ACCESS (R303): A scratchpad bank grants one slot to an owner or foreign request, or performs one atomic. -/
  | scratchBankAccess (u : Svu) (bank : Nat) (upsets : List Upset)
  /-- SCRATCH_LINE_SCRUB (R307): A scratchpad line not read for 60 s is read in the next slot of its bank and handled by outcome. -/
  | scratchLineScrub (u : Svu) (line : Nat) (upsets : List Upset)
  /-- ARRAY_CLEAR_DONE (R310): A woken scratchpad array or logic domain finishes clearing to zero and reads ON. -/
  | arrayClearDone (k : Cluster)
  /-- LOFT_OP_START (R293): The next accepted LOFT operation on an SVU starts once earlier operations and LOFT slices have ended. -/
  | loftOpStart (u : Svu)
  /-- LOFT_GROUP (R292): A LOFT operation computes one element group on its pipe at a group boundary. -/
  | loftGroup (u : Svu) (upsets : List LoftUpset)
  /-- WINDOW_COMPARE (R318): After pass 2 of a verified window the two signatures are compared and the window is released or discarded. -/
  | windowCompare (u : Svu)
  /-- SVU_SELF_TEST_DONE (R320): The SVU's self-test ends and the window is re-run on the same or another SVU, or the chain stops with ST_VERIFY_FAILED. -/
  | svuSelfTestDone (u : Svu) (pass : Bool)
  /-- SUP_INTERVAL_END (R329): A SUP_A checkpoint interval ends and its signature is compared with SUP_B's re-execution. -/
  | supIntervalEnd (agree : Bool)
  /-- SUP_SELF_TEST_DONE (R329): Both supervisor self-tests end, and the interval re-runs, one core is fenced, or SUP_LOST is recorded. -/
  | supSelfTestDone (passA : Bool) (passB : Bool)
  /-- SUNDOP_NOP (R341): The NOP instruction does nothing. -/
  | sundopNop (g : Issue)
  /-- WAIT (R378): The task enters WAIT and issues nothing until an interrupt is taken. -/
  | wait (g : Issue)
  /-- SYNC (R241): SYNC completes when every earlier load and store of the task is performed. -/
  | sync (g : Issue)
  /-- IFLUSH (R354): IFLUSH waits for earlier stores and discards fetched instruction bytes other than pinned lines. -/
  | iflush (g : Issue)
  /-- FBAR (R361): FBAR completes when earlier FP, decimal and LOFT work has ended and any pending FP trap is taken. -/
  | fbar (g : Issue)
  /-- DUP (R341): DUP copies the top entry. -/
  | dup (g : Issue)
  /-- DROP (R341): DROP removes the top entry. -/
  | drop (g : Issue)
  /-- SWAP (R341): SWAP exchanges the top two entries. -/
  | swap (g : Issue)
  /-- OVER (R341): OVER pushes a copy of the second entry. -/
  | over (g : Issue)
  /-- ROT (R341): ROT rotates the top three entries. -/
  | rot (g : Issue)
  /-- PICK (R341): PICK removes n and copies the entry at depth n. -/
  | pick (g : Issue)
  /-- DEPTH (R341): DEPTH pushes the stack depth. -/
  | depth (g : Issue)
  /-- PUSH (R341): PUSH8 to PUSH64 push a sign-extended constant. -/
  | push (g : Issue) (sz : Fin 4) (imm : Word)
  /-- ADD (R341): ADD adds the top two entries modulo 2^64. -/
  | add (g : Issue)
  /-- SUB (R341): SUB subtracts modulo 2^64. -/
  | sub (g : Issue)
  /-- MUL (R341): MUL pushes the low 64 bits of the product. -/
  | mul (g : Issue)
  /-- MULH (R341): MULH pushes the high 64 bits of the signed product. -/
  | mulh (g : Issue)
  /-- MULHU (R341): MULHU pushes the high 64 bits of the unsigned product. -/
  | mulhu (g : Issue)
  /-- DIV (R347): DIV divides signed, truncating, and traps with DIVZERO on zero. -/
  | div (g : Issue)
  /-- DIVU (R347): DIVU divides unsigned and traps with DIVZERO on zero. -/
  | divu (g : Issue)
  /-- REM (R347): REM gives the signed remainder and traps with DIVZERO on zero. -/
  | rem (g : Issue)
  /-- REMU (R347): REMU gives the unsigned remainder and traps with DIVZERO on zero. -/
  | remu (g : Issue)
  /-- NEG (R341): NEG negates modulo 2^64. -/
  | neg (g : Issue)
  /-- AND (R341): AND combines the top two entries bitwise. -/
  | and (g : Issue)
  /-- OR (R341): OR combines the top two entries bitwise. -/
  | or (g : Issue)
  /-- XOR (R341): XOR combines the top two entries bitwise. -/
  | xor (g : Issue)
  /-- NOT (R341): NOT inverts the top entry. -/
  | not (g : Issue)
  /-- SHL (R341): SHL shifts left by b mod 64. -/
  | shl (g : Issue)
  /-- SHR (R341): SHR shifts right logically by b mod 64. -/
  | shr (g : Issue)
  /-- SAR (R341): SAR shifts right arithmetically by b mod 64. -/
  | sar (g : Issue)
  /-- SEXT (R341): SEXT8, SEXT16 and SEXT32 sign-extend the low bits. -/
  | sext (g : Issue) (sz : Fin 3)
  /-- ICMP (R344): ICMP compares signed into predicate PD. -/
  | icmp (g : Issue) (b2 : Byte)
  /-- UCMP (R344): UCMP compares unsigned into predicate PD. -/
  | ucmp (g : Issue) (b2 : Byte)
  /-- FCMP (R344): FCMP compares FP64 into PD and reports FP exceptions. -/
  | fcmp (g : Issue) (b2 : Byte)
  /-- DCMP (R344): DCMP compares DEC128 values into PD, checking both operands. -/
  | dcmp (g : Issue) (b2 : Byte)
  /-- TEST (R344): TEST sets PD when the top entry is not zero. -/
  | test (g : Issue) (b2 : Byte)
  /-- PGET (R341): PGET pushes the predicates as a value. -/
  | pget (g : Issue)
  /-- PSET (R341): PSET writes the predicates from a value. -/
  | pset (g : Issue)
  /-- BR8 (R341): BR8 branches by a signed 8-bit displacement. -/
  | br8 (g : Issue) (disp : Byte)
  /-- BR32 (R341): BR32 branches by a signed 32-bit displacement. -/
  | br32 (g : Issue) (disp : BitVec 32)
  /-- CALL (R341): CALL pushes the next address and branches. -/
  | call (g : Issue) (disp : BitVec 32)
  /-- RET (R341): RET pops a target into PC. -/
  | ret (g : Issue)
  /-- JMPI (R341): JMPI jumps to a popped target. -/
  | jmpi (g : Issue)
  /-- CALLI (R341): CALLI pushes the next address and jumps to a popped target. -/
  | calli (g : Issue)
  /-- GATE (R398): GATE reads a gate entry, checks rights and pointers, switches ring and stack and pushes a gate frame. -/
  | gate (g : Issue) (n : Byte)
  /-- GRET (R399): GRET checks and pops a frame, restores ring, SP, NEST and PC, and pushes results. -/
  | gret (g : Issue)
  /-- LD (R348): LD8 to LD64 load zero-extended at an aligned address under the task's ring and context. -/
  | ld (g : Issue) (sz : Fin 4)
  /-- LDS (R348): LDS8 to LDS32 load sign-extended. -/
  | lds (g : Issue) (sz : Fin 3)
  /-- ST (R348): ST8 to ST64 store the low bytes of a value through the store buffer. -/
  | st (g : Issue) (sz : Fin 4)
  /-- STORE_BUFFER_RELEASE (R239): A store leaves the core's store buffer and is performed. -/
  | storeBufferRelease (c : Core)
  /-- XADD (R351): XADD atomically adds to an aligned memory or scratchpad word and pushes the old value. -/
  | xadd (g : Issue)
  /-- XCHG (R351): XCHG atomically exchanges an aligned word and pushes the old value. -/
  | xchg (g : Issue)
  /-- CAS (R351): CAS atomically writes n when the word equals e and pushes the old value. -/
  | cas (g : Issue)
  /-- SETSRC (R341): SETSRC writes the SRC string register. -/
  | setsrc (g : Issue)
  /-- SETDST (R341): SETDST writes the DST string register. -/
  | setdst (g : Issue)
  /-- SETCNT (R341): SETCNT writes the CNT string register. -/
  | setcnt (g : Issue)
  /-- GETSRC (R341): GETSRC pushes SRC. -/
  | getsrc (g : Issue)
  /-- GETDST (R341): GETDST pushes DST. -/
  | getdst (g : Issue)
  /-- GETCNT (R341): GETCNT pushes CNT. -/
  | getcnt (g : Issue)
  /-- MOVS (R355): MOVS copies elements from SRC to DST, repeated under REP until CNT is zero. -/
  | movs (g : Issue) (b2 : Byte) (limit : Option Nat)
  /-- FILLS (R355): FILLS stores the top entry's low bytes to DST, repeated under REP. -/
  | fills (g : Issue) (b2 : Byte) (limit : Option Nat)
  /-- CMPS (R355): CMPS compares elements at SRC and DST, stopping under REP when they differ. -/
  | cmps (g : Issue) (b2 : Byte) (limit : Option Nat)
  /-- SCANS (R355): SCANS compares elements at DST with the top entry, stopping under REP on the STOPNE condition. -/
  | scans (g : Issue) (b2 : Byte) (limit : Option Nat)
  /-- FADD (R357): FADD adds FP64 values in FPS.RMODE. -/
  | fadd (g : Issue)
  /-- FSUB (R357): FSUB subtracts FP64 values. -/
  | fsub (g : Issue)
  /-- FMUL (R357): FMUL multiplies FP64 values. -/
  | fmul (g : Issue)
  /-- FDIV (R357): FDIV divides FP64 values as a multi-cycle instruction. -/
  | fdiv (g : Issue)
  /-- FSQRT (R357): FSQRT takes the FP64 square root as a multi-cycle instruction. -/
  | fsqrt (g : Issue)
  /-- FMA (R357): FMA computes a × b + c rounded once. -/
  | fma (g : Issue)
  /-- FMIN (R357): FMIN delivers the IEEE minimum. -/
  | fmin (g : Issue)
  /-- FMAX (R357): FMAX delivers the IEEE maximum. -/
  | fmax (g : Issue)
  /-- FRINT (R341): FRINT rounds to an integral value in FPS.RMODE. -/
  | frint (g : Issue)
  /-- CVTIF (R358): CVTIF converts INT64 to FP64. -/
  | cvtif (g : Issue)
  /-- CVTFI (R358): CVTFI converts FP64 to INT64 under the conversion table. -/
  | cvtfi (g : Issue)
  /-- CVTSD (R358): CVTSD converts FP32 to FP64. -/
  | cvtsd (g : Issue)
  /-- CVTDS (R358): CVTDS converts FP64 to FP32. -/
  | cvtds (g : Issue)
  /-- FPGET (R363): FPGET takes any pending FP trap and pushes FPS. -/
  | fpget (g : Issue)
  /-- FPSET (R365): FPSET takes any pending FP trap and writes FPS, trapping with FPS_VALUE on a bad rounding mode. -/
  | fpset (g : Issue)
  /-- DADD (R366): DADD adds two DEC128 values on the stack, trapping on invalid nibbles. -/
  | dadd (g : Issue)
  /-- DSUB (R366): DSUB subtracts two DEC128 values on the stack. -/
  | dsub (g : Issue)
  /-- CHAIN_INSTRUCTION (R367): The CHAIN instruction drains the store buffer, reads a descriptor and issues a chain on the cluster's four SVUs. -/
  | chainInstruction (g : Issue)
  /-- LOFT (R288): The LOFT instruction is accepted into the named SVU's loft queue when it has room. -/
  | loft (g : Issue)
  /-- CWAIT (R369): CWAIT waits for the task's oldest unreported chain and pushes its completion word. -/
  | cwait (g : Issue)
  /-- SAVEL (R400): SAVEL stores the lower half of a stopped task's context to a save area. -/
  | savel (g : Issue)
  /-- SAVEU (R400): SAVEU stores the upper half of a stopped task's context. -/
  | saveu (g : Issue)
  /-- RESTL (R400): RESTL loads the lower half of a stopped task's context. -/
  | restl (g : Issue)
  /-- RESTU (R400): RESTU loads the upper half and installs cached entries. -/
  | restu (g : Issue)
  /-- LINE_FETCH (R373): A core's fetch of a 64-byte line into its line cache completes. -/
  | lineFetch (c : Core) (t : Task)
  /-- TRAP_ENTRY (R386): A precise or FP trap is entered 20 core clocks later, pushing a frame and starting the trap vector. -/
  | trapEntry (c : Core) (t : Task) (illegal : Option (List Byte))
  /-- INTERRUPT_ENTRY (R384): The highest-priority pending line above CPL is entered 20 core clocks later, abandoning waiting work. -/
  | interruptEntry (c : Core) (t : Task)
  /-- DROGUE_ENTRY (R392): A fault raised while entering a handler enters the drogue handler on the drogue stack at ring 0. -/
  | drogueEntry (c : Core)
  /-- ENTRY_SPILL_FAULT (R391): An entry spill that fails after the handler started enters the drogue handler at the next boundary. -/
  | entrySpillFault (c : Core) (t : Task)
  /-- TASK_STOP (R379): A write of CORE_TASK.STOP stops the selected task at its next boundary. -/
  | taskStop (c : Core) (w : RegWrite)
  /-- TASK_START (R379): A write of CORE_TASK.START moves an OFF, STOPPED or HALTED task to RUN. -/
  | taskStart (c : Core) (w : RegWrite)
  /-- TWIN_WRITE (R380): A write through the task window changes a stopped task's register word, subject to checks. -/
  | twinWrite (c : Core) (k : Fin 64) (w : RegWrite)
  /-- CORE_INT_RAISE (R382): A ring 0 write sets the pending bit of a task's interrupt line. -/
  | coreIntRaise (c : Core) (w : RegWrite)
  /-- CORE_PIN_WRITE (R375): A write of CORE_PIN loads and holds a pinned line, refused when it would break a valid vector. -/
  | corePinWrite (c : Core) (n : Fin 8) (w : RegWrite)
  /-- CORE_VEC_WRITE (R376): A write of a handler vector is refused when its line is not pinned. -/
  | coreVecWrite (c : Core) (which : Fin 3) (w : RegWrite)
  /-- DOORBELL_TAIL (R404): A doorbell write of TAIL is checked and sets TAIL, or sets DB_ERR when invalid. -/
  | doorbellTail (via : Doorbell) (r : Ring) (v : BitVec 32)
  /-- DOORBELL_CQ_HEAD (R405): A doorbell write of CQ_HEAD is checked and sets CQ_HEAD. -/
  | doorbellCqHead (via : Doorbell) (r : Ring) (v : BitVec 32)
  /-- PACKET_READ (R409): A running ring of a READY module reads a whole packet below TAIL and gives it a sequence number. -/
  | packetRead (r : Ring) (host : HostData)
  /-- DISPATCH_DECISION (R433): The dispatcher chooses a ready ring by class and weighted credit and starts one command. -/
  | dispatchDecision
  /-- NOP (R413): The NOP command does nothing and completes. -/
  | nop (r : Ring)
  /-- FENCE (R222): FENCE waits until every earlier-announced command of the named rings has completed or been discarded. -/
  | fence (r : Ring)
  /-- ACC_MERGE (R196): ACC_MERGE reads accumulator images, merges them in list order and writes the image, the extracted value or both. -/
  | accMerge (r : Ring)
  /-- PROG_LAUNCH (R415): PROG_LAUNCH sets an OFF cluster task's registers, pushes arguments and moves it to RUN. -/
  | progLaunch (r : Ring)
  /-- PROG_SIGNAL (R416): PROG_SIGNAL sets the pending bit of a line of a cluster task. -/
  | progSignal (r : Ring)
  /-- COPY (R414): COPY moves LENGTH bytes by the block mover, stopping at the lowest failing offset. -/
  | copy (r : Ring)
  /-- FILL (R414): FILL writes an 8-byte pattern over LENGTH bytes by the block mover. -/
  | fill (r : Ring)
  /-- XLAT_CTX_SET (R253): XLAT_CTX_SET writes a translation context and invalidates it. -/
  | xlatCtxSet (r : Ring)
  /-- XLAT_INVAL (R267): XLAT_INVAL drops cached translation entries by scope. -/
  | xlatInval (r : Ring)
  /-- XLAT_INVAL_COMPLETE (R269): The invalidation completes once no cache holds a dropped entry and every access translated from one is performed or discarded. -/
  | xlatInvalComplete (r : Ring)
  /-- BUF_ALLOC (R463): BUF_ALLOC takes the head of a pool's free list and returns its token. -/
  | bufAlloc (r : Ring)
  /-- BUF_FREE (R464): BUF_FREE returns an owned buffer to its pool, or refuses a stale or foreign token. -/
  | bufFree (r : Ring)
  /-- TIME_SET (R612): TIME_SET steps device time forward, slews it back, or with FORCE steps it and advances the epoch. -/
  | timeSet (r : Ring)
  /-- TIME_GET (R413): TIME_GET returns device time and its epoch. -/
  | timeGet (r : Ring)
  /-- POWER_CAP (R545): POWER_CAP sets or removes the operator cap within the installer limits. -/
  | powerCap (r : Ring)
  /-- ENVELOPE_QUERY (R528): ENVELOPE_QUERY returns the envelope in effect, the level and VIN. -/
  | envelopeQuery (r : Ring)
  /-- FABRIC_ROUTE_SET (R502): FABRIC_ROUTE_SET writes the primary and alternate route entries of a node. -/
  | fabricRouteSet (r : Ring)
  /-- PARTITION (R427): PARTITION sets a partition's slice map and binds rings to it. -/
  | partition (r : Ring)
  /-- LOG_READ (R598): LOG_READ copies trouble-log or audit records by sequence number to a destination. -/
  | logRead (r : Ring)
  /-- ROLE_AUTH (R622): ROLE_AUTH issues a challenge, verifies a response to open a session, or closes one. -/
  | roleAuth (r : Ring) (host : HostData)
  /-- LIFECYCLE (R614): LIFECYCLE moves the life-cycle state along a permitted transition, burns it and resets the module. -/
  | lifecycle (r : Ring)
  /-- FW_UPDATE_OPEN (R618): The OPEN stage erases the inactive bank and opens it for programming. -/
  | fwUpdateOpen (r : Ring)
  /-- FW_UPDATE_WRITE (R618): The WRITE stage copies image bytes into the bank on a CMD block-mover channel. -/
  | fwUpdateWrite (r : Ring)
  /-- FW_UPDATE_CHECK (R618): The CHECK stage verifies the bank's image signature and SVN. -/
  | fwUpdateCheck (r : Ring)
  /-- FW_UPDATE_ACTIVATE (R618): The ACTIVATE stage makes the bank the trial boot bank and closes programming. -/
  | fwUpdateActivate (r : Ring)
  /-- RESET_UNIT (R572): RESET_UNIT resets an SVU, cluster, channel, port or SUP_B in drain or forced mode. -/
  | resetUnit (r : Ring)
  /-- DRAIN_DONE (R233): A drained SVU has written every output below its commit index and its chain stops with ST_ABORTED_RESET. -/
  | drainDone
  /-- DRAIN_TIMEOUT (R234): A drain not finished within 40 µs becomes a forced reset and records RST_DRAIN_LATE. -/
  | drainTimeout
  /-- UNIT_RESET_DONE (R574): A reset unit returns to service and RESET_UNIT completes with the number of stopped ranges. -/
  | unitResetDone
  /-- FAULT_ACK (R589): FAULT_ACK acknowledges a source's pending class B or C acknowledgement by SEQ. -/
  | faultAck (r : Ring)
  /-- RING_ENABLE (R423): A write of CMDR_CTL.ENABLE moves a DISABLED ring with a valid configuration to RUN. -/
  | ringEnable (r : Ring) (w : RegWrite)
  /-- RING_RESTART (R424): A write of CMDR_CTL.RESTART returns a HALTED ring to RUN. -/
  | ringRestart (r : Ring) (w : RegWrite)
  /-- RING_RESET (R426): A write of CMDR_CTL.RESET stops the ring's work, posts completions, discards stop states and disables the ring. -/
  | ringReset (r : Ring) (w : RegWrite)
  /-- MBX_DOORBELL (R444): A write of MBX_DB_OUT sets bits in the other side's DB_IN. -/
  | mbxDoorbell (b : Mbx) (side : Bool) (w : RegWrite)
  /-- MBX_SEND (R445): A write of MBX_SEND appends a word to the other side's queue or drops it. -/
  | mbxSend (b : Mbx) (side : Bool) (w : RegWrite)
  /-- MBX_RECV (R445): A read of MBX_RECV removes and returns the oldest queued word, or zero with RECV_EMPTY. -/
  | mbxRecv (b : Mbx) (side : Bool) (m : Master) (width : Nat)
  /-- MBX_READY (R450): A side's agent writes READY, and the other side's PEER_READY reads 1. -/
  | mbxReady (b : Mbx) (side : Bool) (w : RegWrite)
  /-- BMV_ARM (R453): A write of BMV_CMD.ARM moves the shadow set to active and starts it, or holds it armed. -/
  | bmvArm (ch : BmvCh) (w : RegWrite)
  /-- BMV_ABORT (R454): A write of BMV_CMD.ABORT stops the active transfer, which ends with ST_ABORTED. -/
  | bmvAbort (ch : BmvCh) (w : RegWrite)
  /-- BURST_GRANT (R461): The block mover grants one burst read by priority, with every sixteenth grant to the oldest waiter. -/
  | burstGrant
  /-- BURST_READ_COMPLETE (R457): A burst's read completes, and writes of bursts with all lower reads done are issued. -/
  | burstReadComplete (ch : BmvCh) (host : HostData)
  /-- TRANSFER_END (R459): A transfer ends when every write is performed, latching status and raising its event, and an armed shadow set starts. -/
  | transferEnd (ch : BmvCh)
  /-- POOL_ENABLE (R462): Enabling a buffer pool makes every buffer free at generation 0 in ascending order. -/
  | poolEnable (p : Pool) (w : RegWrite)
  /-- HOST_LINK_TRAINING (R468): The host link trains to the widest width and highest rate, offering CXL when enabled. -/
  | hostLinkTraining (width : Nat) (speed : Nat) (cxl : Bool)
  /-- CONFIGURATION_REQUEST (R470): A configuration request is answered with Request Retry Status until configuration-ready, then served. -/
  | configurationRequest (write : Option Word) (off : Nat) (width : Nat)
  /-- CONFIGURATION_READY (R470): The module becomes configuration-ready after PERST_N release, an FLR or a hot reset. -/
  | configurationReady
  /-- ATOMIC_OP (R475): The host's AtomicOp request to memory or a scratchpad window is performed indivisibly. -/
  | atomicOp (op : AtomicKind) (off : Nat) (size : Nat) (a : Nat) (b : Nat)
  /-- CXL_MEM_REQUEST (R478): A CXL.mem request within the committed decoder reaches the memory range and is tracked in the directory. -/
  | cxlMemRequest (write : Option LineData) (ga : Nat) (exclusive : Bool)
  /-- HDM_DECODER_COMMIT (R478): The host commits the HDM decoder, refused unless 3 TiB and one way. -/
  | hdmDecoderCommit (base : Nat) (size : Nat) (ways : Nat)
  /-- BACK_INVALIDATE (R246): The module back-invalidates a host-held line before another requester writes or reads it. -/
  | backInvalidate (line : Nat) (data : Option LineData)
  /-- HOST_COMPLETION (R476): A completion from host memory arrives for a module request. -/
  | hostCompletion (tag : Nat) (status : Nat) (data : List Byte)
  /-- HOST_COMPLETION_TIMEOUT (R476): A host request without completion times out and ends with ST_NOT_READY. -/
  | hostCompletionTimeout (tag : Nat)
  /-- MSIX_UNMASK (R481): Unmasking a vector with its pending bit set sends the merged message. -/
  | msixUnmask (vec : Nat) (w : RegWrite)
  /-- FLR (R482): A function-level reset arrives over the host link. -/
  | flr
  /-- HOT_RESET (R482): A hot reset arrives over the host link and causes a host-interface reset. -/
  | hotReset
  /-- HOST_LINK_DOWN (R482): The host link leaves L0, causing a host-interface reset that drops the CXL directory. -/
  | hostLinkDown
  /-- PERST_N_ASSERT (R482): PERST_N is asserted while VIN is valid, causing a host-interface reset. -/
  | perstNAssert
  /-- PERST_N_RELEASE (R470): PERST_N is released and the host link begins training. -/
  | perstNRelease
  /-- D3HOT (R485): A transition to D3hot stops host requests and messages. -/
  | d3hot (enter : Bool)
  /-- HOST_LINK_ERROR (R579): AER reports an uncorrectable host-link error and HIF_LINK is recorded. -/
  | hostLinkError (uncorrectable : Bool)
  /-- PORT_ENABLE (R488): A write of JP_CFG.ENABLE = 1 starts lane locking and training of a port. -/
  | portEnable (p : Port) (w : RegWrite)
  /-- PORT_DISABLE (R506): A write of JP_CFG.ENABLE = 0 puts the port into DOWN. -/
  | portDisable (p : Port) (w : RegWrite)
  /-- TRAIN_RECORD (R488): A peer's TRAIN record arrives, the delay is measured, and the port enters UP or stays in TRAINING. -/
  | trainRecord (p : Port) (rec : TrainRec)
  /-- TRAINING_RETRY (R488): A port that cannot lock a lane pair retries training after 1 s. -/
  | trainingRetry (p : Port)
  /-- CAL_PAUSE (R490): A lane without an idle gap for 250 ms forces a recalibration pause of at most 1 µs. -/
  | calPause (p : Port)
  /-- FLIT_RECEIVE (R492): A receiver accepts an in-order flit with correct CRC and returns credits, or discards it and sends NAK. -/
  | flitReceive (p : Port) (bytes : List Byte)
  /-- NAK (R492): A NAK makes the sender replay every flit after ACK in order. -/
  | nak (p : Port) (seq : Nat)
  /-- RESET (R491): A RESET flit tells the receiver that the sender's link state is new. -/
  | reset (p : Port)
  /-- LANE_LOCK_LOSS (R493): A lane loses lock and the port enters RETRAIN. -/
  | laneLockLoss (p : Port) (lanes : Nat)
  /-- RETRAIN_TIMEOUT (R493): A port not UP within RETRAIN_MAX enters DOWN. -/
  | retrainTimeout (p : Port)
  /-- DOWN_RETRY (R506): A DOWN port with ENABLE 1 starts training again after 1 s. -/
  | downRetry (p : Port)
  /-- RD_REQ (R504): A remote read request enters the crossbar through its fabric port and is answered with RD_RESP. -/
  | rdReq (p : Port)
  /-- WR_REQ (R504): A remote write request is performed at the target and answered with WR_ACK. -/
  | wrReq (p : Port)
  /-- ATOM_REQ (R495): A remote atomic, including MERGE64, is performed at the target and answered with ATOM_RESP. -/
  | atomReq (p : Port)
  /-- RD_RESP (R495): A read response delivers data, poison or a status to the requester. -/
  | rdResp (p : Port)
  /-- WR_ACK (R503): A write acknowledgement makes the remote write performed. -/
  | wrAck (p : Port)
  /-- ATOM_RESP (R495): An atomic response returns the old value. -/
  | atomResp (p : Port)
  /-- MSG (R514): A message piece is received into a pool buffer and, after the last piece, posted to an arrival queue. -/
  | msg (p : Port)
  /-- MSG_ACK (R513): A message acknowledgement ends a send with its status in JFAB_TX_STAT. -/
  | msgAck (p : Port)
  /-- TIME (R517): A TIME message on UP_PORT corrects device time by step, slew or epoch change. -/
  | time (p : Port)
  /-- TIME_SEND (R516): Every 1 ms each UP Jusen port sends a TIME message unless SOURCE is FREE. -/
  | timeSend (p : Port)
  /-- RESET_NOTICE (R509): A RESET_NOTICE with a new BOOT fails outstanding requests to that node with ST_PEER_RESET. -/
  | resetNotice (p : Port)
  /-- MESSAGE_FORWARD (R497): A message for another node is forwarded on a port chosen from its route entry, or discarded with ST_FABRIC_UNREACHABLE. -/
  | messageForward (p : Port)
  /-- RESPONSE_TIMEOUT (R507): A remote request without response within RESP_TIMEOUT completes with ST_FABRIC_UNREACHABLE. -/
  | responseTimeout
  /-- JFAB_ROUTE_WRITE (R502): A direct write of a route register is checked and kept whole on failure. -/
  | jfabRouteWrite (n : Node) (alt : Bool) (w : RegWrite)
  /-- TX_GO (R513): A write of JFAB_TX_GO sends a buffer as message pieces or as an Ethernet frame. -/
  | txGo (w : RegWrite)
  /-- ETHERNET_FRAME (R520): A frame arrives on an Ethernet-mode port and goes to the transport, an arrival queue or is dropped. -/
  | ethernetFrame (p : Port) (frame : List Byte) (fcsError : Bool)
  /-- PTP_INFO_READ (R522): A read of JP_PTP_INFO removes the oldest time stamp and exposes its time. -/
  | ptpInfoRead (p : Port) (m : Master) (width : Nat) (lane : Nat)
  /-- VIN_SAMPLE (R527): Every 10 µs VIN is sampled and the input-derived envelope recomputed. -/
  | vinSample (vin : Nat) (iin : Nat)
  /-- ENV_WAIT_EXPIRY (R538): The oldest request has waited ENV_WAIT and the level is lowered by one step. -/
  | envWaitExpiry
  /-- UP_HOLD_EXPIRY (R538): Raise conditions have held for UP_HOLD and the level is raised by one step. -/
  | upHoldExpiry
  /-- BUS_STALL (R543): The bus falls to 9.8 V and every SVU stops its pipes at the next group boundary. -/
  | busStall
  /-- BUS_RECOVER (R543): The bus recovers to 11.0 V and the pipes start again. -/
  | busRecover
  /-- BROWN_OUT (R554): The bus falls to 9.6 V and the module performs a forced entry to HOLD, recording PWR_SHED. -/
  | brownOut
  /-- THROTTLE (R547): A junction sensor at THROTTLE lowers the level within 100 µs. -/
  | throttle (hottest : Nat)
  /-- THROTTLE_REPEAT (R547): Each further 100 µs at or above THROTTLE lowers the level again. -/
  | throttleRepeat (hottest : Nat)
  /-- PWR_LIMIT_WRITE (R531): A write of PWR_LIMIT checks its fields in order and applies SLEW when no ramp is scheduled. -/
  | pwrLimitWrite (w : RegWrite)
  /-- DOMAIN_REQUEST (R548): A write of PWR_DOMAIN_REQ switches one power domain on or off, or refuses it. -/
  | domainRequest (w : RegWrite)
  /-- DOMAIN_WAKE_DONE (R532): A waking domain completes its wake and RESULT reads ST_OK. -/
  | domainWakeDone (d : Nat)
  /-- FLASH_IDLE_OFF (R551): The woken flash domain returns to off 1 ms after the last access. -/
  | flashIdleOff
  /-- POWER_STATE_REQUEST (R550): A write of PWR_STATE_REQ.GO requests a planned transition, refused or suspended under R236. -/
  | powerStateRequest (w : RegWrite)
  /-- TRANSITION_COMPLETE (R552): A power-state transition completes, and on return to RUN held torn completions are restored and posted. -/
  | transitionComplete
  /-- WAKE_N (R552): WAKE_N held low for 100 µs leaves HOLD, MOORED or STOWED. -/
  | wakeN
  /-- REFCLK_LOST (R560): REFCLK is declared lost, every PLL coasts and the level is held at 3. -/
  | refclkLost
  /-- REFCLK_GOOD (R563): REFCLK has been good for 1 ms and coasting PLLs begin to relock. -/
  | refclkGood
  /-- PLL_LOCK (R563): A PLL locks and COASTING clears when none coasts. -/
  | pllLock (n : Pll)
  /-- PLL_UNLOCK (R575): A PLL loses lock while REFCLK is good and coasts. -/
  | pllUnlock (n : Pll)
  /-- POWER_ON_RESET (R601): VIN valid starts the power-on timeline: straps, fuses, time, loader, training and wipes. -/
  | powerOnReset (straps : Straps)
  /-- MODULE_RESET (R569): A module reset resets everything but the kept items, wipes memory, advances BOOT and restarts at step 4. -/
  | moduleReset (w : RegWrite)
  /-- SET_READY (R603): A write of LCS_BOOT.SET_READY makes the module READY when its conditions hold. -/
  | setReady (w : RegWrite)
  /-- BOOT_TIMEOUT (R608): READY not set within 900 ms sets PHASE FAILED. -/
  | bootTimeout
  /-- FW_CONFIRM (R620): A write of LCS_FW.CONFIRM confirms a trial image and raises MIN_SVN. -/
  | fwConfirm (w : RegWrite)
  /-- CHALLENGE_EXPIRY (R622): An unanswered challenge expires 10 s after it was issued. -/
  | challengeExpiry
  /-- PATH_UNLOCK (R623): A path locked after eight failed responses unlocks after 60 s. -/
  | pathUnlock (path : Nat)
  /-- SESSION_IDLE_EXPIRY (R624): A session with no command using its rights for IDLE seconds ends. -/
  | sessionIdleExpiry (session : Nat)
  /-- LEAK_STEP (R583): A source's leaky counter falls by 1 every P µs. -/
  | leakStep (src : Source)
  /-- CLASS_DEMOTION (R585): A promoted source with no event for WINDOW ms falls one class toward its default. -/
  | classDemotion (src : Source)
  /-- ESC_B_EXPIRY (R588): An unacknowledged class B timer expires and a class C record is written with ESCALATED. -/
  | escBExpiry (src : Source)
  /-- ESC_C_EXPIRY (R588): An unacknowledged class C timer expires and the module resets itself. -/
  | escCExpiry (src : Source)
  /-- FLT_ACK (R589): A 64-bit write of FLT_ACK acknowledges a source's pending acknowledgement. -/
  | fltAck (w : RegWrite)
  /-- FLT_FENCE (R594): A write of FLT_FENCE.GO fences an SVU, cluster, channel or port. -/
  | fltFence (w : RegWrite)
  /-- LOCK_BREAK (R650): A lock held 128 control-matrix clocks is broken and held requests are granted. -/
  | lockBreak
  /-- THERMAL_TRIP (R661): A junction at 115 °C drives THERMTRIP_N low and stops the module in the ripcord state. -/
  | thermalTrip (temp : Nat)
  /-- VIN_LOSS (R665): VIN below 5.5 V for 20 µs stops every domain. -/
  | vinLoss
  /-- TAP_INSTRUCTION (R671): An IEEE 1149.1 instruction is selected, and a first EXTEST-class instruction stops the module. -/
  | tapInstruction (ir : Nat) (dr : Word)
  /-- TEST_LOGIC_RESET (R670): The test access port enters Test-Logic-Reset and releases the lands from the boundary register. -/
  | testLogicReset
  /-- GLOLEY_STATUS (R636): STATUS returns time, fault and boot images and the alert causes, which it clears. -/
  | gloleyStatus (f : Frame)
  /-- TELEMETRY (R636): TELEMETRY returns power, clock and fault register images. -/
  | telemetry (f : Frame)
  /-- GLOLEY_LOG_READ (R636): The Gloley LOG_READ request returns up to eight trouble-log or four audit records. -/
  | gloleyLogRead (f : Frame)
  /-- GLOLEY_FAULT_ACK (R639): The Gloley FAULT_ACK request acknowledges class C as the host. -/
  | gloleyFaultAck (f : Frame)
  /-- GLOLEY_POWER_CAP (R545): The Gloley POWER_CAP request sets or removes the board cap. -/
  | gloleyPowerCap (f : Frame)
  /-- GLOLEY_ROLE_AUTH (R636): The Gloley ROLE_AUTH request runs a challenge-response session on the Gloley path. -/
  | gloleyRoleAuth (f : Frame)
  /-- GLOLEY_RESET (R640): The Gloley RESET request answers ST_OK and schedules a module reset. -/
  | gloleyReset (f : Frame)
  /-- GLOLEY_RESET_START (R640): The requested module reset starts 1 ms after the response is read, or 10 ms after the request. -/
  | gloleyResetStart
  /-- GLOLEY_POWER_STATE (R641): The Gloley POWER_STATE request requests a planned power-state transition. -/
  | gloleyPowerState (f : Frame)
  /-- MAILBOX (R636): The MAILBOX request sets READY, rings doorbells, sends and receives words on the P side of MBX_28. -/
  | mailbox (f : Frame)
  /-- FW_RECOVERY_OPEN (R636): The recovery OPEN stage erases bank 0 for a recovery image. -/
  | fwRecoveryOpen (f : Frame)
  /-- FW_RECOVERY_WRITE (R636): The recovery WRITE stage writes payload bytes into bank 0 at the next offset. -/
  | fwRecoveryWrite (f : Frame)
  /-- FW_RECOVERY_CHECK (R636): The recovery CHECK stage verifies the image in bank 0. -/
  | fwRecoveryCheck (f : Frame)
  /-- FW_RECOVERY_COMMIT (R607): The recovery COMMIT stage sets bank 0 as boot bank and performs a module reset. -/
  | fwRecoveryCommit (f : Frame)
  /-- GLOLEY_RESPONSE_READ (R634): A private read returns the ready response, or a PENDING header before it is ready. -/
  | gloleyResponseRead
  /-- SETDASA (R630): SETDASA assigns a dynamic address and moves the port to I3C. -/
  | setdasa (addr : Nat)
  /-- ENTDAA (R630): ENTDAA assigns a dynamic address by arbitration. -/
  | entdaa (addr : Nat)
  /-- SETNEWDA (R631): SETNEWDA changes the dynamic address. -/
  | setnewda (addr : Nat)
  /-- RSTDAA (R630): RSTDAA returns the port to I2C at its static address. -/
  | rstdaa
  /-- GETMRL (R631): GETMRL reports a maximum read length of 274 bytes. -/
  | getmrl
  /-- GETMWL (R631): GETMWL reports a maximum write length of 274 bytes. -/
  | getmwl
  /-- ENEC (R631): ENEC enables in-band interrupts. -/
  | enec
  /-- DISEC (R631): DISEC disables in-band interrupts. -/
  | disec
  /-- TAIL_SIZE_WRITE (R249): A write of INTLV_TAIL_SIZE checks the new area and marks it pending. -/
  | tailSizeWrite (w : RegWrite)
  /-- TAIL_AREA_APPLY (R250): A pending tail area takes effect at the first moment no tail record is held. -/
  | tailAreaApply
  /-- CXL_CACHE_SNOOP (R477): A snoop from the host over CXL.cache is answered as a miss, without data. -/
  | cxlCacheSnoop
  /-- DOMAIN_OFF_DONE (R548): A domain switching off completes its shutdown, BUSY clears and RESULT reads ST_OK. -/
  | domainOffDone (d : Nat)
  /-- TIME_SLEW_DONE (R612): A device-time slew reaches its target, SLEWING clears and time runs at the plain rate again. -/
  | timeSlewDone
  /-- ETHERNET_SEND_DONE (R513): An Ethernet frame started by JFAB_TX_GO has been sent, and the send ends with ST_OK in JFAB_TX_STAT. -/
  | ethernetSendDone
  /-- INPUT_RAMP_DONE (R531): An input ramp reaches its target current, and a pending write of PWR_LIMIT.SLEW takes effect. -/
  | inputRampDone
  /-- PORT_DRAIN_EXPIRY (R572): A drain reset of a Jusen port ends its 40 µs wait for acknowledgements, and the port enters DOWN. -/
  | portDrainExpiry (p : Port)
  deriving DecidableEq, Repr

end Sys2Proof
end

