-- ==== Sys2Proof/Decode.lean ====
section
/-! DEFINITION. The decoder of the opcode table's words. No row of the table gives its command bits: a command is
taken from outside as what it is, so no word spells one. -/
namespace Sys2Proof

/-- The command a word spells by the table's bits: none does. -/
def decodeTableWord (_nbits _w : Nat) : Option Instr := none

end Sys2Proof
end

