-- ==== Sys2Proof/Config.lean ====
section
/-! DEFINITION. What the spec fixes per part or leaves open. Every constant here is opaque: it has no
body, so no proof can see its value and a statement about it holds for every value.
The log rows under notes/assumptions name each one. -/
namespace Sys2Proof.Config

/-- A value the spec leaves open where the machine goes on: free value number `n` of the run (log 3). -/
opaque freeNat : Nat → Nat

/-- The fuse-loaded value ("F", R10) of the register at a register-space offset (log 4). -/
opaque fuse : Nat → Word

/-- The column faults of a channel that its tower's repair record holds at the training of a boot, each a bank and a column: the spec does
not say how they are found (R80, R81, log 71). -/
opaque columnFaults : (channel boot : Nat) → List (Nat × Nat)

/-- What a LOFT operation reads of a register at an element that the register does not hold: EXPAND's q(i) may lie there, and the spec
states no value (R173, R286, log 72). -/
opaque loftBeyond : Nat → Nat

/-- The byte the firmware flash holds at an offset before anything programs or erases it (log 5). -/
opaque flashByte : Nat → Byte

/-- The byte an erased flash location reads as (log 5). -/
opaque flashErased : Byte

/-- SHA-384 of a byte string, as the little-endian number of its 48 bytes (log 6). -/
opaque sha384 : List Byte → Nat

/-- ECDSA P-384 verification of a signature over a digest under a key (log 6). -/
opaque ecdsaVerify : (key : Nat) → (digest : Nat) → (signature : Nat) → Bool

/-- The public keys the part holds: the maker's image key and the role keys, by number (log 6). -/
opaque publicKey : Nat → Nat

end Sys2Proof.Config
end

