-- ==== Sys2Proof/Machine/Bits.lean ====
section
/-! DEFINITION. Bit fields, byte order and sign extension, and the sorted tables that hold
everything the module has many of. Bit ranges follow 00_scope: [hi:lo], bit 0 least significant. -/
namespace Sys2Proof.Machine

/-- The value of bits [hi:lo] of a natural number. -/
def bitsOf (n hi lo : Nat) : Nat := n / 2 ^ lo % 2 ^ (hi + 1 - lo)

/-- The value of bits [hi:lo] of a register word. -/
def fieldOf (w : Word) (hi lo : Nat) : Nat := bitsOf w.toNat hi lo

/-- The word with bits [hi:lo] replaced by the low bits of `v`, every other bit kept. -/
def setField (w : Word) (hi lo v : Nat) : Word :=
  BitVec.ofNat 64
    (w.toNat % 2 ^ lo + v % 2 ^ (hi + 1 - lo) * 2 ^ lo + w.toNat / 2 ^ (hi + 1) * 2 ^ (hi + 1))

/-- The mask of bits [hi:lo]. -/
def maskOf (hi lo : Nat) : Nat := (2 ^ (hi + 1 - lo) - 1) * 2 ^ lo

/-- Bit `i` of a natural number. -/
def bitOf (n i : Nat) : Bool := n / 2 ^ i % 2 == 1

/-- A count that stops at 2^w - 1 (R50 and every "saturating" counter). -/
def satAdd (w a b : Nat) : Nat := min (a + b) (2 ^ w - 1)

/-- The natural number held by bytes in little-endian order. -/
def leNat : List Byte → Nat
  | [] => 0
  | b :: bs => b.toNat + 256 * leNat bs

/-- The `k` low bytes of `n` in little-endian order. -/
def leBytes : Nat → Nat → List Byte
  | 0, _ => []
  | k + 1, n => BitVec.ofNat 8 n :: leBytes k (n / 256)

/-- The bits pattern `n` of `w` bits read as a two's-complement integer. -/
def toSigned (w n : Nat) : Int :=
  let m := n % 2 ^ w
  if 2 * m < 2 ^ w then (m : Int) else (m : Int) - (2 ^ w : Nat)

/-- An integer wrapped to `w` bits. -/
def ofSigned (w : Nat) (z : Int) : Nat := (z % ((2 ^ w : Nat) : Int)).toNat

/-- The pattern `n` of `w` bits sign-extended to 64 bits. -/
def signExtend (w n : Nat) : Word := BitVec.ofNat 64 (ofSigned 64 (toSigned w n))

/-- A word read as a signed integer. -/
def sInt (w : Word) : Int := toSigned 64 w.toNat

/-- A word read from a signed integer modulo 2^64. -/
def ofInt64 (z : Int) : Word := BitVec.ofNat 64 (ofSigned 64 z)

/-- A Boolean as the bit 0 or 1. -/
def b2n (b : Bool) : Nat := if b then 1 else 0

/-- What is held by number: pairs in rising order of the key. -/
abbrev Tab (α : Type) := List (Nat × α)

/-- The entry of key `k`, or `d` when the table lists none. -/
def tabGet {α : Type} : Tab α → α → Nat → α
  | [], d, _ => d
  | (k', v) :: t, d, k => if k' = k then v else tabGet t d k

/-- The entry of key `k`, when the table lists one. -/
def tabFind {α : Type} : Tab α → Nat → Option α
  | [], _ => none
  | (k', v) :: t, k => if k' = k then some v else tabFind t k

/-- The table with the entry of key `k` set, in its sorted place. -/
def tabPut {α : Type} : Tab α → Nat → α → Tab α
  | [], k, v => [(k, v)]
  | (k', v') :: t, k, v =>
    if k' = k then (k, v) :: t
    else if k < k' then (k, v) :: (k', v') :: t
    else (k', v') :: tabPut t k v

/-- The table without key `k`. -/
def tabDel {α : Type} (t : Tab α) (k : Nat) : Tab α := t.filter (fun p => p.1 != k)

/-- The numbers `a, a + 1, …, a + n - 1`. -/
def rangeFrom (a n : Nat) : List Nat := (List.range n).map (a + ·)

/-- The least element of a list that meets a condition. -/
def leastWith (p : Nat → Bool) (l : List Nat) : Option Nat :=
  (l.filter p).foldl (fun m x => match m with | none => some x | some y => some (min x y)) none

/-- Every bit number below `n` that is set in `w`. -/
def setBits (n w : Nat) : List Nat := (List.range n).filter (bitOf w)

/-- The list with entry `i` replaced. -/
def listSet {α : Type} (l : List α) (i : Nat) (v : α) : List α := l.set i v

/-- The first entry of a list that meets a condition, with its place. -/
def findPlace {α : Type} (p : α → Bool) (l : List α) : Option Nat :=
  let i := l.findIdx p
  if i < l.length then some i else none

end Sys2Proof.Machine
end

