-- ==== Sys2Proof/Machine/Float.lean ====
section
/-! DEFINITION. Element types and IEEE 754-2019 arithmetic on bit patterns: exact dyadic results
rounded once (R139 to R155, R160 to R163, R176 to R178, R357 to R362). -/
namespace Sys2Proof.Machine

/-- The element types of R101. -/
inductive EType where
  | fp64 | fp32 | bf16 | fp16 | e4m3 | e5m2 | int8 | uint8 | int16 | uint16 | int32 | uint32
  | int64 | uint64 | dec128
  deriving DecidableEq, Repr

/-- The type an ETYPE code names; 15 is not used (R101). -/
def etypeOf : Nat → Option EType
  | 0 => some .fp64 | 1 => some .fp32 | 2 => some .bf16 | 3 => some .fp16 | 4 => some .e4m3 | 5 => some .e5m2
  | 6 => some .int8 | 7 => some .uint8 | 8 => some .int16 | 9 => some .uint16 | 10 => some .int32
  | 11 => some .uint32 | 12 => some .int64 | 13 => some .uint64 | 14 => some .dec128 | _ => none

/-- The ETYPE code of a type (R101). -/
def etypeCode : EType → Nat
  | .fp64 => 0 | .fp32 => 1 | .bf16 => 2 | .fp16 => 3 | .e4m3 => 4 | .e5m2 => 5 | .int8 => 6 | .uint8 => 7
  | .int16 => 8 | .uint16 => 9 | .int32 => 10 | .uint32 => 11 | .int64 => 12 | .uint64 => 13 | .dec128 => 14

/-- Width of an element in bits (R101). -/
def EType.bits : EType → Nat
  | .fp64 => 64 | .fp32 => 32 | .bf16 => 16 | .fp16 => 16 | .e4m3 => 8 | .e5m2 => 8 | .int8 => 8 | .uint8 => 8
  | .int16 => 16 | .uint16 => 16 | .int32 => 32 | .uint32 => 32 | .int64 => 64 | .uint64 => 64 | .dec128 => 128

/-- Size of an element in bytes. -/
def EType.size (t : EType) : Nat := t.bits / 8

/-- The set FP of 05_stream_operations. -/
def EType.isFP : EType → Bool
  | .fp64 | .fp32 | .bf16 | .fp16 | .e4m3 | .e5m2 => true
  | _ => false

/-- The set FA. -/
def EType.isFA : EType → Bool
  | .fp64 | .fp32 | .bf16 | .fp16 => true
  | _ => false

/-- The set INT. -/
def EType.isInt (t : EType) : Bool := !t.isFP && t != .dec128

/-- Signed integer types. -/
def EType.isSigned : EType → Bool
  | .int8 | .int16 | .int32 | .int64 => true
  | _ => false

/-- Exponent bits of a floating-point type (R140). -/
def EType.ebits : EType → Nat
  | .fp64 => 11 | .fp32 => 8 | .bf16 => 8 | .fp16 => 5 | .e4m3 => 4 | .e5m2 => 5 | _ => 0

/-- Fraction bits of a floating-point type (R140). -/
def EType.fbits : EType → Nat
  | .fp64 => 52 | .fp32 => 23 | .bf16 => 7 | .fp16 => 10 | .e4m3 => 3 | .e5m2 => 2 | _ => 0

/-- Exponent bias (R140). -/
def EType.bias (t : EType) : Nat := 2 ^ (t.ebits - 1) - 1

/-- Exponent of the smallest subnormal. -/
def EType.qmin (t : EType) : Int := 1 - (t.bias : Int) - (t.fbits : Int)

/-- The largest finite magnitude's bit pattern (R140, R141). -/
def EType.maxBits (t : EType) : Nat :=
  if t = .e4m3 then 0x7e else (2 ^ t.ebits - 1) * 2 ^ t.fbits - 1

/-- Rounding modes (R95). -/
inductive RMode where
  | rne | rtz | rup | rdn | rna
  deriving DecidableEq, Repr

/-- The rounding mode of a code; 5, 6 and 7 name none (R95). -/
def rmodeOf : Nat → Option RMode
  | 0 => some .rne | 1 => some .rtz | 2 => some .rup | 3 => some .rdn | 4 => some .rna | _ => none

/-- Flag bits in the order of R317: NV, DZ, OF, UF, NX, SAT. -/
def fNV : Nat := 32
def fDZ : Nat := 16
def fOF : Nat := 8
def fUF : Nat := 4
def fNX : Nat := 2
def fSAT : Nat := 1

/-- A floating-point operand taken apart (R140 to R142). A finite value is (-1)^neg × m × 2^e. -/
inductive FVal where
  | nan (neg quiet : Bool) (payload : Nat)
  | inf (neg : Bool)
  | fin (neg : Bool) (m : Nat) (e : Int)
  deriving DecidableEq, Repr

/-- The value of a bit pattern; a NaN's payload lies below the quiet bit. -/
def fdecode (t : EType) (n : Nat) : FVal :=
  let neg := bitOf n (t.bits - 1)
  let ex := n / 2 ^ t.fbits % 2 ^ t.ebits
  let fr := n % 2 ^ t.fbits
  if t = .e4m3 then
    if ex = 15 ∧ fr = 7 then .nan neg true 0
    else if ex = 0 then .fin neg fr t.qmin else .fin neg (2 ^ t.fbits + fr) (t.qmin + (ex : Int) - 1)
  else if ex = 2 ^ t.ebits - 1 then
    if fr = 0 then .inf neg else .nan neg (bitOf fr (t.fbits - 1)) (fr % 2 ^ (t.fbits - 1))
  else if ex = 0 then .fin neg fr t.qmin
  else .fin neg (2 ^ t.fbits + fr) (t.qmin + (ex : Int) - 1)

/-- The sign bit in place. -/
def signBit (t : EType) (neg : Bool) : Nat := if neg then 2 ^ (t.bits - 1) else 0

def FVal.isNan : FVal → Bool
  | .nan .. => true
  | _ => false

def FVal.isSNan : FVal → Bool
  | .nan _ q _ => !q
  | _ => false

def FVal.isInf : FVal → Bool
  | .inf _ => true
  | _ => false

def FVal.isZero : FVal → Bool
  | .fin _ m _ => m == 0
  | _ => false

def FVal.neg? : FVal → Bool
  | .nan s _ _ => s
  | .inf s => s
  | .fin s _ _ => s

/-- The default NaN of a type (R151). -/
def defaultNan (t : EType) : Nat :=
  if t = .e4m3 then 0x7f else (2 ^ t.ebits - 1) * 2 ^ t.fbits + 2 ^ (t.fbits - 1)

/-- Infinity of a type other than FP8-E4M3; for FP8-E4M3 the choice of R153 by `sat`. -/
def infBits (t : EType) (neg sat : Bool) : Nat :=
  signBit t neg + (if t = .e4m3 then (if sat then 0x7e else 0x7f) else (2 ^ t.ebits - 1) * 2 ^ t.fbits)

/-- A NaN of `src` quieted and converted to `dst`, payload kept from its most significant end (R150, R152). -/
def nanTo (src dst : EType) (neg : Bool) (payload : Nat) : Nat :=
  if dst = .e4m3 then signBit dst neg + 0x7f
  else
    let ps := src.fbits - 1
    let pd := dst.fbits - 1
    let p := if src = .e4m3 then 0 else if pd ≤ ps then payload / 2 ^ (ps - pd) else payload * 2 ^ (pd - ps)
    signBit dst neg + (2 ^ dst.ebits - 1) * 2 ^ dst.fbits + 2 ^ pd + p

/-- `m × 2^-d` rounded to an integer in a mode for a value of the given sign, and whether it is inexact. -/
def roundShift (rm : RMode) (neg : Bool) (m d : Nat) : Nat × Bool :=
  let q := m / 2 ^ d
  let r := m % 2 ^ d
  let up :=
    match rm with
    | .rtz => false
    | .rup => !neg && r != 0
    | .rdn => neg && r != 0
    | .rna => 2 * r ≥ 2 ^ d && r != 0
    | .rne => 2 * r > 2 ^ d || (2 * r == 2 ^ d && r != 0 && q % 2 == 1)
  (q + b2n up, r != 0)

/-- `m × 2^e` as a multiple of `2^q`, rounded. -/
def roundAt (rm : RMode) (neg : Bool) (m : Nat) (e q : Int) : Nat × Bool :=
  if q ≤ e then (m * 2 ^ (e - q).toNat, false) else roundShift rm neg m (q - e).toNat

/-- The magnitude pattern and flags of a non-zero exact value rounded once to a type (R145 to R147, R153). -/
def roundMag (t : EType) (rm : RMode) (sat neg : Bool) (m : Nat) (e : Int) : Nat × Nat :=
  let ex : Int := (Nat.log2 m : Int) + e
  let q0 := ex - (t.fbits : Int)
  let (n0, _) := roundAt rm neg m e q0
  let bits0 := (q0 - t.qmin).toNat * 2 ^ t.fbits + n0
  if t.qmin ≤ q0 ∧ t.maxBits < bits0 then
    let toInf :=
      match rm with
      | .rne | .rna => true
      | .rtz => false
      | .rup => !neg
      | .rdn => neg
    ((if toInf then infBits t false sat else t.maxBits), fOF + fNX)
  else
    let q := max q0 t.qmin
    let (n, inexact) := roundAt rm neg m e q
    let bits := (q - t.qmin).toNat * 2 ^ t.fbits + n
    let tiny := decide (q0 < t.qmin) && !(decide (t.qmin - 1 = q0) && n0 == 2 ^ (t.fbits + 1))
    (bits, if inexact then fNX + (if tiny then fUF else 0) else 0)

/-- An exact value `z × 2^e` rounded to a type; `zneg` is the sign of an exact zero. -/
def roundDyadic (t : EType) (rm : RMode) (sat zneg : Bool) (z e : Int) : Nat × Nat :=
  if z = 0 then (signBit t zneg, 0)
  else
    let neg := decide (z < 0)
    let (b, f) := roundMag t rm sat neg z.natAbs e
    (signBit t neg + b, f)

/-- The signed integer of a finite operand scaled to exponent `e0`. -/
def scaled (neg : Bool) (m : Nat) (e e0 : Int) : Int :=
  let v : Int := (m : Int) * 2 ^ (e - e0).toNat
  if neg then -v else v

/-- NV when an operand is a signalling NaN (R149). -/
def nvOf (vs : List FVal) : Nat := if vs.any FVal.isSNan then fNV else 0

/-- The first NaN among operands with their types, quieted in `dst` (R150). -/
def firstNan (dst : EType) : List (EType × FVal) → Option Nat
  | [] => none
  | (t, .nan s _ p) :: _ => some (nanTo t dst s p)
  | _ :: r => firstNan dst r

/-- a × b + c with the product and the addend negated on request, rounded once to `dst`
(FADD to FNMS, FMULW and FMAW; R145, R161, R162). `useC = false` leaves out the addend. -/
def fmaCore (ti tc dst : EType) (rm : RMode) (sat negP negC useC : Bool) (a b c : Nat) : Nat × Nat :=
  let va := fdecode ti a
  let vb := fdecode ti b
  let vc := if useC then fdecode tc c else .fin false 0 0
  let nv := nvOf [va, vb, vc]
  let badProd := (va.isInf && vb.isZero) || (va.isZero && vb.isInf)
  match firstNan dst [(ti, va), (ti, vb), (tc, vc)] with
  | some r => (r, if badProd && !va.isNan && !vb.isNan then fNV else nv)
  | none =>
    if badProd then (defaultNan dst, fNV)
    else
      let pneg := (va.neg? != vb.neg?) != negP
      let cneg := vc.neg? != negC
      match va.isInf || vb.isInf, vc.isInf with
      | true, true => if pneg = cneg then (infBits dst pneg sat, if dst = .e4m3 then fOF + fNX else 0) else (defaultNan dst, fNV)
      | true, false => (infBits dst pneg sat, if dst = .e4m3 then fOF + fNX else 0)
      | false, true => (infBits dst cneg sat, if dst = .e4m3 then fOF + fNX else 0)
      | false, false =>
        match va, vb, vc with
        | .fin _ ma ea, .fin _ mb eb, .fin _ mc ec =>
          let ep := ea + eb
          let e0 := if useC ∧ mc ≠ 0 then min ep ec else ep
          let p := scaled pneg (ma * mb) ep e0
          let z := if useC ∧ mc ≠ 0 then p + scaled cneg mc ec e0 else p
          let zneg :=
            if !useC then pneg
            else if ma * mb = 0 ∧ mc = 0 ∧ pneg = cneg then pneg
            else decide (rm = .rdn)
          roundDyadic dst rm sat zneg z e0
        | _, _, _ => (defaultNan dst, fNV)

/-- 1.0 of a type. -/
def oneBits (t : EType) : Nat := t.bias * 2 ^ t.fbits

/-- a + b or a − b. -/
def fadd (t : EType) (rm : RMode) (sub : Bool) (a b : Nat) : Nat × Nat :=
  let va := fdecode t a
  let vb := fdecode t b
  match firstNan t [(t, va), (t, vb)] with
  | some r => (r, nvOf [va, vb])
  | none => fmaCore t t t rm false false sub true a (oneBits t) b

/-- a × b. -/
def fmul (ti dst : EType) (rm : RMode) (sat : Bool) (a b : Nat) : Nat × Nat :=
  fmaCore ti dst dst rm sat false false false a b 0

/-- Quotient bits of a / b with a sticky bit, enough to round to any type of R140. -/
def fdiv (t : EType) (rm : RMode) (a b : Nat) : Nat × Nat :=
  let va := fdecode t a
  let vb := fdecode t b
  let s := va.neg? != vb.neg?
  match firstNan t [(t, va), (t, vb)] with
  | some r => (r, nvOf [va, vb])
  | none =>
    match va, vb with
    | .inf _, .inf _ => (defaultNan t, fNV)
    | .inf _, _ => (infBits t s false, 0)
    | _, .inf _ => (signBit t s, 0)
    | .fin _ ma ea, .fin _ mb eb =>
      if mb = 0 then (if ma = 0 then (defaultNan t, fNV) else (infBits t s false, fDZ))
      else if ma = 0 then (signBit t s, 0)
      else
        let k := 2 * t.fbits + 8
        let q := ma * 2 ^ k / mb
        let r := ma * 2 ^ k % mb
        let m := 2 * q + b2n (r != 0)
        let (bt, f) := roundMag t rm false s m (ea - eb - k - 1)
        (signBit t s + bt, f)
    | _, _ => (defaultNan t, fNV)

/-- Square root (IEEE 754-2019), by the integer root with a sticky bit. -/
def fsqrt (t : EType) (rm : RMode) (a : Nat) : Nat × Nat :=
  let va := fdecode t a
  match va with
  | .nan s _ p => (nanTo t t s p, nvOf [va])
  | .inf s => if s then (defaultNan t, fNV) else (infBits t false false, 0)
  | .fin s m e =>
    if m = 0 then (signBit t s, 0)
    else if s then (defaultNan t, fNV)
    else
      let k : Nat := 2 * (t.fbits + 4)
      let odd := e % 2 ≠ 0
      let m' := (if odd then 2 * m else m) * 2 ^ k
      let e' : Int := (if odd then e - 1 else e) - k
      let q := Nat.sqrt m'
      let m2 := 2 * q + b2n (q * q != m')
      let (bt, f) := roundMag t rm false false m2 (e' / 2 - 1)
      (bt, f)

/-- Exact order of two operands that are not NaNs: a < b, with −0 = +0 unless `zeroOrder` puts −0 below +0 (R160, R169). -/
def flt (zeroOrder : Bool) (a b : FVal) : Bool :=
  match a, b with
  | .inf s, .inf s' => s && !s'
  | .inf s, _ => s
  | _, .inf s => !s
  | .fin s m e, .fin s' m' e' =>
    let e0 := min e e'
    let x := scaled s m e e0
    let y := scaled s' m' e' e0
    if m = 0 ∧ m' = 0 then zeroOrder && s && !s' else decide (x < y)
  | _, _ => false

/-- minimum, maximum, minimumNumber and maximumNumber (R160). -/
def fminmax (t : EType) (isMax num : Bool) (a b : Nat) : Nat × Nat :=
  let va := fdecode t a
  let vb := fdecode t b
  let nv := nvOf [va, vb]
  if num && va.isNan && !vb.isNan then (b, nv)
  else if num && vb.isNan && !va.isNan then (a, nv)
  else match firstNan t [(t, va), (t, vb)] with
    | some r => (r, nv)
    | none =>
      let altb := flt true va vb
      let blta := flt true vb va
      ((if isMax then (if altb then b else a) else (if blta then b else a)), nv)

/-- Compare condition 0 to 7 of R169 on floating-point operands. -/
def fcmp (t : EType) (cond a b : Nat) : Bool × Nat :=
  let va := fdecode t a
  let vb := fdecode t b
  let un := va.isNan || vb.isNan
  let lt := !un && flt false va vb
  let gt := !un && flt false vb va
  let eq := !un && !lt && !gt
  let r := match cond with
    | 0 => eq
    | 1 => !eq
    | 2 => lt
    | 3 => lt || eq
    | 4 => gt
    | 5 => gt || eq
    | 6 => un
    | _ => !un
  let sig := 2 ≤ cond ∧ cond ≤ 5
  (r, if (sig && un) || nvOf [va, vb] ≠ 0 then fNV else 0)

/-- roundToIntegralExact. -/
def frint (t : EType) (rm : RMode) (a : Nat) : Nat × Nat :=
  let va := fdecode t a
  match va with
  | .nan s _ p => (nanTo t t s p, nvOf [va])
  | .inf _ => (a, 0)
  | .fin s m e =>
    if 0 ≤ e then (a, 0)
    else
      let (n, inexact) := roundAt rm s m e 0
      let r := if n = 0 then 0 else (roundMag t .rne false s n 0).1
      (signBit t s + r, if inexact then fNX else 0)

/-- The range of an integer type. -/
def intMin (t : EType) : Int := if t.isSigned then -(2 ^ (t.bits - 1) : Nat) else 0
def intMax (t : EType) : Int := if t.isSigned then ((2 ^ (t.bits - 1) : Nat) : Int) - 1 else ((2 ^ t.bits : Nat) : Int) - 1

/-- The integer an element of an integer type holds (R139). -/
def intVal (t : EType) (n : Nat) : Int := if t.isSigned then toSigned t.bits n else ((n % 2 ^ t.bits : Nat) : Int)

/-- An integer as an element, modulo 2^w. -/
def intBits (t : EType) (z : Int) : Nat := ofSigned t.bits z

/-- The nearer end of a type's range, or the value. -/
def clampTo (t : EType) (z : Int) : Int := max (intMin t) (min (intMax t) z)

/-- Floating point to integer (R154). -/
def cvtFI (ti dst : EType) (rm : RMode) (a : Nat) : Nat × Nat :=
  match fdecode ti a with
  | .nan .. => (0, fNV)
  | .inf s => (intBits dst (if s then intMin dst else intMax dst), fNV)
  | .fin s m e =>
    let (n, inexact) := roundAt rm s m e 0
    let z : Int := if s then -(n : Int) else n
    if z < intMin dst ∨ intMax dst < z then (intBits dst (clampTo dst z), fNV)
    else (intBits dst z, if inexact then fNX else 0)

/-- Integer to floating point (R155). -/
def cvtIF (ti dst : EType) (rm : RMode) (sat : Bool) (a : Nat) : Nat × Nat :=
  roundDyadic dst rm sat false (intVal ti a) 0

/-- Floating point to floating point (R152, R153, R155). -/
def cvtFF (ti dst : EType) (rm : RMode) (sat : Bool) (a : Nat) : Nat × Nat :=
  let va := fdecode ti a
  match va with
  | .nan s _ p => (nanTo ti dst s p, nvOf [va])
  | .inf s => (infBits dst s sat, if dst = .e4m3 then fOF + fNX else 0)
  | .fin s m e =>
    if m = 0 then (signBit dst s, 0)
    else
      let (b, f) := roundMag dst rm sat s m e
      (signBit dst s + b, f)

/-- CVT between any two numeric types (R154, R155). -/
def cvt (ti dst : EType) (rm : RMode) (sat : Bool) (a : Nat) : Nat × Nat :=
  if ti.isFP then (if dst.isFP then cvtFF ti dst rm sat a else cvtFI ti dst rm a)
  else if dst.isFP then cvtIF ti dst rm sat a
  else (intBits dst (intVal ti a), 0)

/-- FRECPE (R177, R178). -/
def frecpe (t : EType) (a : Nat) : Nat × Nat :=
  let va := fdecode t a
  match va with
  | .nan s _ p => (nanTo t t s p, nvOf [va])
  | .inf s => (signBit t s, 0)
  | .fin s m e =>
    if m = 0 then (infBits t s false, fDZ)
    else
      let l := Nat.log2 m
      let ex : Int := (l : Int) + e
      -- m8 has 9 significant bits: m8 = n8 / 2^8
      let n8 := if 8 ≤ l then m / 2 ^ (l - 8) else m * 2 ^ (8 - l)
      -- y = 2 / ((2 n8 + 1) / 2^9); truncated to k fraction bits
      let k := min 12 t.fbits
      let sN := 2 ^ (10 + k) / (2 * n8 + 1)
      let (b, f) := roundMag t .rtz false s sN (-ex - 1 - k)
      if t.maxBits < b ∨ f / fOF % 2 = 1 then (infBits t s false, fOF + fNX)
      else (signBit t s + b, f)

/-- FRSQRTE (R177, R178). -/
def frsqrte (t : EType) (a : Nat) : Nat × Nat :=
  let va := fdecode t a
  match va with
  | .nan s _ p => (nanTo t t s p, nvOf [va])
  | .inf s => if s then (defaultNan t, fNV) else (0, 0)
  | .fin s m e =>
    if m = 0 then (infBits t s false, fDZ)
    else if s then (defaultNan t, fNV)
    else
      let l := Nat.log2 m
      let ex : Int := (l : Int) + e
      let odd := ex % 2 ≠ 0
      let ee := if odd then ex - 1 else ex
      -- mm in [1,4); m7 = n7 / 2^7 truncated to 7 fraction bits
      let sh := if odd then l - 1 else l
      let num := m
      let n7 := if odd then (if 8 ≤ l then num / 2 ^ (l - 8) else num * 2 ^ (8 - l))
                else (if 7 ≤ sh then num / 2 ^ (sh - 7) else num * 2 ^ (7 - sh))
      -- y = 2 / sqrt((2 n7 + 1) / 2^8); s = floor(y 2^k) = floor(sqrt(2^(2k+10) / (2 n7 + 1)))
      let k := min 12 t.fbits
      let sN := Nat.sqrt (2 ^ (2 * k + 10) / (2 * n7 + 1))
      let (b, f) := roundMag t .rtz false false sN (-(ee / 2) - 1 - k)
      (b, f)

end Sys2Proof.Machine
end

