-- ==== Sys2Proof/Machine/Accum.lean ====
section
/-! DEFINITION. The long accumulators: feeding, merging, extraction and the 640-byte image
(R187 to R203). A LACC's sum is an integer count of 2^-2148 (R187). -/
namespace Sys2Proof.Machine

/-- KIND of an image (R190). -/
inductive AccKind where
  | sum | min | max | cnt
  deriving DecidableEq, Repr

/-- A LACC, or an image of one (R187, R190). `value` counts 2^-2148 for SUM, and is the held bits or the
count for the other kinds. -/
structure Acc where
  kind : AccKind := .sum
  itype : Nat := 0
  held : Bool := false
  any : Bool := false
  inv : Bool := false
  nan : Bool := false
  ninf : Bool := false
  pinf : Bool := false
  nonz : Bool := false
  negz : Bool := false
  posz : Bool := false
  nanIndex : Nat := 0
  nanBits : Nat := 0
  value : Int := 0
  deriving DecidableEq, Repr

/-- The weight of VALUE bit 0 (R187). -/
def accExp : Int := -2148

/-- The empty image of a kind (R189); `it` is the ITYPE of a MIN or MAX image. -/
def accEmpty (k : AccKind) (it : Nat) : Acc := { kind := k, itype := if k = .min ∨ k = .max then it else 0 }

/-- Record a NaN operand at an element index (R192). -/
def Acc.addNan (x : Acc) (t : EType) (idx : Nat) (v : FVal) : Acc :=
  match v with
  | .nan s _ p =>
    let x := { x with nonz := true }
    if !x.nan || idx < x.nanIndex then { x with nan := true, nanIndex := idx, nanBits := nanTo t .fp64 s p } else x
  | _ => x

/-- Add one finite or infinite term with a sign (R192). -/
def Acc.addTerm (x : Acc) (neg : Bool) (v : FVal) : Acc :=
  match v with
  | .inf _ => if neg then { x with ninf := true, nonz := true } else { x with pinf := true, nonz := true }
  | .fin _ m e =>
    if m = 0 then (if neg then { x with negz := true } else { x with posz := true })
    else { x with nonz := true, value := x.value + scaled neg m e accExp }
  | .nan .. => x

/-- An element's value, integer types included, as an exact value. -/
def valueOf (t : EType) (n : Nat) : FVal :=
  if t.isFP then fdecode t n
  else let z := intVal t n; .fin (decide (z < 0)) z.natAbs 0

/-- Feed a, or |a| (R192: ACC_ADD, the scans, ACC_ABS). -/
def Acc.feedAdd (x : Acc) (t : EType) (absolute : Bool) (idx a : Nat) : Acc :=
  let x := { x with any := true }
  let v := valueOf t a
  if v.isNan then x.addNan t idx v else x.addTerm (!absolute && v.neg?) v

/-- Feed a × b (R192: ACC_DOT, DOT, IDOT). -/
def Acc.feedDot (x : Acc) (t : EType) (idx a b : Nat) : Acc :=
  let x := { x with any := true }
  let va := valueOf t a
  let vb := valueOf t b
  if va.isNan then x.addNan t idx va
  else if vb.isNan then x.addNan t idx vb
  else if (va.isInf && vb.isZero) || (va.isZero && vb.isInf) then { x with inv := true, nonz := true }
  else
    let neg := va.neg? != vb.neg?
    match va, vb with
    | .fin _ ma ea, .fin _ mb eb => x.addTerm neg (.fin neg (ma * mb) (ea + eb))
    | _, _ => x.addTerm neg (.inf neg)

/-- Order of two elements that are not NaNs, −0 below +0 (R160, R170). -/
def elemLt (t : EType) (a b : Nat) : Bool := flt true (valueOf t a) (valueOf t b)

/-- Feed ACC_MIN or ACC_MAX (R192). -/
def Acc.feedMinMax (x : Acc) (t : EType) (isMax : Bool) (idx a : Nat) : Acc :=
  let x := { x with any := true }
  let v := valueOf t a
  if v.isNan then x.addNan t idx v
  else
    let h := x.value.toNat
    if !x.held then { x with held := true, value := (a : Int) }
    else if (if isMax then elemLt t h a else elemLt t a h) then { x with value := (a : Int) }
    else x

/-- Feed ACC_CNT (R192). -/
def Acc.feedCnt (x : Acc) : Acc := { x with any := true, value := (x.value + 1) % ((2 ^ 64 : Nat) : Int) }

/-- The flags a term raises at its element: NV for a signalling NaN or a product of zero and infinity (R149, R163, R192). -/
def termFlags (t : EType) (vs : List Nat) (isProd : Bool) : Nat :=
  let fs := vs.map (valueOf t)
  if fs.any FVal.isSNan then fNV
  else if isProd then
    match fs with
    | [a, b] => if (a.isInf && b.isZero) || (a.isZero && b.isInf) then fNV else 0
    | _ => 0
  else 0

/-- Merge two images of one kind; the first comes first in the order of the merge (R193, R194). Counts whose sum passes 2^64 - 1 wrap: the
model's choice (log 67). -/
def Acc.merge (x y : Acc) : Acc :=
  let t := (etypeOf x.itype).getD .fp64
  let value : Int :=
    match x.kind with
    | .sum => x.value + y.value
    | .cnt => (x.value + y.value) % ((2 ^ 64 : Nat) : Int)
    | .min =>
      if x.held && y.held then (if elemLt t y.value.toNat x.value.toNat then y.value else x.value)
      else if x.held then x.value else if y.held then y.value else 0
    | .max =>
      if x.held && y.held then (if elemLt t x.value.toNat y.value.toNat then y.value else x.value)
      else if x.held then x.value else if y.held then y.value else 0
  let takeY := y.nan && (!x.nan || y.nanIndex < x.nanIndex)
  { kind := x.kind, itype := x.itype, held := x.held || y.held, any := x.any || y.any
    inv := x.inv || y.inv, nan := x.nan || y.nan, ninf := x.ninf || y.ninf, pinf := x.pinf || y.pinf
    nonz := x.nonz || y.nonz, negz := x.negz || y.negz, posz := x.posz || y.posz
    nanIndex := if takeY then y.nanIndex else x.nanIndex
    nanBits := if takeY then y.nanBits else x.nanBits, value := value }

/-- Extraction of a SUM (R198, R199). The line of a recorded NaN raises nothing. NAN_BITS that are no NaN, which only an image made by
software can hold, are converted as the number or infinity they are: the model's choice (log 67). -/
def extractSum (x : Acc) (ot : EType) (rm : RMode) : Nat × Nat :=
  if ot.isFP then
    let infFlags := if ot = .e4m3 then fOF + fNX else 0
    if x.nan then ((cvtFF .fp64 ot rm false x.nanBits).1, 0)
    else if x.inv then (defaultNan ot, 0)
    else if x.pinf && x.ninf then (defaultNan ot, fNV)
    else if x.pinf then (infBits ot false false, infFlags)
    else if x.ninf then (infBits ot true false, infFlags)
    else if x.value ≠ 0 then roundDyadic ot rm false false x.value accExp
    else if !x.any then (0, 0)
    else if !x.nonz && !x.negz then (0, 0)
    else if !x.nonz && !x.posz then (signBit ot true, 0)
    else if rm = .rdn then (signBit ot true, 0)
    else (0, 0)
  else
    if x.nan || x.inv || (x.pinf && x.ninf) then (0, fNV)
    else if x.pinf then (intBits ot (intMax ot), fNV)
    else if x.ninf then (intBits ot (intMin ot), fNV)
    else
      let neg := decide (x.value < 0)
      let (n, inexact) := roundAt rm neg x.value.natAbs accExp 0
      let v : Int := if neg then -(n : Int) else n
      if intMin ot ≤ v ∧ v ≤ intMax ot then (intBits ot v, if inexact then fNX else 0)
      else (intBits ot (clampTo ot v), fNV)

/-- What ACC_MIN and ACC_MAX deliver when no element was accumulated (R170). -/
def emptyMinMax (t : EType) (isMax : Bool) : Nat :=
  if t.isFP then
    (if t = .e4m3 then signBit t isMax + 0x7e else infBits t isMax false)
  else intBits t (if isMax then intMin t else intMax t)

/-- Extraction from an image (R198 to R200). -/
def extract (x : Acc) (ot : EType) (rm : RMode) : Nat × Nat :=
  match x.kind with
  | .sum => extractSum x ot rm
  | .cnt => (intBits ot (min x.value (intMax ot)), 0)
  | k =>
    if x.nan then ((cvtFF .fp64 ot rm false x.nanBits).1, 0)
    else if !x.any then (emptyMinMax ot (k = .max), 0)
    else (x.value.toNat, 0)

/-- KIND code of an image (R190). -/
def kindCode : AccKind → Nat
  | .sum => 1 | .min => 2 | .max => 3 | .cnt => 4

/-- HDR of an image (R190). -/
def Acc.hdr (x : Acc) : Nat :=
  kindCode x.kind + x.itype * 2 ^ 4 + b2n x.posz * 2 ^ 8 + b2n x.negz * 2 ^ 9 + b2n x.nonz * 2 ^ 10 + b2n x.pinf * 2 ^ 11
    + b2n x.ninf * 2 ^ 12 + b2n x.nan * 2 ^ 13 + b2n x.inv * 2 ^ 14 + b2n x.any * 2 ^ 15 + b2n x.held * 2 ^ 16

/-- The 640 bytes of an image (R190). -/
def Acc.bytes (x : Acc) : List Byte :=
  let v := ofSigned 4352 x.value
  let value := if x.kind = .sum then v % 2 ^ 4288 else x.value.toNat % 2 ^ 64
  let carry := if x.kind = .sum then v / 2 ^ 4288 else 0
  leBytes 8 x.hdr ++ leBytes 8 x.nanIndex ++ leBytes 8 x.nanBits ++ leBytes 8 carry ++ leBytes 32 0
    ++ leBytes 536 value ++ leBytes 40 0

/-- Element types that ACC_MIN and ACC_MAX accept. -/
def minMaxType (t : EType) : Bool := t.isFP || t.isInt

/-- The image that 640 bytes hold; `none` when R196 refuses them. -/
def accOfBytes (bs : List Byte) : Option Acc :=
  let w := fun o n => leNat ((bs.drop o).take n)
  let h := w 0 8
  let value := w 0x40 536
  let carry := w 0x18 8
  let kind := h % 16
  let it := h / 16 % 16
  let nan := bitOf h 13
  let held := bitOf h 16
  let resv := h / 2 ^ 17 != 0 || w 8 8 / 2 ^ 48 != 0 || w 0x20 32 != 0 || w 0x258 40 != 0
  let nanOk := nan || (w 8 8 == 0 && w 0x10 8 == 0)
  let k : Option AccKind := match kind with
    | 1 => some .sum
    | 2 => some .min
    | 3 => some .max
    | 4 => some .cnt
    | _ => none
  match k with
  | none => none
  | some k =>
    let isMM := k == .min || k == .max
    let tyOk := if isMM then (match etypeOf it with | some t => minMaxType t && decide (value < 2 ^ t.bits) | none => false)
                else it == 0
    let smallOk := k == .sum || (carry == 0 && decide (value < 2 ^ 64))
    let heldOk := if isMM then held || value == 0 else !held
    if resv || !nanOk || !tyOk || !smallOk || !heldOk then none
    else
      some { kind := k, itype := it, held := held, any := bitOf h 15, inv := bitOf h 14, nan := nan, ninf := bitOf h 12
             pinf := bitOf h 11, nonz := bitOf h 10, negz := bitOf h 9, posz := bitOf h 8, nanIndex := w 8 8
             nanBits := w 0x10 8
             value := if k = .sum then toSigned 4352 (value + carry * 2 ^ 4288) else (value : Int) }

/-- The merged CARRY leaves the range of a 64-bit signed number (R196). -/
def Acc.overflows (x : Acc) : Bool :=
  x.kind = .sum && (decide (x.value < -((2 ^ 4351 : Nat) : Int)) || decide (((2 ^ 4351 : Nat) : Int) ≤ x.value))

end Sys2Proof.Machine
end

