-- ==== Sys2Proof/Machine/RegMap.lean ====
section
/-! DEFINITION. The register index: every register of the spec's tables with its register-space offset
(R654 and the heading lines), its fields with their access codes (R5), its value after reset (R10), and
the range its meaning states for a writable field. Names are the manual's, BLOCK_REGISTER and
BLOCK_REGISTER_FIELD. -/
namespace Sys2Proof.Machine

/-- A register field: the register's register-space offset and its bits [hi:lo]. -/
structure RF where
  off : Nat
  hi : Nat
  lo : Nat
  deriving DecidableEq, Repr

/-- The access codes of R5. -/
inductive Access where
  | rw | ro | w1c | w1s | wo | rc
  deriving DecidableEq, Repr

/-- One row of a register's field table; a write outside [least, most] is an unlisted encoding (R9). -/
structure FieldDef where
  hi : Nat
  lo : Nat
  acc : Access
  least : Nat := 0
  most : Nat := 2 ^ 64
  deriving DecidableEq, Repr

/-- A register heading: first offsets with (stride, count) pairs in falling stride, its fields, its reset word by
instance numbers, and the mask of the fields a module reset keeps. -/
structure RegDef where
  insts : List (Nat × List (Nat × Nat))
  fields : List FieldDef
  init : List Nat → Nat
  kept : Nat

/-- Offset of the CORE registers of core `c`: clusters 0 to 23, SUP_A 24, SUP_B 25 (R654). -/
def coreBase (c : Nat) : Nat :=
  if c < 24 then 0x800000 + 0x40000 * c else if c = 24 then 0x1301000 else 0x1302000

namespace Reg

def IDENT_PART : Nat := 0x0
def IDENT_PART_DEVICE : RF := ⟨IDENT_PART, 63, 48⟩
def IDENT_PART_SILICON_REV : RF := ⟨IDENT_PART, 47, 40⟩
def IDENT_PART_INDEX_REV : RF := ⟨IDENT_PART, 31, 16⟩
def IDENT_SERIAL : Nat := 0x8
def IDENT_SERIAL_SERIAL : RF := ⟨IDENT_SERIAL, 63, 0⟩
def CMDR_CFG (r : Nat) : Nat := 0x10000 + 0x100 * r
def CMDR_CFG_PART (r : Nat) : RF := ⟨CMDR_CFG r, 47, 44⟩
def CMDR_CFG_WEIGHT (r : Nat) : RF := ⟨CMDR_CFG r, 39, 32⟩
def CMDR_CFG_CLASS (r : Nat) : RF := ⟨CMDR_CFG r, 24, 24⟩
def CMDR_CFG_OWNER (r : Nat) : RF := ⟨CMDR_CFG r, 16, 16⟩
def CMDR_CFG_SPACE (r : Nat) : RF := ⟨CMDR_CFG r, 8, 8⟩
def CMDR_CFG_LOG2 (r : Nat) : RF := ⟨CMDR_CFG r, 4, 0⟩
def CMDR_BASE (r : Nat) : Nat := 0x10008 + 0x100 * r
def CMDR_BASE_BASE (r : Nat) : RF := ⟨CMDR_BASE r, 63, 0⟩
def CMDR_CQ_BASE (r : Nat) : Nat := 0x10010 + 0x100 * r
def CMDR_CQ_BASE_BASE (r : Nat) : RF := ⟨CMDR_CQ_BASE r, 63, 0⟩
def CMDR_CQ_CFG (r : Nat) : Nat := 0x10018 + 0x100 * r
def CMDR_CQ_CFG_EVT_VECTOR (r : Nat) : RF := ⟨CMDR_CQ_CFG r, 58, 48⟩
def CMDR_CQ_CFG_VECTOR (r : Nat) : RF := ⟨CMDR_CQ_CFG r, 42, 32⟩
def CMDR_CQ_CFG_COAL_CNT (r : Nat) : RF := ⟨CMDR_CQ_CFG r, 31, 24⟩
def CMDR_CQ_CFG_COAL_TIME (r : Nat) : RF := ⟨CMDR_CQ_CFG r, 23, 12⟩
def CMDR_CQ_CFG_SPACE (r : Nat) : RF := ⟨CMDR_CQ_CFG r, 8, 8⟩
def CMDR_CQ_CFG_MSI_EN (r : Nat) : RF := ⟨CMDR_CQ_CFG r, 5, 5⟩
def CMDR_CQ_CFG_LOG2 (r : Nat) : RF := ⟨CMDR_CQ_CFG r, 4, 0⟩
def CMDR_IMG (r : Nat) : Nat := 0x10020 + 0x100 * r
def CMDR_IMG_EN (r : Nat) : RF := ⟨CMDR_IMG r, 63, 63⟩
def CMDR_IMG_VA (r : Nat) : RF := ⟨CMDR_IMG r, 56, 0⟩
def CMDR_CTL (r : Nat) : Nat := 0x10028 + 0x100 * r
def CMDR_CTL_SEQ (r : Nat) : RF := ⟨CMDR_CTL r, 63, 32⟩
def CMDR_CTL_CQ_ERR (r : Nat) : RF := ⟨CMDR_CTL r, 18, 18⟩
def CMDR_CTL_READ_ERR (r : Nat) : RF := ⟨CMDR_CTL r, 17, 17⟩
def CMDR_CTL_DB_ERR (r : Nat) : RF := ⟨CMDR_CTL r, 16, 16⟩
def CMDR_CTL_STATE (r : Nat) : RF := ⟨CMDR_CTL r, 10, 8⟩
def CMDR_CTL_RESET (r : Nat) : RF := ⟨CMDR_CTL r, 2, 2⟩
def CMDR_CTL_RESTART (r : Nat) : RF := ⟨CMDR_CTL r, 1, 1⟩
def CMDR_CTL_ENABLE (r : Nat) : RF := ⟨CMDR_CTL r, 0, 0⟩
def CMDR_PTR (r : Nat) : Nat := 0x10030 + 0x100 * r
def CMDR_PTR_TAIL (r : Nat) : RF := ⟨CMDR_PTR r, 63, 32⟩
def CMDR_PTR_HEAD (r : Nat) : RF := ⟨CMDR_PTR r, 31, 0⟩
def CMDR_CQ_PTR (r : Nat) : Nat := 0x10038 + 0x100 * r
def CMDR_CQ_PTR_CQ_HEAD (r : Nat) : RF := ⟨CMDR_CQ_PTR r, 63, 32⟩
def CMDR_CQ_PTR_POSTED (r : Nat) : RF := ⟨CMDR_CQ_PTR r, 31, 0⟩
def CMDR_DB (r : Nat) : Nat := 0x10040 + 0x100 * r
def CMDR_DB_CQ_HEAD (r : Nat) : RF := ⟨CMDR_DB r, 63, 32⟩
def CMDR_DB_TAIL (r : Nat) : RF := ⟨CMDR_DB r, 31, 0⟩
def CMDR_PART_MAP (p w : Nat) : Nat := 0x18000 + 0x80 * p + 0x8 * w
def CMDR_PART_MAP_MAP (p w : Nat) : RF := ⟨CMDR_PART_MAP p w, 63, 0⟩
def CMDR_PART_INFO (p : Nat) : Nat := 0x18060 + 0x80 * p
def CMDR_PART_INFO_S (p : Nat) : RF := ⟨CMDR_PART_INFO p, 6, 0⟩
def CMDR_WM_CMD (r : Nat) : Nat := 0x10048 + 0x100 * r
def CMDR_WM_CMD_COUNT (r : Nat) : RF := ⟨CMDR_WM_CMD r, 63, 48⟩
def CMDR_WM_CMD_LEVEL (r : Nat) : RF := ⟨CMDR_WM_CMD r, 34, 34⟩
def CMDR_WM_CMD_UP (r : Nat) : RF := ⟨CMDR_WM_CMD r, 33, 33⟩
def CMDR_WM_CMD_DOWN (r : Nat) : RF := ⟨CMDR_WM_CMD r, 32, 32⟩
def CMDR_WM_CMD_THRESH (r : Nat) : RF := ⟨CMDR_WM_CMD r, 16, 0⟩
def CMDR_WM_CQ (r : Nat) : Nat := 0x10050 + 0x100 * r
def CMDR_WM_CQ_COUNT (r : Nat) : RF := ⟨CMDR_WM_CQ r, 63, 48⟩
def CMDR_WM_CQ_LEVEL (r : Nat) : RF := ⟨CMDR_WM_CQ r, 34, 34⟩
def CMDR_WM_CQ_UP (r : Nat) : RF := ⟨CMDR_WM_CQ r, 33, 33⟩
def CMDR_WM_CQ_DOWN (r : Nat) : RF := ⟨CMDR_WM_CQ r, 32, 32⟩
def CMDR_WM_CQ_THRESH (r : Nat) : RF := ⟨CMDR_WM_CQ r, 16, 0⟩
def MBX_DB_IN (m d : Nat) : Nat := 0x20000 + 0x400 * m + 0x200 * d
def MBX_DB_IN_PEER_RESET (m d : Nat) : RF := ⟨MBX_DB_IN m d, 31, 31⟩
def MBX_DB_IN_DB (m d : Nat) : RF := ⟨MBX_DB_IN m d, 30, 0⟩
def MBX_DB_MASK (m d : Nat) : Nat := 0x20008 + 0x400 * m + 0x200 * d
def MBX_DB_MASK_MASK (m d : Nat) : RF := ⟨MBX_DB_MASK m d, 31, 0⟩
def MBX_DB_OUT (m d : Nat) : Nat := 0x20010 + 0x400 * m + 0x200 * d
def MBX_DB_OUT_DB (m d : Nat) : RF := ⟨MBX_DB_OUT m d, 31, 0⟩
def MBX_SEND (m d : Nat) : Nat := 0x20018 + 0x400 * m + 0x200 * d
def MBX_SEND_WORD (m d : Nat) : RF := ⟨MBX_SEND m d, 63, 0⟩
def MBX_RECV (m d : Nat) : Nat := 0x20020 + 0x400 * m + 0x200 * d
def MBX_RECV_WORD (m d : Nat) : RF := ⟨MBX_RECV m d, 63, 0⟩
def MBX_STAT (m d : Nat) : Nat := 0x20028 + 0x400 * m + 0x200 * d
def MBX_STAT_READY (m d : Nat) : RF := ⟨MBX_STAT m d, 63, 63⟩
def MBX_STAT_PEER_READY (m d : Nat) : RF := ⟨MBX_STAT m d, 62, 62⟩
def MBX_STAT_SEND_OVF (m d : Nat) : RF := ⟨MBX_STAT m d, 61, 61⟩
def MBX_STAT_RECV_EMPTY (m d : Nat) : RF := ⟨MBX_STAT m d, 60, 60⟩
def MBX_STAT_RX_CNT (m d : Nat) : RF := ⟨MBX_STAT m d, 20, 16⟩
def MBX_STAT_TX_SPACE (m d : Nat) : RF := ⟨MBX_STAT m d, 12, 8⟩
def MBX_STAT_DISCARDED (m d : Nat) : RF := ⟨MBX_STAT m d, 7, 0⟩
def MBX_IRQ (m d : Nat) : Nat := 0x20030 + 0x400 * m + 0x200 * d
def MBX_IRQ_CORE (m d : Nat) : RF := ⟨MBX_IRQ m d, 48, 48⟩
def MBX_IRQ_VECTOR (m d : Nat) : RF := ⟨MBX_IRQ m d, 42, 32⟩
def MBX_IRQ_QIE (m d : Nat) : RF := ⟨MBX_IRQ m d, 16, 16⟩
def MBX_IRQ_TASK (m d : Nat) : RF := ⟨MBX_IRQ m d, 13, 8⟩
def MBX_IRQ_LINE (m d : Nat) : RF := ⟨MBX_IRQ m d, 3, 0⟩
def BMV_CMD (c : Nat) : Nat := 0x30030 + 0x80 * c
def BMV_CMD_STATE (c : Nat) : RF := ⟨BMV_CMD c, 9, 8⟩
def BMV_CMD_ARMED (c : Nat) : RF := ⟨BMV_CMD c, 2, 2⟩
def BMV_CMD_ABORT (c : Nat) : RF := ⟨BMV_CMD c, 1, 1⟩
def BMV_CMD_ARM (c : Nat) : RF := ⟨BMV_CMD c, 0, 0⟩
def BMV_STAT (c : Nat) : Nat := 0x30038 + 0x80 * c
def BMV_STAT_DONE (c : Nat) : RF := ⟨BMV_STAT c, 63, 63⟩
def BMV_STAT_BAD (c : Nat) : RF := ⟨BMV_STAT c, 62, 62⟩
def BMV_STAT_STATUS (c : Nat) : RF := ⟨BMV_STAT c, 55, 48⟩
def BMV_STAT_INDEX (c : Nat) : RF := ⟨BMV_STAT c, 47, 0⟩
def BMV_OWN (c : Nat) : Nat := 0x30040 + 0x80 * c
def BMV_OWN_OWNER (c : Nat) : RF := ⟨BMV_OWN c, 49, 48⟩
def BMV_OWN_VECTOR (c : Nat) : RF := ⟨BMV_OWN c, 42, 32⟩
def BMV_OWN_TASK (c : Nat) : RF := ⟨BMV_OWN c, 13, 8⟩
def BMV_OWN_LINE (c : Nat) : RF := ⟨BMV_OWN c, 3, 0⟩
def BMV_PROG (c : Nat) : Nat := 0x30048 + 0x80 * c
def BMV_PROG_WRITTEN (c : Nat) : RF := ⟨BMV_PROG c, 47, 0⟩
def BMV_POOL_BUF (p : Nat) : Nat := 0x32000 + 0x20 * p
def BMV_POOL_BUF_BASE (p : Nat) : RF := ⟨BMV_POOL_BUF p, 41, 0⟩
def BMV_POOL_META (p : Nat) : Nat := 0x32008 + 0x20 * p
def BMV_POOL_META_BASE (p : Nat) : RF := ⟨BMV_POOL_META p, 41, 0⟩
def BMV_POOL_CFG (p : Nat) : Nat := 0x32010 + 0x20 * p
def BMV_POOL_CFG_ENABLE (p : Nat) : RF := ⟨BMV_POOL_CFG p, 63, 63⟩
def BMV_POOL_CFG_SIZE (p : Nat) : RF := ⟨BMV_POOL_CFG p, 51, 48⟩
def BMV_POOL_CFG_COUNT (p : Nat) : RF := ⟨BMV_POOL_CFG p, 18, 0⟩
def BMV_POOL_STAT (p : Nat) : Nat := 0x32018 + 0x20 * p
def BMV_POOL_STAT_MISUSE (p : Nat) : RF := ⟨BMV_POOL_STAT p, 63, 48⟩
def BMV_POOL_STAT_FREE (p : Nat) : RF := ⟨BMV_POOL_STAT p, 18, 0⟩
def BMV_SH_SRC (c : Nat) : Nat := 0x30000 + 0x80 * c
def BMV_SH_SRC_ADDR (c : Nat) : RF := ⟨BMV_SH_SRC c, 63, 0⟩
def BMV_SH_DST (c : Nat) : Nat := 0x30008 + 0x80 * c
def BMV_SH_DST_ADDR (c : Nat) : RF := ⟨BMV_SH_DST c, 63, 0⟩
def BMV_ACT_SRC (c : Nat) : Nat := 0x30018 + 0x80 * c
def BMV_ACT_SRC_ADDR (c : Nat) : RF := ⟨BMV_ACT_SRC c, 63, 0⟩
def BMV_ACT_DST (c : Nat) : Nat := 0x30020 + 0x80 * c
def BMV_ACT_DST_ADDR (c : Nat) : RF := ⟨BMV_ACT_DST c, 63, 0⟩
def BMV_SH_XFER (c : Nat) : Nat := 0x30010 + 0x80 * c
def BMV_SH_XFER_PRIO (c : Nat) : RF := ⟨BMV_SH_XFER c, 63, 61⟩
def BMV_SH_XFER_MODE (c : Nat) : RF := ⟨BMV_SH_XFER c, 60, 60⟩
def BMV_SH_XFER_NOSNOOP (c : Nat) : RF := ⟨BMV_SH_XFER c, 59, 59⟩
def BMV_SH_XFER_SRC_HOST (c : Nat) : RF := ⟨BMV_SH_XFER c, 58, 58⟩
def BMV_SH_XFER_DST_HOST (c : Nat) : RF := ⟨BMV_SH_XFER c, 57, 57⟩
def BMV_SH_XFER_IRQ (c : Nat) : RF := ⟨BMV_SH_XFER c, 56, 56⟩
def BMV_SH_XFER_BURST (c : Nat) : RF := ⟨BMV_SH_XFER c, 55, 52⟩
def BMV_SH_XFER_LEN (c : Nat) : RF := ⟨BMV_SH_XFER c, 47, 0⟩
def BMV_ACT_XFER (c : Nat) : Nat := 0x30028 + 0x80 * c
def BMV_ACT_XFER_PRIO (c : Nat) : RF := ⟨BMV_ACT_XFER c, 63, 61⟩
def BMV_ACT_XFER_MODE (c : Nat) : RF := ⟨BMV_ACT_XFER c, 60, 60⟩
def BMV_ACT_XFER_NOSNOOP (c : Nat) : RF := ⟨BMV_ACT_XFER c, 59, 59⟩
def BMV_ACT_XFER_SRC_HOST (c : Nat) : RF := ⟨BMV_ACT_XFER c, 58, 58⟩
def BMV_ACT_XFER_DST_HOST (c : Nat) : RF := ⟨BMV_ACT_XFER c, 57, 57⟩
def BMV_ACT_XFER_IRQ (c : Nat) : RF := ⟨BMV_ACT_XFER c, 56, 56⟩
def BMV_ACT_XFER_BURST (c : Nat) : RF := ⟨BMV_ACT_XFER c, 55, 52⟩
def BMV_ACT_XFER_LEN (c : Nat) : RF := ⟨BMV_ACT_XFER c, 47, 0⟩
def FLT_CFG : Nat := 0x40000
def FLT_CFG_HOST_VECTOR : RF := ⟨FLT_CFG, 63, 53⟩
def FLT_CFG_ESC_B_TIME : RF := ⟨FLT_CFG, 52, 33⟩
def FLT_CFG_ESC_C_TIME : RF := ⟨FLT_CFG, 32, 19⟩
def FLT_CFG_HOLDOFF : RF := ⟨FLT_CFG, 18, 11⟩
def FLT_CFG_FW_TASK : RF := ⟨FLT_CFG, 9, 4⟩
def FLT_CFG_FW_LINE : RF := ⟨FLT_CFG, 3, 0⟩
def FLT_ACK : Nat := 0x40008
def FLT_ACK_SOURCE : RF := ⟨FLT_ACK, 41, 32⟩
def FLT_ACK_SEQ : RF := ⟨FLT_ACK, 31, 0⟩
def FLT_STAT : Nat := 0x40010
def FLT_STAT_NEXT_SEQ : RF := ⟨FLT_STAT, 63, 32⟩
def FLT_STAT_C_PEND : RF := ⟨FLT_STAT, 25, 16⟩
def FLT_STAT_B_PEND : RF := ⟨FLT_STAT, 9, 0⟩
def FLT_FENCE : Nat := 0x40018
def FLT_FENCE_GO : RF := ⟨FLT_FENCE, 16, 16⟩
def FLT_FENCE_KIND : RF := ⟨FLT_FENCE, 10, 8⟩
def FLT_FENCE_INSTANCE : RF := ⟨FLT_FENCE, 6, 0⟩
def FLT_FENCED_UNIT : Nat := 0x40040
def FLT_FENCED_UNIT_SUP : RF := ⟨FLT_FENCED_UNIT, 49, 48⟩
def FLT_FENCED_UNIT_CLUS : RF := ⟨FLT_FENCED_UNIT, 39, 16⟩
def FLT_FENCED_UNIT_JP : RF := ⟨FLT_FENCED_UNIT, 15, 0⟩
def FLT_SRC (s : Nat) : Nat := 0x41000 + 0x10 * s
def FLT_SRC_DEFAULT (s : Nat) : RF := ⟨FLT_SRC s, 63, 62⟩
def FLT_SRC_CLASS (s : Nat) : RF := ⟨FLT_SRC s, 61, 60⟩
def FLT_SRC_PENDING (s : Nat) : RF := ⟨FLT_SRC s, 59, 58⟩
def FLT_SRC_PROMOTE_EN (s : Nat) : RF := ⟨FLT_SRC s, 57, 57⟩
def FLT_SRC_DATA (s : Nat) : RF := ⟨FLT_SRC s, 56, 56⟩
def FLT_SRC_N (s : Nat) : RF := ⟨FLT_SRC s, 55, 48⟩
def FLT_SRC_LEAK (s : Nat) : RF := ⟨FLT_SRC s, 47, 40⟩
def FLT_SRC_WINDOW (s : Nat) : RF := ⟨FLT_SRC s, 26, 0⟩
def FLT_SRC_CNT (s : Nat) : Nat := 0x41008 + 0x10 * s
def FLT_SRC_CNT_LAST_SEQ (s : Nat) : RF := ⟨FLT_SRC_CNT s, 63, 32⟩
def FLT_SRC_CNT_EVENTS (s : Nat) : RF := ⟨FLT_SRC_CNT s, 31, 0⟩
def FLT_HIST (c e w : Nat) : Nat := 0x44000 + 0x200 * c + 0x20 * e + 0x8 * w
def FLT_HIST_WORD (c e w : Nat) : RF := ⟨FLT_HIST c e w, 63, 0⟩
def FLT_HIST_PTR (c : Nat) : Nat := 0x49000 + 0x8 * c
def FLT_HIST_PTR_HELD (c : Nat) : RF := ⟨FLT_HIST_PTR c, 12, 8⟩
def FLT_HIST_PTR_NEXT (c : Nat) : RF := ⟨FLT_HIST_PTR c, 3, 0⟩
def FLT_FIRST (c w : Nat) : Nat := 0x4a000 + 0x40 * c + 0x8 * w
def FLT_FIRST_WORD (c w : Nat) : RF := ⟨FLT_FIRST c w, 63, 0⟩
def FLT_FIRST_CTL (c : Nat) : Nat := 0x4a020 + 0x40 * c
def FLT_FIRST_CTL_VALID (c : Nat) : RF := ⟨FLT_FIRST_CTL c, 63, 63⟩
def FLT_FIRST_CTL_OVERFLOW (c : Nat) : RF := ⟨FLT_FIRST_CTL c, 62, 62⟩
def FLT_FENCED_SVU (i : Nat) : Nat := 0x40020 + 0x8 * i
def FLT_FENCED_SVU_FENCED (i : Nat) : RF := ⟨FLT_FENCED_SVU i, 63, 0⟩
def FLT_FENCED_CH (i : Nat) : Nat := 0x40030 + 0x8 * i
def FLT_FENCED_CH_FENCED (i : Nat) : RF := ⟨FLT_FENCED_CH i, 63, 0⟩
def TLOG_STAT : Nat := 0x50000
def TLOG_STAT_OLDEST_SEQ : RF := ⟨TLOG_STAT, 63, 32⟩
def TLOG_STAT_HELD : RF := ⟨TLOG_STAT, 13, 0⟩
def TLOG_SEL : Nat := 0x50008
def TLOG_SEL_SEQ : RF := ⟨TLOG_SEL, 31, 0⟩
def TLOG_DATA (w : Nat) : Nat := 0x50010 + 0x8 * w
def TLOG_DATA_WORD (w : Nat) : RF := ⟨TLOG_DATA w, 63, 0⟩
def PWR_STATE : Nat := 0x60000
def PWR_STATE_RESULT : RF := ⟨PWR_STATE, 63, 56⟩
def PWR_STATE_TARGET : RF := ⟨PWR_STATE, 50, 48⟩
def PWR_STATE_STATE : RF := ⟨PWR_STATE, 2, 0⟩
def PWR_STATE_REQ : Nat := 0x60008
def PWR_STATE_REQ_GO : RF := ⟨PWR_STATE_REQ, 9, 9⟩
def PWR_STATE_REQ_SUSPEND : RF := ⟨PWR_STATE_REQ, 8, 8⟩
def PWR_STATE_REQ_TARGET : RF := ⟨PWR_STATE_REQ, 1, 0⟩
def PWR_ENV : Nat := 0x60010
def PWR_ENV_ENVELOPE : RF := ⟨PWR_ENV, 63, 48⟩
def PWR_ENV_COMMITTED : RF := ⟨PWR_ENV, 47, 32⟩
def PWR_ENV_HOTTEST : RF := ⟨PWR_ENV, 31, 24⟩
def PWR_ENV_WAITING : RF := ⟨PWR_ENV, 23, 16⟩
def PWR_ENV_LEVEL : RF := ⟨PWR_ENV, 1, 0⟩
def PWR_LIMIT : Nat := 0x60018
def PWR_LIMIT_MAX_W : RF := ⟨PWR_LIMIT, 63, 48⟩
def PWR_LIMIT_CAP_MIN : RF := ⟨PWR_LIMIT, 47, 32⟩
def PWR_LIMIT_SLEW : RF := ⟨PWR_LIMIT, 3, 0⟩
def PWR_CAP : Nat := 0x60020
def PWR_CAP_IN_EFFECT : RF := ⟨PWR_CAP, 47, 32⟩
def PWR_CAP_BOARD : RF := ⟨PWR_CAP, 31, 16⟩
def PWR_CAP_OPERATOR : RF := ⟨PWR_CAP, 15, 0⟩
def PWR_CFG : Nat := 0x60028
def PWR_CFG_EVT_VECTOR : RF := ⟨PWR_CFG, 58, 48⟩
def PWR_CFG_ENV_WAIT : RF := ⟨PWR_CFG, 47, 32⟩
def PWR_CFG_UP_HOLD : RF := ⟨PWR_CFG, 21, 12⟩
def PWR_CFG_AUTO_WAKE : RF := ⟨PWR_CFG, 8, 8⟩
def PWR_CFG_THROTTLE : RF := ⟨PWR_CFG, 7, 0⟩
def PWR_INPUT : Nat := 0x60030
def PWR_INPUT_PIN : RF := ⟨PWR_INPUT, 63, 48⟩
def PWR_INPUT_IIN : RF := ⟨PWR_INPUT, 47, 32⟩
def PWR_INPUT_VIN : RF := ⟨PWR_INPUT, 31, 16⟩
def PWR_INPUT_BUS : RF := ⟨PWR_INPUT, 15, 0⟩
def PWR_DOMAIN_LO : Nat := 0x60038
def PWR_DOMAIN_LO_ON : RF := ⟨PWR_DOMAIN_LO, 63, 0⟩
def PWR_DOMAIN_HI : Nat := 0x60040
def PWR_DOMAIN_HI_ON : RF := ⟨PWR_DOMAIN_HI, 15, 0⟩
def PWR_DOMAIN_REQ : Nat := 0x60048
def PWR_DOMAIN_REQ_RESULT : RF := ⟨PWR_DOMAIN_REQ, 63, 56⟩
def PWR_DOMAIN_REQ_BUSY : RF := ⟨PWR_DOMAIN_REQ, 55, 55⟩
def PWR_DOMAIN_REQ_ON : RF := ⟨PWR_DOMAIN_REQ, 8, 8⟩
def PWR_DOMAIN_REQ_DOMAIN : RF := ⟨PWR_DOMAIN_REQ, 6, 0⟩
def PWR_STAT : Nat := 0x60050
def PWR_STAT_DENIED : RF := ⟨PWR_STAT, 63, 48⟩
def PWR_STAT_LEVEL_DOWNS : RF := ⟨PWR_STAT, 47, 32⟩
def PWR_STAT_STALLS : RF := ⟨PWR_STAT, 31, 16⟩
def PWR_STAT_SHEDS : RF := ⟨PWR_STAT, 15, 0⟩
def PWR_VENT : Nat := 0x60058
def PWR_VENT_ENERGY : RF := ⟨PWR_VENT, 63, 0⟩
def PWR_WM_PIN : Nat := 0x60060
def PWR_WM_PIN_COUNT : RF := ⟨PWR_WM_PIN, 63, 48⟩
def PWR_WM_PIN_LEVEL : RF := ⟨PWR_WM_PIN, 34, 34⟩
def PWR_WM_PIN_UP : RF := ⟨PWR_WM_PIN, 33, 33⟩
def PWR_WM_PIN_DOWN : RF := ⟨PWR_WM_PIN, 32, 32⟩
def PWR_WM_PIN_THRESH : RF := ⟨PWR_WM_PIN, 10, 0⟩
def CLK_STAT : Nat := 0x70000
def CLK_STAT_CLK_LOST : RF := ⟨CLK_STAT, 63, 63⟩
def CLK_STAT_REFCLK_OK : RF := ⟨CLK_STAT, 62, 62⟩
def CLK_STAT_COASTING : RF := ⟨CLK_STAT, 61, 61⟩
def CLK_STAT_LOSSES : RF := ⟨CLK_STAT, 47, 32⟩
def CLK_STAT_LOCKED : RF := ⟨CLK_STAT, 30, 0⟩
def CLK_SWITCHES : Nat := 0x70008
def CLK_SWITCHES_CORE : RF := ⟨CLK_SWITCHES, 63, 32⟩
def CLK_SWITCHES_OTHER : RF := ⟨CLK_SWITCHES, 31, 0⟩
def CLK_PLL (n : Nat) : Nat := 0x70100 + 0x8 * n
def CLK_PLL_FREQ (n : Nat) : RF := ⟨CLK_PLL n, 47, 32⟩
def CLK_PLL_STATE (n : Nat) : RF := ⟨CLK_PLL n, 1, 0⟩
def RST_MODULE : Nat := 0x80000
def RST_MODULE_GO : RF := ⟨RST_MODULE, 0, 0⟩
def RST_CAUSE : Nat := 0x80008
def RST_CAUSE_COUNT : RF := ⟨RST_CAUSE, 47, 32⟩
def RST_CAUSE_LAST : RF := ⟨RST_CAUSE, 2, 0⟩
def RST_UNIT_STAT : Nat := 0x80010
def RST_UNIT_STAT_STATUS : RF := ⟨RST_UNIT_STAT, 63, 56⟩
def RST_UNIT_STAT_ESCALATED : RF := ⟨RST_UNIT_STAT, 51, 51⟩
def RST_UNIT_STAT_KIND : RF := ⟨RST_UNIT_STAT, 50, 48⟩
def RST_UNIT_STAT_INSTANCE : RF := ⟨RST_UNIT_STAT, 47, 40⟩
def RST_UNIT_STAT_COUNT : RF := ⟨RST_UNIT_STAT, 31, 0⟩
def TIME_NOW : Nat := 0x90000
def TIME_NOW_NS : RF := ⟨TIME_NOW, 63, 0⟩
def TIME_EPOCH : Nat := 0x90008
def TIME_EPOCH_SLEWING : RF := ⟨TIME_EPOCH, 16, 16⟩
def TIME_EPOCH_EPOCH : RF := ⟨TIME_EPOCH, 15, 0⟩
def TIME_SLEW : Nat := 0x90010
def TIME_SLEW_AHEAD : RF := ⟨TIME_SLEW, 63, 0⟩
def LCS_STATE : Nat := 0xa0000
def LCS_STATE_LEFT : RF := ⟨LCS_STATE, 39, 32⟩
def LCS_STATE_BOOT_MODE : RF := ⟨LCS_STATE, 10, 8⟩
def LCS_STATE_STATE : RF := ⟨LCS_STATE, 2, 0⟩
def LCS_BOOT : Nat := 0xa0008
def LCS_BOOT_READY : RF := ⟨LCS_BOOT, 63, 63⟩
def LCS_BOOT_SET_READY : RF := ⟨LCS_BOOT, 61, 61⟩
def LCS_BOOT_PROGRESS : RF := ⟨LCS_BOOT, 55, 48⟩
def LCS_BOOT_PHASE : RF := ⟨LCS_BOOT, 43, 40⟩
def LCS_BOOT_BOOT_MS : RF := ⟨LCS_BOOT, 31, 0⟩
def LCS_FW : Nat := 0xa0010
def LCS_FW_VERSION : RF := ⟨LCS_FW, 63, 32⟩
def LCS_FW_MIN_SVN : RF := ⟨LCS_FW, 31, 24⟩
def LCS_FW_SVN : RF := ⟨LCS_FW, 23, 16⟩
def LCS_FW_TRIES : RF := ⟨LCS_FW, 9, 8⟩
def LCS_FW_CONFIRM : RF := ⟨LCS_FW, 6, 6⟩
def LCS_FW_TRIAL : RF := ⟨LCS_FW, 5, 5⟩
def LCS_FW_RUN_BANK : RF := ⟨LCS_FW, 4, 4⟩
def LCS_FW_BOOT_BANK : RF := ⟨LCS_FW, 0, 0⟩
def LCS_UPDATE : Nat := 0xa0018
def LCS_UPDATE_RESULT : RF := ⟨LCS_UPDATE, 63, 56⟩
def LCS_UPDATE_STAGE : RF := ⟨LCS_UPDATE, 50, 48⟩
def LCS_UPDATE_OPEN : RF := ⟨LCS_UPDATE, 47, 47⟩
def LCS_UPDATE_RING : RF := ⟨LCS_UPDATE, 45, 40⟩
def LCS_UPDATE_WRITTEN : RF := ⟨LCS_UPDATE, 31, 0⟩
def LCS_SESSION (s : Nat) : Nat := 0xa0020 + 0x8 * s
def LCS_SESSION_ACTIVE (s : Nat) : RF := ⟨LCS_SESSION s, 63, 63⟩
def LCS_SESSION_ROLE (s : Nat) : RF := ⟨LCS_SESSION s, 62, 61⟩
def LCS_SESSION_GLOLEY (s : Nat) : RF := ⟨LCS_SESSION s, 60, 60⟩
def LCS_SESSION_RING (s : Nat) : RF := ⟨LCS_SESSION s, 59, 54⟩
def LCS_SESSION_ID (s : Nat) : RF := ⟨LCS_SESSION s, 31, 0⟩
def LCS_CFG : Nat := 0xa0040
def LCS_CFG_IDLE : RF := ⟨LCS_CFG, 47, 32⟩
def LCS_AUDIT : Nat := 0xa0048
def LCS_AUDIT_NEXT_ASEQ : RF := ⟨LCS_AUDIT, 63, 32⟩
def LCS_AUDIT_HELD : RF := ⟨LCS_AUDIT, 16, 0⟩
def HIF_LINK_STAT : Nat := 0xb0000
def HIF_LINK_STAT_MODE : RF := ⟨HIF_LINK_STAT, 19, 18⟩
def HIF_LINK_STAT_WIDTH : RF := ⟨HIF_LINK_STAT, 12, 8⟩
def HIF_LINK_STAT_SPEED : RF := ⟨HIF_LINK_STAT, 2, 0⟩
def HIF_RESET_LOG : Nat := 0xb0008
def HIF_RESET_LOG_DISCARDED : RF := ⟨HIF_RESET_LOG, 63, 32⟩
def HIF_RESET_LOG_COUNT : RF := ⟨HIF_RESET_LOG, 31, 16⟩
def HIF_RESET_LOG_LAST : RF := ⟨HIF_RESET_LOG, 2, 0⟩
def HIF_ERR : Nat := 0xb0010
def HIF_ERR_CORRECTED : RF := ⟨HIF_ERR, 63, 32⟩
def HIF_ERR_REPLAY : RF := ⟨HIF_ERR, 31, 0⟩
def HIF_BI : Nat := 0xb0018
def HIF_BI_SNOOPS : RF := ⟨HIF_BI, 63, 32⟩
def HIF_BI_HELD : RF := ⟨HIF_BI, 24, 0⟩
def HIF_CFG : Nat := 0xb0020
def HIF_CFG_CXL_EN : RF := ⟨HIF_CFG, 8, 8⟩
def HIF_CFG_MAX_WIDTH : RF := ⟨HIF_CFG, 0, 0⟩
def HIF_MSIX_ADDR (v : Nat) : Nat := 0xb8000 + 0x10 * v
def HIF_MSIX_ADDR_ADDR (v : Nat) : RF := ⟨HIF_MSIX_ADDR v, 63, 0⟩
def HIF_MSIX_DATA (v : Nat) : Nat := 0xb8008 + 0x10 * v
def HIF_MSIX_DATA_MASK (v : Nat) : RF := ⟨HIF_MSIX_DATA v, 32, 32⟩
def HIF_MSIX_DATA_DATA (v : Nat) : RF := ⟨HIF_MSIX_DATA v, 31, 0⟩
def HIF_PBA (w : Nat) : Nat := 0xb4000 + 0x8 * w
def HIF_PBA_PENDING (w : Nat) : RF := ⟨HIF_PBA w, 63, 0⟩
def MXC_LOCK (m : Nat) : Nat := 0xc0000 + 0x8 * m
def MXC_LOCK_HELD (m : Nat) : RF := ⟨MXC_LOCK m, 63, 63⟩
def MXC_LOCK_ID (m : Nat) : RF := ⟨MXC_LOCK m, 45, 40⟩
def MXC_LOCK_OFFSET (m : Nat) : RF := ⟨MXC_LOCK m, 27, 0⟩
def MXC_CNT : Nat := 0xc0040
def MXC_CNT_BREAKS : RF := ⟨MXC_CNT, 63, 32⟩
def MXC_CNT_LOCK_WAITS : RF := ⟨MXC_CNT, 31, 0⟩
def INTLV_ARB : Nat := 0xd0000
def INTLV_ARB_WINDOW : RF := ⟨INTLV_ARB, 15, 8⟩
def INTLV_ARB_LOCAL_SHARE : RF := ⟨INTLV_ARB, 5, 0⟩
def INTLV_PROBE_ADDR : Nat := 0xd0008
def INTLV_PROBE_ADDR_ADDR : RF := ⟨INTLV_PROBE_ADDR, 41, 0⟩
def INTLV_PROBE_RESULT : Nat := 0xd0010
def INTLV_PROBE_RESULT_VALID : RF := ⟨INTLV_PROBE_RESULT, 63, 63⟩
def INTLV_PROBE_RESULT_ROW_GRANULE : RF := ⟨INTLV_PROBE_RESULT, 58, 32⟩
def INTLV_PROBE_RESULT_BANK : RF := ⟨INTLV_PROBE_RESULT, 21, 16⟩
def INTLV_PROBE_RESULT_TOWER : RF := ⟨INTLV_PROBE_RESULT, 15, 12⟩
def INTLV_PROBE_RESULT_CHANNEL : RF := ⟨INTLV_PROBE_RESULT, 6, 0⟩
def INTLV_SERVICE_LO : Nat := 0xd0018
def INTLV_SERVICE_LO_IN_SERVICE : RF := ⟨INTLV_SERVICE_LO, 63, 0⟩
def INTLV_SERVICE_HI : Nat := 0xd0020
def INTLV_SERVICE_HI_IN_SERVICE : RF := ⟨INTLV_SERVICE_HI, 31, 0⟩
def INTLV_TAIL_BASE : Nat := 0xd0028
def INTLV_TAIL_BASE_BASE : RF := ⟨INTLV_TAIL_BASE, 41, 0⟩
def INTLV_TAIL_SIZE : Nat := 0xd0030
def INTLV_TAIL_SIZE_PENDING : RF := ⟨INTLV_TAIL_SIZE, 63, 63⟩
def INTLV_TAIL_SIZE_SIZE : RF := ⟨INTLV_TAIL_SIZE, 41, 0⟩
def INTLV_TAIL_STAT : Nat := 0xd0038
def INTLV_TAIL_STAT_WAITS : RF := ⟨INTLV_TAIL_STAT, 63, 32⟩
def INTLV_TAIL_STAT_PEAK : RF := ⟨INTLV_TAIL_STAT, 14, 8⟩
def INTLV_TAIL_STAT_LEVEL : RF := ⟨INTLV_TAIL_STAT, 6, 0⟩
def MEMC_STATUS (n : Nat) : Nat := 0x100000 + 0x10000 * n
def MEMC_STATUS_TOWER (n : Nat) : RF := ⟨MEMC_STATUS n, 11, 8⟩
def MEMC_STATUS_STATE (n : Nat) : RF := ⟨MEMC_STATUS n, 2, 0⟩
def MEMC_PERF_CTL (n : Nat) : Nat := 0x100008 + 0x10000 * n
def MEMC_PERF_CTL_CLEAR (n : Nat) : RF := ⟨MEMC_PERF_CTL n, 1, 1⟩
def MEMC_PERF_CTL_ENABLE (n : Nat) : RF := ⟨MEMC_PERF_CTL n, 0, 0⟩
def MEMC_RD_BYTES (n : Nat) : Nat := 0x100010 + 0x10000 * n
def MEMC_RD_BYTES_RD_BYTES (n : Nat) : RF := ⟨MEMC_RD_BYTES n, 63, 0⟩
def MEMC_WR_BYTES (n : Nat) : Nat := 0x100018 + 0x10000 * n
def MEMC_WR_BYTES_WR_BYTES (n : Nat) : RF := ⟨MEMC_WR_BYTES n, 63, 0⟩
def MEMC_RMW_CNT (n : Nat) : Nat := 0x100020 + 0x10000 * n
def MEMC_RMW_CNT_RMW (n : Nat) : RF := ⟨MEMC_RMW_CNT n, 63, 0⟩
def MEMC_GRANTS (n : Nat) : Nat := 0x100028 + 0x10000 * n
def MEMC_GRANTS_REMOTE (n : Nat) : RF := ⟨MEMC_GRANTS n, 63, 32⟩
def MEMC_GRANTS_LOCAL (n : Nat) : RF := ⟨MEMC_GRANTS n, 31, 0⟩
def MEMC_WAIT (n : Nat) : Nat := 0x100030 + 0x10000 * n
def MEMC_WAIT_URGENT (n : Nat) : RF := ⟨MEMC_WAIT n, 63, 32⟩
def MEMC_WAIT_WAIT_MAX (n : Nat) : RF := ⟨MEMC_WAIT n, 31, 0⟩
def MEMC_REFRESH_STALL (n : Nat) : Nat := 0x100038 + 0x10000 * n
def MEMC_REFRESH_STALL_STALL (n : Nat) : RF := ⟨MEMC_REFRESH_STALL n, 63, 0⟩
def MEMC_ECC_CE (n : Nat) : Nat := 0x100100 + 0x10000 * n
def MEMC_ECC_CE_SCRUB (n : Nat) : RF := ⟨MEMC_ECC_CE n, 63, 32⟩
def MEMC_ECC_CE_DEMAND (n : Nat) : RF := ⟨MEMC_ECC_CE n, 31, 0⟩
def MEMC_ECC_UE (n : Nat) : Nat := 0x100108 + 0x10000 * n
def MEMC_ECC_UE_POISON_USE (n : Nat) : RF := ⟨MEMC_ECC_UE n, 63, 32⟩
def MEMC_ECC_UE_NEW (n : Nat) : RF := ⟨MEMC_ECC_UE n, 31, 0⟩
def MEMC_LAST_ERR (n : Nat) : Nat := 0x100110 + 0x10000 * n
def MEMC_LAST_ERR_VALID (n : Nat) : RF := ⟨MEMC_LAST_ERR n, 63, 63⟩
def MEMC_LAST_ERR_ROW_GRANULE (n : Nat) : RF := ⟨MEMC_LAST_ERR n, 58, 32⟩
def MEMC_LAST_ERR_WORD (n : Nat) : RF := ⟨MEMC_LAST_ERR n, 31, 30⟩
def MEMC_LAST_ERR_SYMBOL (n : Nat) : RF := ⟨MEMC_LAST_ERR n, 29, 24⟩
def MEMC_LAST_ERR_KIND (n : Nat) : RF := ⟨MEMC_LAST_ERR n, 2, 0⟩
def MEMC_SCRUB_CTL (n : Nat) : Nat := 0x100118 + 0x10000 * n
def MEMC_SCRUB_CTL_PERIOD_H (n : Nat) : RF := ⟨MEMC_SCRUB_CTL n, 15, 8⟩
def MEMC_SCRUB_CTL_ENABLE (n : Nat) : RF := ⟨MEMC_SCRUB_CTL n, 0, 0⟩
def MEMC_SCRUB_POS (n : Nat) : Nat := 0x100120 + 0x10000 * n
def MEMC_SCRUB_POS_PASSES (n : Nat) : RF := ⟨MEMC_SCRUB_POS n, 63, 48⟩
def MEMC_SCRUB_POS_POSITION (n : Nat) : RF := ⟨MEMC_SCRUB_POS n, 26, 0⟩
def MEMC_SCRUB_LAG (n : Nat) : Nat := 0x100128 + 0x10000 * n
def MEMC_SCRUB_LAG_BEHIND (n : Nat) : RF := ⟨MEMC_SCRUB_LAG n, 63, 63⟩
def MEMC_SCRUB_LAG_LAG (n : Nat) : RF := ⟨MEMC_SCRUB_LAG n, 26, 0⟩
def MEMC_SPARE (n : Nat) : Nat := 0x100130 + 0x10000 * n
def MEMC_SPARE_LANE_FREE (n : Nat) : RF := ⟨MEMC_SPARE n, 49, 48⟩
def MEMC_SPARE_COL_FREE (n : Nat) : RF := ⟨MEMC_SPARE n, 39, 32⟩
def MEMC_SPARE_ROW_FREE (n : Nat) : RF := ⟨MEMC_SPARE n, 8, 0⟩
def MEMC_SPARE_CTL (n : Nat) : Nat := 0x100138 + 0x10000 * n
def MEMC_SPARE_CTL_LANE_THRESH (n : Nat) : RF := ⟨MEMC_SPARE_CTL n, 23, 16⟩
def MEMC_SPARE_CTL_ROW_THRESH (n : Nat) : RF := ⟨MEMC_SPARE_CTL n, 7, 0⟩
def MEMC_WEAR (n : Nat) : Nat := 0x100140 + 0x10000 * n
def MEMC_WEAR_PEAK_TEMP (n : Nat) : RF := ⟨MEMC_WEAR n, 39, 32⟩
def MEMC_WEAR_EQ_QMIN (n : Nat) : RF := ⟨MEMC_WEAR n, 31, 0⟩
def MEMC_INJECT (n : Nat) : Nat := 0x100148 + 0x10000 * n
def MEMC_INJECT_ARM (n : Nat) : RF := ⟨MEMC_INJECT n, 8, 8⟩
def MEMC_INJECT_KIND (n : Nat) : RF := ⟨MEMC_INJECT n, 1, 0⟩
def MEMC_WIPE (n : Nat) : Nat := 0x100150 + 0x10000 * n
def MEMC_WIPE_DONE (n : Nat) : RF := ⟨MEMC_WIPE n, 63, 63⟩
def MEMC_WIPE_POSITION (n : Nat) : RF := ⟨MEMC_WIPE n, 27, 0⟩
def CLUS_ARRAY_STATE (k : Nat) : Nat := 0x800800 + 0x40000 * k
def CLUS_ARRAY_STATE_LOGIC (k : Nat) : RF := ⟨CLUS_ARRAY_STATE k, 5, 4⟩
def CLUS_ARRAY_STATE_ARRAY (k : Nat) : RF := ⟨CLUS_ARRAY_STATE k, 1, 0⟩
def SVU_CHAIN_STATE (i : Nat) : Nat := 0x808000 + i / 4 * 0x40000 + i % 4 * 0x8000
def SVU_CHAIN_STATE_SLICE (i : Nat) : RF := ⟨SVU_CHAIN_STATE i, 47, 40⟩
def SVU_CHAIN_STATE_RING (i : Nat) : RF := ⟨SVU_CHAIN_STATE i, 37, 32⟩
def SVU_CHAIN_STATE_HELD (i : Nat) : RF := ⟨SVU_CHAIN_STATE i, 18, 16⟩
def SVU_CHAIN_STATE_CTX (i : Nat) : RF := ⟨SVU_CHAIN_STATE i, 13, 12⟩
def SVU_CHAIN_STATE_CLUSTER (i : Nat) : RF := ⟨SVU_CHAIN_STATE i, 8, 8⟩
def SVU_CHAIN_STATE_STATE (i : Nat) : RF := ⟨SVU_CHAIN_STATE i, 2, 0⟩
def SVU_CHAIN_FIRST (i : Nat) : Nat := 0x808008 + i / 4 * 0x40000 + i % 4 * 0x8000
def SVU_CHAIN_FIRST_FIRST (i : Nat) : RF := ⟨SVU_CHAIN_FIRST i, 47, 0⟩
def SVU_CHAIN_END (i : Nat) : Nat := 0x808010 + i / 4 * 0x40000 + i % 4 * 0x8000
def SVU_CHAIN_END_END (i : Nat) : RF := ⟨SVU_CHAIN_END i, 47, 0⟩
def SVU_CHAIN_NEXT (i : Nat) : Nat := 0x808018 + i / 4 * 0x40000 + i % 4 * 0x8000
def SVU_CHAIN_NEXT_NEXT (i : Nat) : RF := ⟨SVU_CHAIN_NEXT i, 47, 0⟩
def SVU_SPOOL_STALL (i : Nat) : Nat := 0x808020 + i / 4 * 0x40000 + i % 4 * 0x8000
def SVU_SPOOL_STALL_STALL (i : Nat) : RF := ⟨SVU_SPOOL_STALL i, 63, 0⟩
def SVU_LOFT_STATE (i : Nat) : Nat := 0x808040 + i / 4 * 0x40000 + i % 4 * 0x8000
def SVU_LOFT_STATE_GROUP (i : Nat) : RF := ⟨SVU_LOFT_STATE i, 41, 40⟩
def SVU_LOFT_STATE_QUEUED (i : Nat) : RF := ⟨SVU_LOFT_STATE i, 35, 32⟩
def SVU_LOFT_STATE_BUSY (i : Nat) : RF := ⟨SVU_LOFT_STATE i, 0, 0⟩
def SVU_LOFT_STOP (i : Nat) : Nat := 0x808048 + i / 4 * 0x40000 + i % 4 * 0x8000
def SVU_LOFT_STOP_VALID (i : Nat) : RF := ⟨SVU_LOFT_STOP i, 63, 63⟩
def SVU_LOFT_STOP_OVERFLOW (i : Nat) : RF := ⟨SVU_LOFT_STOP i, 62, 62⟩
def SVU_LOFT_STOP_STATUS (i : Nat) : RF := ⟨SVU_LOFT_STOP i, 55, 48⟩
def SVU_LOFT_STOP_TASK (i : Nat) : RF := ⟨SVU_LOFT_STOP i, 43, 40⟩
def SVU_LOFT_STOP_ABORTED (i : Nat) : RF := ⟨SVU_LOFT_STOP i, 27, 24⟩
def SVU_LOFT_STOP_INDEX (i : Nat) : RF := ⟨SVU_LOFT_STOP i, 12, 0⟩
def SVU_SP_ECC (i : Nat) : Nat := 0x808050 + i / 4 * 0x40000 + i % 4 * 0x8000
def SVU_SP_ECC_SP_CE (i : Nat) : RF := ⟨SVU_SP_ECC i, 63, 48⟩
def SVU_SP_ECC_SP_UE (i : Nat) : RF := ⟨SVU_SP_ECC i, 47, 32⟩
def SVU_SP_ECC_LOFT_CE (i : Nat) : RF := ⟨SVU_SP_ECC i, 31, 16⟩
def SVU_SP_ECC_LOFT_UE (i : Nat) : RF := ⟨SVU_SP_ECC i, 15, 0⟩
def SVU_SP_LAST_ERR (i : Nat) : Nat := 0x808058 + i / 4 * 0x40000 + i % 4 * 0x8000
def SVU_SP_LAST_ERR_VALID (i : Nat) : RF := ⟨SVU_SP_LAST_ERR i, 63, 63⟩
def SVU_SP_LAST_ERR_WORD (i : Nat) : RF := ⟨SVU_SP_LAST_ERR i, 21, 3⟩
def SVU_SP_LAST_ERR_KIND (i : Nat) : RF := ⟨SVU_SP_LAST_ERR i, 2, 0⟩
def SVU_SP_WAIT (i : Nat) : Nat := 0x808060 + i / 4 * 0x40000 + i % 4 * 0x8000
def SVU_SP_WAIT_FOREIGN (i : Nat) : RF := ⟨SVU_SP_WAIT i, 63, 32⟩
def SVU_SP_WAIT_CONFLICT (i : Nat) : RF := ⟨SVU_SP_WAIT i, 31, 0⟩
def CORE_TASK (c : Nat) : Nat := coreBase c + 0x0
def CORE_TASK_START (c : Nat) : RF := ⟨CORE_TASK c, 18, 18⟩
def CORE_TASK_STOP (c : Nat) : RF := ⟨CORE_TASK c, 17, 17⟩
def CORE_TASK_STATE (c : Nat) : RF := ⟨CORE_TASK c, 10, 8⟩
def CORE_TASK_TASK (c : Nat) : RF := ⟨CORE_TASK c, 5, 0⟩
def CORE_GATE (c : Nat) : Nat := coreBase c + 0x8
def CORE_GATE_BASE (c : Nat) : RF := ⟨CORE_GATE c, 51, 12⟩
def CORE_GATE_COUNT (c : Nat) : RF := ⟨CORE_GATE c, 8, 0⟩
def CORE_PIN (c n : Nat) : Nat := coreBase c + 0x40 + 0x8 * n
def CORE_PIN_ADDR (c n : Nat) : RF := ⟨CORE_PIN c n, 51, 6⟩
def CORE_PIN_LOADED (c n : Nat) : RF := ⟨CORE_PIN c n, 1, 1⟩
def CORE_PIN_VALID (c n : Nat) : RF := ⟨CORE_PIN c n, 0, 0⟩
def CORE_INT_RAISE (c : Nat) : Nat := coreBase c + 0x80
def CORE_INT_RAISE_TASK (c : Nat) : RF := ⟨CORE_INT_RAISE c, 13, 8⟩
def CORE_INT_RAISE_LINE (c : Nat) : RF := ⟨CORE_INT_RAISE c, 3, 0⟩
def CORE_DROGUE (c : Nat) : Nat := coreBase c + 0x88
def CORE_DROGUE_ENTRIES (c : Nat) : RF := ⟨CORE_DROGUE c, 63, 32⟩
def CORE_DROGUE_ACTIVE (c : Nat) : RF := ⟨CORE_DROGUE c, 16, 16⟩
def CORE_DROGUE_TASK (c : Nat) : RF := ⟨CORE_DROGUE c, 13, 8⟩
def CORE_DROGUE_CAUSE (c : Nat) : RF := ⟨CORE_DROGUE c, 7, 0⟩
def CORE_TWIN (c w : Nat) : Nat := coreBase c + 0x100 + 0x8 * w
def CORE_TWIN_WORD (c w : Nat) : RF := ⟨CORE_TWIN c w, 63, 0⟩
def CORE_VEC_TRAP (c : Nat) : Nat := coreBase c + 0x10
def CORE_VEC_TRAP_ADDR (c : Nat) : RF := ⟨CORE_VEC_TRAP c, 51, 6⟩
def CORE_VEC_TRAP_RING (c : Nat) : RF := ⟨CORE_VEC_TRAP c, 2, 1⟩
def CORE_VEC_TRAP_VALID (c : Nat) : RF := ⟨CORE_VEC_TRAP c, 0, 0⟩
def CORE_VEC_INT (c : Nat) : Nat := coreBase c + 0x18
def CORE_VEC_INT_ADDR (c : Nat) : RF := ⟨CORE_VEC_INT c, 51, 6⟩
def CORE_VEC_INT_RING (c : Nat) : RF := ⟨CORE_VEC_INT c, 2, 1⟩
def CORE_VEC_INT_VALID (c : Nat) : RF := ⟨CORE_VEC_INT c, 0, 0⟩
def CORE_VEC_DROGUE (c : Nat) : Nat := coreBase c + 0x20
def CORE_VEC_DROGUE_ADDR (c : Nat) : RF := ⟨CORE_VEC_DROGUE c, 51, 6⟩
def CORE_VEC_DROGUE_VALID (c : Nat) : RF := ⟨CORE_VEC_DROGUE c, 0, 0⟩
def JP_CFG (p : Nat) : Nat := 0x1000000 + 0x10000 * p
def JP_CFG_EXPECT_NODE (p : Nat) : RF := ⟨JP_CFG p, 41, 32⟩
def JP_CFG_EXPECT_EN (p : Nat) : RF := ⟨JP_CFG p, 31, 31⟩
def JP_CFG_MODE (p : Nat) : RF := ⟨JP_CFG p, 8, 8⟩
def JP_CFG_ENABLE (p : Nat) : RF := ⟨JP_CFG p, 0, 0⟩
def JP_STAT (p : Nat) : Nat := 0x1000008 + 0x10000 * p
def JP_STAT_DELAY (p : Nat) : RF := ⟨JP_STAT p, 47, 32⟩
def JP_STAT_PEER_NODE (p : Nat) : RF := ⟨JP_STAT p, 31, 22⟩
def JP_STAT_LANES (p : Nat) : RF := ⟨JP_STAT p, 19, 16⟩
def JP_STAT_WIDTH (p : Nat) : RF := ⟨JP_STAT p, 10, 8⟩
def JP_STAT_ETH (p : Nat) : RF := ⟨JP_STAT p, 4, 4⟩
def JP_STAT_STATE (p : Nat) : RF := ⟨JP_STAT p, 2, 0⟩
def JP_ERR (p : Nat) : Nat := 0x1000010 + 0x10000 * p
def JP_ERR_CRC (p : Nat) : RF := ⟨JP_ERR p, 63, 32⟩
def JP_ERR_RETRAINS (p : Nat) : RF := ⟨JP_ERR p, 31, 16⟩
def JP_ERR_TS_LOST (p : Nat) : RF := ⟨JP_ERR p, 15, 0⟩
def JP_ETH_CFG (p : Nat) : Nat := 0x1000018 + 0x10000 * p
def JP_ETH_CFG_ETYPE (p : Nat) : RF := ⟨JP_ETH_CFG p, 63, 48⟩
def JP_ETH_CFG_PFC_EN (p : Nat) : RF := ⟨JP_ETH_CFG p, 47, 40⟩
def JP_ETH_CFG_PRIO (p : Nat) : RF := ⟨JP_ETH_CFG p, 39, 37⟩
def JP_ETH_CFG_TRANSPORT_EN (p : Nat) : RF := ⟨JP_ETH_CFG p, 36, 36⟩
def JP_ETH_CFG_RXQ_EN (p : Nat) : RF := ⟨JP_ETH_CFG p, 35, 35⟩
def JP_ETH_CFG_RXQ (p : Nat) : RF := ⟨JP_ETH_CFG p, 34, 32⟩
def JP_ETH_CFG_EVT_VECTOR (p : Nat) : RF := ⟨JP_ETH_CFG p, 26, 16⟩
def JP_ETH_WM (p : Nat) : Nat := 0x1000030 + 0x10000 * p
def JP_ETH_WM_COUNT (p : Nat) : RF := ⟨JP_ETH_WM p, 63, 48⟩
def JP_ETH_WM_LEVEL (p : Nat) : RF := ⟨JP_ETH_WM p, 34, 34⟩
def JP_ETH_WM_UP (p : Nat) : RF := ⟨JP_ETH_WM p, 33, 33⟩
def JP_ETH_WM_DOWN (p : Nat) : RF := ⟨JP_ETH_WM p, 32, 32⟩
def JP_ETH_WM_THRESH (p : Nat) : RF := ⟨JP_ETH_WM p, 9, 0⟩
def JP_ETH_DROP (p : Nat) : Nat := 0x1000038 + 0x10000 * p
def JP_ETH_DROP_PAUSE_SENT (p : Nat) : RF := ⟨JP_ETH_DROP p, 63, 32⟩
def JP_ETH_DROP_DROPPED (p : Nat) : RF := ⟨JP_ETH_DROP p, 31, 0⟩
def JP_PTP_INFO (p : Nat) : Nat := 0x1000040 + 0x10000 * p
def JP_PTP_INFO_VALID (p : Nat) : RF := ⟨JP_PTP_INFO p, 63, 63⟩
def JP_PTP_INFO_TX (p : Nat) : RF := ⟨JP_PTP_INFO p, 62, 62⟩
def JP_PTP_INFO_EPOCH (p : Nat) : RF := ⟨JP_PTP_INFO p, 31, 16⟩
def JP_PTP_INFO_SEQ_ID (p : Nat) : RF := ⟨JP_PTP_INFO p, 15, 0⟩
def JP_PTP_TIME (p : Nat) : Nat := 0x1000048 + 0x10000 * p
def JP_PTP_TIME_TIME (p : Nat) : RF := ⟨JP_PTP_TIME p, 63, 0⟩
def JP_ETH_MAC (p : Nat) : Nat := 0x1000020 + 0x10000 * p
def JP_ETH_MAC_ADDR (p : Nat) : RF := ⟨JP_ETH_MAC p, 47, 0⟩
def JP_ETH_PEER (p : Nat) : Nat := 0x1000028 + 0x10000 * p
def JP_ETH_PEER_ADDR (p : Nat) : RF := ⟨JP_ETH_PEER p, 47, 0⟩
def JFAB_NODE : Nat := 0x1100000
def JFAB_NODE_BOOT : RF := ⟨JFAB_NODE, 31, 16⟩
def JFAB_NODE_NODE : RF := ⟨JFAB_NODE, 9, 0⟩
def JFAB_CFG : Nat := 0x1100008
def JFAB_CFG_RETRAIN_MAX : RF := ⟨JFAB_CFG, 47, 40⟩
def JFAB_CFG_RESP_TIMEOUT : RF := ⟨JFAB_CFG, 25, 16⟩
def JFAB_TIME : Nat := 0x1100010
def JFAB_TIME_STRATUM : RF := ⟨JFAB_TIME, 47, 40⟩
def JFAB_TIME_UP_PORT : RF := ⟨JFAB_TIME, 35, 32⟩
def JFAB_TIME_OFFSET : RF := ⟨JFAB_TIME, 31, 16⟩
def JFAB_TIME_SOURCE : RF := ⟨JFAB_TIME, 1, 0⟩
def JFAB_TX_DEST : Nat := 0x1100018
def JFAB_TX_DEST_ETH : RF := ⟨JFAB_TX_DEST, 63, 63⟩
def JFAB_TX_DEST_PORT : RF := ⟨JFAB_TX_DEST, 51, 48⟩
def JFAB_TX_DEST_NODE : RF := ⟨JFAB_TX_DEST, 41, 32⟩
def JFAB_TX_DEST_POOL : RF := ⟨JFAB_TX_DEST, 21, 16⟩
def JFAB_TX_GO : Nat := 0x1100020
def JFAB_TX_GO_LEN : RF := ⟨JFAB_TX_GO, 48, 32⟩
def JFAB_TX_GO_TOKEN : RF := ⟨JFAB_TX_GO, 31, 0⟩
def JFAB_TX_STAT : Nat := 0x1100028
def JFAB_TX_STAT_DONE : RF := ⟨JFAB_TX_STAT, 63, 63⟩
def JFAB_TX_STAT_BUSY : RF := ⟨JFAB_TX_STAT, 62, 62⟩
def JFAB_TX_STAT_STATUS : RF := ⟨JFAB_TX_STAT, 55, 48⟩
def JFAB_RXQ_CFG (q : Nat) : Nat := 0x1100100 + 0x20 * q
def JFAB_RXQ_CFG_EN (q : Nat) : RF := ⟨JFAB_RXQ_CFG q, 63, 63⟩
def JFAB_RXQ_CFG_POOL (q : Nat) : RF := ⟨JFAB_RXQ_CFG q, 61, 56⟩
def JFAB_RXQ_CFG_RING (q : Nat) : RF := ⟨JFAB_RXQ_CFG q, 53, 48⟩
def JFAB_RXQ_CFG_VECTOR (q : Nat) : RF := ⟨JFAB_RXQ_CFG q, 42, 32⟩
def JFAB_RXQ_CFG_TASK (q : Nat) : RF := ⟨JFAB_RXQ_CFG q, 21, 16⟩
def JFAB_RXQ_CFG_LINE (q : Nat) : RF := ⟨JFAB_RXQ_CFG q, 15, 12⟩
def JFAB_RXQ_CFG_LOG2 (q : Nat) : RF := ⟨JFAB_RXQ_CFG q, 4, 0⟩
def JFAB_RXQ_BASE (q : Nat) : Nat := 0x1100108 + 0x20 * q
def JFAB_RXQ_BASE_BASE (q : Nat) : RF := ⟨JFAB_RXQ_BASE q, 41, 0⟩
def JFAB_RXQ_PTR (q : Nat) : Nat := 0x1100110 + 0x20 * q
def JFAB_RXQ_PTR_CONSUMED (q : Nat) : RF := ⟨JFAB_RXQ_PTR q, 63, 32⟩
def JFAB_RXQ_PTR_POSTED (q : Nat) : RF := ⟨JFAB_RXQ_PTR q, 31, 0⟩
def JFAB_ROUTE_PRI (n : Nat) : Nat := 0x1110000 + 0x10 * n
def JFAB_ROUTE_PRI_VALID (n : Nat) : RF := ⟨JFAB_ROUTE_PRI n, 63, 63⟩
def JFAB_ROUTE_PRI_HOPLIM (n : Nat) : RF := ⟨JFAB_ROUTE_PRI n, 59, 56⟩
def JFAB_ROUTE_PRI_PORTS (n : Nat) : RF := ⟨JFAB_ROUTE_PRI n, 15, 0⟩
def JFAB_ROUTE_ALT (n : Nat) : Nat := 0x1110008 + 0x10 * n
def JFAB_ROUTE_ALT_PORTS (n : Nat) : RF := ⟨JFAB_ROUTE_ALT n, 15, 0⟩
def XLAT_CTX_ROOT (c : Nat) : Nat := 0x1200000 + 0x10 * c
def XLAT_CTX_ROOT_ROOT (c : Nat) : RF := ⟨XLAT_CTX_ROOT c, 51, 12⟩
def XLAT_CTX_CFG (c : Nat) : Nat := 0x1200008 + 0x10 * c
def XLAT_CTX_CFG_RING (c : Nat) : RF := ⟨XLAT_CTX_CFG c, 7, 6⟩
def XLAT_CTX_CFG_REMOTE_OK (c : Nat) : RF := ⟨XLAT_CTX_CFG c, 1, 1⟩
def XLAT_CTX_CFG_ENABLE (c : Nat) : RF := ⟨XLAT_CTX_CFG c, 0, 0⟩
def XLAT_STOP_INFO (r : Nat) : Nat := 0x1201000 + 0x20 * r
def XLAT_STOP_INFO_VALID (r : Nat) : RF := ⟨XLAT_STOP_INFO r, 63, 63⟩
def XLAT_STOP_INFO_OVERFLOW (r : Nat) : RF := ⟨XLAT_STOP_INFO r, 62, 62⟩
def XLAT_STOP_INFO_CTX (r : Nat) : RF := ⟨XLAT_STOP_INFO r, 55, 48⟩
def XLAT_STOP_INFO_STATUS (r : Nat) : RF := ⟨XLAT_STOP_INFO r, 47, 40⟩
def XLAT_STOP_INFO_SLOT (r : Nat) : RF := ⟨XLAT_STOP_INFO r, 39, 36⟩
def XLAT_STOP_INFO_NODE (r : Nat) : RF := ⟨XLAT_STOP_INFO r, 35, 32⟩
def XLAT_STOP_INFO_SEQ (r : Nat) : RF := ⟨XLAT_STOP_INFO r, 31, 0⟩
def XLAT_STOP_VA (r : Nat) : Nat := 0x1201008 + 0x20 * r
def XLAT_STOP_VA_VA (r : Nat) : RF := ⟨XLAT_STOP_VA r, 56, 0⟩
def XLAT_STOP_INDEX (r : Nat) : Nat := 0x1201010 + 0x20 * r
def XLAT_STOP_INDEX_CAUSE (r : Nat) : RF := ⟨XLAT_STOP_INDEX r, 63, 60⟩
def XLAT_STOP_INDEX_LEVEL (r : Nat) : RF := ⟨XLAT_STOP_INDEX r, 59, 57⟩
def XLAT_STOP_INDEX_INDEX (r : Nat) : RF := ⟨XLAT_STOP_INDEX r, 47, 0⟩
def XLAT_STOP_TAG (r : Nat) : Nat := 0x1201018 + 0x20 * r
def XLAT_STOP_TAG_TAG (r : Nat) : RF := ⟨XLAT_STOP_TAG r, 63, 0⟩
def XLAT_WALKS : Nat := 0x1202000
def XLAT_WALKS_WALKS : RF := ⟨XLAT_WALKS, 63, 0⟩
def XLAT_WALK_FAULTS : Nat := 0x1202008
def XLAT_WALK_FAULTS_FAULTS : RF := ⟨XLAT_WALK_FAULTS, 63, 0⟩
def VERIF_SUP : Nat := 0x1300000
def VERIF_SUP_HELD : RF := ⟨VERIF_SUP, 22, 16⟩
def VERIF_SUP_MODE : RF := ⟨VERIF_SUP, 2, 0⟩
def VERIF_SUP_CNT : Nat := 0x1300008
def VERIF_SUP_CNT_MISMATCH : RF := ⟨VERIF_SUP_CNT, 63, 48⟩
def VERIF_SUP_CNT_INTERVALS : RF := ⟨VERIF_SUP_CNT, 47, 0⟩
def VERIF_WINDOWS : Nat := 0x1300010
def VERIF_WINDOWS_RELEASED : RF := ⟨VERIF_WINDOWS, 63, 0⟩
def VERIF_MISMATCH : Nat := 0x1300018
def VERIF_MISMATCH_RETRIED : RF := ⟨VERIF_MISMATCH, 63, 32⟩
def VERIF_MISMATCH_MISMATCH : RF := ⟨VERIF_MISMATCH, 31, 0⟩
def VERIF_LAST_INFO : Nat := 0x1300020
def VERIF_LAST_INFO_VALID : RF := ⟨VERIF_LAST_INFO, 63, 63⟩
def VERIF_LAST_INFO_OVERFLOW : RF := ⟨VERIF_LAST_INFO, 62, 62⟩
def VERIF_LAST_INFO_OUTCOME : RF := ⟨VERIF_LAST_INFO, 31, 28⟩
def VERIF_LAST_INFO_CLUSTER : RF := ⟨VERIF_LAST_INFO, 24, 24⟩
def VERIF_LAST_INFO_RING : RF := ⟨VERIF_LAST_INFO, 21, 16⟩
def VERIF_LAST_INFO_SVU : RF := ⟨VERIF_LAST_INFO, 6, 0⟩
def VERIF_LAST_INDEX : Nat := 0x1300028
def VERIF_LAST_INDEX_INDEX : RF := ⟨VERIF_LAST_INDEX, 47, 0⟩
def VERIF_LAST_SIG1 : Nat := 0x1300030
def VERIF_LAST_SIG1_SIG : RF := ⟨VERIF_LAST_SIG1, 63, 0⟩
def VERIF_LAST_SIG2 : Nat := 0x1300038
def VERIF_LAST_SIG2_SIG : RF := ⟨VERIF_LAST_SIG2, 63, 0⟩

end Reg

/-- Entry 0 of a list of instance numbers. -/
def at0 (ix : List Nat) : Nat := ix.getD 0 0

/-- CMDR_PART_MAP word `w` after reset: byte b holds SVU 8w + b. -/
def identityMap (w : Nat) : Nat := leNat ((List.range 8).map (fun b => BitVec.ofNat 8 (8 * w + b)))

/-- Owner of block-mover channel `c` after reset (R451): 0 to 3 CMD, 4 to 15 FW, 16 to 31 HOST. -/
def bmvResetOwner (c : Nat) : Nat := if c < 4 then 2 else if c < 16 then 0 else 1

/-- Default class of fault source `n` (R578): 0 A, 1 B, 2 C, 3 D. -/
def srcDefault (n : Nat) : Nat :=
  if n < 24 then 0 else if n < 48 then 1 else if n < 96 then 0 else if n < 168 then 1
  else if n < 216 then 0 else if n < 240 then 1 else if n < 252 then 0 else if n < 264 then 1
  else if n < 348 then 0 else if n < 364 then 1 else if n < 380 then 0 else if n < 406 then 1
  else if n < 432 then 2 else if n < 590 then 0 else if n < 624 then 1 else if n = 624 then 2
  else if n = 625 then 3 else if n = 630 then 1 else if n = 632 then 1 else if n = 639 then 1 else 0

/-- Whether source `n` is a data-path source (R578). -/
def srcIsData (n : Nat) : Bool := n < 332 || (621 ≤ n && n ≤ 625)

/-- Collector of source `n` (R578). -/
def srcCollector (n : Nat) : Nat :=
  if n < 240 then n % 24
  else if n < 300 then 24 + (n - 240) % 12
  else if n < 380 then 36
  else if n < 404 then n - 380
  else if n < 406 then 37
  else if n < 430 then n - 406
  else if n = 626 || n = 627 then 36
  else 37

/-- FLT_SRC of source `n` at power-on: current class the default, PROMOTE_EN 1, N 32, WINDOW 3,600,000 ms. -/
def srcResetWord (n : Nat) : Nat :=
  srcDefault n * 2 ^ 62 + srcDefault n * 2 ^ 60 + 2 ^ 57 + b2n (srcIsData n) * 2 ^ 56 + 32 * 2 ^ 48 + 3600000

/-- The registers of IDENT. -/
def regsIdent : List RegDef := [
  { insts := [(0x0, [])]
    fields := [{ hi := 63, lo := 48, acc := .ro }, { hi := 47, lo := 40, acc := .ro }, { hi := 31, lo := 16, acc := .ro }]
    init := fun _ => 0x9600 * 2 ^ 48 + bitsOf (Config.fuse Reg.IDENT_PART).toNat 47 40 * 2 ^ 40 + 1 * 2 ^ 16, kept := 0xff0000000000 },
  { insts := [(0x8, [])]
    fields := [{ hi := 63, lo := 0, acc := .ro }]
    init := fun _ => (Config.fuse Reg.IDENT_SERIAL).toNat, kept := 0xffffffffffffffff }]

/-- The registers of CMDR. -/
def regsCmdr : List RegDef := [
  { insts := [(0x10000, [(0x100, 64)])]
    fields := [{ hi := 47, lo := 44, acc := .rw }, { hi := 39, lo := 32, acc := .rw, least := 1, most := 255 }, { hi := 24, lo := 24, acc := .rw }, { hi := 16, lo := 16, acc := .rw }, { hi := 8, lo := 8, acc := .rw }, { hi := 4, lo := 0, acc := .rw }]
    init := fun _ => 0x100000006, kept := 0x0 },
  { insts := [(0x10008, [(0x100, 64)])]
    fields := [{ hi := 63, lo := 0, acc := .rw }]
    init := fun _ => 0x0, kept := 0x0 },
  { insts := [(0x10010, [(0x100, 64)])]
    fields := [{ hi := 63, lo := 0, acc := .rw }]
    init := fun _ => 0x0, kept := 0x0 },
  { insts := [(0x10018, [(0x100, 64)])]
    fields := [{ hi := 58, lo := 48, acc := .rw }, { hi := 42, lo := 32, acc := .rw }, { hi := 31, lo := 24, acc := .rw, least := 1, most := 255 }, { hi := 23, lo := 12, acc := .rw, least := 1, most := 4095 }, { hi := 8, lo := 8, acc := .rw }, { hi := 5, lo := 5, acc := .rw }, { hi := 4, lo := 0, acc := .rw }]
    init := fun _ => 0x1001006, kept := 0x0 },
  { insts := [(0x10020, [(0x100, 64)])]
    fields := [{ hi := 63, lo := 63, acc := .rw }, { hi := 56, lo := 0, acc := .rw }]
    init := fun _ => 0x0, kept := 0x0 },
  { insts := [(0x10028, [(0x100, 64)])]
    fields := [{ hi := 63, lo := 32, acc := .ro }, { hi := 18, lo := 18, acc := .w1c }, { hi := 17, lo := 17, acc := .w1c }, { hi := 16, lo := 16, acc := .w1c }, { hi := 10, lo := 8, acc := .ro }, { hi := 2, lo := 2, acc := .wo }, { hi := 1, lo := 1, acc := .wo }, { hi := 0, lo := 0, acc := .wo }]
    init := fun _ => 0x0, kept := 0x0 },
  { insts := [(0x10030, [(0x100, 64)])]
    fields := [{ hi := 63, lo := 32, acc := .ro }, { hi := 31, lo := 0, acc := .ro }]
    init := fun _ => 0x0, kept := 0x0 },
  { insts := [(0x10038, [(0x100, 64)])]
    fields := [{ hi := 63, lo := 32, acc := .ro }, { hi := 31, lo := 0, acc := .ro }]
    init := fun _ => 0x0, kept := 0x0 },
  { insts := [(0x10040, [(0x100, 64)])]
    fields := [{ hi := 63, lo := 32, acc := .wo }, { hi := 31, lo := 0, acc := .wo }]
    init := fun _ => 0x0, kept := 0x0 },
  { insts := [(0x18000, [(0x80, 16), (0x8, 12)])]
    fields := [{ hi := 63, lo := 0, acc := .ro }]
    init := fun ix => identityMap (ix.getD 1 0), kept := 0x0 },
  { insts := [(0x18060, [(0x80, 16)])]
    fields := [{ hi := 6, lo := 0, acc := .ro }]
    init := fun _ => 0x60, kept := 0x0 },
  { insts := [(0x10048, [(0x100, 64)])]
    fields := [{ hi := 63, lo := 48, acc := .ro }, { hi := 34, lo := 34, acc := .ro }, { hi := 33, lo := 33, acc := .w1c }, { hi := 32, lo := 32, acc := .w1c }, { hi := 16, lo := 0, acc := .rw }]
    init := fun _ => 0x0, kept := 0x0 },
  { insts := [(0x10050, [(0x100, 64)])]
    fields := [{ hi := 63, lo := 48, acc := .ro }, { hi := 34, lo := 34, acc := .ro }, { hi := 33, lo := 33, acc := .w1c }, { hi := 32, lo := 32, acc := .w1c }, { hi := 16, lo := 0, acc := .rw }]
    init := fun _ => 0x0, kept := 0x0 }]

/-- The registers of MBX. -/
def regsMbx : List RegDef := [
  { insts := [(0x20000, [(0x400, 30), (0x200, 2)])]
    fields := [{ hi := 31, lo := 31, acc := .w1c }, { hi := 30, lo := 0, acc := .w1c }]
    init := fun _ => 0x0, kept := 0x0 },
  { insts := [(0x20008, [(0x400, 30), (0x200, 2)])]
    fields := [{ hi := 31, lo := 0, acc := .rw }]
    init := fun _ => 0x80000000, kept := 0x0 },
  { insts := [(0x20010, [(0x400, 30), (0x200, 2)])]
    fields := [{ hi := 31, lo := 0, acc := .wo }]
    init := fun _ => 0x0, kept := 0x0 },
  { insts := [(0x20018, [(0x400, 30), (0x200, 2)])]
    fields := [{ hi := 63, lo := 0, acc := .wo }]
    init := fun _ => 0x0, kept := 0x0 },
  { insts := [(0x20020, [(0x400, 30), (0x200, 2)])]
    fields := [{ hi := 63, lo := 0, acc := .rc }]
    init := fun _ => 0x0, kept := 0x0 },
  { insts := [(0x20028, [(0x400, 30), (0x200, 2)])]
    fields := [{ hi := 63, lo := 63, acc := .rw }, { hi := 62, lo := 62, acc := .ro }, { hi := 61, lo := 61, acc := .w1c }, { hi := 60, lo := 60, acc := .w1c }, { hi := 20, lo := 16, acc := .ro }, { hi := 12, lo := 8, acc := .ro }, { hi := 7, lo := 0, acc := .ro }]
    init := fun _ => 0x0, kept := 0x0 },
  { insts := [(0x20030, [(0x400, 30), (0x200, 2)])]
    fields := [{ hi := 48, lo := 48, acc := .rw }, { hi := 42, lo := 32, acc := .rw }, { hi := 16, lo := 16, acc := .rw }, { hi := 13, lo := 8, acc := .rw }, { hi := 3, lo := 0, acc := .rw }]
    init := fun _ => 0x0, kept := 0x0 }]

/-- The registers of BMV. -/
def regsBmv : List RegDef := [
  { insts := [(0x30030, [(0x80, 32)])]
    fields := [{ hi := 9, lo := 8, acc := .ro }, { hi := 2, lo := 2, acc := .ro }, { hi := 1, lo := 1, acc := .wo }, { hi := 0, lo := 0, acc := .wo }]
    init := fun _ => 0x0, kept := 0x0 },
  { insts := [(0x30038, [(0x80, 32)])]
    fields := [{ hi := 63, lo := 63, acc := .w1c }, { hi := 62, lo := 62, acc := .w1c }, { hi := 55, lo := 48, acc := .ro }, { hi := 47, lo := 0, acc := .ro }]
    init := fun _ => 0x0, kept := 0x0 },
  { insts := [(0x30040, [(0x80, 32)])]
    fields := [{ hi := 49, lo := 48, acc := .rw, least := 0, most := 2 }, { hi := 42, lo := 32, acc := .rw }, { hi := 13, lo := 8, acc := .rw }, { hi := 3, lo := 0, acc := .rw }]
    init := fun ix => bmvResetOwner (at0 ix) * 2 ^ 48, kept := 0x0 },
  { insts := [(0x30048, [(0x80, 32)])]
    fields := [{ hi := 47, lo := 0, acc := .ro }]
    init := fun _ => 0x0, kept := 0x0 },
  { insts := [(0x32000, [(0x20, 64)])]
    fields := [{ hi := 41, lo := 0, acc := .rw }]
    init := fun _ => 0x0, kept := 0x0 },
  { insts := [(0x32008, [(0x20, 64)])]
    fields := [{ hi := 41, lo := 0, acc := .rw }]
    init := fun _ => 0x0, kept := 0x0 },
  { insts := [(0x32010, [(0x20, 64)])]
    fields := [{ hi := 63, lo := 63, acc := .rw }, { hi := 51, lo := 48, acc := .rw, least := 6, most := 16 }, { hi := 18, lo := 0, acc := .rw, least := 1, most := 262144 }]
    init := fun _ => 0x6000000000000, kept := 0x0 },
  { insts := [(0x32018, [(0x20, 64)])]
    fields := [{ hi := 63, lo := 48, acc := .ro }, { hi := 18, lo := 0, acc := .ro }]
    init := fun _ => 0x0, kept := 0x0 },
  { insts := [(0x30000, [(0x80, 32)])]
    fields := [{ hi := 63, lo := 0, acc := .rw }]
    init := fun _ => 0x0, kept := 0x0 },
  { insts := [(0x30008, [(0x80, 32)])]
    fields := [{ hi := 63, lo := 0, acc := .rw }]
    init := fun _ => 0x0, kept := 0x0 },
  { insts := [(0x30018, [(0x80, 32)])]
    fields := [{ hi := 63, lo := 0, acc := .ro }]
    init := fun _ => 0x0, kept := 0x0 },
  { insts := [(0x30020, [(0x80, 32)])]
    fields := [{ hi := 63, lo := 0, acc := .ro }]
    init := fun _ => 0x0, kept := 0x0 },
  { insts := [(0x30010, [(0x80, 32)])]
    fields := [{ hi := 63, lo := 61, acc := .rw }, { hi := 60, lo := 60, acc := .rw }, { hi := 59, lo := 59, acc := .rw }, { hi := 58, lo := 58, acc := .rw }, { hi := 57, lo := 57, acc := .rw }, { hi := 56, lo := 56, acc := .rw }, { hi := 55, lo := 52, acc := .rw }, { hi := 47, lo := 0, acc := .rw }]
    init := fun _ => 0xc0000000000000, kept := 0x0 },
  { insts := [(0x30028, [(0x80, 32)])]
    fields := [{ hi := 63, lo := 61, acc := .ro }, { hi := 60, lo := 60, acc := .ro }, { hi := 59, lo := 59, acc := .ro }, { hi := 58, lo := 58, acc := .ro }, { hi := 57, lo := 57, acc := .ro }, { hi := 56, lo := 56, acc := .ro }, { hi := 55, lo := 52, acc := .ro }, { hi := 47, lo := 0, acc := .ro }]
    init := fun _ => 0xc0000000000000, kept := 0x0 }]

/-- The registers of FLT. -/
def regsFlt : List RegDef := [
  { insts := [(0x40000, [])]
    fields := [{ hi := 63, lo := 53, acc := .rw }, { hi := 52, lo := 33, acc := .rw, least := 100, most := 1000000 }, { hi := 32, lo := 19, acc := .rw, least := 1, most := 10000 }, { hi := 18, lo := 11, acc := .rw }, { hi := 9, lo := 4, acc := .rw }, { hi := 3, lo := 0, acc := .rw }]
    init := fun _ => 0x271001932000, kept := 0xfffffffffffffbff },
  { insts := [(0x40008, [])]
    fields := [{ hi := 41, lo := 32, acc := .wo }, { hi := 31, lo := 0, acc := .wo }]
    init := fun _ => 0x0, kept := 0x0 },
  { insts := [(0x40010, [])]
    fields := [{ hi := 63, lo := 32, acc := .ro }, { hi := 25, lo := 16, acc := .ro }, { hi := 9, lo := 0, acc := .ro }]
    init := fun _ => 0x0, kept := 0xffffffff00000000 },
  { insts := [(0x40018, [])]
    fields := [{ hi := 16, lo := 16, acc := .wo }, { hi := 10, lo := 8, acc := .wo }, { hi := 6, lo := 0, acc := .wo }]
    init := fun _ => 0x0, kept := 0x0 },
  { insts := [(0x40040, [])]
    fields := [{ hi := 49, lo := 48, acc := .ro }, { hi := 39, lo := 16, acc := .ro }, { hi := 15, lo := 0, acc := .ro }]
    init := fun _ => 0x0, kept := 0x300ffffffffff },
  { insts := [(0x41000, [(0x10, 640)])]
    fields := [{ hi := 63, lo := 62, acc := .ro }, { hi := 61, lo := 60, acc := .ro }, { hi := 59, lo := 58, acc := .ro }, { hi := 57, lo := 57, acc := .rw }, { hi := 56, lo := 56, acc := .ro }, { hi := 55, lo := 48, acc := .rw, least := 1, most := 255 }, { hi := 47, lo := 40, acc := .ro }, { hi := 26, lo := 0, acc := .rw, least := 1, most := 86400000 }]
    init := fun ix => srcResetWord (at0 ix), kept := 0xf3ffff0007ffffff },
  { insts := [(0x41008, [(0x10, 640)])]
    fields := [{ hi := 63, lo := 32, acc := .ro }, { hi := 31, lo := 0, acc := .ro }]
    init := fun _ => 0x0, kept := 0xffffffffffffffff },
  { insts := [(0x44000, [(0x200, 38), (0x20, 16), (0x8, 4)])]
    fields := [{ hi := 63, lo := 0, acc := .ro }]
    init := fun _ => 0x0, kept := 0xffffffffffffffff },
  { insts := [(0x49000, [(0x8, 38)])]
    fields := [{ hi := 12, lo := 8, acc := .ro }, { hi := 3, lo := 0, acc := .ro }]
    init := fun _ => 0x0, kept := 0x1f0f },
  { insts := [(0x4a000, [(0x40, 38), (0x8, 4)])]
    fields := [{ hi := 63, lo := 0, acc := .ro }]
    init := fun _ => 0x0, kept := 0xffffffffffffffff },
  { insts := [(0x4a020, [(0x40, 38)])]
    fields := [{ hi := 63, lo := 63, acc := .w1c }, { hi := 62, lo := 62, acc := .w1c }]
    init := fun _ => 0x0, kept := 0xc000000000000000 },
  { insts := [(0x40020, [(0x8, 2)])]
    fields := [{ hi := 63, lo := 0, acc := .ro }]
    init := fun _ => 0x0, kept := 0xffffffffffffffff },
  { insts := [(0x40030, [(0x8, 2)])]
    fields := [{ hi := 63, lo := 0, acc := .ro }]
    init := fun _ => 0x0, kept := 0xffffffffffffffff }]

/-- The registers of TLOG. -/
def regsTlog : List RegDef := [
  { insts := [(0x50000, [])]
    fields := [{ hi := 63, lo := 32, acc := .ro }, { hi := 13, lo := 0, acc := .ro }]
    init := fun _ => 0x0, kept := 0xffffffff00003fff },
  { insts := [(0x50008, [])]
    fields := [{ hi := 31, lo := 0, acc := .rw }]
    init := fun _ => 0x0, kept := 0x0 },
  { insts := [(0x50010, [(0x8, 4)])]
    fields := [{ hi := 63, lo := 0, acc := .ro }]
    init := fun _ => 0x0, kept := 0x0 }]

/-- The registers of PWR. -/
def regsPwr : List RegDef := [
  { insts := [(0x60000, [])]
    fields := [{ hi := 63, lo := 56, acc := .ro }, { hi := 50, lo := 48, acc := .ro }, { hi := 2, lo := 0, acc := .ro }]
    init := fun _ => 0x0, kept := 0x0 },
  { insts := [(0x60008, [])]
    fields := [{ hi := 9, lo := 9, acc := .wo }, { hi := 8, lo := 8, acc := .wo }, { hi := 1, lo := 0, acc := .wo }]
    init := fun _ => 0x0, kept := 0x0 },
  { insts := [(0x60010, [])]
    fields := [{ hi := 63, lo := 48, acc := .ro }, { hi := 47, lo := 32, acc := .ro }, { hi := 31, lo := 24, acc := .ro }, { hi := 23, lo := 16, acc := .ro }, { hi := 1, lo := 0, acc := .ro }]
    init := fun _ => 0x3, kept := 0x0 },
  { insts := [(0x60018, [])]
    fields := [{ hi := 63, lo := 48, acc := .rw, least := 450, most := 1800 }, { hi := 47, lo := 32, acc := .rw }, { hi := 3, lo := 0, acc := .rw, least := 1, most := 8 }]
    init := fun _ => 0x708025800000004, kept := 0xffffffff0000000f },
  { insts := [(0x60020, [])]
    fields := [{ hi := 47, lo := 32, acc := .ro }, { hi := 31, lo := 16, acc := .ro }, { hi := 15, lo := 0, acc := .ro }]
    init := fun _ => 0x70800000000, kept := 0x0 },
  { insts := [(0x60028, [])]
    fields := [{ hi := 58, lo := 48, acc := .rw }, { hi := 47, lo := 32, acc := .rw, least := 100, most := 65535 }, { hi := 21, lo := 12, acc := .rw, least := 1, most := 1000 }, { hi := 8, lo := 8, acc := .rw }, { hi := 7, lo := 0, acc := .rw, least := 70, most := 105 }]
    init := fun _ => 0x3e80000a15f, kept := 0xffff003ff1ff },
  { insts := [(0x60030, [])]
    fields := [{ hi := 63, lo := 48, acc := .ro }, { hi := 47, lo := 32, acc := .ro }, { hi := 31, lo := 16, acc := .ro }, { hi := 15, lo := 0, acc := .ro }]
    init := fun _ => 0x0, kept := 0x0 },
  { insts := [(0x60038, [])]
    fields := [{ hi := 63, lo := 0, acc := .ro }]
    init := fun _ => 0x0, kept := 0x0 },
  { insts := [(0x60040, [])]
    fields := [{ hi := 15, lo := 0, acc := .ro }]
    init := fun _ => 0x0, kept := 0x0 },
  { insts := [(0x60048, [])]
    fields := [{ hi := 63, lo := 56, acc := .ro }, { hi := 55, lo := 55, acc := .ro }, { hi := 8, lo := 8, acc := .wo }, { hi := 6, lo := 0, acc := .wo }]
    init := fun _ => 0x0, kept := 0x0 },
  { insts := [(0x60050, [])]
    fields := [{ hi := 63, lo := 48, acc := .ro }, { hi := 47, lo := 32, acc := .ro }, { hi := 31, lo := 16, acc := .ro }, { hi := 15, lo := 0, acc := .ro }]
    init := fun _ => 0x0, kept := 0x0 },
  { insts := [(0x60058, [])]
    fields := [{ hi := 63, lo := 0, acc := .ro }]
    init := fun _ => 0x0, kept := 0x0 },
  { insts := [(0x60060, [])]
    fields := [{ hi := 63, lo := 48, acc := .ro }, { hi := 34, lo := 34, acc := .ro }, { hi := 33, lo := 33, acc := .w1c }, { hi := 32, lo := 32, acc := .w1c }, { hi := 10, lo := 0, acc := .rw, least := 0, most := 1800 }]
    init := fun _ => 0x0, kept := 0x0 }]

/-- The registers of CLK. -/
def regsClk : List RegDef := [
  { insts := [(0x70000, [])]
    fields := [{ hi := 63, lo := 63, acc := .w1c }, { hi := 62, lo := 62, acc := .ro }, { hi := 61, lo := 61, acc := .ro }, { hi := 47, lo := 32, acc := .ro }, { hi := 30, lo := 0, acc := .ro }]
    init := fun _ => 0x0, kept := 0x8000ffff00000000 },
  { insts := [(0x70008, [])]
    fields := [{ hi := 63, lo := 32, acc := .ro }, { hi := 31, lo := 0, acc := .ro }]
    init := fun _ => 0x0, kept := 0x0 },
  { insts := [(0x70100, [(0x8, 31)])]
    fields := [{ hi := 47, lo := 32, acc := .ro }, { hi := 1, lo := 0, acc := .ro }]
    init := fun _ => 0x0, kept := 0x0 }]

/-- The registers of RST. -/
def regsRst : List RegDef := [
  { insts := [(0x80000, [])]
    fields := [{ hi := 0, lo := 0, acc := .wo }]
    init := fun _ => 0x0, kept := 0x0 },
  { insts := [(0x80008, [])]
    fields := [{ hi := 47, lo := 32, acc := .ro }, { hi := 2, lo := 0, acc := .ro }]
    init := fun _ => 0x0, kept := 0xffff00000007 },
  { insts := [(0x80010, [])]
    fields := [{ hi := 63, lo := 56, acc := .ro }, { hi := 51, lo := 51, acc := .ro }, { hi := 50, lo := 48, acc := .ro }, { hi := 47, lo := 40, acc := .ro }, { hi := 31, lo := 0, acc := .ro }]
    init := fun _ => 0x0, kept := 0x0 }]

/-- The registers of TIME. -/
def regsTime : List RegDef := [
  { insts := [(0x90000, [])]
    fields := [{ hi := 63, lo := 0, acc := .ro }]
    init := fun _ => 0x0, kept := 0xffffffffffffffff },
  { insts := [(0x90008, [])]
    fields := [{ hi := 16, lo := 16, acc := .ro }, { hi := 15, lo := 0, acc := .ro }]
    init := fun _ => 0x0, kept := 0xffff },
  { insts := [(0x90010, [])]
    fields := [{ hi := 63, lo := 0, acc := .ro }]
    init := fun _ => 0x0, kept := 0x0 }]

/-- The registers of LCS. -/
def regsLcs : List RegDef := [
  { insts := [(0xa0000, [])]
    fields := [{ hi := 39, lo := 32, acc := .ro }, { hi := 10, lo := 8, acc := .ro }, { hi := 2, lo := 0, acc := .ro }]
    init := fun _ => (Config.fuse Reg.LCS_STATE).toNat % 2 ^ 40 / 2 ^ 32 * 2 ^ 32 + (Config.fuse Reg.LCS_STATE).toNat % 8, kept := 0xff00000707 },
  { insts := [(0xa0008, [])]
    fields := [{ hi := 63, lo := 63, acc := .ro }, { hi := 61, lo := 61, acc := .wo }, { hi := 55, lo := 48, acc := .ro }, { hi := 43, lo := 40, acc := .ro }, { hi := 31, lo := 0, acc := .ro }]
    init := fun _ => 0x0, kept := 0x0 },
  { insts := [(0xa0010, [])]
    fields := [{ hi := 63, lo := 32, acc := .ro }, { hi := 31, lo := 24, acc := .ro }, { hi := 23, lo := 16, acc := .ro }, { hi := 9, lo := 8, acc := .ro }, { hi := 6, lo := 6, acc := .wo }, { hi := 5, lo := 5, acc := .ro }, { hi := 4, lo := 4, acc := .ro }, { hi := 0, lo := 0, acc := .ro }]
    init := fun _ => bitsOf (Config.fuse Reg.LCS_FW).toNat 31 24 * 2 ^ 24, kept := 0xffffffffffff0331 },
  { insts := [(0xa0018, [])]
    fields := [{ hi := 63, lo := 56, acc := .ro }, { hi := 50, lo := 48, acc := .ro }, { hi := 47, lo := 47, acc := .ro }, { hi := 45, lo := 40, acc := .ro }, { hi := 31, lo := 0, acc := .ro }]
    init := fun _ => 0x0, kept := 0x0 },
  { insts := [(0xa0020, [(0x8, 4)])]
    fields := [{ hi := 63, lo := 63, acc := .ro }, { hi := 62, lo := 61, acc := .ro }, { hi := 60, lo := 60, acc := .ro }, { hi := 59, lo := 54, acc := .ro }, { hi := 31, lo := 0, acc := .ro }]
    init := fun _ => 0x0, kept := 0x0 },
  { insts := [(0xa0040, [])]
    fields := [{ hi := 47, lo := 32, acc := .rw, least := 60, most := 65535 }]
    init := fun _ => 0x38400000000, kept := 0xffff00000000 },
  { insts := [(0xa0048, [])]
    fields := [{ hi := 63, lo := 32, acc := .ro }, { hi := 16, lo := 0, acc := .ro }]
    init := fun _ => 0x0, kept := 0xffffffff0001ffff }]

/-- The registers of HIF. -/
def regsHif : List RegDef := [
  { insts := [(0xb0000, [])]
    fields := [{ hi := 19, lo := 18, acc := .ro }, { hi := 12, lo := 8, acc := .ro }, { hi := 2, lo := 0, acc := .ro }]
    init := fun _ => 0x0, kept := 0x0 },
  { insts := [(0xb0008, [])]
    fields := [{ hi := 63, lo := 32, acc := .ro }, { hi := 31, lo := 16, acc := .ro }, { hi := 2, lo := 0, acc := .ro }]
    init := fun _ => 0x0, kept := 0xffffffffffff0007 },
  { insts := [(0xb0010, [])]
    fields := [{ hi := 63, lo := 32, acc := .ro }, { hi := 31, lo := 0, acc := .ro }]
    init := fun _ => 0x0, kept := 0x0 },
  { insts := [(0xb0018, [])]
    fields := [{ hi := 63, lo := 32, acc := .ro }, { hi := 24, lo := 0, acc := .ro }]
    init := fun _ => 0x0, kept := 0x0 },
  { insts := [(0xb0020, [])]
    fields := [{ hi := 8, lo := 8, acc := .rw }, { hi := 0, lo := 0, acc := .rw }]
    init := fun _ => 0x100, kept := 0x101 },
  { insts := [(0xb8000, [(0x10, 2048)])]
    fields := [{ hi := 63, lo := 0, acc := .rw }]
    init := fun _ => 0x0, kept := 0x0 },
  { insts := [(0xb8008, [(0x10, 2048)])]
    fields := [{ hi := 32, lo := 32, acc := .rw }, { hi := 31, lo := 0, acc := .rw }]
    init := fun _ => 0x100000000, kept := 0x0 },
  { insts := [(0xb4000, [(0x8, 32)])]
    fields := [{ hi := 63, lo := 0, acc := .ro }]
    init := fun _ => 0x0, kept := 0x0 }]

/-- The registers of MXC. -/
def regsMxc : List RegDef := [
  { insts := [(0xc0000, [(0x8, 6)])]
    fields := [{ hi := 63, lo := 63, acc := .ro }, { hi := 45, lo := 40, acc := .ro }, { hi := 27, lo := 0, acc := .ro }]
    init := fun _ => 0x0, kept := 0x0 },
  { insts := [(0xc0040, [])]
    fields := [{ hi := 63, lo := 32, acc := .ro }, { hi := 31, lo := 0, acc := .ro }]
    init := fun _ => 0x0, kept := 0x0 }]

/-- The registers of INTLV. -/
def regsIntlv : List RegDef := [
  { insts := [(0xd0000, [])]
    fields := [{ hi := 15, lo := 8, acc := .ro }, { hi := 5, lo := 0, acc := .rw, least := 0, most := 48 }]
    init := fun _ => 0x4010, kept := 0x3f },
  { insts := [(0xd0008, [])]
    fields := [{ hi := 41, lo := 0, acc := .rw }]
    init := fun _ => 0x0, kept := 0x0 },
  { insts := [(0xd0010, [])]
    fields := [{ hi := 63, lo := 63, acc := .ro }, { hi := 58, lo := 32, acc := .ro }, { hi := 21, lo := 16, acc := .ro }, { hi := 15, lo := 12, acc := .ro }, { hi := 6, lo := 0, acc := .ro }]
    init := fun _ => 0x8000000000000000, kept := 0x0 },
  { insts := [(0xd0018, [])]
    fields := [{ hi := 63, lo := 0, acc := .ro }]
    init := fun _ => 0x0, kept := 0x0 },
  { insts := [(0xd0020, [])]
    fields := [{ hi := 31, lo := 0, acc := .ro }]
    init := fun _ => 0x0, kept := 0x0 },
  { insts := [(0xd0028, [])]
    fields := [{ hi := 41, lo := 0, acc := .rw }]
    init := fun _ => 0x0, kept := 0x3ffffffffff },
  { insts := [(0xd0030, [])]
    fields := [{ hi := 63, lo := 63, acc := .ro }, { hi := 41, lo := 0, acc := .rw }]
    init := fun _ => 0x0, kept := 0x3ffffffffff },
  { insts := [(0xd0038, [])]
    fields := [{ hi := 63, lo := 32, acc := .ro }, { hi := 14, lo := 8, acc := .rc }, { hi := 6, lo := 0, acc := .ro }]
    init := fun _ => 0x0, kept := 0x0 }]

/-- The registers of MEMC. -/
def regsMemc0 : List RegDef := [
  { insts := [(0x100000, [(0x10000, 96)])]
    fields := [{ hi := 11, lo := 8, acc := .ro }, { hi := 2, lo := 0, acc := .ro }]
    init := fun ix => 1 + at0 ix / 8 * 0x100, kept := 0x0 },
  { insts := [(0x100008, [(0x10000, 96)])]
    fields := [{ hi := 1, lo := 1, acc := .wo }, { hi := 0, lo := 0, acc := .rw }]
    init := fun _ => 0x1, kept := 0x0 },
  { insts := [(0x100010, [(0x10000, 96)])]
    fields := [{ hi := 63, lo := 0, acc := .ro }]
    init := fun _ => 0x0, kept := 0x0 },
  { insts := [(0x100018, [(0x10000, 96)])]
    fields := [{ hi := 63, lo := 0, acc := .ro }]
    init := fun _ => 0x0, kept := 0x0 },
  { insts := [(0x100020, [(0x10000, 96)])]
    fields := [{ hi := 63, lo := 0, acc := .ro }]
    init := fun _ => 0x0, kept := 0x0 },
  { insts := [(0x100028, [(0x10000, 96)])]
    fields := [{ hi := 63, lo := 32, acc := .ro }, { hi := 31, lo := 0, acc := .ro }]
    init := fun _ => 0x0, kept := 0x0 },
  { insts := [(0x100030, [(0x10000, 96)])]
    fields := [{ hi := 63, lo := 32, acc := .ro }, { hi := 31, lo := 0, acc := .rc }]
    init := fun _ => 0x0, kept := 0x0 },
  { insts := [(0x100038, [(0x10000, 96)])]
    fields := [{ hi := 63, lo := 0, acc := .ro }]
    init := fun _ => 0x0, kept := 0x0 },
  { insts := [(0x100100, [(0x10000, 96)])]
    fields := [{ hi := 63, lo := 32, acc := .ro }, { hi := 31, lo := 0, acc := .ro }]
    init := fun _ => 0x0, kept := 0x0 },
  { insts := [(0x100108, [(0x10000, 96)])]
    fields := [{ hi := 63, lo := 32, acc := .ro }, { hi := 31, lo := 0, acc := .ro }]
    init := fun _ => 0x0, kept := 0x0 },
  { insts := [(0x100110, [(0x10000, 96)])]
    fields := [{ hi := 63, lo := 63, acc := .ro }, { hi := 58, lo := 32, acc := .ro }, { hi := 31, lo := 30, acc := .ro }, { hi := 29, lo := 24, acc := .ro }, { hi := 2, lo := 0, acc := .ro }]
    init := fun _ => 0x0, kept := 0x0 },
  { insts := [(0x100118, [(0x10000, 96)])]
    fields := [{ hi := 15, lo := 8, acc := .rw, least := 1, most := 255 }, { hi := 0, lo := 0, acc := .rw }]
    init := fun _ => 0x1801, kept := 0xff01 },
  { insts := [(0x100120, [(0x10000, 96)])]
    fields := [{ hi := 63, lo := 48, acc := .ro }, { hi := 26, lo := 0, acc := .ro }]
    init := fun _ => 0x0, kept := 0x0 },
  { insts := [(0x100128, [(0x10000, 96)])]
    fields := [{ hi := 63, lo := 63, acc := .ro }, { hi := 26, lo := 0, acc := .ro }]
    init := fun _ => 0x0, kept := 0x0 }]

/-- MEMC_SPARE of a channel as its fuses hold it: at most 2 lane groups, 128 columns and 256 rows. -/
def spareFuses (c : Nat) : Nat :=
  let w := (Config.fuse (Reg.MEMC_SPARE c)).toNat
  min 2 (bitsOf w 49 48) * 2 ^ 48 + min 128 (bitsOf w 39 32) * 2 ^ 32 + min 256 (bitsOf w 8 0)

/-- The registers of MEMC. -/
def regsMemc1 : List RegDef := [
  { insts := [(0x100130, [(0x10000, 96)])]
    fields := [{ hi := 49, lo := 48, acc := .ro }, { hi := 39, lo := 32, acc := .ro }, { hi := 8, lo := 0, acc := .ro }]
    init := fun ix => spareFuses (at0 ix), kept := 0x300ff000001ff },
  { insts := [(0x100138, [(0x10000, 96)])]
    fields := [{ hi := 23, lo := 16, acc := .rw, least := 1, most := 255 }, { hi := 7, lo := 0, acc := .rw, least := 1, most := 255 }]
    init := fun _ => 0x100004, kept := 0xff00ff },
  { insts := [(0x100140, [(0x10000, 96)])]
    fields := [{ hi := 39, lo := 32, acc := .ro }, { hi := 31, lo := 0, acc := .ro }]
    init := fun _ => 0x0, kept := 0xffffffffff },
  { insts := [(0x100148, [(0x10000, 96)])]
    fields := [{ hi := 8, lo := 8, acc := .rw }, { hi := 1, lo := 0, acc := .rw }]
    init := fun _ => 0x0, kept := 0x0 },
  { insts := [(0x100150, [(0x10000, 96)])]
    fields := [{ hi := 63, lo := 63, acc := .ro }, { hi := 27, lo := 0, acc := .ro }]
    init := fun _ => 0x0, kept := 0x0 }]

/-- The registers of CLUS. -/
def regsClus : List RegDef := [
  { insts := [(0x800800, [(0x40000, 24)])]
    fields := [{ hi := 5, lo := 4, acc := .ro }, { hi := 1, lo := 0, acc := .ro }]
    init := fun _ => 0x22, kept := 0x0 }]

/-- The registers of SVU. -/
def regsSvu : List RegDef := [
  { insts := [(0x808000, [(0x40000, 24), (0x8000, 4)])]
    fields := [{ hi := 47, lo := 40, acc := .ro }, { hi := 37, lo := 32, acc := .ro }, { hi := 18, lo := 16, acc := .ro }, { hi := 13, lo := 12, acc := .ro }, { hi := 8, lo := 8, acc := .ro }, { hi := 2, lo := 0, acc := .ro }]
    init := fun _ => 0x0, kept := 0x0 },
  { insts := [(0x808008, [(0x40000, 24), (0x8000, 4)])]
    fields := [{ hi := 47, lo := 0, acc := .ro }]
    init := fun _ => 0x0, kept := 0x0 },
  { insts := [(0x808010, [(0x40000, 24), (0x8000, 4)])]
    fields := [{ hi := 47, lo := 0, acc := .ro }]
    init := fun _ => 0x0, kept := 0x0 },
  { insts := [(0x808018, [(0x40000, 24), (0x8000, 4)])]
    fields := [{ hi := 47, lo := 0, acc := .ro }]
    init := fun _ => 0x0, kept := 0x0 },
  { insts := [(0x808020, [(0x40000, 24), (0x8000, 4)])]
    fields := [{ hi := 63, lo := 0, acc := .ro }]
    init := fun _ => 0x0, kept := 0x0 },
  { insts := [(0x808040, [(0x40000, 24), (0x8000, 4)])]
    fields := [{ hi := 41, lo := 40, acc := .ro }, { hi := 35, lo := 32, acc := .ro }, { hi := 0, lo := 0, acc := .ro }]
    init := fun _ => 0x0, kept := 0x0 },
  { insts := [(0x808048, [(0x40000, 24), (0x8000, 4)])]
    fields := [{ hi := 63, lo := 63, acc := .w1c }, { hi := 62, lo := 62, acc := .w1c }, { hi := 55, lo := 48, acc := .ro }, { hi := 43, lo := 40, acc := .ro }, { hi := 27, lo := 24, acc := .ro }, { hi := 12, lo := 0, acc := .ro }]
    init := fun _ => 0x0, kept := 0x0 },
  { insts := [(0x808050, [(0x40000, 24), (0x8000, 4)])]
    fields := [{ hi := 63, lo := 48, acc := .ro }, { hi := 47, lo := 32, acc := .ro }, { hi := 31, lo := 16, acc := .ro }, { hi := 15, lo := 0, acc := .ro }]
    init := fun _ => 0x0, kept := 0x0 },
  { insts := [(0x808058, [(0x40000, 24), (0x8000, 4)])]
    fields := [{ hi := 63, lo := 63, acc := .ro }, { hi := 21, lo := 3, acc := .ro }, { hi := 2, lo := 0, acc := .ro }]
    init := fun _ => 0x0, kept := 0x0 },
  { insts := [(0x808060, [(0x40000, 24), (0x8000, 4)])]
    fields := [{ hi := 63, lo := 32, acc := .ro }, { hi := 31, lo := 0, acc := .ro }]
    init := fun _ => 0x0, kept := 0x0 }]

/-- The registers of CORE. -/
def regsCore : List RegDef := [
  { insts := [(0x800000, [(0x40000, 24)]), (0x1301000, []), (0x1302000, [])]
    fields := [{ hi := 18, lo := 18, acc := .wo }, { hi := 17, lo := 17, acc := .wo }, { hi := 10, lo := 8, acc := .ro }, { hi := 5, lo := 0, acc := .rw, least := 0, most := 15 }]
    init := fun _ => 0x0, kept := 0x0 },
  { insts := [(0x800008, [(0x40000, 24)]), (0x1301008, []), (0x1302008, [])]
    fields := [{ hi := 51, lo := 12, acc := .rw }, { hi := 8, lo := 0, acc := .rw, least := 0, most := 256 }]
    init := fun _ => 0x0, kept := 0x0 },
  { insts := [(0x800040, [(0x40000, 24), (0x8, 8)]), (0x1301040, [(0x8, 8)]), (0x1302040, [(0x8, 8)])]
    fields := [{ hi := 51, lo := 6, acc := .rw }, { hi := 1, lo := 1, acc := .ro }, { hi := 0, lo := 0, acc := .rw }]
    init := fun _ => 0x0, kept := 0x0 },
  { insts := [(0x800080, [(0x40000, 24)]), (0x1301080, []), (0x1302080, [])]
    fields := [{ hi := 13, lo := 8, acc := .wo }, { hi := 3, lo := 0, acc := .wo }]
    init := fun _ => 0x0, kept := 0x0 },
  { insts := [(0x800088, [(0x40000, 24)]), (0x1301088, []), (0x1302088, [])]
    fields := [{ hi := 63, lo := 32, acc := .ro }, { hi := 16, lo := 16, acc := .ro }, { hi := 13, lo := 8, acc := .ro }, { hi := 7, lo := 0, acc := .ro }]
    init := fun _ => 0x0, kept := 0x0 },
  { insts := [(0x800100, [(0x40000, 24), (0x8, 64)]), (0x1301100, [(0x8, 64)]), (0x1302100, [(0x8, 64)])]
    fields := [{ hi := 63, lo := 0, acc := .rw }]
    init := fun _ => 0x0, kept := 0x0 },
  { insts := [(0x800010, [(0x40000, 24)]), (0x1301010, []), (0x1302010, [])]
    fields := [{ hi := 51, lo := 6, acc := .rw }, { hi := 2, lo := 1, acc := .rw }, { hi := 0, lo := 0, acc := .rw }]
    init := fun _ => 0x0, kept := 0x0 },
  { insts := [(0x800018, [(0x40000, 24)]), (0x1301018, []), (0x1302018, [])]
    fields := [{ hi := 51, lo := 6, acc := .rw }, { hi := 2, lo := 1, acc := .rw }, { hi := 0, lo := 0, acc := .rw }]
    init := fun _ => 0x0, kept := 0x0 },
  { insts := [(0x800020, [(0x40000, 24)]), (0x1301020, []), (0x1302020, [])]
    fields := [{ hi := 51, lo := 6, acc := .rw }, { hi := 0, lo := 0, acc := .rw }]
    init := fun _ => 0x0, kept := 0x0 }]

/-- The registers of JP. -/
def regsJp : List RegDef := [
  { insts := [(0x1000000, [(0x10000, 16)])]
    fields := [{ hi := 41, lo := 32, acc := .rw }, { hi := 31, lo := 31, acc := .rw }, { hi := 8, lo := 8, acc := .rw }, { hi := 0, lo := 0, acc := .rw }]
    init := fun _ => 0x0, kept := 0x3ff80000100 },
  { insts := [(0x1000008, [(0x10000, 16)])]
    fields := [{ hi := 47, lo := 32, acc := .ro }, { hi := 31, lo := 22, acc := .ro }, { hi := 19, lo := 16, acc := .ro }, { hi := 10, lo := 8, acc := .ro }, { hi := 4, lo := 4, acc := .ro }, { hi := 2, lo := 0, acc := .ro }]
    init := fun _ => 0x0, kept := 0x0 },
  { insts := [(0x1000010, [(0x10000, 16)])]
    fields := [{ hi := 63, lo := 32, acc := .ro }, { hi := 31, lo := 16, acc := .ro }, { hi := 15, lo := 0, acc := .ro }]
    init := fun _ => 0x0, kept := 0x0 },
  { insts := [(0x1000018, [(0x10000, 16)])]
    fields := [{ hi := 63, lo := 48, acc := .rw }, { hi := 47, lo := 40, acc := .rw }, { hi := 39, lo := 37, acc := .rw }, { hi := 36, lo := 36, acc := .rw }, { hi := 35, lo := 35, acc := .rw }, { hi := 34, lo := 32, acc := .rw }, { hi := 26, lo := 16, acc := .rw }]
    init := fun _ => 0x0, kept := 0xffffffff00000000 },
  { insts := [(0x1000030, [(0x10000, 16)])]
    fields := [{ hi := 63, lo := 48, acc := .ro }, { hi := 34, lo := 34, acc := .ro }, { hi := 33, lo := 33, acc := .w1c }, { hi := 32, lo := 32, acc := .w1c }, { hi := 9, lo := 0, acc := .rw, least := 0, most := 512 }]
    init := fun _ => 0x180, kept := 0x3ff },
  { insts := [(0x1000038, [(0x10000, 16)])]
    fields := [{ hi := 63, lo := 32, acc := .ro }, { hi := 31, lo := 0, acc := .ro }]
    init := fun _ => 0x0, kept := 0x0 },
  { insts := [(0x1000040, [(0x10000, 16)])]
    fields := [{ hi := 63, lo := 63, acc := .rc }, { hi := 62, lo := 62, acc := .rc }, { hi := 31, lo := 16, acc := .rc }, { hi := 15, lo := 0, acc := .rc }]
    init := fun _ => 0x0, kept := 0x0 },
  { insts := [(0x1000048, [(0x10000, 16)])]
    fields := [{ hi := 63, lo := 0, acc := .ro }]
    init := fun _ => 0x0, kept := 0x0 },
  { insts := [(0x1000020, [(0x10000, 16)])]
    fields := [{ hi := 47, lo := 0, acc := .ro }]
    init := fun ix => (Config.fuse (Reg.JP_ETH_MAC (at0 ix))).toNat % 2 ^ 48, kept := 0xffffffffffff },
  { insts := [(0x1000028, [(0x10000, 16)])]
    fields := [{ hi := 47, lo := 0, acc := .rw }]
    init := fun _ => 0x0, kept := 0xffffffffffff }]

/-- The registers of JFAB. -/
def regsJfab : List RegDef := [
  { insts := [(0x1100000, [])]
    fields := [{ hi := 31, lo := 16, acc := .ro }, { hi := 9, lo := 0, acc := .rw }]
    init := fun _ => 0x0, kept := 0xffff03ff },
  { insts := [(0x1100008, [])]
    fields := [{ hi := 47, lo := 40, acc := .rw, least := 1, most := 255 }, { hi := 25, lo := 16, acc := .rw, least := 1, most := 1000 }]
    init := fun _ => 0xa0000320000, kept := 0xff0003ff0000 },
  { insts := [(0x1100010, [])]
    fields := [{ hi := 47, lo := 40, acc := .ro }, { hi := 35, lo := 32, acc := .rw }, { hi := 31, lo := 16, acc := .ro }, { hi := 1, lo := 0, acc := .rw }]
    init := fun _ => 0x0, kept := 0xf00000003 },
  { insts := [(0x1100018, [])]
    fields := [{ hi := 63, lo := 63, acc := .rw }, { hi := 51, lo := 48, acc := .rw }, { hi := 41, lo := 32, acc := .rw }, { hi := 21, lo := 16, acc := .rw }]
    init := fun _ => 0x0, kept := 0x0 },
  { insts := [(0x1100020, [])]
    fields := [{ hi := 48, lo := 32, acc := .wo }, { hi := 31, lo := 0, acc := .wo }]
    init := fun _ => 0x0, kept := 0x0 },
  { insts := [(0x1100028, [])]
    fields := [{ hi := 63, lo := 63, acc := .w1c }, { hi := 62, lo := 62, acc := .ro }, { hi := 55, lo := 48, acc := .ro }]
    init := fun _ => 0x0, kept := 0x0 },
  { insts := [(0x1100100, [(0x20, 8)])]
    fields := [{ hi := 63, lo := 63, acc := .rw }, { hi := 61, lo := 56, acc := .rw }, { hi := 53, lo := 48, acc := .rw }, { hi := 42, lo := 32, acc := .rw }, { hi := 21, lo := 16, acc := .rw }, { hi := 15, lo := 12, acc := .rw }, { hi := 4, lo := 0, acc := .rw, least := 6, most := 16 }]
    init := fun _ => 0x6, kept := 0x0 },
  { insts := [(0x1100108, [(0x20, 8)])]
    fields := [{ hi := 41, lo := 0, acc := .rw }]
    init := fun _ => 0x0, kept := 0x0 },
  { insts := [(0x1100110, [(0x20, 8)])]
    fields := [{ hi := 63, lo := 32, acc := .rw }, { hi := 31, lo := 0, acc := .ro }]
    init := fun _ => 0x0, kept := 0x0 },
  { insts := [(0x1110000, [(0x10, 1024)])]
    fields := [{ hi := 63, lo := 63, acc := .rw }, { hi := 59, lo := 56, acc := .rw, least := 1, most := 15 }, { hi := 15, lo := 0, acc := .rw }]
    init := fun _ => 0x0, kept := 0x0 },
  { insts := [(0x1110008, [(0x10, 1024)])]
    fields := [{ hi := 15, lo := 0, acc := .rw }]
    init := fun _ => 0x0, kept := 0x0 }]

/-- The registers of XLAT. -/
def regsXlat : List RegDef := [
  { insts := [(0x1200000, [(0x10, 256)])]
    fields := [{ hi := 51, lo := 12, acc := .rw }]
    init := fun _ => 0x0, kept := 0x0 },
  { insts := [(0x1200008, [(0x10, 256)])]
    fields := [{ hi := 7, lo := 6, acc := .rw }, { hi := 1, lo := 1, acc := .rw }, { hi := 0, lo := 0, acc := .rw }]
    init := fun _ => 0x0, kept := 0x0 },
  { insts := [(0x1201000, [(0x20, 64)])]
    fields := [{ hi := 63, lo := 63, acc := .w1c }, { hi := 62, lo := 62, acc := .w1c }, { hi := 55, lo := 48, acc := .ro }, { hi := 47, lo := 40, acc := .ro }, { hi := 39, lo := 36, acc := .ro }, { hi := 35, lo := 32, acc := .ro }, { hi := 31, lo := 0, acc := .ro }]
    init := fun _ => 0x0, kept := 0x0 },
  { insts := [(0x1201008, [(0x20, 64)])]
    fields := [{ hi := 56, lo := 0, acc := .ro }]
    init := fun _ => 0x0, kept := 0x0 },
  { insts := [(0x1201010, [(0x20, 64)])]
    fields := [{ hi := 63, lo := 60, acc := .ro }, { hi := 59, lo := 57, acc := .ro }, { hi := 47, lo := 0, acc := .ro }]
    init := fun _ => 0x0, kept := 0x0 },
  { insts := [(0x1201018, [(0x20, 64)])]
    fields := [{ hi := 63, lo := 0, acc := .ro }]
    init := fun _ => 0x0, kept := 0x0 },
  { insts := [(0x1202000, [])]
    fields := [{ hi := 63, lo := 0, acc := .ro }]
    init := fun _ => 0x0, kept := 0x0 },
  { insts := [(0x1202008, [])]
    fields := [{ hi := 63, lo := 0, acc := .ro }]
    init := fun _ => 0x0, kept := 0x0 }]

/-- The registers of VERIF. -/
def regsVerif : List RegDef := [
  { insts := [(0x1300000, [])]
    fields := [{ hi := 22, lo := 16, acc := .ro }, { hi := 2, lo := 0, acc := .ro }]
    init := fun _ => 0x0, kept := 0x7 },
  { insts := [(0x1300008, [])]
    fields := [{ hi := 63, lo := 48, acc := .ro }, { hi := 47, lo := 0, acc := .ro }]
    init := fun _ => 0x0, kept := 0x0 },
  { insts := [(0x1300010, [])]
    fields := [{ hi := 63, lo := 0, acc := .ro }]
    init := fun _ => 0x0, kept := 0x0 },
  { insts := [(0x1300018, [])]
    fields := [{ hi := 63, lo := 32, acc := .ro }, { hi := 31, lo := 0, acc := .ro }]
    init := fun _ => 0x0, kept := 0x0 },
  { insts := [(0x1300020, [])]
    fields := [{ hi := 63, lo := 63, acc := .w1c }, { hi := 62, lo := 62, acc := .w1c }, { hi := 31, lo := 28, acc := .ro }, { hi := 24, lo := 24, acc := .ro }, { hi := 21, lo := 16, acc := .ro }, { hi := 6, lo := 0, acc := .ro }]
    init := fun _ => 0x0, kept := 0x0 },
  { insts := [(0x1300028, [])]
    fields := [{ hi := 47, lo := 0, acc := .ro }]
    init := fun _ => 0x0, kept := 0x0 },
  { insts := [(0x1300030, [])]
    fields := [{ hi := 63, lo := 0, acc := .ro }]
    init := fun _ => 0x0, kept := 0x0 },
  { insts := [(0x1300038, [])]
    fields := [{ hi := 63, lo := 0, acc := .ro }]
    init := fun _ => 0x0, kept := 0x0 }]

/-- A block of the register index: base, stride and count of its instances, the extent of each (R654), and its registers. -/
structure BlockDef where
  base : Nat
  stride : Nat
  count : Nat
  extent : Nat
  regs : List RegDef

/-- The register index of R654. -/
def blocks : List BlockDef := [
  { base := 0x0, stride := 0x10000, count := 1, extent := 0x10000, regs := regsIdent },
  { base := 0x10000, stride := 0x10000, count := 1, extent := 0x10000, regs := regsCmdr },
  { base := 0x20000, stride := 0x10000, count := 1, extent := 0x10000, regs := regsMbx },
  { base := 0x30000, stride := 0x10000, count := 1, extent := 0x10000, regs := regsBmv },
  { base := 0x40000, stride := 0x10000, count := 1, extent := 0x10000, regs := regsFlt },
  { base := 0x50000, stride := 0x10000, count := 1, extent := 0x10000, regs := regsTlog },
  { base := 0x60000, stride := 0x10000, count := 1, extent := 0x10000, regs := regsPwr },
  { base := 0x70000, stride := 0x10000, count := 1, extent := 0x10000, regs := regsClk },
  { base := 0x80000, stride := 0x10000, count := 1, extent := 0x10000, regs := regsRst },
  { base := 0x90000, stride := 0x10000, count := 1, extent := 0x10000, regs := regsTime },
  { base := 0xa0000, stride := 0x10000, count := 1, extent := 0x10000, regs := regsLcs },
  { base := 0xb0000, stride := 0x10000, count := 1, extent := 0x10000, regs := regsHif },
  { base := 0xc0000, stride := 0x10000, count := 1, extent := 0x10000, regs := regsMxc },
  { base := 0xd0000, stride := 0x10000, count := 1, extent := 0x10000, regs := regsIntlv },
  { base := 0x100000, stride := 0x10000, count := 96, extent := 0x10000, regs := regsMemc0 ++ regsMemc1 },
  { base := 0x800000, stride := 0x40000, count := 24, extent := 0x40000, regs := regsClus ++ regsSvu ++ regsCore },
  { base := 0x1000000, stride := 0x10000, count := 16, extent := 0x10000, regs := regsJp },
  { base := 0x1100000, stride := 0x20000, count := 1, extent := 0x20000, regs := regsJfab },
  { base := 0x1200000, stride := 0x10000, count := 1, extent := 0x10000, regs := regsXlat },
  { base := 0x1300000, stride := 0x10000, count := 1, extent := 0x10000, regs := regsVerif ++ regsCore }]

/-- The block instance whose extent holds an offset (R654); `none` is "outside every block" (R29). -/
def blockOf (off : Nat) : Option BlockDef :=
  blocks.find? (fun b => b.base ≤ off && (off - b.base) / b.stride < b.count && (off - b.base) % b.stride < b.extent)

/-- Instance numbers of an offset within (stride, count) pairs in falling stride. -/
def instancesOf : List (Nat × Nat) → Nat → Option (List Nat)
  | [], r => if r = 0 then some [] else none
  | (st, ct) :: ds, r =>
    let k := min (r / st) (ct - 1)
    match instancesOf ds (r - k * st) with
    | some ix => some (k :: ix)
    | none => none

/-- The instance numbers under which a register definition holds an offset. -/
def RegDef.at? (d : RegDef) (off : Nat) : Option (List Nat) :=
  d.insts.findSome? (fun p => if p.1 ≤ off then instancesOf p.2 (off - p.1) else none)

/-- The register at an 8-byte-aligned register-space offset, with its instance numbers; `none` where no register lies (R28). -/
def regAt (off : Nat) : Option (RegDef × List Nat) :=
  match blockOf off with
  | none => none
  | some b => b.regs.findSome? (fun d => (d.at? off).map (fun ix => (d, ix)))

/-- The word a register holds after power-on reset (R10). -/
def resetWord (off : Nat) : Word :=
  match regAt off with
  | some (d, ix) => BitVec.ofNat 64 (d.init ix)
  | none => 0

/-- The mask of the fields of a register that a module reset keeps (R10). -/
def keptMask (off : Nat) : Nat :=
  match regAt off with
  | some (d, _) => d.kept
  | none => 0

end Sys2Proof.Machine
end

