-- ==== Sys2Proof/Machine/State.lean ====
section
/-! DEFINITION. The state of the module as plain data: the software registers in one table keyed by
register-space offset, storage, and one structure per kind of unit for what no register shows. -/
namespace Sys2Proof.Machine

/-- Why a step can stop the machine. -/
inductive Fault where
  /-- Raised by no command: it names a VIN beyond the absolute maximum of R663, and R527 gives VIN_SAMPLE its effect there
  too (log 57). Safe: no run ends in it. -/
  | overVoltage
  deriving DecidableEq, Repr

/-- Why a command has no meaning here. -/
inductive Refusal where
  /-- Raised by an arm of `exec` for a command without a meaning. Safe. -/
  | notModelled (mnemonic : String)
  /-- Raised by `execTapInstruction` for a private TAP instruction of the maker, whose effect the spec does not give
  (R671). Safe. -/
  | makerPrivate
  deriving DecidableEq, Repr

/-- Damage of an ECC word: its poison syndrome, and the symbols or bits in error (R55, R58, R306). The data held is the
word's true data. -/
structure Damage where
  poison : Bool := false
  syms : List Nat := []
  deriving DecidableEq, Repr

/-- A fault record of the trouble log (R580). `writer` names the requester of a write that poisoned its word (R62): INST and AUX
values of R581, which R580's words have no field for (log 13). -/
structure FltRec where
  time : Nat
  epoch : Nat
  source : Nat
  cls : Nat
  promoted : Bool
  escalated : Bool
  data : Bool
  fence : Bool
  seq : Nat
  inst : Nat
  status : Nat
  merged : Nat
  aux : Nat
  addr : Nat
  writer : Option (Nat × Nat) := none
  deriving DecidableEq, Repr

/-- The global address of an access that has none: past every address (R13). -/
abbrev noGa : Nat := 2 ^ 64

/-- A failure met by an access of a chain, with the details of R272, the global address it met it at, whether the access itself
poisoned the word (R60), whether this module refused an access that names another one before it was sent (R25, R185), and, for
a write after the last element, its place in the order of R680. -/
structure StopCause where
  status : Nat
  slot : Nat := 15
  node : Nat := 15
  va : Nat := 0
  level : Nat := 7
  cause : Nat := 0
  ga : Nat := noGa
  made : Bool := false
  here : Bool := false
  place : Nat := 0
  deriving DecidableEq, Repr

/-- Bytes one element writes to one ECC word: masks and data count bits of the word at local offset `word` of node `node`; `va`
is the element's virtual address, 0 where it has none. Once performed, `hid` are the bits not applied under a higher element's
(R220), and `whole` says that its write covered the word. -/
structure Contrib where
  elem : Nat
  slot : Nat
  node : Nat
  word : Nat
  mask : Nat
  data : Nat
  va : Nat := 0
  hid : Nat := 0
  whole : Bool := false
  deriving DecidableEq, Repr

/-- An output element of a slice: its element index, its slot, where it goes (a global address, a scratchpad offset for a
SCRATCH slot, an element number for a LOFT slot), its bit within the byte there, its value, and its virtual address. -/
structure OutEl where
  elem : Nat
  slot : Nat
  loc : Nat
  bit : Nat := 0
  bits : Nat
  va : Nat := 0
  deriving DecidableEq, Repr

/-- Where a completed storage request is delivered. -/
inductive Sink where
  /-- Input spool of a slice: chain, logical slice, slot, global and virtual address of the first byte read, and each element
  with its bit position from there and its bits. -/
  | spool (chain lsl slot ga va : Nat) (elems : List (Nat × Nat × Nat))
  /-- Writes of a chain. -/
  | chainWrite (chain : Nat) (cs : List Contrib)
  /-- A piece of a reduction write or of an image of a chain (R680): its place in the order, and its virtual and global address. -/
  | chainEnd (chain place va ga : Nat)
  /-- The requester of a remote access: node, tag, type of the answer, offset of the request. -/
  | remote (node tag typ offset : Nat)
  /-- A part of a peer's request that takes several slots: the number of its entry in `State.peers`, and its place. -/
  | peer (id place : Nat)
  /-- An access buffered for an agent that waits for it: the number of its entry in `State.rbuf`. -/
  | buffer (id : Nat)
  /-- Entry of a core's store buffer. -/
  | store (core id : Nat)
  /-- A piece of the MSG that TX_GO sent. -/
  | txGo
  /-- The line of a pin on another module: core, pin, line number. -/
  | pin (core n line : Nat)
  /-- SP_SWAP or SP_ADD of an element: chain, logical slice, element, node, virtual and global address. -/
  | atom (chain lsl elem node va ga : Nat)
  /-- The undo of an atomic of a chain (R186, R679). -/
  | undo (chain : Nat)
  /-- Nothing waits. -/
  | none
  deriving DecidableEq, Repr

/-- One ECC-word write of a request. -/
structure WordWrite where
  off : Nat
  mask : Nat
  data : Nat
  poison : Bool := false
  deriving DecidableEq, Repr

/-- What a queued storage request does (R40, R495, R186). -/
inductive MemOp where
  | read (off len : Nat)
  | write (ws : List WordWrite)
  | atom (off op v n : Nat)
  deriving DecidableEq, Repr

/-- A request waiting at a channel port or a scratchpad bank, with its requester port. `src` is the source node of a remote request,
`who` the requester as INST and AUX of R581; `holder` says that it is the host's own by CXL.mem, which no line it holds delays. -/
structure MemReq where
  op : MemOp
  src : Option Nat
  port : Nat
  owner : Bool := false
  arrived : Nat
  prov : Bool := false
  who : Option (Nat × Nat) := none
  holder : Bool := false
  sink : Sink
  deriving DecidableEq, Repr

/-- A tail record or scratchpad journal word (R227): the old word of a provisional write. -/
structure TailRec where
  chain : Nat
  chan : Nat
  word : Nat
  top : Nat
  old : Nat
  oldDmg : Damage
  deriving DecidableEq, Repr

/-- A journaled SP_ADD (R679), with the global address of its word. -/
structure AddRec where
  chain : Nat
  svu : Nat
  elem : Nat
  node : Nat
  ga : Nat
  width : Nat
  addend : Nat
  deriving DecidableEq, Repr

/-- An atomic of a chain's element on a scratchpad word, and the atomic that undoes it: SP_ADD by the complement of its addend (R679),
SP_SWAP by the value it returned (R186). The same form writes bits of another module that a stop has still to apply (R220), by MERGE64. -/
structure UndoRec where
  elem : Nat
  node : Nat
  svu : Nat
  ga : Nat
  op : Nat
  v : Nat
  n : Nat := 0
  deriving DecidableEq, Repr

/-- Bits that a LOFT output element replaced in its register. -/
structure LoftOld where
  elem : Nat
  svu : Nat
  bit : Nat
  width : Nat
  old : Nat
  deriving DecidableEq, Repr

/-- One memory channel, beside its MEMC registers: the requests that wait, the share window and round-robin of R43 (before any
remote grant it starts at node 0, the model's choice: log 63), the corrected-error counts of R77 (per row, and per symbol the
rows), spares used and needed (`needRows` with whether an uncorrectable word asked), the faulty columns that the last link
training found with those it replaced (R80: bank and column), the bank whose rows ran out, for which ROW_FREE shows 0 (R82),
whether a wipe since the last reset has applied the repairs (R67, R81), and the scrub schedule (clock run so far, the moment
it last started, period in force, grants since the last scrub turn). -/
structure Channel where
  queue : List MemReq := []
  windowLeft : Nat := 0
  localOwed : Nat := 0
  lastRemote : Nat := 1023
  rowCe : Tab Nat := []
  symRows : List (Nat × Nat) := []
  spareRows : List Nat := []
  spareLanes : List Nat := []
  colFaults : List (Nat × Nat) := []
  spareCols : List (Nat × Nat) := []
  rowShort : List Nat := []
  trained : Bool := false
  needRows : List (Nat × Bool) := []
  needLanes : List Nat := []
  lacksSpare : Bool := false
  scrubClock : Nat := 0
  scrubSince : Nat := 0
  scrubPeriod : Nat := 24
  scrubTurn : Nat := 0
  deriving DecidableEq, Repr

/-- Running state of a group 0x7 node (R275). -/
structure ScanState where
  p0 : Nat := 0
  count : Nat := 0
  agg : Int := 0
  seen : Bool := false
  hist : List (Nat × Nat × Bool) := []
  acc : Acc := {}
  deriving DecidableEq, Repr

/-- An input element held by a spool: its bits, or the cause it met, to be reported at delivery (R61, R121); for poison,
whether its own read created it (R60), and the global address of its ECC word. -/
structure InElem where
  slot : Nat
  elem : Nat
  bits : Nat := 0
  fail : Option StopCause := none
  made : Bool := false
  word : Nat := 0
  deriving DecidableEq, Repr

/-- One pass of a verified window (R314, R317). -/
structure PassRes where
  sig : Nat
  stop : Option (Nat × StopCause)
  accs : Tab Acc
  scans : Tab ScanState
  outs : List OutEl
  flags : List (Nat × Nat)
  snaps : List (Nat × Tab Acc × Tab ScanState) := []
  deriving DecidableEq, Repr

/-- Phase of a slice (SVU_CHAIN_STATE.STATE). -/
inductive Phase where
  | prefetch | run | drain | stopped | done
  deriving DecidableEq, Repr

/-- A range of a chain on one logical slice (R124): `svu` is 96 while no SVU holds it, `base` the commit index of a verified
slice (R318), `accs0` the images its first element starts from (R280), `snaps` the accumulators and running states at elements
whose outputs may be lost (R235), `winSnaps` those of the pass in progress. `hold` has the held bytes of pass 2 in complement (R315). -/
structure Slice where
  lsl : Nat
  svu : Nat := 96
  first : Nat
  fin : Nat
  next : Nat
  base : Nat
  phase : Phase := .prefetch
  pf : Tab Nat := []
  asked : List (Nat × Nat) := []
  inp : List InElem := []
  outs : List OutEl := []
  accs0 : Tab Acc := []
  accs : Tab Acc := []
  scans : Tab ScanState := []
  flags : List (Nat × Nat) := []
  stop : Option (Nat × StopCause) := none
  atomWait : Option (Nat × Nat × Nat) := none
  atomRes : Tab Nat := []
  pass1 : Option PassRes := none
  pass2 : Option PassRes := none
  commitAccs : Tab Acc := []
  commitScans : Tab ScanState := []
  hold : List OutEl := []
  holdFlags : List (Nat × Nat) := []
  retried : Bool := false
  verify : Bool := false
  snaps : List (Nat × Tab Acc × Tab ScanState) := []
  winSnaps : List (Nat × Tab Acc × Tab ScanState) := []
  deriving DecidableEq, Repr

/-- Who issued a chain. -/
inductive Issuer where
  | ring (r seq : Nat)
  | task (c t : Nat)
  deriving DecidableEq, Repr

/-- Where a chain stands. -/
inductive ChainPhase where
  | checked | running | stopping | reducing | ended
  deriving DecidableEq, Repr

/-- A stop state (R273). -/
structure StopState where
  seq : Nat
  desc : List Nat
  start0 : Nat
  index : Nat
  flags : Nat
  accs : Tab Acc
  scans : Tab ScanState
  cause : StopCause
  deriving DecidableEq, Repr

/-- A chain in progress: who issued it, its descriptor, the ring of its issuing task (R252), the original START and its own
range's, the map in force at its dispatch, the contributions performed and in flight, the kept parts of a resumed chain
(R280), what its writes replaced and the atomics it performed, for a stop to put back (R230, R232: `olds` has the first old value of
each word), the range that a loss or reset tore (R235), the atomics a stop has still to undo and those it waits for, the
places of its reduction writes (R680) not yet issued (`redTodo`) or not yet performed (`redLeft`), and the stop
state it consumed (R279). -/
structure Chain where
  id : Nat
  issuer : Issuer
  desc : List Nat
  ring : Nat := 0
  start0 : Nat
  start : Nat
  map : List Nat := []
  phase : ChainPhase := .checked
  granted : Bool := false
  slices : List Slice := []
  stop : Option (Nat × StopCause) := none
  torn : Option (Nat × Nat) := none
  wrote : List Contrib := []
  flying : List Contrib := []
  atomFlying : List (Nat × Nat × Nat) := []
  olds : List TailRec := []
  loftOlds : List LoftOld := []
  atoms : List UndoRec := []
  flags : Nat := 0
  keptAccs : Tab Acc := []
  keptScans : Tab ScanState := []
  retried : Bool := false
  undo : Option (List UndoRec) := none
  undoLeft : Nat := 0
  accs : Tab Acc := []
  redTodo : List Nat := []
  redLeft : List Nat := []
  xstop : Option StopCause := none
  resumed : Option StopState := none
  status : Nat := 0
  endIndex : Nat := 0
  deriving DecidableEq, Repr

/-- A cached leaf or table entry (R264). -/
structure CacheEntry where
  ctx : Nat
  level : Nat
  va : Nat
  entry : Nat
  deriving DecidableEq, Repr

/-- A walk in progress for an input slot of a slice (R259). -/
structure Walk where
  chain : Nat
  lsl : Nat
  slot : Nat
  elem : Nat
  ctx : Nat
  va : Nat
  level : Nat
  table : Nat
  path : List CacheEntry := []
  deriving DecidableEq, Repr

/-- An accepted LOFT operation (R288). -/
structure LoftOp where
  core : Nat
  task : Nat
  w0 : Nat
  w1 : Nat
  scalar : Nat
  te : Nat
  group : Nat := 0
  started : Bool := false
  next : Nat := 0
  flags : Nat := 0
  res : List (Nat × Nat) := []
  acc : Acc := {}
  scan : ScanState := {}
  mark : Nat := 0
  deriving DecidableEq, Repr

/-- One SVU, beside its registers; `lineRead` holds the moment a line of its scratchpad was last read, `linesFrom` that of every line not
listed (R307). -/
structure SvuState where
  ctxs : List (Nat × Nat) := []
  current : Option Nat := none
  blockEnd : Nat := 0
  leaf : List CacheEntry := []
  table : List CacheEntry := []
  walks : List Walk := []
  loft : Tab Nat := []
  loftDmg : Tab Damage := []
  loftAcc : Tab Acc := []
  queue : List LoftOp := []
  bankQ : Tab (List MemReq) := []
  bankTurn : Tab Nat := []
  lineRead : Tab Nat := []
  linesFrom : Nat := 0
  journal : List TailRec := []
  adds : List AddRec := []
  testing : Option (Nat × Nat × Nat) := none
  draining : Bool := false
  blkCredit : Tab Int := []
  blkTurn : Nat := 0
  group : Nat := 0
  deriving DecidableEq, Repr

/-- Life of a hardware task (R378). -/
inductive TaskState where
  | off | run | wait | stopped | halted
  deriving DecidableEq, Repr

/-- A cached or queued entry of an operand stack: the ring whose stack it lies on (4 for the drogue stack), its address, and its
value (R336, R388). -/
structure StackEntry where
  space : Nat
  addr : Nat
  v : Word
  deriving DecidableEq, Repr

/-- A trap, or what a handler's frame says of it (R345, R389): CAUSE, STATUS, INFO, SUB, AUX, FLAGS, LINE and FPP. -/
structure Trap where
  cause : Nat
  status : Nat
  info : Nat := 0
  sub : Nat := 0
  aux : Nat := 0
  flags : Nat := 0
  line : Nat := 0
  fpp : Bool := false
  deriving DecidableEq, Repr

/-- An open locked sequence of a task (R352): register offset, width in bytes, instructions since the load, and what R353 goes back
to: the first prefix byte of the load, with the stack and predicates before it. -/
structure LockSeq where
  off : Nat
  width : Nat
  count : Nat := 0
  pc : Nat := 0
  sp : Nat := 0
  cached : List StackEntry := []
  preds : Nat := 0
  deriving DecidableEq, Repr

/-- Registers of one hardware task (R377), and the hidden state of what it waits for: a trap not entered, a fault of an entry that
the drogue handler takes (`due`), stops of LOFT operations (status, index, aborted count, SVU J), its locked sequence, a STOP
not yet complete, and its entry spill queue (R388). `prio` holds the priority of line l in bits [2l + 1:2l]. -/
structure TaskRegs where
  st : TaskState := .off
  pc : Nat := 0
  sp : Nat := 0
  rsb : List Nat := [0, 0, 0, 0]
  rsl : List Nat := [0, 0, 0, 0]
  cached : List StackEntry := []
  preds : Nat := 0
  src : Word := 0
  dst : Word := 0
  cnt : Word := 0
  fps : Nat := 0
  fpPend : Bool := false
  fpAddr : Nat := 0
  fpFlags : Nat := 0
  ring : Nat := 0
  cpl : Nat := 0
  nest : Nat := 0
  ctx : Nat := 0
  pend : Nat := 0
  prio : Nat := 0
  trap : Option Trap := none
  due : Option Trap := none
  loftStop : List (Nat × Nat × Nat × Nat) := []
  lock : Option LockSeq := none
  drogue : Bool := false
  stopping : Bool := false
  spills : List StackEntry := []
  deriving DecidableEq, Repr

/-- An entry of a store buffer or of the check buffer (R238, R327). -/
structure StoreEntry where
  task : Nat
  ga : Nat
  size : Nat
  v : Nat
  sent : Bool := false
  id : Nat := 0
  /-- A checked action of SUP_A, performed in SUP_A's order (R329). -/
  act : Bool := false
  deriving DecidableEq, Repr

/-- One Sundop core, beside its registers: the line cache by line number, the pinned lines (R375), the leaf cache, the store
buffer, and the words of the drogue stack in its SRAM by address there (R392). -/
structure CoreState where
  lines : Tab (List Byte) := []
  pinned : Tab (Nat × List Byte) := []
  leaf : List CacheEntry := []
  stores : List StoreEntry := []
  drogueStack : Tab Word := []
  deriving DecidableEq, Repr

/-- The check buffer and log of CHECKED mode (R326 to R329): actions held, instructions retired in the interval and the moment it
began, SUP_A's tasks at its start, whether a locked sequence closed and so ends it (R651), the interrupts taken in it (task,
line), whether the self-tests run, and whether the interval runs again. -/
structure SupCheck where
  held : List StoreEntry := []
  retired : Nat := 0
  began : Nat := 0
  start : Tab TaskRegs := []
  closing : Bool := false
  taken : List (Nat × Nat) := []
  testing : Bool := false
  again : Bool := false
  deriving DecidableEq, Repr

/-- A command packet of a ring (R409): its words, its SEQ, the entry count after its last entry, the status that its read
or its checks gave it (0 for none), a descriptor read by reference, the image that an ACC_MERGE has merged (its writes done in
`at0`), and working values of a command that takes more than
one step; `held` says that its work has begun. -/
structure Packet where
  words : List Nat
  seq : Nat
  fin : Nat := 0
  err : Nat := 0
  ref : List Nat := []
  at0 : Nat := 0
  at1 : Nat := 0
  merged : Option Acc := none
  held : Bool := false
  deriving DecidableEq, Repr

/-- A result waiting to be posted (R418). -/
structure Result where
  seq : Nat
  cmd : Nat
  tag : Nat
  status : Nat
  flags : Nat := 0
  index : Nat := 0
  reply0 : Nat := 0
  reply1 : Nat := 0
  reply2 : Nat := 0
  deriving DecidableEq, Repr

/-- One command ring, beside its CMDR registers: packets read and not started, packets started, results not posted, the commands
in ring order (SEQ, and the entry count after the packet) whose completions are still due, which are the reserved entries
of R420, the end of a packet found to pass TAIL, coalescing (R421), stop states (R273), and whether a
host-interface reset resets it (R483). -/
structure RingState where
  read : List Packet := []
  running : List Packet := []
  done : List Result := []
  order : List (Nat × Nat) := []
  short : Option Nat := none
  coalCount : Nat := 0
  coalTime : Option Nat := none
  stops : List StopState := []
  hostReset : Bool := false
  deriving DecidableEq, Repr

/-- One side of a mailbox (R443 to R450): the words waiting to be received. -/
structure MbxSide where
  queue : List Word := []
  armed : Bool := false
  deriving DecidableEq, Repr

/-- A burst of the block mover (R456): its offset in the transfer, its length, and the bytes read. -/
structure Burst where
  base : Nat
  len : Nat
  readDone : Bool := false
  data : List Byte := []
  deriving DecidableEq, Repr

/-- A block-mover channel, beside its BMV registers: the bursts in flight in ascending order, the offset of the next burst,
the first failure (status and INDEX), an abort in progress, the command it works for (ring and SEQ) with its context, and
the moment its next burst became ready. -/
structure BmvState where
  bursts : List Burst := []
  nextOff : Nat := 0
  fail : Option (Nat × Nat) := none
  aborting : Bool := false
  cmd : Option (Nat × Nat) := none
  ctx : Nat := 0
  waited : Nat := 0
  deriving DecidableEq, Repr

/-- A buffer pool (R462): free list, the generation of each buffer that was ever freed, and the owner of each allocated one:
a ring, or 64 for the fabric receive path. -/
structure PoolState where
  free : List Nat := []
  gen : Tab Nat := []
  owner : Tab Nat := []
  deriving DecidableEq, Repr

/-- A message of the fabric (R495). -/
structure FMsg where
  dst : Nat
  src : Nat
  typ : Nat
  hops : Nat := 0
  len : Nat := 0
  tag : Nat := 0
  status : Nat := 0
  poison : Bool := false
  last : Bool := false
  pool : Nat := 0
  offset : Nat := 0
  data : List Byte := []
  deriving DecidableEq, Repr

/-- A flit body waiting at a port: virtual channel, kind, source queue of R501 (a port's number, or 16 for the module's own
traffic), the transport bytes, whether its message continues in the next flit, and the tag of a request of this module. -/
structure TxFlit where
  vc : Nat
  kind : Nat
  src : Nat
  bytes : List Byte
  more : Bool := false
  tag : Option Nat := none
  deriving DecidableEq, Repr

/-- One Jusen port, beside its JP registers: per virtual channel the bytes of a message not yet whole with the flit buffers they
fill, and the messages received, each with the flit buffers that its leaving frees. -/
structure PortState where
  txq : List TxFlit := []
  replay : List (Nat × TxFlit) := []
  seqNext : Nat := 0
  rxNext : Nat := 0
  credits : List Nat := [192, 192, 96, 32]
  rr : List Nat := [16, 16, 16, 16]
  cont : List (Option Nat) := [none, none, none, none]
  alt : Bool := false
  partials : Tab (Nat × List Byte) := []
  inbox : List (FMsg × Nat) := []
  lastBoot : Option (Nat × Nat) := none
  crcTimes : List Nat := []
  since : Nat := 0
  calLast : Nat := 0
  mismatched : Bool := false
  ethFill : Nat := 0
  ethFrames : List (List Byte) := []
  stamps : List (Bool × Nat × Nat × Nat) := []
  draining : Option Nat := none
  deriving DecidableEq, Repr

/-- An outstanding fabric request of this module (R503, R507). -/
structure FReq where
  sent : Nat
  node : Nat
  typ : Nat
  offset : Nat
  len : Nat
  port : Nat
  svu : Option Nat
  deadline : Nat
  sink : Sink
  deriving DecidableEq, Repr

/-- A MSG being received (R514). -/
structure RxMsg where
  src : Nat
  tag : Nat
  pool : Nat
  token : Nat
  total : Nat
  status : Nat
  deriving DecidableEq, Repr

/-- A request of a peer whose parts wait for their slots: its number, whom to answer and how, and the outcome of each part by its place
(R305, R504). -/
structure PeerReq where
  id : Nat
  node : Nat
  tag : Nat
  typ : Nat
  offset : Nat
  parts : Nat
  got : List (Nat × Nat × List Byte × Bool) := []
  deriving DecidableEq, Repr

/-- The outcome of an access kept for an agent: its status, the bytes read, and the first bytes, as local offsets, of the words that were
poison and of those that the read itself poisoned (R59, R60). -/
structure Answer where
  status : Nat
  bytes : List Byte := []
  bad : List Nat := []
  made : List Nat := []
  deriving DecidableEq, Repr

/-- An access in progress for an agent that waits for it: its number, the agent, address and length or key, the context and address of
the table walk that made it, and its outcome. -/
structure RBuf where
  id : Nat
  agent : Nat
  ga : Nat
  len : Nat
  walk : Option (Nat × Nat) := none
  res : Option Answer
  deriving DecidableEq, Repr

/-- A register access held in the control matrix, or waiting at its master behind 16 others (R644, R649): who made it, where, what it
writes or that it reads, whether MXC_CNT.LOCK_WAITS counted it, and whether it stands for an instruction, which waits and makes the
access again. -/
structure MxcReq where
  m : Master
  off : Nat
  width : Nat
  v : Option Word
  hw : Option Nat := none
  counted : Bool := false
  again : Bool := false
  deriving DecidableEq, Repr

/-- What leaves the module. `noSnoop` is the No Snoop attribute of a request to host memory: over PCI Express the request is snooped
without it; over CXL one without it travels on CXL.cache, coherent with the host's caches, and one with it on CXL.io (R245, R460,
R477). Only transfers of the block mover ever set it. -/
inductive Out where
  | msix (vec : Nat) (addr data : Word)
  | hostReply (status : Nat) (data : List Byte) (poison : Bool)
  | hostWrite (addr : Nat) (data : List Byte) (noSnoop : Bool := false)
  | hostRead (addr len : Nat) (noSnoop : Bool := false)
  | hostReq (tag addr len : Nat) (noSnoop : Bool := false)
  | cfgReply (status : Nat) (v : Nat)
  | cxlReply (data : List Byte) (poison : Bool)
  | backInvalidate (line : Nat)
  | flit (p : Nat) (bytes : List Byte)
  | frame (p : Nat) (bytes : List Byte)
  | pause (p prio : Nat)
  | gloley (bytes : List Byte)
  | ibi (data : Nat)
  | i3c (v : Nat)
  | tdo (v : Nat)
  | coreValue (m : Master) (v : Word) (status : Nat)
  deriving DecidableEq, Repr

/-- The management and indicator pins the module drives. -/
structure Pins where
  alertN : Bool := true
  faultN : Bool := true
  thermtripN : Bool := true
  pwrGood : Bool := true
  deriving DecidableEq, Repr

/-- The host link beside its HIF registers: configuration space, CXL decoder and directory (lines oldest first, with whether the
host holds them exclusively), lines being snooped, and outstanding reads by tag (block-mover channel, base of the burst, bytes
still to come), and whether a write of the host was logged as Unsupported Request (R25), which resets of the link keep (R483, log 65). -/
structure HostLink where
  urLog : Bool := false
  linkUp : Bool := false
  perst : Bool := false
  d3 : Bool := false
  cfg : Tab Nat := []
  ready : Bool := false
  flr : Bool := false
  bar2Log : Nat := 42
  hdmBase : Nat := 0
  hdmSize : Nat := 0
  hdmOn : Bool := false
  hdmErr : Bool := false
  dir : List (Nat × Bool) := []
  snooping : List Nat := []
  reads : Tab (Nat × Nat × Nat) := []
  nextTag : Nat := 0
  deriving DecidableEq, Repr

/-- A lift request waiting at the envelope manager (R536, R537). -/
structure LiftReq where
  chain : Nat
  since : Nat
  timer : Nat := 0
  deriving DecidableEq, Repr

/-- An input ramp scheduled or in progress (R540, R541): the chain whose pipes wait for it, when it begins and ends, and when
those pipes may start. -/
structure Ramp where
  chain : Option Nat
  start : Nat
  pipes : Nat
  fin : Nat
  begun : Bool := false
  dp : Rat := 0
  deriving DecidableEq, Repr

/-- The envelope manager and power controller, beside the PWR registers: the requests that wait, the granted chains in order
of grant with the arrival of their request, the ramps, the slew in effect (R531), whether the level rules run (R538) and
since when its raise conditions may have held, the domains that switch (with whether on) and the one that PWR_DOMAIN_REQ
switches, the transition in progress, the domains to restore on the return to RUN, and when a woken flash domain returns
to off (0 for never). -/
structure PowerState where
  waiting : List LiftReq := []
  granted : List (Nat × Nat) := []
  ramps : List Ramp := []
  slew : Nat := 4
  rules : Bool := false
  upFrom : Nat := 0
  stalled : Bool := false
  thermal : Bool := false
  vin : Nat := 48000
  hot : Nat := 0
  cryHot : Bool := false
  domWait : List (Nat × Bool) := []
  domReq : Option Nat := none
  target : Option Nat := none
  saved : List Nat := []
  flashIdle : Nat := 0
  tripped : Bool := false
  ripcord : Bool := false
  stowed : Bool := false
  off : Bool := false
  deriving DecidableEq, Repr

/-- The clock unit beside the CLK registers: REFCLK is declared lost, and the PLLs that coast or relock after it (R560, R563). -/
structure ClockState where
  refLost : Bool := false
  coast : List Nat := []
  deriving DecidableEq, Repr

/-- A unit reset in progress (R572): the command that asked for it, its unit, whether it is forced and whether it was
escalated, when it began, the ranges and LOFT operations it stopped, and whether its drain has ended. -/
structure UnitReset where
  ring : Nat
  seq : Nat
  kind : Nat
  inst : Nat
  forced : Bool
  began : Nat
  stopped : Nat := 0
  drained : Bool := false
  deriving DecidableEq, Repr

/-- Life cycle, roles, firmware and audit, beside the LCS registers: the moment each session last used its rights, the challenge
of each path (role, session identifier, moment, and its 64-byte block as a number), its consecutive failures and the moment
its lock ends, the audit records, the session and the erased range of the open update, whether the role keys are erased, the loader's wait, the slew of device time left, the moment of the latest reset, the
wear counts in flash, the boot and epoch counts there, and the ring whose accepted LIFECYCLE awaits its completion and its
module reset (R615). -/
structure LifeState where
  used : Tab Nat := []
  challenges : Tab (Nat × Nat × Nat × Nat) := []
  failures : Tab Nat := []
  locked : Tab Nat := []
  nextSession : Nat := 1
  audit : List (List Nat) := []
  updSession : Nat := 0
  flashOpen : Option (Nat × Nat) := none
  keysErased : Bool := false
  loading : Bool := false
  slewLeft : Int := 0
  bootStart : Nat := 0
  wear : Tab (Nat × Nat) := []
  boot : Nat := 0
  epoch : Nat := 0
  resetDue : Option Nat := none
  deriving DecidableEq, Repr

/-- The Gloley port (21): the dynamic address in I3C mode, the address strap, the response that is ready and whether it was read,
the alert causes, whether IBIs are enabled, the moment of a module reset that RESET asked for, the earliest moment of an entry
to STOWED (R641), the session of an open recovery update, the instruction of the test access port, and of a request that firmware
serves: the moment its response is ready (R634, R636), whether it was accepted while READY, and whether READY was lost
before that moment (R638). -/
structure GloleyState where
  i3c : Bool := false
  dyn : Option Nat := none
  strap : Nat := 0
  response : List Byte := []
  readOnce : Bool := false
  alerts : Nat := 0
  ibiEn : Bool := false
  resetAt : Option Nat := none
  stowFrom : Nat := 0
  tapIr : Nat := 0
  readyAt : Nat := 0
  owed : Bool := false
  lost : Bool := false
  deriving DecidableEq, Repr

/-- The whole module. -/
structure State where
  /-- Software registers that were set since power-on, by register-space offset. -/
  regs : Tab Word := []
  /-- Bytes of the memory range and the scratchpad windows, by local offset; unlisted reads 0 (R70, R310). -/
  mem : List Host.Cell := []
  memDmg : Tab Damage := []
  spDmg : Tab Damage := []
  /-- Bytes of the firmware flash that were programmed, by offset in the window, and the (offset, length) pieces erased. -/
  flash : Tab Byte := []
  erased : List (Nat × Nat) := []
  /-- Nanoseconds since power-on. -/
  now : Nat := 0
  /-- Index of the next free value (the model's own field). -/
  free : Nat := 0
  /-- Upper counter halves latched per master (R50), and the time each master's lock opened (R650). -/
  halves : Tab Nat := []
  lockAt : Tab Nat := []
  /-- Register accesses that wait, in order of issue (R644, R649), and the master each block's held requests were last granted to
  (R646). -/
  mxc : List MxcReq := []
  mxcLast : Tab Nat := []
  chans : Tab Channel := []
  tail : List TailRec := []
  /-- The tail area in effect: base and size; and the base that a pending size goes with (R249, R250). -/
  tailArea : Nat × Nat := (0, 0)
  tailNext : Nat := 0
  tlog : List FltRec := []
  srcLast : Tab Nat := []
  srcMerged : Tab Nat := []
  srcTimer : Tab (Nat × FltRec) := []
  srcQuiet : Tab Nat := []
  srcLeak : Tab Nat := []
  chains : List Chain := []
  nextChain : Nat := 1
  svus : Tab SvuState := []
  heldReads : List (Nat × Nat × Nat × Nat) := []
  tasks : Tab TaskRegs := []
  cores : Tab CoreState := []
  sup : SupCheck := {}
  rings : Tab RingState := []
  /-- Valid TAIL doorbells in order of arrival: ring and TAIL (R222). -/
  bells : List (Nat × Nat) := []
  /-- Rings whose first read since READY is not issued yet (R407). -/
  owedReads : List Nat := []
  /-- Dispatch decisions made, and the credit of each ready ring (R433). -/
  decisions : Nat := 0
  credits : Tab Int := []
  mbx : Tab MbxSide := []
  bmv : Tab BmvState := []
  /-- Burst grants made, and the last channel granted at each priority (R461). -/
  bmvGrants : Nat := 0
  bmvLast : Tab Nat := []
  pools : Tab PoolState := []
  ports : Tab PortState := []
  freqs : Tab FReq := []
  /-- Tags outstanding to a node when its route changed, and the requests that wait for them (R247). -/
  routeOld : Tab (List Nat) := []
  routeHeld : List FMsg := []
  tagNext : Nat := 0
  tagCool : Tab Nat := []
  rbuf : List RBuf := []
  bufNext : Nat := 0
  /-- Walks begun and not ended: agent, context, address, and the chain they serve or 0 (R264, R284). -/
  walking : List (Nat × Nat × Nat × Nat) := []
  rxMsgs : List RxMsg := []
  peers : List PeerReq := []
  nodeBoot : Tab Nat := []
  host : HostLink := {}
  power : PowerState := {}
  clock : ClockState := {}
  unitResets : List UnitReset := []
  life : LifeState := {}
  gloley : GloleyState := {}
  pins : Pins := {}
  out : List Out := []
  pending : List Instr := []
  deriving DecidableEq, Repr

/-- Where SUP_A task 0 starts: the recovery region of the flash window (R605); its first byte is the model's choice
(log 11). -/
def loaderEntry : Nat := 0x38000000000 + 0x18000000

/-- The module right after power-on reset: steps 2 to 4 of R601 done, the always-on and flash domains on, PLL_SUP locked,
device time 0 in epoch 1, and SUP_A task 0 at the loader entry (R605, R611). -/
def State.reset : State :=
  { regs := [(Reg.PWR_DOMAIN_HI, BitVec.ofNat 64 (2 ^ 15)), (Reg.CLK_STAT, BitVec.ofNat 64 (2 ^ 62 + 1)),
      (Reg.CLK_PLL 0, BitVec.ofNat 64 (1000 * 2 ^ 32 + 2)), (Reg.TIME_EPOCH, 1), (Reg.LCS_BOOT, BitVec.ofNat 64 (2 ^ 40)),
      (Reg.JFAB_NODE, BitVec.ofNat 64 (2 ^ 16))]
    tasks := [(64 * 24, { st := .run, pc := loaderEntry })]
    life := { epoch := 1, boot := 1, loading := true } }

end Sys2Proof.Machine
end

