-- ==== Sys2Proof/Machine/Ops.lean ====
section
/-! DEFINITION. The named operations over the state: registers and their fields, free values, time, the local
map, the interleave, storage bytes and their damage, and what leaves the module. -/
namespace Sys2Proof.Machine
open Reg

/-! Statuses (R417). -/

abbrev ST_OK : Nat := 0x00
abbrev ST_PARTIAL : Nat := 0x01
abbrev ST_ABORTED : Nat := 0x02
abbrev ST_ABORTED_RESET : Nat := 0x03
abbrev ST_PEER_RESET : Nat := 0x04
abbrev ST_TORN : Nat := 0x05
abbrev ST_BAD_OPCODE : Nat := 0x10
abbrev ST_BAD_PARAM : Nat := 0x11
abbrev ST_NOT_READY : Nat := 0x12
abbrev ST_NO_RIGHT : Nat := 0x13
abbrev ST_BUSY : Nat := 0x14
abbrev ST_XLAT_FAULT : Nat := 0x20
abbrev ST_WALK_FAULT : Nat := 0x21
abbrev ST_WALK_DEVICE : Nat := 0x22
abbrev ST_PROTECTION : Nat := 0x23
abbrev ST_POISON : Nat := 0x24
abbrev ST_FP_TRAP : Nat := 0x25
abbrev ST_DECIMAL_DATA : Nat := 0x26
abbrev ST_VERIFY_RETRIED : Nat := 0x27
abbrev ST_VERIFY_FAILED : Nat := 0x28
abbrev ST_BUF_ALREADY_FREE : Nat := 0x30
abbrev ST_BUF_NOT_OWNER : Nat := 0x31
abbrev ST_BUF_EXHAUSTED : Nat := 0x32
abbrev ST_FABRIC_UNREACHABLE : Nat := 0x40
abbrev ST_FENCED : Nat := 0x41
abbrev ST_ENVELOPE_DENIED : Nat := 0x50

/-! Registers. -/

/-- The word a software register holds: as last set, or as power-on reset leaves it (R10). -/
def State.reg (s : State) (off : Nat) : Word := (tabFind s.regs off).getD (resetWord off)

/-- The state with a software register set whole. -/
def State.setReg (s : State) (off : Nat) (w : Word) : State := { s with regs := tabPut s.regs off w }

/-- The value of a register field. -/
def State.rd (s : State) (f : RF) : Nat := fieldOf (s.reg f.off) f.hi f.lo

/-- The state with a register field set by hardware, every other field kept. -/
def State.wr (s : State) (f : RF) (v : Nat) : State := s.setReg f.off (setField (s.reg f.off) f.hi f.lo v)

/-- A one-bit field, or any field, read as a condition: not zero. -/
def State.on (s : State) (f : RF) : Bool := s.rd f != 0

/-- A counter field advanced by `n`, saturating (R50). -/
def State.count (s : State) (f : RF) (n : Nat) : State := s.wr f (satAdd (f.hi + 1 - f.lo) (s.rd f) n)

/-- A field advanced by `n` modulo its width. -/
def State.countMod (s : State) (f : RF) (n : Nat) : State := s.wr f (s.rd f + n)

/-- A field raised to `n` when `n` is higher. -/
def State.peak (s : State) (f : RF) (n : Nat) : State := if s.rd f < n then s.wr f n else s

/-! Units. -/

def State.chan (s : State) (c : Nat) : Channel := tabGet s.chans {} c
def State.setChan (s : State) (c : Nat) (x : Channel) : State := { s with chans := tabPut s.chans c x }
def State.svu (s : State) (i : Nat) : SvuState := tabGet s.svus {} i
def State.setSvu (s : State) (i : Nat) (x : SvuState) : State := { s with svus := tabPut s.svus i x }
def State.coreSt (s : State) (c : Nat) : CoreState := tabGet s.cores {} c
def State.setCore (s : State) (c : Nat) (x : CoreState) : State := { s with cores := tabPut s.cores c x }
def State.ring (s : State) (r : Nat) : RingState := tabGet s.rings {} r
def State.setRing (s : State) (r : Nat) (x : RingState) : State := { s with rings := tabPut s.rings r x }
def State.bmvCh (s : State) (c : Nat) : BmvState := tabGet s.bmv {} c
def State.setBmv (s : State) (c : Nat) (x : BmvState) : State := { s with bmv := tabPut s.bmv c x }
def State.pool (s : State) (p : Nat) : PoolState := tabGet s.pools {} p
def State.setPool (s : State) (p : Nat) (x : PoolState) : State := { s with pools := tabPut s.pools p x }
def State.port (s : State) (p : Nat) : PortState := tabGet s.ports {} p
def State.setPort (s : State) (p : Nat) (x : PortState) : State := { s with ports := tabPut s.ports p x }

/-- Side `d` of mailbox `m`: 0 the F side, 1 the P side (R443). -/
def State.side (s : State) (m d : Nat) : MbxSide := tabGet s.mbx {} (2 * m + d)
def State.setSide (s : State) (m d : Nat) (x : MbxSide) : State := { s with mbx := tabPut s.mbx (2 * m + d) x }

/-- Hardware task `t` of core `c` (R377). -/
def State.task (s : State) (c t : Nat) : TaskRegs := tabGet s.tasks {} (64 * c + t)
def State.setTask (s : State) (c t : Nat) (x : TaskRegs) : State := { s with tasks := tabPut s.tasks (64 * c + t) x }

/-- A chain in progress. -/
def State.chainOf (s : State) (id : Nat) : Option Chain := s.chains.find? (fun c => c.id == id)

/-- The chains with one replaced by its number. -/
def State.setChain (s : State) (c : Chain) : State :=
  { s with chains := s.chains.map (fun x => if x.id = c.id then c else x) }

/-- The chains with one changed. -/
def State.updChain (s : State) (id : Nat) (f : Chain → Chain) : State :=
  { s with chains := s.chains.map (fun x => if x.id = id then f x else x) }

/-- A chain with the slice of a logical slice number changed. -/
def Chain.updSlice (c : Chain) (lsl : Nat) (f : Slice → Slice) : Chain :=
  { c with slices := c.slices.map (fun x => if x.lsl = lsl then f x else x) }

/-- The next free value (log 3): a value nothing constrains, and the state that has used it. -/
def State.fresh (s : State) : Nat × State := (Config.freeNat s.free, { s with free := s.free + 1 })

/-- Clock of the SVUs, cluster cores and crossbar at a level, in MHz (R534). -/
def levelMhz (l : Nat) : Nat := 2000 - 400 * l

/-- A watermark register at `off`, its COUNT, LEVEL, UP and DOWN in [63:48], 34, 33 and 32: the level that an occupancy gives,
and the crossing and its message when it changes (R439, R440). Disabled by THRESH 0, its LEVEL reads 0 and nothing crosses. -/
def State.watermark (s : State) (msg : State → Nat → State) (off thresh occupancy vector : Nat) : State :=
  let level := thresh != 0 && decide (thresh ≤ occupancy)
  let old := s.on ⟨off, 34, 34⟩
  if level = old then s
  else if thresh = 0 then s.wr ⟨off, 34, 34⟩ 0
  else
    let quiet := !s.on ⟨off, 33, 33⟩ && !s.on ⟨off, 32, 32⟩
    let s := (s.wr ⟨off, 34, 34⟩ (b2n level)).count ⟨off, 63, 48⟩ 1
    let s := s.wr (if level then ⟨off, 33, 33⟩ else ⟨off, 32, 32⟩) 1
    if quiet then msg s vector else s

/-! Time. -/

/-- Device time in ns (R609). -/
def State.dev (s : State) : Nat := s.rd TIME_NOW_NS

def State.isReady (s : State) : Bool := s.on LCS_BOOT_READY

/-- Time passing to the absolute time `t`: device time follows, slower or faster by 500 ppm while it slews (R517, R610, R612),
and LCS_BOOT.BOOT_MS counts until READY. -/
def State.advance (s : State) (t : Nat) : State :=
  let dt := t - s.now
  let left := s.life.slewLeft.natAbs
  let left' := left - dt
  let ahead := (left + 1999) / 2000
  let ahead' := (left' + 1999) / 2000
  let slower : Bool := decide (0 < s.life.slewLeft)
  let s := { s with now := s.now + dt, life := { s.life with slewLeft := if slower then (left' : Int) else -(left' : Int) } }
  let s := s.wr TIME_NOW_NS (if slower then s.dev + dt - (ahead - ahead') else s.dev + dt + (ahead - ahead'))
  let s := if ahead = 0 || !slower then s else s.wr TIME_SLEW_AHEAD ahead'
  if s.isReady then s else s.wr LCS_BOOT_BOOT_MS ((s.now - s.life.bootStart) / 1000000)

/-- Time moved on to a deadline, when it lies ahead. -/
def State.advanceTo (s : State) (t : Nat) : State := if s.now < t then s.advance t else s

/-- What a step with no command waiting does: one nanosecond passes (log 2). -/
def State.idle (s : State) : State := s.advance (s.now + 1)

/-! The local map (R17). -/

/-- The ranges of the local map. -/
inductive Range where
  | memory | scratch (i : Nat) | flash | registers | reserved
  deriving DecidableEq, Repr

def scratchBase : Nat := 0x30000000000
def flashBase : Nat := 0x38000000000
def regBase : Nat := 0x3f000000000
def memTop : Nat := 0x30000000000

/-- The range that holds a local offset (R17, R18). -/
def rangeOf (off : Nat) : Range :=
  if off < memTop then .memory
  else if off < 0x30018000000 then .scratch ((off - scratchBase) / 2 ^ 22)
  else if flashBase ≤ off ∧ off < 0x38020000000 then .flash
  else if regBase ≤ off ∧ off < 0x3f010000000 then .registers
  else .reserved

/-- NODE and OFFSET of a global address. -/
def gaNode (ga : Nat) : Nat := bitsOf ga 51 42
def gaOff (ga : Nat) : Nat := ga % 2 ^ 42
def gaOf (node off : Nat) : Nat := node * 2 ^ 42 + off

/-- The module's own node identifier (R16). -/
def State.node (s : State) : Nat := s.rd JFAB_NODE_NODE

/-- The bytes of one access lie in two ranges, windows or nodes (R26). -/
def crosses (ga len : Nat) : Bool :=
  len != 0 && (gaNode ga != gaNode (ga + len - 1) || rangeOf (gaOff ga) != rangeOf (gaOff (ga + len - 1)))

/-! The interleave (R35, R36). -/

def foldOf (q : Nat) : Nat :=
  bitsOf q 9 5 ^^^ bitsOf q 14 10 ^^^ bitsOf q 19 15 ^^^ bitsOf q 24 20 ^^^ bitsOf q 29 25 ^^^ bitsOf q 31 30

/-- The channel that holds a memory offset (R35). -/
def channelOf (pa : Nat) : Nat := 32 * (pa / 256 % 3) + (bitsOf (pa / 256 / 3) 4 0 ^^^ foldOf (pa / 256 / 3))

/-- The row granule of a memory offset within its channel (R35). -/
def rowGranuleOf (pa : Nat) : Nat := bitsOf (pa / 256 / 3) 31 5

/-- The bank of a row granule (R36). -/
def bankOf (w : Nat) : Nat := bitsOf w 5 0 ^^^ bitsOf w 11 6

/-- The position of a row granule within its bank (R36). -/
def positionOf (w : Nat) : Nat := bitsOf w 26 6

/-- The DRAM row of a row granule: its bank and eight consecutive positions (R76), as one number. -/
def rowOf (w : Nat) : Nat := bankOf w + 64 * (positionOf w / 8)

/-- The first offset of a row granule of a channel: the inverse of R35. -/
def granuleOffset (c w : Nat) : Nat :=
  let fold := bitsOf w 4 0 ^^^ bitsOf w 9 5 ^^^ bitsOf w 14 10 ^^^ bitsOf w 19 15 ^^^ bitsOf w 24 20 ^^^ bitsOf w 26 25
  (3 * (w * 32 + (c % 32 ^^^ fold)) + c / 32) * 256

/-- The bank of a scratchpad offset (R302). -/
def spBankOf (o : Nat) : Nat := bitsOf o 7 4 ^^^ bitsOf o 11 8

/-! Fences and domains. -/

def State.svuFenced (s : State) (i : Nat) : Bool := bitOf (s.rd (FLT_FENCED_SVU_FENCED (i / 64))) (i % 64)
def State.chFenced (s : State) (c : Nat) : Bool := bitOf (s.rd (FLT_FENCED_CH_FENCED (c / 64))) (c % 64)
def State.clusFenced (s : State) (k : Nat) : Bool := bitOf (s.rd FLT_FENCED_UNIT_CLUS) k
def State.portFenced (s : State) (p : Nat) : Bool := bitOf (s.rd FLT_FENCED_UNIT_JP) p
def State.supFenced (s : State) (x : Nat) : Bool := bitOf (s.rd FLT_FENCED_UNIT_SUP) x

/-- Domain `d` of R532 is on. -/
def State.domainOn (s : State) (d : Nat) : Bool :=
  if d < 64 then bitOf (s.rd PWR_DOMAIN_LO_ON) d else bitOf (s.rd PWR_DOMAIN_HI_ON) (d - 64)

/-- The ON bit of a domain set. -/
def State.setDomain (s : State) (d : Nat) (v : Bool) : State :=
  if d < 64 then s.wr ⟨PWR_DOMAIN_LO, d, d⟩ (b2n v) else s.wr ⟨PWR_DOMAIN_HI, d - 64, d - 64⟩ (b2n v)

/-- The logic domain of a cluster is on and cleared (R310). -/
def State.logicOn (s : State) (k : Nat) : Bool := s.domainOn k && s.rd (CLUS_ARRAY_STATE_LOGIC k) == 2

/-- The array domain of a cluster is on and cleared (R309, R310). -/
def State.arrayOn (s : State) (k : Nat) : Bool := s.domainOn (24 + k) && s.rd (CLUS_ARRAY_STATE_ARRAY k) == 2

/-- Storage at a local offset that cannot answer: the status of R31, which wins, or of R30. -/
def State.storageOut (s : State) (off : Nat) : Option Nat :=
  match rangeOf off with
  | .memory =>
    let c := channelOf off
    if s.chFenced c then some ST_FENCED
    else if s.rd (MEMC_STATUS_STATE c) ≠ 2 then some ST_NOT_READY else none
  | .scratch i =>
    if s.svuFenced i then some ST_FENCED else if !s.arrayOn (i / 4) then some ST_NOT_READY else none
  | _ => none

/-! Storage bytes: the memory range and the scratchpad windows, one canonical list. -/

/-- The byte at an offset; one not listed reads 0 (R70, R310). -/
def memGet : List Host.Cell → Nat → Byte
  | [], _ => 0
  | (a', b) :: t, a => if a' = a then b else if a < a' then 0 else memGet t a

/-- The list with one byte written, in its canonical form. -/
def memPut : List Host.Cell → Nat → Byte → List Host.Cell
  | [], a, b => if b = 0 then [] else [(a, b)]
  | (a', b') :: t, a, b =>
    if a' = a then (if b = 0 then t else (a, b) :: t)
    else if a < a' then (if b = 0 then (a', b') :: t else (a, b) :: (a', b') :: t)
    else (a', b') :: memPut t a b

/-- The canonical form: offsets strictly rising, and no byte equal to what an unlisted offset reads as. -/
def memWf : List Host.Cell → Bool
  | [] => true
  | (a, b) :: t => b != 0 && t.all (fun c => decide (a < c.1)) && memWf t

/-- Consecutive bytes written. -/
def memPutList : List Host.Cell → Nat → List Byte → List Host.Cell
  | m, _, [] => m
  | m, a, b :: bs => memPutList (memPut m a b) (a + 1) bs

/-- `n` consecutive bytes. -/
def State.peek (s : State) (off n : Nat) : List Byte := (List.range n).map (fun k => memGet s.mem (off + k))

/-- Consecutive bytes stored. -/
def State.poke (s : State) (off : Nat) (bs : List Byte) : State := { s with mem := memPutList s.mem off bs }

/-- Every listed byte at an offset that meets a condition cleared to zero, and its damage with it. -/
def State.wipe (s : State) (p : Nat → Bool) : State :=
  { s with
    mem := s.mem.filter (fun c => !p c.1)
    memDmg := s.memDmg.filter (fun c => !p (64 * c.1))
    spDmg := s.spDmg.filter (fun c => !p (8 * c.1)) }

/-- Bytes in an ECC word of the storage at an offset: 64 in memory (R55), 8 in a scratchpad (R65). -/
def eccBytes (off : Nat) : Nat := if off < memTop then 64 else 8

/-- The damage of the ECC word that holds an offset. -/
def State.damage (s : State) (off : Nat) : Damage :=
  if off < memTop then tabGet s.memDmg {} (off / 64) else tabGet s.spDmg {} (off / 8)

/-- The damage of a word set; a word without damage is not listed. -/
def State.setDamage (s : State) (off : Nat) (d : Damage) : State :=
  let put := fun (t : Tab Damage) k => if d = {} then tabDel t k else tabPut t k d
  if off < memTop then { s with memDmg := put s.memDmg (off / 64) } else { s with spDmg := put s.spDmg (off / 8) }

/-- The decode outcomes of R56. -/
inductive Decoded where
  | clean | corrected (sym : Nat) | poison | uncorrectable
  deriving DecidableEq, Repr

/-- What a read of a word decodes to (R55, R56, R58). A poisoned word with further errors decodes POISON or
UNCORRECTABLE, which of them the spec leaves open: `pick`, a free value, decides. -/
def decodeWord (d : Damage) (pick : Nat) : Decoded :=
  if d.poison then (if d.syms = [] ∨ pick % 2 = 0 then .poison else .uncorrectable)
  else
    match d.syms with
    | [] => .clean
    | [x] => .corrected x
    | _ => .uncorrectable

/-- The little-endian number of the data bits of the ECC word at a word-aligned offset. -/
def State.wordBits (s : State) (off : Nat) : Nat := leNat (s.peek off (eccBytes off))

/-- The data bits of an ECC word set. -/
def State.setWordBits (s : State) (off v : Nat) : State := s.poke off (leBytes (eccBytes off) v)

/-- Bits of `new` where the mask is set, of `old` elsewhere. -/
def mergeBits (old new mask : Nat) : Nat := (old &&& (old ^^^ mask)) ||| (new &&& mask)

/-- The local offset of a storage request: its first byte, or its first word. -/
def MemReq.off (r : MemReq) : Nat :=
  match r.op with
  | .read o _ => o
  | .write ws => (ws.head?.map (·.off)).getD 0
  | .atom o .. => o

/-! Flash. -/

/-- The byte the flash window holds at an offset. -/
def State.flashByte (s : State) (o : Nat) : Byte :=
  match tabFind s.flash o with
  | some b => b
  | none => if s.erased.any (fun r => r.1 ≤ o && o < r.1 + r.2) then Config.flashErased else Config.flashByte o

def State.flashBytes (s : State) (o n : Nat) : List Byte := (List.range n).map (fun k => s.flashByte (o + k))

/-- An access to flash wakes its domain, which returns to off 1 ms after the last access (R548, R551). -/
def State.flashTouch (s : State) : State :=
  if !s.domainOn 79 then { s.setDomain 79 true with power := { s.power with flashIdle := s.now + 1000000 } }
  else if s.power.flashIdle = 0 then s
  else { s with power := { s.power with flashIdle := s.now + 1000000 } }

/-- Bytes programmed into flash. -/
def State.flashWrite (s : State) : Nat → List Byte → State
  | _, [] => s
  | o, b :: bs => ({ s with flash := tabPut s.flash o b }).flashWrite (o + 1) bs

/-- `n` bytes of flash erased. -/
def State.flashErase (s : State) (o n : Nat) : State :=
  { s with flash := s.flash.filter (fun p => p.1 < o || o + n ≤ p.1), erased := s.erased ++ [(o, n)] }

/-! What leaves the module. -/

def State.emit (s : State) (o : Out) : State := { s with out := s.out ++ [o] }

/-- Offsets of configuration space the model uses: the Command register, and the MSI-X capability's control dword (log 10). -/
def cfgCommand : Nat := 0x04
def cfgMsix : Nat := 0x40

/-- A dword of configuration space that software has written. -/
def State.cfgDword (s : State) (off : Nat) : Nat := tabGet s.host.cfg 0 off

def State.memEnable (s : State) : Bool := bitOf (s.cfgDword cfgCommand) 1

/-- The module may send requests to the host: Bus Master Enable is 1 and the function is in D0 (R485). -/
def State.busMaster (s : State) : Bool :=
  bitOf (s.cfgDword cfgCommand) 2 && !s.host.d3 && s.host.linkUp && !s.host.flr

/-- MSI-X is enabled and messages may leave (R481). -/
def State.msixOn (s : State) : Bool := bitOf (s.cfgDword cfgMsix) 31 && s.busMaster

/-- Vector `v` is masked, by its own mask bit or the function's. -/
def State.msixMasked (s : State) (v : Nat) : Bool := bitOf (s.cfgDword cfgMsix) 30 || s.on (HIF_MSIX_DATA_MASK v)

/-- Vector `v` is raised: sent, or kept in its pending bit while masked or disabled (R481). -/
def State.msix (s : State) (v : Nat) : State :=
  if !s.msixOn || s.msixMasked v then s.wr ⟨HIF_PBA (v / 64), v % 64, v % 64⟩ 1
  else s.emit (.msix v (s.reg (HIF_MSIX_ADDR v)) (BitVec.ofNat 64 (s.rd (HIF_MSIX_DATA_DATA v))))

/-- An alert cause of R642 is set; in I3C mode the first one sends an IBI. -/
def State.alert (s : State) (n : Nat) : State :=
  let old := s.gloley.alerts
  let new := old ||| 2 ^ n
  let s := { s with gloley := { s.gloley with alerts := new } }
  if old = 0 && s.gloley.i3c && s.gloley.ibiEn then s.emit (.ibi new) else s

/-- An interrupt line of a task becomes pending (R382); SUP_B takes SUP_A's once that is fenced (R329, R330). -/
def State.raiseLine (s : State) (c t line : Nat) : State :=
  let c := if c = 24 ∧ s.supFenced 0 then 25 else c
  let x := s.task c t
  s.setTask c t { x with pend := x.pend ||| 2 ^ line }

end Sys2Proof.Machine
end

