-- ==== Sys2Proof/Machine/Decimal.lean ====
section
/-! DEFINITION. Packed decimal: the DEC128 format and the operations of group 0x9 and of DADD and DSUB
(R143, R179 to R183, R366). -/
namespace Sys2Proof.Machine

/-- Nibble `k` of a pattern. -/
def nibble (n k : Nat) : Nat := n / 16 ^ k % 16

/-- The magnitude of the `k` digits below nibble 31, when every digit is 0 to 9. -/
def decDigits (n : Nat) : Nat → Option Nat
  | 0 => some 0
  | k + 1 =>
    let d := nibble n (31 - k)
    match decDigits n k with
    | some v => if d ≤ 9 then some (10 * v + d) else none
    | none => none

/-- The signed integer of a DEC128 element; `none` for an invalid digit or sign (R143, R180). -/
def decOf (n : Nat) : Option Int :=
  match decDigits n 31 with
  | none => none
  | some v =>
    match nibble n 0 with
    | 0xc => some v
    | 0xf => some v
    | 0xd => some (-(v : Int))
    | _ => none

/-- The nibbles of a magnitude, lowest first. -/
def decNibbles : Nat → Nat → Nat
  | 0, _ => 0
  | k + 1, v => v % 10 + 16 * decNibbles k (v / 10)

/-- A DEC128 element holding the low 31 digits of a magnitude, with the sign rule of R180 and R181. -/
def decBits (z : Int) : Nat :=
  let m := z.natAbs % 10 ^ 31
  16 * decNibbles 31 m + (if z < 0 ∧ m ≠ 0 then 0xd else 0xc)

/-- The result of an operation that can need more than 31 digits (R181). -/
def decResult (z : Int) : Nat × Nat := (decBits z, if 10 ^ 31 ≤ z.natAbs then fOF else 0)

/-- `z / 10^k` rounded to an integer in a mode, and whether it is inexact (R182). -/
def decShiftRight (rm : RMode) (z : Int) (k : Nat) : Int × Bool :=
  let neg := decide (z < 0)
  let m := z.natAbs
  let d := 10 ^ k
  let q := m / d
  let r := m % d
  let up :=
    match rm with
    | .rtz => false
    | .rup => !neg && r != 0
    | .rdn => neg && r != 0
    | .rna => decide (2 * r ≥ d) && r != 0
    | .rne => decide (2 * r > d) || (2 * r == d && r != 0 && q % 2 == 1)
  let v : Int := ((q + b2n up : Nat) : Int)
  (if neg then -v else v, r != 0)

/-- Compare condition 0 to 5 of R169 on integers; 6 is false and 7 true for values that are never unordered. -/
def icmp (cond : Nat) (a b : Int) : Bool :=
  match cond with
  | 0 => decide (a = b)
  | 1 => decide (a ≠ b)
  | 2 => decide (a < b)
  | 3 => decide (a ≤ b)
  | 4 => decide (a > b)
  | 5 => decide (a ≥ b)
  | 6 => false
  | _ => true

end Sys2Proof.Machine
end

