-- ==== Sys2Proof/Machine/StreamOps.lean ====
section
/-! DEFINITION. The operation codes of 05_stream_operations: what each reads, accepts and binds to
(R156 to R159), and the element result of every operation that depends on one index only. -/
namespace Sys2Proof.Machine

/-- What a row reads for an operand (R158, R159). -/
inductive Need where
  | no | val | valOut | valOpt | u64Opt | anyInt | int64 | mask
  deriving DecidableEq, Repr

/-- The pipe kinds (R131). -/
inductive Pipe where
  | f | i0 | x0 | p0 | a0
  deriving DecidableEq, Repr

/-- One row of the group tables. -/
structure OpRow where
  a : Need
  b : Need := .no
  c : Need := .no
  pipe : Pipe
  clocks : Nat := 1
  types : EType → EType → Bool
  imm : EType → Nat → Bool := fun _ _ => true

/-- FMULW and FMAW type pairs. -/
def widenFP (i o : EType) : Bool :=
  (i == .fp16 && o == .fp32) || (i == .bf16 && o == .fp32) || (i == .fp32 && o == .fp64)

/-- IMULW type pairs. -/
def widenInt (i o : EType) : Bool := i.isInt && o.isInt && i.isSigned == o.isSigned && o.bits == 2 * i.bits

def eqI (p : EType → Bool) (i o : EType) : Bool := p i && i == o
def numeric (t : EType) : Bool := t.isFP || t.isInt
def notDec (t : EType) : Bool := t != .dec128
def atomicType (t : EType) : Bool := t == .int32 || t == .uint32 || t == .int64 || t == .uint64
def lowImm (_ : EType) (n : Nat) : Bool := n < 16

/-- The row of an operation code, when the tables list one (R156). -/
def opRow (op : Nat) : Option OpRow :=
  let fa : EType → EType → Bool := eqI EType.isFA
  let ii : EType → EType → Bool := eqI EType.isInt
  let m8 : EType → EType → Bool := fun i o => i == .uint8 && o == .uint8
  let dd : EType → EType → Bool := fun i o => i == .dec128 && o == .dec128
  match op with
  | 0x000 => some { a := .val, pipe := .p0, types := fun i o => i == o }
  | 0x001 => some { a := .val, pipe := .a0, types := fun i o => numeric i && numeric o }
  | 0x002 => some { a := .val, pipe := .p0, types := fun i o => i.bits == o.bits }
  | 0x100 | 0x101 | 0x102 | 0x103 | 0x104 | 0x105 | 0x106 | 0x109 =>
    some { a := .val, b := .val, pipe := .f, types := fa }
  | 0x107 | 0x108 | 0x10A => some { a := .val, pipe := .f, types := fa }
  | 0x200 | 0x201 | 0x202 | 0x203 => some { a := .val, b := .val, c := .val, pipe := .f, types := fa }
  | 0x210 => some { a := .val, b := .val, pipe := .f, types := widenFP }
  | 0x211 => some { a := .val, b := .val, c := .valOut, pipe := .f, types := widenFP }
  | 0x220 => some { a := .val, b := .val, pipe := .f, types := fun i o => i.isFP && o.isFP, imm := lowImm }
  | 0x300 | 0x301 | 0x302 | 0x303 | 0x305 | 0x306 => some { a := .val, b := .val, pipe := .i0, types := ii }
  | 0x304 => some { a := .val, b := .val, pipe := .i0, types := widenInt }
  | 0x307 => some { a := .val, pipe := .i0, types := eqI EType.isSigned }
  | 0x308 => some { a := .val, pipe := .i0, types := ii }
  | 0x320 => some { a := .val, b := .val, pipe := .f, imm := lowImm
                    types := fun i o => (i == .int8 || i == .uint8 || i == .int16 || i == .uint16) && o.isInt }
  | 0x400 | 0x401 => some { a := .val, b := .val, pipe := .i0, types := ii }
  | 0x402 | 0x403 => some { a := .val, pipe := .i0, types := ii }
  | 0x404 => some { a := .val, pipe := .i0, types := fun i o => i.isInt && o.isInt }
  | 0x405 => some { a := .val, pipe := .i0, types := ii, imm := fun t n => n < t.bits }
  | 0x406 => some { a := .val, b := .val, pipe := .i0, types := ii, imm := fun t n => n < 2 * t.bits }
  | 0x500 | 0x501 | 0x502 | 0x503 => some { a := .val, b := .val, pipe := .i0, types := eqI notDec }
  | 0x504 => some { a := .val, pipe := .i0, types := eqI notDec }
  | 0x508 | 0x509 | 0x50A => some { a := .val, b := .val, pipe := .i0, types := ii }
  | 0x510 => some { a := .val, b := .val, pipe := .i0, types := eqI numeric, imm := fun _ n => n < 8 }
  | 0x518 | 0x519 | 0x51A | 0x51B => some { a := .mask, b := .mask, pipe := .i0, types := m8 }
  | 0x51C => some { a := .mask, pipe := .i0, types := m8 }
  | 0x600 => some { a := .val, pipe := .a0, types := fun i o => numeric i && numeric o, imm := lowImm }
  | 0x601 => some { a := .val, b := .val, pipe := .a0, types := fun i o => numeric i && numeric o, imm := lowImm }
  | 0x602 => some { a := .val, pipe := .a0, types := fun i o => (i.isFP || i.isSigned) && numeric o, imm := lowImm }
  | 0x603 | 0x604 => some { a := .val, pipe := .a0, types := eqI numeric, imm := lowImm }
  | 0x605 => some { a := .val, pipe := .a0, types := fun _ o => o.isInt, imm := lowImm }
  | 0x700 | 0x701 => some { a := .val, b := .mask, c := .u64Opt, pipe := .p0, types := fun i o => i == o }
  | 0x702 => some { a := .val, c := .valOpt, pipe := .p0, types := fun i o => i == o }
  | 0x703 => some { a := .val, b := .anyInt, c := .valOpt, pipe := .p0, types := fun i o => i == o, imm := fun _ n => n ≤ 12 }
  | 0x708 | 0x709 | 0x70A | 0x70B => some { a := .val, c := .valOpt, pipe := .p0, types := ii }
  | 0x710 | 0x711 => some { a := .val, c := .valOpt, pipe := .a0, types := fun i o => i.isFA && o.isFA, imm := lowImm }
  | 0x800 => some { a := .val, b := .val, pipe := .x0, clocks := 4, types := fa }
  | 0x801 => some { a := .val, pipe := .x0, clocks := 4, types := fa }
  | 0x802 | 0x803 => some { a := .val, pipe := .x0, types := fa }
  | 0x810 | 0x811 => some { a := .val, b := .val, pipe := .x0, clocks := 4, types := ii }
  | 0x900 | 0x901 => some { a := .val, b := .val, pipe := .i0, types := dd }
  | 0x902 => some { a := .val, b := .val, pipe := .i0, types := dd, imm := fun _ n => n ≤ 5 }
  | 0x903 | 0x904 => some { a := .val, pipe := .i0, types := dd, imm := fun _ n => n ≤ 31 }
  | 0x905 => some { a := .val, b := .val, pipe := .x0, clocks := 4, types := dd, imm := fun _ n => n ≤ 62 }
  | 0x908 => some { a := .val, pipe := .i0, types := fun i o => i.isInt && o == .dec128 }
  | 0x909 => some { a := .val, pipe := .i0, types := fun i o => i == .dec128 && o.isInt }
  | 0xA00 => some { a := .no, pipe := .p0, types := ii }
  | 0xA01 => some { a := .no, pipe := .p0, types := ii, imm := fun _ n => n ≤ 48 }
  | 0xA02 => some { a := .val, b := .val, c := .mask, pipe := .p0, types := fun i o => i == o }
  | 0xB00 | 0xB01 => some { a := .int64, b := .val, pipe := .i0, types := eqI atomicType }
  | _ => none

/-- Operations whose result is a mask (R144, R157). -/
def opMask (op : Nat) : Bool := op == 0x510 || op == 0x902 || (0x518 ≤ op && op ≤ 0x51C)

/-- DOT and IDOT (R164). -/
def isDot (op : Nat) : Bool := op == 0x220 || op == 0x320

/-- Nodes of group 0x6, DOT and IDOT: one LACC image and no result (R109, R164). -/
def isReduction (op : Nat) : Bool := op / 256 == 6 || isDot op

/-- FSCAN_ADD and FXSCAN_ADD. -/
def isFscan (op : Nat) : Bool := op == 0x710 || op == 0x711

/-- Nodes that use a LACC (R164). -/
def usesLacc (op : Nat) : Bool := isReduction op || isFscan op

/-- Group 0x7 (R126). -/
def isGroup7 (op : Nat) : Bool := op / 256 == 7

/-- The empty image a node's LACC starts from (R189, R190). -/
def accKindOf (op : Nat) : AccKind :=
  match op with
  | 0x603 => .min
  | 0x604 => .max
  | 0x605 => .cnt
  | _ => .sum

/-- An element result: bits, flags, and whether a decimal operand was invalid (R179). -/
structure ElemRes where
  bits : Nat
  flags : Nat := 0
  badDec : Bool := false
  deriving DecidableEq, Repr

def resOf (p : Nat × Nat) : ElemRes := { bits := p.1, flags := p.2 }

/-- Clamp with the SAT flag (R167). -/
def satRes (t : EType) (z : Int) : ElemRes :=
  { bits := intBits t (clampTo t z), flags := if clampTo t z = z then 0 else fSAT }

/-- `z / 2^k` rounded to an integer in a mode (R168). -/
def shiftRound (rm : RMode) (z : Int) (k : Nat) : Int :=
  let neg := decide (z < 0)
  let (n, _) := roundShift rm neg z.natAbs k
  if neg then -(n : Int) else n

/-- Decimal operations on checked operands (group 0x9). -/
def decOp (op imm : Nat) (rm : RMode) (x y : Int) (to' : EType) : ElemRes :=
  match op with
  | 0x900 => resOf (decResult (x + y))
  | 0x901 => resOf (decResult (x - y))
  | 0x902 => { bits := b2n (icmp imm x y) }
  | 0x903 => resOf (decResult (x * 10 ^ imm))
  | 0x904 => let (q, nx) := decShiftRight rm x imm; { bits := decBits q, flags := if nx then fNX else 0 }
  | 0x905 =>
    let (q, nx) := decShiftRight rm (x * y) imm
    let (b, f) := decResult q
    { bits := b, flags := f + (if nx then fNX else 0) }
  | _ => { bits := intBits to' (clampTo to' x), flags := if clampTo to' x = x then 0 else fNV }

/-- The result of an operation at element index `i`, for every code whose result depends on that index's
operands only (groups 0x0 to 0x5, 0x8 to 0xA). `t` is ITYPE and `o` OTYPE. -/
def elemOp (op imm : Nat) (t o : EType) (rm : RMode) (i a b c : Nat) : ElemRes :=
  let w := t.bits
  let sat := imm % 2 == 1
  let x := intVal t a
  let y := intVal t b
  match op with
  | 0x000 | 0x002 => { bits := a }
  | 0x001 => resOf (cvt t o rm sat a)
  | 0x100 => resOf (fadd t rm false a b)
  | 0x101 => resOf (fadd t rm true a b)
  | 0x102 => resOf (fmul t t rm sat a b)
  | 0x103 => resOf (fminmax t false false a b)
  | 0x104 => resOf (fminmax t true false a b)
  | 0x105 => resOf (fminmax t false true a b)
  | 0x106 => resOf (fminmax t true true a b)
  | 0x107 => { bits := a % 2 ^ (w - 1) }
  | 0x108 => { bits := (a + 2 ^ (w - 1)) % 2 ^ w }
  | 0x109 => { bits := a % 2 ^ (w - 1) + b / 2 ^ (w - 1) % 2 * 2 ^ (w - 1) }
  | 0x10A => resOf (frint t rm a)
  | 0x200 => resOf (fmaCore t t t rm sat false false true a b c)
  | 0x201 => resOf (fmaCore t t t rm sat false true true a b c)
  | 0x202 => resOf (fmaCore t t t rm sat true false true a b c)
  | 0x203 => resOf (fmaCore t t t rm sat true true true a b c)
  | 0x210 => resOf (fmul t o rm sat a b)
  | 0x211 => resOf (fmaCore t o o rm sat false false true a b c)
  | 0x300 => { bits := (a + b) % 2 ^ w }
  | 0x301 => { bits := (a + 2 ^ w - b % 2 ^ w) % 2 ^ w }
  | 0x302 => { bits := a * b % 2 ^ w }
  | 0x303 => { bits := ofSigned (2 * w) (x * y) / 2 ^ w }
  | 0x304 => { bits := intBits o (x * y) }
  | 0x305 => { bits := if x ≤ y then a else b }
  | 0x306 => { bits := if x ≤ y then b else a }
  | 0x307 => { bits := intBits t (x.natAbs : Int) }
  | 0x308 => { bits := intBits t (-x) }
  | 0x400 => satRes t (x + y)
  | 0x401 => satRes t (x - y)
  | 0x402 => satRes t (x.natAbs : Int)
  | 0x403 => satRes t (-x)
  | 0x404 => satRes o x
  | 0x405 => { bits := intBits t (shiftRound rm x imm) }
  | 0x406 => satRes t (shiftRound rm (x * y) imm)
  | 0x500 => { bits := a &&& b }
  | 0x501 => { bits := a ||| b }
  | 0x502 => { bits := a ^^^ b }
  | 0x503 => { bits := a &&& (2 ^ w - 1 - b % 2 ^ w) }
  | 0x504 => { bits := 2 ^ w - 1 - a % 2 ^ w }
  | 0x508 => { bits := a * 2 ^ (b % w) % 2 ^ w }
  | 0x509 => { bits := a % 2 ^ w / 2 ^ (b % w) }
  | 0x50A => { bits := intBits t (toSigned w a / ((2 ^ (b % w) : Nat) : Int)) }
  | 0x510 => if t.isFP then let (r, f) := fcmp t imm a b; { bits := b2n r, flags := f } else { bits := b2n (icmp imm x y) }
  | 0x518 => { bits := a &&& b }
  | 0x519 => { bits := a ||| b }
  | 0x51A => { bits := a ^^^ b }
  | 0x51B => { bits := a &&& (1 - b % 2) }
  | 0x51C => { bits := 1 - a % 2 }
  | 0x800 => resOf (fdiv t rm a b)
  | 0x801 => resOf (fsqrt t rm a)
  | 0x802 => resOf (frecpe t a)
  | 0x803 => resOf (frsqrte t a)
  | 0x810 => if y = 0 then { bits := 0, flags := fDZ } else { bits := intBits t (x.tdiv y) }
  | 0x811 => if y = 0 then { bits := a, flags := fDZ } else { bits := intBits t (x - y * x.tdiv y) }
  | 0x908 => { bits := decBits x }
  | 0xA00 => { bits := i % 2 ^ o.bits }
  | 0xA01 => { bits := i % 2 ^ imm % 2 ^ o.bits }
  | 0xA02 => { bits := if c % 2 = 1 then a else b }
  | _ =>
    if op / 256 = 9 then
      let two := op = 0x900 ∨ op = 0x901 ∨ op = 0x902 ∨ op = 0x905
      match decOf a, (if two then decOf b else some 0) with
      | some x, some y => decOp op imm rm x y o
      | _, _ => { bits := 0, badDec := true }
    else { bits := 0 }

/-- +0 of a type: for DEC128 31 zero digits with sign 0xC (R115, R116). -/
def zeroBits (t : EType) : Nat := if t = .dec128 then 0xc else 0

end Sys2Proof.Machine
end

