-- ==== Sys2Proof/Machine/Descriptor.lean ====
section
/-! DEFINITION. The chain descriptor: its fields, the checks of R110 and R316, the division among slices,
the element group and the rate of a chain (R92 to R134). -/
namespace Sys2Proof.Machine
open Reg

/-! Fields (R94 to R108). A descriptor is its 48 words. -/

/-- Word `k` of a descriptor. -/
def dWord (d : List Nat) (k : Nat) : Nat := d.getD k 0

def dCtx (d : List Nat) : Nat := bitsOf (dWord d 0) 55 48
def dHome (d : List Nat) : Nat := bitsOf (dWord d 0) 47 40
def dNnode (d : List Nat) : Nat := bitsOf (dWord d 0) 35 32
def dRmode (d : List Nat) : Nat := bitsOf (dWord d 0) 27 25
def dSerial (d : List Nat) : Bool := bitOf (dWord d 0) 18
def dVerify (d : List Nat) : Bool := bitOf (dWord d 0) 17
def dRelax (d : List Nat) : Bool := bitOf (dWord d 0) 16
def dFormat (d : List Nat) : Nat := bitsOf (dWord d 0) 15 12
def dCount (d : List Nat) : Nat := bitsOf (dWord d 1) 47 0
def dTag (d : List Nat) : Nat := dWord d 2
def dStart (d : List Nat) : Nat := bitsOf (dWord d 3) 47 0

/-- The flags whose traps H0 enables (R94), as flag bits. -/
def dTraps (d : List Nat) : Nat :=
  let b := fun i f => if bitOf (dWord d 0) i then f else 0
  b 20 fNV + b 21 fDZ + b 22 fOF + b 23 fUF + b 24 fNX

/-- Slot kinds (R103). -/
abbrev kStrided : Nat := 1
abbrev kIndexed : Nat := 2
abbrev kScratch : Nat := 3
abbrev kLoft : Nat := 4
abbrev kIota : Nat := 5
abbrev kMask : Nat := 6

/-- A stream slot (R100). -/
structure SlotD where
  kspec : Nat
  src : Nat
  msrc : Nat
  idx : Nat
  scale : Nat
  mzero : Bool
  etype : Nat
  resv : Nat
  dir : Nat
  kind : Nat
  base : Nat
  deriving DecidableEq, Repr

def slotD (d : List Nat) (k : Nat) : SlotD :=
  let w := dWord d (4 + 2 * k)
  { kspec := bitsOf w 63 32, src := bitsOf w 31 26, msrc := bitsOf w 25 20, idx := bitsOf w 19 16, scale := bitsOf w 15 13
    mzero := bitOf w 12, etype := bitsOf w 11 8, resv := bitsOf w 7 4, dir := bitsOf w 3 3, kind := bitsOf w 2 0
    base := dWord d (5 + 2 * k) }

/-- A node word (R107). -/
structure NodeD where
  resv : Nat
  imm : Nat
  rmode : Nat
  otype : Nat
  itype : Nat
  msrc : Nat
  c : Nat
  b : Nat
  a : Nat
  op : Nat
  deriving DecidableEq, Repr

/-- The node that a word encodes. -/
def nodeOfWord (w : Nat) : NodeD :=
  { resv := bitsOf w 63 56 + bitsOf w 47 47, imm := bitsOf w 55 48, rmode := bitsOf w 46 44, otype := bitsOf w 43 40
    itype := bitsOf w 39 36, msrc := bitsOf w 35 30, c := bitsOf w 29 24, b := bitsOf w 23 18, a := bitsOf w 17 12, op := bitsOf w 11 0 }

def nodeD (d : List Nat) (n : Nat) : NodeD := nodeOfWord (dWord d (28 + n))

def NodeD.it (n : NodeD) : EType := (etypeOf n.itype).getD .fp64
def NodeD.ot (n : NodeD) : EType := (etypeOf n.otype).getD .fp64
def SlotD.et (s : SlotD) : EType := (etypeOf s.etype).getD .fp64
def SlotD.used (s : SlotD) : Bool := s.kind != 0
def SlotD.input (s : SlotD) : Bool := s.used && s.dir == 0
def SlotD.output (s : SlotD) : Bool := s.used && s.dir == 1

/-- Slots that read or write through addresses translated in CTX. -/
def SlotD.streamed (s : SlotD) : Bool := s.kind == kStrided || s.kind == kIndexed || s.kind == kMask

/-- Bits of an element of a slot. -/
def SlotD.bits (s : SlotD) : Nat := if s.kind = kMask then 1 else s.et.bits

/-- The signed 32-bit stride or step. -/
def SlotD.stride (s : SlotD) : Int := toSigned 32 s.kspec

/-- Source values (R102). -/
def srcNone : Nat := 0x3f
def srcNode (x : Nat) : Bool := x < 12
def srcSlot (x : Nat) : Bool := 0x10 ≤ x && x ≤ 0x1b
def srcConst (x : Nat) : Bool := 0x20 ≤ x && x ≤ 0x27
def srcListed (x : Nat) : Bool := srcNode x || srcSlot x || srcConst x || x == srcNone

/-- The value of constant `c` for an operand of `bits` bits (R108). -/
def constBits (d : List Nat) (c bits : Nat) : Nat := (dWord d (40 + c) + dWord d (41 + c) * 2 ^ 64) % 2 ^ bits

/-- The rounding mode of a node (R95). -/
def nodeRm (d : List Nat) (n : NodeD) : RMode := (rmodeOf (if n.rmode = 7 then dRmode d else n.rmode)).getD .rne

/-- Node numbers that take part. -/
def nodesOf (d : List Nat) : List Nat := List.range (min 12 (dNnode d))

/-- Used slots, by number. -/
def slotsOf (d : List Nat) : List Nat := (List.range 12).filter (fun k => (slotD d k).used)
def inputsOf (d : List Nat) : List Nat := (List.range 12).filter (fun k => (slotD d k).input)
def outputsOf (d : List Nat) : List Nat := (List.range 12).filter (fun k => (slotD d k).output)

/-- The output slot writes a reduction's value (R109). -/
def SlotD.reduces (d : List Nat) (s : SlotD) : Bool := s.output && srcNode s.src && isReduction (nodeD d s.src).op

/-- The chain is serial (R126). -/
def isSerial (d : List Nat) : Bool :=
  dSerial d || (slotsOf d).any (fun k => (slotD d k).kind == kScratch || (slotD d k).kind == kLoft)
    || (nodesOf d).any (fun n => isGroup7 (nodeD d n).op)

/-- Input slots whose element at an index is not read there: A of an EXPAND node (R173). -/
def expandSlots (d : List Nat) : List Nat :=
  (nodesOf d).filterMap (fun n => if (nodeD d n).op = 0x701 ∧ srcSlot (nodeD d n).a then some ((nodeD d n).a - 0x10) else none)

/-! The checks of R110. All but order 4 give ST_BAD_PARAM. -/

/-- Order 1: format and reserved bits. -/
def resvOk (d : List Nat) : Bool :=
  dFormat d == 1 && bitsOf (dWord d 0) 63 56 == 0 && bitsOf (dWord d 0) 39 36 == 0 && bitsOf (dWord d 0) 31 28 == 0
    && bitsOf (dWord d 0) 19 19 == 0 && bitsOf (dWord d 1) 63 48 == 0 && bitsOf (dWord d 3) 63 48 == 0
    && (slotsOf d).all (fun k =>
      let s := slotD d k
      s.resv == 0 && (!(s.kind == kIndexed || s.kind == kLoft || s.kind == kMask) || s.kspec == 0)
        && (s.kind == kIndexed || (s.idx == 0 && s.scale == 0)))
    && (nodesOf d).all (fun n => (nodeD d n).resv == 0)

/-- Order 2. -/
def rangeOk (d : List Nat) : Bool := dStart d ≤ dCount d && dNnode d ≤ 12

/-- Order 4. -/
def opsOk (d : List Nat) : Bool := (nodesOf d).all (fun n => (opRow (nodeD d n).op).isSome)

/-- Order 5: listed field values. -/
def valuesOk (d : List Nat) : Bool :=
  dRmode d ≤ 4
    && (slotsOf d).all (fun k => let s := slotD d k; s.kind != 7 && s.etype != 15 && srcListed s.src && srcListed s.msrc)
    && (nodesOf d).all (fun n =>
      let x := nodeD d n
      x.itype != 15 && x.otype != 15 && srcListed x.a && srcListed x.b && srcListed x.c && srcListed x.msrc
        && x.rmode != 5 && x.rmode != 6)

/-- A source names an input slot. -/
def isInputSrc (d : List Nat) (x : Nat) : Bool := srcSlot x && (slotD d (x - 0x10)).input
def isMaskSlot (d : List Nat) (x : Nat) : Bool := isInputSrc d x && (slotD d (x - 0x10)).kind == kMask

/-- A mask source of a slot or node: a MASK input slot, a node of group 0x5 with a mask result below `top`, or NONE. -/
def msrcOk (d : List Nat) (top x : Nat) : Bool :=
  x == srcNone || isMaskSlot d x || (srcNode x && x < top && (nodeD d x).op / 256 == 5 && opMask (nodeD d x).op)

/-- An operand source of node `n` is present or absent as its row says and names what R111 allows. -/
def operandOk (d : List Nat) (n : Nat) (need : Need) (isA : Bool) (x : Nat) : Bool :=
  match need with
  | .no => x == srcNone
  | _ =>
    if x = srcNone then need == .valOpt || need == .u64Opt
    else if srcNode x then
      let o := (nodeD d x).op
      decide (x < n) && !isReduction o && o != 0xB00 && o != 0x700
    else if srcSlot x then isInputSrc d x && (!(expandSlots d).contains (x - 0x10) || (isA && (nodeD d n).op == 0x701))
    else srcConst x && !((nodeD d n).it == .dec128 && x == 0x27 && (need == .val || need == .valOpt))
      && !((nodeD d n).ot == .dec128 && x == 0x27 && need == .valOut)

/-- Times a source value is named in the descriptor. -/
def namedCount (d : List Nat) (x : Nat) : Nat :=
  ((nodesOf d).map (fun n => let y := nodeD d n; ([y.a, y.b, y.c, y.msrc].filter (· == x)).length)).sum
    + ((slotsOf d).map (fun k => let y := slotD d k; ([y.src, y.msrc].filter (· == x)).length)).sum

/-- Order 6: R111 and R159. -/
def sourcesOk (d : List Nat) : Bool :=
  (nodesOf d).all (fun n =>
    let x := nodeD d n
    match opRow x.op with
    | none => false
    | some r =>
      operandOk d n r.a true x.a && operandOk d n r.b false x.b && operandOk d n r.c false x.c && msrcOk d n x.msrc
        && (x.op != 0x701 || (srcSlot x.a && namedCount d x.a == 1)))
  && (slotsOf d).all (fun k =>
    let s := slotD d k
    if s.dir = 1 then
      ((srcNode s.src && s.src < dNnode d && (nodeD d s.src).op != 0xB00)
        || (isInputSrc d s.src && !(expandSlots d).contains (s.src - 0x10)))
      && msrcOk d (dNnode d) s.msrc && (s.kind != kMask || s.msrc == srcNone)
    else
      s.src == srcNone && (s.msrc == srcNone || (isMaskSlot d s.msrc && s.kind != kMask))
        && (namedCount d (0x10 + k) ≠ 0 || (slotsOf d).any (fun j => (slotD d j).kind == kIndexed && (slotD d j).idx == k)))
  && (slotsOf d).all (fun k =>
    let s := slotD d k
    s.kind != kIndexed ||
      (let x := slotD d s.idx
       decide (s.idx < 12) && x.input && (x.kind == kStrided || x.kind == kScratch || x.kind == kLoft || x.kind == kIota)))

/-- A source is a mask: a MASK slot, or a node with a mask result. -/
def isMaskSrc (d : List Nat) (x : Nat) : Bool :=
  if srcNode x then opMask (nodeD d x).op else if srcSlot x then (slotD d (x - 0x10)).kind == kMask else false

/-- The element type a value source delivers; `none` for a constant, which takes the operand's (R158). -/
def srcType (d : List Nat) (x : Nat) : Option EType :=
  if srcNode x then some (nodeD d x).ot else if srcSlot x then some (slotD d (x - 0x10)).et else none

/-- A value source has a type that meets a condition. -/
def typeIs (d : List Nat) (x : Nat) (p : EType → Bool) : Bool :=
  !isMaskSrc d x && (match srcType d x with | some t => p t | none => true)

/-- The source of an operand has the type its row needs (R157, R158). -/
def needOk (d : List Nat) (n : NodeD) (need : Need) (x : Nat) : Bool :=
  match need with
  | .no => true
  | .val => typeIs d x (· == n.it)
  | .valOut => typeIs d x (· == n.ot)
  | .valOpt => x == srcNone || typeIs d x (· == n.it)
  | .u64Opt => x == srcNone || typeIs d x (· == .uint64)
  | .anyInt => typeIs d x EType.isInt
  | .int64 => typeIs d x (fun t => t == .int64 || t == .uint64)
  | .mask => isMaskSrc d x

/-- Order 7: R112, R157 and R158. -/
def typesOk (d : List Nat) : Bool :=
  (nodesOf d).all (fun i =>
    let n := nodeD d i
    match opRow n.op with
    | none => false
    | some r =>
      r.types n.it n.ot && r.imm n.it n.imm && needOk d n r.a n.a && needOk d n r.b n.b && needOk d n r.c n.c)
  && (slotsOf d).all (fun k =>
    let s := slotD d k
    (s.kind != kIota || (s.et.isInt && s.dir == 0)) && (s.kind != kMask || s.etype == 0)
      && (s.kind != kIndexed || (slotD d s.idx).et.isInt)
      && (s.dir == 0 ||
        (if isMaskSrc d s.src then s.kind == kMask
         else s.kind != kMask && (match srcType d s.src with | some t => s.et == t | none => false))))

/-- Order 8: spools (R119). -/
def spoolsOk (d : List Nat) : Bool :=
  decide (((inputsOf d).filter (fun k => (slotD d k).streamed)).length ≤ 8)
    && decide (((outputsOf d).filter (fun k => (slotD d k).streamed)).length ≤ 4)

/-- Order 9: addresses and strides (R113), but for the two LOFT conditions that wait for the slice. -/
def addrOk (d : List Nat) : Bool :=
  (slotsOf d).all (fun k =>
    let s := slotD d k
    let e := s.et.size
    match s.kind with
    | 1 => s.base % e == 0 && s.stride % (e : Int) == 0 && (s.dir == 0 || s.stride != 0) && s.base < 2 ^ 57
    | 2 => s.base % e == 0 && s.base < 2 ^ 57
    | 3 => s.base % e == 0 && s.stride % (e : Int) == 0 && (s.dir == 0 || s.stride != 0) && s.base < 2 ^ 22
    | 4 => s.base < 32
    | 6 => s.base < 2 ^ 57
    | _ => true)

/-- Order 10: two nodes name one LACC (R164). -/
def laccsOk (d : List Nat) : Bool :=
  let ls := (nodesOf d).filterMap (fun n => if usesLacc (nodeD d n).op then some ((nodeD d n).imm % 16) else none)
  decide ls.Nodup

/-- The two conditions of R316 on a verified chain. -/
def verifyOk (d : List Nat) : Bool :=
  !dVerify d ||
    (let h8 := ((outputsOf d).map (fun k =>
        let s := slotD d k
        if s.reduces d then 0 else if s.kind = kMask then 1 else 8 * s.et.size + (if s.kind = kIndexed then 64 else 0))).sum
     decide (h8 ≤ 512) && (nodesOf d).all (fun n => (nodeD d n).op / 256 != 0xB))

/-- The status of the checks of R110 on a descriptor, S slices and the context's ENABLE, and of R316; `none` when all pass. -/
def checkDesc (d : List Nat) (slices : Nat) (enabled : Bool) : Option Nat :=
  if !(resvOk d && rangeOk d && enabled) then some ST_BAD_PARAM
  else if !opsOk d then some ST_BAD_OPCODE
  else if valuesOk d && sourcesOk d && typesOk d && spoolsOk d && addrOk d && laccsOk d
      && (!isSerial d || decide (dHome d < slices)) && verifyOk d then none
  else some ST_BAD_PARAM

/-! Division (R124 to R127) and the element group (R130 to R133). -/

/-- The ranges of a chain: logical slice, first and end; empty ones left out. -/
def rangesOf (d : List Nat) (start slices : Nat) : List (Nat × Nat × Nat) :=
  if isSerial d then [(dHome d, start, dCount d)]
  else
    let k := (dCount d - start + 4095) / 4096
    (List.range slices).filterMap (fun s =>
      let a := start + 4096 * (k * s / slices)
      let b := min (dCount d) (start + 4096 * (k * (s + 1) / slices))
      if a < b then some (s, a, b) else none)

/-- Elements of a group: 1,024 bits over the widest element that counts (R130). -/
def groupSize (d : List Nat) : Nat :=
  let ws := (slotsOf d).filterMap (fun k =>
      let s := slotD d k
      if s.kind = kMask || s.reduces d then none else some s.et.bits)
    ++ (nodesOf d).flatMap (fun n =>
      let x := nodeD d n
      if isReduction x.op then [x.it.bits] else [x.it.bits, x.ot.bits])
  let w := ws.foldl max 0
  if w = 0 then 16 else 1024 / w

/-- Pipe instance of a node: 0 to 3 F, 4 I0, 5 X0, 6 P0, 7 A0 (R131). -/
def pipeOf (d : List Nat) (n : Nat) : Nat :=
  let kind : Nat → Option Pipe := fun m => (opRow (nodeD d m).op).map (fun r => r.pipe)
  match kind n with
  | some .f => ((List.range n).filter (fun m => kind m == some Pipe.f)).length % 4
  | some .i0 => 4
  | some .x0 => 5
  | some .p0 => 6
  | some .a0 => 7
  | none => 6

/-- Pipe instance of a node in a pass of a verified window: pass 2 exchanges F0 with F2 and F1 with F3 (R315). -/
def pipeIn (d : List Nat) (pass2 : Bool) (n : Nat) : Nat := if pass2 && pipeOf d n < 4 then pipeOf d n ^^^ 2 else pipeOf d n

/-- The element of a group and the bit of its result that bit `bit` of a lane computes: lanes are 64 bits of the group's 1,024, and
pass 2 of a verified window computes in lane (l + 7) mod 16 what pass 1 computes in lane l (R130, R315). -/
def laneElem (d : List Nat) (pass2 : Bool) (lane bit : Nat) : Nat × Nat :=
  let w := 1024 / groupSize d
  let p := 64 * (if pass2 then (lane + 9) % 16 else lane) + bit
  (p / w, p % w)

/-- SVU clocks per group T (R132). -/
def clocksPerGroup (d : List Nat) : Nat :=
  let load := fun p => ((nodesOf d).map (fun n => if pipeOf d n = p then ((opRow (nodeD d n).op).map (·.clocks)).getD 1 else 0)).sum
  (List.range 8).foldl (fun m p => max m (load p)) 1

/-- Bytes per element of a slot through the crossbar port, in eighths (R133). -/
def bpe8 (s : SlotD) : Nat :=
  match s.kind with
  | 1 =>
    let a := s.stride.natAbs
    if a = 0 then 0 else if a = s.et.size then 8 * a else 8 * min a 64
  | 2 => 512
  | 6 => 1
  | _ => 0

/-- B_in, B_out and B_sp of R133, in eighths of a byte. -/
def bIn8 (d : List Nat) : Nat := groupSize d * ((inputsOf d).map (fun k => bpe8 (slotD d k))).sum
def bOut8 (d : List Nat) : Nat :=
  groupSize d * ((outputsOf d).map (fun k => if (slotD d k).reduces d then 0 else bpe8 (slotD d k))).sum
def bSp8 (d : List Nat) : Nat :=
  groupSize d * ((slotsOf d).map (fun k => if (slotD d k).kind = kScratch then 8 * (slotD d k).et.size else 0)).sum

/-- The rate bound r of R133 in groups per SVU clock, without the halving of a verified chain. -/
def rateOf (d : List Nat) : Rat :=
  let t : Rat := 1 / (clocksPerGroup d : Rat)
  let lim := fun (x : Rat) (num b8 : Nat) => if b8 = 0 then x else min x ((8 * num : Nat) / (b8 : Rat))
  lim (lim (lim t 160 (bIn8 d)) 160 (bOut8 d)) 256 (bSp8 d)

/-- The factors a and b of R534 at an envelope level. -/
def levelFactors : Nat → Rat × Rat
  | 0 => (1, 1)
  | 1 => (7 / 10, 8 / 10)
  | 2 => (45 / 100, 6 / 10)
  | _ => (25 / 100, 4 / 10)

/-- The lift of R534 for the pipe instances in use and m. -/
def liftOf (used : Nat → Bool) (m : Rat) (level : Nat) : Rat :=
  let u := fun p => if used p then (1 : Rat) else 0
  let (a, b) := levelFactors level
  (129 / 100 + 108 / 100 * (u 0 + u 1 + u 2 + u 3) + 43 / 100 * u 4 + 54 / 100 * u 5 + 32 / 100 * u 6 + 65 / 100 * u 7) * a
    + 43 / 1000 * min m 160 * b

/-- The lift of one slice in W at an envelope level (R534). -/
def sliceLift (d : List Nat) (level : Nat) : Rat :=
  liftOf (fun p => (nodesOf d).any (fun n => pipeOf d n == p)) (rateOf d * ((bIn8 d + bOut8 d : Nat) : Rat) / 8) level

/-! Addresses (R103 to R105). -/

/-- Byte address or offset of element `i` of a slot, and its bit there; `x` is the index element of an INDEXED slot. -/
def elemAddr (s : SlotD) (i : Nat) (x : Int) : Int × Nat :=
  match s.kind with
  | 1 => ((s.base : Int) + (i : Int) * s.stride, 0)
  | 2 => ((s.base : Int) + x * ((2 ^ s.scale : Nat) : Int), 0)
  | 3 => ((s.base : Int) + (i : Int) * s.stride, 0)
  | 6 => ((s.base : Int) + ((i / 8 : Nat) : Int), i % 8)
  | _ => (0, 0)

/-- A range or alignment failure of an address (R104, R105). -/
def addrCause (s : SlotD) (k : Nat) (a : Int) : Option StopCause :=
  if s.kind = kScratch then
    if a < 0 ∨ ((2 ^ 22 : Nat) : Int) ≤ a then some { status := ST_PROTECTION, slot := k } else none
  else if a < 0 ∨ ((2 ^ 57 : Nat) : Int) ≤ a then
    some { status := ST_XLAT_FAULT, slot := k, va := ofSigned 57 a, cause := 1 }
  else if s.kind = kIndexed ∧ a % (s.et.size : Int) ≠ 0 then some { status := ST_BAD_PARAM, slot := k, va := a.toNat }
  else none

/-- The value IOTA gives at an index (R103). -/
def iotaBits (s : SlotD) (i : Nat) : Nat := ofSigned s.et.bits ((s.base : Int) + (i : Int) * s.stride)

end Sys2Proof.Machine
end

