-- ==== Sys2Proof/Machine/FabricLink.lean ====
section
/-! DEFINITION. Jusen messages and flits as bytes, and the sending side of a port: routes, virtual channels,
credits and the replay buffer (R491 to R505). -/
namespace Sys2Proof.Machine
open Reg

/-- One step of the CRC of R317: a byte, most significant bit first. -/
def crcByte (c : Nat) (b : Byte) : Nat :=
  (List.range 8).foldl
    (fun x _ => if 2 ^ 63 ≤ x then (2 * x % 2 ^ 64) ^^^ 0x42F0E1EBA9EA3693 else 2 * x)
    (c ^^^ (b.toNat * 2 ^ 56))

/-- CRC-64 under the parameters of R317, from a running value. -/
def crc64From (c : Nat) (bs : List Byte) : Nat := bs.foldl crcByte c

/-- CRC-64 of a byte string (R317, R491). -/
def crc64 (bs : List Byte) : Nat := crc64From (2 ^ 64 - 1) bs

/-! Message types (R495). -/

abbrev tRdReq : Nat := 0
abbrev tWrReq : Nat := 1
abbrev tAtomReq : Nat := 2
abbrev tRdResp : Nat := 3
abbrev tWrAck : Nat := 4
abbrev tAtomResp : Nat := 5
abbrev tMsg : Nat := 6
abbrev tMsgAck : Nat := 7
abbrev tTime : Nat := 8
abbrev tResetNotice : Nat := 9
abbrev tPad : Nat := 15

/-- The virtual channel of a message type (R495). -/
def vcOf (typ : Nat) : Nat :=
  if typ ≤ 2 then 0 else if typ ≤ 5 ∨ typ = 7 then 1 else if typ = 6 then 2 else 3

/-- The data bytes that follow a header of a type and LEN (R495). -/
def dataLen (typ len : Nat) : Nat := if typ = tRdReq then 0 else len

/-- LEN lies in its type's row (R495). -/
def lenOk (typ len : Nat) : Bool :=
  match typ with
  | 0 => 1 ≤ len && len ≤ 256
  | 1 => 1 ≤ len && len ≤ 256
  | 2 => len == 24
  | 3 => len ≤ 256
  | 4 => len == 0
  | 5 => len == 8 || len == 0
  | 6 => 1 ≤ len && len ≤ 256
  | 7 => len == 0
  | 8 => len == 16
  | 9 => len == 8
  | _ => false

/-- Word 0 of a header (R495). -/
def FMsg.word0 (m : FMsg) : Nat :=
  m.dst * 2 ^ 54 + m.src * 2 ^ 44 + m.typ * 2 ^ 40 + m.hops * 2 ^ 36 + m.len * 2 ^ 27 + m.tag * 2 ^ 8 + m.status

/-- Word 1 of a header (R495). -/
def FMsg.word1 (m : FMsg) : Nat :=
  b2n m.poison * 2 ^ 63 + b2n m.last * 2 ^ 62 + m.pool * 2 ^ 50 + m.offset % 2 ^ 42

/-- The bytes of a message: its header, and its data padded to a multiple of 8 (R495). -/
def FMsg.bytes (m : FMsg) : List Byte :=
  leBytes 8 m.word0 ++ leBytes 8 m.word1 ++ m.data ++ List.replicate ((8 - m.data.length % 8) % 8) 0

/-- A header read from 16 bytes. -/
def msgOfHeader (bs : List Byte) : FMsg :=
  let w := leNat (bs.take 8)
  let v := leNat ((bs.drop 8).take 8)
  { dst := bitsOf w 63 54, src := bitsOf w 53 44, typ := bitsOf w 43 40, hops := bitsOf w 39 36, len := bitsOf w 35 27
    tag := bitsOf w 23 8, status := bitsOf w 7 0, poison := bitOf v 63, last := bitOf v 62, pool := bitsOf v 55 50
    offset := bitsOf v 41 0 }

/-- Transport bytes filled up to 240 with a PAD header (R495). -/
def padFlit (bs : List Byte) : List Byte :=
  let room := 240 - bs.length
  bs ++ (if 8 ≤ room then leBytes 8 (tPad * 2 ^ 40) ++ List.replicate (room - 8) 0 else List.replicate room 0)

/-- The bodies of the flits that carry a message, the last one padded; a message takes at most two. -/
def flitBodies (m : FMsg) (kind src : Nat) (tag : Option Nat) : List TxFlit :=
  let bs := m.bytes
  let vc := vcOf m.typ
  if bs.length ≤ 240 then [{ vc := vc, kind := kind, src := src, bytes := padFlit bs, more := false, tag := tag }]
  else [{ vc := vc, kind := kind, src := src, bytes := bs.take 240, more := true, tag := tag },
        { vc := vc, kind := kind, src := src, bytes := padFlit (bs.drop 240), more := false, tag := tag }]

/-- The 256 bytes of a flit (R491). -/
def flitBytes (kind seq ack cvc credits vc : Nat) (body : List Byte) : List Byte :=
  let h := leBytes 8 (kind * 2 ^ 60 + seq % 4096 * 2 ^ 48 + ack % 4096 * 2 ^ 36 + cvc * 2 ^ 34 + credits * 2 ^ 24 + vc * 2 ^ 22)
  h ++ body ++ leBytes 8 (crc64 (h ++ body))

/-! Ports. -/

def State.portState (s : State) (p : Nat) : Nat := s.rd (JP_STAT_STATE p)
def State.portUp (s : State) (p : Nat) : Bool := s.portState p == 2

/-- A flit leaves: as it is, or as the payload of a transport frame in Ethernet mode (R519). -/
def State.putFlit (s : State) (p : Nat) (bs : List Byte) : State :=
  if s.on (JP_CFG_MODE p) then
    let be := fun (k n : Nat) => (leBytes k n).reverse
    s.emit (.frame p (be 6 (s.rd (JP_ETH_PEER_ADDR p)) ++ be 6 (s.rd (JP_ETH_MAC_ADDR p)) ++ be 2 0x8100
      ++ be 2 (s.rd (JP_ETH_CFG_PRIO p) * 2 ^ 13) ++ be 2 (s.rd (JP_ETH_CFG_ETYPE p)) ++ bs))
  else s.emit (.flit p bs)

/-- SEQ of the last flit received in order. -/
def PortState.ack (x : PortState) : Nat := (x.rxNext + 4095) % 4096

/-- An IDLE flit that carries ACK and credits (R491, R494). -/
def State.sendIdle (s : State) (p cvc n : Nat) : State :=
  s.putFlit p (flitBytes 0 0 (s.port p).ack cvc n 0 (List.replicate 240 0))

/-- A NAK flit (R492). -/
def State.sendNak (s : State) (p : Nat) : State :=
  s.putFlit p (flitBytes 2 0 (s.port p).ack 0 0 0 (List.replicate 240 0))

/-- A flit kept in the replay buffer is sent, or sent again (R492). -/
def State.sendSeq (s : State) (p seq : Nat) (f : TxFlit) : State :=
  s.putFlit p (flitBytes f.kind seq (s.port p).ack 0 0 f.vc f.bytes)

/-- The next source, round-robin in ascending order after `last`, among those that keep flits of a channel waiting (R501). -/
def nextSource (l : List Nat) (last : Nat) : Option Nat :=
  match leastWith (fun x => last < x) l with
  | some x => some x
  | none => leastWith (fun _ => true) l

/-- The place in the queue of the flit that virtual channel `v` sends next, when it has one and a credit. -/
def PortState.pickIn (x : PortState) (v : Nat) : Option Nat :=
  if x.credits.getD v 0 = 0 then none
  else
    let waiting := x.txq.filter (fun f : TxFlit => f.vc == v)
    let src := match x.cont.getD v none with
      | some c => some c
      | none => nextSource (waiting.map (fun f : TxFlit => f.src)) (x.rr.getD v 0)
    match src with
    | none => none
    | some c => findPlace (fun f : TxFlit => f.vc == v && f.src == c) x.txq

/-- The flit a port sends next: VC3, then VC1, then VC0 and VC2 in alternation (R501). -/
def PortState.pick (x : PortState) : Option Nat :=
  let a := if x.alt then x.pickIn 2 else x.pickIn 0
  let b := if x.alt then x.pickIn 0 else x.pickIn 2
  (((x.pickIn 3).orElse (fun _ => x.pickIn 1)).orElse (fun _ => a)).orElse (fun _ => b)

/-- Waiting flits of a port leave while it is UP, holds credits and has replay room (R492, R494, R501). -/
def State.flushPort (s : State) (p : Nat) : Nat → State
  | 0 => s
  | n + 1 =>
    let x := s.port p
    if !s.portUp p || x.draining.isSome || 2048 ≤ x.replay.length then s
    else
      match x.pick with
      | none => s
      | some i =>
        match x.txq[i]? with
        | none => s
        | some f =>
          let seq := x.seqNext
          let s := s.setPort p { x with
            txq := x.txq.eraseIdx i
            replay := x.replay ++ [(seq, f)]
            seqNext := (seq + 1) % 4096
            credits := listSet x.credits f.vc (x.credits.getD f.vc 0 - 1)
            rr := listSet x.rr f.vc f.src
            cont := listSet x.cont f.vc (if f.more then some f.src else none)
            alt := if f.vc = 0 then true else if f.vc = 2 then false else x.alt }
          (s.sendSeq p seq f).flushPort p n

/-- Every waiting flit of a port that can leave does. -/
def State.flush (s : State) (p : Nat) : State := s.flushPort p (s.port p).txq.length

/-! Routes (R497). -/

/-- The ports of a route set that are UP or RETRAIN, in ascending number. -/
def State.liveSet (s : State) (ports : Nat) : List Nat :=
  (setBits 16 ports).filter (fun p => s.portState p == 2 || s.portState p == 3)

/-- The route set in use for a node: the primary one, or the alternate while the primary has no live port. -/
def State.routeSet (s : State) (dst : Nat) : List Nat :=
  let pri := s.liveSet (s.rd (JFAB_ROUTE_PRI_PORTS dst))
  if pri.isEmpty then s.liveSet (s.rd (JFAB_ROUTE_ALT_PORTS dst)) else pri

/-- The port a message goes on: destination, source, and the granule number of R497. -/
def State.routePort (s : State) (dst src g : Nat) : Option Nat :=
  let set := s.routeSet dst
  if set.isEmpty || !s.on (JFAB_ROUTE_PRI_VALID dst) then none else set[(src + g) % set.length]?

/-- The granule number that routes a message: OFFSET[41:8] for requests and their responses, 0 otherwise. -/
def routeG (typ offset : Nat) : Nat := if vcOf typ ≤ 1 ∧ typ ≠ tMsgAck then bitsOf offset 41 8 else 0

/-- A message queued at a port and sent when it can be. A module that is not READY answers in NOT_READY flits (R512). -/
def State.queueMsg (s : State) (p : Nat) (m : FMsg) (src : Nat) (tag : Option Nat) : State :=
  let kind := if s.isReady || m.status ≠ ST_NOT_READY then 1 else 3
  let x := s.port p
  (s.setPort p { x with txq := x.txq ++ flitBodies m kind src tag }).flush p

/-- A message of this module sent by its route, with HOPS set to HOPLIM; `none` when no route exists (R497, R498). -/
def State.sendOwn (s : State) (m : FMsg) (g : Nat) (tag : Option Nat) : Option (State × Nat) :=
  match s.routePort m.dst m.src g with
  | none => none
  | some p => some (s.queueMsg p { m with hops := s.rd (JFAB_ROUTE_PRI_HOPLIM m.dst) } 16 tag, p)

/-- A response sent; one without a route is discarded (R498). -/
def State.respond (s : State) (m : FMsg) (g : Nat) : State :=
  match s.sendOwn m g none with
  | some (s, _) => s
  | none => s

end Sys2Proof.Machine
end

