-- ==== Sys2Proof/Machine/Deliver.lean ====
section
/-! DEFINITION. What a completed storage access does at the agent that asked for it, and the requests this
module has outstanding on the fabric (R503, R506 to R509). Nothing here writes a fault record. -/
namespace Sys2Proof.Machine
open Reg

/-- The outcome of a storage access. `bad` lists the first bytes of ECC words that were poison, `made` those that the
access itself poisoned (R59). -/
inductive Reply where
  | data (bytes : List Byte) (bad made : List Nat)
  | done
  | old (v : Nat)
  | fail (status : Nat)
  deriving DecidableEq, Repr

/-- Where the elements of a slice stand that count as computed: those of a verified one by windows released (R225, R318). -/
def Slice.reached (l : Slice) : Nat := if l.verify then l.base else l.next

/-- The order of causes that accesses of one element meet after it is computed: nodes ascending, then output slots ascending (R271). -/
def StopCause.rank (x : StopCause) : Nat := if x.node < 12 then x.node else 16 + x.slot

/-- The stop at an element takes the place of an earlier one that is higher, or that comes later in the order of causes there. -/
def stopFirst (old : Option (Nat × StopCause)) (elem : Nat) (x : StopCause) : Option (Nat × StopCause) :=
  match old with
  | some (e, y) => if elem < e ∨ (elem = e ∧ x.rank < y.rank) then some (elem, x) else old
  | none => some (elem, x)

/-- The chain stops at an element, when no lower element stops it (R129, R271). -/
def Chain.addStop (c : Chain) (elem : Nat) (x : StopCause) : Chain := { c with stop := stopFirst c.stop elem x }

/-- A slice stops at an element, when it does not already stop lower. -/
def Slice.addStop (l : Slice) (elem : Nat) (x : StopCause) : Slice := { l with stop := stopFirst l.stop elem x }

/-- First bytes of the ECC words that hold bits of an element. -/
def eccWordsOf (ga bitPos bits : Nat) : List Nat :=
  let a := ga + bitPos / 8
  let z := ga + (bitPos + bits - 1) / 8
  let w := eccBytes (gaOff a)
  (List.range ((z / w - a / w) + 1)).map (fun k => (a / w + k) * w)

/-- Input elements reach a spool: their bits, or the cause they met, reported when they are used (R61, R121). -/
def spoolElems (slot ga va : Nat) (elems : List (Nat × Nat × Nat)) (r : Reply) : List InElem :=
  elems.map (fun e =>
    let ws := eccWordsOf ga e.2.1 e.2.2
    let at' := if va = noGa then 0 else va + e.2.1 / 8
    match r with
    | .data bs bad made =>
      if ws.any (fun w => bad.contains (gaOff w)) then
        let made := ws.any (fun w => made.contains (gaOff w))
        { slot := slot, elem := e.1, word := ws.headD 0, made := made
          fail := some { status := ST_POISON, slot := slot, va := at', ga := ws.headD 0, made := made } }
      else { slot := slot, elem := e.1, bits := leNat bs / 2 ^ e.2.1 % 2 ^ e.2.2, word := ws.headD 0 }
    | .fail st => { slot := slot, elem := e.1, word := ws.headD 0, fail := some { status := st, slot := slot, va := at', ga := ws.headD 0 } }
    | _ => { slot := slot, elem := e.1, word := ws.headD 0 })

/-- The order of causes at one element: a lower output slot's first (R271). -/
def Contrib.first (x y : Contrib) : Bool := decide (x.elem < y.elem) || (x.elem == y.elem && decide (x.slot < y.slot))

/-- Two contributions are one, whatever their performance said of them. -/
def Contrib.same (x y : Contrib) : Bool := { x with hid := 0, whole := false } == { y with hid := 0, whole := false }

/-- The writes of a chain are performed, or stop it at the lowest element they carry. -/
def Chain.writesDone (c : Chain) (cs : List Contrib) (r : Reply) : Chain :=
  let c := { c with flying := c.flying.filter (fun x => !cs.any x.same) }
  match r with
  | .fail st =>
    match cs.foldl (fun m x => match m with
        | Option.none => some x
        | some y => if x.first y then some x else some y) (Option.none : Option Contrib) with
    | some x => c.addStop x.elem { status := st, slot := x.slot, va := x.va, ga := gaOf x.node x.word }
    | Option.none => c
  | _ => { c with wrote := c.wrote ++ cs }

/-- A piece of a write after the last element ends; of failures the one first in the order of R680 stays, and of pieces of one write the
first met. -/
def Chain.endPiece (c : Chain) (place va ga : Nat) (r : Reply) : Chain :=
  let c := { c with redLeft := c.redLeft.filter (· != place) }
  match r with
  | .fail st =>
    let x : StopCause := { status := st, va := va, ga := ga, place := place }
    match c.xstop with
    | some y => if place < y.place then { c with xstop := some x } else c
    | Option.none => { c with xstop := some x }
  | _ => c

/-- The outcome of an SP_SWAP or SP_ADD reaches its element; the value that an SP_SWAP returned is what undoes it, and one that failed
is not performed and leaves nothing to undo (R186, R679). -/
def Chain.atomDone (c : Chain) (lsl elem node va ga : Nat) (r : Reply) : Chain :=
  let c := { c with atomFlying := c.atomFlying.filter (fun a => !(a.1 == elem && a.2.1 == node)) }
  let waits := fun l : Slice => l.atomWait == some (elem, node, 1)
  let mine := fun u : UndoRec => u.elem == elem && u.node == node
  match r with
  | .old v =>
    let c := { c with atoms := c.atoms.map (fun u => if mine u && decide (2 ≤ u.op) then { u with v := v } else u) }
    c.updSlice lsl (fun l =>
      if waits l then { l with atomRes := tabPut l.atomRes (elem * 16 + node) v, atomWait := Option.none } else l)
  | .fail st =>
    let cause : StopCause := { status := st, node := node, va := va, ga := ga }
    let c := { c with atoms := c.atoms.filter (fun u => !mine u) }
    (c.updSlice lsl (fun l =>
      let l := if waits l then { l with atomWait := Option.none } else l
      l.addStop elem cause)).addStop elem cause
  | _ => c

/-- Every SVU's journal without the additions that meet a condition. -/
def State.dropAdds (s : State) (p : AddRec → Bool) : State :=
  { s with svus := s.svus.map (fun x : Nat × SvuState => (x.1, { x.2 with adds := x.2.adds.filter (fun a => !p a) })) }


/-- STATUS of a response to a fabric peer, its data and its POISON bit. -/
def responseOf (r : Reply) : Nat × List Byte × Bool :=
  match r with
  | .data bs bad _ => (ST_OK, bs, !bad.isEmpty)
  | .done => (ST_OK, [], false)
  | .old v => (ST_OK, leBytes 8 v, false)
  | .fail st => (st, [], false)

/-- An outcome as it is kept for an agent. -/
def Reply.kept (r : Reply) : Answer :=
  match r with
  | .data bs bad made => { status := ST_OK, bytes := bs, bad := bad, made := made }
  | _ => { status := (responseOf r).1, bytes := (responseOf r).2.1 }

/-- The answer to a peer's request whose parts have all ended: the first status in their order that is not ST_OK, or their data. -/
def PeerReq.answer (x : PeerReq) (node : Nat) : FMsg :=
  let rs := (x.got.mergeSort (fun a b => decide (a.1 ≤ b.1))).map (fun a => a.2)
  let st := ((rs.find? (fun a => a.1 != ST_OK)).map (fun a => a.1)).getD ST_OK
  let bs := if st = ST_OK then rs.flatMap (fun a => a.2.1) else []
  { dst := x.node, src := node, typ := x.typ, len := bs.length, tag := x.tag, status := st, offset := x.offset, data := bs
    poison := st == ST_OK && rs.any (fun a => a.2.2) }

/-- The outcome of a storage access reaches the agent that asked for it. -/
def State.deliver (s : State) (k : Sink) (r : Reply) : State :=
  match k with
  | .spool id lsl slot ga va elems =>
    s.updChain id (fun c => c.updSlice lsl (fun l => { l with
      inp := l.inp ++ (spoolElems slot ga va elems r).filter (fun x => l.asked.contains (x.slot, x.elem))
      asked := l.asked.filter (fun a => !(a.1 == slot && elems.any (fun e => e.1 == a.2))) }))
  | .chainWrite id cs => s.updChain id (fun c => c.writesDone cs r)
  | .chainEnd id place va ga => s.updChain id (fun c => c.endPiece place va ga r)
  | .remote node tag typ offset =>
    let (st, bs, poison) := responseOf r
    s.respond { dst := node, src := s.node, typ := typ, len := bs.length, tag := tag, status := st, poison := poison
                offset := offset, data := bs } (bitsOf offset 41 8)
  | .peer id place =>
    let got := (place, responseOf r)
    let l := s.peers.map (fun x => if x.id = id then { x with got := x.got ++ [got] } else x)
    match l.find? (fun x => x.id == id && x.got.length == x.parts) with
    | none => { s with peers := l }
    | some x => ({ s with peers := l.filter (fun y => y.id != id) } : State).respond (x.answer s.node) (bitsOf x.offset 41 8)
  | .buffer id =>
    { s with rbuf := s.rbuf.map (fun b => if b.id = id then { b with res := some r.kept } else b) }
  | .store core id =>
    let x := s.coreSt core
    let e := x.stores.find? (fun e => e.id == id)
    let s := s.setCore core { x with stores := x.stores.filter (fun e => e.id != id) }
    match r, e with
    | .fail st, some e =>
      let y := s.task core e.task
      s.setTask core e.task { y with trap := y.trap.orElse (fun _ => some { cause := 9, status := st, info := e.ga }) }
    | _, _ => s
  | .txGo =>
    let (st, _, _) := responseOf r
    ((s.wr JFAB_TX_STAT_DONE 1).wr JFAB_TX_STAT_BUSY 0).wr JFAB_TX_STAT_STATUS st
  | .pin core n line =>
    match r with
    | .data bs [] _ =>
      if s.rd (CORE_PIN_ADDR core n) = line ∧ s.on (CORE_PIN_VALID core n) then
        (s.setCore core { s.coreSt core with pinned := tabPut (s.coreSt core).pinned n (line, bs) }).wr (CORE_PIN_LOADED core n) 1
      else s
    | _ => s
  | .atom id lsl elem node va ga =>
    let s := match r with
      | .fail _ => s.dropAdds (fun a => a.chain == id && a.elem == elem && a.node == node)
      | _ => s
    s.updChain id (fun c => c.atomDone lsl elem node va ga r)
  | .undo id => s.updChain id (fun c => { c with undoLeft := c.undoLeft - 1 })
  | .none => s

/-! Requests of this module. -/

/-- The first tag from `t` on that no request holds and whose wait is over (R507). -/
def State.freeTag (s : State) : Nat → Nat → Option Nat
  | 0, _ => none
  | n + 1, t =>
    let cooling := match tabFind s.tagCool t with
      | some at' => s.now < at'
      | none => false
    if (tabFind s.freqs t).isSome || cooling then s.freeTag n ((t + 1) % 65536) else some t

/-- The time after which a request without response fails (R507). -/
def State.respTimeout (s : State) : Nat := s.rd JFAB_CFG_RESP_TIMEOUT * 1000000

/-- The request that holds a tag ends with an outcome, and its tag rests for RESP_TIMEOUT (R507). -/
def State.endReq (s : State) (tag : Nat) (r : Reply) : State :=
  match tabFind s.freqs tag with
  | none => s
  | some q =>
    let s := { s with
      freqs := tabDel s.freqs tag
      tagCool := tabPut s.tagCool tag (s.now + s.respTimeout)
      routeOld := s.routeOld.map (fun p : Nat × List Nat => (p.1, p.2.filter (· != tag)))
      routeHeld := s.routeHeld.filter (fun m => m.tag != tag) }
    s.deliver q.sink r

/-- A request whose tag is taken goes out, or fails when no route exists (R498). -/
def State.launch (s : State) (m : FMsg) : State :=
  match s.sendOwn m (routeG m.typ m.offset) (some m.tag) with
  | some (s, p) =>
    match tabFind s.freqs m.tag with
    | some q => { s with freqs := tabPut s.freqs m.tag { q with port := p } }
    | none => s
  | none => s.endReq m.tag (.fail ST_FABRIC_UNREACHABLE)

/-- New requests to a node wait while requests on a changed route are outstanding (R247). -/
def State.routeWaits (s : State) (node : Nat) : Bool := !(tabGet s.routeOld [] node).isEmpty

/-- Requests held by a route change go out once the old route has none left (R247). -/
def State.releaseRoutes (s : State) : State :=
  let go := s.routeHeld.filter (fun m => !s.routeWaits m.dst)
  go.foldl (fun s m => s.launch m) { s with routeHeld := s.routeHeld.filter (fun m => s.routeWaits m.dst) }

/-- Room for one more remote request: 512 per SVU, 65,536 in all (R503). -/
def State.reqRoom (s : State) (svu : Option Nat) : Bool :=
  (match svu with
    | some i => decide ((s.freqs.filter (fun q => q.2.svu == some i)).length < 512)
    | none => true) && decide (s.freqs.length < 65536)

/-- A request posted to another module: `none` when no tag is free and it must wait. -/
def State.post (s : State) (m : FMsg) (svu : Option Nat) (k : Sink) : Option State :=
  if !s.reqRoom svu then none
  else
    match s.freeTag 65536 s.tagNext with
    | none => none
    | some t =>
      let m := { m with src := s.node, tag := t }
      let s := { s with
        tagNext := (t + 1) % 65536
        freqs := tabPut s.freqs t { sent := s.now, node := m.dst, typ := m.typ, offset := m.offset, len := m.len, port := 16, svu := svu
                                    deadline := s.now + s.respTimeout, sink := k } }
      some (if s.routeWaits m.dst then { s with routeHeld := s.routeHeld ++ [m] } else s.launch m)

/-- A remote read, write or atomic of this module (R503). -/
def readMsg (ga len : Nat) : FMsg := { dst := gaNode ga, src := 0, typ := tRdReq, len := len, offset := gaOff ga }
def writeMsg (ga : Nat) (bs : List Byte) (poison : Bool) : FMsg :=
  { dst := gaNode ga, src := 0, typ := tWrReq, len := bs.length, offset := gaOff ga, data := bs, poison := poison }
def atomMsg (ga op v n : Nat) : FMsg :=
  { dst := gaNode ga, src := 0, typ := tAtomReq, len := 24, offset := gaOff ga
    data := leBytes 8 op ++ leBytes 8 v ++ leBytes 8 n }

/-- Every request that meets a condition ends with a status. -/
def State.failReqs (s : State) (p : Nat → FReq → Bool) (status : Nat) : State :=
  ((s.freqs.filter (fun q => p q.1 q.2)).foldl (fun s q => s.endReq q.1 (.fail status)) s).releaseRoutes

/-- A port discards its replay buffer and its held messages, and the module's own requests among them fail (R506). -/
def State.dropLink (s : State) (p : Nat) : State :=
  let x := s.port p
  let tags := (x.txq ++ x.replay.map (·.2)).filterMap (fun f : TxFlit => f.tag)
  let s := s.setPort p { x with
    txq := [], replay := [], seqNext := 0, rxNext := 0, credits := [192, 192, 96, 32], rr := [16, 16, 16, 16]
    cont := [none, none, none, none], partials := [], inbox := [] }
  s.failReqs (fun t _ => tags.contains t) ST_FABRIC_UNREACHABLE

/-- Tags of the requests to a node that have gone out. -/
def State.tagsOut (s : State) (n : Nat) : List Nat :=
  (s.freqs.filter (fun q => q.2.node == n && s.routeHeld.all (fun m => m.tag != q.1))).map (·.1)

/-- The route to a node changes: new requests to it wait for those that have gone out (R247). -/
def State.holdRoute (s : State) (n : Nat) : State :=
  let tags := s.tagsOut n
  if tags.isEmpty then s else { s with routeOld := tabPut s.routeOld n tags }

/-- The state of a port, and what route sets it changes (R247, R497, R502). -/
def State.setPortState (s : State) (p st : Nat) : State :=
  let t := s.wr (JP_STAT_STATE p) st
  ((s.freqs.map (fun q => q.2.node)).dedup.filter (fun n => s.routeSet n != t.routeSet n)).foldl (fun t n => t.holdRoute n) t

/-- A port enters DOWN (R506). -/
def State.portDown (s : State) (p : Nat) : State :=
  let s := s.setPortState p 4
  let s := s.setPort p { s.port p with since := s.now }
  s.dropLink p

/-- A reset of node `n` is learned: its requests end with ST_PEER_RESET (R509). -/
def State.peerReset (s : State) (n : Nat) : State := s.failReqs (fun _ q => q.node == n) ST_PEER_RESET

end Sys2Proof.Machine
end

