-- ==== Sys2Proof/Machine/Faults.lean ====
section
/-! DEFINITION. The fault collector: counting, classes, records, the actions of a class, fencing, and the
ripcord state (R578 to R597). -/
namespace Sys2Proof.Machine
open Reg

/-! First source numbers of the kinds (R578). -/

abbrev srcSpCe : Nat := 0
abbrev srcSpUe : Nat := 24
abbrev srcSpPoison : Nat := 48
abbrev srcLoftCe : Nat := 72
abbrev srcLoftUe : Nat := 96
abbrev srcSpoolParity : Nat := 120
abbrev srcPipeParity : Nat := 144
abbrev srcVerifyMismatch : Nat := 168
abbrev srcVerifyFailed : Nat := 192
abbrev srcSvuBist : Nat := 216
abbrev srcMemCe : Nat := 240
abbrev srcMemUe : Nat := 252
abbrev srcMemPoison : Nat := 264
abbrev srcXbar : Nat := 276
abbrev srcWear : Nat := 288
abbrev srcJpCrc : Nat := 300
abbrev srcJpProto : Nat := 316
abbrev srcJpRetrain : Nat := 332
abbrev srcJpDown : Nat := 348
abbrev srcJpPeer : Nat := 364
abbrev srcDrogue : Nat := 380
abbrev srcHalt : Nat := 406
abbrev srcXlatStop : Nat := 432
abbrev srcRingErr : Nat := 496
abbrev srcMbxDrop : Nat := 560
abbrev srcPll : Nat := 590
abbrev srcSupBist : Nat := 621
abbrev srcSupMismatch : Nat := 623
abbrev srcSupFail : Nat := 624
abbrev srcSupLost : Nat := 625
abbrev srcJfabHops : Nat := 626
abbrev srcJfabTimeout : Nat := 627
abbrev srcPwrStall : Nat := 628
abbrev srcPwrThrottle : Nat := 629
abbrev srcPwrShed : Nat := 630
abbrev srcPwrVin : Nat := 631
abbrev srcClkLost : Nat := 632
abbrev srcRstLate : Nat := 633
abbrev srcBmvBad : Nat := 634
abbrev srcBufMisuse : Nat := 635
abbrev srcAccessRefused : Nat := 636
abbrev srcRegWrite : Nat := 637
abbrev srcMatrixLock : Nat := 638
abbrev srcHifLink : Nat := 639

/-- The words of a record (R580). -/
def FltRec.words (r : FltRec) : List Nat :=
  [r.time % 2 ^ 64,
   r.epoch * 2 ^ 48 + r.source * 2 ^ 38 + r.cls * 2 ^ 36 + b2n r.promoted * 2 ^ 35 + b2n r.escalated * 2 ^ 34
     + b2n r.data * 2 ^ 33 + b2n r.fence * 2 ^ 32 + r.seq,
   r.inst * 2 ^ 56 + r.status * 2 ^ 48 + r.merged * 2 ^ 32 + r.aux % 2 ^ 32,
   r.addr % 2 ^ 64]

/-- The 32 bytes of a record. -/
def FltRec.bytes (r : FltRec) : List Byte := r.words.flatMap (leBytes 8)

/-- An event that a unit reports. `fence` says that the caller's rule fences the unit (R593); `least` is the lowest class
it is recorded at (R579), and `writer` names the requester of R62. -/
structure FaultEv where
  src : Nat
  inst : Nat := 0
  status : Nat := 0
  aux : Nat := 0
  addr : Nat := 0
  fence : Bool := false
  least : Nat := 0
  writer : Option (Nat × Nat) := none
  deriving DecidableEq, Repr

/-- SEQ values compared modulo 2^32 (R589). -/
def seqEarlier (a b : Nat) : Bool :=
  let d := (b + 2 ^ 32 - a) % 2 ^ 32
  1 ≤ d && d < 2 ^ 31

/-- What survives a reset of a channel: its repairs, as the repair record in flash holds them (R81). -/
def Channel.repairs (x : Channel) : Channel :=
  { spareRows := x.spareRows, spareLanes := x.spareLanes, colFaults := x.colFaults, spareCols := x.spareCols, rowShort := x.rowShort
    lacksSpare := x.lacksSpare }

/-! The ripcord state. -/

/-- Every power domain but the always-on one switches off at once: storage and units stop answering. -/
def State.allDomainsOff (s : State) : State :=
  let s := (s.wr PWR_DOMAIN_LO_ON 0).wr PWR_DOMAIN_HI_ON 0
  let s := (List.range 24).foldl (fun s k => (s.wr (CLUS_ARRAY_STATE_LOGIC k) 0).wr (CLUS_ARRAY_STATE_ARRAY k) 0) s
  let s := (List.range 96).foldl (fun s c => if s.chFenced c then s else s.wr (MEMC_STATUS_STATE c) 0) s
  let s := (List.range 16).foldl (fun s p => s.wr (JP_STAT_STATE p) 0) s
  let s := (rangeFrom 1 30).foldl (fun s n => s.setReg (CLK_PLL n) 0) s
  let s := (s.wr ⟨CLK_STAT, 30, 1⟩ 0).wr CLK_STAT_COASTING (b2n (s.clock.coast.contains 0))
  { s with
    clock := { s.clock with coast := s.clock.coast.filter (· == 0) }
    chans := s.chans.map (fun p => (p.1, p.2.repairs)), chains := [], tail := [], svus := [], ports := [], freqs := [], routeOld := []
    routeHeld := [], rbuf := [], walking := [], rxMsgs := [], peers := [], mxc := [], heldReads := [], bmv := []
    tasks := s.tasks.map (fun t => (t.1, { t.2 with st := TaskState.off }))
    host := { s.host with linkUp := false, reads := [], dir := [], snooping := [] } }

/-- The ripcord state (R590). -/
def State.ripcord (s : State) : State :=
  let s := s.allDomainsOff
  let s := (s.wr HIF_LINK_STAT_MODE 0).wr HIF_LINK_STAT_WIDTH 0
  { s with power := { s.power with ripcord := true }, pins := { s.pins with faultN := false } }

/-! Records. -/

/-- The record enters the trouble log, which keeps the latest 8,192 (R597). -/
def State.logRecord (s : State) (r : FltRec) : State :=
  let l := s.tlog ++ [r]
  let l := l.drop (l.length - 8192)
  let s := { s with tlog := l }
  let s := s.wr TLOG_STAT_HELD l.length
  s.wr TLOG_STAT_OLDEST_SEQ ((l.head?.map (·.seq)).getD 0)

/-- Words written to consecutive registers. -/
def State.setWords (s : State) (off : Nat) (ws : List Nat) : State :=
  ((List.range ws.length).zip ws).foldl (fun s p => s.setReg (off + 8 * p.1) (BitVec.ofNat 64 p.2)) s

/-- The history queue of a data-path record (R591), or the first latch of a control record (R592). -/
def State.capture (s : State) (r : FltRec) : State :=
  let c := srcCollector r.source
  if srcIsData r.source then
    let n := s.rd (FLT_HIST_PTR_NEXT c)
    let s := s.setWords (FLT_HIST c n 0) r.words
    (s.wr (FLT_HIST_PTR_NEXT c) (n + 1)).wr (FLT_HIST_PTR_HELD c) (min 16 (s.rd (FLT_HIST_PTR_HELD c) + 1))
  else if s.on (FLT_FIRST_CTL_VALID c) then s.wr (FLT_FIRST_CTL_OVERFLOW c) 1
  else (s.setWords (FLT_FIRST c 0) r.words).wr (FLT_FIRST_CTL_VALID c) 1

/-- FLT_STAT counts of pending sources, and ALERT_N (R587). -/
def State.setPending (s : State) (src v : Nat) : State :=
  let old := s.rd (FLT_SRC_PENDING src)
  let s := s.wr (FLT_SRC_PENDING src) v
  let s := s.wr FLT_STAT_B_PEND (s.rd FLT_STAT_B_PEND + b2n (v == 1) - b2n (old == 1))
  let s := s.wr FLT_STAT_C_PEND (s.rd FLT_STAT_C_PEND + b2n (v == 2) - b2n (old == 2))
  { s with pins := { s.pins with alertN := s.rd FLT_STAT_C_PEND == 0 } }

/-- What a record of a class does (R586, R587, R590, R642). -/
def State.actOn (s : State) (r : FltRec) : State :=
  let s := if 1 ≤ r.cls ∧ r.cls ≤ 2 ∧ s.rd (FLT_SRC_PENDING r.source) < r.cls then
      let s := s.setPending r.source r.cls
      { s with srcTimer := tabPut s.srcTimer r.source (s.now, r) }
    else s
  match r.cls with
  | 0 => s
  | 1 => s.raiseLine 24 (s.rd FLT_CFG_FW_TASK) (s.rd FLT_CFG_FW_LINE)
  | 2 => (s.msix (s.rd FLT_CFG_HOST_VECTOR)).alert 1
  | _ => s.ripcord.alert 2

/-- A record is written with the next SEQ, captured, and acted on (R580, R586). -/
def State.writeRecord (s : State) (r : FltRec) : State :=
  let seq := s.rd FLT_STAT_NEXT_SEQ
  let r := { r with seq := seq, time := s.dev, epoch := s.rd TIME_EPOCH_EPOCH, data := srcIsData r.source }
  let s := s.wr FLT_STAT_NEXT_SEQ (seq + 1)
  let s := s.wr (FLT_SRC_CNT_LAST_SEQ r.source) seq
  let s := (s.logRecord r).capture r
  s.actOn r

/-- A fault event counted, promoted, and merged under the hold-off or recorded (R582 to R592); `unit` gives the unit that a record of
a class fences, which is the second result. -/
def State.recordWith (s : State) (e : FaultEv) (unit : Nat → Option (Nat × Nat)) : State × Option (Nat × Nat) :=
  let s := s.count (FLT_SRC_CNT_EVENTS e.src) 1
  let s := { s with srcQuiet := tabPut s.srcQuiet e.src s.now }
  let s := if s.on (FLT_SRC_LEAK e.src) then s else { s with srcLeak := tabPut s.srcLeak e.src s.now }
  let leak := min 255 (s.rd (FLT_SRC_LEAK e.src) + 1)
  let cls := s.rd (FLT_SRC_CLASS e.src)
  let full := s.on (FLT_SRC_PROMOTE_EN e.src) && leak == s.rd (FLT_SRC_N e.src)
  let s := s.wr (FLT_SRC_LEAK e.src) (if full then 0 else leak)
  let up := full && decide (cls < 2)
  let s := if up then s.wr (FLT_SRC_CLASS e.src) (cls + 1) else s
  let c : Nat := max (if up then cls + 1 else cls) e.least
  let recent : Bool := match tabFind s.srcLast e.src with
    | some t => decide (s.now < t + s.rd FLT_CFG_HOLDOFF * 1000)
    | none => false
  if c == 0 && recent then ({ s with srcMerged := tabPut s.srcMerged e.src (satAdd 16 (tabGet s.srcMerged 0 e.src) 1) }, none)
  else
    let merged := tabGet s.srcMerged 0 e.src
    let s := { s with srcMerged := tabDel s.srcMerged e.src, srcLast := tabPut s.srcLast e.src s.now }
    (s.writeRecord { time := 0, epoch := 0, source := e.src, cls := c, promoted := up, escalated := false, data := false
                     fence := (unit c).isSome, seq := 0, inst := e.inst, status := e.status, merged := merged
                     aux := e.aux, addr := e.addr, writer := e.writer }, unit c)

/-! Requesters of ACCESS_REFUSED (R581). -/

inductive Requester where
  | stream (svu : Nat)
  | core (c t : Nat)
  | bmv (ch : Nat)
  | host
  | peer (node : Nat)
  | walk (svu : Nat)
  deriving DecidableEq, Repr

/-- INST and AUX of ACCESS_REFUSED (R581). -/
def Requester.code : Requester → Nat × Nat
  | .stream i => (0, i)
  | .core c t => (1, c * 256 + t)
  | .bmv ch => (2, ch)
  | .host => (3, 0)
  | .peer n => (4, n)
  | .walk i => (5, i)

/-- The class A record of a refused access by the INST and AUX of its requester (R25, R29, R30, R31). ACCESS_REFUSED fences no unit. -/
def State.refuseBy (s : State) (q : Nat × Nat) (off status : Nat) : State :=
  (s.recordWith { src := srcAccessRefused, inst := q.1, aux := q.2, addr := off, status := status } (fun _ => none)).1

/-- The class A record of a refused access. -/
def State.refuse (s : State) (q : Requester) (off status : Nat) : State := s.refuseBy q.code off status

/-- The outcome reaches a chain whose stop reports it (R61, R272); writes after the last element are no stop's (R680). -/
def Sink.ofChain : Sink → Bool
  | .spool .. => true
  | .chainWrite .. => true
  | .atom .. => true
  | .undo .. => true
  | _ => false

/-- A waiting request whose storage stops answering ends with R30's or R31's status, and the class A record that names its
requester; a chain's stop writes its own. -/
def State.endQueued (s : State) (r : MemReq) (status : Nat) : State :=
  let s := match r.who with
    | some q => if r.sink.ofChain then s else s.refuseBy q r.off status
    | none => s
  s.deliver r.sink (.fail status)

/-! Fences. -/

/-- The SVU that serves a slice in place of logical slice `i`: the first one after it, wrapping, that `ok` admits (R430). -/
def nextServing (map : List Nat) (i : Nat) (ok : Nat → Bool) : Option Nat :=
  ((List.range map.length).map (fun k => map.getD ((i + k) % map.length) 0)).find? ok

/-- A verified slice leaves its SVU: its oldest unreleased window begins again on the SVU that is handed it next (R320,
R321). -/
def Slice.leave (l : Slice) : Slice :=
  { l with svu := 96, next := l.base, pass1 := none, pass2 := none, inp := [], asked := [], pf := [], hold := []
           holdFlags := [], winSnaps := [], accs := [], scans := l.commitScans }

/-- An SVU no longer holds a range of a chain. -/
def State.dropCtx (s : State) (i id : Nat) : State :=
  let x := s.svu i
  s.setSvu i { x with
    ctxs := x.ctxs.filter (fun c => c.1 != id), current := if x.current = some id then none else x.current
    walks := x.walks.filter (fun w => w.chain != id) }

/-- The range of a slice ends its work at its commit index with a status (R233, R596). -/
def Slice.halt (l : Slice) (status : Nat) : Slice :=
  let k := l.reached
  let l := if l.verify then { l with pass1 := none, pass2 := none, next := l.base } else l
  l.addStop k { status := status }

/-- An SVU is fenced: a verified slice goes on elsewhere, any other stops at its commit index with ST_FENCED (R596). -/
def State.fenceSvu (s : State) (i : Nat) : State :=
  let s := s.wr ⟨FLT_FENCED_SVU (i / 64), i % 64, i % 64⟩ 1
  s.chains.foldl (fun s c =>
    c.slices.foldl (fun s l =>
      if l.svu = i ∧ l.phase ≠ .done ∧ l.stop.isNone then
        if l.verify then (s.updChain c.id (fun c => c.updSlice l.lsl Slice.leave)).dropCtx i c.id
        else
          s.updChain c.id (fun c => (c.updSlice l.lsl (fun l => l.halt ST_FENCED)).addStop l.next { status := ST_FENCED })
      else s) s) s

/-- A channel is fenced: its waiting requests end with ST_FENCED, and its scrub stops (R596). -/
def State.fenceChannel (s : State) (c : Nat) : State :=
  let s := (s.wr ⟨FLT_FENCED_CH (c / 64), c % 64, c % 64⟩ 1).wr (MEMC_STATUS_STATE c) 4
  let q := (s.chan c).queue
  q.foldl (fun s r => s.endQueued r ST_FENCED) (s.setChan c { s.chan c with queue := [] })

/-- A port is fenced: it enters DOWN and stays there (R596). -/
def State.fencePort (s : State) (p : Nat) : State :=
  let s := s.wr ⟨FLT_FENCED_UNIT, p, p⟩ 1
  if s.portState p = 4 then s else s.portDown p

/-- The unit that a record fences by its class (R593). -/
def State.fenceOf (s : State) (src inst cls : Nat) : Option (Nat × Nat) :=
  let above := srcDefault src < cls
  if (srcSpUe ≤ src && src < srcSpUe + 24) && above then some (0, 4 * (src - srcSpUe) + inst)
  else if (srcLoftUe ≤ src && src < srcLoftUe + 24) && above then some (0, 4 * (src - srcLoftUe) + inst)
  else if (srcMemUe ≤ src && src < srcMemUe + 12) && above && (s.chan (8 * (src - srcMemUe) + inst)).lacksSpare then
    some (2, 8 * (src - srcMemUe) + inst)
  else if (srcJpDown ≤ src && src < srcJpDown + 16) && above then some (3, src - srcJpDown)
  else none

/-- The unit that a caller's rule fences (R593: the SVU's self-test and parity kinds, and XBAR_PARITY). -/
def fenceByKind (src inst : Nat) : Option (Nat × Nat) :=
  if srcSpoolParity ≤ src ∧ src < srcSpoolParity + 24 then some (0, 4 * (src - srcSpoolParity) + inst)
  else if srcPipeParity ≤ src ∧ src < srcPipeParity + 24 then some (0, 4 * (src - srcPipeParity) + inst)
  else if srcSvuBist ≤ src ∧ src < srcSvuBist + 24 then some (0, 4 * (src - srcSvuBist) + inst)
  else if srcXbar ≤ src ∧ src < srcXbar + 12 then some (2, 8 * (src - srcXbar) + inst)
  else none

/-- The fence of a unit: kinds 0 SVU, 2 channel, 3 port (R594, R596). -/
def State.fenceUnit (s : State) (u : Nat × Nat) : State :=
  match u.1 with
  | 0 => s.fenceSvu u.2
  | 2 => s.fenceChannel u.2
  | _ => s.fencePort u.2

/-- A fault event: counted, promoted, merged under the hold-off or recorded, and its unit fenced (R582 to R593). -/
def State.record (s : State) (e : FaultEv) : State :=
  let (s, unit) := s.recordWith e (fun c => if e.fence then fenceByKind e.src e.inst else s.fenceOf e.src e.inst c)
  match unit with
  | some u => s.fenceUnit u
  | none => s

/-- The class A record that names a register (R9, R579). -/
def State.regRecord (s : State) (off v : Nat) : State := s.record { src := srcRegWrite, aux := v % 2 ^ 32, addr := off }

end Sys2Proof.Machine
end

