-- ==== Sys2Proof/Machine/MemOps.lean ====
section
/-! DEFINITION. Reads and writes of ECC words of memory and of the scratchpads, with their decode outcomes,
counters, records and repairs (R40 to R42, R56 to R65, R77 to R82, R306, R677), and what each requester may
reach (R23 to R31). -/
namespace Sys2Proof.Machine
open Reg

/-! What each access kind does in each range (R23). -/

inductive ReachKind where
  | streamRead | streamWrite | spAtomic | walk
  | load (ring : Nat) | store (ring : Nat) | fetch
  | bmvRead | bmvWrite | hostBar2 | peer
  deriving DecidableEq, Repr

/-- The range outcome of R23 for storage: served, or refused. Register space and flash stores have paths of their own. -/
def servedIn (k : ReachKind) (r : Range) : Bool :=
  match r with
  | .memory => k != .spAtomic
  | .scratch _ => true
  | .flash =>
    match k with
    | .streamRead | .load _ | .fetch | .bmvRead => true
    | _ => false
  | _ => false

/-- The offset lies in the tail area in effect (R231). -/
def State.inTail (s : State) (off : Nat) : Bool :=
  let (b, n) := s.tailArea
  n != 0 && b ≤ off && off < b + n

/-- First bytes of the ECC words that hold the bytes [off, off + len). -/
def wordsIn (off len : Nat) : List Nat :=
  let w := eccBytes off
  (List.range ((off + len - 1) / w - off / w + 1)).map (fun k => (off / w + k) * w)

/-- Why an access to local storage is not performed: R26, R23 (a walk gets ST_WALK_DEVICE), R231, then R31 and R30 for any
of its words. -/
def State.blocked (s : State) (k : ReachKind) (off len : Nat) : Option Nat :=
  if crosses off len then some ST_PROTECTION
  else if !servedIn k (rangeOf off) then some (if k = .walk then ST_WALK_DEVICE else ST_PROTECTION)
  else
    let ws := wordsIn off len
    let out := ws.filterMap s.storageOut
    if ws.any s.inTail then some ST_PROTECTION
    else if out.contains ST_FENCED then some ST_FENCED else out.head?

/-- The status of a blocked access, with its class A record; a walk outside storage performs no access and writes none (R23). -/
def State.block (s : State) (k : ReachKind) (q : Requester) (off len : Nat) : Option (State × Nat) :=
  match s.blocked k off len with
  | none => none
  | some st => some (if st = ST_WALK_DEVICE then s else s.refuse q off st, st)

/-! Outcomes at memory words. -/

/-- MEMC_LAST_ERR of an event (R86). -/
def lastErr (w word sym kind : Nat) : Nat := 2 ^ 63 + w * 2 ^ 32 + word * 2 ^ 30 + sym * 2 ^ 24 + kind

/-- Counters of a MEMC block advance only while enabled (R87). -/
def State.memCount (s : State) (c : Nat) (f : RF) (n : Nat) : State := if s.on (MEMC_PERF_CTL_ENABLE c) then s.count f n else s

/-- An event of a memory word latched and, when it is one of R86's, recorded; `who` is the writer of a partial write (R62). -/
def State.memEvent (s : State) (off sym kind : Nat) (src : Option Nat) (who : Option (Nat × Nat) := none) : State :=
  let c := channelOf off
  let w := rowGranuleOf off
  let e := lastErr w (off / 64 % 4) sym kind
  let s := s.setReg (MEMC_LAST_ERR c) (BitVec.ofNat 64 e)
  match src with
  | some b => s.record { src := b + c / 8, inst := c % 8, aux := e % 2 ^ 32, addr := w, writer := who }
  | none => s

/-- A corrected error counted per row and per symbol position (R77), with the spares it asks for (R78, R79): a row, or a symbol
position's rows, whose count has reached its threshold, unless it asked already. -/
def State.countCe (s : State) (off sym : Nat) : State :=
  let c := channelOf off
  let row := rowOf (rowGranuleOf off)
  let x := s.chan c
  let n := tabGet x.rowCe 0 row + 1
  let symRows := if x.symRows.contains (sym, row) then x.symRows else x.symRows ++ [(sym, row)]
  let rows := (symRows.filter (fun p => p.1 == sym)).length
  let needRow := decide (s.rd (MEMC_SPARE_CTL_ROW_THRESH c) ≤ n) && !x.needRows.any (fun p => p.1 == row)
  let needLane := decide (s.rd (MEMC_SPARE_CTL_LANE_THRESH c) ≤ rows) && !x.needLanes.contains sym
  s.setChan c { x with
    rowCe := tabPut x.rowCe row n, symRows := symRows
    needRows := if needRow then x.needRows ++ [(row, false)] else x.needRows
    needLanes := if needLane then x.needLanes ++ [sym] else x.needLanes }

/-- A row whose word decoded UNCORRECTABLE asks for a spare (R78). -/
def State.needRow (s : State) (off : Nat) : State :=
  let c := channelOf off
  let row := rowOf (rowGranuleOf off)
  let x := s.chan c
  s.setChan c { x with needRows := x.needRows.filter (fun p => p.1 != row) ++ [(row, true)] }

/-- SVU of a scratchpad offset, and o[21:3] of its word. -/
def spSvu (off : Nat) : Nat := (off - scratchBase) / 2 ^ 22
def spWord (off : Nat) : Nat := (off - scratchBase) % 2 ^ 22 / 8

/-- An event of a scratchpad word latched, counted and recorded (R308). -/
def State.spEvent (s : State) (off kind : Nat) (src : Option Nat) (who : Option (Nat × Nat) := none) : State :=
  let i := spSvu off
  let s := ((s.wr (SVU_SP_LAST_ERR_VALID i) 1).wr (SVU_SP_LAST_ERR_WORD i) (spWord off)).wr (SVU_SP_LAST_ERR_KIND i) kind
  let s := if kind = 1 then s.count (SVU_SP_ECC_SP_CE i) 1 else if kind = 2 then s.count (SVU_SP_ECC_SP_UE i) 1 else s
  match src with
  | some b => s.record { src := b + i / 4, inst := i % 4, aux := kind, addr := spWord off, writer := who }
  | none => s

/-- The decode of a word, using a free value where the spec leaves it open (R58). -/
def State.decode (s : State) (off : Nat) : State × Decoded :=
  let d := s.damage off
  if d.poison && !d.syms.isEmpty then
    let (v, s) := s.fresh
    (s, decodeWord d v)
  else (s, decodeWord d 0)

/-- A read of one ECC word: its repair or poisoning in the same step, with counters and records (R56, R57, R59, R73). The
results are whether the word is poison, and whether this read made it so. A read that meets poison counts it and latches
it; MEM_POISON_USE is recorded by the report (R60, R61). `who` is the writer of a partial write (R62). -/
def State.readEcc (s : State) (off : Nat) (scrub : Bool) (who : Option (Nat × Nat) := none) : State × Bool × Bool :=
  let (s, o) := s.decode off
  let mem := decide (off < memTop)
  let c := channelOf off
  match o with
  | .clean => (s, false, false)
  | .corrected sym =>
    let s := s.setDamage off {}
    if mem then
      let s := s.memCount c (if scrub then MEMC_ECC_CE_SCRUB c else MEMC_ECC_CE_DEMAND c) 1
      ((s.memEvent off sym (if scrub then 2 else 1) (some srcMemCe) who).countCe off sym, false, false)
    else (s.spEvent off 1 (some srcSpCe) who, false, false)
  | .uncorrectable =>
    let s := s.setDamage off { poison := true }
    if mem then
      let s := s.memCount c (MEMC_ECC_UE_NEW c) 1
      ((s.needRow off).memEvent off 63 (if scrub then 4 else 3) (some srcMemUe) who, true, true)
    else (s.spEvent off 2 (some srcSpUe) who, true, true)
  | .poison =>
    if mem then ((s.memCount c (MEMC_ECC_UE_POISON_USE c) 1).memEvent off 63 5 none, true, false)
    else (s.spEvent off 3 none, true, false)

/-- Poison of a local word reported to a requester or written: MEM_POISON_USE or SP_POISON_USE (R60, R86, R308), with the writer that
wrote it (R62). -/
def State.reportPoison (s : State) (off : Nat) (who : Option (Nat × Nat) := none) : State :=
  if off < memTop then
    let c := channelOf off
    let w := rowGranuleOf off
    s.record { src := srcMemPoison + c / 8, inst := c % 8, aux := lastErr w (off / 64 % 4) 63 5 % 2 ^ 32, addr := w, writer := who }
  else
    let i := spSvu off
    s.record { src := srcSpPoison + i / 4, inst := i % 4, aux := 3, addr := spWord off, writer := who }

/-- The words of a local read, in ascending order; lists the poisoned ones and those this read poisoned. -/
def State.readWords (s : State) (ws : List Nat) : State × List Nat × List Nat :=
  ws.foldl (fun a w =>
    let (s, bad, made) := a
    let (s, b, m) := s.readEcc w false
    (s, if b then bad ++ [w] else bad, if m then made ++ [w] else made)) (s, [], [])

/-- The bytes [off, off + len), a free value in place of every byte of a poisoned word (R58, log 3). -/
def State.unpoisoned (s : State) (off len : Nat) (bad : List Nat) : State × List Byte :=
  if bad.isEmpty then (s, s.peek off len)
  else
    let (v, s) := s.fresh
    let w := eccBytes off
    (s, (s.peek off len).zipIdx.map (fun p => if bad.contains ((off + p.2) / w * w) then BitVec.ofNat 8 (v / 256 ^ p.2) else p.1))

/-- A requester read of local storage: the bytes, and the words that were poison; each word counts on the channel that holds it (R40).
Flash has no ECC outcome. -/
def State.readStore (s : State) (off len : Nat) : State × Reply :=
  match rangeOf off with
  | .flash => (s.flashTouch, .data (s.flashBytes (off - flashBase) len) [] [])
  | r =>
    let ws := wordsIn off len
    let s := if r = .memory then ws.foldl (fun s w => s.memCount (channelOf w) (MEMC_RD_BYTES_RD_BYTES (channelOf w)) 64) s else s
    let (s, bad, made) := s.readWords ws
    let (s, bs) := s.unpoisoned off len bad
    (s, .data bs bad made)

/-- The report of every poisoned word of a read that the read did not itself poison (R60). -/
def State.reportAll (s : State) (bad made : List Nat) : State :=
  (bad.filter (fun w => !made.contains w)).foldl (fun s w => s.reportPoison w) s

/-- An armed injection alters a word that a requester write stored, and ARM clears (R677). -/
def State.inject (s : State) (off : Nat) : State :=
  if off < memTop then
    let c := channelOf off
    if s.on (MEMC_INJECT_ARM c) then
      let d := s.damage off
      let s := match s.rd (MEMC_INJECT_KIND c) with
        | 1 => s.setDamage off { d with syms := [0] }
        | 2 => s.setDamage off { d with syms := [0, 1] }
        | 3 => s.setDamage off { poison := true }
        | _ => s
      s.wr (MEMC_INJECT_ARM c) 0
    else s
  else s

/-- A requester write of bits of one ECC word: whole, as a read-modify-write, or poisoned (R40, R62 to R64), by a writer that its
records name. A partial write that arrives poisoned neither decodes the old word nor counts or latches an event: the model's
choice (log 64). -/
def State.writeEcc (s : State) (w : WordWrite) (who : Option (Nat × Nat) := none) : State :=
  let n := eccBytes w.off
  let mem := decide (w.off < memTop)
  let c := channelOf w.off
  let s := if mem then s.memCount c (MEMC_WR_BYTES_WR_BYTES c) 64 else s
  let whole := w.mask == 2 ^ (8 * n) - 1
  if w.poison then
    ((s.setWordBits w.off (mergeBits (s.wordBits w.off) w.data w.mask)).setDamage w.off { poison := true }).reportPoison w.off who
  else if whole then (s.setWordBits w.off w.data).setDamage w.off {}
  else
    let s := if mem then s.memCount c (MEMC_RMW_CNT_RMW c) 1 else s
    let (s, bad, made) := s.readEcc w.off false who
    let s := s.setWordBits w.off (mergeBits (s.wordBits w.off) w.data w.mask)
    if bad && !made then s.reportPoison w.off who else s

/-- The writes of an access, by a writer: one request for each granule (R40), with the injection on the lowest-addressed word of each
(R677). -/
def State.writeStore (s : State) (ws : List WordWrite) (who : Option (Nat × Nat) := none) : State :=
  let s := ws.foldl (fun s w => s.writeEcc w who) s
  ((ws.map (fun w => w.off / 256)).dedup).foldl (fun s g =>
    match leastWith (fun o => o / 256 == g) (ws.map (·.off)) with
    | some o => s.inject o
    | none => s) s

/-- A byte write as word writes: one per ECC word it touches. -/
def wordWrites (off : Nat) (bs : List Byte) (poison : Bool) : List WordWrite :=
  (wordsIn off bs.length).map (fun w =>
    let n := eccBytes off
    let lo := max off w
    let hi := min (off + bs.length) (w + n)
    { off := w, mask := (2 ^ (8 * (hi - lo)) - 1) * 2 ^ (8 * (lo - w))
      data := leNat ((bs.drop (lo - off)).take (hi - lo)) * 2 ^ (8 * (lo - w)), poison := poison })

/-- The bits of a contribution that are applied. -/
def Contrib.shown (x : Contrib) : Nat := x.mask ^^^ (x.mask &&& x.hid)

/-- Contributions with the bits that are not applied, being those that a later element or slot of `high` writes too (R117, R220),
and whether the write of their word covers it. -/
def settleContribs (high cs : List Contrib) : List Contrib :=
  let cs : List Contrib := cs.map (fun x => { x with hid := high.foldl (fun (h : Nat) (y : Contrib) =>
    if y.node = x.node ∧ y.word = x.word ∧ x.first y then h ||| (x.mask &&& y.mask) else h) 0 })
  cs.map (fun (x : Contrib) =>
    let mask := cs.foldl (fun (m : Nat) (y : Contrib) => if y.node = x.node ∧ y.word = x.word then m ||| y.shown else m) 0
    { x with whole := mask == 2 ^ (8 * eccBytes x.word) - 1 })

/-- The data of contributions of one word laid over it in ascending element and slot. -/
def layContribs (base : Nat) (cs : List Contrib) (bits : Contrib → Nat) : Nat :=
  (cs.mergeSort (fun x y => !y.first x)).foldl (fun v x => mergeBits v x.data (bits x)) base

/-- The word writes of contributions of a chain: the bits of them that are applied (R117). -/
def contribWrites (cs : List Contrib) : List WordWrite :=
  ((cs.map (fun c => c.word)).dedup.mergeSort (fun a b => decide (a ≤ b))).filterMap (fun w =>
    let here := cs.filter (fun c => c.word == w)
    let mask := here.foldl (fun (m : Nat) (x : Contrib) => m ||| x.shown) 0
    if mask = 0 then none else some { off := w, mask := mask, data := layContribs 0 here Contrib.shown })

/-- Atomic operations on an aligned word: 0 ADD32, 1 ADD64, 2 SWAP32, 3 SWAP64, 4 CAS64, 5 MERGE64 (R495). -/
def atomNew (op old v n : Nat) : Nat :=
  match op with
  | 0 => (old + v) % 2 ^ 32
  | 1 => (old + v) % 2 ^ 64
  | 2 => v % 2 ^ 32
  | 3 => v % 2 ^ 64
  | 4 => if old = v % 2 ^ 64 then n % 2 ^ 64 else old
  | _ => mergeBits old v n

def atomBytes (op : Nat) : Nat := if op = 0 ∨ op = 2 then 4 else 8

/-- An atomic of local storage, one indivisible step: the old value, or the poison it met. -/
def State.atomStore (s : State) (off op v n : Nat) (who : Option (Nat × Nat) := none) : State × Reply :=
  let k := atomBytes op
  let (s, bad, made) := s.readWords (wordsIn off k)
  match bad with
  | _ :: _ => ((s.reportAll bad made), .fail ST_POISON)
  | [] =>
    let old := leNat (s.peek off k)
    (s.writeStore (wordWrites off (leBytes k (atomNew op old v n)) false) who, .old old)

/-! Lines the host holds (R246). -/

/-- Lines of a memory access that the directory tracks. -/
def State.heldLines (s : State) (off len : Nat) : List Nat :=
  if off < memTop && !s.host.dir.isEmpty then ((wordsIn off len).map (· / 64)).filter (fun l => s.host.dir.any (fun d => d.1 == l))
  else []

/-- A back-invalidate snoop is issued for each tracked line that has none outstanding (R246, R479). -/
def State.snoopLines (s : State) (ls : List Nat) : State :=
  ls.foldl (fun s l =>
    if s.host.snooping.contains l then s
    else
      let s := { s with host := { s.host with snooping := s.host.snooping ++ [l] } }
      (s.count HIF_BI_SNOOPS 1).emit (.backInvalidate l)) s

/-- An access of a module agent waits for lines the host holds; issues their snoops. -/
def State.waitSnoop (s : State) (off len : Nat) : Option State :=
  let ls := s.heldLines off len
  if ls.isEmpty then none else some (s.snoopLines ls)

/-! Sparing (R76 to R82) and the tail (R227 to R229). -/

/-- TWR_WEAR when a kind of spare falls below a quarter (R85). -/
def State.wearCheck (s : State) (c before after total : Nat) : State :=
  if total ≤ 4 * before ∧ 4 * after < total then s.record { src := srcWear + c / 8, inst := c % 8 } else s

/-- Fullness of the fullest channel's share of the tail, in percent, and its peak (INTLV_TAIL_STAT). -/
def State.tailStat (s : State) : State :=
  let cap := s.tailArea.2 / 12288
  let held := (List.range 96).foldl (fun m c => max m (s.tail.filter (fun t => t.chan == c)).length) 0
  let level := if cap = 0 then 0 else min 100 (100 * held / cap)
  (s.wr INTLV_TAIL_STAT_LEVEL level).peak INTLV_TAIL_STAT_PEAK level

/-- What a word's damage is once a read has decoded it: corrected, or poisoned (R57, R59). -/
def Damage.settled (d : Damage) : Damage := if d.poison || 2 ≤ d.syms.length then { poison := true } else {}

/-- The old word that a write of a chain replaces, as its read decodes it (R59, R227). -/
def State.oldWord (s : State) (chain top off : Nat) : TailRec :=
  { chain := chain, chan := channelOf off, word := off, top := top, old := s.wordBits off, oldDmg := (s.damage off).settled }

/-- The old words of a provisional write kept before it is performed: a tail record, or a journal word of the SVU's
scratchpad (R227). -/
def State.keepOld (s : State) (chain svu top : Nat) (ws : List WordWrite) : State :=
  let s := ws.foldl (fun s w =>
    let t := s.oldWord chain top w.off
    if w.off < memTop then { s with tail := s.tail ++ [t] }
    else s.setSvu svu { s.svu svu with journal := (s.svu svu).journal ++ [t] }) s
  s.tailStat

/-- The first old value of each word that a chain writes, kept until the chain ends: what a stop puts back of every write at or above
its index, settled ones included (R230, R232, log 68). -/
def State.rememberOld (s : State) (chain top : Nat) (ws : List WordWrite) : State :=
  s.updChain chain (fun c => { c with
    olds := c.olds ++ (ws.filter (fun w => !c.olds.any (fun t => t.word == w.off))).map (fun w => s.oldWord chain top w.off) })

end Sys2Proof.Machine
end

