-- ==== Sys2Proof/Machine/Ports.lean ====
section
/-! DEFINITION. The crossbar: which request a channel port or a scratchpad bank serves next, the slots that requests take, and the
accesses of agents that wait for theirs, in this module's storage or another's (R39 to R48, R302 to R307, R503). -/
namespace Sys2Proof.Machine
open Reg

/-! Requests. -/

/-- The ECC words of a request. -/
def MemReq.words (r : MemReq) : List Nat :=
  match r.op with
  | .read o n => wordsIn o n
  | .write ws => ws.map (·.off)
  | .atom o op .. => wordsIn o (atomBytes op)

/-- A request waits at the channel of a memory offset. -/
def State.pushChan (s : State) (off : Nat) (r : MemReq) : State :=
  let c := channelOf off
  s.setChan c { s.chan c with queue := (s.chan c).queue ++ [r] }

/-- The bank of a scratchpad window's offset. -/
def bankAt (off : Nat) : Nat := spBankOf ((off - scratchBase) % 2 ^ 22)

/-- A request waits at the bank of a scratchpad offset. -/
def State.pushBank (s : State) (off : Nat) (r : MemReq) : State :=
  let i := spSvu off
  let x := s.svu i
  s.setSvu i { x with bankQ := tabPut x.bankQ (bankAt off) (tabGet x.bankQ [] (bankAt off) ++ [r]) }

/-- A request waits at the storage of a local offset; lines the host holds are snooped first (R246). -/
def State.push (s : State) (off : Nat) (r : MemReq) : State :=
  if off < memTop then (s.snoopLines (r.words.flatMap (fun w => s.heldLines w 1))).pushChan off r else s.pushBank off r

/-- Bytes of one request unit at an offset: a 64-byte word of memory, a 16-byte line of a scratchpad (R302, R305). -/
def unitBytes (off : Nat) : Nat := if off < memTop then 64 else 16

/-! The patrol scrub's schedule (R71, R72). -/

/-- The schedule of a channel brought up to now: its clock, the lag registers and the behind state. A lag of 2^27, which
LAG's 27 bits cannot hold, shows as 2^27 - 1 (log 61). -/
def State.scrubSync (s : State) (c : Nat) : State :=
  let x := s.chan c
  let run := s.rd (MEMC_STATUS_STATE c) == 2 && s.on (MEMC_SCRUB_CTL_ENABLE c)
  let t := if run then x.scrubClock + (s.now - x.scrubSince) else x.scrubClock
  let s := s.setChan c { x with scrubClock := t, scrubSince := s.now }
  let target := min (2 ^ 27) (2 ^ 27 * t / (x.scrubPeriod * 3600000000000))
  let lag := target - s.rd (MEMC_SCRUB_POS_POSITION c)
  let s := s.wr (MEMC_SCRUB_LAG_LAG c) (min lag (2 ^ 27 - 1))
  if lag = 0 then s.wr (MEMC_SCRUB_LAG_BEHIND c) 0
  else if 13421772 < lag then s.wr (MEMC_SCRUB_LAG_BEHIND c) 1 else s

/-- The next slot of a channel is the scrub's: its schedule is behind now and 99 grants have gone by, while the scrub runs
(R48, R72, R74). -/
def State.scrubHolds (s : State) (c : Nat) : Bool :=
  let x := s.chan c
  s.on (MEMC_SCRUB_CTL_ENABLE c) && decide (99 ≤ x.scrubTurn) && (s.scrubSync c).on (MEMC_SCRUB_LAG_BEHIND c)

/-! Output elements as contributions. -/

/-- Global address of an output element: SCRATCH slots name the window of the SVU that runs the slice (R216). -/
def OutEl.ga (o : OutEl) (d : List Nat) (node svu : Nat) : Nat :=
  if (slotD d o.slot).kind = kScratch then gaOf node (scratchBase + 2 ^ 22 * svu + o.loc) else o.loc

/-- The contributions of an output element to the ECC words it touches. -/
def OutEl.contribs (o : OutEl) (d : List Nat) (node svu : Nat) : List Contrib :=
  let ga := o.ga d node svu
  let off := gaOff ga
  let w := (slotD d o.slot).bits
  let n := max 1 (w / 8)
  (wordsIn off n).map (fun wd =>
    let lo := max off wd
    let hi := min (off + n) (wd + eccBytes off)
    let sh := 8 * (lo - wd) + o.bit
    let k := if w = 1 then 1 else 8 * (hi - lo)
    { elem := o.elem, slot := o.slot, node := gaNode ga, word := wd, mask := (2 ^ k - 1) * 2 ^ sh
      data := o.bits / 2 ^ (8 * (lo - off)) % 2 ^ k * 2 ^ sh, va := o.va })

/-- The contributions of the output elements that the spools of a chain hold. -/
def State.pendingContribs (s : State) (c : Chain) : List Contrib :=
  c.slices.flatMap (fun l =>
    (l.outs.filter (fun o => (slotD c.desc o.slot).kind != kLoft)).flatMap (fun o => o.contribs c.desc s.node l.svu))

/-! The clear index and the records below it. -/

/-- The clear index of a running chain (R225). -/
def Chain.clear (c : Chain) : Nat :=
  let top := match c.stop with
    | some (f, _) => min f (dCount c.desc)
    | none => dCount c.desc
  if c.slices.isEmpty then c.start
  else (c.slices.filter (fun l => l.phase != .done)).foldl (fun m l =>
    let k := l.reached
    if k < l.fin then min m k else m) top

/-- The clear index of a chain by number; 0 when it is over. -/
def State.clearOf (s : State) (id : Nat) : Nat := ((s.chainOf id).map Chain.clear).getD 0

/-- Elements a sink's write carries, highest first known as the journal's release index (R229). -/
def Sink.topElem : Sink → Nat
  | .chainWrite _ cs => cs.foldl (fun m c => max m c.elem) 0
  | _ => 0

def Sink.chainId : Sink → Nat
  | .chainWrite id _ => id
  | _ => 0

/-- A write that is provisional now (R226): its elements are not all below the clear index. -/
def State.provNow (s : State) (r : MemReq) : Bool := r.prov && decide (s.clearOf r.sink.chainId ≤ r.sink.topElem)

/-- A queued provisional write to memory can be performed: a tail record is free for each of its words, and none is being withheld
(R227, R228, R250). -/
def State.recordFree (s : State) (r : MemReq) : Bool :=
  !s.provNow r || decide (memTop ≤ r.off)
    || (!s.on INTLV_TAIL_SIZE_PENDING
      && decide ((s.tail.filter (fun t => t.chan == channelOf r.off)).length + r.words.length ≤ s.tailArea.2 / 12288))

/-! Channel ports (R41, R43 to R46). -/

/-- The waiting requests of a channel that may be granted, each with its place: no row copy holds it (R78), the host holds none of its
lines (R246), a provisional write has its tail records (R228, R250), and no earlier request of its port waits for the same granule
(R41). The host's write-back of a line it holds passes those that wait for the line. -/
def State.candidates (s : State) (c : Nat) (q : List MemReq) : List (MemReq × Nat) :=
  q.zipIdx.filter (fun x =>
    x.1.words.all (fun w => !(s.chan c).needRows.any (fun n => n.1 == rowOf (rowGranuleOf w)) && (x.1.holder || (s.heldLines w 1).isEmpty))
      && s.recordFree x.1 && (x.1.holder || (q.take x.2).all (fun y => !(y.port == x.1.port && y.off / 256 == x.1.off / 256))))

/-- The place of the request with the earliest arrival among those that meet a condition; of equal arrivals the one that waits
longer in the queue, the model's choice (log 63). -/
def oldest (q : List (MemReq × Nat)) (p : MemReq → Bool) : Option Nat :=
  ((q.filter (fun x => p x.1)).foldl (fun (m : Option (MemReq × Nat)) x =>
    match m with
    | none => some x
    | some y => if x.1.arrived < y.1.arrived then some x else some y) none).map (·.2)

/-- The request a channel port grants next among its candidates (R43). -/
def chooseGrant (q : List (MemReq × Nat)) (left owed last now : Nat) : Option Nat :=
  let here := q.any (fun x => x.1.src.isNone)
  let far := q.any (fun x => x.1.src.isSome)
  let first := oldest q (fun _ => true)
  if here && far && decide (left ≤ owed) then oldest q (fun r => r.src.isNone)
  else
    match oldest q (fun r => decide (r.arrived + 16000 ≤ now)) with
    | some i => some i
    | none =>
      if q.any (fun x => some x.2 == first && x.1.src.isNone) then first
      else
        match nextSource (q.filterMap (fun x => x.1.src)) last with
        | some n => oldest q (fun r => r.src == some n)
        | none => first

/-- The window of a channel at its next grant: the grants left in it, and the local grants still owed. A window begins with its first grant
and takes LOCAL_SHARE then (R43, R46). -/
def State.window (s : State) (c : Nat) : Nat × Nat :=
  let x := s.chan c
  if x.windowLeft = 0 then (64, s.rd INTLV_ARB_LOCAL_SHARE) else (x.windowLeft, x.localOwed)

/-- The place of the request a channel grants next among those given, which begin with its queue. -/
def State.channelNext (s : State) (c : Nat) (q : List MemReq) : Option Nat :=
  if s.scrubHolds c then none
  else chooseGrant (s.candidates c q) (s.window c).1 (s.window c).2 (s.chan c).lastRemote s.now

/-- Memory-controller clocks in a time of ns (1.25 GHz, R34). -/
def memClocks (ns : Nat) : Nat := ns * 5 / 4

/-- A slot of a channel goes to a request, which leaves the queue as given (R43, R51). -/
def State.takeSlot (s : State) (c : Nat) (r : MemReq) (rest : List MemReq) : State :=
  let (left, owed) := s.window c
  let x := s.chan c
  let s := s.setChan c { x with
    queue := rest, windowLeft := left - 1
    localOwed := if r.src.isNone then owed - 1 else owed
    lastRemote := r.src.getD x.lastRemote
    scrubTurn := x.scrubTurn + 1 }
  let wait := s.now - r.arrived
  let s := s.memCount c (if r.src.isNone then MEMC_GRANTS_LOCAL c else MEMC_GRANTS_REMOTE c) 1
  let s := if 16000 ≤ wait then s.memCount c (MEMC_WAIT_URGENT c) 1 else s
  if s.on (MEMC_PERF_CTL_ENABLE c) then s.peak (MEMC_WAIT_WAIT_MAX c) (memClocks wait) else s

/-! Scratchpad banks (R303, R307). -/

/-- The request a bank grants next: three slots to the owner's and one to the oldest foreign one while both wait (R303). -/
def bankChoice (q : List MemReq) (turn : Nat) : Option Nat :=
  let owner := findPlace (fun r => r.owner) q
  let foreign := findPlace (fun r => !r.owner) q
  if turn % 4 = 3 then foreign.orElse (fun _ => owner) else owner.orElse (fun _ => foreign)

/-- A scratchpad offset's window base. -/
def windowOf (i : Nat) : Nat := scratchBase + 2 ^ 22 * i

/-- The moment a line of a scratchpad was last read; one not listed, when the array was cleared. -/
def SvuState.readAt (x : SvuState) (line : Nat) : Nat := tabGet x.lineRead x.linesFrom line

/-- A line of the bank has not been read for 60 s (R307): of its 16,384 lines, fewer than all were read since. -/
def State.bankOverdue (s : State) (i b : Nat) : Bool :=
  let x := s.svu i
  decide (x.linesFrom + 60000000000 ≤ s.now)
    && decide ((x.lineRead.filter (fun l => spBankOf (16 * l.1) == b && decide (s.now < l.2 + 60000000000))).length < 16384)

/-- The place of the request a bank grants next among those given; an overdue line goes first (R307). -/
def State.bankNext (s : State) (i b : Nat) (q : List MemReq) : Option Nat :=
  if s.bankOverdue i b then none else bankChoice q (tabGet (s.svu i).bankTurn 0 b)

/-- A slot of a bank goes to a request, `q` being all that wait with it and `rest` those that stay. -/
def State.takeBank (s : State) (i b : Nat) (r : MemReq) (q rest : List MemReq) : State :=
  let x := s.svu i
  let both := q.any (fun r => r.owner) && q.any (fun r => !r.owner)
  let line := (r.off - windowOf i) / 16
  let read := match r.op with
    | .read .. => true
    | _ => false
  let s := s.setSvu i { x with
    bankQ := if rest.isEmpty then tabDel x.bankQ b else tabPut x.bankQ b rest
    bankTurn := if both then tabPut x.bankTurn b (tabGet x.bankTurn 0 b + 1) else tabDel x.bankTurn b
    lineRead := if read then tabPut x.lineRead line s.now else x.lineRead }
  let s := if r.owner then s else s.count (SVU_SP_WAIT_FOREIGN i) 1
  if r.owner && rest.any (fun y => y.owner) then s.count (SVU_SP_WAIT_CONFLICT i) 1 else s

/-- The slot that an arriving request takes at once, when it is the one that its channel or bank serves next; else it must wait. -/
def State.slotNow (s : State) (r : MemReq) : Option State :=
  if r.off < memTop then
    let c := channelOf r.off
    let q := (s.chan c).queue
    if s.channelNext c (q ++ [r]) = some q.length then some (s.takeSlot c r q) else none
  else
    let i := spSvu r.off
    let b := bankAt r.off
    let q := tabGet (s.svu i).bankQ [] b
    if s.bankNext i b (q ++ [r]) = some q.length then some (s.takeBank i b r (q ++ [r]) q) else none

/-! Agents that wait for their accesses. -/

def agentTask (c t : Nat) : Nat := 64 * c + t
def agentSvu (i : Nat) : Nat := 2000 + i
def agentRing (r : Nat) : Nat := 3000 + r
def agentBmv (ch : Nat) : Nat := 4000 + ch
def agentHost : Nat := 5000
def agentTx : Nat := 5001

/-- The requester port of an agent: its SVU's, the cores' aggregator, the block mover's (which the command engine and the message
sender share), or the host's. -/
def portOfAgent (a : Nat) : Nat :=
  if a < 2000 then 96 else if a < 3000 then a - 2000 else if a = agentHost then 98 else 97

/-- An answer kept for an agent. -/
def State.rbufOf (s : State) (agent ga len : Nat) : Option RBuf :=
  s.rbuf.find? (fun b => b.agent == agent && b.ga == ga && b.len == len)

/-- The entry stands for an instruction of an agent that is a task. -/
def MxcReq.isOf (q : MxcReq) (agent : Nat) : Bool :=
  match q.m with
  | .core c t => q.again && agentTask c.val t.val == agent
  | _ => false

/-- An agent's answers, walks and register accesses that wait are dropped: its command is over. -/
def State.rbufClear (s : State) (agent : Nat) : State :=
  { s with
    rbuf := s.rbuf.filter (fun b => b.agent != agent), walking := s.walking.filter (fun w => w.1 != agent)
    mxc := s.mxc.filter (fun q => !q.isOf agent) }

/-- An access of an agent that waits: its outcome, or `none` while it has none; it is sent the first time. Key `len` tells
accesses to one address apart. -/
def State.askBuffered (s : State) (agent ga len : Nat) (walk : Option (Nat × Nat)) (send : State → Sink → Option State) :
    State × Option Answer :=
  match s.rbufOf agent ga len with
  | some b => (s, b.res)
  | none =>
    let s1 : State := { s with
      rbuf := s.rbuf ++ [{ id := s.bufNext, agent := agent, ga := ga, len := len, walk := walk, res := none }], bufNext := s.bufNext + 1 }
    match send s1 (.buffer s.bufNext) with
    | some s' => (s', none)
    | none => (s, none)

/-- A remote request of an agent that waits. -/
def State.askRemote (s : State) (agent ga len : Nat) (m : FMsg) (walk : Option (Nat × Nat) := none) :
    State × Option Answer :=
  s.askBuffered agent ga len walk (fun s k => s.post m none k)

/-- Requests that an access to local storage divides into: one for each granule of memory (R40), one for each line of a scratchpad
(R305). -/
def accessPieces (off len : Nat) : List (Nat × Nat) :=
  let u := if off < memTop then 256 else 16
  if len = 0 then []
  else
    (List.range ((off + len - 1) / u - off / u + 1)).map (fun k =>
      let lo := max off ((off / u + k) * u)
      (lo, min (off + len) ((off / u + k + 1) * u) - lo))

/-- The outcome of an access to local storage. -/
inductive LocalRes where
  | done (r : Reply)
  | blocked (status : Nat)
  | wait
  deriving DecidableEq, Repr

/-- The outcome of the pieces of an access. -/
def gatherPieces (rs : List (Option Answer)) : LocalRes :=
  if rs.any (fun r => r.isNone) then .wait
  else
    let rs := rs.filterMap id
    match rs.find? (fun r => r.status != ST_OK) with
    | some r => .blocked r.status
    | none => .done (.data (rs.flatMap Answer.bytes) (rs.flatMap Answer.bad) (rs.flatMap Answer.made))

/-- What an access does, and what each of its pieces does: the first byte and length of the piece give its operation. -/
structure LocalOp where
  key : Nat := 0
  piece : Nat → Nat → MemOp
  now : State → State × Reply

/-- Who accesses local storage: the agent that waits, the SVU whose port it uses (none for the agent's own), the kind of access, the
requester that a record names (none where its stop reports it), and the walk it belongs to. -/
structure LocalBy where
  agent : Nat
  svu : Option Nat := none
  kind : ReachKind
  who : Option Requester
  walk : Option (Nat × Nat) := none
  holder : Bool := false

/-- The request of a piece of an access. -/
def LocalBy.req (b : LocalBy) (now : Nat) (o : MemOp) (k : Sink) : MemReq :=
  { op := o, src := none, port := b.svu.getD (portOfAgent b.agent), arrived := now, who := b.who.map Requester.code, holder := b.holder, sink := k }

/-- The slots of the pieces of an access, taken at once when each is what its channel or bank serves next. -/
def State.slotsNow (s : State) (b : LocalBy) (o : LocalOp) (ps : List (Nat × Nat)) : Option State :=
  ps.foldl (fun (s? : Option State) p => s?.bind (fun s => s.slotNow (b.req s.now (o.piece p.1 p.2) .none))) (some s)

/-- Why an access is not performed now: refused, with the record of its requester, or waiting for lines the host holds (R246). -/
def State.localStop (s : State) (b : LocalBy) (off len : Nat) : Option (State × LocalRes) :=
  match s.blocked b.kind off len, b.who with
  | some st, some q => some (if st = ST_WALK_DEVICE then s else s.refuse q off st, .blocked st)
  | some st, none => some (s, .blocked st)
  | none, _ => if b.holder then none else (s.waitSnoop off len).map (fun s => (s, .wait))

/-- An access of an agent to local storage. It is refused (R23, R25, R26, R30, R31), waits for lines the host holds (R246), is
performed at once when each of its pieces is what its channel or bank serves next, or else its pieces wait there and the agent
with them (R43, R303). -/
def State.localAccess (s : State) (b : LocalBy) (off len : Nat) (o : LocalOp) : State × LocalRes :=
  let ps := if rangeOf off = .flash then [] else accessPieces off len
  let ga := fun (p : Nat × Nat) => gaOf s.node p.1
  let ask := fun (s : State) =>
    let (s, rs) := ps.foldl (fun (a : State × List (Option Answer)) p =>
      let (s, r) := a.1.askBuffered b.agent (ga p) (o.key + p.2) b.walk (fun s k => some (s.push p.1 (b.req s.now (o.piece p.1 p.2) k)))
      (s, a.2 ++ [r])) (s, [])
    (s, gatherPieces rs)
  if ps.any (fun p => (s.rbufOf b.agent (ga p) (o.key + p.2)).isSome) then ask s
  else
    match s.localStop b off len with
    | some r => r
    | none =>
      match s.slotsNow b o ps with
      | some s =>
        let (s, r) := o.now s
        (s, .done r)
      | none => ask s

/-- A read of local storage, an atomic of it, or a write of words of it. -/
def State.localRead (s : State) (b : LocalBy) (off len : Nat) : State × LocalRes :=
  s.localAccess b off len { piece := fun o n => .read o n, now := fun s => s.readStore off len }

def State.localAtom (s : State) (b : LocalBy) (off op v n : Nat) : State × LocalRes :=
  match s.localAccess b off (atomBytes op)
      { key := 8192 + op, piece := fun o _ => .atom o op v n, now := fun s => s.atomStore off op v n (b.who.map Requester.code) } with
  | (s, .done (.data bs _ _)) => (s, .done (.old (leNat bs)))
  | x => x

/-- The key under which an answer to a write is kept, apart from those of reads. -/
def writeKey (len : Nat) : Nat := 1024 + len

/-- Words of a write that lie in a piece. -/
def writesIn (ws : List WordWrite) (off len : Nat) : List WordWrite :=
  ws.filter (fun w => decide (w.off < off + len) && decide (off < w.off + eccBytes off))

def LocalBy.writes (b : LocalBy) (ws : List WordWrite) : LocalOp :=
  { key := 1024, piece := fun o n => .write (writesIn ws o n), now := fun s => (s.writeStore ws (b.who.map Requester.code), .done) }

def State.localWrite (s : State) (b : LocalBy) (off len : Nat) (ws : List WordWrite) : State × LocalRes :=
  s.localAccess b off len (b.writes ws)

/-- A write that is performed whole when its slots are free, and otherwise waits where it is, to be presented again (log 66). -/
def State.writeOnce (s : State) (b : LocalBy) (off len : Nat) (ws : List WordWrite) : State × LocalRes :=
  match s.localStop b off len with
  | some r => r
  | none =>
    match s.slotsNow b (b.writes ws) (accessPieces off len) with
    | some s => (s.writeStore ws (b.who.map Requester.code), .done .done)
    | none => (s, .wait)

/-- The requests that an access of a peer divides into, each with its sink (R305, R504). -/
def State.pushPeer (s : State) (typ : Nat) (m : FMsg) (len : Nat) (r : MemReq) (op : Nat → Nat → MemOp) : State :=
  let ps := accessPieces m.offset len
  if ps.length = 1 then s.push m.offset { r with op := op m.offset len, sink := .remote m.src m.tag typ m.offset }
  else
    let x : PeerReq := { id := s.bufNext, node := m.src, tag := m.tag, typ := typ, offset := m.offset, parts := ps.length }
    ps.zipIdx.foldl (fun s p => s.push p.1.1 { r with op := op p.1.1 p.1.2, sink := .peer x.id p.2 })
      { s with bufNext := s.bufNext + 1, peers := s.peers ++ [x] }

/-- A write that nothing waits for but its sinks: each piece is performed at once when its channel or bank serves it next, and waits there
otherwise; a piece queued behind another of the access keeps the order of R41. -/
def State.postLocal (s : State) (off len : Nat) (ws : List WordWrite) (r : MemReq) : State :=
  (accessPieces off len).foldl (fun s p =>
    let r := { r with op := .write (writesIn ws p.1 p.2), arrived := s.now }
    match s.slotNow r with
    | some s => (s.writeStore (writesIn ws p.1 p.2) r.who).deliver r.sink .done
    | none => s.push p.1 r) s

end Sys2Proof.Machine
end

