-- ==== Sys2Proof/Machine/Xlat.lean ====
section
/-! DEFINITION. Tethers, remote reads of agents that wait, table walks and the translation caches
(R216 to R219, R251 to R270). -/
namespace Sys2Proof.Machine
open Reg

/-! Entries and leaves (R255 to R260). -/

/-- What an access needs of a leaf (R260). -/
inductive XAcc where
  | read | write | atomic | fetch
  deriving DecidableEq, Repr

def XAcc.allowed (a : XAcc) (entry : Nat) : Bool :=
  match a with
  | .read => bitOf entry 2
  | .write => bitOf entry 3
  | .atomic => bitOf entry 2 && bitOf entry 3
  | .fetch => bitOf entry 4

/-- Who translates: its agent number, context, access ring and access, the SVU or core whose caches serve it, the chain whose
order holds it and whose stop reports what its walks meet, and else the requester that a record of a refused walk names. -/
structure Walker where
  agent : Nat
  ctx : Nat
  ring : Nat
  acc : XAcc
  svu : Option Nat := none
  core : Option Nat := none
  chain : Option Nat := none
  who : Option Requester := none
  deriving DecidableEq, Repr

/-- Index of a level (R255). -/
def vaIndex (va level : Nat) : Nat := va / 2 ^ (12 + 9 * level) % 512

/-- The tag under which an entry of a level is cached. -/
def vaTag (va level : Nat) : Nat := va / 2 ^ (12 + 9 * level)

/-- The global address a leaf of a level gives (R257). -/
def leafGa (entry va level : Nat) : Nat :=
  let k := 12 + 9 * level
  bitsOf entry 51 k * 2 ^ k + va % 2 ^ k

/-- What the checks of orders 5 to 8 say of an entry (R259). -/
inductive EntryRes where
  | fail (status cause : Nat)
  | table (ga : Nat)
  | leaf
  deriving DecidableEq, Repr

def checkEntry (level entry ring : Nat) (acc : XAcc) : EntryRes :=
  let leaf := bitOf entry 1
  let low := match level with
    | 2 => bitsOf entry 29 12
    | 1 => bitsOf entry 20 12
    | _ => 0
  if !bitOf entry 0 then .fail ST_WALK_FAULT 3
  else if bitsOf entry 63 52 ≠ 0 || bitsOf entry 11 7 ≠ 0 || (!leaf && bitsOf entry 6 2 ≠ 0) || (leaf && 3 ≤ level)
      || (!leaf && level == 0) || (leaf && low ≠ 0) then .fail ST_WALK_FAULT 4
  else if !leaf then .table (bitsOf entry 51 12 * 4096)
  else if bitsOf entry 6 5 < ring then .fail ST_WALK_FAULT 5
  else if !acc.allowed entry then .fail ST_WALK_FAULT 6
  else .leaf

/-- Orders 1 and 2 on a table address. -/
def State.tableCause (s : State) (ctx table : Nat) : Option (Nat × Nat) :=
  let far := gaNode table != s.node
  let bad := match rangeOf (gaOff table) with
    | .memory => false
    | .scratch _ => far
    | _ => true
  if bad then some (ST_WALK_DEVICE, 9)
  else if far && !s.on (XLAT_CTX_CFG_REMOTE_OK ctx) then some (ST_WALK_FAULT, 8)
  else none

/-! Tethers. -/

/-- Two issuers are one ring, or one task. -/
def sameIssuer : Issuer → Issuer → Bool
  | .ring r _, .ring q _ => r == q
  | .task c t, .task c' t' => c == c' && t == t'
  | _, _ => false

/-- Chain `e` is earlier than `c` in the order that holds `c`: the order of their packets on a ring, where RELAX takes `c` out of it (R210,
R211, R279), and of issue in a task (R215). -/
def Chain.before (e c : Chain) : Bool :=
  e.phase != .ended && sameIssuer e.issuer c.issuer
    && (match e.issuer, c.issuer with
      | .ring _ a, .ring _ b => seqEarlier a b && !dRelax c.desc
      | _, _ => decide (e.id < c.id))

/-- The granules that writes of computed elements of a chain not yet performed touch (R216), and once it stops those that its stop puts
back (R230). -/
def Chain.granules (c : Chain) (node : Nat) : List Nat :=
  let back := match c.stop with
    | some (f, _) => (c.wrote.filter (fun x => decide (f ≤ x.elem) || x.hid != 0)).map (fun x => gaOf x.node x.word / 256)
        ++ (c.atoms.filter (fun u => f ≤ u.elem)).map (fun u => u.ga / 256)
    | none => []
  c.slices.flatMap (fun l => (l.outs.filter (fun o => (slotD c.desc o.slot).kind != kLoft)).map
      (fun o => o.ga c.desc node l.svu / 256))
    ++ c.flying.map (fun x => gaOf x.node x.word / 256) ++ c.atomFlying.map (fun a => a.2.2 / 256) ++ back

/-- The places a finished chain writes: its reduction slots, then an image of each reduction node when its ring has an image
area, nodes counted from place 16 (R109, R195, R680). -/
def State.reducePlaces (s : State) (c : Chain) : List Nat :=
  let slots := (outputsOf c.desc).filter (fun k => (slotD c.desc k).reduces c.desc)
  match c.issuer with
  | .ring r _ =>
    if s.on (CMDR_IMG_EN r) then
      slots ++ ((nodesOf c.desc).filter (fun n => isReduction (nodeD c.desc n).op)).map (fun n => 16 + n)
    else slots
  | .task .. => slots

/-- The places whose writes are not yet performed. -/
def State.placesDue (s : State) (c : Chain) : List Nat :=
  if c.stop.isSome then []
  else if c.phase = .reducing then c.redTodo ++ c.redLeft.map (· / 64) else s.reducePlaces c

/-- Virtual address of a node's image (R195). -/
def State.imageVa (s : State) (c : Chain) (n : Nat) : Nat :=
  match c.issuer with
  | .ring r _ => s.rd (CMDR_IMG_VA r) + 0x280 * n
  | .task .. => 0x280 * n

/-- The SVU that writes a chain's reduction values: that of its first slice. -/
def Chain.reduceSvu (c : Chain) : Nat := ((c.slices.head?).map (fun l => l.svu)).getD 0

/-- The ring that a chain's translations use (R252). -/
def State.chainRing (s : State) (c : Chain) : Nat := max c.ring (s.rd (XLAT_CTX_CFG_RING (dCtx c.desc)))

/-- A virtual address of a chain may lie in a granule, as its tables stand: those of another module are not known here. -/
def State.vaReaches (s : State) (c : Chain) (va granule : Nat) : Nat → Nat → Nat → Bool
  | 0, _, _ => false
  | n + 1, level, table =>
    if (s.tableCause (dCtx c.desc) table).isSome then false
    else if gaNode table ≠ s.node then true
    else
      let e := leNat (s.peek (gaOff table + 8 * vaIndex va level) 8)
      match checkEntry level e (s.chainRing c) .write with
      | .fail .. => false
      | .table ga => s.vaReaches c va granule n (level - 1) ga
      | .leaf => leafGa e va level / 256 == granule

/-- A write of `n` bytes at a virtual address of a chain may touch a granule. -/
def State.spanReaches (s : State) (c : Chain) (va n granule : Nat) : Bool :=
  (List.range ((va + n - 1) / 64 - va / 64 + 1)).any (fun k =>
    s.vaReaches c ((va / 64 + k) * 64) granule 5 4 (s.rd (XLAT_CTX_ROOT_ROOT (dCtx c.desc)) * 4096))

/-- The write of a place may touch a granule; where an INDEXED one goes is not known before its index is read. -/
def State.placeReaches (s : State) (c : Chain) (place granule : Nat) : Bool :=
  if 16 ≤ place then s.spanReaches c (s.imageVa c (place - 16)) 640 granule
  else
    let sd := slotD c.desc place
    if sd.kind = kLoft then false
    else if sd.kind = kScratch then gaOf s.node (windowOf c.reduceSvu + sd.base) / 256 == granule
    else if sd.kind = kIndexed then true
    else s.spanReaches c sd.base sd.et.size granule

/-- An access of a chain to a granule is held (R217, R262). -/
def State.tethered (s : State) (chain granule : Nat) : Bool :=
  match s.chainOf chain with
  | none => false
  | some c => s.chains.any (fun e => e.before c
      && ((e.granules s.node).contains granule || (s.placesDue e).any (fun p => s.placeReaches e p granule)))

/-- The read of an entry: its value, a failure (orders 3 and 4; `made` says that the read itself poisoned the word), or a wait. -/
inductive EntryRead where
  | value (n : Nat)
  | fail (status cause : Nat) (made : Bool)
  | wait
  deriving DecidableEq, Repr

/-- A status and a data word of a remote table read, by orders 3 and 4. -/
def remoteEntry (r : Answer) : EntryRead :=
  if r.status = ST_OK then (if r.bad.isEmpty then .value (leNat r.bytes) else .fail ST_WALK_FAULT 7 false)
  else if r.status = ST_POISON then .fail ST_WALK_FAULT 7 false
  else .fail r.status 10 false

/-- The read of the entry at a global address, in the walk of an address, at the requesting module (R263). What it meets is recorded
now for a walker of its own, and by the stop of a chain (R60, R61, R259). -/
def State.readEntry (s : State) (w : Walker) (va ga : Nat) : State × EntryRead :=
  let held := match w.chain with
    | some id => s.tethered id (ga / 256)
    | none => false
  if held then (s, .wait)
  else if gaNode ga ≠ s.node then
    match s.askRemote w.agent ga 8 (readMsg ga 8) (some (w.ctx, va)) with
    | (s, none) => (s, .wait)
    | (s, some r) => (s, remoteEntry r)
  else
    match s.localRead { agent := w.agent, svu := w.svu, kind := .walk, who := w.who, walk := some (w.ctx, va) } (gaOff ga) 8 with
    | (s, .blocked st) => (s, .fail st 10 false)
    | (s, .done (.data bs bad made)) =>
      if bad.isEmpty then (s, .value (leNat bs))
      else (if w.chain.isSome then s else s.reportAll bad made, .fail ST_WALK_FAULT 7 (!made.isEmpty))
    | (s, _) => (s, .wait)

/-! Caches (R264, R265). -/

/-- The cached entry that serves an address, in a cache. -/
def cacheHit (l : List CacheEntry) (ctx va : Nat) : Option CacheEntry :=
  (l.filter (fun e => e.ctx == ctx && vaTag va e.level == e.va)).foldl (fun m e =>
    match m with
    | none => some e
    | some x => if e.level < x.level then some e else some x) none

/-- An entry installed in a cache of `cap` entries; the oldest leaves when it is full. -/
def cachePut (l : List CacheEntry) (cap : Nat) (e : CacheEntry) : List CacheEntry :=
  let l := l.filter (fun x => !(x.ctx == e.ctx && x.level == e.level && x.va == e.va)) ++ [e]
  l.drop (l.length - cap)

def State.leafHit (s : State) (w : Walker) (va : Nat) : Option CacheEntry :=
  match w.svu, w.core with
  | some i, _ => cacheHit (s.svu i).leaf w.ctx va
  | none, some c => cacheHit (s.coreSt c).leaf w.ctx va
  | none, none => none

/-- Where a walk begins: below the lowest cached table entry, or at the root. -/
def State.walkStart (s : State) (w : Walker) (va : Nat) : Nat × Nat :=
  let root := s.rd (XLAT_CTX_ROOT_ROOT w.ctx) * 4096
  match w.svu with
  | some i =>
    match cacheHit (s.svu i).table w.ctx va with
    | some e => (e.level - 1, bitsOf e.entry 51 12 * 4096)
    | none => (4, root)
  | none => (4, root)

/-- A successful walk's leaf and table entries enter the caches. -/
def State.install (s : State) (w : Walker) (leaf : CacheEntry) (path : List CacheEntry) : State :=
  match w.svu, w.core with
  | some i, _ =>
    let x := s.svu i
    s.setSvu i { x with leaf := cachePut x.leaf 512 leaf, table := path.foldl (fun t e => cachePut t 64 e) x.table }
  | none, some c => s.setCore c { s.coreSt c with leaf := cachePut (s.coreSt c).leaf 128 leaf }
  | none, none => s

/-! Translation. -/

/-- The outcome of a translation. -/
inductive XRes where
  | ok (ga : Nat)
  | fail (c : StopCause)
  | wait
  deriving DecidableEq, Repr

def State.walkBegun (s : State) : State := s.count XLAT_WALKS_WALKS 1
def State.walkFailed (s : State) : State := s.count XLAT_WALK_FAULTS_FAULTS 1

/-- One level of a walk: its table address checked, its entry read and checked (R259). -/
inductive LevelRes where
  | fail (x : StopCause)
  | wait
  | table (ga : Nat) (e : CacheEntry)
  | leaf (e : CacheEntry)
  deriving DecidableEq, Repr

def State.walkLevel (s : State) (w : Walker) (va level table : Nat) : State × LevelRes :=
  let ga := table + 8 * vaIndex va level
  let why := fun (st cause : Nat) (made : Bool) =>
    ({ status := st, va := va, level := level, cause := cause, ga := ga, made := made } : StopCause)
  match s.tableCause w.ctx table with
  | some (st, cause) => (s, .fail (why st cause false))
  | none =>
    match s.readEntry w va ga with
    | (s, .wait) => (s, .wait)
    | (s, .fail st cause made) => (s, .fail (why st cause made))
    | (s, .value n) =>
      let e : CacheEntry := { ctx := w.ctx, level := level, va := vaTag va level, entry := n }
      match checkEntry level n w.ring w.acc with
      | .fail st cause => (s, .fail (why st cause false))
      | .table ga => (s, .table ga e)
      | .leaf => (s, .leaf e)

/-- A walk from a level down, ending in one step unless it must wait. -/
def State.walkDown (s : State) (w : Walker) (va : Nat) : Nat → Nat → Nat → List CacheEntry → State × XRes
  | 0, _, _, _ => (s, .wait)
  | n + 1, level, table, path =>
    match s.walkLevel w va level table with
    | (s, .wait) => (s, .wait)
    | (s, .fail x) => (s.walkFailed, .fail x)
    | (s, .table ga e) => s.walkDown w va n (level - 1) ga (path ++ [e])
    | (s, .leaf e) => (s.install w e path, .ok (leafGa e.entry va e.level))

/-- What a cached leaf gives an access: its address, or the failure of order 7 or 8. -/
def leafRes (w : Walker) (va : Nat) (e : CacheEntry) : XRes :=
  match checkEntry e.level e.entry w.ring w.acc with
  | .leaf => .ok (leafGa e.entry va e.level)
  | .fail st cause => .fail { status := st, va := va, level := e.level, cause := cause }
  | .table _ => .wait

/-- The context is off (R254). -/
def State.ctxOff (s : State) (w : Walker) : Bool := !s.on (XLAT_CTX_CFG_ENABLE w.ctx)

/-- The mark of a walk in progress. -/
def Walker.key (w : Walker) (va : Nat) : Nat × Nat × Nat × Nat := (w.agent, w.ctx, va, w.chain.getD 0)

/-- Walks in progress of an SVU: those of its input slots and those of its outputs and atomics (R264). -/
def State.svuWalks (s : State) (i : Nat) : Nat :=
  (s.svu i).walks.length + (s.walking.filter (fun k => k.1 == agentSvu i || k.1 == agentSvu i + 200)).length

/-- A walk ends: its mark and its reads are dropped. -/
def State.walkEnds (s : State) (w : Walker) (va : Nat) : State :=
  { s with
    walking := s.walking.filter (· != w.key va)
    rbuf := s.rbuf.filter (fun b => !(b.agent == w.agent && b.walk == some (w.ctx, va))) }

/-- A virtual address translated (R254 to R265). A walk that must wait stays begun until it ends, and counts once (R284); that of an
agent without caches stays until the access it serves is over. An SVU with eight walks in progress begins none (R264). -/
def State.translate (s : State) (w : Walker) (va : Nat) : State × XRes :=
  if 2 ^ 57 ≤ va then (s, .fail { status := ST_XLAT_FAULT, va := va % 2 ^ 57, cause := 1 })
  else if s.ctxOff w then
    (s.walkBegun.walkFailed, .fail { status := ST_XLAT_FAULT, va := va, cause := 2 })
  else
    match s.leafHit w va with
    | some e => (s, leafRes w va e)
    | none =>
      let begun := s.walking.contains (w.key va)
      let full := match w.svu with
        | some i => decide (8 ≤ s.svuWalks i)
        | none => false
      if !begun && full then (s, .wait)
      else
        let s : State := if begun then s else { s.walkBegun with walking := s.walking ++ [w.key va] }
        let (level, table) := s.walkStart w va
        match s.walkDown w va 5 level table [] with
        | (s, .wait) => (s, .wait)
        | (s, .ok ga) => (if w.svu.isSome || w.core.isSome then s.walkEnds w va else s, .ok ga)
        | (s, r) => (s.walkEnds w va, r)

/-! Invalidation (R267 to R269). -/

/-- What an XLAT_INVAL drops. -/
inductive InvScope where
  | all
  | ctx (c : Nat)
  | range (c va bytes : Nat)
  deriving DecidableEq, Repr

def InvScope.leaf (x : InvScope) (e : CacheEntry) : Bool :=
  match x with
  | .all => true
  | .ctx c => e.ctx == c
  | .range c va n =>
    let k := 2 ^ (12 + 9 * e.level)
    e.ctx == c && decide (e.va * k < va + n) && decide (va < (e.va + 1) * k)

def InvScope.ofCtx (x : InvScope) (c : Nat) : Bool :=
  match x with
  | .all => true
  | .ctx d => c == d
  | .range d _ _ => c == d

/-- Cached entries dropped, and walks of the contexts begun again from level 4, each counted as a walk; what their reads bring is
not used, whether it has arrived or not (R268, R284). -/
def State.invalidate (s : State) (x : InvScope) : State :=
  let again := (s.svus.map (fun p : Nat × SvuState => (p.2.walks.filter (fun w => x.ofCtx w.ctx)).length)).sum
    + (s.walking.filter (fun k => x.ofCtx k.2.1)).length
  let s := s.count XLAT_WALKS_WALKS again
  let root := fun c : Nat => s.rd (XLAT_CTX_ROOT_ROOT c) * 4096
  { s with
    svus := s.svus.map (fun p : Nat × SvuState => (p.1, { p.2 with
      leaf := p.2.leaf.filter (fun e => !x.leaf e)
      table := p.2.table.filter (fun e => !x.ofCtx e.ctx)
      walks := p.2.walks.map (fun w => if x.ofCtx w.ctx then { w with level := 4, table := root w.ctx, path := [] } else w) }))
    cores := s.cores.map (fun p : Nat × CoreState => (p.1, { p.2 with leaf := p.2.leaf.filter (fun e => !x.leaf e) }))
    rbuf := s.rbuf.filter (fun b => match b.walk with
      | some k => !x.ofCtx k.1
      | none => true) }

end Sys2Proof.Machine
end

