-- ==== Sys2Proof/Machine/Access.lean ====
section
/-! DEFINITION. Reads and writes that the block mover's port performs for the command engine and the rings:
local or remote, with the outcomes that R23, R25, R30, R31, R60 and R458 give a block-mover access (R403, R414). -/
namespace Sys2Proof.Machine
open Reg

/-- The outcome of such an access: bytes read (none for a write), a status with the global address it was met at, or a wait. -/
inductive Got where
  | bytes (bs : List Byte)
  | fail (status ga : Nat)
  /-- Poison: the bytes below the first poisoned 64-byte word, and that word's address. -/
  | poison (pre : List Byte) (ga : Nat)
  | wait
  deriving DecidableEq, Repr

/-- Pieces of a range that lie in one granule each (R503). -/
def granulePieces (ga len : Nat) : List (Nat × Nat) :=
  if len = 0 then []
  else
    (List.range ((ga + len - 1) / 256 - ga / 256 + 1)).map (fun k =>
      let lo := max ga ((ga / 256 + k) * 256)
      (lo, min (ga + len) ((ga / 256 + k + 1) * 256) - lo))

/-- Pieces of a range that lie in one 64-byte word each, so that a poisoned word is known by its address (R458). -/
def linePieces (ga len : Nat) : List (Nat × Nat) :=
  if len = 0 then []
  else
    (List.range ((ga + len - 1) / 64 - ga / 64 + 1)).map (fun k =>
      let lo := max ga ((ga / 64 + k) * 64)
      (lo, min (ga + len) ((ga / 64 + k + 1) * 64) - lo))

/-- A read that goes on after the bytes it has. -/
def Got.after (g : Got) (pre : List Byte) : Got :=
  match g with
  | .bytes bs => .bytes (pre ++ bs)
  | .poison p ga => .poison (pre ++ p) ga
  | x => x

/-- The outcome of a remote read. -/
def remoteGot (ga : Nat) (r : Answer) : Got :=
  if r.status = ST_POISON then .poison [] (ga / 64 * 64)
  else if r.status ≠ ST_OK then .fail r.status ga
  else if r.bad.isEmpty then .bytes r.bytes else .poison [] (ga / 64 * 64)

/-- A read of module storage through the block mover's port. -/
def State.bmRead (s : State) (agent : Nat) (q : Requester) (ga len : Nat) : State × Got :=
  if 2 ^ 52 ≤ ga then (s.refuse q ga ST_PROTECTION, .fail ST_PROTECTION ga)
  else if crosses ga len then (s.refuse q (gaOff ga) ST_PROTECTION, .fail ST_PROTECTION ga)
  else if gaNode ga = s.node then
    let off := gaOff ga
    match s.localRead { agent := agent, kind := .bmvRead, who := some q } off len with
    | (s, .blocked st) => (s, .fail st ga)
    | (s, .done (.data bs bad made)) =>
      match bad with
      | [] => (s, .bytes bs)
      | w :: _ => (s.reportAll bad made, .poison (bs.take (w - off)) (gaOf s.node (w / 64 * 64)))
    | (s, _) => (s, .wait)
  else
    (linePieces ga len).foldl (fun (a : State × Got) p =>
      match a with
      | (s, .bytes bs) =>
        match s.askRemote agent p.1 p.2 (readMsg p.1 p.2) with
        | (s, none) => (s, .wait)
        | (s, some r) => (s, (remoteGot p.1 r).after bs)
      | x => x) (s, .bytes [])


/-- A write of module storage through the block mover's port; `flash` says that a programming request is admitted (R24). -/
def State.bmWrite (s : State) (agent : Nat) (q : Requester) (ga : Nat) (bs : List Byte) (flash : Bool) : State × Got :=
  let len := bs.length
  if 2 ^ 52 ≤ ga then (s.refuse q ga ST_PROTECTION, .fail ST_PROTECTION ga)
  else if crosses ga len then (s.refuse q (gaOff ga) ST_PROTECTION, .fail ST_PROTECTION ga)
  else if gaNode ga = s.node then
    let off := gaOff ga
    if rangeOf off = .flash ∧ flash then ((s.flashTouch).flashWrite (off - flashBase) bs, .bytes [])
    else
      match s.localWrite { agent := agent, kind := .bmvWrite, who := some q } off len (wordWrites off bs false) with
      | (s, .blocked st) => (s, .fail st ga)
      | (s, .done _) => (s, .bytes [])
      | (s, .wait) => (s, .wait)
  else
    (granulePieces ga len).foldl (fun (a : State × Got) p =>
      match a with
      | (s, .bytes _) =>
        match s.askRemote agent p.1 (writeKey p.2) (writeMsg p.1 ((bs.drop (p.1 - ga)).take p.2) false) with
        | (s, none) => (s, .wait)
        | (s, some r) => if r.status = ST_OK then (s, .bytes []) else (s, .fail r.status p.1)
      | x => x) (s, .bytes [])

/-- The status of an access that failed. -/
def Got.status (g : Got) : Nat :=
  match g with
  | .fail st _ => st
  | .poison _ _ => ST_POISON
  | _ => ST_OK

/-- A part of an access that lies in one page: its virtual address, length and global address. -/
structure VaPart where
  va : Nat
  len : Nat
  ga : Nat
  deriving DecidableEq, Repr

/-- The parts of [va, va + len) in pages of 4 KiB, each translated before any is accessed; else the failure or the wait. -/
def State.vaParts (s : State) (w : Walker) (va len : Nat) : State × Except Got (List VaPart) :=
  (List.range ((va + len - 1) / 4096 - va / 4096 + 1)).foldl (fun (a : State × Except Got (List VaPart)) k =>
    match a with
    | (s, .ok ps) =>
      let lo := max va ((va / 4096 + k) * 4096)
      let hi := min (va + len) ((va / 4096 + k + 1) * 4096)
      match s.translate w lo with
      | (s, .wait) => (s, .error .wait)
      | (s, .fail c) => (s, .error (.fail c.status lo))
      | (s, .ok ga) => (s, .ok (ps ++ [{ va := lo, len := hi - lo, ga := ga }]))
    | x => x) (s, .ok [])

/-- The first part of an access that R26, R23, R31 or R30 refuses: its requester's record is written and no byte of any part is
accessed. `one` says that the parts are one access, a burst, which may not lie in two ranges, windows or nodes (R26). -/
def State.partsBlocked (s : State) (k : ReachKind) (q : Requester) (ps : List VaPart) (one : Bool) : Option (State × Got) :=
  match ps with
  | [] => none
  | p :: rest =>
    if one && rest.any (fun x => gaNode x.ga != gaNode p.ga || rangeOf (gaOff x.ga) != rangeOf (gaOff p.ga)) then
      some (s.refuse q (gaOff p.ga) ST_PROTECTION, .fail ST_PROTECTION p.va)
    else
      match ps.find? (fun x => gaNode x.ga == s.node && (s.blocked k (gaOff x.ga) x.len).isSome) with
      | some x =>
        let st := (s.blocked k (gaOff x.ga) x.len).getD ST_PROTECTION
        some (s.refuse q (gaOff x.ga) st, .fail st x.va)
      | none => none

/-- An access of at most a burst's 4,096 bytes is one access (R26); a longer one is several. -/
def oneBurst (len : Nat) : Bool := decide (len ≤ 4096)

/-- The parts of an access have begun: answers to some of them wait. -/
def State.partsBegun (s : State) (agent : Nat) (ps : List VaPart) : Bool :=
  s.rbuf.any (fun b => b.agent == agent && b.walk.isNone && ps.any (fun p => decide (p.ga ≤ b.ga) && decide (b.ga < p.ga + p.len)))

/-- A read at a virtual address, with the outcome that a stream receives for the same cause. -/
def State.vaRead (s : State) (w : Walker) (q : Requester) (va len : Nat) : State × Got :=
  match s.vaParts w va len with
  | (s, .error g) => (s, g)
  | (s, .ok ps) =>
    match (if s.partsBegun w.agent ps then none else s.partsBlocked .bmvRead q ps (oneBurst len)) with
    | some r => r
    | none =>
      ps.foldl (fun (a : State × Got) p =>
        match a with
        | (s, .bytes bs) =>
          match s.bmRead w.agent q p.ga p.len with
          | (s, .fail st _) => (s, .fail st p.va)
          | (s, .poison pre g) => (s, .poison (bs ++ pre) (p.va / 4096 * 4096 + g % 4096))
          | (s, r) => (s, r.after bs)
        | x => x) (s, .bytes [])

/-- A write at a virtual address. -/
def State.vaWrite (s : State) (w : Walker) (q : Requester) (va : Nat) (bs : List Byte) : State × Got :=
  match s.vaParts w va bs.length with
  | (s, .error g) => (s, g)
  | (s, .ok ps) =>
    match (if s.partsBegun w.agent ps then none else s.partsBlocked .bmvWrite q ps (oneBurst bs.length)) with
    | some r => r
    | none =>
      ps.foldl (fun (a : State × Got) p =>
        match a with
        | (s, .bytes _) =>
          match s.bmWrite w.agent q p.ga ((bs.drop (p.va - va)).take p.len) false with
          | (s, .fail st _) => (s, .fail st p.va)
          | x => x
        | x => x) (s, .bytes [])

end Sys2Proof.Machine
end

