-- ==== Sys2Proof/Machine/Elements.lean ====
section
/-! DEFINITION. The value of every slot and node at an element index: masking, the element operations, and
the nodes of group 0x7 with their running state (R91, R114 to R116, R171 to R175, R203). -/
namespace Sys2Proof.Machine

/-- What an index is computed from: the descriptor, the original START, the index whose running state is held, the input
elements, the running states, the results of atomics, whether it is pass 2 of a verified window, and an upset: the pipe, the index
and the bit of the result it hits there (R315). -/
structure ElemEnv where
  d : List Nat
  start0 : Nat
  x : Nat
  get : Nat → Nat → Option InElem
  scans : Tab ScanState
  atoms : Tab Nat := []
  pass2 : Bool := false
  upset : Option (Nat × Nat × Nat) := none

/-- The value of a source at an index: its bits, whether it is off there, the flags its computation raises, an invalid decimal
operand, the failure of an input element it was taken from, for COMPRESS the position it is delivered to, and whether an input
element that it follows from has not come. -/
structure Val where
  bits : Nat := 0
  off : Bool := false
  flags : Nat := 0
  bad : Bool := false
  fail : Option StopCause := none
  pos : Nat := 0
  give : Bool := true
  miss : Bool := false
  deriving DecidableEq, Repr

/-- The element of an input slot as a spool, a bank, a loft register or the IOTA rule gives it. -/
def ElemEnv.elem (e : ElemEnv) (k i : Nat) : InElem :=
  let s := slotD e.d k
  if s.kind = kIota then { slot := k, elem := i, bits := iotaBits s i } else (e.get k i).getD { slot := k, elem := i }

/-- The bit of a MASK input slot. -/
def ElemEnv.maskBit (e : ElemEnv) (k i : Nat) : Bool := (e.elem k i).bits % 2 == 1

/-- Off state of an input slot at an index (R114); its MSRC names a MASK slot, its IDX a slot that is not INDEXED. -/
def ElemEnv.slotOff (e : ElemEnv) (k i : Nat) : Bool :=
  let s := slotD e.d k
  let byMask := fun t : SlotD => t.msrc != srcNone && !e.maskBit (t.msrc - 0x10) i
  if s.kind = kMask then false else byMask s || (s.kind == kIndexed && byMask (slotD e.d s.idx))

/-- The slots whose elements say whether an element of a slot is off: its MSRC, and for an INDEXED slot its IDX and that slot's
MSRC (R114). -/
def slotDeps (d : List Nat) (k : Nat) : List Nat :=
  let mask := fun t : SlotD => if t.msrc = srcNone then [] else [t.msrc - 0x10]
  let s := slotD d k
  mask s ++ (if s.kind = kIndexed then mask (slotD d s.idx) ++ [s.idx] else [])

/-- An element of an input slot has come, or needs no reading. -/
def ElemEnv.has (e : ElemEnv) (k i : Nat) : Bool := (slotD e.d k).kind == kIota || (e.get k i).isSome

/-- The value of an input slot at an index. -/
def ElemEnv.slotVal (e : ElemEnv) (k i : Nat) : Val :=
  let x := e.elem k i
  let off := e.slotOff k i
  { bits := x.bits, off := off, fail := if off then none else x.fail, miss := !(k :: slotDeps e.d k).all (fun j => e.has j i) }

/-- Bits of the constant an operand takes (R108). A constant that PERM names as B, which may be of any INT type, is read at 64
bits: the model's choice (log 67). -/
def needBits (n : NodeD) (need : Need) : Nat :=
  match need with
  | .valOut => n.ot.bits
  | .u64Opt | .int64 | .anyInt => 64
  | _ => n.it.bits

/-- The distance k of ESHIFT: IMM as a signed 8-bit number. -/
def shiftOf (n : NodeD) : Int := toSigned 8 n.imm

/-- The larger or smaller of two integer elements. -/
def intPick (t : EType) (isMax : Bool) (a b : Nat) : Nat :=
  if isMax then (if intVal t a < intVal t b then b else a) else (if intVal t b < intVal t a then b else a)

/-- Default of operand C of a group 0x7 row (R171). -/
def defaultC (op : Nat) (t : EType) : Nat :=
  match op with
  | 0x700 | 0x701 => 0
  | 0x709 => intBits t (intMax t)
  | 0x70A => intBits t (intMin t)
  | _ => zeroBits t

/-- The aggregate of an integer scan with an element taken in; `seen` says that it holds one. -/
def scanStep (op : Nat) (t : EType) (st : ScanState) (a : Nat) : Int :=
  match op with
  | 0x709 => if st.seen then (intPick t false st.agg.toNat a : Int) else (a : Int)
  | 0x70A => if st.seen then (intPick t true st.agg.toNat a : Int) else (a : Int)
  | _ => (((st.agg.toNat + a) % 2 ^ t.bits : Nat) : Int)

/-- An integer scan's aggregate combined with c. -/
def scanOut (op : Nat) (t : EType) (seen : Bool) (agg c : Nat) : Nat :=
  match op with
  | 0x709 => if seen then intPick t false c agg else c
  | 0x70A => if seen then intPick t true c agg else c
  | _ => (c + agg) % 2 ^ t.bits

/-- Both infinities are in a sum. -/
def Acc.bothInf (x : Acc) : Bool := x.pinf && x.ninf

/-- The delivered value of a floating scan from the running sum `acc` at this index, and the flags `fa` of its term (R175, R203). Both
infinities in the running sum raise NV at the first index that finds them there, whatever c is, unless a NaN entered first. -/
def fscanOut (n : NodeD) (rm : RMode) (st : ScanState) (acc : Acc) (i c : Nat) (fa : Nat) : Nat × Nat :=
  let (r, f) := extractSum (acc.feedAdd n.it false i c) n.ot rm
  let f := if acc.bothInf then (if !st.seen && !acc.nan then f ||| fNV else f - (f &&& fNV)) else f
  (r, f ||| fa ||| termFlags n.it [c] false)

/-- A node's operands. -/
structure Operands where
  a : Val
  b : Val
  c : Val
  msrc : Val
  deriving DecidableEq, Repr

/-- The node is off through its mask source. -/
def Operands.masked (o : Operands) : Bool := o.msrc.off || o.msrc.bits % 2 == 0

/-- An input element that an operand follows from has not come. -/
def Operands.miss (o : Operands) : Bool := o.msrc.miss || o.a.miss || o.b.miss || o.c.miss

/-- The first of several failures. -/
def firstFail (l : List Val) : Option StopCause := l.findSome? (fun v => v.fail)

/-- P0 of COMPRESS and EXPAND: the kept value, or C at START (R171). -/
def p0Of (st : ScanState) (c : Val) : Nat := if st.seen then st.p0 else if c.off then 0 else c.bits

/-- The running state of a group 0x7 node after an index (R275). -/
def advanceScan (n : NodeD) (st : ScanState) (i : Nat) (o : Operands) : ScanState :=
  let off := o.masked || o.a.off || o.b.off || o.c.off
  match n.op with
  | 0x700 =>
    let st := { st with p0 := p0Of st o.c, seen := true }
    if off || o.b.bits % 2 == 0 then st else { st with count := st.count + 1 }
  | 0x701 =>
    let st := { st with p0 := p0Of st o.c, seen := true }
    if o.masked || o.b.off || o.c.off || o.b.bits % 2 == 0 then st else { st with count := st.count + 1 }
  | 0x702 =>
    let k := shiftOf n
    if k ≤ 0 then st
    else { st with hist := (st.hist ++ [(i, o.a.bits, o.a.off)]).filter (fun h => i + 1 ≤ h.1 + k.toNat) }
  | 0x703 => if (i + 1) % 2 ^ n.imm = 0 then { st with hist := [] } else { st with hist := st.hist ++ [(i, o.a.bits, o.a.off)] }
  | 0x710 | 0x711 =>
    if off then st
    else
      let acc := st.acc.feedAdd n.it false i o.a.bits
      { st with acc := acc, seen := st.seen || (if n.op = 0x710 then acc.bothInf else st.acc.bothInf) }
  | _ => if off then st else { st with agg := scanStep n.op n.it st o.a.bits, seen := true }

/-- A value kept in a node's history. -/
def histVal (st : ScanState) (j : Nat) : Val :=
  match st.hist.find? (fun h => h.1 == j) with
  | some (_, v, off) => { bits := v, off := off }
  | none => {}

/-- The value a source names at an index; nodes are computed with one less fuel than their number needs, so fuel 13 is enough
for every node. -/
def ElemEnv.val (e : ElemEnv) : Nat → Nat → Nat → Nat → Val
  | 0, _, _, _ => {}
  | fuel + 1, src, bits, i =>
    if src = srcNone then { bits := 1 }
    else if srcConst src then { bits := constBits e.d (src - 0x20) bits }
    else if srcSlot src then e.slotVal (src - 0x10) i
    else
      let n := nodeD e.d src
      let row := (opRow n.op).getD { a := .no, pipe := .p0, types := fun _ _ => false }
      let at' := fun j =>
        ({ a := if n.op = 0x701 ∨ row.a = .no then {} else e.val fuel n.a (needBits n row.a) j
           b := if row.b = .no then {} else e.val fuel n.b (needBits n row.b) j
           c := if row.c = .no then {} else if n.c = srcNone then { bits := defaultC n.op n.it } else e.val fuel n.c (needBits n row.c) j
           msrc := e.val fuel n.msrc 1 j } : Operands)
      let o := at' i
      let rm := nodeRm e.d n
      let off := o.masked || o.a.off || o.b.off || o.c.off
      let fail := firstFail [o.msrc, o.a, o.b, o.c]
      let flip := fun v : Nat =>
        match e.upset with
        | some (p, j, b) => if p = pipeIn e.d e.pass2 src ∧ j = i then (v ^^^ 2 ^ b) % 2 ^ (if opMask n.op then 1 else n.ot.bits) else v
        | none => v
      if !isGroup7 n.op then
        if n.op = 0xB01 then
          { bits := flip (tabGet e.atoms 0 (i * 16 + src)), off := off, fail := fail, miss := o.miss }
        else if isReduction n.op || n.op = 0xB00 then
          { off := off, fail := fail, miss := o.miss
            flags := if off || n.op = 0xB00 || n.op = 0x605 then 0
              else termFlags n.it (if n.op = 0x601 || isDot n.op then [o.a.bits, o.b.bits] else [o.a.bits]) (n.op = 0x601 || isDot n.op) }
        else if off then { off := true, bits := zeroBits n.it, miss := o.miss }
        else
          let r := elemOp n.op n.imm n.it n.ot rm i o.a.bits o.b.bits o.c.bits
          { bits := flip r.bits, flags := r.flags, bad := r.badDec, fail := fail, miss := o.miss }
      else
        let st0 := tabGet e.scans {} src
        let (st, before) := (List.range (i - e.x)).foldl (fun (a : ScanState × Bool) k =>
          let o := at' (e.x + k)
          (advanceScan n a.1 (e.x + k) o, a.2 || o.miss)) (st0, false)
        let inRange := fun j : Int => decide ((e.start0 : Int) ≤ j) && decide (j < (dCount e.d : Int))
        let other := fun j : Int =>
          if inRange j then
            let a := if (e.x : Int) ≤ j then e.val fuel n.a n.it.bits j.toNat else histVal st0 j.toNat
            { a with off := a.off || o.masked || o.b.off || o.c.off, flags := 0, bad := false }
          else { o.c with off := o.masked || o.b.off || o.c.off, flags := 0, bad := false }
        let res : Val := match n.op with
          | 0x700 => { bits := o.a.bits, off := off, fail := fail, pos := p0Of st o.c + st.count, give := o.b.bits % 2 == 1 }
          | 0x701 =>
            if o.masked || o.b.off || o.c.off then { off := true, bits := zeroBits n.it, fail := fail }
            else if o.b.bits % 2 = 0 then { bits := zeroBits n.it, fail := fail }
            else
              let a := e.slotVal (n.a - 0x10) (p0Of st o.c + st.count)
              { a with fail := a.fail.orElse (fun _ => fail) }
          | 0x702 => other ((i : Int) - shiftOf n)
          | 0x703 =>
            let w : Nat := 2 ^ n.imm
            let b := (intVal ((srcType e.d n.b).getD .uint64) o.b.bits % (w : Int)).toNat
            other (((i - i % w) + b : Nat) : Int)
          | 0x710 =>
            let (r, f) := fscanOut n rm st (st.acc.feedAdd n.it false i o.a.bits) i o.c.bits (termFlags n.it [o.a.bits] false)
            { bits := r, flags := f, off := off, fail := fail }
          | 0x711 =>
            let (r, f) := fscanOut n rm st st.acc i o.c.bits (termFlags n.it [o.a.bits] false)
            { bits := r, flags := f, off := off, fail := fail }
          | 0x70B => { bits := scanOut n.op n.it st.seen st.agg.toNat o.c.bits, off := off, fail := fail }
          | _ => { bits := scanOut n.op n.it true (scanStep n.op n.it st o.a.bits).toNat o.c.bits, off := off, fail := fail }
        let res := if res.off then { res with bits := zeroBits n.it, flags := 0, fail := none } else res
        { res with bits := flip res.bits, miss := res.miss || o.miss || before }

/-- The value of a source, with enough fuel. -/
def ElemEnv.valOf (e : ElemEnv) (src bits i : Nat) : Val := e.val 14 src bits i

/-- Operands of node `n` at the current index, for its running state and its LACC. -/
def ElemEnv.operands (e : ElemEnv) (n i : Nat) : Operands :=
  let x := nodeD e.d n
  let row := (opRow x.op).getD { a := .no, pipe := .p0, types := fun _ _ => false }
  { a := if x.op = 0x701 ∨ row.a = .no then {} else e.valOf x.a (needBits x row.a) i
    b := if row.b = .no then {} else e.valOf x.b (needBits x row.b) i
    c := if row.c = .no then {} else if x.c = srcNone then { bits := defaultC x.op x.it } else e.valOf x.c (needBits x row.c) i
    msrc := e.valOf x.msrc 1 i }

/-- Running states after the current index. -/
def ElemEnv.advance (e : ElemEnv) : Tab ScanState :=
  (nodesOf e.d).foldl (fun t n =>
    if isGroup7 (nodeD e.d n).op then tabPut t n (advanceScan (nodeD e.d n) (tabGet e.scans {} n) e.x (e.operands n e.x)) else t) e.scans

/-- The empty accumulator of a reduction node (R189). -/
def emptyOf (n : NodeD) : Acc := accEmpty (accKindOf n.op) n.itype

/-- A reduction node's accumulator fed with the current index (R192); off elements are not fed. -/
def feedAcc (n : NodeD) (x : Acc) (i : Nat) (o : Operands) : Acc :=
  if o.masked || o.a.off || o.b.off then x
  else
    match n.op with
    | 0x600 => x.feedAdd n.it false i o.a.bits
    | 0x602 => x.feedAdd n.it true i o.a.bits
    | 0x603 => x.feedMinMax n.it false i o.a.bits
    | 0x604 => x.feedMinMax n.it true i o.a.bits
    | 0x605 => x.feedCnt
    | _ => x.feedDot n.it i o.a.bits o.b.bits

/-- Accumulators after the current index. -/
def ElemEnv.feed (e : ElemEnv) (accs : Tab Acc) : Tab Acc :=
  (nodesOf e.d).foldl (fun t n =>
    let x := nodeD e.d n
    if isReduction x.op then tabPut t n (feedAcc x (tabGet t (emptyOf x) n) e.x (e.operands n e.x)) else t) accs

/-- Input slots in the order their causes are taken: ascending, a slot that its MSRC or IDX defers after the slots these name
(R271). -/
def slotOrder (d : List Nat) : List Nat :=
  let ins := inputsOf d
  ins.foldl (fun (acc : List Nat) _ =>
    match ins.find? (fun k => !acc.contains k && (slotDeps d k).all (fun j => acc.contains j || !ins.contains j)) with
    | some k => acc ++ [k]
    | none => acc) []

/-- The first cause that an input slot gives an element (R271). -/
def ElemEnv.slotCause (e : ElemEnv) : Option StopCause :=
  (slotOrder e.d).findSome? (fun k => if (expandSlots e.d).contains k then none else (e.slotVal k e.x).fail)

/-- The cause that a node gives an element by its operands and its result (R98, R179). -/
def ElemEnv.nodeCause (e : ElemEnv) (n : Nat) : Option StopCause :=
  let v := e.valOf n 0 e.x
  if v.off then none
  else
    match v.fail with
    | some c => some c
    | none =>
      if v.bad then some { status := ST_DECIMAL_DATA, node := n }
      else if v.flags &&& dTraps e.d ≠ 0 then some { status := ST_FP_TRAP, node := n } else none

/-- The flags raised at the current index by every node that is not off. -/
def ElemEnv.flags (e : ElemEnv) : Nat :=
  (nodesOf e.d).foldl (fun f n => let v := e.valOf n 0 e.x; if v.off then f else f ||| v.flags) 0

/-- The flags of an element that stops: of the nodes up to the one that failed, of all when an output failed, of none when an
input did (R99, R271). -/
def ElemEnv.stopFlags (e : ElemEnv) (x : StopCause) : Nat :=
  (nodesOf e.d).foldl (fun f n =>
    let v := e.valOf n 0 e.x
    let counts := if x.node < 12 then decide (n ≤ x.node) else decide (x.slot < 12) && (slotD e.d x.slot).output
    if v.off || !counts then f else f ||| v.flags) 0

/-- The highest index, exclusive, at which node `n` or an input slot (`n = 0`) is used to compute the elements up to `hi`: each later
node, from the last one down, may look ahead of them (R174). -/
def neededTo (d : List Nat) (n hi : Nat) : Nat :=
  min (dCount d) (((nodesOf d).filter (fun m => decide (n ≤ m))).reverse.foldl (fun h m =>
    let x := nodeD d m
    if x.op = 0x702 ∧ shiftOf x < 0 then h + (-shiftOf x).toNat
    else if x.op = 0x703 then (h + 2 ^ x.imm - 1) / 2 ^ x.imm * 2 ^ x.imm
    else h) hi)

/-- Positions that an EXPAND node takes (R173) or a COMPRESS node delivers (R172) at the indices up to `hi`, as far as the elements
that say so have come, and whether that is all of them. -/
def ElemEnv.positions (e : ElemEnv) (n hi : Nat) : List Nat × Bool :=
  let x := nodeD e.d n
  ((List.range (hi - e.x)).foldl (fun (a : ScanState × List Nat × Bool) k =>
    let o := e.operands n (e.x + k)
    if !a.2.2 || o.miss then (a.1, a.2.1, false)
    else
      let off := o.masked || o.b.off || o.c.off || (x.op == 0x700 && o.a.off)
      let ps := if off || o.b.bits % 2 = 0 then a.2.1 else a.2.1 ++ [p0Of a.1 o.c + a.1.count]
      (advanceScan x a.1 (e.x + k) o, ps, true)) (tabGet e.scans {} n, [], true)).2

end Sys2Proof.Machine
end

