-- ==== Sys2Proof/Machine/Envelope.lean ====
section
/-! DEFINITION. The envelope manager: floors, lifts, the committed power, grants, denials and the level
(R526 to R546). -/
namespace Sys2Proof.Machine
open Reg

/-- Floor of a domain in units of 0.01 W (R532). -/
def domainFloor (d : Nat) : Nat :=
  if d < 24 then 81 else if d < 48 then 90 else if d < 60 then 540 else if d < 76 then 880
  else if d = 76 then 2700 else if d = 77 then 8600 else if d = 78 then 430 else if d = 79 then 320 else 0

/-- FLOOR in W: the always-on domain and every domain on or waking (R533). -/
def State.floorW (s : State) : Rat :=
  ((3560 + ((List.range 80).map (fun d =>
    if s.domainOn d || s.power.domWait.contains (d, true) then domainFloor d else 0)).sum : Nat) : Rat) / 100

/-- The input-derived envelope D in whole W, from VIN in mV (R527). -/
def envelopeD (vin : Nat) : Nat :=
  if 40000 ≤ vin then 1800 else if 10000 ≤ vin then vin * 4185 / 100000 else if 6000 ≤ vin then 250 else vin * 4185 / 100000

/-- The least of the caps that are set, and MAX_W (PWR_CAP.IN_EFFECT). -/
def State.capInEffect (s : State) : Nat :=
  let m := s.rd PWR_LIMIT_MAX_W
  let m := if s.on PWR_CAP_OPERATOR then min m (s.rd PWR_CAP_OPERATOR) else m
  if s.on PWR_CAP_BOARD then min m (s.rd PWR_CAP_BOARD) else m

/-- The envelope in effect (R528). -/
def State.envelope (s : State) : Nat := min (envelopeD s.power.vin) s.capInEffect

/-- The envelope level. -/
def State.level (s : State) : Nat := s.rd PWR_ENV_LEVEL

/-- The slices and map of the partition a ring is bound to (R427). -/
def State.partSlices (s : State) (r : Nat) : Nat := s.rd (CMDR_PART_INFO_S (s.rd (CMDR_CFG_PART r)))
def State.partMap (s : State) (r : Nat) : List Nat :=
  let p := s.rd (CMDR_CFG_PART r)
  (List.range (s.partSlices r)).map (fun i => bitsOf (s.reg (CMDR_PART_MAP p (i / 8))).toNat (8 * (i % 8) + 7) (8 * (i % 8)))

/-- The logical slices of an issuer and the SVU of each (R127, R427). -/
def State.mapOf (s : State) : Issuer → List Nat
  | .ring r _ => s.partMap r
  | .task c _ => rangeFrom (4 * c) 4

/-- An SVU can be handed a range: not fenced, its logic domain on (R430, R431). -/
def State.serves (s : State) (i : Nat) : Bool := !s.svuFenced i && s.logicOn (i / 4)

/-- The SVUs that a chain's unfinished ranges run on, or will when they are dispatched. -/
def State.chainSvus (s : State) (c : Chain) : List Nat :=
  let plan := fun lsl => (nextServing (if c.map.isEmpty then s.mapOf c.issuer else c.map) lsl s.serves).toList
  if c.slices.isEmpty then
    ((rangesOf c.desc c.start (s.mapOf c.issuer).length).flatMap (fun x => plan x.1)).dedup
  else
    ((c.slices.filter (fun l => l.phase != .done)).flatMap (fun l => if l.svu < 96 then [l.svu] else plan l.lsl)).dedup

/-- The lift of a LOFT operation on an SVU that holds no range (R534). -/
def loftLift (w0 level : Nat) : Rat :=
  let p := match (opRow (nodeOfWord w0).op).map (fun r => r.pipe) with
    | some .f => 0
    | some .i0 => 4
    | some .x0 => 5
    | some .a0 => 7
    | _ => 6
  liftOf (fun q => q == p) 0 level

/-- The largest lift that an SVU is charged among the granted chains and LOFT operations it holds (R535). -/
def State.svuLift (s : State) (cs : List Chain) (i level : Nat) : Rat :=
  let a := cs.foldl (fun (m : Rat) c => if (s.chainSvus c).contains i then max m (sliceLift c.desc level) else m) 0
  ((s.svu i).queue.filter (fun o => o.mark == 0)).foldl (fun m o => max m (loftLift o.w0 level)) a

/-- The committed power at a level with a list of granted chains (R535). -/
def State.committedWith (s : State) (cs : List Chain) (level : Nat) : Rat :=
  s.floorW + ((List.range 96).map (fun i => s.svuLift cs i level)).sum

/-- The granted chains. -/
def State.grantedChains (s : State) : List Chain := s.chains.filter (fun c => c.granted && c.phase != .ended)

def State.committed (s : State) : Rat := s.committedWith s.grantedChains s.level

/-- A chain's own lift at a level: every SVU its ranges run on (R535). -/
def State.chainLift (s : State) (c : Chain) (level : Nat) : Rat := ((s.chainSvus c).length : Rat) * sliceLift c.desc level

/-- The chain can never be granted: FLOOR and its lift at level 3 alone exceed the envelope (R537). -/
def State.denied (s : State) (c : Chain) : Bool := decide ((s.envelope : Rat) < s.floorW + s.chainLift c 3)

/-- A lift request takes its place by arrival (R536, R546). -/
def State.requestLift (s : State) (q : LiftReq) : State :=
  let w := s.power.waiting
  { s with power := { s.power with
    waiting := w.filter (fun x => x.since ≤ q.since) ++ [q] ++ w.filter (fun x => q.since < x.since) } }

/-- What a ramp adds to the input at a moment in ns, in W: none before it begins, all once it ends (R540). -/
def Ramp.inputAt (r : Ramp) (t : Nat) : Rat :=
  if t ≤ r.start then 0
  else if r.fin ≤ t then r.dp
  else r.dp * ((t - r.start : Nat) : Rat) / ((r.fin - r.start : Nat) : Rat)

/-- The surplus of the ramps' input at moment `t` over the load of those whose pipes have started by `started` (R540). -/
def surplusAt (rs : List Ramp) (started t : Nat) : Rat :=
  (rs.map (fun r => r.inputAt t - (if r.pipes ≤ started then r.dp else 0))).sum

/-- The moments at which a forecast changes its course, in order. -/
def rampMoments (rs : List Ramp) : List Nat :=
  ((rs.flatMap (fun r => [r.start, r.pipes, r.fin])).dedup).mergeSort (fun a b => decide (a ≤ b))

/-- The energies in W·ns that the ballast gains between two moments: one where the surplus keeps its sign, two where not. -/
def ballastLegs (rs : List Ramp) (a b : Nat) : List Rat :=
  let u := surplusAt rs a a
  let v := surplusAt rs a b
  let len : Rat := ((b - a : Nat) : Rat)
  if u * v < 0 then
    let x := len * u / (u - v)
    [u * x / 2, v * (len - x) / 2]
  else [(u + v) * len / 2]

/-- The forecast of the bus from 12.0 V never falls below 10.0 V, 8.8 mJ down; above 12.6 V, 2.95 mJ up, the vent takes the
rest (R540). -/
def forecastHolds (rs : List Ramp) : Bool :=
  let ms := rampMoments rs
  (((ms.zip (ms.drop 1)).flatMap (fun (a, b) => ballastLegs rs a b)).foldl (fun (e : Rat × Bool) x =>
    let y := min (e.1 + x) 2950000
    (y, e.2 && decide (-8800000 ≤ y))) (0, true)).2

/-- Duration in ns of the input ramp of a change of `dp` W: ΔI over S (R540). -/
def rampTime (dp : Rat) (vin slew : Nat) : Nat := (dp * 1000000 / ((max vin 1 * max slew 1 : Nat) : Rat)).ceil.toNat

/-- The ramp of `dp` W whose pipes start at `ts`: centred on it, and not before the grant (R540). -/
def State.rampAt (s : State) (chain : Option Nat) (dp : Rat) (ts : Nat) : Ramp :=
  let tr := rampTime dp s.power.vin s.power.slew
  let start := max s.now (ts - tr / 2)
  { chain := chain, start := start, pipes := ts, fin := start + tr, dp := dp }

/-- The first number from `n` on that passes a test, or the last that is tried. -/
def firstFrom (ok : Nat → Bool) (n : Nat) : Nat → Nat
  | 0 => n
  | fuel + 1 => if ok n then n else firstFrom ok (n + 1) fuel

/-- The start of the pipes after a grant of `dp` W (R540): the updraft lead, or later until the forecast with every ramp
already scheduled holds. -/
def State.pipesFrom (s : State) (dp : Rat) : Nat :=
  if dp ≤ 0 then s.now + 6000
  else
    firstFrom (fun t => forecastHolds (s.power.ramps ++ [s.rampAt none dp t])) (s.now + 6000)
      (rampTime dp s.power.vin s.power.slew + ((s.power.ramps.map (fun r => r.fin)).foldl max s.now - s.now))


/-- The level set: one source switch of PLL_CORE while it runs (R565), after which the raise conditions begin again. -/
def State.setLevel (s : State) (l : Nat) : State :=
  if s.level = l then s
  else
    let s := s.wr PWR_ENV_LEVEL l
    let s : State := { s with power := { s.power with upFrom := s.now } }
    if s.rd (CLK_PLL_STATE 1) < 2 then s else (s.wr (CLK_PLL_FREQ 1) (levelMhz l)).count CLK_SWITCHES_CORE 1

/-- The raise conditions of R538 hold, with R560's: no request waits, the higher level fits, no thermal condition, REFCLK good. -/
def State.mayRaise (s : State) : Bool :=
  s.power.rules && s.power.waiting.isEmpty && s.level != 0 && !s.power.thermal && !s.clock.refLost && s.rd (CLK_PLL_STATE 1) == 2
    && decide (s.committedWith s.grantedChains (s.level - 1) ≤ (s.envelope : Rat))

/-- The state `t` that follows `s`, with the wait of UP_HOLD begun again when the raise conditions begin to hold. -/
def State.holdFrom (s t : State) : State :=
  if t.mayRaise && !s.mayRaise then { t with power := { t.power with upFrom := t.now } } else t

/-- The level lowered by one step, counted (R538, R546, R547). -/
def State.lowerLevel (s : State) : State :=
  if s.level = 3 then s else (s.setLevel (s.level + 1)).count PWR_STAT_LEVEL_DOWNS 1

end Sys2Proof.Machine
end

