-- ==== Sys2Proof/Machine/LoftRegs.lean ====
section
/-! DEFINITION. Loft and mask registers: their bits under a grouping, their ECC words and outcomes
(R285 to R287, R306, R308). Word keys are 64 × physical register + 64-bit word, mask register PM_m as register 32 + m. -/
namespace Sys2Proof.Machine
open Reg

/-- The factor g of a GROUP code (R285). -/
def groupFactor (g : Nat) : Nat := 2 ^ g

/-- First concatenation bit of element `i` of `w` bits of LOFT_n, counted over all physical registers (R286). -/
def loftBit (g n w i : Nat) : Nat := 4096 * (groupFactor g * n) + w * i

/-- Word key of a loft bit. -/
def loftKey (lin : Nat) : Nat := lin / 64

/-- The bit of MASK_m for element `i`, counted over all physical mask registers. -/
def maskLin (g m i : Nat) : Nat := 512 * (groupFactor g * m) + i

/-- Word key of a mask bit. -/
def maskKey (lin : Nat) : Nat := (32 + lin / 512) * 64 + lin % 512 / 64

/-- A loft event latched, counted and recorded: KIND 4 corrected, 5 uncorrectable (R308). -/
def State.loftEvent (s : State) (i kind key : Nat) : State :=
  let s := ((s.wr (SVU_SP_LAST_ERR_VALID i) 1).wr (SVU_SP_LAST_ERR_WORD i) key).wr (SVU_SP_LAST_ERR_KIND i) kind
  let s := if kind = 4 then s.count (SVU_SP_ECC_LOFT_CE i) 1 else s.count (SVU_SP_ECC_LOFT_UE i) 1
  s.record { src := (if kind = 4 then srcLoftCe else srcLoftUe) + i / 4, inst := i % 4, aux := kind, addr := key }

def State.setLoftDmg (s : State) (i key : Nat) (d : Damage) : State :=
  let x := s.svu i
  s.setSvu i { x with loftDmg := if d = {} then tabDel x.loftDmg key else tabPut x.loftDmg key d }

/-- The decode of a loft word: repaired, or poisoned; the result says that it is poison (R306). -/
def State.loftDecode (s : State) (i key : Nat) : State × Bool :=
  let d := tabGet (s.svu i).loftDmg {} key
  let (pick, s) := if d.poison && !d.syms.isEmpty then s.fresh else (0, s)
  match decodeWord d pick with
  | .clean => (s, false)
  | .corrected _ => ((s.setLoftDmg i key {}).loftEvent i 4 key, false)
  | .uncorrectable => ((s.setLoftDmg i key { poison := true }).loftEvent i 5 key, true)
  | .poison => (s, true)

/-- `w` bits from a bit of a loft register, aligned to their width, as they are held. -/
def State.loftRaw (s : State) (i lin w : Nat) : Nat :=
  ((rangeFrom (loftKey lin) ((w + 63) / 64)).zipIdx).foldl (fun n k => n + tabGet (s.svu i).loft 0 k.1 * 2 ^ (64 * k.2)) 0
    / 2 ^ (lin % 64) % 2 ^ w

/-- `w` bits from a bit of a loft register, aligned to their width, and whether a word of them is poison. -/
def State.loftRead (s : State) (i lin w : Nat) : State × Nat × Bool :=
  let (s, bad) := (rangeFrom (loftKey lin) ((w + 63) / 64)).foldl (fun (a : State × Bool) k =>
    let (s, b) := a.1.loftDecode i k; (s, a.2 || b)) (s, false)
  (s, s.loftRaw i lin w, bad)

/-- A mask bit, and whether its word is poison. -/
def State.maskRead (s : State) (i lin : Nat) : State × Nat × Bool :=
  let key := maskKey lin
  let (s, bad) := s.loftDecode i key
  (s, tabGet (s.svu i).loft 0 key / 2 ^ (lin % 64) % 2, bad)

/-- Bits written to one loft or mask word: whole, or as a partial write (R62, R63, R306). -/
def State.loftWordPut (s : State) (i key mask data : Nat) : State :=
  let put := fun (s : State) (v : Nat) =>
    let x := s.svu i
    s.setSvu i { x with loft := if v = 0 then tabDel x.loft key else tabPut x.loft key v }
  if mask = 2 ^ 64 - 1 then (put s (data % 2 ^ 64)).setLoftDmg i key {}
  else
    let (s, _) := s.loftDecode i key
    put s (mergeBits (tabGet (s.svu i).loft 0 key) data mask)

/-- One piece of a register write: its word, its mask and its data there. -/
structure LoftPiece where
  key : Nat
  mask : Nat
  data : Nat
  deriving DecidableEq, Repr

/-- The pieces of an element of `w` bits at a loft bit. -/
def loftPieces (lin w v : Nat) : List LoftPiece :=
  (List.range ((w + 63) / 64)).map (fun k =>
    let n := min w 64
    let sh := lin % 64
    { key := loftKey lin + k, mask := (2 ^ n - 1) * 2 ^ sh, data := v / 2 ^ (64 * k) % 2 ^ n * 2 ^ sh })

/-- The piece of a mask bit. -/
def maskPiece (lin v : Nat) : LoftPiece := { key := maskKey lin, mask := 2 ^ (lin % 64), data := v % 2 * 2 ^ (lin % 64) }

/-- Pieces written in order, those of one word together. -/
def State.loftWrite (s : State) (i : Nat) (ps : List LoftPiece) : State :=
  ((ps.map (fun p => p.key)).dedup).foldl (fun s k =>
    let here := ps.filter (fun p => p.key == k)
    let mask := here.foldl (fun m p => m ||| p.mask) 0
    let data := here.foldl (fun d p => mergeBits d p.data p.mask) 0
    s.loftWordPut i k mask data) s

/-- Bit errors that an access finds in loft and mask words (R306). -/
def State.loftUpset (s : State) (i : Nat) (us : List LoftUpset) : State :=
  us.foldl (fun s u =>
    let key := u.reg * 64 + u.word
    let d := tabGet (s.svu i).loftDmg {} key
    if u.reg < 40 && u.word < 64 && !d.syms.contains u.bit then s.setLoftDmg i key { d with syms := d.syms ++ [u.bit] } else s) s

/-- What LOFT outputs replaced on an SVU is forgotten: its registers are lost. -/
def State.forgetLofts (s : State) (i : Nat) : State :=
  { s with chains := s.chains.map (fun c : Chain => { c with loftOlds := c.loftOlds.filter (fun o => o.svu != i) }) }

/-- Every loft and mask register of an SVU cleared, and the grouping back at GROUP 0 (R66, R310). -/
def State.loftClear (s : State) (i : Nat) : State :=
  (s.forgetLofts i).setSvu i { s.svu i with loft := [], loftDmg := [], group := 0 }

end Sys2Proof.Machine
end

