-- ==== Sys2Proof/Machine/ChainEnd.lean ====
section
/-! DEFINITION. What a chain's end leaves: its outcome on its ring or task, the stop state, the XLAT_STOP
latch, restored bytes and released records (R99, R129, R202, R225 to R232, R272 to R276, R282, R369, R370). -/
namespace Sys2Proof.Machine
open Reg

/-! Results of commands. -/

/-- A command of a ring ends with a result: it leaves the running packets and waits to be posted. -/
def State.finishCmd (s : State) (r : Nat) (x : Result) : State :=
  let q := s.ring r
  s.setRing r { q with running := q.running.filter (fun p => p.seq != x.seq), done := q.done ++ [x] }

def State.ringState (s : State) (r : Nat) : Nat := s.rd (CMDR_CTL_STATE r)

/-- The words of a packet, its CMD and its ENTRIES (R408). -/
def Packet.w (p : Packet) (k : Nat) : Nat := p.words.getD k 0
def Packet.cmd (p : Packet) : Nat := bitsOf (p.w 0) 7 0
def Packet.entries (p : Packet) : Nat := bitsOf (p.w 0) 11 8

/-- The commands of chains. -/
def isChainCmd (cmd : Nat) : Bool := cmd == 0x10 || cmd == 0x11 || cmd == 0x12

/-- A status that does not halt a ring (R214). -/
def goodStatus (st : Nat) : Bool := st == ST_OK || st == ST_VERIFY_RETRIED

/-- The result of a packet with a status. -/
def Packet.result (p : Packet) (status : Nat) : Result :=
  { seq := p.seq, cmd := bitsOf (p.words.getD 0 0) 7 0, tag := p.words.getD 2 0, status := status }

/-! Records below the clear index. -/

/-- Tail records and journal words that the clear index has passed are released (R229). -/
def State.releaseTail (s : State) (id : Nat) : State :=
  match s.chainOf id with
  | none => s
  | some c =>
    let k := c.clear
    { s with
      tail := s.tail.filter (fun t => !(t.chain == id && t.top < k))
      svus := s.svus.map (fun p : Nat × SvuState => (p.1, { p.2 with
        journal := p.2.journal.filter (fun t => !(t.chain == id && t.top < k))
        adds := p.2.adds.filter (fun a => !(a.chain == id && a.elem < k)) })) }.tailStat

/-- Every record of a chain released. -/
def State.dropTail (s : State) (id : Nat) : State :=
  { s with
    tail := s.tail.filter (fun t => t.chain != id)
    svus := s.svus.map (fun p : Nat × SvuState => (p.1, { p.2 with
      journal := p.2.journal.filter (fun t => t.chain != id), adds := p.2.adds.filter (fun a => a.chain != id) })) }.tailStat

/-! Flags, accumulators and running states at a stop. -/

/-- The flags raised at elements that meet a condition, each entry a flag bit and the lowest element that raised it. -/
def flagsWhere (l : List (Nat × Nat)) (p : Nat → Bool) : Nat := l.foldl (fun f x => if p x.2 then f ||| x.1 else f) 0

/-- Flags raised at an element enter a list of (bit, lowest element). -/
def addFlags (l : List (Nat × Nat)) (flags elem : Nat) : List (Nat × Nat) :=
  [fNV, fDZ, fOF, fUF, fNX, fSAT].foldl (fun l b =>
    if flags &&& b = 0 then l
    else
      match l.find? (fun x => x.1 == b) with
      | some x => if elem < x.2 then l.map (fun y => if y.1 = b then (b, elem) else y) else l
      | none => l ++ [(b, elem)]) l

def Chain.flagsWhere (c : Chain) (p : Nat → Bool) : Nat :=
  c.slices.foldl (fun f l => f ||| Machine.flagsWhere l.flags p) c.flags

/-- Images of one slice covering its elements below `f` (R202): what it started from, what it has up to its last element, what is
committed of a verified slice, or what it kept at `f`. -/
def Slice.accsAt (l : Slice) (f : Nat) : Tab Acc :=
  if f ≤ l.first then l.accs0
  else if l.verify && decide (l.base ≤ f) then l.commitAccs
  else if !l.verify && decide (l.next ≤ f) then l.accs
  else ((l.snaps.find? (fun x => x.1 == f)).map (fun x => x.2.1)).getD (if l.verify then l.commitAccs else l.accs)

/-- Running states of one slice at `f`. -/
def Slice.scansAt (l : Slice) (f : Nat) : Tab ScanState :=
  if l.verify && decide (l.base ≤ f) then l.commitScans
  else if !l.verify && decide (l.next ≤ f) then l.scans
  else ((l.snaps.find? (fun x => x.1 == f)).map (fun x => x.2.2)).getD (if l.verify then l.commitScans else l.scans)

/-- Two tables of images merged node by node, the first one first (R193). -/
def mergeAccs (d : List Nat) (x y : Tab Acc) : Tab Acc :=
  (nodesOf d).foldl (fun t n =>
    match tabFind x n, tabFind y n with
    | some a, some b => tabPut t n (a.merge b)
    | some a, none => tabPut t n a
    | none, some b => tabPut t n b
    | none, none => t) []

/-- The merged images of a chain covering its elements below `f`, kept images first, slices in ascending order (R202, R280). -/
def Chain.accsAt (c : Chain) (f : Nat) : Tab Acc :=
  c.slices.foldl (fun t l => mergeAccs c.desc t (l.accsAt f)) c.keptAccs

/-! Stops. -/

/-- Statuses at which R232 keeps the chain resumable. -/
def resumable (st : Nat) : Bool :=
  [ST_XLAT_FAULT, ST_WALK_FAULT, ST_WALK_DEVICE, ST_PROTECTION, ST_POISON, ST_FP_TRAP, ST_DECIMAL_DATA, ST_NOT_READY, ST_FENCED,
   ST_FABRIC_UNREACHABLE, ST_PEER_RESET, ST_BAD_PARAM, ST_PARTIAL, ST_ABORTED_RESET, ST_VERIFY_FAILED, ST_TORN].contains st

/-- XLAT_STOP registers of a ring (R272, R282), and the class A record. -/
def State.latchStop (s : State) (r seq : Nat) (d : List Nat) (x : StopCause) (index : Nat) : State :=
  let s := s.record { src := srcXlatStop + r, aux := seq, addr := index, status := x.status }
  if s.on (XLAT_STOP_INFO_VALID r) then s.wr (XLAT_STOP_INFO_OVERFLOW r) 1
  else
    let info := 2 ^ 63 + bitsOf (s.reg (XLAT_STOP_INFO r)).toNat 62 62 * 2 ^ 62 + dCtx d * 2 ^ 48 + x.status * 2 ^ 40
      + x.slot * 2 ^ 36 + x.node * 2 ^ 32 + seq
    let s := s.setReg (XLAT_STOP_INFO r) (BitVec.ofNat 64 info)
    let s := s.setReg (XLAT_STOP_VA r) (BitVec.ofNat 64 (x.va % 2 ^ 57))
    let s := s.setReg (XLAT_STOP_INDEX r) (BitVec.ofNat 64 (x.cause * 2 ^ 60 + x.level * 2 ^ 57 + index))
    s.setReg (XLAT_STOP_TAG r) (BitVec.ofNat 64 (dTag d))

/-- The records that the delivery of a cause writes: poison used, by a stream or by a walk (R61, R259), and a stream access or table read
that this module refused (R25, R30, R31). A refusal by another module is recorded there. -/
def State.reportCause (s : State) (svu : Nat) (x : StopCause) : State :=
  let far := gaNode x.ga != s.node
  if x.ga = noGa then s
  else if x.status = ST_POISON ∨ x.cause = 7 then (if x.made || far then s else s.reportPoison (gaOff x.ga))
  else if far && !x.here then s
  else if x.status = ST_PROTECTION ∨ x.status = ST_NOT_READY ∨ x.status = ST_FENCED then
    if x.cause = 10 then s.refuse (.walk svu) (gaOff x.ga) x.status
    else if x.cause = 0 then s.refuse (.stream svu) (gaOff x.ga) x.status
    else s
  else s

/-! What a stop puts back (R230). -/

/-- The contributions of a chain to a word. -/
def Chain.toWord (c : Chain) (node word : Nat) : List Contrib := c.wrote.filter (fun x => x.node == node && x.word == word)

/-- Bits of a word that the highest element below `f` to write them was not applied to, under one at or above `f` (R220). -/
def hiddenBits (here : List Contrib) (f : Nat) : Nat :=
  layContribs 0 ((here.filter (fun x => x.elem < f)).map (fun x => { x with data := x.hid })) Contrib.mask

/-- Bits of a word that a stop at `f` puts back: those that elements at or above `f` wrote, and those still to be applied. -/
def backBits (here : List Contrib) (f : Nat) : Nat :=
  (here.filter (fun x => f ≤ x.elem)).foldl (fun (m : Nat) (x : Contrib) => m ||| x.shown) (hiddenBits here f)

/-- The words of this module that a stop at `f` puts bits back in. -/
def Chain.backWords (c : Chain) (node f : Nat) : List Nat :=
  (((c.wrote.filter (fun x => x.node == node)).map (fun x => x.word)).dedup).filter (fun w => backBits (c.toWord node w) f != 0)

/-- A word put back (step 3 of R230): its bits take the value of the highest element below `f` that wrote them, or the old one; its old
poison stays unless a write of lower elements covered the word (R63). -/
def State.restoreWord (s : State) (c : Chain) (f w : Nat) : State :=
  let here := c.toWord s.node w
  let low := here.filter (fun x => x.elem < f)
  let old := c.olds.find? (fun t => t.word == w)
  let value := layContribs ((old.map (fun t => t.old)).getD (s.wordBits w)) low Contrib.mask
  let s := s.setWordBits w (mergeBits (s.wordBits w) value (backBits here f))
  match old with
  | some t => s.setDamage w (if low.any (fun x => x.whole) then {} else t.oldDmg)
  | none => s

/-- Everything of elements at or above `f` put back: words, and LOFT elements from the last one written. -/
def State.restore (s : State) (c : Chain) (f : Nat) : State :=
  let s := (c.backWords s.node f).foldl (fun s w => s.restoreWord c f w) s
  ((c.loftOlds.filter (fun o => f ≤ o.elem)).reverse).foldl (fun s o => s.loftWrite o.svu (loftPieces o.bit o.width o.old)) s

/-- What a stop at `f` sends: the undo of each atomic at or above `f`, the last one first (R186, R679), and the bits on other modules that
were not applied under an element at or above `f` (R220). -/
def Chain.undoList (c : Chain) (node f : Nat) : List UndoRec :=
  let far := ((c.wrote.filter (fun x => x.node != node && x.hid != 0)).map (fun x => (x.node, x.word))).dedup
  (c.atoms.filter (fun u => f ≤ u.elem)).reverse
    ++ far.flatMap (fun w =>
      let here := c.toWord w.1 w.2
      let mask := hiddenBits here f
      let value := layContribs 0 (here.filter (fun x => x.elem < f)) Contrib.mask
      (List.range (eccBytes w.2 / 8)).filterMap (fun k =>
        let m := mask / 2 ^ (64 * k) % 2 ^ 64
        if m = 0 then none
        else some { elem := f, node := 15, svu := c.reduceSvu, ga := gaOf w.1 (w.2 + 8 * k), op := 5, v := value / 2 ^ (64 * k) % 2 ^ 64, n := m }))

/-- One of them goes to its bank or its module; `none` when no request has room. The stop waits for its end (R224). -/
def State.sendUndo (s : State) (id : Nat) (u : UndoRec) : Option State :=
  let s := s.updChain id (fun c => { c with undoLeft := c.undoLeft + 1 })
  if gaNode u.ga = s.node then
    some (s.push (gaOff u.ga) { op := .atom (gaOff u.ga) u.op u.v u.n, src := none, port := u.svu, arrived := s.now
                                who := some (Requester.stream u.svu).code, sink := .undo id })
  else s.post (atomMsg u.ga u.op u.v u.n) (some u.svu) (.undo id)

/-- Those of a list go out while requests have room; the rest stays to be sent. -/
def State.sendUndos (s : State) (id : Nat) : List UndoRec → State
  | [] => s.updChain id (fun c => { c with undo := some [] })
  | u :: rest =>
    match s.sendUndo id u with
    | some s => s.sendUndos id rest
    | none => s.updChain id (fun c => { c with undo := some (u :: rest) })

/-! The end of a chain. -/

/-- What units hold of a chain is dropped: contexts, walks, LOFT order, spool requests, lift. -/
def State.dropChain (s : State) (id : Nat) : State :=
  let t : State := { s with
    chains := s.chains.map (fun c => if c.id = id then { c with granted := false } else c)
    svus := s.svus.map (fun p : Nat × SvuState => (p.1, { p.2 with
      ctxs := p.2.ctxs.filter (fun c => c.1 != id), current := if p.2.current = some id then none else p.2.current
      walks := p.2.walks.filter (fun w => w.chain != id), queue := p.2.queue.filter (fun o => o.mark != id + 1) }))
    heldReads := s.heldReads.filter (fun h => h.2.2.2 != id)
    walking := s.walking.filter (fun w => w.2.2.2 != id)
    power := { s.power with
      waiting := s.power.waiting.filter (fun q => q.chain != id), granted := s.power.granted.filter (fun g => g.1 != id)
      ramps := s.power.ramps.map (fun r : Ramp => if r.chain = some id then { r with chain := none } else r) } }
  if s.power.granted.any (fun g => g.1 == id) || s.power.waiting.any (fun q => q.chain == id) then s.holdFrom t else t

/-- Later chains of a task end with ST_ABORTED when one of its chains failed (R370). -/
def State.abortLater (s : State) (c : Chain) : State :=
  (s.chains.filter (fun e => decide (c.id < e.id) && sameIssuer e.issuer c.issuer && e.phase != .ended)).foldl (fun s e =>
    (s.dropChain e.id).updChain e.id (fun e =>
      { e with phase := .ended, status := ST_ABORTED, endIndex := e.start, slices := [] })) s

/-- A chain ends: its result goes to its ring, or stays for the CWAIT of its task (R213, R369). The end of a torn range is reported in
REPLY0, the model's choice (R235, log 18). -/
def State.endChain (s : State) (c : Chain) (status index flags : Nat) : State :=
  let s := (s.dropChain c.id).dropTail c.id
  match c.issuer with
  | .ring r seq =>
    let s := { s with chains := s.chains.filter (fun x => x.id != c.id) }
    match (s.ring r).running.find? (fun p => p.seq == seq) with
    | some p =>
      let torn := if status = ST_TORN then (c.torn.map (·.2)).getD 0 else 0
      s.finishCmd r { p.result status with tag := dTag c.desc, flags := flags, index := index, reply0 := torn }
    | none => s
  | .task .. =>
    let s := s.setChain { c with
      phase := .ended, status := status, endIndex := index, flags := flags, slices := [], wrote := [], flying := [], atomFlying := []
      olds := [], loftOlds := [], atoms := [], undo := none }
    if status = ST_OK ∨ status = ST_VERIFY_RETRIED then s else s.abortLater c

/-- The stop of a chain at `f` reported, and its stop state kept (R272, R273, R281, R282). -/
def State.reportStop (s : State) (c : Chain) (f : Nat) (x : StopCause) : State :=
  let svu := ((c.slices.find? (fun l => l.first ≤ f && f < l.fin)).map (fun l => l.svu)).getD 0
  let s := s.reportCause svu x
  match c.issuer with
  | .ring r seq =>
    let s := s.latchStop r seq c.desc x f
    if resumable x.status then
      let scans := match c.slices with
        | [] => c.keptScans
        | [l] => l.scansAt f
        | _ => []
      let st : StopState := { seq := seq, desc := c.desc, start0 := c.start0, index := f, flags := c.flagsWhere (fun e => e < f)
                              accs := c.accsAt f, scans := scans, cause := x }
      s.setRing r { s.ring r with stops := (s.ring r).stops ++ [st] }
    else s
  | .task .. => s

/-- A chain that stopped at `f` with a cause, its lower elements written: what its stop undoes goes out and is awaited, lines of the
host are called back, and then the stop restores, reports, and ends the chain (R224, R230). -/
def State.endStopped (s : State) (c : Chain) (f : Nat) (x : StopCause) : State :=
  let s := s.sendUndos c.id (c.undo.getD (c.undoList s.node f))
  match s.chainOf c.id with
  | none => s
  | some c =>
    let held := (c.backWords s.node f).flatMap (fun w => s.heldLines w 1)
    if c.undo != some [] || c.undoLeft != 0 then s
    else if !held.isEmpty then s.snoopLines held
    else ((s.restore c f).reportStop c f x).endChain c x.status f (c.flagsWhere (fun e => e ≤ f))

end Sys2Proof.Machine
end

