-- ==== Sys2Proof/Machine/RegBase.lean ====
section
/-! DEFINITION. Register accesses through the control matrix: masters, rights, refusals, locks, the half-read
latch, and the effect of a write by the access codes (R4 to R9, R25 to R29, R50, R643 to R652). -/
namespace Sys2Proof

/-- The mask of the bits a write addresses, and its value placed there (R4). -/
def RegWrite.mask (w : RegWrite) : Nat := if w.width = 8 then 2 ^ 64 - 1 else (2 ^ 32 - 1) * 2 ^ (8 * w.lane)
def RegWrite.bits (w : RegWrite) : Nat := if w.width = 8 then w.v.toNat else w.v.toNat % 2 ^ 32 * 2 ^ (8 * w.lane)

/-- The write addresses a field wholly, and the value it gives the field. -/
def RegWrite.covers (w : RegWrite) (f : Machine.RF) : Bool := w.mask &&& Machine.maskOf f.hi f.lo == Machine.maskOf f.hi f.lo
def RegWrite.get (w : RegWrite) (f : Machine.RF) : Nat := Machine.bitsOf w.bits f.hi f.lo

end Sys2Proof

namespace Sys2Proof.Machine
open Reg

/-- Master number and request ID (R643). -/
def masterNo : Master → Nat
  | .core c _ => if c.val = 24 then 0 else if c.val = 25 then 1 else 5
  | .bmv _ => 2
  | .host => 3
  | .gloley => 4

def masterId : Master → Nat
  | .core c t => if c.val < 24 then c.val else t.val
  | .bmv ch => ch.val
  | _ => 0

/-- The requester a refused access names (R581). A Gloley request is recorded as the host's (R639). -/
def requesterOf : Master → Requester
  | .core c t => .core c.val t.val
  | .bmv ch => .bmv ch.val
  | _ => .host

/-- An issuing task runs at ring 0: firmware where the rules say "ring 0 firmware". -/
def State.fw0 (s : State) : Master → Bool
  | .core c t => (s.task c.val t.val).ring == 0
  | _ => false

/-- Ring `r` is owned by the host (CMDR_CFG.OWNER). -/
def State.hostRing (s : State) (r : Nat) : Bool := !s.on (CMDR_CFG_OWNER r)

/-- Session `i` is open and holds installer rights, which a maker session holds too (R621). -/
def State.installerSession (s : State) (i : Nat) : Bool := s.on (LCS_SESSION_ACTIVE i) && 1 ≤ s.rd (LCS_SESSION_ROLE i)

/-- An installer session on a host-owned ring lasts, which grants installer rights to the host's BAR0 writes (R624). -/
def State.hostInstaller (s : State) : Bool :=
  (List.range 4).any (fun i => s.installerSession i && !s.on (LCS_SESSION_GLOLEY i) && s.hostRing (s.rd (LCS_SESSION_RING i)))

/-- Ring 0 firmware, or the host during an installer session. -/
def State.fwOrInstaller (s : State) (m : Master) : Bool := s.fw0 m || (m == .host && s.hostInstaller)

/-- Ring 0 firmware, or the host. -/
def State.fwOrHost (s : State) (m : Master) : Bool := s.fw0 m || m == .host

/-- The storage of a register at an offset can answer (R648); an offset without a register has none that could be off (R28). -/
def State.regPowered (s : State) (off : Nat) : Bool :=
  if s.power.off then false
  else if (regAt (off / 8 * 8)).isNone then true
  else if 0x800000 ≤ off ∧ off < 0xe00000 then
    let k := (off - 0x800000) / 0x40000
    if off - 0x800000 - 0x40000 * k = 0x800 then true else s.domainOn k
  else if 0x1302000 ≤ off ∧ off < 0x1303000 then s.domainOn 78
  else if 0xb0000 ≤ off ∧ off < 0xc0000 then s.domainOn 76
  else true

/-- The host's memory requests are taken: the link is up, memory space is enabled, no host-interface reset runs. -/
def State.hostUp (s : State) : Bool :=
  s.host.linkUp && s.host.ready && s.memEnable && !s.host.flr && !s.power.ripcord && !s.power.off

/-- The host's write is dropped and logged as Unsupported Request (R25). -/
def State.hostUrWrite (s : State) : State := { s with host := { s.host with urLog := true } }

/-- What a request of the host to a register or a doorbell meets while the interface takes no memory request: Unsupported Request (R484),
and nothing while the link is down. -/
def State.hostMissed (s : State) (read : Bool) : State :=
  if !s.host.linkUp then s
  else if read then s.emit (.coreValue .host 0 ST_PROTECTION)
  else s.hostUrWrite

/-- What a requester of a register receives when it is refused (R25). -/
def State.refuseReg (s : State) (m : Master) (off : Nat) (read : Bool) (status : Nat) : State :=
  let s := s.refuse (requesterOf m) (regBase + off) status
  match m with
  | .core c t =>
    let x := s.task c.val t.val
    s.setTask c.val t.val { x with trap := x.trap.orElse (fun _ => some { cause := 9, status := status, info := regBase + off }) }
  | .host => if read then s.emit (.coreValue m 0 status) else s.hostUrWrite
  | _ => s.emit (.coreValue m 0 status)

/-- Why a register access is refused before its register is looked at: R23 (who reaches register space), R27, R29, R648. -/
def State.regBlocked (s : State) (m : Master) (off width : Nat) : Option Nat :=
  let reach := match m with
    | .core c t => decide ((s.task c.val t.val).ring ≤ 1)
    | .bmv _ => false
    | _ => true
  if !reach then some ST_PROTECTION
  else if !((width == 4 || width == 8) && off % width == 0) then some ST_PROTECTION
  else if (blockOf off).isNone then some ST_PROTECTION
  else if !s.regPowered off then some ST_NOT_READY
  else none

/-- A lock of another master or ID covers the register (R649). -/
def State.lockedFor (s : State) (m : Master) (off : Nat) : Bool :=
  (List.range 6).any (fun n => s.on (MXC_LOCK_HELD n) && s.rd (MXC_LOCK_OFFSET n) == off / 8 * 8
    && !(n == masterNo m && s.rd (MXC_LOCK_ID n) == masterId m))

/-- A master's lock is released. -/
def State.unlock (s : State) (n : Nat) : State :=
  let s := ((s.wr (MXC_LOCK_HELD n) 0).wr (MXC_LOCK_ID n) 0).wr (MXC_LOCK_OFFSET n) 0
  { s with lockAt := tabDel s.lockAt n }

/-- The register block of an offset, by its first offset. -/
def blockAt (off : Nat) : Nat :=
  match blockOf off with
  | some b => b.base + (off - b.base) / b.stride * b.stride
  | none => off

/-- A request of a master waits: the register is locked, requests of the master to the block are ahead of it, or 16 of the master are
outstanding (R644, R645, R649). -/
def State.mxcWaits (s : State) (ahead : List MxcReq) (m : Master) (off : Nat) : Bool :=
  let mine := ahead.filter (fun q => masterNo q.m == masterNo m)
  s.lockedFor m off || decide (16 ≤ mine.length) || mine.any (fun q => blockAt q.off == blockAt off)

/-- A request waits in the matrix, or at its master behind 16 others; one that a lock holds counts once. -/
def State.mxcHold (s : State) (q : MxcReq) : State :=
  let same := fun x : MxcReq => x.again && q.again && x.m == q.m && x.off == q.off
  let ahead := (s.mxc.takeWhile (fun x => !same x)).filter (fun x => masterNo x.m == masterNo q.m)
  let held := s.lockedFor q.m q.off && decide (ahead.length < 16)
  let old := s.mxc.find? same
  let counted := (old.map (fun x => x.counted)).getD false
  let q := { q with counted := counted || held }
  let s : State := { s with mxc := if old.isSome then s.mxc.map (fun x => if same x then q else x) else s.mxc ++ [q] }
  if held && !counted then s.count MXC_CNT_LOCK_WAITS 1 else s

/-- The requests ahead of an access that an instruction makes (again), and ahead of any other: those of instructions hold up only
instructions. -/
def State.mxcAhead (s : State) (m : Master) (off : Nat) (insn : Bool) : List MxcReq :=
  if insn then s.mxc.takeWhile (fun x => !(x.again && x.m == m && x.off == off)) else s.mxc.filter (fun x => !x.again)

/-- A block grants a master's access (R646). -/
def State.mxcGrant (s : State) (m : Master) (off : Nat) : State :=
  if tabFind s.mxcLast (blockAt off) = some (masterNo m) then s else { s with mxcLast := tabPut s.mxcLast (blockAt off) (masterNo m) }

/-- The value a field has after the write: written where addressed, kept elsewhere. -/
def State.after (s : State) (w : RegWrite) (f : RF) : Nat := bitsOf (mergeBits (s.reg f.off).toNat w.bits w.mask) f.hi f.lo

/-- The effect of a write on one field by its access code (R5), and whether it gives an unlisted encoding (R9). -/
def FieldDef.write (d : FieldDef) (old mask bits : Nat) : Nat × Bool :=
  let m := mask &&& maskOf d.hi d.lo
  let new := mergeBits old bits m
  match d.acc with
  | .rw =>
    let v := bitsOf new d.hi d.lo
    if m = 0 then (old, false) else if d.least ≤ v ∧ v ≤ d.most then (new, false) else (old, true)
  | .w1c => (old &&& (old ^^^ (bits &&& m)), false)
  | .w1s => (old ||| (bits &&& m), false)
  | _ => (old, false)

/-- A write applied to every field of a register: the word afterwards, and whether any field refused its encoding. -/
def RegDef.write (d : RegDef) (old mask bits : Nat) : Nat × Bool :=
  d.fields.foldl (fun a f => let (v, bad) := f.write a.1 mask bits; (v, a.2 || bad)) (old, false)

/-- A write applied by the access codes alone; an unlisted encoding writes the REG_WRITE record (R9). -/
def State.applyWrite (s : State) (off mask bits : Nat) : State :=
  match regAt off with
  | none => s
  | some (d, _) =>
    let (v, bad) := d.write (s.reg off).toNat mask bits
    let s := s.setReg off (BitVec.ofNat 64 v)
    if bad then s.regRecord off bits else s

/-- A write of a register with a row of its own reaches it: refused, made to wait (R644, R645, R649), or performed by `f` when the
master has the right. -/
def State.regRow (s : State) (w : RegWrite) (off : Nat) (right : Bool) (f : State → State) : State :=
  if w.m == .host && !s.hostUp then s.hostMissed false
  else match s.regBlocked w.m (off + w.lane) w.width with
  | some st => s.refuseReg w.m (off + w.lane) false st
  | none =>
    if s.mxcWaits (s.mxcAhead w.m (off + w.lane) false) w.m off then
      s.mxcHold { m := w.m, off := off + w.lane, width := w.width, v := some w.v }
    else if !right then s.refuseReg w.m (off + w.lane) false ST_PROTECTION
    else f (s.mxcGrant w.m off)

/-! The audit log (R625, R626). -/

/-- Who acts in an audit record: session identifier, role, Gloley path, ring. -/
structure Actor where
  session : Nat := 0
  role : Nat := 0
  gloley : Bool := false
  ring : Nat := 0
  deriving DecidableEq, Repr

/-- An audit record written to flash, which keeps the latest 65,536. -/
def State.audit (s : State) (action status : Nat) (a : Actor) (arg0 arg1 digest : Nat) : State :=
  let n := s.rd LCS_AUDIT_NEXT_ASEQ
  let r := [s.dev, s.rd TIME_EPOCH_EPOCH * 2 ^ 48 + action * 2 ^ 40 + status * 2 ^ 32 + n,
    a.session * 2 ^ 32 + a.role * 2 ^ 30 + b2n a.gloley * 2 ^ 29 + a.ring * 2 ^ 16, arg0 % 2 ^ 64, arg1 % 2 ^ 64,
    digest % 2 ^ 64, digest / 2 ^ 64 % 2 ^ 64, digest / 2 ^ 128 % 2 ^ 64]
  let l := s.life.audit ++ [r]
  let l := l.drop (l.length - 65536)
  let s := s.flashTouch
  let s := { s with life := { s.life with audit := l } }
  (s.wr LCS_AUDIT_NEXT_ASEQ (n + 1)).wr LCS_AUDIT_HELD l.length

/-- The actor of session slot `i`. -/
def State.sessionActor (s : State) (i : Nat) : Actor :=
  { session := s.rd (LCS_SESSION_ID i), role := s.rd (LCS_SESSION_ROLE i), gloley := s.on (LCS_SESSION_GLOLEY i)
    ring := s.rd (LCS_SESSION_RING i) }

/-- A host write that used its installer session: its use is noted for R624, and INSTALLER_WRITE is audited (R625). -/
def State.auditWrite (s : State) (w : RegWrite) (off : Nat) : State :=
  if w.m == .host then
    match (List.range 4).find? (fun i => s.installerSession i && !s.on (LCS_SESSION_GLOLEY i) && s.hostRing (s.rd (LCS_SESSION_RING i))) with
    | some i =>
      let s := { s with life := { s.life with used := tabPut s.life.used i s.now } }
      s.audit 9 ST_OK (s.sessionActor i) off w.bits 0
    | none => s
  else s

end Sys2Proof.Machine
end

