-- ==== Sys2Proof/Machine/Memory.lean ====
section
/-! DEFINITION. The commands of memory: host accesses through BAR2, channel grants, refresh, scrub, sparing,
wipes, wear, and the writes of INTLV and MEMC registers with rows of their own (02, 03). -/
namespace Sys2Proof.Machine
open Reg

/-! Host accesses through BAR2 (R22, R23, R472 to R474). -/

/-- Pieces of a read of at most 512 bytes, each ending on a 512-byte boundary or at the end (R472). -/
def completionPieces (off len : Nat) : List (Nat × Nat) :=
  (List.range ((off + len - 1) / 512 - off / 512 + 1)).map (fun k =>
    let lo := max off ((off / 512 + k) * 512)
    (lo, min (off + len) ((off / 512 + k + 1) * 512) - lo))

/-- The host's accesses. -/
def byHost : LocalBy := { agent := agentHost, kind := .hostBar2, who := some .host }

/-- The host's read or atomic is completed with Unsupported Request. -/
def State.hostUr (s : State) : State := (s.rbufClear agentHost).emit (.hostReply ST_PROTECTION [] false)


/-- The access passes the end of the decoded BAR2 (R474). -/
def State.pastBar2 (s : State) (off len : Nat) : Bool := decide (2 ^ s.host.bar2Log ≤ off + (len - 1))

/-- HOST_BAR2_READ (R23). A line the host may hold is snooped first, and the read waits (R480), as it does for its slots; it is presented
again while it waits (log 66). -/
def execHostBar2Read (off len : Nat) (s : State) : Host.Outcome State Fault Refusal :=
  .next (if !s.host.linkUp || len = 0 then s
  else if !s.hostUp || s.pastBar2 off len then s.hostUr
  else
    match s.localRead byHost off len with
    | (s, .blocked _) => s.hostUr
    | (s, .done (.data bs bad made)) =>
      let s := (s.reportAll bad made).rbufClear agentHost
      (completionPieces off len).foldl (fun s p =>
        s.emit (.hostReply ST_OK ((bs.drop (p.1 - off)).take p.2) ((wordsIn p.1 p.2).any (bad.contains ·)))) s
    | (s, _) => s)

/-- HOST_BAR2_WRITE (R23, R26, R64): a posted write, performed as its slots come. -/
def execHostBar2Write (off : Nat) (data : List Byte) (poisoned : Bool) (s : State) : Host.Outcome State Fault Refusal :=
  .next (if !s.host.linkUp || data.isEmpty then s
  else if !s.hostUp || s.pastBar2 off data.length then s.hostUrWrite
  else
    match s.block .hostBar2 .host off data.length with
    | some (s, _) => s.hostUrWrite
    | none =>
      s.postLocal off data.length (wordWrites off data poisoned) (byHost.req s.now (.write []) .none))

/-! Channel grants (R43). -/

/-- Cell errors that an access finds, put into the words of its granule (R55). -/
def State.upset (s : State) (base : Nat) (us : List Upset) : State :=
  us.foldl (fun s u =>
    let o := base / 256 * 256 + 64 * (u.word % 4)
    let d := s.damage o
    if u.symbol < 36 && !d.syms.contains u.symbol then s.setDamage o { d with syms := d.syms ++ [u.symbol] } else s) s

/-- What of a chain hides the bytes of its lower elements: what it has written, and what is pending of it, in flight or in an output
spool (R220). -/
def State.hiding (s : State) (c : Chain) : List Contrib := c.wrote ++ c.flying ++ s.pendingContribs c

/-- A granted write of a chain is performed: the old words kept, the bits under a higher element's left out (R220, R227). -/
def State.performChain (s : State) (r : MemReq) (id : Nat) (cs : List Contrib) : State :=
  match s.chainOf id with
  | none => s
  | some c =>
    let cs := settleContribs (s.hiding c) cs
    let ws := contribWrites cs
    let s := if s.provNow r then s.keepOld id r.port r.sink.topElem ws else s
    ((s.rememberOld id r.sink.topElem ws).writeStore ws r.who).deliver (.chainWrite id cs) .done

/-- A granted request is performed on its words and its outcome delivered (R40 to R42). -/
def State.performReq (s : State) (r : MemReq) : State :=
  match r.op with
  | .read o n =>
    let (s, rep) := s.readStore o n
    let s := match r.sink, rep with
      | .remote .., .data _ bad made => s.reportAll bad made
      | .peer .., .data _ bad made => s.reportAll bad made
      | .pin .., .data _ bad made => s.reportAll bad made
      | _, _ => s
    s.deliver r.sink rep
  | .write ws =>
    match r.sink with
    | .chainWrite id cs => s.performChain r id cs
    | _ => (s.writeStore ws r.who).deliver r.sink .done
  | .atom o op v n =>
    let (s, rep) := s.atomStore o op v n r.who
    s.deliver r.sink rep

/-- CHANNEL_GRANT (R43). -/
def execChannelGrant (ch : Chan) (upsets : List Upset) (xbar : XbarParity) (s : State) : Host.Outcome State Fault Refusal :=
  let c := ch.val
  let q := (s.chan c).queue
  .next (if s.rd (MEMC_STATUS_STATE c) ≠ 2 then s
  else
    match (s.channelNext c q).bind (fun i => (q[i]?).map (fun r => (i, r))) with
    | none => s
    | some (i, r) =>
      let bad := fun (least : Nat) (fence : Bool) =>
        ({ src := srcXbar + c / 8, inst := c % 8, aux := r.port, addr := r.off, least := least, fence := fence } : FaultEv)
      let s := if xbar = .good then s else s.record (bad 0 false)
      if xbar = .twice then s.record (bad 1 true)
      else ((s.takeSlot c r (q.eraseIdx i)).upset r.off upsets).performReq r)

/-- REFRESH (R47): at most 350 ns, counted while a request waits. -/
def execRefresh (ch : Chan) (clocks : Nat) (s : State) : Host.Outcome State Fault Refusal :=
  let c := ch.val
  let n := min clocks 437
  .next (if s.rd (MEMC_STATUS_STATE c) ≠ 2 then s
  else
    let s := if (s.chan c).queue.isEmpty then s else s.memCount c (MEMC_REFRESH_STALL_STALL c) n
    s.advance (s.now + n * 4 / 5))

/-! Patrol scrub (R71 to R75). -/

/-- The service state of a channel changed, its scrub clock kept exact. -/
def State.setMemcState (s : State) (c v : Nat) : State := (s.scrubSync c).wr (MEMC_STATUS_STATE c) v

/-- A pass ends and the next one begins (R71, R74, R77). -/
def State.newPass (s : State) (c : Nat) : State :=
  let x := s.chan c
  let s := s.setChan c { x with
    scrubClock := 0, scrubSince := s.now, scrubPeriod := s.rd (MEMC_SCRUB_CTL_PERIOD_H c), rowCe := [], symRows := [] }
  ((s.wr (MEMC_SCRUB_POS_POSITION c) 0).wr (MEMC_SCRUB_LAG_LAG c) 0).wr (MEMC_SCRUB_LAG_BEHIND c) 0

/-- SCRUB_READ (R73). -/
def execScrubRead (ch : Chan) (upsets : List Upset) (s : State) : Host.Outcome State Fault Refusal :=
  let c := ch.val
  let s1 := s.scrubSync c
  let x := s1.chan c
  let slot := x.queue.isEmpty || s1.scrubHolds c
  .next (if s1.rd (MEMC_STATUS_STATE c) ≠ 2 || !s1.on (MEMC_SCRUB_CTL_ENABLE c) || s1.rd (MEMC_SCRUB_LAG_LAG c) = 0 || !slot then s1
  else
    let p := s1.rd (MEMC_SCRUB_POS_POSITION c)
    let base := granuleOffset c p
    let s := s1.upset base upsets
    let s := (List.range 4).foldl (fun s k => (s.readEcc (base + 64 * k) true).1) s
    let s := s.setChan c { s.chan c with scrubTurn := 0 }
    if p + 1 = 2 ^ 27 then (s.memCount c (MEMC_SCRUB_POS_PASSES c) 1).newPass c
    else (s.wr (MEMC_SCRUB_POS_POSITION c) (p + 1)).scrubSync c)

/-- SCRUB_CTL_WRITE (R74, R88, R89). -/
def execScrubCtlWrite (ch : Chan) (w : RegWrite) (s : State) : Host.Outcome State Fault Refusal :=
  let off := MEMC_SCRUB_CTL ch.val
  .next (s.regRow w off (s.fwOrInstaller w.m) (fun s => ((s.auditWrite w off).scrubSync ch.val).applyWrite off w.mask w.bits))

/-! Registers with rows of their own. -/

/-- INTLV_ARB_WRITE (R46, R52, R53). -/
def execIntlvArbWrite (w : RegWrite) (s : State) : Host.Outcome State Fault Refusal :=
  .next (s.regRow w INTLV_ARB (s.fwOrInstaller w.m) (fun s => (s.auditWrite w INTLV_ARB).applyWrite INTLV_ARB w.mask w.bits))

/-- Every counter of a MEMC block (R50, R87). WAIT_MAX, a maximum of the block's counter register MEMC_WAIT, is one of them for CLEAR and
ENABLE, the model's choice (R51, log 71). -/
def memcCounters (c : Nat) : List RF :=
  [MEMC_RD_BYTES_RD_BYTES c, MEMC_WR_BYTES_WR_BYTES c, MEMC_RMW_CNT_RMW c, MEMC_GRANTS_REMOTE c, MEMC_GRANTS_LOCAL c,
   MEMC_WAIT_URGENT c, MEMC_WAIT_WAIT_MAX c, MEMC_REFRESH_STALL_STALL c, MEMC_ECC_CE_SCRUB c, MEMC_ECC_CE_DEMAND c,
   MEMC_ECC_UE_POISON_USE c, MEMC_ECC_UE_NEW c, MEMC_SCRUB_POS_PASSES c]

/-- MEMC_PERF_CLEAR (R51, R87): CLEAR clears, and ENABLE takes its written value. -/
def execMemcPerfClear (ch : Chan) (w : RegWrite) (s : State) : Host.Outcome State Fault Refusal :=
  let c := ch.val
  .next (s.regRow w (MEMC_PERF_CTL c) true (fun s =>
    let s := if w.covers (MEMC_PERF_CTL_CLEAR c) && w.get (MEMC_PERF_CTL_CLEAR c) == 1
      then (memcCounters c).foldl (fun s f => s.wr f 0) s else s
    s.applyWrite (MEMC_PERF_CTL c) w.mask w.bits))

/-- The life-cycle state (R614). -/
def State.lcs (s : State) : Nat := s.rd LCS_STATE_STATE

/-- MEMC_INJECT_WRITE (R90). -/
def execMemcInjectWrite (ch : Chan) (w : RegWrite) (s : State) : Host.Outcome State Fault Refusal :=
  let c := ch.val
  .next (s.regRow w (MEMC_INJECT c) (s.fw0 w.m && (s.lcs == 0 || s.lcs == 3)) (fun s =>
    let s := s.applyWrite (MEMC_INJECT c) w.mask w.bits
    if s.rd (MEMC_INJECT_KIND c) = 0 then s.wr (MEMC_INJECT_ARM c) 0 else s))

/-! Sparing. -/

/-- Every damaged word of a row after its copy: correctable words clean, the rest poisoned (R78). R78 names no word whose uncorrectable
damage no read has found: the copy poisons it without a record, a count or MEMC_LAST_ERR, the model's choice (log 71). -/
def State.copyRow (s : State) (c row : Nat) : State :=
  { s with memDmg := s.memDmg.filterMap (fun p =>
    let o := 64 * p.1
    if channelOf o = c ∧ rowOf (rowGranuleOf o) = row then
      if !p.2.poison && p.2.syms.length ≤ 1 then none else some (p.1, { poison := true })
    else some p) }

/-- The record of a spare used for corrected errors (R86), or missing for them (R82). Its AUX and ADDR are what MEMC_LAST_ERR holds then,
which can be another event's, the model's choice (log 71). -/
def State.spareRecord (s : State) (c src least : Nat) : State :=
  s.record { src := src + c / 8, inst := c % 8, aux := (s.reg (MEMC_LAST_ERR c)).toNat % 2 ^ 32
             addr := s.rd (MEMC_LAST_ERR_ROW_GRANULE c), least := least }

/-- Spare rows that a channel has left: ROW_FREE shows them until a bank has run out of its four, and 0 from then on (R76, R82). -/
def State.rowsLeft (s : State) (c : Nat) : Nat :=
  let x := s.chan c
  if x.rowShort.isEmpty then s.rd (MEMC_SPARE_ROW_FREE c)
  else fieldOf (resetWord (MEMC_SPARE c)) 8 0 - x.spareRows.length

/-- ROW_SPARE (R78, R82): `row` counts the rows of eight positions of the bank. The row's count begins again, the model's choice (log
71). -/
def execRowSpare (ch : Chan) (bank row : Nat) (s : State) : Host.Outcome State Fault Refusal :=
  let c := ch.val
  let key := bank % 64 + 64 * row
  let x := s.chan c
  .next (match x.needRows.find? (fun n => n.1 == key) with
    | none => s
    | some (_, ue) =>
      let free := s.rowsLeft c
      let x := { x with
        needRows := x.needRows.filter (fun n => n.1 != key), rowCe := tabDel x.rowCe key
        symRows := x.symRows.filter (fun y => y.2 != key) }
      if 0 < free && decide ((x.spareRows.filter (fun r => r % 64 == bank % 64)).length < 4) then
        let s := s.setChan c { x with spareRows := x.spareRows ++ [key] }
        let s := if x.rowShort.isEmpty then s.wr (MEMC_SPARE_ROW_FREE c) (free - 1) else s
        let s := s.copyRow c key
        let s := if ue then s else s.spareRecord c srcMemCe 0
        s.wearCheck c free (free - 1) 256
      else
        let short := if x.rowShort.contains (bank % 64) then x.rowShort else x.rowShort ++ [bank % 64]
        let shown := s.rd (MEMC_SPARE_ROW_FREE c)
        let s := (s.setChan c { x with lacksSpare := true, rowShort := short }).wr (MEMC_SPARE_ROW_FREE c) 0
        let s := if ue then s else s.spareRecord c srcMemUe 1
        s.wearCheck c shown 0 256)

/-- LANE_SPARE (R79, R82). -/
def execLaneSpare (ch : Chan) (lane : Nat) (s : State) : Host.Outcome State Fault Refusal :=
  let c := ch.val
  let x := s.chan c
  .next (if !x.needLanes.contains lane then s
  else
    let free := s.rd (MEMC_SPARE_LANE_FREE c)
    let x := { x with needLanes := x.needLanes.filter (· != lane), symRows := x.symRows.filter (fun y => y.1 != lane) }
    if 0 < free then
      let s := (s.setChan c { x with spareLanes := x.spareLanes ++ [lane] }).wr (MEMC_SPARE_LANE_FREE c) (free - 1)
      (s.spareRecord c srcMemCe 0).wearCheck c free (free - 1) 2
    else ((s.setChan c { x with lacksSpare := true })).spareRecord c srcMemUe 1)

/-! Wipes and wear. -/

/-- The columns that the training of a channel replaces, of the faults known then: two in each bank, and as many in all as the part had
(R76, R80). -/
def Channel.sparedCols (x : Channel) (total : Nat) (faults : List (Nat × Nat)) : List (Nat × Nat) :=
  faults.foldl (fun used f =>
    if used.contains f || decide (2 ≤ (used.filter (fun y => y.1 == f.1)).length) || decide (total ≤ used.length) then used
    else used ++ [f]) x.spareCols

/-- The training of a channel before its first wipe after a power-on or a module reset: the recorded column faults are replaced. A fault
without a spare leaves the channel lacking one; R82 gives it no record (R80 to R82, R85, log 71). -/
def State.trainChannel (s : State) (c : Nat) : State :=
  let x := s.chan c
  if x.trained then s
  else
    let found := (Config.columnFaults c s.life.boot).map (fun f => (f.1 % 64, f.2))
    let faults := (x.colFaults ++ found).dedup
    let total := fieldOf (resetWord (MEMC_SPARE c)) 39 32
    let cols := x.sparedCols total faults
    let short := faults.any (fun f => !cols.contains f)
    let before := s.rd (MEMC_SPARE_COL_FREE c)
    let free := if short then 0 else total - cols.length
    let s := s.setChan c { x with trained := true, colFaults := faults, spareCols := cols, lacksSpare := x.lacksSpare || short }
    if cols = x.spareCols ∧ !short then s
    else (s.wr (MEMC_SPARE_COL_FREE c) free).wearCheck c before free 128

/-- WIPE_COMPLETE (R66 to R70, R75, R80). A fenced channel is wiped too, and stays fenced. -/
def execWipeComplete (ch : Chan) (s : State) : Host.Outcome State Fault Refusal :=
  let c := ch.val
  let live := s.domainOn (48 + c / 8) || s.power.domWait.contains (48 + c / 8, true)
  .next (if (s.rd (MEMC_STATUS_STATE c) ≠ 1 && !s.chFenced c) || s.on (MEMC_WIPE_DONE c) || !live then s
  else
    let s := (s.trainChannel c).wipe (fun o => decide (o < memTop) && channelOf o == c)
    let s := (s.wr (MEMC_WIPE_DONE c) 1).wr (MEMC_WIPE_POSITION c) (2 ^ 27)
    let s := s.newPass c
    if s.chFenced c then s else s.wr (MEMC_STATUS_STATE c) 2)

/-- The weight of a minute at a junction temperature in °C (R83). -/
def wearWeight (t : Nat) : Nat :=
  if t < 65 then 1 else if t < 75 then 2 else if t ≤ 85 then 4 else if t ≤ 95 then 8 else 16

/-- WEAR_TICK (R83, R85). -/
def execWearTick (tower : Tower) (temp : Nat) (s : State) : Host.Outcome State Fault Refusal :=
  let t := tower.val
  let cs := rangeFrom (8 * t) 8
  .next (if !cs.any (fun c => s.rd (MEMC_STATUS_STATE c) == 2 || s.rd (MEMC_STATUS_STATE c) == 3) then s
  else
    let old := s.rd (MEMC_WEAR_EQ_QMIN (8 * t))
    let new := old + wearWeight temp
    let s := cs.foldl (fun s c => (s.wr (MEMC_WEAR_EQ_QMIN c) new).peak (MEMC_WEAR_PEAK_TEMP c) (min temp 255)) s
    let passed := fun l => decide (old ≤ l) && decide (l < new)
    if passed 63115200 || passed 84153600 then s.record { src := srcWear + t } else s)

/-- Wear counts and peak temperatures written to flash (R84). -/
def State.saveWear (s : State) : State :=
  { s.flashTouch with life := { s.life with wear := (List.range 12).map (fun t =>
      (t, s.rd (MEMC_WEAR_EQ_QMIN (8 * t)), s.rd (MEMC_WEAR_PEAK_TEMP (8 * t)))) } }

/-- WEAR_SAVE (R84). -/
def execWearSave (s : State) : Host.Outcome State Fault Refusal := .next s.saveWear

end Sys2Proof.Machine
end

