-- ==== Sys2Proof/Machine/StreamBase.lean ====
section
/-! DEFINITION. What the stream events share: the ranges an SVU holds, spools and their capacity, requests
to channels and banks, and the contributions of output elements (R119 to R123, R302 to R305, R435 to R437). -/
namespace Sys2Proof.Machine
open Reg

/-! Ranges held by an SVU. -/

/-- The chains whose ranges an SVU holds, the running context first. -/
def State.heldChains (s : State) (i : Nat) : List Chain :=
  let x := s.svu i
  let ids := x.ctxs.map (fun c => c.1)
  let ids := match x.current with
    | some id => id :: ids.filter (· != id)
    | none => ids
  ids.filterMap s.chainOf

/-- The range of a chain that an SVU works on: its lowest logical slice there that has not ended (R436). -/
def Chain.sliceOn (c : Chain) (i : Nat) : Option Slice := c.slices.find? (fun l => l.svu == i && l.phase != .done)

/-- The range whose block runs. -/
def State.runningRange (s : State) (i : Nat) : Option (Chain × Slice) :=
  match s.heldChains i with
  | c :: _ => (c.sliceOn i).map (fun l => (c, l))
  | [] => none

/-- The state with one slice of a chain changed. -/
def State.updSlice (s : State) (id lsl : Nat) (f : Slice → Slice) : State := s.updChain id (fun c => c.updSlice lsl f)

/-- End of the elements a slice may deliver now: its range, or the window of a verified slice (R313). -/
def Slice.limit (l : Slice) : Nat := if l.verify then min l.fin (l.base + 4096) else l.fin

/-- First element of the group that `next` lies in. -/
def Slice.groupStart (l : Slice) (d : List Nat) : Nat := l.first + (l.next - l.first) / groupSize d * groupSize d

/-- End of the element group that `next` lies in. -/
def Slice.groupEnd (l : Slice) (d : List Nat) : Nat :=
  let g := groupSize d
  min l.limit (l.first + ((l.next - l.first) / g + 1) * g)

def Slice.elemOf (l : Slice) (k i : Nat) : Option InElem := l.inp.find? (fun e => e.slot == k && e.elem == i)

/-- The slice computes pass 2 of its window (R314). -/
def Slice.inPass2 (l : Slice) : Bool := l.verify && l.pass1.isSome

/-- What index `i` of a slice is computed from. -/
def Slice.env (l : Slice) (c : Chain) (i : Nat) (upset : Option (Nat × Nat × Nat)) : ElemEnv :=
  { d := c.desc, start0 := c.start0, x := i, get := l.elemOf, scans := l.scans, atoms := l.atomRes, pass2 := l.inPass2, upset := upset }

/-- Output slots that write at an index element of an INDEXED slot's own choosing: COMPRESS feeds them (R172). -/
def gatherOuts (d : List Nat) : List Nat :=
  (outputsOf d).filter (fun k => let s := slotD d k; s.kind == kIndexed && srcNode s.src && (nodeD d s.src).op == 0x700)

/-- Input slots whose elements are used away from their own index: A of EXPAND (R173), the index slot of an INDEXED output that COMPRESS
feeds (R172), and the slots that say whether their elements are off. -/
def jumpSlots (d : List Nat) : List Nat :=
  let ks := expandSlots d ++ (gatherOuts d).map (fun k => (slotD d k).idx)
  (ks ++ ks.flatMap (slotDeps d)).dedup

/-- An element of an input slot is in its spool, or needs no reading. -/
def Slice.has (l : Slice) (d : List Nat) (k j : Nat) : Bool := (slotD d k).kind == kIota || (l.elemOf k j).isSome

/-- An element of an input slot is in its spool, or on its way there. -/
def Slice.taken (l : Slice) (k j : Nat) : Bool := (l.elemOf k j).isSome || l.asked.contains (k, j)

/-- The next element that an input slot reads in index order (R120). -/
def Slice.fetchAt (l : Slice) (d : List Nat) (k : Nat) : Nat :=
  let f := max l.next (tabGet l.pf l.next k)
  if (jumpSlots d).contains k then
    f + ((List.range (l.inp.length + l.asked.length + 1)).takeWhile (fun j => l.taken k (f + j))).length
  else f

/-- An input slot has asked for elements [j, hi): its reading in index order goes on after them, when it stood at the first. -/
def Slice.moved (l : Slice) (d : List Nat) (k j hi : Nat) : Slice :=
  if j = l.fetchAt d k then { l with pf := tabPut l.pf k hi } else l

/-- Every element of a slot from the next one to be computed up to `hi` has arrived. -/
def Slice.arrived (l : Slice) (d : List Nat) (k hi : Nat) : Bool := (List.range (hi - l.next)).all (fun j => l.has d k (l.next + j))

/-- Input slots read in element order. -/
def plainInputs (d : List Nat) : List Nat := (inputsOf d).filter (fun k => !(expandSlots d).contains k)

/-- The elements that the next group takes away from their own index, each a slot and an element after those that say whether it is off,
as far as they are known yet, and whether these are all (R172, R173). -/
def Slice.jumps (l : Slice) (c : Chain) : List (Nat × Nat) × Bool :=
  let d := c.desc
  let e := l.env c l.next none
  let need := fun (k : Nat) (r : List Nat × Bool) => (r.1.flatMap (fun p => (slotDeps d k ++ [k]).map (fun j => (j, p))), r.2)
  let taken := ((nodesOf d).filter (fun n => (nodeD d n).op == 0x701 && srcSlot (nodeD d n).a)).map (fun n =>
    need ((nodeD d n).a - 0x10) (e.positions n (min l.fin (neededTo d (n + 1) (l.groupEnd d)))))
  let given := (gatherOuts d).map (fun k => need (slotD d k).idx (e.positions (slotD d k).src (l.groupEnd d)))
  ((taken ++ given).flatMap (·.1), (taken ++ given).all (·.2))

/-- Bits of spool that a streamed slot has: its share of R119, divided among the ranges held (R437). -/
def spoolBits (d : List Nat) (out : Bool) (held : Nat) : Nat :=
  let n := ((if out then outputsOf d else inputsOf d).filter (fun k => (slotD d k).streamed)).length
  (if out then 4 else 8) / max n 1 * 524288 / max held 1

/-- Who translates for a chain on an SVU (R252, R264). -/
def State.walker (s : State) (c : Chain) (i : Nat) (acc : XAcc) : Walker :=
  { agent := agentSvu i, ctx := dCtx c.desc, ring := max c.ring (s.rd (XLAT_CTX_CFG_RING (dCtx c.desc))), acc := acc
    svu := some i, chain := some c.id }

/-! Remote writes of contributions. -/

/-- A contribution restricted to some bits of its word. -/
def Contrib.within (c : Contrib) (mask : Nat) : Option Contrib :=
  let m := c.mask &&& mask
  if m = 0 then none else some { c with mask := m, data := c.data &&& m, hid := c.hid &&& m }

/-- A remote piece of a word write: a MERGE64 of one aligned 8 bytes, or a run of whole bytes (R678). -/
structure RemotePiece where
  off : Nat
  mask : Nat
  len : Nat
  atom : Bool
  deriving DecidableEq, Repr

/-- The remote pieces of a mask over a word of `n` bytes. -/
def remotePieces (word n mask : Nat) : List RemotePiece :=
  let byte := fun b => mask / 2 ^ (8 * b) % 256
  let lanes := List.range (n / 8)
  let partial8 := lanes.filter (fun q => (List.range 8).any (fun b => byte (8 * q + b) != 0 && byte (8 * q + b) != 255))
  let whole := (List.range n).filter (fun b => byte b == 255 && !partial8.contains (b / 8))
  let runs := whole.foldl (fun (rs : List (Nat × Nat)) b =>
    match rs.getLast? with
    | some (a, k) => if a + k = b then rs.dropLast ++ [(a, k + 1)] else rs ++ [(b, 1)]
    | none => [(b, 1)]) []
  partial8.map (fun q =>
      { off := word + 8 * q, mask := mask &&& ((2 ^ 64 - 1) * 2 ^ (64 * q)), len := 8, atom := true })
    ++ runs.map (fun r => { off := word + r.1, mask := (2 ^ (8 * r.2) - 1) * 2 ^ (8 * r.1), len := r.2, atom := false })

/-- The message of a remote piece of a word's data. -/
def RemotePiece.msg (p : RemotePiece) (node word data : Nat) : FMsg :=
  let sh := 8 * (p.off - word)
  if p.atom then atomMsg (gaOf node p.off) 5 (data / 2 ^ sh % 2 ^ 64) (p.mask / 2 ^ sh % 2 ^ 64)
  else writeMsg (gaOf node p.off) (leBytes p.len (data / 2 ^ sh)) false

/-- The remote pieces of settled contributions: each with its message, and the contributions it carries (R678). -/
def remoteParts (cs : List Contrib) : List (FMsg × List Contrib) :=
  (contribWrites cs).flatMap (fun w =>
    let here := cs.filter (fun c => c.word == w.off)
    let node := (here.head?.map (fun c => c.node)).getD 0
    (remotePieces w.off (eccBytes w.off) w.mask).map (fun p =>
      (p.msg node w.off w.data, here.filterMap (fun c => c.within (c.shown &&& p.mask)))))

/-- Remote writes of contributions posted, or `none` when a request finds no room. Those it sends are in flight; the bits that a higher
element hides are not sent (R117, R220). -/
def State.postWrites (s : State) (i id : Nat) (cs : List Contrib) : Option State :=
  let parts := remoteParts cs
  let s := s.updChain id (fun c => { c with
    flying := c.flying ++ parts.flatMap (·.2), wrote := c.wrote ++ cs.filterMap (fun x => x.within x.hid) })
  parts.foldl (fun s? p => s?.bind (fun s => s.post p.1 (some i) (.chainWrite id p.2))) (some s)

/-! LOFT slots. -/

/-- A chain has a LOFT slot (R293). -/
def hasLoft (d : List Nat) : Bool := (slotsOf d).any (fun k => (slotD d k).kind == kLoft)

/-- A chain's LOFT slots may be read: its range is first among the SVU's LOFT operations (R293). -/
def State.loftTurn (s : State) (i : Nat) (c : Chain) : Bool :=
  !hasLoft c.desc || ((s.svu i).queue.head?.map (fun o => o.mark)) == some (c.id + 1)

/-- The two conditions of R113 that depend on the grouping in effect. -/
def loftSlotsOk (d : List Nat) (g : Nat) : Bool :=
  (slotsOf d).all (fun k =>
    let sd := slotD d k
    sd.kind != kLoft || (decide (sd.base < 32 / groupFactor g) && decide (dCount d * sd.bits ≤ 4096 * groupFactor g)))

/-- A chain that fails those conditions as its turn comes ends with ST_BAD_PARAM, as a failure of R110: it keeps the stop state it was
resumed from, with the flags kept there (R113, R279, R281). -/
def State.denyLoft (s : State) (c : Chain) : State :=
  let s := match c.issuer, c.resumed with
    | .ring r _, some st => s.setRing r { s.ring r with stops := (s.ring r).stops ++ [st] }
    | _, _ => s
  s.endChain c ST_BAD_PARAM c.start c.flags

end Sys2Proof.Machine
end

