-- ==== Sys2Proof/Machine/StreamRun.lean ====
section
/-! DEFINITION. How a slice runs: its input reads, the elements it computes, and the writes its output spools
issue (R91, R113 to R123, R172 to R175, R184 to R186, R216 to R220, R225 to R228, R271, R313 to R318, R678, R679). -/
namespace Sys2Proof.Machine
open Reg

/-! Inputs. -/

/-- End of the elements a slice reads now: the elements up to its limit need no others (R120, R174). -/
def Slice.readEnd (l : Slice) (d : List Nat) : Nat := min l.fin (neededTo d 0 l.limit)

/-- End of the elements that the next group needs. -/
def Slice.groupReads (l : Slice) (d : List Nat) : Nat := min l.fin (neededTo d 0 (l.groupEnd d))

/-- The elements [first, end) that an input slot asks for next: one that the group takes away from its own index, or the next in order, up
to its spool's capacity. `held` counts the chains of the SVU. -/
def Slice.wants (l : Slice) (c : Chain) (k held : Nat) : Nat × Nat :=
  let d := c.desc
  let sd := slotD d k
  if sd.kind = kIota then (0, 0)
  else
    match (if (jumpSlots d).contains k then (l.jumps c).1.find? (fun x => x.1 == k && !l.taken k x.2) else none) with
    | some x => (x.2, x.2 + 1)
    | none =>
      if (expandSlots d).contains k then (0, 0)
      else
        (l.fetchAt d k, if sd.streamed then min (l.readEnd d) (max (l.groupReads d) (l.next + spoolBits d false held / sd.bits))
                        else l.groupReads d)

/-- An input element that is not read: off, or with the cause it met, which its delivery reports (R121). -/
def State.putElem (s : State) (c : Chain) (lsl k j : Nat) (x : Option StopCause) : State :=
  s.updSlice c.id lsl (fun l : Slice =>
    { l.moved c.desc k j (j + 1) with
      inp := l.inp ++ [{ slot := k, elem := j, fail := x.map (fun q : StopCause => { q with slot := k }) }] })

/-- The elements of [j, hi) whose bytes lie in one unit of `u` bytes with those of `j`, and the bit each begins at there. -/
def unitElems (sd : SlotD) (u j hi : Nat) (x : Int) : List (Nat × Nat × Nat) :=
  let at' := fun i => elemAddr sd i x
  let u' : Int := u
  let line := (at' j).1 / u'
  let n := if sd.kind = kIndexed then 1 else min (hi - j) 512
  ((List.range n).map (fun e => j + e)).takeWhile (fun i => (at' i).1 / u' == line)
    |>.map (fun i => (i, 8 * ((at' i).1 % u').toNat + (at' i).2, sd.bits))

/-- Where a read finds its address. -/
inductive Found where
  | ga (g : Nat)
  | fail (x : StopCause)
  | wait
  deriving DecidableEq, Repr

/-- The global address of an input element: from a cached leaf, or a walk begins; eight walks of an SVU run at a time (R259,
R264). -/
def State.findGa (s : State) (i : Nat) (c : Chain) (lsl k j va : Nat) : State × Found :=
  let w := s.walker c i .read
  if s.ctxOff w then (s.walkBegun.walkFailed, .fail { status := ST_XLAT_FAULT, va := va, cause := 2 })
  else
    match s.leafHit w va with
    | some e =>
      match leafRes w va e with
      | .ok g => (s, .ga g)
      | .fail x => (s, .fail x)
      | .wait => (s, .wait)
    | none =>
      let x := s.svu i
      if x.walks.any (fun y => y.chain == c.id && y.lsl == lsl && y.slot == k) || decide (8 ≤ s.svuWalks i) then (s, .wait)
      else
        let (level, table) := s.walkStart w va
        let y : Walk := { chain := c.id, lsl := lsl, slot := k, elem := j, ctx := w.ctx, va := va, level := level, table := table }
        (s.walkBegun.setSvu i { x with walks := x.walks ++ [y] }, .wait)

/-- A held access is noted once (R217, R228): the SVU, the slot (32 more for a write), the granule and the chain. -/
def State.hold (s : State) (i k granule id : Nat) : State :=
  if s.heldReads.contains (i, k, granule, id) then s else { s with heldReads := s.heldReads ++ [(i, k, granule, id)] }

/-- The read of input elements at a global address goes out (R40, R120, R217, R303): held by a tether, refused, to another
module, to the flash window, or to the channel or bank. `va` is the element's virtual address, `noGa` where it has none. -/
def State.readElems (s : State) (i : Nat) (c : Chain) (l : Slice) (k j hi : Nat) (x : Int) (g va : Nat) : State :=
  let sd := slotD c.desc k
  let off := gaOff g
  let far := gaNode g != s.node
  let u := if far then 64 else unitBytes off
  let base := g / u * u
  let es := unitElems sd u j hi x
  let last := (es.getLast?.map (fun e => e.1)).getD j
  let asks := fun (s : State) => s.updSlice c.id l.lsl (fun l : Slice =>
    { l.moved c.desc k j (last + 1) with asked := l.asked ++ es.map (fun e : Nat × Nat × Nat => (k, e.1)) })
  let sink : Sink := .spool c.id l.lsl k base (if va = noGa then noGa else va - g % u) es
  if s.tethered c.id (g / 256) then s.hold i k (g / 256) c.id
  else if far then (((asks s).post (readMsg base 64) (some i) sink)).getD s
  else
    match s.blocked .streamRead off (max 1 (sd.bits / 8)) with
    | some st => s.putElem c l.lsl k j (some { status := st, va := if va = noGa then 0 else va, ga := g })
    | none =>
      match rangeOf off with
      | .flash => (asks s).deliver sink (.data (s.flashBytes (gaOff base - flashBase) u) [] [])
      | _ => (asks s).push (gaOff base) { op := .read (gaOff base) u, src := none, port := i, owner := sd.kind == kScratch
                                          arrived := s.now, who := some (Requester.stream i).code, sink := sink }

/-- A SCRATCH or LOFT input slot reads its elements (R103, R302). LOFT reads wait for the range's turn, and for the conditions of R113 that
its first read checks (R293). -/
def State.readOwn (s : State) (i : Nat) (c : Chain) (l : Slice) (k j hi : Nat) : State :=
  let sd := slotD c.desc k
  if sd.kind = kLoft then
    if !s.loftTurn i c then s
    else if !loftSlotsOk c.desc (s.svu i).group then s.denyLoft c
    else
      let w := sd.bits
      let (s, v, bad) := s.loftRead i (loftBit (s.svu i).group sd.base w j) w
      let el : InElem := { slot := k, elem := j, bits := v, fail := if bad then some { status := ST_POISON, slot := k, made := true } else none }
      s.updSlice c.id l.lsl (fun l : Slice => { l.moved c.desc k j (j + 1) with inp := l.inp ++ [el] })
  else
    let (a, _) := elemAddr sd j 0
    match addrCause sd k a with
    | some q => s.putElem c l.lsl k j (some q)
    | none => s.readElems i c l k j hi 0 (gaOf s.node (scratchBase + 2 ^ 22 * i + a.toNat)) noGa

/-- The next read of an input slot of a slice (R120, R121). -/
def State.fetch (s : State) (i : Nat) (c : Chain) (l : Slice) (k : Nat) : State :=
  let d := c.desc
  let sd := slotD d k
  let (j, hi) := l.wants c k (s.heldChains i).length
  if !sd.input || hi ≤ j then s
  else if !sd.streamed then s.readOwn i c l k j hi
  else
    let e := l.env c j none
    if sd.kind = kIndexed && !(slotDeps d k).all (fun m => l.has d m j) then s
    else if sd.kind = kIndexed && (e.slotOff k j || (e.slotVal sd.idx j).fail.isSome) then s.putElem c l.lsl k j none
    else
      let x : Int := if sd.kind = kIndexed then intVal (slotD d sd.idx).et (e.elem sd.idx j).bits else 0
      let (a, _) := elemAddr sd j x
      match addrCause sd k a with
      | some q => s.putElem c l.lsl k j (some q)
      | none =>
        match s.findGa i c l.lsl k j a.toNat with
        | (s, .fail q) => s.putElem c l.lsl k j (some q)
        | (s, .wait) => s
        | (s, .ga g) => s.readElems i c l k j hi x g a.toNat

/-- SCRATCH and LOFT slots ask for what the next group needs. -/
def State.fetchOwn (s : State) (i id lsl : Nat) : State :=
  match s.chainOf id with
  | none => s
  | some c =>
    ((inputsOf c.desc).filter (fun k => (slotD c.desc k).kind == kScratch || (slotD c.desc k).kind == kLoft)).foldl (fun s k =>
      (List.range (groupSize c.desc + 512)).foldl (fun s _ =>
        match s.chainOf id with
        | none => s
        | some c =>
          match c.slices.find? (fun l => l.lsl == lsl) with
          | none => s
          | some l => let (j, hi) := l.wants c k 1; if j < hi then s.readOwn i c l k j hi else s) s) s

/-- Every input that computing the next group needs has arrived. -/
def Slice.groupReady (l : Slice) (c : Chain) : Bool :=
  (plainInputs c.desc).all (fun k => l.arrived c.desc k (l.groupReads c.desc))
    && (l.jumps c).2 && (l.jumps c).1.all (fun x => l.has c.desc x.1 x.2)

/-! Elements. -/

/-- An atomic of an element: its node, the addresses of its word, its width, and its operand B. -/
structure AtomReq where
  node : Nat
  ga : Nat
  va : Nat
  width : Nat
  v : Nat
  deriving DecidableEq, Repr

/-- Its operation code: SP_ADD or SP_SWAP of its width (R495). -/
def AtomReq.op (a : AtomReq) (swap : Bool) : Nat := (if swap then 2 else 0) + (if a.width = 32 then 0 else 1)

/-- What undoes it (R679); an SP_SWAP is undone by the value that it will return. -/
def AtomReq.undo (a : AtomReq) (swap : Bool) (x i : Nat) : UndoRec :=
  { elem := x, node := a.node, svu := i, ga := a.ga, op := a.op swap
    v := if swap then 0 else (2 ^ a.width - a.v % 2 ^ a.width) % 2 ^ a.width }

/-- What an element gives: a stop, a wait, or its output elements and its SP_ADDs. -/
inductive ElemStep where
  | stop (x : StopCause)
  | wait
  | done (outs : List OutEl) (adds : List AtomReq)
  deriving DecidableEq, Repr

/-- An atomic node is off at an index (R115). -/
def Operands.atomOff (o : Operands) : Bool := o.masked || o.a.off || o.b.off

/-- Who translates the outputs and atomics of a chain on an SVU. -/
def State.outWalker (s : State) (c : Chain) (i : Nat) (acc : XAcc) : Walker := { s.walker c i acc with agent := 2200 + i }

/-- The address of an atomic of a node (R184, R185, R217, R260, R261). -/
def State.atomGa (s : State) (i : Nat) (c : Chain) (n bits a : Nat) : State × Found :=
  if 2 ^ 57 ≤ a then (s, .fail { status := ST_XLAT_FAULT, node := n, va := a % 2 ^ 57, cause := 1 })
  else if a % (bits / 8) ≠ 0 then (s, .fail { status := ST_BAD_PARAM, node := n, va := a })
  else
    match s.translate (s.outWalker c i .atomic) a with
    | (s, .wait) => (s, .wait)
    | (s, .fail q) => (s, .fail { q with node := n })
    | (s, .ok g) =>
      let window := match rangeOf (gaOff g) with
        | .scratch _ => true
        | _ => false
      let bad : Option Nat := if !window then some ST_PROTECTION
        else if gaNode g = s.node then s.blocked .spAtomic (gaOff g) (bits / 8) else none
      match bad with
      | some st => (s, .fail { status := st, node := n, va := a, ga := g, here := true })
      | none => if s.tethered c.id (g / 256) then (s, .wait) else (s, .ga g)

/-- An atomic of element `x` goes to its bank, here or on another module; `none` when no request has room. -/
def State.sendAtom (s : State) (i : Nat) (c : Chain) (lsl x : Nat) (a : AtomReq) (swap : Bool) : Option State :=
  let s := s.updChain c.id (fun c => { c with
    atomFlying := c.atomFlying ++ [(x, a.node, a.ga)], atoms := c.atoms ++ [a.undo swap x i] })
  let sink : Sink := .atom c.id lsl x a.node a.va a.ga
  if gaNode a.ga = s.node then
    some (s.push (gaOff a.ga) { op := .atom (gaOff a.ga) (a.op swap) a.v 0, src := none, port := i, arrived := s.now
                                who := some (Requester.stream i).code, sink := sink })
  else s.post (atomMsg a.ga (a.op swap) a.v 0) (some i) sink

/-- An SP_SWAP that has no result yet: it goes out once every lower element is computed, and its slice waits (R679). -/
def State.trySwap (s : State) (i : Nat) (c : Chain) (l : Slice) (x : Nat) (a : AtomReq) : State :=
  let waits := s.updSlice c.id l.lsl (fun l => { l with atomWait := some (x, a.node, 0) })
  if l.atomWait = some (x, a.node, 1) then s
  else if c.clear < x then waits
  else
    match s.sendAtom i c l.lsl x a true with
    | some s => s.updSlice c.id l.lsl (fun l => { l with atomWait := some (x, a.node, 1) })
    | none => waits

/-- The nodes of an element in ascending number: the first cause, a wait for an atomic, or the SP_ADDs to perform. -/
def State.nodesStep (s : State) (i : Nat) (c : Chain) (l : Slice) (e : ElemEnv) : State × ElemStep :=
  (nodesOf e.d).foldl (fun (a : State × ElemStep) n =>
    match a with
    | (s, .done outs adds) =>
      match e.nodeCause n with
      | some q => (s, .stop { q with node := if q.slot = 15 then n else q.node })
      | none =>
        let x := nodeD e.d n
        if x.op / 256 ≠ 0xB then a
        else
          let o := e.operands n e.x
          if o.atomOff then a
          else
            match s.atomGa i c n x.it.bits o.a.bits with
            | (s, .fail q) => (s, .stop q)
            | (s, .wait) => (s, .wait)
            | (s, .ga g) =>
              let q : AtomReq := { node := n, ga := g, va := o.a.bits, width := x.it.bits, v := o.b.bits }
              if x.op = 0xB00 then (s, .done outs (adds ++ [q]))
              else if (tabFind e.atoms (e.x * 16 + n)).isSome then (s, .done outs adds)
              else (s.trySwap i c l e.x q, .wait)
    | _ => a) (s, .done [] [])

/-- The value an output slot writes for an index: nothing, a cause at its index element, or its element position, its bits and
the index value of an INDEXED slot (R114 to R116, R172). -/
def ElemEnv.outVal (e : ElemEnv) (k : Nat) : Option (Nat × Nat × Int × Option StopCause) :=
  let sd := slotD e.d k
  let v := e.valOf sd.src sd.bits e.x
  let m := e.valOf sd.msrc 1 e.x
  let compress := srcNode sd.src && (nodeD e.d sd.src).op == 0x700
  if compress && (v.off || !v.give) then none
  else
    let p := if compress then v.pos else e.x
    let ix := if sd.kind = kIndexed then e.slotVal sd.idx p else {}
    if ix.off then none
    else
      let off := v.off || m.off || m.bits % 2 == 0
      if off && !sd.mzero then none
      else
        let bits := if off then (if sd.kind = kMask then 0 else zeroBits sd.et) else v.bits
        some (p, bits, if sd.kind = kIndexed then intVal (slotD e.d sd.idx).et ix.bits else 0, ix.fail)

/-- The address of an output element, or why it has none (R104, R105, R184, R261). -/
def State.outGa (s : State) (i : Nat) (c : Chain) (k p : Nat) (x : Int) : State × Found :=
  let sd := slotD c.desc k
  let (a, _) := elemAddr sd p x
  let n := max 1 (sd.bits / 8)
  let check := fun (s : State) (g loc va : Nat) =>
    if gaNode g = s.node then
      match s.blocked .streamWrite (gaOff g) n with
      | some st => (s, Found.fail { status := st, slot := k, va := va, ga := g })
      | none => (s, .ga loc)
    else (s, .ga loc)
  if sd.kind = kLoft then (s, .ga p)
  else
    match addrCause sd k a with
    | some q => (s, .fail q)
    | none =>
      if sd.kind = kScratch then check s (gaOf s.node (scratchBase + 2 ^ 22 * i + a.toNat)) a.toNat 0
      else
        match s.translate (s.outWalker c i .write) a.toNat with
        | (s, .wait) => (s, .wait)
        | (s, .fail q) => (s, .fail { q with slot := k })
        | (s, .ok g) => check s g g a.toNat

/-- The output slots of an element in ascending number, translated after every node has computed it (R271). -/
def State.outsStep (s : State) (i : Nat) (c : Chain) (e : ElemEnv) (adds : List AtomReq) : State × ElemStep :=
  ((outputsOf e.d).filter (fun k => !(slotD e.d k).reduces e.d)).foldl (fun (a : State × ElemStep) k =>
    match a with
    | (s, .done outs adds) =>
      match e.outVal k with
      | none => a
      | some (_, _, _, some q) => (s, .stop q)
      | some (p, bits, x, none) =>
        match s.outGa i c k p x with
        | (s, .fail q) => (s, .stop q)
        | (s, .wait) => (s, .wait)
        | (s, .ga loc) =>
          let sd := slotD e.d k
          let a := elemAddr sd p x
          (s, .done (outs ++ [{ elem := e.x, slot := k, loc := loc, bit := a.2, bits := bits, va := if sd.streamed then a.1.toNat else 0 }]) adds)
    | _ => a) (s, .done [] adds)

/-- One element of a slice. -/
def State.elemStep (s : State) (i : Nat) (c : Chain) (l : Slice) (e : ElemEnv) : State × ElemStep :=
  match e.slotCause with
  | some q => (s, .stop q)
  | none =>
    match s.nodesStep i c l e with
    | (s, .done _ adds) => s.outsStep i c e adds
    | r => r

/-- Journal words of an SVU that are taken, or set aside for its provisional scratchpad writes that wait at banks (R227, R228, R679). -/
def State.journalHeld (s : State) (i : Nat) : Nat :=
  (s.svu i).journal.length + (s.svu i).adds.length
    + (s.svus.map (fun p : Nat × SvuState => (p.2.bankQ.map (fun b : Nat × List MemReq =>
      ((b.2.filter (fun r => r.prov && r.port == i)).map (fun r => r.words.length)).sum)).sum)).sum

/-- The SP_ADDs of an element go out, each with its journal word (R679); `none` when one must wait. -/
def State.sendAdds (s : State) (i : Nat) (c : Chain) (lsl x : Nat) (adds : List AtomReq) : Option State :=
  adds.foldl (fun (s? : Option State) a => s?.bind (fun s =>
    if c.clear < x && decide (8192 ≤ s.journalHeld i) then none
    else
      let y := s.svu i
      let s := s.setSvu i { y with
        adds := y.adds ++ [{ chain := c.id, svu := i, elem := x, node := a.node, ga := a.ga, width := a.width, addend := a.v }] }
      s.sendAtom i c lsl x a false)) (some s)

/-- An output element as pass 2 stores it in the hold store, in complement, or as it leaves it again (R315). -/
def OutEl.flip (d : List Nat) (o : OutEl) : OutEl :=
  let m := 2 ^ (slotD d o.slot).bits - 1
  { o with bits := m ^^^ (o.bits &&& m) }

/-- A slice takes the results of an element. -/
def Slice.commit (l : Slice) (e : ElemEnv) (outs : List OutEl) : Slice :=
  let fl := e.flags
  let accs := e.feed l.accs
  let scans := e.advance
  let l := { l with atomRes := l.atomRes.filter (fun r => !(r.1 / 16 == e.x)) }
  let snap := if accs.isEmpty && scans.isEmpty then [] else [(e.x, l.accs, l.scans)]
  if l.verify then
    { l with next := e.x + 1, accs := accs, scans := scans
             hold := l.hold ++ (if l.inPass2 then outs.map (OutEl.flip e.d) else outs)
             holdFlags := if fl = 0 then l.holdFlags else l.holdFlags ++ [(e.x, fl)], winSnaps := l.winSnaps ++ snap }
  else
    { l with next := e.x + 1, accs := accs, scans := scans, outs := l.outs ++ outs, flags := addFlags l.flags fl e.x
             snaps := l.snaps ++ snap }

/-! Passes of a verified window (R314 to R318). -/

/-- The state of a group 0x7 node as 64-bit words, in the order of R275. -/
def scanWords (n : NodeD) (st : ScanState) : List Nat :=
  let elem := fun (h : Nat × Nat × Bool) => [h.2.1 % 2 ^ 64, h.2.1 / 2 ^ 64, b2n h.2.2]
  match n.op with
  | 0x700 | 0x701 => [st.p0, st.count]
  | 0x702 | 0x703 => st.hist.flatMap elem
  | 0x710 | 0x711 => [leNat st.acc.bytes]
  | _ => [ofSigned 64 st.agg]

/-- The signature of a pass over [a, b2). -/
def passSig (d : List Nat) (a b2 : Nat) (outs : List OutEl) (flags : List (Nat × Nat)) (accs : Tab Acc) (scans : Tab ScanState)
    (stop : Option (Nat × StopCause)) : Nat :=
  let c := (List.range (b2 - a)).foldl (fun c k =>
    let i := a + k
    let c := (outs.filter (fun o => o.elem == i)).foldl (fun c o =>
      let n := max 1 ((slotD d o.slot).bits / 8)
      crc64From c (leBytes 8 o.loc ++ leBytes ((n + 7) / 8 * 8) o.bits)) c
    crcByte c (BitVec.ofNat 8 (((flags.find? (fun f => f.1 == i)).map (fun f => f.2)).getD 0))) (2 ^ 64 - 1)
  let c := (nodesOf d).foldl (fun c n =>
    if isReduction (nodeD d n).op then crc64From c ((tabGet accs (emptyOf (nodeD d n)) n).bytes) else c) c
  let c := (nodesOf d).foldl (fun c n =>
    if isGroup7 (nodeD d n).op then
      (scanWords (nodeD d n) (tabGet scans {} n)).foldl (fun c w => crc64From c (leBytes (if isFscan (nodeD d n).op then 640 else 8) w)) c
    else c) c
  crc64From c (leBytes 8 (match stop with
    | some (f, x) => x.status * 2 ^ 56 + f
    | none => 0))

/-- A verified slice begins a pass at an element, from its committed running states: every input is read again, and the window's
images and held outputs are empty (R314, R318, R319). -/
def Slice.restart (l : Slice) (x : Nat) : Slice :=
  { l with next := x, base := x, inp := [], asked := [], pf := [], accs := [], scans := l.commitScans, hold := [], holdFlags := []
           winSnaps := [], pass1 := none, pass2 := none }

/-- A pass ends at its window's end or at a stop: its record is kept, and pass 2 begins anew. Pass 1 holds no output (R314). -/
def Slice.endPass (l : Slice) (d : List Nat) (stop : Option (Nat × StopCause × Nat)) : Slice :=
  let cause := stop.map (fun x => (x.1, x.2.1))
  let fl := l.holdFlags ++ (match stop with | some (f, _, n) => [(f, n)] | none => [])
  let outs := if l.inPass2 then l.hold.map (OutEl.flip d) else l.hold
  let r : PassRes := { sig := passSig d l.base l.next outs l.holdFlags l.accs l.scans cause, stop := cause, accs := l.accs
                       scans := l.scans, outs := if l.inPass2 then l.hold else [], flags := fl, snaps := l.winSnaps }
  if l.inPass2 then { l with pass2 := some r } else { (l.restart l.base) with pass1 := some r }

/-! The group. -/

/-- Where the elements of a slice end while its chain stops at a lower element (R129). -/
def Slice.top (l : Slice) (c : Chain) : Nat :=
  match c.stop with
  | some (f, _) => min l.limit f
  | none => l.limit

/-- Lowest element of a slice whose outputs are not performed. -/
def Slice.outstanding (l : Slice) (c : Chain) : Nat :=
  (l.outs.map (fun o => o.elem) ++ (c.flying.filter (fun x => l.first ≤ x.elem && x.elem < l.fin)).map (fun x => x.elem)
    ++ (c.atomFlying.filter (fun a => l.first ≤ a.1 && a.1 < l.fin)).map (fun a => a.1)).foldl min l.next

/-- What a slice no longer needs is dropped. -/
def Slice.prune (l : Slice) (c : Chain) : Slice :=
  let keep := jumpSlots c.desc
  let low := l.outstanding c
  { l with inp := l.inp.filter (fun e => l.next ≤ e.elem || keep.contains e.slot), snaps := l.snaps.filter (fun x => low ≤ x.1) }

/-- LOFT output elements of a chain written to their registers, those of one word together; what they replace is kept for a stop (R117,
R286). -/
def State.writeLofts (s : State) (i id : Nat) (d : List Nat) (outs : List OutEl) : State :=
  let g := (s.svu i).group
  let outs := outs.filter (fun o => (slotD d o.slot).kind == kLoft
    && decide ((o.loc + 1) * (slotD d o.slot).bits ≤ 4096 * groupFactor g))
  let at' := fun o : OutEl => loftBit g (slotD d o.slot).base (slotD d o.slot).bits o.loc
  let olds := outs.map (fun o =>
    let w := (slotD d o.slot).bits
    ({ elem := o.elem, svu := i, bit := at' o, width := w, old := s.loftRaw i (at' o) w } : LoftOld))
  (s.updChain id (fun c => { c with loftOlds := c.loftOlds ++ olds })).loftWrite i
    (outs.flatMap (fun o => loftPieces (at' o) (slotD d o.slot).bits o.bits))

def notLoft (d : List Nat) (outs : List OutEl) : List OutEl := outs.filter (fun o => (slotD d o.slot).kind != kLoft)

/-- Elements of a group computed in order, up to its end, a stop or a wait; `up` is an upset of one result. The result is the
stop it met, if any, with the flags of that element. -/
def State.elems (s : State) (i id lsl hi : Nat) (up : Option (Nat × Nat × Nat)) : Nat → State × Option (Nat × StopCause × Nat)
  | 0 => (s, none)
  | n + 1 =>
    match s.chainOf id with
    | none => (s, none)
    | some c =>
      match c.slices.find? (fun l => l.lsl == lsl) with
      | none => (s, none)
      | some l =>
        if hi ≤ l.next then (s, none)
        else
          let e := l.env c l.next up
          match s.elemStep i c l e with
          | (s, .stop q) => (s, some (l.next, q, e.stopFlags q))
          | (s, .wait) => (s, none)
          | (s, .done outs adds) =>
            match s.sendAdds i c lsl l.next adds with
            | none => (s, none)
            | some s => (s.updSlice id lsl (fun l => l.commit e outs)).elems i id lsl hi up n

/-- A group's elements are computed: what follows it for the slice (R229, R313, R318). -/
def State.afterGroup (s : State) (i id lsl : Nat) (stop : Option (Nat × StopCause × Nat)) : State :=
  match s.chainOf id with
  | none => s
  | some c =>
    match c.slices.find? (fun l => l.lsl == lsl) with
    | none => s
    | some l =>
      if l.verify then
        let over' := stop.isSome || decide (l.limit ≤ l.next)
        if over' && l.asked.isEmpty then s.updSlice id lsl (fun l => l.endPass c.desc stop) else s
      else
        let s := s.writeLofts i id c.desc l.outs
        let s := s.updSlice id lsl (fun l : Slice => ({ l with outs := notLoft c.desc l.outs } : Slice).prune c)
        let s := match stop with
          | some (f, q, fl) =>
            s.updChain id (fun c =>
              { (c.updSlice lsl (fun l : Slice => { l.addStop f q with phase := .stopped, flags := addFlags l.flags fl f })).addStop f q
                with phase := .stopping })
          | none => s
        let s := s.updSlice id lsl (fun l => if l.fin ≤ l.next then { l with phase := .drain } else l)
        s.releaseTail id

/-! Output spools. -/

/-- Bits an output slot of a slice holds in its spool. -/
def Slice.spooled (l : Slice) (d : List Nat) (k : Nat) : Nat :=
  ((l.outs.filter (fun o => o.slot == k)).map (fun o => (slotD d o.slot).bits)).sum

/-- Output elements of a slice in the order in which those of one granule reach the crossbar (R123). -/
def OutEl.first (o p : OutEl) : Bool := decide (o.elem < p.elem) || (o.elem == p.elem && decide (o.slot < p.slot))

/-- An output spool must issue what it holds: it is full, its range has ended, its chain stops, or it is no spool (R122). -/
def State.mustIssue (s : State) (i : Nat) (c : Chain) (l : Slice) (k : Nat) : Bool :=
  let sd := slotD c.desc k
  let room := if sd.streamed then spoolBits c.desc true (s.heldChains i).length else 524288
  decide (room ≤ l.spooled c.desc k + sd.bits) || decide (l.fin ≤ l.next) || c.stop.isSome || sd.kind == kScratch

/-- The output elements a spool issues next: those of the first granule that has whole words to issue (R122), after every lower output
of the slice to the granule (R123). An output that is in the way of one that must be issued must be issued too. -/
def State.nextWrite (s : State) (i : Nat) (c : Chain) (l : Slice) (k : Nat) : List OutEl :=
  let d := c.desc
  let ga := fun o : OutEl => o.ga d s.node i
  let outs := notLoft d l.outs
  let slots := (outputsOf d).map (fun k => (k, s.mustIssue i c l k))
  let must := fun j : Nat => slots.any (fun x => x.1 == j && x.2)
  let forced := fun o : OutEl => must o.slot || outs.any (fun p => must p.slot && ga p / 256 == ga o / 256 && o.first p)
  let mine := outs.filter (fun o => o.slot == k)
  let w := (slotD d k).bits
  let lastG := (mine.getLast?.map (fun o => ga o / 256)).getD 0
  let full := fun word : Nat =>
    (mine.filter (fun o => ga o / 64 == word)).foldl (fun m o => m ||| ((2 ^ w - 1) * 2 ^ (8 * (ga o % 64) + o.bit))) 0 == 2 ^ 512 - 1
  let narrow := fun (here set : List OutEl) => set.filter (fun o => here.all (fun p =>
    (!p.first o || set.contains p) && (forced o || p.slot != k || ga p / 64 != ga o / 64 || set.contains p)))
  let issue := fun granule : Nat =>
    let here := outs.filter (fun o => ga o / 256 == granule)
    let set := here.filter (fun o => o.slot == k && (forced o || (granule != lastG && full (ga o / 64))))
    (List.range 9).foldl (fun set _ => narrow here set) set
  (((mine.map (fun o => ga o / 256)).dedup.map issue).find? (fun set => !set.isEmpty)).getD []

/-- Tail records or journal words that a provisional write of contributions needs are free: those set aside for provisional writes that
wait at the channel or a bank are not (R228, R250). -/
def State.tailRoom (s : State) (i : Nat) (cs : List Contrib) : Bool :=
  match cs with
  | [] => true
  | x :: _ =>
    let n := (cs.map (fun y => y.word)).dedup.length
    if x.word < memTop then
      let c := channelOf x.word
      let waiting := (((s.chan c).queue.filter s.provNow).map (fun r => r.words.length)).sum
      !s.on INTLV_TAIL_SIZE_PENDING
        && decide ((s.tail.filter (fun t => t.chan == c)).length + waiting + n ≤ s.tailArea.2 / 12288)
    else decide (s.journalHeld i + n ≤ 8192)

/-- A write of output elements of one granule goes out, waits for a tail record, or is held by a tether (R41, R217, R226 to
R228, R304, R678). -/
def State.issueWrite (s : State) (i : Nat) (c : Chain) (l : Slice) (k : Nat) (os : List OutEl) : State :=
  match os with
  | [] => s
  | o :: _ =>
    let d := c.desc
    let g := o.ga d s.node i
    let cs := os.flatMap (fun o => o.contribs d s.node i)
    let prov := os.any (fun o => decide (c.clear ≤ o.elem))
    let left := fun (s : State) => s.updSlice c.id l.lsl (fun l => { l with outs := l.outs.filter (fun x => !os.contains x) })
    if s.tethered c.id (g / 256) then s.hold i (32 + k) (g / 256) c.id
    else if gaNode g ≠ s.node then
      if prov then s.hold i (64 + k) (g / 256) c.id
      else
        let s1 := left s
        let high := match s1.chainOf c.id with
          | some c => s1.hiding c
          | none => []
        (s1.postWrites i c.id (settleContribs high cs)).getD s
    else if prov && !s.tailRoom i cs then
      if s.heldReads.contains (i, 64 + k, g / 256, c.id) then s
      else (s.hold i (64 + k) (g / 256) c.id).count INTLV_TAIL_STAT_WAITS 1
    else
      let s := { s with heldReads := s.heldReads.filter (fun h => h != (i, 64 + k, g / 256, c.id)) }
      match os.findSome? (fun o => (s.blocked .streamWrite (gaOff (o.ga d s.node i)) 1).map (fun st => (o, st))) with
      | some (o, st) =>
        s.updChain c.id (fun c : Chain => ({ c with phase := .stopping } : Chain).addStop o.elem
          { status := st, slot := k, va := o.va, ga := o.ga d s.node i })
      | none =>
        let u := if gaOff g < memTop then 256 else 16
        let s := (left s).updChain c.id (fun c => { c with flying := c.flying ++ cs })
        ((cs.map (fun x => x.word / u)).dedup).foldl (fun s line =>
          let part := cs.filter (fun x => x.word / u == line)
          s.push (line * u) { op := .write (contribWrites part), src := none, port := i, owner := (slotD d k).kind == kScratch
                              arrived := s.now, prov := prov, who := some (Requester.stream i).code, sink := .chainWrite c.id part }) s

/-- An output slot of a chain's range on an SVU issues a write. -/
def State.writeOut (s : State) (i id k : Nat) : State :=
  match s.chainOf id with
  | none => s
  | some c =>
    match c.slices.find? (fun l => l.svu == i && l.outs.any (fun o => o.slot == k)) with
    | some l => s.issueWrite i c l k (s.nextWrite i c l k)
    | none => s

end Sys2Proof.Machine
end

