-- ==== Sys2Proof/Machine/ChainRun.lean ====
section
/-! DEFINITION. The commands of chains in progress: dispatch, prefetch, walks, pipes, groups, writes, blocks,
verified windows, the end of slices and of chains, and the tail area (R124 to R135, R216, R248 to R250, R259, R313 to
R322, R427 to R437, R595, R680). -/
namespace Sys2Proof.Machine
open Reg

/-! Dispatch. -/

/-- Every element of a chain, up to its stop if it stops, has been computed (R210). -/
def Chain.computed (c : Chain) : Bool :=
  let top := match c.stop with
    | some (f, _) => f
    | none => dCount c.desc
  !c.slices.isEmpty && c.slices.all (fun l => decide (min top l.fin ≤ l.reached))

/-- Every chain command of a ring before a SEQ has made its chain, and none of them has failed (R210, R214). -/
def RingState.chainsMade (q : RingState) (seq : Nat) : Bool :=
  q.running.all (fun p => !seqEarlier p.seq seq || !isChainCmd p.cmd || p.held)
    && q.done.all (fun x => !seqEarlier x.seq seq || goodStatus x.status)

/-- A chain may begin its prefetch behind the earlier chains of its issuer (R210, R211, R215, R370). A halted ring starts none but a RELAX
chain whose descriptor is checked; a chain whose earlier one stops waits for the halt, or the abort, which that one's end brings
(R214, R422, log 24). -/
def State.orderOk (s : State) (c : Chain) : Bool :=
  s.chains.all (fun e => !e.before c || (e.computed && e.stop.isNone))
    && (match c.issuer with
      | .ring r seq => dRelax c.desc || (s.ringState r == 1 && (s.ring r).chainsMade seq)
      | .task .. => true)

/-- An SVU takes a range of a chain now: four chains at most, a verified chain alone, none during a self-test or a reset
(R319, R435, R437). -/
def State.takes (s : State) (j : Nat) (c : Chain) : Bool :=
  let x := s.svu j
  let others := x.ctxs.filter (fun y => y.1 != c.id)
  let verified := others.any (fun y => (s.chainOf y.1).any (fun e => dVerify e.desc))
  x.testing.isNone && !x.draining && !verified && decide (others.length < 4) && (!dVerify c.desc || others.isEmpty)

/-- A slice's range is handed to an SVU; its chain takes the lowest free context there, the model's choice (R436, log 67). -/
def State.handOut (s : State) (c : Chain) (lsl j : Nat) : State :=
  let x := s.svu j
  let no := ((List.range 4).find? (fun n => x.ctxs.all (fun y => y.2 != n))).getD 0
  let x := if x.ctxs.any (fun y => y.1 == c.id) then x else { x with ctxs := x.ctxs ++ [(c.id, no)] }
  let mark : LoftOp := { core := 0, task := 0, w0 := 0, w1 := 0, scalar := 0, te := 0, mark := c.id + 1 }
  let x := if hasLoft c.desc then { x with queue := x.queue ++ [mark] } else x
  (s.setSvu j x).updSlice c.id lsl (fun l => { l with svu := j, phase := .prefetch })

/-- Every range without an SVU that has elements to compute is handed out, or waits for room, or stops its chain when none can serve it
(R129, R430, R431). -/
def State.assign (s : State) (id : Nat) : State :=
  match s.chainOf id with
  | none => s
  | some c =>
    (c.slices.filter (fun l => l.svu == 96 && l.phase != .done && l.stop.isNone && decide (l.reached < l.top c))).foldl (fun s l =>
      match nextServing c.map l.lsl s.serves with
      | some j => if s.takes j c then s.handOut c l.lsl j else s
      | none =>
        let st := if c.map.all (fun i => s.svuFenced i) then ST_FENCED else ST_NOT_READY
        let k := l.reached
        s.updChain id (fun c : Chain =>
          { (c.updSlice l.lsl (fun l : Slice => { l.addStop k { status := st } with phase := .stopped })).addStop k { status := st }
            with phase := .stopping })) s

/-- CHAIN_DISPATCH (R124 to R127, R210, R428 to R431). -/
def execChainDispatch (id : Nat) (s : State) : Host.Outcome State Fault Refusal :=
  .next (match s.chainOf id with
    | none => s
    | some c =>
      match c.phase with
      | .checked =>
        if !s.orderOk c then s
        else
          let map := s.mapOf c.issuer
          let serial := isSerial c.desc
          let accs : Tab Acc := if serial then c.keptAccs else []
          let slices := (rangesOf c.desc c.start map.length).map (fun r : Nat × Nat × Nat =>
            ({ lsl := r.1, first := r.2.1, fin := r.2.2, next := r.2.1, base := r.2.1, verify := dVerify c.desc
               accs0 := accs, accs := if dVerify c.desc then [] else accs, commitAccs := accs
               scans := c.keptScans, commitScans := c.keptScans } : Slice))
          (s.setChain { c with phase := .running, map := map, slices := slices
                               keptAccs := if serial then [] else c.keptAccs }).assign id
      | .running | .stopping => s.assign id
      | _ => s)

/-! Prefetch and walks. -/

/-- SPOOL_PREFETCH (R120, R121): the first range of the SVU whose slot can ask for an element does. -/
def execSpoolPrefetch (i : Svu) (slot : Slot) (s : State) : Host.Outcome State Fault Refusal :=
  .next (
    let open' := (s.heldChains i.val).filterMap (fun c => (c.sliceOn i.val).map (fun l => (c, l)))
    let ok := fun p : Chain × Slice =>
      let w := p.2.wants p.1 slot.val (s.heldChains i.val).length
      p.2.stop.isNone && (slotD p.1.desc slot.val).input && decide (w.1 < w.2)
    match open'.find? ok with
    | some (c, l) => if (s.svu i.val).testing.isSome then s else s.fetch i.val c l slot.val
    | none => s)

/-- TABLE_WALK_READ (R259 to R265). -/
def execTableWalkRead (i : Svu) (slot : Slot) (upsets : List Upset) (s : State) : Host.Outcome State Fault Refusal :=
  .next (match (s.svu i.val).walks.find? (fun w => w.slot == slot.val) with
    | none => s
    | some y =>
      match s.chainOf y.chain with
      | none => s
      | some c =>
        let w := s.walker c i.val .read
        let ga := y.table + 8 * vaIndex y.va y.level
        let s := if gaNode ga = s.node && decide (gaOff ga < memTop) then s.upset (gaOff ga) upsets else s
        let drop := fun (s : State) => s.setSvu i.val { s.svu i.val with walks := (s.svu i.val).walks.filter (· != y) }
        match s.walkLevel w y.va y.level y.table with
        | (s, .wait) => s
        | (s, .fail x) => (drop (s.walkFailed.walkEnds w y.va)).putElem c y.lsl y.slot y.elem (some x)
        | (s, .table t e) =>
          let s := s.walkEnds w y.va
          s.setSvu i.val { s.svu i.val with walks := (s.svu i.val).walks.map (fun x : Walk =>
            if x = y then { y with level := y.level - 1, table := t, path := y.path ++ [e] } else x) }
        | (s, .leaf e) => (drop (s.walkEnds w y.va)).install w e y.path)

/-- TETHER_RELEASE (R217): reads and writes held on a granule that nothing tethers any more go out. -/
def execTetherRelease (granule : Nat) (s : State) : Host.Outcome State Fault Refusal :=
  let go := s.heldReads.filter (fun h => h.2.2.1 == granule && !s.tethered h.2.2.2 granule)
  .next (go.foldl (fun s h =>
    let (i, k, _, id) := h
    let s : State := { s with heldReads := s.heldReads.filter (· != h) }
    if 32 ≤ k then s.writeOut i id (k % 32)
    else
      match s.chainOf id with
      | none => s
      | some c => match c.sliceOn i with
        | some l => s.fetch i c l k
        | none => s) s)

/-! Pipes, blocks and groups. -/

/-- The granted lift of a chain is carried (R135, R540). -/
def State.lifted (s : State) (c : Chain) : Bool :=
  c.granted && s.power.ramps.all (fun r => r.chain != some c.id || decide (r.pipes ≤ s.now))

/-- End of the block of 4,096 elements, counted from START, that holds an index (R435). -/
def Slice.blockOf (l : Slice) (c : Chain) (i : Nat) : Nat := min l.fin (c.start + ((i - c.start) / 4096 + 1) * 4096)

/-- The first element group has arrived at every input spool that a slice uses (R135). -/
def Slice.firstGroup (l : Slice) (c : Chain) : Bool :=
  ((plainInputs c.desc).filter (fun k => (slotD c.desc k).streamed)).all (fun k => l.arrived c.desc k (l.groupEnd c.desc))
    && (l.jumps c).2 && ((l.jumps c).1.filter (fun x => (slotD c.desc x.1).streamed)).all (fun x => l.has c.desc x.1 x.2)

/-- A range that waits for its pipes: lift carried, its LOFT turn come, no self-test. -/
def State.startable (s : State) (i : Nat) (c : Chain) (l : Slice) : Bool :=
  s.lifted c && l.phase == .prefetch && l.stop.isNone && s.loftTurn i c && (s.svu i).testing.isNone

/-- What an input spool's new part cannot hold is discarded, to be read again (R437). -/
def Slice.trim (l : Slice) (d : List Nat) (held : Nat) : Slice :=
  let cut := (plainInputs d).filter (fun k => (slotD d k).streamed && !(jumpSlots d).contains k)
  let cap := fun k => max (l.groupReads d) (l.next + spoolBits d false held / (slotD d k).bits)
  let stays := fun k e => !cut.contains k || decide (e < cap k)
  { l with
    inp := l.inp.filter (fun e => stays e.slot e.elem), asked := l.asked.filter (fun a => stays a.1 a.2)
    pf := l.pf.map (fun p : Nat × Nat => if cut.contains p.1 then (p.1, min p.2 (cap p.1)) else p) }

/-- The block of a chain begins on an SVU, whose spools are divided among the ranges held then (R435, R437). -/
def State.beginBlock (s : State) (i : Nat) (c : Chain) (l : Slice) : State :=
  let held := s.heldChains i
  let s := held.foldl (fun s e =>
    s.updChain e.id (fun e => { e with slices := e.slices.map (fun l => if l.svu = i then l.trim e.desc held.length else l) })) s
  s.setSvu i { s.svu i with current := some c.id, blockEnd := l.blockOf c l.next }

/-- PIPES_START (R113, R135, R293). -/
def execPipesStart (i : Svu) (s : State) : Host.Outcome State Fault Refusal :=
  let x := s.svu i.val
  let ids := match x.current with
    | some id => [id]
    | none => x.ctxs.map (fun c : Nat × Nat => c.1)
  let open' : List (Chain × Slice) := (ids.filterMap s.chainOf).filterMap (fun c : Chain => (c.sliceOn i.val).map (fun l => (c, l)))
  let ready := open'.filter (fun p => s.startable i.val p.1 p.2)
  .next (match ready.find? (fun p => hasLoft p.1.desc && !loftSlotsOk p.1.desc x.group) with
    | some (c, _) => s.denyLoft c
    | none =>
      match ready.find? (fun p => p.2.firstGroup p.1) with
      | none => s
      | some (c, l) => (s.updSlice c.id l.lsl (fun l => { l with phase := .run })).beginBlock i.val c l)

/-- Class, weight and number of a chain's issuer in the rule of R433. -/
def State.shareOf (s : State) (c : Chain) : Bool × Nat × Nat :=
  match c.issuer with
  | .ring r _ => (s.on (CMDR_CFG_CLASS r), s.rd (CMDR_CFG_WEIGHT r), r)
  | .task k t => (false, 16, 64 + 64 * k + t)

/-- One decision of R433 among candidates (key, HIGH, weight, number): the key chosen, and the credits after it. -/
def decide433 (turn : Nat) (credit : Tab Int) (cs : List (Nat × Bool × Nat × Nat)) : Option Nat × Tab Int :=
  let high := cs.filter (fun c => c.2.1)
  let low := cs.filter (fun c => !c.2.1)
  let cls := if !high.isEmpty && (low.isEmpty || turn % 8 != 7) then high else low
  let credit := credit.filter (fun p => cs.any (fun c => c.1 == p.1))
  let credit := cls.foldl (fun t c => tabPut t c.1 (tabGet t 0 c.1 + (c.2.2.1 : Int))) credit
  let total : Int := ((cls.map (fun c => c.2.2.1)).sum : Nat)
  let best := cls.foldl (fun (m : Option (Nat × Bool × Nat × Nat)) c =>
    match m with
    | none => some c
    | some b =>
      let x := tabGet credit 0 c.1
      let y := tabGet credit 0 b.1
      if y < x ∨ (x = y ∧ c.2.2.2 < b.2.2.2) then some c else m) none
  match best with
  | none => (none, credit)
  | some b => (some b.1, tabPut credit b.1 (tabGet credit 0 b.1 - total))

/-- The SVU stands at a block boundary: no block runs, or the running one is over. -/
def State.atBoundary (s : State) (i : Nat) : Bool :=
  match (s.svu i).current with
  | none => true
  | some id =>
    match (s.chainOf id).bind (fun c => (c.sliceOn i).map (fun l => (c, l))) with
    | none => true
    | some (c, l) => l.phase == .stopped || l.phase == .drain || decide ((s.svu i).blockEnd ≤ l.reached)
        || decide (l.top c ≤ l.next)

/-- BLOCK_SWITCH (R435 to R437). -/
def execBlockSwitch (i : Svu) (s : State) : Host.Outcome State Fault Refusal :=
  let x := s.svu i.val
  let held := (x.ctxs.filterMap (fun y => s.chainOf y.1)).filter (fun c =>
    s.lifted c && (c.sliceOn i.val).any (fun l => l.stop.isNone && decide (l.next < l.fin)))
  let (best, credit) := decide433 x.blkTurn x.blkCredit (held.map (fun c => (c.id, s.shareOf c)))
  .next (if !s.atBoundary i.val then s
  else
    match best.bind s.chainOf with
    | none => s
    | some c =>
      let s := s.setSvu i.val { x with blkCredit := credit, blkTurn := x.blkTurn + 1 }
      match c.sliceOn i.val with
      | some l => s.beginBlock i.val c l
      | none => s)

/-- Every output slot has room in its spool (R228). -/
def State.spoolRoom (s : State) (i : Nat) (c : Chain) (l : Slice) : Bool :=
  let held := (s.heldChains i).length
  (outputsOf c.desc).all (fun k => !(slotD c.desc k).streamed || l.verify || decide (l.spooled c.desc k < spoolBits c.desc true held))

/-- A block may go on: it is the SVU's only chain, or its end is not reached (R435). -/
def State.blockGoesOn (s : State) (i : Nat) (l : Slice) : Bool :=
  let x := s.svu i
  decide (l.next < x.blockEnd) || decide (x.ctxs.length ≤ 1)

/-- A verified window is lost to a mismatch: counted, recorded, and the SVU tests itself (R319, R332). -/
def State.mismatch (s : State) (i : Nat) (c : Chain) (l : Slice) : State :=
  let ring := match c.issuer with
    | .ring r _ => r
    | .task .. => 0
  let s := s.count VERIF_MISMATCH_MISMATCH 1
  let s := s.record { src := srcVerifyMismatch + i / 4, inst := i % 4, aux := ring, addr := l.base }
  let s := if l.retried then s.record { src := srcVerifyFailed + i / 4, inst := i % 4, aux := ring, addr := l.base } else s
  s.setSvu i { s.svu i with testing := some (c.id, l.lsl, b2n l.retried) }

/-- A parity failure of a group (R595). -/
def State.parity (s : State) (i src aux : Nat) (c : Chain) (l : Slice) : State :=
  let s := s.record { src := src + i / 4, inst := i % 4, aux := aux, addr := l.next, fence := !l.verify }
  if l.verify then s.mismatch i c l else s

/-- GROUP_COMPUTE (R91, R113 to R118, R130, R228, R435, R595). -/
def execGroupCompute (i : Svu) (check : GroupCheck) (s : State) : Host.Outcome State Fault Refusal :=
  .next (match s.runningRange i.val with
    | none => s
    | some (c0, l0) =>
      if s.power.stalled || l0.phase != .run || l0.pass2.isSome || (s.svu i.val).testing.isSome || l0.stop.isSome || decide (l0.top c0 ≤ l0.next)
          || !s.blockGoesOn i.val l0 || !s.spoolRoom i.val c0 l0 || !s.lifted c0 then s
      else
        let s := s.fetchOwn i.val c0.id l0.lsl
        match s.runningRange i.val with
        | none => s
        | some (c, l) =>
          if !l.groupReady c then
            if l.asked.isEmpty then s
            else
              let (v, s) := s.fresh
              s.count (SVU_SPOOL_STALL_STALL i.val) (v + 1)
          else
            match check with
            | .pipe n => s.parity i.val srcPipeParity n.val c l
            | .spool n => s.parity i.val srcSpoolParity n.val c l
            | _ =>
              let up := match check with
                | .upset pipe lane bit =>
                  let (e, b) := laneElem c.desc l.inPass2 lane.val bit.val
                  some (pipe.val, l.groupStart c.desc + e, b)
                | _ => none
              let hi := min (l.groupEnd c.desc) (l.top c)
              let (s, stop) := s.elems i.val c.id l.lsl hi up (hi - l.next)
              s.afterGroup i.val c.id l.lsl stop)

/-- SP_SWAP_WAIT (R679): the waiting SP_SWAP of an SVU's running range goes out when its element's turn has come. -/
def execSpSwapWait (i : Svu) (s : State) : Host.Outcome State Fault Refusal :=
  .next (match s.runningRange i.val with
    | none => s
    | some (c, l) =>
      match l.atomWait with
      | some (x, _, 0) =>
        if c.clear < x || x ≠ l.next then s
        else (s.nodesStep i.val c l (l.env c x none)).1
      | _ => s)

/-- SPOOL_WRITE_ISSUE (R122, R226 to R228). -/
def execSpoolWriteIssue (i : Svu) (slot : Slot) (s : State) : Host.Outcome State Fault Refusal :=
  let ids := (s.chains.filter (fun c => c.slices.any (fun l => l.svu == i.val && l.outs.any (fun o => o.slot == slot.val)))).map (fun c => c.id)
  .next (match ids.find? (fun id => match s.chainOf id with
      | none => false
      | some c => c.slices.any (fun l => l.svu == i.val && !(s.nextWrite i.val c l slot.val).isEmpty)) with
    | some id => s.writeOut i.val id slot.val
    | none => s)

/-! Verified windows (R318 to R322). -/

/-- A window whose signatures agree is released. -/
def State.release (s : State) (i : Nat) (c : Chain) (l : Slice) (p : PassRes) : State :=
  let d := c.desc
  let outs := p.outs.map (OutEl.flip d)
  let s := s.writeLofts i c.id d outs
  let s := s.count VERIF_WINDOWS_RELEASED 1
  let s := if l.retried then s.count VERIF_MISMATCH_RETRIED 1 else s
  let s := s.updChain c.id (fun c : Chain =>
    let c : Chain := { c with retried := c.retried || l.retried }
    let c := c.updSlice l.lsl (fun l : Slice =>
      let snaps := p.snaps.map (fun x => (x.1, mergeAccs d l.commitAccs x.2.1, x.2.2))
      let l : Slice := { l with
        outs := l.outs ++ notLoft d outs, snaps := l.snaps ++ snaps, commitAccs := mergeAccs d l.commitAccs p.accs, commitScans := p.scans
        retried := false, flags := p.flags.foldl (fun t x => addFlags t x.2 x.1) l.flags }
      let l := (l.restart l.next).prune c
      if l.fin ≤ l.next then { l with phase := .drain } else l)
    match p.stop with
    | some (f, q) =>
      { (c.updSlice l.lsl (fun l : Slice => { l.addStop f q with phase := .stopped })).addStop f q with phase := .stopping }
    | none => c)
  s.releaseTail c.id

/-- WINDOW_COMPARE (R318, R319). -/
def execWindowCompare (i : Svu) (s : State) : Host.Outcome State Fault Refusal :=
  .next (match s.runningRange i.val with
    | none => s
    | some (c, l) =>
      match l.pass1, l.pass2 with
      | some p, some q =>
        if (s.svu i.val).testing.isSome then s
        else if p.sig = q.sig then s.release i.val c l q else s.mismatch i.val c l
      | _, _ => s)

/-- VERIF_LAST latched (R333). -/
def State.latchVerif (s : State) (i outcome : Nat) (c : Chain) (l : Slice) : State :=
  if s.on VERIF_LAST_INFO_VALID then s.wr VERIF_LAST_INFO_OVERFLOW 1
  else
    let (cl, ring) := match c.issuer with
      | .ring r _ => (0, r)
      | .task .. => (1, 0)
    let info := 2 ^ 63 + bitsOf (s.reg VERIF_LAST_INFO).toNat 62 62 * 2 ^ 62 + outcome * 2 ^ 28 + cl * 2 ^ 24 + ring * 2 ^ 16 + i
    let sig := fun (p : Option PassRes) => BitVec.ofNat 64 ((p.map (fun r => r.sig)).getD 0)
    (((s.setReg VERIF_LAST_INFO (BitVec.ofNat 64 info)).setReg VERIF_LAST_INDEX (BitVec.ofNat 64 l.base)).setReg VERIF_LAST_SIG1
      (sig l.pass1)).setReg VERIF_LAST_SIG2 (sig l.pass2)

/-- SVU_SELF_TEST_DONE (R320, R321). -/
def execSvuSelfTestDone (i : Svu) (pass : Bool) (s : State) : Host.Outcome State Fault Refusal :=
  let j := i.val
  .next (match (s.svu j).testing with
    | none => s
    | some (id, lsl, rerun) =>
      let s := s.setSvu j { s.svu j with testing := none }
      let fail := fun (s : State) (ring base : Nat) => if pass then s
        else s.record { src := srcSvuBist + j / 4, inst := j % 4, aux := ring, addr := base, fence := true }
      match (s.chainOf id).bind (fun c => (c.slices.find? (fun l => l.lsl == lsl && l.svu == j)).map (fun l => (c, l))) with
      | none => fail s 0 0
      | some (c, l) =>
        let ring := match c.issuer with
          | .ring r _ => r
          | .task .. => 0
        let outcome := if rerun = 1 then 3 else if pass then 1 else 2
        let s := s.latchVerif j outcome c l
        let s := s.updSlice id lsl (fun l => { l.restart l.base with retried := true })
        let s := if rerun = 1 then
            s.updChain id (fun c : Chain =>
              { (c.updSlice lsl (fun l : Slice => { l.addStop l.base { status := ST_VERIFY_FAILED } with phase := .stopped })).addStop l.base
                  { status := ST_VERIFY_FAILED } with phase := .stopping })
          else s
        fail s ring l.base)

/-! The end of slices and chains. -/

/-- A chain's reduction writes still use loft registers of its SVU: a LOFT output, or a LOFT index of one (R109). -/
def loftReduces (d : List Nat) : Bool :=
  (outputsOf d).any (fun k =>
    let s := slotD d k
    s.reduces d && (s.kind == kLoft || (s.kind == kIndexed && (slotD d s.idx).kind == kLoft)))

/-- A range leaves its SVU: its context, when no other range of the chain is there, and its LOFT turn, unless its chain's reduction writes
need it until the chain ends (R209, R293). -/
def State.leaveSvu (s : State) (c : Chain) (i lsl : Nat) : State :=
  let more := c.slices.any (fun l => l.lsl != lsl && l.svu == i && l.phase != .done)
  let s := if more then s else s.dropCtx i c.id
  if loftReduces c.desc then s
  else s.setSvu i { s.svu i with queue := (s.svu i).queue.filter (fun o => o.mark != c.id + 1) }

/-- SLICE_END (R128, R318, R436). -/
def execSliceEnd (i : Svu) (s : State) : Host.Outcome State Fault Refusal :=
  let done := fun l : Slice => l.svu == i.val && l.phase == .drain && l.outs.isEmpty
  .next (match s.chains.find? (fun c => c.slices.any done) with
    | none => s
    | some c =>
      match c.slices.find? done with
      | none => s
      | some l => s.holdFrom ((s.updSlice c.id l.lsl (fun l => { l with phase := .done })).leaveSvu c i.val l.lsl))

/-- Value and flags of a reduction slot. -/
def Chain.reduced (c : Chain) (k : Nat) : Nat × Nat :=
  let n := (slotD c.desc k).src
  let x := nodeD c.desc n
  extract (tabGet c.accs (emptyOf x) n) x.ot (nodeRm c.desc x)

/-- Every slice of a chain has finished: its images are merged, and its reduction writes and flags stand ready (R128, R201). -/
def State.beginReduce (s : State) (c : Chain) : State :=
  let c : Chain := { c with accs := c.accsAt (dCount c.desc), phase := .reducing }
  let slots := (outputsOf c.desc).filter (fun k => (slotD c.desc k).reduces c.desc)
  s.setChain { c with redTodo := s.reducePlaces c, flags := slots.foldl (fun f k => f ||| (c.reduced k).2) c.flags }

/-- The bytes that a place is written with. -/
def Chain.reduceBytes (c : Chain) (place : Nat) : List Byte :=
  if place < 16 then leBytes (slotD c.desc place).et.size (c.reduced place).1
  else (tabGet c.accs (emptyOf (nodeD c.desc (place - 16))) (place - 16)).bytes

/-- The agent that a chain's reduction writes wait as. -/
def agentReduce (id : Nat) : Nat := 10000 + id

/-- Who translates the reduction writes of a chain. -/
def State.reduceWalker (s : State) (c : Chain) (acc : XAcc) : Walker :=
  { agent := agentReduce c.id, ctx := dCtx c.desc, ring := s.chainRing c, acc := acc, chain := some c.id }

/-- What the address of a reduction write gives: a number, a failure, or a wait. -/
inductive Index0 where
  | value (x : Int)
  | fail (x : StopCause)
  | wait
  deriving DecidableEq, Repr

/-- Element 0 of an index slot read at a global address. -/
def State.readIndex (s : State) (c : Chain) (sd : SlotD) (va g : Nat) : State × Index0 :=
  let n := sd.et.size
  let why := fun (st : Nat) (made : Bool) => ({ status := st, va := va, ga := g, made := made } : StopCause)
  let value := fun (bs : List Byte) => Index0.value (intVal sd.et (leNat bs))
  if s.tethered c.id (g / 256) then (s, .wait)
  else if gaNode g ≠ s.node then
    match s.askRemote (agentReduce c.id) g n (readMsg g n) with
    | (s, none) => (s, .wait)
    | (s, some r) =>
      (s, if r.status ≠ ST_OK then .fail (why r.status false) else if r.bad.isEmpty then value r.bytes else .fail (why ST_POISON false))
  else
    match s.localRead { agent := agentReduce c.id, svu := some c.reduceSvu, kind := .streamRead, who := none } (gaOff g) n with
    | (s, .blocked st) => (s, .fail (why st false))
    | (s, .done (.data bs bad made)) => (s, if bad.isEmpty then value bs else .fail (why ST_POISON (!made.isEmpty)))
    | (s, _) => (s, .wait)

/-- Element 0 of the index slot of an INDEXED reduction output, read as its write begins (R109, log 69). -/
def State.index0 (s : State) (c : Chain) (k : Nat) : State × Index0 :=
  let sd := slotD c.desc k
  let svu := c.reduceSvu
  if sd.kind = kIota then (s, .value (intVal sd.et (iotaBits sd 0)))
  else if sd.kind = kLoft then
    let (s, v, bad) := s.loftRead svu (loftBit (s.svu svu).group sd.base sd.bits 0) sd.bits
    (s, if bad then .fail { status := ST_POISON, made := true } else .value (intVal sd.et v))
  else
    let (a, _) := elemAddr sd 0 0
    match addrCause sd k a with
    | some x => (s, .fail x)
    | none =>
      if sd.kind = kScratch then s.readIndex c sd 0 (gaOf s.node (windowOf svu + a.toNat))
      else
        match s.translate (s.reduceWalker c .read) a.toNat with
        | (s, .wait) => (s, .wait)
        | (s, .fail x) => (s, .fail x)
        | (s, .ok g) => s.readIndex c sd a.toNat g

/-- The address of a reduction write: a virtual address, or an offset for a SCRATCH slot (R103, R109, R195). -/
def State.reduceAddr (s : State) (c : Chain) (place : Nat) : State × Index0 :=
  if 16 ≤ place then (s, .value (s.imageVa c (place - 16)))
  else
    let sd := slotD c.desc place
    if sd.kind = kIndexed then
      match s.index0 c sd.idx with
      | (s, .value x) => (s, .value (elemAddr sd 0 x).1)
      | r => r
    else (s, .value (elemAddr sd 0 0).1)

/-- A reduction write that fails: of failures the one first in the order of R680 stays. -/
def Chain.reduceFail (c : Chain) (place : Nat) (x : StopCause) : Chain :=
  let x : StopCause := { x with place := 64 * place }
  match c.xstop with
  | some y => if x.place < y.place then { c with xstop := some x } else c
  | none => { c with xstop := some x }

/-- Global addresses of the 64-byte pieces of a reduction write, each with its virtual address: all of them, the first failure, or a
wait. -/
def State.reduceGas (s : State) (c : Chain) (va n : Nat) : State × Found × List (Nat × Nat) :=
  (List.range ((va + n - 1) / 64 - va / 64 + 1)).foldl (fun a k =>
    match a with
    | (s, .ga _, gs) =>
      let v := max va ((va / 64 + k) * 64)
      match s.translate (s.reduceWalker c .write) v with
      | (s, .wait) => (s, .wait, gs)
      | (s, .fail x) => (s, .fail x, gs)
      | (s, .ok g) =>
        if s.tethered c.id (g / 256) then (s, .wait, gs)
        else
          let bad := if gaNode g = s.node then s.blocked .streamWrite (gaOff g) 1 else none
          match bad with
          | some st => (s, .fail { status := st, va := v, ga := g }, gs)
          | none => (s, .ga 0, gs ++ [(g, v)])
    | _ => a) (s, .ga 0, [])

/-- The requests of a reduction write: global and virtual address and bytes of each. One to this module keeps within a granule, or a line of
a scratchpad (R40, R305). -/
def reduceParts (node : Nat) (bs : List Byte) (gs : List (Nat × Nat)) : List (Nat × Nat × List Byte) :=
  let va := (gs.head?.map (fun g => g.2)).getD 0
  gs.flatMap (fun p =>
    let off := gaOff p.1
    let part := (bs.drop (p.2 - va)).take (64 - p.2 % 64)
    if gaNode p.1 ≠ node then [(p.1, p.2, part)]
    else (accessPieces off part.length).map (fun q => (gaOf node q.1, p.2 + (q.1 - off), (part.drop (q.1 - off)).take q.2)))

/-- The requests of a reduction write go out; `none` when one finds no room. Request `k` of a place has the number 64 times the place, plus
`k` (R680). -/
def State.putParts (s : State) (id svu place : Nat) (ps : List (Nat × Nat × List Byte)) : Option State :=
  (ps.zipIdx).foldl (fun s? p =>
    s?.bind (fun s =>
      let (g, v, bs) := p.1
      let off := gaOff g
      let sink : Sink := .chainEnd id (64 * place + p.2) v g
      if gaNode g ≠ s.node then s.post (writeMsg g bs false) (some svu) sink
      else some (s.push off { op := .write (wordWrites off bs false), src := none, port := svu, arrived := s.now
                              who := some (Requester.stream svu).code, sink := sink }))) (some s)

/-- The next reduction write of a chain (R109, R195, R209, R680). -/
def State.reduceOne (s : State) (c : Chain) (place : Nat) : State :=
  let sd := slotD c.desc place
  let kind := if place < 16 then sd.kind else kStrided
  let svu := c.reduceSvu
  let popped : Chain := { c with redTodo := c.redTodo.filter (· != place) }
  let fail := fun (s : State) (x : StopCause) =>
    ((s.reportCause svu x).rbufClear (agentReduce c.id)).setChain (popped.reduceFail place x)
  let bs := c.reduceBytes place
  let put := fun (s : State) (gs : List (Nat × Nat)) =>
    let s := s.rbufClear (agentReduce c.id)
    let ps := reduceParts s.node bs gs
    ((s.setChain { popped with redLeft := popped.redLeft ++ rangeFrom (64 * place) ps.length }).putParts c.id svu place ps).getD s
  if kind = kLoft then (s.setChain popped).loftWrite svu (loftPieces (loftBit (s.svu svu).group sd.base sd.bits 0) sd.bits (leNat bs))
  else
    match s.reduceAddr c place with
    | (s, .wait) => s
    | (s, .fail x) => fail s x
    | (s, .value a) =>
      match (if place < 16 then addrCause sd place a else none) with
      | some x => fail s x
      | none =>
        let va := a.toNat
        if kind = kScratch then
          let g := gaOf s.node (windowOf svu + va)
          if s.tethered c.id (g / 256) then s
          else
            match s.blocked .streamWrite (gaOff g) bs.length with
            | some st => fail s { status := st, ga := g }
            | none => put s [(g, va)]
        else
          match s.reduceGas c va bs.length with
          | (s, .wait, _) => s
          | (s, .fail x, _) => fail s x
          | (s, .ga _, gs) => put s gs

/-- A chain all of whose writes are performed ends (R97, R224, R322, R680). -/
def State.endOk (s : State) (c : Chain) : State :=
  let flags := c.flagsWhere (fun _ => true)
  let count := dCount c.desc
  match c.xstop with
  | none => s.endChain c (if c.retried then ST_VERIFY_RETRIED else ST_OK) count flags
  | some x =>
    let place := x.place / 64
    let x : StopCause := if place < 16 then { x with slot := place, node := 15 } else { x with slot := 15, node := place - 16 }
    let s := match c.issuer with
      | .ring r seq => s.latchStop r seq c.desc x count
      | .task .. => s
    s.endChain c x.status count flags

/-- Every slice is done, nothing is in flight, and no reduction write is left. -/
def Chain.finished (c : Chain) : Bool :=
  c.phase == .reducing && c.redTodo.isEmpty && c.redLeft.isEmpty && c.flying.isEmpty && c.atomFlying.isEmpty && c.stop.isNone

/-- Every slice has sent its images, and no stop came meanwhile. -/
def Chain.slicesDone (c : Chain) : Bool :=
  c.phase == .running && !c.slices.isEmpty && c.slices.all (fun l => l.phase == .done) && c.stop.isNone && c.flying.isEmpty
    && c.atomFlying.isEmpty

/-- A chain goes one step towards its end: it merges its images, issues a reduction write, or ends. -/
def State.stepEnd (s : State) (id : Nat) : State :=
  match s.chainOf id with
  | none => s
  | some c0 =>
    let s := if c0.slicesDone then s.beginReduce c0 else s
    match s.chainOf id with
    | none => s
    | some c =>
      if c.phase != .reducing || c.stop.isSome then s
      else
        match c.redTodo with
        | p :: _ => s.reduceOne c p
        | [] => if c.finished then s.endOk c else s

/-- REDUCTION_WRITE (R109, R128, R195, R680). -/
def execReductionWrite (id : Nat) (s : State) : Host.Outcome State Fault Refusal := .next (s.stepEnd id)

/-- Every element of a chain below its stop index has been computed and its write performed (step 1 of R230). -/
def Chain.settledBelow (c : Chain) (f : Nat) : Bool :=
  c.slices.all (fun l =>
    decide (min f l.fin ≤ l.reached) && l.outs.all (fun o => decide (f ≤ o.elem)))
  && c.flying.isEmpty && c.atomFlying.isEmpty

/-- What elements at or above a stop wrote, of writes that no channel or bank has performed, is discarded (step 2 of R230). -/
def State.discardAbove (s : State) (id f : Nat) : State :=
  let high := fun x : Contrib => decide (f ≤ x.elem)
  let cut := fun (q : List MemReq) => q.filterMap (fun r =>
    match r.sink with
    | .chainWrite k cs =>
      if k != id || !cs.any high then some r
      else
        let low := cs.filter (fun x => !high x)
        if low.isEmpty then none else some { r with op := .write (contribWrites low), sink := .chainWrite k low }
    | _ => some r)
  let gone := fun (q : List MemReq) => q.flatMap (fun r =>
    match r.sink with
    | .chainWrite k cs => if k = id then cs.filter high else []
    | _ => [])
  let lost := s.chans.flatMap (fun p => gone p.2.queue) ++ s.svus.flatMap (fun p => p.2.bankQ.flatMap (fun b => gone b.2))
  { s with
    chans := s.chans.map (fun p : Nat × Channel => (p.1, { p.2 with queue := cut p.2.queue }))
    svus := s.svus.map (fun p : Nat × SvuState => (p.1, { p.2 with bankQ := p.2.bankQ.map (fun b : Nat × List MemReq => (b.1, cut b.2)) }))
    chains := s.chains.map (fun c : Chain => if c.id = id then
      { c with flying := c.flying.filter (fun x => !lost.any x.same)
               slices := c.slices.map (fun l => { l with outs := l.outs.filter (fun o => decide (o.elem < f)) }) } else c) }

/-- CHAIN_STOP (R129, R230). -/
def execChainStop (id : Nat) (s : State) : Host.Outcome State Fault Refusal :=
  .next (match s.chainOf id with
    | none => s
    | some c =>
      match c.stop with
      | none => s
      | some (f, x) =>
        if c.phase == .ended || c.phase == .checked then s
        else
          let s := s.discardAbove id f
          match s.chainOf id with
          | none => s
          | some c => if !c.settledBelow f || (c.torn.isSome && s.rd PWR_STATE_STATE != 0) then s else s.endStopped c f x)

/-! The tail area (R248 to R250). -/

/-- TAIL_SIZE_WRITE (R248, R249). -/
def execTailSizeWrite (w : RegWrite) (s : State) : Host.Outcome State Fault Refusal :=
  .next (s.regRow w INTLV_TAIL_SIZE (s.fwOrInstaller w.m) (fun s =>
    let s := s.auditWrite w INTLV_TAIL_SIZE
    let size := s.after w INTLV_TAIL_SIZE_SIZE
    let base := s.rd INTLV_TAIL_BASE_BASE
    if base % 0x6000 ≠ 0 || size % 0x6000 ≠ 0 || 0x30000000000 < base + size then s.regRecord INTLV_TAIL_SIZE w.bits
    else (({ s with tailNext := base } : State).wr INTLV_TAIL_SIZE_SIZE size).wr INTLV_TAIL_SIZE_PENDING 1))

/-- TAIL_AREA_APPLY (R250). -/
def execTailAreaApply (s : State) : Host.Outcome State Fault Refusal :=
  .next (if s.on INTLV_TAIL_SIZE_PENDING && s.tail.isEmpty then
    let s : State := { s with tailArea := (s.tailNext, s.rd INTLV_TAIL_SIZE_SIZE) }
    (s.wr INTLV_TAIL_SIZE_PENDING 0).tailStat
  else s)

end Sys2Proof.Machine
end

