-- ==== Sys2Proof/Machine/Sessions.lean ====
section
/-! DEFINITION. Role sessions as they end, and the firmware update that ends with them (R618, R621, R624). -/
namespace Sys2Proof.Machine
open Reg

/-- Flash offset of an image bank (R617). -/
def bankBase (b : Nat) : Nat := if b = 0 then 0 else 0x0c000000

/-- The size of an image bank: 192 MiB. -/
def bankSize : Nat := 0x0c000000

/-- An open update is abandoned: its bank is left erased (R618). -/
def State.abandonUpdate (s : State) : State :=
  if !s.on LCS_UPDATE_OPEN then s
  else
    let s := match s.life.flashOpen with
      | some (o, n) => s.flashTouch.flashErase o n
      | none => s
    let s : State := { s with life := { s.life with flashOpen := none, updSession := 0 } }
    (((s.wr LCS_UPDATE_OPEN 0).wr LCS_UPDATE_STAGE 0).wr LCS_UPDATE_RING 0).wr LCS_UPDATE_WRITTEN 0

/-- Session slot `i` ends: its record, its slot, and an update opened within it (R618, R624, R625). -/
def State.endSession (s : State) (i : Nat) : State :=
  if !s.on (LCS_SESSION_ACTIVE i) then s
  else
    let id := s.rd (LCS_SESSION_ID i)
    let s := s.audit 3 ST_OK (s.sessionActor i) 0 0 0
    let s := s.setReg (LCS_SESSION i) 0
    let s : State := { s with life := { s.life with used := tabDel s.life.used i } }
    if s.life.updSession = id ∧ id ≠ 0 then s.abandonUpdate else s

/-- Every session that meets a condition ends. -/
def State.endSessions (s : State) (p : State → Nat → Bool) : State :=
  (List.range 4).foldl (fun s i => if p s i then s.endSession i else s) s

/-- The path of session slot `i`: its ring, or 64 for the Gloley port (R622). -/
def State.sessionPath (s : State) (i : Nat) : Nat :=
  if s.on (LCS_SESSION_GLOLEY i) then 64 else s.rd (LCS_SESSION_RING i)

/-- A path holds a session of at least a role, whose use is noted for the idle limit (R412, R621, R624). -/
def State.useRole (s : State) (path role : Nat) : Option (State × Nat) :=
  match (List.range 4).find? (fun i => s.on (LCS_SESSION_ACTIVE i) && s.sessionPath i == path && decide (role ≤ s.rd (LCS_SESSION_ROLE i))) with
  | some i => some ({ s with life := { s.life with used := tabPut s.life.used i s.now } }, i)
  | none => none

/-- Ring `r` holds installer rights (R412). -/
def State.ringInstaller (s : State) (r : Nat) : Bool := !s.hostRing r || (s.useRole r 1).isSome

/-- Who acts for a ring: the session it uses, or its firmware. -/
def State.ringActor (s : State) (r : Nat) : Actor :=
  match s.useRole r 1 with
  | some (_, i) => s.sessionActor i
  | none => { ring := r, role := if s.hostRing r then 0 else 1 }

end Sys2Proof.Machine
end

