-- ==== Sys2Proof/Machine/Rings.lean ====
section
/-! DEFINITION. The command rings: doorbells, packets and their checks, the dispatcher, completions and
messages, ring states and ring resets, partitions' watermarks (R401 to R440, R553, R616, R681). -/
namespace Sys2Proof.Machine
open Reg

/-! Counts (R402). -/

/-- The difference of two entry counts, modulo 2^32. -/
def cnt (a b : Nat) : Nat := (a + 2 ^ 32 - b % 2 ^ 32) % 2 ^ 32

/-- Entry count `a` is at or before `b`. -/
def cntLe (a b : Nat) : Bool := decide (cnt b a < 2 ^ 31)

def State.cmdOcc (s : State) (r : Nat) : Nat := cnt (s.rd (CMDR_PTR_TAIL r)) (s.rd (CMDR_PTR_HEAD r))
def State.cqOcc (s : State) (r : Nat) : Nat := cnt (s.rd (CMDR_CQ_PTR_POSTED r)) (s.rd (CMDR_CQ_PTR_CQ_HEAD r))

/-- Both watermarks of a ring brought up to its occupancies (R439, R440). -/
def State.ringMarks (s : State) (r : Nat) : State :=
  let v := s.rd (CMDR_CQ_CFG_EVT_VECTOR r)
  let s := s.watermark State.msix (CMDR_WM_CMD r) (s.rd (CMDR_WM_CMD_THRESH r)) (s.cmdOcc r) v
  s.watermark State.msix (CMDR_WM_CQ r) (s.rd (CMDR_WM_CQ_THRESH r)) (s.cqOcc r) v

/-- The class A record that names a ring (R581). -/
def State.ringErr (s : State) (r aux addr : Nat) : State := s.record { src := srcRingErr + r, aux := aux, addr := addr }

/-! Doorbells (R404 to R407). -/

/-- A new TAIL value (R404). -/
def State.setTail (s : State) (r t : Nat) : State :=
  let head := s.rd (CMDR_PTR_HEAD r)
  let tail := s.rd (CMDR_PTR_TAIL r)
  if t = tail then s
  else if cnt t head ≤ 2 ^ s.rd (CMDR_CFG_LOG2 r) ∧ cnt tail head ≤ cnt t head then
    let s := s.wr (CMDR_PTR_TAIL r) t
    ({ s with bells := s.bells ++ [(r, t)] } : State).ringMarks r
  else (s.wr (CMDR_CTL_DB_ERR r) 1).ringErr r 1 0

/-- A new CQ_HEAD value (R405). -/
def State.setCqHead (s : State) (r h : Nat) : State :=
  let posted := s.rd (CMDR_CQ_PTR_POSTED r)
  if cnt posted h ≤ cnt posted (s.rd (CMDR_CQ_PTR_CQ_HEAD r)) then (s.wr (CMDR_CQ_PTR_CQ_HEAD r) h).ringMarks r
  else (s.wr (CMDR_CTL_DB_ERR r) 1).ringErr r 1 0

/-- A doorbell by its path: BAR4 for the host, CMDR_DB for ring 0 firmware (R406). -/
def State.doorbell (s : State) (via : Doorbell) (r lane : Nat) (f : State → State) : State :=
  match via with
  | .bar4 =>
    if !s.hostUp then s.hostMissed false
    else if !s.hostRing r then s.ringErr r 3 0
    else f s
  | .cmdr m => s.regRow { m := m, lane := lane, width := 4, v := 0 } (CMDR_DB r) (s.fw0 m) f

/-- DOORBELL_TAIL (R404, R406). -/
def execDoorbellTail (via : Doorbell) (r : Ring) (v : BitVec 32) (s : State) : Host.Outcome State Fault Refusal :=
  .next (s.doorbell via r.val 0 (fun s => s.setTail r.val v.toNat))

/-- DOORBELL_CQ_HEAD (R405, R406). -/
def execDoorbellCqHead (via : Doorbell) (r : Ring) (v : BitVec 32) (s : State) : Host.Outcome State Fault Refusal :=
  .next (s.doorbell via r.val 4 (fun s => s.setCqHead r.val v.toNat))

/-! Packets (R408 to R413). -/


/-- Entries of a listed command (R413). -/
def cmdEntries (cmd : Nat) : Option Nat :=
  if cmd = 0x10 then some 6
  else if cmd = 0x90 then some 2
  else if [0x01, 0x02, 0x11, 0x12, 0x13, 0x20, 0x21, 0x30, 0x31, 0x40, 0x41, 0x50, 0x51, 0x60, 0x61, 0x70, 0x71, 0x80, 0xa0,
      0xb0, 0xb1, 0xc0, 0xc1, 0xc2, 0xc3, 0xd0, 0xe0].contains cmd then some 1
  else none

/-- The named bits of the words of a command's packet (R411, R413); a chain's are R110's. -/
def cmdMasks (cmd : Nat) : List Nat :=
  let all := 2 ^ 64 - 1
  let va := 2 ^ 57 - 1
  let m := maskOf
  let w0 := 0xfff
  match cmd with
  | 0x02 => [w0, all, all]
  | 0x10 => List.replicate 48 all
  | 0x11 => [w0 + m 16 16, all, all]
  | 0x12 => [w0 + m 13 12 + m 24 20, m 31 0, all]
  | 0x13 => [w0 + m 55 48 + m 27 25 + m 19 16 + m 13 12, va, all, m 10 0, va, va]
  | 0x20 => [w0 + m 55 48 + m 44 40 + m 35 32 + m 13 12, all, all, all, all, all, all, all]
  | 0x21 => [w0 + m 44 40 + m 35 32 + m 15 12, 0, all]
  | 0x30 => [w0 + m 55 48, va, all, va, m 47 0]
  | 0x31 => [w0 + m 55 48, va, all, all, m 47 0]
  | 0x40 => [w0 + m 55 48 + m 17 17 + m 14 12, all, all]
  | 0x41 => [w0 + m 55 48 + m 13 12, va, all, m 47 0]
  | 0x50 => [w0 + m 17 12, 0, all]
  | 0x51 => [w0, m 31 0, all]
  | 0x60 => [w0 + m 12 12, all, all]
  | 0x70 => [w0, m 15 0, all]
  | 0x80 => [w0 + m 21 12, all, all, all]
  | 0x90 => [w0 + m 19 16 + m 38 32, all, all, all, all, all, all, all, all, all, all, all, all, all, all]
  | 0xa0 => [w0 + m 12 12 + m 16 16, all, all, m 31 0, m 16 0]
  | 0xb0 => [w0 + m 16 12, all, all, m 15 0]
  | 0xb1 => [w0 + m 14 12, 0, all]
  | 0xc0 | 0xc1 | 0xc2 | 0xc3 => [w0 + m 16 16, all, all, m 31 0]
  | 0xd0 => [w0 + m 15 12, m 7 0, all]
  | 0xe0 => [w0, m 9 0, all, m 31 0]
  | _ => [w0, 0, all]

/-- The command needs installer rights (the Right column of R413). -/
def Packet.needsI (p : Packet) : Bool :=
  [0x80, 0xb1, 0xc0, 0xc1, 0xc2, 0xc3].contains p.cmd || (p.cmd == 0x60 && bitOf (p.w 0) 12)

/-- Commands that a host ring starts in PROVISIONED and RETURNED (R616). -/
def Packet.early (p : Packet) : Bool := [0x01, 0x02, 0x61, 0x71, 0xa0, 0xb0].contains p.cmd || p.needsI

/-- The checks of R410 before a command's own, and R616; 0 when all pass. -/
def State.packetCheck (s : State) (r : Nat) (p : Packet) : Nat :=
  if p.entries = 0 ∨ 6 < p.entries then ST_BAD_PARAM
  else
    match cmdEntries p.cmd with
    | none => ST_BAD_OPCODE
    | some n =>
      if n ≠ p.entries then ST_BAD_PARAM
      else if p.needsI && !s.ringInstaller r then ST_NO_RIGHT
      else if s.hostRing r && (s.lcs == 1 || s.lcs == 3) && !p.early then ST_NOT_READY
      else
        let ms := cmdMasks p.cmd
        if (p.words.zipIdx).any (fun x => x.1 &&& (ms.getD x.2 0) != x.1) then ST_BAD_PARAM
        else p.err

/-- The words held by bytes. -/
def wordsOf (bs : List Byte) : List Nat := (List.range (bs.length / 8)).map (fun k => leNat ((bs.drop (8 * k)).take 8))

/-- The requester that a ring's own accesses are recorded as (log 20). -/
def ringRequester : Requester := .bmv 0

/-- An entry of a MODULE command ring. -/
def State.readEntryOf (s : State) (r n : Nat) : State × Got :=
  s.bmRead (agentRing r) ringRequester (s.rd (CMDR_BASE_BASE r) + 64 * (n % 2 ^ s.rd (CMDR_CFG_LOG2 r))) 64

/-- A read of entries failed (R425). -/
def State.readErr (s : State) (r : Nat) : State :=
  (((s.rbufClear (agentRing r)).wr (CMDR_CTL_STATE r) 2).wr (CMDR_CTL_READ_ERR r) 1).ringErr r 2 0

/-- The bytes of the packet at HEAD: `none` while it cannot be read or waits, and the host bytes not used. -/
inductive PacketGot where
  | packet (words : List Nat) (rest : List Byte)
  | short (fin : Nat)
  | fail
  | wait
  deriving DecidableEq, Repr

/-- Entries that the packet of a header takes (R410). -/
def packetEntries (w0 : Nat) : Nat := if bitsOf w0 11 8 = 0 ∨ 6 < bitsOf w0 11 8 then 1 else bitsOf w0 11 8

/-- The packet at HEAD of a ring read whole (R409, R403). -/
def State.getPacket (s : State) (r : Nat) (host : HostData) : State × PacketGot :=
  let head := s.rd (CMDR_PTR_HEAD r)
  if s.on (CMDR_CFG_SPACE r) then
    match host with
    | .fail _ => (s, .fail)
    | .ok bs =>
      let n := packetEntries (leNat (bs.take 8))
      if bs.length < 64 then (s, .wait)
      else if s.cmdOcc r < n then (s, .short (head + n))
      else if bs.length < 64 * n then (s, .wait)
      else
        let at' := s.rd (CMDR_BASE_BASE r) + 64 * (head % 2 ^ s.rd (CMDR_CFG_LOG2 r))
        (s.emit (.hostRead at' (64 * n)), .packet (wordsOf (bs.take (64 * n))) (bs.drop (64 * n)))
  else
    let rest := match host with
      | .ok bs => bs
      | .fail _ => []
    match s.readEntryOf r head with
    | (s, .wait) => (s, .wait)
    | (s, .fail _ _) => (s, .fail)
    | (s, .poison _ _) => (s, .fail)
    | (s, .bytes b0) =>
      let n := packetEntries (leNat (b0.take 8))
      if s.cmdOcc r < n then (s, .short (head + n))
      else
        let (s, got) := (rangeFrom 1 (n - 1)).foldl (fun (a : State × Got) k =>
          match a with
          | (s, .bytes bs) =>
            match s.readEntryOf r (head + k) with
            | (s, .bytes b) => (s, .bytes (bs ++ b))
            | x => x
          | x => x) (s, .bytes b0)
        match got with
        | .bytes bs => (s, .packet (wordsOf bs) rest)
        | .wait => (s, .wait)
        | _ => (s, .fail)

/-- The status by which a host read of the block mover ends (R458). -/
def hostFail (host : HostData) : Nat :=
  match host with
  | .fail st => st
  | .ok _ => ST_NOT_READY

/-- The descriptor that a CHAIN_REF names, read with its packet (R93): its words, or a status. -/
def State.getRef (s : State) (r : Nat) (p : Packet) (rest : List Byte) (host : HostData) : State × Option Packet :=
  if bitOf (p.w 0) 16 then
    if 384 ≤ rest.length then ((s.emit (.hostRead (p.w 1) 384)), some { p with ref := wordsOf (rest.take 384) })
    else (s, some { p with err := hostFail host })
  else
    match s.bmRead (agentRing r) ringRequester (p.w 1) 384 with
    | (s, .bytes bs) => (s, some { p with ref := wordsOf bs })
    | (s, .wait) => (s, none)
    | (s, g) => (s, some { p with err := g.status })

/-- The ring may read now: it runs, the module is READY, and in HOLD both its rings are in host memory (R407, R409, R553). -/
def State.mayRead (s : State) (r : Nat) : Bool :=
  let host := s.on (CMDR_CFG_SPACE r) && s.on (CMDR_CQ_CFG_SPACE r)
  s.ringState r == 1 && s.isReady && s.cmdOcc r != 0 && decide ((s.ring r).read.length < 16)
    && (s.rd PWR_STATE_STATE == 0 || (s.rd PWR_STATE_STATE == 1 && host))
    && (!s.on (CMDR_CFG_SPACE r) || s.busMaster)

/-- A ring of a lower number still owes its first read since READY, and may read (R407). -/
def State.readTurn (s : State) (r : Nat) : Bool := s.owedReads.all (fun q => decide (r ≤ q) || !s.mayRead q)

/-- PACKET_READ (R409, R425, R93): `host` holds what host memory answers, the packet of a HOST ring and then a descriptor that
a CHAIN_REF names there. -/
def execPacketRead (r : Ring) (host : HostData) (s : State) : Host.Outcome State Fault Refusal :=
  let k := r.val
  .next (if !(s.mayRead k && s.readTurn k) then s
  else
    let s := { s with owedReads := s.owedReads.filter (fun q => q != k) }
    match s.getPacket k host with
    | (s, .wait) => s
    | (s, .fail) => s.readErr k
    | (s, .short fin) => s.setRing k { s.ring k with short := some fin }
    | (s, .packet ws rest) =>
      let fin := (s.rd (CMDR_PTR_HEAD k) + packetEntries (ws.getD 0 0)) % 2 ^ 32
      let p : Packet := { words := ws, seq := s.rd (CMDR_CTL_SEQ k), fin := fin }
      let (s, p?) := if p.cmd = 0x11 ∧ p.entries = 1 ∧ p.w 1 % 64 = 0 then s.getRef k p rest host else (s, some p)
      match p? with
      | none => s
      | some p =>
        let s := s.rbufClear (agentRing k)
        let s := s.setRing k { s.ring k with read := (s.ring k).read ++ [p], short := none }
        let s := (s.wr (CMDR_PTR_HEAD k) fin).wr (CMDR_CTL_SEQ k) (p.seq + 1)
        s.ringMarks k)

/-! The dispatcher (R420, R432, R433). -/

/-- Stop states held plus chains in progress (R274). -/
def RingState.chainLoad (q : RingState) : Nat := q.stops.length + (q.running.filter (fun p => isChainCmd p.cmd)).length

/-- The next command of a ring may start behind the earlier ones (R209 to R212, R274). -/
def RingState.mayStart (q : RingState) (p : Packet) : Bool :=
  if isChainCmd p.cmd then
    q.running.all (fun x => isChainCmd x.cmd) && q.done.all (fun x => isChainCmd x.cmd && goodStatus x.status)
      && (p.cmd == 0x12 || decide (q.chainLoad < 16) || q.running.all (fun x => !isChainCmd x.cmd))
  else q.order.isEmpty

/-- A completion entry can be reserved (R420). -/
def State.mayReserve (s : State) (r : Nat) : Bool :=
  decide (s.cqOcc r + (s.ring r).order.length + 1 ≤ 2 ^ s.rd (CMDR_CQ_CFG_LOG2 r))

/-- A command touches memory, a scratchpad or an SVU (R553): chains, the block mover, walks' images, buffers, units. -/
def Packet.touches (p : Packet) : Bool :=
  [0x10, 0x11, 0x12, 0x13, 0x30, 0x31, 0x50, 0x51].contains p.cmd
    || ([0xa0, 0xb0, 0xc1].contains p.cmd && !bitOf (p.w 0) 16)
    || (p.cmd == 0xd0 && decide (bitsOf (p.w 0) 14 12 ≤ 2)) || p.cmd == 0x20 || p.cmd == 0x21

/-- The power state lets a command start: RUN, or HOLD and the command touches nothing that is off. -/
def State.powerLets (s : State) (p : Packet) : Bool :=
  s.rd PWR_STATE_STATE == 0 || (s.rd PWR_STATE_STATE == 1 && !p.touches)

/-- The next command of a ring could start but for the power state. -/
def State.nextReady (s : State) (r : Nat) : Option Packet :=
  match (s.ring r).read with
  | [] => none
  | p :: _ => if s.ringState r == 1 && (s.ring r).mayStart p && s.mayReserve r then some p else none

/-- The rings that are ready (R432). -/
def State.readyRings (s : State) : List Nat :=
  (List.range 64).filter (fun r => (s.nextReady r).any (fun p => s.powerLets p))

/-- A command starts: it is reserved a completion, and completes at once when its packet fails a check (R410, R420). -/
def State.startCmd (s : State) (r : Nat) : State :=
  let q := s.ring r
  match q.read with
  | [] => s
  | p :: rest =>
    let err := s.packetCheck r p
    let p := { p with err := err }
    let s := s.setRing r { q with read := rest, running := q.running ++ [p], order := q.order ++ [(p.seq, p.fin)] }
    let s := if p.needsI then ((s.useRole r 1).map (·.1)).getD s else s
    if err ≠ 0 then s.finishCmd r (p.result err)
    else if (p.cmd = 0x10 ∨ p.cmd = 0x11) ∧ 16 ≤ q.chainLoad then s.finishCmd r (p.result ST_BUSY)
    else s

/-- The dispatcher's choice and the start of one command (R433). -/
def State.dispatchOne (s : State) : State :=
  let ready := s.readyRings
  if ready.isEmpty then s
  else
    let cs := ready.map (fun r => (r, s.on (CMDR_CFG_CLASS r), s.rd (CMDR_CFG_WEIGHT r), r))
    let (best, credit) := decide433 s.decisions s.credits cs
    match best with
    | none => s
    | some r =>
      let s := ({ s with decisions := s.decisions + 1, credits := credit } : State).startCmd r
      { s with credits := s.credits.filter (fun p => s.readyRings.contains p.1) }

/-- The started command of a ring with a CMD whose work has not begun. -/
def State.started (s : State) (r cmd : Nat) : Option Packet :=
  (s.ring r).running.find? (fun p => p.cmd == cmd && !p.held)

/-- The running command of a ring with a CMD whose work has begun. -/
def State.begun (s : State) (r cmd : Nat) : Option Packet :=
  (s.ring r).running.find? (fun p => p.cmd == cmd && p.held)

/-- A running packet replaced by its SEQ. -/
def State.setPacket (s : State) (r : Nat) (p : Packet) : State :=
  s.setRing r { s.ring r with running := (s.ring r).running.map (fun x => if x.seq = p.seq then p else x) }

/-! Completions (R418 to R421, R214, R681). -/

/-- The eight words of a completion entry (R418, R419). -/
def State.completionWords (s : State) (r : Nat) (x : Result) : List Nat :=
  let n := s.rd (CMDR_CQ_PTR_POSTED r)
  let phase := 1 - n / 2 ^ s.rd (CMDR_CQ_CFG_LOG2 r) % 2
  let unchk := b2n (2 ≤ s.rd VERIF_SUP_MODE)
  [phase * 2 ^ 63 + unchk * 2 ^ 62 + x.status * 2 ^ 48 + x.cmd * 2 ^ 40 + x.flags * 2 ^ 32 + x.seq % 2 ^ 32,
   x.tag, x.index, s.rd (CMDR_PTR_HEAD r), x.reply0, x.reply1, x.reply2, 0]

/-- A ring halts (R214, R424). -/
def State.haltRing (s : State) (r : Nat) : State := if s.ringState r = 1 then s.wr (CMDR_CTL_STATE r) 2 else s

/-- A completion message leaves, and coalescing begins again (R421). -/
def State.sendCoal (s : State) (r : Nat) : State :=
  (s.setRing r { s.ring r with coalCount := 0, coalTime := none }).msix (s.rd (CMDR_CQ_CFG_VECTOR r))

/-- An entry posted counts towards the ring's message (R421). -/
def State.coalesce (s : State) (r : Nat) : State :=
  let q := s.ring r
  let q := { q with coalCount := q.coalCount + 1, coalTime := q.coalTime.orElse (fun _ => some s.now) }
  let s := s.setRing r q
  if s.on (CMDR_CQ_CFG_MSI_EN r) && decide (s.rd (CMDR_CQ_CFG_COAL_CNT r) ≤ q.coalCount) then s.sendCoal r else s

/-- The outcome of writing an entry: performed, failed, discarded by a host-interface reset, or still waiting. -/
inductive PostRes where
  | written | failed | discarded | wait
  deriving DecidableEq, Repr

/-- The two writes of an entry (R419). -/
def State.writeEntry (s : State) (r : Nat) (x : Result) (hostOk : Bool) : State × PostRes :=
  let n := s.rd (CMDR_CQ_PTR_POSTED r)
  let at' := s.rd (CMDR_CQ_BASE_BASE r) + 64 * (n % 2 ^ s.rd (CMDR_CQ_CFG_LOG2 r))
  let ws := s.completionWords r x
  let tail := (ws.drop 1).flatMap (leBytes 8)
  let head := leBytes 8 (ws.headD 0)
  if s.on (CMDR_CQ_CFG_SPACE r) then
    if (s.ring r).hostReset then (s, .discarded)
    else if !s.busMaster then (s, .wait)
    else if !hostOk then (s, .failed)
    else ((s.emit (.hostWrite (at' + 8) tail)).emit (.hostWrite at' head), .written)
  else
    match s.bmWrite (agentRing r) ringRequester (at' + 8) tail false with
    | (s, .wait) => (s, .wait)
    | (s, .bytes _) =>
      match s.bmWrite (agentRing r) ringRequester at' head false with
      | (s, .wait) => (s, .wait)
      | (s, .bytes _) => (s, .written)
      | (s, _) => (s, .failed)
    | (s, _) => (s, .failed)

/-- The first result in ring order whose command is over is posted (R213, R214, R681). -/
def State.postNext (s : State) (r : Nat) (hostOk : Bool) : State :=
  let q := s.ring r
  match q.order with
  | [] => s
  | (seq, _) :: rest =>
    match q.done.find? (fun x => x.seq == seq) with
    | none => s
    | some x =>
      if 2 ^ s.rd (CMDR_CQ_CFG_LOG2 r) ≤ s.cqOcc r then s
      else
        let n := s.rd (CMDR_CQ_PTR_POSTED r)
        match s.writeEntry r x hostOk with
        | (s, .wait) => s
        | (s, res) =>
          let s := s.rbufClear (agentRing r)
          let q := s.ring r
          let s := s.setRing r { q with order := rest, done := q.done.filter (fun y => y.seq != seq) }
          let s := (s.wr (CMDR_CQ_PTR_POSTED r) (n + 1)).ringMarks r
          match res with
          | .failed => ((s.wr (CMDR_CTL_CQ_ERR r) 1).ringErr r 4 n).haltRing r
          | .discarded => s.count HIF_RESET_LOG_DISCARDED 1
          | _ => (if goodStatus x.status then s else s.haltRing r).coalesce r

/-! Ring states (R422 to R426). -/

/-- A chain is made to stop where its slices stand (R233, R236, R301): it ends with the status once its lower elements are
written. A chain without a dispatch ends at its START; one that only writes reductions ends by itself. -/
def State.haltChain (s : State) (id status : Nat) : State :=
  match s.chainOf id with
  | none => s
  | some c =>
    match c.phase with
    | .checked => s.endStopped c c.start { status := status }
    | .running | .stopping =>
      let live := c.slices.filter (fun l => l.phase != .done && l.stop.isNone && decide (l.reached < l.fin))
      live.foldl (fun s l =>
        let k := l.reached
        s.updChain id (fun c : Chain =>
          { (c.updSlice l.lsl (fun l : Slice => { l.halt status with phase := .stopped })).addStop k { status := status } with
            phase := .stopping })) s
    | _ => s

/-- A ring reset whose completions are all posted ends (steps 4 to 6 of R426, step 3 of R483). -/
def State.endRingReset (s : State) (r : Nat) (freeTokens : State → Nat → State) : State :=
  let q := s.ring r
  if s.ringState r = 3 ∧ q.order = [] ∧ q.running = [] then
    let s := if q.hostReset then freeTokens s r else s
    let s := s.setRing r { s.ring r with stops := [], read := [], done := [], short := none, hostReset := false }
    let s := (s.wr (CMDR_PTR_HEAD r) (s.rd (CMDR_PTR_TAIL r))).wr (CMDR_CTL_SEQ r) 0
    (s.wr (CMDR_CTL_STATE r) 0).ringMarks r
  else s

/-- The index at which a started packet's chain would begin, where the packet asks for one: its START, or the stop that it
resumes (R279). -/
def RingState.chainIndex (q : RingState) (p : Packet) : Option Nat :=
  if p.held then none
  else if p.cmd = 0x10 then some (dStart p.words)
  else if p.cmd = 0x11 then some (dStart p.ref)
  else if p.cmd = 0x12 ∧ bitOf (p.w 0) 12 = false then (q.stops.find? (fun x => x.seq == bitsOf (p.w 1) 31 0)).map (fun x => x.index)
  else none

/-- A ring reset begins (steps 1 and 2 of R426): chains stop, those just started at their first index; its sessions end and its
open update is abandoned (R618, R624). -/
def State.ringReset (s : State) (r : Nat) (host : Bool) : State :=
  if s.ringState r = 1 ∨ s.ringState r = 2 then
    let s := s.wr (CMDR_CTL_STATE r) 3
    let mine := (s.chains.filter (fun c => match c.issuer with
      | .ring q _ => q == r && c.phase != .ended
      | .task .. => false)).map (fun c => c.id)
    let s := mine.foldl (fun s id => s.haltChain id ST_ABORTED_RESET) s
    let q := s.ring r
    let s := q.running.foldl (fun s p =>
      match q.chainIndex p with
      | some k => s.finishCmd r { p.result ST_ABORTED_RESET with index := k }
      | none => s) s
    let fences := q.running.filter (fun p => p.cmd == 0x02)
    let s := fences.foldl (fun s p => s.finishCmd r (p.result ST_ABORTED)) s
    let q := s.ring r
    let s := s.setRing r { q with
      order := q.order ++ q.read.map (fun p => (p.seq, p.fin)), done := q.done ++ q.read.map (fun p => p.result ST_ABORTED)
      read := [], hostReset := host }
    let s := s.endSessions (fun s i => s.on (LCS_SESSION_ACTIVE i) && s.sessionPath i == r)
    if s.on LCS_UPDATE_OPEN && s.rd LCS_UPDATE_RING == r then s.abandonUpdate else s
  else if host ∧ s.ringState r = 3 then s.setRing r { s.ring r with hostReset := true }
  else s

/-- The configuration of a ring is valid (R423, R442). -/
def State.ringCfgOk (s : State) (r : Nat) : Bool :=
  let l := s.rd (CMDR_CFG_LOG2 r)
  let cl := s.rd (CMDR_CQ_CFG_LOG2 r)
  decide (6 ≤ l) && decide (l ≤ 16) && decide (6 ≤ cl) && decide (cl ≤ 16) && s.rd (CMDR_BASE_BASE r) % (64 * 2 ^ l) == 0
    && s.rd (CMDR_CQ_BASE_BASE r) % (64 * 2 ^ cl) == 0 && (!s.on (CMDR_IMG_EN r) || s.rd (CMDR_IMG_VA r) % 64 == 0)

/-- ENABLE of R423. -/
def State.ringEnable (s : State) (r v : Nat) : State :=
  if s.ringState r ≠ 0 then s
  else if s.ringCfgOk r then s.wr (CMDR_CTL_STATE r) 1
  else s.regRecord (CMDR_CTL r) v

/-- A write of CMDR_CTL: its W1C bits, then ENABLE, RESTART and RESET. -/
def State.ctlWrite (s : State) (r : Nat) (w : RegWrite) : State :=
  s.regRow w (CMDR_CTL r) (s.fwOrHost w.m) (fun s =>
    let s := s.applyWrite (CMDR_CTL r) w.mask w.bits
    let one := fun f => w.covers f && w.get f == 1
    let s := if one (CMDR_CTL_ENABLE r) then s.ringEnable r w.bits else s
    let s := if one (CMDR_CTL_RESTART r) && s.ringState r == 2 then s.wr (CMDR_CTL_STATE r) 1 else s
    if one (CMDR_CTL_RESET r) then s.ringReset r false else s)

/-- RING_ENABLE (R423). -/
def execRingEnable (r : Ring) (w : RegWrite) (s : State) : Host.Outcome State Fault Refusal := .next (s.ctlWrite r.val w)

/-- RING_RESTART (R424). -/
def execRingRestart (r : Ring) (w : RegWrite) (s : State) : Host.Outcome State Fault Refusal := .next (s.ctlWrite r.val w)

/-- RING_RESET (R426). -/
def execRingReset (r : Ring) (w : RegWrite) (s : State) : Host.Outcome State Fault Refusal := .next (s.ctlWrite r.val w)

/-- COMPLETION_MSI (R421). -/
def execCompletionMsi (r : Ring) (s : State) : Host.Outcome State Fault Refusal :=
  .next (match (s.ring r.val).coalTime with
    | none => s
    | some t =>
      if s.on (CMDR_CQ_CFG_MSI_EN r.val) then (s.advanceTo (t + s.rd (CMDR_CQ_CFG_COAL_TIME r.val) * 1000)).sendCoal r.val else s)

end Sys2Proof.Machine
end

