-- ==== Sys2Proof/Machine/BlockMover.lean ====
section
/-! DEFINITION. The block mover and the buffer pools: shadow and active transfers, their checks, bursts and
their arbitration, stops, ends and events, tokens (R451 to R466, R414). -/
namespace Sys2Proof.Machine
open Reg

/-! Buffer pools (R462 to R465). -/

/-- A token of R462. -/
def tokenOf (pool idx gen : Nat) : Nat := pool * 2 ^ 26 + idx * 2 ^ 8 + gen

/-- A pool with its FREE count shown. -/
def State.putPool (s : State) (p : Nat) (x : PoolState) : State := (s.setPool p x).wr (BMV_POOL_STAT_FREE p) x.free.length

/-- The buffer at the head of a pool's free list is taken for an owner (R463). -/
def State.poolTake (s : State) (p owner : Nat) : State × Except Nat Nat :=
  if !s.on (BMV_POOL_CFG_ENABLE p) then (s, .error ST_BAD_PARAM)
  else
    let x := s.pool p
    match x.free with
    | [] => (s, .error ST_BUF_EXHAUSTED)
    | i :: rest => (s.putPool p { x with free := rest, owner := tabPut x.owner i owner }, .ok (tokenOf p i (tabGet x.gen 0 i)))

/-- A buffer goes back: its generation advances and it joins the tail of the free list (R464). -/
def State.poolPut (s : State) (p i : Nat) : State :=
  let x := s.pool p
  s.putPool p { free := x.free ++ [i], owner := tabDel x.owner i, gen := tabPut x.gen i ((tabGet x.gen 0 i + 1) % 256) }

/-- A refused free (R464). -/
def State.misuse (s : State) (p : Nat) : State := (s.count (BMV_POOL_STAT_MISUSE p) 1).record { src := srcBufMisuse }

/-- A free of a token by an owner: its status (R464, R465). -/
def State.freeToken (s : State) (token owner : Nat) : State × Nat :=
  let p := bitsOf token 31 26
  let i := bitsOf token 25 8
  let x := s.pool p
  if !s.on (BMV_POOL_CFG_ENABLE p) ∨ s.rd (BMV_POOL_CFG_COUNT p) ≤ i then (s, ST_BAD_PARAM)
  else
    match tabFind x.owner i with
    | none => (s.misuse p, ST_BUF_ALREADY_FREE)
    | some o =>
      if bitsOf token 7 0 ≠ tabGet x.gen 0 i then (s.misuse p, ST_BUF_ALREADY_FREE)
      else if o ≠ owner then (s.misuse p, ST_BUF_NOT_OWNER)
      else (s.poolPut p i, ST_OK)

/-- Every buffer that a ring owns is freed (step 3 of R483). -/
def State.freeAllOf (s : State) (r : Nat) : State :=
  (List.range 64).foldl (fun s p =>
    (((s.pool p).owner.filter (fun x => x.2 == r)).map (·.1)).foldl (fun s i => s.poolPut p i) s) s

/-- A write of BMV_POOL_CFG (R462, R466). -/
def State.poolCfgWrite (s : State) (p : Nat) (w : RegWrite) : State :=
  s.regRow w (BMV_POOL_CFG p) (s.fw0 w.m) (fun s =>
    if s.on (BMV_POOL_CFG_ENABLE p) then
      if w.covers (BMV_POOL_CFG_ENABLE p) && w.get (BMV_POOL_CFG_ENABLE p) == 0 && (s.pool p).owner.isEmpty then
        (s.wr (BMV_POOL_CFG_ENABLE p) 0).putPool p {}
      else s.regRecord (BMV_POOL_CFG p) w.bits
    else
      let s := s.applyWrite (BMV_POOL_CFG p) w.mask w.bits
      if s.on (BMV_POOL_CFG_ENABLE p) then s.putPool p { free := List.range (s.rd (BMV_POOL_CFG_COUNT p)) } else s)

/-- POOL_ENABLE (R462, R466). -/
def execPoolEnable (p : Pool) (w : RegWrite) (s : State) : Host.Outcome State Fault Refusal := .next (s.poolCfgWrite p.val w)

/-! Channels (R451 to R453). -/

def State.bmvOwner (s : State) (c : Nat) : Nat := s.rd (BMV_OWN_OWNER c)

/-- The master owns a channel (R451). -/
def State.bmvMine (s : State) (c : Nat) (m : Master) : Bool :=
  match s.bmvOwner c with
  | 0 => s.fw0 m
  | 1 => m == .host
  | _ => false

def State.bmvBusy (s : State) (c : Nat) : Bool := s.on (BMV_CMD_STATE c)

/-- Bytes of a host address, or of a global one, that one word names. -/
def State.actSrc (s : State) (c : Nat) : Nat := s.rd (BMV_ACT_SRC_ADDR c)
def State.actDst (s : State) (c : Nat) : Nat := s.rd (BMV_ACT_DST_ADDR c)
def State.actLen (s : State) (c : Nat) : Nat := s.rd (BMV_ACT_XFER_LEN c)
def State.actFill (s : State) (c : Nat) : Bool := s.on (BMV_ACT_XFER_MODE c)

/-- Two ranges of a length overlap. -/
def overlap (a b n : Nat) : Bool := decide (a < b + n) && decide (b < a + n)

/-- The checks of R455 on the active set: a status, or none. -/
def State.xferCheck (s : State) (c : Nat) : Option Nat :=
  let len := s.actLen c
  let burst := s.rd (BMV_ACT_XFER_BURST c)
  let hs := s.on (BMV_ACT_XFER_SRC_HOST c)
  let hd := s.on (BMV_ACT_XFER_DST_HOST c)
  let fill := s.actFill c
  let high := fun a : Nat => decide (2 ^ 52 ≤ a)
  if bitsOf (s.reg (BMV_ACT_XFER c)).toNat 51 48 ≠ 0 ∨ len = 0 ∨ burst < 6 ∨ 12 < burst then some ST_BAD_PARAM
  else if fill && (s.actDst c % 8 != 0 || len % 8 != 0) then some ST_BAD_PARAM
  else if s.bmvOwner c ≠ 2 && ((!hs && !fill && high (s.actSrc c)) || (!hd && high (s.actDst c))) then some ST_PROTECTION
  else if !fill && hs == hd && overlap (s.actSrc c) (s.actDst c) len then some ST_BAD_PARAM
  else none

/-- The end event of a transfer (R459). -/
def State.bmvEvent (s : State) (c status index : Nat) : State :=
  match s.bmvOwner c with
  | 0 => if s.on (BMV_ACT_XFER_IRQ c) then s.raiseLine 24 (s.rd (BMV_OWN_TASK c)) (s.rd (BMV_OWN_LINE c)) else s
  | 1 => if s.on (BMV_ACT_XFER_IRQ c) then s.msix (s.rd (BMV_OWN_VECTOR c)) else s
  | _ =>
    match (s.bmvCh c).cmd with
    | some (r, seq) =>
      match (s.ring r).running.find? (fun p => p.seq == seq) with
      | some p =>
        if p.cmd = 0xc1 then s.setRing r { s.ring r with
            running := (s.ring r).running.map (fun x => if x.seq = seq then { x with at0 := index, at1 := status + 1 } else x) }
        else s.finishCmd r { p.result status with index := index }
      | none => s
    | none => s

/-- The active transfer ends: STATUS and INDEX latch, the event is raised, the channel is idle (R458, R459). -/
def State.bmvFinish (s : State) (c status index : Nat) (bad : Bool) : State :=
  let s := ((s.wr (BMV_STAT_DONE c) 1).wr (BMV_STAT_STATUS c) status).wr (BMV_STAT_INDEX c) index
  let s := if status = ST_OK ∨ status = ST_ABORTED then s else s.wr (BMV_STAT_BAD c) 1
  let s := if bad then s.record { src := srcBmvBad, inst := c, addr := index } else s
  let s : State := { s with host := { s.host with reads := s.host.reads.filter (fun q => q.2.1 != c) } }
  let s := (s.wr (BMV_CMD_STATE c) 0).bmvEvent c status index
  ((s.setBmv c {}).rbufClear (agentBmv c)).rbufClear (agentBmv c + 100)

/-- The active set starts, or ends at a failing check (R455); an address with a bit of [63:52] set is refused (R21, R25). -/
def State.bmvStart (s : State) (c : Nat) : State :=
  let s := (s.wr (BMV_CMD_STATE c) 1).wr (BMV_PROG_WRITTEN c) 0
  let s := s.setBmv c { s.bmvCh c with bursts := [], nextOff := 0, fail := none, aborting := false, waited := s.now }
  match s.xferCheck c with
  | some st =>
    let high := if s.on (BMV_ACT_XFER_SRC_HOST c) || s.actFill c || decide (s.actSrc c < 2 ^ 52) then s.actDst c else s.actSrc c
    let s := if st = ST_PROTECTION then s.refuse (.bmv c) high st else s
    s.bmvFinish c st 0 false
  | none => s

/-- The shadow set moves to the active set and starts (R453). -/
def State.bmvTake (s : State) (c : Nat) : State :=
  let s := (s.setReg (BMV_ACT_SRC c) (s.reg (BMV_SH_SRC c))).setReg (BMV_ACT_DST c) (s.reg (BMV_SH_DST c))
  ((s.setReg (BMV_ACT_XFER c) (s.reg (BMV_SH_XFER c))).wr (BMV_CMD_ARMED c) 0).bmvStart c

/-- An armed shadow set starts when the channel has become idle; a set whose checks fail lets the next one in at once. -/
def State.bmvNext (s : State) (c : Nat) : State :=
  if s.on (BMV_CMD_ARMED c) && !s.bmvBusy c then s.bmvTake c else s

/-! Bursts (R456, R457, R461). -/

/-- End of the burst that begins at an offset (R456). -/
def State.burstEnd (s : State) (c off : Nat) : Nat :=
  let k := 2 ^ s.rd (BMV_ACT_XFER_BURST c)
  min (s.actLen c) (((s.actDst c + off) / k + 1) * k - s.actDst c)

/-- A channel waits for a burst grant. -/
def State.bmvWaits (s : State) (c : Nat) : Bool :=
  let x := s.bmvCh c
  s.bmvBusy c && x.fail.isNone && !x.aborting && decide (x.nextOff < s.actLen c) && decide (x.bursts.length < 8)

def State.bmvFlight (s : State) : Nat := ((List.range 32).map (fun c => (s.bmvCh c).bursts.length)).sum

/-- The channel granted by priority, the one that follows the last one granted there (R461). -/
def State.bmvByPrio (s : State) (cs : List Nat) : Option Nat :=
  let prio := fun c => s.rd (BMV_ACT_XFER_PRIO c)
  let p := cs.foldl (fun m c => max m (prio c)) 0
  nextSource (cs.filter (fun c => prio c == p)) (tabGet s.bmvLast 31 p)

/-- The channel whose ready burst has waited longest. -/
def State.bmvOldest (s : State) (cs : List Nat) : Option Nat :=
  cs.foldl (fun m c =>
    match m with
    | none => some c
    | some d => if (s.bmvCh c).waited < (s.bmvCh d).waited then some c else m) none

/-- A read of host memory goes out under the next 14-bit tag (R476). -/
def State.hostAsk (s : State) (c base len : Nat) : State :=
  let t := s.host.nextTag
  let s : State := { s with host := { s.host with nextTag := (t + 1) % 16384, reads := tabPut s.host.reads t (c, base, len) } }
  s.emit (.hostReq t (s.actSrc c + base) len (s.on (BMV_ACT_XFER_NOSNOOP c)))

/-- Reads of a channel's burst answered, or no longer waited for. -/
def State.hostAnswered (s : State) (c base : Nat) : State :=
  { s with host := { s.host with reads := s.host.reads.filter (fun q => !(q.2.1 == c && q.2.2.1 == base)) } }

/-- BURST_GRANT (R456, R461). -/
def execBurstGrant (s : State) : Host.Outcome State Fault Refusal :=
  let cs := (List.range 32).filter s.bmvWaits
  let pick := if s.bmvGrants % 16 = 15 then s.bmvOldest cs else s.bmvByPrio cs
  .next (if 64 ≤ s.bmvFlight then s
  else
    match pick with
    | none => s
    | some c =>
      let x := s.bmvCh c
      let e := s.burstEnd c x.nextOff
      let s := s.setBmv c { x with bursts := x.bursts ++ [{ base := x.nextOff, len := e - x.nextOff }], nextOff := e, waited := s.now }
      let s : State := { s with bmvGrants := s.bmvGrants + 1, bmvLast := tabPut s.bmvLast (s.rd (BMV_ACT_XFER_PRIO c)) c }
      if s.on (BMV_ACT_XFER_SRC_HOST c) && !s.actFill c && s.busMaster then
        s.hostAsk c x.nextOff (e - x.nextOff) else s)

/-- Who translates for a command's channel (R106, R252). -/
def State.bmvWalker (s : State) (c agent : Nat) (acc : XAcc) : Walker :=
  let ctx := (s.bmvCh c).ctx
  { agent := agent, ctx := ctx, ring := s.rd (XLAT_CTX_CFG_RING ctx), acc := acc, who := some (.bmv c) }

/-- The addresses of a command's channel are virtual, but for a firmware image's. -/
def State.bmvVirtual (s : State) (c : Nat) : Bool :=
  s.bmvOwner c == 2 && (match (s.bmvCh c).cmd with
    | some (r, seq) => ((s.ring r).running.find? (fun p => p.seq == seq)).any (fun p => p.cmd != 0xc1)
    | none => false)

/-- The bytes of a burst read. -/
def State.burstRead (s : State) (c : Nat) (b : Burst) (host : HostData) : State × Got :=
  let a := s.actSrc c + b.base
  if s.actFill c then
    (s, .bytes ((List.range b.len).map (fun k => BitVec.ofNat 8 (s.actSrc c / 2 ^ (8 * ((b.base + k) % 8))))))
  else if s.on (BMV_ACT_XFER_SRC_HOST c) then
    if !s.busMaster then (s, .wait)
    else
      match host with
      | .fail st => (s, .fail st a)
      | .ok bs => if bs.length = b.len then (s, .bytes bs) else (s, .wait)
  else if s.bmvVirtual c then s.vaRead (s.bmvWalker c (agentBmv c) .read) (.bmv c) a b.len
  else s.bmRead (agentBmv c) (.bmv c) a b.len

/-- Offset of a poisoned word in the transfer (R458). -/
def State.poisonIndex (s : State) (c ga : Nat) : Nat :=
  let src := if s.bmvVirtual c || s.on (BMV_ACT_XFER_SRC_HOST c) then s.actSrc c else s.actSrc c % 2 ^ 52
  ga - src

/-- A failure of a transfer at an offset: the lowest one stands. -/
def BmvState.failAt (x : BmvState) (status index : Nat) : BmvState :=
  match x.fail with
  | some (_, i) => if index < i then { x with fail := some (status, index) } else x
  | none => { x with fail := some (status, index) }

/-- A write of the update's stage goes into the erased range of its bank (R24, R619). -/
def State.flashAdmits (s : State) (c ga len : Nat) : Bool :=
  let o := gaOff ga
  match s.life.flashOpen with
  | some (b, n) =>
    gaNode ga == s.node && decide (flashBase + b ≤ o) && decide (o + len ≤ flashBase + b + n)
      && (match (s.bmvCh c).cmd with
        | some (r, seq) => ((s.ring r).running.find? (fun p => p.seq == seq)).any (fun p => p.cmd == 0xc1)
        | none => false)
  | none => false

/-- The bytes of a burst written: host writes are posted. -/
def State.burstWrite (s : State) (c : Nat) (b : Burst) : State × Got :=
  let a := s.actDst c + b.base
  if s.on (BMV_ACT_XFER_DST_HOST c) then
    if s.busMaster then (s.emit (.hostWrite a b.data (s.on (BMV_ACT_XFER_NOSNOOP c))), .bytes []) else (s, .wait)
  else if s.bmvVirtual c then s.vaWrite (s.bmvWalker c (agentBmv c + 100) .write) (.bmv c) a b.data
  else s.bmWrite (agentBmv c + 100) (.bmv c) a b.data (s.flashAdmits c a b.data.length)

/-- Writes of bursts whose lower bursts are all read and written, in ascending order (R457). -/
def State.bmvWrites (s : State) (c : Nat) : Nat → State
  | 0 => s
  | n + 1 =>
    let x := s.bmvCh c
    match x.bursts with
    | b :: rest =>
      let stop := match x.fail with
        | some (_, i) => decide (i ≤ b.base)
        | none => false
      if !b.readDone || stop then s
      else if b.data.isEmpty then (s.setBmv c { x with bursts := rest }).bmvWrites c n
      else
        match s.burstWrite c b with
        | (s, .wait) => s
        | (s, .bytes _) =>
          let s := s.rbufClear (agentBmv c + 100)
          let s := s.wr (BMV_PROG_WRITTEN c) (b.base + b.data.length)
          (s.setBmv c { s.bmvCh c with bursts := rest }).bmvWrites c n
        | (s, g) =>
          let s := s.rbufClear (agentBmv c + 100)
          s.setBmv c (({ s.bmvCh c with bursts := [] } : BmvState).failAt g.status b.base)
    | [] => s

/-- The next burst to be read is read; a failing one ends the reads (R457, R458). -/
def State.bmvRead (s : State) (c : Nat) (host : HostData) : State :=
  let x := s.bmvCh c
  match x.bursts.find? (fun b => !b.readDone) with
  | none => s
  | some b =>
    let put := fun (s : State) (f : BmvState → BmvState) =>
      ((s.hostAnswered c b.base).setBmv c (f (s.bmvCh c))).rbufClear (agentBmv c)
    let lower := fun (x : BmvState) => x.bursts.filter (fun y => decide (y.base < b.base))
    match s.burstRead c b host with
    | (s, .wait) => s
    | (s, .bytes bs) =>
      put s (fun x => { x with bursts := x.bursts.map (fun y => if y.base = b.base then { y with readDone := true, data := bs } else y) })
    | (s, .fail st _) => put s (fun x => ({ x with bursts := lower x } : BmvState).failAt st b.base)
    | (s, .poison pre ga) =>
      put s (fun x => ({ x with bursts := lower x ++ [{ b with readDone := true, data := pre }] } : BmvState).failAt ST_POISON (s.poisonIndex c ga))

/-- The transfer has nothing left to do: its status and INDEX (R454, R458, R459). -/
def State.bmvOver (s : State) (c : Nat) : Option (Nat × Nat) :=
  let x := s.bmvCh c
  if !s.bmvBusy c || !x.bursts.isEmpty then none
  else
    match x.fail with
    | some f => some f
    | none =>
      if x.aborting then some (ST_ABORTED, s.rd (BMV_PROG_WRITTEN c))
      else if s.actLen c ≤ x.nextOff then some (ST_OK, s.actLen c) else none

/-- A transfer that is over ends, and an armed shadow set starts (R453, R459). -/
def State.bmvEnd (s : State) (c : Nat) : State :=
  match s.bmvOver c with
  | none => s
  | some (st, i) => (s.bmvFinish c st i (s.bmvCh c).fail.isSome).bmvNext c

/-- BURST_READ_COMPLETE (R457, R458). -/
def execBurstReadComplete (ch : BmvCh) (host : HostData) (s : State) : Host.Outcome State Fault Refusal :=
  .next ((s.bmvRead ch.val host).bmvWrites ch.val 9)

/-- TRANSFER_END (R459). -/
def execTransferEnd (ch : BmvCh) (s : State) : Host.Outcome State Fault Refusal := .next ((s.bmvWrites ch.val 9).bmvEnd ch.val)

/-- An abort (R454): bursts not read are dropped with every higher one. -/
def State.bmvAbort (s : State) (c : Nat) : State :=
  let s := s.wr (BMV_CMD_ARMED c) 0
  if !s.bmvBusy c then s
  else
    let x := s.bmvCh c
    let s := s.setBmv c { x with aborting := true, bursts := x.bursts.takeWhile (fun b => b.readDone) }
    (s.bmvWrites c 9).bmvEnd c

/-- A write of BMV_CMD: ABORT, then ARM (R453, R454). -/
def State.bmvCmdWrite (s : State) (c : Nat) (w : RegWrite) : State :=
  s.regRow w (BMV_CMD c) (s.bmvMine c w.m) (fun s =>
    let s := if w.covers (BMV_CMD_ABORT c) && w.get (BMV_CMD_ABORT c) == 1 then s.bmvAbort c else s
    if w.covers (BMV_CMD_ARM c) && w.get (BMV_CMD_ARM c) == 1 then (s.wr (BMV_CMD_ARMED c) 1).bmvNext c else s)

/-- BMV_ARM (R453). -/
def execBmvArm (ch : BmvCh) (w : RegWrite) (s : State) : Host.Outcome State Fault Refusal := .next (s.bmvCmdWrite ch.val w)

/-- BMV_ABORT (R454). -/
def execBmvAbort (ch : BmvCh) (w : RegWrite) (s : State) : Host.Outcome State Fault Refusal := .next (s.bmvCmdWrite ch.val w)

/-- A transfer of the command engine begins on a free CMD channel, or waits for one (R451, R414). -/
def State.engineMove (s : State) (r : Nat) (p : Packet) (src dst xfer ctx : Nat) : State :=
  match (List.range 32).find? (fun c => s.bmvOwner c == 2 && !s.bmvBusy c) with
  | none => s
  | some c =>
    let prio := if s.on (CMDR_CFG_CLASS r) then 6 else 3
    let s := (s.setReg (BMV_ACT_SRC c) (BitVec.ofNat 64 src)).setReg (BMV_ACT_DST c) (BitVec.ofNat 64 dst)
    let s := s.setReg (BMV_ACT_XFER c) (BitVec.ofNat 64 (prio * 2 ^ 61 + 12 * 2 ^ 52 + xfer))
    let s := s.setRing r { s.ring r with running := (s.ring r).running.map (fun x => if x.seq = p.seq then { x with held := true } else x) }
    (s.setBmv c { cmd := some (r, p.seq), ctx := ctx }).bmvStart c

/-- A channel's transfer ends at once as at a host-interface or peer reset (R458, R483, R571): ST_PEER_RESET in place of the
listed status, once every burst already read is written. -/
def State.bmvPeerReset (s : State) (c : Nat) : State :=
  let s := s.wr (BMV_CMD_ARMED c) 0
  if !s.bmvBusy c then s
  else
    let x := s.bmvCh c
    let kept := x.bursts.takeWhile (fun b => b.readDone)
    let next := (kept.getLast?.map (fun b => b.base + b.len)).getD (s.rd (BMV_PROG_WRITTEN c))
    let s := s.setBmv c { x.failAt ST_PEER_RESET next with bursts := kept }
    (s.bmvWrites c 9).bmvEnd c

end Sys2Proof.Machine
end

