-- ==== Sys2Proof/Machine/Mailbox.lean ====
section
/-! DEFINITION. The mailboxes: who is the agent of a side, the interrupt condition, sends, receives,
readiness, and a side in reset (R443 to R450). Side 0 is the F side, side 1 the P side. -/
namespace Sys2Proof.Machine
open Reg

/-- The master is the agent of a side (R443). -/
def State.mbxAgent (s : State) (m d : Nat) : Master → Bool
  | .core c t =>
    let r := (s.task c.val t.val).ring
    if d = 0 then r == 0 && (c.val == 24 || (c.val == 25 && m != 29))
    else if m < 24 then c.val == m && decide (r ≤ 1)
    else m == 29 && c.val == 25 && r == 0
  | .host => d == 1 && decide (24 ≤ m) && decide (m < 28)
  | .gloley => d == 1 && m == 28
  | .bmv _ => false

/-- The interrupt condition of a side (R448). -/
def State.mbxCond (s : State) (m d : Nat) : Bool :=
  (s.reg (MBX_DB_IN m d)).toNat % 2 ^ 32 &&& s.rd (MBX_DB_MASK_MASK m d) != 0
    || (s.on (MBX_IRQ_QIE m d) && !(s.side m d).queue.isEmpty)

/-- The event of a side goes to its target (R448). -/
def State.mbxEvent (s : State) (m d : Nat) : State :=
  let task := s.rd (MBX_IRQ_TASK m d)
  let line := s.rd (MBX_IRQ_LINE m d)
  if d = 0 then s.raiseLine (24 + s.rd (MBX_IRQ_CORE m d)) task line
  else if m < 24 then (if task < 16 then s.raiseLine m task line else s)
  else if m < 28 then s.msix (s.rd (MBX_IRQ_VECTOR m d))
  else if m = 28 then s.alert 0
  else s.raiseLine 25 task line

/-- A change of the condition from false to true is one event (R448). -/
def State.mbxCheck (s : State) (m d : Nat) : State :=
  let c := s.mbxCond m d
  let old := (s.side m d).armed
  let s := s.setSide m d { s.side m d with armed := c }
  if c && !old then s.mbxEvent m d else s

/-- The other side of a side. -/
def otherSide (d : Nat) : Nat := 1 - d

/-- A send or doorbell dropped: SEND_OVF and MBX_DROP (R446). -/
def State.mbxDrop (s : State) (m d : Nat) : State :=
  (s.wr (MBX_STAT_SEND_OVF m d) 1).record { src := srcMbxDrop + m, inst := d }

/-- Doorbell bits rung at the other side; bit 31 is ignored (R444, R446). -/
def State.mbxRing (s : State) (m d bits : Nat) : State :=
  let e := otherSide d
  if !s.on (MBX_STAT_READY m e) then s.mbxDrop m d
  else (s.wr (MBX_DB_IN_DB m e) (s.rd (MBX_DB_IN_DB m e) ||| bits % 2 ^ 31)).mbxCheck m e

/-- A word sent to the other side's queue, or dropped (R445, R446). -/
def State.mbxSend (s : State) (m d : Nat) (v : Word) : State :=
  let e := otherSide d
  let x := s.side m e
  if !s.on (MBX_STAT_READY m e) || decide (16 ≤ x.queue.length) then s.mbxDrop m d
  else (s.setSide m e { x with queue := x.queue ++ [v] }).mbxCheck m e

/-- The oldest word of a side's own queue is taken; an empty queue gives zero and sets RECV_EMPTY (R445, R446). -/
def State.mbxTake (s : State) (m d : Nat) : State × Word :=
  let x := s.side m d
  match x.queue with
  | [] => (s.wr (MBX_STAT_RECV_EMPTY m d) 1, 0)
  | v :: q => ((s.setSide m d { x with queue := q }).mbxCheck m d, v)

/-- The agent of a side is reset or fenced (R449). -/
def State.mbxReset (s : State) (m d : Nat) : State :=
  let e := otherSide d
  let n := (s.side m d).queue.length
  let s := (s.setReg (MBX_DB_IN m d) 0).wr (MBX_STAT_READY m d) 0
  let s := s.setSide m d {}
  let s := (s.wr (MBX_STAT_DISCARDED m e) (min 255 n)).wr (MBX_DB_IN_PEER_RESET m e) 1
  (s.mbxCheck m d).mbxCheck m e

/-- MBX_DOORBELL (R444, R446). -/
def execMbxDoorbell (b : Mbx) (side : Bool) (w : RegWrite) (s : State) : Host.Outcome State Fault Refusal :=
  let d := b2n side
  .next (s.regRow w (MBX_DB_OUT b.val d) (s.mbxAgent b.val d w.m) (fun s =>
    if w.covers (MBX_DB_OUT_DB b.val d) then s.mbxRing b.val d (w.get (MBX_DB_OUT_DB b.val d)) else s))

/-- MBX_SEND (R445 to R447). -/
def execMbxSend (b : Mbx) (side : Bool) (w : RegWrite) (s : State) : Host.Outcome State Fault Refusal :=
  let d := b2n side
  .next (s.regRow w (MBX_SEND b.val d) (s.mbxAgent b.val d w.m && w.width == 8) (fun s => s.mbxSend b.val d w.v))

/-- A read of a register with a row of its own: refused, made to wait (R644, R645, R649), or performed by `f`, which gives its value. -/
def State.readRow (s : State) (m : Master) (off width : Nat) (right : Bool) (f : State → State × Word) : State :=
  if m == .host && !s.hostUp then s.hostMissed true
  else match s.regBlocked m off width with
  | some st => s.refuseReg m off true st
  | none =>
    if s.mxcWaits (s.mxcAhead m off false) m off then s.mxcHold { m := m, off := off, width := width, v := none }
    else if !right then s.refuseReg m off true ST_PROTECTION
    else
      let (s, v) := f (s.mxcGrant m off)
      s.emit (.coreValue m v ST_OK)

/-- MBX_RECV (R445 to R447). -/
def execMbxRecv (b : Mbx) (side : Bool) (m : Master) (width : Nat) (s : State) : Host.Outcome State Fault Refusal :=
  let d := b2n side
  .next (s.readRow m (MBX_RECV b.val d) width (s.mbxAgent b.val d m && width == 8) (fun s => s.mbxTake b.val d))

/-- MBX_READY (R450): a write of MBX_STAT. -/
def execMbxReady (b : Mbx) (side : Bool) (w : RegWrite) (s : State) : Host.Outcome State Fault Refusal :=
  let d := b2n side
  .next (s.regRow w (MBX_STAT b.val d) (s.mbxAgent b.val d w.m) (fun s => s.applyWrite (MBX_STAT b.val d) w.mask w.bits))

end Sys2Proof.Machine
end

