-- ==== Sys2Proof/Machine/Scratch.lean ====
section
/-! DEFINITION. Scratchpad banks and LOFT operations (R285 to R310). -/
namespace Sys2Proof.Machine
open Reg

/-! Banks (R302 to R307). -/

/-- Cell errors that an access of a scratchpad line finds, put into its two words (R306). -/
def State.spUpset (s : State) (base : Nat) (us : List Upset) : State :=
  us.foldl (fun s u =>
    let o := base / 16 * 16 + 8 * (u.word % 2)
    let d := s.damage o
    if u.symbol < 72 && !d.syms.contains u.symbol then s.setDamage o { d with syms := d.syms ++ [u.symbol] } else s) s

/-- SCRATCH_BANK_ACCESS (R302 to R305, R307). -/
def execScratchBankAccess (i : Svu) (bank : Nat) (upsets : List Upset) (s : State) : Host.Outcome State Fault Refusal :=
  let b := bank % 16
  let q := tabGet (s.svu i.val).bankQ [] b
  .next (match (s.bankNext i.val b q).bind (fun k => (q[k]?).map (fun r => (k, r))) with
    | none => s
    | some (k, r) =>
      let s := s.takeBank i.val b r q (q.eraseIdx k)
      match s.storageOut r.off with
      | some st => s.endQueued r st
      | none => (s.spUpset r.off upsets).performReq r)

/-- SCRATCH_LINE_SCRUB (R73, R307): `line` counts the 262,144 lines of 16 bytes of a scratchpad. -/
def execScratchLineScrub (i : Svu) (line : Nat) (upsets : List Upset) (s : State) : Host.Outcome State Fault Refusal :=
  let x := s.svu i.val
  let base := windowOf i.val + 16 * (line % 262144)
  let idle := (tabGet x.bankQ [] (spBankOf (16 * (line % 262144)))).isEmpty
  let due := decide (x.readAt (line % 262144) + 60000000000 ≤ s.now)
  .next (if !s.arrayOn (i.val / 4) || !(idle || due) then s
  else
    let s := s.setSvu i.val { x with lineRead := tabPut x.lineRead (line % 262144) s.now }
    let s := s.spUpset base upsets
    (List.range 2).foldl (fun s k => (s.readEcc (base + 8 * k) true).1) s)

/-- ARRAY_CLEAR_DONE (R310): the clearing scratchpads and loft registers of a cluster hold zero. -/
def execArrayClearDone (k : Cluster) (s : State) : Host.Outcome State Fault Refusal :=
  let svus := rangeFrom (4 * k.val) 4
  .next (
    let s := if s.rd (CLUS_ARRAY_STATE_ARRAY k.val) = 1 then
        let lo := windowOf (4 * k.val)
        let s := s.wipe (fun o => decide (lo ≤ o) && decide (o < lo + 2 ^ 24))
        svus.foldl (fun s i => s.setSvu i { s.svu i with lineRead := [], linesFrom := s.now }) (s.wr (CLUS_ARRAY_STATE_ARRAY k.val) 2)
      else s
    if s.rd (CLUS_ARRAY_STATE_LOGIC k.val) = 1 then
      svus.foldl (fun s i => s.loftClear i) (s.wr (CLUS_ARRAY_STATE_LOGIC k.val) 2)
    else s)

/-! LOFT operations (R288 to R301). -/

def LoftOp.node (o : LoftOp) : NodeD := nodeOfWord o.w0
def LoftOp.mzero (o : LoftOp) : Bool := bitOf o.w1 61
def LoftOp.scal (o : LoftOp) : Bool := bitOf o.w1 60
def LoftOp.grp (o : LoftOp) : Nat := bitsOf o.w1 59 58
def LoftOp.vdm (o : LoftOp) : Bool := bitOf o.w1 57
def LoftOp.vd (o : LoftOp) : Nat := bitsOf o.w1 52 48
def LoftOp.start (o : LoftOp) : Nat := bitsOf o.w1 44 32
def LoftOp.vl (o : LoftOp) : Nat := bitsOf o.w1 12 0

def isLoftReg (x : Nat) : Bool := x < 0x20
def isMaskReg (x : Nat) : Bool := 0x30 ≤ x && x ≤ 0x37

/-- The two forms of MOV between mask and loft registers: 1 mask to loft, 2 loft to mask. -/
def LoftOp.movForm (o : LoftOp) : Nat :=
  let n := o.node
  if n.op ≠ 0 then 0
  else if isMaskReg n.a && !o.vdm && n.ot == .uint8 then 1
  else if isLoftReg n.a && o.vdm && n.it == .uint8 then 2 else 0

/-- The type at which a loft register is read for an operand (R158, R289). A register carries no type of its own: an operand of any
integer type is read as ITYPE, or as the unsigned integer of its width. -/
def loftType (n : NodeD) (need : Need) : EType :=
  match need with
  | .valOut => n.ot
  | .u64Opt => .uint64
  | .int64 => .int64
  | .anyInt =>
    if n.it.isInt then n.it
    else match n.it.bits with
      | 8 => .uint8
      | 16 => .uint16
      | 32 => .uint32
      | _ => .uint64
  | _ => n.it

/-- The bits of an element at that type; those of DEC128 for an operand of any integer type beside it. -/
def loftBits (n : NodeD) (need : Need) : Nat := if need = .anyInt then n.it.bits else (loftType n need).bits

/-- The scalar as an operand: a value of ITYPE, whatever type the operand has (R289): widened to OTYPE for FMAW's C, and as an integer
taken over by its value (log 72). -/
def scalarBits (n : NodeD) (need : Need) (v : Nat) : Nat :=
  let b := v % 2 ^ n.it.bits
  let toT := loftType n need
  if need = .anyInt ∨ toT = n.it then b
  else if n.it.isInt then intBits toT (intVal n.it b)
  else if toT.isFP then
    let r := (cvtFF n.it toT .rne false b).1
    if (fdecode n.it b).isSNan then r - 2 ^ (toT.fbits - 1) else r
  else b

/-- The operands of a node word with their needs. -/
def nodeNeeds (n : NodeD) : List (Need × Nat) :=
  match opRow n.op with
  | some r => [(r.a, n.a), (r.b, n.b), (r.c, n.c)]
  | none => []

/-- Order 5 of R291: presence, kind and types of the operands. -/
def LoftOp.operandsOk (o : LoftOp) : Bool :=
  let n := o.node
  match opRow n.op with
  | none => false
  | some r =>
    (r.types n.it n.ot || (n.op == 0 && o.movForm != 0)) && r.imm n.it n.imm && (n.msrc == srcNone || isMaskReg n.msrc)
      && (nodeNeeds n).all (fun p =>
        match p.1 with
        | .no => p.2 == srcNone
        | .mask => isMaskReg p.2
        | .valOpt | .u64Opt => p.2 == srcNone || isLoftReg p.2 || p.2 == 0x20
        | _ => isLoftReg p.2 || p.2 == 0x20 || (o.movForm == 1 && isMaskReg p.2))

/-- The acceptance checks of R291 under the operation's own grouping; `none` when all pass. -/
def State.loftCheck (s : State) (i : Nat) (o : LoftOp) : Option Nat :=
  let n := o.node
  let g := groupFactor o.grp
  let srcs := [n.a, n.b, n.c, n.msrc]
  let listed := fun x => x == srcNone || x == 0x20 || (isLoftReg x && decide (x < 32 / g)) || (isMaskReg x && decide (x - 0x30 < 8 / g))
  let maskRes := opMask n.op || o.movForm == 2
  let holds := fun w => 4096 * g / w
  let form := o.movForm
  let vdMax := if form = 1 then 512 * g else if o.vdm then 512 * g else holds n.ot.bits
  let srcMax := (nodeNeeds n).foldl (fun m p =>
    if isLoftReg p.2 then min m (if form = 2 then 512 * g else holds (loftBits n p.1)) else m) (512 * g)
  if s.svuFenced i then some ST_FENCED
  else if n.resv ≠ 0 || bitsOf o.w1 56 53 ≠ 0 || bitsOf o.w1 47 45 ≠ 0 || bitsOf o.w1 31 13 ≠ 0 || 5 ≤ n.rmode then some ST_BAD_PARAM
  else if 0xB ≤ n.op / 256 || (opRow n.op).isNone then some ST_BAD_OPCODE
  else if !srcs.all listed || (if o.vdm then 8 / g ≤ o.vd else 32 / g ≤ o.vd) then some ST_BAD_PARAM
  else if n.itype = 15 || n.otype = 15 || !o.operandsOk then some ST_BAD_PARAM
  else if o.vdm != maskRes then some ST_BAD_PARAM
  else if srcs.contains 0x20 && (n.it == .dec128 || !o.scal) then some ST_BAD_PARAM
  else if o.vl < o.start || min vdMax srcMax < o.vl then some ST_BAD_PARAM
  else if isGroup7 n.op && !o.vdm && srcs.contains o.vd then some ST_BAD_PARAM
  else none

/-- A LOFT operation as a chain of one node: its sources are input slots 0 to 3 of the kinds LOFT and MASK, its scalar a slot
too. -/
def LoftOp.desc (o : LoftOp) : List Nat :=
  let n := o.node
  let slot := fun (k x : Nat) => if x = srcNone then srcNone else 0x10 + k
  let kind := fun (x : Nat) => if x = srcNone then 0 else if isMaskReg x then kMask else kLoft
  let needs := (nodeNeeds n).map (fun p => p.1)
  let s0 := fun (k x : Nat) => if x = srcNone then 0
    else srcNone * 2 ^ 26 + srcNone * 2 ^ 20 + etypeCode (loftType n (needs.getD k .no)) * 2 ^ 8 + kind x
  let w0 := 2 ^ 32 + bitsOf o.te 0 0 * 2 ^ 20 + bitsOf o.te 1 1 * 2 ^ 21 + bitsOf o.te 2 2 * 2 ^ 22 + bitsOf o.te 3 3 * 2 ^ 23
    + bitsOf o.te 4 4 * 2 ^ 24
  let word := o.w0 / 2 ^ 36 * 2 ^ 36 + slot 3 n.msrc * 2 ^ 30 + slot 2 n.c * 2 ^ 24 + slot 1 n.b * 2 ^ 18 + slot 0 n.a * 2 ^ 12 + n.op
  [w0, o.vl, 0, o.start, s0 0 n.a, 0, s0 1 n.b, 0, s0 2 n.c, 0, s0 3 n.msrc, 0] ++ List.replicate 16 0 ++ [word]

/-- The source of an input slot of that chain, and the bits of its elements. -/
def LoftOp.source (o : LoftOp) (k : Nat) : Nat × Nat :=
  let n := o.node
  let need := fun j => (((nodeNeeds n)[j]?).map (fun p => p.1)).getD .no
  match k with
  | 0 => (n.a, if o.movForm = 2 then 1 else loftBits n (need 0))
  | 1 => (n.b, loftBits n (need 1))
  | 2 => (n.c, loftBits n (need 2))
  | _ => (n.msrc, 1)

/-- A loft register holds an element, under an operation's grouping. -/
def LoftOp.holds (o : LoftOp) (w j : Nat) : Bool := decide ((j + 1) * w ≤ 4096 * groupFactor o.grp)

/-- The words of a source that hold an element. -/
def LoftOp.keys (o : LoftOp) (k j : Nat) : List Nat :=
  let (x, w) := o.source k
  if isLoftReg x then if !o.holds w j then [] else rangeFrom (loftKey (loftBit o.grp x w j)) ((w + 63) / 64)
  else if isMaskReg x then [maskKey (maskLin o.grp (x - 0x30) j)] else []

/-- The need of an operand by its source's place. -/
def LoftOp.need (o : LoftOp) (k : Nat) : Need := (((nodeNeeds o.node)[k]?).map (fun p => p.1)).getD .no

/-- The element of a source, from words already decoded. An EXPAND may name an element that its register does not hold: a free value
(log 72). -/
def State.loftElem (s : State) (i : Nat) (o : LoftOp) (k j : Nat) : Option InElem :=
  let (x, w) := o.source k
  let y := s.svu i
  let bad := (o.keys k j).any (fun key => (tabGet y.loftDmg {} key).poison)
  let raw := ((o.keys k j).zipIdx).foldl (fun n p => n + tabGet y.loft 0 p.1 * 2 ^ (64 * p.2)) 0
  let bits := if x = 0x20 then scalarBits o.node (o.need k) o.scalar
    else if isLoftReg x && !o.holds w j then Config.loftBeyond j % 2 ^ w
    else if isLoftReg x then raw / 2 ^ (loftBit o.grp x w j % 64) % 2 ^ w
    else if isMaskReg x then raw / 2 ^ (maskLin o.grp (x - 0x30) j % 64) % 2 else 0
  some { slot := k, elem := j, bits := bits, fail := if bad then some { status := ST_POISON, slot := k } else none }

/-- Operations whose result is written only when they end without a stop (R295, R298). -/
def wholeResult (op : Nat) : Bool := isReduction op || isGroup7 op

/-- The results of an operation written to VD: element, bits (R286, R294). Those that a COMPRESS places outside [START, VL) are not
written. -/
def State.writeVd (s : State) (i : Nat) (o : LoftOp) (res : List (Nat × Nat)) : State :=
  let w := o.node.ot.bits
  let inRange := fun r : Nat × Nat => o.node.op != 0x700 || (decide (o.start ≤ r.1) && decide (r.1 < o.vl))
  let fits := fun r : Nat × Nat => inRange r && decide (if o.vdm then r.1 < 512 * groupFactor o.grp
    else (r.1 + 1) * (if o.movForm = 1 then 1 else w) ≤ 4096 * groupFactor o.grp)
  s.loftWrite i ((res.filter fits).flatMap (fun r =>
    if o.vdm then [maskPiece (maskLin o.grp o.vd r.1) r.2]
    else if o.movForm = 1 then
      let lin := 4096 * (groupFactor o.grp * o.vd) + r.1
      [{ key := loftKey lin, mask := 2 ^ (lin % 64), data := r.2 % 2 * 2 ^ (lin % 64) }]
    else loftPieces (loftBit o.grp o.vd w r.1) w r.2))

/-- Sticky flags of a LOFT operation enter its task's FPS (R296). -/
def State.orFps (s : State) (c t flags : Nat) : State :=
  let x := s.task c t
  s.setTask c t { x with fps := x.fps ||| (flags * 256) }

/-- An operation leaves its queue. -/
def State.popLoft (s : State) (i : Nat) : State := s.setSvu i { s.svu i with queue := (s.svu i).queue.drop 1 }

/-- A stop latched in SVU_LOFT_STOP and delivered to the issuing task, whose later operations in the queue end (R299, R312). -/
def State.stopLoft (s : State) (i : Nat) (o : LoftOp) (status index : Nat) : State :=
  let x := s.svu i
  let rest := x.queue.drop 1
  let gone := rest.filter (fun p => p.mark == 0 && p.core == o.core && p.task == o.task)
  let s := s.setSvu i { x with queue := rest.filter (fun p => !(p.mark == 0 && p.core == o.core && p.task == o.task)) }
  let s := if s.on (SVU_LOFT_STOP_VALID i) then s.wr (SVU_LOFT_STOP_OVERFLOW i) 1
    else s.setReg (SVU_LOFT_STOP i) (BitVec.ofNat 64 (2 ^ 63 + bitsOf (s.reg (SVU_LOFT_STOP i)).toNat 62 62 * 2 ^ 62
      + status * 2 ^ 48 + o.task * 2 ^ 40 + gone.length * 2 ^ 24 + index))
  let t := s.task o.core o.task
  s.setTask o.core o.task { t with loftStop := t.loftStop ++ [(status, index, gone.length, i % 4)] }

/-- LOFT_OP_START (R291, R293, R295). -/
def execLoftOpStart (i : Svu) (s : State) : Host.Outcome State Fault Refusal :=
  let x := s.svu i.val
  .next (match x.queue with
    | [] => s
    | o :: rest =>
      if o.mark ≠ 0 || o.started || x.testing.isSome then s
      else
        match s.loftCheck i.val o with
        | some st => s.stopLoft i.val o st o.start
        | none =>
          let n := o.node
          let o := { o with started := true, next := o.start, acc := emptyOf n, flags := 0, res := [] }
          let accs := if usesLacc n.op then tabPut x.loftAcc (n.imm % 16) (emptyOf n) else x.loftAcc
          s.setSvu i.val { x with queue := o :: rest, group := o.grp, loftAcc := accs })

/-- An operation ends: its results, its LACC and its flags. -/
def State.endLoft (s : State) (i : Nat) (o : LoftOp) : State :=
  let n := o.node
  let (v, f) := if isReduction n.op then extract o.acc n.ot (nodeRm [] n) else (0, 0)
  let res := if isReduction n.op then [(0, v)] else o.res
  let s := s.writeVd i o res
  let s := if isReduction n.op then s.setSvu i { s.svu i with loftAcc := tabPut (s.svu i).loftAcc (n.imm % 16) o.acc }
    else if isFscan n.op then s.setSvu i { s.svu i with loftAcc := tabPut (s.svu i).loftAcc (n.imm % 16) o.scan.acc } else s
  (s.popLoft i).orFps o.core o.task (o.flags ||| f)

/-- One element of an operation: its cause to stop, or the operation with its result. -/
def State.loftStep (s : State) (i : Nat) (o : LoftOp) (j : Nat) : Option (StopCause × Nat) × LoftOp :=
  let n := o.node
  let d := o.desc
  let e : ElemEnv := { d := d, start0 := o.start, x := j, get := s.loftElem i o, scans := [(0, o.scan)] }
  let cause := (e.slotCause).orElse (fun _ => e.nodeCause 0)
  match cause with
  | some q => (some (q, e.stopFlags { q with node := if q.slot = 15 then 0 else q.node }), o)
  | none =>
    let v := e.valOf 0 0 j
    let res : List (Nat × Nat) :=
      if isReduction n.op then []
      else if n.op = 0x700 then (if v.off || !v.give then [] else [(v.pos, v.bits)])
      else if v.off then (if o.mzero then [(j, if o.vdm then 0 else zeroBits n.ot)] else [])
      else [(j, v.bits)]
    (none, { o with
      next := j + 1, flags := o.flags ||| e.flags, res := o.res ++ res
      acc := if isReduction n.op then feedAcc n o.acc j (e.operands 0 j) else o.acc
      scan := tabGet e.advance {} 0 })

/-- Words of a source that some elements lie in are decoded (R306). -/
def State.decodeWords (s : State) (i : Nat) (o : LoftOp) (es : List (Nat × Nat)) : State :=
  ((es.flatMap (fun e => o.keys e.1 e.2)).dedup).foldl (fun s k => (s.loftDecode i k).1) s

/-- The elements q(i) of its A that an EXPAND reads (R173). -/
def State.expandReads (s : State) (i : Nat) (o : LoftOp) : List Nat :=
  let bit := fun (k j : Nat) => ((s.loftElem i o k j).map (fun x => x.bits % 2)).getD 0 == 1
  let n := ((rangeFrom o.start (o.vl - o.start)).filter (fun j => (o.node.msrc == srcNone || bit 3 j) && bit 1 j)).length
  let p0 := if o.node.c = srcNone then 0 else ((s.loftElem i o 2 o.start).map (fun x => x.bits)).getD 0
  rangeFrom p0 n

/-- Words that the elements [a, b) of an operation's sources lie in are decoded, and for an EXPAND those that its A is read at
(R306). -/
def State.decodeSources (s : State) (i : Nat) (o : LoftOp) (a b : Nat) : State :=
  let at' := fun (k : Nat) => (rangeFrom a (b - a)).map (fun j => (k, j))
  if o.node.op = 0x701 then
    let s := s.decodeWords i o ([1, 2, 3].flatMap at')
    s.decodeWords i o ((s.expandReads i o).map (fun j => (0, j)))
  else s.decodeWords i o ([0, 1, 2, 3].flatMap at')

/-- LOFT_GROUP (R292, R294, R295, R298). -/
def execLoftGroup (i : Svu) (upsets : List LoftUpset) (s : State) : Host.Outcome State Fault Refusal :=
  let x := s.svu i.val
  .next (match x.queue with
    | [] => s
    | o :: _ =>
      if !o.started || x.testing.isSome || s.power.stalled then s
      else
        let n := o.node
        let g := 1024 / max n.it.bits n.ot.bits
        let hi := min o.vl (o.next + g)
        let s := s.loftUpset i.val upsets
        let s := if isGroup7 n.op then s.decodeSources i.val o o.start o.vl else s.decodeSources i.val o o.next hi
        let (stop, o) := (rangeFrom o.next (hi - o.next)).foldl (fun (a : Option (StopCause × Nat) × LoftOp) j =>
          if a.1.isSome then a else s.loftStep i.val a.2 j) (none, o)
        match stop with
        | some (q, fl) =>
          let s := if wholeResult n.op then s else s.writeVd i.val o o.res
          (s.stopLoft i.val o q.status o.next).orFps o.core o.task (o.flags ||| fl)
        | none =>
          if o.vl ≤ o.next then s.endLoft i.val o
          else s.setSvu i.val { s.svu i.val with queue := o :: (s.svu i.val).queue.drop 1 })

end Sys2Proof.Machine
end

