-- ==== Sys2Proof/Machine/Teardown.lean ====
section
/-! DEFINITION. What units lose when they are drained, reset, fenced or switched off: ranges and LOFT
operations of an SVU, tasks of a core, a port, the host interface (R233, R235, R301, R449, R482, R483, R506, R571, R596). -/
namespace Sys2Proof.Machine
open Reg

/-! SVUs. -/

/-- Ranges of chains in progress that the SVUs of a list hold. -/
def State.rangesOn (s : State) (svus : List Nat) : List (Nat × Nat) :=
  s.chains.flatMap (fun c => if c.phase == .ended then [] else
    (c.slices.filter (fun l => svus.contains l.svu && l.phase != .done)).map (fun l => (c.id, l.lsl)))

/-- LOFT operations that the SVUs of a list hold. -/
def State.loftsOn (s : State) (svus : List Nat) : List (Nat × LoftOp) :=
  svus.flatMap (fun i => ((s.svu i).queue.filter (fun o => o.mark == 0)).map (fun o => (i, o)))

/-- A range ends its work at its commit index with a status, its lower outputs still to be written (R233). -/
def State.drainRange (s : State) (id lsl status : Nat) : State :=
  s.updChain id (fun c =>
    match c.slices.find? (fun l => l.lsl == lsl) with
    | none => c
    | some l =>
      let k := l.reached
      if l.stop.isSome || l.fin ≤ k then c
      else
        { (c.updSlice lsl (fun l : Slice => { l.halt status with phase := .stopped })).addStop k { status := status } with
          phase := .stopping })

/-- Every range that the SVUs of a list hold drains. -/
def State.drainSvus (s : State) (svus : List Nat) (status : Nat) : State :=
  (s.rangesOn svus).foldl (fun s r => s.drainRange r.1 r.2 status) s

/-- Lowest element of a range whose write was not performed, and one past the highest it computed (R235). -/
def Slice.tornRange (l : Slice) (c : Chain) : Nat × Nat :=
  let k := l.reached
  let mine := fun e => decide (l.first ≤ e) && decide (e < l.fin)
  let waiting := (l.outs.map (fun o => o.elem)) ++ (c.flying.filterMap (fun x => if mine x.elem then some x.elem else none))
    ++ (c.atomFlying.filterMap (fun x => if mine x.1 then some x.1 else none))
  (waiting.foldl min k, if l.verify && l.pass1.isSome then min l.fin (l.base + 4096) else max k l.next)

/-- The spools of the SVUs of a list are discarded: each chain stops at `c` with the range [c, e) torn (R235). Writes that left
the spools complete at their channels (R570). -/
def State.tearSvus (s : State) (svus : List Nat) : State :=
  let ids := ((s.rangesOn svus).map (·.1)).dedup
  let s := ids.foldl (fun s id =>
    s.updChain id (fun c =>
      let mine := c.slices.filter (fun l => svus.contains l.svu && l.phase != .done)
      let ends := mine.map (fun l => l.tornRange c)
      let lo := ends.foldl (fun m x => min m x.1) (dCount c.desc)
      let hi := ends.foldl (fun m x => max m x.2) lo
      let cut := fun (l : Slice) =>
        if svus.contains l.svu && l.phase != .done then
          { l with phase := .stopped, outs := [], inp := [], asked := [], hold := [], atomWait := none
                   stop := some (lo, { status := ST_TORN }) }
        else l
      let torn := match c.torn with
        | some (a, b) => (min a lo, max b hi)
        | none => (lo, hi)
      { ({ c with slices := c.slices.map cut, phase := .stopping } : Chain).addStop lo { status := ST_TORN } with torn := some torn })) s
  svus.foldl (fun s i =>
    let x := s.svu i
    let t := s.setSvu i { x with ctxs := [], current := none, walks := [], queue := x.queue.filter (fun o => o.mark == 0) }
    ({ t with heldReads := t.heldReads.filter (fun h => h.1 != i) }.rbufClear (agentSvu i)).rbufClear (agentSvu i + 200)) s

/-- LOFT operations of an SVU end: the one in progress keeps its whole groups, the others write nothing (R301). -/
def State.resetLoft (s : State) (i : Nat) : Nat → State
  | 0 => s
  | n + 1 =>
    match (s.svu i).queue.filter (fun o => o.mark == 0) with
    | [] => s
    | o :: rest =>
      let marks := (s.svu i).queue.filter (fun o => o.mark != 0)
      let s := s.setSvu i { s.svu i with queue := o :: rest }
      let s :=
        if o.started then
          let s := if wholeResult o.node.op then s else s.writeVd i o o.res
          (s.stopLoft i o ST_ABORTED_RESET o.next).orFps o.core o.task o.flags
        else s.stopLoft i o ST_ABORTED_RESET o.start
      (s.setSvu i { s.svu i with queue := marks ++ (s.svu i).queue }).resetLoft i n

/-- Every LOFT operation of the SVUs of a list ends. -/
def State.resetLofts (s : State) (svus : List Nat) : State :=
  svus.foldl (fun s i => s.resetLoft i (s.svu i).queue.length) s

/-! Cores. -/

/-! Tasks that stop (R379). -/

/-- The master number under which a core's tasks hold a lock (R643). -/
def lockOfCore (c : Nat) : Nat := if c = 24 then 0 else if c = 25 then 1 else 5

/-- The lock that a task holds is released (R353). -/
def State.releaseLock (s : State) (c t : Nat) : State :=
  let n := lockOfCore c
  if s.on (MXC_LOCK_HELD n) && s.rd (MXC_LOCK_ID n) == (if c < 24 then c else t) then s.unlock n else s

/-- A locked sequence abandoned: the lock is released and the task goes back to the load, with the stack and predicates before it
(R342, R353). -/
def State.abandonLock (s : State) (c t : Nat) : State :=
  let x := s.task c t
  match x.lock with
  | none => s
  | some q =>
    (s.releaseLock c t).setTask c t { x with lock := none, pc := q.pc, sp := q.sp, cached := q.cached, preds := q.preds }

/-- An atomic or a store of the task's instruction has been sent and not answered: the instruction is not abandoned, for it would act
twice (R384). -/
def State.accessSent (s : State) (c t : Nat) : Bool := s.rbuf.any (fun b => b.agent == agentTask c t && decide (1024 ≤ b.len))

/-- A task that a STOP has reached stops, once nothing keeps it. -/
def TaskRegs.settleStop (x : TaskRegs) : TaskRegs :=
  if x.stopping && !x.drogue && x.due.isNone && x.spills.isEmpty then { x with st := .stopped, stopping := false, trap := none } else x

/-- A running or waiting task stops at its boundary: work in progress is abandoned, and it is STOPPED once its entry spills have
drained; an instruction whose atomic or store was sent ends first; within the drogue handler, or before an entry to it, the task stops
at the handler's GRET. -/
def State.stopTask (s : State) (c t : Nat) : State :=
  let x := s.task c t
  if x.st = .wait then s.setTask c t { x with st := .stopped }
  else if x.st ≠ .run then s
  else if x.drogue || x.due.isSome || s.accessSent c t then s.setTask c t { x with stopping := true }
  else
    let s := (s.abandonLock c t).rbufClear (agentTask c t)
    let x := s.task c t
    s.setTask c t ({ x with stopping := true } : TaskRegs).settleStop

/-- Every task of a core that runs or waits is stopped. -/
def State.stopTasks (s : State) (c : Nat) : State :=
  (s.tasks.filter (fun p => p.1 / 64 = c)).foldl (fun s p => s.stopTask c (p.1 % 64)) s

/-- What a core's tasks wait for is dropped: answers, walks, accesses in the matrix, and the lock that one of them holds. -/
def State.dropWaits (s : State) (c : Nat) : State :=
  let s := (rangeFrom (64 * c) 64).foldl (fun s a => s.rbufClear a) s
  s.releaseLock c (s.rd (MXC_LOCK_ID (lockOfCore c)))

/-- A core loses its tasks, which are OFF, and its stores not yet issued; chains of its tasks that ended are forgotten. -/
def State.coreOff (s : State) (c : Nat) : State :=
  let s := s.dropWaits c
  let s := { s with
    tasks := s.tasks.filter (fun t => t.1 / 64 != c)
    chains := s.chains.filter (fun x => match x.issuer with
      | .task k _ => k != c || x.phase != ChainPhase.ended
      | .ring .. => true) }
  let s := s.setCore c { s.coreSt c with stores := [], drogueStack := [], leaf := [], lines := [] }
  s.wr (CORE_DROGUE_ACTIVE c) 0

/-- Registers whose offsets lie in [lo, hi) return to their reset values, but for the fields that a module reset keeps. -/
def State.resetRegs (s : State) (lo hi : Nat) : State :=
  { s with regs := s.regs.map (fun p : Nat × Word =>
    if lo ≤ p.1 ∧ p.1 < hi then
      let k := keptMask p.1
      (p.1, BitVec.ofNat 64 (mergeBits (resetWord p.1).toNat p.2.toNat k))
    else p) }

/-! Ports. -/

/-- A port enters DOWN and records it (R506). -/
def State.portLost (s : State) (p : Nat) : State :=
  (s.portDown p).record { src := srcJpDown + p, aux := s.rd (JP_STAT_PEER_NODE p) }

/-! The host interface (R482 to R484). -/

/-- A channel's host reads end with ST_PEER_RESET (step 1 of R483). -/
def State.dropHostReads (s : State) (c : Nat) : State :=
  let x := s.bmvCh c
  if s.bmvBusy c && s.on (BMV_ACT_XFER_SRC_HOST c) && !s.actFill c then
    match x.bursts.find? (fun b => !b.readDone) with
    | none => s
    | some b => (s.setBmv c { x.failAt ST_PEER_RESET b.base with bursts := x.bursts.takeWhile (fun y => y.readDone) }).bmvEnd c
  else s

/-- Steps 1 to 6 of R483. The reset stays in progress until configuration-ready; `last` is the cause of HIF_RESET_LOG: 1 FLR,
2 hot reset, 3 link down, 4 PERST_N. -/
def State.hifReset (s : State) (last : Nat) : State :=
  let s := { s with host := { s.host with flr := true, ready := false, reads := [], d3 := false } }.rbufClear agentHost
  let s := (List.range 32).foldl (fun s c => s.dropHostReads c) s
  let s := (List.range 64).foldl (fun s r => if s.hostRing r then s.ringReset r true else s) s
  let s := (List.range 32).foldl (fun s c => if s.bmvOwner c = 1 then s.bmvPeerReset c else s) s
  let s := [24, 25, 26, 27].foldl (fun s m => s.mbxReset m 1) s
  let s := s.endSessions (fun s i => s.on (LCS_SESSION_ACTIVE i) && !s.on (LCS_SESSION_GLOLEY i) && s.hostRing (s.rd (LCS_SESSION_RING i)))
  let s := (s.count HIF_RESET_LOG_COUNT 1).wr HIF_RESET_LOG_LAST last
  if last ≤ 2 then s
  else
    let s := ((s.wr HIF_LINK_STAT_MODE 0).wr HIF_LINK_STAT_WIDTH 0).wr HIF_LINK_STAT_SPEED 0
    { s with host := { s.host with linkUp := false, dir := [], snooping := [] } }

/-! Whole domains (R30, R310, R532, R551). -/

/-- The logic of a cluster switches off: its core, its mailbox side, its loft registers, spools and LACCs are lost; what belongs to its
scratchpad arrays stays. -/
def State.clusterLogicOff (s : State) (k : Nat) : State :=
  let svus := rangeFrom (4 * k) 4
  let s := (s.coreOff k).mbxReset k 1
  let s := svus.foldl (fun s i =>
    let x := s.svu i
    (s.forgetLofts i).setSvu i { journal := x.journal, adds := x.adds, bankQ := x.bankQ, bankTurn := x.bankTurn, lineRead := x.lineRead
                                 linesFrom := x.linesFrom }) s
  ((s.setCore k {}).setDomain k false).wr (CLUS_ARRAY_STATE_LOGIC k) 0

/-- The scratchpad arrays of a cluster switch off: what waits at their banks ends with ST_NOT_READY. -/
def State.clusterArrayOff (s : State) (k : Nat) : State :=
  let s := (rangeFrom (4 * k) 4).foldl (fun s i =>
    let x := s.svu i
    let waiting := x.bankQ.flatMap (fun b => b.2)
    waiting.foldl (fun s m => s.endQueued m ST_NOT_READY) (s.setSvu i { x with bankQ := [], journal := [], adds := [] })) s
  (s.setDomain (24 + k) false).wr (CLUS_ARRAY_STATE_ARRAY k) 0

/-- A channel stops serving in a state: what waits there ends with a status (R30). -/
def State.channelOff (s : State) (c state status : Nat) : State :=
  let s := if s.chFenced c then s else s.setMemcState c state
  let q := (s.chan c).queue
  q.foldl (fun s m => s.endQueued m status) (s.setChan c { s.chan c with queue := [] })

/-- A tower switches off. -/
def State.towerOff (s : State) (t : Nat) : State :=
  ((rangeFrom (8 * t) 8).foldl (fun s c => s.channelOff c 0 ST_NOT_READY) s).setDomain (48 + t) false

/-- A Jusen port switches off: its link is lost. -/
def State.portOff (s : State) (p : Nat) : State :=
  let s := if s.portState p = 2 ∨ s.portState p = 3 then s.portLost p else s.dropLink p
  let s := s.setPort p {}
  ((s.wr (JP_STAT_STATE p) 0).wr (JP_STAT_LANES p) 0).setDomain (60 + p) false

/-- A PLL follows its power domain off (R558). -/
def State.pllOff (s : State) (n : Nat) : State :=
  let s := ((s.wr (CLK_PLL_STATE n) 0).wr (CLK_PLL_FREQ n) 0).wr ⟨CLK_STAT, n, n⟩ 0
  let s := { s with clock := { s.clock with coast := s.clock.coast.filter (· != n) } }
  if s.clock.coast.isEmpty then s.wr CLK_STAT_COASTING 0 else s

/-- The nominal output of a PLL in MHz; the lane clocks of the ports and the host link are the model's free values. -/
def State.pllFreq (s : State) (n : Nat) : Nat × State :=
  if n = 0 then (1000, s)
  else if n = 1 then (levelMhz s.level, s)
  else if n < 14 then (1250, s)
  else if s.rd (CLK_PLL_FREQ n) ≠ 0 then (s.rd (CLK_PLL_FREQ n), s)
  else s.fresh

/-- A PLL begins to lock as its domain wakes (R558). -/
def State.pllOn (s : State) (n : Nat) : State :=
  let (f, s) := s.pllFreq n
  (s.wr (CLK_PLL_STATE n) 1).wr (CLK_PLL_FREQ n) f

/-- A PLL coasts: no port or host link is trained on it (R562). -/
def State.pllCoasts (s : State) (n : Nat) : Bool := s.rd (CLK_PLL_STATE n) == 3

/-- The PLL that a power domain holds (R558). -/
def pllOfDomain (d : Nat) : Option Nat :=
  if 48 ≤ d ∧ d < 60 then some (d - 46) else if 60 ≤ d ∧ d < 76 then some (d - 46) else if d = 76 then some 30
  else if d = 77 then some 1 else none

/-- A power domain switches off, with what its units lose (R30, R449, R482, R506, R532). -/
def State.domainOff (s : State) (d : Nat) : State :=
  let s :=
    if d < 24 then s.clusterLogicOff d
    else if d < 48 then s.clusterArrayOff (d - 24)
    else if d < 60 then s.towerOff (d - 48)
    else if d < 76 then s.portOff (d - 60)
    else if d = 76 then (s.hifReset 3).setDomain 76 false
    else if d = 78 then (((s.coreOff 25).mbxReset 29 1).setCore 25 {}).setDomain 78 false
    else s.setDomain d false
  match pllOfDomain d with
  | some n => s.pllOff n
  | none => s

/-- A power domain wakes from off: what it must do before it serves (R310, R532, R558, R569). -/
def State.domainWake (s : State) (d : Nat) : State :=
  let s :=
    if d < 24 then (s.resetRegs (coreBase d) (coreBase d + 0x800)).wr (CLUS_ARRAY_STATE_LOGIC d) 1
    else if d < 48 then s.wr (CLUS_ARRAY_STATE_ARRAY (d - 24)) 1
    else if d < 60 then (rangeFrom (8 * (d - 48)) 8).foldl (fun s c =>
      ((if s.chFenced c then s else s.setMemcState c 1).wr (MEMC_WIPE_DONE c) 0).wr (MEMC_WIPE_POSITION c) 0) s
    else if d < 76 then s.wr (JP_STAT_STATE (d - 60)) (b2n (s.on (JP_CFG_ENABLE (d - 60))))
    else if d = 78 then s.resetRegs (coreBase 25) (coreBase 25 + 0x300)
    else s
  match pllOfDomain d with
  | some n => s.pllOn n
  | none => s

end Sys2Proof.Machine
end

