-- ==== Sys2Proof/Machine/Power.lean ====
section
/-! DEFINITION. Lifts, ramps, the envelope and its level, caps, domains, power states, brown-out (R526 to
R557, R236). -/
namespace Sys2Proof.Machine
open Reg

/-! Grants and ramps (R536, R540, R541). -/


/-- A waiting request leaves the queue. -/
def State.dropLift (s : State) (id : Nat) : State :=
  s.holdFrom { s with power := { s.power with waiting := s.power.waiting.filter (fun q => q.chain != id) } }

/-- LIFT_GRANT (R536, R540). -/
def execLiftGrant (s : State) : Host.Outcome State Fault Refusal :=
  .next (match s.power.waiting with
    | [] => s
    | q :: _ =>
      match s.chainOf q.chain with
      | none => s.dropLift q.chain
      | some c =>
        let old := s.committed
        let new := s.committedWith (s.grantedChains ++ [{ c with granted := true }]) s.level
        if (s.envelope : Rat) < new then s
        else
          let dp := new - old
          let s1 := s.updChain c.id (fun c => { c with granted := true })
          s.holdFrom { s1 with power := { s1.power with
            waiting := s1.power.waiting.filter (fun x => x.chain != q.chain)
            granted := s1.power.granted ++ [(c.id, q.since)]
            ramps := s1.power.ramps ++ [s.rampAt (some c.id) dp (s.pipesFrom dp)] } })

/-- The entry of a list with the least number, by a measure. -/
def leastBy {α : Type} (f : α → Nat) (l : List α) : Option α :=
  l.foldl (fun m x => match m with
    | none => some x
    | some y => if f x < f y then some x else m) none

/-- INPUT_RAMP_START (R540): the earliest scheduled ramp begins. -/
def execInputRampStart (s : State) : Host.Outcome State Fault Refusal :=
  .next (match leastBy (fun r : Ramp => r.start) (s.power.ramps.filter (fun r => !r.begun)) with
    | none => s
    | some r =>
      let s := s.advanceTo r.start
      { s with power := { s.power with ramps := s.power.ramps.map (fun x => if x = r then { x with begun := true } else x) } })

/-- INPUT_RAMP_DONE (R531, R541): the earliest ramp in progress ends; with none left, a pending SLEW takes effect. -/
def execInputRampDone (s : State) : Host.Outcome State Fault Refusal :=
  .next (match leastBy (fun r : Ramp => r.fin) (s.power.ramps.filter (fun r => r.begun)) with
    | none => s
    | some r =>
      let s := s.advanceTo r.fin
      let ramps := s.power.ramps.filter (fun x => decide (x ≠ r))
      let slew := if ramps.isEmpty then s.rd PWR_LIMIT_SLEW else s.power.slew
      { s with power := { s.power with ramps := ramps, slew := slew } })

/-- INPUT_RAMP_DOWN (R541): the input begins to fall by the lift that an SVU is charged, half a ramp before the load does. -/
def execInputRampDown (i : Svu) (s : State) : Host.Outcome State Fault Refusal :=
  let dp := s.svuLift s.grantedChains i.val s.level
  .next (if dp ≤ 0 then s
  else
    let tr := rampTime dp s.power.vin s.power.slew
    { s with power := { s.power with
      ramps := s.power.ramps ++ [{ chain := none, start := s.now, pipes := s.now + tr / 2, fin := s.now + tr, begun := true, dp := -dp }] } })

/-! The envelope kept (R537, R538, R546). -/

/-- The level is lowered while the committed power exceeds the envelope. -/
def State.fitLevel (s : State) : Nat → State
  | 0 => s
  | n + 1 => if s.committed ≤ (s.envelope : Rat) ∨ s.level = 3 then s else s.lowerLevel.fitLevel n

/-- Grants are withdrawn, the latest first, while the committed power exceeds the envelope. -/
def State.fitGrants (s : State) : Nat → State
  | 0 => s
  | n + 1 =>
    if s.committed ≤ (s.envelope : Rat) then s
    else
      match s.power.granted.getLast? with
      | none => s
      | some (id, since) =>
        let s := s.updChain id (fun c => { c with granted := false })
        let s := { s with power := { s.power with
          granted := s.power.granted.dropLast
          ramps := s.power.ramps.map (fun r : Ramp => if r.chain = some id then { r with chain := none } else r) } }
        (s.requestLift { chain := id, since := since, timer := s.now }).fitGrants n

/-- A chain has computed and written nothing. -/
def Chain.untouched (c : Chain) : Bool := c.slices.all (fun l => l.next == l.first && l.base == l.first) && c.wrote.isEmpty

/-- A chain is denied (R537). -/
def State.denyChain (s : State) (c : Chain) : State := (s.count PWR_STAT_DENIED 1).endChain c ST_ENVELOPE_DENIED c.start c.flags

/-- Waiting chains that can never be granted now are denied. -/
def State.denyWaiting (s : State) : State :=
  s.power.waiting.foldl (fun s q =>
    match s.chainOf q.chain with
    | some c => if c.untouched && s.denied c then s.denyChain c else s
    | none => s) s

/-- The committed power brought within an envelope that changed (R537, R546). -/
def State.fit (s : State) : State := ((s.fitLevel 3).fitGrants s.chains.length).denyWaiting

/-- The watermark of the input power (R557). -/
def State.pinMark (s : State) : State :=
  s.watermark State.msix PWR_WM_PIN (s.rd PWR_WM_PIN_THRESH) (s.rd PWR_INPUT_PIN) (s.rd PWR_CFG_EVT_VECTOR)

/-- VIN_SAMPLE (R526, R527, R546, R555, R557): VIN in mV and input current in 0.01 A, averaged over 100 µs. -/
def execVinSample (vin iin : Nat) (s : State) : Host.Outcome State Fault Refusal :=
  let within := fun v => decide (6000 ≤ v) && decide (v ≤ 60000)
  .next (
    let s0 := s
    let old := s.power.vin
    let s := { s with power := { s.power with vin := vin } }
    if s.power.off then s
    else
      let pin := vin * iin / 100000
      let (bus, s) := s.fresh
      let s := (((s.wr PWR_INPUT_PIN pin).wr PWR_INPUT_IIN iin).wr PWR_INPUT_VIN (vin / 10)).wr PWR_INPUT_BUS bus
      let s := s.pinMark
      let s := if within old && !within vin then s.record { src := srcPwrVin } else s
      s0.holdFrom s.fit)

/-- ENV_WAIT_EXPIRY (R538). -/
def execEnvWaitExpiry (s : State) : Host.Outcome State Fault Refusal :=
  .next (match s.power.waiting with
    | [] => s
    | q :: rest =>
      if !s.power.rules then s
      else
        let s := s.advanceTo (q.timer + s.rd PWR_CFG_ENV_WAIT * 1000)
        let s := { s with power := { s.power with waiting := { q with timer := s.now } :: rest } }
        s.lowerLevel)

/-- UP_HOLD_EXPIRY (R538, R560). -/
def execUpHoldExpiry (s : State) : Host.Outcome State Fault Refusal :=
  .next (if !s.mayRaise then s
  else
    let s := s.advanceTo (s.power.upFrom + s.rd PWR_CFG_UP_HOLD * 1000000)
    s.setLevel (s.level - 1))

/-- BUS_STALL (R543). -/
def execBusStall (s : State) : Host.Outcome State Fault Refusal :=
  .next (if s.power.stalled then s
  else
    let s := { s with power := { s.power with stalled := true } }
    (s.count PWR_STAT_STALLS 1).record { src := srcPwrStall })

/-- BUS_RECOVER (R543). -/
def execBusRecover (s : State) : Host.Outcome State Fault Refusal :=
  .next { s with power := { s.power with stalled := false } }

/-- The hottest junction temperature in °C acts on the level (R547); the thermal condition ends 5 °C below THROTTLE (R538). -/
def State.throttle (s : State) (hottest : Nat) : State :=
  let t := s.rd PWR_CFG_THROTTLE
  let s0 := { s with power := { s.power with hot := hottest } }
  if t ≤ hottest then
    let s1 := { s0 with power := { s0.power with thermal := true } }
    if s1.level = 3 then s1 else (s1.lowerLevel).record { src := srcPwrThrottle }
  else if hottest + 5 ≤ t then s0.holdFrom { s0 with power := { s0.power with thermal := false } }
  else s0

/-- THROTTLE (R547). -/
def execThrottle (hottest : Nat) (s : State) : Host.Outcome State Fault Refusal := .next (s.throttle hottest)

/-- THROTTLE_REPEAT (R547). -/
def execThrottleRepeat (hottest : Nat) (s : State) : Host.Outcome State Fault Refusal := .next (s.throttle hottest)

/-- The fields of a write of PWR_LIMIT in order, with R9 for each, and what takes effect (R531, R556). -/
def State.limitWrite (s : State) (w : RegWrite) : State :=
  let s0 := s
  let max0 := s.rd PWR_LIMIT_MAX_W
  let min0 := s.rd PWR_LIMIT_CAP_MIN
  let slew0 := s.rd PWR_LIMIT_SLEW
  let maxW := s.after w PWR_LIMIT_MAX_W
  let maxOk := decide (450 ≤ maxW) && decide (maxW ≤ 1800)
  let max1 := if maxOk then maxW else max0
  let minW := s.after w PWR_LIMIT_CAP_MIN
  let minOk := decide (450 ≤ minW) && decide (minW ≤ max1)
  let min1 := if minOk then minW else min0
  let max2 := if max1 < min1 then max0 else max1
  let slewW := s.after w PWR_LIMIT_SLEW
  let slewOk := decide (1 ≤ slewW) && decide (slewW ≤ 8)
  let slew1 := if slewOk then slewW else slew0
  let s := ((s.wr PWR_LIMIT_MAX_W max2).wr PWR_LIMIT_CAP_MIN min1).wr PWR_LIMIT_SLEW slew1
  let s := if maxOk && minOk && slewOk then s else s.regRecord PWR_LIMIT w.bits
  let s := if s.power.ramps.isEmpty then { s with power := { s.power with slew := slew1 } } else s
  s0.holdFrom s.fit

/-- PWR_LIMIT_WRITE (R531, R556). -/
def execPwrLimitWrite (w : RegWrite) (s : State) : Host.Outcome State Fault Refusal :=
  .next (s.regRow w PWR_LIMIT (s.fwOrInstaller w.m) (fun s => (s.auditWrite w PWR_LIMIT).limitWrite w))

/-- A cap set in a field of PWR_CAP, or refused (R545): the status, and the least cap in effect. -/
def State.setCap (s : State) (f : RF) (v : Nat) : State × Nat :=
  if v = 0 ∨ (s.rd PWR_LIMIT_CAP_MIN ≤ v ∧ v ≤ s.rd PWR_LIMIT_MAX_W) then
    let t := s.wr f v
    (s.holdFrom (t.wr PWR_CAP_IN_EFFECT t.capInEffect).fit, ST_OK)
  else (s, ST_BAD_PARAM)

/-! Domains (R532, R548). -/

/-- The answer of PWR_DOMAIN_REQ. -/
def State.domainResult (s : State) (st : Nat) : State := (s.wr PWR_DOMAIN_REQ_RESULT st).wr PWR_DOMAIN_REQ_BUSY 0

/-- Why a domain switch is refused (R548). -/
def State.domainRefused (s : State) (d : Nat) (on : Bool) : Option Nat :=
  let svus := rangeFrom (4 * d) 4
  if 79 < d then some ST_BAD_PARAM
  else if on then
    let more := if s.domainOn d || s.power.domWait.contains (d, true) then 0 else domainFloor d
    if (s.envelope : Rat) < s.floorW + ((more : Nat) : Rat) / 100 then some ST_ENVELOPE_DENIED else none
  else if d < 24 ∧ (!(s.rangesOn svus).isEmpty ∨ !(s.loftsOn svus).isEmpty) then some ST_BUSY
  else if d = 77 then some ST_BUSY
  else if d = 79 ∧ s.on LCS_UPDATE_OPEN then some ST_BUSY
  else none

/-- A request for one domain (R548). -/
def State.domainRequest (s : State) (d : Nat) (on : Bool) (w : RegWrite) : State :=
  match s.domainRefused d on with
  | some st => (s.regRecord PWR_DOMAIN_REQ w.bits).wr PWR_DOMAIN_REQ_RESULT st
  | none =>
    let s := if d = 79 then { s with power := { s.power with flashIdle := 0 } } else s
    let waiting := s.power.domWait.contains (d, on)
    let other := s.power.domWait.filter (fun x => x.1 != d)
    if s.domainOn d = on ∧ !waiting ∧ !s.power.domWait.contains (d, !on) then s.domainResult ST_OK
    else
      let s := if waiting then s else if on then s.domainWake d else s.domainOff d
      let s := s.wr PWR_DOMAIN_REQ_BUSY 1
      { s with power := { s.power with domWait := if waiting then s.power.domWait else other ++ [(d, on)], domReq := some d } }

/-- DOMAIN_REQUEST (R548, R556). -/
def execDomainRequest (w : RegWrite) (s : State) : Host.Outcome State Fault Refusal :=
  .next (s.regRow w PWR_DOMAIN_REQ (s.fw0 w.m) (fun s =>
    if !w.covers PWR_DOMAIN_REQ_DOMAIN then s
    else if s.on PWR_DOMAIN_REQ_BUSY then s.regRecord PWR_DOMAIN_REQ w.bits
    else s.holdFrom (s.domainRequest (w.get PWR_DOMAIN_REQ_DOMAIN) (w.get PWR_DOMAIN_REQ_ON == 1) w)))

/-- What a waking domain must have done before it is on (R532): its clearing or wiping, and its PLL's lock. -/
def State.wakeReady (s : State) (d : Nat) : Bool :=
  (match pllOfDomain d with
    | some n => s.rd (CLK_PLL_STATE n) != 1
    | none => true)
  && (if d < 24 then s.rd (CLUS_ARRAY_STATE_LOGIC d) == 2
    else if d < 48 then s.rd (CLUS_ARRAY_STATE_ARRAY (d - 24)) == 2
    else if d < 60 then (rangeFrom (8 * (d - 48)) 8).all (fun c => s.rd (MEMC_STATUS_STATE c) != 1)
    else true)

/-- A domain switch that ends: PWR_DOMAIN_REQ answers when it asked for it. -/
def State.domainEnds (s : State) (d : Nat) : State :=
  if s.power.domReq = some d then ({ s with power := { s.power with domReq := none } } : State).domainResult ST_OK else s

/-- DOMAIN_WAKE_DONE (R532, R548). -/
def execDomainWakeDone (d : Nat) (s : State) : Host.Outcome State Fault Refusal :=
  .next (if s.power.domWait.contains (d, true) && s.wakeReady d then
    let s := { s with power := { s.power with domWait := s.power.domWait.filter (fun x => x != (d, true)) } }
    (s.setDomain d true).domainEnds d
  else s)

/-- DOMAIN_OFF_DONE (R548). -/
def execDomainOffDone (d : Nat) (s : State) : Host.Outcome State Fault Refusal :=
  .next (if s.power.domWait.contains (d, false) then
    let s := { s with power := { s.power with domWait := s.power.domWait.filter (fun x => x != (d, false)) } }
    s.domainEnds d
  else s)

/-- FLASH_IDLE_OFF (R551). -/
def execFlashIdleOff (s : State) : Host.Outcome State Fault Refusal :=
  .next (if s.power.flashIdle = 0 then s
  else
    let s := s.advanceTo s.power.flashIdle
    s.holdFrom (({ s with power := { s.power with flashIdle := 0 } } : State).setDomain 79 false))

/-! Power states (R236, R549 to R553). -/

/-- A command of a ring is in progress, or a chain, or a transfer. -/
def State.working (s : State) : Bool :=
  (List.range 64).any (fun r => !(s.ring r).running.isEmpty || !(s.ring r).done.isEmpty)
    || s.chains.any (fun c => c.phase != .ended)

/-- A remote write of this module is not performed: a write, or an atomic, which a bit-masked write is too (R678). -/
def State.remoteWrite (s : State) : Bool := s.freqs.any (fun q => q.2.typ == tWrReq || q.2.typ == tAtomReq)

/-- Commands other than chains are in progress: SUSPEND stops only chains (R236). -/
def State.otherWork (s : State) : Bool :=
  (List.range 64).any (fun r => (s.ring r).running.any (fun p => !isChainCmd p.cmd) || (s.ring r).done.any (fun x => !isChainCmd x.cmd))

/-- The domains that a state holds on, out of those of RUN (R549). -/
def keepsOn (target d : Nat) : Bool :=
  match target with
  | 0 => true
  | 1 => decide (48 ≤ d) && d != 77
  | _ => false

/-- The domains to be on in a target state: those on now, or on when RUN was left. -/
def State.targetDomains (s : State) (target : Nat) : List Nat :=
  let all := ((List.range 80).filter s.domainOn ++ s.power.saved).dedup
  all.filter (fun d => keepsOn target d)

/-- FLOOR in W with a list of domains on (R533). -/
def floorOf (ds : List Nat) : Rat := ((3560 + (ds.map domainFloor).sum : Nat) : Rat) / 100

/-- Domains that the target needs and that are off begin to wake. -/
def State.wakeFor (s : State) (target : Nat) : State :=
  (s.targetDomains target).foldl (fun s d =>
    if s.domainOn d || s.power.domWait.contains (d, true) then s
    else
      let s := s.domainWake d
      { s with power := { s.power with domWait := s.power.domWait ++ [(d, true)] } }) s

/-- A transition is accepted (R236, R550, R552). -/
def State.acceptState (s : State) (target : Nat) (suspend : Bool) : State :=
  let up := target < s.rd PWR_STATE_STATE
  let s := if suspend && !up then (s.chains.filter (fun c => c.phase != .ended)).foldl (fun s c => s.haltChain c.id ST_PARTIAL) s else s
  let s := s.wr PWR_STATE_RESULT ST_OK
  let s := { s with power := { s.power with target := some target } }
  let s := if up then s.wakeFor target else s
  s.wr PWR_STATE_STATE 3

/-- A request for a power state: 0 RUN, 1 HOLD, 2 MOORED, 3 STOWED (R236, R550, R552, R554). -/
def State.requestState (s : State) (target : Nat) (suspend : Bool) : State :=
  let s := s.wr PWR_STATE_TARGET target
  let now := s.rd PWR_STATE_STATE
  if now = 3 then s.wr PWR_STATE_RESULT ST_BUSY
  else if target = now then s.wr PWR_STATE_RESULT ST_OK
  else if target < now then
    if (s.envelope : Rat) < floorOf (s.targetDomains target) then s.wr PWR_STATE_RESULT ST_ENVELOPE_DENIED
    else s.acceptState target false
  else if s.remoteWrite || s.otherWork || (!suspend && s.working) then s.wr PWR_STATE_RESULT ST_BUSY
  else s.acceptState target suspend

/-- POWER_STATE_REQUEST (R550, R556). -/
def execPowerStateRequest (w : RegWrite) (s : State) : Host.Outcome State Fault Refusal :=
  .next (s.regRow w PWR_STATE_REQ (s.fw0 w.m) (fun s =>
    if w.get PWR_STATE_REQ_GO == 1 then s.requestState (w.get PWR_STATE_REQ_TARGET) (w.get PWR_STATE_REQ_SUSPEND == 1) else s))

/-- Channels of a tower that is on enter or leave self-refresh. -/
def State.selfRefresh (s : State) (enter : Bool) : State :=
  (List.range 96).foldl (fun s c =>
    if !s.domainOn (48 + c / 8) || s.chFenced c then s
    else if enter then (if s.rd (MEMC_STATUS_STATE c) = 2 then s.channelOff c 3 ST_NOT_READY else s)
    else if s.rd (MEMC_STATUS_STATE c) = 3 then s.setMemcState c 2 else s) s

/-- Domains that a state does not hold on switch off; those on in RUN are noted for the return. -/
def State.leaveDomains (s : State) (target : Nat) : State :=
  let s0 := s
  let on := (List.range 80).filter s.domainOn
  let s := { s with power := { s.power with saved := (on ++ s.power.saved).dedup, flashIdle := 0 } }
  let s := { s with power := { s.power with domWait := s.power.domWait.filter (fun x => x.2 && keepsOn target x.1) } }
  s0.holdFrom ((on.filter (fun d => !keepsOn target d)).foldl (fun s d => s.domainOff d) s)

/-- Torn chains of a brown-out end with the return to RUN (steps 3 to 5 of R230, R554). -/
def State.endTorn (s : State) : State :=
  (s.chains.filter (fun c => c.torn.isSome && c.phase != .ended)).foldl (fun s c =>
    match c.stop with
    | some (f, x) => if c.settledBelow f then s.endStopped c f x else s
    | none => s) s

/-- A request that firmware serves loses READY before its response is ready (R638). -/
def State.glLoses (s : State) : State :=
  let g := s.gloley
  if g.owed && decide (s.now < g.readyAt) then { s with gloley := { g with owed := false, lost := true, readyAt := s.now } } else s

/-- READY is cleared (R603, R638, R642). -/
def State.clearReady (s : State) : State := if s.isReady then ((s.wr LCS_BOOT_READY 0).alert 3).glLoses else s

/-- TRANSITION_COMPLETE (R549 to R554, R603). -/
def execTransitionComplete (s : State) : Host.Outcome State Fault Refusal :=
  .next (if s.rd PWR_STATE_STATE ≠ 3 then s
  else
    match s.power.target with
    | none => s
    | some t =>
      let waits := if t = 0 then false else s.chains.any (fun c => c.phase != .ended && c.torn.isNone)
        || (List.range 64).any (fun r => !(s.ring r).running.isEmpty)
      if waits || s.power.domWait.any (fun x => x.2) then s
      else
        let s := { s with power := { s.power with target := none } }
        match t with
        | 0 =>
          let s := (s.selfRefresh false).wr PWR_STATE_STATE 0
          let s := { s with power := { s.power with saved := [] } }
          (s.endTorn).alert 4
        | 1 => (((s.saveWear.leaveDomains 1).selfRefresh true).wr PWR_STATE_STATE 1).alert 4
        | 2 => ((((s.saveWear.leaveDomains 2).clearReady)).wr PWR_STATE_STATE 2).alert 4
        | _ =>
          let s := (s.advanceTo s.gloley.stowFrom).saveWear.leaveDomains 3
          let s := { s with power := { s.power with stowed := true, off := true }, tasks := [] }
          s.clearReady)

/-- BROWN_OUT (R554): the forced entry to HOLD. -/
def execBrownOut (s : State) : Host.Outcome State Fault Refusal :=
  .next (if s.power.off || s.power.ripcord || s.rd PWR_STATE_STATE == 1 || s.rd PWR_STATE_STATE == 2 then s
  else
    let s := s.tearSvus (List.range 97)
    let s := (List.range 96).foldl (fun s i => s.setSvu i { s.svu i with queue := [] }) s
    let s := (s.leaveDomains 1).selfRefresh true
    let s := { s with power := { s.power with target := none } }
    let s := (s.wr PWR_STATE_STATE 1).count PWR_STAT_SHEDS 1
    s.record { src := srcPwrShed })

end Sys2Proof.Machine
end

