-- ==== Sys2Proof/Machine/Clock.lean ====
section
/-! DEFINITION. REFCLK and the PLLs: loss, coasting, relock, source switches (R558 to R565). -/
namespace Sys2Proof.Machine
open Reg

/-- The PLL's power domain is on or waking (R558). -/
def State.pllPowered (s : State) (n : Nat) : Bool :=
  let live := fun d => s.domainOn d || s.power.domWait.contains (d, true)
  if n = 0 then !s.power.off
  else if n = 1 then live 77
  else if n < 30 then live (n + 46)
  else live 76

/-- A PLL coasts (R560): a source switch of the domain it runs to the coasting output, which is PLL_CORE's own switch to 0.8 GHz where
it ran above (R564, log 74). -/
def State.pllCoast (s : State) (n : Nat) : State :=
  let s :=
    if s.rd (CLK_PLL_STATE n) ≠ 2 then s
    else if n ≠ 1 then s.count CLK_SWITCHES_OTHER 1
    else if s.level = 3 then s.count CLK_SWITCHES_CORE 1
    else s
  let s := (s.wr (CLK_PLL_STATE n) 3).wr ⟨CLK_STAT, n, n⟩ 0
  let s := s.wr CLK_STAT_COASTING 1
  { s with clock := { s.clock with coast := (s.clock.coast.filter (· != n)) ++ [n] } }

/-- A PLL is locked: it coasts no more, and COASTING clears with the last one (R563). The first lock of PLL_CORE after a reset
starts the level rules, and a later one their wait (R538, R560). -/
def State.pllLocked (s : State) (n : Nat) : State :=
  let (f, s) := s.pllFreq n
  let s := ((s.wr (CLK_PLL_STATE n) 2).wr ⟨CLK_STAT, n, n⟩ 1).wr (CLK_PLL_FREQ n) f
  let s := { s with clock := { s.clock with coast := s.clock.coast.filter (· != n) } }
  let s := if s.clock.coast.isEmpty then s.wr CLK_STAT_COASTING 0 else s
  if n = 1 then { s with power := { s.power with rules := true, upFrom := s.now } } else s

/-- The level held at 3 while REFCLK is lost: a source switch of PLL_CORE when it ran above 0.8 GHz (R560, R564). -/
def State.levelToThree (s : State) : State :=
  if s.level = 3 then s
  else
    let s := s.wr PWR_ENV_LEVEL 3
    if s.rd (CLK_PLL_STATE 1) = 0 then s else (s.wr (CLK_PLL_FREQ 1) (levelMhz 3)).count CLK_SWITCHES_CORE 1

/-- REFCLK_LOST (R559, R560, R575). -/
def execRefclkLost (s : State) : Host.Outcome State Fault Refusal :=
  .next (if s.clock.refLost then s
  else
    let s := { s with clock := { s.clock with refLost := true } }
    let on := (List.range 31).filter (fun n => s.rd (CLK_PLL_STATE n) = 1 || s.rd (CLK_PLL_STATE n) = 2 || s.rd (CLK_PLL_STATE n) = 3)
    let s := on.foldl (fun s n => s.pllCoast n) s
    let s := ((s.wr CLK_STAT_CLK_LOST 1).wr CLK_STAT_REFCLK_OK 0).count CLK_STAT_LOSSES 1
    s.levelToThree.record { src := srcClkLost })

/-- REFCLK_GOOD (R559, R563): every coasting PLL relocks. -/
def execRefclkGood (s : State) : Host.Outcome State Fault Refusal :=
  .next (if !s.clock.refLost then s
  else
    let s1 := { s with clock := { s.clock with refLost := false } }
    let s1 := s1.wr CLK_STAT_REFCLK_OK 1
    let s1 := s1.clock.coast.foldl (fun s n => s.wr (CLK_PLL_STATE n) 1) s1
    { s1 with power := { s1.power with upFrom := s1.now } })

/-- PLL_LOCK (R538, R558, R563): a PLL that locks or relocks while REFCLK is good, or that coasts after losing its own lock. -/
def execPllLock (n : Pll) (s : State) : Host.Outcome State Fault Refusal :=
  let st := s.rd (CLK_PLL_STATE n.val)
  .next (if s.clock.refLost || !s.pllPowered n.val || st == 0 || st == 2 then s else s.pllLocked n.val)

/-- PLL_UNLOCK (R560, R575): a PLL loses lock while REFCLK is good. -/
def execPllUnlock (n : Pll) (s : State) : Host.Outcome State Fault Refusal :=
  .next (if s.clock.refLost || s.rd (CLK_PLL_STATE n.val) != 2 then s
  else
    let s := s.pllCoast n.val
    let s := if n.val = 1 then s.levelToThree else s
    s.record { src := srcPll + n.val })

end Sys2Proof.Machine
end

