-- ==== Sys2Proof/Machine/Reset.lean ====
section
/-! DEFINITION. The loader and images, READY, power-on and module reset, wake from the low-power states, unit
resets, thermal trip and loss of VIN (R569 to R574, R600 to R608, R617, R620, R661, R665). -/
namespace Sys2Proof.Machine
open Reg

/-! Images and the loader (R605, R617). -/

/-- A big-endian number. -/
def beNat (bs : List Byte) : Nat := leNat bs.reverse

/-- A field of the header of an image bank: offset and bytes. -/
def State.imageField (s : State) (b o n : Nat) : Nat := leNat (s.flashBytes (bankBase b + o) n)

/-- The SHA-384 digest of an image. -/
def State.imageDigest (s : State) (b : Nat) : Nat :=
  Config.sha384 (s.flashBytes (bankBase b) 0x80 ++ s.flashBytes (bankBase b + 0x1000) (s.imageField b 8 8))

/-- check(b) of R605. -/
def State.checkImage (s : State) (b : Nat) : Bool :=
  s.imageField b 0 8 == 1 && decide (s.imageField b 8 8 + 0x1000 ≤ bankSize) && decide (s.rd LCS_FW_MIN_SVN ≤ s.imageField b 0x14 1)
    && Config.ecdsaVerify (Config.publicKey 0) (s.imageDigest b) (beNat (s.flashBytes (bankBase b + 0x80) 96))

/-- The loader's work is over. -/
def State.loaded (s : State) : State := { s with life := { s.life with loading := false } }

/-- Recovery (R607). -/
def State.enterRecovery (s : State) : State :=
  (s.loaded.wr LCS_BOOT_PHASE 6).alert 5

/-- The entry point of an image at a field of its header, as a global address. -/
def State.imageEntry (s : State) (b o : Nat) : Nat := gaOf s.node ((flashBase + bankBase b + s.imageField b o 8) % 2 ^ 42)

/-- The loader starts the image of a bank (R605). -/
def State.startImage (s : State) (b : Nat) : State :=
  let s := if s.on LCS_FW_TRIAL then s.count LCS_FW_TRIES 1 else s
  let s := ((s.wr LCS_FW_VERSION (s.imageField b 0x10 4)).wr LCS_FW_SVN (s.imageField b 0x14 1)).wr LCS_FW_RUN_BANK b
  let s := ((s.wr LCS_BOOT_PHASE 2).flashTouch).loaded
  let s := s.setTask 24 0 { s.task 24 0 with pc := s.imageEntry b 0x18 }
  let t := s.task 25 0
  if s.rd VERIF_SUP_MODE = 1 then
    s.setTask 25 0 { t with pc := s.imageEntry b 0x20, st := if s.domainOn 78 then TaskState.run else TaskState.off }
  else s

/-- A fallback to the other bank is recorded (R605, R625). -/
def State.fallback (s : State) (b : Nat) : State := (s.wr LCS_FW_BOOT_BANK b).audit 7 ST_OK {} b 0 0

/-- A maker session on the Gloley port lasts. -/
def State.makerOnGloley (s : State) : Bool :=
  (List.range 4).any (fun i => s.on (LCS_SESSION_ACTIVE i) && s.on (LCS_SESSION_GLOLEY i) && s.rd (LCS_SESSION_ROLE i) == 2)

/-- The loader's selection of an image, when SUP_A has come to it and nothing holds it (R605, R606). -/
def State.boot (s : State) : State :=
  let mode := s.rd LCS_STATE_BOOT_MODE % 4
  if !s.life.loading then s
  else if mode = 2 && (s.lcs == 0 || s.lcs == 3) && !s.makerOnGloley then s
  else if mode = 1 then s.enterRecovery
  else
    let s := if mode = 3 then s.regRecord LCS_STATE (s.reg LCS_STATE).toNat else s
    let b := s.rd LCS_FW_BOOT_BANK
    let old := s.on LCS_FW_TRIAL && decide (1 ≤ s.rd LCS_FW_TRIES)
    let s := if old then (s.wr LCS_FW_TRIAL 0).fallback (1 - b) else s
    let b := if old then 1 - b else b
    if s.checkImage b then s.startImage b
    else if s.checkImage (1 - b) then (s.fallback (1 - b)).startImage (1 - b)
    else s.enterRecovery

/-! Resets (R569, R601, R602). -/


/-- SUP_A starts at the loader, or SUP_B where SUP_A is fenced. -/
def State.startLoader (s : State) : State :=
  let c := if s.supFenced 0 then 25 else 24
  let s := { s with tasks := [(64 * c, { st := .run, pc := loaderEntry })], life := { s.life with loading := true, bootStart := s.now } }
  s.wr LCS_BOOT_PHASE 1

/-- A module reset with a cause of RST_CAUSE (R569, R597, R602, R618, R624). -/
def State.moduleReset (s : State) (cause : Nat) : State :=
  if s.power.ripcord || s.power.off then s else
  let s := (s.endSessions (fun s i => s.on (LCS_SESSION_ACTIVE i))).abandonUpdate
  let wasReady := s.isReady
  let s := if wasReady then s.glLoses else s
  let area := if s.on INTLV_TAIL_SIZE_PENDING then (s.tailNext, s.rd INTLV_TAIL_SIZE_SIZE) else s.tailArea
  let s := s.resetRegs 0 0x10000000
  let s : State := { s with
    mem := [], memDmg := [], spDmg := [], halves := [], lockAt := [], mxc := [], mxcLast := []
    chans := s.chans.map (fun p => (p.1, p.2.repairs)), tail := [], tailArea := area, tailNext := 0, srcTimer := [], chains := []
    svus := [], heldReads := [], tasks := [], cores := [], sup := {}, rings := [], bells := [], owedReads := [], decisions := 0, credits := []
    mbx := [], bmv := [], bmvGrants := 0, bmvLast := [], pools := [], ports := [], freqs := [], routeOld := [], routeHeld := []
    tagNext := 0, tagCool := [], rbuf := [], walking := [], rxMsgs := [], peers := [], nodeBoot := []
    host := { perst := s.host.perst, urLog := s.host.urLog }
    power := { vin := s.power.vin, hot := s.power.hot, slew := s.rd PWR_LIMIT_SLEW }
    clock := { s.clock with coast := s.clock.coast.filter (· == 0) }
    unitResets := [], gloley := { s.gloley with resetAt := none, stowFrom := 0 }
    pins := { s.pins with alertN := true }
    life := { s.life with used := [], challenges := [], updSession := 0, flashOpen := none, slewLeft := 0
                          boot := s.life.boot + 1 } }
  let s := (List.range 96).foldl (fun s c => if s.chFenced c then s.wr (MEMC_STATUS_STATE c) 4 else s) s
  let coasts := !s.clock.coast.isEmpty
  let s := (((s.wr CLK_STAT_REFCLK_OK (b2n (!s.clock.refLost))).wr CLK_STAT_COASTING (b2n coasts)).wr CLK_STAT_LOCKED (b2n !coasts))
  let s := ((s.wr (CLK_PLL_STATE 0) (if coasts then 3 else 2)).wr (CLK_PLL_FREQ 0) 1000).setDomain 79 true
  let s := (s.wr JFAB_NODE_BOOT s.life.boot).count RST_CAUSE_COUNT 1
  let s := (s.wr RST_CAUSE_LAST cause).startLoader
  if wasReady then s.alert 3 else s

/-- A power-on reset with a cause of RST_CAUSE and the straps: everything, but what fuses and flash hold (R569, R601, R611). -/
def State.powerOn (s : State) (cause bootMode glAddr : Nat) : State :=
  let fuses := [LCS_STATE_STATE, LCS_STATE_LEFT, LCS_FW_MIN_SVN, LCS_FW_TRIES, LCS_FW_TRIAL, LCS_FW_BOOT_BANK,
    LCS_AUDIT_NEXT_ASEQ, LCS_AUDIT_HELD]
  let new : State := { State.reset with
    free := s.free, flash := s.flash, erased := s.erased, chans := s.chans.map (fun p => (p.1, p.2.repairs)), out := s.out
    pending := s.pending, host := { perst := s.host.perst }, power := { vin := max 6000 s.power.vin, hot := s.power.hot }
    gloley := { strap := glAddr }
    life := { nextSession := s.life.nextSession, audit := s.life.audit, keysErased := s.life.keysErased, loading := true
              wear := s.life.wear, boot := s.life.boot + 1, epoch := s.life.epoch + 1 } }
  let new := fuses.foldl (fun n f => n.wr f (s.rd f)) new
  let new := (List.range 96).foldl (fun n c =>
    let x := s.chan c
    if x.spareRows.isEmpty && x.spareLanes.isEmpty && x.spareCols.isEmpty && !x.lacksSpare then n
    else n.setReg (MEMC_SPARE c) (s.reg (MEMC_SPARE c))) new
  let new := s.life.wear.foldl (fun n x => (rangeFrom (8 * x.1) 8).foldl (fun n c =>
    (n.wr (MEMC_WEAR_EQ_QMIN c) x.2.1).wr (MEMC_WEAR_PEAK_TEMP c) x.2.2) n) new
  let new := ((new.wr LCS_STATE_BOOT_MODE bootMode).wr VERIF_SUP_MODE (bootMode / 4)).wr RST_CAUSE_LAST cause
  (new.wr JFAB_NODE_BOOT new.life.boot).wr TIME_EPOCH_EPOCH new.life.epoch

/-- POWER_ON_RESET (R569, R590, R601): in the ripcord state only after VIN fell below 3 V. -/
def execPowerOnReset (straps : Straps) (s : State) : Host.Outcome State Fault Refusal :=
  .next (if s.power.ripcord && decide (3000 ≤ s.power.vin) then s else s.powerOn 0 straps.bootMode.val straps.glAddr.val)

/-- MODULE_RESET (R569, R577). -/
def execModuleReset (w : RegWrite) (s : State) : Host.Outcome State Fault Refusal :=
  .next (s.regRow w RST_MODULE (s.fw0 w.m) (fun s => if w.get RST_MODULE_GO == 1 then s.boot.moduleReset 2 else s))

/-- WAKE_N (R552, R590): held low for 100 µs. -/
def execWakeN (s : State) : Host.Outcome State Fault Refusal :=
  .next (if s.power.ripcord then s
  else if s.power.stowed then s.powerOn 1 (s.rd LCS_STATE_BOOT_MODE) s.gloley.strap
  else if s.power.off then s
  else if s.rd PWR_STATE_STATE = 1 ∨ s.rd PWR_STATE_STATE = 2 then s.requestState 0 false
  else s)

/-! READY (R511, R603, R608, R620). -/

/-- Nodes whose route entry is valid. -/
def State.routedNodes (s : State) : List Nat :=
  (s.regs.filter (fun p => decide (JFAB_ROUTE_PRI 0 ≤ p.1) && decide (p.1 < JFAB_ROUTE_PRI 1024) && p.1 % 16 == 0
    && bitOf p.2.toNat 63)).map (fun p => (p.1 - JFAB_ROUTE_PRI 0) / 16)

/-- A RESET_NOTICE to every node with a valid route (R511). -/
def State.sendNotices (s : State) : State :=
  (s.routedNodes.filter (fun n => n != s.node)).foldl (fun s n =>
    let m : FMsg := { dst := n, src := s.node, typ := tResetNotice, len := 8, data := leBytes 8 (s.rd JFAB_NODE_BOOT) }
    ((s.sendOwn m 0 none).map (·.1)).getD s) s

/-- The conditions of R603. -/
def State.readyOk (s : State) : Bool :=
  !s.life.loading && s.rd LCS_BOOT_PHASE != 6 && s.rd LCS_BOOT_PHASE != 1 && s.lcs != 4
    && (List.range 96).all (fun c => s.chFenced c || s.rd (MEMC_STATUS_STATE c) == 2)

/-- SET_READY (R603, R627). -/
def execSetReady (w : RegWrite) (s : State) : Host.Outcome State Fault Refusal :=
  let ask := w.covers LCS_BOOT_SET_READY
  .next (s.regRow w LCS_BOOT (s.fw0 w.m || !ask) (fun s =>
    if !(ask && w.get LCS_BOOT_SET_READY == 1) then s
    else
      let s := s.boot
      if !s.readyOk then s.regRecord LCS_BOOT w.bits
      else if s.isReady then s
      else
        let s := (((s.wr LCS_BOOT_READY 1).wr LCS_BOOT_PHASE 5).alert 3).sendNotices
        { s with owedReads := (List.range 64).filter (fun r => s.ringState r == 1 && s.cmdOcc r != 0) }))

/-- BOOT_TIMEOUT (R608). -/
def execBootTimeout (s : State) : Host.Outcome State Fault Refusal :=
  .next (
    let s := s.boot
    if 5 ≤ s.rd LCS_BOOT_PHASE then s
    else ((s.advanceTo (s.life.bootStart + 900000000)).wr LCS_BOOT_PHASE 7).alert 5)

/-- FW_CONFIRM (R620, R627). -/
def execFwConfirm (w : RegWrite) (s : State) : Host.Outcome State Fault Refusal :=
  let ask := w.covers LCS_FW_CONFIRM
  .next (s.regRow w LCS_FW (s.fw0 w.m || !ask) (fun s =>
    if !ask then s
    else if w.get LCS_FW_CONFIRM == 1 && s.on LCS_FW_TRIAL && s.isReady then
      let s := s.audit 6 ST_OK {} (s.rd LCS_FW_VERSION) 0 0
      ((s.wr LCS_FW_TRIAL 0).wr LCS_FW_TRIES 0).peak LCS_FW_MIN_SVN (s.rd LCS_FW_SVN)
    else s.regRecord LCS_FW w.bits))

/-- TIME_SLEW_DONE (R612). -/
def execTimeSlewDone (s : State) : Host.Outcome State Fault Refusal :=
  .next ((s.advanceTo (s.now + s.life.slewLeft.natAbs)).wr TIME_EPOCH_SLEWING 0)

/-! Unit resets (R233 to R235, R301, R572 to R574). -/

/-- The SVUs that a unit reset covers. -/
def unitSvus (kind inst : Nat) : List Nat := if kind = 0 then [inst] else if kind = 1 then rangeFrom (4 * inst) 4 else []

/-- Why RESET_UNIT resets nothing (R573). -/
def State.unitRefused (s : State) (kind inst : Nat) : Option Nat :=
  let most := match kind with
    | 0 => 96
    | 1 => 24
    | 2 => 96
    | 3 => 16
    | 4 => 1
    | _ => 0
  let fenced := match kind with
    | 0 => s.svuFenced inst
    | 1 => s.clusFenced inst
    | 2 => s.chFenced inst
    | 3 => s.portFenced inst
    | _ => s.supFenced 1
  let dom := match kind with
    | 0 => inst / 4
    | 1 => inst
    | 2 => 48 + inst / 8
    | 3 => 60 + inst
    | _ => 78
  if most ≤ inst then some ST_BAD_PARAM
  else if fenced then some ST_FENCED
  else if !s.domainOn dom then some ST_NOT_READY
  else if kind = 4 ∧ s.rd VERIF_SUP_MODE ≠ 1 then some ST_BUSY
  else if s.unitResets.any (fun u => u.kind == kind && u.inst == inst) then some ST_BUSY
  else none

/-- RST_UNIT_STAT of a RESET_UNIT that is over, and its completion (R574). -/
def State.unitEnds (s : State) (r : Nat) (p : Packet) (kind inst status stopped : Nat) : State :=
  let s := ((s.wr RST_UNIT_STAT_STATUS status).wr RST_UNIT_STAT_KIND kind).wr RST_UNIT_STAT_INSTANCE inst
  s.finishCmd r { p.result status with index := stopped }

/-- The forced reset of a unit's work (R235, R570 to R572). -/
def State.forceUnit (s : State) (u : UnitReset) : State :=
  let svus := unitSvus u.kind u.inst
  match u.kind with
  | 0 => (s.tearSvus svus).resetLofts svus
  | 1 => ((s.tearSvus svus).resetLofts svus).setCore u.inst { s.coreSt u.inst with stores := [] }
  | 2 => s.channelOff u.inst 1 ST_PEER_RESET
  | 3 => s.portLost u.inst
  | _ => s.setCore 25 { s.coreSt 25 with stores := [] }

/-- The drain of a unit begins (R233, R301, R572). -/
def State.drainUnit (s : State) (u : UnitReset) : State :=
  let svus := unitSvus u.kind u.inst
  match u.kind with
  | 0 => (s.drainSvus svus ST_ABORTED_RESET).resetLofts svus
  | 1 => ((s.drainSvus svus ST_ABORTED_RESET).resetLofts svus).stopTasks u.inst
  | 2 => s
  | 3 => s.setPort u.inst { s.port u.inst with draining := some (s.now + 40000) }
  | _ => s.stopTasks 25

/-- The outputs of a range below its stop are all written. -/
def Slice.drained (l : Slice) (c : Chain) : Bool :=
  let mine := fun e => decide (l.first ≤ e) && decide (e < l.fin)
  l.phase == .done || ((l.phase == .stopped || l.phase == .drain) && l.outs.isEmpty && c.flying.all (fun x => !mine x.elem)
    && c.atomFlying.all (fun x => !mine x.1))

/-- No task of a core is still to come to its stop (R379). -/
def State.tasksStopped (s : State) (c : Nat) : Bool := s.tasks.all (fun p => p.1 / 64 != c || !p.2.stopping)

/-- The drain of a unit has ended. -/
def State.unitDrained (s : State) (u : UnitReset) : Bool :=
  let svus := unitSvus u.kind u.inst
  let ranges := s.chains.all (fun c => c.phase == .ended || c.slices.all (fun l => !svus.contains l.svu || l.drained c))
  match u.kind with
  | 0 => ranges
  | 1 => ranges && (s.coreSt u.inst).stores.isEmpty && s.tasksStopped u.inst
  | 2 => (s.chan u.inst).queue.all (fun m => decide (u.began < m.arrived))
  | 3 => (s.port u.inst).replay.isEmpty || (s.port u.inst).draining.isNone
  | _ => (s.coreSt 25).stores.isEmpty && s.tasksStopped 25

/-- A channel's controller is reset: what a module reset would lose, but for what R572 keeps (log 28). -/
def State.channelReset (s : State) (c : Nat) : State :=
  let s := if s.rd (MEMC_STATUS_STATE c) = 1 then s else s.channelOff c 1 ST_NOT_READY
  let s := s.resetRegs (MEMC_PERF_CTL c) (MEMC_REFRESH_STALL c + 8)
  let s := (s.resetRegs (MEMC_ECC_CE c) (MEMC_LAST_ERR c + 8)).resetRegs (MEMC_INJECT c) (MEMC_INJECT c + 8)
  s.setChan c { s.chan c with windowLeft := 0, localOwed := 0, lastRemote := 1023, rowCe := [], symRows := [] }

/-- A port is reset: its frames, its time stamps and its watermark's flags are lost; counters stay (R525, R572). -/
def State.portReset (s : State) (p : Nat) : State :=
  let s := if s.portState p = 4 then s else s.portLost p
  let s := s.setPort p { s.port p with ethFill := 0, ethFrames := [], stamps := [] }
  let s := ((s.wr (JP_ETH_WM_LEVEL p) 0).wr (JP_ETH_WM_UP p) 0).wr (JP_ETH_WM_DOWN p) 0
  s.resetRegs (JP_PTP_INFO p) (JP_PTP_TIME p + 8)

/-- The unit itself is reset: what its row of R572 does not keep is lost. -/
def State.resetUnitNow (s : State) (u : UnitReset) : State :=
  let svus := unitSvus u.kind u.inst
  let clear := fun (s : State) => svus.foldl (fun s i =>
    let x := s.svu i
    s.setSvu i { x with ctxs := [], current := none, blockEnd := 0, leaf := [], table := [], walks := [], loftAcc := [], blkCredit := []
                        blkTurn := 0 }) s
  match u.kind with
  | 0 => clear s
  | 1 => ((clear s).coreOff u.inst).mbxReset u.inst 1
  | 2 => s.channelReset u.inst
  | 3 => s.portReset u.inst
  | _ => (s.coreOff 25).mbxReset 29 1

/-- A unit reset whose drain has ended, or that is forced, goes on to reset its unit. -/
def State.unitAdvance (s : State) (u : UnitReset) : State :=
  let s := s.resetUnitNow u
  { s with unitResets := s.unitResets.map (fun x => if x.kind = u.kind ∧ x.inst = u.inst then { x with drained := true } else x) }

/-- RESET_UNIT (R233, R235, R572, R573). -/
def execResetUnit (r : Ring) (s : State) : Host.Outcome State Fault Refusal :=
  .next (match s.started r.val 0xd0 with
    | none => s
    | some p =>
      let kind := bitsOf (p.w 0) 14 12
      let inst := bitsOf (p.w 1) 7 0
      let s := s.wr RST_UNIT_STAT_ESCALATED 0
      match s.unitRefused kind inst with
      | some st => s.unitEnds r.val p kind inst st 0
      | none =>
        let svus := unitSvus kind inst
        let u : UnitReset := { ring := r.val, seq := p.seq, kind := kind, inst := inst, forced := bitOf (p.w 0) 15, began := s.now
                               stopped := (s.rangesOn svus).length + (s.loftsOn svus).length }
        let s := svus.foldl (fun s i => s.setSvu i { s.svu i with draining := true }) s
        let s := { s with unitResets := s.unitResets ++ [u] }
        let s := s.setPacket r.val { p with held := true }
        let s := if kind = 1 then s.stopTasks inst else if kind = 4 then s.stopTasks 25 else s
        if u.forced then (s.forceUnit u).unitAdvance u else s.drainUnit u)

/-- DRAIN_DONE (R233, R572): the first drain that has ended. -/
def execDrainDone (s : State) : Host.Outcome State Fault Refusal :=
  .next (match s.unitResets.find? (fun u => !u.drained && s.unitDrained u) with
    | none => s
    | some u => s.unitAdvance u)

/-- DRAIN_TIMEOUT (R234, R574, R575): the first drain of SVUs or tasks that 40 µs did not end. -/
def execDrainTimeout (s : State) : Host.Outcome State Fault Refusal :=
  .next (match s.unitResets.find? (fun u => !u.drained && (decide (u.kind ≤ 1) || u.kind == 4) && !s.unitDrained u) with
    | none => s
    | some u =>
      let s := s.advanceTo (u.began + 40000)
      let s := (s.wr RST_UNIT_STAT_ESCALATED 1).record { src := srcRstLate }
      (s.forceUnit u).unitAdvance u)

/-- UNIT_RESET_DONE (R572, R574): the first unit whose reset has ended is back in service. -/
def execUnitResetDone (s : State) : Host.Outcome State Fault Refusal :=
  .next (match s.unitResets.find? (fun u => u.drained) with
    | none => s
    | some u =>
      let svus := unitSvus u.kind u.inst
      let s := svus.foldl (fun s i => s.setSvu i { s.svu i with draining := false }) s
      let s := if u.kind = 2 && s.rd (MEMC_STATUS_STATE u.inst) == 1 then s.setMemcState u.inst 2 else s
      let s := { s with unitResets := s.unitResets.filter (fun x => !(x.kind == u.kind && x.inst == u.inst)) }
      let s := s.count RST_UNIT_STAT_COUNT 1
      match (s.ring u.ring).running.find? (fun p => p.seq == u.seq) with
      | some p => s.unitEnds u.ring p u.kind u.inst ST_OK u.stopped
      | none => s)

/-- PORT_DRAIN_EXPIRY (R572): a draining port enters DOWN. -/
def execPortDrainExpiry (p : Port) (s : State) : Host.Outcome State Fault Refusal :=
  .next (match (s.port p.val).draining with
    | none => s
    | some t =>
      let s := s.advanceTo t
      let s := s.setPort p.val { s.port p.val with draining := none }
      s.portLost p.val)

/-! Thermal trip and loss of VIN (R661, R662, R665). -/

/-- THERMAL_TRIP (R661, R662): a junction at a temperature in °C. -/
def execThermalTrip (temp : Nat) (s : State) : Host.Outcome State Fault Refusal :=
  .next (if temp < 115 || s.power.off then s
  else
    let fault := s.pins.faultN
    let s := s.ripcord
    { s with power := { s.power with tripped := true, thermal := false, hot := temp }
             pins := { s.pins with thermtripN := false, faultN := fault } })

/-- VIN_LOSS (R665). -/
def execVinLoss (s : State) : Host.Outcome State Fault Refusal :=
  .next (
    let s := s.allDomainsOff
    { s with tasks := [], power := { s.power with off := true, vin := 0 }, pins := { pwrGood := false } })

end Sys2Proof.Machine
end

