-- ==== Sys2Proof/Machine/RingCmds.lean ====
section
/-! DEFINITION. The commands of a ring as their work is done: chains issued and resumed, fences, merges of images,
programs, moves, translation contexts, buffers, time, power, routes, partitions and logs (R92, R93, R195 to R199,
R222 to R224, R253, R267 to R269, R273 to R281, R413 to R416, R427, R433, R463 to R465, R502, R528, R545, R589, R598,
R612, R613). A command's row acts on the started packet of its ring; without one it has no effect. -/
namespace Sys2Proof.Machine
open Reg

/-- The work of the started command of a ring with a CMD. -/
def State.command (s : State) (r cmd : Nat) (f : Packet → State) : State :=
  match s.started r cmd with
  | none => s
  | some p => f p

/-- A command completes with a status and nothing else. -/
def State.finish (s : State) (r : Nat) (p : Packet) (status : Nat) : State := s.finishCmd r (p.result status)

/-! Chains (R92, R93, R110, R277 to R281). -/

/-- A descriptor with its START replaced (R279). -/
def withStart (d : List Nat) (k : Nat) : List Nat := d.set 3 (dWord d 3 / 2 ^ 48 * 2 ^ 48 + k % 2 ^ 48)

/-- A descriptor with its trap enables replaced (R277). -/
def withTraps (d : List Nat) (w0 : Nat) : List Nat := d.set 0 (mergeBits (dWord d 0) w0 (maskOf 24 20))

/-- A checked chain is made: it asks for its lift, or is denied at once (R536, R537). -/
def State.makeChain (s : State) (r : Nat) (p : Packet) (d : List Nat) (old : Option StopState) : State :=
  let c : Chain := { id := s.nextChain, issuer := .ring r p.seq, desc := d, ring := s.rd (XLAT_CTX_CFG_RING (dCtx d))
                     start0 := (old.map (fun x => x.start0)).getD (dStart d), start := dStart d
                     flags := (old.map (fun x => x.flags)).getD 0, keptAccs := (old.map (fun x => x.accs)).getD []
                     keptScans := (old.map (fun x => x.scans)).getD [], resumed := old }
  let s : State := { s with nextChain := s.nextChain + 1, chains := s.chains ++ [c] }
  let s := s.setPacket r { p with held := true }
  if s.denied c then s.denyChain c else s.requestLift { chain := c.id, since := s.now, timer := s.now }

/-- A descriptor is checked and its chain issued (R97, R110); `old` is the stop state that a CHAIN_RESUME names. -/
def State.issueChain (s : State) (r : Nat) (p : Packet) (d : List Nat) (old : Option StopState) : State :=
  let done := fun (s : State) st => s.finishCmd r { p.result st with
    tag := dTag d, index := dStart d, flags := (old.map (fun x => x.flags)).getD 0 }
  match checkDesc d (s.partSlices r) (s.on (XLAT_CTX_CFG_ENABLE (dCtx d))) with
  | some st => done s st
  | none =>
    let s := match old with
      | some x => s.setRing r { s.ring r with stops := (s.ring r).stops.filter (fun y => y.seq != x.seq) }
      | none => s
    if dStart d = dCount d then done s ST_OK else s.makeChain r p d old

/-- CHAIN (R92, R110). -/
def execChain (r : Ring) (s : State) : Host.Outcome State Fault Refusal :=
  .next (s.command r.val 0x10 (fun p => s.issueChain r.val p p.words none))

/-- CHAIN_REF (R93, R413). -/
def execChainRef (r : Ring) (s : State) : Host.Outcome State Fault Refusal :=
  .next (s.command r.val 0x11 (fun p =>
    if p.w 1 % 64 ≠ 0 then s.finish r.val p ST_BAD_PARAM else s.issueChain r.val p p.ref none))

/-- CHAIN_RESUME (R277 to R281). -/
def execChainResume (r : Ring) (s : State) : Host.Outcome State Fault Refusal :=
  .next (s.command r.val 0x12 (fun p =>
    match (s.ring r.val).stops.find? (fun x => x.seq == bitsOf (p.w 1) 31 0) with
    | none => s.finish r.val p ST_BAD_PARAM
    | some x =>
      if bitOf (p.w 0) 12 then
        (s.setRing r.val { s.ring r.val with stops := (s.ring r.val).stops.filter (fun y => y.seq != x.seq) }).finish r.val p ST_OK
      else
        let d := withStart x.desc x.index
        let d := if bitOf (p.w 0) 13 then withTraps d (p.w 0) else d
        s.issueChain r.val p d (some x)))

/-- The work of chains that have finished is written out and ends (R109, R195, R224). -/
def State.endChains (s : State) (r : Nat) : State :=
  (s.chains.filter (fun c => (c.finished || c.slicesDone) && (match c.issuer with
    | .ring q _ => q == r
    | .task .. => false))).foldl (fun s c => s.stepEnd c.id) s

/-! Life-cycle changes (R597, R614, R615): the reset that follows the completion. -/

/-- Registers that a field of which is kept over a module reset, back at their power-on values, but the fences, what fuses
hold, the audit log's counts and what flash holds (R614). -/
def State.returnKept (s : State) : State :=
  let keep := [FLT_FENCED_SVU 0, FLT_FENCED_SVU 1, FLT_FENCED_CH 0, FLT_FENCED_CH 1, FLT_FENCED_UNIT, LCS_STATE, LCS_FW, LCS_AUDIT,
    TIME_NOW, TIME_EPOCH]
  let node := s.rd JFAB_NODE_BOOT
  let flash := fun off => (List.range 96).any (fun c => off == (MEMC_WEAR_EQ_QMIN c).off || off == (MEMC_WEAR_PEAK_TEMP c).off
    || off == (MEMC_SPARE_ROW_FREE c).off)
  let s := { s with regs := s.regs.filter (fun p => keep.contains p.1 || flash p.1 || keptMask p.1 == 0) }
  let s := s.wr JFAB_NODE_BOOT node
  s.life.wear.foldl (fun (s : State) (x : Nat × Nat × Nat) => (rangeFrom (8 * x.1) 8).foldl (fun s c =>
    (s.wr (MEMC_WEAR_EQ_QMIN c) x.2.1).wr (MEMC_WEAR_PEAK_TEMP c) x.2.2) s) s

/-- The fault collector as a life-cycle change leaves it (R597). -/
def State.clearFaults (s : State) : State :=
  let s := { s with tlog := [], srcLast := [], srcMerged := [], srcTimer := [], srcQuiet := [], srcLeak := [] }
  let s := (s.wr FLT_STAT_NEXT_SEQ 0).setReg TLOG_STAT 0
  let s := { s with regs := s.regs.filter (fun p => !(decide (FLT_HIST 0 0 0 ≤ p.1) && decide (p.1 < 0x50000))) }
  (List.range 640).foldl (fun s n => if tabFind s.regs (FLT_SRC n) = none then s
    else (s.wr (FLT_SRC_LEAK n) 0).wr (FLT_SRC_CLASS n) (srcDefault n)) s

/-- The module reset of a life-cycle change, once its completion is posted (R615). -/
def State.lifeReset (s : State) (r : Nat) : State :=
  if s.life.resetDue = some r ∧ (s.ring r).order = [] then
    let s := { s with life := { s.life with resetDue := none } }
    let s := if s.lcs = 3 then s.returnKept else s
    (s.moduleReset 5).clearFaults
  else s

/-- COMPLETION_POST (R213, R224, R418 to R420, R426, R615). -/
def execCompletionPost (r : Ring) (hostOk : Bool) (s : State) : Host.Outcome State Fault Refusal :=
  .next ((((s.endChains r.val).postNext r.val hostOk).endRingReset r.val State.freeAllOf).lifeReset r.val)

/-! The dispatcher. -/

/-- In HOLD, a ring whose next command waits for the power state begins the return to RUN (R553). -/
def State.autoWake (s : State) : State :=
  if s.rd PWR_STATE_STATE == 1 && s.on PWR_CFG_AUTO_WAKE
      && (List.range 64).any (fun r => (s.nextReady r).any (fun p => !s.powerLets p)) then s.requestState 0 false
  else s

/-- DISPATCH_DECISION (R432, R433, R553). -/
def execDispatchDecision (s : State) : Host.Outcome State Fault Refusal := .next s.dispatchOne.autoWake

/-! Commands that complete at once. -/

/-- NOP (R413). -/
def execNop (r : Ring) (s : State) : Host.Outcome State Fault Refusal :=
  .next (s.command r.val 0x01 (fun p => s.finish r.val p ST_OK))

/-- The commands that a FENCE counts on ring `n`: those announced before `t` (R222) have completed or been discarded. -/
def State.fenceDone (s : State) (n t : Nat) : Bool :=
  let q := s.ring n
  let behind := fun fin => !cntLe fin t
  q.read.all (fun p => behind p.fin) && q.order.all (fun x => behind x.2)
    && (cntLe t (s.rd (CMDR_PTR_HEAD n)) || (match q.short with
      | some fin => behind fin
      | none => false))

/-- The doorbells that came before the one that announced an entry of a ring. -/
def State.bellsBefore (s : State) (r fin : Nat) : List (Nat × Nat) :=
  s.bells.takeWhile (fun b => !(b.1 == r && cntLe fin b.2))

/-- FENCE (R222). -/
def execFence (r : Ring) (s : State) : Host.Outcome State Fault Refusal :=
  .next (s.command r.val 0x02 (fun p =>
    let before := s.bellsBefore r.val p.fin
    let over' := (setBits 64 (p.w 1)).all (fun n => n == r.val || (match (before.filter (fun b => b.1 == n)).getLast? with
      | none => true
      | some b => s.fenceDone n b.2))
    if over' then s.finish r.val p ST_OK else s))

/-! ACC_MERGE (R195 to R199). -/

/-- The parameters of an ACC_MERGE that R196 accepts before it reads. -/
def mergeParamsOk (p : Packet) : Bool :=
  let n := bitsOf (p.w 3) 10 0
  let img := bitOf (p.w 0) 12
  let val := bitOf (p.w 0) 13
  let ot := etypeOf (bitsOf (p.w 0) 19 16)
  decide (1 ≤ n) && decide (n ≤ 1024) && (img || val) && (!img || p.w 4 % 64 == 0)
    && (!val || (decide (bitsOf (p.w 0) 27 25 ≤ 4) && (match ot with
      | some t => p.w 5 % t.size == 0
      | none => false)))

/-- OTYPE is accepted for a kind of image by the table of group 0x6. -/
def mergeTypeOk (x : Acc) (ot : EType) : Bool :=
  match x.kind with
  | .sum => ot.isFP || ot.isInt
  | .cnt => ot.isInt
  | _ => etypeOf x.itype == some ot

/-- The merged image of the images read, in list order; `none` when R196 refuses one. -/
def mergeImages : List (Option Acc) → Option Acc
  | [] => none
  | none :: _ => none
  | some a :: rest => rest.foldl (fun m x =>
      match m, x with
      | some m, some y => if y.kind = m.kind ∧ y.itype = m.itype then some (m.merge y) else none
      | _, _ => none) (some a)

/-- N of an ACC_MERGE, the words it has read standing in its packet: the list's, then each image's 80. -/
def mergeCount (p : Packet) : Nat := bitsOf (p.w 3) 10 0

/-- Where an ACC_MERGE reads next, and how many bytes. -/
def mergeNext (p : Packet) : Option (Nat × Nat) :=
  let n := mergeCount p
  let k := (p.ref.length - n) / 80
  if p.ref.length < n then some (p.w 1, 8 * n) else if k < n then some (p.ref.getD k 0, 640) else none

/-- The reads of an ACC_MERGE that are still due, in order; the words it has stay in its packet while it waits (R196). -/
def State.mergeReads (s : State) (w : Walker) (p : Packet) : Nat → State × Packet × Got
  | 0 => (s, p, .wait)
  | k + 1 =>
    if (p.ref.take (mergeCount p)).any (fun a => a % 64 != 0) then (s, p, .fail ST_BAD_PARAM 0)
    else
      match mergeNext p with
      | none => (s, p, .bytes [])
      | some (va, len) =>
        match s.vaRead w ringRequester va len with
        | (s, .bytes bs) => (s.rbufClear w.agent).mergeReads w { p with ref := p.ref ++ wordsOf bs } k
        | (s, g) => (s, p, g)

/-- The merged image of an ACC_MERGE whose reads are over, when R196 accepts the images and OTYPE. -/
def mergedOf (p : Packet) : Option Acc :=
  let n := mergeCount p
  let image := fun k => accOfBytes (((p.ref.drop (n + 80 * k)).take 80).flatMap (leBytes 8))
  (mergeImages ((List.range n).map image)).bind (fun x =>
    let typeOk := match etypeOf (bitsOf (p.w 0) 19 16) with
      | some t => mergeTypeOk x t
      | none => false
    if x.overflows || (bitOf (p.w 0) 13 && !typeOk) then none else some x)

/-- The value that an ACC_MERGE extracts, with its flags, and the writes that it does: the image first (R197). -/
def mergeValue (p : Packet) (x : Acc) : Nat × Nat :=
  if bitOf (p.w 0) 13 then
    extract x ((etypeOf (bitsOf (p.w 0) 19 16)).getD .fp64) ((rmodeOf (bitsOf (p.w 0) 27 25)).getD .rne)
  else (0, 0)
def mergeOut (p : Packet) (x : Acc) : List (Nat × List Byte) :=
  (if bitOf (p.w 0) 12 then [(p.w 4, x.bytes)] else [])
    ++ (if bitOf (p.w 0) 13 then [(p.w 5, leBytes ((etypeOf (bitsOf (p.w 0) 19 16)).getD .fp64).size (mergeValue p x).1)] else [])

/-- The writes of an ACC_MERGE that are still due; the first failure ends it (R197). -/
def State.mergeWrites (s : State) (r : Nat) (w : Walker) (p : Packet) (x : Acc) : State :=
  let (s, k, g) := ((mergeOut p x).drop p.at0).foldl (fun (a : State × Nat × Got) o =>
    match a with
    | (s, k, .bytes _) =>
      match s.vaWrite { w with acc := .write } ringRequester o.1 o.2 with
      | (s, .bytes _) => (s.rbufClear w.agent, k + 1, .bytes [])
      | (s, g) => (s, k, g)
    | a => a) (s, p.at0, .bytes [])
  match g with
  | .wait => s.setPacket r { p with at0 := k }
  | g => (s.rbufClear w.agent).finishCmd r { p.result g.status with flags := (mergeValue p x).2 }

/-- ACC_MERGE (R196, R197). Its parameters are checked first, then the list is read, then the alignment of the images' addresses is
checked, then the images are read in list order, then their contents, the carry and OTYPE are checked; where several conditions of R196
hold, the first in this order gives the status, the model's choice (log 67). -/
def execAccMerge (r : Ring) (s : State) : Host.Outcome State Fault Refusal :=
  .next (match (s.started r.val 0x13).orElse (fun _ => s.begun r.val 0x13) with
    | none => s
    | some p =>
      let w : Walker := { agent := agentRing r.val, ctx := bitsOf (p.w 0) 55 48, ring := s.rd (XLAT_CTX_CFG_RING (bitsOf (p.w 0) 55 48))
                          acc := .read, who := some ringRequester }
      let done := fun (s : State) p st => (s.rbufClear w.agent).finish r.val p st
      match p.merged with
      | some x => s.mergeWrites r.val w p x
      | none =>
        if !mergeParamsOk p then s.finish r.val p ST_BAD_PARAM
        else
          match s.mergeReads w { p with held := true } (mergeCount p + 2) with
          | (s, p, .bytes _) =>
            match mergedOf p with
            | none => done s p ST_BAD_PARAM
            | some x => s.mergeWrites r.val w { p with merged := some x } x
          | (s, p, .wait) => s.setPacket r.val p
          | (s, p, g) => done s p g.status)

/-! Programs (R415, R416). -/

/-- PROG_LAUNCH (R415): bad parameters are found before a task that is not OFF, and that before a fenced cluster (log 25). -/
def execProgLaunch (r : Ring) (s : State) : Host.Outcome State Fault Refusal :=
  .next (s.command r.val 0x20 (fun p =>
    let k := bitsOf (p.w 0) 44 40
    let t := bitsOf (p.w 0) 35 32
    let ring := bitsOf (p.w 0) 13 12
    let sb := p.w 3
    let sl := p.w 4
    if 23 < k ∨ ring < 2 ∨ sb % 8 ≠ 0 ∨ sl % 8 ≠ 0 ∨ (sb : Int) - 24 < sl then s.finish r.val p ST_BAD_PARAM
    else if (s.task k t).st ≠ .off then s.finish r.val p ST_BUSY
    else if s.clusFenced k then s.finish r.val p ST_FENCED
    else
      let x := s.task k t
      let arg := fun (i : Nat) => ({ space := ring, addr := sb - 8 * (i + 1), v := BitVec.ofNat 64 (p.w (5 + i)) } : StackEntry)
      let y : TaskRegs := { st := .run, pc := p.w 1, sp := sb - 24, ring := ring, ctx := bitsOf (p.w 0) 55 48
                            rsb := x.rsb.set ring sb, rsl := x.rsl.set ring sl, cached := [arg 2, arg 1, arg 0]
                            src := x.src, dst := x.dst, cnt := x.cnt, prio := 0x55555555 }
      (s.setTask k t y).finish r.val p ST_OK))

/-- PROG_SIGNAL (R416). -/
def execProgSignal (r : Ring) (s : State) : Host.Outcome State Fault Refusal :=
  .next (s.command r.val 0x21 (fun p =>
    let k := bitsOf (p.w 0) 44 40
    let t := bitsOf (p.w 0) 35 32
    if 23 < k then s.finish r.val p ST_BAD_PARAM
    else if s.clusFenced k then s.finish r.val p ST_FENCED
    else if (s.task k t).st = .off then s.finish r.val p ST_NOT_READY
    else (s.raiseLine k t (bitsOf (p.w 0) 15 12)).finish r.val p ST_OK))

/-! Moves (R414). -/

/-- COPY (R414). -/
def execCopy (r : Ring) (s : State) : Host.Outcome State Fault Refusal :=
  .next (s.command r.val 0x30 (fun p =>
    let n := bitsOf (p.w 4) 47 0
    if n = 0 ∨ overlap (p.w 1) (p.w 3) n then s.finish r.val p ST_BAD_PARAM
    else s.engineMove r.val p (p.w 1) (p.w 3) n (bitsOf (p.w 0) 55 48)))

/-- FILL (R414). -/
def execFill (r : Ring) (s : State) : Host.Outcome State Fault Refusal :=
  .next (s.command r.val 0x31 (fun p =>
    let n := bitsOf (p.w 4) 47 0
    if n = 0 ∨ n % 8 ≠ 0 ∨ p.w 1 % 8 ≠ 0 then s.finish r.val p ST_BAD_PARAM
    else s.engineMove r.val p (p.w 3) (p.w 1) (2 ^ 60 + n) (bitsOf (p.w 0) 55 48)))

/-! Translation (R253, R267 to R269). -/

/-- The scope of an invalidation command: CTX and PAGES as its packet holds them. -/
def invScope (p : Packet) : InvScope :=
  let c := bitsOf (p.w 0) 55 48
  if p.cmd = 0x40 then .ctx c
  else
    match bitsOf (p.w 0) 13 12 with
    | 0 => .all
    | 1 => .ctx c
    | _ => .range c (p.w 1) (4096 * bitsOf (p.w 3) 47 0)

/-- An invalidation drops its entries; `at0` keeps the moment (R267, R268). -/
def State.beginInval (s : State) (r : Nat) (p : Packet) : State :=
  (s.invalidate (invScope p)).setPacket r { p with held := true, at0 := s.now }

/-- XLAT_CTX_SET (R253). -/
def execXlatCtxSet (r : Ring) (s : State) : Host.Outcome State Fault Refusal :=
  .next (s.command r.val 0x40 (fun p =>
    let c := bitsOf (p.w 0) 55 48
    let root := p.w 1
    if root % 4096 ≠ 0 ∨ 2 ^ 52 ≤ root then s.finish r.val p ST_BAD_PARAM
    else
      let s := s.wr (XLAT_CTX_ROOT_ROOT c) (root / 4096)
      let s := s.wr (XLAT_CTX_CFG_RING c) (bitsOf (p.w 0) 13 12)
      let s := s.wr (XLAT_CTX_CFG_REMOTE_OK c) (bitsOf (p.w 0) 14 14)
      (s.wr (XLAT_CTX_CFG_ENABLE c) (bitsOf (p.w 0) 17 17)).beginInval r.val p))

/-- XLAT_INVAL (R267). -/
def execXlatInval (r : Ring) (s : State) : Host.Outcome State Fault Refusal :=
  .next (s.command r.val 0x41 (fun p =>
    let scope := bitsOf (p.w 0) 13 12
    let pages := bitsOf (p.w 3) 47 0
    if scope = 3 ∨ (scope = 2 ∧ (p.w 1 % 4096 ≠ 0 ∨ pages = 0 ∨ 2 ^ 57 < p.w 1 + 4096 * pages)) then s.finish r.val p ST_BAD_PARAM
    else s.beginInval r.val p))

/-- Every access translated before a moment has been performed or discarded: at the channels and banks, on the fabric, in the
output spools, of the store buffers and of SUP_A's check buffer (R269). -/
def State.settledSince (s : State) (t : Nat) (x : InvScope) : Bool :=
  let old := fun m : MemReq => m.src.isNone && decide (m.arrived ≤ t)
  s.chans.all (fun p => p.2.queue.all (fun m => !old m))
    && s.svus.all (fun p => p.2.bankQ.all (fun b => b.2.all (fun m => !old m)))
    && s.freqs.all (fun q => decide (t < q.2.sent))
    && s.chains.all (fun c => !x.ofCtx (dCtx c.desc) || c.slices.all (fun l => l.outs.isEmpty && l.hold.isEmpty))
    && s.cores.all (fun p => p.2.stores.isEmpty) && s.sup.held.isEmpty

/-- XLAT_INVAL_COMPLETE (R253, R269). -/
def execXlatInvalComplete (r : Ring) (s : State) : Host.Outcome State Fault Refusal :=
  .next (match (s.begun r.val 0x41).orElse (fun _ => s.begun r.val 0x40) with
    | none => s
    | some p => if s.settledSince p.at0 (invScope p) then s.finish r.val p ST_OK else s)

/-! Buffers (R463 to R465). -/

/-- BUF_ALLOC (R463). -/
def execBufAlloc (r : Ring) (s : State) : Host.Outcome State Fault Refusal :=
  .next (s.command r.val 0x50 (fun p =>
    match s.poolTake (bitsOf (p.w 0) 17 12) r.val with
    | (s, .ok token) => s.finishCmd r.val { p.result ST_OK with reply0 := token }
    | (s, .error st) => s.finish r.val p st))

/-- BUF_FREE (R464, R465). -/
def execBufFree (r : Ring) (s : State) : Host.Outcome State Fault Refusal :=
  .next (s.command r.val 0x51 (fun p =>
    let (s, st) := s.freeToken (bitsOf (p.w 1) 31 0) r.val
    s.finish r.val p st))

/-! Time (R612, R613). -/

/-- Device time set at once; a slew in progress ends. -/
def State.setTime (s : State) (t : Nat) : State :=
  let s := ((s.wr TIME_NOW_NS t).wr TIME_EPOCH_SLEWING 0).wr TIME_SLEW_AHEAD 0
  { s with life := { s.life with slewLeft := 0 } }

/-- Device time runs slower or faster by 500 ppm until an offset in ns is absorbed (R517, R612). -/
def State.slewTime (s : State) (ahead : Int) : State :=
  let s := { s with life := { s.life with slewLeft := 2000 * ahead } }
  (s.wr TIME_EPOCH_SLEWING 1).wr TIME_SLEW_AHEAD (if 0 < ahead then ahead.toNat else 0)

/-- TIME_SET (R612, R613). -/
def execTimeSet (r : Ring) (s : State) : Host.Outcome State Fault Refusal :=
  .next (s.command r.val 0x60 (fun p =>
    let d := s.dev
    let t := p.w 1
    if bitOf (p.w 0) 12 then
      let s := s.audit 8 ST_OK (s.ringActor r.val) d t 0
      let e := (s.rd TIME_EPOCH_EPOCH + 1) % 65536
      let s : State := { s.setTime t with life := { s.life with slewLeft := 0, epoch := e } }
      (s.wr TIME_EPOCH_EPOCH e).finishCmd r.val { p.result ST_OK with reply0 := d }
    else if 2 ≤ s.rd JFAB_TIME_SOURCE then s.finishCmd r.val { p.result ST_BUSY with reply0 := d }
    else
      let s := if d ≤ t then s.setTime t else s.slewTime ((d - t : Nat) : Int)
      s.finishCmd r.val { p.result ST_OK with reply0 := d }))

/-- TIME_GET (R413). -/
def execTimeGet (r : Ring) (s : State) : Host.Outcome State Fault Refusal :=
  .next (s.command r.val 0x61 (fun p =>
    s.finishCmd r.val { p.result ST_OK with reply0 := s.dev, reply1 := s.rd TIME_EPOCH_EPOCH }))

/-! Power (R528, R545). -/

/-- POWER_CAP (R545). -/
def execPowerCap (r : Ring) (s : State) : Host.Outcome State Fault Refusal :=
  .next (s.command r.val 0x70 (fun p =>
    let (s, st) := s.setCap PWR_CAP_OPERATOR (bitsOf (p.w 1) 15 0)
    s.finishCmd r.val { p.result st with reply0 := s.capInEffect }))

/-- ENVELOPE_QUERY (R528). -/
def execEnvelopeQuery (r : Ring) (s : State) : Host.Outcome State Fault Refusal :=
  .next (s.command r.val 0x71 (fun p =>
    s.finishCmd r.val { p.result ST_OK with reply0 := s.envelope, reply1 := s.level, reply2 := s.rd PWR_INPUT_VIN }))

/-! Routes (R247, R502). -/

/-- A pair of route words that R502 accepts. -/
def routeOk (pri alt : Nat) : Bool :=
  let bits := fun w => (setBits 16 w).length
  pri &&& (2 ^ 63 + maskOf 59 56 + maskOf 15 0) == pri && alt &&& maskOf 15 0 == alt && decide (bits pri ≤ 4)
    && decide (bits alt ≤ 4) && (!bitOf pri 63 || bitsOf pri 59 56 != 0)

/-- A route entry set: new requests to the node wait while older ones are outstanding (R247). -/
def State.setRoute (s : State) (n pri alt : Nat) : State :=
  ((s.setReg (JFAB_ROUTE_PRI n) (BitVec.ofNat 64 pri)).setReg (JFAB_ROUTE_ALT n) (BitVec.ofNat 64 alt)).holdRoute n

/-- FABRIC_ROUTE_SET (R502, R625). -/
def execFabricRouteSet (r : Ring) (s : State) : Host.Outcome State Fault Refusal :=
  .next (s.command r.val 0x80 (fun p =>
    let n := bitsOf (p.w 0) 21 12
    if !routeOk (p.w 1) (p.w 3) then s.finish r.val p ST_BAD_PARAM
    else ((s.audit 10 ST_OK (s.ringActor r.val) (JFAB_ROUTE_PRI n) (p.w 1) 0).setRoute n (p.w 1) (p.w 3)).finish r.val p ST_OK))

/-! Partitions (R427). -/

/-- PARTITION (R427). -/
def execPartition (r : Ring) (s : State) : Host.Outcome State Fault Refusal :=
  .next (s.command r.val 0x90 (fun p =>
    let k := bitsOf (p.w 0) 19 16
    let n := bitsOf (p.w 0) 38 32
    let map := (List.range 96).map (fun i => bitsOf (p.w (3 + i / 8)) (8 * (i % 8) + 7) (8 * (i % 8)))
    let used := map.take n
    if n = 0 ∨ 96 < n ∨ used.any (fun x => decide (96 ≤ x)) ∨ used.dedup ≠ used ∨ (map.drop n).any (fun x => x != 0) then
      s.finish r.val p ST_BAD_PARAM
    else
      let s := (List.range 12).foldl (fun s w => s.setReg (CMDR_PART_MAP k w) (BitVec.ofNat 64 (p.w (3 + w)))) (s.wr (CMDR_PART_INFO_S k) n)
      let s := (setBits 64 (p.w 1)).foldl (fun s q => s.wr (CMDR_CFG_PART q) k) s
      s.finish r.val p ST_OK))

/-! Logs (R598, R626). -/

/-- The records that a LOG_READ copies, each as its words, packed. -/
def State.logWords (s : State) (audit : Bool) (first count : Nat) : List Nat :=
  let hit := fun seq => decide (cnt seq first < count)
  if audit then (s.life.audit.filter (fun w => hit (w.getD 1 0 % 2 ^ 32))).flatten
  else (s.tlog.filter (fun x => hit x.seq)).flatMap FltRec.words

/-- A LOG_READ copies its records one after another: the number written whole, and a failure or a wait. -/
def State.logCopy (s : State) (r : Nat) (host : Bool) (dst size : Nat) (recs : List (List Byte)) : Nat → State × Nat × Got
  | k =>
    (recs.drop k).foldl (fun (a : State × Nat × Got) bs =>
      match a with
      | (s, k, .bytes _) =>
        if host then
          if s.busMaster then (s.emit (.hostWrite (dst + size * k) bs), k + 1, .bytes []) else (s, k, .wait)
        else
          match s.bmWrite (agentRing r) ringRequester (dst + size * k) bs false with
          | (s, .bytes _) => (s, k + 1, .bytes [])
          | (s, g) => (s, k, g)
      | x => x) (s, k, .bytes [])

/-- LOG_READ (R598): the records held when the command starts stay in the packet while the copy waits. -/
def execLogRead (r : Ring) (s : State) : Host.Outcome State Fault Refusal :=
  .next (match (s.started r.val 0xa0).orElse (fun _ => s.begun r.val 0xa0) with
    | none => s
    | some p =>
      let audit := bitOf (p.w 0) 12
      let count := bitsOf (p.w 4) 16 0
      let size := if audit then 64 else 32
      if count = 0 ∨ (if audit then 65536 else 8192) < count ∨ p.w 1 % size ≠ 0 then s.finish r.val p ST_BAD_PARAM
      else
        let s := if audit && !p.held then s.flashTouch else s
        let p := if p.held then p else { p with held := true, ref := s.logWords audit (bitsOf (p.w 3) 31 0) count }
        let recs := (List.range (8 * p.ref.length / size)).map (fun k => ((p.ref.drop (size / 8 * k)).take (size / 8)).flatMap (leBytes 8))
        match s.logCopy r.val (bitOf (p.w 0) 16) (p.w 1) size recs p.at0 with
        | (s, k, .wait) => s.setPacket r.val { p with at0 := k }
        | (s, k, g) => (s.rbufClear (agentRing r.val)).finishCmd r.val { p.result g.status with reply0 := k })

/-! Acknowledgements (R589). -/

/-- What an acknowledgement of a source with a SEQ does: its status, and the cleared source. -/
def State.acknowledge (s : State) (src seq : Nat) (fw : Bool) : State × Nat :=
  let cls := s.rd (FLT_SRC_PENDING src)
  match tabFind s.srcTimer src with
  | none => (s, ST_BAD_PARAM)
  | some (_, x) =>
    if 640 ≤ src ∨ cls = 0 ∨ seqEarlier seq x.seq then (s, ST_BAD_PARAM)
    else if (fw && cls == 2) || (!fw && cls == 1) then (s, ST_NO_RIGHT)
    else
      let s := s.setPending src 0
      ({ s with srcTimer := tabDel s.srcTimer src }, ST_OK)

/-- FAULT_ACK (R589). -/
def execFaultAck (r : Ring) (s : State) : Host.Outcome State Fault Refusal :=
  .next (s.command r.val 0xe0 (fun p =>
    let (s, st) := s.acknowledge (bitsOf (p.w 1) 9 0) (bitsOf (p.w 3) 31 0) (!s.hostRing r.val)
    s.finish r.val p st))

end Sys2Proof.Machine
end

