-- ==== Sys2Proof/Machine/Roles.lean ====
section
/-! DEFINITION. Sessions as they open, the life cycle and firmware update (R605, R614 to R625). -/
namespace Sys2Proof.Machine
open Reg

/-! Sessions (R621 to R624). A path is a ring, or 64 for the Gloley port. -/

/-- Who asks on a path, in an audit record, with a session identifier. -/
def pathActor (path role sid : Nat) : Actor :=
  { session := sid, role := role, gloley := path == 64, ring := if path = 64 then 0 else path }

/-- A path is locked after eight failed responses (R623). -/
def State.pathLocked (s : State) (path : Nat) : Bool :=
  match tabFind s.life.locked path with
  | some t => decide (s.now < t)
  | none => false

/-- The current challenge of a path for a role: session identifier and block (R622). -/
def State.currentChallenge (s : State) (path role : Nat) : Option (Nat × Nat) :=
  match tabFind s.life.challenges path with
  | some (r, sid, at', block) => if r = role ∧ s.now < at' + 10000000000 then some (sid, block) else none
  | none => none

/-- The slots that hold no session. -/
def State.freeSlots (s : State) : List Nat := (List.range 4).filter (fun i => !s.on (LCS_SESSION_ACTIVE i))

/-- Why a step of a session opens nothing before its message is looked at (R623). -/
def State.authRefused (s : State) (path role step len : Nat) : Option Nat :=
  if 2 < role ∨ 2 < step ∨ (step = 0 ∧ len ≠ 64) ∨ (step = 1 ∧ len ≠ 96) then some ST_BAD_PARAM
  else if step = 2 then none
  else if (role = 2 ∧ s.lcs ≠ 0 ∧ s.lcs ≠ 3) ∨ (role < 2 ∧ s.life.keysErased) then some ST_NO_RIGHT
  else if (step = 1 ∧ (s.currentChallenge path role).isNone) ∨ s.freeSlots = [] ∨ s.pathLocked path then some ST_BUSY
  else none

/-- A refused session is audited (R625). -/
def State.authFail (s : State) (path role sid status : Nat) : State := s.audit 2 status (pathActor path role sid) 0 0 0

/-- The next session identifier and the 64 bytes of a challenge as a number; its nonce is a free value (R622). -/
def State.newChallenge (s : State) (role : Nat) : State × Nat × Nat :=
  let (nonce, s) := s.fresh
  let sid := s.life.nextSession
  let s : State := { s with life := { s.life with nextSession := if sid + 1 = 2 ^ 32 then 1 else sid + 1 } }
  (s, sid, nonce % 2 ^ 384 + s.rd IDENT_SERIAL_SERIAL * 2 ^ 384 + s.node * 2 ^ 448 + role * 2 ^ 464 + s.lcs * 2 ^ 472 + sid * 2 ^ 480)

/-- A challenge whose block has been delivered is current. -/
def State.setChallenge (s : State) (path role sid block : Nat) : State :=
  { s with life := { s.life with challenges := tabPut s.life.challenges path (role, sid, s.now, block) } }

/-- A session opens in the first free slot (R622, R625). -/
def State.openSession (s : State) (path role sid : Nat) : State :=
  match s.freeSlots with
  | [] => s
  | i :: _ =>
    let s := s.audit 1 ST_OK (pathActor path role sid) 0 0 0
    let w := 2 ^ 63 + role * 2 ^ 61 + b2n (path == 64) * 2 ^ 60 + (if path = 64 then 0 else path) * 2 ^ 54 + sid
    let s := s.setReg (LCS_SESSION i) (BitVec.ofNat 64 w)
    { s with life := { s.life with used := tabPut s.life.used i s.now, failures := tabDel s.life.failures path } }

/-- A failed response: the eighth in a row locks the path for 60 s (R623). -/
def State.failResponse (s : State) (path role sid : Nat) : State :=
  let s := s.authFail path role sid ST_NO_RIGHT
  let n := tabGet s.life.failures 0 path + 1
  if n = 8 then
    { s with life := { s.life with failures := tabDel s.life.failures path, locked := tabPut s.life.locked path (s.now + 60000000000) } }
  else { s with life := { s.life with failures := tabPut s.life.failures path n } }

/-- The response to the current challenge of a path: a status and the session identifier (R622, R623). -/
def State.answerChallenge (s : State) (path role : Nat) (sig : List Byte) : State × Nat × Nat :=
  match s.currentChallenge path role with
  | none => (s, ST_BUSY, 0)
  | some (sid, block) =>
    let s : State := { s with life := { s.life with challenges := tabDel s.life.challenges path } }
    if Config.ecdsaVerify (Config.publicKey (1 + role)) (Config.sha384 (leBytes 64 block)) (beNat sig) then
      (s.openSession path role sid, ST_OK, sid)
    else (s.failResponse path role sid, ST_NO_RIGHT, 0)

/-- The path's session of a role ends (CLOSE of R622). -/
def State.closeSession (s : State) (path role : Nat) : State :=
  s.endSessions (fun s i => s.on (LCS_SESSION_ACTIVE i) && s.sessionPath i == path && s.rd (LCS_SESSION_ROLE i) == role)

/-- The CHALLENGE step of a ring: its block goes to the message buffer. -/
def State.ringChallenge (s : State) (r : Nat) (p : Packet) (role : Nat) : State :=
  let (s, sid, block) := if p.held then (s, p.at1, p.at0) else s.newChallenge role
  let p := { p with held := true, at0 := block, at1 := sid }
  let ok := fun (s : State) => (s.setChallenge r role sid block).finishCmd r { p.result ST_OK with reply0 := sid }
  if bitOf (p.w 0) 16 then
    if s.busMaster then ok (s.emit (.hostWrite (p.w 1) (leBytes 64 block))) else s.setPacket r p
  else
    match s.bmWrite (agentRing r) ringRequester (p.w 1) (leBytes 64 block) false with
    | (s, .wait) => s.setPacket r p
    | (s, .bytes _) => ok (s.rbufClear (agentRing r))
    | (s, g) => (s.rbufClear (agentRing r)).finish r p g.status

/-- The RESPONSE step of a ring: its signature is read from the message buffer. -/
def State.ringResponse (s : State) (r : Nat) (p : Packet) (role : Nat) (host : HostData) : State :=
  let got := fun (s : State) (bs : List Byte) =>
    let (s, st, sid) := s.answerChallenge r role bs
    s.finishCmd r { p.result st with reply0 := sid }
  if bitOf (p.w 0) 16 then
    if !s.busMaster then s
    else
      match host with
      | .fail st => (s.emit (.hostRead (p.w 1) 96)).finish r p st
      | .ok bs => if bs.length = 96 then got (s.emit (.hostRead (p.w 1) 96)) bs else s
  else
    match s.bmRead (agentRing r) ringRequester (p.w 1) 96 with
    | (s, .wait) => s
    | (s, .bytes bs) => got (s.rbufClear (agentRing r)) bs
    | (s, g) => (s.rbufClear (agentRing r)).finish r p g.status

/-- ROLE_AUTH (R622, R623): `host` is what host memory answers for the message buffer of a RESPONSE. -/
def execRoleAuth (r : Ring) (host : HostData) (s : State) : Host.Outcome State Fault Refusal :=
  .next (match (s.started r.val 0xb0).orElse (fun _ => s.begun r.val 0xb0) with
    | none => s
    | some p =>
      let role := bitsOf (p.w 0) 13 12
      let step := bitsOf (p.w 0) 15 14
      match (if p.held then none else s.authRefused r.val role step (bitsOf (p.w 3) 15 0)) with
      | some st => (s.authFail r.val role 0 st).finish r.val p st
      | none =>
        if step = 0 then s.ringChallenge r.val p role
        else if step = 1 then s.ringResponse r.val p role host
        else (s.closeSession r.val role).finish r.val p ST_OK)

/-- CHALLENGE_EXPIRY (R622): the challenge issued first. -/
def execChallengeExpiry (s : State) : Host.Outcome State Fault Refusal :=
  .next (match leastBy (fun x : Nat × Nat × Nat × Nat × Nat => x.2.2.2.1) s.life.challenges with
    | none => s
    | some x =>
      let s := s.advanceTo (x.2.2.2.1 + 10000000000)
      { s with life := { s.life with challenges := tabDel s.life.challenges x.1 } })

/-- PATH_UNLOCK (R623). -/
def execPathUnlock (path : Nat) (s : State) : Host.Outcome State Fault Refusal :=
  .next (match tabFind s.life.locked path with
    | none => s
    | some t =>
      let s := s.advanceTo t
      { s with life := { s.life with locked := tabDel s.life.locked path } })

/-- SESSION_IDLE_EXPIRY (R624): session slot `i`. -/
def execSessionIdleExpiry (i : Nat) (s : State) : Host.Outcome State Fault Refusal :=
  .next (if 4 ≤ i ∨ !s.on (LCS_SESSION_ACTIVE i) then s
  else (s.advanceTo (tabGet s.life.used s.now i + s.rd LCS_CFG_IDLE * 1000000000)).endSession i)

/-! The life cycle (R614, R615). -/

/-- The role that a row of R614 requires; `none` where there is no row. -/
def lifeRole (old new : Nat) : Option Nat :=
  match old, new with
  | 0, 1 => some 2
  | 1, 2 => some 1
  | 2, 1 => some 1
  | 1, 3 => some 1
  | 3, 1 => some 2
  | 3, 4 => some 2
  | _, _ => none

/-- The further effects of a change to a state, but for the fields that return to their power-on values (R614); a module is
provisioned with role keys (R621). -/
def State.lifeEffects (s : State) (new : Nat) : State :=
  if new = 1 then { s with life := { s.life with keysErased := false } }
  else if new = 3 then { s with life := { s.life with keysErased := true } }
  else if new = 4 then ((s.flashTouch).flashErase 0 bankSize).flashErase bankSize bankSize
  else s

/-- The transition is burnt (R614). -/
def State.burn (s : State) (new : Nat) : State := (s.wr LCS_STATE_STATE new).wr LCS_STATE_LEFT (s.rd LCS_STATE_LEFT - 1)

/-- LIFECYCLE (R614, R615): the module reset follows when the completion is posted. -/
def execLifecycle (r : Ring) (s : State) : Host.Outcome State Fault Refusal :=
  .next (s.command r.val 0xb1 (fun p =>
    let new := bitsOf (p.w 0) 14 12
    match lifeRole s.lcs new with
    | none => s.finish r.val p ST_BAD_PARAM
    | some role =>
      let right := if role = 1 then s.ringInstaller r.val else (s.useRole r.val 2).isSome
      if !right then s.finish r.val p ST_NO_RIGHT
      else if (List.range 64).any (fun q => q != r.val && !(s.ring q).running.isEmpty) || s.on LCS_UPDATE_OPEN
          || s.rd LCS_STATE_LEFT == 0 then s.finish r.val p ST_BUSY
      else
        let actor := match s.useRole r.val role with
          | some (_, i) => s.sessionActor i
          | none => { ring := r.val, role := 1 }
        let s := ((s.audit 4 ST_OK actor new 0 0).burn new).lifeEffects new
        let s : State := { s with life := { s.life with resetDue := some r.val } }
        s.finish r.val p ST_OK))

/-! Firmware update (R618, R619). -/

/-- The bank that updates act on. -/
def State.otherBank (s : State) : Nat := 1 - s.rd LCS_FW_RUN_BANK

/-- The identifier of the session that a ring's command uses; 0 for a firmware ring without one. -/
def State.ringSession (s : State) (r : Nat) : Nat := (s.ringActor r).session

/-- A stage ends: its status stands in LCS_UPDATE.RESULT. -/
def State.stageEnds (s : State) (r : Nat) (p : Packet) (status reply : Nat) : State :=
  (s.wr LCS_UPDATE_RESULT status).finishCmd r { p.result status with reply0 := reply }

/-- A stage that is in order and of the open update's ring and session is recorded and performed; another one ends here. -/
def State.stage (s : State) (r : Nat) (p : Packet) (inOrder : Bool) (digest : Nat) (f : State → State × Nat × Nat) : State :=
  let open' := s.on LCS_UPDATE_OPEN
  let sid := s.ringSession r
  let stage := p.cmd - 0xc0
  if open' && (s.rd LCS_UPDATE_RING != r || s.life.updSession != sid) then s.stageEnds r p ST_BUSY 0
  else
    let (s', st, reply) := if inOrder then f s else (s, ST_BAD_PARAM, 0)
    (s'.audit 5 st (s.ringActor r) stage (bitsOf (p.w 3) 31 0) (if inOrder then digest else 0)).stageEnds r p st reply

/-- FW_UPDATE_OPEN (R618). -/
def execFwUpdateOpen (r : Ring) (s : State) : Host.Outcome State Fault Refusal :=
  .next (s.command r.val 0xc0 (fun p =>
    let n := bitsOf (p.w 3) 31 0
    s.stage r.val p (!s.on LCS_UPDATE_OPEN && decide (n ≤ bankSize)) 0 (fun s =>
      let b := bankBase s.otherBank
      let s := (s.flashTouch).flashErase b n
      let s : State := { s with life := { s.life with flashOpen := some (b, n), updSession := s.ringSession r.val } }
      ((((s.wr LCS_UPDATE_OPEN 1).wr LCS_UPDATE_STAGE 1).wr LCS_UPDATE_RING r.val).wr LCS_UPDATE_WRITTEN 0, ST_OK, 0))))

/-- The bytes of the erased range that WRITE stages have not filled. -/
def State.updateRoom (s : State) : Nat :=
  match s.life.flashOpen with
  | some (_, n) => n - s.rd LCS_UPDATE_WRITTEN
  | none => 0

/-- FW_UPDATE_WRITE (R618): the copy begins on a CMD channel; the stage ends once its transfer has. -/
def execFwUpdateWrite (r : Ring) (s : State) : Host.Outcome State Fault Refusal :=
  .next (match s.begun r.val 0xc1 with
    | some p =>
      if p.at1 = 0 then s
      else
        let ok := p.at1 == 1
        let s := if s.on LCS_UPDATE_OPEN then
            (s.wr LCS_UPDATE_WRITTEN (s.rd LCS_UPDATE_WRITTEN + p.at0)).wr LCS_UPDATE_STAGE (if ok then 2 else s.rd LCS_UPDATE_STAGE)
          else s
        s.stageEnds r.val p (p.at1 - 1) (s.rd LCS_UPDATE_WRITTEN)
    | none =>
      s.command r.val 0xc1 (fun p =>
        let n := bitsOf (p.w 3) 31 0
        let mine := s.on LCS_UPDATE_OPEN && s.rd LCS_UPDATE_RING == r.val && s.life.updSession == s.ringSession r.val
        let stage := s.rd LCS_UPDATE_STAGE
        if mine && (stage == 1 || stage == 2) && decide (1 ≤ n) && decide (n ≤ s.updateRoom) then
          let dst := gaOf s.node (flashBase + bankBase s.otherBank + s.rd LCS_UPDATE_WRITTEN)
          let s' := s.engineMove r.val p (p.w 1) dst ((if bitOf (p.w 0) 16 then 2 ^ 58 else 0) + n) 0
          if (s'.begun r.val 0xc1).isSome then s'.audit 5 ST_OK (s.ringActor r.val) 1 n 0 else s
        else s.stage r.val p false 0 (fun s => (s, ST_OK, 0))))

/-- FW_UPDATE_CHECK (R618). -/
def execFwUpdateCheck (r : Ring) (s : State) : Host.Outcome State Fault Refusal :=
  .next (s.command r.val 0xc2 (fun p =>
    s.stage r.val p (s.on LCS_UPDATE_OPEN && s.rd LCS_UPDATE_STAGE == 2) (s.imageDigest s.otherBank) (fun s =>
      if s.checkImage s.otherBank then ((s.flashTouch).wr LCS_UPDATE_STAGE 3, ST_OK, s.imageField s.otherBank 0x10 4)
      else (s.flashTouch, ST_BAD_PARAM, 0))))

/-- FW_UPDATE_ACTIVATE (R618). -/
def execFwUpdateActivate (r : Ring) (s : State) : Host.Outcome State Fault Refusal :=
  .next (s.command r.val 0xc3 (fun p =>
    s.stage r.val p (s.on LCS_UPDATE_OPEN && s.rd LCS_UPDATE_STAGE == 3) 0 (fun s =>
      let s := ((s.wr LCS_FW_BOOT_BANK s.otherBank).wr LCS_FW_TRIAL 1).wr LCS_FW_TRIES 0
      let s : State := { s.flashTouch with life := { s.life with flashOpen := none, updSession := 0 } }
      ((s.wr LCS_UPDATE_OPEN 0).wr LCS_UPDATE_STAGE 4, ST_OK, 0))))

end Sys2Proof.Machine
end

