-- ==== Sys2Proof/Machine/HostIf.lean ====
section
/-! DEFINITION. The host interface: link training, configuration space, AtomicOps, CXL.mem and its directory, completions
from host memory, MSI-X, and host-interface resets (R467 to R486, R246). -/
namespace Sys2Proof.Machine
open Reg

/-! The link (R468, R469). -/

/-- The widest of x16, x8, x4, x2 and x1 within a number of lanes; 0 for none. -/
def widestLink (n : Nat) : Nat := if 16 ≤ n then 16 else if 8 ≤ n then 8 else if 4 ≤ n then 4 else if 2 ≤ n then 2 else if 1 ≤ n then 1 else 0

/-- The host interface can train: its domain is on, PERST_N is released, and the module is neither off nor in recovery. -/
def State.hifAlive (s : State) : Bool :=
  s.domainOn 76 && !s.host.perst && !s.power.off && !s.power.ripcord && s.rd LCS_BOOT_PHASE != 6

/-- HOST_LINK_TRAINING (R468, R469, R562): the partner's widest link in lanes, its highest rate as HIF_LINK_STAT.SPEED encodes it,
and whether it accepts CXL. -/
def execHostLinkTraining (width speed : Nat) (cxl : Bool) (s : State) : Host.Outcome State Fault Refusal :=
  let w := widestLink (min width (if s.on HIF_CFG_MAX_WIDTH then 8 else 16))
  let r := min speed 6
  .next (if !s.hifAlive || s.pllCoasts 30 || s.host.linkUp || w = 0 || r = 0 then s
  else
    let mode := if s.on HIF_CFG_CXL_EN && cxl && decide (5 ≤ r) then 2 else 1
    let s := ((s.wr HIF_LINK_STAT_MODE mode).wr HIF_LINK_STAT_WIDTH w).wr HIF_LINK_STAT_SPEED r
    { s with host := { s.host with linkUp := true } })

/-! MSI-X (R481). -/

/-- Pending messages that nothing masks any more leave. -/
def State.sendPending (s : State) : State :=
  if !s.msixOn then s
  else
    (List.range 32).foldl (fun s w =>
      (setBits 64 (s.reg (HIF_PBA w)).toNat).foldl (fun s b =>
        let v := 64 * w + b
        if s.msixMasked v then s else (s.wr ⟨HIF_PBA w, b, b⟩ 0).msix v) s) s

/-- MSIX_UNMASK (R481): a write of the entry's vector control and data. -/
def execMsixUnmask (vec : Nat) (w : RegWrite) (s : State) : Host.Outcome State Fault Refusal :=
  .next (if 2048 ≤ vec then s
  else s.regRow w (HIF_MSIX_DATA vec) (s.fwOrHost w.m) (fun s => (s.applyWrite (HIF_MSIX_DATA vec) w.mask w.bits).sendPending))

/-! Configuration space (R470 to R474). The places of capabilities are the model's (log 10). -/

/-- The bits of a configuration dword that software can write. -/
def cfgMask (z off : Nat) : Nat :=
  let bar := fun k : Nat => 2 ^ 64 - 2 ^ k
  match off with
  | 0x04 => 0x546
  | 0x10 => bar 28 % 2 ^ 32
  | 0x14 => bar 28 / 2 ^ 32
  | 0x18 => bar z % 2 ^ 32
  | 0x1c => bar z / 2 ^ 32
  | 0x20 => bar 16 % 2 ^ 32
  | 0x24 => bar 16 / 2 ^ 32
  | 0x40 => 0xc0000000
  | 0x108 => 0x3f00
  | _ => 0

/-- The read-only bits of a configuration dword; `none` where the spec gives no content. -/
def State.cfgFixed (s : State) (off : Nat) : Option Nat :=
  let fuse := fun n => (Config.fuse (2 ^ 32 + n)).toNat
  match off with
  | 0x00 => some (0x9600 * 2 ^ 16 + fuse 0 % 2 ^ 16)
  | 0x04 => some 0
  | 0x08 => some (0x120000 * 2 ^ 8 + s.rd IDENT_PART_SILICON_REV)
  | 0x10 => some 4
  | 0x14 => some 0
  | 0x18 => some 12
  | 0x1c => some 0
  | 0x20 => some 4
  | 0x24 => some 0
  | 0x2c => some (fuse 1 % 2 ^ 32)
  | 0x40 => some (2047 * 2 ^ 16 + 0x11)
  | 0x44 => some 0xb8000
  | 0x48 => some 0xb4000
  | 0x104 => some (s.rd IDENT_SERIAL_SERIAL % 2 ^ 32)
  | 0x108 => some 0
  | 0x10c => some (s.rd IDENT_SERIAL_SERIAL / 2 ^ 32)
  | _ => none

/-- The content of a configuration dword: what is fixed and what was written; a free value where the spec gives none. -/
def State.cfgRead (s : State) (off : Nat) : Nat × State :=
  match s.cfgFixed off with
  | some v =>
    if off = 0x108 then ((s.host.bar2Log - 20) * 2 ^ 8, s)
    else (mergeBits v (s.cfgDword off) (cfgMask s.host.bar2Log off), s)
  | none =>
    let (n, s) := s.fresh
    (n % 2 ^ 32, s)

/-- A configuration dword written: a BAR2 size that the capability does not offer is ignored (R474). -/
def State.cfgWrite (s : State) (off mask v : Nat) : State :=
  if off = 0x108 then
    let z := 20 + bitsOf (mergeBits ((s.host.bar2Log - 20) * 2 ^ 8) v mask) 13 8
    if 28 ≤ z ∧ z ≤ 42 then { s with host := { s.host with bar2Log := z } } else s
  else
    let m := mask &&& cfgMask s.host.bar2Log off
    let s : State := { s with host := { s.host with cfg := tabPut s.host.cfg off (mergeBits (s.cfgDword off) v m) } }
    s.sendPending

/-- CONFIGURATION_REQUEST (R470, R484): Request Retry Status until configuration-ready, here ST_NOT_READY. -/
def execConfigurationRequest (write : Option Word) (off width : Nat) (s : State) : Host.Outcome State Fault Refusal :=
  .next (if !s.host.linkUp then s
  else if !s.host.ready || s.host.flr then s.emit (.cfgReply ST_NOT_READY 0)
  else
    let dw := off / 4 * 4
    let sh := 8 * (off % 4)
    match write with
    | some v =>
      let mask := (2 ^ (8 * width) - 1) * 2 ^ sh % 2 ^ 32
      (s.cfgWrite dw mask (v.toNat * 2 ^ sh % 2 ^ 32)).emit (.cfgReply ST_OK 0)
    | none =>
      let (v, s) := s.cfgRead dw
      s.emit (.cfgReply ST_OK (v / 2 ^ sh % 2 ^ (8 * width))))

/-- CONFIGURATION_READY (R470): step 7 of R483 is done, once every ring that the reset covers is DISABLED. -/
def execConfigurationReady (s : State) : Host.Outcome State Fault Refusal :=
  .next (if !s.hifAlive || s.host.ready || (List.range 64).any (fun r => (s.ring r).hostReset && s.ringState r == 3) then s
  else
    let s := s.resetRegs 0xb4000 0xc0000
    { s with host := { s.host with flr := false, ready := true, cfg := [], bar2Log := 42 } })

/-! AtomicOps (R467, R475). -/

/-- Operation code of a host atomic in R495's numbering; `none` where R467 implements none. -/
def atomicCode (op : AtomicKind) (size : Nat) : Option Nat :=
  match op, size with
  | .fetchAdd, 4 => some 0
  | .fetchAdd, 8 => some 1
  | .swap, 4 => some 2
  | .swap, 8 => some 3
  | .cas, 8 => some 4
  | _, _ => none

/-- ATOMIC_OP (R475): `a` is the operand or the compare value, `b` the swap value of a CAS. -/
def execAtomicOp (op : AtomicKind) (off size a b : Nat) (s : State) : Host.Outcome State Fault Refusal :=
  .next (if !s.host.linkUp then s
  else if !s.hostUp || s.pastBar2 off size then s.hostUr
  else
    match atomicCode op size with
    | none => s.hostUr
    | some code =>
      if off % size ≠ 0 then s.hostUr
      else
        match s.localAtom byHost off code a b with
        | (s, .done (.old v)) => (s.rbufClear agentHost).emit (.hostReply ST_OK (leBytes size v) false)
        | (s, .wait) => s
        | (s, r) =>
          if r = .done (.fail ST_POISON) ∨ r = .blocked ST_POISON then
            let (n, s) := s.fresh
            (s.rbufClear agentHost).emit (.hostReply ST_OK (leBytes size n) true)
          else s.hostUr)

/-! CXL.mem (R246, R478, R479). -/

/-- The link runs CXL. -/
def State.cxlOn (s : State) : Bool := s.host.linkUp && s.rd HIF_LINK_STAT_MODE == 2 && !s.power.off

/-- Lines that the directory can track (R479). -/
def dirLines : Nat := 16777216

/-- A line that the host may hold, or holds no longer. -/
def State.track (s : State) (line : Nat) (exclusive : Bool) : State :=
  if s.host.dir.any (fun d => d.1 == line) then
    { s with host := { s.host with dir := s.host.dir.map (fun d => if d.1 = line then (line, exclusive) else d) } }
  else { s with host := { s.host with dir := s.host.dir ++ [(line, exclusive)] } }

def State.untrack (s : State) (line : Nat) : State :=
  { s with host := { s.host with dir := s.host.dir.filter (fun d => d.1 != line), snooping := s.host.snooping.filter (· != line) } }

/-- A CXL.mem request outside a committed decoder: a completion whose data the spec leaves to CXL 3.1. -/
def State.cxlUnmapped (s : State) (read : Bool) : State :=
  if !read then s.emit (.cxlReply [] false)
  else
    let (n, s) := s.fresh
    let (p, s) := s.fresh
    s.emit (.cxlReply (leBytes 64 n) (p % 2 == 1))

/-- The host's accesses by CXL.mem. -/
def byCxl : LocalBy := { byHost with holder := true }

/-- A CXL.mem read of a line. -/
def State.cxlRead (s : State) (line : Nat) (exclusive : Bool) : State :=
  match s.localRead byCxl (64 * line) 64 with
  | (s, .blocked _) => s.hostUr
  | (s, .done (.data bs bad made)) =>
    (((s.reportAll bad made).rbufClear agentHost).track line exclusive).emit (.cxlReply bs (!bad.isEmpty))
  | (s, _) => s

/-- CXL_MEM_REQUEST (R64, R478, R479): `exclusive` says, of a read, that the host may modify the line, and of a write, that the host
keeps its copy. -/
def execCxlMemRequest (write : Option LineData) (ga : Nat) (exclusive : Bool) (s : State) : Host.Outcome State Fault Refusal :=
  let off := (ga - s.host.hdmBase) / 64 * 64
  let line := off / 64
  .next (if !s.cxlOn then s
  else if !s.host.hdmOn || ga < s.host.hdmBase || memTop ≤ ga - s.host.hdmBase then s.cxlUnmapped write.isNone
  else if s.host.snooping.contains line then s
  else
    match write with
    | some bs =>
      match s.localWrite byCxl off 64 (wordWrites off (bs.bytes.take 64) bs.poison) with
      | (s, .blocked _) => s.hostUr
      | (s, .done _) =>
        ((if exclusive then s.track line true else s.untrack line).rbufClear agentHost).emit (.cxlReply [] false)
      | (s, .wait) => s
    | none =>
      let held := s.host.dir.any (fun d => d.1 == line)
      match s.host.dir with
      | (old, _) :: _ => if !held && decide (dirLines ≤ s.host.dir.length) then s.snoopLines [old] else s.cxlRead line exclusive
      | [] => s.cxlRead line exclusive)

/-- HDM_DECODER_COMMIT (R478). -/
def execHdmDecoderCommit (base size ways : Nat) (s : State) : Host.Outcome State Fault Refusal :=
  .next (if !s.cxlOn then s
  else if size = memTop ∧ ways = 1 then
    { s with host := { s.host with hdmBase := base, hdmSize := size, hdmOn := true, hdmErr := false } }
  else { s with host := { s.host with hdmOn := false, hdmErr := true } })

/-- BACK_INVALIDATE (R64, R246, R479): the host answers a snoop of a line, with its data where it had modified the line; the answer waits
for its slot, and one for storage that answers no more is dropped. -/
def execBackInvalidate (line : Nat) (data : Option LineData) (s : State) : Host.Outcome State Fault Refusal :=
  .next (if !s.cxlOn || !s.host.snooping.contains line then s
  else
    match data with
    | none => s.untrack line
    | some bs =>
      match s.localWrite byCxl (64 * line) 64 (wordWrites (64 * line) (bs.bytes.take 64) bs.poison) with
      | (s, .wait) => s
      | (s, _) => (s.untrack line).rbufClear agentHost)

/-- CXL_CACHE_SNOOP (R477): a miss, without data. -/
def execCxlCacheSnoop (s : State) : Host.Outcome State Fault Refusal :=
  .next (if s.cxlOn then s.emit (.cxlReply [] false) else s)

/-! Completions from host memory (R476). -/

/-- A burst's read ends with a failure: it and every higher one are dropped (R458). -/
def State.hostReadFails (s : State) (c base status : Nat) : State :=
  let x := s.bmvCh c
  s.setBmv c (({ x with bursts := x.bursts.filter (fun b => decide (b.base < base)) } : BmvState).failAt status base)

/-- Data for a burst arrives, in ascending address order; the read ends with its last byte. -/
def State.hostReadData (s : State) (c base : Nat) (data : List Byte) (last : Bool) : State :=
  let x := s.bmvCh c
  s.setBmv c { x with bursts := x.bursts.map (fun b =>
    if b.base = base then { b with data := b.data ++ data, readDone := last } else b) }

/-- HOST_COMPLETION (R476): one completion of a read of the block mover, a successful one with a part of its data. -/
def execHostCompletion (tag status : Nat) (data : List Byte) (s : State) : Host.Outcome State Fault Refusal :=
  .next (match tabFind s.host.reads tag with
    | none => s
    | some (c, base, left) =>
      if status ≠ ST_OK then ((s.hostAnswered c base).hostReadFails c base status).bmvWrites c 9
      else if data.isEmpty || left < data.length then s
      else
        let last := data.length == left
        let s := if last then s.hostAnswered c base
          else { s with host := { s.host with reads := tabPut s.host.reads tag (c, base, left - data.length) } }
        (s.hostReadData c base data last).bmvWrites c 9)

/-- HOST_COMPLETION_TIMEOUT (R458, R476). -/
def execHostCompletionTimeout (tag : Nat) (s : State) : Host.Outcome State Fault Refusal :=
  .next (match tabFind s.host.reads tag with
    | none => s
    | some (c, base, _) => ((s.hostAnswered c base).hostReadFails c base ST_NOT_READY).bmvWrites c 9)

/-! Host-interface resets (R482 to R485). -/

/-- FLR (R482, R483). -/
def execFlr (s : State) : Host.Outcome State Fault Refusal :=
  .next (if s.host.linkUp && s.host.ready then s.hifReset 1 else s)

/-- HOT_RESET (R482, R483). -/
def execHotReset (s : State) : Host.Outcome State Fault Refusal := .next (if s.host.linkUp then s.hifReset 2 else s)

/-- The link is lost, with the HDM decoder. -/
def State.hostLost (s : State) (last : Nat) : State :=
  let s := s.hifReset last
  { s with host := { s.host with hdmOn := false, snooping := [] } }

/-- HOST_LINK_DOWN (R482, R483). -/
def execHostLinkDown (s : State) : Host.Outcome State Fault Refusal := .next (if s.host.linkUp then s.hostLost 3 else s)

/-- PERST_N_ASSERT (R482, R483): while VIN is valid. -/
def execPerstNAssert (s : State) : Host.Outcome State Fault Refusal :=
  .next (if s.host.perst then s
  else if s.power.off then { s with host := { s.host with perst := true } }
  else
    let s := s.hostLost 4
    { s with host := { s.host with perst := true } })

/-- PERST_N_RELEASE (R470): the link may train, and configuration requests are retried until configuration-ready. -/
def execPerstNRelease (s : State) : Host.Outcome State Fault Refusal :=
  .next { s with host := { s.host with perst := false } }

/-- D3HOT (R485): into D3hot, or back to D0, where messages that waited leave. -/
def execD3hot (enter : Bool) (s : State) : Host.Outcome State Fault Refusal :=
  .next (if !s.host.linkUp || !s.host.ready then s
  else
    let s : State := { s with host := { s.host with d3 := enter } }
    s.sendPending)

/-- HOST_LINK_ERROR (R486, R579). -/
def execHostLinkError (uncorrectable : Bool) (s : State) : Host.Outcome State Fault Refusal :=
  .next (if uncorrectable then s.record { src := srcHifLink } else s.count HIF_ERR_CORRECTED 1)

end Sys2Proof.Machine
end

