-- ==== Sys2Proof/Machine/Fabric.lean ====
section
/-! DEFINITION. The commands of the Jusen ports: enabling and training, retraining, flits, ACK, NAK and replay
(R487 to R495, R506, R509, R519). -/
namespace Sys2Proof.Machine
open Reg

/-! Training (R488, R489, R493, R506). -/

/-- The lanes a port runs on when a set of lanes has locked: all four, else the lower or the upper pair (R488). -/
def lanesUsed (locked : Nat) : Nat := if locked % 16 = 15 then 15 else if locked % 4 = 3 then 3 else if locked / 4 % 4 = 3 then 12 else 0

/-- A write of JP_CFG, and what a change of ENABLE starts (R488, R506, R519, R524, R596). -/
def State.jpCfgWrite (s : State) (p : Nat) (w : RegWrite) : State :=
  s.regRow w (JP_CFG p) (s.fwOrInstaller w.m) (fun s =>
    let s := s.auditWrite w (JP_CFG p)
    let was := s.on (JP_CFG_ENABLE p)
    let keepMode := was && s.after w (JP_CFG_MODE p) != s.rd (JP_CFG_MODE p)
    let mode := if keepMode then s.rd (JP_CFG_MODE p) else s.after w (JP_CFG_MODE p)
    let on := s.after w (JP_CFG_ENABLE p) == 1
    let prioOff := s.on (JP_ETH_CFG_TRANSPORT_EN p) && !bitOf (s.rd (JP_ETH_CFG_PFC_EN p)) (s.rd (JP_ETH_CFG_PRIO p))
    let badStart := !was && on && mode == 1 && (prioOff || decide (s.rd (JP_ETH_CFG_ETYPE p) < 0x600))
    let hold := s.portFenced p || badStart
    let mask := w.mask - (if keepMode then w.mask &&& maskOf 8 8 else 0) - (if hold then w.mask &&& 1 else 0)
    let s := s.applyWrite (JP_CFG p) mask w.bits
    let s := if keepMode || badStart then s.regRecord (JP_CFG p) w.bits else s
    let now := s.on (JP_CFG_ENABLE p)
    if was = now then s
    else if now then
      let s := s.setPort p { s.port p with since := s.now }
      let s := s.wr (JP_STAT_ETH p) mode
      if s.domainOn (60 + p) then s.wr (JP_STAT_STATE p) 1 else s
    else
      let s := if s.portState p = 4 ∨ s.portState p = 0 then s else s.portLost p
      let s := s.setPort p { s.port p with mismatched := false, draining := none }
      ((s.wr (JP_STAT_STATE p) 0).wr (JP_STAT_LANES p) 0).wr (JP_STAT_WIDTH p) 0)

/-- PORT_ENABLE (R488, R519). -/
def execPortEnable (p : Port) (w : RegWrite) (s : State) : Host.Outcome State Fault Refusal := .next (s.jpCfgWrite p.val w)

/-- PORT_DISABLE (R506). -/
def execPortDisable (p : Port) (w : RegWrite) (s : State) : Host.Outcome State Fault Refusal := .next (s.jpCfgWrite p.val w)

/-- A port enters UP on a set of lanes: a link that kept its state replays after the other end's last ACK, a new one announces
itself (R491 to R493). -/
def State.portEntersUp (s : State) (p lanes : Nat) : State :=
  let again := s.portState p == 3
  let half := lanes != 15
  let s := ((s.setPortState p 2).wr (JP_STAT_LANES p) lanes).wr (JP_STAT_WIDTH p) (if half then 2 else 4)
  let s := s.setPort p { s.port p with since := s.now, calLast := s.now, mismatched := false, crcTimes := [] }
  let s := if half then s.record { src := srcJpRetrain + p, aux := s.rd (JP_STAT_PEER_NODE p) } else s
  let s :=
    if again then (s.port p).replay.foldl (fun s f => s.sendSeq p f.1 f.2) s
    else if s.on (JP_CFG_MODE p) && !s.on (JP_ETH_CFG_TRANSPORT_EN p) then s
    else s.putFlit p (flitBytes 5 0 (s.port p).ack 0 0 0 (List.replicate 240 0))
  s.flush p

/-- The replay state of a port is discarded (R509). -/
def State.dropReplay (s : State) (p : Nat) : State :=
  s.setPort p { s.port p with
    replay := [], seqNext := 0, rxNext := 0, credits := [192, 192, 96, 32], cont := [none, none, none, none], partials := [] }

/-- TRAIN_RECORD (R488, R489, R509, R562). In Ethernet mode the four lanes locked bring the link up (R518). -/
def execTrainRecord (p : Port) (rec : TrainRec) (s : State) : Host.Outcome State Fault Refusal :=
  let p := p.val
  .next (if (s.portState p ≠ 1 ∧ s.portState p ≠ 3) ∨ s.pllCoasts (14 + p) then s
  else if s.on (JP_CFG_MODE p) then (if rec.lanes % 16 = 15 then s.portEntersUp p 15 else s)
  else
    let lanes := lanesUsed rec.lanes
    if lanes = 0 then s
    else
      let n := rec.node.val
      let s := (s.wr (JP_STAT_PEER_NODE p) n).wr (JP_STAT_DELAY p) (min rec.delay 65535)
      if s.on (JP_CFG_EXPECT_EN p) ∧ s.rd (JP_CFG_EXPECT_NODE p) ≠ n then
        let s := s.setPort p { s.port p with since := s.now }
        if (s.port p).mismatched then s
        else (s.setPort p { s.port p with mismatched := true }).record { src := srcJpPeer + p, aux := n }
      else
        let boot := rec.boot % 65536
        let last := (s.port p).lastBoot
        let changed : Bool := match last with
          | some (m, b) => m == n && b != boot
          | none => false
        let other : Bool := match last with
          | some (m, _) => m != n
          | none => false
        let s := if changed then (s.peerReset n).dropReplay p else if other then s.dropReplay p else s
        let s := { s.setPort p { s.port p with lastBoot := some (n, boot) } with nodeBoot := tabPut s.nodeBoot n boot }
        s.portEntersUp p lanes)

/-- TRAINING_RETRY (R488, R489). -/
def execTrainingRetry (p : Port) (s : State) : Host.Outcome State Fault Refusal :=
  .next (if s.portState p.val = 1 then
    let s := s.advanceTo ((s.port p.val).since + 1000000000)
    s.setPort p.val { s.port p.val with since := s.now }
  else s)

/-- CAL_PAUSE (R490). -/
def execCalPause (p : Port) (s : State) : Host.Outcome State Fault Refusal :=
  let x := s.port p.val
  .next (if s.portUp p.val && !s.on (JP_CFG_MODE p.val) && decide (x.calLast + 250000000 ≤ s.now) then
    (s.setPort p.val { x with calLast := s.now }).putFlit p.val (flitBytes 4 0 x.ack 0 0 0 (List.replicate 240 0))
  else s)

/-- A port enters RETRAIN (R493). -/
def State.portRetrains (s : State) (p : Nat) : State :=
  let s := (s.wr (JP_STAT_STATE p) 3).count (JP_ERR_RETRAINS p) 1
  let s := s.setPort p { s.port p with since := s.now, crcTimes := [] }
  s.record { src := srcJpRetrain + p, aux := s.rd (JP_STAT_PEER_NODE p) }

/-- LANE_LOCK_LOSS (R493): lanes of a set lose lock. -/
def execLaneLockLoss (p : Port) (lanes : Nat) (s : State) : Host.Outcome State Fault Refusal :=
  .next (if s.portUp p.val && s.rd (JP_STAT_LANES p.val) &&& lanes != 0 then s.portRetrains p.val else s)

/-- RETRAIN_TIMEOUT (R493). -/
def execRetrainTimeout (p : Port) (s : State) : Host.Outcome State Fault Refusal :=
  .next (if s.portState p.val = 3 then
    (s.advanceTo ((s.port p.val).since + s.rd JFAB_CFG_RETRAIN_MAX * 1000000)).portLost p.val
  else s)

/-- DOWN_RETRY (R506). -/
def execDownRetry (p : Port) (s : State) : Host.Outcome State Fault Refusal :=
  .next (if s.portState p.val = 4 ∧ s.on (JP_CFG_ENABLE p.val) ∧ !s.portFenced p.val then
    let s := s.advanceTo ((s.port p.val).since + 1000000000)
    (s.setPort p.val { s.port p.val with since := s.now }).wr (JP_STAT_STATE p.val) 1
  else s)

/-! Flits (R491 to R494). -/

/-- The replay buffer without the flits that an ACK covers. -/
def trimReplay (l : List (Nat × TxFlit)) (ack : Nat) : List (Nat × TxFlit) :=
  l.filter (fun f => decide (2048 ≤ (ack + 4096 - f.1) % 4096))

/-- A NAK: every flit after ACK leaves again, in order (R492). -/
def State.nak (s : State) (p ack : Nat) : State :=
  let s := s.setPort p { s.port p with replay := trimReplay (s.port p).replay ack }
  (s.port p).replay.foldl (fun s f => s.sendSeq p f.1 f.2) s

/-- NAK (R492). -/
def execNak (p : Port) (seq : Nat) (s : State) : Host.Outcome State Fault Refusal :=
  .next (if s.portUp p.val then s.nak p.val seq else s)

/-- The sender's link state is new: SEQ restarts at 0 (R491). -/
def State.linkReset (s : State) (p : Nat) : State := s.setPort p { s.port p with rxNext := 0, partials := [] }

/-- RESET (R491). -/
def execReset (p : Port) (s : State) : Host.Outcome State Fault Refusal :=
  .next (if s.portUp p.val then s.linkReset p.val else s)

/-- Messages parsed from transport bytes: the whole ones, the bytes of one that continues, and whether a header was bad (R495). -/
def parseMsgs : Nat → List Byte → List FMsg → List FMsg × List Byte × Bool
  | 0, bs, ms => (ms, bs, false)
  | n + 1, bs, ms =>
    if bs.length < 8 then (ms, bs, false)
    else
      let typ := bitsOf (leNat (bs.take 8)) 43 40
      if typ = tPad then (ms, [], false)
      else if bs.length < 16 then (ms, bs, false)
      else
        let m := msgOfHeader (bs.take 16)
        if !lenOk m.typ m.len then (ms, [], true)
        else
          let k := dataLen m.typ m.len
          let whole := 16 + (k + 7) / 8 * 8
          if bs.length < whole then (ms, bs, false)
          else parseMsgs n (bs.drop whole) (ms ++ [{ m with data := (bs.drop 16).take k }])

/-- The flit buffers that each message frees: the first one those of earlier flits, the last one this flit's too unless bytes of
it are left (R494). -/
def freedBy (ms : List FMsg) (older : Nat) (left : Bool) : List (FMsg × Nat) :=
  (ms.zipIdx).map (fun m => (m.1, (if m.2 = 0 then older else 0) + (if m.2 + 1 = ms.length && !left then 1 else 0)))

/-- Transport bytes of a flit accepted on virtual channel `v`. -/
def State.rxBody (s : State) (p v : Nat) (body : List Byte) : State :=
  let x := s.port p
  let (older, kept) := tabGet x.partials (0, []) v
  let (ms, left, bad) := parseMsgs 64 (kept ++ body) []
  let idle := ms.isEmpty && left.isEmpty
  let pend := if left.isEmpty then (0, []) else (if ms.isEmpty then older + 1 else 1, left)
  let s := s.setPort p { x with
    partials := if left.isEmpty then tabDel x.partials v else tabPut x.partials v pend
    inbox := x.inbox ++ freedBy ms older (!left.isEmpty) }
  let s := if idle then s.sendIdle p v (older + 1) else s
  if bad then s.record { src := srcJpProto + p, aux := s.rd (JP_STAT_PEER_NODE p) } else s

/-- A CRC failure (R492, R493). -/
def State.flitBad (s : State) (p : Nat) : State :=
  let s := (s.count (JP_ERR_CRC p) 1).record { src := srcJpCrc + p, aux := s.rd (JP_STAT_PEER_NODE p) }
  let x := s.port p
  let times := (x.crcTimes ++ [s.now]).filter (fun t => decide (s.now < t + 1000000))
  let s := s.setPort p { x with crcTimes := times }
  if 64 ≤ times.length then s.portRetrains p else s.sendNak p

/-- ACK and credits that a flit carries are taken (R492, R494). -/
def State.flitCredits (s : State) (p ack cvc n : Nat) : State :=
  let x := s.port p
  s.setPort p { x with replay := trimReplay x.replay ack, credits := listSet x.credits cvc (x.credits.getD cvc 0 + n) }

/-- A flit reaches a port that is UP (R491 to R495). -/
def State.rxFlit (s : State) (p : Nat) (bytes : List Byte) : State :=
  if bytes.length ≠ 256 then s
  else if crc64 (bytes.take 248) ≠ leNat (bytes.drop 248) then s.flitBad p
  else
    let h := leNat (bytes.take 8)
    let (kind, seq, ack) := (bitsOf h 63 60, bitsOf h 59 48, bitsOf h 47 36)
    let (cvc, n, v) := (bitsOf h 35 34, bitsOf h 33 24, bitsOf h 23 22)
    if kind = 0 then (s.flitCredits p ack cvc n).flush p
    else if kind = 2 then ((s.flitCredits p ack cvc n).nak p ack).flush p
    else if kind = 5 then s.linkReset p
    else if kind = 1 ∨ kind = 3 then
      if seq ≠ (s.port p).rxNext then s.sendNak p
      else
        let s := s.flitCredits p ack cvc n
        let s := s.setPort p { s.port p with rxNext := (seq + 1) % 4096 }
        (s.rxBody p v ((bytes.drop 8).take 240)).flush p
    else s

/-- FLIT_RECEIVE (R492): a flit in Jusen mode. -/
def execFlitReceive (p : Port) (bytes : List Byte) (s : State) : Host.Outcome State Fault Refusal :=
  .next (if s.portUp p.val && !s.on (JP_CFG_MODE p.val) then s.rxFlit p.val bytes else s)

end Sys2Proof.Machine
end

