-- ==== Sys2Proof/Machine/FabricMsg.lean ====
section
/-! DEFINITION. The commands of messages: requests of fabric peers, responses, messages to buffer pools, device
time, reset notices, forwarding, routes, sends, and Ethernet frames (R496 to R525). -/
namespace Sys2Proof.Machine
open Reg

/-- The place in the inbox of the first message of a virtual channel that meets a condition, when no earlier one of that
channel waits (R499). -/
def State.headOf (s : State) (p : Nat) (v : Nat) (ok : FMsg → Bool) : Option (Nat × FMsg) :=
  match findPlace (fun m : FMsg × Nat => vcOf m.1.typ == v) (s.port p).inbox with
  | none => none
  | some i =>
    match (s.port p).inbox[i]? with
    | none => none
    | some m => if ok m.1 then some (i, m.1) else none

/-- A message leaves the receive buffers, and its credits go back (R494). -/
def State.leaves (s : State) (p i : Nat) : State :=
  let x := s.port p
  let n := ((x.inbox[i]?).map (·.2)).getD 0
  let v := ((x.inbox[i]?).map (fun m => vcOf m.1.typ)).getD 0
  let s := s.setPort p { x with inbox := x.inbox.eraseIdx i }
  if n = 0 || !s.portUp p then s else s.sendIdle p v n

/-- The next message of a type for this module is consumed by `f` (R496). -/
def State.consume (s : State) (p typ : Nat) (f : State → FMsg → State) : State :=
  match s.headOf p (vcOf typ) (fun m => m.typ == typ && m.dst == s.node) with
  | none => s
  | some (i, m) => f (s.leaves p i) m

/-- The answer to a request: its type, this module as the source, the request's tag and OFFSET, and a status. -/
def State.answer (s : State) (m : FMsg) (typ status : Nat) : State :=
  s.respond { dst := m.src, src := s.node, typ := typ, tag := m.tag, status := status, offset := m.offset } (routeG m.typ m.offset)

/-! Requests of peers (R504, R512). -/

/-- A request of a peer enters the crossbar: answered at once when it is not served, and otherwise made to wait at its channel, or at its
bank among the foreign requests (R303, R304). -/
def State.peerRequest (s : State) (p typ resp : Nat) (len : FMsg → Nat) (op : FMsg → Nat → Nat → MemOp) (ok : FMsg → Bool) : State :=
  s.consume p typ (fun s m =>
    if !s.isReady then s.answer m resp ST_NOT_READY
    else if !ok m then s.answer m resp ST_BAD_PARAM
    else
      match s.block .peer (.peer m.src) m.offset (len m) with
      | some (s, st) => s.answer m resp st
      | none =>
        s.pushPeer resp m (len m) { op := .write [], src := some m.src, port := 99 + bitsOf m.offset 41 8 % 5, arrived := s.now
                                    who := some (Requester.peer m.src).code, sink := .none } (op m))

/-- RD_REQ (R504). -/
def execRdReq (p : Port) (s : State) : Host.Outcome State Fault Refusal :=
  .next (s.peerRequest p.val tRdReq tRdResp (fun m => m.len) (fun _ o n => .read o n) (fun _ => true))

/-- WR_REQ (R504, R64). -/
def execWrReq (p : Port) (s : State) : Host.Outcome State Fault Refusal :=
  .next (s.peerRequest p.val tWrReq tWrAck (fun m => m.len)
    (fun m o n => .write (writesIn (wordWrites m.offset m.data m.poison) o n)) (fun _ => true))

/-- OP of an ATOM_REQ, and its two operands (R495). -/
def FMsg.op (m : FMsg) : Nat := leNat (m.data.take 1)
def FMsg.arg (m : FMsg) (k : Nat) : Nat := leNat ((m.data.drop (8 * k)).take 8)

/-- ATOM_REQ (R495). An unlisted OP or an unaligned offset, to which the spec gives no effect, is answered ST_BAD_PARAM (log 32). -/
def execAtomReq (p : Port) (s : State) : Host.Outcome State Fault Refusal :=
  .next (s.peerRequest p.val tAtomReq tAtomResp (fun m => atomBytes m.op) (fun m o _ => .atom o m.op (m.arg 1) (m.arg 2))
    (fun m => decide (m.op ≤ 5) && m.offset % atomBytes m.op == 0))

/-! Responses (R503, R507). -/

/-- A response ends the request that holds its tag; one that no request of its kind waits for is discarded. -/
def State.response (s : State) (p typ req : Nat) (good : FReq → FMsg → Reply) : State :=
  s.consume p typ (fun s m =>
    match tabFind s.freqs m.tag with
    | none => s
    | some q =>
      if q.typ ≠ req then s
      else (s.endReq m.tag (if m.status = ST_OK then good q m else .fail m.status)).releaseRoutes)

/-- RD_RESP (R495, R60): poison covers every word of the answer. -/
def execRdResp (p : Port) (s : State) : Host.Outcome State Fault Refusal :=
  .next (s.response p.val tRdResp tRdReq (fun q m =>
    .data m.data (if m.poison then wordsIn (gaOff q.offset) m.data.length else []) []))

/-- WR_ACK (R503). -/
def execWrAck (p : Port) (s : State) : Host.Outcome State Fault Refusal :=
  .next (s.response p.val tWrAck tWrReq (fun _ _ => .done))

/-- ATOM_RESP (R495). -/
def execAtomResp (p : Port) (s : State) : Host.Outcome State Fault Refusal :=
  .next (s.response p.val tAtomResp tAtomReq (fun _ m => .old (leNat m.data)))

/-- MSG_ACK (R513). -/
def execMsgAck (p : Port) (s : State) : Host.Outcome State Fault Refusal :=
  .next (s.response p.val tMsgAck tMsg (fun _ _ => .done))

/-- RESPONSE_TIMEOUT (R507). -/
def execResponseTimeout (s : State) : Host.Outcome State Fault Refusal :=
  .next (match leastBy (fun q : Nat × FReq => q.2.deadline) s.freqs with
    | none => s
    | some (t, q) =>
      let s := s.advanceTo q.deadline
      ((s.endReq t (.fail ST_FABRIC_UNREACHABLE)).record { src := srcJfabTimeout, aux := q.node }).releaseRoutes)

/-! Messages into buffer pools (R514, R515). -/

/-- The enabled arrival queue bound to a pool. -/
def State.queueOfPool (s : State) (pool : Nat) : Option Nat :=
  (List.range 8).find? (fun q => s.on (JFAB_RXQ_CFG_EN q) && s.rd (JFAB_RXQ_CFG_POOL q) == pool)

/-- Local offset and size of the buffer of a token. -/
def State.bufferOf (s : State) (token : Nat) : Nat × Nat :=
  let p := bitsOf token 31 26
  let n := 2 ^ s.rd (BMV_POOL_CFG_SIZE p)
  (s.rd (BMV_POOL_BUF_BASE p) + bitsOf token 25 8 * n, n)

/-- Entries of an arrival queue that its owner has not consumed fill it. -/
def State.rxqFull (s : State) (q : Nat) : Bool :=
  (s.rd (JFAB_RXQ_PTR_POSTED q) + 2 ^ 32 - s.rd (JFAB_RXQ_PTR_CONSUMED q)) % 2 ^ 32 == 2 ^ s.rd (JFAB_RXQ_CFG_LOG2 q)

/-- Not a status of R417: the write waits for its slots, or for lines that the host holds (R43, R246). -/
abbrev rxWait : Nat := 256

/-- A write of the fabric receive path to module storage: the status of a refused one, or that it waits. -/
def State.rxWrite (s : State) (off : Nat) (bs : List Byte) (poison : Bool) : State × Nat :=
  match s.writeOnce { agent := agentTx, kind := .peer, who := some (.peer s.node) } off bs.length (wordWrites off bs poison) with
  | (s, .blocked st) => (s, st)
  | (s, .wait) => (s, rxWait)
  | (s, .done _) => (s, ST_OK)

/-- A buffer of the receive path goes back to its free list. -/
def State.rxReturn (s : State) (token : Nat) : State := s.poolPut (bitsOf token 31 26) (bitsOf token 25 8)

/-- A buffer for an arrival, owned by the queue's ring, or the status of R514. -/
def State.rxTake (s : State) (q : Nat) : State × Except Nat Nat :=
  if s.rxqFull q then (s, .error ST_BUF_EXHAUSTED) else s.poolTake (s.rd (JFAB_RXQ_CFG_POOL q)) (s.rd (JFAB_RXQ_CFG_RING q))

/-- An arrival entry is written, word 1 before word 0, and its owner told (R515). -/
def State.rxPost (s : State) (q kind src len token : Nat) : State × Nat :=
  if s.rxqFull q then (s, ST_BUF_EXHAUSTED)
  else
    let n := s.rd (JFAB_RXQ_PTR_POSTED q)
    let size := 2 ^ s.rd (JFAB_RXQ_CFG_LOG2 q)
    let a := s.rd (JFAB_RXQ_BASE_BASE q) + 16 * (n % size)
    let phase := 1 - n / size % 2
    let w0 := phase * 2 ^ 63 + kind * 2 ^ 62 + src * 2 ^ 49 + len * 2 ^ 32 + token
    match s.rxWrite (a + 8) (leBytes 8 s.dev) false with
    | (s, 0) =>
      match s.rxWrite a (leBytes 8 w0) false with
      | (s, 0) =>
        let s := s.wr (JFAB_RXQ_PTR_POSTED q) (n + 1)
        (if s.hostRing (s.rd (JFAB_RXQ_CFG_RING q)) then s.msix (s.rd (JFAB_RXQ_CFG_VECTOR q))
          else s.raiseLine 24 (s.rd (JFAB_RXQ_CFG_TASK q)) (s.rd (JFAB_RXQ_CFG_LINE q)), ST_OK)
      | x => x
    | x => x

/-- The MSG of a source and a number that is being received. -/
def State.rxMsg (s : State) (m : FMsg) : Option RxMsg := s.rxMsgs.find? (fun x => x.src == m.src && x.tag == m.tag)

/-- A MSG being received, set or, with none, forgotten. -/
def State.setRxMsg (s : State) (m : FMsg) (x : Option RxMsg) : State :=
  { s with rxMsgs := s.rxMsgs.filter (fun y => !(y.src == m.src && y.tag == m.tag)) ++ x.toList }

/-- The MSG fails with a status: its buffer goes back and its remaining pieces are discarded. -/
def State.rxFail (s : State) (m : FMsg) (token : Option Nat) (status : Nat) : State × Option Nat :=
  let s := match token with
    | some t => s.rxReturn t
    | none => s
  (s.setRxMsg m (if m.last then none else some { src := m.src, tag := m.tag, pool := m.pool, token := 0, total := 0, status := status }), some status)

/-- A piece is written at its OFFSET, and after the last one the entry is posted. -/
def State.rxData (s : State) (m : FMsg) (x : RxMsg) : State × Option Nat :=
  let (base, size) := s.bufferOf x.token
  let off := m.offset
  if size < off + m.data.length then s.rxFail m (some x.token) ST_BAD_PARAM
  else
    match s.rxWrite (base + off) m.data m.poison with
    | (s, 0) =>
      let x := { x with total := max x.total (off + m.data.length) }
      if !m.last then (s.setRxMsg m (some x), none)
      else
        match s.queueOfPool m.pool with
        | none => s.rxFail m (some x.token) ST_BAD_PARAM
        | some q =>
          match s.rxPost q 0 m.src x.total x.token with
          | (s, 0) => (s.setRxMsg m none, some ST_OK)
          | (s, st) => s.rxFail m (some x.token) st
    | (s, st) => s.rxFail m (some x.token) st

/-- A piece of a MSG is received: the status to answer with, once the MSG has ended (R512, R514), or that it waits. -/
def State.rxPiece (s : State) (m : FMsg) : State × Option Nat :=
  match s.rxMsg m with
  | some x =>
    if x.status ≠ ST_OK then (if m.last then s.setRxMsg m none else s, none)
    else s.rxData m x
  | none =>
    if !s.isReady then s.rxFail m none ST_NOT_READY
    else
      match s.queueOfPool m.pool with
      | none => s.rxFail m none ST_BAD_PARAM
      | some q =>
        match s.rxTake q with
        | (s, .error st) => s.rxFail m none st
        | (s, .ok token) => s.rxData m { src := m.src, tag := m.tag, pool := m.pool, token := token, total := 0, status := ST_OK }

/-- The state before a step that had to wait, with the snoops that the step asked for. -/
def State.snoopedBy (s t : State) : State := s.snoopLines (t.host.snooping.filter (fun l => !s.host.snooping.contains l))

/-- MSG (R512, R514). -/
def execMsg (p : Port) (s : State) : Host.Outcome State Fault Refusal :=
  .next (match s.headOf p.val 2 (fun m => m.dst == s.node) with
    | none => s
    | some (i, m) =>
      match s.rxPiece m with
      | (t, some st) => if st = rxWait then s.snoopedBy t else (t.leaves p.val i).answer m tMsgAck st
      | (t, none) => t.leaves p.val i)

/-! Device time and reset notices (R509, R516, R517). -/

/-- A signed value in 16 bits, saturating. -/
def sat16 (x : Int) : Nat := (max (-32768) (min 32767 x) % 65536).toNat

/-- Device time corrected by an offset in ns, with equal epochs (R517). -/
def State.correctTime (s : State) (o : Int) : State :=
  if 1000000 < o then s.setTime (s.dev + o.toNat) else if o = 0 then s.setTime s.dev else s.slewTime (-o)

/-- TIME (R517). -/
def execTime (p : Port) (s : State) : Host.Outcome State Fault Refusal :=
  .next (s.consume p.val tTime (fun s m =>
    if s.rd JFAB_TIME_SOURCE ≠ 2 ∨ s.rd JFAB_TIME_UP_PORT ≠ p.val then s
    else
      let t := leNat (m.data.take 8) + s.rd (JP_STAT_DELAY p.val)
      let w := leNat (m.data.drop 8)
      let (epoch, stratum) := (bitsOf w 15 0, bitsOf w 23 16)
      let mine := s.rd TIME_EPOCH_EPOCH
      if epoch < mine then s
      else
        let o : Int := (t : Int) - (s.dev : Int)
        let s := (s.wr JFAB_TIME_OFFSET (sat16 o)).wr JFAB_TIME_STRATUM (min 255 (stratum + 1))
        if mine < epoch then
          let s : State := { s.setTime t with life := { s.life with slewLeft := 0, epoch := epoch } }
          s.wr TIME_EPOCH_EPOCH epoch
        else s.correctTime o))

/-- TIME_SEND (R516). -/
def execTimeSend (p : Port) (s : State) : Host.Outcome State Fault Refusal :=
  let n := s.rd (JP_STAT_PEER_NODE p.val)
  let stratum := if s.rd JFAB_TIME_SOURCE = 1 then 0 else s.rd JFAB_TIME_STRATUM
  .next (if s.portUp p.val && !s.on (JP_CFG_MODE p.val) && s.rd JFAB_TIME_SOURCE != 0 then
    s.queueMsg p.val { dst := n, src := s.node, typ := tTime, hops := s.rd (JFAB_ROUTE_PRI_HOPLIM n), len := 16
                       data := leBytes 8 s.dev ++ leBytes 8 (s.rd TIME_EPOCH_EPOCH + stratum * 2 ^ 16) } 16 none
  else s)

/-- RESET_NOTICE (R509). -/
def execResetNotice (p : Port) (s : State) : Host.Outcome State Fault Refusal :=
  .next (s.consume p.val tResetNotice (fun s m =>
    let boot := leNat m.data % 65536
    let changed : Bool := match tabFind s.nodeBoot m.src with
      | some b => b != boot
      | none => false
    let near := (List.range 16).filter (fun q => ((s.port q).lastBoot.map (·.1)) == some m.src)
    let s := { s with nodeBoot := tabPut s.nodeBoot m.src boot }
    let s := near.foldl (fun s q => s.setPort q { s.port q with lastBoot := some (m.src, boot) }) s
    if changed then near.foldl (fun s q => s.dropReplay q) (s.peerReset m.src) else s))

/-! Forwarding (R496 to R498). -/

/-- The type that answers a request or a MSG; none for any other message. -/
def answerType (typ : Nat) : Option Nat :=
  if typ = tRdReq then some tRdResp else if typ = tWrReq then some tWrAck else if typ = tAtomReq then some tAtomResp
  else if typ = tMsg then some tMsgAck else none

/-- A message discarded, its request or MSG answered ST_FABRIC_UNREACHABLE (R498). -/
def State.discard (s : State) (m : FMsg) : State :=
  match answerType m.typ with
  | some t => s.answer m t ST_FABRIC_UNREACHABLE
  | none => s

/-- A message for another node goes on by its route with HOPS lowered, or is discarded. -/
def State.forward (s : State) (p : Nat) (m : FMsg) : State :=
  if m.hops = 0 then (s.record { src := srcJfabHops, aux := m.dst }).discard m
  else if !s.isReady then s.discard m
  else
    match s.routePort m.dst m.src (routeG m.typ m.offset) with
    | none => s.discard m
    | some q => s.queueMsg q { m with hops := m.hops - 1 } p none

/-- MESSAGE_FORWARD (R497, R498). -/
def execMessageForward (p : Port) (s : State) : Host.Outcome State Fault Refusal :=
  .next (match [3, 1, 0, 2].findSome? (fun v => s.headOf p.val v (fun m => m.dst != s.node)) with
    | none => s
    | some (i, m) => (s.leaves p.val i).forward p.val m)

/-! Routes written directly (R502, R524). -/

/-- JFAB_ROUTE_WRITE (R502, R524): whole, or not at all. -/
def execJfabRouteWrite (n : Node) (alt : Bool) (w : RegWrite) (s : State) : Host.Outcome State Fault Refusal :=
  let off := if alt then JFAB_ROUTE_ALT n.val else JFAB_ROUTE_PRI n.val
  .next (s.regRow w off (s.fw0 w.m) (fun s =>
    let new := mergeBits (s.reg off).toNat w.bits w.mask
    let pri := if alt then (s.reg (JFAB_ROUTE_PRI n.val)).toNat else new
    let other := if alt then new else (s.reg (JFAB_ROUTE_ALT n.val)).toNat
    if routeOk pri other then s.setRoute n.val pri other else s.regRecord off w.bits))

/-! Ethernet frames: fields and event messages (R519, R520, R522). -/

/-- EtherType of a frame, past a VLAN tag, and where its payload begins. -/
def etherType (f : List Byte) : Nat × Nat :=
  let t := beNat ((f.drop 12).take 2)
  if t = 0x8100 then (beNat ((f.drop 16).take 2), 18) else (t, 14)

/-- Priority of a frame's VLAN tag; 0 without one. -/
def framePrio (f : List Byte) : Nat :=
  if beNat ((f.drop 12).take 2) = 0x8100 then beNat ((f.drop 14).take 2) / 2 ^ 13 % 8 else 0

/-- Where the IEEE 1588 message of an event frame begins: EtherType 0x88F7, or UDP port 319 over IPv4 or IPv6 (R522). -/
def ptpStart (f : List Byte) : Option Nat :=
  let (t, a) := etherType f
  let byte := fun k => ((f.getD k 0 : Byte)).toNat
  let udp := fun u => if beNat ((f.drop (u + 2)).take 2) = 319 then some (u + 8) else none
  if t = 0x88f7 then some a
  else if t = 0x0800 ∧ byte (a + 9) = 17 then udp (a + 4 * (byte a % 16))
  else if t = 0x86dd ∧ byte (a + 6) = 17 then udp (a + 40)
  else none

/-- A time stamp of an event message enters the queue of a port (R522). -/
def State.stamp (s : State) (p : Nat) (tx : Bool) (f : List Byte) : State :=
  let x := s.port p
  let seq := match ptpStart f with
    | some a => beNat ((f.drop (a + 30)).take 2)
    | none => 0
  if 16 ≤ x.stamps.length then s.count (JP_ERR_TS_LOST p) 1
  else s.setPort p { x with stamps := x.stamps ++ [(tx, s.dev, s.rd TIME_EPOCH_EPOCH, seq)] }

/-! Sends by JFAB_TX_GO (R513). -/

/-- A send ends with a status. -/
def State.txEnds (s : State) (status : Nat) : State :=
  ((s.wr JFAB_TX_STAT_DONE 1).wr JFAB_TX_STAT_BUSY 0).wr JFAB_TX_STAT_STATUS status

/-- The token names an allocated buffer. -/
def State.allocated (s : State) (token : Nat) : Bool :=
  let p := bitsOf token 31 26
  let i := bitsOf token 25 8
  s.on (BMV_POOL_CFG_ENABLE p) && (tabFind (s.pool p).owner i).isSome && tabGet (s.pool p).gen 0 i == bitsOf token 7 0

/-- Bytes of a buffer being sent, with whether any word of them was poison, or the status of a refused read, or `rxWait`. -/
def State.txRead (s : State) (off len : Nat) : State × Except Nat (List Byte × Bool) :=
  match s.localRead { agent := agentTx, kind := .peer, who := some (.peer s.node) } off len with
  | (s, .blocked st) => (s, .error st)
  | (s, .done (.data bs bad made)) => (s.reportAll bad made, .ok (bs, !bad.isEmpty))
  | (s, _) => (s, .error rxWait)

/-- The pieces of a MSG read from its buffer (R513, R514). -/
def State.txPieces (s : State) (m : FMsg) (base len : Nat) : State × Except Nat (List FMsg) :=
  (List.range ((len + 255) / 256)).foldl (fun (a : State × Except Nat (List FMsg)) k =>
    match a with
    | (s, .error st) => (s, .error st)
    | (s, .ok ms) =>
      let n := min 256 (len - 256 * k)
      match s.txRead (base + 256 * k) n with
      | (s, .error st) => (s, .error st)
      | (s, .ok (bs, bad)) =>
        (s, .ok (ms ++ [{ m with len := n, offset := 256 * k, data := bs, poison := bad, last := decide (len ≤ 256 * k + n) }])))
    (s, .ok [])

/-- The pieces of a MSG leave under one message number; one for this module itself never reaches a port (R14, R503). With
whether the send waits. -/
def State.txMsg (s : State) (ms : List FMsg) : State × Bool :=
  match ms with
  | [] => (s, false)
  | m :: rest =>
    if m.dst = s.node then
      let (s, st) := ms.foldl (fun (a : State × Option Nat) m =>
        let (s, st) := a.1.rxPiece { m with src := s.node, tag := s.tagNext }
        (s, st.orElse (fun _ => a.2))) (s, none)
      (s.txEnds (st.getD ST_OK), st == some rxWait)
    else
      match s.post m none .txGo with
      | none => (s, true)
      | some s =>
        let tag := (s.tagNext + 65535) % 65536
        (rest.foldl (fun s m =>
          let m := { m with src := s.node, tag := tag }
          if (tabFind s.freqs tag).isNone then s
          else if s.routeWaits m.dst then { s with routeHeld := s.routeHeld ++ [m] } else s.launch m) s, false)

/-- An Ethernet frame leaves a port (R513, R522). -/
def State.txFrame (s : State) (p : Nat) (f : List Byte) : State :=
  let s := s.emit (.frame p f)
  if (ptpStart f).isSome then s.stamp p true f else s

/-- A send whose buffer could not be read ends with the status, or waits. -/
def State.txStops (s : State) (st : Nat) : State × Bool := if st = rxWait then (s, true) else (s.txEnds st, false)

/-- The send that a write of TOKEN starts, with whether it waits. -/
def State.txStart (s : State) (token len : Nat) : State × Bool :=
  let (base, size) := s.bufferOf token
  let eth := s.on JFAB_TX_DEST_ETH
  let p := s.rd JFAB_TX_DEST_PORT
  if !s.allocated token || len = 0 || size < len || (eth && (9212 < len || !s.on (JP_CFG_MODE p))) then
    (s.txEnds ST_BAD_PARAM, false)
  else
    if eth then
      if !s.portUp p then (s.txEnds ST_FABRIC_UNREACHABLE, false)
      else
        match s.txRead base len with
        | (s, .error st) => s.txStops st
        | (s, .ok (_, true)) => (s.txEnds ST_POISON, false)
        | (s, .ok (bs, false)) => (s.txFrame p bs, false)
    else
      let m : FMsg := { dst := s.rd JFAB_TX_DEST_NODE, src := 0, typ := tMsg, pool := s.rd JFAB_TX_DEST_POOL }
      match s.txPieces m base len with
      | (s, .error st) => s.txStops st
      | (s, .ok ms) => s.txMsg ms

/-- TX_GO (R513, R524). The write waits while its reads of the buffer wait for their slots or for lines that the host holds. -/
def execTxGo (w : RegWrite) (s : State) : Host.Outcome State Fault Refusal :=
  .next (s.regRow w JFAB_TX_GO (s.fw0 w.m) (fun s =>
    if !w.covers JFAB_TX_GO_TOKEN then s
    else if s.on JFAB_TX_STAT_BUSY then s.regRecord JFAB_TX_GO w.bits
    else
      let token := w.get JFAB_TX_GO_TOKEN
      let len := if w.covers JFAB_TX_GO_LEN then w.get JFAB_TX_GO_LEN else 0
      match (s.wr JFAB_TX_STAT_BUSY 1).txStart token len with
      | (t, true) => t.wr JFAB_TX_STAT_BUSY 0
      | (t, false) => t.rbufClear agentTx))

/-- ETHERNET_SEND_DONE (R513). -/
def execEthernetSendDone (s : State) : Host.Outcome State Fault Refusal :=
  .next (if s.on JFAB_TX_STAT_BUSY && s.on JFAB_TX_DEST_ETH && !s.freqs.any (fun q => q.2.sink == .txGo) then s.txEnds ST_OK else s)

/-! Frames received (R519 to R521). -/

/-- The watermark of a port's ingress buffer follows its fill (R521). -/
def State.ethMark (s : State) (p : Nat) : State :=
  let t := s.rd (JP_ETH_WM_THRESH p) * 1024
  s.watermark State.msix (JP_ETH_WM p) t (s.port p).ethFill (s.rd (JP_ETH_CFG_EVT_VECTOR p))

/-- A frame dropped and counted. -/
def State.dropFrame (s : State) (p : Nat) : State := s.count (JP_ETH_DROP_DROPPED p) 1

/-- A frame received into an arrival queue, or dropped (R514, R520); with whether it waits. -/
def State.rxFrame (s : State) (p : Nat) (f : List Byte) : State × Bool :=
  let q := s.rd (JP_ETH_CFG_RXQ p)
  if !s.on (JP_ETH_CFG_RXQ_EN p) || !s.on (JFAB_RXQ_CFG_EN q) then (s.dropFrame p, false)
  else
    match s.rxTake q with
    | (s, .error _) => (s.dropFrame p, false)
    | (s, .ok token) =>
      let (base, size) := s.bufferOf token
      if size < f.length then ((s.rxReturn token).dropFrame p, false)
      else
        match s.rxWrite base f false with
        | (s, 0) =>
          match s.rxPost q 1 p f.length token with
          | (s, 0) => (s, false)
          | (s, st) => ((s.rxReturn token).dropFrame p, st == rxWait)
        | (s, st) => ((s.rxReturn token).dropFrame p, st == rxWait)

/-- A frame passes on from the ingress buffer: to the transport, or to an arrival queue. -/
def State.passFrame (s : State) (p : Nat) (f : List Byte) : State × Bool :=
  let (t, a) := etherType f
  if s.on (JP_ETH_CFG_TRANSPORT_EN p) && t == s.rd (JP_ETH_CFG_ETYPE p)
      && beNat ((f.drop 6).take 6) == s.rd (JP_ETH_PEER_ADDR p) then (s.rxFlit p (f.drop a), false)
  else s.rxFrame p f

/-- Frames pass on from the ingress buffer in order, until one waits for a line that the host holds. -/
def State.passFrames (s : State) (p : Nat) : List (List Byte) → State
  | [] => s.setPort p { s.port p with ethFrames := [] }
  | f :: rest =>
    match s.passFrame p f with
    | (t, true) =>
      let s := s.snoopedBy t
      s.setPort p { s.port p with ethFrames := f :: rest }
    | (t, false) => t.passFrames p rest

/-- The fill of the ingress buffer is what its frames take (R521). -/
def State.ethHolds (s : State) (p : Nat) (fs : List (List Byte)) : State :=
  (s.setPort p { s.port p with ethFill := (fs.map (·.length)).sum }).ethMark p

/-- ETHERNET_FRAME (R518, R520 to R522). A frame passes on as it arrives unless it must wait, so that the ingress buffer holds
most frames only meanwhile; one with an FCS error is lost, and not counted (R519, log 33). -/
def execEthernetFrame (p : Port) (frame : List Byte) (fcsError : Bool) (s : State) : Host.Outcome State Fault Refusal :=
  let p := p.val
  let prio := framePrio frame
  .next (if !s.portUp p || !s.on (JP_CFG_MODE p) || fcsError then s
  else if 9216 < frame.length then s.dropFrame p
  else
    let s := if (ptpStart frame).isSome then s.stamp p false frame else s
    let old := (s.port p).ethFrames
    let s := s.ethHolds p (old ++ [frame])
    let high := s.on (JP_ETH_WM_LEVEL p)
    let pfc := bitOf (s.rd (JP_ETH_CFG_PFC_EN p)) prio
    let s := if high && pfc then (s.emit (.pause p prio)).count (JP_ETH_DROP_PAUSE_SENT p) 1 else s
    let s := if high && !pfc then (s.dropFrame p).passFrames p old else s.passFrames p (old ++ [frame])
    s.ethHolds p (s.port p).ethFrames)

/-- A read of JP_PTP_INFO (R522): one that covers VALID removes the oldest time stamp. The value is placed as the read returns it. -/
def State.ptpTake (s : State) (p width lane : Nat) : State × Word :=
  match (s.port p).stamps with
  | [] => (s, 0)
  | (tx, t, e, q) :: rest =>
    let v := 2 ^ 63 + b2n tx * 2 ^ 62 + e * 2 ^ 16 + q
    let taken := (s.setPort p { s.port p with stamps := rest }).setReg (JP_PTP_TIME p) (BitVec.ofNat 64 t)
    if width = 8 then (taken, BitVec.ofNat 64 v)
    else if lane = 4 then (taken, BitVec.ofNat 64 (v / 2 ^ 32))
    else (s, BitVec.ofNat 64 (v % 2 ^ 32))

/-- PTP_INFO_READ (R522). -/
def execPtpInfoRead (p : Port) (m : Master) (width lane : Nat) (s : State) : Host.Outcome State Fault Refusal :=
  .next (s.readRow m (JP_PTP_INFO p.val + lane) width true (fun s => s.ptpTake p.val width lane))

end Sys2Proof.Machine
end

