-- ==== Sys2Proof/Machine/FaultCmds.lean ====
section
/-! DEFINITION. The commands of the fault collector, broken locks, and the test access port (R583 to R599, R650,
R670, R671). -/
namespace Sys2Proof.Machine
open Reg

/-! Counting (R583, R585). -/

/-- LEAK_STEP (R583). -/
def execLeakStep (src : Source) (s : State) : Host.Outcome State Fault Refusal :=
  let f := src.val
  let p := max 1 (1000 * s.rd (FLT_SRC_WINDOW f) / max 1 (s.rd (FLT_SRC_N f)))
  .next (if !s.on (FLT_SRC_LEAK f) then s
  else
    let s := s.advanceTo (tabGet s.srcLeak 0 f + 1000 * p)
    { s.wr (FLT_SRC_LEAK f) (s.rd (FLT_SRC_LEAK f) - 1) with srcLeak := tabPut s.srcLeak f s.now })

/-- CLASS_DEMOTION (R585). -/
def execClassDemotion (src : Source) (s : State) : Host.Outcome State Fault Refusal :=
  let f := src.val
  .next (if s.rd (FLT_SRC_CLASS f) ≤ srcDefault f then s
  else
    let s := s.advanceTo (tabGet s.srcQuiet 0 f + 1000000 * s.rd (FLT_SRC_WINDOW f))
    { s.wr (FLT_SRC_CLASS f) (s.rd (FLT_SRC_CLASS f) - 1) with srcQuiet := tabPut s.srcQuiet f s.now })

/-! Escalation (R588). -/

/-- A record of the same source at class C with ESCALATED set, and the fence that its class brings (R586, R593). -/
def State.escalate (s : State) (r : FltRec) (status : Nat) : State :=
  let unit := if status = 0 then s.fenceOf r.source r.inst 2 else none
  let merged := tabGet s.srcMerged 0 r.source
  let s := { s with srcMerged := tabDel s.srcMerged r.source, srcLast := tabPut s.srcLast r.source s.now }
  let s := s.writeRecord { r with cls := 2, promoted := false, escalated := true, fence := unit.isSome, status := status, merged := merged }
  match unit with
  | some u => s.fenceUnit u
  | none => s

/-- ESC_B_EXPIRY (R588). -/
def execEscBExpiry (src : Source) (s : State) : Host.Outcome State Fault Refusal :=
  .next (match tabFind s.srcTimer src.val with
    | some (t, r) =>
      if s.rd (FLT_SRC_PENDING src.val) = 1 then (s.advanceTo (t + 1000 * s.rd FLT_CFG_ESC_B_TIME)).escalate r 0 else s
    | none => s)

/-- ESC_C_EXPIRY (R588). -/
def execEscCExpiry (src : Source) (s : State) : Host.Outcome State Fault Refusal :=
  .next (match tabFind s.srcTimer src.val with
    | some (t, r) =>
      if s.rd (FLT_SRC_PENDING src.val) = 2 then
        ((s.advanceTo (t + 1000000 * s.rd FLT_CFG_ESC_C_TIME)).escalate r ST_ABORTED_RESET).moduleReset 4
      else s
    | none => s)

/-! Acknowledging and fencing (R589, R594, R596, R599). -/

/-- FLT_ACK (R589, R599). -/
def execFltAck (w : RegWrite) (s : State) : Host.Outcome State Fault Refusal :=
  .next (s.regRow w FLT_ACK (s.fwOrHost w.m && w.width == 8) (fun s =>
    match s.acknowledge (w.get FLT_ACK_SOURCE) (w.get FLT_ACK_SEQ) (w.m != .host) with
    | (s, 0) => s
    | (s, _) => s.regRecord FLT_ACK w.bits))

/-- A cluster is fenced: its SVUs, its core, and the P side of its mailbox (R596). -/
def State.fenceCluster (s : State) (k : Nat) : State :=
  let s := s.wr ⟨FLT_FENCED_UNIT, 16 + k, 16 + k⟩ 1
  let s := (rangeFrom (4 * k) 4).foldl (fun s i => if s.svuFenced i then s else s.fenceSvu i) s
  (s.coreOff k).mbxReset k 1

/-- A port is fenced by firmware: it enters DOWN, with the record of R506, and stays there. -/
def State.fencePortNow (s : State) (p : Nat) : State :=
  let s := s.wr ⟨FLT_FENCED_UNIT, p, p⟩ 1
  if s.portState p = 4 then s else s.portLost p

/-- FLT_FENCE (R594, R599). A unit fenced before stays so. -/
def execFltFence (w : RegWrite) (s : State) : Host.Outcome State Fault Refusal :=
  .next (s.regRow w FLT_FENCE (s.fw0 w.m) (fun s =>
    if !w.covers FLT_FENCE_GO || w.get FLT_FENCE_GO = 0 then s
    else
      let i := w.get FLT_FENCE_INSTANCE
      match w.get FLT_FENCE_KIND with
      | 0 => if 96 ≤ i then s.regRecord FLT_FENCE w.bits else if s.svuFenced i then s else s.fenceSvu i
      | 1 => if 24 ≤ i then s.regRecord FLT_FENCE w.bits else if s.clusFenced i then s else s.fenceCluster i
      | 2 => if 96 ≤ i then s.regRecord FLT_FENCE w.bits else if s.chFenced i then s else s.fenceChannel i
      | 3 => if 16 ≤ i then s.regRecord FLT_FENCE w.bits else if s.portFenced i then s else s.fencePortNow i
      | _ => s.regRecord FLT_FENCE w.bits))

/-! Locks (R650, R651). -/

/-- The break timer of a lock stands still: a lock of SUP_A in CHECKED mode whose interval is being checked (R651). -/
def State.lockPaused (s : State) (n : Nat) : Bool := n == 0 && s.rd VERIF_SUP_MODE == 0 && s.sup.closing

/-! The test access port (R670, R671). `ir` numbers the instructions of R671: 0 BYPASS, 1 IDCODE, 2 SAMPLE/PRELOAD, 3 EXTEST,
4 CLAMP, 5 HIGHZ, 6 EXTEST_PULSE, 7 EXTEST_TRAIN, 8 a maker-private instruction; any other selects BYPASS (log 34). -/

/-- The 32-bit IDCODE (R670); the manufacturer identity is not stated: a free value. -/
def State.idcode (s : State) : Nat × State :=
  let (m, s) := s.fresh
  (s.rd IDENT_PART_SILICON_REV % 16 * 2 ^ 28 + 0x9600 * 2 ^ 12 + m % 2048 * 2 + 1, s)

/-- The module stops as in the ripcord state, without a record (R671). -/
def State.boundaryStop (s : State) : State := if s.power.ripcord || s.power.off then s else s.ripcord

/-- What TDO shifts out of the one-bit bypass register: the data late by one bit. -/
def bypass (dr : Word) : Nat := 2 * dr.toNat % 2 ^ 64

/-- TAP_INSTRUCTION (R670, R671). -/
def execTapInstruction (ir : Nat) (dr : Word) (s : State) : Host.Outcome State Fault Refusal :=
  let sel := fun (s : State) (n : Nat) => { s with gloley := { s.gloley with tapIr := n } }
  if s.power.off then .next s
  else if ir = 1 then
    let (v, s) := (sel s 1).idcode
    .next (s.emit (.tdo v))
  else if ir = 2 then
    let (v, s) := (sel s 2).fresh
    .next (s.emit (.tdo v))
  else if 3 ≤ ir ∧ ir ≤ 7 then
    let s := (sel s ir).boundaryStop
    if ir = 4 ∨ ir = 5 then .next (s.emit (.tdo (bypass dr)))
    else
      let (v, s) := s.fresh
      .next (s.emit (.tdo v))
  else if ir = 8 ∧ (s.lcs = 0 ∨ s.lcs = 3) then .refused .makerPrivate
  else .next ((sel s 0).emit (.tdo (bypass dr)))

/-- TEST_LOGIC_RESET (R670, R671): IDCODE is selected, and the lands leave the boundary register; a stopped module stays so. -/
def execTestLogicReset (s : State) : Host.Outcome State Fault Refusal :=
  .next (if s.power.off then s else { s with gloley := { s.gloley with tapIr := 1 } })

end Sys2Proof.Machine
end

