-- ==== Sys2Proof/Machine/LiveRegs.lean ====
section
/-! DEFINITION. Register words that show what other state holds at the moment of a read (R54, R138, R528, R535,
R597, R603). Every other register reads as it was last set. -/
namespace Sys2Proof.Machine
open Reg

/-- A word with a field replaced. -/
def withField (w : Word) (f : RF) (v : Nat) : Word := setField w f.hi f.lo v

/-- A set of channels by a property, from channel `base`, as bits. -/
def chanBits (base n : Nat) (p : Nat → Bool) : Nat := ((List.range n).map (fun i => b2n (p (base + i)) * 2 ^ i)).sum

/-! Channels (R54). -/

/-- INTLV_PROBE_RESULT for the address of INTLV_PROBE_ADDR (R54). -/
def State.probeWord (s : State) : Nat :=
  let a := s.rd INTLV_PROBE_ADDR_ADDR
  if memTop ≤ a then 0
  else
    let c := channelOf a
    let w := rowGranuleOf a
    2 ^ 63 + w * 2 ^ 32 + bankOf w * 2 ^ 16 + c / 8 * 2 ^ 12 + c

/-! SVUs (R138). -/

/-- The chain and the context whose range SVU `i` shows: the one whose block runs, else the one handed to it first. -/
def State.shownCtx (s : State) (i : Nat) : Option (Nat × Nat) :=
  let x := s.svu i
  match x.current with
  | some id => x.ctxs.find? (fun c => c.1 == id)
  | none => x.ctxs.head?

/-- SVU_CHAIN_STATE.STATE of a phase. -/
def phaseCode : Phase → Nat
  | .prefetch => 1
  | .run => 2
  | .drain => 3
  | .stopped => 4
  | .done => 0

/-- The ranges that an SVU holds (R435). -/
def State.rangesHeld (s : State) (i : Nat) : Nat :=
  ((s.svu i).ctxs.map (fun x => match s.chainOf x.1 with
    | some c => (c.slices.filter (fun l => l.svu == i && l.phase != .done)).length
    | none => 0)).sum

/-- The four SVU_CHAIN words of SVU `i`. Where it holds no range, the fields that would describe one read 0; the spec does not say what
they show then, and this is the model's choice (log 67). -/
def State.chainWords (s : State) (i : Nat) : List Nat :=
  let held := s.rangesHeld i
  match s.shownCtx i with
  | none => [held * 2 ^ 16, 0, 0, 0]
  | some (id, ctx) =>
    match (s.chainOf id).bind (fun c => (c.sliceOn i).map (fun l => (c, l))) with
    | none => [held * 2 ^ 16, 0, 0, 0]
    | some (c, l) =>
      let who := match c.issuer with
        | .ring r _ => r * 2 ^ 32
        | .task .. => 2 ^ 8
      [l.lsl * 2 ^ 40 + who + held * 2 ^ 16 + ctx * 2 ^ 12 + phaseCode l.phase, l.first, l.fin, l.next]

/-- SVU_LOFT_STATE of SVU `i`. -/
def State.loftWord (s : State) (i : Nat) : Nat :=
  let ops := (s.svu i).queue.filter (fun o => o.mark == 0)
  (s.svu i).group * 2 ^ 40 + ops.length * 2 ^ 32 + b2n (ops.any (fun o => o.started))

/-! Power and start-up. -/

/-- A power in W as a whole number; which of the two nearest, the spec leaves open: a free value decides (log 19). -/
def State.watts (s : State) (p : Rat) : Nat × State :=
  let n := p.floor.toNat
  if p = (n : Rat) then (n, s)
  else
    let (v, s) := s.fresh
    (n + v % 2, s)

/-- PWR_ENV. -/
def State.envWord (s : State) : Nat × State :=
  let (c, s) := s.watts s.committed
  (s.envelope * 2 ^ 48 + c % 65536 * 2 ^ 32 + s.power.hot % 256 * 2 ^ 24 + min 255 s.power.waiting.length * 2 ^ 16 + s.level, s)

/-- LCS_BOOT.PHASE: while firmware starts, how far the towers have come (R601). -/
def State.bootPhase (s : State) : Nat :=
  let p := s.rd LCS_BOOT_PHASE
  if p ≠ 2 then p
  else if (List.range 96).all (fun c => s.chFenced c || s.rd (MEMC_STATUS_STATE c) == 2) then 4
  else if (List.range 12).any (fun t => s.domainOn (48 + t) || s.power.domWait.contains (48 + t, true)) then 3
  else 2

/-- LCS_BOOT; PROGRESS is a free value of 0 to 100 (log 19). -/
def State.bootWord (s : State) : Nat × State :=
  let (v, s) := s.fresh
  let w := withField (withField (s.reg LCS_BOOT) LCS_BOOT_PHASE s.bootPhase) LCS_BOOT_PROGRESS (v % 101)
  (w.toNat, s)

/-! The trouble log (R597). -/

/-- Word `w` of the record that TLOG_SEL selects; 0 when the log does not hold it. -/
def State.tlogWord (s : State) (w : Nat) : Nat :=
  match s.tlog.find? (fun r => r.seq == s.rd TLOG_SEL_SEQ) with
  | some r => r.words.getD w 0
  | none => 0

/-! The word a read finds. -/

/-- A counter of energy or replays, which no row advances: what came since its last read is a free amount (R50, R544, log 19). -/
def State.grown (s : State) (f : RF) : Word × State :=
  let (v, s) := s.fresh
  let s := s.count f v
  (s.reg f.off, s)

/-- The word of a register of SVU `i` at an offset of its sub-block. -/
def State.svuWord (s : State) (i off : Nat) : Word × State :=
  if off = SVU_LOFT_STATE i then (BitVec.ofNat 64 (s.loftWord i), s)
  else if off < SVU_SPOOL_STALL i then (BitVec.ofNat 64 ((s.chainWords i).getD ((off - SVU_CHAIN_STATE i) / 8) 0), s)
  else (s.reg off, s)

/-- The word that a read of a register finds, but for the CORE and MBX registers. -/
def State.live (s : State) (off : Nat) : Word × State :=
  if 0x800000 ≤ off ∧ off < 0xe00000 ∧ 0x8000 ≤ off % 0x40000 ∧ off % 0x40000 < 0x28000 then
    s.svuWord (4 * ((off - 0x800000) / 0x40000) + (off % 0x40000 / 0x8000 - 1)) off
  else if 0x100000 ≤ off ∧ off < 0x700000 ∧ (off % 0x10000 = 0x120 ∨ off % 0x10000 = 0x128) then
    let s := s.scrubSync ((off - 0x100000) / 0x10000)
    (s.reg off, s)
  else if off = INTLV_PROBE_RESULT then (BitVec.ofNat 64 s.probeWord, s)
  else if off = INTLV_SERVICE_LO then (BitVec.ofNat 64 (chanBits 0 64 (fun c => s.rd (MEMC_STATUS_STATE c) == 2)), s)
  else if off = INTLV_SERVICE_HI then (BitVec.ofNat 64 (chanBits 64 32 (fun c => s.rd (MEMC_STATUS_STATE c) == 2)), s)
  else if off = VERIF_SUP then (withField (s.reg off) VERIF_SUP_HELD s.sup.held.length, s)
  else if off = HIF_BI then (withField (s.reg off) HIF_BI_HELD s.host.dir.length, s)
  else if off = HIF_ERR then s.grown HIF_ERR_REPLAY
  else if off = PWR_ENV then
    let (v, s) := s.envWord
    (BitVec.ofNat 64 v, s)
  else if off = PWR_CAP then (withField (s.reg off) PWR_CAP_IN_EFFECT s.capInEffect, s)
  else if off = PWR_VENT then s.grown PWR_VENT_ENERGY
  else if off = TLOG_STAT ∧ s.tlog = [] then (withField (s.reg off) TLOG_STAT_OLDEST_SEQ (s.rd FLT_STAT_NEXT_SEQ), s)
  else if TLOG_DATA 0 ≤ off ∧ off < TLOG_DATA 4 then (BitVec.ofNat 64 (s.tlogWord ((off - TLOG_DATA 0) / 8)), s)
  else if off = LCS_BOOT then
    let (v, s) := s.bootWord
    (BitVec.ofNat 64 v, s)
  else (s.reg off, s)

end Sys2Proof.Machine
end

