-- ==== Sys2Proof/Machine/Gloley.lean ====
section
/-! DEFINITION. The Gloley management port: frames, availability, requests, recovery, and its bus commands (R629 to
R642). A request is performed in the step that accepts it; the response of one that firmware serves is ready within its bound (log
70). -/
namespace Sys2Proof.Machine
open Reg

/-! Frames (R633 to R635). -/

/-- One bit of the CRC-16 of R633. -/
def crc16Bit (c : Nat) (_ : Nat) : Nat := if 2 ^ 15 ≤ c then (2 * c % 2 ^ 16) ^^^ 0x1021 else 2 * c

/-- CRC-16 of R633: polynomial 0x1021, initial value 0xFFFF, no reflection, no final inversion. -/
def crc16 (bs : List Byte) : Nat := bs.foldl (fun c b => (List.range 8).foldl crc16Bit (c ^^^ (b.toNat * 2 ^ 8))) 0xffff

/-- The fields of a request frame. -/
structure GlReq where
  op : Nat
  tag : Nat
  session : Nat
  arg : Nat
  data : List Byte
  deriving DecidableEq, Repr

/-- A field of a frame: `n` bytes from byte `k`, little-endian. -/
def frameField (bs : List Byte) (k n : Nat) : Nat := leNat ((bs.drop k).take n)

/-- The frame is rejected (R635). -/
def frameBad (bs : List Byte) : Bool :=
  let len := frameField bs 4 2
  bs.length != 18 + len || decide (256 < len) || frameField bs 0 1 != 1 || frameField bs 2 1 != 0 || frameField bs 6 2 != 0
    || crc16 (bs.take (16 + len)) != frameField bs (16 + len) 2

/-- The request that a frame holds. -/
def frameReq (bs : List Byte) : GlReq :=
  { op := frameField bs 1 1, tag := frameField bs 3 1, session := frameField bs 8 4, arg := frameField bs 12 4
    data := (bs.drop 16).take (frameField bs 4 2) }

abbrev kindDone : Nat := 0
abbrev kindBusyInit : Nat := 1
abbrev kindFailed : Nat := 2
abbrev kindPending : Nat := 3
abbrev kindFrameErr : Nat := 4

/-- A response frame (R633). -/
def State.glFrame (s : State) (op tag kind status reply : Nat) (data : List Byte) : State × List Byte :=
  let (boot, s) := s.bootWord
  let pstate := s.rd PWR_STATE_STATE + b2n s.isReady * 8 + b2n s.power.ripcord * 16 + b2n (s.gloley.alerts != 0) * 32
  let h := leBytes 1 1 ++ leBytes 1 op ++ leBytes 1 (0x80 + kind) ++ leBytes 1 tag ++ leBytes 2 data.length ++ leBytes 1 status
    ++ leBytes 1 (bitsOf boot 43 40) ++ leBytes 1 (bitsOf boot 55 48) ++ leBytes 1 pstate ++ leBytes 2 0 ++ leBytes 4 reply
  (s, h ++ data ++ leBytes 2 (crc16 (h ++ data)))

/-- The response of an accepted request is ready. -/
def State.glReady (s : State) (q : GlReq) (kind status reply : Nat) (data : List Byte) : State :=
  let (s, bs) := s.glFrame q.op q.tag kind status reply data
  { s with gloley := { s.gloley with response := bs, readOnce := false, owed := false, lost := false } }

/-- The port answers on its bus (R632). -/
def State.glAnswers (s : State) : Bool := !s.power.off

/-- The bound, in ns, of a request that firmware serves (R636). -/
def GlReq.bound (q : GlReq) : Nat :=
  match q.op with
  | 3 => 20000000
  | 6 => 200000000
  | _ =>
    match q.arg / 2 ^ 30 with
    | 1 => 5000000
    | 3 => 10000000
    | _ => 3000000000

/-- A request that firmware serves is being performed: its response is ready at a free moment within its bound (R634, R636, log 70). -/
def State.glWorks (s : State) (q : GlReq) (ready : Bool) : State :=
  let (v, s) := s.fresh
  { s with gloley := { s.gloley with readyAt := s.now + v % (q.bound + 1), owed := ready } }

/-! Availability (R637). -/

/-- Request codes that R636 lists. -/
def glListed (op : Nat) : Bool := decide (1 ≤ op) && decide (op ≤ 10)

/-- The loader waits for a maker session over the Gloley port (R606). -/
def State.holdBoot (s : State) : Bool := s.life.loading && s.rd LCS_STATE_BOOT_MODE % 4 == 2 && (s.lcs == 0 || s.lcs == 3)

/-- KIND and STATUS of a request that is not served in this state; `hw` says that hardware serves it. -/
def State.glGate (s : State) (op : Nat) (hw : Bool) : Option (Nat × Nat) :=
  if s.power.ripcord then (if op ≤ 2 ∨ (op = 3 ∧ hw) then none else some (kindDone, ST_NOT_READY))
  else if s.lcs = 4 then (if hw ∧ op ≠ 8 then none else some (kindDone, ST_NOT_READY))
  else if hw then none
  else if s.rd LCS_BOOT_PHASE = 7 then some (kindFailed, 0)
  else if s.rd LCS_BOOT_PHASE = 6 then (if op = 6 ∨ op = 10 then none else some (kindBusyInit, 0))
  else if s.isReady || s.rd PWR_STATE_STATE == 2 || (op == 6 && s.holdBoot) then none
  else some (kindBusyInit, 0)

/-- A request frame arrives; one of this row's request code is performed by `f`: status, reply and payload. While a request is being
performed the port takes no other (R634). -/
def State.glRequest (s : State) (x : Frame) (op : Nat) (hw : GlReq → Bool) (mine : GlReq → Bool)
    (f : State → GlReq → State × Nat × Nat × List Byte) : State :=
  let q := frameReq x.bytes
  if !s.glAnswers || decide (s.now < s.gloley.readyAt) then s
  else if frameBad x.bytes then s.glReady q kindFrameErr 0 0 []
  else if !glListed q.op then s.glReady q kindDone ST_BAD_OPCODE 0 []
  else if q.op ≠ op || !mine q then s
  else
    match s.glGate op (hw q) with
    | some (k, st) => s.glReady q k st 0 []
    | none =>
      let ready := s.isReady
      let s := if !hw q && s.rd PWR_STATE_STATE == 2 then s.flashTouch else s
      let (s, st, reply, data) := f s q
      let s := s.glReady q kindDone st reply data
      if hw q then s else s.glWorks q ready

/-- A refused request with no payload. -/
def glOnly (s : State) (st : Nat) : State × Nat × Nat × List Byte := (s, st, 0, [])

/-- Images of registers as a payload, the later ones read in the state that the earlier ones leave. -/
def State.images (s : State) (offs : List Nat) : State × List Byte :=
  offs.foldl (fun (a : State × List Byte) o =>
    let (v, s) := a.1.live o
    (s, a.2 ++ leBytes 8 v.toNat)) (s, [])

/-! Requests (R636). -/

/-- GLOLEY_STATUS (R636, R642): the alert causes are reported and cleared. -/
def execGloleyStatus (f : Frame) (s : State) : Host.Outcome State Fault Refusal :=
  .next (s.glRequest f 1 (fun _ => true) (fun _ => true) (fun s q =>
    if q.data ≠ [] then glOnly s ST_BAD_PARAM
    else
      let (s, bs) := s.images [TIME_NOW, TIME_EPOCH, FLT_STAT, LCS_BOOT]
      let a := s.gloley.alerts
      ({ s with gloley := { s.gloley with alerts := 0 } }, ST_OK, a, bs)))

/-- TELEMETRY (R636). -/
def execTelemetry (f : Frame) (s : State) : Host.Outcome State Fault Refusal :=
  .next (s.glRequest f 2 (fun _ => true) (fun _ => true) (fun s q =>
    if q.data ≠ [] then glOnly s ST_BAD_PARAM
    else
      let (s, bs) := s.images [PWR_INPUT, PWR_ENV, PWR_CAP, PWR_STATE, PWR_DOMAIN_LO, PWR_DOMAIN_HI, CLK_STAT, FLT_STAT]
      (s, ST_OK, 0, bs)))

/-- GLOLEY_LOG_READ (R598, R636): LOG 1 is served by firmware. -/
def execGloleyLogRead (f : Frame) (s : State) : Host.Outcome State Fault Refusal :=
  .next (s.glRequest f 3 (fun q => leNat (q.data.take 1) != 1) (fun _ => true) (fun s q =>
    let log := leNat (q.data.take 1)
    let count := leNat (q.data.drop 1)
    if q.data.length ≠ 2 ∨ 1 < log ∨ count = 0 ∨ (if log = 0 then 8 else 4) < count then glOnly s ST_BAD_PARAM
    else
      let ws := s.logWords (log == 1) q.arg count
      let s := if log = 1 then s.flashTouch else s
      (s, ST_OK, ws.length / (if log = 0 then 4 else 8), ws.flatMap (leBytes 8))))

/-- GLOLEY_FAULT_ACK (R639). -/
def execGloleyFaultAck (f : Frame) (s : State) : Host.Outcome State Fault Refusal :=
  .next (s.glRequest f 4 (fun _ => true) (fun _ => true) (fun s q =>
    if q.data.length ≠ 2 then glOnly s ST_BAD_PARAM
    else
      let (s, st) := s.acknowledge (leNat q.data) q.arg false
      glOnly s st))

/-- GLOLEY_POWER_CAP (R545, R636). -/
def execGloleyPowerCap (f : Frame) (s : State) : Host.Outcome State Fault Refusal :=
  .next (s.glRequest f 5 (fun _ => true) (fun _ => true) (fun s q =>
    if q.data ≠ [] ∨ 65536 ≤ q.arg then glOnly s ST_BAD_PARAM
    else
      let (s, st) := s.setCap PWR_CAP_BOARD q.arg
      (s, st, s.capInEffect, [])))

/-- GLOLEY_ROLE_AUTH (R622, R623, R636). -/
def execGloleyRoleAuth (f : Frame) (s : State) : Host.Outcome State Fault Refusal :=
  .next (s.glRequest f 6 (fun _ => false) (fun _ => true) (fun s q =>
    let role := q.arg % 4
    let step := q.arg / 4
    let len := if step = 0 then (if q.data = [] then 64 else 0) else q.data.length
    if step = 2 ∧ q.data ≠ [] then glOnly s ST_BAD_PARAM
    else match s.authRefused 64 role step len with
    | some st => glOnly (s.authFail 64 role 0 st) st
    | none =>
      if step = 0 then
        let (s, sid, block) := s.newChallenge role
        (s.setChallenge 64 role sid block, ST_OK, sid, leBytes 64 block)
      else if step = 1 then
        let (s, st, sid) := s.answerChallenge 64 role q.data
        (s, st, sid, [])
      else glOnly (s.closeSession 64 role) ST_OK))

/-- GLOLEY_RESET (R640): the module reset starts later. -/
def execGloleyReset (f : Frame) (s : State) : Host.Outcome State Fault Refusal :=
  .next (s.glRequest f 7 (fun _ => true) (fun _ => true) (fun s q =>
    if q.data ≠ [] then glOnly s ST_BAD_PARAM
    else
      let t := s.now + 10000000
      glOnly { s with gloley := { s.gloley with resetAt := some (match s.gloley.resetAt with
        | some u => min u t
        | none => t) } } ST_OK))

/-- GLOLEY_RESET_START (R640). -/
def execGloleyResetStart (s : State) : Host.Outcome State Fault Refusal :=
  .next (match s.gloley.resetAt with
    | none => s
    | some t =>
      let s := s.advanceTo t
      ({ s with gloley := { s.gloley with resetAt := none } } : State).moduleReset 3)

/-- GLOLEY_POWER_STATE (R550, R641). -/
def execGloleyPowerState (f : Frame) (s : State) : Host.Outcome State Fault Refusal :=
  .next (s.glRequest f 8 (fun _ => true) (fun _ => true) (fun s q =>
    if q.data ≠ [] ∨ q.arg ≠ q.arg % 4 + q.arg / 256 % 2 * 256 then glOnly s ST_BAD_PARAM
    else
      let s := s.requestState (q.arg % 4) (bitOf q.arg 8)
      glOnly { s with gloley := { s.gloley with stowFrom := s.now + 1000000 } } (s.rd PWR_STATE_RESULT)))

/-- Words sent to a mailbox until one is dropped; whether one was (R446, R636). -/
def State.glSends (s : State) : List Nat → State × Bool
  | [] => (s, false)
  | v :: vs =>
    let full := !s.on (MBX_STAT_READY 28 0) || decide (16 ≤ (s.side 28 0).queue.length)
    let s := s.mbxSend 28 1 (BitVec.ofNat 64 v)
    if full then (s, true) else s.glSends vs

/-- Words received from the P side's own queue. -/
def State.glTakes (s : State) : Nat → State × List Byte
  | 0 => (s, [])
  | n + 1 =>
    let (s, v) := s.mbxTake 28 1
    let (s, bs) := s.glTakes n
    (s, leBytes 8 v.toNat ++ bs)

/-- MAILBOX (R444 to R450, R636): READY, doorbell, sends, then reads, on the P side of MBX_28. -/
def execMailbox (f : Frame) (s : State) : Host.Outcome State Fault Refusal :=
  .next (s.glRequest f 9 (fun _ => true) (fun _ => true) (fun s q =>
    if 128 < q.data.length ∨ q.data.length % 8 ≠ 0 then glOnly s ST_BAD_PARAM
    else
      let s := if bitOf q.arg 31 then s.wr (MBX_STAT_READY 28 1) 1 else s
      let bell := q.arg % 2 ^ 31
      let s := if bell = 0 then s else s.mbxRing 28 1 bell
      let (s, dropped) := s.glSends ((List.range (q.data.length / 8)).map (fun k => leNat ((q.data.drop (8 * k)).take 8)))
      let (s, bs) := s.glTakes (min 16 (s.side 28 1).queue.length)
      let space := if s.on (MBX_STAT_READY 28 0) then 16 - (s.side 28 0).queue.length else 0
      (s, if dropped then ST_BUSY else ST_OK, (s.side 28 1).queue.length + space * 2 ^ 8, bs)))

/-! Recovery (R607, R617, R618, R636). -/

/-- The Gloley session of an identifier that holds installer rights; its use is noted (R621, R624). -/
def State.glSession (s : State) (sid : Nat) : Option (State × Nat) :=
  match (List.range 4).find? (fun i => s.installerSession i && s.on (LCS_SESSION_GLOLEY i) && s.rd (LCS_SESSION_ID i) == sid) with
  | some i => some ({ s with life := { s.life with used := tabPut s.life.used i s.now } }, i)
  | none => none

/-- A stage of FW_RECOVERY: refused outside PHASE RECOVERY and without the right, BUSY for another session than the open
update's, recorded as R618 says, and performed by `f` when it is in order. -/
def State.recover (s : State) (f : Frame) (stage : Nat) (inOrder : State → GlReq → Bool) (act : State → GlReq → State × Nat × Nat) : State :=
  s.glRequest f 10 (fun _ => false) (fun q => q.arg / 2 ^ 30 == stage) (fun s q =>
    if s.rd LCS_BOOT_PHASE ≠ 6 then glOnly s ST_NOT_READY
    else
      match s.glSession q.session with
      | none => glOnly s ST_NO_RIGHT
      | some (s, i) =>
        if s.on LCS_UPDATE_OPEN && s.life.updSession != q.session then glOnly (s.wr LCS_UPDATE_RESULT ST_BUSY) ST_BUSY
        else
          let (t, st, reply) := if inOrder s q then act s q else (s, ST_BAD_PARAM, 0)
          let s := (t.audit 5 st (s.sessionActor i) stage (q.arg % 2 ^ 30) (if stage = 2 ∧ inOrder s q then s.imageDigest 0 else 0)).wr LCS_UPDATE_RESULT st
          (s, st, reply, []))

/-- FW_RECOVERY_OPEN (R618, R636). -/
def execFwRecoveryOpen (f : Frame) (s : State) : Host.Outcome State Fault Refusal :=
  .next (s.recover f 0 (fun s q => !s.on LCS_UPDATE_OPEN && decide (q.arg % 2 ^ 30 ≤ bankSize) && q.data.isEmpty) (fun s q =>
    let n := q.arg % 2 ^ 30
    let s := s.flashTouch.flashErase 0 n
    let s : State := { s with life := { s.life with flashOpen := some (0, n), updSession := q.session } }
    ((((s.wr LCS_UPDATE_OPEN 1).wr LCS_UPDATE_STAGE 1).wr LCS_UPDATE_RING 0).wr LCS_UPDATE_WRITTEN 0, ST_OK, 0)))

/-- FW_RECOVERY_WRITE (R636): the payload goes to the offset that the bytes written have reached. -/
def execFwRecoveryWrite (f : Frame) (s : State) : Host.Outcome State Fault Refusal :=
  .next (s.recover f 1 (fun s q =>
      s.on LCS_UPDATE_OPEN && (s.rd LCS_UPDATE_STAGE == 1 || s.rd LCS_UPDATE_STAGE == 2) && !q.data.isEmpty
        && decide (q.data.length ≤ s.updateRoom) && q.arg % 2 ^ 30 == s.rd LCS_UPDATE_WRITTEN) (fun s q =>
    let n := s.rd LCS_UPDATE_WRITTEN
    let s := s.flashTouch.flashWrite n q.data
    ((s.wr LCS_UPDATE_WRITTEN (n + q.data.length)).wr LCS_UPDATE_STAGE 2, ST_OK, n + q.data.length)))

/-- FW_RECOVERY_CHECK (R617, R618). -/
def execFwRecoveryCheck (f : Frame) (s : State) : Host.Outcome State Fault Refusal :=
  .next (s.recover f 2 (fun s _ => s.on LCS_UPDATE_OPEN && s.rd LCS_UPDATE_STAGE == 2) (fun s _ =>
    if s.checkImage 0 then ((s.flashTouch).wr LCS_UPDATE_STAGE 3, ST_OK, s.imageField 0 0x10 4) else (s.flashTouch, ST_BAD_PARAM, 0)))

/-- The end of recovery: bank 0 boots next, RECOVERY is recorded, and the module resets (R607). -/
def State.recovered (s : State) : State :=
  let s := (s.wr LCS_FW_BOOT_BANK 0).wr LCS_FW_TRIAL 0
  let s : State := { s.flashTouch with life := { s.life with flashOpen := none, updSession := 0 } }
  let s := (s.wr LCS_UPDATE_OPEN 0).wr LCS_UPDATE_STAGE 4
  let actor := match (List.range 4).find? (fun i => s.installerSession i && s.on (LCS_SESSION_GLOLEY i)) with
    | some i => s.sessionActor i
    | none => {}
  s.audit 11 ST_OK actor 0 0 0

/-- FW_RECOVERY_COMMIT (R607, R636): the module reset follows the response. -/
def execFwRecoveryCommit (f : Frame) (s : State) : Host.Outcome State Fault Refusal :=
  let t := s.recover f 3 (fun s _ => s.on LCS_UPDATE_OPEN && s.rd LCS_UPDATE_STAGE == 3) (fun s _ => (s.recovered, ST_OK, 0))
  .next (if s.rd LCS_UPDATE_STAGE = 3 ∧ t.rd LCS_UPDATE_STAGE = 4 then t.moduleReset 3 else t)

/-! Responses and the bus (R630, R631, R634). -/

/-- The response of a request that lost READY before it was ready (R638). -/
def State.glAbort (s : State) : State :=
  if !s.gloley.lost then s
  else
    let r := s.gloley.response
    s.glReady { op := frameField r 1 1, tag := frameField r 3 1, session := 0, arg := 0, data := [] } kindDone ST_ABORTED_RESET 0 []

/-- GLOLEY_RESPONSE_READ (R634, R638, R640): the first read of a RESET's response brings its start to 1 ms from now. -/
def execGloleyResponseRead (s : State) : Host.Outcome State Fault Refusal :=
  .next (if !s.glAnswers then s
  else if s.gloley.response = [] || decide (s.now < s.gloley.readyAt) then
    let r := s.gloley.response
    let (s, bs) := s.glFrame (frameField r 1 1) (frameField r 3 1) kindPending 0 0 []
    s.emit (.gloley bs)
  else
    let s := s.glAbort
    let first := !s.gloley.readOnce && frameField s.gloley.response 1 1 == 7
    let at' := s.gloley.resetAt.map (fun t => if first then s.now + 1000000 else t)
    ({ s with gloley := { s.gloley with readOnce := true, resetAt := at' } } : State).emit (.gloley s.gloley.response))

/-- The port takes a dynamic address, and answers in I3C only (R630). -/
def State.takeAddress (s : State) (addr : Nat) : State := { s with gloley := { s.gloley with i3c := true, dyn := some addr } }

/-- SETDASA (R630): a port without a dynamic address takes one. -/
def execSetdasa (addr : Nat) (s : State) : Host.Outcome State Fault Refusal :=
  .next (if s.glAnswers && s.gloley.dyn.isNone then s.takeAddress addr else s)

/-- ENTDAA (R630, R631): the Provisional ID's low 32 bits take part in the arbitration. -/
def execEntdaa (addr : Nat) (s : State) : Host.Outcome State Fault Refusal :=
  .next (if s.glAnswers && s.gloley.dyn.isNone then (s.emit (.i3c (s.rd IDENT_SERIAL_SERIAL % 2 ^ 32))).takeAddress addr else s)

/-- SETNEWDA (R631). -/
def execSetnewda (addr : Nat) (s : State) : Host.Outcome State Fault Refusal :=
  .next (if s.glAnswers && s.gloley.dyn.isSome then s.takeAddress addr else s)

/-- RSTDAA (R630). -/
def execRstdaa (s : State) : Host.Outcome State Fault Refusal :=
  .next (if s.glAnswers then { s with gloley := { s.gloley with i3c := false, dyn := none } } else s)

/-- GETMRL (R631). -/
def execGetmrl (s : State) : Host.Outcome State Fault Refusal :=
  .next (if s.glAnswers && s.gloley.i3c then s.emit (.i3c 274) else s)

/-- GETMWL (R631). -/
def execGetmwl (s : State) : Host.Outcome State Fault Refusal :=
  .next (if s.glAnswers && s.gloley.i3c then s.emit (.i3c 274) else s)

/-- ENEC (R631, R642). -/
def execEnec (s : State) : Host.Outcome State Fault Refusal :=
  .next (if s.glAnswers then { s with gloley := { s.gloley with ibiEn := true } } else s)

/-- DISEC (R631, R642). -/
def execDisec (s : State) : Host.Outcome State Fault Refusal :=
  .next (if s.glAnswers then { s with gloley := { s.gloley with ibiEn := false } } else s)

end Sys2Proof.Machine
end

