-- ==== Sys2Proof/Machine/CoreRegs.lean ====
section
/-! DEFINITION. Hardware tasks as the CORE registers show and change them: the operand stack's bounds, the save-area
words, STOP and START, the task window, pins, vectors and raised interrupts (R335, R336, R375 to R382, R389, R400). -/
namespace Sys2Proof.Machine
open Reg

/-! The stack of a task (R335, R336, R377, R392). -/

/-- The stack a task uses: that of its ring, or the drogue stack. -/
def TaskRegs.space (x : TaskRegs) : Nat := if x.drogue then 4 else x.ring

/-- SB and SL in force; the drogue stack's SRAM holds its 256 entries at addresses 0 to 2,047 (log 36). -/
def TaskRegs.sb (x : TaskRegs) : Nat := if x.drogue then 2048 else x.rsb.getD x.ring 0
def TaskRegs.sl (x : TaskRegs) : Nat := if x.drogue then 0 else x.rsl.getD x.ring 0

/-- The depth D. -/
def TaskRegs.depth (x : TaskRegs) : Nat := (x.sb - x.sp) / 8

/-- Cached entries of the stack in use, the top first, and those of suspended stacks. -/
def TaskRegs.mine (x : TaskRegs) : List StackEntry := x.cached.filter (fun e => e.space == x.space)
def TaskRegs.others (x : TaskRegs) : List StackEntry := x.cached.filter (fun e => e.space != x.space)

/-- The bounds in force are sound (R337). -/
def TaskRegs.boundsOk (x : TaskRegs) : Bool :=
  x.sp % 8 == 0 && x.sb % 8 == 0 && x.sl % 8 == 0 && decide (x.sl ≤ x.sp) && decide (x.sp ≤ x.sb)

/-- Cached entries follow a new SP or ring: the entry at depth d lies at SP + 8d. -/
def TaskRegs.rebase (x y : TaskRegs) : TaskRegs :=
  { y with cached := (x.mine.zipIdx.map (fun p => { p.1 with space := y.space, addr := y.sp + 8 * p.2 })) ++ x.others }

/-! The save-area words (R400). -/

/-- CACHED: the entries that the upper half shows, at most 31. -/
def TaskRegs.shown (x : TaskRegs) : Nat := min 31 x.mine.length

/-- TSTATE. -/
def TaskRegs.tstate (x : TaskRegs) : Nat :=
  x.ctx * 2 ^ 32 + x.fpFlags * 2 ^ 22 + b2n x.fpPend * 2 ^ 21 + x.shown * 2 ^ 16 + x.cpl * 2 ^ 13 + x.nest * 2 ^ 10
    + x.ring * 2 ^ 8 + x.preds

/-- Word `k` of the lower half; the link word reads 0. -/
def TaskRegs.lowerWord (x : TaskRegs) (k : Nat) : Nat :=
  match k with
  | 1 => x.pc
  | 2 => x.sp
  | 3 => x.tstate
  | 4 => x.fps
  | 5 => x.fpAddr
  | 6 => x.src.toNat
  | 7 => x.dst.toNat
  | 8 => x.cnt.toNat
  | 17 => x.pend * 2 ^ 32 + x.prio
  | k => if 9 ≤ k ∧ k ≤ 12 then x.rsb.getD (k - 9) 0 else if 13 ≤ k ∧ k ≤ 16 then x.rsl.getD (k - 13) 0 else 0

/-- Word `k` of the upper half. -/
def TaskRegs.upperWord (x : TaskRegs) (k : Nat) : Nat :=
  if k = 0 ∨ x.shown < k then 0 else ((x.mine[k - 1]?).map (fun e => e.v.toNat)).getD 0

/-- The bits that word `k` of the lower half does not reserve. -/
def lowerMask (k : Nat) : Nat :=
  match k with
  | 0 => 0
  | 3 => maskOf 39 16 - maskOf 31 28 + maskOf 14 0
  | 4 => maskOf 27 20 + maskOf 13 8
  | 17 => maskOf 47 0
  | k => if 18 ≤ k then 0 else maskOf 63 0

/-- CACHED set to `n`: entries kept from the top, new ones holding the values given until RESTU or TWIN sets them. -/
def TaskRegs.setCached (x : TaskRegs) (n : Nat) (vs : List Nat) : TaskRegs :=
  let kept := (x.mine.take n).map (fun e => e.v)
  let new := (vs.take (n - kept.length)).map (BitVec.ofNat 64)
  { x with cached := ((kept ++ new).zipIdx.map (fun p => ({ space := x.space, addr := x.sp + 8 * p.2, v := p.1 } : StackEntry))) ++ x.others }

/-- Word `k` of the lower half set, its reserved bits dropped; `vs` are values of entries that CACHED newly counts. -/
def TaskRegs.setLower (x : TaskRegs) (k v : Nat) (vs : List Nat) : TaskRegs :=
  let v := v &&& lowerMask k
  match k with
  | 1 => { x with pc := v }
  | 2 => x.rebase { x with sp := v }
  | 3 =>
    let y := x.rebase { x with
      ctx := bitsOf v 39 32, fpFlags := bitsOf v 27 22, fpPend := bitOf v 21, cpl := bitsOf v 14 13, nest := bitsOf v 12 10
      ring := bitsOf v 9 8, preds := bitsOf v 7 0 }
    if bitsOf v 20 16 = y.shown then y else y.setCached (bitsOf v 20 16) vs
  | 4 => { x with fps := v }
  | 5 => { x with fpAddr := v }
  | 6 => { x with src := BitVec.ofNat 64 v }
  | 7 => { x with dst := BitVec.ofNat 64 v }
  | 8 => { x with cnt := BitVec.ofNat 64 v }
  | 17 => { x with pend := v / 2 ^ 32, prio := v % 2 ^ 32 }
  | k => if 9 ≤ k ∧ k ≤ 12 then { x with rsb := x.rsb.set (k - 9) v }
    else if 13 ≤ k ∧ k ≤ 16 then { x with rsl := x.rsl.set (k - 13) v } else x

/-- Word `k` of the upper half set: the value of a cached entry. -/
def TaskRegs.setUpper (x : TaskRegs) (k v : Nat) : TaskRegs :=
  if k = 0 ∨ x.shown < k then x
  else
    { x with cached := (x.mine.zipIdx.map (fun p => if p.2 = k - 1 then { p.1 with v := BitVec.ofNat 64 v } else p.1)) ++ x.others }

/-- `n` free values. -/
def State.freshN (s : State) : Nat → List Nat × State
  | 0 => ([], s)
  | n + 1 =>
    let (v, s) := s.fresh
    let (vs, s) := s.freshN n
    (v :: vs, s)

/-! The task window (R380, R381). -/

/-- The task that CORE_TASK selects. -/
def State.selTask (s : State) (c : Nat) : Nat := s.rd (CORE_TASK_TASK c)

/-- A task that the window and the save instructions may change. -/
def TaskState.idle (x : TaskState) : Bool := x == .off || x == .stopped || x == .halted

/-- The value of a task-state. -/
def TaskState.code : TaskState → Nat
  | .off => 0
  | .run => 1
  | .wait => 2
  | .stopped => 3
  | .halted => 4

/-- CORE_TWIN word `k` as read. -/
def State.twinWord (s : State) (c k : Nat) : Nat :=
  let x := s.task c (s.selTask c)
  (if k < 32 then x.lowerWord k else x.upperWord (k - 32)) % 2 ^ 64

/-- A write of CORE_TWIN word `k` (R380, R9): a reserved bit, or bounds left unsound, keeps the word and writes the record. -/
def State.twinWrite (s : State) (c k : Nat) (w : RegWrite) : State :=
  let t := s.selTask c
  let x := s.task c t
  let v := mergeBits (s.twinWord c k) w.bits w.mask
  if k % 32 = 0 then s
  else if !x.st.idle then s.refuseReg w.m (CORE_TWIN c k + w.lane) false ST_PROTECTION
  else if k < 32 then
    if v &&& lowerMask k ≠ v then s.regRecord (CORE_TWIN c k) w.bits
    else
      let badMode := k == 4 && decide (5 ≤ bitsOf v 27 25)
      let v := if badMode then mergeBits v x.fps (maskOf 27 25) else v
      let (vs, s) := if k = 3 then s.freshN (bitsOf v 20 16 - x.mine.length) else ([], s)
      let y := x.setLower k v vs
      if !y.boundsOk then s.regRecord (CORE_TWIN c k) w.bits
      else
        let s := s.setTask c t y
        if badMode then s.regRecord (CORE_TWIN c k) w.bits else s
  else if x.shown < k - 32 then (if v = 0 then s else s.regRecord (CORE_TWIN c k) w.bits)
  else s.setTask c t (x.setUpper (k - 32) v)

/-- TWIN_WRITE (R380). -/
def execTwinWrite (c : Core) (k : Fin 64) (w : RegWrite) (s : State) : Host.Outcome State Fault Refusal :=
  .next (s.regRow w (CORE_TWIN c.val k.val) (s.fw0 w.m) (fun s => s.twinWrite c.val k.val w))

/-! STOP and START (R379). -/

/-- An idle task runs at its PC; a running or waiting one is left. -/
def State.startTask (s : State) (c t : Nat) : State :=
  let x := s.task c t
  if x.st.idle then s.setTask c t { x with st := .run, stopping := false } else s

/-- Tasks of a core. -/
def taskCount (c : Nat) : Nat := if c < 24 then 16 else 64

/-- A write of CORE_TASK: the selection first, then STOP and START of the task selected (R9, R379). -/
def State.writeCoreTask (s : State) (c : Nat) (w : RegWrite) : State :=
  let s := if w.covers (CORE_TASK_TASK c) then
      if w.get (CORE_TASK_TASK c) < taskCount c then s.wr (CORE_TASK_TASK c) (w.get (CORE_TASK_TASK c))
      else s.regRecord (CORE_TASK c) w.bits
    else s
  let t := s.selTask c
  let idle := (s.task c t).st.idle
  let s := if w.covers (CORE_TASK_STOP c) && w.get (CORE_TASK_STOP c) == 1 then s.stopTask c t else s
  if w.covers (CORE_TASK_START c) && w.get (CORE_TASK_START c) == 1 && idle then s.startTask c t else s

/-- A write of CORE_TASK reaches it (R379). -/
def State.taskRow (s : State) (c : Nat) (w : RegWrite) : State := s.regRow w (CORE_TASK c) (s.fw0 w.m) (fun s => s.writeCoreTask c w)

/-- CORE_INT_RAISE (R382): a line of a task becomes pending; a task number that the core does not have names none. -/
def execCoreIntRaise (c : Core) (w : RegWrite) (s : State) : Host.Outcome State Fault Refusal :=
  .next (s.regRow w (CORE_INT_RAISE c.val) (s.fw0 w.m) (fun s =>
    let t := w.get (CORE_INT_RAISE_TASK c.val)
    if w.covers (CORE_INT_RAISE_LINE c.val) && decide (t < taskCount c.val) then
      s.raiseLine c.val t (w.get (CORE_INT_RAISE_LINE c.val))
    else s))

/-! Pins and vectors (R375, R376). -/

/-- Vector `k` of a core: 0 trap, 1 interrupt, 2 drogue. -/
def coreVec (c k : Nat) : Nat := CORE_VEC_TRAP c + 8 * k
def vecAddr (c k : Nat) : RF := ⟨coreVec c k, 51, 6⟩
def vecRing (c k : Nat) : RF := ⟨coreVec c k, 2, 1⟩
def vecValid (c k : Nat) : RF := ⟨coreVec c k, 0, 0⟩

/-- A valid pin holds the line. -/
def State.pinHolds (s : State) (c line : Nat) : Bool :=
  (List.range 8).any (fun n => s.on (CORE_PIN_VALID c n) && s.on (CORE_PIN_LOADED c n) && s.rd (CORE_PIN_ADDR c n) == line)

/-- A valid vector names the line. -/
def State.vecNames (s : State) (c line : Nat) : Bool :=
  (List.range 3).any (fun k => s.on (vecValid c k) && s.rd (vecAddr c k) == line)

/-- The line of a pin is loaded: local bytes as their slot comes (R43), another module's when they arrive; a read that fails leaves
LOADED 0. -/
def State.loadPin (s : State) (m : Master) (c n line : Nat) : State :=
  let ga := 64 * line
  let off := gaOff ga
  if gaNode ga ≠ s.node then (s.post (readMsg ga 64) none (.pin c n line)).getD s
  else
    match s.block .fetch (requesterOf m) off 64 with
    | some (s, _) => s
    | none =>
      let r : MemReq := { op := .read off 64, src := none, port := 96, arrived := s.now, who := some (requesterOf m).code, sink := .pin c n line }
      match (if rangeOf off = .flash then some s else s.slotNow r) with
      | some s => s.performReq r
      | none => s.push off r

/-- A write of CORE_PIN_n (R375, R376). -/
def State.writePin (s : State) (c n : Nat) (w : RegWrite) : State :=
  let old := s.rd (CORE_PIN_ADDR c n)
  let was := s.on (CORE_PIN_VALID c n)
  let line := bitsOf (mergeBits (s.reg (CORE_PIN c n)).toNat w.bits w.mask) 51 6
  let valid := bitOf (mergeBits (s.reg (CORE_PIN c n)).toNat w.bits w.mask) 0
  if was && s.vecNames c old && (!valid || line != old) then s.regRecord (CORE_PIN c n) w.bits
  else
    let s := s.setReg (CORE_PIN c n) (BitVec.ofNat 64 (line * 64 + b2n valid))
    let s := s.setCore c { s.coreSt c with pinned := tabDel (s.coreSt c).pinned n }
    if valid then s.loadPin w.m c n line else s

/-- CORE_PIN_WRITE (R375, R376). -/
def execCorePinWrite (c : Core) (n : Fin 8) (w : RegWrite) (s : State) : Host.Outcome State Fault Refusal :=
  .next (s.regRow w (CORE_PIN c.val n.val) (s.fw0 w.m) (fun s => s.writePin c.val n.val w))

/-- A write of a vector (R9, R376). -/
def State.writeVec (s : State) (c k : Nat) (w : RegWrite) : State :=
  let old := (s.reg (coreVec c k)).toNat
  let new := mergeBits old w.bits w.mask
  let ring := if k = 2 then 0 else bitsOf new 2 1
  let badRing := decide (2 ≤ ring)
  let ring := if badRing then bitsOf old 2 1 else ring
  let line := bitsOf new 51 6
  if bitOf new 0 && !s.pinHolds c line then s.regRecord (coreVec c k) w.bits
  else
    let s := s.setReg (coreVec c k) (BitVec.ofNat 64 (line * 64 + ring * 2 + new % 2))
    if badRing then s.regRecord (coreVec c k) w.bits else s

/-- CORE_VEC_WRITE (R376). -/
def execCoreVecWrite (c : Core) (which : Fin 3) (w : RegWrite) (s : State) : Host.Outcome State Fault Refusal :=
  .next (s.regRow w (coreVec c.val which.val) (s.fw0 w.m) (fun s => s.writeVec c.val which.val w))

/-- The core that a CORE register's offset belongs to, with the offset in its block. -/
def coreOfReg (off : Nat) : Option (Nat × Nat) :=
  if 0x800000 ≤ off ∧ off < 0xe00000 ∧ off % 0x40000 < 0x300 then some ((off - 0x800000) / 0x40000, off % 0x40000)
  else if 0x1301000 ≤ off ∧ off < 0x1301300 then some (24, off - 0x1301000)
  else if 0x1302000 ≤ off ∧ off < 0x1302300 then some (25, off - 0x1302000) else none

/-- The word of a CORE register at offset `o` of core `c`'s block. -/
def State.coreWord (s : State) (c o : Nat) : Word :=
  if o = 0 then withField (s.reg (CORE_TASK c)) (CORE_TASK_STATE c) (s.task c (s.selTask c)).st.code
  else if 0x100 ≤ o then BitVec.ofNat 64 (s.twinWord c ((o - 0x100) / 8))
  else s.reg (coreBase c + o)

end Sys2Proof.Machine
end

