-- ==== Sys2Proof/Machine/RegAccess.lean ====
section
/-! DEFINITION. Register accesses by offset: reads with their live values, cleared fields and latched halves, and writes
sent to the register they name, with the rights of its chapter (R4 to R9, R23 to R29, R50, R52, R88, R248, R283, R381, R441, R443,
R451, R452, R466, R486, R524, R556, R577, R599, R627, R643 to R652). -/
namespace Sys2Proof.Machine
open Reg

/-! Reads. -/

/-- The outcome of a register read: its value, a refusal's status, or a wait in the matrix. -/
inductive RegRead where
  | value (w : Word)
  | refused (status : Nat)
  | held
  deriving DecidableEq, Repr

/-- Counters that span both halves of a register, to which R50's latch applies. -/
def wideCounter (off : Nat) : Bool :=
  (0x100000 ≤ off && off < 0x700000 && [0x10, 0x18, 0x20, 0x38].contains (off % 0x10000))
  || (0x800000 ≤ off && off < 0xe00000 && 0x8000 ≤ off % 0x40000 && [0x20, 0x50, 0x60].contains (off % 0x8000))
  || [XLAT_WALKS, XLAT_WALK_FAULTS, VERIF_SUP_CNT, VERIF_WINDOWS, PWR_VENT, TIME_NOW].contains off

/-- Mailbox and side of an MBX register's offset. -/
def mbxOfReg (off : Nat) : Option (Nat × Nat × Nat) :=
  if 0x20000 ≤ off ∧ off < 0x27800 then some ((off - 0x20000) / 0x400, (off - 0x20000) % 0x400 / 0x200, off % 0x200) else none

/-- The port of a JP register's offset, with the offset in its block. -/
def portOfReg (off : Nat) : Option (Nat × Nat) :=
  if 0x1000000 ≤ off ∧ off < 0x1100000 then some ((off - 0x1000000) / 0x10000, off % 0x10000) else none

/-- Who may read a register: the CORE registers ring 0 alone (R381), a mailbox side its agent (R443), any other register every
master; at an offset without a register every master reads zero (R28). -/
def State.mayReadReg (s : State) (m : Master) (off width : Nat) : Bool :=
  (regAt off).isNone || match coreOfReg off, mbxOfReg off with
  | some _, _ => s.fw0 m
  | none, some (b, d, o) => s.mbxAgent b d m && (o != 0x20 || width == 8)
  | none, none => true

/-- The word of an MBX register (R450). -/
def State.mbxWord (s : State) (b d o : Nat) : Word :=
  if o = 0x28 then
    let w := withField (s.reg (MBX_STAT b d)) (MBX_STAT_PEER_READY b d) (s.rd (MBX_STAT_READY b (otherSide d)))
    let w := withField w (MBX_STAT_RX_CNT b d) (s.side b d).queue.length
    withField w (MBX_STAT_TX_SPACE b d) (16 - (s.side b (otherSide d)).queue.length)
  else s.reg (0x20000 + 0x400 * b + 0x200 * d + o)

/-- The word a register shows, whichever block it lies in. -/
def State.shown (s : State) (off : Nat) : Word × State :=
  match coreOfReg off, mbxOfReg off with
  | some (c, o), _ => (s.coreWord c o, s)
  | none, some (b, d, o) => (s.mbxWord b d o, s)
  | none, none => s.live off

/-- The RC fields that a read of some bits clears; a hardware update in the same clock is kept instead (R5, R8). -/
def State.clearRead (s : State) (off mask : Nat) (hw : Option Nat) : State :=
  match regAt off with
  | none => s
  | some (d, _) =>
    (d.fields.filter (fun f => f.acc == .rc && maskOf f.hi f.lo &&& mask != 0)).foldl (fun s f => s.wr ⟨off, f.hi, f.lo⟩ (hw.getD 0)) s

/-- The half or the whole of a word that an access of a width at a lane covers. -/
def halfOf (w : Word) (lane width : Nat) : Word :=
  if width = 8 then w else BitVec.ofNat 64 (w.toNat / 2 ^ (8 * lane) % 2 ^ 32)

/-- A read of a wide counter's half: the low half latches the upper one for the master, whose next read of the upper half takes
the latched value (R50). -/
def State.latchHalf (s : State) (m : Master) (off lane width : Nat) (w : Word) : State × Word :=
  if width = 8 || !wideCounter off then (s, halfOf w lane width)
  else
    let key := masterNo m * 2 ^ 28 + off
    if lane = 0 then ({ s with halves := tabPut s.halves key (w.toNat / 2 ^ 32) }, halfOf w 0 4)
    else
      match tabFind s.halves key with
      | some h => ({ s with halves := tabDel s.halves key }, BitVec.ofNat 64 h)
      | none => (s, halfOf w 4 4)

/-- A register read that is not refused (R4, R5, R28). -/
def State.readAt (s : State) (m : Master) (off width : Nat) (hw : Option Nat) : State × Word :=
  let r := off / 8 * 8
  let lane := off % 8
  match mbxOfReg r, portOfReg r with
  | some (b, d, 0x20), _ => s.mbxTake b d
  | _, some (p, 0x40) => s.ptpTake p width lane
  | _, _ =>
    if (regAt r).isNone then (s, 0)
    else
      let (w, s) := s.shown r
      let mask := if width = 8 then 2 ^ 64 - 1 else (2 ^ 32 - 1) * 2 ^ (8 * lane)
      (s.clearRead r mask hw).latchHalf m r lane width w

/-- A register read by a master; `insn` says that an instruction makes it. -/
def State.readReg (s : State) (m : Master) (off width : Nat) (hw : Option Nat) (insn : Bool := false) : State × RegRead :=
  match s.regBlocked m off width with
  | some st => (s, .refused st)
  | none =>
    if s.mxcWaits (s.mxcAhead m off insn) m off then (s, .held)
    else if !s.mayReadReg m (off / 8 * 8) width then (s, .refused ST_PROTECTION)
    else
      let (s, w) := (s.mxcGrant m off).readAt m off width hw
      (s, .value w)

/-- A register read whose outcome goes to its master. -/
def State.readOut (s : State) (m : Master) (off width : Nat) (hw : Option Nat) : State :=
  if m == .host && !s.hostUp then s.hostMissed true
  else
    match s.readReg m off width hw with
    | (s, .value w) => s.emit (.coreValue m w ST_OK)
    | (s, .refused st) => s.refuseReg m off true st
    | (s, .held) => s.mxcHold { m := m, off := off, width := width, v := none, hw := hw }

/-! Writes. -/

/-- A row's meaning as a change of state; a row that stops leaves the state. -/
def stateOf (o : Host.Outcome State Fault Refusal) (s : State) : State :=
  match o with
  | .next t => t
  | _ => s

/-- A function of a bounded number, where the number is in bounds. -/
def inFin {α : Type} {n : Nat} (k : Nat) (f : Fin n → α) (d : α) : α := if h : k < n then f ⟨k, h⟩ else d

/-- A write by the access codes, for a master with the right. -/
def State.plainWrite (s : State) (w : RegWrite) (off : Nat) (right : Bool) : State :=
  s.regRow w off right (fun s => s.applyWrite off w.mask w.bits)

/-- A write that the host may make during an installer session, and is audited then (R625). -/
def State.installerWrite (s : State) (w : RegWrite) (off : Nat) (f : State → State) : State :=
  s.regRow w off (s.fwOrInstaller w.m) (fun s => f ((s.auditWrite w off).applyWrite off w.mask w.bits))

/-- A write of a register that no master may change: ignored. -/
def State.ignoredWrite (s : State) (w : RegWrite) (off : Nat) : State := s.regRow w off true id

/-- A write of CMDR_CFG by the host keeps OWNER, with a record when it would change it (R441). -/
def State.cmdrCfgWrite (s : State) (w : RegWrite) (off r : Nat) : State :=
  let keeps := w.m == .host && w.covers (CMDR_CFG_OWNER r) && w.get (CMDR_CFG_OWNER r) != s.rd (CMDR_CFG_OWNER r)
  let mask := if keeps then w.mask - (w.mask &&& maskOf 16 16) else w.mask
  let s := s.applyWrite off mask w.bits
  if keeps then s.regRecord off w.bits else s

/-- Writes of the CMDR block (R406, R441). -/
def State.writeCmdr (s : State) (w : RegWrite) (off : Nat) : State :=
  let r := (off - 0x10000) / 0x100
  let k := off % 0x100
  if 64 ≤ r then s.regRow w off (s.fwOrHost w.m) id
  else if k ≤ 0x20 then
    s.regRow w off (s.fwOrHost w.m) (fun s =>
      if s.ringState r ≠ 0 then s.regRecord off w.bits
      else if k = 0 then s.cmdrCfgWrite w off r else s.applyWrite off w.mask w.bits)
  else if k = 0x28 then inFin (n := 64) r (fun r => stateOf (execRingEnable r w s) s) s
  else if k = 0x40 then
    let half := fun (s : State) (hi : Bool) =>
      let v := BitVec.ofNat 32 (w.bits / 2 ^ (if hi then 32 else 0))
      inFin (n := 64) r (fun r =>
        stateOf (if hi then execDoorbellCqHead (.cmdr w.m) r v s else execDoorbellTail (.cmdr w.m) r v s) s) s
    if w.width = 8 then half (half s false) true else half s (w.lane == 4)
  else if k = 0x48 ∨ k = 0x50 then
    s.regRow w off (s.fwOrHost w.m) (fun s => (s.applyWrite off w.mask w.bits).ringMarks r)
  else s.regRow w off (s.fwOrHost w.m) id

/-- Writes of a mailbox side (R443 to R450). -/
def State.writeMbx (s : State) (w : RegWrite) (off b d o : Nat) : State :=
  let side := d == 1
  if o = 0x10 then inFin (n := 30) b (fun b => stateOf (execMbxDoorbell b side w s) s) s
  else if o = 0x18 then inFin (n := 30) b (fun b => stateOf (execMbxSend b side w s) s) s
  else if o = 0x28 then inFin (n := 30) b (fun b => stateOf (execMbxReady b side w s) s) s
  else if o = 0 ∨ o = 8 ∨ o = 0x30 then
    s.regRow w off (s.mbxAgent b d w.m) (fun s =>
      let mask := if o = 0x30 ∧ d = 1 then w.mask - (w.mask &&& maskOf 48 48) else w.mask
      (s.applyWrite off mask w.bits).mbxCheck b d)
  else s.regRow w off (s.mbxAgent b d w.m) id

/-- Writes of a block-mover channel (R451 to R454). -/
def State.writeBmv (s : State) (w : RegWrite) (off : Nat) : State :=
  let c := (off - 0x30000) / 0x80
  let k := off % 0x80
  if k ≤ 0x10 then
    s.regRow w off (s.bmvMine c w.m) (fun s =>
      if s.on (BMV_CMD_ARMED c) then s.regRecord off w.bits else s.applyWrite off w.mask w.bits)
  else if k = 0x30 then inFin (n := 32) c (fun c => stateOf (execBmvArm c w s) s) s
  else if k = 0x38 then s.plainWrite w off (s.bmvMine c w.m)
  else if k = 0x40 then
    s.regRow w off true (fun s =>
      if s.fw0 w.m && !s.on (BMV_CMD_STATE c) && !s.on (BMV_CMD_ARMED c) then s.applyWrite off w.mask w.bits
      else s.regRecord off w.bits)
  else s.ignoredWrite w off

/-- Writes of a buffer pool (R466). -/
def State.writePool (s : State) (w : RegWrite) (off : Nat) : State :=
  let p := (off - 0x32000) / 0x20
  let k := off % 0x20
  if k = 0x10 then inFin (n := 64) p (fun p => stateOf (execPoolEnable p w s) s) s
  else if k < 0x10 then
    s.regRow w off (s.fw0 w.m) (fun s =>
      if s.on (BMV_POOL_CFG_ENABLE p) then s.regRecord off w.bits else s.applyWrite off w.mask w.bits)
  else s.ignoredWrite w off

/-- Writes of the FLT block (R599). -/
def State.writeFlt (s : State) (w : RegWrite) (off : Nat) : State :=
  if off = FLT_CFG then s.installerWrite w off id
  else if off = FLT_ACK then stateOf (execFltAck w s) s
  else if off = FLT_FENCE then stateOf (execFltFence w s) s
  else if 0x41000 ≤ off ∧ off < 0x43800 ∧ off % 0x10 = 0 then s.installerWrite w off id
  else if 0x4a000 ≤ off ∧ off < 0x4a980 ∧ off % 0x40 = 0x20 then s.plainWrite w off (s.fwOrHost w.m)
  else s.ignoredWrite w off

/-- Writes of the PWR block (R556). -/
def State.writePwr (s : State) (w : RegWrite) (off : Nat) : State :=
  if off = PWR_LIMIT then stateOf (execPwrLimitWrite w s) s
  else if off = PWR_DOMAIN_REQ then stateOf (execDomainRequest w s) s
  else if off = PWR_STATE_REQ then stateOf (execPowerStateRequest w s) s
  else if off = PWR_CFG then s.plainWrite w off (s.fw0 w.m)
  else if off = PWR_WM_PIN then (s.plainWrite w off (s.fw0 w.m || (w.m == .host && !w.covers PWR_WM_PIN_THRESH))).pinMark
  else s.ignoredWrite w off

/-- Writes of the LCS block (R627). -/
def State.writeLcs (s : State) (w : RegWrite) (off : Nat) : State :=
  if off = LCS_BOOT then stateOf (execSetReady w s) s
  else if off = LCS_FW then stateOf (execFwConfirm w s) s
  else if off = LCS_CFG then s.installerWrite w off id
  else s.ignoredWrite w off

/-- Writes of the HIF block (R481, R486). -/
def State.writeHif (s : State) (w : RegWrite) (off : Nat) : State :=
  if off = HIF_CFG then s.installerWrite w off id
  else if 0xb8000 ≤ off then
    if off % 0x10 = 8 then stateOf (execMsixUnmask ((off - 0xb8000) / 0x10) w s) s else s.plainWrite w off (s.fwOrHost w.m)
  else s.ignoredWrite w off

/-- Writes of the INTLV block (R52, R54, R248, R249). -/
def State.writeIntlv (s : State) (w : RegWrite) (off : Nat) : State :=
  if off = INTLV_ARB then stateOf (execIntlvArbWrite w s) s
  else if off = INTLV_PROBE_ADDR then s.plainWrite w off true
  else if off = INTLV_TAIL_BASE then s.installerWrite w off id
  else if off = INTLV_TAIL_SIZE then stateOf (execTailSizeWrite w s) s
  else s.ignoredWrite w off

/-- Writes of a MEMC block (R87 to R90). -/
def State.writeMemc (s : State) (w : RegWrite) (off : Nat) : State :=
  let c := (off - 0x100000) / 0x10000
  if off = MEMC_PERF_CTL c then inFin (n := 96) c (fun c => stateOf (execMemcPerfClear c w s) s) s
  else if off = MEMC_SCRUB_CTL c then inFin (n := 96) c (fun c => stateOf (execScrubCtlWrite c w s) s) s
  else if off = MEMC_SPARE_CTL c then s.installerWrite w off id
  else if off = MEMC_INJECT c then inFin (n := 96) c (fun c => stateOf (execMemcInjectWrite c w s) s) s
  else s.ignoredWrite w off

/-- Writes of the CORE registers (R375 to R382). -/
def State.writeCore (s : State) (w : RegWrite) (off c o : Nat) : State :=
  inFin (n := 26) c (fun c =>
    if o = 0 then s.taskRow c.val w
    else if 0x10 ≤ o ∧ o < 0x28 then inFin (n := 3) ((o - 0x10) / 8) (fun k => stateOf (execCoreVecWrite c k w s) s) s
    else if 0x40 ≤ o ∧ o < 0x80 then inFin (n := 8) ((o - 0x40) / 8) (fun k => stateOf (execCorePinWrite c k w s) s) s
    else if o = 0x80 then stateOf (execCoreIntRaise c w s) s
    else if 0x100 ≤ o then inFin (n := 64) ((o - 0x100) / 8) (fun k => stateOf (execTwinWrite c k w s) s) s
    else s.plainWrite w off (s.fw0 w.m)) s

/-- Writes of a CLUS block beside the CORE registers: SVU_LOFT_STOP is the only field of it that software changes (R311, R312). -/
def State.writeClus (s : State) (w : RegWrite) (off : Nat) : State :=
  if 0x8000 ≤ off % 0x40000 ∧ off % 0x8000 = 0x48 then s.plainWrite w off true else s.ignoredWrite w off

/-- Writes of a JP block (R524). -/
def State.writeJp (s : State) (w : RegWrite) (off p k : Nat) : State :=
  if k = 0 then inFin (n := 16) p (fun p => stateOf (execPortEnable p w s) s) s
  else if k = 0x18 ∨ k = 0x28 then
    s.regRow w off (s.fwOrInstaller w.m) (fun s =>
      if s.on (JP_CFG_ENABLE p) then s.regRecord off w.bits else (s.auditWrite w off).applyWrite off w.mask w.bits)
  else if k = 0x30 then
    if w.covers (JP_ETH_WM_THRESH p) then s.installerWrite w off (fun s => s.ethMark p) else s.plainWrite w off (s.fwOrHost w.m)
  else s.ignoredWrite w off

/-- Writes of the JFAB block (R502, R514, R524). -/
def State.writeJfab (s : State) (w : RegWrite) (off : Nat) : State :=
  if 0x1110000 ≤ off ∧ off < 0x1114000 then
    inFin (n := 1024) ((off - 0x1110000) / 0x10) (fun n => stateOf (execJfabRouteWrite n (off % 0x10 == 8) w s) s) s
  else if off = JFAB_NODE then
    s.regRow w off (s.fwOrInstaller w.m) (fun s =>
      if (List.range 16).any (fun p => s.on (JP_CFG_ENABLE p)) then s.regRecord off w.bits
      else (s.auditWrite w off).applyWrite off w.mask w.bits)
  else if off = JFAB_CFG then s.installerWrite w off id
  else if off = JFAB_TIME then
    s.installerWrite w off (fun t => if t.rd JFAB_TIME_SOURCE = 1 then t.wr JFAB_TIME_STRATUM 0 else t)
  else if off = JFAB_TX_DEST ∨ off = JFAB_TX_STAT then s.plainWrite w off (s.fw0 w.m)
  else if off = JFAB_TX_GO then stateOf (execTxGo w s) s
  else if 0x1100100 ≤ off ∧ off < 0x1100200 then
    let q := (off - 0x1100100) / 0x20
    if off % 0x20 = 0 then
      s.installerWrite w off (fun t =>
        let clash := t.on (JFAB_RXQ_CFG_EN q) && (List.range 8).any (fun i => i != q && t.on (JFAB_RXQ_CFG_EN i)
          && t.rd (JFAB_RXQ_CFG_POOL i) == t.rd (JFAB_RXQ_CFG_POOL q))
        if clash then (t.wr (JFAB_RXQ_CFG_EN q) (s.rd (JFAB_RXQ_CFG_EN q))).regRecord off w.bits else t)
    else if off % 0x20 = 8 then s.installerWrite w off id
    else if off % 0x20 = 0x10 then s.plainWrite w off (s.fwOrHost w.m)
    else s.ignoredWrite w off
  else s.ignoredWrite w off

/-- Writes of the XLAT block (R282, R283). -/
def State.writeXlat (s : State) (w : RegWrite) (off : Nat) : State :=
  if off < 0x1201000 then s.plainWrite w off (s.fw0 w.m)
  else if off < 0x1202000 ∧ off % 0x20 = 0 then s.plainWrite w off true
  else s.ignoredWrite w off

/-- A register write by a master, at an offset aligned on 8 bytes: each register as its chapter rules; an offset without a
register is ignored (R28). -/
def State.writeReg (s : State) (w : RegWrite) (off : Nat) : State :=
  if (regAt off).isNone then s.ignoredWrite w off
  else
    match coreOfReg off, mbxOfReg off, portOfReg off with
    | some (c, o), _, _ => s.writeCore w off c o
    | none, some (b, d, o), _ => s.writeMbx w off b d o
    | none, none, some (p, k) => s.writeJp w off p k
    | none, none, none =>
      if 0x10000 ≤ off ∧ off < 0x20000 then s.writeCmdr w off
      else if 0x30000 ≤ off ∧ off < 0x32000 then s.writeBmv w off
      else if 0x32000 ≤ off ∧ off < 0x40000 then s.writePool w off
      else if 0x40000 ≤ off ∧ off < 0x50000 then s.writeFlt w off
      else if 0x50000 ≤ off ∧ off < 0x60000 then s.plainWrite w off (off == TLOG_SEL && s.fwOrHost w.m)
      else if 0x60000 ≤ off ∧ off < 0x70000 then s.writePwr w off
      else if off = CLK_STAT then s.plainWrite w off true
      else if off = RST_MODULE then stateOf (execModuleReset w s) s
      else if 0xa0000 ≤ off ∧ off < 0xb0000 then s.writeLcs w off
      else if 0xb0000 ≤ off ∧ off < 0xc0000 then s.writeHif w off
      else if 0xd0000 ≤ off ∧ off < 0xe0000 then s.writeIntlv w off
      else if 0x100000 ≤ off ∧ off < 0x700000 then s.writeMemc w off
      else if 0x800000 ≤ off ∧ off < 0xe00000 then s.writeClus w off
      else if 0x1100000 ≤ off ∧ off < 0x1120000 then s.writeJfab w off
      else if 0x1200000 ≤ off ∧ off < 0x1210000 then s.writeXlat w off
      else if off = VERIF_LAST_INFO then s.plainWrite w off true
      else s.ignoredWrite w off

/-! Requests that wait in the control matrix (R644 to R646, R649). -/

/-- The waiting requests that a lock holds now count, once they are among their master's 16 outstanding ones (R644, R649). -/
def State.mxcCount (s : State) : State :=
  s.mxc.zipIdx.foldl (fun s x =>
    let ahead := (s.mxc.take x.2).filter (fun q => masterNo q.m == masterNo x.1.m)
    if !x.1.counted && s.lockedFor x.1.m x.1.off && decide (ahead.length < 16) then
      ({ s with mxc := s.mxc.set x.2 { x.1 with counted := true } } : State).count MXC_CNT_LOCK_WAITS 1
    else s) s

/-- The places of the waiting requests that need wait no longer; an instruction makes its own access again. -/
def State.mxcReady (s : State) : List (MxcReq × Nat) :=
  s.mxc.zipIdx.filter (fun x => !x.1.again && !s.mxcWaits ((s.mxc.take x.2).filter (fun q => !q.again)) x.1.m x.1.off)

/-- The next one granted: of the earliest one's block, the master after the one that the block granted last (R646). -/
def State.mxcNext (s : State) : Option (MxcReq × Nat) :=
  let l := s.mxcReady
  match l with
  | [] => none
  | x :: _ =>
    let l := l.filter (fun y => blockAt y.1.off == blockAt x.1.off)
    match nextSource (l.map (fun y => masterNo y.1.m)) ((tabFind s.mxcLast (blockAt x.1.off)).getD 5) with
    | some n => l.find? (fun y => masterNo y.1.m == n)
    | none => some x

/-- A waiting request is performed. -/
def State.mxcPerform (s : State) (q : MxcReq) : State :=
  match q.v with
  | some v => s.writeReg { m := q.m, lane := q.off % 8, width := q.width, v := v } (q.off / 8 * 8)
  | none => s.readOut q.m q.off q.width q.hw

/-- Waiting requests are granted one after another, as long as one can be. -/
def State.mxcGrants (s : State) : Nat → State
  | 0 => s
  | n + 1 =>
    match s.mxcNext with
    | none => s
    | some (q, k) =>
      let (ahead, behind) := (s.mxc.take k, s.mxc.drop (k + 1))
      let t := ({ s with mxc := ahead } : State).mxcPerform q
      ({ t with mxc := t.mxc ++ behind } : State).mxcGrants n

/-- A lock has been released: the requests that it held, and those behind them, are granted (R650). -/
def State.mxcDrain (s : State) : State := (s.mxcGrants s.mxc.length).mxcCount

/-- A task's lock is released, or its locked sequence abandoned (R342, R353). -/
def State.endLock (s : State) (c t : Nat) : State := (s.releaseLock c t).mxcDrain
def State.leaveLock (s : State) (c t : Nat) : State := (s.abandonLock c t).mxcDrain

/-- TASK_STOP (R379): a write of CORE_TASK. -/
def execTaskStop (c : Core) (w : RegWrite) (s : State) : Host.Outcome State Fault Refusal := .next (s.taskRow c.val w).mxcDrain

/-- TASK_START (R379): a write of CORE_TASK. -/
def execTaskStart (c : Core) (w : RegWrite) (s : State) : Host.Outcome State Fault Refusal := .next (s.taskRow c.val w).mxcDrain

/-- LOCK_BREAK (R650, R579): the first lock due is broken; the closing store that comes later finds no lock. -/
def execLockBreak (s : State) : Host.Outcome State Fault Refusal :=
  .next (match leastBy (fun l : Nat × Nat => l.2) (s.lockAt.filter (fun l => s.on (MXC_LOCK_HELD l.1) && !s.lockPaused l.1)) with
    | none => s.mxcDrain
    | some (n, t) =>
      let s := s.advanceTo (t + 256)
      let off := s.rd (MXC_LOCK_OFFSET n)
      (((s.unlock n).count MXC_CNT_BREAKS 1).record { src := srcMatrixLock, addr := off }).mxcDrain)

/-- Bits of W1C fields that hardware sets in the clock of an access (R7); a doorbell that it rings is delivered. -/
def State.hwSets (s : State) (off : Nat) (hw : Word) : State :=
  match regAt off with
  | none => s
  | some (d, _) =>
    let mask := (d.fields.filter (fun f => f.acc == .w1c)).foldl (fun m f => m ||| maskOf f.hi f.lo) 0
    if hw.toNat &&& mask = 0 then s
    else
      let s := s.setReg off (BitVec.ofNat 64 ((s.reg off).toNat ||| (hw.toNat &&& mask)))
      match mbxOfReg off with
      | some (b, d, _) => s.mbxCheck b d
      | none => s

/-- REGISTER_WRITE (R4 to R9, R25 to R29). The W1C bits of the register that hardware sets in the same clock read as set
afterwards (R7). -/
def execRegisterWrite (m : Master) (off width : Nat) (v : RegData) (s : State) : Host.Outcome State Fault Refusal :=
  .next (((s.writeReg { m := m, lane := off % 8, width := width, v := v.word } (off / 8 * 8)).hwSets (off / 8 * 8) v.hw).mxcDrain)

/-- READ_CLEAR_FIELD (R5, R8): a read of a register; its RC fields clear, but for a hardware update `hw` of that clock. -/
def execReadClearField (m : Master) (off width : Nat) (hw : Option Nat) (s : State) : Host.Outcome State Fault Refusal :=
  .next (s.readOut m off width hw)

/-- COUNTER_LOW_HALF_READ (R50). -/
def execCounterLowHalfRead (m : Master) (off : Nat) (s : State) : Host.Outcome State Fault Refusal :=
  .next (s.readOut m (off / 8 * 8) 4 none)

end Sys2Proof.Machine
end

