-- ==== Sys2Proof/WellFormed.lean ====
section
/-! DEFINITION. Which commands are well formed: the operand bounds that the types do not carry. -/
namespace Sys2Proof

/-- Task `t` exists in core `c` (R377). -/
def taskExists (c : Core) (t : Task) : Bool := decide (24 ≤ c.val) || decide (t.val < 16)

/-- A master's task exists. -/
def Master.wf : Master → Bool
  | .core c t => taskExists c t
  | _ => true

/-- A register access has a width and an alignment that one register holds (R4, R27), and a 4-byte value fits. -/
def RegWrite.wf (w : RegWrite) : Bool :=
  w.m.wf && ((w.width == 8 && w.lane == 0) || (w.width == 4 && (w.lane == 0 || w.lane == 4) && decide (w.v.toNat < 2 ^ 32)))

/-- The issuing task exists. -/
def Issue.wf (g : Issue) : Bool := taskExists g.c g.t

def Doorbell.wf : Doorbell → Bool
  | .cmdr m => m.wf
  | _ => true

/-- A cell error lies in a word of its granule and a symbol of the ECC word (R55). -/
def Upset.wf (u : Upset) : Bool := decide (u.word < 4) && decide (u.symbol < 36)

/-- An error of a scratchpad access lies in a bit of the ECC word (R306). -/
def Upset.wfScratch (u : Upset) : Bool := decide (u.word < 8) && decide (u.symbol < 72)

def LoftUpset.wf (u : LoftUpset) : Bool := decide (u.reg < 40) && decide (u.bit < 72)

/-- A register write by offset: within the 256 MiB register space (R17). -/
def regOk (off width : Nat) : Bool := decide (off + width ≤ 2 ^ 28)

/-- The command is well formed. -/
def Instr.wf : Instr → Bool
  | .registerWrite m off width _ => m.wf && regOk off width
  | .readClearField m off width _ => m.wf && regOk off width
  | .counterLowHalfRead m off => m.wf && regOk off 4
  | .hostBar2Read _ len => decide (len ≤ 4096)
  | .hostBar2Write _ _ _ => true
  | .channelGrant _ upsets _ => upsets.all Upset.wf
  | .refresh _ _ => true
  | .scrubRead _ upsets => upsets.all Upset.wf
  | .scrubCtlWrite _ w => w.wf
  | .intlvArbWrite w => w.wf
  | .memcPerfClear _ w => w.wf
  | .memcInjectWrite _ w => w.wf
  | .rowSpare _ _ _ => true
  | .laneSpare _ _ => true
  | .wipeComplete _ => true
  | .wearTick _ _ => true
  | .wearSave => true
  | .chain _ => true
  | .chainRef _ => true
  | .chainResume _ => true
  | .chainDispatch _ => true
  | .liftGrant => true
  | .inputRampStart => true
  | .inputRampDown _ => true
  | .spoolPrefetch _ _ => true
  | .pipesStart _ => true
  | .groupCompute _ _ => true
  | .spSwapWait _ => true
  | .spoolWriteIssue _ _ => true
  | .tetherRelease _ => true
  | .blockSwitch _ => true
  | .sliceEnd _ => true
  | .reductionWrite _ => true
  | .chainStop _ => true
  | .completionPost _ _ => true
  | .completionMsi _ => true
  | .tableWalkRead _ _ upsets => upsets.all Upset.wf
  | .scratchBankAccess _ _ upsets => upsets.all Upset.wfScratch
  | .scratchLineScrub _ _ upsets => upsets.all Upset.wfScratch
  | .arrayClearDone _ => true
  | .loftOpStart _ => true
  | .loftGroup _ upsets => upsets.all LoftUpset.wf
  | .windowCompare _ => true
  | .svuSelfTestDone _ _ => true
  | .supIntervalEnd _ => true
  | .supSelfTestDone _ _ => true
  | .sundopNop g => g.wf
  | .wait g => g.wf
  | .sync g => g.wf
  | .iflush g => g.wf
  | .fbar g => g.wf
  | .dup g => g.wf
  | .drop g => g.wf
  | .swap g => g.wf
  | .over g => g.wf
  | .rot g => g.wf
  | .pick g => g.wf
  | .depth g => g.wf
  | .push g _ _ => g.wf
  | .add g => g.wf
  | .sub g => g.wf
  | .mul g => g.wf
  | .mulh g => g.wf
  | .mulhu g => g.wf
  | .div g => g.wf
  | .divu g => g.wf
  | .rem g => g.wf
  | .remu g => g.wf
  | .neg g => g.wf
  | .and g => g.wf
  | .or g => g.wf
  | .xor g => g.wf
  | .not g => g.wf
  | .shl g => g.wf
  | .shr g => g.wf
  | .sar g => g.wf
  | .sext g _ => g.wf
  | .icmp g _ => g.wf
  | .ucmp g _ => g.wf
  | .fcmp g _ => g.wf
  | .dcmp g _ => g.wf
  | .test g _ => g.wf
  | .pget g => g.wf
  | .pset g => g.wf
  | .br8 g _ => g.wf
  | .br32 g _ => g.wf
  | .call g _ => g.wf
  | .ret g => g.wf
  | .jmpi g => g.wf
  | .calli g => g.wf
  | .gate g _ => g.wf
  | .gret g => g.wf
  | .ld g _ => g.wf
  | .lds g _ => g.wf
  | .st g _ => g.wf
  | .storeBufferRelease _ => true
  | .xadd g => g.wf
  | .xchg g => g.wf
  | .cas g => g.wf
  | .setsrc g => g.wf
  | .setdst g => g.wf
  | .setcnt g => g.wf
  | .getsrc g => g.wf
  | .getdst g => g.wf
  | .getcnt g => g.wf
  | .movs g _ _ => g.wf
  | .fills g _ _ => g.wf
  | .cmps g _ _ => g.wf
  | .scans g _ _ => g.wf
  | .fadd g => g.wf
  | .fsub g => g.wf
  | .fmul g => g.wf
  | .fdiv g => g.wf
  | .fsqrt g => g.wf
  | .fma g => g.wf
  | .fmin g => g.wf
  | .fmax g => g.wf
  | .frint g => g.wf
  | .cvtif g => g.wf
  | .cvtfi g => g.wf
  | .cvtsd g => g.wf
  | .cvtds g => g.wf
  | .fpget g => g.wf
  | .fpset g => g.wf
  | .dadd g => g.wf
  | .dsub g => g.wf
  | .chainInstruction g => g.wf
  | .loft g => g.wf
  | .cwait g => g.wf
  | .savel g => g.wf
  | .saveu g => g.wf
  | .restl g => g.wf
  | .restu g => g.wf
  | .lineFetch c t => taskExists c t
  | .trapEntry c t _ => taskExists c t
  | .interruptEntry c t => taskExists c t
  | .drogueEntry _ => true
  | .entrySpillFault c t => taskExists c t
  | .taskStop _ w => w.wf
  | .taskStart _ w => w.wf
  | .twinWrite _ _ w => w.wf
  | .coreIntRaise _ w => w.wf
  | .corePinWrite _ _ w => w.wf
  | .coreVecWrite _ _ w => w.wf
  | .doorbellTail via _ _ => via.wf
  | .doorbellCqHead via _ _ => via.wf
  | .packetRead _ _ => true
  | .dispatchDecision => true
  | .nop _ => true
  | .fence _ => true
  | .accMerge _ => true
  | .progLaunch _ => true
  | .progSignal _ => true
  | .copy _ => true
  | .fill _ => true
  | .xlatCtxSet _ => true
  | .xlatInval _ => true
  | .xlatInvalComplete _ => true
  | .bufAlloc _ => true
  | .bufFree _ => true
  | .timeSet _ => true
  | .timeGet _ => true
  | .powerCap _ => true
  | .envelopeQuery _ => true
  | .fabricRouteSet _ => true
  | .partition _ => true
  | .logRead _ => true
  | .roleAuth _ _ => true
  | .lifecycle _ => true
  | .fwUpdateOpen _ => true
  | .fwUpdateWrite _ => true
  | .fwUpdateCheck _ => true
  | .fwUpdateActivate _ => true
  | .resetUnit _ => true
  | .drainDone => true
  | .drainTimeout => true
  | .unitResetDone => true
  | .faultAck _ => true
  | .ringEnable _ w => w.wf
  | .ringRestart _ w => w.wf
  | .ringReset _ w => w.wf
  | .mbxDoorbell _ _ w => w.wf
  | .mbxSend _ _ w => w.wf
  | .mbxRecv _ _ m _ => m.wf
  | .mbxReady _ _ w => w.wf
  | .bmvArm _ w => w.wf
  | .bmvAbort _ w => w.wf
  | .burstGrant => true
  | .burstReadComplete _ _ => true
  | .transferEnd _ => true
  | .poolEnable _ w => w.wf
  | .hostLinkTraining _ _ _ => true
  | .configurationRequest _ _ _ => true
  | .configurationReady => true
  | .atomicOp _ _ _ _ _ => true
  | .cxlMemRequest _ _ _ => true
  | .hdmDecoderCommit _ _ _ => true
  | .backInvalidate _ _ => true
  | .hostCompletion _ _ _ => true
  | .hostCompletionTimeout _ => true
  | .msixUnmask _ w => w.wf
  | .flr => true
  | .hotReset => true
  | .hostLinkDown => true
  | .perstNAssert => true
  | .perstNRelease => true
  | .d3hot _ => true
  | .hostLinkError _ => true
  | .portEnable _ w => w.wf
  | .portDisable _ w => w.wf
  | .trainRecord _ _ => true
  | .trainingRetry _ => true
  | .calPause _ => true
  | .flitReceive _ bytes => bytes.length == 256
  | .nak _ _ => true
  | .reset _ => true
  | .laneLockLoss _ _ => true
  | .retrainTimeout _ => true
  | .downRetry _ => true
  | .rdReq _ => true
  | .wrReq _ => true
  | .atomReq _ => true
  | .rdResp _ => true
  | .wrAck _ => true
  | .atomResp _ => true
  | .msg _ => true
  | .msgAck _ => true
  | .time _ => true
  | .timeSend _ => true
  | .resetNotice _ => true
  | .messageForward _ => true
  | .responseTimeout => true
  | .jfabRouteWrite _ _ w => w.wf
  | .txGo w => w.wf
  | .ethernetFrame _ _ _ => true
  | .ptpInfoRead _ m _ _ => m.wf
  | .vinSample _ _ => true
  | .envWaitExpiry => true
  | .upHoldExpiry => true
  | .busStall => true
  | .busRecover => true
  | .brownOut => true
  | .throttle _ => true
  | .throttleRepeat _ => true
  | .pwrLimitWrite w => w.wf
  | .domainRequest w => w.wf
  | .domainWakeDone _ => true
  | .flashIdleOff => true
  | .powerStateRequest w => w.wf
  | .transitionComplete => true
  | .wakeN => true
  | .refclkLost => true
  | .refclkGood => true
  | .pllLock _ => true
  | .pllUnlock _ => true
  | .powerOnReset _ => true
  | .moduleReset w => w.wf
  | .setReady w => w.wf
  | .bootTimeout => true
  | .fwConfirm w => w.wf
  | .challengeExpiry => true
  | .pathUnlock _ => true
  | .sessionIdleExpiry _ => true
  | .leakStep _ => true
  | .classDemotion _ => true
  | .escBExpiry _ => true
  | .escCExpiry _ => true
  | .fltAck w => w.wf
  | .fltFence w => w.wf
  | .lockBreak => true
  | .thermalTrip _ => true
  | .vinLoss => true
  | .tapInstruction _ _ => true
  | .testLogicReset => true
  | .gloleyStatus f => decide (f.bytes.length ≤ 274)
  | .telemetry f => decide (f.bytes.length ≤ 274)
  | .gloleyLogRead f => decide (f.bytes.length ≤ 274)
  | .gloleyFaultAck f => decide (f.bytes.length ≤ 274)
  | .gloleyPowerCap f => decide (f.bytes.length ≤ 274)
  | .gloleyRoleAuth f => decide (f.bytes.length ≤ 274)
  | .gloleyReset f => decide (f.bytes.length ≤ 274)
  | .gloleyResetStart => true
  | .gloleyPowerState f => decide (f.bytes.length ≤ 274)
  | .mailbox f => decide (f.bytes.length ≤ 274)
  | .fwRecoveryOpen f => decide (f.bytes.length ≤ 274)
  | .fwRecoveryWrite f => decide (f.bytes.length ≤ 274)
  | .fwRecoveryCheck f => decide (f.bytes.length ≤ 274)
  | .fwRecoveryCommit f => decide (f.bytes.length ≤ 274)
  | .gloleyResponseRead => true
  | .setdasa _ => true
  | .entdaa _ => true
  | .setnewda _ => true
  | .rstdaa => true
  | .getmrl => true
  | .getmwl => true
  | .enec => true
  | .disec => true
  | .tailSizeWrite w => w.wf
  | .tailAreaApply => true
  | .cxlCacheSnoop => true
  | .domainOffDone _ => true
  | .timeSlewDone => true
  | .ethernetSendDone => true
  | .inputRampDone => true
  | .portDrainExpiry _ => true

end Sys2Proof
end

