-- ==== Sys2Proof/Machine/Operands.lean ====
section
/-! DEFINITION. What a Sundop instruction works on: the operand stack with its fills and spills, a task's loads and
stores with the store buffer and the check buffer, and the issue of an instruction with its prefixes and traps (R238 to R242,
R327, R334 to R340, R343 to R353, R372, R385, R388, R393). -/
namespace Sys2Proof.Machine
open Reg

/-- What a part of an instruction comes to: a result, a trap, or a wait; a waiting instruction has no effect and issues again. -/
inductive Go (α : Type) where
  | ok (a : α)
  | trap (t : Trap)
  | wait
  deriving DecidableEq, Repr

/-- A part of an instruction: it may leave side records, snoops and requests in the state whatever it comes to. -/
abbrev Act (α : Type) : Type := State → State × Go α

def Act.pure {α : Type} (a : α) : Act α := fun s => (s, .ok a)
def Act.trap {α : Type} (t : Trap) : Act α := fun s => (s, .trap t)
def Act.wait {α : Type} : Act α := fun s => (s, .wait)

/-- One part after another; a trap or a wait ends both. -/
def Act.bind {α β : Type} (x : Act α) (f : α → Act β) : Act β := fun s =>
  match x s with
  | (s, .ok a) => f a s
  | (s, .trap t) => (s, .trap t)
  | (s, .wait) => (s, .wait)

/-- A change of the state alone. -/
def Act.modify (f : State → State) : Act Unit := fun s => (f s, .ok ())

/-- A part over every element of a list, in order. -/
def Act.forEach {α : Type} : List α → (α → Act Unit) → Act Unit
  | [], _ => Act.pure ()
  | a :: l, f => (f a).bind (fun _ => Act.forEach l f)

/-- The results of a part over every element of a list. -/
def Act.collect {α β : Type} : List α → (α → Act β) → Act (List β)
  | [], _ => Act.pure []
  | a :: l, f => (f a).bind (fun b => (Act.collect l f).bind (fun bs => Act.pure (b :: bs)))

/-! Traps (R345). -/

def trapIllegal : Trap := { cause := 1, status := ST_BAD_OPCODE }
def trapPriv : Trap := { cause := 2, status := ST_NO_RIGHT }
def trapUnder : Trap := { cause := 3, status := ST_PROTECTION }
def trapOver : Trap := { cause := 4, status := ST_PROTECTION }
def trapAlign (va : Nat) : Trap := { cause := 5, status := ST_BAD_PARAM, info := va }
def trapDivZero : Trap := { cause := 6, status := ST_BAD_PARAM }
def trapDecimal : Trap := { cause := 7, status := ST_DECIMAL_DATA }
def trapFpsValue : Trap := { cause := 8, status := ST_BAD_PARAM }
def trapAccess (status va sub : Nat) : Trap := { cause := 9, status := status, info := va, sub := sub }
def trapPoison (va : Nat) : Trap := { cause := 10, status := ST_POISON, info := va }
def trapLock : Trap := { cause := 11, status := ST_PROTECTION }

/-- ACCESS, or POISON for that status. -/
def trapOf (status va : Nat) : Trap := if status = ST_POISON then trapPoison va else trapAccess status va 0

/-! Addresses (R21, R348, R350). -/

/-- The global address of a task's access at a ring, in a context. -/
def taskGa (c t ring ctx : Nat) (acc : XAcc) (va : Nat) : Act Nat := fun s =>
  if ring ≤ 1 then
    if 2 ^ 52 ≤ va then (s.refuse (.core c t) va ST_PROTECTION, .trap (trapAccess ST_PROTECTION va 0)) else (s, .ok va)
  else
    match s.translate { agent := agentTask c t, ctx := ctx, ring := ring, acc := acc, core := some c, who := some (.core c t) } va with
    | (s, .ok ga) => (s, .ok ga)
    | (s, .fail q) => (s, .trap (trapAccess q.status va q.cause))
    | (s, .wait) => (s, .wait)

/-- The address is a register of this module. -/
def State.isReg (s : State) (ga : Nat) : Bool := gaNode ga == s.node && rangeOf (gaOff ga) == .registers

/-- The address is in this module's flash window. -/
def State.isFlash (s : State) (ga : Nat) : Bool := gaNode ga == s.node && rangeOf (gaOff ga) == .flash

/-! Stores not yet performed (R238, R327). -/

/-- SUP_A runs checked: what it does outside itself is held (R327). -/
def State.checked (s : State) (c : Nat) : Bool := c == 24 && s.rd VERIF_SUP_MODE == 0

/-- The stores that a task's loads return: its own in the store buffer, or SUP_A's stores performed and not yet done, and held. -/
def State.ownStores (s : State) (c t : Nat) : List StoreEntry :=
  if s.checked c then (s.coreSt c).stores ++ s.sup.held else (s.coreSt c).stores.filter (fun e => e.task == t)

/-- The byte that the latest of some stores left at an address. -/
def storedByte (es : List StoreEntry) (a : Nat) : Option Byte :=
  es.foldl (fun b e => if e.ga ≤ a ∧ a < e.ga + e.size then some (BitVec.ofNat 8 (e.v / 256 ^ (a - e.ga))) else b) none

/-- Two ranges share a byte. -/
def overlaps (a n b m : Nat) : Bool := decide (a < b + m) && decide (b < a + n)

/-- Room for `n` more stores: 16 in a store buffer, 64 in the check buffer. -/
def State.storeRoom (s : State) (c n : Nat) : Bool :=
  if s.checked c then decide (s.sup.held.length + n ≤ 64) else decide ((s.coreSt c).stores.length + n ≤ 16)

/-- A store enters the store buffer, under a number of its own. -/
def State.buffer (s : State) (c : Nat) (e : StoreEntry) : State :=
  let x := s.coreSt c
  s.setCore c { x with stores := x.stores ++ [{ e with id := x.stores.foldl (fun m e => max m (e.id + 1)) 1 }] }

/-- A store enters the store buffer, or the check buffer. -/
def State.putStore (s : State) (c : Nat) (e : StoreEntry) : State :=
  if s.checked c then { s with sup := { s.sup with held := s.sup.held ++ [e] } } else s.buffer c e

/-! Loads (R23, R60, R238, R348). -/

/-- A task as the requester of an access to local storage. -/
def taskBy (c t : Nat) (k : ReachKind) : LocalBy := { agent := agentTask c t, kind := k, who := some (.core c t) }

/-- What an answered access of another module comes to. -/
def askedBytes (va : Nat) (r : Answer) : Go (List Byte) :=
  if r.status ≠ ST_OK then .trap (trapOf r.status va) else if r.bad.isEmpty then .ok r.bytes else .trap (trapPoison va)

/-- Bytes of this module's storage, for a task. -/
def readLocal (b : LocalBy) (va off len : Nat) : Act (List Byte) := fun s =>
  match s.localRead b off len with
  | (s, .blocked st) => (s, .trap (trapOf st va))
  | (s, .done (.data bs [] _)) => (s, .ok bs)
  | (s, .done (.data _ bad made)) => (s.reportAll bad made, .trap (trapPoison va))
  | (s, _) => (s, .wait)

/-- Bytes of storage at a global address, for a task. -/
def readGa (c t ring va ga len : Nat) : Act (List Byte) := fun s =>
  if gaNode ga ≠ s.node then
    match s.askRemote (agentTask c t) ga len (readMsg ga len) with
    | (s, none) => (s, .wait)
    | (s, some r) => (s, askedBytes va r)
  else readLocal (taskBy c t (.load ring)) va (gaOff ga) len s

/-- The access of an instruction that waited in the matrix is made. -/
def State.mxcDone (s : State) (m : Master) (off : Nat) : State :=
  { s with mxc := s.mxc.filter (fun x => !(x.again && x.m == m && x.off == off)) }

/-- A register read by a task. -/
def readTaskReg (c : Core) (t : Task) (va off len : Nat) : Act (List Byte) := fun s =>
  match s.readReg (.core c t) off len none true with
  | (s, .value w) => (s.mxcDone (.core c t) off, .ok (leBytes len w.toNat))
  | (s, .refused st) => (s.refuse (.core c.val t.val) (regBase + off) st, .trap (trapAccess st va 0))
  | (s, .held) => (s.mxcHold { m := .core c t, off := off, width := len, v := none, again := true }, .wait)

/-- A load at a global address, with the task's own stores laid over it; bytes that those stores cover whole are not read. The task's
entry spills are its stores too (R336, R349): a load waits until none is queued. -/
def loadGa (c : Core) (t : Task) (ring va ga len : Nat) : Act (List Byte) := fun s =>
  let held := (List.range len).map (fun k => storedByte (s.ownStores c.val t.val) (ga + k))
  let lay := fun (bs : List Byte) => List.zipWith (fun (h : Option Byte) b => h.getD b) held bs
  if !(s.task c.val t.val).spills.isEmpty then (s, .wait)
  else if held.all (fun h => h.isSome) then (s, .ok (held.map (fun h => h.getD 0)))
  else
    ((if s.isReg ga then readTaskReg c t va (gaOff ga - regBase) len else readGa c.val t.val ring va ga len).bind
      (fun bs => Act.pure (lay bs))) s

/-- A load of `len` bytes at an aligned address. -/
def loadVa (c : Core) (t : Task) (x : TaskRegs) (va len : Nat) : Act (List Byte) :=
  if va % len ≠ 0 then Act.trap (trapAlign va)
  else (taskGa c.val t.val x.ring x.ctx .read va).bind (fun ga => loadGa c t x.ring va ga len)

/-- A load of `n` lines of 64 bytes each. -/
def loadLines (c : Core) (t : Task) (x : TaskRegs) (va n : Nat) : Act (List Byte) :=
  (Act.collect (List.range n) (fun k => loadVa c t x (va + 64 * k) 64)).bind (fun l => Act.pure l.flatten)

/-! Stores (R23, R24, R27, R62, R239, R348). -/

/-- A ring 0 store that R619 admits into the flash. -/
def State.flashStoreOk (s : State) (ring ga len : Nat) : Bool :=
  ring == 0 && (match s.life.flashOpen with
    | some (b, n) => decide (flashBase + b ≤ gaOff ga) && decide (gaOff ga + len ≤ flashBase + b + n)
    | none => false)

/-- What stands against a task's store before it is taken: the access and the lock of its register. -/
def storeCheck (c : Core) (t : Task) (ring va ga len : Nat) : Act Unit := fun s =>
  if gaNode ga ≠ s.node then (s, .ok ())
  else if s.isReg ga then
    let off := gaOff ga - regBase
    match s.regBlocked (.core c t) off len with
    | some st => (s.refuse (.core c.val t.val) (regBase + off) st, .trap (trapAccess st va 0))
    | none =>
      if s.mxcWaits (s.mxcAhead (.core c t) off true) (.core c t) off then
        (s.mxcHold { m := .core c t, off := off, width := len, v := none, again := true }, .wait)
      else (s.mxcDone (.core c t) off, .ok ())
  else if s.isFlash ga then
    if s.flashStoreOk ring ga len then (s, .ok ())
    else (s.refuse (.core c.val t.val) (gaOff ga) ST_PROTECTION, .trap (trapAccess ST_PROTECTION va 0))
  else
    match s.block (.store ring) (.core c.val t.val) (gaOff ga) len with
    | some (s, st) => (s, .trap (trapOf st va))
    | none => (s, .ok ())

/-- A register write by a task, performed; what it answers a refusal with becomes the trap. -/
def writeTaskReg (c : Core) (t : Task) (va off len v : Nat) : Act Unit := fun s =>
  let s := (s.writeReg { m := .core c t, lane := off % 8, width := len, v := BitVec.ofNat 64 v } (off / 8 * 8)).mxcDrain
  let x := s.task c.val t.val
  match x.trap with
  | some tr => (s.setTask c.val t.val { x with trap := none }, .trap { tr with info := va })
  | none => (s, .ok ())

/-- A store that is performed as the task's own before the next access: of a string's element, of a save area. -/
def storeNow (c : Core) (t : Task) (ring va ga : Nat) (bs : List Byte) : Act Unit :=
  (storeCheck c t ring va ga bs.length).bind (fun _ s =>
    let e : StoreEntry := { task := t.val, ga := ga, size := bs.length, v := leNat bs }
    if s.checked c.val then (if s.storeRoom c.val 1 then (s.putStore c.val e, .ok ()) else (s, .wait))
    else if !(s.task c.val t.val).spills.isEmpty || (s.ownStores c.val t.val).any (fun e => overlaps ga bs.length e.ga e.size) then
      (s, .wait)
    else if s.isReg ga then writeTaskReg c t va (gaOff ga - regBase) bs.length (leNat bs) s
    else if s.isFlash ga then (s.flashTouch.flashWrite (gaOff ga - flashBase) bs, .ok ())
    else if gaNode ga ≠ s.node then
      match s.askRemote (agentTask c.val t.val) ga (writeKey bs.length) (writeMsg ga bs false) with
      | (s, none) => (s, .wait)
      | (s, some r) => if r.status = ST_OK then (s, .ok ()) else (s, .trap (trapOf r.status va))
    else
      match s.localWrite (taskBy c.val t.val (.store ring)) (gaOff ga) bs.length (wordWrites (gaOff ga) bs false) with
      | (s, .blocked st) => (s, .trap (trapOf st va))
      | (s, .done _) => (s, .ok ())
      | (s, .wait) => (s, .wait))

/-- A store of a task. Registers and flash are written at once; a store to memory, to a scratchpad or to another module
enters the store buffer; in CHECKED mode every store of SUP_A is held. -/
def storeGa (c : Core) (t : Task) (ring va ga : Nat) (bs : List Byte) : Act Unit := fun s =>
  if !s.checked c.val && (s.isReg ga || s.isFlash ga) then storeNow c t ring va ga bs s
  else
    ((storeCheck c t ring va ga bs.length).bind (fun _ s =>
      if !(s.task c.val t.val).spills.isEmpty || !s.storeRoom c.val 1 then (s, .wait)
      else (s.putStore c.val { task := t.val, ga := ga, size := bs.length, v := leNat bs }, .ok ()))) s

/-- A store at an aligned address. -/
def storeVa (c : Core) (t : Task) (x : TaskRegs) (va : Nat) (bs : List Byte) : Act Unit :=
  if va % bs.length ≠ 0 then Act.trap (trapAlign va)
  else (taskGa c.val t.val x.ring x.ctx .write va).bind (fun ga => storeGa c t x.ring va ga bs)

/-! The operand stack (R334 to R337, R388, R392). -/

/-- The cached value of the entry at an address of the stack in use. -/
def TaskRegs.cachedAt (x : TaskRegs) (a : Nat) : Option Word :=
  (x.cached.find? (fun e => e.space == x.space && e.addr == a)).map (fun e => e.v)

/-- A trap of R337: `need` entries must exist, and `n` pushes after `k` pops must stay at or above SL. -/
def TaskRegs.stackCheck (x : TaskRegs) (need k n : Nat) : Option Trap :=
  if x.depth < need then some trapUnder else if x.sp + 8 * k < x.sl + 8 * n then some trapOver else none

/-- An entry of the stack in use: cached, or filled from the drogue stack, from the entry spill queue, or from its address. -/
def stackEntry (c : Core) (t : Task) (x : TaskRegs) (a : Nat) : Act Word := fun s =>
  match x.cachedAt a, x.spills.reverse.find? (fun e => e.space == x.space && e.addr == a) with
  | some v, _ => (s, .ok v)
  | none, some e => (s, .ok e.v)
  | none, none =>
    if x.drogue then (s, .ok (tabGet (s.coreSt c.val).drogueStack 0 a))
    else ((loadVa c t x a 8).bind (fun bs => Act.pure (BitVec.ofNat 64 (leNat bs)))) s

/-- SP set: entries of the stack in use that lie below it are gone. -/
def TaskRegs.setSp (x : TaskRegs) (sp : Nat) : TaskRegs :=
  { x with sp := sp, cached := x.cached.filter (fun e => e.space != x.space || decide (sp ≤ e.addr)) }

/-- The top `k` entries removed: their values, the top first. -/
def takeTop (c : Core) (t : Task) (x : TaskRegs) (k : Nat) : Act (List Word × TaskRegs) :=
  (Act.collect (List.range k) (fun i => stackEntry c t x (x.sp + 8 * i))).bind (fun vs => Act.pure (vs, x.setSp (x.sp + 8 * k)))

/-- An entry pushed; when 33 would be cached, the earliest is spilled. -/
def TaskRegs.push (x : TaskRegs) (v : Word) : TaskRegs × List StackEntry :=
  let l := { space := x.space, addr := x.sp - 8, v := v } :: x.cached
  ({ x with sp := x.sp - 8, cached := l.take 32 }, l.drop 32)

/-- Entries pushed in order, with the spills they need. -/
def TaskRegs.pushAll (x : TaskRegs) : List Word → TaskRegs × List StackEntry
  | [] => (x, [])
  | v :: vs =>
    let (y, a) := x.push v
    let (z, b) := y.pushAll vs
    (z, a ++ b)

/-- A spill: to the drogue stack, or a store to the entry's own address at the ring of its stack. -/
def spillEntry (c : Core) (t : Task) (ctx : Nat) (e : StackEntry) : Act Unit := fun s =>
  if e.space = 4 then
    (s.setCore c.val { s.coreSt c.val with drogueStack := tabPut (s.coreSt c.val).drogueStack e.addr e.v }, .ok ())
  else ((taskGa c.val t.val e.space ctx .write e.addr).bind (fun ga => storeGa c t e.space e.addr ga (leBytes 8 e.v.toNat))) s

/-- Values pushed by an instruction, the spills first. -/
def pushOut (c : Core) (t : Task) (x : TaskRegs) (vs : List Word) : Act TaskRegs := fun s =>
  let (y, es) := x.pushAll vs
  let out := (es.filter (fun e => e.space != 4)).length
  if out ≠ 0 ∧ !s.storeRoom c.val out then (s, .wait)
  else ((Act.forEach es (spillEntry c t x.ctx)).bind (fun _ => Act.pure y)) s

/-- An instruction that takes `k` entries, deepest first in `f`, and pushes what `f` gives. -/
def stackOp (c : Core) (t : Task) (k : Nat) (f : List Word → Go (List Word)) (x : TaskRegs) : Act TaskRegs :=
  (takeTop c t x k).bind (fun p s =>
    match f p.1.reverse with
    | .ok rs => pushOut c t p.2 rs s
    | .trap tr => (s, .trap tr)
    | .wait => (s, .wait))

/-! The entry spill queue (R388, R391). -/

/-- The first queued spill is stored, when it can be, as any store of the task at the ring of its stack; what fails waits there for
ENTRY_SPILL_FAULT. -/
def State.drainSpill (s : State) (c : Core) (t : Task) : State :=
  let x := s.task c.val t.val
  match x.spills with
  | [] => s
  | e :: rest =>
    let rest' : TaskRegs := { x with spills := rest }
    let rest' := if s.accessSent c.val t.val then rest' else rest'.settleStop
    if e.space = 4 then
      (s.setCore c.val { s.coreSt c.val with drogueStack := tabPut (s.coreSt c.val).drogueStack e.addr e.v }).setTask c.val t.val rest'
    else
      let held := fun (s : State) (l : List StackEntry) => s.setTask c.val t.val { s.task c.val t.val with spills := l }
      match (taskGa c.val t.val e.space x.ctx .write e.addr).bind (fun ga => storeGa c t e.space e.addr ga (leBytes 8 e.v.toNat)) (held s []) with
      | (s, .ok _) => s.setTask c.val t.val { s.task c.val t.val with
          spills := rest, st := rest'.st, stopping := rest'.stopping, trap := rest'.trap }
      | (s, .wait) => held s x.spills
      | (_, .trap _) => s

/-- Queued spills go to the store buffer while it has room. -/
def State.drainSpills (s : State) (c : Core) (t : Task) : State :=
  (List.range (s.task c.val t.val).spills.length).foldl (fun s _ => s.drainSpill c t) s

/-! Issue (R338, R343, R345, R346, R352, R372, R385, R393). -/

/-- The core executes: powered, not fenced, and not in the self-tests of R329. -/
def State.coreRuns (s : State) (c : Nat) : Bool :=
  if c < 24 then s.logicOn c && !s.clusFenced c
  else if c = 24 then !s.supFenced 0 && !s.sup.testing
  else s.domainOn 78 && !s.supFenced 1 && !s.sup.testing && (s.rd VERIF_SUP_MODE == 1 || s.rd VERIF_SUP_MODE == 3)

/-- A drogue handler of another task of the core runs (R393). -/
def State.drogueElsewhere (s : State) (c t : Nat) : Bool :=
  s.tasks.any (fun p => p.1 / 64 == c && p.1 % 64 != t && p.2.drogue)

/-- The priority of a line. -/
def TaskRegs.prioOf (x : TaskRegs) (line : Nat) : Nat := x.prio / 4 ^ line % 4

/-- The line that a task takes at its boundary (R383, R394): of the highest priority above CPL, the lowest number. -/
def TaskRegs.taken (x : TaskRegs) : Option Nat :=
  if x.drogue then none
  else
    (List.range 16).foldl (fun m l =>
      if bitOf x.pend l && decide (x.cpl < x.prioOf l) then
        match m with
        | none => some l
        | some k => if x.prioOf k < x.prioOf l then some l else m
      else m) none

/-- The interval of SUP_A still takes instructions (R326, R651). -/
def State.intervalOpen (s : State) (c : Nat) : Bool :=
  !s.checked c || (decide (s.sup.held.length < 64) && decide (s.sup.retired < 4096) && !s.sup.closing)

/-- A task may issue its next instruction: it runs, and no entry, trap or interrupt comes first. -/
def State.canIssue (s : State) (c : Core) (t : Task) : Bool :=
  let x := s.task c.val t.val
  taskExists c t && s.coreRuns c.val && x.st == .run && x.trap.isNone && x.due.isNone && x.loftStop.isEmpty
    && (x.drogue || !x.stopping || s.accessSent c.val t.val) && (x.taken.isNone || s.accessSent c.val t.val)
    && !s.drogueElsewhere c.val t.val && s.intervalOpen c.val

/-- What the row of an instruction says of it: its bytes without prefixes, the entries it needs, takes and pushes, which prefix it
may carry, the highest ring that may execute it, an encoding that is ILLEGAL, that a pending FP trap is taken before it, that
it breaks a locked sequence (it accesses memory, branches or calls), and that it is a store, which closes one. -/
structure Form where
  len : Nat := 1
  pops : Nat := 0
  pushes : Nat := 0
  lck : Bool := false
  rep : Bool := false
  ring : Nat := 3
  bad : Bool := false
  fpFirst : Bool := false
  breaks : Bool := false
  closes : Bool := false

/-- SUP_A's state at the start of its interval is kept when the interval's first work begins (R328, R329). -/
def State.beginInterval (s : State) (c : Nat) : State :=
  if s.checked c && s.sup.start.isEmpty then
    { s with sup := { s.sup with start := s.tasks.filter (fun p => p.1 / 64 == 24), began := s.now } }
  else s

/-- A precise trap of the task, entered before its next instruction; a LOCK trap releases the lock (R345, R352). -/
def State.raise (s : State) (c : Core) (t : Task) (tr : Trap) : State :=
  let s := if tr.cause = 11 then s.endLock c.val t.val else s
  let x := s.task c.val t.val
  (s.setTask c.val t.val ({ x with trap := some tr, lock := if tr.cause = 11 then none else x.lock } : TaskRegs).settleStop).rbufClear
    (agentTask c.val t.val)

/-- An instruction's registers `y`, computed from `x`, become the task's; what its effects changed in the task meanwhile stays. A
task that its effects ended (a reset) keeps nothing. -/
def State.commit (s : State) (boot : Nat) (c : Core) (t : Task) (x y : TaskRegs) : State :=
  let z := s.task c.val t.val
  if s.life.boot ≠ boot ∨ z.st = .off ∨ z.st = .halted then s
  else
    let w : TaskRegs := { y with
      st := if y.st = x.st then z.st else y.st, pend := z.pend, due := z.due, trap := y.trap.orElse (fun _ => z.trap)
      loftStop := z.loftStop, fps := if y.fps = x.fps then z.fps else y.fps
      stopping := if z.stopping = x.stopping then y.stopping else z.stopping }
    let s := (s.setTask c.val t.val w.settleStop).rbufClear (agentTask c.val t.val)
    if s.checked c.val then { s with sup := { s.sup with retired := s.sup.retired + 1 } } else s

/-- One more instruction of an open locked sequence. -/
def TaskRegs.countLock (x y : TaskRegs) : TaskRegs :=
  if y.lock = x.lock then { y with lock := y.lock.map (fun q => { q with count := q.count + 1 }) } else y

/-- Taking `k` entries and pushing `n` would fill or spill. -/
def TaskRegs.fillsOrSpills (x : TaskRegs) (k n : Nat) : Bool :=
  (List.range k).any (fun i => (x.cachedAt (x.sp + 8 * i)).isNone) || decide (32 + min k x.mine.length < x.cached.length + n)

/-- The guard of an instruction holds (R343). -/
def TaskRegs.guardOk (x : TaskRegs) (g : Issue) : Bool :=
  match g.guard with
  | some (neg, n) => bitOf x.preds n.val != neg
  | none => true

/-- Bytes of the prefixes. -/
def prefixBytes (g : Issue) : Nat := b2n g.guard.isSome + b2n g.lck + b2n g.rep

/-- The instruction breaks the open locked sequence (R352). -/
def TaskRegs.breaksLock (x : TaskRegs) (f : Form) : Bool :=
  match x.lock with
  | none => false
  | some q => !f.closes && (f.breaks || decide (16 ≤ q.count) || x.fillsOrSpills f.pops f.pushes)

/-- An instruction of a task. `body` has the address of its first prefix byte and the task's registers with PC past it, and gives
the registers after it; the first cause in the order of R345 is reported. -/
def State.insn (s : State) (g : Issue) (f : Form) (body : Nat → TaskRegs → Act TaskRegs) : State :=
  if !s.canIssue g.c g.t then s
  else
    let s := (s.beginInterval g.c.val).drainSpills g.c g.t
    let x := s.task g.c.val g.t.val
    let y : TaskRegs := { x with pc := (x.pc + prefixBytes g + f.len) % 2 ^ 64 }
    if f.bad || (g.lck && !f.lck) || (g.rep && !f.rep) then s.raise g.c g.t trapIllegal
    else if !x.guardOk g then s.commit s.life.boot g.c g.t x (x.countLock y)
    else if f.ring < x.ring || (g.lck && 1 < x.ring) then s.raise g.c g.t trapPriv
    else if f.fpFirst && x.fpPend then s
    else
      let (s', r) := match x.stackCheck f.pops f.pops f.pushes with
        | some tr => (s, Go.trap tr)
        | none => body x.pc y s
      match r with
      | .trap tr => if x.breaksLock f && decide (9 ≤ tr.cause) then s.raise g.c g.t trapLock else s'.raise g.c g.t tr
      | .ok z => if x.breaksLock f then s.raise g.c g.t trapLock else s'.commit s.life.boot g.c g.t x (x.countLock z)
      | .wait => if x.breaksLock f then s.raise g.c g.t trapLock else s'

/-- An instruction that only takes entries from the stack and pushes results. -/
def State.plainInsn (s : State) (g : Issue) (len k n : Nat) (f : List Word → Go (List Word)) : State :=
  s.insn g { len := len, pops := k, pushes := n } (fun _ x => stackOp g.c g.t k f x)

end Sys2Proof.Machine
end

