-- ==== Sys2Proof/Machine/Flags.lean ====
section
/-! DEFINITION. The predicates and the scalar FP status of a task: what compares write, and what FP exceptions do
(R343, R344, R357 to R362). -/
namespace Sys2Proof.Machine

/-- A predicate written. -/
def TaskRegs.setPred (x : TaskRegs) (n : Nat) (v : Bool) : TaskRegs :=
  { x with preds := mergeBits x.preds (b2n v * 2 ^ n) (2 ^ n) }

/-- FPS.RMODE; the values 5 to 7, which no write sets, round to nearest even. -/
def TaskRegs.rmode (x : TaskRegs) : RMode := (rmodeOf (bitsOf x.fps 27 25)).getD .rne

/-- The exceptions among `flags` (bit 5 NV, 4 DZ, 3 OF, 2 UF, 1 NX, 0 SAT) whose trap FPS enables in [24:20]. -/
def TaskRegs.enabled (x : TaskRegs) (flags : Nat) : Nat :=
  let te := bitsOf x.fps 24 20
  flags &&& (b2n (bitOf te 0) * fNV + b2n (bitOf te 1) * fDZ + b2n (bitOf te 2) * fOF + b2n (bitOf te 3) * fUF + b2n (bitOf te 4) * fNX)

/-- Exceptions raised by the instruction at `at'`: their flags are set, and an enabled one makes the FP trap pending when none is
(R359, R360). -/
def TaskRegs.fpRaise (x : TaskRegs) (at' flags : Nat) : TaskRegs :=
  let y := { x with fps := x.fps ||| flags * 256 }
  if x.enabled flags ≠ 0 && !x.fpPend then { y with fpPend := true, fpAddr := at', fpFlags := flags } else y

/-- The second byte of a compare (R339): its condition and its predicate. -/
def cmpCond (b2 : Byte) : Nat := bitsOf b2.toNat 5 3
def cmpPred (b2 : Byte) : Nat := bitsOf b2.toNat 2 0

/-- A reserved bit of the second byte is 1. -/
def cmpReserved (b2 : Byte) : Bool := bitsOf b2.toNat 7 6 != 0

/-- Conditions of unsigned and signed integers: UNORD is false and ORD is true (R169, R344). -/
def intCond (signed : Bool) (cond : Nat) (a b : Word) : Bool :=
  if signed then icmp cond (sInt a) (sInt b) else icmp cond a.toNat b.toNat

/-- An instruction that takes two words and writes what a condition says of them to its predicate; the condition gives the
exceptions too. -/
def State.compareInsn (s : State) (g : Issue) (b2 : Byte) (cond : Word → Word → Bool × Nat) : State :=
  s.insn g { len := 2, pops := 2, bad := cmpReserved b2 } (fun at' x => (takeTop g.c g.t x 2).bind (fun p =>
    let (v, fl) := cond (p.1.getD 1 0) (p.1.getD 0 0)
    Act.pure ((p.2.setPred (cmpPred b2) v).fpRaise at' fl)))

/-- An FP instruction that takes `k` words and pushes one, with the exceptions it raises (R359 to R362). -/
def State.fpInsn (s : State) (g : Issue) (k : Nat) (f : RMode → List Nat → Nat × Nat) : State :=
  s.insn g { pops := k, pushes := 1 } (fun at' x => (takeTop g.c g.t x k).bind (fun p =>
    let (r, fl) := f x.rmode (p.1.reverse.map BitVec.toNat)
    (pushOut g.c g.t p.2 [BitVec.ofNat 64 r]).bind (fun y => Act.pure (y.fpRaise at' fl))))

end Sys2Proof.Machine
end

