-- ==== Sys2Proof/Machine/SundopStack.lean ====
section
/-! DEFINITION. Sundop instructions of the stack, of waiting and fences (R241, R297, R341, R354, R361, R378). -/
namespace Sys2Proof.Machine
open Reg

/-- NOP (R341). -/
def execSundopNop (g : Issue) (s : State) : Host.Outcome State Fault Refusal :=
  .next (s.plainInsn g 1 0 0 (fun _ => .ok []))

/-- WAIT (R341, R378, R384): the task waits; its PC lies past the instruction. -/
def execWait (g : Issue) (s : State) : Host.Outcome State Fault Refusal :=
  .next (s.insn g {} (fun _ x => Act.pure { x with st := .wait }))

/-- Every store of a task is performed (R241). -/
def State.storesDone (s : State) (c t : Nat) : Bool :=
  (s.task c t).spills.isEmpty
    && !((s.coreSt c).stores ++ (if s.checked c then s.sup.held else [])).any (fun e => e.task == t)

/-- SYNC (R241). -/
def execSync (g : Issue) (s : State) : Host.Outcome State Fault Refusal :=
  .next (s.insn g {} (fun _ x s => if s.storesDone g.c.val g.t.val then (s, .ok x) else (s, .wait)))

/-- IFLUSH (R354): after the task's stores, the fetched lines of the core are discarded; pinned lines stay. -/
def execIflush (g : Issue) (s : State) : Host.Outcome State Fault Refusal :=
  .next (s.insn g {} (fun _ x s =>
    if s.storesDone g.c.val g.t.val then (s.setCore g.c.val { s.coreSt g.c.val with lines := [] }, .ok x) else (s, .wait)))

/-- A LOFT operation of a task is accepted and has not ended. -/
def State.loftBusy (s : State) (c t : Nat) : Bool :=
  s.svus.any (fun p => p.2.queue.any (fun o => o.mark == 0 && o.core == c && o.task == t))

/-- FBAR (R297, R361): the pending FP trap comes first, then the task's LOFT operations end; each FP instruction completes as it
issues. -/
def execFbar (g : Issue) (s : State) : Host.Outcome State Fault Refusal :=
  .next (s.insn g { fpFirst := true } (fun _ x s => if s.loftBusy g.c.val g.t.val then (s, .wait) else (s, .ok x)))

/-- DUP (R341). -/
def execDup (g : Issue) (s : State) : Host.Outcome State Fault Refusal :=
  .next (s.plainInsn g 1 1 2 (fun
    | [a] => .ok [a, a]
    | _ => .trap trapUnder))

/-- DROP (R341). -/
def execDrop (g : Issue) (s : State) : Host.Outcome State Fault Refusal :=
  .next (s.plainInsn g 1 1 0 (fun _ => .ok []))

/-- SWAP (R341). -/
def execSwap (g : Issue) (s : State) : Host.Outcome State Fault Refusal :=
  .next (s.plainInsn g 1 2 2 (fun
    | [a, b] => .ok [b, a]
    | _ => .trap trapUnder))

/-- OVER (R341). -/
def execOver (g : Issue) (s : State) : Host.Outcome State Fault Refusal :=
  .next (s.plainInsn g 1 2 3 (fun
    | [a, b] => .ok [a, b, a]
    | _ => .trap trapUnder))

/-- ROT (R341). -/
def execRot (g : Issue) (s : State) : Host.Outcome State Fault Refusal :=
  .next (s.plainInsn g 1 3 3 (fun
    | [a, b, c] => .ok [b, c, a]
    | _ => .trap trapUnder))

/-- PICK (R337, R341): the entry at depth n after n is removed; the copied entry stays as it is, in the cache or at its address. -/
def execPick (g : Issue) (s : State) : Host.Outcome State Fault Refusal :=
  .next (s.insn g { pops := 1, pushes := 1 } (fun _ x => (takeTop g.c g.t x 1).bind (fun p =>
    let n := (p.1.getD 0 0).toNat
    if p.2.depth ≤ n then Act.trap trapUnder
    else (stackEntry g.c g.t p.2 (p.2.sp + 8 * n)).bind (fun v => pushOut g.c g.t p.2 [v]))))

/-- DEPTH (R341). -/
def execDepth (g : Issue) (s : State) : Host.Outcome State Fault Refusal :=
  .next (s.insn g { pushes := 1 } (fun _ x => pushOut g.c g.t x [BitVec.ofNat 64 x.depth]))

/-- PUSH8 to PUSH64 (R338, R341): the low 8·2^sz bits of the constant, sign-extended. -/
def execPush (g : Issue) (sz : Fin 4) (imm : Word) (s : State) : Host.Outcome State Fault Refusal :=
  .next (s.plainInsn g (1 + 2 ^ sz.val) 0 1 (fun _ =>
    .ok [signExtend (8 * 2 ^ sz.val) (imm.toNat % 2 ^ (8 * 2 ^ sz.val))]))

/-- SETSRC (R341). -/
def execSetsrc (g : Issue) (s : State) : Host.Outcome State Fault Refusal :=
  .next (s.insn g { pops := 1 } (fun _ x => (takeTop g.c g.t x 1).bind (fun p => Act.pure { p.2 with src := p.1.getD 0 0 })))

/-- SETDST (R341). -/
def execSetdst (g : Issue) (s : State) : Host.Outcome State Fault Refusal :=
  .next (s.insn g { pops := 1 } (fun _ x => (takeTop g.c g.t x 1).bind (fun p => Act.pure { p.2 with dst := p.1.getD 0 0 })))

/-- SETCNT (R341). -/
def execSetcnt (g : Issue) (s : State) : Host.Outcome State Fault Refusal :=
  .next (s.insn g { pops := 1 } (fun _ x => (takeTop g.c g.t x 1).bind (fun p => Act.pure { p.2 with cnt := p.1.getD 0 0 })))

/-- GETSRC (R341). -/
def execGetsrc (g : Issue) (s : State) : Host.Outcome State Fault Refusal :=
  .next (s.insn g { pushes := 1 } (fun _ x => pushOut g.c g.t x [x.src]))

/-- GETDST (R341). -/
def execGetdst (g : Issue) (s : State) : Host.Outcome State Fault Refusal :=
  .next (s.insn g { pushes := 1 } (fun _ x => pushOut g.c g.t x [x.dst]))

/-- GETCNT (R341). -/
def execGetcnt (g : Issue) (s : State) : Host.Outcome State Fault Refusal :=
  .next (s.insn g { pushes := 1 } (fun _ x => pushOut g.c g.t x [x.cnt]))

end Sys2Proof.Machine
end

