-- ==== Sys2Proof/Machine/SundopAlu.lean ====
section
/-! DEFINITION. Sundop integer arithmetic, compares and predicates, branches and calls (R341, R344, R347). -/
namespace Sys2Proof.Machine

/-- An instruction of two operands, a beneath b. -/
def State.binary (s : State) (g : Issue) (f : Word → Word → Go Word) : State :=
  s.plainInsn g 1 2 1 (fun
    | [a, b] =>
      match f a b with
      | .ok r => .ok [r]
      | .trap t => .trap t
      | .wait => .wait
    | _ => .trap trapUnder)

/-- An instruction of one operand. -/
def State.unary (s : State) (g : Issue) (f : Word → Word) : State :=
  s.plainInsn g 1 1 1 (fun
    | [a] => .ok [f a]
    | _ => .trap trapUnder)

/-- ADD (R341). -/
def execAdd (g : Issue) (s : State) : Host.Outcome State Fault Refusal := .next (s.binary g (fun a b => .ok (a + b)))

/-- SUB (R341). -/
def execSub (g : Issue) (s : State) : Host.Outcome State Fault Refusal := .next (s.binary g (fun a b => .ok (a - b)))

/-- MUL (R341). -/
def execMul (g : Issue) (s : State) : Host.Outcome State Fault Refusal := .next (s.binary g (fun a b => .ok (a * b)))

/-- MULH (R341). -/
def execMulh (g : Issue) (s : State) : Host.Outcome State Fault Refusal :=
  .next (s.binary g (fun a b => .ok (ofInt64 (sInt a * sInt b / 2 ^ 64))))

/-- MULHU (R341). -/
def execMulhu (g : Issue) (s : State) : Host.Outcome State Fault Refusal :=
  .next (s.binary g (fun a b => .ok (BitVec.ofNat 64 (a.toNat * b.toNat / 2 ^ 64))))

/-- DIV (R347). -/
def execDiv (g : Issue) (s : State) : Host.Outcome State Fault Refusal :=
  .next (s.binary g (fun a b => if b = 0 then .trap trapDivZero else .ok (ofInt64 (Int.tdiv (sInt a) (sInt b)))))

/-- DIVU (R347). -/
def execDivu (g : Issue) (s : State) : Host.Outcome State Fault Refusal :=
  .next (s.binary g (fun a b => if b = 0 then .trap trapDivZero else .ok (a / b)))

/-- REM (R347). -/
def execRem (g : Issue) (s : State) : Host.Outcome State Fault Refusal :=
  .next (s.binary g (fun a b => if b = 0 then .trap trapDivZero else .ok (ofInt64 (Int.tmod (sInt a) (sInt b)))))

/-- REMU (R347). -/
def execRemu (g : Issue) (s : State) : Host.Outcome State Fault Refusal :=
  .next (s.binary g (fun a b => if b = 0 then .trap trapDivZero else .ok (a % b)))

/-- NEG (R341). -/
def execNeg (g : Issue) (s : State) : Host.Outcome State Fault Refusal := .next (s.unary g (fun a => -a))

/-- AND (R341). -/
def execAnd (g : Issue) (s : State) : Host.Outcome State Fault Refusal := .next (s.binary g (fun a b => .ok (a &&& b)))

/-- OR (R341). -/
def execOr (g : Issue) (s : State) : Host.Outcome State Fault Refusal := .next (s.binary g (fun a b => .ok (a ||| b)))

/-- XOR (R341). -/
def execXor (g : Issue) (s : State) : Host.Outcome State Fault Refusal := .next (s.binary g (fun a b => .ok (a ^^^ b)))

/-- NOT (R341). -/
def execNot (g : Issue) (s : State) : Host.Outcome State Fault Refusal := .next (s.unary g (fun a => ~~~a))

/-- SHL (R341): by b mod 64. -/
def execShl (g : Issue) (s : State) : Host.Outcome State Fault Refusal :=
  .next (s.binary g (fun a b => .ok (a <<< (b.toNat % 64))))

/-- SHR (R341): by b mod 64. -/
def execShr (g : Issue) (s : State) : Host.Outcome State Fault Refusal :=
  .next (s.binary g (fun a b => .ok (a >>> (b.toNat % 64))))

/-- SAR (R341): by b mod 64. -/
def execSar (g : Issue) (s : State) : Host.Outcome State Fault Refusal :=
  .next (s.binary g (fun a b => .ok (a.sshiftRight (b.toNat % 64))))

/-- SEXT8 to SEXT32 (R341). -/
def execSext (g : Issue) (sz : Fin 3) (s : State) : Host.Outcome State Fault Refusal :=
  .next (s.unary g (fun a => signExtend (8 * 2 ^ sz.val) (a.toNat % 2 ^ (8 * 2 ^ sz.val))))

/-! Compares and predicates. -/

/-- ICMP (R344). -/
def execIcmp (g : Issue) (b2 : Byte) (s : State) : Host.Outcome State Fault Refusal :=
  .next (s.compareInsn g b2 (fun a b => (intCond true (cmpCond b2) a b, 0)))

/-- UCMP (R344). -/
def execUcmp (g : Issue) (b2 : Byte) (s : State) : Host.Outcome State Fault Refusal :=
  .next (s.compareInsn g b2 (fun a b => (intCond false (cmpCond b2) a b, 0)))

/-- FCMP (R169, R344, R362). -/
def execFcmp (g : Issue) (b2 : Byte) (s : State) : Host.Outcome State Fault Refusal :=
  .next (s.compareInsn g b2 (fun a b => fcmp .fp64 (cmpCond b2) a.toNat b.toNat))

/-- The DEC128 operand whose lower and upper words are given (R366). -/
def decPair (lo hi : Word) : Option Int := decOf (hi.toNat * 2 ^ 64 + lo.toNat)

/-- DCMP (R143, R180, R340, R344): the conditions 6 and 7 are ILLEGAL, an invalid nibble traps. -/
def execDcmp (g : Issue) (b2 : Byte) (s : State) : Host.Outcome State Fault Refusal :=
  .next (s.insn g { len := 2, pops := 4, bad := cmpReserved b2 || decide (6 ≤ cmpCond b2) } (fun _ x =>
    (takeTop g.c g.t x 4).bind (fun p =>
      match decPair (p.1.getD 3 0) (p.1.getD 2 0), decPair (p.1.getD 1 0) (p.1.getD 0 0) with
      | some a, some b => Act.pure (p.2.setPred (cmpPred b2) (icmp (cmpCond b2) a b))
      | _, _ => Act.trap trapDecimal)))

/-- TEST (R339, R341): its COND is zero. -/
def execTest (g : Issue) (b2 : Byte) (s : State) : Host.Outcome State Fault Refusal :=
  .next (s.insn g { len := 2, pops := 1, bad := cmpReserved b2 || cmpCond b2 != 0 } (fun _ x =>
    (takeTop g.c g.t x 1).bind (fun p => Act.pure (p.2.setPred (cmpPred b2) (p.1.getD 0 0 != 0)))))

/-- PGET (R341). -/
def execPget (g : Issue) (s : State) : Host.Outcome State Fault Refusal :=
  .next (s.insn g { pushes := 1 } (fun _ x => pushOut g.c g.t x [BitVec.ofNat 64 x.preds]))

/-- PSET (R341). -/
def execPset (g : Issue) (s : State) : Host.Outcome State Fault Refusal :=
  .next (s.insn g { pops := 1 } (fun _ x =>
    (takeTop g.c g.t x 1).bind (fun p => Act.pure { p.2 with preds := (p.1.getD 0 0).toNat % 256 })))

/-! Branches and calls. -/

/-- PC moved by a signed displacement. -/
def branchTo (pc bits disp : Nat) : Nat := ofSigned 64 ((pc : Int) + toSigned bits disp)

/-- BR8 (R341). -/
def execBr8 (g : Issue) (disp : Byte) (s : State) : Host.Outcome State Fault Refusal :=
  .next (s.insn g { len := 2, breaks := true } (fun _ x => Act.pure { x with pc := branchTo x.pc 8 disp.toNat }))

/-- BR32 (R341). -/
def execBr32 (g : Issue) (disp : BitVec 32) (s : State) : Host.Outcome State Fault Refusal :=
  .next (s.insn g { len := 5, breaks := true } (fun _ x => Act.pure { x with pc := branchTo x.pc 32 disp.toNat }))

/-- CALL (R341). -/
def execCall (g : Issue) (disp : BitVec 32) (s : State) : Host.Outcome State Fault Refusal :=
  .next (s.insn g { len := 5, pushes := 1, breaks := true } (fun _ x =>
    pushOut g.c g.t { x with pc := branchTo x.pc 32 disp.toNat } [BitVec.ofNat 64 x.pc]))

/-- RET (R341). -/
def execRet (g : Issue) (s : State) : Host.Outcome State Fault Refusal :=
  .next (s.insn g { pops := 1, breaks := true } (fun _ x =>
    (takeTop g.c g.t x 1).bind (fun p => Act.pure { p.2 with pc := (p.1.getD 0 0).toNat })))

/-- JMPI (R341). -/
def execJmpi (g : Issue) (s : State) : Host.Outcome State Fault Refusal :=
  .next (s.insn g { pops := 1, breaks := true } (fun _ x =>
    (takeTop g.c g.t x 1).bind (fun p => Act.pure { p.2 with pc := (p.1.getD 0 0).toNat })))

/-- CALLI (R341). -/
def execCalli (g : Issue) (s : State) : Host.Outcome State Fault Refusal :=
  .next (s.insn g { pops := 1, pushes := 1, breaks := true } (fun _ x =>
    (takeTop g.c g.t x 1).bind (fun p =>
      pushOut g.c g.t { p.2 with pc := (p.1.getD 0 0).toNat } [BitVec.ofNat 64 x.pc])))

end Sys2Proof.Machine
end

