-- ==== Sys2Proof/Machine/SundopFp.lean ====
section
/-! DEFINITION. Sundop scalar floating point and packed decimal (R143, R145 to R160, R180, R181, R357 to R366). -/
namespace Sys2Proof.Machine

/-- Operand `i` of an FP instruction, the deepest first. -/
def opnd (l : List Nat) (i : Nat) : Nat := l.getD i 0

/-- FADD (R357). -/
def execFadd (g : Issue) (s : State) : Host.Outcome State Fault Refusal :=
  .next (s.fpInsn g 2 (fun rm l => fadd .fp64 rm false (opnd l 0) (opnd l 1)))

/-- FSUB (R357). -/
def execFsub (g : Issue) (s : State) : Host.Outcome State Fault Refusal :=
  .next (s.fpInsn g 2 (fun rm l => fadd .fp64 rm true (opnd l 0) (opnd l 1)))

/-- FMUL (R357). -/
def execFmul (g : Issue) (s : State) : Host.Outcome State Fault Refusal :=
  .next (s.fpInsn g 2 (fun rm l => fmul .fp64 .fp64 rm false (opnd l 0) (opnd l 1)))

/-- FDIV (R357). -/
def execFdiv (g : Issue) (s : State) : Host.Outcome State Fault Refusal :=
  .next (s.fpInsn g 2 (fun rm l => fdiv .fp64 rm (opnd l 0) (opnd l 1)))

/-- FSQRT (R357). -/
def execFsqrt (g : Issue) (s : State) : Host.Outcome State Fault Refusal :=
  .next (s.fpInsn g 1 (fun rm l => fsqrt .fp64 rm (opnd l 0)))

/-- FMA (R357): a × b + c rounded once. -/
def execFma (g : Issue) (s : State) : Host.Outcome State Fault Refusal :=
  .next (s.fpInsn g 3 (fun rm l => fmaCore .fp64 .fp64 .fp64 rm false false false true (opnd l 0) (opnd l 1) (opnd l 2)))

/-- FMIN (R160, R357). -/
def execFmin (g : Issue) (s : State) : Host.Outcome State Fault Refusal :=
  .next (s.fpInsn g 2 (fun _ l => fminmax .fp64 false false (opnd l 0) (opnd l 1)))

/-- FMAX (R160, R357). -/
def execFmax (g : Issue) (s : State) : Host.Outcome State Fault Refusal :=
  .next (s.fpInsn g 2 (fun _ l => fminmax .fp64 true false (opnd l 0) (opnd l 1)))

/-- FRINT (R341). -/
def execFrint (g : Issue) (s : State) : Host.Outcome State Fault Refusal :=
  .next (s.fpInsn g 1 (fun rm l => frint .fp64 rm (opnd l 0)))

/-- CVTIF (R155, R358). -/
def execCvtif (g : Issue) (s : State) : Host.Outcome State Fault Refusal :=
  .next (s.fpInsn g 1 (fun rm l => cvtIF .int64 .fp64 rm false (opnd l 0)))

/-- CVTFI (R154, R358). -/
def execCvtfi (g : Issue) (s : State) : Host.Outcome State Fault Refusal :=
  .next (s.fpInsn g 1 (fun rm l => cvtFI .fp64 .int64 rm (opnd l 0)))

/-- CVTSD (R155, R358). -/
def execCvtsd (g : Issue) (s : State) : Host.Outcome State Fault Refusal :=
  .next (s.fpInsn g 1 (fun rm l => cvtFF .fp32 .fp64 rm false (opnd l 0 % 2 ^ 32)))

/-- CVTDS (R155, R358). -/
def execCvtds (g : Issue) (s : State) : Host.Outcome State Fault Refusal :=
  .next (s.fpInsn g 1 (fun rm l => cvtFF .fp64 .fp32 rm false (opnd l 0)))

/-- FPGET (R363). -/
def execFpget (g : Issue) (s : State) : Host.Outcome State Fault Refusal :=
  .next (s.insn g { pushes := 1, fpFirst := true } (fun _ x => pushOut g.c g.t x [BitVec.ofNat 64 (x.fps &&& lowerMask 4)]))

/-- FPSET (R365). -/
def execFpset (g : Issue) (s : State) : Host.Outcome State Fault Refusal :=
  .next (s.insn g { pops := 1, fpFirst := true } (fun _ x => (takeTop g.c g.t x 1).bind (fun p =>
    let v := (p.1.getD 0 0).toNat
    if 5 ≤ bitsOf v 27 25 then Act.trap trapFpsValue else Act.pure { p.2 with fps := v &&& lowerMask 4 })))

/-- DADD and DSUB (R366): operands and result as lower word beneath upper word. -/
def State.decInsn (s : State) (g : Issue) (f : Int → Int → Int) : State :=
  s.insn g { pops := 4, pushes := 2 } (fun at' x => (takeTop g.c g.t x 4).bind (fun p =>
    match decPair (p.1.getD 3 0) (p.1.getD 2 0), decPair (p.1.getD 1 0) (p.1.getD 0 0) with
    | some a, some b =>
      let (r, fl) := decResult (f a b)
      (pushOut g.c g.t p.2 [BitVec.ofNat 64 r, BitVec.ofNat 64 (r / 2 ^ 64)]).bind (fun y => Act.pure (y.fpRaise at' fl))
    | _, _ => Act.trap trapDecimal))

/-- DADD (R366). -/
def execDadd (g : Issue) (s : State) : Host.Outcome State Fault Refusal := .next (s.decInsn g (fun a b => a + b))

/-- DSUB (R366). -/
def execDsub (g : Issue) (s : State) : Host.Outcome State Fault Refusal := .next (s.decInsn g (fun a b => a - b))

end Sys2Proof.Machine
end

