-- ==== Sys2Proof/Machine/SundopMem.lean ====
section
/-! DEFINITION. Sundop loads, stores, locked sequences, atomics, strings, and the release of buffered stores
(R238, R239, R348 to R356, R650, R651). -/
namespace Sys2Proof.Machine
open Reg

/-! Locked sequences (R352, R650). -/

/-- A locked load: it reaches register space alone, waits while its master holds a lock, and opens the lock. -/
def lockedLoad (g : Issue) (at' : Nat) (x y : TaskRegs) (va len : Nat) : Act (List Byte × TaskRegs) :=
  if va % len ≠ 0 then Act.trap (trapAlign va)
  else (taskGa g.c.val g.t.val x.ring x.ctx .read va).bind (fun ga s =>
    let n := lockOfCore g.c.val
    let off := gaOff ga - regBase
    if !s.isReg ga then (s, .trap trapLock)
    else if s.on (MXC_LOCK_HELD n) then (s, .wait)
    else
      ((loadGa g.c g.t x.ring va ga len).bind (fun bs s =>
        let s := ((s.wr (MXC_LOCK_HELD n) 1).wr (MXC_LOCK_ID n) (masterId (.core g.c g.t))).wr (MXC_LOCK_OFFSET n) (off / 8 * 8)
        let s : State := { s with lockAt := tabPut s.lockAt n s.now }
        let z := s.task g.c.val g.t.val
        let q : LockSeq := { off := off, width := len, pc := at', sp := z.sp, cached := z.cached, preds := z.preds }
        (s, .ok (bs, { y with lock := some q })))) s)

/-- The store that closes a sequence: performed when it names the same register with the same width, at most 16 instructions lie
between, and the lock is still held; otherwise LOCK. In CHECKED mode it is held and ends the interval (R651). -/
def closingStore (g : Issue) (x : TaskRegs) (q : LockSeq) (va : Nat) (bs : List Byte) : Act TaskRegs :=
  (taskGa g.c.val g.t.val x.ring x.ctx .write va).bind (fun ga s =>
    let n := lockOfCore g.c.val
    let held := s.on (MXC_LOCK_HELD n) && s.rd (MXC_LOCK_ID n) == masterId (.core g.c g.t) && s.rd (MXC_LOCK_OFFSET n) == q.off / 8 * 8
    let same := s.isReg ga && gaOff ga - regBase == q.off && bs.length == q.width
    if !(held && same && decide (q.count ≤ 16)) then (s, .trap trapLock)
    else
      ((storeCheck g.c g.t x.ring va ga bs.length).bind (fun _ s =>
        if s.checked g.c.val then
          if !s.storeRoom g.c.val 1 then (s, .wait)
          else
            let s := s.putStore g.c.val { task := g.t.val, ga := ga, size := bs.length, v := leNat bs }
            ({ s with sup := { s.sup with closing := true } }, .ok { x with lock := none })
        else
          let s := s.setTask g.c.val g.t.val { s.task g.c.val g.t.val with lock := none }
          ((writeTaskReg g.c g.t va q.off bs.length (leNat bs)).bind (fun _ =>
            (Act.modify (fun s => s.endLock g.c.val g.t.val)).bind (fun _ => Act.pure { x with lock := none }))) s)) s)

/-! Loads and stores (R348). -/

/-- A load of `len` bytes whose value is `ext` of the bits read. -/
def State.loadInsn (s : State) (g : Issue) (len : Nat) (lckOk : Bool) (ext : Nat → Word) : State :=
  s.insn g { pops := 1, pushes := 1, lck := lckOk, breaks := true } (fun at' x => (takeTop g.c g.t x 1).bind (fun p =>
    let va := (p.1.getD 0 0).toNat
    if g.lck then
      (lockedLoad g at' x p.2 va len).bind (fun r => pushOut g.c g.t r.2 [ext (leNat r.1)])
    else (loadVa g.c g.t x va len).bind (fun bs => pushOut g.c g.t p.2 [ext (leNat bs)])))

/-- LD8 to LD64 (R348, R352). -/
def execLd (g : Issue) (sz : Fin 4) (s : State) : Host.Outcome State Fault Refusal :=
  .next (s.loadInsn g (2 ^ sz.val) (2 ≤ sz.val) (fun n => BitVec.ofNat 64 n))

/-- LDS8 to LDS32 (R348, R352). -/
def execLds (g : Issue) (sz : Fin 3) (s : State) : Host.Outcome State Fault Refusal :=
  .next (s.loadInsn g (2 ^ sz.val) (sz.val == 2) (fun n => signExtend (8 * 2 ^ sz.val) n))

/-- ST8 to ST64 (R238, R327, R348, R352). -/
def execSt (g : Issue) (sz : Fin 4) (s : State) : Host.Outcome State Fault Refusal :=
  .next (s.insn g { pops := 2, lck := 2 ≤ sz.val, closes := true } (fun _ x => (takeTop g.c g.t x 2).bind (fun p =>
    let va := (p.1.getD 1 0).toNat
    let bs := leBytes (2 ^ sz.val) (p.1.getD 0 0).toNat
    if va % bs.length ≠ 0 then Act.trap (trapAlign va)
    else
      match x.lock with
      | some q => closingStore g p.2 q va bs
      | none =>
        if g.lck then Act.trap trapLock
        else (storeVa g.c g.t x va bs).bind (fun _ => Act.pure p.2))))

/-! Atomics (R42, R304, R351). -/

/-- An atomic of 8 bytes at a global address: after the task's own stores there, one indivisible step. SUP_A in CHECKED mode reads
the old value at once and holds the write (log 47). -/
def taskAtom (c : Core) (t : Task) (ring va ga op v n : Nat) : Act Nat := fun s =>
  let store := match rangeOf (gaOff ga) with
    | .memory => true
    | .scratch _ => true
    | _ => false
  if !store then (s.refuse (.core c.val t.val) (gaOff ga) ST_PROTECTION, .trap (trapAccess ST_PROTECTION va 0))
  else if s.checked c.val then
    ((storeCheck c t ring va ga 8).bind (fun _ => (loadGa c t ring va ga 8).bind (fun bs s =>
      let old := leNat bs
      if op = 4 ∧ old ≠ v then (s, .ok old)
      else if !s.storeRoom c.val 1 then (s, .wait)
      else (s.putStore c.val { task := t.val, ga := ga, size := 8, v := atomNew op old v n }, .ok old)))) s
  else if !(s.task c.val t.val).spills.isEmpty || (s.ownStores c.val t.val).any (fun e => overlaps ga 8 e.ga e.size) then (s, .wait)
  else if gaNode ga ≠ s.node then
    match s.askRemote (agentTask c.val t.val) ga (8192 + op) (atomMsg ga op v n) with
    | (s, none) => (s, .wait)
    | (s, some r) =>
      match askedBytes va r with
      | .ok bs => (s, .ok (leNat bs))
      | .trap tr => (s, .trap tr)
      | .wait => (s, .wait)
  else
    match s.localAtom (taskBy c.val t.val (.store ring)) (gaOff ga) op v n with
    | (s, .blocked st) => (s, .trap (trapOf st va))
    | (s, .done (.old o)) => (s, .ok o)
    | (s, .done _) => (s, .trap (trapPoison va))
    | (s, .wait) => (s, .wait)

/-- An atomic instruction that takes `k` entries, the address deepest, and pushes the old value. -/
def State.atomInsn (s : State) (g : Issue) (k op : Nat) : State :=
  s.insn g { pops := k, pushes := 1, breaks := true } (fun _ x => (takeTop g.c g.t x k).bind (fun p =>
    let va := (p.1.getD (k - 1) 0).toNat
    let v := (p.1.getD (k - 2) 0).toNat
    let n := if k = 3 then (p.1.getD 0 0).toNat else 0
    if va % 8 ≠ 0 then Act.trap (trapAlign va)
    else (taskGa g.c.val g.t.val x.ring x.ctx .atomic va).bind (fun ga =>
      (taskAtom g.c g.t x.ring va ga op v n).bind (fun old => pushOut g.c g.t p.2 [BitVec.ofNat 64 old]))))

/-- XADD (R351). -/
def execXadd (g : Issue) (s : State) : Host.Outcome State Fault Refusal := .next (s.atomInsn g 2 1)

/-- XCHG (R351). -/
def execXchg (g : Issue) (s : State) : Host.Outcome State Fault Refusal := .next (s.atomInsn g 2 3)

/-- CAS (R351). -/
def execCas (g : Issue) (s : State) : Host.Outcome State Fault Refusal := .next (s.atomInsn g 3 4)

/-! String instructions (R339, R355, R356). -/

def strWidth (b2 : Byte) : Nat := 2 ^ bitsOf b2.toNat 5 4
def strStopNe (b2 : Byte) : Bool := bitOf b2.toNat 3
def strPred (b2 : Byte) : Nat := bitsOf b2.toNat 2 0

/-- The second byte of a string instruction has a bit set that its table leaves zero; `pd` and `ne` say which fields it has. -/
def strReserved (b2 : Byte) (pd ne : Bool) : Bool :=
  bitsOf b2.toNat 7 6 != 0 || (!ne && strStopNe b2) || (!pd && strPred b2 != 0)

/-- A string address or count moved on. -/
def TaskRegs.moved (x : TaskRegs) (src dst : Nat) : TaskRegs :=
  { x with src := x.src + BitVec.ofNat 64 src, dst := x.dst + BitVec.ofNat 64 dst, cnt := x.cnt - 1 }

/-- Elements processed one after another, up to `n` and to the stop condition: the registers at the last boundary, and how it
ended. An element after the `first` one that would wait is left for the next issue, which begins with it. -/
def strRun (step : TaskRegs → Act (TaskRegs × Bool)) : Bool → Nat → TaskRegs → State → State × TaskRegs × Go Bool
  | _, 0, x, s => (s, x, .ok false)
  | first, n + 1, x, s =>
    match step x s with
    | (s, .ok (y, stop)) => if stop then (s, y, .ok true) else strRun step false n y s
    | (s, .trap t) => (s, x, .trap t)
    | (t, .wait) => (if first then t else s, x, .wait)

/-- The elements of one issue: to its end, where `fin` writes PD, or to an interrupt after `limit` elements, a trap or a wait, with PC
left on the first prefix byte. -/
def strBody (g : Issue) (limit : Option Nat) (at' : Nat) (x : TaskRegs) (step : TaskRegs → Act (TaskRegs × Bool))
    (fin : TaskRegs → Bool → TaskRegs) : Act TaskRegs := fun s =>
  let total := if g.rep then x.cnt.toNat else min 1 x.cnt.toNat
  let n := (limit.map (fun k => min k total)).getD total
  let each := fun y => (step y).bind (fun r => (Act.modify (fun s => s.rbufClear (agentTask g.c.val g.t.val))).bind (fun _ => Act.pure r))
  match strRun each true n x s with
  | (s, y, .ok stop) => if stop ∨ n = total then (s, .ok (fin y stop)) else (s, .ok { y with pc := at' })
  | (s, y, .trap t) => if y.cnt = x.cnt then (s, .trap t) else (s, .ok { y with pc := at', trap := some t })
  | (s, y, .wait) => if y.cnt = x.cnt then (s, .wait) else (s, .ok { y with pc := at' })

/-- An element stored as the program's own store. -/
def strStore (g : Issue) (x : TaskRegs) (va : Nat) (bs : List Byte) : Act Unit :=
  if va % bs.length ≠ 0 then Act.trap (trapAlign va)
  else (taskGa g.c.val g.t.val x.ring x.ctx .write va).bind (fun ga => storeNow g.c g.t x.ring va ga bs)

/-- MOVS (R355). -/
def execMovs (g : Issue) (b2 : Byte) (limit : Option Nat) (s : State) : Host.Outcome State Fault Refusal :=
  let w := strWidth b2
  .next (s.insn g { len := 2, rep := true, bad := strReserved b2 false false, breaks := true } (fun at' x =>
    strBody g limit at' x (fun y => (loadVa g.c g.t y y.src.toNat w).bind (fun bs =>
      (strStore g y y.dst.toNat bs).bind (fun _ => Act.pure (y.moved w w, false)))) (fun y _ => y)))

/-- The top entry, which stays: it is filled when it is not cached. -/
def keepTop (g : Issue) (x : TaskRegs) : Act (Word × TaskRegs) :=
  (takeTop g.c g.t x 1).bind (fun p => (pushOut g.c g.t p.2 [p.1.getD 0 0]).bind (fun y => Act.pure (p.1.getD 0 0, y)))

/-- FILLS (R355). -/
def execFills (g : Issue) (b2 : Byte) (limit : Option Nat) (s : State) : Host.Outcome State Fault Refusal :=
  let w := strWidth b2
  .next (s.insn g { len := 2, pops := 1, pushes := 1, rep := true, bad := strReserved b2 false false, breaks := true } (fun at' x =>
    (keepTop g x).bind (fun p => strBody g limit at' p.2 (fun y =>
      (strStore g y y.dst.toNat (leBytes w p.1.toNat)).bind (fun _ => Act.pure (y.moved 0 w, false))) (fun y _ => y))))

/-- CMPS (R355): without REP its one element decides PD. -/
def execCmps (g : Issue) (b2 : Byte) (limit : Option Nat) (s : State) : Host.Outcome State Fault Refusal :=
  let w := strWidth b2
  .next (s.insn g { len := 2, rep := true, bad := strReserved b2 true false, breaks := true } (fun at' x =>
    strBody g limit at' x (fun y => (loadVa g.c g.t y y.src.toNat w).bind (fun a =>
      (loadVa g.c g.t y y.dst.toNat w).bind (fun b => Act.pure (y.moved w w, decide (a ≠ b)))))
      (fun y stop => y.setPred (strPred b2) stop)))

/-- SCANS (R355): without REP its one element decides PD. -/
def execScans (g : Issue) (b2 : Byte) (limit : Option Nat) (s : State) : Host.Outcome State Fault Refusal :=
  let w := strWidth b2
  .next (s.insn g { len := 2, pops := 1, pushes := 1, rep := true, bad := strReserved b2 true true, breaks := true } (fun at' x =>
    (keepTop g x).bind (fun p => strBody g limit at' p.2 (fun y =>
      (loadVa g.c g.t y y.dst.toNat w).bind (fun b =>
        Act.pure (y.moved 0 w, decide (b = leBytes w p.1.toNat) != strStopNe b2)))
      (fun y stop => y.setPred (strPred b2) stop))))

/-! The store buffer (R238, R239). -/

/-- A buffered store that failed as it left: its task traps. -/
def State.storeFailed (s : State) (c : Nat) (e : StoreEntry) (status : Nat) : State :=
  let x := s.task c e.task
  s.setTask c e.task { x with trap := x.trap.orElse (fun _ => some (trapOf status e.ga)) }

/-- A checked action of SUP_A in register space or the flash is performed; the write that a locked sequence closes with ends the lock
(R24, R327, R651). -/
def State.performAct (s : State) (e : StoreEntry) : State :=
  let off := gaOff e.ga
  if s.isReg e.ga then
    let o := off - regBase
    let s := (s.writeReg { m := .core 24 (Fin.ofNat 64 e.task), lane := o % 8, width := e.size, v := BitVec.ofNat 64 e.v } (o / 8 * 8)).mxcDrain
    if s.on (MXC_LOCK_HELD 0) && s.rd (MXC_LOCK_OFFSET 0) == o / 8 * 8 then (s.unlock 0).mxcDrain else s
  else if s.flashStoreOk 0 e.ga e.size then s.flashTouch.flashWrite (off - flashBase) (leBytes e.size e.v)
  else (s.refuse (.core 24 e.task) off ST_PROTECTION).storeFailed 24 e ST_PROTECTION

/-- A store leaves the buffer for its channel or bank, or for its module; it stays there until it has been performed. -/
def State.releaseStore (s : State) (c : Nat) (e : StoreEntry) : State :=
  let gone := fun (s : State) => s.setCore c { s.coreSt c with stores := (s.coreSt c).stores.filter (fun x => x.id != e.id) }
  let sent := fun (s : State) =>
    s.setCore c { s.coreSt c with stores := (s.coreSt c).stores.map (fun x => if x.id = e.id then { x with sent := true } else x) }
  if s.isReg e.ga || s.isFlash e.ga then
    if s.isReg e.ga && s.lockedFor (.core 24 (Fin.ofNat 64 e.task)) (gaOff e.ga - regBase) then s else (gone s).performAct e
  else if gaNode e.ga ≠ s.node then
    match s.post (writeMsg e.ga (leBytes e.size e.v) false) none (.store c e.id) with
    | some s => sent s
    | none => s
  else
    match s.block (.store 3) (.core c e.task) (gaOff e.ga) e.size with
    | some (s, st) => (gone s).storeFailed c e st
    | none =>
      (sent s).postLocal (gaOff e.ga) e.size (wordWrites (gaOff e.ga) (leBytes e.size e.v) false)
        { op := .write [], src := none, port := 96, arrived := s.now, who := some (Requester.core c e.task).code, sink := .store c e.id }

/-- The stores that may leave next: none earlier touches the same bytes, and SUP_A's checked actions keep their order. -/
def mayLeave : List StoreEntry → List StoreEntry → List StoreEntry
  | _, [] => []
  | before, e :: l =>
    let rest := mayLeave (before ++ [e]) l
    if e.sent || before.any (fun b => b.act || e.act || overlaps b.ga b.size e.ga e.size) then rest else e :: rest

/-- STORE_BUFFER_RELEASE (R239): one of the stores that may leave, whichever; then queued entry spills take the room. -/
def execStoreBufferRelease (c : Core) (s : State) : Host.Outcome State Fault Refusal :=
  let es := mayLeave [] (s.coreSt c.val).stores
  .next (match es with
    | [] => s
    | _ =>
      let (v, s) := s.fresh
      match es[v % es.length]? with
      | none => s
      | some e =>
        (List.finRange 64).foldl (fun s t => s.drainSpills c t) (s.releaseStore c.val e))

end Sys2Proof.Machine
end

