-- ==== Sys2Proof/Machine/SundopChain.lean ====
section
/-! DEFINITION. Sundop instructions that issue chains and LOFT operations, and that save and restore tasks (R127, R215, R240,
R252, R288 to R290, R296, R367 to R371, R400). -/
namespace Sys2Proof.Machine
open Reg

/-! Chains of a task (R367 to R370). -/

/-- The task's chains that no CWAIT has reported, oldest first. -/
def State.taskChains (s : State) (c t : Nat) : List Chain :=
  s.chains.filter (fun x => match x.issuer with
    | .task c' t' => c' == c && t' == t
    | .ring .. => false)

/-- The chain failed, not by R370 itself. -/
def Chain.failed (x : Chain) : Bool :=
  x.phase == .ended && x.status != ST_OK && x.status != ST_VERIFY_RETRIED && x.status != ST_ABORTED

/-- An accepted chain: its failed check, its empty range, or an earlier failure ends it at once; otherwise it asks for its lift
(R110, R370, R536, R537). -/
def State.addTaskChain (s : State) (c t ring : Nat) (d : List Nat) : State :=
  let failed := (s.taskChains c t).any Chain.failed
  let x : Chain := { id := s.nextChain, issuer := .task c t, desc := d, ring := ring, start0 := dStart d, start := dStart d
                     endIndex := dStart d }
  let add := fun (x : Chain) => ({ s with nextChain := s.nextChain + 1, chains := s.chains ++ [x] } : State)
  let ended := fun st => add { x with phase := .ended, status := st }
  match checkDesc d 4 (s.on (XLAT_CTX_CFG_ENABLE (dCtx d))) with
  | some st => if failed then ended ST_ABORTED else ended st
  | none =>
    if failed then ended ST_ABORTED
    else if dStart d = dCount d then ended ST_OK
    else
      let s := add x
      if s.denied x then s.denyChain x else s.requestLift { chain := x.id, since := s.now, timer := s.now }

/-- The store buffer of the core is empty (R240). -/
def State.storesDrained (s : State) (c t : Nat) : Bool := (s.coreSt c).stores.isEmpty && (s.task c t).spills.isEmpty

/-- CHAIN (R367, R368). -/
def execChainInstruction (g : Issue) (s : State) : Host.Outcome State Fault Refusal :=
  .next (s.insn g { pops := 1, fpFirst := true, breaks := true, bad := decide (24 ≤ g.c.val) } (fun _ x =>
    (takeTop g.c g.t x 1).bind (fun p =>
      let va := (p.1.getD 0 0).toNat
      if va % 64 ≠ 0 then Act.trap (trapAlign va)
      else fun s =>
        if !s.storesDrained g.c.val g.t.val || decide (4 ≤ (s.taskChains g.c.val g.t.val).length) then (s, .wait)
        else
          ((loadLines g.c g.t x va 6).bind (fun bs =>
            (Act.modify (fun s => s.addTaskChain g.c.val g.t.val x.ring (wordsOf bs))).bind (fun _ => Act.pure p.2))) s)))

/-- The completion word (R369). -/
def Chain.word (x : Chain) : Nat := x.status * 2 ^ 56 + x.flags % 64 * 2 ^ 48 + x.endIndex % 2 ^ 48

/-- CWAIT (R369). -/
def execCwait (g : Issue) (s : State) : Host.Outcome State Fault Refusal :=
  .next (s.insn g { pushes := 1 } (fun _ x s =>
    match s.taskChains g.c.val g.t.val with
    | [] => pushOut g.c g.t x [BitVec.ofNat 64 (ST_BAD_PARAM * 2 ^ 56)] s
    | e :: _ =>
      if e.phase ≠ .ended then (s, .wait)
      else
        ((pushOut g.c g.t x [BitVec.ofNat 64 e.word]).bind (fun y =>
          (Act.modify (fun s => { s with chains := s.chains.filter (fun z => z.id != e.id) })).bind (fun _ => Act.pure y))) s))

/-- LOFT (R240, R288, R290, R296): accepted when the queue of SVU J has room. -/
def execLoft (g : Issue) (s : State) : Host.Outcome State Fault Refusal :=
  .next (s.insn g { pops := 2, fpFirst := true, bad := decide (24 ≤ g.c.val) } (fun _ x =>
    (takeTop g.c g.t x 2).bind (fun p =>
      let w1 := (p.1.getD 0 0).toNat
      let w0 := (p.1.getD 1 0).toNat
      let scal := bitOf w1 60
      let i := 4 * g.c.val + bitsOf w1 63 62
      if scal && decide (x.depth < 3) then Act.trap trapUnder
      else (takeTop g.c g.t p.2 (b2n scal)).bind (fun q s =>
        let u := s.svu i
        if !s.storesDrained g.c.val g.t.val || decide (8 ≤ (u.queue.filter (fun o => o.mark == 0)).length) then (s, .wait)
        else
          (s.setSvu i { u with queue := u.queue ++ [{ core := g.c.val, task := g.t.val, w0 := w0, w1 := w1
                                                      scalar := (q.1.getD 0 0).toNat, te := bitsOf x.fps 24 20 }] }, .ok q.2)))))

/-! Save areas (R400). -/

/-- The task that the save instructions of a core act on: the selected one, idle, and not the issuing task. -/
def State.saveTask (s : State) (c t : Nat) : Option (Nat × TaskRegs) :=
  let u := s.selTask c
  if u ≠ t ∧ (s.task c u).st.idle then some (u, s.task c u) else none

/-- An instruction on the half at the address on top: aligned, on a task it may act on; the link word is pushed. -/
def State.saveInsn (s : State) (g : Issue) (f : TaskRegs → Nat → Nat → TaskRegs → Act Nat) : State :=
  s.insn g { pops := 1, pushes := 1, ring := 0, breaks := true } (fun _ x => (takeTop g.c g.t x 1).bind (fun p s =>
    let a := (p.1.getD 0 0).toNat
    if a % 256 ≠ 0 then (s, .trap (trapAlign a))
    else
      match s.saveTask g.c.val g.t.val with
      | none => (s, .trap (trapAccess ST_PROTECTION a 0))
      | some (u, y) => ((f x a u y).bind (fun link => pushOut g.c g.t p.2 [BitVec.ofNat 64 link])) s))

/-- Its earliest cached entry spilled when 32 are cached. -/
def spillFull (c : Core) (t : Task) (u : Nat) (y : TaskRegs) : Act TaskRegs :=
  match y.cached.getLast? with
  | some e =>
    if y.cached.length < 32 then Act.pure y
    else (spillEntry c t y.ctx e).bind (fun _ s =>
      let z := { y with cached := y.cached.dropLast }
      (s.setTask c.val u z, .ok z))
  | none => Act.pure y

/-- The words 1 to 31 of a half stored, all checked before the first is stored; the link word loaded. -/
def storeHalf (c : Core) (t : Task) (x : TaskRegs) (a : Nat) (w : Nat → Nat) : Act Nat :=
  let bs := (List.range 32).flatMap (fun k => leBytes 8 (w k))
  let pieces := [(8, 56), (64, 64), (128, 64), (192, 64)].map (fun p : Nat × Nat => (a + p.1, (bs.drop p.1).take p.2))
  (loadVa c t x a 8).bind (fun link =>
    (Act.collect pieces (fun p => (taskGa c.val t.val x.ring x.ctx .write p.1).bind (fun ga =>
      (storeCheck c t x.ring p.1 ga p.2.length).bind (fun _ => Act.pure ga)))).bind (fun gas =>
        (Act.forEach (pieces.zip gas) (fun p => storeNow c t x.ring p.1.1 p.2 p.1.2)).bind (fun _ => Act.pure (leNat link))))

/-- SAVEL (R400). -/
def execSavel (g : Issue) (s : State) : Host.Outcome State Fault Refusal :=
  .next (s.saveInsn g (fun x a u y => (spillFull g.c g.t u y).bind (fun z => storeHalf g.c g.t x a z.lowerWord)))

/-- SAVEU (R400). -/
def execSaveu (g : Issue) (s : State) : Host.Outcome State Fault Refusal :=
  .next (s.saveInsn g (fun x a u y => (spillFull g.c g.t u y).bind (fun z => storeHalf g.c g.t x a z.upperWord)))

/-- RESTL (R400): the context is replaced; cached entries that CACHED counts hold free values until RESTU installs them. -/
def execRestl (g : Issue) (s : State) : Host.Outcome State Fault Refusal :=
  .next (s.saveInsn g (fun x a u y => (loadLines g.c g.t x a 4).bind (fun bs s =>
    let ws := wordsOf bs
    let (vs, s) := s.freshN (bitsOf (ws.getD 3 0) 20 16)
    let z := (List.range 17).foldl (fun z k => TaskRegs.setLower z (k + 1) (ws.getD (k + 1) 0) vs) { y with cached := [] }
    (s.setTask g.c.val u z, .ok (ws.getD 0 0)))))

/-- RESTU (R400). -/
def execRestu (g : Issue) (s : State) : Host.Outcome State Fault Refusal :=
  .next (s.saveInsn g (fun x a u y => (loadLines g.c g.t x a 4).bind (fun bs s =>
    let ws := wordsOf bs
    let z := (List.range 31).foldl (fun z k => TaskRegs.setUpper z (k + 1) (ws.getD (k + 1) 0)) y
    (s.setTask g.c.val u z, .ok (ws.getD 0 0)))))

end Sys2Proof.Machine
end

