-- ==== Sys2Proof/Machine/Handlers.lean ====
section
/-! DEFINITION. Line fetches, gates and returns, and the entries of trap, interrupt and drogue handlers (R342, R350, R353,
R373, R375, R383 to R399). -/
namespace Sys2Proof.Machine
open Reg

/-! Fetch (R350, R373, R375). -/

/-- The line is held: pinned or cached. -/
def State.lineHeld (s : State) (c line : Nat) : Bool :=
  (s.coreSt c).pinned.any (fun p => p.2.1 == line) || (tabFind (s.coreSt c).lines line).isSome

/-- Lines a line cache holds: 128 KiB. -/
def lineCap : Nat := 2048

/-- A line enters the line cache; a full cache gives up a line, whichever. -/
def State.putLine (s : State) (c line : Nat) (bs : List Byte) : State :=
  let ls := (s.coreSt c).lines
  if ls.length < lineCap then s.setCore c { s.coreSt c with lines := tabPut ls line bs }
  else
    let (v, s) := s.fresh
    s.setCore c { s.coreSt c with lines := tabPut (ls.eraseIdx (v % ls.length)) line bs }

/-- Bytes fetched at a global address. -/
def fetchGa (c t va ga : Nat) : Act (List Byte) := fun s =>
  if gaNode ga ≠ s.node then
    match s.askRemote (agentTask c t) ga 64 (readMsg ga 64) with
    | (s, none) => (s, .wait)
    | (s, some r) => (s, askedBytes va r)
  else readLocal (taskBy c t .fetch) va (gaOff ga) 64 s

/-- LINE_FETCH (R350, R373): the line of PC, or the next one while that is held; a fetch that fails traps. -/
def execLineFetch (c : Core) (t : Task) (s : State) : Host.Outcome State Fault Refusal :=
  .next (if !s.canIssue c t then s
    else
      let x := s.task c.val t.val
      let fetch := fun (va : Nat) (s : State) =>
        match taskGa c.val t.val x.ring x.ctx .fetch va s with
        | (s, .trap tr) => s.raise c t tr
        | (s, .wait) => s
        | (s, .ok ga) =>
          if s.lineHeld c.val (ga / 64) then s
          else
            match fetchGa c.val t.val va ga s with
            | (s, .ok bs) => (s.putLine c.val (ga / 64) bs).rbufClear (agentTask c.val t.val)
            | (s, .trap tr) => s.raise c t tr
            | (s, .wait) => s
      let va := x.pc / 64 * 64
      let here := match taskGa c.val t.val x.ring x.ctx .fetch va s with
        | (s, .ok ga) => s.lineHeld c.val (ga / 64)
        | _ => false
      fetch (if here then va + 64 else va) s)

/-! ILLEGAL encodings (R338 to R341). -/

/-- Bytes of the instruction with an opcode, when the table lists it. -/
def opLen (op : Nat) : Option Nat :=
  if op ≤ 0x04 ∨ (0x08 ≤ op ∧ op ≤ 0x0e) then some 1
  else if op = 0x10 then some 2
  else if op = 0x11 then some 3
  else if op = 0x12 then some 5
  else if op = 0x13 then some 9
  else if 0x20 ≤ op ∧ op ≤ 0x33 then some 1
  else if 0x38 ≤ op ∧ op ≤ 0x3c then some 2
  else if op = 0x3d ∨ op = 0x3e then some 1
  else if op = 0x40 ∨ op = 0x46 then some 2
  else if op = 0x41 ∨ op = 0x42 then some 5
  else if op = 0x43 ∨ op = 0x44 ∨ op = 0x45 ∨ op = 0x47 then some 1
  else if (0x50 ≤ op ∧ op ≤ 0x56) ∨ (0x58 ≤ op ∧ op ≤ 0x5e) ∨ (0x60 ≤ op ∧ op ≤ 0x65) then some 1
  else if 0x68 ≤ op ∧ op ≤ 0x6b then some 2
  else if (0x70 ≤ op ∧ op ≤ 0x78) ∨ (0x7a ≤ op ∧ op ≤ 0x81) then some 1
  else if (0x90 ≤ op ∧ op ≤ 0x92) ∨ (0xa0 ≤ op ∧ op ≤ 0xa3) then some 1
  else none

/-- The second byte of an opcode is ILLEGAL (R339, R340). -/
def secondBad (op : Nat) (b2 : Byte) : Bool :=
  if op = 0x3c then cmpReserved b2 || cmpCond b2 != 0
  else if op = 0x3b then cmpReserved b2 || decide (6 ≤ cmpCond b2)
  else if 0x38 ≤ op ∧ op ≤ 0x3a then cmpReserved b2
  else if op = 0x68 ∨ op = 0x69 then strReserved b2 false false
  else if op = 0x6a then strReserved b2 true false
  else if op = 0x6b then strReserved b2 true true
  else false

/-- An opcode behind a prefix is ILLEGAL: with LCK any but LD32, LD64, LDS32, ST32 and ST64, with REP any but a string
instruction. -/
def opBad (pre : Option Nat) (op : Nat) (rest : List Byte) : Bool :=
  let prefixBad := match pre with
    | some 0xf8 => !([0x52, 0x53, 0x56, 0x5a, 0x5b].contains op)
    | some _ => !(decide (0x68 ≤ op) && decide (op ≤ 0x6b))
    | none => false
  (opLen op).isNone || prefixBad || (match rest with
    | b2 :: _ => secondBad op b2
    | [] => false)

/-- The instruction bytes are ILLEGAL. -/
def illegalBytes (bs : List Byte) : Bool :=
  let bs := match bs with
    | b :: r => if b.toNat / 16 = 14 then r else b :: r
    | [] => []
  match bs with
  | [] => false
  | b :: r =>
    if b.toNat = 0xf8 ∨ b.toNat = 0xf9 then
      match r with
      | o :: r => opBad (some b.toNat) o.toNat r
      | [] => false
    else opBad none b.toNat r

/-! Frames (R387, R389). -/

/-- The STATE word of a frame: what the entry says, and the task before it. -/
def TaskRegs.stateWord (x : TaskRegs) (tr : Trap) (k drg : Bool) : Nat :=
  tr.cause * 2 ^ 56 + tr.status * 2 ^ 48 + tr.sub % 16 * 2 ^ 44 + tr.line % 16 * 2 ^ 40 + tr.flags % 64 * 2 ^ 32
    + tr.aux % 256 * 2 ^ 24 + b2n drg * 2 ^ 17 + b2n tr.fpp * 2 ^ 16 + b2n k * 2 ^ 15 + x.cpl % 4 * 2 ^ 13 + x.nest % 8 * 2 ^ 10
    + x.ring % 4 * 2 ^ 8 + x.preds % 256

/-- The four frame words, RET deepest. -/
def TaskRegs.frame (x : TaskRegs) (ret : Nat) (tr : Trap) (k drg : Bool) : List Word :=
  [BitVec.ofNat 64 ret, BitVec.ofNat 64 x.sp, BitVec.ofNat 64 (x.stateWord tr k drg), BitVec.ofNat 64 tr.info]

/-- The task on the stack it enters at ring `e`. -/
def TaskRegs.switchTo (x : TaskRegs) (e : Nat) : TaskRegs :=
  if e < x.ring then { x with ring := e, sp := x.rsb.getD e 0, cached := x.cached.filter (fun y => y.space != e) } else x

/-- Entry pushes, whose spills go to the entry spill queue of 20 words (R388). -/
def TaskRegs.entryPush (x : TaskRegs) (vs : List Word) : TaskRegs :=
  let (y, es) := x.pushAll vs
  { y with spills := y.spills ++ es }

/-! Double faults and drogue entries (R390 to R396). -/

/-- A double fault (R396). -/
def State.doubleFault (s : State) (c : Core) (t : Task) (cause : Nat) : State :=
  let s := s.endLock c.val t.val
  let x := s.task c.val t.val
  let s := if x.drogue then s.wr (CORE_DROGUE_ACTIVE c.val) 0 else s
  let s := (s.setTask c.val t.val { x with
    st := .halted, drogue := false, due := none, trap := none, lock := none, stopping := false }).rbufClear (agentTask c.val t.val)
  s.record { src := srcHalt + c.val, inst := t.val, aux := cause, addr := x.pc }

/-- A fault while entering a handler: the drogue handler comes next, or it is a double fault. -/
def State.entryFault (s : State) (c : Core) (t : Task) (due : Trap) : State :=
  let x := s.task c.val t.val
  if x.drogue then s.doubleFault c t due.cause else s.setTask c.val t.val { x with due := some due, trap := none, st := .run }

/-- The entry of a trap or interrupt handler: vector `k`, what the frame says, and the CPL after it (R387, R390, R391). -/
def State.enter (s : State) (c : Core) (t : Task) (k : Nat) (tr : Trap) (cpl : Nat) : State :=
  let x := s.task c.val t.val
  let vec := 64 * s.rd (vecAddr c.val k)
  if 4 ≤ x.nest then s.entryFault c t { cause := 0x11, status := tr.status, aux := tr.cause }
  else if !s.on (vecValid c.val k) then s.entryFault c t { cause := 0x12, status := tr.status, info := vec }
  else
    let y := x.switchTo (min x.ring (s.rd (vecRing c.val k)))
    if y.sp < y.sl + 32 then
      s.entryFault c t { cause := 0x12, status := tr.status, info := y.sp - 8 * ((y.sp - y.sl) / 8 + 1) }
    else
      let z := y.entryPush (x.frame x.pc tr true false)
      let s := s.setTask c.val t.val { z with
        st := .run, pc := vec, nest := x.nest + 1, cpl := cpl, trap := none, lock := none
        fpPend := x.fpPend && !tr.fpp && tr.cause != 0x0d }
      s.drainSpills c t

/-- The spill queue has room for the pushes of an entry. -/
def TaskRegs.queueRoom (x : TaskRegs) (n : Nat) : Bool := decide (x.spills.length + (x.cached.length + n - 32) ≤ 20)

/-- A task that may enter a handler: it runs or waits, on a core that executes, with no drogue handler before it. -/
def State.mayEnter (s : State) (c : Core) (t : Task) : Bool :=
  let x := s.task c.val t.val
  taskExists c t && s.coreRuns c.val && x.due.isNone && (x.drogue || !x.stopping) && !s.drogueElsewhere c.val t.val
    && s.intervalOpen c.val && x.queueRoom 4

/-- The trap that a task enters at its boundary: a pending FP trap first, then a precise trap, a stopped LOFT operation, and bytes
that are ILLEGAL (R299, R345, R346). -/
def TaskRegs.trapDue (x : TaskRegs) (illegal : Option (List Byte)) : Option Trap :=
  if x.fpPend then some { cause := 0x0d, status := ST_FP_TRAP, info := x.fpAddr, flags := x.fpFlags }
  else
    match x.trap, x.loftStop with
    | some tr, _ => some tr
    | none, (status, index, gone, j) :: _ =>
      some { cause := 0x0c, status := status, info := index, aux := j * 16 + min gone 7 }
    | none, [] => if illegal.any illegalBytes then some trapIllegal else none

/-- TRAP_ENTRY (R345, R346, R386, R387, R390, R396). -/
def execTrapEntry (c : Core) (t : Task) (illegal : Option (List Byte)) (s : State) : Host.Outcome State Fault Refusal :=
  let x := s.task c.val t.val
  .next (if !s.mayEnter c t || x.st != .run then s
    else
      match x.trapDue illegal with
      | none => s
      | some tr =>
        if tr.cause = 1 && x.trap.isNone && !s.canIssue c t then s
        else
          let s := (s.beginInterval c.val).endLock c.val t.val
          let s := if tr.cause = 0x0c then s.setTask c.val t.val { s.task c.val t.val with loftStop := x.loftStop.drop 1 } else s
          if x.drogue then s.doubleFault c t tr.cause else s.enter c t 0 tr x.cpl)

/-- INTERRUPT_ENTRY (R342, R353, R383 to R385): the line's pending bit clears and its priority becomes CPL; work in progress is
abandoned, but for a remote atomic or store that was sent. -/
def execInterruptEntry (c : Core) (t : Task) (s : State) : Host.Outcome State Fault Refusal :=
  let x := s.task c.val t.val
  .next (if !s.mayEnter c t || !(x.st == .run || x.st == .wait) || x.trap.isSome || s.accessSent c.val t.val then s
    else
      match x.taken with
      | none => s
      | some l =>
        let s := ((s.beginInterval c.val).leaveLock c.val t.val).rbufClear (agentTask c.val t.val)
        let s : State := if s.checked c.val then { s with sup := { s.sup with taken := s.sup.taken ++ [(t.val, l)] } } else s
        let y := s.task c.val t.val
        let s := s.setTask c.val t.val { y with pend := y.pend - 2 ^ l }
        let tr : Trap := { cause := 0x10, status := 0, line := l, fpp := x.fpPend, info := if x.fpPend then x.fpAddr else 0
                           flags := if x.fpPend then x.fpFlags else 0 }
        s.enter c t 1 tr (x.prioOf l))

/-- The entry to the drogue handler (R392, R395). The frame has K 0, without which no GRET could leave the handler (log 49). -/
def State.enterDrogue (s : State) (c : Core) (t : Task) (due : Trap) : State :=
  let s := s.endLock c.val t.val
  let x := s.task c.val t.val
  if !s.on (vecValid c.val 2) then s.doubleFault c t due.cause
  else
    let y : TaskRegs := { x with drogue := true, ring := 0, sp := 2048, cached := x.cached.filter (fun e => e.space != 4) }
    let z := y.entryPush (x.frame x.pc due false true)
    let s := s.setTask c.val t.val { z with pc := 64 * s.rd (vecAddr c.val 2), due := none, trap := none, lock := none, st := .run }
    let s := s.count (CORE_DROGUE_ENTRIES c.val) 1
    let s := ((s.wr (CORE_DROGUE_ACTIVE c.val) 1).wr (CORE_DROGUE_TASK c.val) t.val).wr (CORE_DROGUE_CAUSE c.val) due.cause
    (s.record { src := srcDrogue + c.val, inst := t.val, aux := due.cause, addr := x.pc }).drainSpills c t

/-- A task whose drogue handler may start. -/
def State.mayServe (s : State) (c : Core) (t : Task) : Bool :=
  taskExists c t && s.coreRuns c.val && !s.drogueElsewhere c.val t.val && s.intervalOpen c.val && (s.task c.val t.val).queueRoom 4

/-- DROGUE_ENTRY (R392 to R395): a task of the core with a fault of an entry, once no other drogue handler of the core runs. -/
def execDrogueEntry (c : Core) (s : State) : Host.Outcome State Fault Refusal :=
  .next (match (List.finRange 64).find? (fun t => (s.task c.val t.val).due.isSome && s.mayServe c t) with
    | none => s
    | some t =>
      match (s.task c.val t.val).due with
      | none => s
      | some tr => (s.beginInterval c.val).enterDrogue c t tr)

/-- ENTRY_SPILL_FAULT (R391): the first queued spill of a task fails, and is dropped. -/
def execEntrySpillFault (c : Core) (t : Task) (s : State) : Host.Outcome State Fault Refusal :=
  let x := s.task c.val t.val
  .next (match x.spills with
    | [] => s
    | e :: rest =>
      if e.space = 4 || x.due.isSome || !s.coreRuns c.val then s
      else
        match (taskGa c.val t.val e.space x.ctx .write e.addr).bind (fun ga => storeCheck c t e.space e.addr ga 8) s with
        | (s, .trap tr) =>
          (s.setTask c.val t.val { s.task c.val t.val with spills := rest }).entryFault c t
            { cause := 0x12, status := tr.status, info := e.addr }
        | (s, _) => s)

/-! Gates (R397, R398). -/

/-- The fields of E1 (R397). -/
def gateArgc (e1 : Nat) : Nat := bitsOf e1 10 8
def gatePtr (e1 k : Nat) : Bool := bitOf e1 (16 + k)
def gatePtrw (e1 k : Nat) : Bool := bitOf e1 (23 + k)

/-- Condition 1 of R398 on an entry. -/
def gateBad (e1 : Nat) : Bool :=
  !bitOf e1 0 || bitsOf e1 63 30 != 0 || bitsOf e1 15 11 != 0 || bitsOf e1 7 6 != 0 || bitOf e1 1
    || (List.range 7).any (fun k => (gatePtr e1 k && (decide (gateArgc e1 ≤ k + 1) || (decide (k < 6) && gatePtr e1 (k + 1))))
      || (gatePtrw e1 k && !gatePtr e1 k))

/-- A task can reach the page of an address in its ring, with RD, and with WR when `wr` (R23, R260, R348). -/
def pageReach (c t : Nat) (x : TaskRegs) (wr : Bool) (va : Nat) : Act Unit := fun s =>
  let served := fun (ga : Nat) => match rangeOf (gaOff ga) with
    | .memory => true
    | .scratch _ => true
    | .flash => !wr
    | .registers => decide (x.ring ≤ 1)
    | .reserved => false
  if x.ring ≤ 1 then
    if 2 ^ 52 ≤ va || !served va then (s, .trap (trapAccess ST_PROTECTION va 0)) else (s, .ok ())
  else
    match taskGa c t x.ring x.ctx (if wr then .atomic else .read) va s with
    | (s, .ok ga) => if served ga then (s, .ok ()) else (s, .trap (trapAccess ST_PROTECTION va 0))
    | (s, .trap tr) => (s, .trap tr)
    | (s, .wait) => (s, .wait)

/-- A pointer argument is checked page by page (R398). -/
def ptrReach (c t : Nat) (x : TaskRegs) (wr : Bool) (va len : Nat) : Act Unit :=
  if 2 ^ 20 < len then Act.trap (trapAccess ST_PROTECTION va 0)
  else if len = 0 then Act.pure ()
  else
    Act.forEach (List.range ((va + len - 1) / 4096 - va / 4096 + 1)) (fun k => pageReach c t x wr (max va ((va / 4096 + k) * 4096)))

/-- The call through a gate whose entry is known: arguments removed, stack switched, frame and arguments pushed. -/
def gateCall (g : Issue) (n e0 e1 : Nat) (x : TaskRegs) : Act TaskRegs :=
  let argc := gateArgc e1
  let e := min x.ring (bitsOf e1 3 2)
  if x.depth < argc then Act.trap trapUnder
  else (takeTop g.c g.t x argc).bind (fun p =>
    let args := p.1.reverse
    let y := p.2.switchTo e
    if y.sp < y.sl + 8 * (4 + argc) then Act.trap trapOver
    else
      (Act.forEach (List.range 7) (fun k =>
        if gatePtr e1 k then
          ptrReach g.c.val g.t.val x (gatePtrw e1 k) (args.getD k 0).toNat (args.getD (k + 1) 0).toNat
        else Act.pure ())).bind (fun _ =>
          let z := y.entryPush (p.2.frame x.pc { cause := 0x13, status := 0, info := n } false x.drogue ++ args)
          if y.queueRoom (4 + argc) then Act.pure { z with ring := e, pc := e0 } else Act.wait))

/-- GATE (R397, R398). -/
def execGate (g : Issue) (n : Byte) (s : State) : Host.Outcome State Fault Refusal :=
  .next (s.insn g { len := 2, fpFirst := true, breaks := true } (fun _ x s =>
    let c := g.c.val
    let at' := 4096 * s.rd (CORE_GATE_BASE c) + 16 * n.toNat
    if s.rd (CORE_GATE_COUNT c) ≤ n.toNat then (s, .trap trapPriv)
    else
      ((loadGa g.c g.t 0 at' at' 16).bind (fun bs =>
        let e0 := leNat (bs.take 8)
        let e1 := leNat (bs.drop 8)
        if gateBad e1 || decide (bitsOf e1 5 4 < x.ring) then Act.trap trapPriv
        else gateCall g n.toNat e0 e1 x)) s))

/-- The conditions under which GRET traps with PRIV, on the frame's STATE (R399). -/
def TaskRegs.gretBad (x : TaskRegs) (w : Nat) : Bool :=
  let onest := bitsOf w 12 10
  decide (bitsOf w 9 8 < x.ring) || (if bitOf w 15 then onest + 1 != x.nest else onest != x.nest) || bitOf w 17 != x.drogue

/-- The task after the frame of a GRET: steps 1 to 3 of R399. `y` has the frame removed. -/
def TaskRegs.unframe (x y : TaskRegs) (ret osp w info : Nat) : TaskRegs :=
  let ring := bitsOf w 9 8
  let leaves := x.drogue || ring != x.ring
  let cached := if leaves then x.cached.filter (fun e => e.space != x.space) else y.cached
  let z : TaskRegs := { y with ring := ring, drogue := false, nest := bitsOf w 12 10, pc := ret, cached := cached }
  let z := { z with drogue := x.drogue && !bitOf w 17 }
  let z := z.setSp osp
  if bitOf w 15 then
    let z := { z with cpl := bitsOf w 14 13, preds := bitsOf w 7 0 }
    if bitOf w 16 then { z with fpPend := true, fpAddr := info, fpFlags := bitsOf w 37 32 } else z
  else z

/-- GRET (R379, R385, R393, R399). -/
def execGret (g : Issue) (s : State) : Host.Outcome State Fault Refusal :=
  .next (s.insn g { pops := 1, fpFirst := true, breaks := true } (fun _ x => (takeTop g.c g.t x 1).bind (fun p =>
    let k := (p.1.getD 0 0).toNat % 8
    if x.depth < k + 5 then Act.trap trapUnder
    else (takeTop g.c g.t x (k + 5)).bind (fun q =>
      let word := fun i => (q.1.getD (k + i) 0).toNat
      let w := word 2
      if x.gretBad w then Act.trap trapPriv
      else
        let z := x.unframe q.2 (word 4) (word 3) w (word 1)
        if z.sp < z.sl + 8 * k then Act.trap trapOver
        else (pushOut g.c g.t z ((q.1.drop 1).take k).reverse).bind (fun z s =>
          if bitOf w 17 then
            (s.wr (CORE_DROGUE_ACTIVE g.c.val) 0, .ok (if x.stopping then { z with st := .stopped, stopping := false } else z))
          else (s, .ok z)))))) 

end Sys2Proof.Machine
end

