-- ==== Sys2Proof/Machine/Supervisor.lean ====
section
/-! DEFINITION. Checked execution of the supervisors: the end of an interval and of the self-tests (R326 to R332, R651). -/
namespace Sys2Proof.Machine
open Reg

/-- A held action of SUP_A performed (R327, R329): it enters the store buffer of the core, and leaves at once where nothing before it
waits there. -/
def State.performHeld (s : State) (e : StoreEntry) : State :=
  let s := s.buffer 24 { e with act := true }
  match mayLeave [] (s.coreSt 24).stores with
  | [x] => s.releaseStore 24 x
  | _ => s

/-- A held register write meets another master's lock (R649): the interval's actions wait. -/
def State.heldBlocked (s : State) : Bool :=
  s.sup.held.any (fun e => s.isReg e.ga && s.lockedFor (.core 24 (Fin.ofNat 64 e.task)) (gaOff e.ga - regBase))

/-- SUP_INTERVAL_END (R326 to R329, R651). -/
def execSupIntervalEnd (agree : Bool) (s : State) : Host.Outcome State Fault Refusal :=
  .next (if !s.checked 24 || s.sup.testing || s.supFenced 0 then s
    else if agree then
      if s.heldBlocked then s
      else
        let held := s.sup.held
        let closing := s.sup.closing
        let s := ({ s with sup := { began := s.now } } : State).count VERIF_SUP_CNT_INTERVALS 1
        let s := held.foldl State.performHeld s
        if closing && s.on (MXC_LOCK_HELD 0) && (s.coreSt 24).stores.isEmpty then (s.unlock 0).mxcDrain else s
    else
      let s := s.count VERIF_SUP_CNT_MISMATCH 1
      let s := if s.sup.closing then (s.unlock 0).mxcDrain else s
      let again := s.sup.again
      let s : State := { s with sup := { s.sup with held := [], closing := false, testing := true } }
      let s := s.record { src := srcSupMismatch }
      if again then s.record { src := srcSupFail } else s)

/-- SUP_A's tasks as the interval found them; interrupts taken or raised since then are pending (R328, R329). -/
def State.rewind (s : State) : State :=
  let old := s.sup.start.map (fun p : Nat × TaskRegs =>
    let lines := s.sup.taken.foldl (fun m l => if l.1 = p.1 % 64 then m ||| 2 ^ l.2 else m) 0
    (p.1, { p.2 with pend := p.2.pend ||| (s.task 24 (p.1 % 64)).pend ||| lines }))
  if s.sup.start.isEmpty then s
  else { s with tasks := old.foldl (fun t p => tabPut t p.1 p.2) (s.tasks.filter (fun p => p.1 / 64 != 24)) }

/-- SUP_B takes over SUP_A's tasks, CORE registers and held lines (R329). -/
def State.takeOver (s : State) : State :=
  let mine := s.tasks.filter (fun p => p.1 / 64 == 24)
  let rest := s.tasks.filter (fun p => p.1 / 64 != 24 && p.1 / 64 != 25)
  let s : State := { s with tasks := mine.foldl (fun t p => tabPut t (p.1 + 64) p.2) rest }
  let s := (List.range 96).foldl (fun s k => s.setReg (coreBase 25 + 8 * k) (s.reg (coreBase 24 + 8 * k))) s
  (s.setCore 25 { s.coreSt 24 with stores := [] }).setCore 24 {}

/-- SUP_SELF_TEST_DONE (R329). -/
def execSupSelfTestDone (passA passB : Bool) (s : State) : Host.Outcome State Fault Refusal :=
  .next (if !s.sup.testing then s
    else
      let s := if s.on (MXC_LOCK_HELD 0) then (s.unlock 0).mxcDrain else s
      let s := s.rewind
      let now' : SupCheck := { began := s.now }
      match passA, passB with
      | true, true => { s with sup := { now' with again := true } }
      | true, false =>
        let s : State := ({ s with sup := now' }).wr ⟨FLT_FENCED_UNIT, FLT_FENCED_UNIT_SUP.lo + 1, FLT_FENCED_UNIT_SUP.lo + 1⟩ 1
        ((s.wr VERIF_SUP_MODE 2).mbxReset 29 1).record { src := srcSupBist + 1, fence := true }
      | false, true =>
        let s : State := ({ s with sup := now' }).wr ⟨FLT_FENCED_UNIT, FLT_FENCED_UNIT_SUP.lo, FLT_FENCED_UNIT_SUP.lo⟩ 1
        ((s.takeOver.wr VERIF_SUP_MODE 3).mbxReset 29 0).record { src := srcSupBist, fence := true }
      | false, false => ({ s with sup := now' }).record { src := srcSupLost })

end Sys2Proof.Machine
end

