-- ==== Sys2Proof/Machine/Dispatch.lean ====
section
/-! DEFINITION. One arm per command: a direct call of its meaning. -/
namespace Sys2Proof.Machine

def exec (i : Instr) (s : State) : Host.Outcome State Fault Refusal :=
  match i with
  | .registerWrite m off width v => Sys2Proof.Machine.execRegisterWrite m off width v s
  | .readClearField m off width hw => Sys2Proof.Machine.execReadClearField m off width hw s
  | .counterLowHalfRead m off => Sys2Proof.Machine.execCounterLowHalfRead m off s
  | .hostBar2Read off len => Sys2Proof.Machine.execHostBar2Read off len s
  | .hostBar2Write off data poisoned => Sys2Proof.Machine.execHostBar2Write off data poisoned s
  | .channelGrant ch upsets xbar => Sys2Proof.Machine.execChannelGrant ch upsets xbar s
  | .refresh ch clocks => Sys2Proof.Machine.execRefresh ch clocks s
  | .scrubRead ch upsets => Sys2Proof.Machine.execScrubRead ch upsets s
  | .scrubCtlWrite ch w => Sys2Proof.Machine.execScrubCtlWrite ch w s
  | .intlvArbWrite w => Sys2Proof.Machine.execIntlvArbWrite w s
  | .memcPerfClear ch w => Sys2Proof.Machine.execMemcPerfClear ch w s
  | .memcInjectWrite ch w => Sys2Proof.Machine.execMemcInjectWrite ch w s
  | .rowSpare ch bank row => Sys2Proof.Machine.execRowSpare ch bank row s
  | .laneSpare ch lane => Sys2Proof.Machine.execLaneSpare ch lane s
  | .wipeComplete ch => Sys2Proof.Machine.execWipeComplete ch s
  | .wearTick tower temp => Sys2Proof.Machine.execWearTick tower temp s
  | .wearSave => Sys2Proof.Machine.execWearSave s
  | .chain r => Sys2Proof.Machine.execChain r s
  | .chainRef r => Sys2Proof.Machine.execChainRef r s
  | .chainResume r => Sys2Proof.Machine.execChainResume r s
  | .chainDispatch id => Sys2Proof.Machine.execChainDispatch id s
  | .liftGrant => Sys2Proof.Machine.execLiftGrant s
  | .inputRampStart => Sys2Proof.Machine.execInputRampStart s
  | .inputRampDown u => Sys2Proof.Machine.execInputRampDown u s
  | .spoolPrefetch u slot => Sys2Proof.Machine.execSpoolPrefetch u slot s
  | .pipesStart u => Sys2Proof.Machine.execPipesStart u s
  | .groupCompute u check => Sys2Proof.Machine.execGroupCompute u check s
  | .spSwapWait u => Sys2Proof.Machine.execSpSwapWait u s
  | .spoolWriteIssue u slot => Sys2Proof.Machine.execSpoolWriteIssue u slot s
  | .tetherRelease granule => Sys2Proof.Machine.execTetherRelease granule s
  | .blockSwitch u => Sys2Proof.Machine.execBlockSwitch u s
  | .sliceEnd u => Sys2Proof.Machine.execSliceEnd u s
  | .reductionWrite id => Sys2Proof.Machine.execReductionWrite id s
  | .chainStop id => Sys2Proof.Machine.execChainStop id s
  | .completionPost r hostOk => Sys2Proof.Machine.execCompletionPost r hostOk s
  | .completionMsi r => Sys2Proof.Machine.execCompletionMsi r s
  | .tableWalkRead u slot upsets => Sys2Proof.Machine.execTableWalkRead u slot upsets s
  | .scratchBankAccess u bank upsets => Sys2Proof.Machine.execScratchBankAccess u bank upsets s
  | .scratchLineScrub u line upsets => Sys2Proof.Machine.execScratchLineScrub u line upsets s
  | .arrayClearDone k => Sys2Proof.Machine.execArrayClearDone k s
  | .loftOpStart u => Sys2Proof.Machine.execLoftOpStart u s
  | .loftGroup u upsets => Sys2Proof.Machine.execLoftGroup u upsets s
  | .windowCompare u => Sys2Proof.Machine.execWindowCompare u s
  | .svuSelfTestDone u pass => Sys2Proof.Machine.execSvuSelfTestDone u pass s
  | .supIntervalEnd agree => Sys2Proof.Machine.execSupIntervalEnd agree s
  | .supSelfTestDone passA passB => Sys2Proof.Machine.execSupSelfTestDone passA passB s
  | .sundopNop g => Sys2Proof.Machine.execSundopNop g s
  | .wait g => Sys2Proof.Machine.execWait g s
  | .sync g => Sys2Proof.Machine.execSync g s
  | .iflush g => Sys2Proof.Machine.execIflush g s
  | .fbar g => Sys2Proof.Machine.execFbar g s
  | .dup g => Sys2Proof.Machine.execDup g s
  | .drop g => Sys2Proof.Machine.execDrop g s
  | .swap g => Sys2Proof.Machine.execSwap g s
  | .over g => Sys2Proof.Machine.execOver g s
  | .rot g => Sys2Proof.Machine.execRot g s
  | .pick g => Sys2Proof.Machine.execPick g s
  | .depth g => Sys2Proof.Machine.execDepth g s
  | .push g sz imm => Sys2Proof.Machine.execPush g sz imm s
  | .add g => Sys2Proof.Machine.execAdd g s
  | .sub g => Sys2Proof.Machine.execSub g s
  | .mul g => Sys2Proof.Machine.execMul g s
  | .mulh g => Sys2Proof.Machine.execMulh g s
  | .mulhu g => Sys2Proof.Machine.execMulhu g s
  | .div g => Sys2Proof.Machine.execDiv g s
  | .divu g => Sys2Proof.Machine.execDivu g s
  | .rem g => Sys2Proof.Machine.execRem g s
  | .remu g => Sys2Proof.Machine.execRemu g s
  | .neg g => Sys2Proof.Machine.execNeg g s
  | .and g => Sys2Proof.Machine.execAnd g s
  | .or g => Sys2Proof.Machine.execOr g s
  | .xor g => Sys2Proof.Machine.execXor g s
  | .not g => Sys2Proof.Machine.execNot g s
  | .shl g => Sys2Proof.Machine.execShl g s
  | .shr g => Sys2Proof.Machine.execShr g s
  | .sar g => Sys2Proof.Machine.execSar g s
  | .sext g sz => Sys2Proof.Machine.execSext g sz s
  | .icmp g b2 => Sys2Proof.Machine.execIcmp g b2 s
  | .ucmp g b2 => Sys2Proof.Machine.execUcmp g b2 s
  | .fcmp g b2 => Sys2Proof.Machine.execFcmp g b2 s
  | .dcmp g b2 => Sys2Proof.Machine.execDcmp g b2 s
  | .test g b2 => Sys2Proof.Machine.execTest g b2 s
  | .pget g => Sys2Proof.Machine.execPget g s
  | .pset g => Sys2Proof.Machine.execPset g s
  | .br8 g disp => Sys2Proof.Machine.execBr8 g disp s
  | .br32 g disp => Sys2Proof.Machine.execBr32 g disp s
  | .call g disp => Sys2Proof.Machine.execCall g disp s
  | .ret g => Sys2Proof.Machine.execRet g s
  | .jmpi g => Sys2Proof.Machine.execJmpi g s
  | .calli g => Sys2Proof.Machine.execCalli g s
  | .gate g n => Sys2Proof.Machine.execGate g n s
  | .gret g => Sys2Proof.Machine.execGret g s
  | .ld g sz => Sys2Proof.Machine.execLd g sz s
  | .lds g sz => Sys2Proof.Machine.execLds g sz s
  | .st g sz => Sys2Proof.Machine.execSt g sz s
  | .storeBufferRelease c => Sys2Proof.Machine.execStoreBufferRelease c s
  | .xadd g => Sys2Proof.Machine.execXadd g s
  | .xchg g => Sys2Proof.Machine.execXchg g s
  | .cas g => Sys2Proof.Machine.execCas g s
  | .setsrc g => Sys2Proof.Machine.execSetsrc g s
  | .setdst g => Sys2Proof.Machine.execSetdst g s
  | .setcnt g => Sys2Proof.Machine.execSetcnt g s
  | .getsrc g => Sys2Proof.Machine.execGetsrc g s
  | .getdst g => Sys2Proof.Machine.execGetdst g s
  | .getcnt g => Sys2Proof.Machine.execGetcnt g s
  | .movs g b2 limit => Sys2Proof.Machine.execMovs g b2 limit s
  | .fills g b2 limit => Sys2Proof.Machine.execFills g b2 limit s
  | .cmps g b2 limit => Sys2Proof.Machine.execCmps g b2 limit s
  | .scans g b2 limit => Sys2Proof.Machine.execScans g b2 limit s
  | .fadd g => Sys2Proof.Machine.execFadd g s
  | .fsub g => Sys2Proof.Machine.execFsub g s
  | .fmul g => Sys2Proof.Machine.execFmul g s
  | .fdiv g => Sys2Proof.Machine.execFdiv g s
  | .fsqrt g => Sys2Proof.Machine.execFsqrt g s
  | .fma g => Sys2Proof.Machine.execFma g s
  | .fmin g => Sys2Proof.Machine.execFmin g s
  | .fmax g => Sys2Proof.Machine.execFmax g s
  | .frint g => Sys2Proof.Machine.execFrint g s
  | .cvtif g => Sys2Proof.Machine.execCvtif g s
  | .cvtfi g => Sys2Proof.Machine.execCvtfi g s
  | .cvtsd g => Sys2Proof.Machine.execCvtsd g s
  | .cvtds g => Sys2Proof.Machine.execCvtds g s
  | .fpget g => Sys2Proof.Machine.execFpget g s
  | .fpset g => Sys2Proof.Machine.execFpset g s
  | .dadd g => Sys2Proof.Machine.execDadd g s
  | .dsub g => Sys2Proof.Machine.execDsub g s
  | .chainInstruction g => Sys2Proof.Machine.execChainInstruction g s
  | .loft g => Sys2Proof.Machine.execLoft g s
  | .cwait g => Sys2Proof.Machine.execCwait g s
  | .savel g => Sys2Proof.Machine.execSavel g s
  | .saveu g => Sys2Proof.Machine.execSaveu g s
  | .restl g => Sys2Proof.Machine.execRestl g s
  | .restu g => Sys2Proof.Machine.execRestu g s
  | .lineFetch c t => Sys2Proof.Machine.execLineFetch c t s
  | .trapEntry c t illegal => Sys2Proof.Machine.execTrapEntry c t illegal s
  | .interruptEntry c t => Sys2Proof.Machine.execInterruptEntry c t s
  | .drogueEntry c => Sys2Proof.Machine.execDrogueEntry c s
  | .entrySpillFault c t => Sys2Proof.Machine.execEntrySpillFault c t s
  | .taskStop c w => Sys2Proof.Machine.execTaskStop c w s
  | .taskStart c w => Sys2Proof.Machine.execTaskStart c w s
  | .twinWrite c k w => Sys2Proof.Machine.execTwinWrite c k w s
  | .coreIntRaise c w => Sys2Proof.Machine.execCoreIntRaise c w s
  | .corePinWrite c n w => Sys2Proof.Machine.execCorePinWrite c n w s
  | .coreVecWrite c which w => Sys2Proof.Machine.execCoreVecWrite c which w s
  | .doorbellTail via r v => Sys2Proof.Machine.execDoorbellTail via r v s
  | .doorbellCqHead via r v => Sys2Proof.Machine.execDoorbellCqHead via r v s
  | .packetRead r host => Sys2Proof.Machine.execPacketRead r host s
  | .dispatchDecision => Sys2Proof.Machine.execDispatchDecision s
  | .nop r => Sys2Proof.Machine.execNop r s
  | .fence r => Sys2Proof.Machine.execFence r s
  | .accMerge r => Sys2Proof.Machine.execAccMerge r s
  | .progLaunch r => Sys2Proof.Machine.execProgLaunch r s
  | .progSignal r => Sys2Proof.Machine.execProgSignal r s
  | .copy r => Sys2Proof.Machine.execCopy r s
  | .fill r => Sys2Proof.Machine.execFill r s
  | .xlatCtxSet r => Sys2Proof.Machine.execXlatCtxSet r s
  | .xlatInval r => Sys2Proof.Machine.execXlatInval r s
  | .xlatInvalComplete r => Sys2Proof.Machine.execXlatInvalComplete r s
  | .bufAlloc r => Sys2Proof.Machine.execBufAlloc r s
  | .bufFree r => Sys2Proof.Machine.execBufFree r s
  | .timeSet r => Sys2Proof.Machine.execTimeSet r s
  | .timeGet r => Sys2Proof.Machine.execTimeGet r s
  | .powerCap r => Sys2Proof.Machine.execPowerCap r s
  | .envelopeQuery r => Sys2Proof.Machine.execEnvelopeQuery r s
  | .fabricRouteSet r => Sys2Proof.Machine.execFabricRouteSet r s
  | .partition r => Sys2Proof.Machine.execPartition r s
  | .logRead r => Sys2Proof.Machine.execLogRead r s
  | .roleAuth r host => Sys2Proof.Machine.execRoleAuth r host s
  | .lifecycle r => Sys2Proof.Machine.execLifecycle r s
  | .fwUpdateOpen r => Sys2Proof.Machine.execFwUpdateOpen r s
  | .fwUpdateWrite r => Sys2Proof.Machine.execFwUpdateWrite r s
  | .fwUpdateCheck r => Sys2Proof.Machine.execFwUpdateCheck r s
  | .fwUpdateActivate r => Sys2Proof.Machine.execFwUpdateActivate r s
  | .resetUnit r => Sys2Proof.Machine.execResetUnit r s
  | .drainDone => Sys2Proof.Machine.execDrainDone s
  | .drainTimeout => Sys2Proof.Machine.execDrainTimeout s
  | .unitResetDone => Sys2Proof.Machine.execUnitResetDone s
  | .faultAck r => Sys2Proof.Machine.execFaultAck r s
  | .ringEnable r w => Sys2Proof.Machine.execRingEnable r w s
  | .ringRestart r w => Sys2Proof.Machine.execRingRestart r w s
  | .ringReset r w => Sys2Proof.Machine.execRingReset r w s
  | .mbxDoorbell b side w => Sys2Proof.Machine.execMbxDoorbell b side w s
  | .mbxSend b side w => Sys2Proof.Machine.execMbxSend b side w s
  | .mbxRecv b side m width => Sys2Proof.Machine.execMbxRecv b side m width s
  | .mbxReady b side w => Sys2Proof.Machine.execMbxReady b side w s
  | .bmvArm ch w => Sys2Proof.Machine.execBmvArm ch w s
  | .bmvAbort ch w => Sys2Proof.Machine.execBmvAbort ch w s
  | .burstGrant => Sys2Proof.Machine.execBurstGrant s
  | .burstReadComplete ch host => Sys2Proof.Machine.execBurstReadComplete ch host s
  | .transferEnd ch => Sys2Proof.Machine.execTransferEnd ch s
  | .poolEnable p w => Sys2Proof.Machine.execPoolEnable p w s
  | .hostLinkTraining width speed cxl => Sys2Proof.Machine.execHostLinkTraining width speed cxl s
  | .configurationRequest write off width => Sys2Proof.Machine.execConfigurationRequest write off width s
  | .configurationReady => Sys2Proof.Machine.execConfigurationReady s
  | .atomicOp op off size a b => Sys2Proof.Machine.execAtomicOp op off size a b s
  | .cxlMemRequest write ga exclusive => Sys2Proof.Machine.execCxlMemRequest write ga exclusive s
  | .hdmDecoderCommit base size ways => Sys2Proof.Machine.execHdmDecoderCommit base size ways s
  | .backInvalidate line data => Sys2Proof.Machine.execBackInvalidate line data s
  | .hostCompletion tag status data => Sys2Proof.Machine.execHostCompletion tag status data s
  | .hostCompletionTimeout tag => Sys2Proof.Machine.execHostCompletionTimeout tag s
  | .msixUnmask vec w => Sys2Proof.Machine.execMsixUnmask vec w s
  | .flr => Sys2Proof.Machine.execFlr s
  | .hotReset => Sys2Proof.Machine.execHotReset s
  | .hostLinkDown => Sys2Proof.Machine.execHostLinkDown s
  | .perstNAssert => Sys2Proof.Machine.execPerstNAssert s
  | .perstNRelease => Sys2Proof.Machine.execPerstNRelease s
  | .d3hot enter => Sys2Proof.Machine.execD3hot enter s
  | .hostLinkError uncorrectable => Sys2Proof.Machine.execHostLinkError uncorrectable s
  | .portEnable p w => Sys2Proof.Machine.execPortEnable p w s
  | .portDisable p w => Sys2Proof.Machine.execPortDisable p w s
  | .trainRecord p rec => Sys2Proof.Machine.execTrainRecord p rec s
  | .trainingRetry p => Sys2Proof.Machine.execTrainingRetry p s
  | .calPause p => Sys2Proof.Machine.execCalPause p s
  | .flitReceive p bytes => Sys2Proof.Machine.execFlitReceive p bytes s
  | .nak p seq => Sys2Proof.Machine.execNak p seq s
  | .reset p => Sys2Proof.Machine.execReset p s
  | .laneLockLoss p lanes => Sys2Proof.Machine.execLaneLockLoss p lanes s
  | .retrainTimeout p => Sys2Proof.Machine.execRetrainTimeout p s
  | .downRetry p => Sys2Proof.Machine.execDownRetry p s
  | .rdReq p => Sys2Proof.Machine.execRdReq p s
  | .wrReq p => Sys2Proof.Machine.execWrReq p s
  | .atomReq p => Sys2Proof.Machine.execAtomReq p s
  | .rdResp p => Sys2Proof.Machine.execRdResp p s
  | .wrAck p => Sys2Proof.Machine.execWrAck p s
  | .atomResp p => Sys2Proof.Machine.execAtomResp p s
  | .msg p => Sys2Proof.Machine.execMsg p s
  | .msgAck p => Sys2Proof.Machine.execMsgAck p s
  | .time p => Sys2Proof.Machine.execTime p s
  | .timeSend p => Sys2Proof.Machine.execTimeSend p s
  | .resetNotice p => Sys2Proof.Machine.execResetNotice p s
  | .messageForward p => Sys2Proof.Machine.execMessageForward p s
  | .responseTimeout => Sys2Proof.Machine.execResponseTimeout s
  | .jfabRouteWrite n alt w => Sys2Proof.Machine.execJfabRouteWrite n alt w s
  | .txGo w => Sys2Proof.Machine.execTxGo w s
  | .ethernetFrame p frame fcsError => Sys2Proof.Machine.execEthernetFrame p frame fcsError s
  | .ptpInfoRead p m width lane => Sys2Proof.Machine.execPtpInfoRead p m width lane s
  | .vinSample vin iin => Sys2Proof.Machine.execVinSample vin iin s
  | .envWaitExpiry => Sys2Proof.Machine.execEnvWaitExpiry s
  | .upHoldExpiry => Sys2Proof.Machine.execUpHoldExpiry s
  | .busStall => Sys2Proof.Machine.execBusStall s
  | .busRecover => Sys2Proof.Machine.execBusRecover s
  | .brownOut => Sys2Proof.Machine.execBrownOut s
  | .throttle hottest => Sys2Proof.Machine.execThrottle hottest s
  | .throttleRepeat hottest => Sys2Proof.Machine.execThrottleRepeat hottest s
  | .pwrLimitWrite w => Sys2Proof.Machine.execPwrLimitWrite w s
  | .domainRequest w => Sys2Proof.Machine.execDomainRequest w s
  | .domainWakeDone d => Sys2Proof.Machine.execDomainWakeDone d s
  | .flashIdleOff => Sys2Proof.Machine.execFlashIdleOff s
  | .powerStateRequest w => Sys2Proof.Machine.execPowerStateRequest w s
  | .transitionComplete => Sys2Proof.Machine.execTransitionComplete s
  | .wakeN => Sys2Proof.Machine.execWakeN s
  | .refclkLost => Sys2Proof.Machine.execRefclkLost s
  | .refclkGood => Sys2Proof.Machine.execRefclkGood s
  | .pllLock n => Sys2Proof.Machine.execPllLock n s
  | .pllUnlock n => Sys2Proof.Machine.execPllUnlock n s
  | .powerOnReset straps => Sys2Proof.Machine.execPowerOnReset straps s
  | .moduleReset w => Sys2Proof.Machine.execModuleReset w s
  | .setReady w => Sys2Proof.Machine.execSetReady w s
  | .bootTimeout => Sys2Proof.Machine.execBootTimeout s
  | .fwConfirm w => Sys2Proof.Machine.execFwConfirm w s
  | .challengeExpiry => Sys2Proof.Machine.execChallengeExpiry s
  | .pathUnlock path => Sys2Proof.Machine.execPathUnlock path s
  | .sessionIdleExpiry session => Sys2Proof.Machine.execSessionIdleExpiry session s
  | .leakStep src => Sys2Proof.Machine.execLeakStep src s
  | .classDemotion src => Sys2Proof.Machine.execClassDemotion src s
  | .escBExpiry src => Sys2Proof.Machine.execEscBExpiry src s
  | .escCExpiry src => Sys2Proof.Machine.execEscCExpiry src s
  | .fltAck w => Sys2Proof.Machine.execFltAck w s
  | .fltFence w => Sys2Proof.Machine.execFltFence w s
  | .lockBreak => Sys2Proof.Machine.execLockBreak s
  | .thermalTrip temp => Sys2Proof.Machine.execThermalTrip temp s
  | .vinLoss => Sys2Proof.Machine.execVinLoss s
  | .tapInstruction ir dr => Sys2Proof.Machine.execTapInstruction ir dr s
  | .testLogicReset => Sys2Proof.Machine.execTestLogicReset s
  | .gloleyStatus f => Sys2Proof.Machine.execGloleyStatus f s
  | .telemetry f => Sys2Proof.Machine.execTelemetry f s
  | .gloleyLogRead f => Sys2Proof.Machine.execGloleyLogRead f s
  | .gloleyFaultAck f => Sys2Proof.Machine.execGloleyFaultAck f s
  | .gloleyPowerCap f => Sys2Proof.Machine.execGloleyPowerCap f s
  | .gloleyRoleAuth f => Sys2Proof.Machine.execGloleyRoleAuth f s
  | .gloleyReset f => Sys2Proof.Machine.execGloleyReset f s
  | .gloleyResetStart => Sys2Proof.Machine.execGloleyResetStart s
  | .gloleyPowerState f => Sys2Proof.Machine.execGloleyPowerState f s
  | .mailbox f => Sys2Proof.Machine.execMailbox f s
  | .fwRecoveryOpen f => Sys2Proof.Machine.execFwRecoveryOpen f s
  | .fwRecoveryWrite f => Sys2Proof.Machine.execFwRecoveryWrite f s
  | .fwRecoveryCheck f => Sys2Proof.Machine.execFwRecoveryCheck f s
  | .fwRecoveryCommit f => Sys2Proof.Machine.execFwRecoveryCommit f s
  | .gloleyResponseRead => Sys2Proof.Machine.execGloleyResponseRead s
  | .setdasa addr => Sys2Proof.Machine.execSetdasa addr s
  | .entdaa addr => Sys2Proof.Machine.execEntdaa addr s
  | .setnewda addr => Sys2Proof.Machine.execSetnewda addr s
  | .rstdaa => Sys2Proof.Machine.execRstdaa s
  | .getmrl => Sys2Proof.Machine.execGetmrl s
  | .getmwl => Sys2Proof.Machine.execGetmwl s
  | .enec => Sys2Proof.Machine.execEnec s
  | .disec => Sys2Proof.Machine.execDisec s
  | .tailSizeWrite w => Sys2Proof.Machine.execTailSizeWrite w s
  | .tailAreaApply => Sys2Proof.Machine.execTailAreaApply s
  | .cxlCacheSnoop => Sys2Proof.Machine.execCxlCacheSnoop s
  | .domainOffDone d => Sys2Proof.Machine.execDomainOffDone d s
  | .timeSlewDone => Sys2Proof.Machine.execTimeSlewDone s
  | .ethernetSendDone => Sys2Proof.Machine.execEthernetSendDone s
  | .inputRampDone => Sys2Proof.Machine.execInputRampDone s
  | .portDrainExpiry p => Sys2Proof.Machine.execPortDrainExpiry p s

end Sys2Proof.Machine
end

