-- ==== Sys2Proof/Safety.lean ====
section
/-! DEFINITION. What counts as a safe step and a safe state. -/
namespace Sys2Proof.Machine

/-- A step that neither faults nor is refused. -/
def stepSafe (s : State) : Prop := ∃ t, step s = .next t

/-- Storage is held in its one canonical form. -/
abbrev Memory.wf (m : List Host.Cell) : Prop := memWf m = true

end Sys2Proof.Machine
end

