-- ==== Sys2Proof/Certificates/Slice0/Obligations.lean ====
section
/-! DEFINITION. The statements for the provers. A statement about a command gives the state that the command answers with, under
conditions on the state and the operands alone; `Claim.*` are the conditions and the parts of the answers. -/

namespace Sys2Proof.Claim
open Sys2Proof.Machine Sys2Proof.Machine.Reg

/-- The command answers a next state, which is as `P` says. -/
def Next (i : Instr) (s : State) (P : State → Prop) : Prop := ∃ t, exec i s = .next t ∧ P t

/-! Sundop instructions. -/

/-- The registers of the task that issues. -/
abbrev tk (g : Issue) (s : State) : TaskRegs := s.task g.c.val g.t.val

/-- No access of an agent waits for its answer. -/
abbrev NoneWaits (s : State) (agent : Nat) : Prop := ∀ b ∈ s.rbuf, b.agent ≠ agent

/-- The task issues its next instruction: it runs on a core that executes and nothing is taken before it, no entry spill is
queued, none of its accesses waits, no locked sequence is open, and its only prefix is a guard that holds. -/
abbrev Ready (g : Issue) (s : State) : Prop :=
  s.canIssue g.c g.t = true ∧ (tk g s).spills = [] ∧ NoneWaits s (agentTask g.c.val g.t.val) ∧ (tk g s).lock = none
  ∧ (tk g s).guardOk g = true ∧ g.lck = false ∧ g.rep = false

/-- The top entries of the task's stack exist and are cached, with these values, the deepest first; `n` pushes once they are
removed stay at or above SL and spill nothing (R336, R337). -/
abbrev Top (g : Issue) (s : State) (vs : List Word) (n : Nat) : Prop :=
  vs.length ≤ (tk g s).depth ∧ (tk g s).sl + 8 * n ≤ (tk g s).sp + 8 * vs.length ∧
  ((tk g s).cached.filter (fun e => e.space != (tk g s).space || decide ((tk g s).sp + 8 * vs.length ≤ e.addr))).length + n ≤ 32 ∧
  ∀ i, i < vs.length → (tk g s).cachedAt ((tk g s).sp + 8 * i) = vs.reverse[i]?

/-- The task's registers with PC past an instruction of `len` bytes and its guard. -/
abbrev past (g : Issue) (s : State) (len : Nat) : TaskRegs :=
  { tk g s with pc := ((tk g s).pc + (if g.guard.isSome then 1 else 0) + len) % 2 ^ 64 }

/-- The registers with `k` entries removed from the stack and `rs` pushed in order, nothing spilled: SP moves by 8 for each, the
new entries are cached at their addresses, and every entry that was not removed stays (R335). -/
abbrev stacked (x : TaskRegs) (k : Nat) (rs : List Word) : TaskRegs :=
  { x with
    sp := x.sp + 8 * k - 8 * rs.length
    cached := (List.range rs.length).map (fun j =>
        { space := x.space, addr := x.sp + 8 * k - 8 * rs.length + 8 * j, v := rs.reverse.getD j 0 })
      ++ x.cached.filter (fun e => e.space != x.space || decide (x.sp + 8 * k ≤ e.addr)) }

/-- The state in which only the task changed, to `y`: walks and register accesses that it began are over, and in CHECKED mode
SUP_A's interval counts the instruction and keeps what it started from (R326, R328). -/
abbrev ran (g : Issue) (s : State) (y : TaskRegs) : State :=
  { s.rbufClear (agentTask g.c.val g.t.val) with
    tasks := tabPut s.tasks (64 * g.c.val + g.t.val) y
    sup := if g.c.val = 24 ∧ s.rd VERIF_SUP_MODE = 0 then
        { s.sup with
          retired := s.sup.retired + 1
          start := if s.sup.start = [] then s.tasks.filter (fun p => p.1 / 64 == 24) else s.sup.start
          began := if s.sup.start = [] then s.now else s.sup.began }
      else s.sup }

/-- The state in which the task traps: it keeps its registers, and the trap waits for its next boundary (R345). -/
abbrev trapped (g : Issue) (s : State) (tr : Trap) : State :=
  { s.rbufClear (agentTask g.c.val g.t.val) with
    tasks := tabPut s.tasks (64 * g.c.val + g.t.val) { tk g s with trap := some tr }
    sup := if g.c.val = 24 ∧ s.rd VERIF_SUP_MODE = 0 ∧ s.sup.start = [] then
        { s.sup with start := s.tasks.filter (fun p => p.1 / 64 == 24), began := s.now }
      else s.sup }

/-- An instruction of `len` bytes that takes `k` entries and pushes `rs`, and does nothing else. -/
abbrev Gives (g : Issue) (s : State) (i : Instr) (len k : Nat) (rs : List Word) : Prop :=
  exec i s = .next (ran g s (stacked (past g s len) k rs))

/-- Bit `n` of a predicate mask set to `v`, the others kept. -/
abbrev predSet (preds n : Nat) (v : Bool) : Nat := (List.range 8).foldl (fun m j => m + (if j = n then (if v then 1 else 0)
  else preds / 2 ^ j % 2) * 2 ^ j) 0

/-- The condition of R169 on two integers: UNORD never, ORD always. -/
abbrev condHolds (cond : Nat) (a b : Int) : Bool :=
  match cond with
  | 0 => a == b
  | 1 => a != b
  | 2 => decide (a < b)
  | 3 => decide (a ≤ b)
  | 4 => decide (b < a)
  | 5 => decide (b ≤ a)
  | 6 => false
  | _ => true

/-- The access of the task at address `va` reaches `ga`: itself at rings 0 and 1, what a cached leaf that permits it gives at rings
2 and 3 (R21, R257, R260). -/
abbrev Addr (g : Issue) (s : State) (acc : XAcc) (va ga : Nat) : Prop :=
  ((tk g s).ring ≤ 1 ∧ va < 2 ^ 52 ∧ ga = va)
  ∨ (2 ≤ (tk g s).ring ∧ va < 2 ^ 57 ∧ s.rd (XLAT_CTX_CFG_ENABLE (tk g s).ctx) = 1
      ∧ (cacheHit (s.coreSt g.c.val).leaf (tk g s).ctx va).any
          (fun e => checkEntry e.level e.entry (tk g s).ring acc == .leaf && leafGa e.entry va e.level == ga) = true)

/-- A channel grants what arrives at once: nothing waits there, no row is being copied, and its scrub is not behind. -/
abbrev Calm (s : State) (c : Nat) : Prop :=
  (s.chan c).queue = [] ∧ (s.chan c).needRows = [] ∧ (s.scrubSync c).rd (MEMC_SCRUB_LAG_BEHIND c) = 0

/-- `len` aligned bytes of this module's memory at offset `off` can be read and written at once: their channel serves and is calm,
their ECC word is undamaged and outside the tail area, and the host holds no line. -/
abbrev Plain (s : State) (off len : Nat) : Prop :=
  len ∈ [1, 2, 4, 8, 16, 32, 64] ∧ off % len = 0 ∧ off < 3 * 2 ^ 40 ∧ s.chFenced (channelOf off) = false
  ∧ s.rd (MEMC_STATUS_STATE (channelOf off)) = 2 ∧ Calm s (channelOf off) ∧ s.damage off = {} ∧ s.inTail (off / 64 * 64) = false
  ∧ s.host.dir = []

/-- No store of the task that is not yet performed touches the bytes. -/
abbrev Settled (g : Issue) (s : State) (ga len : Nat) : Prop :=
  ∀ e ∈ s.ownStores g.c.val g.t.val, ga + len ≤ e.ga ∨ e.ga + e.size ≤ ga

/-- The trap LOCK (R345). -/
abbrev lockTrap : Option Trap := some { cause := 0x0b, status := 0x23 }

/-- Every byte of storage outside `len` bytes at `off` is as it was. -/
def Outside (s t : State) (off len : Nat) : Prop := ∀ a, a < off ∨ off + len ≤ a → memGet t.mem a = memGet s.mem a

/-- What a store not yet performed will store: task, address, size and value. -/
abbrev storeKey (e : StoreEntry) : Nat × Nat × Nat × Nat := (e.task, e.ga, e.size, e.v)

/-- No register but those at the offsets from `lo` to below `hi` changed. -/
def RegsBut (s t : State) (lo hi : Nat) : Prop := ∀ o, o < lo ∨ hi ≤ o → t.reg o = s.reg o

/-- A write of the register at `off` reaches it: no refusal of R25, the host's link up, no other master's lock, and nothing waits
in the matrix. -/
abbrev Reaches (s : State) (w : RegWrite) (off : Nat) : Prop :=
  s.regBlocked w.m (off + w.lane) w.width = none ∧ (w.m = .host → s.hostUp = true) ∧ s.lockedFor w.m off = false ∧ s.mxc = []

/-- A whole-register write. -/
abbrev whole (m : Master) (v : Word) : RegWrite := { m := m, lane := 0, width := 8, v := v }

/-- The next event of a source is not promoted (R584). -/
abbrev Kept (s : State) (src : Nat) : Prop :=
  ¬ (s.rd (FLT_SRC_PROMOTE_EN src) = 1 ∧ min 255 (s.rd (FLT_SRC_LEAK src) + 1) = s.rd (FLT_SRC_N src))

/-- The next event of a source stays at class A (R586); its record is not of class D, which promotion never reaches (R584); it is
not merged under the hold-off, as the source has no record yet (R582). -/
abbrev Quiet (s : State) (src : Nat) : Prop := s.rd (FLT_SRC_CLASS src) = 0 ∧ Kept s src
abbrev Alive (s : State) (src : Nat) : Prop := s.rd (FLT_SRC_CLASS src) ≤ 2
abbrev First (s : State) (src : Nat) : Prop := tabFind s.srcLast src = none

/-- The task with its stack switched to that of ring `e` where `e` is lower than its own (R387, R398). -/
abbrev onStack (x : TaskRegs) (e : Nat) : TaskRegs :=
  if e < x.ring then { x with ring := e, sp := x.rsb.getD e 0, cached := x.cached.filter (fun y => y.space != e) } else x

/-- The four words of a handler's or gate's frame, RET deepest (R389). -/
abbrev frameWords (x : TaskRegs) (pc cause status sub aux flags line info k : Nat) : List Word :=
  [BitVec.ofNat 64 pc, BitVec.ofNat 64 x.sp,
   BitVec.ofNat 64 (cause * 2 ^ 56 + status * 2 ^ 48 + sub % 16 * 2 ^ 44 + line % 16 * 2 ^ 40 + flags % 64 * 2 ^ 32 + aux % 256 * 2 ^ 24
    + k * 2 ^ 15 + x.cpl % 4 * 2 ^ 13 + x.nest % 8 * 2 ^ 10 + x.ring % 4 * 2 ^ 8 + x.preds % 256),
   BitVec.ofNat 64 info]

end Sys2Proof.Claim

open Sys2Proof Sys2Proof.Machine Sys2Proof.Machine.Reg Sys2Proof.Claim

/-- A step performs the command at the front of the queue on the state with the queue's rest. -/
def Obligations.StepRunsFront : Prop :=
  ∀ (c : Instr) (rest : List Instr) (s : State), s.pending = c :: rest → step s = exec c { s with pending := rest }

/-! Sundop. -/

/-- R341: the instructions that move stack entries, and those that move a word between the stack and SRC, DST, CNT or the
predicates, do that and nothing else. -/
def Sys2Proof.Claim.SundopStackResults : Prop :=
  ∀ (g : Issue) (s : State) (a b c imm : Word) (sz : Fin 4), Ready g s →
    (Top g s [] 0 → Gives g s (.sundopNop g) 1 0 [])
    ∧ (Top g s [a] 2 → Gives g s (.dup g) 1 1 [a, a])
    ∧ (Top g s [a] 0 → Gives g s (.drop g) 1 1 [])
    ∧ (Top g s [a, b] 2 → Gives g s (.swap g) 1 2 [b, a])
    ∧ (Top g s [a, b] 3 → Gives g s (.over g) 1 2 [a, b, a])
    ∧ (Top g s [a, b, c] 3 → Gives g s (.rot g) 1 3 [b, c, a])
    ∧ (Top g s [a, 0] 1 → Gives g s (.pick g) 1 1 [a])
    ∧ (Top g s [a, b, 1] 1 → Gives g s (.pick g) 1 1 [a])
    ∧ (Top g s [] 1 → Gives g s (.depth g) 1 0 [BitVec.ofNat 64 (tk g s).depth])
    ∧ (Top g s [] 1 → Gives g s (.push g sz imm) (1 + 2 ^ sz.val) 0 [(imm.setWidth (8 * 2 ^ sz.val)).signExtend 64])
    ∧ (Top g s [a] 0 → exec (.setsrc g) s = .next (ran g s { stacked (past g s 1) 1 [] with src := a }))
    ∧ (Top g s [a] 0 → exec (.setdst g) s = .next (ran g s { stacked (past g s 1) 1 [] with dst := a }))
    ∧ (Top g s [a] 0 → exec (.setcnt g) s = .next (ran g s { stacked (past g s 1) 1 [] with cnt := a }))
    ∧ (Top g s [] 1 → Gives g s (.getsrc g) 1 0 [(tk g s).src])
    ∧ (Top g s [] 1 → Gives g s (.getdst g) 1 0 [(tk g s).dst])
    ∧ (Top g s [] 1 → Gives g s (.getcnt g) 1 0 [(tk g s).cnt])
    ∧ (Top g s [] 1 → Gives g s (.pget g) 1 0 [BitVec.ofNat 64 (tk g s).preds])
    ∧ (Top g s [a] 0 → exec (.pset g) s = .next (ran g s { stacked (past g s 1) 1 [] with preds := a.toNat % 256 }))

/-- R341, R347: the integer instructions push the result the table gives, a beneath b; a division by zero pushes nothing here
(SundopDivideByZero). -/
def Sys2Proof.Claim.SundopIntegerResults : Prop :=
  ∀ (g : Issue) (s : State) (a b : Word), Ready g s →
    (Top g s [a, b] 1 →
      Gives g s (.add g) 1 2 [a + b] ∧ Gives g s (.sub g) 1 2 [a - b] ∧ Gives g s (.mul g) 1 2 [a * b]
      ∧ Gives g s (.mulh g) 1 2 [BitVec.ofInt 64 (a.toInt * b.toInt / 2 ^ 64)]
      ∧ Gives g s (.mulhu g) 1 2 [BitVec.ofNat 64 (a.toNat * b.toNat / 2 ^ 64)]
      ∧ Gives g s (.and g) 1 2 [a &&& b] ∧ Gives g s (.or g) 1 2 [a ||| b] ∧ Gives g s (.xor g) 1 2 [a ^^^ b]
      ∧ Gives g s (.shl g) 1 2 [a <<< (b.setWidth 6).toNat] ∧ Gives g s (.shr g) 1 2 [a >>> (b.setWidth 6).toNat]
      ∧ Gives g s (.sar g) 1 2 [a.sshiftRight (b.setWidth 6).toNat]
      ∧ (b ≠ 0 → Gives g s (.div g) 1 2 [a.sdiv b] ∧ Gives g s (.divu g) 1 2 [a.udiv b]
          ∧ Gives g s (.rem g) 1 2 [a.srem b] ∧ Gives g s (.remu g) 1 2 [a.umod b]))
    ∧ (Top g s [a] 1 →
      Gives g s (.neg g) 1 1 [-a] ∧ Gives g s (.not g) 1 1 [~~~a]
      ∧ ∀ sz : Fin 3, Gives g s (.sext g sz) 1 1 [(a.setWidth (8 * 2 ^ sz.val)).signExtend 64])

/-- R345, R347: a division by zero traps with DIVZERO and has no effect. -/
def Sys2Proof.Claim.SundopDivideByZero : Prop :=
  ∀ (g : Issue) (s : State) (a : Word), Ready g s → Top g s [a, 0] 1 →
    ∀ i ∈ [Instr.div g, .divu g, .rem g, .remu g], exec i s = .next (trapped g s { cause := 0x06, status := 0x11 })

/-- R337, R345: an instruction that reads an entry the stack lacks traps with STACK_UNDER, and one whose pushes would lower SP
below SL with STACK_OVER; neither has an effect. -/
def Obligations.SundopStackBounds : Prop :=
  ∀ (g : Issue) (s : State), Ready g s →
    ((tk g s).depth < 1 → ∀ i ∈ [Instr.dup g, .drop g, .pick g, .neg g, .not g, .ret g, .setsrc g, .fsqrt g],
      exec i s = .next (trapped g s { cause := 0x03, status := 0x23 }))
    ∧ ((tk g s).depth < 2 → ∀ i ∈ [Instr.swap g, .over g, .add g, .div g, .fadd g, .xadd g, .st g 3],
      exec i s = .next (trapped g s { cause := 0x03, status := 0x23 }))
    ∧ ((tk g s).sp < (tk g s).sl + 8 → ∀ i ∈ [Instr.depth g, .push g 0 0, .getsrc g, .pget g, .call g 0, .cwait g],
      exec i s = .next (trapped g s { cause := 0x04, status := 0x23 }))

/-- R344, R169, R341: a compare takes its operands and writes the predicate PD alone, an integer compare by the condition of
its second byte and TEST by whether the word is zero. -/
def Sys2Proof.Claim.SundopCompares : Prop :=
  ∀ (g : Issue) (s : State) (a b : Word) (cond : Fin 8) (pd : Fin 8), Ready g s →
    let b2 : Byte := BitVec.ofNat 8 (8 * cond.val + pd.val)
    (Top g s [a, b] 0 →
      exec (.icmp g b2) s = .next (ran g s { stacked (past g s 2) 2 [] with
        preds := (tk g s).preds / 256 * 256 + predSet (tk g s).preds pd.val (condHolds cond.val a.toInt b.toInt) })
      ∧ exec (.ucmp g b2) s = .next (ran g s { stacked (past g s 2) 2 [] with
        preds := (tk g s).preds / 256 * 256 + predSet (tk g s).preds pd.val (condHolds cond.val a.toNat b.toNat) }))
    ∧ (Top g s [a] 0 → cond = 0 →
      exec (.test g b2) s = .next (ran g s { stacked (past g s 2) 1 [] with
        preds := (tk g s).preds / 256 * 256 + predSet (tk g s).preds pd.val (decide (a ≠ 0)) }))

/-- R344, R169, R180, R360: FCMP writes PD by the values of its FP64 operands, ORD and UNORD by whether one is a NaN, and sets
the flags in FPS; DCMP compares the values of two DEC128 operands. -/
def Sys2Proof.Claim.SundopRealCompares : Prop :=
  ∀ (g : Issue) (s : State) (pd cond : Fin 8) (al ah bl bh : Word) (x y : Int), Ready g s →
    (Top g s [al, bl] 0 →
      Next (.fcmp g (BitVec.ofNat 8 (8 * cond.val + pd.val))) s (fun t =>
        let r := fcmp .fp64 cond.val al.toNat bl.toNat
        (tk g t).sp = (tk g s).sp + 16 ∧ (tk g t).fps = (tk g s).fps ||| 256 * r.2
        ∧ (∀ n : Fin 8, bitOf (tk g t).preds n = if n = pd then r.1 else bitOf (tk g s).preds n)
        ∧ t.mem = s.mem ∧ t.regs = s.regs))
    ∧ (Top g s [al, ah, bl, bh] 0 → cond.val < 6 →
        decOf (ah.toNat * 2 ^ 64 + al.toNat) = some x → decOf (bh.toNat * 2 ^ 64 + bl.toNat) = some y →
        exec (.dcmp g (BitVec.ofNat 8 (8 * cond.val + pd.val))) s = .next (ran g s { stacked (past g s 2) 4 [] with
          preds := (tk g s).preds / 256 * 256 + predSet (tk g s).preds pd.val (condHolds cond.val x y) }))

/-- R341: the branches and calls set PC, relative to the next instruction or to the word on top; the calls push the address of
the next instruction. -/
def Sys2Proof.Claim.SundopBranches : Prop :=
  ∀ (g : Issue) (s : State) (a : Word) (d8 : Byte) (d : BitVec 32), Ready g s →
    let next := fun len : Nat => BitVec.ofNat 64 ((tk g s).pc + (if g.guard.isSome then 1 else 0) + len)
    (Top g s [] 0 →
      exec (.br8 g d8) s = .next (ran g s { tk g s with pc := (next 2 + d8.signExtend 64).toNat })
      ∧ exec (.br32 g d) s = .next (ran g s { tk g s with pc := (next 5 + d.signExtend 64).toNat }))
    ∧ (Top g s [] 1 →
      exec (.call g d) s = .next (ran g s { stacked (tk g s) 0 [next 5] with pc := (next 5 + d.signExtend 64).toNat }))
    ∧ (Top g s [a] 0 →
      exec (.ret g) s = .next (ran g s { stacked (tk g s) 1 [] with pc := a.toNat })
      ∧ exec (.jmpi g) s = .next (ran g s { stacked (tk g s) 1 [] with pc := a.toNat }))
    ∧ (Top g s [a] 1 → exec (.calli g) s = .next (ran g s { stacked (tk g s) 1 [next 1] with pc := a.toNat }))

/-- R343: an instruction whose guard is false advances PC past its bytes and does nothing else. -/
def Obligations.SundopFalseGuard : Prop :=
  ∀ (g : Issue) (s : State) (d8 : Byte) (d : BitVec 32), s.canIssue g.c g.t = true → (tk g s).spills = [] →
    NoneWaits s (agentTask g.c.val g.t.val) → (tk g s).lock = none → (tk g s).guardOk g = false → g.lck = false → g.rep = false →
    (∀ i ∈ [Instr.sundopNop g, .wait g, .sync g, .iflush g, .fbar g, .dup g, .drop g, .swap g, .over g, .rot g, .pick g, .depth g],
      exec i s = .next (ran g s (past g s 1)))
    ∧ (∀ i ∈ [Instr.add g, .sub g, .mul g, .mulh g, .mulhu g, .div g, .divu g, .rem g, .remu g, .neg g, .and g, .or g, .xor g, .not g, .shl g, .shr g, .sar g],
      exec i s = .next (ran g s (past g s 1)))
    ∧ (∀ i ∈ [Instr.pget g, .pset g, .ret g, .jmpi g, .calli g, .gret g, .setsrc g, .setdst g, .setcnt g, .getsrc g, .getdst g, .getcnt g],
      exec i s = .next (ran g s (past g s 1)))
    ∧ (∀ i ∈ [Instr.fadd g, .fsub g, .fmul g, .fdiv g, .fsqrt g, .fma g, .fmin g, .fmax g, .frint g, .cvtif g, .cvtfi g, .cvtsd g, .cvtds g, .fpget g, .fpset g],
      exec i s = .next (ran g s (past g s 1)))
    ∧ (∀ i ∈ [Instr.dadd g, .dsub g, .cwait g, .xadd g, .xchg g, .cas g, .savel g, .saveu g, .restl g, .restu g],
      exec i s = .next (ran g s (past g s 1)))
    ∧ (∀ i ∈ [Instr.ld g 3, .lds g 2, .st g 3, .sext g 0], exec i s = .next (ran g s (past g s 1)))
    ∧ (∀ i ∈ [Instr.br8 g d8, .push g 0 (d8.setWidth 64), .gate g d8, .icmp g 0, .ucmp g 0, .fcmp g 0, .dcmp g 0, .test g 0, .movs g 0 none, .fills g 0 none,
        .cmps g 0 none, .scans g 0 none], exec i s = .next (ran g s (past g s 2)))
    ∧ (∀ i ∈ [Instr.br32 g d, .call g d, .push g 2 (d.setWidth 64)], exec i s = .next (ran g s (past g s 5)))
    ∧ (g.c.val < 24 → ∀ i ∈ [Instr.chainInstruction g, .loft g], exec i s = .next (ran g s (past g s 1)))

/-- R357 to R360: a scalar FP instruction pushes its result, rounded in FPS.RMODE, and ORs its exceptions into FPS[13:8]; with no
enabled trap among them nothing else happens. -/
def Sys2Proof.Claim.SundopFloat : Prop :=
  ∀ (g : Issue) (s : State) (a b c : Word), Ready g s → bitsOf (tk g s).fps 24 20 = 0 →
    let rm := (tk g s).rmode
    let gives := fun (i : Instr) (k : Nat) (r : Nat × Nat) =>
      exec i s = .next (ran g s { stacked (past g s 1) k [BitVec.ofNat 64 r.1] with fps := (tk g s).fps ||| 256 * r.2 })
    (Top g s [a, b] 1 →
      gives (.fadd g) 2 (fadd .fp64 rm false a.toNat b.toNat) ∧ gives (.fsub g) 2 (fadd .fp64 rm true a.toNat b.toNat)
      ∧ gives (.fmul g) 2 (fmul .fp64 .fp64 rm false a.toNat b.toNat) ∧ gives (.fdiv g) 2 (fdiv .fp64 rm a.toNat b.toNat)
      ∧ gives (.fmin g) 2 (fminmax .fp64 false false a.toNat b.toNat) ∧ gives (.fmax g) 2 (fminmax .fp64 true false a.toNat b.toNat))
    ∧ (Top g s [a] 1 →
      gives (.fsqrt g) 1 (fsqrt .fp64 rm a.toNat) ∧ gives (.frint g) 1 (frint .fp64 rm a.toNat)
      ∧ gives (.cvtif g) 1 (cvtIF .int64 .fp64 rm false a.toNat) ∧ gives (.cvtfi g) 1 (cvtFI .fp64 .int64 rm a.toNat)
      ∧ gives (.cvtsd g) 1 (cvtFF .fp32 .fp64 rm false (a.toNat % 2 ^ 32)) ∧ gives (.cvtds g) 1 (cvtFF .fp64 .fp32 rm false a.toNat))
    ∧ (Top g s [a, b, c] 1 →
      gives (.fma g) 3 (fmaCore .fp64 .fp64 .fp64 rm false false false true a.toNat b.toNat c.toNat))

/-- R363, R365, R361: with no FP trap pending, FPGET pushes FPS without its reserved bits, FPSET writes them from the word on top
unless its RMODE is one of the values not used, which traps, and FBAR completes once no LOFT operation of the task is under
way. -/
def Sys2Proof.Claim.SundopFpStatus : Prop :=
  ∀ (g : Issue) (s : State) (a : Word), Ready g s → (tk g s).fpPend = false →
    (Top g s [] 1 → Gives g s (.fpget g) 1 0
      [BitVec.ofNat 64 (bitsOf (tk g s).fps 27 20 * 2 ^ 20 + bitsOf (tk g s).fps 13 8 * 2 ^ 8)])
    ∧ (Top g s [a] 0 → bitsOf a.toNat 27 25 ≤ 4 → exec (.fpset g) s = .next (ran g s { stacked (past g s 1) 1 [] with
        fps := bitsOf a.toNat 27 20 * 2 ^ 20 + bitsOf a.toNat 13 8 * 2 ^ 8 }))
    ∧ (Top g s [a] 0 → 5 ≤ bitsOf a.toNat 27 25 → exec (.fpset g) s = .next (trapped g s { cause := 0x08, status := 0x11 }))
    ∧ (Top g s [] 0 → s.loftBusy g.c.val g.t.val = false → Gives g s (.fbar g) 1 0 [])

/-- R366, R180, R345: DADD and DSUB take two DEC128 operands, the lower word beneath the upper one, and push the result so; an
invalid operand traps with DECIMAL and stays on the stack. -/
def Sys2Proof.Claim.SundopDecimal : Prop :=
  ∀ (g : Issue) (s : State) (al ah bl bh : Word) (x y : Int), Ready g s → bitsOf (tk g s).fps 24 20 = 0 →
    Top g s [al, ah, bl, bh] 2 →
    (decOf (ah.toNat * 2 ^ 64 + al.toNat) = some x → decOf (bh.toNat * 2 ^ 64 + bl.toNat) = some y →
      (let r := decResult (x + y)
       exec (.dadd g) s = .next (ran g s { stacked (past g s 1) 4 [BitVec.ofNat 64 r.1, BitVec.ofNat 64 (r.1 / 2 ^ 64)] with
         fps := (tk g s).fps ||| 256 * r.2 }))
      ∧ (let r := decResult (x - y)
       exec (.dsub g) s = .next (ran g s { stacked (past g s 1) 4 [BitVec.ofNat 64 r.1, BitVec.ofNat 64 (r.1 / 2 ^ 64)] with
         fps := (tk g s).fps ||| 256 * r.2 })))
    ∧ (decOf (ah.toNat * 2 ^ 64 + al.toNat) = none ∨ decOf (bh.toNat * 2 ^ 64 + bl.toNat) = none →
      exec (.dadd g) s = .next (trapped g s { cause := 0x07, status := 0x26 })
      ∧ exec (.dsub g) s = .next (trapped g s { cause := 0x07, status := 0x26 }))

/-- R341, R378, R241, R354: WAIT leaves the task waiting past the instruction; once every store of the task has been performed, SYNC
completes, and IFLUSH discards the fetched lines of the core but not the pinned ones. -/
def Obligations.SundopWaitAndFences : Prop :=
  ∀ (g : Issue) (s : State), Ready g s → Top g s [] 0 →
    exec (.wait g) s = .next (ran g s { past g s 1 with st := .wait })
    ∧ (s.storesDone g.c.val g.t.val = true →
      exec (.sync g) s = .next (ran g s (past g s 1))
      ∧ exec (.iflush g) s = .next { ran g s (past g s 1) with
          cores := tabPut s.cores g.c.val { s.coreSt g.c.val with lines := [] } })
    ∧ (s.storesDone g.c.val g.t.val = false → Next (.sync g) s (fun t => tk g t = tk g s)
      ∧ Next (.iflush g) s (fun t => tk g t = tk g s ∧ t.cores = s.cores))

/-- R348, R238: a load pushes the bytes of memory, little-endian, zero-extended or sign-extended, when no store of the task to them
is still to be performed; nothing but the counters of the memory channels changes beside the task. -/
def Sys2Proof.Claim.SundopLoads : Prop :=
  ∀ (g : Issue) (s : State) (va : Word) (ga : Nat) (sz : Fin 4) (sx : Fin 3), Ready g s → Top g s [va] 1 →
    Addr g s .read va.toNat ga → gaNode ga = s.node →
    (va.toNat % 2 ^ sz.val = 0 → Plain s (gaOff ga) (2 ^ sz.val) → Settled g s ga (2 ^ sz.val) →
      Next (.ld g sz) s (fun t =>
        tk g t = stacked (past g s 1) 1 [BitVec.ofNat 64 (leNat (s.peek (gaOff ga) (2 ^ sz.val)))]
        ∧ t.mem = s.mem ∧ t.cores = s.cores ∧ t.chains = s.chains ∧ RegsBut s t 0x100000 0x700000))
    ∧ (va.toNat % 2 ^ sx.val = 0 → Plain s (gaOff ga) (2 ^ sx.val) → Settled g s ga (2 ^ sx.val) →
      Next (.lds g sx) s (fun t =>
        tk g t = stacked (past g s 1) 1
          [((BitVec.ofNat 64 (leNat (s.peek (gaOff ga) (2 ^ sx.val)))).setWidth (8 * 2 ^ sx.val)).signExtend 64]
        ∧ t.mem = s.mem ∧ t.cores = s.cores ∧ t.chains = s.chains ∧ RegsBut s t 0x100000 0x700000))

/-- R238: a load of bytes that the task's latest store writes returns that store's value, performed or not. -/
def Sys2Proof.Claim.SundopLoadsOwnStore : Prop :=
  ∀ (g : Issue) (s : State) (va : Word) (ga : Nat) (sz : Fin 4) (es : List StoreEntry) (e : StoreEntry), Ready g s →
    Top g s [va] 1 → Addr g s .read va.toNat ga → va.toNat % 2 ^ sz.val = 0 →
    s.ownStores g.c.val g.t.val = es ++ [e] → e.ga = ga → e.size = 2 ^ sz.val →
    exec (.ld g sz) s = .next (ran g s (stacked (past g s 1) 1 [BitVec.ofNat 64 (e.v % 2 ^ (8 * 2 ^ sz.val))]))

/-- R238, R327, R348: a store to memory removes its address and value and enters the store buffer, or the check buffer of SUP_A in
CHECKED mode; no memory and no register changes yet. -/
def Sys2Proof.Claim.SundopStores : Prop :=
  ∀ (g : Issue) (s : State) (va v : Word) (ga : Nat) (sz : Fin 4), Ready g s → Top g s [va, v] 0 →
    Addr g s .write va.toNat ga → gaNode ga = s.node → va.toNat % 2 ^ sz.val = 0 → Plain s (gaOff ga) (2 ^ sz.val) →
    s.storeRoom g.c.val 1 = true →
    Next (.st g sz) s (fun t =>
      tk g t = stacked (past g s 1) 2 [] ∧ t.mem = s.mem ∧ t.regs = s.regs ∧ t.chains = s.chains
      ∧ (if s.checked g.c.val then
          t.sup.held.map storeKey = s.sup.held.map storeKey ++ [(g.t.val, ga, 2 ^ sz.val, v.toNat % 2 ^ (8 * 2 ^ sz.val))]
            ∧ t.cores = s.cores
        else
          (t.coreSt g.c.val).stores.map storeKey
            = (s.coreSt g.c.val).stores.map storeKey ++ [(g.t.val, ga, 2 ^ sz.val, v.toNat % 2 ^ (8 * 2 ^ sz.val))]
            ∧ t.sup.held = s.sup.held))

/-- R345, R348: a load, a store, an atomic or a CHAIN at an unaligned address traps with ALIGN and the address, and has no effect. -/
def Sys2Proof.Claim.SundopAlign : Prop :=
  ∀ (g : Issue) (s : State) (va v : Word), Ready g s →
    (Top g s [va] 1 → va.toNat % 8 ≠ 0 → exec (.ld g 3) s = .next (trapped g s { cause := 0x05, status := 0x11, info := va.toNat }))
    ∧ (Top g s [va] 1 → va.toNat % 4 ≠ 0 →
      ∀ i ∈ [Instr.ld g 2, .lds g 2], exec i s = .next (trapped g s { cause := 0x05, status := 0x11, info := va.toNat }))
    ∧ (Top g s [va, v] 1 → va.toNat % 8 ≠ 0 →
      ∀ i ∈ [Instr.st g 3, .xadd g, .xchg g], exec i s = .next (trapped g s { cause := 0x05, status := 0x11, info := va.toNat }))
    ∧ (Top g s [va] 0 → va.toNat % 64 ≠ 0 → g.c.val < 24 → (tk g s).fpPend = false →
      exec (.chainInstruction g) s = .next (trapped g s { cause := 0x05, status := 0x11, info := va.toNat }))

/-- R351: XADD, XCHG and CAS push the old eight bytes and write the new ones in the same step; no other byte changes. -/
def Sys2Proof.Claim.SundopAtomics : Prop :=
  ∀ (g : Issue) (s : State) (va e n : Word) (old : Word), Ready g s → s.checked g.c.val = false → (tk g s).ring ≤ 1 →
    va.toNat < 2 ^ 52 → gaNode va.toNat = s.node → Plain s (gaOff va.toNat) 8 → Settled g s va.toNat 8 → memWf s.mem = true →
    s.peek (gaOff va.toNat) 8 = leBytes 8 old.toNat →
    let does := fun (i : Instr) (k : Nat) (new : Word) => Next i s (fun t =>
      tk g t = stacked (past g s 1) k [old] ∧ t.peek (gaOff va.toNat) 8 = leBytes 8 new.toNat ∧ Outside s t (gaOff va.toNat) 8
        ∧ t.cores = s.cores)
    (Top g s [va, e] 1 → does (.xadd g) 2 (old + e) ∧ does (.xchg g) 2 e)
    ∧ (Top g s [va, e, n] 1 → does (.cas g) 3 (if old = e then n else old))

/-- R355: one element of a string instruction in memory. MOVS and FILLS store it and CMPS and SCANS compare it; the string registers
advance, and the stack and every other byte keep. -/
def Sys2Proof.Claim.SundopStrings : Prop :=
  ∀ (g : Issue) (s : State) (v : Word) (wl : Fin 4) (pd : Fin 8) (ne : Bool), Ready g s → s.checked g.c.val = false →
    let x := tk g s
    let w := 2 ^ wl.val
    let wd : Word := BitVec.ofNat 64 w
    let src := x.src.toNat
    let dst := x.dst.toNat
    x.ring ≤ 1 → x.cnt ≠ 0 → s.ownStores g.c.val g.t.val = [] → memWf s.mem = true →
    src < 2 ^ 52 → gaNode src = s.node → Plain s (gaOff src) w → dst < 2 ^ 52 → gaNode dst = s.node → Plain s (gaOff dst) w →
    (Top g s [] 0 →
      Next (.movs g (BitVec.ofNat 8 (16 * wl.val)) none) s (fun t =>
        tk g t = { past g s 2 with src := x.src + wd, dst := x.dst + wd, cnt := x.cnt - 1 }
        ∧ t.peek (gaOff dst) w = s.peek (gaOff src) w ∧ Outside s t (gaOff dst) w)
      ∧ Next (.cmps g (BitVec.ofNat 8 (16 * wl.val + pd.val)) none) s (fun t =>
        tk g t = { past g s 2 with
          src := x.src + wd, dst := x.dst + wd, cnt := x.cnt - 1
          preds := x.preds / 256 * 256 + predSet x.preds pd.val (decide (s.peek (gaOff src) w ≠ s.peek (gaOff dst) w)) }
        ∧ t.mem = s.mem))
    ∧ (Top g s [v] 1 →
      Next (.fills g (BitVec.ofNat 8 (16 * wl.val)) none) s (fun t =>
        tk g t = { stacked (past g s 2) 1 [v] with dst := x.dst + wd, cnt := x.cnt - 1 }
        ∧ t.peek (gaOff dst) w = leBytes w v.toNat ∧ Outside s t (gaOff dst) w)
      ∧ Next (.scans g (BitVec.ofNat 8 (16 * wl.val + (if ne then 8 else 0) + pd.val)) none) s (fun t =>
        tk g t = { stacked (past g s 2) 1 [v] with
          dst := x.dst + wd, cnt := x.cnt - 1
          preds := x.preds / 256 * 256 + predSet x.preds pd.val (decide (s.peek (gaOff dst) w = leBytes w v.toNat) != ne) }
        ∧ t.mem = s.mem))

/-- R355, R356: with CNT zero a string instruction processes nothing, and CMPS and SCANS set PD to 0. -/
def Sys2Proof.Claim.SundopEmptyStrings : Prop :=
  ∀ (g : Issue) (s : State) (v : Word) (wl : Fin 4) (pd : Fin 8) (rep : Bool) (limit : Option Nat), Ready g s → (tk g s).cnt = 0 →
    let h := { g with rep := rep }
    let from' := { past g s 2 with pc := (past g s 2).pc + (if rep then 1 else 0) }
    (past g s 2).pc + 1 < 2 ^ 64 →
    (Top g s [] 0 →
      exec (.movs h (BitVec.ofNat 8 (16 * wl.val)) limit) s = .next (ran g s from')
      ∧ exec (.cmps h (BitVec.ofNat 8 (16 * wl.val + pd.val)) limit) s
        = .next (ran g s { from' with preds := (tk g s).preds / 256 * 256 + predSet (tk g s).preds pd.val false }))
    ∧ (Top g s [v] 1 →
      exec (.fills h (BitVec.ofNat 8 (16 * wl.val)) limit) s = .next (ran g s (stacked from' 1 [v]))
      ∧ exec (.scans h (BitVec.ofNat 8 (16 * wl.val + pd.val)) limit) s = .next (ran g s { stacked from' 1 [v] with
          preds := (tk g s).preds / 256 * 256 + predSet (tk g s).preds pd.val false }))

/-- R352, R345: an LCK load outside register space, and an LCK store without an open sequence, trap with LOCK; so does a memory access
inside a sequence, which releases the lock. An LCK load of a register opens the sequence and locks the register for its master. -/
def Sys2Proof.Claim.SundopLocks : Prop :=
  ∀ (g : Issue) (s : State) (va v : Word), s.canIssue g.c g.t = true → (tk g s).spills = [] → g.rep = false → g.guard = none →
    NoneWaits s (agentTask g.c.val g.t.val) → s.mxc = [] → (tk g s).ring ≤ 1 → va.toNat < 2 ^ 52 → va.toNat % 8 = 0 →
    (g.lck = true → (tk g s).lock = none → gaNode va.toNat ≠ s.node → Top g s [va] 1 →
      Next (.ld g 3) s (fun t => tk g t = { tk g s with trap := lockTrap } ∧ t.mem = s.mem))
    ∧ (g.lck = true → (tk g s).lock = none → Top g s [va, v] 0 →
      Next (.st g 3) s (fun t => tk g t = { tk g s with trap := lockTrap } ∧ t.mem = s.mem ∧ t.cores = s.cores))
    ∧ (g.lck = false → (tk g s).lock.isSome = true → Top g s [va] 1 →
      Next (.ld g 3) s (fun t => tk g t = { tk g s with trap := lockTrap, lock := none } ∧ t.mem = s.mem
        ∧ (s.rd (MXC_LOCK_HELD (masterNo (.core g.c g.t))) = 1 → s.rd (MXC_LOCK_ID (masterNo (.core g.c g.t))) = masterId (.core g.c g.t) → t.rd (MXC_LOCK_HELD (masterNo (.core g.c g.t))) = 0)))
    ∧ (g.lck = true → (tk g s).lock = none → va.toNat = s.node * 2 ^ 42 + regBase + FLT_CFG → Top g s [va] 1 →
      s.power.off = false → s.node < 1024 → (∀ m : Fin 6, s.rd (MXC_LOCK_HELD m) = 0) → Settled g s va.toNat 8 →
      Next (.ld g 3) s (fun t =>
        (tk g t).cachedAt (tk g t).sp = some (s.reg FLT_CFG) ∧ (tk g t).lock.isSome = true
        ∧ t.rd (MXC_LOCK_HELD (masterNo (.core g.c g.t))) = 1 ∧ t.rd (MXC_LOCK_ID (masterNo (.core g.c g.t))) = masterId (.core g.c g.t) ∧ t.rd (MXC_LOCK_OFFSET (masterNo (.core g.c g.t))) = FLT_CFG
        ∧ t.mem = s.mem))

/-- R239, R238: a buffered store that leaves for this module's memory is performed there, and no other byte changes. -/
def Sys2Proof.Claim.SundopStoreLeaves : Prop :=
  ∀ (c : Core) (s : State) (e : StoreEntry), (s.coreSt c.val).stores = [e] → e.sent = false → gaNode e.ga = s.node →
    Plain s (gaOff e.ga) e.size → memWf s.mem = true → (∀ t : Task, (s.task c.val t.val).spills = []) →
    Next (.storeBufferRelease c) s (fun t =>
      (t.coreSt c.val).stores = [] ∧ t.peek (gaOff e.ga) e.size = leBytes e.size e.v ∧ Outside s t (gaOff e.ga) e.size
      ∧ t.tasks = s.tasks)

/-- R367, R93, R368: CHAIN takes the descriptor's address, and the chain it issues carries the 384 bytes that stand there. -/
def Sys2Proof.Claim.SundopChain : Prop :=
  ∀ (g : Issue) (s : State) (va : Word), Ready g s → g.c.val < 24 → (tk g s).fpPend = false → Top g s [va] 0 → (tk g s).ring ≤ 1 →
    va.toNat < 2 ^ 52 → va.toNat % 64 = 0 → gaNode va.toNat = s.node →
    (∀ k : Fin 6, Plain s (gaOff va.toNat + 64 * k.val) 64) → (s.coreSt g.c.val).stores = [] →
    (s.taskChains g.c.val g.t.val).length < 4 →
    Next (.chainInstruction g) s (fun t =>
      tk g t = stacked (past g s 1) 1 [] ∧ t.nextChain = s.nextChain + 1 ∧ t.mem = s.mem
      ∧ t.chains.any (fun c => c.id == s.nextChain && c.issuer == .task g.c.val g.t.val && c.ring == (tk g s).ring
          && c.desc == wordsOf (s.peek (gaOff va.toNat) 384)) = true)

/-- R288, R290: LOFT hands its two words, and the scalar beneath them where W1[60] asks for one, to the queue of SVU 4c + J. -/
def Sys2Proof.Claim.SundopLoft : Prop :=
  ∀ (g : Issue) (s : State) (sc w0 w1 : Word), Ready g s → g.c.val < 24 → (tk g s).fpPend = false →
    (s.coreSt g.c.val).stores = [] →
    let i := 4 * g.c.val + w1.toNat / 2 ^ 62
    ((s.svu i).queue.filter (fun o => o.mark == 0)).length < 8 →
    let op := fun v : Nat => ({ core := g.c.val, task := g.t.val, w0 := w0.toNat, w1 := w1.toNat, scalar := v
                                te := bitsOf (tk g s).fps 24 20 } : LoftOp)
    let queued := fun v : Nat => tabPut s.svus i { s.svu i with queue := (s.svu i).queue ++ [op v] }
    (w1.getLsbD 60 = false → Top g s [w0, w1] 0 →
      exec (.loft g) s = .next { ran g s (stacked (past g s 1) 2 []) with svus := queued 0 })
    ∧ (w1.getLsbD 60 = true → Top g s [sc, w0, w1] 0 →
      exec (.loft g) s = .next { ran g s (stacked (past g s 1) 3 []) with svus := queued sc.toNat })

/-- R369: CWAIT pushes the completion word of the task's oldest unreported chain, which is then reported, or a word with
ST_BAD_PARAM alone when there is none; while that chain runs, nothing happens. -/
def Sys2Proof.Claim.SundopCwait : Prop :=
  ∀ (g : Issue) (s : State) (c : Chain) (l : List Chain), Ready g s → Top g s [] 1 →
    (s.taskChains g.c.val g.t.val = [] → Gives g s (.cwait g) 1 0 [BitVec.ofNat 64 (0x11 * 2 ^ 56)])
    ∧ (s.taskChains g.c.val g.t.val = c :: l → c.phase = .ended →
      exec (.cwait g) s = .next { ran g s (stacked (past g s 1) 0
          [BitVec.ofNat 64 (c.status * 2 ^ 56 + c.flags % 64 * 2 ^ 48 + c.endIndex % 2 ^ 48)]) with
        chains := s.chains.filter (fun z => z.id != c.id) })
    ∧ (s.taskChains g.c.val g.t.val = c :: l → c.phase ≠ .ended →
      Next (.cwait g) s (fun t => tk g t = tk g s ∧ t.chains = s.chains))

/-- R400: SAVEL and SAVEU store words 1 to 31 of a half of the selected idle task's context and push the link word; RESTL and RESTU
load them. No other byte of storage changes. -/
def Obligations.SundopSaveRestore : Prop :=
  ∀ (g : Issue) (s : State) (a : Word) (k : Fin 31), Ready g s → s.checked g.c.val = false → Top g s [a] 1 → (tk g s).ring = 0 →
    let u := s.selTask g.c.val
    let y := s.task g.c.val u
    let off := gaOff a.toNat
    let word := fun n : Nat => leNat (s.peek (off + 8 * n) 8)
    u ≠ g.t.val → y.st.idle = true → a.toNat < 2 ^ 52 → a.toNat % 256 = 0 → gaNode a.toNat = s.node → memWf s.mem = true →
    (∀ n : Fin 4, Plain s (off + 64 * n.val) 64) → s.ownStores g.c.val g.t.val = [] →
    (y.cached.length < 32 →
      Next (.savel g) s (fun t => tk g t = stacked (past g s 1) 1 [BitVec.ofNat 64 (word 0)]
        ∧ t.peek (off + 8 + 8 * k.val) 8 = leBytes 8 (y.lowerWord (k.val + 1)) ∧ Outside s t (off + 8) 248)
      ∧ Next (.saveu g) s (fun t => tk g t = stacked (past g s 1) 1 [BitVec.ofNat 64 (word 0)]
        ∧ t.peek (off + 8 + 8 * k.val) 8 = leBytes 8 (y.upperWord (k.val + 1)) ∧ Outside s t (off + 8) 248))
    ∧ (bitsOf (word 3) 20 16 = 0 →
      Next (.restl g) s (fun t => tk g t = stacked (past g s 1) 1 [BitVec.ofNat 64 (word 0)] ∧ t.mem = s.mem
        ∧ (let z := t.task g.c.val u
           z.pc = word 1 ∧ z.sp = word 2 ∧ z.ring = bitsOf (word 3) 9 8 ∧ z.nest = bitsOf (word 3) 12 10 ∧ z.cpl = bitsOf (word 3) 14 13
           ∧ z.preds = bitsOf (word 3) 7 0 ∧ z.ctx = bitsOf (word 3) 39 32 ∧ z.fpAddr = word 5 ∧ z.src.toNat = word 6
           ∧ z.dst.toNat = word 7 ∧ z.cnt.toNat = word 8 ∧ z.pend = bitsOf (word 17) 47 32 ∧ z.prio = bitsOf (word 17) 31 0
           ∧ z.cached = [] ∧ z.st = y.st)))
    ∧ Next (.restu g) s (fun t => tk g t = stacked (past g s 1) 1 [BitVec.ofNat 64 (word 0)] ∧ t.mem = s.mem
        ∧ (k.val < y.shown → ((t.task g.c.val u).mine[k.val]?).map (fun e => e.v.toNat) = some (word (k.val + 1))))

/-- R397, R398, R389: GATE through a valid entry that the caller's ring may use, without arguments, enters it on the stack of its ring
with the frame pushed; a number at or above COUNT traps with PRIV. -/
def Sys2Proof.Claim.SundopGate : Prop :=
  ∀ (g : Issue) (s : State) (n : Byte) (e0 : Word) (r target : Fin 4), Ready g s → Top g s [] 0 → (tk g s).fpPend = false →
    (tk g s).drogue = false →
    let c := g.c.val
    let at' := 4096 * s.rd (CORE_GATE_BASE c) + 16 * n.toNat
    let y := onStack (tk g s) (min (tk g s).ring target.val)
    (s.rd (CORE_GATE_COUNT c) ≤ n.toNat → exec (.gate g n) s = .next (trapped g s { cause := 0x02, status := 0x13 }))
    ∧ (n.toNat < s.rd (CORE_GATE_COUNT c) → gaNode at' = s.node → Plain s (gaOff at') 16 → Settled g s at' 16 →
        s.peek (gaOff at') 16 = leBytes 8 e0.toNat ++ leBytes 8 (1 + 4 * target.val + 16 * r.val) → (tk g s).ring ≤ r.val →
        y.sl + 32 ≤ y.sp → y.cached.length ≤ 28 →
        Next (.gate g n) s (fun t =>
          tk g t = { stacked y 0 (frameWords (tk g s) (past g s 2).pc 0x13 0 0 0 0 0 n.toNat 0) with pc := e0.toNat } ∧ t.mem = s.mem))

/-- R399, R379: GRET with no result takes a frame off and goes back to its RET, SP and ring; a handler's frame (K 1) also restores CPL
and the predicates. A frame of a lower ring, or of the wrong nesting, traps with PRIV. -/
def Sys2Proof.Claim.SundopGret : Prop :=
  ∀ (g : Issue) (s : State) (ret osp info : Word) (ring nest cpl : Nat) (k : Bool) (preds : Byte) (cause : Byte), Ready g s →
    (tk g s).fpPend = false → (tk g s).drogue = false → ring < 4 → nest < 8 → cpl < 4 →
    let x := tk g s
    let w : Word := BitVec.ofNat 64 (cause.toNat * 2 ^ 56 + (if k then 2 ^ 15 else 0) + cpl * 2 ^ 13 + nest * 2 ^ 10 + ring * 2 ^ 8
      + preds.toNat)
    Top g s [ret, osp, w, info, 0] 0 →
    let kept := if ring = x.ring then x.cached.filter (fun e => decide (x.sp + 40 ≤ e.addr) || e.space != x.space)
      else x.cached.filter (fun e => e.space != x.space)
    let y : TaskRegs := { x with
      pc := ret.toNat, sp := osp.toNat, ring := ring, nest := nest
      cached := kept.filter (fun e => e.space != ring || decide (osp.toNat ≤ e.addr)) }
    let nested := if k then nest + 1 = x.nest else nest = x.nest
    (x.ring ≤ ring → nested → y.sl ≤ y.sp → exec (.gret g) s = .next (ran g s
      (if k then { y with cpl := cpl, preds := preds.toNat } else y)))
    ∧ (ring < x.ring ∨ ¬ nested → exec (.gret g) s = .next (trapped g s { cause := 0x02, status := 0x13 }))

/-- R373, R350: a fetch brings the line of PC, unless it is held, into the line cache of the core. -/
def Sys2Proof.Claim.SundopLineFetch : Prop :=
  ∀ (c : Core) (t : Task) (s : State), s.canIssue c t = true → NoneWaits s (agentTask c.val t.val) →
    let x := s.task c.val t.val
    let ga := x.pc / 64 * 64
    x.ring ≤ 1 → ga < 2 ^ 52 → gaNode ga = s.node → Plain s (gaOff ga) 64 → s.lineHeld c.val (ga / 64) = false →
    (s.coreSt c.val).lines.length < 2048 →
    Next (.lineFetch c t) s (fun u =>
      (u.coreSt c.val).lines = tabPut (s.coreSt c.val).lines (ga / 64) (s.peek (gaOff ga) 64)
      ∧ (u.coreSt c.val).pinned = (s.coreSt c.val).pinned ∧ u.tasks = s.tasks ∧ u.mem = s.mem)

/-- R386, R387, R389, R390: a precise trap enters the trap handler at its vector, in the lower of the vector's ring and the task's, with
the frame of the trap on that ring's stack and NEST one higher. -/
def Sys2Proof.Claim.TrapEntered : Prop :=
  ∀ (c : Core) (t : Task) (s : State) (tr : Trap), s.mayEnter c t = true →
    let x := s.task c.val t.val
    x.st = .run → x.fpPend = false → x.trap = some tr → tr.cause ≠ 0x0c → tr.fpp = false → x.drogue = false → x.spills = [] →
    x.lock = none → s.mxc = [] → x.nest < 4 → s.rd (vecValid c.val 0) = 1 →
    let y := onStack x (min x.ring (s.rd (vecRing c.val 0)))
    y.sl + 32 ≤ y.sp → y.cached.length ≤ 28 →
    Next (.trapEntry c t none) s (fun u =>
      u.task c.val t.val = { stacked y 0 (frameWords x x.pc tr.cause tr.status tr.sub tr.aux tr.flags tr.line tr.info 1) with
        pc := 64 * s.rd (vecAddr c.val 0), nest := x.nest + 1, trap := none }
      ∧ u.mem = s.mem)

/-- R383 to R387: the interrupt line that a task takes is no longer pending, its priority becomes CPL, and the interrupt handler is
entered with cause 0x10 and the line in its frame. -/
def Sys2Proof.Claim.InterruptEntered : Prop :=
  ∀ (c : Core) (t : Task) (s : State) (line : Nat), s.mayEnter c t = true →
    let x := s.task c.val t.val
    (x.st = .run ∨ x.st = .wait) → x.fpPend = false → x.trap = none → x.drogue = false → x.spills = [] → x.lock = none →
    x.nest < 4 → x.taken = some line → NoneWaits s (agentTask c.val t.val) → s.mxc = [] → s.rd (vecValid c.val 1) = 1 →
    let y := onStack x (min x.ring (s.rd (vecRing c.val 1)))
    y.sl + 32 ≤ y.sp → y.cached.length ≤ 28 →
    Next (.interruptEntry c t) s (fun u =>
      u.task c.val t.val = { stacked y 0 (frameWords x x.pc 0x10 0 0 0 0 line 0 1) with
        st := .run, pc := 64 * s.rd (vecAddr c.val 1), nest := x.nest + 1, cpl := x.prioOf line, pend := x.pend - 2 ^ line }
      ∧ u.mem = s.mem)

/-- R392, R395, R391: a fault of an entry that cannot be made is taken by the drogue handler, at ring 0 on the drogue stack, and the
CORE_DROGUE register names it; an entry spill that its address refuses makes such a fault and is dropped. -/
def Sys2Proof.Claim.DrogueEntered : Prop :=
  ∀ (c : Core) (t : Task) (s : State) (tr : Trap) (e : StackEntry) (rest : List StackEntry),
    let x := s.task c.val t.val
    (x.due = some tr → s.mayServe c t = true → (∀ t' : Task, t' < t → (s.task c.val t'.val).due = none) → x.drogue = false →
      x.spills = [] → x.cached.length ≤ 28 → s.mxc = [] → s.rd (vecValid c.val 2) = 1 → Alive s (380 + c.val) →
      Next (.drogueEntry c) s (fun u =>
        (let y := u.task c.val t.val
         y.drogue = true ∧ y.ring = 0 ∧ y.sp = 2016 ∧ y.pc = 64 * s.rd (vecAddr c.val 2) ∧ y.due = none ∧ y.st = .run
         ∧ y.nest = x.nest ∧ y.cachedAt 2040 = some (BitVec.ofNat 64 x.pc) ∧ y.cachedAt 2032 = some (BitVec.ofNat 64 x.sp)
         ∧ y.cachedAt 2016 = some (BitVec.ofNat 64 tr.info))
        ∧ u.rd (CORE_DROGUE_ACTIVE c.val) = 1 ∧ u.rd (CORE_DROGUE_TASK c.val) = t.val
        ∧ u.rd (CORE_DROGUE_CAUSE c.val) = tr.cause % 256 ∧ u.mem = s.mem))
    ∧ (x.spills = e :: rest → e.space ≤ 1 → 2 ^ 52 ≤ e.addr → x.due = none → x.drogue = false → s.coreRuns c.val = true →
      Quiet s 636 →
      Next (.entrySpillFault c t) s (fun u =>
        u.task c.val t.val = { x with spills := rest, due := some { cause := 0x12, status := 0x23, info := e.addr }, trap := none, st := .run }
        ∧ u.mem = s.mem))

/-- R396: a fault while the drogue handler runs halts the task and is recorded. -/
def Sys2Proof.Claim.DoubleFaultHalts : Prop :=
  ∀ (c : Core) (t : Task) (s : State) (tr : Trap), s.mayEnter c t = true →
    let x := s.task c.val t.val
    x.st = .run → x.fpPend = false → x.trap = some tr → tr.cause ≠ 0x0c → x.drogue = true → s.mxc = [] → Alive s (406 + c.val) →
    First s (406 + c.val) →
    Next (.trapEntry c t none) s (fun u =>
      (let y := u.task c.val t.val
       y.st = .halted ∧ y.drogue = false ∧ y.pc = x.pc ∧ y.sp = x.sp)
      ∧ u.rd (CORE_DROGUE_ACTIVE c.val) = 0
      ∧ u.rd (FLT_SRC_CNT_LAST_SEQ (406 + c.val)) = s.rd FLT_STAT_NEXT_SEQ)

/-- R379, R380, R382: ring 0 stops a running task and starts an idle one through CORE_TASK, sets the words of an idle task through the
window, and makes a line of a task pending; another ring is refused. -/
def Sys2Proof.Claim.TaskControl : Prop :=
  ∀ (c : Core) (t : Task) (m : Master) (s : State) (v : Word) (line : Fin 16) (k : Fin 5), s.fw0 m = true → taskExists c t = true →
    let x := s.task c.val t.val
    let task := fun u : State => u.task c.val t.val
    (Reaches s (whole m v) (CORE_TASK c.val) →
      (v = BitVec.ofNat 64 (2 ^ 17 + t.val) → x.st = .run → x.drogue = false → x.due = none → x.lock = none → x.spills = [] →
        s.accessSent c.val t.val = false →
        Next (.taskStop c (whole m v)) s (fun u => task u = { x with st := .stopped, stopping := false, trap := none }
          ∧ u.selTask c.val = t.val ∧ u.mem = s.mem))
      ∧ (v = BitVec.ofNat 64 (2 ^ 17 + t.val) → x.st = .wait →
        Next (.taskStop c (whole m v)) s (fun u => task u = { x with st := .stopped } ∧ u.selTask c.val = t.val))
      ∧ (v = BitVec.ofNat 64 (2 ^ 18 + t.val) → x.st.idle = true →
        Next (.taskStart c (whole m v)) s (fun u => task u = { x with st := .run, stopping := false } ∧ u.selTask c.val = t.val
          ∧ u.mem = s.mem)))
    ∧ (Reaches s (whole m v) (CORE_INT_RAISE c.val) → v = BitVec.ofNat 64 (256 * t.val + line.val) → (c.val = 24 → s.supFenced 0 = false) →
      exec (.coreIntRaise c (whole m v)) s
        = .next { s.mxcGrant m (CORE_INT_RAISE c.val) with
            tasks := tabPut s.tasks (64 * c.val + t.val) { x with pend := x.pend ||| 2 ^ line.val } })
    ∧ (s.selTask c.val = t.val → x.st.idle = true → x.boundsOk = true →
      let n := [1, 5, 6, 7, 8].getD k.val 1
      Reaches s (whole m v) (CORE_TWIN c.val n) →
      Next (.twinWrite c (Fin.ofNat 64 n) (whole m v)) s (fun u => u.twinWord c.val n = v.toNat ∧ u.regs = s.regs ∧ u.mem = s.mem))

/-- R375, R376: ring 0 pins a line of memory, whose bytes are then held, and sets a vector to a pinned line; a vector to a line that no
pin holds keeps the vector. -/
def Sys2Proof.Claim.PinsAndVectors : Prop :=
  ∀ (c : Core) (n : Fin 8) (which : Fin 3) (m : Master) (s : State) (line : Nat) (ring : Fin 2), s.fw0 m = true →
    let pin : Word := BitVec.ofNat 64 (64 * line + 1)
    let vec : Word := BitVec.ofNat 64 (64 * line + (if which = 2 then 0 else 2 * ring.val) + 1)
    line < 2 ^ 46 →
    (Reaches s (whole m pin) (CORE_PIN c.val n.val) → s.rd (CORE_PIN_VALID c.val n.val) = 0 → gaNode (64 * line) = s.node →
      Plain s (gaOff (64 * line)) 64 →
      Next (.corePinWrite c n (whole m pin)) s (fun u =>
        u.rd (CORE_PIN_VALID c.val n.val) = 1 ∧ u.rd (CORE_PIN_LOADED c.val n.val) = 1 ∧ u.rd (CORE_PIN_ADDR c.val n.val) = line
        ∧ tabFind (u.coreSt c.val).pinned n.val = some (line, s.peek (gaOff (64 * line)) 64) ∧ u.mem = s.mem))
    ∧ (Reaches s (whole m vec) (coreVec c.val which.val) → s.pinHolds c.val line = true →
      exec (.coreVecWrite c which (whole m vec)) s
        = .next ((s.mxcGrant m (coreVec c.val which.val)).setReg (coreVec c.val which.val) vec))
    ∧ (Reaches s (whole m vec) (coreVec c.val which.val) → s.pinHolds c.val line = false → Alive s 637 → First s 637 →
      Next (.coreVecWrite c which (whole m vec)) s (fun u =>
        u.reg (coreVec c.val which.val) = s.reg (coreVec c.val which.val)
        ∧ u.rd (FLT_SRC_CNT_LAST_SEQ 637) = s.rd FLT_STAT_NEXT_SEQ))

/-- R326 to R329: an interval of SUP_A whose re-execution agrees is counted and its held stores are performed; one that does not agree
is counted as a mismatch, drops them and starts the self-tests, after whose success it runs again. -/
def Obligations.SupervisorChecks : Prop :=
  ∀ (s : State) (e : StoreEntry), s.rd VERIF_SUP_MODE = 0 → s.supFenced 0 = false →
    (s.sup.testing = false → s.sup.closing = false → s.sup.held = [] → s.rd VERIF_SUP_CNT_INTERVALS < 2 ^ 48 - 1 →
      exec (.supIntervalEnd true) s
        = .next (({ s with sup := { began := s.now } } : State).wr VERIF_SUP_CNT_INTERVALS (s.rd VERIF_SUP_CNT_INTERVALS + 1)))
    ∧ (s.sup.testing = false → s.sup.closing = false → s.sup.held = [e] → e.sent = false → (s.coreSt 24).stores = [] →
      gaNode e.ga = s.node → Plain s (gaOff e.ga) e.size → memWf s.mem = true →
      Next (.supIntervalEnd true) s (fun t => t.sup = { began := s.now } ∧ t.peek (gaOff e.ga) e.size = leBytes e.size e.v
        ∧ Outside s t (gaOff e.ga) e.size))
    ∧ (s.sup.testing = false → s.sup.again = false → s.sup.closing = false → s.rd VERIF_SUP_CNT_MISMATCH < 2 ^ 16 - 1 → Alive s 623 → First s 623 →
      Next (.supIntervalEnd false) s (fun t =>
        t.sup = { s.sup with held := [], testing := true } ∧ t.mem = s.mem
        ∧ t.rd VERIF_SUP_CNT_MISMATCH = s.rd VERIF_SUP_CNT_MISMATCH + 1
        ∧ t.rd (FLT_SRC_CNT_LAST_SEQ 623) = s.rd FLT_STAT_NEXT_SEQ))
    ∧ (s.sup.testing = true → s.mxc = [] →
      Next (.supSelfTestDone true true) s (fun t => t.sup = { began := s.now, again := true } ∧ t.mem = s.mem
        ∧ t.rd VERIF_SUP_MODE = 0))
    ∧ (s.sup.testing = true → s.mxc = [] → Alive s 622 →
      Next (.supSelfTestDone true false) s (fun t => t.rd VERIF_SUP_MODE = 2 ∧ t.supFenced 1 = true ∧ t.sup.testing = false ∧ t.mem = s.mem))

/-! Registers. -/

/-- R4, R5, R7, R28: a write of ring 0 firmware to a read-write field sets it; a half-width write changes its half alone; a bit that
hardware sets in the clock that a write clears it reads as set; a write to a read-only register, and one at an offset without a
register, change nothing but whom the block granted last. -/
def Sys2Proof.Claim.RegisterWrites : Prop :=
  ∀ (m : Master) (s : State) (ctx : Fin 256) (ch : Chan) (v hw : Word), s.fw0 m = true → s.power.off = false → s.mxc = [] →
    (∀ n : Fin 6, s.rd (MXC_LOCK_HELD n.val) = 0) →
      Next (.registerWrite m (XLAT_CTX_ROOT ctx.val) 8 ⟨v, hw⟩) s (fun t =>
        t.rd (XLAT_CTX_ROOT_ROOT ctx.val) = bitsOf v.toNat 51 12
        ∧ RegsBut s t (XLAT_CTX_ROOT ctx.val) (XLAT_CTX_ROOT ctx.val + 8) ∧ t.mem = s.mem ∧ t.tasks = s.tasks)
      ∧ Next (.registerWrite m (XLAT_CTX_ROOT ctx.val) 4 ⟨v, hw⟩) s (fun t =>
        bitsOf (t.reg (XLAT_CTX_ROOT ctx.val)).toNat 63 32 = bitsOf (s.reg (XLAT_CTX_ROOT ctx.val)).toNat 63 32
        ∧ bitsOf (t.reg (XLAT_CTX_ROOT ctx.val)).toNat 31 12 = bitsOf v.toNat 31 12)
      ∧ Next (.registerWrite m CLK_STAT 8 ⟨v, hw⟩) s (fun t =>
        t.rd CLK_STAT_CLK_LOST = (if bitOf hw.toNat 63 then 1 else if bitOf v.toNat 63 then 0 else s.rd CLK_STAT_CLK_LOST)
        ∧ t.rd CLK_STAT_LOSSES = s.rd CLK_STAT_LOSSES ∧ RegsBut s t CLK_STAT (CLK_STAT + 8) ∧ t.mem = s.mem)
      ∧ exec (.registerWrite m (MEMC_RD_BYTES ch.val) 8 ⟨v, hw⟩) s = .next (s.mxcGrant m (MEMC_RD_BYTES ch.val))
      ∧ exec (.registerWrite m 0xd00f8 8 ⟨v, hw⟩) s = .next (s.mxcGrant m 0xd00f8)

/-- R9: a write that gives a field an encoding its table does not list keeps that field, sets the others, and is recorded with the
register's offset. -/
def Sys2Proof.Claim.RegisterEncodingKept : Prop :=
  ∀ (m : Master) (s : State) (ch : Chan) (lane : Fin 256), s.fw0 m = true → lane ≠ 0 → First s 637 → Alive s 637 →
    let v : Word := BitVec.ofNat 64 (2 ^ 16 * lane.val)
    Reaches s (whole m v) (MEMC_SPARE_CTL ch.val) →
    Next (.registerWrite m (MEMC_SPARE_CTL ch.val) 8 ⟨v, 0⟩) s (fun t =>
      t.rd (MEMC_SPARE_CTL_ROW_THRESH ch.val) = s.rd (MEMC_SPARE_CTL_ROW_THRESH ch.val)
      ∧ t.rd (MEMC_SPARE_CTL_LANE_THRESH ch.val) = lane.val
      ∧ t.rd (FLT_SRC_CNT_LAST_SEQ 637) = s.rd FLT_STAT_NEXT_SEQ
      ∧ (t.tlog.getLast?).map (fun r => (r.source, r.addr)) = some (637, MEMC_SPARE_CTL ch.val))

/-- R25, R27, R29: the host's access that is not aligned, or falls outside every block, changes no register of the block it names and is
recorded as ACCESS_REFUSED with its offset; the write is logged as Unsupported Request, and a read is answered so. -/
def Obligations.RegisterRefusals : Prop :=
  ∀ (s : State) (off : Nat) (v hw : Word), s.regBlocked .host off 8 = some 0x23 → s.hostUp = true → First s 636 → Quiet s 636 →
    s.mxc = [] → (regAt (off / 8 * 8)).isNone = true →
    Next (.registerWrite .host off 8 ⟨v, hw⟩) s (fun t =>
      (t.tlog.getLast?).map (fun r => (r.source, r.inst, r.status, r.addr)) = some (636, 3, 0x23, 0x3f000000000 + off)
      ∧ t.out = s.out ∧ t.host.urLog = true ∧ t.mem = s.mem ∧ RegsBut s t 0x40000 0x60000)
    ∧ Next (.readClearField .host off 8 none) s (fun t =>
      t.out = s.out ++ [.coreValue .host 0 0x23]
      ∧ (t.tlog.getLast?).map (fun r => (r.source, r.inst, r.status, r.addr)) = some (636, 3, 0x23, 0x3f000000000 + off))

/-- R5, R8, R50: the host's read of MEMC_WAIT returns the word and clears WAIT_MAX, or leaves the hardware's update of that clock; the
read of a counter's low half returns it and latches the upper half, which the next read of the upper half returns. -/
def Sys2Proof.Claim.RegisterReads : Prop :=
  ∀ (s : State) (ch : Chan) (hw : Option (Fin 4096)), s.hostUp = true → (∀ n : Fin 6, s.rd (MXC_LOCK_HELD n.val) = 0) → s.mxc = [] →
    Next (.readClearField .host (MEMC_WAIT ch.val) 8 (hw.map Fin.val)) s (fun t =>
      t.out = s.out ++ [.coreValue .host (s.reg (MEMC_WAIT ch.val)) 0]
      ∧ t.rd (MEMC_WAIT_WAIT_MAX ch.val) = (hw.map Fin.val).getD 0
      ∧ t.rd (MEMC_WAIT_URGENT ch.val) = s.rd (MEMC_WAIT_URGENT ch.val)
      ∧ RegsBut s t (MEMC_WAIT ch.val) (MEMC_WAIT ch.val + 8) ∧ t.mem = s.mem)
    ∧ Next (.counterLowHalfRead .host (MEMC_RD_BYTES ch.val)) s (fun t =>
      t.out = s.out ++ [.coreValue .host (BitVec.ofNat 64 ((s.reg (MEMC_RD_BYTES ch.val)).toNat % 2 ^ 32)) 0]
      ∧ t.regs = s.regs
      ∧ Next (.readClearField .host (MEMC_RD_BYTES ch.val + 4) 4 none) t (fun u =>
          u.out = t.out ++ [.coreValue .host (BitVec.ofNat 64 ((s.reg (MEMC_RD_BYTES ch.val)).toNat / 2 ^ 32)) 0]))

/-- R23, R472: the host reads and writes memory through BAR2: a read answers with the bytes, a write stores them and nothing else, and a
poisoned write poisons its word. -/
def Sys2Proof.Claim.HostBar2 : Prop :=
  ∀ (s : State) (off : Nat) (bs : List Byte), s.hostUp = true → Plain s off bs.length → off + bs.length ≤ 2 ^ s.host.bar2Log →
    (NoneWaits s agentHost →
      Next (.hostBar2Read off bs.length) s (fun t => t.out = s.out ++ [.hostReply 0 (s.peek off bs.length) false] ∧ t.mem = s.mem))
    ∧ (memWf s.mem = true →
      Next (.hostBar2Write off bs false) s (fun t => t.peek off bs.length = bs ∧ Outside s t off bs.length ∧ memWf t.mem = true)
      ∧ (Alive s (264 + channelOf off / 8) → s.rd (MEMC_INJECT_ARM (channelOf off)) = 0 →
        Next (.hostBar2Write off bs true) s (fun t => (t.damage off).poison = true ∧ Outside s t off bs.length)))

/-! Memory channels. -/

/-- R43, R40, R41: a grant to the only request that waits at a serving channel takes it from the queue and performs it: a write stores its
word and nothing else, a read delivers the bytes; the grant is counted for its class. -/
def Sys2Proof.Claim.ChannelGrants : Prop :=
  ∀ (s : State) (ch : Chan) (r : MemReq) (w : WordWrite) (b : RBuf), (s.chan ch.val).queue = [r] → r.src = none → r.prov = false →
    w.off % 64 = 0 → w.off < 3 * 2 ^ 40 → channelOf w.off = ch.val → s.rd (MEMC_STATUS_STATE ch.val) = 2 → s.damage w.off = {} →
    s.host.dir = [] → (s.scrubSync ch.val).rd (MEMC_SCRUB_LAG_BEHIND ch.val) = 0 → (s.chan ch.val).needRows = [] →
    let fewer := fun t : State => (t.chan ch.val).queue = []
      ∧ (s.rd (MEMC_PERF_CTL_ENABLE ch.val) = 1 → s.rd (MEMC_GRANTS_LOCAL ch.val) < 2 ^ 32 - 1 →
          t.rd (MEMC_GRANTS_LOCAL ch.val) = s.rd (MEMC_GRANTS_LOCAL ch.val) + 1)
    (r.op = .write [w] → r.sink = .none → w.mask = 2 ^ 512 - 1 → w.poison = false → memWf s.mem = true →
      Next (.channelGrant ch [] .good) s (fun t => fewer t ∧ t.peek w.off 64 = leBytes 64 w.data ∧ Outside s t w.off 64))
    ∧ (r.op = .read w.off 64 → r.sink = .buffer b.id → s.rbuf = [b] →
      Next (.channelGrant ch [] .good) s (fun t => fewer t ∧ t.mem = s.mem
        ∧ t.rbuf = [{ b with res := some { status := 0, bytes := s.peek w.off 64 } }]))

/-- R47: a refresh takes the channel's clocks, of 0.8 ns each and at most 350 ns, and counts them while a request waits. -/
def Sys2Proof.Claim.RefreshTakesTime : Prop :=
  ∀ (s : State) (ch : Chan) (clocks : Nat), s.rd (MEMC_STATUS_STATE ch.val) = 2 → clocks ≤ 437 →
    Next (.refresh ch clocks) s (fun t =>
      t.now = s.now + clocks * 4 / 5 ∧ t.mem = s.mem
      ∧ (if (s.chan ch.val).queue = [] ∨ s.rd (MEMC_PERF_CTL_ENABLE ch.val) = 0 then
          t.rd (MEMC_REFRESH_STALL_STALL ch.val) = s.rd (MEMC_REFRESH_STALL_STALL ch.val)
        else t.rd (MEMC_REFRESH_STALL_STALL ch.val) = min (s.rd (MEMC_REFRESH_STALL_STALL ch.val) + clocks) (2 ^ 64 - 1)))

/-- R71, R73: a scrub read that is due handles the four words of its granule, repairs those with one symbol in error, and moves the
position on; no data changes. -/
def Sys2Proof.Claim.ScrubReads : Prop :=
  ∀ (s : State) (ch : Chan) (k : Fin 4), s.rd (MEMC_STATUS_STATE ch.val) = 2 → s.rd (MEMC_SCRUB_CTL_ENABLE ch.val) = 1 →
    (s.chan ch.val).queue = [] → s.now = (s.chan ch.val).scrubSince →
    let p := s.rd (MEMC_SCRUB_POS_POSITION ch.val)
    let base := granuleOffset ch.val p
    p + 1 < 2 ^ 27 → p < 2 ^ 27 * (s.chan ch.val).scrubClock / ((s.chan ch.val).scrubPeriod * 3600000000000) →
    Alive s (240 + ch.val / 8) → Alive s (252 + ch.val / 8) →
    (∀ j : Fin 4, (s.damage (base + 64 * j.val)).poison = false ∧ (s.damage (base + 64 * j.val)).syms.length ≤ 1) →
    Next (.scrubRead ch []) s (fun t =>
      t.rd (MEMC_SCRUB_POS_POSITION ch.val) = p + 1 ∧ t.damage (base + 64 * k.val) = {} ∧ t.mem = s.mem)

/-- R46, R50 to R52, R74, R87 to R90: writes to the registers of a channel and of the interleave. LOCAL_SHARE and PERIOD_H wait for the
next window and pass, and a PERIOD_H of 0 is kept out and recorded; CLEAR clears the counters, WAIT_MAX among them by the model's
choice (log 71), and a write without it keeps them; an injection is armed only in MANUFACTURE and RETURNED. -/
def Sys2Proof.Claim.MemoryControl : Prop :=
  ∀ (m : Master) (s : State) (ch : Chan) (share : Fin 49) (period : Fin 256) (en : Fin 2) (kind : Fin 4),
    let c := ch.val
    let w := fun n : Nat => whole m (BitVec.ofNat 64 n)
    (Reaches s (w 0) INTLV_ARB → s.fwOrInstaller m = true →
      Next (.intlvArbWrite (w share.val)) s (fun t => t.rd INTLV_ARB_LOCAL_SHARE = share.val ∧ t.chans = s.chans
        ∧ t.window c = (if (s.chan c).windowLeft = 0 then (64, share.val) else ((s.chan c).windowLeft, (s.chan c).localOwed)) ∧ t.mem = s.mem
        ∧ (s.fw0 m = true → RegsBut s t INTLV_ARB (INTLV_ARB + 8))))
    ∧ (Reaches s (w 0) (MEMC_SCRUB_CTL c) → s.fwOrInstaller m = true →
      (period ≠ 0 → Next (.scrubCtlWrite ch (w (256 * period.val + en.val))) s (fun t =>
        t.rd (MEMC_SCRUB_CTL_PERIOD_H c) = period.val ∧ t.rd (MEMC_SCRUB_CTL_ENABLE c) = en.val
        ∧ (t.chan c).scrubPeriod = (s.chan c).scrubPeriod ∧ t.rd (MEMC_SCRUB_POS_POSITION c) = s.rd (MEMC_SCRUB_POS_POSITION c) ∧ t.mem = s.mem))
      ∧ (First s 637 → Alive s 637 → Next (.scrubCtlWrite ch (w en.val)) s (fun t =>
        t.rd (MEMC_SCRUB_CTL_PERIOD_H c) = s.rd (MEMC_SCRUB_CTL_PERIOD_H c) ∧ t.rd (MEMC_SCRUB_CTL_ENABLE c) = en.val
        ∧ (t.tlog.getLast?).map (fun r => (r.source, r.addr)) = some (637, MEMC_SCRUB_CTL c))))
    ∧ (Reaches s (w 0) (MEMC_PERF_CTL c) →
      Next (.memcPerfClear ch (w (2 + en.val))) s (fun t =>
        t.rd (MEMC_PERF_CTL_ENABLE c) = en.val ∧ (memcCounters c).all (fun f => t.rd f == 0) = true ∧ t.mem = s.mem)
      ∧ Next (.memcPerfClear ch (w en.val)) s (fun t =>
        t.rd (MEMC_PERF_CTL_ENABLE c) = en.val ∧ RegsBut s t (MEMC_PERF_CTL c) (MEMC_PERF_CTL c + 8) ∧ t.mem = s.mem))
    ∧ (Reaches s (w 0) (MEMC_INJECT c) → s.fw0 m = true → s.lcs = 0 ∨ s.lcs = 3 →
      Next (.memcInjectWrite ch (w (256 + kind.val))) s (fun t =>
        t.rd (MEMC_INJECT_ARM c) = (if kind = 0 then 0 else 1) ∧ t.rd (MEMC_INJECT_KIND c) = kind.val
        ∧ RegsBut s t (MEMC_INJECT c) (MEMC_INJECT c + 8) ∧ t.mem = s.mem))
    ∧ (Reaches s (w 0) (MEMC_INJECT c) → s.fw0 m = false ∨ (s.lcs ≠ 0 ∧ s.lcs ≠ 3) → First s 636 → Quiet s 636 →
      Next (.memcInjectWrite ch (w (256 + kind.val))) s (fun t =>
        t.reg (MEMC_INJECT c) = s.reg (MEMC_INJECT c) ∧ t.mem = s.mem
        ∧ (t.tlog.getLast?).map (fun r => (r.source, r.status, r.addr)) = some (636, 0x23, 0x3f000000000 + MEMC_INJECT c)))

/-- R76 to R79, R82: a row or a lane group that asks for a spare gets one while any is free; without one the channel lacks a spare. -/
def Sys2Proof.Claim.Sparing : Prop :=
  ∀ (s : State) (ch : Chan) (bank : Fin 64) (row lane : Nat), Alive s (288 + ch.val / 8) → Alive s (240 + ch.val / 8) →
    let key := bank.val + 64 * row
    let c := ch.val
    (((s.chan c).needRows.find? (fun n => n.1 == key) = some (key, true) →
        0 < s.rowsLeft c → ((s.chan c).spareRows.filter (fun r => r % 64 == bank.val)).length < 4 →
        Next (.rowSpare ch bank.val row) s (fun t =>
          (t.chan c).spareRows = (s.chan c).spareRows ++ [key]
          ∧ t.rd (MEMC_SPARE_ROW_FREE c) =
            (if (s.chan c).rowShort = [] then s.rd (MEMC_SPARE_ROW_FREE c) - 1 else s.rd (MEMC_SPARE_ROW_FREE c))
          ∧ (t.chan c).needRows.all (fun n => n.1 != key) = true ∧ t.mem = s.mem))
      ∧ ((s.chan c).needRows.find? (fun n => n.1 == key) = some (key, true) → s.rowsLeft c = 0 →
        Next (.rowSpare ch bank.val row) s (fun t => (t.chan c).lacksSpare = true ∧ (t.chan c).spareRows = (s.chan c).spareRows
          ∧ t.rd (MEMC_SPARE_ROW_FREE c) = 0)))
    ∧ (lane ∈ (s.chan c).needLanes → 0 < s.rd (MEMC_SPARE_LANE_FREE c) →
      Next (.laneSpare ch lane) s (fun t =>
        (t.chan c).spareLanes = (s.chan c).spareLanes ++ [lane] ∧ t.rd (MEMC_SPARE_LANE_FREE c) = s.rd (MEMC_SPARE_LANE_FREE c) - 1
        ∧ lane ∉ (t.chan c).needLanes ∧ t.mem = s.mem))

/-- R66, R70, R75: a completed wipe leaves every byte of its channel zero and undamaged, every other byte as it was, and the channel in
service at the start of a scrub pass. -/
def Sys2Proof.Claim.WipeZeroes : Prop :=
  ∀ (s : State) (ch : Chan) (a : Nat), s.rd (MEMC_STATUS_STATE ch.val) = 1 → s.rd (MEMC_WIPE_DONE ch.val) = 0 →
    s.domainOn (48 + ch.val / 8) = true → s.chFenced ch.val = false → Quiet s (288 + ch.val / 8) → memWf s.mem = true →
    Next (.wipeComplete ch) s (fun t => (a < 3 * 2 ^ 40 → channelOf a = ch.val → t.damage a = {}) ∧
      t.rd (MEMC_STATUS_STATE ch.val) = 2 ∧ t.rd (MEMC_WIPE_DONE ch.val) = 1 ∧ t.rd (MEMC_SCRUB_POS_POSITION ch.val) = 0
      ∧ memGet t.mem a = (if a < 3 * 2 ^ 40 ∧ channelOf a = ch.val then 0 else memGet s.mem a) ∧ memWf t.mem = true)

/-- R83, R84: a minute of wear adds the weight of its temperature to every channel of the tower and raises the peak; the counts are
saved to flash as they stand. -/
def Sys2Proof.Claim.Wear : Prop :=
  ∀ (s : State) (tower : Tower) (temp : Nat) (k : Fin 8),
    let c := fun j : Nat => 8 * tower.val + j
    (s.rd (MEMC_STATUS_STATE (c 0)) = 2 → s.rd (MEMC_WEAR_EQ_QMIN (c 0)) + 16 < 2 ^ 32 → Alive s (288 + tower.val) →
      Next (.wearTick tower temp) s (fun t =>
        t.rd (MEMC_WEAR_EQ_QMIN (c k.val)) = s.rd (MEMC_WEAR_EQ_QMIN (c 0))
          + (if temp < 65 then 1 else if temp < 75 then 2 else if temp ≤ 85 then 4 else if temp ≤ 95 then 8 else 16)
        ∧ t.rd (MEMC_WEAR_PEAK_TEMP (c k.val)) = max (s.rd (MEMC_WEAR_PEAK_TEMP (c k.val))) (min temp 255) ∧ t.mem = s.mem))
    ∧ Next .wearSave s (fun t =>
      tabGet t.life.wear (0, 0) tower.val = (s.rd (MEMC_WEAR_EQ_QMIN (c 0)), s.rd (MEMC_WEAR_PEAK_TEMP (c 0))) ∧ t.mem = s.mem)

/-- R248 to R250: a size of the tail area that firmware, or the host in an installer session, writes whole or by half is pending until no
record lies there, and then takes effect with the base it was written under; a base or size that is not a multiple of 0x6000, or a
sum past the memory range, keeps the size and the area and is recorded. -/
def Sys2Proof.Claim.TailArea : Prop :=
  ∀ (m : Master) (s : State) (v : Word) (lane : Nat) (width : Nat),
    let w : RegWrite := { m := m, lane := lane, width := width, v := v }
    let old := s.rd INTLV_TAIL_SIZE_SIZE
    let size := (if width = 8 then v.toNat else if lane = 0 then old / 2 ^ 32 * 2 ^ 32 + v.toNat % 2 ^ 32
      else v.toNat % 2 ^ 32 * 2 ^ 32 + old % 2 ^ 32) % 2 ^ 42
    let base := s.rd INTLV_TAIL_BASE_BASE
    let may := s.fwOrInstaller m = true ∧ (lane, width) ∈ [(0, 8), (0, 4), (4, 4)] ∧ Reaches s w INTLV_TAIL_SIZE
    (may → base % 0x6000 = 0 → size % 0x6000 = 0 → base + size ≤ 3 * 2 ^ 40 →
      Next (.tailSizeWrite w) s (fun t =>
        t.rd INTLV_TAIL_SIZE_SIZE = size ∧ t.rd INTLV_TAIL_SIZE_PENDING = 1 ∧ t.tailNext = base ∧ t.tailArea = s.tailArea ∧ t.mem = s.mem))
    ∧ (may → base % 0x6000 ≠ 0 ∨ size % 0x6000 ≠ 0 ∨ 3 * 2 ^ 40 < base + size → First s 637 → Alive s 637 →
      Next (.tailSizeWrite w) s (fun t =>
        t.rd INTLV_TAIL_SIZE_SIZE = old ∧ t.tailNext = s.tailNext ∧ t.tailArea = s.tailArea ∧ t.mem = s.mem
        ∧ (t.tlog.getLast?).map (fun r => (r.source, r.addr)) = some (637, INTLV_TAIL_SIZE)))
    ∧ (s.rd INTLV_TAIL_SIZE_PENDING = 1 → s.tail = [] →
      Next .tailAreaApply s (fun t =>
        t.tailArea = (s.tailNext, old) ∧ t.rd INTLV_TAIL_SIZE_PENDING = 0 ∧ t.rd INTLV_TAIL_SIZE_SIZE = old ∧ t.mem = s.mem))
    ∧ (s.rd INTLV_TAIL_SIZE_PENDING = 1 → s.tail ≠ [] → exec .tailAreaApply s = .next s)

/-! Command rings. -/
namespace Sys2Proof.Claim
open Sys2Proof.Machine Sys2Proof.Machine.Reg

/-- The result of a packet with a status (R418). -/
abbrev ans (p : Packet) (st : Nat) : Result := { seq := p.seq, cmd := p.w 0 % 256, tag := p.w 2, status := st }

/-- The command with the result's SEQ is over: its result waits to be posted, nothing else of its ring changed. -/
abbrev answer (s : State) (r : Ring) (x : Result) : State :=
  s.setRing r.val { s.ring r.val with running := (s.ring r.val).running.filter (fun q => q.seq != x.seq), done := (s.ring r.val).done ++ [x] }

abbrev Answered (s t : State) (r : Ring) (x : Result) : Prop := t.ring r.val = (answer s r x).ring r.val

/-- A started command of the ring whose work has not begun. -/
abbrev Has (s : State) (r : Ring) (cmd : Nat) (p : Packet) : Prop := s.started r.val cmd = some p

end Sys2Proof.Claim

/-- R413, R222, R528, R545, R612: NOP, TIME_GET and ENVELOPE_QUERY answer and change nothing else; a FENCE answers once no doorbell
before its own announced a command of a named ring, and waits while such a command runs; a time ahead is set at once, and a time
behind is slewed to, unless the module follows another clock; a cap within its limits that the committed power keeps is set. -/
def Sys2Proof.Claim.RingQueries : Prop :=
  ∀ (r : Ring) (s : State) (p : Packet) (n t seq : Nat),
    let d := s.rd TIME_NOW_NS
    (Has s r 0x01 p → exec (.nop r) s = .next (answer s r (ans p 0)))
    ∧ (Has s r 0x61 p → exec (.timeGet r) s = .next (answer s r { ans p 0 with reply0 := d, reply1 := s.rd TIME_EPOCH_EPOCH }))
    ∧ (Has s r 0x71 p → exec (.envelopeQuery r) s = .next (answer s r { ans p 0 with
        reply0 := min (envelopeD s.power.vin) s.capInEffect, reply1 := s.rd PWR_ENV_LEVEL, reply2 := s.rd PWR_INPUT_VIN }))
    ∧ (Has s r 0x02 p → (∀ b ∈ s.bells, b.1 = r.val ∨ 64 ≤ b.1 ∨ p.w 1 / 2 ^ b.1 % 2 = 0) →
        exec (.fence r) s = .next (answer s r (ans p 0)))
    ∧ (Has s r 0x02 p → s.bells = [(n, t)] → n ≠ r.val → n < 64 → p.w 1 / 2 ^ n % 2 = 1 → t < 2 ^ 32 → (seq, t) ∈ (s.ring n).order →
        exec (.fence r) s = .next s)
    ∧ (Has s r 0x60 p → p.w 0 / 2 ^ 12 % 2 = 0 → p.w 1 < 2 ^ 64 →
        (2 ≤ s.rd JFAB_TIME_SOURCE → exec (.timeSet r) s = .next (answer s r { ans p 0x14 with reply0 := d }))
        ∧ (s.rd JFAB_TIME_SOURCE < 2 → Next (.timeSet r) s (fun u => Answered s u r { ans p 0 with reply0 := d } ∧ u.mem = s.mem
            ∧ (if d ≤ p.w 1 then u.rd TIME_NOW_NS = p.w 1 ∧ u.rd TIME_EPOCH_SLEWING = 0
               else u.rd TIME_NOW_NS = d ∧ u.rd TIME_EPOCH_SLEWING = 1 ∧ u.rd TIME_SLEW_AHEAD = d - p.w 1))))
    ∧ (Has s r 0x60 p → p.w 0 / 2 ^ 12 % 2 = 1 → p.w 1 < 2 ^ 64 → Next (.timeSet r) s (fun u =>
        Answered s u r { ans p 0 with reply0 := d } ∧ u.rd TIME_NOW_NS = p.w 1
        ∧ u.rd TIME_EPOCH_EPOCH = (s.rd TIME_EPOCH_EPOCH + 1) % 2 ^ 16 ∧ u.mem = s.mem))
    ∧ (Has s r 0x70 p → (let w := p.w 1 % 2 ^ 16
        let c := if s.rd PWR_CAP_BOARD = 0 then w else min w (s.rd PWR_CAP_BOARD)
        (w ≠ 0 → s.rd PWR_LIMIT_CAP_MIN ≤ w → w ≤ s.rd PWR_LIMIT_MAX_W →
          s.committed ≤ ((min (envelopeD s.power.vin) c : Nat) : Rat) → s.power.waiting = [] →
          Next (.powerCap r) s (fun u => u.rd PWR_CAP_OPERATOR = w ∧ u.rd PWR_CAP_IN_EFFECT = c ∧ u.rd PWR_ENV_LEVEL = s.rd PWR_ENV_LEVEL
            ∧ Answered s u r { ans p 0 with reply0 := c } ∧ RegsBut s u PWR_CAP (PWR_CAP + 8) ∧ u.mem = s.mem))
        ∧ (w ≠ 0 → w < s.rd PWR_LIMIT_CAP_MIN ∨ s.rd PWR_LIMIT_MAX_W < w →
          exec (.powerCap r) s = .next (answer s r { ans p 0x11 with reply0 := s.capInEffect }))))

/-- R415, R416, R463, R464: a launched program runs on its stack, its arguments in order from the bottom; a signal makes the line
pending; a buffer allocated leaves the head of its pool's free list, one freed by its owner joins the tail with its next generation,
and a second free or one by another owner is counted and answered so. -/
def Sys2Proof.Claim.RingObjects : Prop :=
  ∀ (r : Ring) (s : State) (p : Packet) (free : List Nat) (i o : Nat),
    let k := p.w 0 / 2 ^ 40 % 32
    let n := p.w 0 / 2 ^ 32 % 16
    let g := p.w 0 / 2 ^ 12 % 4
    let q := p.w 0 / 2 ^ 12 % 64
    (Has s r 0x20 p → k < 24 → 2 ≤ g → p.w 3 % 8 = 0 → p.w 4 % 8 = 0 → p.w 4 + 24 ≤ p.w 3 → (s.task k n).st = .off →
      s.clusFenced k = false → (s.task k n).rsb.length = 4 → (s.task k n).rsl.length = 4 →
      Next (.progLaunch r) s (fun t =>
        let x := t.task k n
        x.st = .run ∧ x.pc = p.w 1 ∧ x.sp = p.w 3 - 24 ∧ x.ring = g ∧ x.ctx = p.w 0 / 2 ^ 48 % 256 ∧ x.rsb[g]? = some (p.w 3)
        ∧ x.rsl[g]? = some (p.w 4) ∧ (List.range 3).all (fun j => x.cachedAt (p.w 3 - 8 * (j + 1)) == some (BitVec.ofNat 64 (p.w (5 + j)))) = true
        ∧ x.preds = 0 ∧ x.fps = 0 ∧ x.pend = 0 ∧ Answered s t r (ans p 0) ∧ t.tasks = tabPut s.tasks (64 * k + n) x ∧ t.regs = s.regs ∧ t.mem = s.mem))
    ∧ (Has s r 0x21 p → k < 24 → s.clusFenced k = false → (s.task k n).st ≠ .off →
      Next (.progSignal r) s (fun t =>
        t.tasks = tabPut s.tasks (64 * k + n) { s.task k n with pend := (s.task k n).pend ||| 2 ^ (p.w 0 / 2 ^ 12 % 16) }
        ∧ Answered s t r (ans p 0) ∧ t.regs = s.regs ∧ t.mem = s.mem))
    ∧ (Has s r 0x50 p → s.rd (BMV_POOL_CFG_ENABLE q) = 1 → (s.pool q).free = i :: free → i < 2 ^ 18 → free.length < 2 ^ 18 →
      Next (.bufAlloc r) s (fun t =>
        Answered s t r { ans p 0 with reply0 := q * 2 ^ 26 + i * 2 ^ 8 + tabGet (s.pool q).gen 0 i } ∧ (t.pool q).free = free
        ∧ tabFind (t.pool q).owner i = some r.val ∧ t.rd (BMV_POOL_STAT_FREE q) = free.length ∧ t.mem = s.mem))
    ∧ (Has s r 0x50 p → s.rd (BMV_POOL_CFG_ENABLE q) = 1 → (s.pool q).free = [] →
      exec (.bufAlloc r) s = .next (answer s r (ans p 0x32)))
    ∧ (Has s r 0x51 p → (let v := p.w 1 % 2 ^ 32
        let b := v / 2 ^ 26
        let j := v / 2 ^ 8 % 2 ^ 18
        s.rd (BMV_POOL_CFG_ENABLE b) = 1 → j < s.rd (BMV_POOL_CFG_COUNT b) → Quiet s 635 → First s 635 →
        (tabFind (s.pool b).owner j = some r.val → v % 2 ^ 8 = tabGet (s.pool b).gen 0 j → (s.pool b).free.length + 1 < 2 ^ 18 →
          Next (.bufFree r) s (fun t => Answered s t r (ans p 0) ∧ (t.pool b).free = (s.pool b).free ++ [j]
            ∧ tabFind (t.pool b).owner j = none ∧ tabGet (t.pool b).gen 0 j = (v % 2 ^ 8 + 1) % 256 ∧ t.mem = s.mem))
        ∧ (tabFind (s.pool b).owner j = none ∨ (tabFind (s.pool b).owner j = some o ∧ o ≠ r.val ∧ v % 2 ^ 8 = tabGet (s.pool b).gen 0 j) →
          Next (.bufFree r) s (fun t =>
            Answered s t r (ans p (if tabFind (s.pool b).owner j = none then 0x30 else 0x31)) ∧ t.pool b = s.pool b
            ∧ t.rd (BMV_POOL_STAT_MISUSE b) = min (s.rd (BMV_POOL_STAT_MISUSE b) + 1) (2 ^ 16 - 1) ∧ t.mem = s.mem))))

/-- R253, R267, R268, R269: XLAT_CTX_SET writes its context and drops the context's leaves everywhere, XLAT_INVAL those of its scope;
they answer once every access translated before them is performed. -/
def Sys2Proof.Claim.RingTranslation : Prop :=
  ∀ (r : Ring) (s : State) (p : Packet) (i : Svu) (k : Fin 26) (m : MemReq) (ch : Chan),
    let c := p.w 0 / 2 ^ 48 % 256
    let scope := p.w 0 / 2 ^ 12 % 4
    let pages := p.w 3 % 2 ^ 48
    let held := fun t : State => (t.ring r.val).running = (s.ring r.val).running.map (fun x =>
      if x.seq = p.seq then { p with held := true, at0 := s.now } else x)
    let cut := fun (t : State) (keep : CacheEntry → Bool) =>
      (t.svu i.val).leaf = (s.svu i.val).leaf.filter keep ∧ (t.coreSt k.val).leaf = (s.coreSt k.val).leaf.filter keep
    (Has s r 0x40 p → p.w 1 % 4096 = 0 → p.w 1 < 2 ^ 52 → Next (.xlatCtxSet r) s (fun t =>
      t.rd (XLAT_CTX_ROOT_ROOT c) = p.w 1 / 4096 ∧ t.rd (XLAT_CTX_CFG_RING c) = scope
      ∧ t.rd (XLAT_CTX_CFG_REMOTE_OK c) = p.w 0 / 2 ^ 14 % 2 ∧ t.rd (XLAT_CTX_CFG_ENABLE c) = p.w 0 / 2 ^ 17 % 2
      ∧ cut t (fun e => e.ctx != c) ∧ held t ∧ t.mem = s.mem))
    ∧ (Has s r 0x41 p → (scope = 2 → p.w 1 % 4096 = 0 ∧ 0 < pages ∧ p.w 1 + 4096 * pages ≤ 2 ^ 57) → scope ≠ 3 →
      Next (.xlatInval r) s (fun t => held t ∧ t.mem = s.mem ∧ cut t (fun e =>
        if scope = 0 then false
        else if scope = 1 then e.ctx != c
        else !(e.ctx == c && decide (e.va * 2 ^ (12 + 9 * e.level) < p.w 1 + 4096 * pages)
          && decide (p.w 1 < (e.va + 1) * 2 ^ (12 + 9 * e.level))))))
    ∧ (s.begun r.val 0x41 = some p ∨ (s.begun r.val 0x41 = none ∧ s.begun r.val 0x40 = some p) →
      (s.chans.all (fun x => x.2.queue.isEmpty) = true → s.svus.all (fun x => x.2.bankQ.all (fun b => b.2.isEmpty)) = true → s.freqs = [] →
        s.chains = [] → s.cores.all (fun x => x.2.stores.isEmpty) = true → s.sup.held = [] →
        exec (.xlatInvalComplete r) s = .next (answer s r (ans p 0)))
      ∧ (m ∈ (s.chan ch.val).queue → m.src = none → m.arrived ≤ p.at0 → exec (.xlatInvalComplete r) s = .next s))

/-- R414: COPY and FILL take a free channel of the command engine, whose transfer begins with the command's addresses and length. -/
def Sys2Proof.Claim.RingMoves : Prop :=
  ∀ (r : Ring) (s : State) (p : Packet) (c : Nat),
    let n := p.w 4 % 2 ^ 48
    let begun := fun (t : State) (src dst : Nat) (fill : Nat) =>
      t.rd (BMV_CMD_STATE c) = 1 ∧ t.rd (BMV_ACT_SRC_ADDR c) = src ∧ t.rd (BMV_ACT_DST_ADDR c) = dst ∧ t.rd (BMV_ACT_XFER_LEN c) = n
      ∧ t.rd (BMV_ACT_XFER_MODE c) = fill ∧ (t.bmvCh c).cmd = some (r.val, p.seq) ∧ (t.bmvCh c).ctx = p.w 0 / 2 ^ 48 % 256
      ∧ (t.ring r.val).running = (s.ring r.val).running.map (fun x => if x.seq = p.seq then { x with held := true } else x) ∧ t.mem = s.mem
    (List.range 32).find? (fun c => s.rd (BMV_OWN_OWNER c) == 2 && s.rd (BMV_CMD_STATE c) == 0) = some c →
    p.w 1 < 2 ^ 57 → p.w 3 < 2 ^ 64 → n ≠ 0 →
    (Has s r 0x30 p → p.w 3 < 2 ^ 57 → p.w 1 + n ≤ p.w 3 ∨ p.w 3 + n ≤ p.w 1 → Next (.copy r) s (fun t => begun t (p.w 1) (p.w 3) 0))
    ∧ (Has s r 0x31 p → n % 8 = 0 → p.w 1 % 8 = 0 → Next (.fill r) s (fun t => begun t (p.w 3) (p.w 1) 1))
    ∧ (Has s r 0x30 p → p.w 1 < p.w 3 + n → p.w 3 < p.w 1 + n → exec (.copy r) s = .next (answer s r (ans p 0x11)))

/-- R196, R197: an ACC_MERGE of two images reads its list and the images in list order and writes the image of both; images of two
kinds or types are refused, and nothing is written. -/
def Sys2Proof.Claim.RingMerge : Prop :=
  ∀ (r : Ring) (s : State) (p : Packet) (a b : Nat) (im im' bs : List Byte) (x y : Acc) (u1 u2 u3 u4 : State),
    let ctx := p.w 0 / 2 ^ 48 % 256
    let w : Walker := { agent := agentRing r.val, ctx := ctx, ring := s.rd (XLAT_CTX_CFG_RING ctx), acc := .read, who := some ringRequester }
    let rest := fun u : State => u.rbufClear w.agent
    Has s r 0x13 p → p.ref = [] → p.merged = none → p.at0 = 0 → p.w 0 / 2 ^ 12 % 4 = 1 → p.w 3 % 2 ^ 11 = 2 → p.w 4 % 64 = 0 →
    a % 64 = 0 → b % 64 = 0 → a < 2 ^ 64 → b < 2 ^ 64 → im.length = 640 → im'.length = 640 →
    s.vaRead w ringRequester (p.w 1) 16 = (u1, .bytes (leBytes 8 a ++ leBytes 8 b)) →
    (rest u1).vaRead w ringRequester a 640 = (u2, .bytes im) → (rest u2).vaRead w ringRequester b 640 = (u3, .bytes im') →
    accOfBytes im = some x → accOfBytes im' = some y →
    (x.kind = y.kind → x.itype = y.itype → (x.merge y).overflows = false →
      (rest u3).vaWrite { w with acc := .write } ringRequester (p.w 4) (x.merge y).bytes = (u4, .bytes bs) →
      Next (.accMerge r) s (fun t => Answered u4 t r (ans p 0) ∧ t.mem = u4.mem ∧ t.regs = u4.regs))
    ∧ (x.kind ≠ y.kind ∨ x.itype ≠ y.itype →
      Next (.accMerge r) s (fun t => Answered u3 t r (ans p 0x11) ∧ t.mem = u3.mem))

/-- R427, R502, R598: a partition gets its slices and map, which the rings of its mask then run on; a route entry is set, and new
requests to its node wait for those outstanding; a LOG_READ copies the records held of its range and answers their number. -/
def Sys2Proof.Claim.RingTables : Prop :=
  ∀ (r : Ring) (s : State) (p : Packet) (q : Ring),
    let k := p.w 0 / 2 ^ 16 % 16
    let n := p.w 0 / 2 ^ 32 % 128
    let map := (List.range 96).map (fun j => p.w (3 + j / 8) / 2 ^ (8 * (j % 8)) % 256)
    let node := p.w 0 / 2 ^ 12 % 2 ^ 10
    let count := p.w 4 % 2 ^ 17
    let recs := s.tlog.filter (fun x => decide ((x.seq + 2 ^ 32 - p.w 3 % 2 ^ 32) % 2 ^ 32 < count))
    (Has s r 0x90 p → 0 < n → n ≤ 96 → (map.take n).all (fun x => decide (x < 96)) = true → (map.take n).dedup = map.take n →
        (map.drop n).all (fun x => x == 0) = true → p.w 1 / 2 ^ q.val % 2 = 1 →
      Next (.partition r) s (fun t =>
        t.rd (CMDR_PART_INFO_S k) = n ∧ t.rd (CMDR_CFG_PART q.val) = k ∧ t.partMap q.val = map.take n ∧ Answered s t r (ans p 0)
        ∧ t.mem = s.mem))
    ∧ (Has s r 0x80 p → routeOk (p.w 1) (p.w 3) = true → Next (.fabricRouteSet r) s (fun t =>
        t.reg (JFAB_ROUTE_PRI node) = BitVec.ofNat 64 (p.w 1) ∧ t.reg (JFAB_ROUTE_ALT node) = BitVec.ofNat 64 (p.w 3)
        ∧ Answered s t r (ans p 0) ∧ (let tags := (s.freqs.filter (fun f => f.2.node == node && s.routeHeld.all (fun m => m.tag != f.1))).map (·.1)
          t.routeOld = if tags = [] then s.routeOld else tabPut s.routeOld node tags) ∧ t.mem = s.mem))
    ∧ (Has s r 0xa0 p → p.at0 = 0 → p.w 0 / 2 ^ 12 % 2 = 0 → p.w 1 % 32 = 0 → 0 < count → count ≤ 8192 →
        (p.w 0 / 2 ^ 16 % 2 = 1 → s.busMaster = true → Next (.logRead r) s (fun t =>
          t.out = s.out ++ recs.zipIdx.map (fun x => .hostWrite (p.w 1 + 32 * x.2) x.1.bytes)
          ∧ Answered s t r { ans p 0 with reply0 := recs.length } ∧ t.mem = s.mem ∧ t.regs = s.regs))
        ∧ (p.w 0 / 2 ^ 16 % 2 = 0 → recs.length = 1 → Plain s (gaOff (p.w 1)) 32 → gaNode (p.w 1) = s.node → p.w 1 < 2 ^ 52 →
            memWf s.mem = true → s.rd (MEMC_INJECT_ARM (channelOf (gaOff (p.w 1)))) = 0 → NoneWaits s (agentRing r.val) →
          Next (.logRead r) s (fun t => t.peek (gaOff (p.w 1)) 32 = recs.flatMap FltRec.bytes
            ∧ Answered s t r { ans p 0 with reply0 := 1 } ∧ Outside s t (gaOff (p.w 1)) 32)))

namespace Sys2Proof.Claim
open Sys2Proof.Machine Sys2Proof.Machine.Reg

/-- A doorbell of the ring is heard: the host's for a ring of its own, ring 0 firmware's for any (R406). -/
def Heard (s : State) (via : Doorbell) (r : Ring) (lane : Nat) : Prop :=
  match via with
  | .bar4 => s.hostUp = true ∧ s.rd (CMDR_CFG_OWNER r.val) = 0
  | .cmdr m => s.fw0 m = true ∧ s.regBlocked m (CMDR_DB r.val + lane) 4 = none ∧ s.lockedFor m (CMDR_DB r.val) = false
      ∧ (m = .host → s.hostUp = true) ∧ s.mxc = []

/-- How far count `a` lies ahead of count `b` (R402). -/
abbrev ahead (a b : Nat) : Nat := (a + 2 ^ 32 - b) % 2 ^ 32

end Sys2Proof.Claim

/-- R404, R405: a valid TAIL is taken and queued with the doorbells heard, one that would overfill the ring or step back sets DB_ERR
and is dropped; a valid CQ_HEAD is taken, one past what was posted is dropped so. -/
def Sys2Proof.Claim.RingDoorbells : Prop :=
  ∀ (via : Doorbell) (r : Ring) (v : BitVec 32) (s : State),
    let head := s.rd (CMDR_PTR_HEAD r.val)
    let tail := s.rd (CMDR_PTR_TAIL r.val)
    let posted := s.rd (CMDR_CQ_PTR_POSTED r.val)
    let cq := s.rd (CMDR_CQ_PTR_CQ_HEAD r.val)
    Quiet s (496 + r.val) →
    (Heard s via r 0 → v.toNat = tail → exec (.doorbellTail via r v) s = .next (match via with
        | .bar4 => s
        | .cmdr m => s.mxcGrant m (CMDR_DB r.val)))
    ∧ (Heard s via r 0 → v.toNat ≠ tail → Next (.doorbellTail via r v) s (fun t =>
        (if ahead v.toNat head ≤ 2 ^ s.rd (CMDR_CFG_LOG2 r.val) ∧ ahead tail head ≤ ahead v.toNat head then
          t.rd (CMDR_PTR_TAIL r.val) = v.toNat ∧ t.bells = s.bells ++ [(r.val, v.toNat)] ∧ t.rd (CMDR_CTL_DB_ERR r.val) = s.rd (CMDR_CTL_DB_ERR r.val)
         else t.rd (CMDR_PTR_TAIL r.val) = tail ∧ t.bells = s.bells ∧ t.rd (CMDR_CTL_DB_ERR r.val) = 1)
        ∧ t.rd (CMDR_PTR_HEAD r.val) = head ∧ t.rings = s.rings ∧ t.mem = s.mem))
    ∧ (Heard s via r 4 → Next (.doorbellCqHead via r v) s (fun t =>
        (if ahead posted v.toNat ≤ ahead posted cq then
          t.rd (CMDR_CQ_PTR_CQ_HEAD r.val) = v.toNat ∧ t.rd (CMDR_CTL_DB_ERR r.val) = s.rd (CMDR_CTL_DB_ERR r.val)
         else t.rd (CMDR_CQ_PTR_CQ_HEAD r.val) = cq ∧ t.rd (CMDR_CTL_DB_ERR r.val) = 1)
        ∧ t.rd (CMDR_CQ_PTR_POSTED r.val) = posted ∧ t.rings = s.rings ∧ t.mem = s.mem))

/-- R423, R424, R426: ENABLE starts a disabled ring whose configuration is valid, RESTART a halted one; RESET of a running or halted
ring ends every command not yet started with ABORTED and leaves the ring in RESETTING until its completions are posted. -/
def Sys2Proof.Claim.RingStates : Prop :=
  ∀ (r : Ring) (m : Master) (s : State) (p : Packet),
    let w := fun n : Nat => whole m (BitVec.ofNat 64 n)
    let st := s.rd (CMDR_CTL_STATE r.val)
    s.fwOrHost m = true → Reaches s (w 0) (CMDR_CTL r.val) → Quiet s 637 →
    (st = 0 → Next (.ringEnable r (w 1)) s (fun t =>
      t.rd (CMDR_CTL_STATE r.val) = (if s.ringCfgOk r.val then 1 else 0) ∧ t.rings = s.rings ∧ t.mem = s.mem))
    ∧ (st ≠ 0 → Next (.ringEnable r (w 1)) s (fun t => t.rd (CMDR_CTL_STATE r.val) = st ∧ t.rings = s.rings ∧ t.mem = s.mem))
    ∧ Next (.ringRestart r (w 2)) s (fun t => t.rd (CMDR_CTL_STATE r.val) = (if st = 2 then 1 else st) ∧ t.rings = s.rings ∧ t.mem = s.mem
        ∧ RegsBut s t (CMDR_CTL r.val) (CMDR_CTL r.val + 8))
    ∧ (st = 1 ∨ st = 2 → s.chains = [] → (s.ring r.val).running.all (fun x => x.cmd != 2) = true → s.rd LCS_UPDATE_OPEN = 0 →
        (List.range 4).all (fun i => s.rd (LCS_SESSION_ACTIVE i) == 0) = true → p ∈ (s.ring r.val).read →
      Next (.ringReset r (w 4)) s (fun t =>
        t.rd (CMDR_CTL_STATE r.val) = 3 ∧ (t.ring r.val).read = [] ∧ (t.ring r.val).running = (s.ring r.val).running
        ∧ (t.ring r.val).done = (s.ring r.val).done ++ (s.ring r.val).read.map (fun x => ans x 2)
        ∧ (p.seq, p.fin) ∈ (t.ring r.val).order ∧ t.mem = s.mem))

/-- R409, R425, R420, R433: a packet at HEAD is read whole, from module or host memory, with the next SEQ, and HEAD passes it; a failing
read halts the ring; the one ring that is ready has its next command started, or answered at once where its packet is refused. -/
def Sys2Proof.Claim.RingPackets : Prop :=
  ∀ (r : Ring) (s : State) (bs : List Byte) (st : Nat) (p : Packet) (rest : List Packet),
    let head := s.rd (CMDR_PTR_HEAD r.val)
    let seq := s.rd (CMDR_CTL_SEQ r.val)
    let ga := s.rd (CMDR_BASE_BASE r.val) + 64 * (head % 2 ^ s.rd (CMDR_CFG_LOG2 r.val))
    let words := fun b : List Byte => (List.range 8).map (fun k => leNat ((b.drop (8 * k)).take 8))
    let got := fun (t : State) (b : List Byte) =>
      (t.ring r.val).read = (s.ring r.val).read ++ [{ words := words b, seq := seq, fin := (head + 1) % 2 ^ 32 }]
      ∧ t.rd (CMDR_PTR_HEAD r.val) = (head + 1) % 2 ^ 32 ∧ t.rd (CMDR_CTL_SEQ r.val) = (seq + 1) % 2 ^ 32 ∧ t.mem = s.mem
    let one := fun b : List Byte => b.length = 64 ∧ leNat b / 2 ^ 8 % 16 ∉ [2, 3, 4, 5, 6] ∧ leNat b % 2 ^ 8 ≠ 0x11
    let q := s.ring r.val
    (s.mayRead r.val = true → s.readTurn r.val = true → s.rd (CMDR_CFG_SPACE r.val) = 1 → one bs →
      Next (.packetRead r (.ok bs)) s (fun t => got t bs ∧ .hostRead ga 64 ∈ t.out))
    ∧ (s.mayRead r.val = true → s.readTurn r.val = true → s.rd (CMDR_CFG_SPACE r.val) = 0 → s.rd (CMDR_CFG_LOG2 r.val) ≤ 16 → gaNode ga = s.node → ga < 2 ^ 52 →
        Plain s (gaOff ga) 64 → NoneWaits s (agentRing r.val) → one (s.peek (gaOff ga) 64) → Next (.packetRead r (.ok [])) s (fun t => got t (s.peek (gaOff ga) 64)))
    ∧ (s.mayRead r.val = true → s.readTurn r.val = true → s.rd (CMDR_CFG_SPACE r.val) = 1 → Quiet s (496 + r.val) →
      Next (.packetRead r (.fail st)) s (fun t =>
        t.rd (CMDR_CTL_STATE r.val) = 2 ∧ t.rd (CMDR_CTL_READ_ERR r.val) = 1 ∧ t.rings = s.rings ∧ t.rd (CMDR_PTR_HEAD r.val) = head))
    ∧ (s.readyRings = [r.val] → s.rd PWR_STATE_STATE = 0 → q.read = p :: rest → p.needsI = false →
      (let p' := { p with err := s.packetCheck r.val p }
       if s.packetCheck r.val p = 0 then
        (p.cmd ≠ 0x10 → p.cmd ≠ 0x11 → Next .dispatchDecision s (fun t => t.decisions = s.decisions + 1 ∧ t.mem = s.mem
          ∧ t.ring r.val = { q with read := rest, running := q.running ++ [p'], order := q.order ++ [(p.seq, p.fin)] }))
       else (q.running.all (fun x => x.seq != p.seq) = true → Next .dispatchDecision s (fun t => t.decisions = s.decisions + 1 ∧ t.mem = s.mem
          ∧ t.ring r.val = { q with read := rest, order := q.order ++ [(p.seq, p.fin)], done := q.done ++ [ans p (s.packetCheck r.val p)] }))))

/-- R213, R214, R418 to R421: the first command of the ring that is over has its entry written to host memory, its first word last; the
ring halts on a failing status; the message of the entries posted leaves when its time is over. -/
def Sys2Proof.Claim.RingCompletions : Prop :=
  ∀ (r : Ring) (s : State) (x : Result) (fin t0 : Nat) (rest : List (Nat × Nat)),
    let n := s.rd (CMDR_CQ_PTR_POSTED r.val)
    let log := s.rd (CMDR_CQ_CFG_LOG2 r.val)
    let ga := s.rd (CMDR_CQ_BASE_BASE r.val) + 64 * (n % 2 ^ log)
    let w0 := (1 - n / 2 ^ log % 2) * 2 ^ 63 + (if 2 ≤ s.rd VERIF_SUP_MODE then 2 ^ 62 else 0) + x.status * 2 ^ 48 + x.cmd * 2 ^ 40
      + x.flags * 2 ^ 32 + x.seq % 2 ^ 32
    let more := [x.tag, x.index, s.rd (CMDR_PTR_HEAD r.val), x.reply0, x.reply1, x.reply2, 0]
    let v := s.rd (CMDR_CQ_CFG_VECTOR r.val)
    (s.chains = [] → s.rd (CMDR_CTL_STATE r.val) = 1 → s.life.resetDue = none → s.rd (CMDR_CQ_CFG_SPACE r.val) = 1 → s.busMaster = true →
        (s.ring r.val).order = (x.seq, fin) :: rest → (s.ring r.val).done.find? (fun y => y.seq == x.seq) = some x →
        (s.ring r.val).hostReset = false → log ≤ 16 → s.cqOcc r.val < 2 ^ log →
      Next (.completionPost r true) s (fun t =>
        s.out ++ [.hostWrite (ga + 8) (more.flatMap (leBytes 8)), .hostWrite ga (leBytes 8 w0)] <+: t.out
        ∧ t.rd (CMDR_CQ_PTR_POSTED r.val) = (n + 1) % 2 ^ 32 ∧ (t.ring r.val).order = rest
        ∧ (t.ring r.val).done = (s.ring r.val).done.filter (fun y => y.seq != x.seq)
        ∧ t.rd (CMDR_CTL_STATE r.val) = (if x.status = 0 ∨ x.status = 0x27 then 1 else 2) ∧ t.mem = s.mem))
    ∧ ((s.ring r.val).coalTime = some t0 → s.rd (CMDR_CQ_CFG_MSI_EN r.val) = 1 → s.msixOn = true → s.msixMasked v = false →
      Next (.completionMsi r) s (fun t =>
        t.out = s.out ++ [.msix v (s.reg (HIF_MSIX_ADDR v)) (BitVec.ofNat 64 (s.rd (HIF_MSIX_DATA_DATA v)))]
        ∧ (t.ring r.val).coalCount = 0 ∧ (t.ring r.val).coalTime = none ∧ t.now = max s.now (t0 + 1000 * s.rd (CMDR_CQ_CFG_COAL_TIME r.val))
        ∧ t.mem = s.mem))

/-! Mailboxes, buffers and the block mover. -/

/-- R444 to R448, R450: doorbells and words reach a ready side, and are dropped with SEND_OVF at one that is not ready or whose queue
is full; a word is received once, oldest first, and an empty queue gives 0; a new doorbell bit that the mask enables makes the
line of an F side pending. -/
def Obligations.Mailboxes : Prop :=
  ∀ (b : Mbx) (side : Bool) (m : Master) (s : State) (v : Word) (q : List Word) (ready : Fin 2),
    let d := if side then 1 else 0
    let e := 1 - d
    let w : RegWrite := whole m v
    let up := s.rd (MBX_STAT_READY b.val e) = 1
    let old := s.rd (MBX_DB_IN_DB b.val e)
    s.mbxAgent b.val d m = true → Quiet s (560 + b.val) →
    (Reaches s w (MBX_DB_OUT b.val d) → Next (.mbxDoorbell b side w) s (fun t =>
      (if up then t.rd (MBX_DB_IN_DB b.val e) = old ||| v.toNat % 2 ^ 31 ∧ t.rd (MBX_STAT_SEND_OVF b.val d) = s.rd (MBX_STAT_SEND_OVF b.val d)
       else t.rd (MBX_DB_IN_DB b.val e) = old ∧ t.rd (MBX_STAT_SEND_OVF b.val d) = 1)
      ∧ (up → e = 0 → (s.side b.val 0).armed = false → (old ||| v.toNat % 2 ^ 31) &&& s.rd (MBX_DB_MASK_MASK b.val 0) ≠ 0 →
          s.supFenced 0 = false → (t.task (24 + s.rd (MBX_IRQ_CORE b.val 0)) (s.rd (MBX_IRQ_TASK b.val 0))).pend =
            (s.task (24 + s.rd (MBX_IRQ_CORE b.val 0)) (s.rd (MBX_IRQ_TASK b.val 0))).pend ||| 2 ^ s.rd (MBX_IRQ_LINE b.val 0))
      ∧ (t.side b.val e).queue = (s.side b.val e).queue ∧ t.side b.val d = s.side b.val d ∧ t.mem = s.mem))
    ∧ (Reaches s w (MBX_SEND b.val d) → Next (.mbxSend b side w) s (fun t =>
      (if up ∧ (s.side b.val e).queue.length < 16 then
        (t.side b.val e).queue = (s.side b.val e).queue ++ [v] ∧ t.rd (MBX_STAT_SEND_OVF b.val d) = s.rd (MBX_STAT_SEND_OVF b.val d)
       else t.side b.val e = s.side b.val e ∧ t.rd (MBX_STAT_SEND_OVF b.val d) = 1)
      ∧ t.side b.val d = s.side b.val d ∧ t.mem = s.mem))
    ∧ (Reaches s w (MBX_RECV b.val d) →
      ((s.side b.val d).queue = v :: q → Next (.mbxRecv b side m 8) s (fun t =>
        (t.side b.val d).queue = q ∧ .coreValue m v 0 ∈ t.out ∧ t.side b.val e = s.side b.val e
        ∧ t.rd (MBX_STAT_RECV_EMPTY b.val d) = s.rd (MBX_STAT_RECV_EMPTY b.val d) ∧ t.mem = s.mem))
      ∧ ((s.side b.val d).queue = [] → Next (.mbxRecv b side m 8) s (fun t =>
        t.out = s.out ++ [.coreValue m 0 0] ∧ t.rd (MBX_STAT_RECV_EMPTY b.val d) = 1 ∧ t.mbx = s.mbx ∧ t.mem = s.mem)))
    ∧ (Reaches s w (MBX_STAT b.val d) → v.toNat = ready.val * 2 ^ 63 → Next (.mbxReady b side w) s (fun t =>
        t.rd (MBX_STAT_READY b.val d) = ready.val ∧ t.mbx = s.mbx ∧ RegsBut s t (MBX_STAT b.val d) (MBX_STAT b.val d + 8) ∧ t.mem = s.mem))

/-- R453 to R455, R459, R466: an armed shadow set that passes its checks starts on an idle channel, one that fails ends at once, and one
behind a transfer waits; an abort ends a transfer with nothing in flight as ABORTED; a transfer whose bytes are all written ends
with its length, and raises its line; a pool that is enabled lists all its buffers. -/
def Sys2Proof.Claim.BlockMoverControl : Prop :=
  ∀ (ch : BmvCh) (p : Pool) (m : Master) (s : State) (count : Nat),
    let c := ch.val
    let arm := whole m 1
    let src := s.rd (BMV_SH_SRC_ADDR c)
    let dst := s.rd (BMV_SH_DST_ADDR c)
    let xfer := s.reg (BMV_SH_XFER c)
    let len := xfer.toNat % 2 ^ 48
    let ended := fun (t : State) (st i : Nat) => t.rd (BMV_CMD_STATE c) = 0 ∧ t.rd (BMV_STAT_DONE c) = 1
      ∧ t.rd (BMV_STAT_STATUS c) = st ∧ t.rd (BMV_STAT_INDEX c) = i ∧ t.mem = s.mem
    let mine := s.rd (BMV_OWN_OWNER c) = 0 ∧ s.fw0 m = true ∧ Reaches s arm (BMV_CMD c)
    let rest := (s.bmvCh c).bursts = [] ∧ (s.bmvCh c).fail = none ∧ s.rd (BMV_CMD_STATE c) = 1
    -- COPY between module addresses
    (mine → s.rd (BMV_CMD_STATE c) = 0 → xfer.toNat / 2 ^ 56 % 2 ^ 5 = 0 → xfer.toNat / 2 ^ 48 % 2 ^ 4 = 0 → Quiet s 636 →
      Next (.bmvArm ch arm) s (fun t =>
        (if len ≠ 0 ∧ 6 ≤ xfer.toNat / 2 ^ 52 % 16 ∧ xfer.toNat / 2 ^ 52 % 16 ≤ 12 ∧ src < 2 ^ 52 ∧ dst < 2 ^ 52
            ∧ (src + len ≤ dst ∨ dst + len ≤ src) then
          t.rd (BMV_CMD_STATE c) = 1 ∧ t.reg (BMV_ACT_SRC c) = s.reg (BMV_SH_SRC c) ∧ t.reg (BMV_ACT_DST c) = s.reg (BMV_SH_DST c)
          ∧ t.reg (BMV_ACT_XFER c) = xfer ∧ t.rd (BMV_PROG_WRITTEN c) = 0 ∧ t.mem = s.mem
         else ended t (if len = 0 ∨ xfer.toNat / 2 ^ 52 % 16 < 6 ∨ 12 < xfer.toNat / 2 ^ 52 % 16 then 0x11
          else if 2 ^ 52 ≤ src ∨ 2 ^ 52 ≤ dst then 0x23 else 0x11) 0)
        ∧ t.rd (BMV_CMD_ARMED c) = 0))
    ∧ (mine → s.rd (BMV_CMD_STATE c) = 1 → Next (.bmvArm ch arm) s (fun t =>
        t.rd (BMV_CMD_ARMED c) = 1 ∧ t.rd (BMV_CMD_STATE c) = 1 ∧ t.bmv = s.bmv ∧ RegsBut s t (BMV_CMD c) (BMV_CMD c + 8) ∧ t.mem = s.mem))
    ∧ (mine → rest → s.rd (BMV_ACT_XFER_IRQ c) = 0 → Next (.bmvAbort ch (whole m 2)) s (fun t =>
        ended t 2 (s.rd (BMV_PROG_WRITTEN c)) ∧ t.rd (BMV_CMD_ARMED c) = 0 ∧ t.bmvCh c = {}))
    ∧ (rest → (s.bmvCh c).aborting = false → s.rd (BMV_ACT_XFER_LEN c) ≤ (s.bmvCh c).nextOff → s.rd (BMV_CMD_ARMED c) = 0 →
        s.rd (BMV_OWN_OWNER c) = 0 → s.supFenced 0 = false → Next (.transferEnd ch) s (fun t =>
          ended t 0 (s.rd (BMV_ACT_XFER_LEN c)) ∧ (s.rd (BMV_ACT_XFER_IRQ c) = 1 → (t.task 24 (s.rd (BMV_OWN_TASK c))).pend =
            (s.task 24 (s.rd (BMV_OWN_TASK c))).pend ||| 2 ^ s.rd (BMV_OWN_LINE c))))
    ∧ (s.fw0 m = true → Reaches s arm (BMV_POOL_CFG p.val) → s.rd (BMV_POOL_CFG_ENABLE p.val) = 0 → 1 ≤ count → count ≤ 2 ^ 18 →
        Next (.poolEnable p (whole m (BitVec.ofNat 64 (2 ^ 63 + 12 * 2 ^ 48 + count)))) s (fun t =>
          t.rd (BMV_POOL_CFG_ENABLE p.val) = 1 ∧ t.rd (BMV_POOL_CFG_COUNT p.val) = count ∧ (t.pool p.val).free = List.range count
          ∧ (t.pool p.val).owner = [] ∧ (t.pool p.val).gen = [] ∧ t.rd (BMV_POOL_STAT_FREE p.val) = count ∧ t.mem = s.mem))

/-- R456 to R458, R461: the one channel that waits gets its burst, up to the next multiple of the burst size at the destination; a
burst of one word that is read and has none before it is written, and nothing else is. -/
def Sys2Proof.Claim.BlockMoverBursts : Prop :=
  ∀ (ch : BmvCh) (s : State) (base : Nat) (waited : Nat),
    let c := ch.val
    let x := s.bmvCh c
    let k := 2 ^ s.rd (BMV_ACT_XFER_BURST c)
    let e := min (s.rd (BMV_ACT_XFER_LEN c)) (((s.rd (BMV_ACT_DST_ADDR c) + x.nextOff) / k + 1) * k - s.rd (BMV_ACT_DST_ADDR c))
    let src := s.rd (BMV_ACT_SRC_ADDR c) + base
    let dst := s.rd (BMV_ACT_DST_ADDR c) + base
    ((List.range 32).filter s.bmvWaits = [c] → s.bmvFlight < 64 → s.rd (BMV_ACT_XFER_SRC_HOST c) = 0 →
      Next .burstGrant s (fun t =>
        t.bmvCh c = { x with bursts := x.bursts ++ [{ base := x.nextOff, len := e - x.nextOff }], nextOff := e, waited := s.now }
        ∧ t.bmvGrants = s.bmvGrants + 1 ∧ t.regs = s.regs ∧ t.mem = s.mem ∧ t.out = s.out))
    ∧ (x.bursts = [{ base := base, len := 64 }] → x.fail = none → x.waited = waited → s.rd (BMV_OWN_OWNER c) ≠ 2 →
        s.rd (BMV_ACT_XFER_MODE c) = 0 → s.rd (BMV_ACT_XFER_SRC_HOST c) = 0 → s.rd (BMV_ACT_XFER_DST_HOST c) = 0 → src < 2 ^ 52 → dst < 2 ^ 52 →
        gaNode src = s.node → gaNode dst = s.node → Plain s (gaOff src) 64 → Plain s (gaOff dst) 64 → memWf s.mem = true →
        NoneWaits s (agentBmv c) → NoneWaits s (agentBmv c + 100) → base + 64 < 2 ^ 48 → s.rd (MEMC_INJECT_ARM (channelOf (gaOff dst))) = 0 →
      Next (.burstReadComplete ch (.ok [])) s (fun t =>
        t.peek (gaOff dst) 64 = s.peek (gaOff src) 64 ∧ Outside s t (gaOff dst) 64 ∧ t.rd (BMV_PROG_WRITTEN c) = base + 64
        ∧ (t.bmvCh c).bursts = [] ∧ (t.bmvCh c).fail = none))

/-! Roles, the life cycle, firmware update, acknowledgements and unit resets. -/
namespace Sys2Proof.Claim
open Sys2Proof.Machine Sys2Proof.Machine.Reg

/-- No session lasts. -/
abbrev NoSessions (s : State) : Prop := (List.range 4).all (fun i => s.rd (LCS_SESSION_ACTIVE i) == 0) = true

/-- Session `i` is the only one, held on ring `r` with a role of at least 1 (R621). -/
abbrev Holds (s : State) (i : Fin 4) (r : Nat) (role : Nat) : Prop :=
  s.reg (LCS_SESSION i.val) = BitVec.ofNat 64 (2 ^ 63 + role * 2 ^ 61 + r * 2 ^ 54 + s.rd (LCS_SESSION_ID i.val))
  ∧ (List.range 4).all (fun j => j == i.val || s.rd (LCS_SESSION_ACTIVE j) == 0) = true

end Sys2Proof.Claim

/-- R621 to R624: a challenge is delivered to host memory and is current for ten seconds; its answer opens a session in the first free
slot where the signature verifies, and counts a failure where it does not; CLOSE, the idle limit, the challenge's age and the
minute of a locked path end what they end. -/
def Sys2Proof.Claim.Sessions : Prop :=
  ∀ (r : Ring) (s : State) (p : Packet) (i : Fin 4) (role sid at0 block : Nat) (sig : List Byte),
    let host := p.w 0 / 2 ^ 16 % 2 = 1 ∧ s.busMaster = true
    let step := p.w 0 / 2 ^ 14 % 4
    let path := r.val
    let none' := s.started r.val 0xb0 = some p ∧ p.held = false ∧ role ≤ 2 ∧ p.w 0 / 2 ^ 12 % 4 = role ∧ (role < 2 → s.life.keysErased = false)
      ∧ (role = 2 → s.rd LCS_STATE_STATE = 0 ∨ s.rd LCS_STATE_STATE = 3)
      ∧ NoSessions s ∧ tabFind s.life.locked path = none
    let good := Config.ecdsaVerify (Config.publicKey (1 + role)) (Config.sha384 (leBytes 64 block)) (beNat sig) = true
    (none' → host → step = 0 → p.w 3 % 2 ^ 16 = 64 → Next (.roleAuth r (.ok [])) s (fun t =>
        (tabFind t.life.challenges path).any (fun c => decide (c = (role, s.life.nextSession, s.now, c.2.2.2)
          ∧ t.out = s.out ++ [.hostWrite (p.w 1) (leBytes 64 c.2.2.2)])) = true
        ∧ Answered s t r { ans p 0 with reply0 := s.life.nextSession } ∧ t.regs = s.regs ∧ t.mem = s.mem))
    ∧ (none' → host → step = 1 → p.w 3 % 2 ^ 16 = 96 → tabFind s.life.challenges path = some (role, sid, at0, block) →
        s.now < at0 + 10000000000 → sig.length = 96 → sid < 2 ^ 32 →
      Next (.roleAuth r (.ok sig)) s (fun t =>
        tabFind t.life.challenges path = none ∧ t.mem = s.mem
        ∧ (good → Holds t 0 path role ∧ t.rd (LCS_SESSION_ID 0) = sid ∧ tabFind t.life.failures path = none
            ∧ Answered s t r { ans p 0 with reply0 := sid })
        ∧ (¬ good → NoSessions t ∧ Answered s t r (ans p 0x13)
            ∧ (if tabGet s.life.failures 0 path = 7 then tabFind t.life.locked path = some (s.now + 60000000000)
               else tabGet t.life.failures 0 path = tabGet s.life.failures 0 path + 1))))
    ∧ (s.started r.val 0xb0 = some p → p.held = false → step = 2 → p.w 0 / 2 ^ 12 % 4 = role → role ≤ 2 → Holds s i path role →
        s.rd LCS_UPDATE_OPEN = 0 → Next (.roleAuth r (.ok [])) s (fun t => NoSessions t ∧ Answered s t r (ans p 0) ∧ t.mem = s.mem))
    ∧ (Holds s i path role → role ≤ 2 → s.rd LCS_UPDATE_OPEN = 0 → Next (.sessionIdleExpiry i.val) s (fun t =>
        NoSessions t ∧ t.now = max s.now (tabGet s.life.used s.now i.val + s.rd LCS_CFG_IDLE * 1000000000) ∧ t.mem = s.mem))
    ∧ (s.life.challenges = [(path, role, sid, at0, block)] → Next .challengeExpiry s (fun t =>
        t.life.challenges = [] ∧ t.now = max s.now (at0 + 10000000000) ∧ t.mem = s.mem))
    ∧ (s.life.locked = [(path, at0)] → Next (.pathUnlock path) s (fun t => t.life.locked = [] ∧ t.now = max s.now at0 ∧ t.mem = s.mem))

/-- R614, R615: a LIFECYCLE that a row of R614 lists, from a ring with its role while no other ring works, burns the new state, takes
one of the transitions left, and asks for the module reset that follows its completion; role keys are erased on the way to RETURNED
and stand again from PROVISIONED on by the model's choice (log 29). -/
def Sys2Proof.Claim.LifeCycle : Prop :=
  ∀ (r : Ring) (s : State) (p : Packet) (i : Fin 4) (new : Fin 8),
    Has s r 0xb1 p → p.w 0 / 2 ^ 12 % 8 = new.val →
    (List.range 64).all (fun q => q == r.val || (s.ring q).running.isEmpty) = true → s.rd LCS_UPDATE_OPEN = 0 → 0 < s.rd LCS_STATE_LEFT →
    (((s.rd LCS_STATE_STATE, new.val) ∈ [(1, 2), (2, 1), (1, 3)] ∧ s.rd (CMDR_CFG_OWNER r.val) = 1 ∧ NoSessions s)
      ∨ ((s.rd LCS_STATE_STATE, new.val) ∈ [(1, 2), (2, 1), (1, 3), (0, 1), (3, 1), (3, 4)] ∧ Holds s i r.val 2) →
      Next (.lifecycle r) s (fun t =>
        t.rd LCS_STATE_STATE = new.val ∧ t.rd LCS_STATE_LEFT = s.rd LCS_STATE_LEFT - 1 ∧ t.life.resetDue = some r.val
        ∧ t.life.keysErased = (new != 1 && (s.life.keysErased || new == 3)) ∧ (new = 4 → t.flash = s.flash.filter (fun x => decide (0x18000000 ≤ x.1)))
        ∧ (new ≠ 4 → t.flash = s.flash) ∧ Answered s t r (ans p 0) ∧ t.mem = s.mem))
    ∧ ((s.rd LCS_STATE_STATE, new.val) ∉ [(1, 2), (2, 1), (1, 3), (0, 1), (3, 1), (3, 4)] →
      exec (.lifecycle r) s = .next (answer s r (ans p 0x11)))

/-- R618 to R620: OPEN erases the range of the other bank, WRITE moves bytes into it, CHECK verifies it, ACTIVATE boots it next on trial, in
this order alone; CONFIRM of a ready trial image ends the trial and raises the least version that may boot. -/
def Sys2Proof.Claim.FirmwareUpdate : Prop :=
  ∀ (r : Ring) (s : State) (p : Packet) (m : Master) (c o : Nat),
    let n := p.w 3 % 2 ^ 32
    let bank := 1 - s.rd LCS_FW_RUN_BANK
    let base := if bank = 0 then 0 else 0x0c000000
    let mine := s.rd LCS_UPDATE_OPEN = 1 ∧ s.rd LCS_UPDATE_RING = r.val ∧ s.life.updSession = 0
    s.rd (CMDR_CFG_OWNER r.val) = 1 → NoSessions s →
    (Has s r 0xc0 p → s.rd LCS_UPDATE_OPEN = 0 → n ≤ 0x0c000000 → Next (.fwUpdateOpen r) s (fun t =>
        t.rd LCS_UPDATE_OPEN = 1 ∧ t.rd LCS_UPDATE_STAGE = 1 ∧ t.rd LCS_UPDATE_RING = r.val ∧ t.rd LCS_UPDATE_WRITTEN = 0
        ∧ t.rd LCS_UPDATE_RESULT = 0 ∧ t.life.flashOpen = some (base, n) ∧ (base ≤ o → o < base + n → t.flashByte o = Config.flashErased)
        ∧ (o < base ∨ base + n ≤ o → t.flashByte o = s.flashByte o) ∧ Answered s t r (ans p 0) ∧ t.mem = s.mem))
    ∧ (Has s r 0xc1 p → mine → s.rd LCS_UPDATE_STAGE = 1 ∨ s.rd LCS_UPDATE_STAGE = 2 → s.life.flashOpen = some (base, c) → 0 < n →
        n + s.rd LCS_UPDATE_WRITTEN ≤ c → p.w 0 / 2 ^ 16 % 2 = 1 → p.w 1 < 2 ^ 64 → c ≤ 0x0c000000 →
        (List.range 32).find? (fun k => s.rd (BMV_OWN_OWNER k) == 2 && s.rd (BMV_CMD_STATE k) == 0) = some o →
        s.begun r.val 0xc1 = none → Next (.fwUpdateWrite r) s (fun t =>
          t.rd (BMV_CMD_STATE o) = 1 ∧ t.rd (BMV_ACT_XFER_SRC_HOST o) = 1 ∧ t.rd (BMV_ACT_SRC_ADDR o) = p.w 1 ∧ t.rd (BMV_ACT_XFER_LEN o) = n
          ∧ t.rd (BMV_ACT_DST_ADDR o) = gaOf s.node (0x38000000000 + base + s.rd LCS_UPDATE_WRITTEN)
          ∧ (t.bmvCh o).cmd = some (r.val, p.seq) ∧ t.mem = s.mem))
    ∧ (s.begun r.val 0xc1 = some p → p.at1 = 1 → s.rd LCS_UPDATE_OPEN = 1 → s.rd LCS_UPDATE_WRITTEN + p.at0 < 2 ^ 32 →
        Next (.fwUpdateWrite r) s (fun t => t.rd LCS_UPDATE_WRITTEN = s.rd LCS_UPDATE_WRITTEN + p.at0 ∧ t.rd LCS_UPDATE_STAGE = 2
          ∧ Answered s t r { ans p 0 with reply0 := s.rd LCS_UPDATE_WRITTEN + p.at0 } ∧ t.mem = s.mem))
    ∧ (Has s r 0xc2 p → mine → s.rd LCS_UPDATE_STAGE = 2 → Next (.fwUpdateCheck r) s (fun t =>
        (s.checkImage bank = true → t.rd LCS_UPDATE_STAGE = 3 ∧ t.rd LCS_UPDATE_RESULT = 0
          ∧ Answered s t r { ans p 0 with reply0 := leNat (s.flashBytes (base + 0x10) 4) })
        ∧ (s.checkImage bank = false → t.rd LCS_UPDATE_STAGE = 2 ∧ t.rd LCS_UPDATE_RESULT = 0x11 ∧ Answered s t r (ans p 0x11))
        ∧ t.flash = s.flash ∧ t.mem = s.mem))
    ∧ (Has s r 0xc3 p → mine → s.rd LCS_UPDATE_STAGE = 3 → Next (.fwUpdateActivate r) s (fun t =>
        t.rd LCS_FW_BOOT_BANK = bank ∧ t.rd LCS_FW_TRIAL = 1 ∧ t.rd LCS_FW_TRIES = 0 ∧ t.rd LCS_UPDATE_OPEN = 0 ∧ t.rd LCS_UPDATE_STAGE = 4
        ∧ Answered s t r (ans p 0) ∧ t.flash = s.flash ∧ t.mem = s.mem))
    ∧ (Has s r 0xc3 p → mine → s.rd LCS_UPDATE_STAGE ≠ 3 → Next (.fwUpdateActivate r) s (fun t =>
        t.rd LCS_FW_BOOT_BANK = s.rd LCS_FW_BOOT_BANK ∧ t.rd LCS_UPDATE_OPEN = 1 ∧ Answered s t r (ans p 0x11) ∧ t.mem = s.mem))
    ∧ (s.fw0 m = true → Reaches s (whole m 0) LCS_FW → s.rd LCS_FW_TRIAL = 1 → s.rd LCS_BOOT_READY = 1 →
        Next (.fwConfirm (whole m (BitVec.ofNat 64 (2 ^ LCS_FW_CONFIRM.lo)))) s (fun t =>
          t.rd LCS_FW_TRIAL = 0 ∧ t.rd LCS_FW_TRIES = 0 ∧ t.rd LCS_FW_MIN_SVN = max (s.rd LCS_FW_MIN_SVN) (s.rd LCS_FW_SVN)
          ∧ t.rd LCS_FW_BOOT_BANK = s.rd LCS_FW_BOOT_BANK ∧ t.mem = s.mem))

/-- R572 to R574, R589: a unit reset of an SVU without work drains at once, resets it, and answers; one that does not drain in 40 µs is
forced; a pending source of the class that the sender may acknowledge is pending no more; a draining port ends DOWN. -/
def Obligations.UnitResets : Prop :=
  ∀ (r : Ring) (s : State) (p : Packet) (i : Svu) (port : Port) (u : UnitReset) (x : FltRec) (t0 src : Nat),
    let busy := s.chains = [] ∧ (s.svu i.val).queue = []
    let unit : UnitReset := { ring := r.val, seq := p.seq, kind := 0, inst := i.val, forced := false, began := s.now }
    (Has s r 0xd0 p → p.w 0 / 2 ^ 12 % 16 = 0 → p.w 1 % 2 ^ 8 = i.val → busy → s.svuFenced i.val = false → s.domainOn (i.val / 4) = true →
        s.unitResets = [] → Next (.resetUnit r) s (fun t =>
          t.unitResets = [unit] ∧ (t.svu i.val).draining = true ∧ (t.ring r.val).running =
            (s.ring r.val).running.map (fun q => if q.seq = p.seq then { p with held := true } else q)
          ∧ t.rd RST_UNIT_STAT_ESCALATED = 0 ∧ t.mem = s.mem))
    ∧ (Has s r 0xd0 p → p.w 0 / 2 ^ 12 % 8 = 0 → p.w 1 % 2 ^ 8 = i.val → s.svuFenced i.val = true → Next (.resetUnit r) s (fun t =>
          t.rd RST_UNIT_STAT_STATUS = 0x41 ∧ Answered s t r (ans p 0x41) ∧ t.svus = s.svus ∧ t.mem = s.mem))
    ∧ (busy → s.unitResets = [u] → u.kind = 0 → u.inst = i.val → u.drained = false → Next .drainDone s (fun t =>
          t.unitResets = [{ u with drained := true }] ∧ (t.svu i.val).leaf = [] ∧ (t.svu i.val).table = [] ∧ (t.svu i.val).ctxs = []
          ∧ t.regs = s.regs ∧ t.mem = s.mem))
    ∧ (s.unitResets = [u] → u.kind = 0 → u.inst = i.val → u.drained = false → s.unitDrained u = false → (s.svu i.val).queue = [] →
        Alive s 633 → Next .drainTimeout s (fun t =>
          t.rd RST_UNIT_STAT_ESCALATED = 1 ∧ t.now = max s.now (u.began + 40000) ∧ (t.svu i.val).ctxs = [] ∧ t.mem = s.mem
          ∧ t.unitResets = [{ u with drained := true }]))
    ∧ (s.unitResets = [u] → u.kind = 0 → u.inst = i.val → u.drained = true → u.ring = r.val → u.seq = p.seq →
        (s.ring r.val).running.find? (fun q => q.seq == p.seq) = some p → Next .unitResetDone s (fun t =>
          t.unitResets = [] ∧ (t.svu i.val).draining = false ∧ t.rd RST_UNIT_STAT_STATUS = 0 ∧ t.rd RST_UNIT_STAT_INSTANCE = i.val
          ∧ t.rd RST_UNIT_STAT_COUNT = min (s.rd RST_UNIT_STAT_COUNT + 1) (2 ^ 32 - 1)
          ∧ Answered s t r { ans p 0 with index := u.stopped } ∧ t.mem = s.mem))
    ∧ ((s.port port.val).draining = some t0 → Alive s (348 + port.val) → s.portFenced port.val = false → Next (.portDrainExpiry port) s (fun t =>
          t.rd (JP_STAT_STATE port.val) = 4 ∧ (t.port port.val).draining = none ∧ t.now = max s.now t0 ∧ t.mem = s.mem))
    ∧ (Has s r 0xe0 p → p.w 1 % 2 ^ 10 = src → src < 640 → tabFind s.srcTimer src = some (t0, x) → x.seq ≤ p.w 3 % 2 ^ 32 →
        p.w 3 % 2 ^ 32 < x.seq + 2 ^ 31 →
        (s.rd (FLT_SRC_PENDING src) = (if s.rd (CMDR_CFG_OWNER r.val) = 1 then 1 else 2) → Next (.faultAck r) s (fun t =>
          t.rd (FLT_SRC_PENDING src) = 0 ∧ tabFind t.srcTimer src = none ∧ Answered s t r (ans p 0) ∧ t.tlog = s.tlog ∧ t.mem = s.mem))
        ∧ (s.rd (FLT_SRC_PENDING src) = (if s.rd (CMDR_CFG_OWNER r.val) = 1 then 2 else 1) →
          exec (.faultAck r) s = .next (answer s r (ans p 0x13))))
/-! Chains, streams and LOFT operations. -/
namespace Sys2Proof.Claim
open Sys2Proof.Machine Sys2Proof.Machine.Reg

/-- The chain that a packet of a ring issues with a descriptor; `old` is the stop state it resumes (R92, R275 to R281). -/
abbrev issued (s : State) (r : Ring) (p : Packet) (d : List Nat) (old : Option StopState) : Chain :=
  { id := s.nextChain, issuer := .ring r.val p.seq, desc := d, ring := s.rd (XLAT_CTX_CFG_RING (dCtx d))
    start0 := old.elim (dStart d) (fun x => x.start0), start := dStart d, flags := old.elim 0 (fun x => x.flags)
    keptAccs := old.elim [] (fun x => x.accs), keptScans := old.elim [] (fun x => x.scans), resumed := old }

/-- The check of a descriptor against a ring's partition and its context (R110, R316). -/
abbrev checked (s : State) (r : Ring) (d : List Nat) : Option Nat := checkDesc d (s.partSlices r.val) (s.on (XLAT_CTX_CFG_ENABLE (dCtx d)))

/-- The result of a chain that ends before it runs. -/
abbrev early (p : Packet) (d : List Nat) (old : Option StopState) (st : Nat) : Result :=
  { ans p st with tag := dTag d, index := dStart d, flags := old.elim 0 (fun x => x.flags) }

/-- The ring with a chain's command held; the stop state it resumes is gone. -/
abbrev heldRing (s : State) (r : Ring) (p : Packet) (old : Option StopState) : RingState :=
  { s.ring r.val with
    running := (s.ring r.val).running.map (fun x => if x.seq = p.seq then { p with held := true } else x)
    stops := old.elim (s.ring r.val).stops (fun x => (s.ring r.val).stops.filter (fun y => y.seq != x.seq)) }

/-- A range of a chain on an SVU. -/
abbrev Holding (s : State) (i : Svu) (c : Chain) (l : Slice) : Prop :=
  s.chainOf c.id = some c ∧ c.sliceOn i.val = some l ∧ (c.slices.map (fun x => x.lsl)).Nodup

/-- The only chain of an SVU is `c`, which works on `l` there. -/
abbrev Alone (s : State) (i : Svu) (c : Chain) (l : Slice) : Prop :=
  Holding s i c l ∧ (s.svu i.val).ctxs.map (fun x => x.1) = [c.id] ∧ ((s.svu i.val).current = none ∨ (s.svu i.val).current = some c.id)

/-- The range of a chain by its logical slice. -/
abbrev rangeOf' (t : State) (id lsl : Nat) : Option Slice := (t.chainOf id).bind (fun c => c.slices.find? (fun l => l.lsl == lsl))


end Sys2Proof.Claim

/-- R92, R93, R110, R277 to R281, R316, R537: a chain whose descriptor the checks refuse ends with their status and START; one with
START equal to COUNT ends with OK; one that can never be granted is denied; else it joins the chains and waits for its lift, its
command still running. A CHAIN_RESUME does so from its stop state, or drops that state. -/
def Sys2Proof.Claim.ChainIssue : Prop :=
  ∀ (r : Ring) (s : State) (p : Packet) (st : Nat) (i : Instr) (d : List Nat) (old : Option StopState) (x : StopState),
    let c := issued s r p d old
    let k := p.w 1 % 2 ^ 32
    let stop := (s.ring r.val).stops.find? (fun y => y.seq == k)
    let d0 := x.desc.set 3 (x.desc.getD 3 0 / 2 ^ 48 * 2 ^ 48 + x.index % 2 ^ 48)
    ((i = .chain r ∧ Has s r 0x10 p ∧ d = p.words ∧ old = none)
      ∨ (i = .chainRef r ∧ Has s r 0x11 p ∧ p.w 1 % 64 = 0 ∧ d = p.ref ∧ old = none)
      ∨ (i = .chainResume r ∧ Has s r 0x12 p ∧ stop = some x ∧ p.w 0 / 2 ^ 12 % 2 = 0 ∧ old = some x
          ∧ d = (if p.w 0 / 2 ^ 13 % 2 = 1 then d0.set 0 (mergeBits (d0.getD 0 0) (p.w 0) 0x1f00000) else d0)) →
      (checked s r d = some st → exec i s = .next (answer s r (early p d old st)))
      ∧ (checked s r d = none → dStart d = dCount d →
        Next i s (fun t => (t.ring r.val).done = (s.ring r.val).done ++ [early p d old 0] ∧ t.chains = s.chains ∧ t.mem = s.mem ∧ t.regs = s.regs))
      ∧ (checked s r d = none → dStart d ≠ dCount d → s.denied c = false →
        Next i s (fun t => t.chains = s.chains ++ [c] ∧ t.nextChain = s.nextChain + 1 ∧ t.ring r.val = heldRing s r p old
          ∧ (∃ q ∈ t.power.waiting, q.chain = c.id ∧ q.since = s.now) ∧ t.mem = s.mem ∧ t.regs = s.regs))
      ∧ (checked s r d = none → dStart d ≠ dCount d → s.denied c = true → (s.ring r.val).running.find? (fun q => q.seq == p.seq) = some p →
        Next i s (fun t => (t.ring r.val).done = (s.ring r.val).done ++ [early p d old 0x50]
          ∧ t.chains = s.chains.filter (fun e => e.id != c.id) ∧ t.rd PWR_STAT_DENIED = min (s.rd PWR_STAT_DENIED + 1) (2 ^ 16 - 1)
          ∧ t.mem = s.mem)))
    ∧ (Has s r 0x11 p → p.w 1 % 64 ≠ 0 → exec (.chainRef r) s = .next (answer s r (ans p 0x11)))
    ∧ (Has s r 0x12 p → stop = none → exec (.chainResume r) s = .next (answer s r (ans p 0x11)))
    ∧ (Has s r 0x12 p → stop = some x → p.w 0 / 2 ^ 12 % 2 = 1 →
      Next (.chainResume r) s (fun t => (t.ring r.val).stops = (s.ring r.val).stops.filter (fun y => y.seq != x.seq)
        ∧ (t.ring r.val).done = (s.ring r.val).done ++ [ans p 0] ∧ t.chains = s.chains ∧ t.mem = s.mem ∧ t.regs = s.regs))

/-- R124 to R127, R210, R214, R215, R422, R428 to R431: a checked chain, the only one in progress, that its issuer's order lets
begin is divided among its slices, each range on the SVU of its logical slice where all of these serve and have room. A chain
behind an earlier one of its issuer that is not computed, or that stopped, waits; and so does a chain without RELAX whose ring does
not run, or an earlier chain command of whose ring has made no chain yet (log 24). -/
def Sys2Proof.Claim.ChainDispatch : Prop :=
  ∀ (s : State) (c e : Chain) (r n : Nat),
    let map := s.mapOf c.issuer
    let rs := rangesOf c.desc c.start map.length
    let free := ∀ q m, c.issuer = .ring q m → dRelax c.desc = true ∨ (s.ringState q = 1 ∧ (s.ring q).chainsMade m = true)
    (s.chains = [c] → c.phase = .checked → c.stop = none → free → (∀ j ∈ map, j < 96 ∧ s.serves j = true ∧ s.takes j c = true) →
      (∀ x ∈ rs, x.1 < map.length ∧ x.2.1 < x.2.2) → Next (.chainDispatch c.id) s (fun t =>
        (t.chains.map (fun x => (x.id, x.phase, x.map, x.slices.map (fun l => (l.lsl, l.svu, l.first, l.fin)))))
          = [(c.id, .running, map, rs.map (fun x => (x.1, map.getD x.1 96, x.2.1, x.2.2)))]
        ∧ (t.chains.all (fun x => x.slices.all (fun l => l.next == l.first && l.phase == .prefetch && l.verify == dVerify c.desc))) = true
        ∧ t.mem = s.mem ∧ t.regs = s.regs))
    ∧ (s.chainOf c.id = some c → c.phase = .checked → e ∈ s.chains → e.before c = true → e.computed = false ∨ e.stop ≠ none →
      exec (.chainDispatch c.id) s = .next s)
    ∧ (s.chainOf c.id = some c → c.phase = .checked → c.issuer = .ring r n → dRelax c.desc = false →
      s.ringState r ≠ 1 ∨ (s.ring r).chainsMade n = false → exec (.chainDispatch c.id) s = .next s)

/-- R534 to R541: the first waiting lift is granted when the committed power with it stays within the envelope, its pipes to start
6 us later at the least and its input ramp centred on that; else it waits. A ramp begins once its time has come, and ends once its
time has come; the last one to end lets a new slew limit take effect. A lift given back ramps the input down at once, half a ramp
before the load falls. -/
def Obligations.Lifts : Prop :=
  ∀ (s : State) (q : LiftReq) (rest : List LiftReq) (c : Chain) (x : Ramp) (i : Svu),
    let new := s.committedWith (s.grantedChains ++ [{ c with granted := true }]) s.level
    let dp := new - s.committed
    let ts := s.pipesFrom dp
    let tr := rampTime dp s.power.vin s.power.slew
    let down := s.svuLift s.grantedChains i.val s.level
    let fall := rampTime down s.power.vin s.power.slew
    (s.power.waiting = q :: rest → s.chainOf q.chain = some c →
      (new ≤ (s.envelope : Rat) → Next .liftGrant s (fun t =>
        t.chains = s.chains.map (fun y => if y.id = c.id then { y with granted := true } else y)
        ∧ t.power.waiting = (q :: rest).filter (fun y => y.chain != q.chain) ∧ t.power.granted = s.power.granted ++ [(c.id, q.since)]
        ∧ t.power.ramps = s.power.ramps
          ++ [{ chain := some c.id, start := max s.now (ts - tr / 2), pipes := ts, fin := max s.now (ts - tr / 2) + tr, dp := dp }]
        ∧ s.now + 6000 ≤ ts ∧ t.mem = s.mem ∧ t.regs = s.regs))
      ∧ ((s.envelope : Rat) < new → exec .liftGrant s = .next s))
    ∧ (s.power.ramps.filter (fun y => !y.begun) = [x] → x.start ≤ s.now → Next .inputRampStart s (fun t =>
        t.power.ramps = s.power.ramps.map (fun y => if y = x then { y with begun := true } else y) ∧ t.mem = s.mem ∧ t.regs = s.regs))
    ∧ (s.power.ramps.filter (fun y => y.begun) = [x] → x.fin ≤ s.now → Next .inputRampDone s (fun t =>
        t.power.ramps = s.power.ramps.filter (fun y => decide (y ≠ x))
        ∧ (t.power.ramps = [] → t.power.slew = s.rd PWR_LIMIT_SLEW) ∧ (t.power.ramps ≠ [] → t.power.slew = s.power.slew)
        ∧ t.mem = s.mem ∧ t.regs = s.regs))
    ∧ (0 < down → Next (.inputRampDown i) s (fun t =>
        t.power.ramps = s.power.ramps
          ++ [{ chain := none, start := s.now, pipes := s.now + fall / 2, fin := s.now + fall, begun := true, dp := -down }]
        ∧ t.power.waiting = s.power.waiting ∧ t.mem = s.mem ∧ t.regs = s.regs))

/-- R120, R217, R259 to R264: a strided input slot whose elements are used in index order, of the only chain of its SVU, reads the
aligned 64 bytes of its next element at the address in module memory that a cached leaf gives, for every element of the slot that
lies in them, or notes the read while an earlier chain's tether holds the granule; the release of the granule sends it. A walk
takes the entry of its level: a leaf enters the cache of 512 leaves, a table is descended into, a failure is counted and delivered
with the element. -/
def Sys2Proof.Claim.Streams : Prop :=
  ∀ (s u : State) (i : Svu) (k : Slot) (c : Chain) (l : Slice) (e : CacheEntry) (g : Nat) (y : Walk) (x : StopCause) (ga m : Nat),
    let d := c.desc
    let sd := slotD d k.val
    let w := s.walker c i.val .read
    let j := l.next
    let va := (sd.base : Int) + toSigned 32 sd.kspec * j
    let hi := (l.wants c k.val 1).2
    let es := unitElems sd 64 j hi 0
    let ask : MemReq := { op := .read (gaOff g / 64 * 64) 64, src := none, port := i.val, owner := false, arrived := s.now
                          who := some (Requester.stream i.val).code
                          sink := .spool c.id l.lsl k.val (g / 64 * 64) (va.toNat - g % 64) es }
    let went := fun t : State => (t.chan (channelOf (gaOff g))).queue = (s.chan (channelOf (gaOff g))).queue ++ [ask]
      ∧ (rangeOf' t c.id l.lsl).map (fun z => z.asked) = some (l.asked ++ es.map (fun z => (k.val, z.1))) ∧ t.mem = s.mem ∧ t.regs = s.regs
    let reads := sd.input = true ∧ sd.kind = kStrided ∧ (jumpSlots d).contains k.val = false ∧ l.fetchAt d k.val = j ∧ j < hi ∧ 0 ≤ va ∧ va < 2 ^ 57
      ∧ s.on (XLAT_CTX_CFG_ENABLE (dCtx d)) = true ∧ cacheHit (s.svu i.val).leaf (dCtx d) va.toNat = some e
      ∧ checkEntry e.level e.entry w.ring .read = .leaf ∧ g = leafGa e.entry va.toNat e.level ∧ gaNode g = s.node ∧ gaOff g < memTop
      ∧ s.blocked .streamRead (gaOff g) (max 1 (sd.bits / 8)) = none ∧ s.host.dir = []
    (Alone s i c l → l.stop = none → (s.svu i.val).testing = none → reads →
      (s.tethered c.id (g / 256) = false → Next (.spoolPrefetch i k) s went)
      ∧ (s.tethered c.id (g / 256) = true → (i.val, k.val, g / 256, c.id) ∉ s.heldReads →
        exec (.spoolPrefetch i k) s = .next { s with heldReads := s.heldReads ++ [(i.val, k.val, g / 256, c.id)] }))
    ∧ (Alone s i c l → reads → s.heldReads = [(i.val, k.val, g / 256, c.id)] → s.tethered c.id (g / 256) = false →
      Next (.tetherRelease (g / 256)) s (fun t => went t ∧ t.heldReads = []))
    ∧ (s.heldReads = [(i.val, k.val, m, c.id)] → s.tethered c.id m = true → exec (.tetherRelease m) s = .next s)
    ∧ ((s.svu i.val).walks = [y] → y.slot = k.val → s.chainOf y.chain = some c → (u.svu i.val).walks = [y] →
      (s.walkLevel w y.va y.level y.table = (u, .leaf e) → Next (.tableWalkRead i k []) s (fun t =>
        (t.svu i.val).walks = [] ∧ (t.svu i.val).leaf = cachePut (u.svu i.val).leaf 512 e ∧ t.mem = u.mem ∧ t.regs = u.regs))
      ∧ (s.walkLevel w y.va y.level y.table = (u, .table ga e) → Next (.tableWalkRead i k []) s (fun t =>
        (t.svu i.val).walks = [{ y with level := y.level - 1, table := ga, path := y.path ++ [e] }] ∧ t.mem = u.mem ∧ t.regs = u.regs))
      ∧ (s.walkLevel w y.va y.level y.table = (u, .fail x) → u.chainOf c.id = some c → y.lsl = l.lsl →
          c.slices.find? (fun z => z.lsl == l.lsl) = some l → Next (.tableWalkRead i k []) s (fun t =>
        (t.svu i.val).walks = [] ∧ t.mem = u.mem
        ∧ t.rd XLAT_WALK_FAULTS_FAULTS = min (u.rd XLAT_WALK_FAULTS_FAULTS + 1) (2 ^ 64 - 1)
        ∧ (rangeOf' t c.id l.lsl).map (fun z => z.inp) = some (l.inp ++
          [{ slot := k.val, elem := y.elem, fail := some { x with slot := k.val } }]))))

/-- R122, R217, R226: an output slot of the only range in progress writes the elements of its next granule that its spool releases,
where these lie in module memory and are below the clear index, no tether holds the granule and no refusal meets them: one request,
not provisional, waits at the granule's channel; they leave the spool, and fly until the channel has performed them. -/
def Sys2Proof.Claim.SpoolWrites : Prop :=
  ∀ (s : State) (i : Svu) (k : Slot) (c : Chain) (l : Slice) (o : OutEl),
    let os := s.nextWrite i.val c l k.val
    let g := o.ga c.desc s.node i.val
    let cs := os.flatMap (fun x => x.contribs c.desc s.node i.val)
    s.chains = [c] → c.slices = [l] → l.svu = i.val → os.head? = some o → (∀ x ∈ os, x.elem < c.clear) → s.tethered c.id (g / 256) = false →
    gaNode g = s.node → gaOff g < memTop → (∀ x ∈ cs, x.word / 256 = gaOff g / 256) → cs ≠ [] → s.host.dir = [] → s.heldReads = [] →
    (∀ x ∈ os, s.blocked .streamWrite (gaOff (x.ga c.desc s.node i.val)) 1 = none) →
    Next (.spoolWriteIssue i k) s (fun t =>
      (t.chan (channelOf (gaOff g / 256 * 256))).queue = (s.chan (channelOf (gaOff g / 256 * 256))).queue
        ++ [{ op := .write (contribWrites cs), src := none, port := i.val, owner := (slotD c.desc k.val).kind == kScratch
              arrived := s.now, prov := false, who := some (Requester.stream i.val).code, sink := .chainWrite c.id cs }]
      ∧ t.chains = [{ c with slices := [{ l with outs := l.outs.filter (fun x => !os.contains x) }], flying := c.flying ++ cs }]
      ∧ t.mem = s.mem ∧ t.regs = s.regs)

/-- R114, R129, R135, R433, R435, R679: on an SVU that holds one chain, the pipes of a range without LOFT slots start once its lift is
carried and its first group has come. A group of one element whose inputs have come and which waits for nothing gives its outputs,
and its range goes on to the next or has ended; or it stops its chain at the element that failed. An SP_SWAP of this module's
scratchpads goes to its bank once its element is not above the clear index, and waits until then. At a block's end the SVU begins
the next block of the chain that the rule of R433 chooses. -/
def Obligations.Compute : Prop :=
  ∀ (s : State) (i : Svu) (c : Chain) (l : Slice) (outs : List OutEl) (q : StopCause) (n g : Nat),
    let e := l.env c l.next none
    let goes := s.power.stalled = false ∧ l.phase = .run ∧ l.pass2 = none ∧ (s.svu i.val).testing = none ∧ l.stop = none ∧ l.next < l.top c
      ∧ s.blockGoesOn i.val l = true ∧ s.spoolRoom i.val c l = true ∧ s.lifted c = true
      ∧ (slotsOf c.desc).all (fun k => (slotD c.desc k).kind != kScratch && (slotD c.desc k).kind != kLoft) = true
      ∧ l.groupReady c = true ∧ min (l.groupEnd c.desc) (l.top c) = l.next + 1 ∧ l.verify = false
    let a := e.operands n e.x
    let swap : MemReq := { op := .atom (gaOff g) (if (nodeD c.desc n).it.bits = 32 then 2 else 3) a.b.bits 0, src := none, port := i.val
                           arrived := s.now, who := some (Requester.stream i.val).code, sink := .atom c.id l.lsl e.x n a.a.bits g }
    let may := ((s.svu i.val).ctxs.filterMap (fun y => s.chainOf y.1)).filter (fun c =>
      s.lifted c && (c.sliceOn i.val).any (fun l => l.stop.isNone && decide (l.next < l.fin)))
    let begun := fun t : State => (t.svu i.val).current = some c.id ∧ (t.svu i.val).blockEnd = l.blockOf c l.next ∧ t.mem = s.mem ∧ t.regs = s.regs
    (Alone s i c l → s.startable i.val c l = true → l.firstGroup c = true → hasLoft c.desc = false → Next (.pipesStart i) s (fun t =>
      begun t ∧ (rangeOf' t c.id l.lsl).map (fun z => (z.phase, z.next, z.base, z.outs, z.accs, z.scans))
        = some (.run, l.next, l.base, l.outs, l.accs, l.scans)))
    ∧ (Alone s i c l → goes → s.elemStep i.val c l e = (s, .done outs []) → Next (.groupCompute i .good) s (fun t =>
      (rangeOf' t c.id l.lsl).map (fun z => (z.next, z.outs, z.phase, z.accs, z.scans))
        = some (l.next + 1, l.outs.filter (fun o => (slotD c.desc o.slot).kind != kLoft) ++ outs.filter (fun o => (slotD c.desc o.slot).kind != kLoft),
            if l.fin ≤ l.next + 1 then .drain else .run, e.feed l.accs, e.advance)
      ∧ t.mem = s.mem))
    ∧ (Alone s i c l → goes → s.elemStep i.val c l e = (s, .stop q) → c.stop = none → Next (.groupCompute i .good) s (fun t =>
      (t.chainOf c.id).map (fun z => (z.stop, z.phase)) = some (some (l.next, q), .stopping)
      ∧ (rangeOf' t c.id l.lsl).map (fun z => (z.next, z.stop, z.phase, z.flags))
        = some (l.next, some (l.next, q), .stopped, addFlags l.flags (e.stopFlags q) l.next)
      ∧ t.mem = s.mem))
    ∧ (Alone s i c l → l.atomWait = some (l.next, n, 0) → nodesOf c.desc = [n] → (nodeD c.desc n).op = 0xB01 → e.nodeCause n = none →
        a.atomOff = false → s.atomGa i.val c n (nodeD c.desc n).it.bits a.a.bits = (s, .ga g) → tabFind l.atomRes (l.next * 16 + n) = none →
        gaNode g = s.node → memTop ≤ gaOff g →
      (l.next ≤ c.clear → Next (.spSwapWait i) s (fun t =>
        tabGet (t.svu (spSvu (gaOff g))).bankQ [] (spBankOf ((gaOff g - scratchBase) % 2 ^ 22))
          = tabGet (s.svu (spSvu (gaOff g))).bankQ [] (spBankOf ((gaOff g - scratchBase) % 2 ^ 22)) ++ [swap]
        ∧ (rangeOf' t c.id l.lsl).map (fun z => z.atomWait) = some (some (l.next, n, 1))
        ∧ (t.chainOf c.id).map (fun z => z.atomFlying) = some (c.atomFlying ++ [(l.next, n, g)]) ∧ t.mem = s.mem))
      ∧ (c.clear < l.next → exec (.spSwapWait i) s = .next s))
    ∧ (Holding s i c l → s.atBoundary i.val = true →
        (decide433 (s.svu i.val).blkTurn (s.svu i.val).blkCredit (may.map (fun z => (z.id, s.shareOf z)))).1 = some c.id →
      Next (.blockSwitch i) s (fun t => begun t ∧ (t.svu i.val).blkTurn = (s.svu i.val).blkTurn + 1
        ∧ (rangeOf' t c.id l.lsl).map (fun z => (z.phase, z.next, z.base, z.outs)) = some (l.phase, l.next, l.base, l.outs)))

/-- R315, R318, R319, R332: two passes of a verified window of an SVU's only chain, whose signatures agree, release it: the outputs
that pass 2 held in complement are to be written, the next window begins, or the chain stops where the passes stopped; a first
mismatch is counted and recorded, writes nothing, and starts the SVU's test. -/
def Sys2Proof.Claim.VerifiedWindows : Prop :=
  ∀ (s : State) (i : Svu) (c : Chain) (l : Slice) (p q : PassRes) (f : Nat) (x : StopCause),
    (Alone s i c l → l.pass1 = some p → l.pass2 = some q → (s.svu i.val).testing = none →
      (p.sig = q.sig → q.stop = none → hasLoft c.desc = false → Next (.windowCompare i) s (fun t =>
        t.rd VERIF_WINDOWS_RELEASED = min (s.rd VERIF_WINDOWS_RELEASED + 1) (2 ^ 64 - 1)
        ∧ (rangeOf' t c.id l.lsl).map (fun z => (z.base, z.next, z.pass1, z.pass2, z.retried)) = some (l.next, l.next, none, none, false)
        ∧ (rangeOf' t c.id l.lsl).map (fun z => (z.outs, z.phase)) = some (l.outs ++ (q.outs.map (OutEl.flip c.desc)).filter (fun o => (slotD c.desc o.slot).kind != kLoft),
            if l.fin ≤ l.next then .drain else l.phase) ∧ t.mem = s.mem))
      ∧ (p.sig = q.sig → q.stop = some (f, x) → c.stop = none → l.stop = none → Next (.windowCompare i) s (fun t =>
        (t.chainOf c.id).map (fun z => (z.stop, z.phase)) = some (some (f, x), .stopping)
        ∧ (rangeOf' t c.id l.lsl).map (fun z => (z.stop, z.phase)) = some (some (f, x), .stopped) ∧ t.mem = s.mem))
      ∧ (p.sig ≠ q.sig → Quiet s (srcVerifyMismatch + i.val / 4) → First s (srcVerifyMismatch + i.val / 4) → l.retried = false →
        Next (.windowCompare i) s (fun t =>
          t.rd VERIF_MISMATCH_MISMATCH = min (s.rd VERIF_MISMATCH_MISMATCH + 1) (2 ^ 32 - 1)
          ∧ (t.svu i.val).testing = some (c.id, l.lsl, 0) ∧ t.chains = s.chains ∧ t.mem = s.mem)))

/-- R320, R333: a test after a first mismatch that passes has the window computed again, and one that fails fences its SVU; after the
mismatch of a window computed again already, a test that passes stops the chain at the window's first element with
ST_VERIFY_FAILED. The outcome latches when none is held. -/
def Sys2Proof.Claim.SelfTests : Prop :=
  ∀ (s : State) (i : Svu) (c : Chain) (l : Slice) (n : Nat) (pass : Bool),
    (Holding s i c l → (s.svu i.val).testing = some (c.id, l.lsl, n) → s.svuFenced i.val = false → s.rd VERIF_LAST_INFO_VALID = 0 →
      l.svu = i.val → c.stop = none → l.stop = none → (∀ r m, c.issuer = .ring r m → r < 64) →
      (pass = true → n = 0 → Next (.svuSelfTestDone i pass) s (fun t =>
        (t.svu i.val).testing = none ∧ t.rd VERIF_LAST_INFO_VALID = 1 ∧ t.rd VERIF_LAST_INFO_OUTCOME = 1 ∧ t.rd VERIF_LAST_INFO_SVU = i.val
        ∧ t.rd VERIF_LAST_INDEX_INDEX = l.base % 2 ^ 48 ∧ t.svuFenced i.val = false
        ∧ (rangeOf' t c.id l.lsl).map (fun z => (z.next, z.base, z.pass1, z.pass2, z.retried)) = some (l.base, l.base, none, none, true)
        ∧ t.mem = s.mem))
      ∧ (pass = false → n = 0 → Alive s (srcSvuBist + i.val / 4) → Kept s (srcSvuBist + i.val / 4) →
        First s (srcSvuBist + i.val / 4) → Next (.svuSelfTestDone i pass) s (fun t =>
        (t.svu i.val).testing = none ∧ t.rd VERIF_LAST_INFO_OUTCOME = 2 ∧ t.svuFenced i.val = true ∧ t.mem = s.mem))
      ∧ (pass = true → n = 1 → Next (.svuSelfTestDone i pass) s (fun t =>
        (t.chainOf c.id).map (fun z => (z.stop, z.phase)) = some (some (l.base, { status := 0x28 }), .stopping)
        ∧ t.rd VERIF_LAST_INFO_OUTCOME = 3 ∧ t.mem = s.mem)))

/-- R109, R128, R129, R195, R224, R230, R272, R273, R282, R680: a range that has drained is done and leaves its SVU. A ring's chain
whose ranges are all done, and which reduces nothing, ends with OK, or VERIFY_RETRIED; a reduction slot's value goes to the channel
that its address names; a chain whose reduction writes are over ends with the first one's failure at COUNT. A ring's chain that
stopped, every write of which is over, ends at its stop index: a word that a higher element wrote takes its old bits, nothing else
of storage changes, its stop is latched, and its stop state is kept where the status allows a resume. -/
def Obligations.ChainEnds : Prop :=
  ∀ (s u : State) (i : Svu) (c : Chain) (l : Slice) (r : Ring) (p : Packet) (f k g : Nat) (x : StopCause) (o : TailRec) (w : Contrib),
    let e := c.slices.flatMap (fun z => z.flags)
    let all := c.flags ||| e.foldl (fun a z => a ||| z.1) 0
    let kept := c.flags ||| (e.filter (fun z => z.2 ≤ f)).foldl (fun a z => a ||| z.1) 0
    let sd := slotD c.desc k
    let n := sd.et.size
    let red := extract (tabGet c.accs (emptyOf (nodeD c.desc sd.src)) sd.src) (nodeD c.desc sd.src).ot (nodeRm c.desc (nodeD c.desc sd.src))
    let ours := s.chainOf c.id = some c ∧ c.issuer = .ring r.val p.seq ∧ (s.ring r.val).running.find? (fun z => z.seq == p.seq) = some p
    let fits := x.status < 256 ∧ x.slot < 16 ∧ x.node < 16 ∧ p.seq < 2 ^ 32 ∧ x.va < 2 ^ 57 ∧ x.level < 8 ∧ x.cause < 16 ∧ f < 2 ^ 48
    let latches := Quiet s (srcXlatStop + r.val) ∧ First s (srcXlatStop + r.val) ∧ s.rd (XLAT_STOP_INFO_VALID r.val) = 0
    let stops := ours ∧ c.stop = some (f, x) ∧ c.settledBelow f = true ∧ (c.phase = .stopping ∨ c.phase = .running) ∧ c.torn = none
      ∧ (∀ z ∈ c.slices, z.outs = []) ∧ c.atoms = [] ∧ c.undo = none ∧ c.undoLeft = 0 ∧ c.loftOlds = [] ∧ s.host.dir = []
      ∧ latches ∧ fits ∧ x.ga = noGa
    let ended := fun t : State => t.chains = s.chains.filter (fun z => z.id != c.id)
      ∧ (t.ring r.val).done = (s.ring r.val).done ++ [{ ans p x.status with tag := dTag c.desc, flags := kept, index := f }]
      ∧ ((t.ring r.val).stops.map (fun z => (z.seq, z.desc, z.start0, z.index)))
        = (s.ring r.val).stops.map (fun z => (z.seq, z.desc, z.start0, z.index)) ++ (if resumable x.status then [(p.seq, c.desc, c.start0, f)] else [])
      ∧ t.rd (XLAT_STOP_INFO_VALID r.val) = 1 ∧ t.rd (XLAT_STOP_INFO_STATUS r.val) = x.status ∧ t.rd (XLAT_STOP_INFO_CTX r.val) = dCtx c.desc
      ∧ t.rd (XLAT_STOP_INFO_SEQ r.val) = p.seq ∧ t.rd (XLAT_STOP_VA_VA r.val) = x.va ∧ t.rd (XLAT_STOP_INDEX_INDEX r.val) = f
      ∧ t.rd (XLAT_STOP_TAG_TAG r.val) = dTag c.desc % 2 ^ 64
    (s.chains = [c] → c.slices.find? (fun z => z.svu == i.val && z.phase == .drain && z.outs.isEmpty) = some l →
        (c.slices.map (fun z => z.lsl)).Nodup → Next (.sliceEnd i) s (fun t =>
      (rangeOf' t c.id l.lsl) = some { l with phase := .done }
      ∧ (t.svu i.val).ctxs = (if c.slices.any (fun z => z.lsl != l.lsl && z.svu == i.val && z.phase != .done) then (s.svu i.val).ctxs
          else (s.svu i.val).ctxs.filter (fun y => y.1 != c.id)) ∧ t.mem = s.mem ∧ t.regs = s.regs))
    ∧ (ours → c.slicesDone = true → s.reducePlaces c = [] → c.redLeft = [] → c.xstop = none →
      Next (.reductionWrite c.id) s (fun t => t.chains = s.chains.filter (fun z => z.id != c.id)
        ∧ (t.ring r.val).done = (s.ring r.val).done
          ++ [{ ans p (if c.retried then 0x27 else 0) with tag := dTag c.desc, index := dCount c.desc, flags := all }]
        ∧ t.mem = s.mem))
    ∧ (ours → c.finished = true → c.xstop = some x → latches → Next (.reductionWrite c.id) s (fun t =>
        t.chains = s.chains.filter (fun z => z.id != c.id)
        ∧ (t.ring r.val).done = (s.ring r.val).done ++ [{ ans p x.status with tag := dTag c.desc, index := dCount c.desc, flags := all }]
        ∧ t.mem = s.mem))
    ∧ (s.chainOf c.id = some c → c.phase = .reducing → c.stop = none → c.redTodo = [k] → k < 12 → sd.kind = kStrided → n ∈ [1, 2, 4, 8, 16] →
        sd.base % n = 0 → sd.base < 2 ^ 57 → s.reduceGas c sd.base n = (u, .ga 0, [(g, sd.base)]) →
        gaNode g = u.node → gaOff g < memTop → gaOff g % n = 0 → u.host.dir = [] →
      Next (.reductionWrite c.id) s (fun t =>
        (t.chan (channelOf (gaOff g))).queue.map (fun z => (z.op, z.sink)) = (u.chan (channelOf (gaOff g))).queue.map (fun z => (z.op, z.sink))
          ++ [(.write (wordWrites (gaOff g) (leBytes n red.1) false), .chainEnd c.id (64 * k) sd.base g)]
        ∧ (t.chainOf c.id).map (fun z => (z.redTodo, z.redLeft)) = (u.chainOf c.id).map (fun _ => ([], c.redLeft ++ [64 * k])) ∧ t.mem = u.mem))
    ∧ (stops → c.wrote = [] → Next (.chainStop c.id) s (fun t => ended t ∧ t.mem = s.mem))
    ∧ (stops → c.wrote = [w] → w.node = s.node → f ≤ w.elem → w.word < memTop → w.word % 64 = 0 → c.olds = [o] → o.word = w.word →
        w.shown < 2 ^ 512 → memWf s.mem = true → Next (.chainStop c.id) s (fun t =>
      ended t ∧ t.wordBits w.word = mergeBits (s.wordBits w.word) o.old w.shown ∧ Outside s t w.word 64))

/-- R30, R31, R186, R302, R303, R306, R307, R310: a bank performs the request that waits at it: a read answers the bytes, a write of a
word stores it, an addition is one step. Storage that cannot answer fails the request. Where an owner's and another's wait, the
owner's goes first in three slots of four. A bank with an overdue line grants nothing. A scrubbed line with one bad bit is repaired;
a cleared array holds zero, and so does a cleared register file, whose grouping is GROUP 0. -/
def Obligations.ScratchBanks : Prop :=
  ∀ (s : State) (i : Svu) (k : Cluster) (b o n v id line sym st : Nat) (us : List Upset) (r r2 : MemReq) (bs : List Byte),
    let q := tabGet (s.svu i.val).bankQ [] (b % 16)
    let left := fun t : State => tabGet (t.svu i.val).bankQ [] (b % 16)
    let quiet := s.bankOverdue i.val (b % 16) = false
    let here := quiet ∧ r.off = o ∧ rangeOf o = .scratch i.val ∧ s.storageOut o = none ∧ (∀ w ∈ wordsIn o n, s.damage w = {})
    let told := fun (t : State) (st : Nat) (bs : List Byte) =>
      t.rbuf = s.rbuf.map (fun z => if z.id = id then { z with res := some { status := st, bytes := bs } } else z)
    let records := Quiet s srcAccessRefused ∧ First s srcAccessRefused
    let base := scratchBase + 2 ^ 22 * i.val + 16 * (line % 262144)
    (q = [r] → here → r.op = .read o n → 0 < n → r.sink = .buffer id →
      Next (.scratchBankAccess i b []) s (fun t => left t = [] ∧ told t 0 (s.peek o n) ∧ t.mem = s.mem
        ∧ t.rd (SVU_SP_WAIT_FOREIGN i.val) = (if r.owner then s.rd (SVU_SP_WAIT_FOREIGN i.val) else min (s.rd (SVU_SP_WAIT_FOREIGN i.val) + 1) (2 ^ 32 - 1))))
    ∧ (q = [r] → quiet → r.off = o → rangeOf o = .scratch i.val → s.storageOut o = some st → records → r.sink = .buffer id →
      Next (.scratchBankAccess i b us) s (fun t => left t = [] ∧ told t st [] ∧ t.mem = s.mem))
    ∧ (q = [r] → here → memWf s.mem = true → n = 8 → o % 8 = 0 → bs.length = 8 → r.op = .write (wordWrites o bs false) → r.sink = .none →
      Next (.scratchBankAccess i b []) s (fun t => left t = [] ∧ t.peek o 8 = bs ∧ Outside s t o 8))
    ∧ (q = [r] → here → memWf s.mem = true → n = 8 → o % 8 = 0 → r.op = .atom o 1 v 0 → r.sink = .buffer id →
      Next (.scratchBankAccess i b []) s (fun t => left t = [] ∧ leNat (t.peek o 8) = (leNat (s.peek o 8) + v) % 2 ^ 64
        ∧ told t 0 (s.peek o 8) ∧ Outside s t o 8))
    ∧ (q = [r2, r] → quiet → r2.owner = false → r.owner = true → s.storageOut r.off = some st → s.storageOut r2.off = some st → records →
        r.sink = .none → r2.sink = .none →
      Next (.scratchBankAccess i b us) s (fun t => left t = (if tabGet (s.svu i.val).bankTurn 0 (b % 16) % 4 = 3 then [r] else [r2]) ∧ t.mem = s.mem))
    ∧ (s.bankOverdue i.val (b % 16) = true → exec (.scratchBankAccess i b us) s = .next s)
    ∧ (s.arrayOn (i.val / 4) = true → tabGet (s.svu i.val).bankQ [] (spBankOf (16 * (line % 262144))) = [] → s.damage base = { syms := [sym] } →
        sym < 72 → s.damage (base + 8) = {} → Alive s (srcSpCe + i.val / 4) → Kept s (srcSpCe + i.val / 4) → First s (srcSpCe + i.val / 4) →
      Next (.scratchLineScrub i line []) s (fun t => t.damage base = {} ∧ t.mem = s.mem ∧ t.rd (SVU_SP_LAST_ERR_VALID i.val) = 1
        ∧ t.rd (SVU_SP_ECC_SP_CE i.val) = min (s.rd (SVU_SP_ECC_SP_CE i.val) + 1) (2 ^ 16 - 1)))
    ∧ (s.rd (CLUS_ARRAY_STATE_ARRAY k.val) = 1 → s.rd (CLUS_ARRAY_STATE_LOGIC k.val) = 2 → memWf s.mem = true → Next (.arrayClearDone k) s (fun t =>
        t.rd (CLUS_ARRAY_STATE_ARRAY k.val) = 2 ∧ t.rd (CLUS_ARRAY_STATE_LOGIC k.val) = 2 ∧ Outside s t (scratchBase + 2 ^ 24 * k.val) (2 ^ 24)
        ∧ (o < 2 ^ 24 → memGet t.mem (scratchBase + 2 ^ 24 * k.val + o) = 0)))
    ∧ (s.rd (CLUS_ARRAY_STATE_LOGIC k.val) = 1 → s.rd (CLUS_ARRAY_STATE_ARRAY k.val) ≠ 1 → Next (.arrayClearDone k) s (fun t =>
        t.rd (CLUS_ARRAY_STATE_LOGIC k.val) = 2 ∧ ([0, 1, 2, 3].all (fun j => (t.svu (4 * k.val + j)).loft.isEmpty && (t.svu (4 * k.val + j)).loftDmg.isEmpty
          && (t.svu (4 * k.val + j)).group == 0)) = true ∧ t.mem = s.mem))

/-- R285, R291 to R296, R299: the first operation of an SVU's queue begins when its checks pass, its grouping then in effect; else it
stops with their status, latched and told to its task, whose later operations leave the queue. -/
def Sys2Proof.Claim.LoftStarts : Prop :=
  ∀ (s : State) (i : Svu) (o : LoftOp) (rest : List LoftOp) (st : Nat),
    let x := s.svu i.val
    let gone := rest.filter (fun p => p.mark == 0 && p.core == o.core && p.task == o.task)
    (x.queue = o :: rest → o.mark = 0 → o.started = false → x.testing = none →
      (s.loftCheck i.val o = none → Next (.loftOpStart i) s (fun t => (t.svu i.val).group = o.grp
        ∧ ((t.svu i.val).queue.map (fun p => (p.core, p.task, p.w0, p.w1, p.started))) = (o.core, o.task, o.w0, o.w1, true)
            :: rest.map (fun p => (p.core, p.task, p.w0, p.w1, p.started))
        ∧ (t.svu i.val).queue.head?.map (fun p => p.next) = some o.start ∧ t.mem = s.mem ∧ t.regs = s.regs))
      ∧ (s.loftCheck i.val o = some st → s.rd (SVU_LOFT_STOP_VALID i.val) = 0 → o.task < 16 → st < 256 → gone.length < 16 → Next (.loftOpStart i) s (fun t =>
        (t.svu i.val).queue = rest.filter (fun p => !(p.mark == 0 && p.core == o.core && p.task == o.task))
        ∧ (t.task o.core o.task).loftStop = (s.task o.core o.task).loftStop ++ [(st, o.start, gone.length, i.val % 4)]
        ∧ t.rd (SVU_LOFT_STOP_VALID i.val) = 1 ∧ t.rd (SVU_LOFT_STOP_STATUS i.val) = st ∧ t.rd (SVU_LOFT_STOP_TASK i.val) = o.task
        ∧ t.rd (SVU_LOFT_STOP_ABORTED i.val) = gone.length ∧ t.rd (SVU_LOFT_STOP_INDEX i.val) = o.start ∧ t.mem = s.mem)))

/-- R286, R292, R294: an integer addition's group of a LOFT operation gives the sums of its elements, all of them read before any is
written; the last group writes them to VD and nothing else, and the operation leaves its queue. -/
def Sys2Proof.Claim.LoftOps : Prop :=
  ∀ (s : State) (i : Svu) (o : LoftOp) (rest : List LoftOp),
    let x := s.svu i.val
    let n := nodeOfWord o.w0
    let at0 := fun (t : State) (v j : Nat) => tabGet (t.svu i.val).loft 0 (64 * 2 ^ o.grp * v + j)
    let hi := min o.vl (o.next + 16)
    let sums := (List.range (hi - o.next)).map (fun j => (o.next + j, (at0 s n.a (o.next + j) + at0 s n.b (o.next + j)) % 2 ^ 64))
    let goes := x.queue = o :: rest ∧ o.started = true ∧ x.testing = none ∧ s.power.stalled = false ∧ x.loftDmg = []
      ∧ (x.loft.all (fun z => decide (z.2 < 2 ^ 64))) = true
    let adds := n.op = 0x300 ∧ n.itype = 13 ∧ n.otype = 13 ∧ n.a < 32 / 2 ^ o.grp ∧ n.b < 32 / 2 ^ o.grp ∧ n.c = 0x3f ∧ n.msrc = 0x3f
      ∧ o.vdm = false ∧ o.vd < 32 / 2 ^ o.grp ∧ o.vl ≤ 64 * 2 ^ o.grp
    let sofar := o.start ≤ o.next ∧ o.next < o.vl ∧ o.res.map (fun z => z.1) = rangeFrom o.start (o.next - o.start)
      ∧ (o.res.all (fun z => decide (z.2 < 2 ^ 64))) = true
    (goes → adds → sofar →
      (hi < o.vl → Next (.loftGroup i []) s (fun t => (t.svu i.val).queue = { o with next := hi, res := o.res ++ sums } :: rest
        ∧ (t.svu i.val).loft = x.loft ∧ t.mem = s.mem))
      ∧ (hi = o.vl → Next (.loftGroup i []) s (fun t => (t.svu i.val).queue = rest
        ∧ ((o.res ++ sums).all (fun z => at0 t o.vd z.1 == z.2)) = true
        ∧ (∀ j, j < 4096 → (j < 64 * 2 ^ o.grp * o.vd + o.start ∨ 64 * 2 ^ o.grp * o.vd + o.vl ≤ j) →
            tabGet (t.svu i.val).loft 0 j = tabGet x.loft 0 j)
        ∧ t.mem = s.mem)))


/-! The host interface. -/
namespace Sys2Proof.Claim
open Sys2Proof.Machine Sys2Proof.Machine.Reg

/-- The host's link runs CXL. -/
abbrev Cxl (s : State) : Prop := s.host.linkUp = true ∧ s.rd HIF_LINK_STAT_MODE = 2 ∧ s.power.off = false

/-- No host access is refused, waits for a snoop or meets poison at 64-byte line `off`. -/
abbrev HostServes (s : State) (off len : Nat) : Prop :=
  s.host.linkUp = true ∧ s.hostUp = true ∧ off + len ≤ 2 ^ s.host.bar2Log ∧ s.block .hostBar2 .host off len = none ∧ Plain s off len

end Sys2Proof.Claim

/-- R468 to R470, R472, R474, R481, R484 to R486: the link trains at the widest width and the highest rate both ends have; configuration
requests are retried until the function is ready, then answer; a write changes the bits software owns; entering D3hot stops
messages, unmasking a vector sends its pending one; corrected link errors are counted. -/
def Obligations.HostLink : Prop :=
  ∀ (s : State) (width speed k : Nat) (cxl : Bool) (v : Word) (n : Nat) (m : Master) (d : BitVec 64),
    let w := min width (if s.rd HIF_CFG_MAX_WIDTH = 0 then 16 else 8)
    let lanes := if 16 ≤ w then 16 else if 8 ≤ w then 8 else if 4 ≤ w then 4 else if 2 ≤ w then 2 else 1
    let reply := fun (t : State) (st v : Nat) => t.out = s.out ++ [.cfgReply st v]
    let up := s.host.linkUp = true ∧ s.host.ready = true ∧ s.host.flr = false
    (s.domainOn 76 = true → s.host.perst = false → s.power.off = false → s.power.ripcord = false → s.rd LCS_BOOT_PHASE ≠ 6 → s.host.linkUp = false →
      0 < width → 0 < speed → s.pllCoasts 30 = false → Next (.hostLinkTraining width speed cxl) s (fun t => t.host.linkUp = true ∧ t.rd HIF_LINK_STAT_WIDTH = lanes
        ∧ t.rd HIF_LINK_STAT_SPEED = min speed 6
        ∧ t.rd HIF_LINK_STAT_MODE = (if s.rd HIF_CFG_CXL_EN = 1 ∧ cxl = true ∧ 5 ≤ min speed 6 then 2 else 1)
        ∧ RegsBut s t HIF_LINK_STAT (HIF_LINK_STAT + 8) ∧ t.mem = s.mem))
    ∧ (s.domainOn 76 = true → s.host.perst = false → s.power.off = false → s.power.ripcord = false → s.rd LCS_BOOT_PHASE ≠ 6 → s.host.ready = false →
        (List.range 64).all (fun r => !((s.ring r).hostReset && s.rd (CMDR_CTL_STATE r) == 3)) = true →
      Next .configurationReady s (fun t => t.host.ready = true ∧ t.host.flr = false ∧ t.host.linkUp = s.host.linkUp ∧ t.mem = s.mem
        ∧ RegsBut s t 0xb4000 0xc0000))
    ∧ (s.host.linkUp = true → s.host.ready = false ∨ s.host.flr = true →
        exec (.configurationRequest none k 4) s = .next { s with out := s.out ++ [.cfgReply 0x12 0] })
    ∧ (up → Next (.configurationRequest none 0x108 4) s (fun t => reply t 0 ((s.host.bar2Log - 20) * 256) ∧ t.regs = s.regs ∧ t.mem = s.mem))
    ∧ (up → 28 ≤ n → n ≤ 42 → Next (.configurationRequest (some (BitVec.ofNat 64 ((n - 20) * 256))) 0x108 4) s (fun t =>
        t.host.bar2Log = n ∧ reply t 0 0 ∧ t.regs = s.regs ∧ t.mem = s.mem))
    ∧ (up → (n < 28 ∨ 42 < n) → 20 ≤ n → n < 84 → Next (.configurationRequest (some (BitVec.ofNat 64 ((n - 20) * 256))) 0x108 4) s (fun t =>
        t.host = s.host ∧ reply t 0 0 ∧ t.regs = s.regs ∧ t.mem = s.mem))
    ∧ (up → tabGet s.host.cfg 0 0x40 / 2 ^ 31 % 2 = 0 → Next (.configurationRequest (some v) 0x04 4) s (fun t =>
        s.memEnable = bitOf (tabGet s.host.cfg 0 4) 1 ∧ t.memEnable = bitOf v.toNat 1 ∧ bitOf (tabGet t.host.cfg 0 4) 2 = bitOf v.toNat 2
        ∧ reply t 0 0 ∧ t.regs = s.regs ∧ t.mem = s.mem))
    ∧ Next .perstNRelease s (fun t => t = { s with host := { s.host with perst := false } })
    ∧ (up → Next (.d3hot true) s (fun t => t.host.d3 = true ∧ t.out = s.out ∧ t.regs = s.regs ∧ t.mem = s.mem))
    ∧ (up → (List.range 32).all (fun i => s.reg (HIF_PBA i) == 0) = true → Next (.d3hot false) s (fun t =>
        t.host.d3 = false ∧ t.out = s.out ∧ t.regs = s.regs ∧ t.mem = s.mem))
    ∧ (s.fwOrHost m = true → Reaches s (whole m d) (HIF_MSIX_DATA k) → k < 2048 → s.msixOn = true → tabGet s.host.cfg 0 0x40 / 2 ^ 30 % 2 = 0 →
        d.toNat / 2 ^ 32 % 2 = 0 → (List.range 32).all (fun i => s.reg (HIF_PBA i) == if i = k / 64 then BitVec.ofNat 64 (2 ^ (k % 64)) else 0) = true →
      Next (.msixUnmask k (whole m d)) s (fun t => t.rd (HIF_MSIX_DATA_MASK k) = 0 ∧ t.reg (HIF_PBA (k / 64)) = 0
        ∧ t.out = s.out ++ [.msix k (s.reg (HIF_MSIX_ADDR k)) (BitVec.ofNat 64 (d.toNat % 2 ^ 32))] ∧ t.mem = s.mem))
    ∧ Next (.hostLinkError false) s (fun t => t.rd HIF_ERR_CORRECTED = min (s.rd HIF_ERR_CORRECTED + 1) (2 ^ 32 - 1)
        ∧ RegsBut s t HIF_ERR (HIF_ERR + 8) ∧ t.mem = s.mem)

/-- R64, R246, R475, R477 to R479: an AtomicOp of the host is one step on module memory and answers the old value; another kind, size
or alignment is an Unsupported Request; a CXL.mem read returns its line and the directory tracks it, a write stores its line and
releases it, or keeps it tracked, and poisons its word where it carries the poison indication; the host's answer to a
back-invalidate stores its data and frees the line; a cache snoop misses. -/
def Obligations.HostMemory : Prop :=
  ∀ (s : State) (op : AtomicKind) (off size a b : Nat) (bs : List Byte) (ex : Bool) (base ways : Nat),
    let code := match op, size with
      | .fetchAdd, 4 => some 0 | .fetchAdd, 8 => some 1 | .swap, 4 => some 2 | .swap, 8 => some 3 | .cas, 8 => some 4 | _, _ => none
    let old := leNat (s.peek off size)
    let new := match op with
      | .fetchAdd => (old + a) % 2 ^ (8 * size)
      | .swap => a % 2 ^ (8 * size)
      | .cas => if old = a % 2 ^ 64 then b % 2 ^ 64 else old
    let line := off / 64
    let clean := off % 64 = 0 ∧ off < memTop ∧ s.block .hostBar2 .host off 64 = none ∧ Calm s (channelOf off) ∧ NoneWaits s agentHost
      ∧ s.damage off = {} ∧ memWf s.mem = true
    let mapped := Cxl s ∧ s.host.hdmOn = true ∧ line ∉ s.host.snooping
    (code ≠ none → HostServes s off size → off % size = 0 → NoneWaits s agentHost → memWf s.mem = true →
      Next (.atomicOp op off size a b) s (fun t =>
        leNat (t.peek off size) = new ∧ Outside s t off size ∧ t.out = s.out ++ [.hostReply 0 (leBytes size old) false]))
    ∧ (s.host.linkUp = true → s.hostUp = true → (code = none ∨ off % size ≠ 0) →
      exec (.atomicOp op off size a b) s = .next { s.rbufClear agentHost with out := s.out ++ [.hostReply 0x23 [] false] })
    ∧ (mapped → clean → s.host.dir.length < 2 ^ 24 → Next (.cxlMemRequest none (s.host.hdmBase + off) ex) s (fun t =>
        t.out = s.out ++ [.cxlReply (s.peek off 64) false] ∧ (line, ex) ∈ t.host.dir
        ∧ (s.host.dir.all (fun x => x.1 == line || t.host.dir.contains x)) = true ∧ t.mem = s.mem))
    ∧ (mapped → clean → bs.length = 64 → Next (.cxlMemRequest (some ⟨bs, false⟩) (s.host.hdmBase + off) ex) s (fun t =>
        t.peek off 64 = bs ∧ Outside s t off 64 ∧ (ex = false → t.host.dir = s.host.dir.filter (fun x => x.1 != line))
        ∧ (ex = true → (line, true) ∈ t.host.dir) ∧ t.out = s.out ++ [.cxlReply [] false]))
    ∧ (mapped → clean → bs.length = 64 → Alive s (264 + channelOf off / 8) → s.rd (MEMC_INJECT_ARM (channelOf off)) = 0 →
      Next (.cxlMemRequest (some ⟨bs, true⟩) (s.host.hdmBase + off) ex) s (fun t => (t.damage off).poison = true ∧ Outside s t off 64))
    ∧ (Cxl s → Next (.hdmDecoderCommit base size ways) s (fun t =>
        (if size = 0x30000000000 ∧ ways = 1 then t.host.hdmOn = true ∧ t.host.hdmBase = base ∧ t.host.hdmErr = false
         else t.host.hdmOn = false ∧ t.host.hdmErr = true) ∧ t.regs = s.regs ∧ t.mem = s.mem))
    ∧ (Cxl s → line ∈ s.host.snooping → Next (.backInvalidate line none) s (fun t =>
        t.host.dir = s.host.dir.filter (fun x => x.1 != line) ∧ line ∉ t.host.snooping ∧ t.regs = s.regs ∧ t.mem = s.mem))
    ∧ (Cxl s → line ∈ s.host.snooping → clean → bs.length = 64 → Next (.backInvalidate line (some ⟨bs, false⟩)) s (fun t =>
        t.peek off 64 = bs ∧ Outside s t off 64 ∧ t.host.dir = s.host.dir.filter (fun x => x.1 != line) ∧ line ∉ t.host.snooping))
    ∧ (Cxl s → exec .cxlCacheSnoop s = .next { s with out := s.out ++ [.cxlReply [] false] })

/-- R458, R476: a completion's data joins its burst in order, and the read ends with the last byte; a failing completion or none in
time ends the transfer's reads at the burst. -/
def Sys2Proof.Claim.HostCompletions : Prop :=
  ∀ (s : State) (tag c base left st : Nat) (data : List Byte) (b : Burst),
    let x := s.bmvCh c
    let gone := fun t : State => (t.host.reads.all (fun q => !(q.2.1 == c && q.2.2.1 == base))) = true
    tabFind s.host.reads tag = some (c, base, left) → x.bursts = [b] → b.base = base → b.readDone = false → x.fail = none →
    (0 < data.length → data.length < left → Next (.hostCompletion tag 0 data) s (fun t =>
      (t.bmvCh c).bursts = [{ b with data := b.data ++ data }] ∧ tabFind t.host.reads tag = some (c, base, left - data.length)
      ∧ t.regs = s.regs ∧ t.mem = s.mem))
    ∧ (data.length = left → 0 < left → Next (.hostCompletion tag 0 data) s gone)
    ∧ (st ≠ 0 → Next (.hostCompletion tag st data) s (fun t =>
      (t.bmvCh c).bursts = [] ∧ (t.bmvCh c).fail = some (st, base) ∧ gone t ∧ t.regs = s.regs ∧ t.mem = s.mem))
    ∧ Next (.hostCompletionTimeout tag) s (fun t =>
      (t.bmvCh c).bursts = [] ∧ (t.bmvCh c).fail = some (0x12, base) ∧ gone t ∧ t.regs = s.regs ∧ t.mem = s.mem)

/-- R469, R482, R483: a reset of the host interface is counted with its cause, makes the function unready, resets the host's rings and
the host's side of its mailboxes, and leaves module memory alone; a lost link and PERST_N also take the link and the decoder down. -/
def Sys2Proof.Claim.HostResets : Prop :=
  ∀ (s : State) (r : Ring) (i : Instr) (cause : Nat),
    let quiet := s.chains = [] ∧ s.rd LCS_UPDATE_OPEN = 0 ∧ (List.range 4).all (fun j => s.rd (LCS_SESSION_ACTIVE j) == 0) = true
      ∧ (List.range 32).all (fun c => !s.bmvBusy c) = true ∧ s.rd (CMDR_CFG_OWNER r.val) = 0
    (i = .flr ∧ cause = 1 ∧ s.host.linkUp = true ∧ s.host.ready = true) ∨ (i = .hotReset ∧ cause = 2 ∧ s.host.linkUp = true)
      ∨ (i = .hostLinkDown ∧ cause = 3 ∧ s.host.linkUp = true) ∨ (i = .perstNAssert ∧ cause = 4 ∧ s.host.perst = false ∧ s.power.off = false) →
    quiet → Next i s (fun t =>
      t.rd HIF_RESET_LOG_LAST = cause ∧ t.rd HIF_RESET_LOG_COUNT = min (s.rd HIF_RESET_LOG_COUNT + 1) (2 ^ 16 - 1)
      ∧ t.host.flr = true ∧ t.host.ready = false ∧ t.host.reads = [] ∧ t.host.d3 = false
      ∧ t.host.linkUp = (if cause ≤ 2 then s.host.linkUp else false) ∧ t.host.hdmOn = (if cause ≤ 2 then s.host.hdmOn else false)
      ∧ t.host.perst = (if cause = 4 then true else s.host.perst)
      ∧ t.rd HIF_LINK_STAT_WIDTH = (if cause ≤ 2 then s.rd HIF_LINK_STAT_WIDTH else 0)
      ∧ t.rd (CMDR_CTL_STATE r.val) = (if s.rd (CMDR_CTL_STATE r.val) = 1 ∨ s.rd (CMDR_CTL_STATE r.val) = 2 then 3 else s.rd (CMDR_CTL_STATE r.val))
      ∧ (s.rd (CMDR_CTL_STATE r.val) = 1 → (t.ring r.val).hostReset = true ∧ (t.ring r.val).read = [])
      ∧ (∀ m ∈ [24, 25, 26, 27], (t.side m 1).queue = [] ∧ t.rd (MBX_DB_IN_PEER_RESET m 0) = 1) ∧ t.mem = s.mem)


/-! The fabric. -/
namespace Sys2Proof.Claim
open Sys2Proof.Machine Sys2Proof.Machine.Reg

/-- The flit that carries a short message of this module (R495, R512). -/
abbrev flitOf (s : State) (m : FMsg) (src : Nat) (tag : Option Nat) : TxFlit :=
  { vc := vcOf m.typ, kind := if s.rd LCS_BOOT_READY = 1 ∨ m.status ≠ 0x12 then 1 else 3, src := src
    bytes := padFlit m.bytes, more := false, tag := tag }

/-- Nothing waits at port `p`, which runs in Jusen mode and may send on virtual channel `v`. -/
abbrev Sends (s : State) (p v : Nat) : Prop :=
  s.rd (JP_STAT_STATE p) = 2 ∧ s.rd (JP_CFG_MODE p) = 0 ∧ (s.port p).txq = [] ∧ (s.port p).draining = none ∧ (s.port p).replay.length < 2048
    ∧ (s.port p).credits.length = 4 ∧ (s.port p).credits.getD v 0 ≠ 0 ∧ (s.port p).cont.length = 4 ∧ (s.port p).cont.getD v none = none

/-- Port `p` has sent a flit with the next SEQ and keeps it for replay, at one credit of its channel (R491, R492, R494). -/
abbrev Went (s t : State) (p : Nat) (f : TxFlit) : Prop :=
  (t.port p).replay = (s.port p).replay ++ [((s.port p).seqNext, f)] ∧ (t.port p).seqNext = ((s.port p).seqNext + 1) % 4096
    ∧ (t.port p).credits.getD f.vc 0 + 1 = (s.port p).credits.getD f.vc 0
    ∧ .flit p (flitBytes f.kind (s.port p).seqNext (((s.port p).rxNext + 4095) % 4096) 0 0 f.vc f.bytes) ∈ t.out

/-- The only message waiting at port `p` is `m`, of a type, for this module, in `n` flit buffers. -/
abbrev Waits (s : State) (p : Nat) (m : FMsg) (n : Nat) : Prop := (s.port p).inbox = [(m, n)] ∧ m.dst = s.node

/-- An idle flit of port `p` with its ACK (R491). -/
abbrev bare (s : State) (p kind : Nat) : Out := .flit p (flitBytes kind 0 (((s.port p).rxNext + 4095) % 4096) 0 0 0 (List.replicate 240 0))

end Sys2Proof.Claim

/-- R488 to R490, R493, R506, R519: an enabled port trains, again after a second without success; the ends' records bring it up on the
lanes that locked, with the other end's node; a lane lost sends it to RETRAIN and too long a retrain to DOWN, from which it
trains again; a disabled port is off. -/
def Sys2Proof.Claim.LinkStates : Prop :=
  ∀ (p : Port) (m : Master) (s : State) (v : Word) (rec : TrainRec) (lanes : Nat),
    let st := s.rd (JP_STAT_STATE p.val)
    let on := fun t : State => t.rd (JP_STAT_STATE p.val)
    let since := (s.port p.val).since
    let used := if rec.lanes % 16 = 15 then 15 else if rec.lanes % 4 = 3 then 3 else 12
    (s.fw0 m = true → Reaches s (whole m v) (JP_CFG p.val) → s.portFenced p.val = false → s.rd (JP_CFG_MODE p.val) = 0 → v.toNat / 2 ^ 8 % 2 = 0 →
      (s.rd (JP_CFG_ENABLE p.val) = 0 → v.toNat % 2 = 1 → s.domainOn (60 + p.val) = true → Next (.portEnable p (whole m v)) s (fun t =>
        on t = 1 ∧ t.rd (JP_CFG_ENABLE p.val) = 1 ∧ (t.port p.val).since = s.now ∧ t.mem = s.mem))
      ∧ (s.rd (JP_CFG_ENABLE p.val) = 1 → v.toNat % 2 = 0 → s.freqs = [] → s.routeHeld = [] → Quiet s (srcJpDown + p.val) →
        Next (.portDisable p (whole m v)) s (fun t => on t = 0 ∧ t.rd (JP_CFG_ENABLE p.val) = 0 ∧ t.rd (JP_STAT_LANES p.val) = 0 ∧ t.mem = s.mem)))
    ∧ (st = 1 → s.rd (JP_CFG_MODE p.val) = 0 → (rec.lanes % 16 = 15 ∨ rec.lanes % 4 = 3 ∨ rec.lanes / 4 % 4 = 3) → s.rd (JP_CFG_EXPECT_EN p.val) = 0 →
        (s.port p.val).txq = [] → (s.port p.val).lastBoot = none → Quiet s (srcJpRetrain + p.val) → s.pllCoasts (14 + p.val) = false → Next (.trainRecord p rec) s (fun t =>
      on t = 2 ∧ t.rd (JP_STAT_LANES p.val) = used ∧ t.rd (JP_STAT_WIDTH p.val) = (if used = 15 then 4 else 2)
      ∧ t.rd (JP_STAT_PEER_NODE p.val) = rec.node.val ∧ t.rd (JP_STAT_DELAY p.val) = min rec.delay 65535
      ∧ (t.port p.val).lastBoot = some (rec.node.val, rec.boot % 65536) ∧ bare s p.val 5 ∈ t.out ∧ t.mem = s.mem))
    ∧ (st = 1 → s.rd (JP_CFG_MODE p.val) = 0 → rec.lanes % 16 = 15 → s.rd (JP_CFG_EXPECT_EN p.val) = 1 → s.rd (JP_CFG_EXPECT_NODE p.val) ≠ rec.node.val →
        Quiet s (srcJpPeer + p.val) → s.pllCoasts (14 + p.val) = false → Next (.trainRecord p rec) s (fun t => on t = 1 ∧ (t.port p.val).mismatched = true ∧ t.out = s.out ∧ t.mem = s.mem))
    ∧ (st = 1 → since + 1000000000 ≤ s.now → Next (.trainingRetry p) s (fun t =>
        (t.port p.val).since = s.now ∧ t.regs = s.regs ∧ t.mem = s.mem))
    ∧ (st = 2 → s.rd (JP_CFG_MODE p.val) = 0 → (s.port p.val).calLast + 250000000 ≤ s.now → Next (.calPause p) s (fun t =>
        (t.port p.val).calLast = s.now ∧ t.out = s.out ++ [bare s p.val 4] ∧ t.regs = s.regs ∧ t.mem = s.mem))
    ∧ (st = 2 → s.rd (JP_STAT_LANES p.val) &&& lanes ≠ 0 → Quiet s (srcJpRetrain + p.val) → Next (.laneLockLoss p lanes) s (fun t =>
        on t = 3 ∧ t.rd (JP_ERR_RETRAINS p.val) = min (s.rd (JP_ERR_RETRAINS p.val) + 1) (2 ^ 16 - 1) ∧ (t.port p.val).replay = (s.port p.val).replay
        ∧ t.mem = s.mem))
    ∧ (st = 3 → since + s.rd JFAB_CFG_RETRAIN_MAX * 1000000 ≤ s.now → s.freqs = [] → s.routeHeld = [] → Quiet s (srcJpDown + p.val) →
      Next (.retrainTimeout p) s (fun t => on t = 4 ∧ (t.port p.val).replay = [] ∧ (t.port p.val).txq = [] ∧ (t.port p.val).since = s.now ∧ t.mem = s.mem))
    ∧ (st = 4 → s.rd (JP_CFG_ENABLE p.val) = 1 → s.portFenced p.val = false → since + 1000000000 ≤ s.now → Next (.downRetry p) s (fun t =>
        on t = 1 ∧ (t.port p.val).since = s.now ∧ RegsBut s t (JP_STAT p.val) (JP_STAT p.val + 8) ∧ t.mem = s.mem))

/-- R491, R492, R494, R495: a flit in order hands over its whole messages and returns credits; an idle flit only credits; one whose CRC
fails or that is out of order is answered with a NAK; a NAK sends every later flit again; a RESET restarts the sequence. -/
def Sys2Proof.Claim.Flits : Prop :=
  ∀ (p : Port) (s : State) (seq ack cvc n v : Nat) (body bytes : List Byte) (ms : List FMsg),
    let x := s.port p.val
    let up := s.rd (JP_STAT_STATE p.val) = 2 ∧ s.rd (JP_CFG_MODE p.val) = 0 ∧ x.txq = []
    let fits := seq < 4096 ∧ ack < 4096 ∧ cvc < 4 ∧ n < 1024 ∧ v < 4 ∧ body.length = 240
    let kept := x.replay.filter (fun f => decide (2048 ≤ (ack + 4096 - f.1) % 4096))
    let creds := x.credits.set cvc (x.credits.getD cvc 0 + n)
    let cred := fun t : State => (t.port p.val).replay = kept ∧ (cvc < x.credits.length → (t.port p.val).credits = creds)
    let again := fun (l : List (Nat × TxFlit)) => l.map (fun f =>
      Out.flit p.val (flitBytes f.2.kind f.1 ((x.rxNext + 4095) % 4096) 0 0 f.2.vc f.2.bytes))
    (up → fits → Next (.flitReceive p (flitBytes 0 seq ack cvc n v body)) s (fun t => cred t ∧ (t.port p.val).inbox = x.inbox
        ∧ (t.port p.val).rxNext = x.rxNext ∧ t.out = s.out ∧ t.regs = s.regs ∧ t.mem = s.mem))
    ∧ (up → fits → seq = x.rxNext → tabFind x.partials v = none → parseMsgs 64 body [] = (ms, [], false) → ms.length = 1 →
      Next (.flitReceive p (flitBytes 1 seq ack cvc n v body)) s (fun t => cred t ∧ (t.port p.val).inbox = x.inbox ++ ms.map (fun m => (m, 1))
        ∧ (t.port p.val).rxNext = (seq + 1) % 4096 ∧ t.out = s.out ∧ t.regs = s.regs ∧ t.mem = s.mem))
    ∧ (up → fits → seq ≠ x.rxNext → exec (.flitReceive p (flitBytes 1 seq ack cvc n v body)) s = .next { s with out := s.out ++ [bare s p.val 2] })
    ∧ (up → bytes.length = 256 → crc64 (bytes.take 248) ≠ leNat (bytes.drop 248) → Quiet s (srcJpCrc + p.val) → First s (srcJpCrc + p.val) →
        x.crcTimes.length < 63 → Next (.flitReceive p bytes) s (fun t => t.out = s.out ++ [bare s p.val 2]
          ∧ t.rd (JP_ERR_CRC p.val) = min (s.rd (JP_ERR_CRC p.val) + 1) (2 ^ 32 - 1) ∧ (t.port p.val).inbox = x.inbox
          ∧ (t.port p.val).rxNext = x.rxNext ∧ t.mem = s.mem))
    ∧ (up → ack < 4096 → Next (.nak p ack) s (fun t => (t.port p.val).replay = kept ∧ t.out = s.out ++ again kept ∧ t.regs = s.regs ∧ t.mem = s.mem))
    ∧ (up → Next (.reset p) s (fun t => (t.port p.val).rxNext = 0 ∧ (t.port p.val).partials = [] ∧ (t.port p.val).replay = x.replay
        ∧ t.out = s.out ∧ t.regs = s.regs ∧ t.mem = s.mem))

/-- R40, R495, R496, R503, R504, R507, R513: a peer's read, write or atomic of this module's memory that nothing refuses waits at its
channel, and its answer will name the requester; one that reaches into several granules is noted with its number of requests. A
response ends the request that holds its tag with its data or status; a request without one in time fails. -/
def Sys2Proof.Claim.PeerRequests : Prop :=
  ∀ (p : Port) (s : State) (m : FMsg) (n id : Nat) (q : FReq),
    let c := channelOf m.offset
    let peer := fun (op : MemOp) (resp : Nat) => ({
      op := op, src := some m.src, port := 99 + m.offset / 256 % 2 ^ 34 % 5, arrived := s.now, who := some (Requester.peer m.src).code
      sink := .remote m.src m.tag resp m.offset } : MemReq)
    let may := fun len : Nat =>
      s.rd LCS_BOOT_READY = 1 ∧ s.block .peer (.peer m.src) m.offset len = none ∧ m.offset < memTop ∧ s.host.dir = [] ∧ 0 < len
    let one := fun (i : Instr) (op : MemOp) (resp len : Nat) =>
      may len → m.offset % 256 + len ≤ 256 → Next i s (fun t => (t.port p.val).inbox = []
        ∧ (t.chan c).queue = (s.chan c).queue ++ [peer op resp] ∧ t.peers = s.peers ∧ t.regs = s.regs ∧ t.mem = s.mem)
    let several := fun (i : Instr) (resp len : Nat) =>
      may len → 256 < m.offset % 256 + len → Next i s (fun t => (t.port p.val).inbox = [] ∧ t.peers = s.peers ++ [
          { id := s.bufNext, node := m.src, tag := m.tag, typ := resp, offset := m.offset, parts := (m.offset + len - 1) / 256 - m.offset / 256 + 1 }]
        ∧ t.regs = s.regs ∧ t.mem = s.mem)
    let ends := fun (i : Instr) (typ : Nat) (data : List Byte) (bad : List Nat) =>
      s.freqs = [(m.tag, q)] → q.typ = typ → s.routeHeld = [] → q.sink = .buffer id → Next i s (fun t =>
        (t.port p.val).inbox = [] ∧ t.freqs = [] ∧ tabFind t.tagCool m.tag = some (s.now + s.rd JFAB_CFG_RESP_TIMEOUT * 1000000)
        ∧ t.rbuf = s.rbuf.map (fun b => if b.id = id then
            { b with res := some (if m.status = 0 then { status := 0, bytes := data, bad := bad } else { status := m.status }) } else b)
        ∧ t.regs = s.regs ∧ t.mem = s.mem)
    let op := leNat (m.data.take 1)
    let arg := fun k => leNat ((m.data.drop (8 * k)).take 8)
    (Waits s p.val m n → m.typ = 0 → one (.rdReq p) (.read m.offset m.len) 3 m.len ∧ several (.rdReq p) 3 m.len)
    ∧ (Waits s p.val m n → m.typ = 1 → one (.wrReq p) (.write (writesIn (wordWrites m.offset m.data m.poison) m.offset m.len)) 4 m.len
        ∧ several (.wrReq p) 4 m.len)
    ∧ (Waits s p.val m n → m.typ = 2 → op ≤ 5 → (if op = 0 ∨ op = 2 then m.offset % 4 = 0 else m.offset % 8 = 0) →
      one (.atomReq p) (.atom m.offset op (arg 1) (arg 2)) 5 (if op = 0 ∨ op = 2 then 4 else 8))
    ∧ (Waits s p.val m n → m.typ = 3 → ends (.rdResp p) 0 m.data (if m.poison then wordsIn (gaOff q.offset) m.data.length else []))
    ∧ (Waits s p.val m n → m.typ = 4 → ends (.wrAck p) 1 [] [])
    ∧ (Waits s p.val m n → m.typ = 5 → ends (.atomResp p) 2 (leBytes 8 (leNat m.data)) [])
    ∧ (Waits s p.val m n → m.typ = 7 → s.freqs = [(m.tag, q)] → q.typ = 6 → s.routeHeld = [] → q.sink = .txGo → m.status < 256 → Next (.msgAck p) s (fun t =>
        (t.port p.val).inbox = [] ∧ t.freqs = [] ∧ t.rd JFAB_TX_STAT_DONE = 1 ∧ t.rd JFAB_TX_STAT_BUSY = 0 ∧ t.rd JFAB_TX_STAT_STATUS = m.status
        ∧ t.mem = s.mem))
    ∧ (s.freqs = [(m.tag, q)] → q.deadline ≤ s.now → s.routeHeld = [] → q.sink = .buffer id → Quiet s srcJfabTimeout → First s srcJfabTimeout →
      Next .responseTimeout s (fun t => t.freqs = [] ∧ t.mem = s.mem
        ∧ t.rbuf = s.rbuf.map (fun b => if b.id = id then { b with res := some { status := 0x40 } } else b)))

/-- R247, R497, R498, R502, R509, R516, R517: a message of one flit for another node goes on by its route with one hop less; one that
asks for no answer and has no hops left goes no further; a valid route is written whole, new requests to its node then waiting for
those that have gone out, and an invalid one refused; device time goes out on the links and is taken from the port it is followed
on; a notice of a new boot ends the requests to its node. -/
def Sys2Proof.Claim.FabricMessages : Prop :=
  ∀ (p : Port) (s : State) (m : FMsg) (n q t0 : Nat) (f : FReq) (node : Node) (alt : Bool) (ms : Master) (v : Word),
    let peer := s.rd (JP_STAT_PEER_NODE p.val)
    let stratum := if s.rd JFAB_TIME_SOURCE = 1 then 0 else s.rd JFAB_TIME_STRATUM
    let told : FMsg := { dst := peer, src := s.node, typ := 8, hops := s.rd (JFAB_ROUTE_PRI_HOPLIM peer), len := 16
                         data := leBytes 8 (s.rd TIME_NOW_NS) ++ leBytes 8 (s.rd TIME_EPOCH_EPOCH + stratum * 2 ^ 16) }
    let time := leNat (m.data.take 8) + s.rd (JP_STAT_DELAY p.val)
    let epoch := leNat (m.data.drop 8) % 2 ^ 16
    let mine := s.rd TIME_EPOCH_EPOCH
    let off := if alt then JFAB_ROUTE_ALT node.val else JFAB_ROUTE_PRI node.val
    let pri := if alt then (s.reg (JFAB_ROUTE_PRI node.val)).toNat else v.toNat
    let other := if alt then v.toNat else (s.reg (JFAB_ROUTE_ALT node.val)).toNat
    let sent := (s.freqs.filter (fun x => x.2.node == node.val && s.routeHeld.all (fun y => y.tag != x.1))).map (fun x => x.1)
    ((s.port p.val).inbox = [(m, n)] → m.dst ≠ s.node → m.hops ≠ 0 → s.rd LCS_BOOT_READY = 1 →
        s.routePort m.dst m.src (routeG m.typ m.offset) = some q → q ≠ p.val → Sends s q (vcOf m.typ) → m.bytes.length ≤ 240 →
      Next (.messageForward p) s (fun t => (t.port p.val).inbox = [] ∧ Went s t q (flitOf s { m with hops := m.hops - 1 } p.val none) ∧ t.mem = s.mem))
    ∧ ((s.port p.val).inbox = [(m, n)] → m.dst ≠ s.node → m.hops = 0 → m.typ ∉ [0, 1, 2, 6] → Quiet s srcJfabHops → First s srcJfabHops →
      Next (.messageForward p) s (fun t => (t.port p.val).inbox = [] ∧ (∀ k, k < 16 → (t.port k).txq = (s.port k).txq) ∧ t.mem = s.mem))
    ∧ (Sends s p.val 3 → s.rd JFAB_TIME_SOURCE ≠ 0 → Next (.timeSend p) s (fun t => Went s t p.val (flitOf s told 16 none) ∧ t.regs = s.regs ∧ t.mem = s.mem))
    ∧ (Waits s p.val m n → m.typ = 8 → m.data.length = 16 → s.rd JFAB_TIME_SOURCE = 2 → s.rd JFAB_TIME_UP_PORT = p.val → time < 2 ^ 64 →
      (mine < epoch → Next (.time p) s (fun t => t.rd TIME_NOW_NS = time ∧ t.rd TIME_EPOCH_EPOCH = epoch ∧ t.mem = s.mem
        ∧ t.rd JFAB_TIME_STRATUM = min 255 (leNat (m.data.drop 8) / 2 ^ 16 % 256 + 1)))
      ∧ (epoch = mine → s.rd TIME_NOW_NS + 1000000 < time → Next (.time p) s (fun t => t.rd TIME_NOW_NS = time ∧ t.rd TIME_EPOCH_SLEWING = 0
        ∧ t.rd TIME_EPOCH_EPOCH = mine ∧ t.mem = s.mem))
      ∧ (epoch = mine → time < s.rd TIME_NOW_NS → s.rd TIME_NOW_NS < time + 2 ^ 32 → Next (.time p) s (fun t =>
        t.rd TIME_NOW_NS = s.rd TIME_NOW_NS ∧ t.rd TIME_EPOCH_SLEWING = 1 ∧ t.rd TIME_SLEW_AHEAD = s.rd TIME_NOW_NS - time ∧ t.mem = s.mem))
      ∧ (epoch < mine → Next (.time p) s (fun t => (t.port p.val).inbox = [] ∧ t.regs = s.regs ∧ t.mem = s.mem)))
    ∧ (Waits s p.val m n → m.typ = 9 → s.freqs = [(t0, f)] → s.routeHeld = [] → f.sink = .none → (tabFind s.nodeBoot m.src).isSome = true →
      Next (.resetNotice p) s (fun t => (t.port p.val).inbox = [] ∧ tabFind t.nodeBoot m.src = some (leNat m.data % 65536)
        ∧ t.freqs = (if tabFind s.nodeBoot m.src ≠ some (leNat m.data % 65536) ∧ f.node = m.src then [] else s.freqs) ∧ t.regs = s.regs ∧ t.mem = s.mem))
    ∧ (s.fw0 ms = true → Reaches s (whole ms v) off → Quiet s 637 → Next (.jfabRouteWrite node alt (whole ms v)) s (fun t =>
        (if routeOk pri other then t.reg off = v else t.reg off = s.reg off) ∧ t.mem = s.mem
        ∧ (sent ≠ [] → routeOk pri other = true → tabFind t.routeOld node.val = some sent)))

/-- R513 to R515, R520, R522: a message of one piece, or an Ethernet frame, of at most 64 bytes lands in the next buffer of its queue's
pool with an arrival entry behind it; a frame for no queue is dropped, and one with an FCS error lost, not counted by the model's
choice (log 33); a token that names no buffer ends the send; a send in
Ethernet mode ends when its frame has left; event frames leave time stamps, which reads take in order. -/
def Sys2Proof.Claim.FabricBuffers : Prop :=
  ∀ (p : Port) (s : State) (m : FMsg) (n q i : Nat) (free : List Nat) (ms : Master) (v : Word) (frame : List Byte) (tx : Bool) (t0 e0 s0 : Nat)
      (rest : List (Bool × Nat × Nat × Nat)),
    let size := 2 ^ s.rd (JFAB_RXQ_CFG_LOG2 q)
    let posted := s.rd (JFAB_RXQ_PTR_POSTED q)
    let entry := s.rd (JFAB_RXQ_BASE_BASE q) + 16 * (posted % size)
    let pool := s.rd (JFAB_RXQ_CFG_POOL q)
    let base := s.rd (BMV_POOL_BUF_BASE pool) + i * 2 ^ s.rd (BMV_POOL_CFG_SIZE pool)
    let token := pool * 2 ^ 26 + i * 2 ^ 8 + tabGet (s.pool pool).gen 0 i
    let may := fun bs : List Byte => s.rd (JFAB_RXQ_CFG_EN q) = 1 ∧ (posted + 2 ^ 32 - s.rd (JFAB_RXQ_PTR_CONSUMED q)) % 2 ^ 32 < size
      ∧ s.rd (BMV_POOL_CFG_ENABLE pool) = 1 ∧ (s.pool pool).free = i :: free ∧ i < 2 ^ 18 ∧ bs.length ≤ 2 ^ s.rd (BMV_POOL_CFG_SIZE pool)
      ∧ tabGet (s.pool pool).gen 0 i < 256 ∧ memWf s.mem = true
      ∧ Plain s base bs.length ∧ Plain s entry 16 ∧ (base + bs.length ≤ entry ∨ entry + 16 ≤ base) ∧ base / 64 ≠ entry / 64
      ∧ s.block .peer (.peer s.node) base bs.length = none ∧ s.block .peer (.peer s.node) (entry + 8) 8 = none ∧ s.block .peer (.peer s.node) entry 8 = none
      ∧ s.rd (MEMC_INJECT_ARM (channelOf entry)) = 0
    let lands := fun (t : State) (bs : List Byte) (kind src : Nat) => t.peek base bs.length = bs
      ∧ leNat (t.peek (entry + 8) 8) = s.rd TIME_NOW_NS
      ∧ leNat (t.peek entry 8) = (1 - posted / size % 2) * 2 ^ 63 + kind * 2 ^ 62 + src * 2 ^ 49 + bs.length * 2 ^ 32 + token
      ∧ t.rd (JFAB_RXQ_PTR_POSTED q) = (posted + 1) % 2 ^ 32 ∧ (t.pool pool).free = free
      ∧ tabFind (t.pool pool).owner i = some (s.rd (JFAB_RXQ_CFG_RING q))
    let eth := s.rd (JP_STAT_STATE p.val) = 2 ∧ s.rd (JP_CFG_MODE p.val) = 1 ∧ frame.length ≤ 9216 ∧ (s.port p.val).ethFrames = []
      ∧ frame.length ≤ s.rd (JP_ETH_WM_THRESH p.val) * 1024 ∧ s.rd (JP_ETH_WM_LEVEL p.val) = 0 ∧ s.rd (JP_ETH_CFG_TRANSPORT_EN p.val) = 0
    (Waits s p.val m n → m.typ = 6 → m.src < 1024 → m.offset = 0 → m.last = true → m.poison = false → s.rxMsgs = [] → s.rd LCS_BOOT_READY = 1 →
        (List.range 8).find? (fun k => s.rd (JFAB_RXQ_CFG_EN k) == 1 && s.rd (JFAB_RXQ_CFG_POOL k) == m.pool) = some q → may m.data →
        s.routePort m.src s.node 0 = none → Next (.msg p) s (fun t => (t.port p.val).inbox = [] ∧ lands t m.data 0 m.src ∧ t.rxMsgs = []))
    ∧ (eth → s.rd (JP_ETH_CFG_RXQ_EN p.val) = 1 → s.rd (JP_ETH_CFG_RXQ p.val) = q → may frame → Next (.ethernetFrame p frame false) s (fun t =>
        lands t frame 1 p.val ∧ t.rd (JP_ETH_DROP_DROPPED p.val) = s.rd (JP_ETH_DROP_DROPPED p.val)))
    ∧ exec (.ethernetFrame p frame true) s = .next s
    ∧ (eth → s.rd (JP_ETH_CFG_RXQ_EN p.val) = 0 → ptpStart frame = none → Next (.ethernetFrame p frame false) s (fun t =>
        t.rd (JP_ETH_DROP_DROPPED p.val) = min (s.rd (JP_ETH_DROP_DROPPED p.val) + 1) (2 ^ 32 - 1) ∧ (t.port p.val).stamps = (s.port p.val).stamps ∧ t.mem = s.mem))
    ∧ (eth → s.rd (JP_ETH_CFG_RXQ_EN p.val) = 0 → (ptpStart frame).isSome = true → (s.port p.val).stamps.length < 16 → Next (.ethernetFrame p frame false) s (fun t =>
        (t.port p.val).stamps.map (fun x => (x.1, x.2.1, x.2.2.1)) = (s.port p.val).stamps.map (fun x => (x.1, x.2.1, x.2.2.1))
          ++ [(false, s.rd TIME_NOW_NS, s.rd TIME_EPOCH_EPOCH)] ∧ t.mem = s.mem))
    ∧ (s.regBlocked ms (JP_PTP_INFO p.val) 8 = none → (ms = .host → s.hostUp = true) → s.lockedFor ms (JP_PTP_INFO p.val) = false → s.mxc = [] →
        (s.port p.val).stamps = (tx, t0, e0, s0) :: rest → Next (.ptpInfoRead p ms 8 0) s (fun t =>
          (t.port p.val).stamps = rest ∧ t.reg (JP_PTP_TIME p.val) = BitVec.ofNat 64 t0 ∧ t.mem = s.mem
          ∧ .coreValue ms (BitVec.ofNat 64 (2 ^ 63 + (if tx then 2 ^ 62 else 0) + e0 * 2 ^ 16 + s0)) 0 ∈ t.out))
    ∧ (s.fw0 ms = true → Reaches s (whole ms v) JFAB_TX_GO → s.rd JFAB_TX_STAT_BUSY = 0 → s.allocated (v.toNat % 2 ^ 32) = false →
      Next (.txGo (whole ms v)) s (fun t => t.rd JFAB_TX_STAT_BUSY = 0 ∧ t.rd JFAB_TX_STAT_DONE = 1 ∧ t.rd JFAB_TX_STAT_STATUS = 0x11 ∧ t.freqs = s.freqs
        ∧ t.mem = s.mem))
    ∧ (s.rd JFAB_TX_STAT_BUSY = 1 → s.rd JFAB_TX_DEST_ETH = 1 → s.freqs.all (fun x => x.2.sink != .txGo) = true → Next .ethernetSendDone s (fun t =>
        t.rd JFAB_TX_STAT_BUSY = 0 ∧ t.rd JFAB_TX_STAT_DONE = 1 ∧ t.rd JFAB_TX_STAT_STATUS = 0 ∧ t.mem = s.mem ∧ RegsBut s t JFAB_TX_STAT (JFAB_TX_STAT + 8)))

/-- R503, R513: TX_GO of an allocated buffer takes a tag and sends its bytes, at most 64 here, as one message to another node, which the
ACK ends; in Ethernet mode they leave as a frame. -/
def Sys2Proof.Claim.FabricSends : Prop :=
  ∀ (s : State) (ms : Master) (v : Word) (q tag : Nat),
    let token := v.toNat % 2 ^ 32
    let len := v.toNat / 2 ^ 32 % 2 ^ 17
    let pool := token / 2 ^ 26
    let size := 2 ^ s.rd (BMV_POOL_CFG_SIZE pool)
    let base := s.rd (BMV_POOL_BUF_BASE pool) + token / 2 ^ 8 % 2 ^ 18 * size
    let node := s.rd JFAB_TX_DEST_NODE
    let m : FMsg := { dst := node, src := s.node, typ := 6, hops := s.rd (JFAB_ROUTE_PRI_HOPLIM node), len := len, tag := tag, pool := s.rd JFAB_TX_DEST_POOL
                      data := s.peek base len, last := true }
    let port := s.rd JFAB_TX_DEST_PORT
    s.fw0 ms = true → Reaches s (whole ms v) JFAB_TX_GO → s.rd JFAB_TX_STAT_BUSY = 0 → s.allocated token = true → len ≤ size → Plain s base len →
    s.block .peer (.peer s.node) base len = none → NoneWaits s agentTx →
    (s.rd JFAB_TX_DEST_ETH = 0 → node ≠ s.node → s.freqs = [] → s.tagCool = [] → s.routeOld = [] → s.tagNext = tag → tag < 2 ^ 16 →
        s.routePort node s.node 0 = some q → Sends s q 2 → Next (.txGo (whole ms v)) s (fun t =>
      t.rd JFAB_TX_STAT_BUSY = 1 ∧ t.tagNext = (tag + 1) % 65536
      ∧ t.freqs.map (fun x => (x.1, x.2.node, x.2.typ, x.2.deadline, x.2.sink))
          = [(tag, node, 6, s.now + s.rd JFAB_CFG_RESP_TIMEOUT * 1000000, .txGo)]
      ∧ Went s t q (flitOf s m 16 (some tag)) ∧ t.mem = s.mem))
    ∧ (s.rd JFAB_TX_DEST_ETH = 1 → s.rd (JP_CFG_MODE port) = 1 → s.rd (JP_STAT_STATE port) = 2 → ptpStart (s.peek base len) = none →
      Next (.txGo (whole ms v)) s (fun t => t.rd JFAB_TX_STAT_BUSY = 1 ∧ t.out = s.out ++ [.frame port (s.peek base len)] ∧ t.mem = s.mem))


/-! Power, clocks and module resets. -/
namespace Sys2Proof.Claim
open Sys2Proof.Machine Sys2Proof.Machine.Reg

/-- No chain exists and none waits for a grant. -/
abbrev Unloaded (s : State) : Prop := s.chains = [] ∧ s.power.waiting = []

/-- Ring 0 firmware writes the whole register at `off` with `v`, and reaches it. -/
abbrev Fw0 (s : State) (m : Master) (v : Word) (off : Nat) : Prop := s.fw0 m = true ∧ Reaches s (whole m v) off

/-- Every domain bit is 0. -/
abbrev AllOff (s : State) : Prop := s.rd PWR_DOMAIN_LO_ON = 0 ∧ s.rd PWR_DOMAIN_HI_ON = 0

end Sys2Proof.Claim

/-- R526 to R528, R531, R538, R543, R546, R547, R556: a sample of VIN and of the input current shows in PWR_INPUT and the module
fits the envelope or reaches level 3; ENV_WAIT lowers the level, UP_HOLD raises it; a stall and its end; a hot
junction lowers the level; PWR_LIMIT takes each field that is in range. -/
def Obligations.InputAndLevel : Prop :=
  ∀ (s : State) (vin iin : Nat) (q : LiftReq) (rest : List LiftReq) (hot : Nat) (i : Instr) (m : Master) (v : Word),
    let sat := fun n : Nat => min (n + 1) (2 ^ 16 - 1)
    let T := s.rd PWR_CFG_THROTTLE
    (s.power.off = true → exec (.vinSample vin iin) s = .next { s with power := { s.power with vin := vin } })
    ∧ (s.power.off = false → Unloaded s → Next (.vinSample vin iin) s (fun t =>
        t.power.vin = vin ∧ t.rd PWR_INPUT_VIN = vin / 10 % 2 ^ 16 ∧ t.rd PWR_INPUT_IIN = iin % 2 ^ 16 ∧ t.rd PWR_INPUT_PIN = vin * iin / 100000 % 2 ^ 16
        ∧ (t.committed ≤ (t.envelope : Rat) ∨ t.level = 3)
        ∧ (40000 ≤ vin → t.envelope = min 1800 t.capInEffect)
        ∧ (10000 ≤ vin → vin < 40000 → t.envelope = min (vin * 45 * 93 / 100000) t.capInEffect)
        ∧ (6000 ≤ vin → vin < 10000 → t.envelope = min 250 t.capInEffect)))
    ∧ (s.power.waiting = q :: rest → s.power.rules = true → s.level < 3 → Next .envWaitExpiry s (fun t =>
        t.now = max s.now (q.timer + s.rd PWR_CFG_ENV_WAIT * 1000) ∧ t.level = s.level + 1
        ∧ t.rd PWR_STAT_LEVEL_DOWNS = sat (s.rd PWR_STAT_LEVEL_DOWNS) ∧ t.power.waiting = { q with timer := t.now } :: rest ∧ t.mem = s.mem))
    ∧ (s.mayRaise = true → Next .upHoldExpiry s (fun t =>
        t.now = max s.now (s.power.upFrom + s.rd PWR_CFG_UP_HOLD * 1000000) ∧ t.level + 1 = s.level ∧ t.power.upFrom = t.now ∧ t.mem = s.mem))
    ∧ (s.power.stalled = false → Next .busStall s (fun t => t.power.stalled = true ∧ t.rd PWR_STAT_STALLS = sat (s.rd PWR_STAT_STALLS)
        ∧ t.mem = s.mem))
    ∧ Next .busRecover s (fun t => t = { s with power := { s.power with stalled := false } })
    ∧ (i ∈ [.throttle hot, .throttleRepeat hot] → Next i s (fun t => t.power.hot = hot
        ∧ t.level = (if T ≤ hot then min 3 (s.level + 1) else s.level)
        ∧ t.power.thermal = (if T ≤ hot then true else if hot + 5 ≤ T then false else s.power.thermal) ∧ t.mem = s.mem))
    ∧ (s.fwOrInstaller m = true → Reaches s (whole m v) PWR_LIMIT → Unloaded s →
        let n := v.toNat
        let mx := n / 2 ^ 48
        let mn := n / 2 ^ 32 % 2 ^ 16
        let sl := n % 16
        let mx1 := if 450 ≤ mx ∧ mx ≤ 1800 then mx else s.rd PWR_LIMIT_MAX_W
        let mn1 := if 450 ≤ mn ∧ mn ≤ mx1 then mn else s.rd PWR_LIMIT_CAP_MIN
        let sl1 := if 1 ≤ sl ∧ sl ≤ 8 then sl else s.rd PWR_LIMIT_SLEW
        Next (.pwrLimitWrite (whole m v)) s (fun t => t.rd PWR_LIMIT_MAX_W = (if mn1 ≤ mx1 then mx1 else s.rd PWR_LIMIT_MAX_W)
          ∧ t.rd PWR_LIMIT_CAP_MIN = mn1 ∧ t.rd PWR_LIMIT_SLEW = sl1
          ∧ t.power.slew = (if s.power.ramps = [] then sl1 else s.power.slew) ∧ t.mem = s.mem))

/-- R532, R548, R551, R556: ring 0 firmware asks for a domain: above 79, the crossbar off, or an envelope too small refuses it; a
domain that is so already answers at once; another begins to wake, or is off, and answers when that is over. An idle flash domain
switches off. -/
def Sys2Proof.Claim.Domains : Prop :=
  ∀ (s : State) (m : Master) (d : Nat) (on : Bool),
    let w := fun n : Nat => BitVec.ofNat 64 (n + if on then 256 else 0)
    let free := Fw0 s m (w d) PWR_DOMAIN_REQ ∧ s.rd PWR_DOMAIN_REQ_BUSY = 0
    let short := (s.envelope : Rat) < s.floorW + ((domainFloor d : Nat) : Rat) / 100
    let busy := d < 24 ∧ (s.rangesOn (rangeFrom (4 * d) 4) ≠ [] ∨ s.loftsOn (rangeFrom (4 * d) 4) ≠ []) ∨ d = 77
      ∨ d = 79 ∧ s.rd LCS_UPDATE_OPEN = 1
    let starts := fun t : State => t.rd PWR_DOMAIN_REQ_BUSY = 1 ∧ t.power.domReq = some d ∧ (d, on) ∈ t.power.domWait
    (free → 79 < d → d < 128 → Next (.domainRequest (whole m (w d))) s (fun t => t.rd PWR_DOMAIN_REQ_RESULT = 0x11
      ∧ t.rd PWR_DOMAIN_REQ_BUSY = 0 ∧ t.power.domWait = s.power.domWait ∧ t.mem = s.mem))
    ∧ (free → d ≤ 79 → on = false → busy → Next (.domainRequest (whole m (w d))) s (fun t => t.rd PWR_DOMAIN_REQ_RESULT = 0x14
        ∧ t.power.domWait = s.power.domWait ∧ t.mem = s.mem))
    ∧ (free → d ≤ 79 → on = true → s.domainOn d = false → short → Next (.domainRequest (whole m (w d))) s (fun t =>
        t.rd PWR_DOMAIN_REQ_RESULT = 0x50 ∧ t.power.domWait = s.power.domWait ∧ t.mem = s.mem))
    ∧ (free → d ≤ 79 → s.domainOn d = on → (if on then s.floorW ≤ (s.envelope : Rat) else ¬ busy) → Next (.domainRequest (whole m (w d))) s (fun t =>
        t.rd PWR_DOMAIN_REQ_RESULT = 0 ∧ t.rd PWR_DOMAIN_REQ_BUSY = 0 ∧ RegsBut s t PWR_DOMAIN_REQ (PWR_DOMAIN_REQ + 8) ∧ t.mem = s.mem))
    ∧ (free → d ≤ 79 → on = true → s.domainOn d = false → ¬ short → Next (.domainRequest (whole m (w d))) s (fun t => starts t ∧ t.domainOn d = false))
    ∧ (free → d ≤ 79 → on = false → s.domainOn d = true → ¬ busy → Next (.domainRequest (whole m (w d))) s (fun t => starts t ∧ t.domainOn d = false))
    ∧ (d ≤ 79 → (d, true) ∈ s.power.domWait → s.wakeReady d = true → Next (.domainWakeDone d) s (fun t => t.domainOn d = true
        ∧ t.power.domWait = s.power.domWait.filter (fun x => x != (d, true))
        ∧ (s.power.domReq = some d → t.rd PWR_DOMAIN_REQ_RESULT = 0 ∧ t.rd PWR_DOMAIN_REQ_BUSY = 0 ∧ t.power.domReq = none) ∧ t.mem = s.mem))
    ∧ ((d, false) ∈ s.power.domWait → Next (.domainOffDone d) s (fun t => t.power.domWait = s.power.domWait.filter (fun x => x != (d, false))
        ∧ (s.power.domReq = some d → t.rd PWR_DOMAIN_REQ_RESULT = 0 ∧ t.rd PWR_DOMAIN_REQ_BUSY = 0 ∧ t.power.domReq = none) ∧ t.mem = s.mem))
    ∧ (s.power.flashIdle ≠ 0 → Next .flashIdleOff s (fun t => t.now = max s.now s.power.flashIdle ∧ t.domainOn 79 = false ∧ t.power.flashIdle = 0
        ∧ t.mem = s.mem))

/-- R236, R549, R550, R552, R554, R603: a request for a power state is refused while a transition is in progress, while a remote write or a
command other than a chain is, while any work is and SUSPEND is 0, or while the envelope is too small; else the transition begins, and it
ends in its state: RUN, HOLD, MOORED or STOWED. A brown-out forces HOLD; WAKE_N asks for RUN or leaves STOWED by a power-on. -/
def Sys2Proof.Claim.PowerStates : Prop :=
  ∀ (s : State) (m : Master) (target : Fin 4) (susp : Bool),
    let w := BitVec.ofNat 64 (512 + target.val + if susp then 256 else 0)
    let now := s.rd PWR_STATE_STATE
    let asks := Fw0 s m w PWR_STATE_REQ
    let fits := floorOf (s.targetDomains target.val) ≤ (s.envelope : Rat)
    let rests := s.chains = [] ∧ (List.range 64).all (fun r => (s.ring r).running.isEmpty) = true ∧ s.power.domWait.any (fun x => x.2) = false
    let answer := fun (t : State) (st : Nat) => t.rd PWR_STATE_RESULT = st ∧ t.rd PWR_STATE_TARGET = target.val ∧ t.rd PWR_STATE_STATE = now
      ∧ t.power = s.power ∧ t.mem = s.mem
    let begins := fun t : State => t.rd PWR_STATE_RESULT = 0 ∧ t.rd PWR_STATE_STATE = 3 ∧ t.power.target = some target.val ∧ t.mem = s.mem
    (asks → now = 3 → Next (.powerStateRequest (whole m w)) s (fun t => answer t 0x14))
    ∧ (asks → now < 3 → target.val = now → Next (.powerStateRequest (whole m w)) s (fun t => answer t 0))
    ∧ (asks → now < 3 → now < target.val → s.remoteWrite = true ∨ s.otherWork = true ∨ (susp = false ∧ s.working = true) →
        Next (.powerStateRequest (whole m w)) s (fun t => answer t 0x14))
    ∧ (asks → now < 3 → now < target.val → s.remoteWrite = false → s.working = false → Next (.powerStateRequest (whole m w)) s begins)
    ∧ (asks → now < 3 → now < target.val → s.remoteWrite = false → s.otherWork = false → susp = true →
        Next (.powerStateRequest (whole m w)) s (fun t => t.rd PWR_STATE_RESULT = 0 ∧ t.rd PWR_STATE_STATE = 3 ∧ t.power.target = some target.val))
    ∧ (asks → now < 3 → target.val < now → ¬ fits → Next (.powerStateRequest (whole m w)) s (fun t => answer t 0x50))
    ∧ (asks → now < 3 → target.val < now → fits → Next (.powerStateRequest (whole m w)) s begins)
    ∧ (now = 3 → rests → s.power.target = some target.val → Next .transitionComplete s (fun t =>
        (target.val < 3 → t.rd PWR_STATE_STATE = target.val) ∧ (2 ≤ target.val → t.rd LCS_BOOT_READY = 0)
        ∧ (target.val = 3 → t.power.stowed = true ∧ t.power.off = true ∧ t.tasks = [])))
    ∧ (s.power.off = false → s.power.ripcord = false → now ≠ 1 → now ≠ 2 → Next .brownOut s (fun t =>
        t.rd PWR_STATE_STATE = 1 ∧ 0 < t.rd PWR_STAT_SHEDS ∧ t.power.target = none))
    ∧ (s.power.ripcord = false → s.power.stowed = true → Next .wakeN s (fun t => t.rd RST_CAUSE_LAST = 1 ∧ t.power.off = false
        ∧ t.mem = [] ∧ t.tlog = [] ∧ t.flash = s.flash))
    ∧ (s.power.ripcord = false → s.power.stowed = false → s.power.off = false → now = 1 ∨ now = 2 → target = 0 → fits →
        Next .wakeN s (fun t => begins t))
    ∧ (s.power.ripcord = false → s.power.stowed = false → s.power.off = false → now = 0 → exec .wakeN s = .next s)

/-- R538, R558 to R560, R563: a lost REFCLK makes every PLL that is on coast, holds the level at 3 and shows in CLK_STAT; when it is
good again every coasting PLL relocks; a PLL that locks shows its lock and its clock; one that loses its lock coasts. -/
def Sys2Proof.Claim.Clocks : Prop :=
  ∀ (s : State) (n : Pll),
    let st := fun t : State => t.rd (CLK_PLL_STATE n.val)
    let lit := fun t : State => t.rd ⟨CLK_STAT, n.val, n.val⟩
    (s.clock.refLost = false → Next .refclkLost s (fun t => t.clock.refLost = true ∧ t.rd CLK_STAT_CLK_LOST = 1 ∧ t.rd CLK_STAT_REFCLK_OK = 0
      ∧ t.level = 3 ∧ (if st s = 0 then st t = 0 else st t = 3 ∧ lit t = 0 ∧ t.rd CLK_STAT_COASTING = 1) ∧ t.mem = s.mem))
    ∧ (s.clock.refLost = true → Next .refclkGood s (fun t => t.clock.refLost = false ∧ t.rd CLK_STAT_REFCLK_OK = 1
        ∧ st t = (if s.clock.coast.contains n.val then 1 else st s) ∧ t.rd CLK_STAT_CLK_LOST = s.rd CLK_STAT_CLK_LOST ∧ t.mem = s.mem))
    ∧ (s.clock.refLost = false → s.pllPowered n.val = true → st s = 1 ∨ st s = 3 → Next (.pllLock n) s (fun t => st t = 2 ∧ lit t = 1
        ∧ n.val ∉ t.clock.coast ∧ (s.clock.coast = [n.val] → t.rd CLK_STAT_COASTING = 0)
        ∧ (n.val = 0 → t.rd (CLK_PLL_FREQ n.val) = 1000) ∧ (n.val = 1 → t.rd (CLK_PLL_FREQ n.val) = 2000 - 400 * s.level ∧ t.power.rules = true)
        ∧ (2 ≤ n.val → n.val ≤ 13 → t.rd (CLK_PLL_FREQ n.val) = 1250) ∧ t.mem = s.mem))
    ∧ (s.clock.refLost = false → st s = 2 → Next (.pllUnlock n) s (fun t => st t = 3 ∧ lit t = 0 ∧ t.rd CLK_STAT_COASTING = 1
        ∧ n.val ∈ t.clock.coast ∧ (n.val = 1 → t.level = 3) ∧ t.mem = s.mem))

/-- R569, R577, R590, R600 to R603, R608, R611, R612, R661, R662, R665: a power-on loses all but fuses and flash and latches the straps, and the
ripcord state ends only with VIN below 3 V; a module reset loses the work and leaves its cause; READY, and the time a boot may
take; the end of a slew; a thermal trip and a loss of VIN switch everything off. -/
def Sys2Proof.Claim.ModuleResets : Prop :=
  ∀ (s : State) (x : Straps) (m : Master) (v : Word) (temp : Nat),
    (s.power.ripcord = false ∨ s.power.vin < 3000 → Next (.powerOnReset x) s (fun t => t.rd RST_CAUSE_LAST = 0
      ∧ t.rd LCS_STATE_BOOT_MODE = x.bootMode.val ∧ t.gloley.strap = x.glAddr.val ∧ t.mem = [] ∧ t.chains = [] ∧ t.flash = s.flash
      ∧ t.power.ripcord = false ∧ t.rd LCS_STATE_STATE = s.rd LCS_STATE_STATE ∧ t.rd LCS_FW_MIN_SVN = s.rd LCS_FW_MIN_SVN
      ∧ t.rd LCS_BOOT_READY = 0 ∧ t.rd TIME_NOW_NS = 0))
    ∧ (s.power.ripcord = true → 3000 ≤ s.power.vin → exec (.powerOnReset x) s = .next s)
    ∧ (Fw0 s m v RST_MODULE → v.toNat % 2 = 1 → s.life.loading = false → s.power.ripcord = false → s.power.off = false →
        Next (.moduleReset (whole m v)) s (fun t => t.rd RST_CAUSE_LAST = 2 ∧ 0 < t.rd RST_CAUSE_COUNT ∧ t.rd LCS_BOOT_READY = 0
          ∧ t.rd LCS_BOOT_PHASE = 1 ∧ t.mem = [] ∧ t.chains = []))
    ∧ (Fw0 s m v LCS_BOOT → v.toNat / 2 ^ 61 % 2 = 1 → s.life.loading = false →
        (s.readyOk = true → s.rd LCS_BOOT_READY = 1 → exec (.setReady (whole m v)) s = .next (s.mxcGrant m LCS_BOOT))
        ∧ (s.readyOk = true → s.rd LCS_BOOT_READY = 0 → s.routedNodes.filter (fun n => n != s.node) = [] →
            Next (.setReady (whole m v)) s (fun t => t.rd LCS_BOOT_READY = 1 ∧ t.rd LCS_BOOT_PHASE = 5
              ∧ RegsBut s t LCS_BOOT (LCS_BOOT + 8) ∧ t.mem = s.mem))
        ∧ (s.readyOk = false → Next (.setReady (whole m v)) s (fun t => t.rd LCS_BOOT_READY = s.rd LCS_BOOT_READY
            ∧ t.rd LCS_BOOT_PHASE = s.rd LCS_BOOT_PHASE ∧ t.mem = s.mem)))
    ∧ (s.life.loading = false → s.rd LCS_BOOT_PHASE < 5 → Next .bootTimeout s (fun t => t.rd LCS_BOOT_PHASE = 7
        ∧ t.now = max s.now (s.life.bootStart + 900000000) ∧ t.mem = s.mem))
    ∧ Next .timeSlewDone s (fun t => t.rd TIME_EPOCH_SLEWING = 0 ∧ t.now = s.now + s.life.slewLeft.natAbs ∧ t.life.slewLeft = 0 ∧ t.mem = s.mem)
    ∧ (115 ≤ temp → s.power.off = false → Next (.thermalTrip temp) s (fun t => t.pins.thermtripN = false ∧ t.pins.faultN = s.pins.faultN
        ∧ t.power.tripped = true ∧ t.power.ripcord = true ∧ AllOff t ∧ t.tlog = s.tlog))
    ∧ (temp < 115 → exec (.thermalTrip temp) s = .next s)
    ∧ Next .vinLoss s (fun t => t.power.off = true ∧ t.pins.pwrGood = false ∧ t.tasks = [] ∧ AllOff t ∧ t.flash = s.flash)

/-- With no command waiting and the loader's selection made, a nanosecond passes: device time follows, and no storage changes (the model's choice of a
tick, log 2). -/
def Sys2Proof.Claim.IdleStep : Prop :=
  ∀ (s : State), s.pending = [] → s.life.loading = false → s.life.slewLeft = 0 → s.rd TIME_NOW_NS < 2 ^ 64 - 1 →
    ∃ t, step s = .next t ∧ t.now = s.now + 1 ∧ t.rd TIME_NOW_NS = s.rd TIME_NOW_NS + 1 ∧ t.mem = s.mem ∧ t.tasks = s.tasks ∧ t.chains = s.chains
      ∧ t.pending = []

/-! Faults, locks and the test access port. -/

/-- R580, R582 to R584, R586, R587, R590: an event of a source, here a stall of the bus, is counted and enters the trouble log with the next SEQ;
inside the hold-off it is only counted and merged; the event that fills LEAK raises the class, and the record of class B is pending; a
record of class D is the ripcord state. -/
def Sys2Proof.Claim.FaultRecords : Prop :=
  ∀ (s : State) (t0 : Nat), s.power.stalled = false → s.tlog.length < 8192 →
    let src := 628
    let leak := min 255 (s.rd (FLT_SRC_LEAK src) + 1)
    let full := s.rd (FLT_SRC_PROMOTE_EN src) = 1 ∧ leak = s.rd (FLT_SRC_N src)
    let cls := s.rd (FLT_SRC_CLASS src)
    let newRec := fun (t : State) (c : Nat) (p : Bool) => t.tlog = s.tlog ++ [{
      time := s.dev, epoch := s.rd TIME_EPOCH_EPOCH, source := src, cls := c, promoted := p, escalated := false, data := false, fence := false
      seq := s.rd FLT_STAT_NEXT_SEQ, inst := 0, status := 0, merged := tabGet s.srcMerged 0 src, aux := 0, addr := 0 }]
    let counted := fun t : State => t.rd (FLT_SRC_CNT_EVENTS src) = min (s.rd (FLT_SRC_CNT_EVENTS src) + 1) (2 ^ 32 - 1)
      ∧ t.rd (FLT_SRC_LEAK src) = (if full then 0 else leak) ∧ t.mem = s.mem
    (cls = 0 → ¬ full → tabFind s.srcLast src = none → Next .busStall s (fun t => counted t ∧ newRec t 0 false
      ∧ t.rd FLT_STAT_NEXT_SEQ = (s.rd FLT_STAT_NEXT_SEQ + 1) % 2 ^ 32 ∧ t.rd (FLT_SRC_CLASS src) = 0))
    ∧ (cls = 0 → ¬ full → tabFind s.srcLast src = some t0 → s.now < t0 + s.rd FLT_CFG_HOLDOFF * 1000 → Next .busStall s (fun t =>
        counted t ∧ t.tlog = s.tlog ∧ tabGet t.srcMerged 0 src = min (tabGet s.srcMerged 0 src + 1) 65535))
    ∧ (cls = 0 → full → s.rd (FLT_SRC_PENDING src) = 0 → Next .busStall s (fun t => counted t ∧ newRec t 1 true
        ∧ t.rd (FLT_SRC_CLASS src) = 1 ∧ t.rd (FLT_SRC_PENDING src) = 1))
    ∧ (cls = 2 → s.rd (FLT_SRC_PENDING src) = 0 → s.rd FLT_STAT_C_PEND ≤ 640 → Next .busStall s (fun t => counted t ∧ newRec t 2 false
        ∧ t.rd (FLT_SRC_CLASS src) = 2 ∧ t.rd (FLT_SRC_PENDING src) = 2 ∧ t.pins.alertN = false))
    ∧ (cls = 3 → Next .busStall s (fun t => counted t ∧ newRec t 3 false ∧ t.power.ripcord = true ∧ t.pins.faultN = false ∧ AllOff t))

/-- R583, R585, R587 to R589, R594, R599: a leak step, the demotion of a promoted source, the escalations of a pending class B and class C
record; an acknowledgement by FLT_ACK of the class that its sender may acknowledge; a unit fenced by FLT_FENCE. -/
def Sys2Proof.Claim.FaultCommands : Prop :=
  ∀ (s : State) (src : Source) (x : FltRec) (t0 : Nat) (m : Master) (v : Word),
    let f := src.val
    let pend := fun t : State => t.rd (FLT_SRC_PENDING f)
    let P := max 1 (1000 * s.rd (FLT_SRC_WINDOW f) / max 1 (s.rd (FLT_SRC_N f)))
    let esc := fun (t : State) (time st : Nat) => t.tlog.getLast? = some { x with
      cls := 2, promoted := false, escalated := true, fence := false, status := st, merged := tabGet s.srcMerged 0 f
      seq := s.rd FLT_STAT_NEXT_SEQ, time := time, epoch := s.rd TIME_EPOCH_EPOCH, data := srcIsData f }
    let runs := tabFind s.srcTimer f = some (t0, x) ∧ x.source = f
    let n := v.toNat
    let seq := n % 2 ^ 32
    let kind := n / 2 ^ 8 % 8
    let i := n % 2 ^ 7
    let acks := s.fwOrHost m = true ∧ Reaches s (whole m v) FLT_ACK ∧ n / 2 ^ 32 % 2 ^ 10 = f
    let fences := Fw0 s m v FLT_FENCE ∧ n / 2 ^ 16 % 2 = 1
    (0 < s.rd (FLT_SRC_LEAK f) → Next (.leakStep src) s (fun t => t.rd (FLT_SRC_LEAK f) + 1 = s.rd (FLT_SRC_LEAK f)
      ∧ t.now = max s.now (tabGet s.srcLeak 0 f + 1000 * P) ∧ t.mem = s.mem ∧ t.tlog = s.tlog))
    ∧ (srcDefault f < s.rd (FLT_SRC_CLASS f) → Next (.classDemotion src) s (fun t => t.rd (FLT_SRC_CLASS f) + 1 = s.rd (FLT_SRC_CLASS f)
        ∧ t.now = max s.now (tabGet s.srcQuiet 0 f + 1000000 * s.rd (FLT_SRC_WINDOW f)) ∧ t.mem = s.mem ∧ t.tlog = s.tlog))
    ∧ (runs → pend s = 1 → s.fenceOf f x.inst 2 = none → s.rd FLT_STAT_C_PEND ≤ 640 → Next (.escBExpiry src) s (fun t => pend t = 2 ∧ t.pins.alertN = false
        ∧ t.now = max s.now (t0 + 1000 * s.rd FLT_CFG_ESC_B_TIME) ∧ esc t t.dev 0 ∧ t.mem = s.mem))
    ∧ (runs → pend s = 2 → s.power.off = false → s.power.ripcord = false → Next (.escCExpiry src) s (fun t => t.rd RST_CAUSE_LAST = 4
        ∧ t.tlog.getLast?.any (fun y => y.escalated && y.cls == 2 && y.status == 3 && y.source == f) = true ∧ t.mem = [] ∧ t.chains = []))
    ∧ (acks → tabFind s.srcTimer f = some (t0, x) → x.seq ≤ seq → seq < x.seq + 2 ^ 31 →
        (pend s = (if m = .host then 2 else 1) → Next (.fltAck (whole m v)) s (fun t => pend t = 0 ∧ tabFind t.srcTimer f = none
          ∧ t.tlog = s.tlog ∧ t.mem = s.mem))
        ∧ (pend s = (if m = .host then 1 else 2) → f ≠ 637 → Alive s 637 → Next (.fltAck (whole m v)) s (fun t => pend t = pend s
            ∧ tabFind t.srcTimer f = some (t0, x) ∧ t.mem = s.mem)))
    ∧ (fences → kind = 0 → i < 96 → s.chains = [] → Next (.fltFence (whole m v)) s (fun t => t.svuFenced i = true
        ∧ RegsBut s t (FLT_FENCED_SVU (i / 64)) (FLT_FENCED_SVU (i / 64) + 8) ∧ t.mem = s.mem))
    ∧ (fences → kind = 1 → i < 24 → s.chains = [] → s.clusFenced i = false → Next (.fltFence (whole m v)) s (fun t => t.clusFenced i = true
        ∧ (rangeFrom (4 * i) 4).all (fun u => t.svuFenced u) = true ∧ t.tasks.all (fun y => y.1 / 64 != i) = true ∧ t.mem = s.mem))
    ∧ (fences → kind = 2 → i < 96 → s.chFenced i = false → (s.chan i).queue = [] → Next (.fltFence (whole m v)) s (fun t => t.chFenced i = true
        ∧ t.rd (MEMC_STATUS_STATE i) = 4 ∧ t.mem = s.mem))
    ∧ (fences → kind = 3 → i < 16 → s.portFenced i = false → Alive s (348 + i) → Next (.fltFence (whole m v)) s (fun t => t.portFenced i = true
        ∧ t.rd (JP_STAT_STATE i) = 4 ∧ t.mem = s.mem))

/-- R650, R670, R671: a lock that is due is broken and counted; the test port selects IDCODE and shifts it out, BYPASS for what it does not
list, and stops the module for the instructions that take over its pins; a maker-private instruction has no stated effect; Test-Logic-Reset
selects IDCODE. -/
def Obligations.LocksAndTap : Prop :=
  ∀ (s : State) (n t0 ir : Nat) (dr : Word),
    let shifted := fun t : State => t.out = s.out ++ [.tdo (2 * dr.toNat % 2 ^ 64)]
    (s.lockAt = [(n, t0)] → s.rd (MXC_LOCK_HELD n) = 1 → s.lockPaused n = false → s.mxc = [] → Next .lockBreak s (fun t => t.lockAt = []
      ∧ t.rd (MXC_LOCK_HELD n) = 0 ∧ t.rd MXC_CNT_BREAKS = min (s.rd MXC_CNT_BREAKS + 1) (2 ^ 32 - 1) ∧ t.now = max s.now (t0 + 256) ∧ t.mem = s.mem))
    ∧ (s.power.off = false → ir = 1 → Next (.tapInstruction ir dr) s (fun t => t.gloley.tapIr = 1 ∧ t.regs = s.regs ∧ t.out.length = s.out.length + 1
        ∧ t.out.getLast?.any (fun o => match o with
            | .tdo w => w % 2 == 1 && w / 2 ^ 12 == s.rd IDENT_PART_SILICON_REV % 16 * 2 ^ 16 + 0x9600
            | _ => false) = true))
    ∧ (s.power.off = false → ir = 2 → Next (.tapInstruction ir dr) s (fun t => t.gloley.tapIr = 2 ∧ t.regs = s.regs ∧ t.power = s.power))
    ∧ (s.power.off = false → 3 ≤ ir → ir ≤ 7 → s.power.ripcord = false → Next (.tapInstruction ir dr) s (fun t => t.gloley.tapIr = ir ∧ t.power.ripcord = true
        ∧ AllOff t ∧ t.tlog = s.tlog ∧ (ir = 4 ∨ ir = 5 → shifted t)))
    ∧ (s.power.off = false → ir = 0 ∨ 8 < ir ∨ (ir = 8 ∧ s.lcs ≠ 0 ∧ s.lcs ≠ 3) → Next (.tapInstruction ir dr) s (fun t => t.gloley.tapIr = 0 ∧ shifted t
        ∧ t.regs = s.regs ∧ t.power = s.power))
    ∧ (s.power.off = false → ir = 8 → s.lcs = 0 ∨ s.lcs = 3 → exec (.tapInstruction ir dr) s = .refused .makerPrivate)
    ∧ (s.power.off = false → Next .testLogicReset s (fun t => t = { s with gloley := { s.gloley with tapIr := 1 } }))

/-! The Gloley port. -/
namespace Sys2Proof.Claim
open Sys2Proof.Machine Sys2Proof.Machine.Reg

/-- A request frame as R633 lays it out. -/
def frameHead (op tag sess arg : Nat) (data : List Byte) : List Byte :=
  leBytes 1 1 ++ leBytes 1 op ++ leBytes 1 0 ++ leBytes 1 tag ++ leBytes 2 data.length ++ leBytes 2 0 ++ leBytes 4 sess ++ leBytes 4 arg ++ data
def frameOf (op tag sess arg : Nat) (data : List Byte) : Frame :=
  { bytes := frameHead op tag sess arg data ++ leBytes 2 (crc16 (frameHead op tag sess arg data)) }

/-- The fields fit. -/
abbrev Fits (tag sess arg : Nat) (data : List Byte) : Prop := tag < 256 ∧ sess < 2 ^ 32 ∧ arg < 2 ^ 32 ∧ data.length ≤ 256

/-- The response that waits to be read is a frame of R633 with a KIND, STATUS, REPLY and payload. -/
abbrev Responds (t : State) (op tag kind status reply : Nat) (data : List Byte) : Prop :=
  let r := t.gloley.response
  let n := data.length
  r.take 6 = leBytes 1 1 ++ leBytes 1 op ++ leBytes 1 (128 + kind) ++ leBytes 1 tag ++ leBytes 2 n ∧ (r.drop 6).take 1 = leBytes 1 status
  ∧ (r.drop 10).take 6 = leBytes 2 0 ++ leBytes 4 reply ∧ r.drop 16 = data ++ leBytes 2 (crc16 (r.take (16 + n))) ∧ t.gloley.readOnce = false

/-- No request is being performed (R634; the moment is the model's, log 70). -/
abbrev PortFree (s : State) : Prop := s.gloley.readyAt ≤ s.now

/-- The port answers, is free, and serves what hardware serves (R637). -/
abbrev ServesHw (s : State) : Prop := s.power.off = false ∧ s.power.ripcord = false ∧ s.rd LCS_STATE_STATE < 4 ∧ PortFree s

/-- It serves what firmware serves too: READY, in RUN. -/
abbrev ServesFw (s : State) : Prop := ServesHw s ∧ s.rd LCS_BOOT_READY = 1 ∧ s.rd LCS_BOOT_PHASE = 5 ∧ s.rd PWR_STATE_STATE = 0

/-- Only the response and the free values it used changed; it is not lost, and no request is owed one. -/
abbrev OnlyResponse (s t : State) : Prop :=
  t = { s with free := t.free, gloley := { s.gloley with response := t.gloley.response, readOnce := t.gloley.readOnce, owed := false, lost := false } }

/-- The response of a request that firmware serves is ready at a moment within its bound of R636, which the model leaves free (log 70). -/
abbrev Within (s t : State) (bound : Nat) : Prop :=
  s.now ≤ t.gloley.readyAt ∧ t.gloley.readyAt ≤ s.now + bound ∧ t.gloley.owed = s.isReady

end Sys2Proof.Claim

/-- R634, R635, R637: a frame that fails its CRC or its form is answered FRAME_ERR, an unlisted request ST_BAD_OPCODE; before READY a firmware
request is answered BUSY_INIT, in the failed phase FAILED, in the ripcord state ST_NOT_READY; while a request is being performed (log 70) the
port takes no other, and a read is answered PENDING; a port without power does not answer. -/
def Sys2Proof.Claim.GloleyAvailability : Prop :=
  ∀ (s : State) (bs : List Byte) (tag arg : Nat) (data : List Byte) (i : Instr) (op : Nat),
    let bad := bs.length ≠ 18 + frameField bs 4 2 ∨ 256 < frameField bs 4 2 ∨ frameField bs 0 1 ≠ 1 ∨ frameField bs 2 1 ≠ 0
      ∨ frameField bs 6 2 ≠ 0 ∨ crc16 (bs.take (16 + frameField bs 4 2)) ≠ frameField bs (16 + frameField bs 4 2) 2
    let requests := fun f : Frame => [Instr.gloleyStatus f, .telemetry f, .gloleyLogRead f, .gloleyFaultAck f, .gloleyPowerCap f, .gloleyRoleAuth f,
      .gloleyReset f, .gloleyPowerState f, .mailbox f, .fwRecoveryOpen f, .fwRecoveryWrite f, .fwRecoveryCheck f, .fwRecoveryCommit f]
    (s.power.off = false → PortFree s → bad → i ∈ requests ⟨bs⟩ → Next i s (fun t => OnlyResponse s t
      ∧ Responds t (frameField bs 1 1) (frameField bs 3 1) 4 0 0 []))
    ∧ (s.power.off = false → PortFree s → Fits tag 0 arg data → op < 256 → op = 0 ∨ 10 < op → i ∈ requests (frameOf op tag 0 arg data) → Next i s (fun t =>
        OnlyResponse s t ∧ Responds t op tag 0 0x10 0 []))
    ∧ (ServesHw s → Fits tag 0 arg data → s.life.loading = false → s.rd LCS_BOOT_READY = 0 → s.rd PWR_STATE_STATE ≠ 2 →
        Next (.gloleyRoleAuth (frameOf 6 tag 0 arg data)) s (fun t => s.rd LCS_BOOT_PHASE ≠ 6 → OnlyResponse s t
          ∧ Responds t 6 tag (if s.rd LCS_BOOT_PHASE = 7 then 2 else 1) 0 0 []))
    ∧ (s.power.off = false → s.power.ripcord = true → PortFree s → Fits tag 0 arg data → (op, i) ∈ [(4, Instr.gloleyFaultAck (frameOf 4 tag 0 arg data)),
          (5, .gloleyPowerCap (frameOf 5 tag 0 arg data)), (7, .gloleyReset (frameOf 7 tag 0 arg data)),
          (8, .gloleyPowerState (frameOf 8 tag 0 arg data)), (9, .mailbox (frameOf 9 tag 0 arg data))] → Next i s (fun t =>
        OnlyResponse s t ∧ Responds t op tag 0 0x12 0 []))
    ∧ (s.power.off = false → s.now < s.gloley.readyAt → (i ∈ requests ⟨bs⟩ → exec i s = .next s)
        ∧ Next .gloleyResponseRead s (fun t => t.gloley = s.gloley ∧ t.regs = s.regs ∧ t.mem = s.mem ∧ t.out.length = s.out.length + 1
          ∧ t.out.getLast?.any (fun o => match o with
              | .gloley x => x.length == 18 && frameField x 2 1 == 0x83 && frameField x 4 2 == 0
              | _ => false) = true))
    ∧ (s.power.off = true → i ∈ requests ⟨bs⟩ → exec i s = .next s)

/-- R636, R639, R642: what hardware serves. STATUS reports the images and the alert causes and clears them; TELEMETRY the power and fault
images; LOG_READ a record; FAULT_ACK acknowledges class C alone; POWER_CAP sets the board cap in its range; MAILBOX rings, sends and
reads. -/
def Sys2Proof.Claim.GloleyRequests : Prop :=
  ∀ (s : State) (tag arg src t0 : Nat) (x : FltRec) (v : Word), ServesHw s → Fits tag 0 arg [] →
    let payload := fun (t : State) (k n : Nat) => (t.gloley.response.drop (16 + k)).take n
    let q := (s.side 28 1).queue
    Next (.gloleyStatus (frameOf 1 tag 0 arg [])) s (fun t => t.gloley.alerts = 0 ∧ Responds t 1 tag 0 0 s.gloley.alerts (payload t 0 32)
      ∧ payload t 0 24 = leBytes 8 (s.reg TIME_NOW).toNat ++ leBytes 8 (s.reg TIME_EPOCH).toNat ++ leBytes 8 (s.reg FLT_STAT).toNat
      ∧ leNat (payload t 24 8) / 2 ^ 63 = s.rd LCS_BOOT_READY ∧ t.regs = s.regs ∧ t.mem = s.mem)
    ∧ Next (.telemetry (frameOf 2 tag 0 arg [])) s (fun t => Responds t 2 tag 0 0 0 (payload t 0 64) ∧ payload t 0 8 = leBytes 8 (s.reg PWR_INPUT).toNat
        ∧ leNat (payload t 8 8) / 2 ^ 48 = s.envelope % 2 ^ 16 ∧ leNat (payload t 8 8) % 4 = s.level
        ∧ leNat (payload t 16 8) % 2 ^ 32 = (s.reg PWR_CAP).toNat % 2 ^ 32
        ∧ payload t 24 40 = leBytes 8 (s.reg PWR_STATE).toNat ++ leBytes 8 (s.reg PWR_DOMAIN_LO).toNat ++ leBytes 8 (s.reg PWR_DOMAIN_HI).toNat
            ++ leBytes 8 (s.reg CLK_STAT).toNat ++ leBytes 8 (s.reg FLT_STAT).toNat ∧ t.regs = s.regs ∧ t.mem = s.mem)
    ∧ (s.tlog = [x] → x.seq = arg → Next (.gloleyLogRead (frameOf 3 tag 0 arg [0, 1])) s (fun t => Responds t 3 tag 0 0 1 x.bytes
        ∧ t.regs = s.regs ∧ t.mem = s.mem))
    ∧ (tabFind s.srcTimer src = some (t0, x) → src < 640 → x.seq ≤ arg → arg < x.seq + 2 ^ 31 →
        (s.rd (FLT_SRC_PENDING src) = 2 → Next (.gloleyFaultAck (frameOf 4 tag 0 arg (leBytes 2 src))) s (fun t =>
          t.rd (FLT_SRC_PENDING src) = 0 ∧ tabFind t.srcTimer src = none ∧ Responds t 4 tag 0 0 0 [] ∧ t.mem = s.mem))
        ∧ (s.rd (FLT_SRC_PENDING src) = 1 → Next (.gloleyFaultAck (frameOf 4 tag 0 arg (leBytes 2 src))) s (fun t =>
          OnlyResponse s t ∧ Responds t 4 tag 0 0x13 0 [])))
    ∧ (Unloaded s → arg = 0 ∨ (s.rd PWR_LIMIT_CAP_MIN ≤ arg ∧ arg ≤ s.rd PWR_LIMIT_MAX_W) →
        Next (.gloleyPowerCap (frameOf 5 tag 0 arg [])) s (fun t => t.rd PWR_CAP_BOARD = arg ∧ Responds t 5 tag 0 0 t.capInEffect []
          ∧ (t.committed ≤ (t.envelope : Rat) ∨ t.level = 3) ∧ t.mem = s.mem))
    ∧ (arg ≠ 0 → arg < s.rd PWR_LIMIT_CAP_MIN ∨ s.rd PWR_LIMIT_MAX_W < arg →
        Next (.gloleyPowerCap (frameOf 5 tag 0 arg [])) s (fun t => OnlyResponse s t ∧ Responds t 5 tag 0 0x11 (if arg < 65536 then s.capInEffect else 0) []))
    ∧ (arg = 0 → s.rd (MBX_STAT_READY 28 0) = 1 → (s.side 28 0).queue.length < 16 → q.length ≤ 16 →
        Next (.mailbox (frameOf 9 tag 0 arg (leBytes 8 v.toNat))) s (fun t => (t.side 28 0).queue = (s.side 28 0).queue ++ [v]
          ∧ (t.side 28 1).queue = [] ∧ t.mem = s.mem
          ∧ Responds t 9 tag 0 0 ((15 - (s.side 28 0).queue.length) * 256) (q.flatMap (fun y => leBytes 8 y.toNat))))
    ∧ (arg = 0 → s.rd (MBX_STAT_READY 28 0) = 0 → q = [] → Alive s 588 →
        Next (.mailbox (frameOf 9 tag 0 arg (leBytes 8 v.toNat))) s (fun t => (t.side 28 0).queue = (s.side 28 0).queue
          ∧ Responds t 9 tag 0 0x14 0 [] ∧ t.mem = s.mem))

/-- R622, R634, R636, R638, R640, R641: what the port asks of the module. ROLE_AUTH is given a challenge; RESET resets the module 10 ms later, or
1 ms after its response was first read; POWER_STATE asks for a power state; a response is read as often as it is asked for, and one that lost
READY is ST_ABORTED_RESET. -/
def Sys2Proof.Claim.GloleyControl : Prop :=
  ∀ (s : State) (tag role target t0 : Nat) (susp : Bool), ServesHw s → Fits tag 0 0 [] →
    let arg := target + if susp then 256 else 0
    let now := s.rd PWR_STATE_STATE
    (ServesFw s → role < 2 → s.life.keysErased = false → NoSessions s → tabFind s.life.locked 64 = none → s.life.nextSession < 2 ^ 32 →
      Next (.gloleyRoleAuth (frameOf 6 tag 0 role [])) s (fun t =>
        (tabFind t.life.challenges 64).any (fun c => decide (c = (role, s.life.nextSession, s.now, c.2.2.2)
          ∧ Responds t 6 tag 0 0 s.life.nextSession (leBytes 64 c.2.2.2))) = true ∧ Within s t 200000000 ∧ t.regs = s.regs ∧ t.mem = s.mem))
    ∧ Next (.gloleyReset (frameOf 7 tag 0 0 [])) s (fun t => t.gloley.resetAt = some (s.now + 10000000) ∧ Responds t 7 tag 0 0 0 []
        ∧ t.regs = s.regs ∧ t.mem = s.mem)
    ∧ (s.gloley.resetAt = some t0 → Next .gloleyResetStart s (fun t => t.gloley.resetAt = none ∧ t.rd RST_CAUSE_LAST = 3 ∧ t.mem = [] ∧ t.chains = []
        ∧ t.rd LCS_BOOT_READY = 0 ∧ t.gloley.dyn = s.gloley.dyn ∧ t.gloley.i3c = s.gloley.i3c))
    ∧ (target < 4 → now = 3 → Next (.gloleyPowerState (frameOf 8 tag 0 arg [])) s (fun t => Responds t 8 tag 0 0x14 0 [] ∧ t.rd PWR_STATE_STATE = 3
        ∧ t.power = s.power ∧ t.mem = s.mem))
    ∧ (target < 4 → now < 3 → target = now → Next (.gloleyPowerState (frameOf 8 tag 0 arg [])) s (fun t => Responds t 8 tag 0 0 0 []
        ∧ t.rd PWR_STATE_STATE = now ∧ t.power = s.power ∧ t.mem = s.mem))
    ∧ (target < 4 → now < target → target ≠ 3 ∨ now < 3 → s.remoteWrite = false → s.working = false →
        Next (.gloleyPowerState (frameOf 8 tag 0 arg [])) s (fun t => Responds t 8 tag 0 0 0 [] ∧ t.rd PWR_STATE_STATE = 3
          ∧ t.power.target = some target ∧ t.mem = s.mem))
    ∧ (s.gloley.response ≠ [] → s.gloley.lost = true → Next .gloleyResponseRead s (fun t => t.out = s.out ++ [.gloley t.gloley.response]
        ∧ t.gloley.response.length = 18 ∧ frameField t.gloley.response 2 1 = 0x80 ∧ frameField t.gloley.response 6 1 = 3
        ∧ t.gloley.lost = false ∧ t.regs = s.regs ∧ t.mem = s.mem))
    ∧ (s.gloley.response ≠ [] → s.gloley.lost = false → Next .gloleyResponseRead s (fun t => t.out = s.out ++ [.gloley s.gloley.response]
        ∧ t.gloley.response = s.gloley.response
        ∧ t.gloley.resetAt = (if s.gloley.readOnce = false ∧ s.gloley.resetAt ≠ none then some (s.now + 1000000) else s.gloley.resetAt)
        ∧ t.regs = s.regs ∧ t.mem = s.mem))
    ∧ (s.gloley.response = [] → Next .gloleyResponseRead s (fun t => t.regs = s.regs ∧ t.mem = s.mem ∧ t.out.length = s.out.length + 1
        ∧ t.out.getLast?.any (fun o => match o with
            | .gloley bs => bs.length == 18 && frameField bs 2 1 == 0x83 && frameField bs 4 2 == 0
            | _ => false) = true))

/-- R607, R617, R618, R636: recovery over the port within an installer session: OPEN erases the length it names of bank 0, WRITE puts its payload at
the offset written so far, CHECK passes an image that verifies, COMMIT makes bank 0 the boot bank and resets the module; outside
PHASE RECOVERY none is served. -/
def Sys2Proof.Claim.GloleyRecovery : Prop :=
  ∀ (s : State) (tag sess arg o : Nat) (i : Fin 4) (data : List Byte), ServesHw s → Fits tag sess arg data →
    let session := s.reg (LCS_SESSION i.val) = BitVec.ofNat 64 (2 ^ 63 + 2 ^ 61 + 2 ^ 60 + sess)
      ∧ (List.range 4).all (fun j => j == i.val || s.rd (LCS_SESSION_ACTIVE j) == 0) = true
    let asks := session ∧ s.rd LCS_BOOT_PHASE = 6
    let mine := asks ∧ s.rd LCS_UPDATE_OPEN = 1 ∧ s.life.updSession = sess
    let written := s.rd LCS_UPDATE_WRITTEN
    (asks → s.rd LCS_UPDATE_OPEN = 0 → arg ≤ 0x0c000000 → Next (.fwRecoveryOpen (frameOf 10 tag sess arg [])) s (fun t =>
      t.rd LCS_UPDATE_OPEN = 1 ∧ t.rd LCS_UPDATE_STAGE = 1 ∧ t.rd LCS_UPDATE_WRITTEN = 0 ∧ t.life.updSession = sess
      ∧ t.life.flashOpen = some (0, arg) ∧ (o < arg → t.flashByte o = Config.flashErased) ∧ (arg ≤ o → t.flashByte o = s.flashByte o)
      ∧ Responds t 10 tag 0 0 0 [] ∧ t.mem = s.mem))
    ∧ (mine → s.rd LCS_UPDATE_STAGE = 1 ∨ s.rd LCS_UPDATE_STAGE = 2 → s.life.flashOpen = some (0, arg) → arg ≤ 0x0c000000 → data ≠ [] →
        written + data.length ≤ arg → Next (.fwRecoveryWrite (frameOf 10 tag sess (2 ^ 30 + written) data)) s (fun t =>
          t.rd LCS_UPDATE_WRITTEN = written + data.length ∧ t.rd LCS_UPDATE_STAGE = 2 ∧ t.flashBytes written data.length = data
          ∧ (o < written ∨ written + data.length ≤ o → t.flashByte o = s.flashByte o)
          ∧ Responds t 10 tag 0 0 (written + data.length) [] ∧ t.mem = s.mem))
    ∧ (mine → s.rd LCS_UPDATE_STAGE = 2 → Next (.fwRecoveryCheck (frameOf 10 tag sess (2 * 2 ^ 30) [])) s (fun t =>
        (if s.checkImage 0 = true then t.rd LCS_UPDATE_STAGE = 3 ∧ Responds t 10 tag 0 0 (leNat (s.flashBytes 0x10 4)) []
         else t.rd LCS_UPDATE_STAGE = 2 ∧ Responds t 10 tag 0 0x11 0 []) ∧ t.flash = s.flash ∧ t.mem = s.mem))
    ∧ (mine → s.rd LCS_UPDATE_STAGE = 3 → Next (.fwRecoveryCommit (frameOf 10 tag sess (3 * 2 ^ 30) [])) s (fun t =>
        t.rd RST_CAUSE_LAST = 3 ∧ t.rd LCS_FW_BOOT_BANK = 0 ∧ t.rd LCS_FW_TRIAL = 0 ∧ t.flash = s.flash ∧ t.mem = [] ∧ t.rd LCS_UPDATE_OPEN = 0
        ∧ t.rd LCS_BOOT_READY = 0 ∧ Responds t 10 tag 0 0 0 []))
    ∧ (ServesFw s → Next (.fwRecoveryOpen (frameOf 10 tag sess (arg % 2 ^ 30) data)) s (fun t => Within s t 3000000000
        ∧ OnlyResponse s { t with gloley := { t.gloley with readyAt := s.gloley.readyAt, owed := false } } ∧ Responds t 10 tag 0 0x12 0 []))

/-- R630, R631, R642: the bus commands of a port that has power. SETDASA and ENTDAA give an address to a port that has none, SETNEWDA another, RSTDAA
takes it; GETMRL and GETMWL report 274 bytes in I3C mode; ENEC and DISEC enable and disable in-band interrupts. -/
def Sys2Proof.Claim.GloleyBus : Prop :=
  ∀ (s : State) (a : Nat), s.power.off = false →
    let at' := fun (x : State) (d : Option Nat) => { x with gloley := { x.gloley with i3c := d.isSome, dyn := d } }
    let emits := fun v : Nat => { s with out := s.out ++ [.i3c v] }
    exec (.setdasa a) s = .next (if s.gloley.dyn = none then at' s (some a) else s)
    ∧ exec (.entdaa a) s = .next (if s.gloley.dyn = none then at' (emits (s.rd IDENT_SERIAL_SERIAL % 2 ^ 32)) (some a) else s)
    ∧ exec (.setnewda a) s = .next (if s.gloley.dyn = none then s else at' s (some a))
    ∧ exec .rstdaa s = .next (at' s none)
    ∧ exec .getmrl s = .next (if s.gloley.i3c then emits 274 else s)
    ∧ exec .getmwl s = .next (if s.gloley.i3c then emits 274 else s)
    ∧ exec .enec s = .next { s with gloley := { s.gloley with ibiEn := true } }
    ∧ exec .disec s = .next { s with gloley := { s.gloley with ibiEn := false } }

/-! Rules stated whole, and the machine's invariants. -/

/-- R545: a cap of 0 removes the cap, one in its range sets it, any other is ST_BAD_PARAM and changes nothing; REPLY0 holds the least of the caps
that are set and MAX_W. The ring sets the operator cap, the Gloley port the board cap under the same range. -/
def Obligations.PowerCaps : Prop :=
  ∀ (r : Ring) (s : State) (p : Packet) (cap tag : Nat), Unloaded s →
    let inRange := cap = 0 ∨ (s.rd PWR_LIMIT_CAP_MIN ≤ cap ∧ cap ≤ s.rd PWR_LIMIT_MAX_W)
    let least := fun t : State =>
      let m := t.rd PWR_LIMIT_MAX_W
      let a := if t.rd PWR_CAP_OPERATOR = 0 then m else min m (t.rd PWR_CAP_OPERATOR)
      if t.rd PWR_CAP_BOARD = 0 then a else min a (t.rd PWR_CAP_BOARD)
    (Has s r 0x70 p → p.w 1 % 2 ^ 16 = cap →
      (inRange → Next (.powerCap r) s (fun t => t.rd PWR_CAP_OPERATOR = cap ∧ t.rd PWR_CAP_BOARD = s.rd PWR_CAP_BOARD
        ∧ Answered s t r { ans p 0 with reply0 := least t } ∧ t.mem = s.mem))
      ∧ (¬ inRange → exec (.powerCap r) s = .next (answer s r { ans p 0x11 with reply0 := least s })))
    ∧ (ServesHw s → tag < 256 → cap < 2 ^ 16 →
      (inRange → Next (.gloleyPowerCap (frameOf 5 tag 0 cap [])) s (fun t => t.rd PWR_CAP_BOARD = cap ∧ t.rd PWR_CAP_OPERATOR = s.rd PWR_CAP_OPERATOR
        ∧ Responds t 5 tag 0 0 (least t) [] ∧ t.mem = s.mem))
      ∧ (¬ inRange → Next (.gloleyPowerCap (frameOf 5 tag 0 cap [])) s (fun t => OnlyResponse s t ∧ Responds t 5 tag 0 0x11 (least s) [])))

/-- R531: a write of PWR_LIMIT.SLEW takes effect at the first moment at which no input ramp is scheduled or in progress: at the write, or when the
last ramp ends. -/
def Obligations.SlewTakesEffect : Prop :=
  ∀ (s : State) (m : Master) (v : Word) (r : Ramp), Unloaded s →
    (s.fwOrInstaller m = true → Reaches s (whole m v) PWR_LIMIT → 1 ≤ v.toNat % 16 → v.toNat % 16 ≤ 8 →
      Next (.pwrLimitWrite (whole m v)) s (fun t => t.rd PWR_LIMIT_SLEW = v.toNat % 16
        ∧ t.power.slew = (if s.power.ramps = [] then v.toNat % 16 else s.power.slew)))
    ∧ (s.power.ramps = [r] → r.begun = true → Next .inputRampDone s (fun t => t.power.ramps = [] ∧ t.power.slew = s.rd PWR_LIMIT_SLEW
        ∧ t.now = max s.now r.fin))
    ∧ (r ∈ s.power.ramps → r.begun = false → Next .inputRampDone s (fun t => r ∈ t.power.ramps ∧ t.power.slew = s.power.slew))

/-- R585: when WINDOW ms pass with no event of a promoted source, its class falls by one step toward its default, and the wait begins again. -/
def Obligations.ClassDemoted : Prop :=
  ∀ (s : State) (src : Source),
    let f := src.val
    (srcDefault f < s.rd (FLT_SRC_CLASS f) → Next (.classDemotion src) s (fun t => t.rd (FLT_SRC_CLASS f) + 1 = s.rd (FLT_SRC_CLASS f)
      ∧ t.now = max s.now (tabGet s.srcQuiet 0 f + 1000000 * s.rd (FLT_SRC_WINDOW f)) ∧ tabGet t.srcQuiet 0 f = t.now
      ∧ (∀ g : Source, g ≠ src → t.rd (FLT_SRC_CLASS g.val) = s.rd (FLT_SRC_CLASS g.val)) ∧ t.mem = s.mem))
    ∧ (s.rd (FLT_SRC_CLASS f) ≤ srcDefault f → exec (.classDemotion src) s = .next s)

/-- R640: RESET starts a module reset with the cause GLOLEY, 10 ms after the request, and not later than a RESET before it starts it, or 1 ms
after a RESET's response is first read; the port keeps its mode and address, and an open update is abandoned. -/
def Obligations.GloleyReset : Prop :=
  ∀ (s : State) (tag t0 : Nat), ServesHw s → tag < 256 →
    Next (.gloleyReset (frameOf 7 tag 0 0 [])) s (fun t =>
      t.gloley.resetAt = some ((s.gloley.resetAt.map (fun u => min u (s.now + 10000000))).getD (s.now + 10000000)) ∧ t.gloley.readOnce = false
      ∧ Responds t 7 tag 0 0 0 [] ∧ t.regs = s.regs ∧ t.mem = s.mem)
    ∧ (s.gloley.resetAt = some t0 → s.gloley.response ≠ [] → s.gloley.lost = false → Next .gloleyResponseRead s (fun t =>
        t.gloley.resetAt = some (if s.gloley.readOnce = false ∧ ((s.gloley.response.drop 1).take 1).map (·.toNat) = [7] then s.now + 1000000 else t0)
        ∧ t.gloley.readOnce = true ∧ t.regs = s.regs ∧ t.mem = s.mem))
    ∧ (s.gloley.resetAt = some t0 → Next .gloleyResetStart s (fun t => s.now ≤ t.now ∧ t0 ≤ t.now ∧ t.rd RST_CAUSE_LAST = 3 ∧ t.mem = []
        ∧ t.chains = [] ∧ t.rd LCS_UPDATE_OPEN = 0 ∧ t.gloley.i3c = s.gloley.i3c ∧ t.gloley.dyn = s.gloley.dyn ∧ t.gloley.resetAt = none))

/-- R639: FAULT_ACK of the port acknowledges class C and completes with ST_NO_RIGHT for a pending class B acknowledgement; as R589 says of the host's, it
is ST_BAD_PARAM for a source of 640 or above, with none pending, or with a SEQ earlier than the timer's record. -/
def Obligations.GloleyAcknowledges : Prop :=
  ∀ (s : State) (tag seq src t0 : Nat) (x : FltRec), ServesHw s → Fits tag 0 seq [] → src < 2 ^ 16 →
    let pend := s.rd (FLT_SRC_PENDING src)
    let early := (seq + 1 ≤ x.seq ∧ x.seq < seq + 2 ^ 31) ∨ x.seq + 2 ^ 31 < seq
    (tabFind s.srcTimer src = some (t0, x) → x.seq < 2 ^ 32 → src < 640 → pend = 2 → ¬ early → Next (.gloleyFaultAck (frameOf 4 tag 0 seq (leBytes 2 src))) s (fun t =>
      t.rd (FLT_SRC_PENDING src) = 0 ∧ tabFind t.srcTimer src = none ∧ Responds t 4 tag 0 0 0 [] ∧ t.mem = s.mem))
    ∧ (tabFind s.srcTimer src = some (t0, x) → x.seq < 2 ^ 32 → src < 640 → pend = 1 → ¬ early → Next (.gloleyFaultAck (frameOf 4 tag 0 seq (leBytes 2 src))) s (fun t => OnlyResponse s t
        ∧ Responds t 4 tag 0 0x13 0 []))
    ∧ (640 ≤ src ∨ pend = 0 ∨ (tabFind s.srcTimer src = some (t0, x) ∧ x.seq < 2 ^ 32 ∧ early) → Next (.gloleyFaultAck (frameOf 4 tag 0 seq (leBytes 2 src))) s (fun t => OnlyResponse s t
        ∧ Responds t 4 tag 0 0x11 0 []))

/-- R70, R569, R601, R605, R611: what a power-on reset leaves. The power state is RUN at level 3, the caps are unset, the flash domain alone is on, PLL_SUP
is locked, SUP_A task 0 runs at the loader's entry, in PHASE LOADER and not READY, epoch 1 and time 0, and storage reads 0. The loader's
offset is the model's choice (log 11). -/
def Obligations.ResetState : Prop :=
  ∀ (a : Nat),
    let s := State.reset
    Memory.wf s.mem ∧ memGet s.mem a = 0 ∧ s.pending = [] ∧ s.rd PWR_STATE_STATE = 0 ∧ s.rd PWR_ENV_LEVEL = 3 ∧ s.rd PWR_CAP_OPERATOR = 0
    ∧ s.rd PWR_LIMIT_MAX_W = 1800 ∧ s.rd PWR_LIMIT_CAP_MIN = 600 ∧ s.rd PWR_LIMIT_SLEW = 4 ∧ s.rd PWR_CFG_THROTTLE = 95
    ∧ (a < 80 → s.domainOn a = decide (a = 79)) ∧ s.rd (CLK_PLL_STATE 0) = 2 ∧ s.rd TIME_NOW_NS = 0 ∧ s.rd TIME_EPOCH_EPOCH = 1
    ∧ s.rd LCS_BOOT_READY = 0 ∧ s.rd LCS_BOOT_PHASE = 1 ∧ (s.task 24 0).st = .run ∧ (s.task 24 0).pc = loaderEntry ∧ s.tlog = []

/-- The module's storage keeps its one canonical form in every step (R70: what is not listed reads 0). -/
def Obligations.StorageStaysCanonical : Prop :=
  ∀ (s t : State), Memory.wf s.mem → step s = .next t → Memory.wf t.mem

/-! Statements of several parts. -/

/-- The stack results, the integer results with their corners, and a divide by zero. -/
def Obligations.SundopStackAndIntegers : Prop := Claim.SundopStackResults ∧ Claim.SundopIntegerResults ∧ Claim.SundopDivideByZero

/-- Compares of integers and of reals, and branches. -/
def Obligations.SundopConditions : Prop := Claim.SundopCompares ∧ Claim.SundopRealCompares ∧ Claim.SundopBranches

/-- Floating point, its status register, and decimals. -/
def Obligations.SundopFloating : Prop := Claim.SundopFloat ∧ Claim.SundopFpStatus ∧ Claim.SundopDecimal

/-- Loads, also of bytes that an own store still holds. -/
def Obligations.SundopLoading : Prop := Claim.SundopLoads ∧ Claim.SundopLoadsOwnStore

/-- Stores, the store that leaves a core, and ALIGN. -/
def Obligations.SundopStoring : Prop := Claim.SundopStores ∧ Claim.SundopStoreLeaves ∧ Claim.SundopAlign

/-- Atomic operations and locked sequences. -/
def Obligations.SundopExclusive : Prop := Claim.SundopAtomics ∧ Claim.SundopLocks

/-- String operations, also of no bytes. -/
def Obligations.SundopStringOps : Prop := Claim.SundopStrings ∧ Claim.SundopEmptyStrings

/-- The instructions that hand work to a chain or a LOFT unit, and the wait for a chain. -/
def Obligations.SundopUnits : Prop := Claim.SundopChain ∧ Claim.SundopLoft ∧ Claim.SundopCwait

/-- GATE and GRET. -/
def Obligations.SundopGates : Prop := Claim.SundopGate ∧ Claim.SundopGret

/-- Traps, interrupts and drogues as they are entered, and the second fault that halts a task. -/
def Obligations.Handlers : Prop := Claim.TrapEntered ∧ Claim.InterruptEntered ∧ Claim.DrogueEntered ∧ Claim.DoubleFaultHalts

/-- What controls tasks, their pins and vectors, and the fetch of a line. -/
def Obligations.Tasks : Prop := Claim.TaskControl ∧ Claim.PinsAndVectors ∧ Claim.SundopLineFetch

/-- Register writes by their access codes, and the encodings a field does not list. -/
def Obligations.RegisterWriting : Prop := Claim.RegisterWrites ∧ Claim.RegisterEncodingKept

/-- Register reads, and the host's accesses through BAR2. -/
def Obligations.RegisterReading : Prop := Claim.RegisterReads ∧ Claim.HostBar2

/-- Grants, refresh, scrub and wear of a channel. -/
def Obligations.Channels : Prop := Claim.ChannelGrants ∧ Claim.RefreshTakesTime ∧ Claim.ScrubReads ∧ Claim.Wear

/-- The registers of channels and interleave, and the tail area. -/
def Obligations.MemoryRegisters : Prop := Claim.MemoryControl ∧ Claim.TailArea

/-- Sparing of rows and lanes, and wipes. -/
def Obligations.SparingAndWipes : Prop := Claim.Sparing ∧ Claim.WipeZeroes

/-- Queries, and the commands on programs, signals and buffers. -/
def Obligations.RingCommands : Prop := Claim.RingQueries ∧ Claim.RingObjects

/-- Moves and merges of a ring. -/
def Obligations.RingCopies : Prop := Claim.RingMoves ∧ Claim.RingMerge

/-- Translation and the tables it walks. -/
def Obligations.RingTranslationTables : Prop := Claim.RingTranslation ∧ Claim.RingTables

/-- Doorbells and the states of a ring. -/
def Obligations.RingLife : Prop := Claim.RingDoorbells ∧ Claim.RingStates

/-- Packets as they are read and started, and completions as they are posted. -/
def Obligations.RingFlow : Prop := Claim.RingPackets ∧ Claim.RingCompletions

/-- The block mover's registers and its bursts. -/
def Obligations.BlockMover : Prop := Claim.BlockMoverControl ∧ Claim.BlockMoverBursts

/-- Sessions, the life cycle and firmware update. -/
def Obligations.RolesAndFirmware : Prop := Claim.Sessions ∧ Claim.LifeCycle ∧ Claim.FirmwareUpdate

/-- A chain as it is issued and dispatched. -/
def Obligations.ChainStart : Prop := Claim.ChainIssue ∧ Claim.ChainDispatch

/-- What fills, drains and writes a slice's spools. -/
def Obligations.Spools : Prop := Claim.Streams ∧ Claim.SpoolWrites

/-- Verified windows and self-tests. -/
def Obligations.Verification : Prop := Claim.VerifiedWindows ∧ Claim.SelfTests

/-- LOFT operations as they start and as they compute. -/
def Obligations.Loft : Prop := Claim.LoftStarts ∧ Claim.LoftOps

/-- Completions of the host's link, and the resets of the host interface. -/
def Obligations.HostLinkEnds : Prop := Claim.HostCompletions ∧ Claim.HostResets

/-- The states of a port, and its flits. -/
def Obligations.Ports : Prop := Claim.LinkStates ∧ Claim.Flits

/-- Requests of peers, and messages that are forwarded or consumed. -/
def Obligations.FabricTraffic : Prop := Claim.PeerRequests ∧ Claim.FabricMessages

/-- What the fabric's buffers receive and send. -/
def Obligations.FabricTransfers : Prop := Claim.FabricBuffers ∧ Claim.FabricSends

/-- Power domains and power states. -/
def Obligations.PowerControl : Prop := Claim.Domains ∧ Claim.PowerStates

/-- Clocks, module resets, and the passing of time. -/
def Obligations.ClocksAndResets : Prop := Claim.Clocks ∧ Claim.ModuleResets ∧ Claim.IdleStep

/-- Fault records, and the commands of the fault collector. -/
def Obligations.Faults : Prop := Claim.FaultRecords ∧ Claim.FaultCommands

/-- When the port serves, and what hardware answers. -/
def Obligations.GloleyService : Prop := Claim.GloleyAvailability ∧ Claim.GloleyRequests

/-- What the port does to the module and to its firmware, and its bus. -/
def Obligations.GloleyActions : Prop := Claim.GloleyControl ∧ Claim.GloleyRecovery ∧ Claim.GloleyBus
end

