-- ==== Sys2Proof/Laws/Bits.lean ====
section
/-! SUPPORT. Fields of a word and keyed tables: what a read gives after a write. -/
namespace Sys2Proof.Machine

/-! Fields. -/

theorem setField_arith (w v hi lo : Nat) (hw : w < 2 ^ 64) (h : lo ≤ hi) (h64 : hi < 64) :
    w % 2 ^ lo + v % 2 ^ (hi + 1 - lo) * 2 ^ lo + w / 2 ^ (hi + 1) * 2 ^ (hi + 1) < 2 ^ 64 := by
  have e : 2 ^ (hi + 1) = 2 ^ (hi + 1 - lo) * 2 ^ lo := by rw [← Nat.pow_add]; congr 1; omega
  have h1 : w % 2 ^ lo < 2 ^ lo := Nat.mod_lt _ (by positivity)
  have h2 : v % 2 ^ (hi + 1 - lo) + 1 ≤ 2 ^ (hi + 1 - lo) := Nat.mod_lt _ (by positivity)
  have h3 : v % 2 ^ (hi + 1 - lo) * 2 ^ lo + 2 ^ lo ≤ 2 ^ (hi + 1) := by
    rw [e]; calc _ = (v % 2 ^ (hi + 1 - lo) + 1) * 2 ^ lo := by ring
      _ ≤ _ := Nat.mul_le_mul_right _ h2
  have e64 : 2 ^ 64 = 2 ^ (63 - hi) * 2 ^ (hi + 1) := by rw [← Nat.pow_add]; congr 1; omega
  have h4 : w / 2 ^ (hi + 1) + 1 ≤ 2 ^ (63 - hi) := by
    apply Nat.div_lt_of_lt_mul; rw [Nat.mul_comm, ← e64]; exact hw
  have h5 : w / 2 ^ (hi + 1) * 2 ^ (hi + 1) + 2 ^ (hi + 1) ≤ 2 ^ 64 := by
    rw [e64]; calc _ = (w / 2 ^ (hi + 1) + 1) * 2 ^ (hi + 1) := by ring
      _ ≤ _ := Nat.mul_le_mul_right _ h4
  omega

/-- The bits of a word after one of its fields was set, as one number. -/
theorem setField_toNat (w : Word) (hi lo v : Nat) (h : lo ≤ hi) (h64 : hi < 64) :
    (setField w hi lo v).toNat = w.toNat % 2 ^ lo + v % 2 ^ (hi + 1 - lo) * 2 ^ lo + w.toNat / 2 ^ (hi + 1) * 2 ^ (hi + 1) := by
  unfold setField
  rw [BitVec.toNat_ofNat]
  exact Nat.mod_eq_of_lt (setField_arith _ _ _ _ w.isLt h h64)

/-- A field reads as it was set, within its width. -/
theorem fieldOf_setField_same (w : Word) (hi lo v : Nat) (h : lo ≤ hi) (h64 : hi < 64) :
    fieldOf (setField w hi lo v) hi lo = v % 2 ^ (hi + 1 - lo) := by
  unfold fieldOf bitsOf
  rw [setField_toNat w hi lo v h h64]
  have e : 2 ^ (hi + 1) = 2 ^ lo * 2 ^ (hi + 1 - lo) := by rw [← Nat.pow_add]; congr 1; omega
  have h1 : w.toNat % 2 ^ lo < 2 ^ lo := Nat.mod_lt _ (by positivity)
  rw [e, show w.toNat % 2 ^ lo + v % 2 ^ (hi + 1 - lo) * 2 ^ lo + w.toNat / (2 ^ lo * 2 ^ (hi + 1 - lo)) * (2 ^ lo * 2 ^ (hi + 1 - lo))
    = w.toNat % 2 ^ lo + 2 ^ lo * (v % 2 ^ (hi + 1 - lo) + 2 ^ (hi + 1 - lo) * (w.toNat / (2 ^ lo * 2 ^ (hi + 1 - lo)))) by ring]
  rw [Nat.add_mul_div_left _ _ (by positivity), Nat.div_eq_of_lt h1, Nat.zero_add, Nat.add_mul_mod_self_left, Nat.mod_mod]

/-- A field below the one that was set reads as before. -/
theorem fieldOf_setField_below (w : Word) (hi lo v hi' lo' : Nat) (h : lo ≤ hi) (h64 : hi < 64) (hb : hi' < lo) :
    fieldOf (setField w hi lo v) hi' lo' = fieldOf w hi' lo' := by
  unfold fieldOf bitsOf
  rw [setField_toNat w hi lo v h h64]
  by_cases hl : lo' ≤ hi'
  · have e1 : 2 ^ lo = 2 ^ (hi' + 1) * 2 ^ (lo - (hi' + 1)) := by rw [← Nat.pow_add]; congr 1; omega
    have e2 : 2 ^ (hi + 1) = 2 ^ (hi' + 1) * 2 ^ (hi - hi') := by rw [← Nat.pow_add]; congr 1; omega
    have key : ∀ n : Nat, n / 2 ^ lo' % 2 ^ (hi' + 1 - lo') = n % 2 ^ (hi' + 1) / 2 ^ lo' := by
      intro n
      have e3 : 2 ^ (hi' + 1) = 2 ^ lo' * 2 ^ (hi' + 1 - lo') := by rw [← Nat.pow_add]; congr 1; omega
      rw [e3, Nat.mod_mul_right_div_self]
    rw [key, key]
    congr 1
    have f1 : v % 2 ^ (hi + 1 - lo) * 2 ^ lo = 2 ^ (hi' + 1) * (v % 2 ^ (hi + 1 - lo) * 2 ^ (lo - (hi' + 1))) := by
      rw [Nat.mul_left_comm, ← e1]
    have f2 : w.toNat / 2 ^ (hi + 1) * 2 ^ (hi + 1) = 2 ^ (hi' + 1) * (w.toNat / 2 ^ (hi + 1) * 2 ^ (hi - hi')) := by
      rw [Nat.mul_left_comm, ← e2]
    rw [f1, f2, Nat.add_assoc, ← Nat.mul_add, Nat.add_mul_mod_self_left, e1, Nat.mod_mul_right_mod]
  · have e : hi' + 1 - lo' = 0 := by omega
    rw [e]; simp [Nat.mod_one]

/-- A field above the one that was set reads as before. -/
theorem fieldOf_setField_above (w : Word) (hi lo v hi' lo' : Nat) (h : lo ≤ hi) (h64 : hi < 64) (ha : hi < lo') :
    fieldOf (setField w hi lo v) hi' lo' = fieldOf w hi' lo' := by
  unfold fieldOf bitsOf
  rw [setField_toNat w hi lo v h h64]
  congr 1
  have e : 2 ^ lo' = 2 ^ (hi + 1) * 2 ^ (lo' - (hi + 1)) := by rw [← Nat.pow_add]; congr 1; omega
  rw [e, ← Nat.div_div_eq_div_mul, ← Nat.div_div_eq_div_mul]
  congr 1
  have e2 : 2 ^ (hi + 1) = 2 ^ (hi + 1 - lo) * 2 ^ lo := by rw [← Nat.pow_add]; congr 1; omega
  have h1 : w.toNat % 2 ^ lo < 2 ^ lo := Nat.mod_lt _ (by positivity)
  have h2 : v % 2 ^ (hi + 1 - lo) + 1 ≤ 2 ^ (hi + 1 - lo) := Nat.mod_lt _ (by positivity)
  have h3 : v % 2 ^ (hi + 1 - lo) * 2 ^ lo + 2 ^ lo ≤ 2 ^ (hi + 1) := by
    rw [e2]; calc _ = (v % 2 ^ (hi + 1 - lo) + 1) * 2 ^ lo := by ring
      _ ≤ _ := Nat.mul_le_mul_right _ h2
  rw [Nat.mul_comm (w.toNat / 2 ^ (hi + 1)), Nat.add_mul_div_left _ _ (by positivity), Nat.div_eq_of_lt (by omega), Nat.zero_add]

/-! Tables. -/

@[simp] theorem tabGet_tabPut_same {α : Type} (t : Tab α) (d : α) (k : Nat) (v : α) : tabGet (tabPut t k v) d k = v := by
  induction t with
  | nil => simp [tabPut, tabGet]
  | cons p t ih =>
    obtain ⟨k', v'⟩ := p
    by_cases h : k' = k
    · simp [tabPut, tabGet, h]
    · by_cases h2 : k < k' <;> simp [tabPut, tabGet, h, h2, ih]

theorem tabGet_tabPut_other {α : Type} (t : Tab α) (d : α) (k j : Nat) (v : α) (h : j ≠ k) :
    tabGet (tabPut t k v) d j = tabGet t d j := by
  induction t with
  | nil => simp [tabPut, tabGet, Ne.symm h]
  | cons p t ih =>
    obtain ⟨k', v'⟩ := p
    by_cases h1 : k' = k
    · subst h1; simp [tabPut, tabGet, Ne.symm h]
    · by_cases h2 : k < k'
      · simp [tabPut, tabGet, h1, h2, Ne.symm h]
      · by_cases h3 : k' = j
        · subst h3; simp [tabPut, tabGet, h1, h2]
        · simp [tabPut, tabGet, h1, h2, h3, ih]

@[simp] theorem tabFind_tabPut_same {α : Type} (t : Tab α) (k : Nat) (v : α) : tabFind (tabPut t k v) k = some v := by
  induction t with
  | nil => simp [tabPut, tabFind]
  | cons p t ih =>
    obtain ⟨k', v'⟩ := p
    by_cases h : k' = k
    · simp [tabPut, tabFind, h]
    · by_cases h2 : k < k' <;> simp [tabPut, tabFind, h, h2, ih]

theorem tabFind_tabPut_other {α : Type} (t : Tab α) (k j : Nat) (v : α) (h : j ≠ k) :
    tabFind (tabPut t k v) j = tabFind t j := by
  induction t with
  | nil => simp [tabPut, tabFind, Ne.symm h]
  | cons p t ih =>
    obtain ⟨k', v'⟩ := p
    by_cases h1 : k' = k
    · subst h1; simp [tabPut, tabFind, Ne.symm h]
    · by_cases h2 : k < k'
      · simp [tabPut, tabFind, h1, h2, Ne.symm h]
      · by_cases h3 : k' = j
        · subst h3; simp [tabPut, tabFind, h1, h2]
        · simp [tabPut, tabFind, h1, h2, h3, ih]

/-- A table read with a default is what it lists, or the default. -/
theorem tabGet_eq_getD {α : Type} (t : Tab α) (d : α) (k : Nat) : tabGet t d k = (tabFind t k).getD d := by
  induction t with
  | nil => rfl
  | cons p t ih =>
    obtain ⟨k', v'⟩ := p
    by_cases h : k' = k <;> simp [tabGet, tabFind, h, ih]

@[simp] theorem tabFind_tabDel_same {α : Type} (t : Tab α) (k : Nat) : tabFind (tabDel t k) k = none := by
  induction t with
  | nil => rfl
  | cons p t ih =>
    obtain ⟨k', v'⟩ := p
    by_cases h : k' = k
    · simpa [tabDel, h] using ih
    · simpa [tabDel, h, tabFind] using ih

theorem tabFind_tabDel_other {α : Type} (t : Tab α) (k j : Nat) (h : j ≠ k) : tabFind (tabDel t k) j = tabFind t j := by
  induction t with
  | nil => rfl
  | cons p t ih =>
    obtain ⟨k', v'⟩ := p
    by_cases h1 : k' = k
    · subst h1; simpa [tabDel, tabFind, Ne.symm h] using ih
    · by_cases h2 : k' = j
      · subst h2; simp [tabDel, tabFind, h1]
      · simpa [tabDel, tabFind, h1, h2] using ih

end Sys2Proof.Machine
end

