-- ==== Sys2Proof/Laws/State.lean ====
section
/-! SUPPORT. What each update of the state leaves and what it sets, field by field. -/
namespace Sys2Proof.Machine

/-! `State.setReg`. -/

section
variable (s : State) (off : Nat) (w : Word)
@[simp] theorem State.setReg_regs : (s.setReg off w).regs = tabPut s.regs off w := rfl
@[simp] theorem State.setReg_mem : (s.setReg off w).mem = s.mem := rfl
@[simp] theorem State.setReg_memDmg : (s.setReg off w).memDmg = s.memDmg := rfl
@[simp] theorem State.setReg_spDmg : (s.setReg off w).spDmg = s.spDmg := rfl
@[simp] theorem State.setReg_flash : (s.setReg off w).flash = s.flash := rfl
@[simp] theorem State.setReg_erased : (s.setReg off w).erased = s.erased := rfl
@[simp] theorem State.setReg_now : (s.setReg off w).now = s.now := rfl
@[simp] theorem State.setReg_free : (s.setReg off w).free = s.free := rfl
@[simp] theorem State.setReg_halves : (s.setReg off w).halves = s.halves := rfl
@[simp] theorem State.setReg_lockAt : (s.setReg off w).lockAt = s.lockAt := rfl
@[simp] theorem State.setReg_mxc : (s.setReg off w).mxc = s.mxc := rfl
@[simp] theorem State.setReg_mxcLast : (s.setReg off w).mxcLast = s.mxcLast := rfl
@[simp] theorem State.setReg_chans : (s.setReg off w).chans = s.chans := rfl
@[simp] theorem State.setReg_tail : (s.setReg off w).tail = s.tail := rfl
@[simp] theorem State.setReg_tailArea : (s.setReg off w).tailArea = s.tailArea := rfl
@[simp] theorem State.setReg_tailNext : (s.setReg off w).tailNext = s.tailNext := rfl
@[simp] theorem State.setReg_tlog : (s.setReg off w).tlog = s.tlog := rfl
@[simp] theorem State.setReg_srcLast : (s.setReg off w).srcLast = s.srcLast := rfl
@[simp] theorem State.setReg_srcMerged : (s.setReg off w).srcMerged = s.srcMerged := rfl
@[simp] theorem State.setReg_srcTimer : (s.setReg off w).srcTimer = s.srcTimer := rfl
@[simp] theorem State.setReg_srcQuiet : (s.setReg off w).srcQuiet = s.srcQuiet := rfl
@[simp] theorem State.setReg_srcLeak : (s.setReg off w).srcLeak = s.srcLeak := rfl
@[simp] theorem State.setReg_chains : (s.setReg off w).chains = s.chains := rfl
@[simp] theorem State.setReg_nextChain : (s.setReg off w).nextChain = s.nextChain := rfl
@[simp] theorem State.setReg_svus : (s.setReg off w).svus = s.svus := rfl
@[simp] theorem State.setReg_heldReads : (s.setReg off w).heldReads = s.heldReads := rfl
@[simp] theorem State.setReg_tasks : (s.setReg off w).tasks = s.tasks := rfl
@[simp] theorem State.setReg_cores : (s.setReg off w).cores = s.cores := rfl
@[simp] theorem State.setReg_sup : (s.setReg off w).sup = s.sup := rfl
@[simp] theorem State.setReg_rings : (s.setReg off w).rings = s.rings := rfl
@[simp] theorem State.setReg_bells : (s.setReg off w).bells = s.bells := rfl
@[simp] theorem State.setReg_owedReads : (s.setReg off w).owedReads = s.owedReads := rfl
@[simp] theorem State.setReg_decisions : (s.setReg off w).decisions = s.decisions := rfl
@[simp] theorem State.setReg_credits : (s.setReg off w).credits = s.credits := rfl
@[simp] theorem State.setReg_mbx : (s.setReg off w).mbx = s.mbx := rfl
@[simp] theorem State.setReg_bmv : (s.setReg off w).bmv = s.bmv := rfl
@[simp] theorem State.setReg_bmvGrants : (s.setReg off w).bmvGrants = s.bmvGrants := rfl
@[simp] theorem State.setReg_bmvLast : (s.setReg off w).bmvLast = s.bmvLast := rfl
@[simp] theorem State.setReg_pools : (s.setReg off w).pools = s.pools := rfl
@[simp] theorem State.setReg_ports : (s.setReg off w).ports = s.ports := rfl
@[simp] theorem State.setReg_freqs : (s.setReg off w).freqs = s.freqs := rfl
@[simp] theorem State.setReg_routeOld : (s.setReg off w).routeOld = s.routeOld := rfl
@[simp] theorem State.setReg_routeHeld : (s.setReg off w).routeHeld = s.routeHeld := rfl
@[simp] theorem State.setReg_tagNext : (s.setReg off w).tagNext = s.tagNext := rfl
@[simp] theorem State.setReg_tagCool : (s.setReg off w).tagCool = s.tagCool := rfl
@[simp] theorem State.setReg_rbuf : (s.setReg off w).rbuf = s.rbuf := rfl
@[simp] theorem State.setReg_bufNext : (s.setReg off w).bufNext = s.bufNext := rfl
@[simp] theorem State.setReg_walking : (s.setReg off w).walking = s.walking := rfl
@[simp] theorem State.setReg_rxMsgs : (s.setReg off w).rxMsgs = s.rxMsgs := rfl
@[simp] theorem State.setReg_peers : (s.setReg off w).peers = s.peers := rfl
@[simp] theorem State.setReg_nodeBoot : (s.setReg off w).nodeBoot = s.nodeBoot := rfl
@[simp] theorem State.setReg_host : (s.setReg off w).host = s.host := rfl
@[simp] theorem State.setReg_power : (s.setReg off w).power = s.power := rfl
@[simp] theorem State.setReg_clock : (s.setReg off w).clock = s.clock := rfl
@[simp] theorem State.setReg_unitResets : (s.setReg off w).unitResets = s.unitResets := rfl
@[simp] theorem State.setReg_life : (s.setReg off w).life = s.life := rfl
@[simp] theorem State.setReg_gloley : (s.setReg off w).gloley = s.gloley := rfl
@[simp] theorem State.setReg_pins : (s.setReg off w).pins = s.pins := rfl
@[simp] theorem State.setReg_out : (s.setReg off w).out = s.out := rfl
@[simp] theorem State.setReg_pending : (s.setReg off w).pending = s.pending := rfl
end

/-! `State.wr`. -/

section
variable (s : State) (f : RF) (v : Nat)
@[simp] theorem State.wr_regs : (s.wr f v).regs = tabPut s.regs f.off (setField (s.reg f.off) f.hi f.lo v) := rfl
@[simp] theorem State.wr_mem : (s.wr f v).mem = s.mem := rfl
@[simp] theorem State.wr_memDmg : (s.wr f v).memDmg = s.memDmg := rfl
@[simp] theorem State.wr_spDmg : (s.wr f v).spDmg = s.spDmg := rfl
@[simp] theorem State.wr_flash : (s.wr f v).flash = s.flash := rfl
@[simp] theorem State.wr_erased : (s.wr f v).erased = s.erased := rfl
@[simp] theorem State.wr_now : (s.wr f v).now = s.now := rfl
@[simp] theorem State.wr_free : (s.wr f v).free = s.free := rfl
@[simp] theorem State.wr_halves : (s.wr f v).halves = s.halves := rfl
@[simp] theorem State.wr_lockAt : (s.wr f v).lockAt = s.lockAt := rfl
@[simp] theorem State.wr_mxc : (s.wr f v).mxc = s.mxc := rfl
@[simp] theorem State.wr_mxcLast : (s.wr f v).mxcLast = s.mxcLast := rfl
@[simp] theorem State.wr_chans : (s.wr f v).chans = s.chans := rfl
@[simp] theorem State.wr_tail : (s.wr f v).tail = s.tail := rfl
@[simp] theorem State.wr_tailArea : (s.wr f v).tailArea = s.tailArea := rfl
@[simp] theorem State.wr_tailNext : (s.wr f v).tailNext = s.tailNext := rfl
@[simp] theorem State.wr_tlog : (s.wr f v).tlog = s.tlog := rfl
@[simp] theorem State.wr_srcLast : (s.wr f v).srcLast = s.srcLast := rfl
@[simp] theorem State.wr_srcMerged : (s.wr f v).srcMerged = s.srcMerged := rfl
@[simp] theorem State.wr_srcTimer : (s.wr f v).srcTimer = s.srcTimer := rfl
@[simp] theorem State.wr_srcQuiet : (s.wr f v).srcQuiet = s.srcQuiet := rfl
@[simp] theorem State.wr_srcLeak : (s.wr f v).srcLeak = s.srcLeak := rfl
@[simp] theorem State.wr_chains : (s.wr f v).chains = s.chains := rfl
@[simp] theorem State.wr_nextChain : (s.wr f v).nextChain = s.nextChain := rfl
@[simp] theorem State.wr_svus : (s.wr f v).svus = s.svus := rfl
@[simp] theorem State.wr_heldReads : (s.wr f v).heldReads = s.heldReads := rfl
@[simp] theorem State.wr_tasks : (s.wr f v).tasks = s.tasks := rfl
@[simp] theorem State.wr_cores : (s.wr f v).cores = s.cores := rfl
@[simp] theorem State.wr_sup : (s.wr f v).sup = s.sup := rfl
@[simp] theorem State.wr_rings : (s.wr f v).rings = s.rings := rfl
@[simp] theorem State.wr_bells : (s.wr f v).bells = s.bells := rfl
@[simp] theorem State.wr_owedReads : (s.wr f v).owedReads = s.owedReads := rfl
@[simp] theorem State.wr_decisions : (s.wr f v).decisions = s.decisions := rfl
@[simp] theorem State.wr_credits : (s.wr f v).credits = s.credits := rfl
@[simp] theorem State.wr_mbx : (s.wr f v).mbx = s.mbx := rfl
@[simp] theorem State.wr_bmv : (s.wr f v).bmv = s.bmv := rfl
@[simp] theorem State.wr_bmvGrants : (s.wr f v).bmvGrants = s.bmvGrants := rfl
@[simp] theorem State.wr_bmvLast : (s.wr f v).bmvLast = s.bmvLast := rfl
@[simp] theorem State.wr_pools : (s.wr f v).pools = s.pools := rfl
@[simp] theorem State.wr_ports : (s.wr f v).ports = s.ports := rfl
@[simp] theorem State.wr_freqs : (s.wr f v).freqs = s.freqs := rfl
@[simp] theorem State.wr_routeOld : (s.wr f v).routeOld = s.routeOld := rfl
@[simp] theorem State.wr_routeHeld : (s.wr f v).routeHeld = s.routeHeld := rfl
@[simp] theorem State.wr_tagNext : (s.wr f v).tagNext = s.tagNext := rfl
@[simp] theorem State.wr_tagCool : (s.wr f v).tagCool = s.tagCool := rfl
@[simp] theorem State.wr_rbuf : (s.wr f v).rbuf = s.rbuf := rfl
@[simp] theorem State.wr_bufNext : (s.wr f v).bufNext = s.bufNext := rfl
@[simp] theorem State.wr_walking : (s.wr f v).walking = s.walking := rfl
@[simp] theorem State.wr_rxMsgs : (s.wr f v).rxMsgs = s.rxMsgs := rfl
@[simp] theorem State.wr_peers : (s.wr f v).peers = s.peers := rfl
@[simp] theorem State.wr_nodeBoot : (s.wr f v).nodeBoot = s.nodeBoot := rfl
@[simp] theorem State.wr_host : (s.wr f v).host = s.host := rfl
@[simp] theorem State.wr_power : (s.wr f v).power = s.power := rfl
@[simp] theorem State.wr_clock : (s.wr f v).clock = s.clock := rfl
@[simp] theorem State.wr_unitResets : (s.wr f v).unitResets = s.unitResets := rfl
@[simp] theorem State.wr_life : (s.wr f v).life = s.life := rfl
@[simp] theorem State.wr_gloley : (s.wr f v).gloley = s.gloley := rfl
@[simp] theorem State.wr_pins : (s.wr f v).pins = s.pins := rfl
@[simp] theorem State.wr_out : (s.wr f v).out = s.out := rfl
@[simp] theorem State.wr_pending : (s.wr f v).pending = s.pending := rfl
end

/-! `State.count`. -/

section
variable (s : State) (f : RF) (n : Nat)
@[simp] theorem State.count_mem : (s.count f n).mem = s.mem := rfl
@[simp] theorem State.count_memDmg : (s.count f n).memDmg = s.memDmg := rfl
@[simp] theorem State.count_spDmg : (s.count f n).spDmg = s.spDmg := rfl
@[simp] theorem State.count_flash : (s.count f n).flash = s.flash := rfl
@[simp] theorem State.count_erased : (s.count f n).erased = s.erased := rfl
@[simp] theorem State.count_now : (s.count f n).now = s.now := rfl
@[simp] theorem State.count_free : (s.count f n).free = s.free := rfl
@[simp] theorem State.count_halves : (s.count f n).halves = s.halves := rfl
@[simp] theorem State.count_lockAt : (s.count f n).lockAt = s.lockAt := rfl
@[simp] theorem State.count_mxc : (s.count f n).mxc = s.mxc := rfl
@[simp] theorem State.count_mxcLast : (s.count f n).mxcLast = s.mxcLast := rfl
@[simp] theorem State.count_chans : (s.count f n).chans = s.chans := rfl
@[simp] theorem State.count_tail : (s.count f n).tail = s.tail := rfl
@[simp] theorem State.count_tailArea : (s.count f n).tailArea = s.tailArea := rfl
@[simp] theorem State.count_tailNext : (s.count f n).tailNext = s.tailNext := rfl
@[simp] theorem State.count_tlog : (s.count f n).tlog = s.tlog := rfl
@[simp] theorem State.count_srcLast : (s.count f n).srcLast = s.srcLast := rfl
@[simp] theorem State.count_srcMerged : (s.count f n).srcMerged = s.srcMerged := rfl
@[simp] theorem State.count_srcTimer : (s.count f n).srcTimer = s.srcTimer := rfl
@[simp] theorem State.count_srcQuiet : (s.count f n).srcQuiet = s.srcQuiet := rfl
@[simp] theorem State.count_srcLeak : (s.count f n).srcLeak = s.srcLeak := rfl
@[simp] theorem State.count_chains : (s.count f n).chains = s.chains := rfl
@[simp] theorem State.count_nextChain : (s.count f n).nextChain = s.nextChain := rfl
@[simp] theorem State.count_svus : (s.count f n).svus = s.svus := rfl
@[simp] theorem State.count_heldReads : (s.count f n).heldReads = s.heldReads := rfl
@[simp] theorem State.count_tasks : (s.count f n).tasks = s.tasks := rfl
@[simp] theorem State.count_cores : (s.count f n).cores = s.cores := rfl
@[simp] theorem State.count_sup : (s.count f n).sup = s.sup := rfl
@[simp] theorem State.count_rings : (s.count f n).rings = s.rings := rfl
@[simp] theorem State.count_bells : (s.count f n).bells = s.bells := rfl
@[simp] theorem State.count_owedReads : (s.count f n).owedReads = s.owedReads := rfl
@[simp] theorem State.count_decisions : (s.count f n).decisions = s.decisions := rfl
@[simp] theorem State.count_credits : (s.count f n).credits = s.credits := rfl
@[simp] theorem State.count_mbx : (s.count f n).mbx = s.mbx := rfl
@[simp] theorem State.count_bmv : (s.count f n).bmv = s.bmv := rfl
@[simp] theorem State.count_bmvGrants : (s.count f n).bmvGrants = s.bmvGrants := rfl
@[simp] theorem State.count_bmvLast : (s.count f n).bmvLast = s.bmvLast := rfl
@[simp] theorem State.count_pools : (s.count f n).pools = s.pools := rfl
@[simp] theorem State.count_ports : (s.count f n).ports = s.ports := rfl
@[simp] theorem State.count_freqs : (s.count f n).freqs = s.freqs := rfl
@[simp] theorem State.count_routeOld : (s.count f n).routeOld = s.routeOld := rfl
@[simp] theorem State.count_routeHeld : (s.count f n).routeHeld = s.routeHeld := rfl
@[simp] theorem State.count_tagNext : (s.count f n).tagNext = s.tagNext := rfl
@[simp] theorem State.count_tagCool : (s.count f n).tagCool = s.tagCool := rfl
@[simp] theorem State.count_rbuf : (s.count f n).rbuf = s.rbuf := rfl
@[simp] theorem State.count_bufNext : (s.count f n).bufNext = s.bufNext := rfl
@[simp] theorem State.count_walking : (s.count f n).walking = s.walking := rfl
@[simp] theorem State.count_rxMsgs : (s.count f n).rxMsgs = s.rxMsgs := rfl
@[simp] theorem State.count_peers : (s.count f n).peers = s.peers := rfl
@[simp] theorem State.count_nodeBoot : (s.count f n).nodeBoot = s.nodeBoot := rfl
@[simp] theorem State.count_host : (s.count f n).host = s.host := rfl
@[simp] theorem State.count_power : (s.count f n).power = s.power := rfl
@[simp] theorem State.count_clock : (s.count f n).clock = s.clock := rfl
@[simp] theorem State.count_unitResets : (s.count f n).unitResets = s.unitResets := rfl
@[simp] theorem State.count_life : (s.count f n).life = s.life := rfl
@[simp] theorem State.count_gloley : (s.count f n).gloley = s.gloley := rfl
@[simp] theorem State.count_pins : (s.count f n).pins = s.pins := rfl
@[simp] theorem State.count_out : (s.count f n).out = s.out := rfl
@[simp] theorem State.count_pending : (s.count f n).pending = s.pending := rfl
end

/-! `State.countMod`. -/

section
variable (s : State) (f : RF) (n : Nat)
@[simp] theorem State.countMod_mem : (s.countMod f n).mem = s.mem := rfl
@[simp] theorem State.countMod_memDmg : (s.countMod f n).memDmg = s.memDmg := rfl
@[simp] theorem State.countMod_spDmg : (s.countMod f n).spDmg = s.spDmg := rfl
@[simp] theorem State.countMod_flash : (s.countMod f n).flash = s.flash := rfl
@[simp] theorem State.countMod_erased : (s.countMod f n).erased = s.erased := rfl
@[simp] theorem State.countMod_now : (s.countMod f n).now = s.now := rfl
@[simp] theorem State.countMod_free : (s.countMod f n).free = s.free := rfl
@[simp] theorem State.countMod_halves : (s.countMod f n).halves = s.halves := rfl
@[simp] theorem State.countMod_lockAt : (s.countMod f n).lockAt = s.lockAt := rfl
@[simp] theorem State.countMod_mxc : (s.countMod f n).mxc = s.mxc := rfl
@[simp] theorem State.countMod_mxcLast : (s.countMod f n).mxcLast = s.mxcLast := rfl
@[simp] theorem State.countMod_chans : (s.countMod f n).chans = s.chans := rfl
@[simp] theorem State.countMod_tail : (s.countMod f n).tail = s.tail := rfl
@[simp] theorem State.countMod_tailArea : (s.countMod f n).tailArea = s.tailArea := rfl
@[simp] theorem State.countMod_tailNext : (s.countMod f n).tailNext = s.tailNext := rfl
@[simp] theorem State.countMod_tlog : (s.countMod f n).tlog = s.tlog := rfl
@[simp] theorem State.countMod_srcLast : (s.countMod f n).srcLast = s.srcLast := rfl
@[simp] theorem State.countMod_srcMerged : (s.countMod f n).srcMerged = s.srcMerged := rfl
@[simp] theorem State.countMod_srcTimer : (s.countMod f n).srcTimer = s.srcTimer := rfl
@[simp] theorem State.countMod_srcQuiet : (s.countMod f n).srcQuiet = s.srcQuiet := rfl
@[simp] theorem State.countMod_srcLeak : (s.countMod f n).srcLeak = s.srcLeak := rfl
@[simp] theorem State.countMod_chains : (s.countMod f n).chains = s.chains := rfl
@[simp] theorem State.countMod_nextChain : (s.countMod f n).nextChain = s.nextChain := rfl
@[simp] theorem State.countMod_svus : (s.countMod f n).svus = s.svus := rfl
@[simp] theorem State.countMod_heldReads : (s.countMod f n).heldReads = s.heldReads := rfl
@[simp] theorem State.countMod_tasks : (s.countMod f n).tasks = s.tasks := rfl
@[simp] theorem State.countMod_cores : (s.countMod f n).cores = s.cores := rfl
@[simp] theorem State.countMod_sup : (s.countMod f n).sup = s.sup := rfl
@[simp] theorem State.countMod_rings : (s.countMod f n).rings = s.rings := rfl
@[simp] theorem State.countMod_bells : (s.countMod f n).bells = s.bells := rfl
@[simp] theorem State.countMod_owedReads : (s.countMod f n).owedReads = s.owedReads := rfl
@[simp] theorem State.countMod_decisions : (s.countMod f n).decisions = s.decisions := rfl
@[simp] theorem State.countMod_credits : (s.countMod f n).credits = s.credits := rfl
@[simp] theorem State.countMod_mbx : (s.countMod f n).mbx = s.mbx := rfl
@[simp] theorem State.countMod_bmv : (s.countMod f n).bmv = s.bmv := rfl
@[simp] theorem State.countMod_bmvGrants : (s.countMod f n).bmvGrants = s.bmvGrants := rfl
@[simp] theorem State.countMod_bmvLast : (s.countMod f n).bmvLast = s.bmvLast := rfl
@[simp] theorem State.countMod_pools : (s.countMod f n).pools = s.pools := rfl
@[simp] theorem State.countMod_ports : (s.countMod f n).ports = s.ports := rfl
@[simp] theorem State.countMod_freqs : (s.countMod f n).freqs = s.freqs := rfl
@[simp] theorem State.countMod_routeOld : (s.countMod f n).routeOld = s.routeOld := rfl
@[simp] theorem State.countMod_routeHeld : (s.countMod f n).routeHeld = s.routeHeld := rfl
@[simp] theorem State.countMod_tagNext : (s.countMod f n).tagNext = s.tagNext := rfl
@[simp] theorem State.countMod_tagCool : (s.countMod f n).tagCool = s.tagCool := rfl
@[simp] theorem State.countMod_rbuf : (s.countMod f n).rbuf = s.rbuf := rfl
@[simp] theorem State.countMod_bufNext : (s.countMod f n).bufNext = s.bufNext := rfl
@[simp] theorem State.countMod_walking : (s.countMod f n).walking = s.walking := rfl
@[simp] theorem State.countMod_rxMsgs : (s.countMod f n).rxMsgs = s.rxMsgs := rfl
@[simp] theorem State.countMod_peers : (s.countMod f n).peers = s.peers := rfl
@[simp] theorem State.countMod_nodeBoot : (s.countMod f n).nodeBoot = s.nodeBoot := rfl
@[simp] theorem State.countMod_host : (s.countMod f n).host = s.host := rfl
@[simp] theorem State.countMod_power : (s.countMod f n).power = s.power := rfl
@[simp] theorem State.countMod_clock : (s.countMod f n).clock = s.clock := rfl
@[simp] theorem State.countMod_unitResets : (s.countMod f n).unitResets = s.unitResets := rfl
@[simp] theorem State.countMod_life : (s.countMod f n).life = s.life := rfl
@[simp] theorem State.countMod_gloley : (s.countMod f n).gloley = s.gloley := rfl
@[simp] theorem State.countMod_pins : (s.countMod f n).pins = s.pins := rfl
@[simp] theorem State.countMod_out : (s.countMod f n).out = s.out := rfl
@[simp] theorem State.countMod_pending : (s.countMod f n).pending = s.pending := rfl
end

/-! `State.poke`. -/

section
variable (s : State) (off : Nat) (bs : List Byte)
@[simp] theorem State.poke_regs : (s.poke off bs).regs = s.regs := rfl
@[simp] theorem State.poke_mem : (s.poke off bs).mem = memPutList s.mem off bs := rfl
@[simp] theorem State.poke_memDmg : (s.poke off bs).memDmg = s.memDmg := rfl
@[simp] theorem State.poke_spDmg : (s.poke off bs).spDmg = s.spDmg := rfl
@[simp] theorem State.poke_flash : (s.poke off bs).flash = s.flash := rfl
@[simp] theorem State.poke_erased : (s.poke off bs).erased = s.erased := rfl
@[simp] theorem State.poke_now : (s.poke off bs).now = s.now := rfl
@[simp] theorem State.poke_free : (s.poke off bs).free = s.free := rfl
@[simp] theorem State.poke_halves : (s.poke off bs).halves = s.halves := rfl
@[simp] theorem State.poke_lockAt : (s.poke off bs).lockAt = s.lockAt := rfl
@[simp] theorem State.poke_mxc : (s.poke off bs).mxc = s.mxc := rfl
@[simp] theorem State.poke_mxcLast : (s.poke off bs).mxcLast = s.mxcLast := rfl
@[simp] theorem State.poke_chans : (s.poke off bs).chans = s.chans := rfl
@[simp] theorem State.poke_tail : (s.poke off bs).tail = s.tail := rfl
@[simp] theorem State.poke_tailArea : (s.poke off bs).tailArea = s.tailArea := rfl
@[simp] theorem State.poke_tailNext : (s.poke off bs).tailNext = s.tailNext := rfl
@[simp] theorem State.poke_tlog : (s.poke off bs).tlog = s.tlog := rfl
@[simp] theorem State.poke_srcLast : (s.poke off bs).srcLast = s.srcLast := rfl
@[simp] theorem State.poke_srcMerged : (s.poke off bs).srcMerged = s.srcMerged := rfl
@[simp] theorem State.poke_srcTimer : (s.poke off bs).srcTimer = s.srcTimer := rfl
@[simp] theorem State.poke_srcQuiet : (s.poke off bs).srcQuiet = s.srcQuiet := rfl
@[simp] theorem State.poke_srcLeak : (s.poke off bs).srcLeak = s.srcLeak := rfl
@[simp] theorem State.poke_chains : (s.poke off bs).chains = s.chains := rfl
@[simp] theorem State.poke_nextChain : (s.poke off bs).nextChain = s.nextChain := rfl
@[simp] theorem State.poke_svus : (s.poke off bs).svus = s.svus := rfl
@[simp] theorem State.poke_heldReads : (s.poke off bs).heldReads = s.heldReads := rfl
@[simp] theorem State.poke_tasks : (s.poke off bs).tasks = s.tasks := rfl
@[simp] theorem State.poke_cores : (s.poke off bs).cores = s.cores := rfl
@[simp] theorem State.poke_sup : (s.poke off bs).sup = s.sup := rfl
@[simp] theorem State.poke_rings : (s.poke off bs).rings = s.rings := rfl
@[simp] theorem State.poke_bells : (s.poke off bs).bells = s.bells := rfl
@[simp] theorem State.poke_owedReads : (s.poke off bs).owedReads = s.owedReads := rfl
@[simp] theorem State.poke_decisions : (s.poke off bs).decisions = s.decisions := rfl
@[simp] theorem State.poke_credits : (s.poke off bs).credits = s.credits := rfl
@[simp] theorem State.poke_mbx : (s.poke off bs).mbx = s.mbx := rfl
@[simp] theorem State.poke_bmv : (s.poke off bs).bmv = s.bmv := rfl
@[simp] theorem State.poke_bmvGrants : (s.poke off bs).bmvGrants = s.bmvGrants := rfl
@[simp] theorem State.poke_bmvLast : (s.poke off bs).bmvLast = s.bmvLast := rfl
@[simp] theorem State.poke_pools : (s.poke off bs).pools = s.pools := rfl
@[simp] theorem State.poke_ports : (s.poke off bs).ports = s.ports := rfl
@[simp] theorem State.poke_freqs : (s.poke off bs).freqs = s.freqs := rfl
@[simp] theorem State.poke_routeOld : (s.poke off bs).routeOld = s.routeOld := rfl
@[simp] theorem State.poke_routeHeld : (s.poke off bs).routeHeld = s.routeHeld := rfl
@[simp] theorem State.poke_tagNext : (s.poke off bs).tagNext = s.tagNext := rfl
@[simp] theorem State.poke_tagCool : (s.poke off bs).tagCool = s.tagCool := rfl
@[simp] theorem State.poke_rbuf : (s.poke off bs).rbuf = s.rbuf := rfl
@[simp] theorem State.poke_bufNext : (s.poke off bs).bufNext = s.bufNext := rfl
@[simp] theorem State.poke_walking : (s.poke off bs).walking = s.walking := rfl
@[simp] theorem State.poke_rxMsgs : (s.poke off bs).rxMsgs = s.rxMsgs := rfl
@[simp] theorem State.poke_peers : (s.poke off bs).peers = s.peers := rfl
@[simp] theorem State.poke_nodeBoot : (s.poke off bs).nodeBoot = s.nodeBoot := rfl
@[simp] theorem State.poke_host : (s.poke off bs).host = s.host := rfl
@[simp] theorem State.poke_power : (s.poke off bs).power = s.power := rfl
@[simp] theorem State.poke_clock : (s.poke off bs).clock = s.clock := rfl
@[simp] theorem State.poke_unitResets : (s.poke off bs).unitResets = s.unitResets := rfl
@[simp] theorem State.poke_life : (s.poke off bs).life = s.life := rfl
@[simp] theorem State.poke_gloley : (s.poke off bs).gloley = s.gloley := rfl
@[simp] theorem State.poke_pins : (s.poke off bs).pins = s.pins := rfl
@[simp] theorem State.poke_out : (s.poke off bs).out = s.out := rfl
@[simp] theorem State.poke_pending : (s.poke off bs).pending = s.pending := rfl
end

/-! `State.wipe`. -/

section
variable (s : State) (p : Nat → Bool)
@[simp] theorem State.wipe_regs : (s.wipe p).regs = s.regs := rfl
@[simp] theorem State.wipe_mem : (s.wipe p).mem = s.mem.filter (fun c => !p c.1) := rfl
@[simp] theorem State.wipe_flash : (s.wipe p).flash = s.flash := rfl
@[simp] theorem State.wipe_erased : (s.wipe p).erased = s.erased := rfl
@[simp] theorem State.wipe_now : (s.wipe p).now = s.now := rfl
@[simp] theorem State.wipe_free : (s.wipe p).free = s.free := rfl
@[simp] theorem State.wipe_halves : (s.wipe p).halves = s.halves := rfl
@[simp] theorem State.wipe_lockAt : (s.wipe p).lockAt = s.lockAt := rfl
@[simp] theorem State.wipe_mxc : (s.wipe p).mxc = s.mxc := rfl
@[simp] theorem State.wipe_mxcLast : (s.wipe p).mxcLast = s.mxcLast := rfl
@[simp] theorem State.wipe_chans : (s.wipe p).chans = s.chans := rfl
@[simp] theorem State.wipe_tail : (s.wipe p).tail = s.tail := rfl
@[simp] theorem State.wipe_tailArea : (s.wipe p).tailArea = s.tailArea := rfl
@[simp] theorem State.wipe_tailNext : (s.wipe p).tailNext = s.tailNext := rfl
@[simp] theorem State.wipe_tlog : (s.wipe p).tlog = s.tlog := rfl
@[simp] theorem State.wipe_srcLast : (s.wipe p).srcLast = s.srcLast := rfl
@[simp] theorem State.wipe_srcMerged : (s.wipe p).srcMerged = s.srcMerged := rfl
@[simp] theorem State.wipe_srcTimer : (s.wipe p).srcTimer = s.srcTimer := rfl
@[simp] theorem State.wipe_srcQuiet : (s.wipe p).srcQuiet = s.srcQuiet := rfl
@[simp] theorem State.wipe_srcLeak : (s.wipe p).srcLeak = s.srcLeak := rfl
@[simp] theorem State.wipe_chains : (s.wipe p).chains = s.chains := rfl
@[simp] theorem State.wipe_nextChain : (s.wipe p).nextChain = s.nextChain := rfl
@[simp] theorem State.wipe_svus : (s.wipe p).svus = s.svus := rfl
@[simp] theorem State.wipe_heldReads : (s.wipe p).heldReads = s.heldReads := rfl
@[simp] theorem State.wipe_tasks : (s.wipe p).tasks = s.tasks := rfl
@[simp] theorem State.wipe_cores : (s.wipe p).cores = s.cores := rfl
@[simp] theorem State.wipe_sup : (s.wipe p).sup = s.sup := rfl
@[simp] theorem State.wipe_rings : (s.wipe p).rings = s.rings := rfl
@[simp] theorem State.wipe_bells : (s.wipe p).bells = s.bells := rfl
@[simp] theorem State.wipe_owedReads : (s.wipe p).owedReads = s.owedReads := rfl
@[simp] theorem State.wipe_decisions : (s.wipe p).decisions = s.decisions := rfl
@[simp] theorem State.wipe_credits : (s.wipe p).credits = s.credits := rfl
@[simp] theorem State.wipe_mbx : (s.wipe p).mbx = s.mbx := rfl
@[simp] theorem State.wipe_bmv : (s.wipe p).bmv = s.bmv := rfl
@[simp] theorem State.wipe_bmvGrants : (s.wipe p).bmvGrants = s.bmvGrants := rfl
@[simp] theorem State.wipe_bmvLast : (s.wipe p).bmvLast = s.bmvLast := rfl
@[simp] theorem State.wipe_pools : (s.wipe p).pools = s.pools := rfl
@[simp] theorem State.wipe_ports : (s.wipe p).ports = s.ports := rfl
@[simp] theorem State.wipe_freqs : (s.wipe p).freqs = s.freqs := rfl
@[simp] theorem State.wipe_routeOld : (s.wipe p).routeOld = s.routeOld := rfl
@[simp] theorem State.wipe_routeHeld : (s.wipe p).routeHeld = s.routeHeld := rfl
@[simp] theorem State.wipe_tagNext : (s.wipe p).tagNext = s.tagNext := rfl
@[simp] theorem State.wipe_tagCool : (s.wipe p).tagCool = s.tagCool := rfl
@[simp] theorem State.wipe_rbuf : (s.wipe p).rbuf = s.rbuf := rfl
@[simp] theorem State.wipe_bufNext : (s.wipe p).bufNext = s.bufNext := rfl
@[simp] theorem State.wipe_walking : (s.wipe p).walking = s.walking := rfl
@[simp] theorem State.wipe_rxMsgs : (s.wipe p).rxMsgs = s.rxMsgs := rfl
@[simp] theorem State.wipe_peers : (s.wipe p).peers = s.peers := rfl
@[simp] theorem State.wipe_nodeBoot : (s.wipe p).nodeBoot = s.nodeBoot := rfl
@[simp] theorem State.wipe_host : (s.wipe p).host = s.host := rfl
@[simp] theorem State.wipe_power : (s.wipe p).power = s.power := rfl
@[simp] theorem State.wipe_clock : (s.wipe p).clock = s.clock := rfl
@[simp] theorem State.wipe_unitResets : (s.wipe p).unitResets = s.unitResets := rfl
@[simp] theorem State.wipe_life : (s.wipe p).life = s.life := rfl
@[simp] theorem State.wipe_gloley : (s.wipe p).gloley = s.gloley := rfl
@[simp] theorem State.wipe_pins : (s.wipe p).pins = s.pins := rfl
@[simp] theorem State.wipe_out : (s.wipe p).out = s.out := rfl
@[simp] theorem State.wipe_pending : (s.wipe p).pending = s.pending := rfl
end

/-! `State.setChan`. -/

section
variable (s : State) (c : Nat) (x : Channel)
@[simp] theorem State.setChan_regs : (s.setChan c x).regs = s.regs := rfl
@[simp] theorem State.setChan_mem : (s.setChan c x).mem = s.mem := rfl
@[simp] theorem State.setChan_memDmg : (s.setChan c x).memDmg = s.memDmg := rfl
@[simp] theorem State.setChan_spDmg : (s.setChan c x).spDmg = s.spDmg := rfl
@[simp] theorem State.setChan_flash : (s.setChan c x).flash = s.flash := rfl
@[simp] theorem State.setChan_erased : (s.setChan c x).erased = s.erased := rfl
@[simp] theorem State.setChan_now : (s.setChan c x).now = s.now := rfl
@[simp] theorem State.setChan_free : (s.setChan c x).free = s.free := rfl
@[simp] theorem State.setChan_halves : (s.setChan c x).halves = s.halves := rfl
@[simp] theorem State.setChan_lockAt : (s.setChan c x).lockAt = s.lockAt := rfl
@[simp] theorem State.setChan_mxc : (s.setChan c x).mxc = s.mxc := rfl
@[simp] theorem State.setChan_mxcLast : (s.setChan c x).mxcLast = s.mxcLast := rfl
@[simp] theorem State.setChan_chans : (s.setChan c x).chans = tabPut s.chans c x := rfl
@[simp] theorem State.setChan_tail : (s.setChan c x).tail = s.tail := rfl
@[simp] theorem State.setChan_tailArea : (s.setChan c x).tailArea = s.tailArea := rfl
@[simp] theorem State.setChan_tailNext : (s.setChan c x).tailNext = s.tailNext := rfl
@[simp] theorem State.setChan_tlog : (s.setChan c x).tlog = s.tlog := rfl
@[simp] theorem State.setChan_srcLast : (s.setChan c x).srcLast = s.srcLast := rfl
@[simp] theorem State.setChan_srcMerged : (s.setChan c x).srcMerged = s.srcMerged := rfl
@[simp] theorem State.setChan_srcTimer : (s.setChan c x).srcTimer = s.srcTimer := rfl
@[simp] theorem State.setChan_srcQuiet : (s.setChan c x).srcQuiet = s.srcQuiet := rfl
@[simp] theorem State.setChan_srcLeak : (s.setChan c x).srcLeak = s.srcLeak := rfl
@[simp] theorem State.setChan_chains : (s.setChan c x).chains = s.chains := rfl
@[simp] theorem State.setChan_nextChain : (s.setChan c x).nextChain = s.nextChain := rfl
@[simp] theorem State.setChan_svus : (s.setChan c x).svus = s.svus := rfl
@[simp] theorem State.setChan_heldReads : (s.setChan c x).heldReads = s.heldReads := rfl
@[simp] theorem State.setChan_tasks : (s.setChan c x).tasks = s.tasks := rfl
@[simp] theorem State.setChan_cores : (s.setChan c x).cores = s.cores := rfl
@[simp] theorem State.setChan_sup : (s.setChan c x).sup = s.sup := rfl
@[simp] theorem State.setChan_rings : (s.setChan c x).rings = s.rings := rfl
@[simp] theorem State.setChan_bells : (s.setChan c x).bells = s.bells := rfl
@[simp] theorem State.setChan_owedReads : (s.setChan c x).owedReads = s.owedReads := rfl
@[simp] theorem State.setChan_decisions : (s.setChan c x).decisions = s.decisions := rfl
@[simp] theorem State.setChan_credits : (s.setChan c x).credits = s.credits := rfl
@[simp] theorem State.setChan_mbx : (s.setChan c x).mbx = s.mbx := rfl
@[simp] theorem State.setChan_bmv : (s.setChan c x).bmv = s.bmv := rfl
@[simp] theorem State.setChan_bmvGrants : (s.setChan c x).bmvGrants = s.bmvGrants := rfl
@[simp] theorem State.setChan_bmvLast : (s.setChan c x).bmvLast = s.bmvLast := rfl
@[simp] theorem State.setChan_pools : (s.setChan c x).pools = s.pools := rfl
@[simp] theorem State.setChan_ports : (s.setChan c x).ports = s.ports := rfl
@[simp] theorem State.setChan_freqs : (s.setChan c x).freqs = s.freqs := rfl
@[simp] theorem State.setChan_routeOld : (s.setChan c x).routeOld = s.routeOld := rfl
@[simp] theorem State.setChan_routeHeld : (s.setChan c x).routeHeld = s.routeHeld := rfl
@[simp] theorem State.setChan_tagNext : (s.setChan c x).tagNext = s.tagNext := rfl
@[simp] theorem State.setChan_tagCool : (s.setChan c x).tagCool = s.tagCool := rfl
@[simp] theorem State.setChan_rbuf : (s.setChan c x).rbuf = s.rbuf := rfl
@[simp] theorem State.setChan_bufNext : (s.setChan c x).bufNext = s.bufNext := rfl
@[simp] theorem State.setChan_walking : (s.setChan c x).walking = s.walking := rfl
@[simp] theorem State.setChan_rxMsgs : (s.setChan c x).rxMsgs = s.rxMsgs := rfl
@[simp] theorem State.setChan_peers : (s.setChan c x).peers = s.peers := rfl
@[simp] theorem State.setChan_nodeBoot : (s.setChan c x).nodeBoot = s.nodeBoot := rfl
@[simp] theorem State.setChan_host : (s.setChan c x).host = s.host := rfl
@[simp] theorem State.setChan_power : (s.setChan c x).power = s.power := rfl
@[simp] theorem State.setChan_clock : (s.setChan c x).clock = s.clock := rfl
@[simp] theorem State.setChan_unitResets : (s.setChan c x).unitResets = s.unitResets := rfl
@[simp] theorem State.setChan_life : (s.setChan c x).life = s.life := rfl
@[simp] theorem State.setChan_gloley : (s.setChan c x).gloley = s.gloley := rfl
@[simp] theorem State.setChan_pins : (s.setChan c x).pins = s.pins := rfl
@[simp] theorem State.setChan_out : (s.setChan c x).out = s.out := rfl
@[simp] theorem State.setChan_pending : (s.setChan c x).pending = s.pending := rfl
end

/-! `State.setSvu`. -/

section
variable (s : State) (c : Nat) (x : SvuState)
@[simp] theorem State.setSvu_regs : (s.setSvu c x).regs = s.regs := rfl
@[simp] theorem State.setSvu_mem : (s.setSvu c x).mem = s.mem := rfl
@[simp] theorem State.setSvu_memDmg : (s.setSvu c x).memDmg = s.memDmg := rfl
@[simp] theorem State.setSvu_spDmg : (s.setSvu c x).spDmg = s.spDmg := rfl
@[simp] theorem State.setSvu_flash : (s.setSvu c x).flash = s.flash := rfl
@[simp] theorem State.setSvu_erased : (s.setSvu c x).erased = s.erased := rfl
@[simp] theorem State.setSvu_now : (s.setSvu c x).now = s.now := rfl
@[simp] theorem State.setSvu_free : (s.setSvu c x).free = s.free := rfl
@[simp] theorem State.setSvu_halves : (s.setSvu c x).halves = s.halves := rfl
@[simp] theorem State.setSvu_lockAt : (s.setSvu c x).lockAt = s.lockAt := rfl
@[simp] theorem State.setSvu_mxc : (s.setSvu c x).mxc = s.mxc := rfl
@[simp] theorem State.setSvu_mxcLast : (s.setSvu c x).mxcLast = s.mxcLast := rfl
@[simp] theorem State.setSvu_chans : (s.setSvu c x).chans = s.chans := rfl
@[simp] theorem State.setSvu_tail : (s.setSvu c x).tail = s.tail := rfl
@[simp] theorem State.setSvu_tailArea : (s.setSvu c x).tailArea = s.tailArea := rfl
@[simp] theorem State.setSvu_tailNext : (s.setSvu c x).tailNext = s.tailNext := rfl
@[simp] theorem State.setSvu_tlog : (s.setSvu c x).tlog = s.tlog := rfl
@[simp] theorem State.setSvu_srcLast : (s.setSvu c x).srcLast = s.srcLast := rfl
@[simp] theorem State.setSvu_srcMerged : (s.setSvu c x).srcMerged = s.srcMerged := rfl
@[simp] theorem State.setSvu_srcTimer : (s.setSvu c x).srcTimer = s.srcTimer := rfl
@[simp] theorem State.setSvu_srcQuiet : (s.setSvu c x).srcQuiet = s.srcQuiet := rfl
@[simp] theorem State.setSvu_srcLeak : (s.setSvu c x).srcLeak = s.srcLeak := rfl
@[simp] theorem State.setSvu_chains : (s.setSvu c x).chains = s.chains := rfl
@[simp] theorem State.setSvu_nextChain : (s.setSvu c x).nextChain = s.nextChain := rfl
@[simp] theorem State.setSvu_svus : (s.setSvu c x).svus = tabPut s.svus c x := rfl
@[simp] theorem State.setSvu_heldReads : (s.setSvu c x).heldReads = s.heldReads := rfl
@[simp] theorem State.setSvu_tasks : (s.setSvu c x).tasks = s.tasks := rfl
@[simp] theorem State.setSvu_cores : (s.setSvu c x).cores = s.cores := rfl
@[simp] theorem State.setSvu_sup : (s.setSvu c x).sup = s.sup := rfl
@[simp] theorem State.setSvu_rings : (s.setSvu c x).rings = s.rings := rfl
@[simp] theorem State.setSvu_bells : (s.setSvu c x).bells = s.bells := rfl
@[simp] theorem State.setSvu_owedReads : (s.setSvu c x).owedReads = s.owedReads := rfl
@[simp] theorem State.setSvu_decisions : (s.setSvu c x).decisions = s.decisions := rfl
@[simp] theorem State.setSvu_credits : (s.setSvu c x).credits = s.credits := rfl
@[simp] theorem State.setSvu_mbx : (s.setSvu c x).mbx = s.mbx := rfl
@[simp] theorem State.setSvu_bmv : (s.setSvu c x).bmv = s.bmv := rfl
@[simp] theorem State.setSvu_bmvGrants : (s.setSvu c x).bmvGrants = s.bmvGrants := rfl
@[simp] theorem State.setSvu_bmvLast : (s.setSvu c x).bmvLast = s.bmvLast := rfl
@[simp] theorem State.setSvu_pools : (s.setSvu c x).pools = s.pools := rfl
@[simp] theorem State.setSvu_ports : (s.setSvu c x).ports = s.ports := rfl
@[simp] theorem State.setSvu_freqs : (s.setSvu c x).freqs = s.freqs := rfl
@[simp] theorem State.setSvu_routeOld : (s.setSvu c x).routeOld = s.routeOld := rfl
@[simp] theorem State.setSvu_routeHeld : (s.setSvu c x).routeHeld = s.routeHeld := rfl
@[simp] theorem State.setSvu_tagNext : (s.setSvu c x).tagNext = s.tagNext := rfl
@[simp] theorem State.setSvu_tagCool : (s.setSvu c x).tagCool = s.tagCool := rfl
@[simp] theorem State.setSvu_rbuf : (s.setSvu c x).rbuf = s.rbuf := rfl
@[simp] theorem State.setSvu_bufNext : (s.setSvu c x).bufNext = s.bufNext := rfl
@[simp] theorem State.setSvu_walking : (s.setSvu c x).walking = s.walking := rfl
@[simp] theorem State.setSvu_rxMsgs : (s.setSvu c x).rxMsgs = s.rxMsgs := rfl
@[simp] theorem State.setSvu_peers : (s.setSvu c x).peers = s.peers := rfl
@[simp] theorem State.setSvu_nodeBoot : (s.setSvu c x).nodeBoot = s.nodeBoot := rfl
@[simp] theorem State.setSvu_host : (s.setSvu c x).host = s.host := rfl
@[simp] theorem State.setSvu_power : (s.setSvu c x).power = s.power := rfl
@[simp] theorem State.setSvu_clock : (s.setSvu c x).clock = s.clock := rfl
@[simp] theorem State.setSvu_unitResets : (s.setSvu c x).unitResets = s.unitResets := rfl
@[simp] theorem State.setSvu_life : (s.setSvu c x).life = s.life := rfl
@[simp] theorem State.setSvu_gloley : (s.setSvu c x).gloley = s.gloley := rfl
@[simp] theorem State.setSvu_pins : (s.setSvu c x).pins = s.pins := rfl
@[simp] theorem State.setSvu_out : (s.setSvu c x).out = s.out := rfl
@[simp] theorem State.setSvu_pending : (s.setSvu c x).pending = s.pending := rfl
end

/-! `State.setCore`. -/

section
variable (s : State) (c : Nat) (x : CoreState)
@[simp] theorem State.setCore_regs : (s.setCore c x).regs = s.regs := rfl
@[simp] theorem State.setCore_mem : (s.setCore c x).mem = s.mem := rfl
@[simp] theorem State.setCore_memDmg : (s.setCore c x).memDmg = s.memDmg := rfl
@[simp] theorem State.setCore_spDmg : (s.setCore c x).spDmg = s.spDmg := rfl
@[simp] theorem State.setCore_flash : (s.setCore c x).flash = s.flash := rfl
@[simp] theorem State.setCore_erased : (s.setCore c x).erased = s.erased := rfl
@[simp] theorem State.setCore_now : (s.setCore c x).now = s.now := rfl
@[simp] theorem State.setCore_free : (s.setCore c x).free = s.free := rfl
@[simp] theorem State.setCore_halves : (s.setCore c x).halves = s.halves := rfl
@[simp] theorem State.setCore_lockAt : (s.setCore c x).lockAt = s.lockAt := rfl
@[simp] theorem State.setCore_mxc : (s.setCore c x).mxc = s.mxc := rfl
@[simp] theorem State.setCore_mxcLast : (s.setCore c x).mxcLast = s.mxcLast := rfl
@[simp] theorem State.setCore_chans : (s.setCore c x).chans = s.chans := rfl
@[simp] theorem State.setCore_tail : (s.setCore c x).tail = s.tail := rfl
@[simp] theorem State.setCore_tailArea : (s.setCore c x).tailArea = s.tailArea := rfl
@[simp] theorem State.setCore_tailNext : (s.setCore c x).tailNext = s.tailNext := rfl
@[simp] theorem State.setCore_tlog : (s.setCore c x).tlog = s.tlog := rfl
@[simp] theorem State.setCore_srcLast : (s.setCore c x).srcLast = s.srcLast := rfl
@[simp] theorem State.setCore_srcMerged : (s.setCore c x).srcMerged = s.srcMerged := rfl
@[simp] theorem State.setCore_srcTimer : (s.setCore c x).srcTimer = s.srcTimer := rfl
@[simp] theorem State.setCore_srcQuiet : (s.setCore c x).srcQuiet = s.srcQuiet := rfl
@[simp] theorem State.setCore_srcLeak : (s.setCore c x).srcLeak = s.srcLeak := rfl
@[simp] theorem State.setCore_chains : (s.setCore c x).chains = s.chains := rfl
@[simp] theorem State.setCore_nextChain : (s.setCore c x).nextChain = s.nextChain := rfl
@[simp] theorem State.setCore_svus : (s.setCore c x).svus = s.svus := rfl
@[simp] theorem State.setCore_heldReads : (s.setCore c x).heldReads = s.heldReads := rfl
@[simp] theorem State.setCore_tasks : (s.setCore c x).tasks = s.tasks := rfl
@[simp] theorem State.setCore_cores : (s.setCore c x).cores = tabPut s.cores c x := rfl
@[simp] theorem State.setCore_sup : (s.setCore c x).sup = s.sup := rfl
@[simp] theorem State.setCore_rings : (s.setCore c x).rings = s.rings := rfl
@[simp] theorem State.setCore_bells : (s.setCore c x).bells = s.bells := rfl
@[simp] theorem State.setCore_owedReads : (s.setCore c x).owedReads = s.owedReads := rfl
@[simp] theorem State.setCore_decisions : (s.setCore c x).decisions = s.decisions := rfl
@[simp] theorem State.setCore_credits : (s.setCore c x).credits = s.credits := rfl
@[simp] theorem State.setCore_mbx : (s.setCore c x).mbx = s.mbx := rfl
@[simp] theorem State.setCore_bmv : (s.setCore c x).bmv = s.bmv := rfl
@[simp] theorem State.setCore_bmvGrants : (s.setCore c x).bmvGrants = s.bmvGrants := rfl
@[simp] theorem State.setCore_bmvLast : (s.setCore c x).bmvLast = s.bmvLast := rfl
@[simp] theorem State.setCore_pools : (s.setCore c x).pools = s.pools := rfl
@[simp] theorem State.setCore_ports : (s.setCore c x).ports = s.ports := rfl
@[simp] theorem State.setCore_freqs : (s.setCore c x).freqs = s.freqs := rfl
@[simp] theorem State.setCore_routeOld : (s.setCore c x).routeOld = s.routeOld := rfl
@[simp] theorem State.setCore_routeHeld : (s.setCore c x).routeHeld = s.routeHeld := rfl
@[simp] theorem State.setCore_tagNext : (s.setCore c x).tagNext = s.tagNext := rfl
@[simp] theorem State.setCore_tagCool : (s.setCore c x).tagCool = s.tagCool := rfl
@[simp] theorem State.setCore_rbuf : (s.setCore c x).rbuf = s.rbuf := rfl
@[simp] theorem State.setCore_bufNext : (s.setCore c x).bufNext = s.bufNext := rfl
@[simp] theorem State.setCore_walking : (s.setCore c x).walking = s.walking := rfl
@[simp] theorem State.setCore_rxMsgs : (s.setCore c x).rxMsgs = s.rxMsgs := rfl
@[simp] theorem State.setCore_peers : (s.setCore c x).peers = s.peers := rfl
@[simp] theorem State.setCore_nodeBoot : (s.setCore c x).nodeBoot = s.nodeBoot := rfl
@[simp] theorem State.setCore_host : (s.setCore c x).host = s.host := rfl
@[simp] theorem State.setCore_power : (s.setCore c x).power = s.power := rfl
@[simp] theorem State.setCore_clock : (s.setCore c x).clock = s.clock := rfl
@[simp] theorem State.setCore_unitResets : (s.setCore c x).unitResets = s.unitResets := rfl
@[simp] theorem State.setCore_life : (s.setCore c x).life = s.life := rfl
@[simp] theorem State.setCore_gloley : (s.setCore c x).gloley = s.gloley := rfl
@[simp] theorem State.setCore_pins : (s.setCore c x).pins = s.pins := rfl
@[simp] theorem State.setCore_out : (s.setCore c x).out = s.out := rfl
@[simp] theorem State.setCore_pending : (s.setCore c x).pending = s.pending := rfl
end

/-! `State.setRing`. -/

section
variable (s : State) (c : Nat) (x : RingState)
@[simp] theorem State.setRing_regs : (s.setRing c x).regs = s.regs := rfl
@[simp] theorem State.setRing_mem : (s.setRing c x).mem = s.mem := rfl
@[simp] theorem State.setRing_memDmg : (s.setRing c x).memDmg = s.memDmg := rfl
@[simp] theorem State.setRing_spDmg : (s.setRing c x).spDmg = s.spDmg := rfl
@[simp] theorem State.setRing_flash : (s.setRing c x).flash = s.flash := rfl
@[simp] theorem State.setRing_erased : (s.setRing c x).erased = s.erased := rfl
@[simp] theorem State.setRing_now : (s.setRing c x).now = s.now := rfl
@[simp] theorem State.setRing_free : (s.setRing c x).free = s.free := rfl
@[simp] theorem State.setRing_halves : (s.setRing c x).halves = s.halves := rfl
@[simp] theorem State.setRing_lockAt : (s.setRing c x).lockAt = s.lockAt := rfl
@[simp] theorem State.setRing_mxc : (s.setRing c x).mxc = s.mxc := rfl
@[simp] theorem State.setRing_mxcLast : (s.setRing c x).mxcLast = s.mxcLast := rfl
@[simp] theorem State.setRing_chans : (s.setRing c x).chans = s.chans := rfl
@[simp] theorem State.setRing_tail : (s.setRing c x).tail = s.tail := rfl
@[simp] theorem State.setRing_tailArea : (s.setRing c x).tailArea = s.tailArea := rfl
@[simp] theorem State.setRing_tailNext : (s.setRing c x).tailNext = s.tailNext := rfl
@[simp] theorem State.setRing_tlog : (s.setRing c x).tlog = s.tlog := rfl
@[simp] theorem State.setRing_srcLast : (s.setRing c x).srcLast = s.srcLast := rfl
@[simp] theorem State.setRing_srcMerged : (s.setRing c x).srcMerged = s.srcMerged := rfl
@[simp] theorem State.setRing_srcTimer : (s.setRing c x).srcTimer = s.srcTimer := rfl
@[simp] theorem State.setRing_srcQuiet : (s.setRing c x).srcQuiet = s.srcQuiet := rfl
@[simp] theorem State.setRing_srcLeak : (s.setRing c x).srcLeak = s.srcLeak := rfl
@[simp] theorem State.setRing_chains : (s.setRing c x).chains = s.chains := rfl
@[simp] theorem State.setRing_nextChain : (s.setRing c x).nextChain = s.nextChain := rfl
@[simp] theorem State.setRing_svus : (s.setRing c x).svus = s.svus := rfl
@[simp] theorem State.setRing_heldReads : (s.setRing c x).heldReads = s.heldReads := rfl
@[simp] theorem State.setRing_tasks : (s.setRing c x).tasks = s.tasks := rfl
@[simp] theorem State.setRing_cores : (s.setRing c x).cores = s.cores := rfl
@[simp] theorem State.setRing_sup : (s.setRing c x).sup = s.sup := rfl
@[simp] theorem State.setRing_rings : (s.setRing c x).rings = tabPut s.rings c x := rfl
@[simp] theorem State.setRing_bells : (s.setRing c x).bells = s.bells := rfl
@[simp] theorem State.setRing_owedReads : (s.setRing c x).owedReads = s.owedReads := rfl
@[simp] theorem State.setRing_decisions : (s.setRing c x).decisions = s.decisions := rfl
@[simp] theorem State.setRing_credits : (s.setRing c x).credits = s.credits := rfl
@[simp] theorem State.setRing_mbx : (s.setRing c x).mbx = s.mbx := rfl
@[simp] theorem State.setRing_bmv : (s.setRing c x).bmv = s.bmv := rfl
@[simp] theorem State.setRing_bmvGrants : (s.setRing c x).bmvGrants = s.bmvGrants := rfl
@[simp] theorem State.setRing_bmvLast : (s.setRing c x).bmvLast = s.bmvLast := rfl
@[simp] theorem State.setRing_pools : (s.setRing c x).pools = s.pools := rfl
@[simp] theorem State.setRing_ports : (s.setRing c x).ports = s.ports := rfl
@[simp] theorem State.setRing_freqs : (s.setRing c x).freqs = s.freqs := rfl
@[simp] theorem State.setRing_routeOld : (s.setRing c x).routeOld = s.routeOld := rfl
@[simp] theorem State.setRing_routeHeld : (s.setRing c x).routeHeld = s.routeHeld := rfl
@[simp] theorem State.setRing_tagNext : (s.setRing c x).tagNext = s.tagNext := rfl
@[simp] theorem State.setRing_tagCool : (s.setRing c x).tagCool = s.tagCool := rfl
@[simp] theorem State.setRing_rbuf : (s.setRing c x).rbuf = s.rbuf := rfl
@[simp] theorem State.setRing_bufNext : (s.setRing c x).bufNext = s.bufNext := rfl
@[simp] theorem State.setRing_walking : (s.setRing c x).walking = s.walking := rfl
@[simp] theorem State.setRing_rxMsgs : (s.setRing c x).rxMsgs = s.rxMsgs := rfl
@[simp] theorem State.setRing_peers : (s.setRing c x).peers = s.peers := rfl
@[simp] theorem State.setRing_nodeBoot : (s.setRing c x).nodeBoot = s.nodeBoot := rfl
@[simp] theorem State.setRing_host : (s.setRing c x).host = s.host := rfl
@[simp] theorem State.setRing_power : (s.setRing c x).power = s.power := rfl
@[simp] theorem State.setRing_clock : (s.setRing c x).clock = s.clock := rfl
@[simp] theorem State.setRing_unitResets : (s.setRing c x).unitResets = s.unitResets := rfl
@[simp] theorem State.setRing_life : (s.setRing c x).life = s.life := rfl
@[simp] theorem State.setRing_gloley : (s.setRing c x).gloley = s.gloley := rfl
@[simp] theorem State.setRing_pins : (s.setRing c x).pins = s.pins := rfl
@[simp] theorem State.setRing_out : (s.setRing c x).out = s.out := rfl
@[simp] theorem State.setRing_pending : (s.setRing c x).pending = s.pending := rfl
end

/-! `State.setBmv`. -/

section
variable (s : State) (c : Nat) (x : BmvState)
@[simp] theorem State.setBmv_regs : (s.setBmv c x).regs = s.regs := rfl
@[simp] theorem State.setBmv_mem : (s.setBmv c x).mem = s.mem := rfl
@[simp] theorem State.setBmv_memDmg : (s.setBmv c x).memDmg = s.memDmg := rfl
@[simp] theorem State.setBmv_spDmg : (s.setBmv c x).spDmg = s.spDmg := rfl
@[simp] theorem State.setBmv_flash : (s.setBmv c x).flash = s.flash := rfl
@[simp] theorem State.setBmv_erased : (s.setBmv c x).erased = s.erased := rfl
@[simp] theorem State.setBmv_now : (s.setBmv c x).now = s.now := rfl
@[simp] theorem State.setBmv_free : (s.setBmv c x).free = s.free := rfl
@[simp] theorem State.setBmv_halves : (s.setBmv c x).halves = s.halves := rfl
@[simp] theorem State.setBmv_lockAt : (s.setBmv c x).lockAt = s.lockAt := rfl
@[simp] theorem State.setBmv_mxc : (s.setBmv c x).mxc = s.mxc := rfl
@[simp] theorem State.setBmv_mxcLast : (s.setBmv c x).mxcLast = s.mxcLast := rfl
@[simp] theorem State.setBmv_chans : (s.setBmv c x).chans = s.chans := rfl
@[simp] theorem State.setBmv_tail : (s.setBmv c x).tail = s.tail := rfl
@[simp] theorem State.setBmv_tailArea : (s.setBmv c x).tailArea = s.tailArea := rfl
@[simp] theorem State.setBmv_tailNext : (s.setBmv c x).tailNext = s.tailNext := rfl
@[simp] theorem State.setBmv_tlog : (s.setBmv c x).tlog = s.tlog := rfl
@[simp] theorem State.setBmv_srcLast : (s.setBmv c x).srcLast = s.srcLast := rfl
@[simp] theorem State.setBmv_srcMerged : (s.setBmv c x).srcMerged = s.srcMerged := rfl
@[simp] theorem State.setBmv_srcTimer : (s.setBmv c x).srcTimer = s.srcTimer := rfl
@[simp] theorem State.setBmv_srcQuiet : (s.setBmv c x).srcQuiet = s.srcQuiet := rfl
@[simp] theorem State.setBmv_srcLeak : (s.setBmv c x).srcLeak = s.srcLeak := rfl
@[simp] theorem State.setBmv_chains : (s.setBmv c x).chains = s.chains := rfl
@[simp] theorem State.setBmv_nextChain : (s.setBmv c x).nextChain = s.nextChain := rfl
@[simp] theorem State.setBmv_svus : (s.setBmv c x).svus = s.svus := rfl
@[simp] theorem State.setBmv_heldReads : (s.setBmv c x).heldReads = s.heldReads := rfl
@[simp] theorem State.setBmv_tasks : (s.setBmv c x).tasks = s.tasks := rfl
@[simp] theorem State.setBmv_cores : (s.setBmv c x).cores = s.cores := rfl
@[simp] theorem State.setBmv_sup : (s.setBmv c x).sup = s.sup := rfl
@[simp] theorem State.setBmv_rings : (s.setBmv c x).rings = s.rings := rfl
@[simp] theorem State.setBmv_bells : (s.setBmv c x).bells = s.bells := rfl
@[simp] theorem State.setBmv_owedReads : (s.setBmv c x).owedReads = s.owedReads := rfl
@[simp] theorem State.setBmv_decisions : (s.setBmv c x).decisions = s.decisions := rfl
@[simp] theorem State.setBmv_credits : (s.setBmv c x).credits = s.credits := rfl
@[simp] theorem State.setBmv_mbx : (s.setBmv c x).mbx = s.mbx := rfl
@[simp] theorem State.setBmv_bmv : (s.setBmv c x).bmv = tabPut s.bmv c x := rfl
@[simp] theorem State.setBmv_bmvGrants : (s.setBmv c x).bmvGrants = s.bmvGrants := rfl
@[simp] theorem State.setBmv_bmvLast : (s.setBmv c x).bmvLast = s.bmvLast := rfl
@[simp] theorem State.setBmv_pools : (s.setBmv c x).pools = s.pools := rfl
@[simp] theorem State.setBmv_ports : (s.setBmv c x).ports = s.ports := rfl
@[simp] theorem State.setBmv_freqs : (s.setBmv c x).freqs = s.freqs := rfl
@[simp] theorem State.setBmv_routeOld : (s.setBmv c x).routeOld = s.routeOld := rfl
@[simp] theorem State.setBmv_routeHeld : (s.setBmv c x).routeHeld = s.routeHeld := rfl
@[simp] theorem State.setBmv_tagNext : (s.setBmv c x).tagNext = s.tagNext := rfl
@[simp] theorem State.setBmv_tagCool : (s.setBmv c x).tagCool = s.tagCool := rfl
@[simp] theorem State.setBmv_rbuf : (s.setBmv c x).rbuf = s.rbuf := rfl
@[simp] theorem State.setBmv_bufNext : (s.setBmv c x).bufNext = s.bufNext := rfl
@[simp] theorem State.setBmv_walking : (s.setBmv c x).walking = s.walking := rfl
@[simp] theorem State.setBmv_rxMsgs : (s.setBmv c x).rxMsgs = s.rxMsgs := rfl
@[simp] theorem State.setBmv_peers : (s.setBmv c x).peers = s.peers := rfl
@[simp] theorem State.setBmv_nodeBoot : (s.setBmv c x).nodeBoot = s.nodeBoot := rfl
@[simp] theorem State.setBmv_host : (s.setBmv c x).host = s.host := rfl
@[simp] theorem State.setBmv_power : (s.setBmv c x).power = s.power := rfl
@[simp] theorem State.setBmv_clock : (s.setBmv c x).clock = s.clock := rfl
@[simp] theorem State.setBmv_unitResets : (s.setBmv c x).unitResets = s.unitResets := rfl
@[simp] theorem State.setBmv_life : (s.setBmv c x).life = s.life := rfl
@[simp] theorem State.setBmv_gloley : (s.setBmv c x).gloley = s.gloley := rfl
@[simp] theorem State.setBmv_pins : (s.setBmv c x).pins = s.pins := rfl
@[simp] theorem State.setBmv_out : (s.setBmv c x).out = s.out := rfl
@[simp] theorem State.setBmv_pending : (s.setBmv c x).pending = s.pending := rfl
end

/-! `State.setPool`. -/

section
variable (s : State) (c : Nat) (x : PoolState)
@[simp] theorem State.setPool_regs : (s.setPool c x).regs = s.regs := rfl
@[simp] theorem State.setPool_mem : (s.setPool c x).mem = s.mem := rfl
@[simp] theorem State.setPool_memDmg : (s.setPool c x).memDmg = s.memDmg := rfl
@[simp] theorem State.setPool_spDmg : (s.setPool c x).spDmg = s.spDmg := rfl
@[simp] theorem State.setPool_flash : (s.setPool c x).flash = s.flash := rfl
@[simp] theorem State.setPool_erased : (s.setPool c x).erased = s.erased := rfl
@[simp] theorem State.setPool_now : (s.setPool c x).now = s.now := rfl
@[simp] theorem State.setPool_free : (s.setPool c x).free = s.free := rfl
@[simp] theorem State.setPool_halves : (s.setPool c x).halves = s.halves := rfl
@[simp] theorem State.setPool_lockAt : (s.setPool c x).lockAt = s.lockAt := rfl
@[simp] theorem State.setPool_mxc : (s.setPool c x).mxc = s.mxc := rfl
@[simp] theorem State.setPool_mxcLast : (s.setPool c x).mxcLast = s.mxcLast := rfl
@[simp] theorem State.setPool_chans : (s.setPool c x).chans = s.chans := rfl
@[simp] theorem State.setPool_tail : (s.setPool c x).tail = s.tail := rfl
@[simp] theorem State.setPool_tailArea : (s.setPool c x).tailArea = s.tailArea := rfl
@[simp] theorem State.setPool_tailNext : (s.setPool c x).tailNext = s.tailNext := rfl
@[simp] theorem State.setPool_tlog : (s.setPool c x).tlog = s.tlog := rfl
@[simp] theorem State.setPool_srcLast : (s.setPool c x).srcLast = s.srcLast := rfl
@[simp] theorem State.setPool_srcMerged : (s.setPool c x).srcMerged = s.srcMerged := rfl
@[simp] theorem State.setPool_srcTimer : (s.setPool c x).srcTimer = s.srcTimer := rfl
@[simp] theorem State.setPool_srcQuiet : (s.setPool c x).srcQuiet = s.srcQuiet := rfl
@[simp] theorem State.setPool_srcLeak : (s.setPool c x).srcLeak = s.srcLeak := rfl
@[simp] theorem State.setPool_chains : (s.setPool c x).chains = s.chains := rfl
@[simp] theorem State.setPool_nextChain : (s.setPool c x).nextChain = s.nextChain := rfl
@[simp] theorem State.setPool_svus : (s.setPool c x).svus = s.svus := rfl
@[simp] theorem State.setPool_heldReads : (s.setPool c x).heldReads = s.heldReads := rfl
@[simp] theorem State.setPool_tasks : (s.setPool c x).tasks = s.tasks := rfl
@[simp] theorem State.setPool_cores : (s.setPool c x).cores = s.cores := rfl
@[simp] theorem State.setPool_sup : (s.setPool c x).sup = s.sup := rfl
@[simp] theorem State.setPool_rings : (s.setPool c x).rings = s.rings := rfl
@[simp] theorem State.setPool_bells : (s.setPool c x).bells = s.bells := rfl
@[simp] theorem State.setPool_owedReads : (s.setPool c x).owedReads = s.owedReads := rfl
@[simp] theorem State.setPool_decisions : (s.setPool c x).decisions = s.decisions := rfl
@[simp] theorem State.setPool_credits : (s.setPool c x).credits = s.credits := rfl
@[simp] theorem State.setPool_mbx : (s.setPool c x).mbx = s.mbx := rfl
@[simp] theorem State.setPool_bmv : (s.setPool c x).bmv = s.bmv := rfl
@[simp] theorem State.setPool_bmvGrants : (s.setPool c x).bmvGrants = s.bmvGrants := rfl
@[simp] theorem State.setPool_bmvLast : (s.setPool c x).bmvLast = s.bmvLast := rfl
@[simp] theorem State.setPool_pools : (s.setPool c x).pools = tabPut s.pools c x := rfl
@[simp] theorem State.setPool_ports : (s.setPool c x).ports = s.ports := rfl
@[simp] theorem State.setPool_freqs : (s.setPool c x).freqs = s.freqs := rfl
@[simp] theorem State.setPool_routeOld : (s.setPool c x).routeOld = s.routeOld := rfl
@[simp] theorem State.setPool_routeHeld : (s.setPool c x).routeHeld = s.routeHeld := rfl
@[simp] theorem State.setPool_tagNext : (s.setPool c x).tagNext = s.tagNext := rfl
@[simp] theorem State.setPool_tagCool : (s.setPool c x).tagCool = s.tagCool := rfl
@[simp] theorem State.setPool_rbuf : (s.setPool c x).rbuf = s.rbuf := rfl
@[simp] theorem State.setPool_bufNext : (s.setPool c x).bufNext = s.bufNext := rfl
@[simp] theorem State.setPool_walking : (s.setPool c x).walking = s.walking := rfl
@[simp] theorem State.setPool_rxMsgs : (s.setPool c x).rxMsgs = s.rxMsgs := rfl
@[simp] theorem State.setPool_peers : (s.setPool c x).peers = s.peers := rfl
@[simp] theorem State.setPool_nodeBoot : (s.setPool c x).nodeBoot = s.nodeBoot := rfl
@[simp] theorem State.setPool_host : (s.setPool c x).host = s.host := rfl
@[simp] theorem State.setPool_power : (s.setPool c x).power = s.power := rfl
@[simp] theorem State.setPool_clock : (s.setPool c x).clock = s.clock := rfl
@[simp] theorem State.setPool_unitResets : (s.setPool c x).unitResets = s.unitResets := rfl
@[simp] theorem State.setPool_life : (s.setPool c x).life = s.life := rfl
@[simp] theorem State.setPool_gloley : (s.setPool c x).gloley = s.gloley := rfl
@[simp] theorem State.setPool_pins : (s.setPool c x).pins = s.pins := rfl
@[simp] theorem State.setPool_out : (s.setPool c x).out = s.out := rfl
@[simp] theorem State.setPool_pending : (s.setPool c x).pending = s.pending := rfl
end

/-! `State.setPort`. -/

section
variable (s : State) (c : Nat) (x : PortState)
@[simp] theorem State.setPort_regs : (s.setPort c x).regs = s.regs := rfl
@[simp] theorem State.setPort_mem : (s.setPort c x).mem = s.mem := rfl
@[simp] theorem State.setPort_memDmg : (s.setPort c x).memDmg = s.memDmg := rfl
@[simp] theorem State.setPort_spDmg : (s.setPort c x).spDmg = s.spDmg := rfl
@[simp] theorem State.setPort_flash : (s.setPort c x).flash = s.flash := rfl
@[simp] theorem State.setPort_erased : (s.setPort c x).erased = s.erased := rfl
@[simp] theorem State.setPort_now : (s.setPort c x).now = s.now := rfl
@[simp] theorem State.setPort_free : (s.setPort c x).free = s.free := rfl
@[simp] theorem State.setPort_halves : (s.setPort c x).halves = s.halves := rfl
@[simp] theorem State.setPort_lockAt : (s.setPort c x).lockAt = s.lockAt := rfl
@[simp] theorem State.setPort_mxc : (s.setPort c x).mxc = s.mxc := rfl
@[simp] theorem State.setPort_mxcLast : (s.setPort c x).mxcLast = s.mxcLast := rfl
@[simp] theorem State.setPort_chans : (s.setPort c x).chans = s.chans := rfl
@[simp] theorem State.setPort_tail : (s.setPort c x).tail = s.tail := rfl
@[simp] theorem State.setPort_tailArea : (s.setPort c x).tailArea = s.tailArea := rfl
@[simp] theorem State.setPort_tailNext : (s.setPort c x).tailNext = s.tailNext := rfl
@[simp] theorem State.setPort_tlog : (s.setPort c x).tlog = s.tlog := rfl
@[simp] theorem State.setPort_srcLast : (s.setPort c x).srcLast = s.srcLast := rfl
@[simp] theorem State.setPort_srcMerged : (s.setPort c x).srcMerged = s.srcMerged := rfl
@[simp] theorem State.setPort_srcTimer : (s.setPort c x).srcTimer = s.srcTimer := rfl
@[simp] theorem State.setPort_srcQuiet : (s.setPort c x).srcQuiet = s.srcQuiet := rfl
@[simp] theorem State.setPort_srcLeak : (s.setPort c x).srcLeak = s.srcLeak := rfl
@[simp] theorem State.setPort_chains : (s.setPort c x).chains = s.chains := rfl
@[simp] theorem State.setPort_nextChain : (s.setPort c x).nextChain = s.nextChain := rfl
@[simp] theorem State.setPort_svus : (s.setPort c x).svus = s.svus := rfl
@[simp] theorem State.setPort_heldReads : (s.setPort c x).heldReads = s.heldReads := rfl
@[simp] theorem State.setPort_tasks : (s.setPort c x).tasks = s.tasks := rfl
@[simp] theorem State.setPort_cores : (s.setPort c x).cores = s.cores := rfl
@[simp] theorem State.setPort_sup : (s.setPort c x).sup = s.sup := rfl
@[simp] theorem State.setPort_rings : (s.setPort c x).rings = s.rings := rfl
@[simp] theorem State.setPort_bells : (s.setPort c x).bells = s.bells := rfl
@[simp] theorem State.setPort_owedReads : (s.setPort c x).owedReads = s.owedReads := rfl
@[simp] theorem State.setPort_decisions : (s.setPort c x).decisions = s.decisions := rfl
@[simp] theorem State.setPort_credits : (s.setPort c x).credits = s.credits := rfl
@[simp] theorem State.setPort_mbx : (s.setPort c x).mbx = s.mbx := rfl
@[simp] theorem State.setPort_bmv : (s.setPort c x).bmv = s.bmv := rfl
@[simp] theorem State.setPort_bmvGrants : (s.setPort c x).bmvGrants = s.bmvGrants := rfl
@[simp] theorem State.setPort_bmvLast : (s.setPort c x).bmvLast = s.bmvLast := rfl
@[simp] theorem State.setPort_pools : (s.setPort c x).pools = s.pools := rfl
@[simp] theorem State.setPort_ports : (s.setPort c x).ports = tabPut s.ports c x := rfl
@[simp] theorem State.setPort_freqs : (s.setPort c x).freqs = s.freqs := rfl
@[simp] theorem State.setPort_routeOld : (s.setPort c x).routeOld = s.routeOld := rfl
@[simp] theorem State.setPort_routeHeld : (s.setPort c x).routeHeld = s.routeHeld := rfl
@[simp] theorem State.setPort_tagNext : (s.setPort c x).tagNext = s.tagNext := rfl
@[simp] theorem State.setPort_tagCool : (s.setPort c x).tagCool = s.tagCool := rfl
@[simp] theorem State.setPort_rbuf : (s.setPort c x).rbuf = s.rbuf := rfl
@[simp] theorem State.setPort_bufNext : (s.setPort c x).bufNext = s.bufNext := rfl
@[simp] theorem State.setPort_walking : (s.setPort c x).walking = s.walking := rfl
@[simp] theorem State.setPort_rxMsgs : (s.setPort c x).rxMsgs = s.rxMsgs := rfl
@[simp] theorem State.setPort_peers : (s.setPort c x).peers = s.peers := rfl
@[simp] theorem State.setPort_nodeBoot : (s.setPort c x).nodeBoot = s.nodeBoot := rfl
@[simp] theorem State.setPort_host : (s.setPort c x).host = s.host := rfl
@[simp] theorem State.setPort_power : (s.setPort c x).power = s.power := rfl
@[simp] theorem State.setPort_clock : (s.setPort c x).clock = s.clock := rfl
@[simp] theorem State.setPort_unitResets : (s.setPort c x).unitResets = s.unitResets := rfl
@[simp] theorem State.setPort_life : (s.setPort c x).life = s.life := rfl
@[simp] theorem State.setPort_gloley : (s.setPort c x).gloley = s.gloley := rfl
@[simp] theorem State.setPort_pins : (s.setPort c x).pins = s.pins := rfl
@[simp] theorem State.setPort_out : (s.setPort c x).out = s.out := rfl
@[simp] theorem State.setPort_pending : (s.setPort c x).pending = s.pending := rfl
end

/-! `State.setSide`. -/

section
variable (s : State) (m d : Nat) (x : MbxSide)
@[simp] theorem State.setSide_regs : (s.setSide m d x).regs = s.regs := rfl
@[simp] theorem State.setSide_mem : (s.setSide m d x).mem = s.mem := rfl
@[simp] theorem State.setSide_memDmg : (s.setSide m d x).memDmg = s.memDmg := rfl
@[simp] theorem State.setSide_spDmg : (s.setSide m d x).spDmg = s.spDmg := rfl
@[simp] theorem State.setSide_flash : (s.setSide m d x).flash = s.flash := rfl
@[simp] theorem State.setSide_erased : (s.setSide m d x).erased = s.erased := rfl
@[simp] theorem State.setSide_now : (s.setSide m d x).now = s.now := rfl
@[simp] theorem State.setSide_free : (s.setSide m d x).free = s.free := rfl
@[simp] theorem State.setSide_halves : (s.setSide m d x).halves = s.halves := rfl
@[simp] theorem State.setSide_lockAt : (s.setSide m d x).lockAt = s.lockAt := rfl
@[simp] theorem State.setSide_mxc : (s.setSide m d x).mxc = s.mxc := rfl
@[simp] theorem State.setSide_mxcLast : (s.setSide m d x).mxcLast = s.mxcLast := rfl
@[simp] theorem State.setSide_chans : (s.setSide m d x).chans = s.chans := rfl
@[simp] theorem State.setSide_tail : (s.setSide m d x).tail = s.tail := rfl
@[simp] theorem State.setSide_tailArea : (s.setSide m d x).tailArea = s.tailArea := rfl
@[simp] theorem State.setSide_tailNext : (s.setSide m d x).tailNext = s.tailNext := rfl
@[simp] theorem State.setSide_tlog : (s.setSide m d x).tlog = s.tlog := rfl
@[simp] theorem State.setSide_srcLast : (s.setSide m d x).srcLast = s.srcLast := rfl
@[simp] theorem State.setSide_srcMerged : (s.setSide m d x).srcMerged = s.srcMerged := rfl
@[simp] theorem State.setSide_srcTimer : (s.setSide m d x).srcTimer = s.srcTimer := rfl
@[simp] theorem State.setSide_srcQuiet : (s.setSide m d x).srcQuiet = s.srcQuiet := rfl
@[simp] theorem State.setSide_srcLeak : (s.setSide m d x).srcLeak = s.srcLeak := rfl
@[simp] theorem State.setSide_chains : (s.setSide m d x).chains = s.chains := rfl
@[simp] theorem State.setSide_nextChain : (s.setSide m d x).nextChain = s.nextChain := rfl
@[simp] theorem State.setSide_svus : (s.setSide m d x).svus = s.svus := rfl
@[simp] theorem State.setSide_heldReads : (s.setSide m d x).heldReads = s.heldReads := rfl
@[simp] theorem State.setSide_tasks : (s.setSide m d x).tasks = s.tasks := rfl
@[simp] theorem State.setSide_cores : (s.setSide m d x).cores = s.cores := rfl
@[simp] theorem State.setSide_sup : (s.setSide m d x).sup = s.sup := rfl
@[simp] theorem State.setSide_rings : (s.setSide m d x).rings = s.rings := rfl
@[simp] theorem State.setSide_bells : (s.setSide m d x).bells = s.bells := rfl
@[simp] theorem State.setSide_owedReads : (s.setSide m d x).owedReads = s.owedReads := rfl
@[simp] theorem State.setSide_decisions : (s.setSide m d x).decisions = s.decisions := rfl
@[simp] theorem State.setSide_credits : (s.setSide m d x).credits = s.credits := rfl
@[simp] theorem State.setSide_mbx : (s.setSide m d x).mbx = tabPut s.mbx (2 * m + d) x := rfl
@[simp] theorem State.setSide_bmv : (s.setSide m d x).bmv = s.bmv := rfl
@[simp] theorem State.setSide_bmvGrants : (s.setSide m d x).bmvGrants = s.bmvGrants := rfl
@[simp] theorem State.setSide_bmvLast : (s.setSide m d x).bmvLast = s.bmvLast := rfl
@[simp] theorem State.setSide_pools : (s.setSide m d x).pools = s.pools := rfl
@[simp] theorem State.setSide_ports : (s.setSide m d x).ports = s.ports := rfl
@[simp] theorem State.setSide_freqs : (s.setSide m d x).freqs = s.freqs := rfl
@[simp] theorem State.setSide_routeOld : (s.setSide m d x).routeOld = s.routeOld := rfl
@[simp] theorem State.setSide_routeHeld : (s.setSide m d x).routeHeld = s.routeHeld := rfl
@[simp] theorem State.setSide_tagNext : (s.setSide m d x).tagNext = s.tagNext := rfl
@[simp] theorem State.setSide_tagCool : (s.setSide m d x).tagCool = s.tagCool := rfl
@[simp] theorem State.setSide_rbuf : (s.setSide m d x).rbuf = s.rbuf := rfl
@[simp] theorem State.setSide_bufNext : (s.setSide m d x).bufNext = s.bufNext := rfl
@[simp] theorem State.setSide_walking : (s.setSide m d x).walking = s.walking := rfl
@[simp] theorem State.setSide_rxMsgs : (s.setSide m d x).rxMsgs = s.rxMsgs := rfl
@[simp] theorem State.setSide_peers : (s.setSide m d x).peers = s.peers := rfl
@[simp] theorem State.setSide_nodeBoot : (s.setSide m d x).nodeBoot = s.nodeBoot := rfl
@[simp] theorem State.setSide_host : (s.setSide m d x).host = s.host := rfl
@[simp] theorem State.setSide_power : (s.setSide m d x).power = s.power := rfl
@[simp] theorem State.setSide_clock : (s.setSide m d x).clock = s.clock := rfl
@[simp] theorem State.setSide_unitResets : (s.setSide m d x).unitResets = s.unitResets := rfl
@[simp] theorem State.setSide_life : (s.setSide m d x).life = s.life := rfl
@[simp] theorem State.setSide_gloley : (s.setSide m d x).gloley = s.gloley := rfl
@[simp] theorem State.setSide_pins : (s.setSide m d x).pins = s.pins := rfl
@[simp] theorem State.setSide_out : (s.setSide m d x).out = s.out := rfl
@[simp] theorem State.setSide_pending : (s.setSide m d x).pending = s.pending := rfl
end

/-! `State.setTask`. -/

section
variable (s : State) (c k : Nat) (x : TaskRegs)
@[simp] theorem State.setTask_regs : (s.setTask c k x).regs = s.regs := rfl
@[simp] theorem State.setTask_mem : (s.setTask c k x).mem = s.mem := rfl
@[simp] theorem State.setTask_memDmg : (s.setTask c k x).memDmg = s.memDmg := rfl
@[simp] theorem State.setTask_spDmg : (s.setTask c k x).spDmg = s.spDmg := rfl
@[simp] theorem State.setTask_flash : (s.setTask c k x).flash = s.flash := rfl
@[simp] theorem State.setTask_erased : (s.setTask c k x).erased = s.erased := rfl
@[simp] theorem State.setTask_now : (s.setTask c k x).now = s.now := rfl
@[simp] theorem State.setTask_free : (s.setTask c k x).free = s.free := rfl
@[simp] theorem State.setTask_halves : (s.setTask c k x).halves = s.halves := rfl
@[simp] theorem State.setTask_lockAt : (s.setTask c k x).lockAt = s.lockAt := rfl
@[simp] theorem State.setTask_mxc : (s.setTask c k x).mxc = s.mxc := rfl
@[simp] theorem State.setTask_mxcLast : (s.setTask c k x).mxcLast = s.mxcLast := rfl
@[simp] theorem State.setTask_chans : (s.setTask c k x).chans = s.chans := rfl
@[simp] theorem State.setTask_tail : (s.setTask c k x).tail = s.tail := rfl
@[simp] theorem State.setTask_tailArea : (s.setTask c k x).tailArea = s.tailArea := rfl
@[simp] theorem State.setTask_tailNext : (s.setTask c k x).tailNext = s.tailNext := rfl
@[simp] theorem State.setTask_tlog : (s.setTask c k x).tlog = s.tlog := rfl
@[simp] theorem State.setTask_srcLast : (s.setTask c k x).srcLast = s.srcLast := rfl
@[simp] theorem State.setTask_srcMerged : (s.setTask c k x).srcMerged = s.srcMerged := rfl
@[simp] theorem State.setTask_srcTimer : (s.setTask c k x).srcTimer = s.srcTimer := rfl
@[simp] theorem State.setTask_srcQuiet : (s.setTask c k x).srcQuiet = s.srcQuiet := rfl
@[simp] theorem State.setTask_srcLeak : (s.setTask c k x).srcLeak = s.srcLeak := rfl
@[simp] theorem State.setTask_chains : (s.setTask c k x).chains = s.chains := rfl
@[simp] theorem State.setTask_nextChain : (s.setTask c k x).nextChain = s.nextChain := rfl
@[simp] theorem State.setTask_svus : (s.setTask c k x).svus = s.svus := rfl
@[simp] theorem State.setTask_heldReads : (s.setTask c k x).heldReads = s.heldReads := rfl
@[simp] theorem State.setTask_tasks : (s.setTask c k x).tasks = tabPut s.tasks (64 * c + k) x := rfl
@[simp] theorem State.setTask_cores : (s.setTask c k x).cores = s.cores := rfl
@[simp] theorem State.setTask_sup : (s.setTask c k x).sup = s.sup := rfl
@[simp] theorem State.setTask_rings : (s.setTask c k x).rings = s.rings := rfl
@[simp] theorem State.setTask_bells : (s.setTask c k x).bells = s.bells := rfl
@[simp] theorem State.setTask_owedReads : (s.setTask c k x).owedReads = s.owedReads := rfl
@[simp] theorem State.setTask_decisions : (s.setTask c k x).decisions = s.decisions := rfl
@[simp] theorem State.setTask_credits : (s.setTask c k x).credits = s.credits := rfl
@[simp] theorem State.setTask_mbx : (s.setTask c k x).mbx = s.mbx := rfl
@[simp] theorem State.setTask_bmv : (s.setTask c k x).bmv = s.bmv := rfl
@[simp] theorem State.setTask_bmvGrants : (s.setTask c k x).bmvGrants = s.bmvGrants := rfl
@[simp] theorem State.setTask_bmvLast : (s.setTask c k x).bmvLast = s.bmvLast := rfl
@[simp] theorem State.setTask_pools : (s.setTask c k x).pools = s.pools := rfl
@[simp] theorem State.setTask_ports : (s.setTask c k x).ports = s.ports := rfl
@[simp] theorem State.setTask_freqs : (s.setTask c k x).freqs = s.freqs := rfl
@[simp] theorem State.setTask_routeOld : (s.setTask c k x).routeOld = s.routeOld := rfl
@[simp] theorem State.setTask_routeHeld : (s.setTask c k x).routeHeld = s.routeHeld := rfl
@[simp] theorem State.setTask_tagNext : (s.setTask c k x).tagNext = s.tagNext := rfl
@[simp] theorem State.setTask_tagCool : (s.setTask c k x).tagCool = s.tagCool := rfl
@[simp] theorem State.setTask_rbuf : (s.setTask c k x).rbuf = s.rbuf := rfl
@[simp] theorem State.setTask_bufNext : (s.setTask c k x).bufNext = s.bufNext := rfl
@[simp] theorem State.setTask_walking : (s.setTask c k x).walking = s.walking := rfl
@[simp] theorem State.setTask_rxMsgs : (s.setTask c k x).rxMsgs = s.rxMsgs := rfl
@[simp] theorem State.setTask_peers : (s.setTask c k x).peers = s.peers := rfl
@[simp] theorem State.setTask_nodeBoot : (s.setTask c k x).nodeBoot = s.nodeBoot := rfl
@[simp] theorem State.setTask_host : (s.setTask c k x).host = s.host := rfl
@[simp] theorem State.setTask_power : (s.setTask c k x).power = s.power := rfl
@[simp] theorem State.setTask_clock : (s.setTask c k x).clock = s.clock := rfl
@[simp] theorem State.setTask_unitResets : (s.setTask c k x).unitResets = s.unitResets := rfl
@[simp] theorem State.setTask_life : (s.setTask c k x).life = s.life := rfl
@[simp] theorem State.setTask_gloley : (s.setTask c k x).gloley = s.gloley := rfl
@[simp] theorem State.setTask_pins : (s.setTask c k x).pins = s.pins := rfl
@[simp] theorem State.setTask_out : (s.setTask c k x).out = s.out := rfl
@[simp] theorem State.setTask_pending : (s.setTask c k x).pending = s.pending := rfl
end

/-! `State.setChain`. -/

section
variable (s : State) (c : Chain)
@[simp] theorem State.setChain_regs : (s.setChain c).regs = s.regs := rfl
@[simp] theorem State.setChain_mem : (s.setChain c).mem = s.mem := rfl
@[simp] theorem State.setChain_memDmg : (s.setChain c).memDmg = s.memDmg := rfl
@[simp] theorem State.setChain_spDmg : (s.setChain c).spDmg = s.spDmg := rfl
@[simp] theorem State.setChain_flash : (s.setChain c).flash = s.flash := rfl
@[simp] theorem State.setChain_erased : (s.setChain c).erased = s.erased := rfl
@[simp] theorem State.setChain_now : (s.setChain c).now = s.now := rfl
@[simp] theorem State.setChain_free : (s.setChain c).free = s.free := rfl
@[simp] theorem State.setChain_halves : (s.setChain c).halves = s.halves := rfl
@[simp] theorem State.setChain_lockAt : (s.setChain c).lockAt = s.lockAt := rfl
@[simp] theorem State.setChain_mxc : (s.setChain c).mxc = s.mxc := rfl
@[simp] theorem State.setChain_mxcLast : (s.setChain c).mxcLast = s.mxcLast := rfl
@[simp] theorem State.setChain_chans : (s.setChain c).chans = s.chans := rfl
@[simp] theorem State.setChain_tail : (s.setChain c).tail = s.tail := rfl
@[simp] theorem State.setChain_tailArea : (s.setChain c).tailArea = s.tailArea := rfl
@[simp] theorem State.setChain_tailNext : (s.setChain c).tailNext = s.tailNext := rfl
@[simp] theorem State.setChain_tlog : (s.setChain c).tlog = s.tlog := rfl
@[simp] theorem State.setChain_srcLast : (s.setChain c).srcLast = s.srcLast := rfl
@[simp] theorem State.setChain_srcMerged : (s.setChain c).srcMerged = s.srcMerged := rfl
@[simp] theorem State.setChain_srcTimer : (s.setChain c).srcTimer = s.srcTimer := rfl
@[simp] theorem State.setChain_srcQuiet : (s.setChain c).srcQuiet = s.srcQuiet := rfl
@[simp] theorem State.setChain_srcLeak : (s.setChain c).srcLeak = s.srcLeak := rfl
@[simp] theorem State.setChain_chains : (s.setChain c).chains = s.chains.map (fun x => if x.id = c.id then c else x) := rfl
@[simp] theorem State.setChain_nextChain : (s.setChain c).nextChain = s.nextChain := rfl
@[simp] theorem State.setChain_svus : (s.setChain c).svus = s.svus := rfl
@[simp] theorem State.setChain_heldReads : (s.setChain c).heldReads = s.heldReads := rfl
@[simp] theorem State.setChain_tasks : (s.setChain c).tasks = s.tasks := rfl
@[simp] theorem State.setChain_cores : (s.setChain c).cores = s.cores := rfl
@[simp] theorem State.setChain_sup : (s.setChain c).sup = s.sup := rfl
@[simp] theorem State.setChain_rings : (s.setChain c).rings = s.rings := rfl
@[simp] theorem State.setChain_bells : (s.setChain c).bells = s.bells := rfl
@[simp] theorem State.setChain_owedReads : (s.setChain c).owedReads = s.owedReads := rfl
@[simp] theorem State.setChain_decisions : (s.setChain c).decisions = s.decisions := rfl
@[simp] theorem State.setChain_credits : (s.setChain c).credits = s.credits := rfl
@[simp] theorem State.setChain_mbx : (s.setChain c).mbx = s.mbx := rfl
@[simp] theorem State.setChain_bmv : (s.setChain c).bmv = s.bmv := rfl
@[simp] theorem State.setChain_bmvGrants : (s.setChain c).bmvGrants = s.bmvGrants := rfl
@[simp] theorem State.setChain_bmvLast : (s.setChain c).bmvLast = s.bmvLast := rfl
@[simp] theorem State.setChain_pools : (s.setChain c).pools = s.pools := rfl
@[simp] theorem State.setChain_ports : (s.setChain c).ports = s.ports := rfl
@[simp] theorem State.setChain_freqs : (s.setChain c).freqs = s.freqs := rfl
@[simp] theorem State.setChain_routeOld : (s.setChain c).routeOld = s.routeOld := rfl
@[simp] theorem State.setChain_routeHeld : (s.setChain c).routeHeld = s.routeHeld := rfl
@[simp] theorem State.setChain_tagNext : (s.setChain c).tagNext = s.tagNext := rfl
@[simp] theorem State.setChain_tagCool : (s.setChain c).tagCool = s.tagCool := rfl
@[simp] theorem State.setChain_rbuf : (s.setChain c).rbuf = s.rbuf := rfl
@[simp] theorem State.setChain_bufNext : (s.setChain c).bufNext = s.bufNext := rfl
@[simp] theorem State.setChain_walking : (s.setChain c).walking = s.walking := rfl
@[simp] theorem State.setChain_rxMsgs : (s.setChain c).rxMsgs = s.rxMsgs := rfl
@[simp] theorem State.setChain_peers : (s.setChain c).peers = s.peers := rfl
@[simp] theorem State.setChain_nodeBoot : (s.setChain c).nodeBoot = s.nodeBoot := rfl
@[simp] theorem State.setChain_host : (s.setChain c).host = s.host := rfl
@[simp] theorem State.setChain_power : (s.setChain c).power = s.power := rfl
@[simp] theorem State.setChain_clock : (s.setChain c).clock = s.clock := rfl
@[simp] theorem State.setChain_unitResets : (s.setChain c).unitResets = s.unitResets := rfl
@[simp] theorem State.setChain_life : (s.setChain c).life = s.life := rfl
@[simp] theorem State.setChain_gloley : (s.setChain c).gloley = s.gloley := rfl
@[simp] theorem State.setChain_pins : (s.setChain c).pins = s.pins := rfl
@[simp] theorem State.setChain_out : (s.setChain c).out = s.out := rfl
@[simp] theorem State.setChain_pending : (s.setChain c).pending = s.pending := rfl
end

/-! `State.updChain`. -/

section
variable (s : State) (id : Nat) (f : Chain → Chain)
@[simp] theorem State.updChain_regs : (s.updChain id f).regs = s.regs := rfl
@[simp] theorem State.updChain_mem : (s.updChain id f).mem = s.mem := rfl
@[simp] theorem State.updChain_memDmg : (s.updChain id f).memDmg = s.memDmg := rfl
@[simp] theorem State.updChain_spDmg : (s.updChain id f).spDmg = s.spDmg := rfl
@[simp] theorem State.updChain_flash : (s.updChain id f).flash = s.flash := rfl
@[simp] theorem State.updChain_erased : (s.updChain id f).erased = s.erased := rfl
@[simp] theorem State.updChain_now : (s.updChain id f).now = s.now := rfl
@[simp] theorem State.updChain_free : (s.updChain id f).free = s.free := rfl
@[simp] theorem State.updChain_halves : (s.updChain id f).halves = s.halves := rfl
@[simp] theorem State.updChain_lockAt : (s.updChain id f).lockAt = s.lockAt := rfl
@[simp] theorem State.updChain_mxc : (s.updChain id f).mxc = s.mxc := rfl
@[simp] theorem State.updChain_mxcLast : (s.updChain id f).mxcLast = s.mxcLast := rfl
@[simp] theorem State.updChain_chans : (s.updChain id f).chans = s.chans := rfl
@[simp] theorem State.updChain_tail : (s.updChain id f).tail = s.tail := rfl
@[simp] theorem State.updChain_tailArea : (s.updChain id f).tailArea = s.tailArea := rfl
@[simp] theorem State.updChain_tailNext : (s.updChain id f).tailNext = s.tailNext := rfl
@[simp] theorem State.updChain_tlog : (s.updChain id f).tlog = s.tlog := rfl
@[simp] theorem State.updChain_srcLast : (s.updChain id f).srcLast = s.srcLast := rfl
@[simp] theorem State.updChain_srcMerged : (s.updChain id f).srcMerged = s.srcMerged := rfl
@[simp] theorem State.updChain_srcTimer : (s.updChain id f).srcTimer = s.srcTimer := rfl
@[simp] theorem State.updChain_srcQuiet : (s.updChain id f).srcQuiet = s.srcQuiet := rfl
@[simp] theorem State.updChain_srcLeak : (s.updChain id f).srcLeak = s.srcLeak := rfl
@[simp] theorem State.updChain_chains : (s.updChain id f).chains = s.chains.map (fun x => if x.id = id then f x else x) := rfl
@[simp] theorem State.updChain_nextChain : (s.updChain id f).nextChain = s.nextChain := rfl
@[simp] theorem State.updChain_svus : (s.updChain id f).svus = s.svus := rfl
@[simp] theorem State.updChain_heldReads : (s.updChain id f).heldReads = s.heldReads := rfl
@[simp] theorem State.updChain_tasks : (s.updChain id f).tasks = s.tasks := rfl
@[simp] theorem State.updChain_cores : (s.updChain id f).cores = s.cores := rfl
@[simp] theorem State.updChain_sup : (s.updChain id f).sup = s.sup := rfl
@[simp] theorem State.updChain_rings : (s.updChain id f).rings = s.rings := rfl
@[simp] theorem State.updChain_bells : (s.updChain id f).bells = s.bells := rfl
@[simp] theorem State.updChain_owedReads : (s.updChain id f).owedReads = s.owedReads := rfl
@[simp] theorem State.updChain_decisions : (s.updChain id f).decisions = s.decisions := rfl
@[simp] theorem State.updChain_credits : (s.updChain id f).credits = s.credits := rfl
@[simp] theorem State.updChain_mbx : (s.updChain id f).mbx = s.mbx := rfl
@[simp] theorem State.updChain_bmv : (s.updChain id f).bmv = s.bmv := rfl
@[simp] theorem State.updChain_bmvGrants : (s.updChain id f).bmvGrants = s.bmvGrants := rfl
@[simp] theorem State.updChain_bmvLast : (s.updChain id f).bmvLast = s.bmvLast := rfl
@[simp] theorem State.updChain_pools : (s.updChain id f).pools = s.pools := rfl
@[simp] theorem State.updChain_ports : (s.updChain id f).ports = s.ports := rfl
@[simp] theorem State.updChain_freqs : (s.updChain id f).freqs = s.freqs := rfl
@[simp] theorem State.updChain_routeOld : (s.updChain id f).routeOld = s.routeOld := rfl
@[simp] theorem State.updChain_routeHeld : (s.updChain id f).routeHeld = s.routeHeld := rfl
@[simp] theorem State.updChain_tagNext : (s.updChain id f).tagNext = s.tagNext := rfl
@[simp] theorem State.updChain_tagCool : (s.updChain id f).tagCool = s.tagCool := rfl
@[simp] theorem State.updChain_rbuf : (s.updChain id f).rbuf = s.rbuf := rfl
@[simp] theorem State.updChain_bufNext : (s.updChain id f).bufNext = s.bufNext := rfl
@[simp] theorem State.updChain_walking : (s.updChain id f).walking = s.walking := rfl
@[simp] theorem State.updChain_rxMsgs : (s.updChain id f).rxMsgs = s.rxMsgs := rfl
@[simp] theorem State.updChain_peers : (s.updChain id f).peers = s.peers := rfl
@[simp] theorem State.updChain_nodeBoot : (s.updChain id f).nodeBoot = s.nodeBoot := rfl
@[simp] theorem State.updChain_host : (s.updChain id f).host = s.host := rfl
@[simp] theorem State.updChain_power : (s.updChain id f).power = s.power := rfl
@[simp] theorem State.updChain_clock : (s.updChain id f).clock = s.clock := rfl
@[simp] theorem State.updChain_unitResets : (s.updChain id f).unitResets = s.unitResets := rfl
@[simp] theorem State.updChain_life : (s.updChain id f).life = s.life := rfl
@[simp] theorem State.updChain_gloley : (s.updChain id f).gloley = s.gloley := rfl
@[simp] theorem State.updChain_pins : (s.updChain id f).pins = s.pins := rfl
@[simp] theorem State.updChain_out : (s.updChain id f).out = s.out := rfl
@[simp] theorem State.updChain_pending : (s.updChain id f).pending = s.pending := rfl
end

/-! `State.emit`. -/

section
variable (s : State) (o : Out)
@[simp] theorem State.emit_regs : (s.emit o).regs = s.regs := rfl
@[simp] theorem State.emit_mem : (s.emit o).mem = s.mem := rfl
@[simp] theorem State.emit_memDmg : (s.emit o).memDmg = s.memDmg := rfl
@[simp] theorem State.emit_spDmg : (s.emit o).spDmg = s.spDmg := rfl
@[simp] theorem State.emit_flash : (s.emit o).flash = s.flash := rfl
@[simp] theorem State.emit_erased : (s.emit o).erased = s.erased := rfl
@[simp] theorem State.emit_now : (s.emit o).now = s.now := rfl
@[simp] theorem State.emit_free : (s.emit o).free = s.free := rfl
@[simp] theorem State.emit_halves : (s.emit o).halves = s.halves := rfl
@[simp] theorem State.emit_lockAt : (s.emit o).lockAt = s.lockAt := rfl
@[simp] theorem State.emit_mxc : (s.emit o).mxc = s.mxc := rfl
@[simp] theorem State.emit_mxcLast : (s.emit o).mxcLast = s.mxcLast := rfl
@[simp] theorem State.emit_chans : (s.emit o).chans = s.chans := rfl
@[simp] theorem State.emit_tail : (s.emit o).tail = s.tail := rfl
@[simp] theorem State.emit_tailArea : (s.emit o).tailArea = s.tailArea := rfl
@[simp] theorem State.emit_tailNext : (s.emit o).tailNext = s.tailNext := rfl
@[simp] theorem State.emit_tlog : (s.emit o).tlog = s.tlog := rfl
@[simp] theorem State.emit_srcLast : (s.emit o).srcLast = s.srcLast := rfl
@[simp] theorem State.emit_srcMerged : (s.emit o).srcMerged = s.srcMerged := rfl
@[simp] theorem State.emit_srcTimer : (s.emit o).srcTimer = s.srcTimer := rfl
@[simp] theorem State.emit_srcQuiet : (s.emit o).srcQuiet = s.srcQuiet := rfl
@[simp] theorem State.emit_srcLeak : (s.emit o).srcLeak = s.srcLeak := rfl
@[simp] theorem State.emit_chains : (s.emit o).chains = s.chains := rfl
@[simp] theorem State.emit_nextChain : (s.emit o).nextChain = s.nextChain := rfl
@[simp] theorem State.emit_svus : (s.emit o).svus = s.svus := rfl
@[simp] theorem State.emit_heldReads : (s.emit o).heldReads = s.heldReads := rfl
@[simp] theorem State.emit_tasks : (s.emit o).tasks = s.tasks := rfl
@[simp] theorem State.emit_cores : (s.emit o).cores = s.cores := rfl
@[simp] theorem State.emit_sup : (s.emit o).sup = s.sup := rfl
@[simp] theorem State.emit_rings : (s.emit o).rings = s.rings := rfl
@[simp] theorem State.emit_bells : (s.emit o).bells = s.bells := rfl
@[simp] theorem State.emit_owedReads : (s.emit o).owedReads = s.owedReads := rfl
@[simp] theorem State.emit_decisions : (s.emit o).decisions = s.decisions := rfl
@[simp] theorem State.emit_credits : (s.emit o).credits = s.credits := rfl
@[simp] theorem State.emit_mbx : (s.emit o).mbx = s.mbx := rfl
@[simp] theorem State.emit_bmv : (s.emit o).bmv = s.bmv := rfl
@[simp] theorem State.emit_bmvGrants : (s.emit o).bmvGrants = s.bmvGrants := rfl
@[simp] theorem State.emit_bmvLast : (s.emit o).bmvLast = s.bmvLast := rfl
@[simp] theorem State.emit_pools : (s.emit o).pools = s.pools := rfl
@[simp] theorem State.emit_ports : (s.emit o).ports = s.ports := rfl
@[simp] theorem State.emit_freqs : (s.emit o).freqs = s.freqs := rfl
@[simp] theorem State.emit_routeOld : (s.emit o).routeOld = s.routeOld := rfl
@[simp] theorem State.emit_routeHeld : (s.emit o).routeHeld = s.routeHeld := rfl
@[simp] theorem State.emit_tagNext : (s.emit o).tagNext = s.tagNext := rfl
@[simp] theorem State.emit_tagCool : (s.emit o).tagCool = s.tagCool := rfl
@[simp] theorem State.emit_rbuf : (s.emit o).rbuf = s.rbuf := rfl
@[simp] theorem State.emit_bufNext : (s.emit o).bufNext = s.bufNext := rfl
@[simp] theorem State.emit_walking : (s.emit o).walking = s.walking := rfl
@[simp] theorem State.emit_rxMsgs : (s.emit o).rxMsgs = s.rxMsgs := rfl
@[simp] theorem State.emit_peers : (s.emit o).peers = s.peers := rfl
@[simp] theorem State.emit_nodeBoot : (s.emit o).nodeBoot = s.nodeBoot := rfl
@[simp] theorem State.emit_host : (s.emit o).host = s.host := rfl
@[simp] theorem State.emit_power : (s.emit o).power = s.power := rfl
@[simp] theorem State.emit_clock : (s.emit o).clock = s.clock := rfl
@[simp] theorem State.emit_unitResets : (s.emit o).unitResets = s.unitResets := rfl
@[simp] theorem State.emit_life : (s.emit o).life = s.life := rfl
@[simp] theorem State.emit_gloley : (s.emit o).gloley = s.gloley := rfl
@[simp] theorem State.emit_pins : (s.emit o).pins = s.pins := rfl
@[simp] theorem State.emit_out : (s.emit o).out = s.out ++ [o] := rfl
@[simp] theorem State.emit_pending : (s.emit o).pending = s.pending := rfl
end

/-! `State.fresh`. -/

section
variable (s : State)
@[simp] theorem State.fresh_fst : s.fresh.1 = Config.freeNat s.free := rfl
@[simp] theorem State.fresh_snd : s.fresh.2 = { s with free := s.free + 1 } := rfl
end

end Sys2Proof.Machine
end

