-- ==== Sys2Proof/Laws/Memory.lean ====
section
/-! SUPPORT. Storage: the canonical form is kept by every operation on it, a read after a write gives the bytes written, and every
other byte is left. -/
namespace Sys2Proof.Machine

/-! The canonical form. -/

theorem memWf_cons {a : Nat} {b : Byte} {t : List Host.Cell} :
    memWf ((a, b) :: t) = true ↔ b ≠ 0 ∧ (∀ c ∈ t, a < c.1) ∧ memWf t = true := by
  simp [memWf, and_assoc]

/-- Every entry of the list with one byte written is that byte or an entry of the list. -/
theorem mem_memPut {m : List Host.Cell} {a : Nat} {b : Byte} {c : Host.Cell} (h : c ∈ memPut m a b) : c = (a, b) ∨ c ∈ m := by
  induction m with
  | nil =>
    by_cases hb : b = 0#8
    · simp [memPut, hb] at h
    · simp [memPut, hb] at h; exact .inl h
  | cons p t ih =>
    obtain ⟨a', b'⟩ := p
    by_cases h1 : a' = a
    · by_cases hb : b = 0#8
      · simp [memPut, h1, hb] at h; exact .inr (List.mem_cons_of_mem _ h)
      · simp [memPut, h1, hb] at h
        exact h.imp id (List.mem_cons_of_mem _)
    · by_cases h2 : a < a'
      · by_cases hb : b = 0#8
        · simp [memPut, h1, h2, hb] at h; simpa using Or.inr h
        · simp [memPut, h1, h2, hb] at h; simpa using h
      · simp [memPut, h1, h2] at h
        rcases h with h | h
        · exact .inr (by simp [h])
        · exact (ih h).imp id (List.mem_cons_of_mem _)

/-- One byte written keeps the canonical form. -/
theorem memPut_wf (m : List Host.Cell) (a : Nat) (b : Byte) (h : memWf m = true) : memWf (memPut m a b) = true := by
  induction m with
  | nil => by_cases hb : b = 0#8 <;> simp [memPut, memWf, hb]
  | cons p t ih =>
    obtain ⟨a', b'⟩ := p
    obtain ⟨hb', hlt, ht⟩ := memWf_cons.mp h
    by_cases h1 : a' = a
    · subst h1
      by_cases hb : b = 0#8
      · simpa [memPut, hb] using ht
      · simpa [memPut, hb] using memWf_cons.mpr ⟨hb, hlt, ht⟩
    · by_cases h2 : a < a'
      · by_cases hb : b = 0#8
        · simpa [memPut, h1, h2, hb] using h
        · simp only [memPut, h1, h2, BitVec.ofNat_eq_ofNat, hb, if_false, if_true]
          refine memWf_cons.mpr ⟨hb, fun c hc => ?_, h⟩
          rcases List.mem_cons.mp hc with rfl | hc
          · exact h2
          · exact h2.trans (hlt c hc)
      · simp only [memPut, h1, h2, if_false]
        refine memWf_cons.mpr ⟨hb', fun c hc => ?_, ih ht⟩
        rcases mem_memPut hc with rfl | hc
        · show a' < a
          omega
        · exact hlt c hc

theorem memPutList_wf (m : List Host.Cell) (a : Nat) (bs : List Byte) (h : memWf m = true) : memWf (memPutList m a bs) = true := by
  induction bs generalizing m a with
  | nil => exact h
  | cons b bs ih => exact ih _ _ (memPut_wf m a b h)

/-- Entries left out keep the canonical form. -/
theorem memWf_filter (m : List Host.Cell) (p : Host.Cell → Bool) (h : memWf m = true) : memWf (m.filter p) = true := by
  induction m with
  | nil => rfl
  | cons c t ih =>
    obtain ⟨a, b⟩ := c
    obtain ⟨hb, hlt, ht⟩ := memWf_cons.mp h
    by_cases hp : p (a, b) = true
    · rw [List.filter_cons_of_pos hp]
      exact memWf_cons.mpr ⟨hb, fun c hc => hlt c (List.mem_filter.mp hc).1, ih ht⟩
    · rw [List.filter_cons_of_neg hp]; exact ih ht

/-- A store keeps the canonical form. -/
theorem State.poke_wf (s : State) (off : Nat) (bs : List Byte) (h : memWf s.mem = true) : memWf (s.poke off bs).mem = true :=
  memPutList_wf _ _ _ h

/-- A wipe keeps the canonical form. -/
theorem State.wipe_wf (s : State) (p : Nat → Bool) (h : memWf s.mem = true) : memWf (s.wipe p).mem = true :=
  memWf_filter _ _ h

theorem State.reset_wf : memWf State.reset.mem = true := rfl

/-! Reads. -/

/-- Below every listed offset a byte reads 0. -/
theorem memGet_below (m : List Host.Cell) (a : Nat) (h : ∀ c ∈ m, a < c.1) : memGet m a = 0 := by
  cases m with
  | nil => rfl
  | cons p t =>
    obtain ⟨a', b'⟩ := p
    have := h (a', b') (by simp)
    simp only at this
    simp [memGet, this, Nat.ne_of_gt this]

/-- A byte reads as it was written. -/
theorem memGet_memPut_same (m : List Host.Cell) (a : Nat) (b : Byte) (h : memWf m = true) : memGet (memPut m a b) a = b := by
  induction m with
  | nil => by_cases hb : b = 0#8 <;> simp [memPut, memGet, hb]
  | cons p t ih =>
    obtain ⟨a', b'⟩ := p
    obtain ⟨-, hlt, ht⟩ := memWf_cons.mp h
    by_cases h1 : a' = a
    · subst h1
      by_cases hb : b = 0#8
      · simp [memPut, hb, memGet_below t a' hlt]
      · simp [memPut, hb, memGet]
    · by_cases h2 : a < a'
      · by_cases hb : b = 0#8 <;> simp [memPut, memGet, h1, h2, hb]
      · simp [memPut, memGet, h1, h2, ih ht]

/-- Every other byte is left. -/
theorem memGet_memPut_other (m : List Host.Cell) (a c : Nat) (b : Byte) (h : memWf m = true) (hc : c ≠ a) :
    memGet (memPut m a b) c = memGet m c := by
  induction m with
  | nil =>
    by_cases hb : b = 0#8
    · simp [memPut, hb]
    · simp [memPut, memGet, hb, Ne.symm hc]
  | cons p t ih =>
    obtain ⟨a', b'⟩ := p
    obtain ⟨-, hlt, ht⟩ := memWf_cons.mp h
    by_cases h1 : a' = a
    · subst h1
      have hz : c < a' → memGet t c = 0 := fun hl => memGet_below t c (fun x hx => hl.trans (hlt x hx))
      by_cases hb : b = 0#8
      · by_cases hl : c < a'
        · simp [memPut, hb, memGet, Ne.symm hc, hl, hz hl]
        · simp [memPut, hb, memGet, Ne.symm hc, hl]
      · simp [memPut, hb, memGet, Ne.symm hc]
    · by_cases h2 : a < a'
      · by_cases hb : b = 0#8
        · simp [memPut, h1, h2, hb]
        · simp only [memPut, h1, h2, BitVec.ofNat_eq_ofNat, hb, if_false, if_true]
          by_cases hl : c < a
          · simp [memGet, hl, Ne.symm hc, hl.trans h2, Nat.ne_of_gt (hl.trans h2)]
          · simp [memGet, hl, Ne.symm hc]
      · simp only [memPut, h1, h2, if_false]
        by_cases h3 : a' = c
        · simp [memGet, h3]
        · simp [memGet, h3, ih ht]

/-- Bytes outside a store are left. -/
theorem memGet_memPutList_outside (m : List Host.Cell) (a c : Nat) (bs : List Byte) (h : memWf m = true) (hc : c < a ∨ a + bs.length ≤ c) :
    memGet (memPutList m a bs) c = memGet m c := by
  induction bs generalizing m a with
  | nil => rfl
  | cons b bs ih =>
    simp only [List.length_cons] at hc
    rw [memPutList, ih _ _ (memPut_wf m a b h) (by omega), memGet_memPut_other m a c b h (by omega)]

/-- The bytes of a store read as written. -/
theorem memGet_memPutList_inside (m : List Host.Cell) (a k : Nat) (bs : List Byte) (h : memWf m = true) (hk : k < bs.length) :
    memGet (memPutList m a bs) (a + k) = bs[k] := by
  induction bs generalizing m a k with
  | nil => simp at hk
  | cons b bs ih =>
    cases k with
    | zero =>
      rw [memPutList, memGet_memPutList_outside _ _ _ _ (memPut_wf m a b h) (by omega)]
      simpa using memGet_memPut_same m a b h
    | succ k =>
      have := ih (memPut m a b) (a + 1) k (memPut_wf m a b h) (by simpa using hk)
      simpa [memPutList, Nat.add_assoc, Nat.add_comm 1 k] using this

theorem State.peek_poke_same (s : State) (off : Nat) (bs : List Byte) (h : memWf s.mem = true) : (s.poke off bs).peek off bs.length = bs := by
  apply List.ext_getElem
  · simp [State.peek]
  · intro k h1 h2
    simpa [State.peek, State.poke] using memGet_memPutList_inside s.mem off k bs h h2

theorem State.peek_poke_outside (s : State) (off o n : Nat) (bs : List Byte) (h : memWf s.mem = true)
    (ho : o + n ≤ off ∨ off + bs.length ≤ o) : (s.poke off bs).peek o n = s.peek o n := by
  simp only [State.peek, State.poke]
  apply List.map_congr_left
  intro k hk
  have := List.mem_range.mp hk
  exact memGet_memPutList_outside _ _ _ _ h (by omega)

/-- A wiped byte reads 0, and every other byte is left. -/
theorem memGet_filter (m : List Host.Cell) (p : Nat → Bool) (a : Nat) (h : memWf m = true) :
    memGet (m.filter (fun c => !p c.1)) a = if p a then 0 else memGet m a := by
  induction m with
  | nil => simp [memGet]
  | cons c t ih =>
    obtain ⟨a', b'⟩ := c
    obtain ⟨-, hlt, ht⟩ := memWf_cons.mp h
    have hz : a < a' → memGet (t.filter (fun c => !p c.1)) a = 0 := fun hl =>
      memGet_below _ _ (fun x hx => hl.trans (hlt x (List.mem_filter.mp hx).1))
    by_cases hp : p a' = true
    · rw [List.filter_cons_of_neg (by simpa using hp), ih ht]
      by_cases h1 : a' = a
      · subst h1; simp [hp]
      · by_cases h2 : a < a'
        · have h0 := memGet_below t a (fun x hx => h2.trans (hlt x hx))
          simp [memGet, h1, h2, h0]
        · simp [memGet, h1, h2]
    · rw [List.filter_cons_of_pos (by simpa using hp)]
      by_cases h1 : a' = a
      · subst h1; simp [memGet, hp]
      · by_cases h2 : a < a'
        · simp [memGet, h1, h2]
        · simp [memGet, h1, h2, ih ht]

end Sys2Proof.Machine
end

