-- ==== Sys2Proof/Laws/Registers.lean ====
section
/-! SUPPORT. Registers, fields and the entries of units: a read after a write. -/
namespace Sys2Proof.Machine
open Reg

/-! Whole registers. -/

@[simp] theorem State.reg_setReg_same (s : State) (o : Nat) (w : Word) : (s.setReg o w).reg o = w := by
  simp [State.reg, State.setReg]

theorem State.reg_setReg_other (s : State) (o p : Nat) (w : Word) (h : p ≠ o) : (s.setReg o w).reg p = s.reg p := by
  simp [State.reg, State.setReg, tabFind_tabPut_other _ _ _ _ h]

/-- A register is a function of the list of registers alone. -/
theorem State.reg_congr {s t : State} (h : t.regs = s.regs) (o : Nat) : t.reg o = s.reg o := by simp [State.reg, h]

theorem State.rd_congr {s t : State} (h : t.regs = s.regs) (f : RF) : t.rd f = s.rd f := by
  simp [State.rd, State.reg_congr h]

/-! Fields. -/

/-- A field reads as hardware set it, within its width. -/
theorem State.rd_wr_same (s : State) (f : RF) (v : Nat) (h : f.lo ≤ f.hi) (h64 : f.hi < 64) :
    (s.wr f v).rd f = v % 2 ^ (f.hi + 1 - f.lo) := by
  simp only [State.rd, State.wr, State.reg_setReg_same]
  exact fieldOf_setField_same _ _ _ _ h h64

/-- A field of another register reads as before. -/
theorem State.rd_wr_off (s : State) (f g : RF) (v : Nat) (h : g.off ≠ f.off) : (s.wr f v).rd g = s.rd g := by
  simp only [State.rd, State.wr, State.reg_setReg_other _ _ _ _ h]

/-- A field of the same register that shares no bit reads as before. -/
theorem State.rd_wr_apart (s : State) (f g : RF) (v : Nat) (h : f.lo ≤ f.hi) (h64 : f.hi < 64) (ho : g.off = f.off)
    (hd : g.hi < f.lo ∨ f.hi < g.lo) : (s.wr f v).rd g = s.rd g := by
  simp only [State.rd, State.wr, ho, State.reg_setReg_same]
  cases hd with
  | inl hb => exact fieldOf_setField_below _ _ _ _ _ _ h h64 hb
  | inr ha => exact fieldOf_setField_above _ _ _ _ _ _ h h64 ha

theorem State.reg_wr_other (s : State) (f : RF) (v o : Nat) (h : o ≠ f.off) : (s.wr f v).reg o = s.reg o :=
  State.reg_setReg_other _ _ _ _ h

/-- A field is below two to its width. -/
theorem State.rd_lt (s : State) (f : RF) : s.rd f < 2 ^ (f.hi + 1 - f.lo) := Nat.mod_lt _ (by positivity)

/-- A saturating counter after it advanced. -/
theorem State.rd_count_same (s : State) (f : RF) (n : Nat) (h : f.lo ≤ f.hi) (h64 : f.hi < 64) :
    (s.count f n).rd f = satAdd (f.hi + 1 - f.lo) (s.rd f) n % 2 ^ (f.hi + 1 - f.lo) := State.rd_wr_same _ _ _ h h64

theorem State.rd_count_off (s : State) (f g : RF) (n : Nat) (h : g.off ≠ f.off) : (s.count f n).rd g = s.rd g :=
  State.rd_wr_off _ _ _ _ h

/-! Units. -/

@[simp] theorem State.task_setTask_same (s : State) (c k : Nat) (x : TaskRegs) : (s.setTask c k x).task c k = x := by
  simp [State.task]

theorem State.task_setTask_other (s : State) (c k c' k' : Nat) (x : TaskRegs) (h : 64 * c' + k' ≠ 64 * c + k) :
    (s.setTask c k x).task c' k' = s.task c' k' := by simp [State.task, tabGet_tabPut_other _ _ _ _ _ h]

@[simp] theorem State.svu_setSvu_same (s : State) (i : Nat) (x : SvuState) : (s.setSvu i x).svu i = x := by simp [State.svu]

theorem State.svu_setSvu_other (s : State) (i j : Nat) (x : SvuState) (h : j ≠ i) : (s.setSvu i x).svu j = s.svu j := by
  simp [State.svu, tabGet_tabPut_other _ _ _ _ _ h]

@[simp] theorem State.coreSt_setCore_same (s : State) (i : Nat) (x : CoreState) : (s.setCore i x).coreSt i = x := by
  simp [State.coreSt]

theorem State.coreSt_setCore_other (s : State) (i j : Nat) (x : CoreState) (h : j ≠ i) : (s.setCore i x).coreSt j = s.coreSt j := by
  simp [State.coreSt, tabGet_tabPut_other _ _ _ _ _ h]

@[simp] theorem State.chan_setChan_same (s : State) (i : Nat) (x : Channel) : (s.setChan i x).chan i = x := by simp [State.chan]

theorem State.chan_setChan_other (s : State) (i j : Nat) (x : Channel) (h : j ≠ i) : (s.setChan i x).chan j = s.chan j := by
  simp [State.chan, tabGet_tabPut_other _ _ _ _ _ h]

@[simp] theorem State.ring_setRing_same (s : State) (i : Nat) (x : RingState) : (s.setRing i x).ring i = x := by simp [State.ring]

theorem State.ring_setRing_other (s : State) (i j : Nat) (x : RingState) (h : j ≠ i) : (s.setRing i x).ring j = s.ring j := by
  simp [State.ring, tabGet_tabPut_other _ _ _ _ _ h]

@[simp] theorem State.bmvCh_setBmv_same (s : State) (i : Nat) (x : BmvState) : (s.setBmv i x).bmvCh i = x := by simp [State.bmvCh]

theorem State.bmvCh_setBmv_other (s : State) (i j : Nat) (x : BmvState) (h : j ≠ i) : (s.setBmv i x).bmvCh j = s.bmvCh j := by
  simp [State.bmvCh, tabGet_tabPut_other _ _ _ _ _ h]

@[simp] theorem State.pool_setPool_same (s : State) (i : Nat) (x : PoolState) : (s.setPool i x).pool i = x := by simp [State.pool]

theorem State.pool_setPool_other (s : State) (i j : Nat) (x : PoolState) (h : j ≠ i) : (s.setPool i x).pool j = s.pool j := by
  simp [State.pool, tabGet_tabPut_other _ _ _ _ _ h]

@[simp] theorem State.port_setPort_same (s : State) (i : Nat) (x : PortState) : (s.setPort i x).port i = x := by simp [State.port]

theorem State.port_setPort_other (s : State) (i j : Nat) (x : PortState) (h : j ≠ i) : (s.setPort i x).port j = s.port j := by
  simp [State.port, tabGet_tabPut_other _ _ _ _ _ h]

@[simp] theorem State.side_setSide_same (s : State) (m d : Nat) (x : MbxSide) : (s.setSide m d x).side m d = x := by
  simp [State.side]

theorem State.side_setSide_other (s : State) (m d m' d' : Nat) (x : MbxSide) (h : 2 * m' + d' ≠ 2 * m + d) :
    (s.setSide m d x).side m' d' = s.side m' d' := by simp [State.side, tabGet_tabPut_other _ _ _ _ _ h]

end Sys2Proof.Machine
end

