-- ==== Sys2Proof/Tests/Slice0.lean ====
section
/-! SUPPORT. Tests: for every statement that has hypotheses, `witness_*` gives a state and operands that meet the hypotheses of
each of its clauses together; and every check of WellFormed refuses an ill-formed term. -/

namespace Sys2Proof.Tests
set_option Elab.async false
open Sys2Proof.Machine Sys2Proof.Machine.Reg Sys2Proof.Claim

/-! Ill-formed commands, one for each check of `Instr.wf`. -/

/-- Task 16 of a cluster core. -/
def noTask : Issue := { c := 0, t := 16, guard := none, lck := false, rep := false }
/-- A 4-byte write that starts at byte 2. -/
def badLane : RegWrite := { m := .host, lane := 2, width := 4, v := 0 }
/-- A frame one byte longer than the longest. -/
def longFrame : Frame := ⟨List.replicate 275 0⟩

theorem test_wf_register_write_parts :
    ([{ m := .core 0 16, lane := 0, width := 8, v := 0 }, { m := .host, lane := 4, width := 8, v := 0 },
      { m := .host, lane := 0, width := 2, v := 0 }, { m := .host, lane := 0, width := 4, v := 2 ^ 32 }] : List RegWrite).all
      (fun w => !w.wf) = true := by decide

/-- A register access comes from a task that exists and lies in the register space (R17). -/
theorem test_wf_register_access : ∀ i ∈ ([
   .registerWrite (.core 0 16) 0 8 ⟨0, 0⟩, .registerWrite .host (2 ^ 28) 8 ⟨0, 0⟩, .readClearField (.core 0 16) 0 8 none,
   .readClearField .host (2 ^ 28) 8 none, .counterLowHalfRead (.core 0 16) 0, .counterLowHalfRead .host (2 ^ 28)] : List Instr), i.wf = false := by decide +kernel

/-- A host read has at most 4,096 bytes. -/
theorem test_wf_bar2_length : ∀ i ∈ ([
   .hostBar2Read 0 4097] : List Instr), i.wf = false := by decide +kernel

/-- A cell error lies in a word of its granule and a symbol of its ECC word (R55). -/
theorem test_wf_cell_error : ∀ i ∈ ([
   .channelGrant 0 [⟨4, 0⟩] .good, .channelGrant 0 [⟨0, 36⟩] .good, .scrubRead 0 [⟨4, 0⟩], .scrubRead 0 [⟨0, 36⟩],
   .tableWalkRead 0 0 [⟨4, 0⟩], .tableWalkRead 0 0 [⟨0, 36⟩]] : List Instr), i.wf = false := by decide +kernel

/-- A register write of 4 bytes starts at byte 0 or 4 (R4, R27). -/
theorem test_wf_register_write : ∀ i ∈ ([
   .scrubCtlWrite 0 badLane, .intlvArbWrite badLane, .memcPerfClear 0 badLane, .memcInjectWrite 0 badLane, .taskStop 0 badLane,
   .taskStart 0 badLane, .twinWrite 0 0 badLane, .coreIntRaise 0 badLane, .corePinWrite 0 0 badLane, .coreVecWrite 0 0 badLane,
   .ringEnable 0 badLane, .ringRestart 0 badLane, .ringReset 0 badLane, .mbxDoorbell 0 true badLane, .mbxSend 0 true badLane,
   .mbxReady 0 true badLane, .bmvArm 0 badLane, .bmvAbort 0 badLane, .poolEnable 0 badLane, .msixUnmask 0 badLane,
   .portEnable 0 badLane, .portDisable 0 badLane, .jfabRouteWrite 0 true badLane, .txGo badLane, .pwrLimitWrite badLane,
   .domainRequest badLane, .powerStateRequest badLane, .moduleReset badLane, .setReady badLane, .fwConfirm badLane, .fltAck badLane,
   .fltFence badLane, .tailSizeWrite badLane] : List Instr), i.wf = false := by decide +kernel

/-- A scratchpad error lies in a bit of a word (R306). -/
theorem test_wf_scratchpad_error : ∀ i ∈ ([
   .scratchBankAccess 0 0 [⟨8, 0⟩], .scratchBankAccess 0 0 [⟨0, 72⟩], .scratchLineScrub 0 0 [⟨8, 0⟩],
   .scratchLineScrub 0 0 [⟨0, 72⟩]] : List Instr), i.wf = false := by decide +kernel

/-- A LOFT error lies in a register and a bit (R306). -/
theorem test_wf_loft_error : ∀ i ∈ ([
   .loftGroup 0 [⟨40, 0, 0⟩], .loftGroup 0 [⟨0, 0, 72⟩]] : List Instr), i.wf = false := by decide +kernel

/-- A cluster core has tasks 0 to 15 (R377). -/
theorem test_wf_issue_1 : ∀ i ∈ ([
   .sundopNop noTask, .wait noTask, .sync noTask, .iflush noTask, .fbar noTask, .dup noTask, .drop noTask, .swap noTask,
   .over noTask, .rot noTask, .pick noTask, .depth noTask, .push noTask 0 0, .add noTask, .sub noTask, .mul noTask, .mulh noTask,
   .mulhu noTask, .div noTask, .divu noTask, .rem noTask, .remu noTask, .neg noTask, .and noTask, .or noTask, .xor noTask,
   .not noTask, .shl noTask, .shr noTask, .sar noTask, .sext noTask 0, .icmp noTask 0, .ucmp noTask 0, .fcmp noTask 0,
   .dcmp noTask 0, .test noTask 0, .pget noTask, .pset noTask, .br8 noTask 0, .br32 noTask 0, .call noTask 0, .ret noTask,
   .jmpi noTask, .calli noTask, .gate noTask 0, .gret noTask, .ld noTask 0, .lds noTask 0, .st noTask 0, .xadd noTask, .xchg noTask,
   .cas noTask, .setsrc noTask, .setdst noTask, .setcnt noTask, .getsrc noTask, .getdst noTask, .getcnt noTask, .movs noTask 0 none,
   .fills noTask 0 none] : List Instr), i.wf = false := by decide +kernel

/-- A cluster core has tasks 0 to 15 (R377). -/
theorem test_wf_issue_2 : ∀ i ∈ ([
   .cmps noTask 0 none, .scans noTask 0 none, .fadd noTask, .fsub noTask, .fmul noTask, .fdiv noTask, .fsqrt noTask, .fma noTask,
   .fmin noTask, .fmax noTask, .frint noTask, .cvtif noTask, .cvtfi noTask, .cvtsd noTask, .cvtds noTask, .fpget noTask,
   .fpset noTask, .dadd noTask, .dsub noTask, .chainInstruction noTask, .loft noTask, .cwait noTask, .savel noTask, .saveu noTask,
   .restl noTask, .restu noTask] : List Instr), i.wf = false := by decide +kernel

/-- The task exists (R377). -/
theorem test_wf_task : ∀ i ∈ ([
   .lineFetch 23 16, .trapEntry 23 16 none, .interruptEntry 23 16, .entrySpillFault 23 16] : List Instr), i.wf = false := by decide +kernel

/-- A doorbell write comes from a task that exists. -/
theorem test_wf_doorbell : ∀ i ∈ ([
   .doorbellTail (.cmdr (.core 0 16)) 0 0, .doorbellCqHead (.cmdr (.core 0 16)) 0 0] : List Instr), i.wf = false := by decide +kernel

/-- A register read comes from a task that exists. -/
theorem test_wf_master : ∀ i ∈ ([
   .mbxRecv 0 true (.core 0 16) 0, .ptpInfoRead 0 (.core 0 16) 0 0] : List Instr), i.wf = false := by decide +kernel

/-- A flit has 256 bytes (R491). -/
theorem test_wf_flit_length : ∀ i ∈ ([
   .flitReceive 0 []] : List Instr), i.wf = false := by decide +kernel

/-- A frame carries at most 256 bytes of payload (R633). -/
theorem test_wf_frame : ∀ i ∈ ([
   .gloleyStatus longFrame, .telemetry longFrame, .gloleyLogRead longFrame, .gloleyFaultAck longFrame, .gloleyPowerCap longFrame,
   .gloleyRoleAuth longFrame, .gloleyReset longFrame, .gloleyPowerState longFrame, .mailbox longFrame, .fwRecoveryOpen longFrame,
   .fwRecoveryWrite longFrame, .fwRecoveryCheck longFrame, .fwRecoveryCommit longFrame] : List Instr), i.wf = false := by decide +kernel

theorem test_wf_accepts : ∀ i ∈ ([.ld { c := 23, t := 15, guard := none, lck := false, rep := false } 3, .fltAck { m := .host, lane := 4, width := 4, v := 5 },
   .channelGrant 0 [⟨3, 35⟩] .good, .flitReceive 0 (List.replicate 256 0)] : List Instr), i.wf = true := by decide +kernel
/-! Worked examples of the spec. -/

/-- 02_memory_channels_interleave, "worked addresses": channel, row granule and bank. -/
theorem test_interleave : [0x0, 0x100, 0x200, 0x300, 0x6000, 0x12345678900, 0x2ffffffff00].map
      (fun a => (channelOf a, rowGranuleOf a, bankOf (rowGranuleOf a)))
    = [(0, 0, 0), (32, 0, 0), (64, 0, 0), (1, 0, 0), (1, 1, 1), (17, 0x308b914, 48), (67, 0x7ffffff, 0)] := by decide +kernel

/-- 02_memory_channels_interleave, "probing an offset". -/
theorem test_probe : ({ State.reset with regs := [(INTLV_PROBE_ADDR, 0x12345678900#64)] } : State).probeWord
    = 0x8308b91400302011 := by decide +kernel

/-- The sum 1 + 2^-60 or its negation. -/
def exactSum (neg : Bool) : Acc :=
  { kind := .sum, any := true, nonz := true, value := (if neg then -1 else 1) * (2 ^ 2148 + 2 ^ 2088) }

/-- 06_exact_accumulation_determinism, "one exact sum in every rounding mode". -/
theorem test_extraction : [RMode.rne, .rtz, .rup, .rdn, .rna].map
      (fun r => ((extract (exactSum false) .fp64 r).1, (extract (exactSum true) .fp64 r).1))
    = [(0x3ff0000000000000, 0xbff0000000000000), (0x3ff0000000000000, 0xbff0000000000000),
       (0x3ff0000000000001, 0xbff0000000000000), (0x3ff0000000000000, 0xbff0000000000001),
       (0x3ff0000000000000, 0xbff0000000000000)] := by decide +kernel

/-- The image of a slice that adds two values. -/
def pairSum (i a j b : Nat) : Acc := (({ kind := .sum } : Acc).feedAdd .fp64 false i a).feedAdd .fp64 false j b

/-- 06_exact_accumulation_determinism, "a risk total": 2^60 + 4,095 and -2^60 + 4,095 merge to exactly 8,190. -/
theorem test_merge : extract ((pairSum 0 0x43b0000000000000 1 0x40affe0000000000).merge
    (pairSum 4096 0xc3b0000000000000 4097 0x40affe0000000000)) .fp64 .rne = (0x40bffe0000000000, 0) := by decide +kernel


/-! Witnesses. -/

def stepRunsFront1s : State := { State.reset with pending := [.nop 3, .timeGet 3] }
theorem witness_stepRunsFront :
  (∃ (c : Instr) (rest : List Instr) (s : State),
  (s.pending = c :: rest)) :=
  ⟨.nop 3, [.timeGet 3], stepRunsFront1s, by decide +kernel⟩

def issue1 : Issue := { c := 24, t := 1, guard := none, lck := false, rep := false }
def sundopStackResults1s : State := { State.reset with tasks := [(1537, { st := .run })] }
def sundopStackResults2s : State :=
  { State.reset with
      tasks := [(1537, { st := .run, sp := 131048, rsb := [131072], cached := [{ space := 0, addr := 131048, v := 0#64 }] })] }
def sundopStackResults4s : State :=
  { State.reset with
      tasks := [(1537,
                 { st := .run, sp := 131048, rsb := [131072]
                   cached := [{ space := 0, addr := 131048, v := 0#64 }, { space := 0, addr := 131056, v := 0#64 }] })] }
def sundopStackResults6s : State :=
  { State.reset with
      tasks := [(1537,
                 { st := .run, sp := 131048, rsb := [131072]
                   cached := [{ space := 0, addr := 131048, v := 3#64 }, { space := 0, addr := 131056, v := 2#64 },
                              { space := 0, addr := 131064, v := 1#64 }] })] }
def sundopStackResults8s : State :=
  { State.reset with
      tasks := [(1537,
                 { st := .run, sp := 131048, rsb := [131072]
                   cached := [{ space := 0, addr := 131048, v := 1#64 },
                              { space := 0, addr := 131056, v := 9218868437227405313#64 },
                              { space := 0, addr := 131064, v := 1#64 }] })] }
def sundopStackResults9s : State := { State.reset with tasks := [(1537, { st := .run, sp := 131048 })] }
theorem witness_sundopStackResults :
  (∃ (g : Issue) (s : State),
  (Ready g s) ∧ (Top g s [] 0)) ∧
  (∃ (g : Issue) (s : State) (a : Word),
  (Ready g s) ∧ (Top g s [a] 2)) ∧
  (∃ (g : Issue) (s : State) (a : Word),
  (Ready g s) ∧ (Top g s [a] 0)) ∧
  (∃ (g : Issue) (s : State) (a : Word) (b : Word),
  (Ready g s) ∧ (Top g s [a, b] 2)) ∧
  (∃ (g : Issue) (s : State) (a : Word) (b : Word),
  (Ready g s) ∧ (Top g s [a, b] 3)) ∧
  (∃ (g : Issue) (s : State) (a : Word) (b : Word) (c : Word),
  (Ready g s) ∧ (Top g s [a, b, c] 3)) ∧
  (∃ (g : Issue) (s : State) (a : Word),
  (Ready g s) ∧ (Top g s [a, 0] 1)) ∧
  (∃ (g : Issue) (s : State) (a : Word) (b : Word),
  (Ready g s) ∧ (Top g s [a, b, 1] 1)) ∧
  (∃ (g : Issue) (s : State),
  (Ready g s) ∧ (Top g s [] 1)) ∧
  (∃ (g : Issue) (s : State),
  (Ready g s) ∧ (Top g s [] 1)) ∧
  (∃ (g : Issue) (s : State) (a : Word),
  (Ready g s) ∧ (Top g s [a] 0)) ∧
  (∃ (g : Issue) (s : State) (a : Word),
  (Ready g s) ∧ (Top g s [a] 0)) ∧
  (∃ (g : Issue) (s : State) (a : Word),
  (Ready g s) ∧ (Top g s [a] 0)) ∧
  (∃ (g : Issue) (s : State),
  (Ready g s) ∧ (Top g s [] 1)) ∧
  (∃ (g : Issue) (s : State),
  (Ready g s) ∧ (Top g s [] 1)) ∧
  (∃ (g : Issue) (s : State),
  (Ready g s) ∧ (Top g s [] 1)) ∧
  (∃ (g : Issue) (s : State),
  (Ready g s) ∧ (Top g s [] 1)) ∧
  (∃ (g : Issue) (s : State) (a : Word),
  (Ready g s) ∧ (Top g s [a] 0)) :=
  ⟨⟨issue1, sundopStackResults1s, by decide +kernel⟩,
   ⟨issue1, sundopStackResults2s, 0#64, by decide +kernel⟩,
   ⟨issue1, sundopStackResults2s, 0#64, by decide +kernel⟩,
   ⟨issue1, sundopStackResults4s, 0#64, 0#64, by decide +kernel⟩,
   ⟨issue1, sundopStackResults4s, 0#64, 0#64, by decide +kernel⟩,
   ⟨issue1, sundopStackResults6s, 1#64, 2#64, 3#64, by decide +kernel⟩,
   ⟨issue1, sundopStackResults4s, 0#64, by decide +kernel⟩,
   ⟨issue1, sundopStackResults8s, 1#64, 9218868437227405313#64, by decide +kernel⟩,
   ⟨issue1, sundopStackResults9s, by decide +kernel⟩,
   ⟨issue1, sundopStackResults9s, by decide +kernel⟩,
   ⟨issue1, sundopStackResults2s, 0#64, by decide +kernel⟩,
   ⟨issue1, sundopStackResults2s, 0#64, by decide +kernel⟩,
   ⟨issue1, sundopStackResults2s, 0#64, by decide +kernel⟩,
   ⟨issue1, sundopStackResults9s, by decide +kernel⟩,
   ⟨issue1, sundopStackResults9s, by decide +kernel⟩,
   ⟨issue1, sundopStackResults9s, by decide +kernel⟩,
   ⟨issue1, sundopStackResults9s, by decide +kernel⟩,
   ⟨issue1, sundopStackResults2s, 0#64, by decide +kernel⟩⟩

def sundopIntegerResults12s : State :=
  { State.reset with
      tasks := [(1537,
                 { st := .run, sp := 131048, rsb := [131072]
                   cached := [{ space := 0, addr := 131048, v := 18446744073709551609#64 },
                              { space := 0, addr := 131056, v := 1#64 }] })] }
theorem witness_sundopIntegerResults :
  (∃ (g : Issue) (s : State) (a : Word) (b : Word),
  (Ready g s) ∧ (Top g s [a, b] 1)) ∧
  (∃ (g : Issue) (s : State) (a : Word) (b : Word),
  (Ready g s) ∧ (Top g s [a, b] 1)) ∧
  (∃ (g : Issue) (s : State) (a : Word) (b : Word),
  (Ready g s) ∧ (Top g s [a, b] 1)) ∧
  (∃ (g : Issue) (s : State) (a : Word) (b : Word),
  (Ready g s) ∧ (Top g s [a, b] 1)) ∧
  (∃ (g : Issue) (s : State) (a : Word) (b : Word),
  (Ready g s) ∧ (Top g s [a, b] 1)) ∧
  (∃ (g : Issue) (s : State) (a : Word) (b : Word),
  (Ready g s) ∧ (Top g s [a, b] 1)) ∧
  (∃ (g : Issue) (s : State) (a : Word) (b : Word),
  (Ready g s) ∧ (Top g s [a, b] 1)) ∧
  (∃ (g : Issue) (s : State) (a : Word) (b : Word),
  (Ready g s) ∧ (Top g s [a, b] 1)) ∧
  (∃ (g : Issue) (s : State) (a : Word) (b : Word),
  (Ready g s) ∧ (Top g s [a, b] 1)) ∧
  (∃ (g : Issue) (s : State) (a : Word) (b : Word),
  (Ready g s) ∧ (Top g s [a, b] 1)) ∧
  (∃ (g : Issue) (s : State) (a : Word) (b : Word),
  (Ready g s) ∧ (Top g s [a, b] 1)) ∧
  (∃ (g : Issue) (s : State) (a : Word) (b : Word),
  (Ready g s) ∧ (Top g s [a, b] 1) ∧ (b ≠ 0)) ∧
  (∃ (g : Issue) (s : State) (a : Word) (b : Word),
  (Ready g s) ∧ (Top g s [a, b] 1) ∧ (b ≠ 0)) ∧
  (∃ (g : Issue) (s : State) (a : Word) (b : Word),
  (Ready g s) ∧ (Top g s [a, b] 1) ∧ (b ≠ 0)) ∧
  (∃ (g : Issue) (s : State) (a : Word) (b : Word),
  (Ready g s) ∧ (Top g s [a, b] 1) ∧ (b ≠ 0)) ∧
  (∃ (g : Issue) (s : State) (a : Word),
  (Ready g s) ∧ (Top g s [a] 1)) ∧
  (∃ (g : Issue) (s : State) (a : Word),
  (Ready g s) ∧ (Top g s [a] 1)) ∧
  (∃ (g : Issue) (s : State) (a : Word),
  (Ready g s) ∧ (Top g s [a] 1)) :=
  ⟨⟨issue1, sundopStackResults4s, 0#64, 0#64, by decide +kernel⟩,
   ⟨issue1, sundopStackResults4s, 0#64, 0#64, by decide +kernel⟩,
   ⟨issue1, sundopStackResults4s, 0#64, 0#64, by decide +kernel⟩,
   ⟨issue1, sundopStackResults4s, 0#64, 0#64, by decide +kernel⟩,
   ⟨issue1, sundopStackResults4s, 0#64, 0#64, by decide +kernel⟩,
   ⟨issue1, sundopStackResults4s, 0#64, 0#64, by decide +kernel⟩,
   ⟨issue1, sundopStackResults4s, 0#64, 0#64, by decide +kernel⟩,
   ⟨issue1, sundopStackResults4s, 0#64, 0#64, by decide +kernel⟩,
   ⟨issue1, sundopStackResults4s, 0#64, 0#64, by decide +kernel⟩,
   ⟨issue1, sundopStackResults4s, 0#64, 0#64, by decide +kernel⟩,
   ⟨issue1, sundopStackResults4s, 0#64, 0#64, by decide +kernel⟩,
   ⟨issue1, sundopIntegerResults12s, 1#64, 18446744073709551609#64, by decide +kernel⟩,
   ⟨issue1, sundopIntegerResults12s, 1#64, 18446744073709551609#64, by decide +kernel⟩,
   ⟨issue1, sundopIntegerResults12s, 1#64, 18446744073709551609#64, by decide +kernel⟩,
   ⟨issue1, sundopIntegerResults12s, 1#64, 18446744073709551609#64, by decide +kernel⟩,
   ⟨issue1, sundopStackResults2s, 0#64, by decide +kernel⟩,
   ⟨issue1, sundopStackResults2s, 0#64, by decide +kernel⟩,
   ⟨issue1, sundopStackResults2s, 0#64, by decide +kernel⟩⟩

theorem witness_sundopDivideByZero :
  (∃ (g : Issue) (s : State) (a : Word),
  (Ready g s) ∧ (Top g s [a, 0] 1)) :=
  ⟨issue1, sundopStackResults4s, 0#64, by decide +kernel⟩

theorem witness_sundopStackBounds :
  (∃ (g : Issue) (s : State),
  (Ready g s) ∧ ((tk g s).depth < 1)) ∧
  (∃ (g : Issue) (s : State),
  (Ready g s) ∧ ((tk g s).depth < 2)) ∧
  (∃ (g : Issue) (s : State),
  (Ready g s) ∧ ((tk g s).sp < (tk g s).sl + 8)) :=
  ⟨⟨issue1, sundopStackResults1s, by decide +kernel⟩,
   ⟨issue1, sundopStackResults1s, by decide +kernel⟩,
   ⟨issue1, sundopStackResults1s, by decide +kernel⟩⟩

def sundopCompares3s : State :=
  { State.reset with
      tasks := [(1537, { st := .run, sp := 131056, rsb := [131072], cached := [{ space := 0, addr := 131056, v := 0#64 }] })] }
theorem witness_sundopCompares :
  (∃ (g : Issue) (s : State) (a : Word) (b : Word),
  (Ready g s) ∧ (Top g s [a, b] 0)) ∧
  (∃ (g : Issue) (s : State) (a : Word) (b : Word),
  (Ready g s) ∧ (Top g s [a, b] 0)) ∧
  (∃ (g : Issue) (s : State) (a : Word) (cond : Fin 8),
  (Ready g s) ∧ (Top g s [a] 0) ∧ (cond = 0)) :=
  ⟨⟨issue1, sundopStackResults4s, 0#64, 0#64, by decide +kernel⟩,
   ⟨issue1, sundopStackResults4s, 0#64, 0#64, by decide +kernel⟩,
   ⟨issue1, sundopCompares3s, 0#64, 0, by decide +kernel⟩⟩

def sundopRealCompares2s : State :=
  { State.reset with
      tasks := [(1537,
                 { st := .run, sp := 131040, rsb := [131072]
                   cached := [{ space := 0, addr := 131040, v := 0#64 }, { space := 0, addr := 131048, v := 317#64 },
                              { space := 0, addr := 131056, v := 68#64 }, { space := 0, addr := 131064, v := 300#64 }] })] }
theorem witness_sundopRealCompares :
  (∃ (g : Issue) (s : State) (al : Word) (bl : Word),
  (Ready g s) ∧ (Top g s [al, bl] 0)) ∧
  (∃ (g : Issue) (s : State) (cond : Fin 8) (al : Word) (ah : Word) (bl : Word) (bh : Word) (x : Int) (y : Int),
  (Ready g s) ∧ (Top g s [al, ah, bl, bh] 0) ∧ (cond.val < 6) ∧ (decOf (ah.toNat * 2 ^ 64 + al.toNat) = some x) ∧ (decOf (bh.toNat * 2 ^ 64 + bl.toNat) = some y)) :=
  ⟨⟨issue1, sundopStackResults4s, 0#64, 0#64, by decide +kernel⟩,
   ⟨issue1, sundopRealCompares2s, 0, 300#64, 68#64, 317#64, 0#64, 44000000000000012, (-13), by decide +kernel⟩⟩

def sundopBranches3s : State := { State.reset with tasks := [(1537, { st := .run, sp := 131056 })] }
theorem witness_sundopBranches :
  (∃ (g : Issue) (s : State),
  (Ready g s) ∧ (Top g s [] 0)) ∧
  (∃ (g : Issue) (s : State),
  (Ready g s) ∧ (Top g s [] 0)) ∧
  (∃ (g : Issue) (s : State),
  (Ready g s) ∧ (Top g s [] 1)) ∧
  (∃ (g : Issue) (s : State) (a : Word),
  (Ready g s) ∧ (Top g s [a] 0)) ∧
  (∃ (g : Issue) (s : State) (a : Word),
  (Ready g s) ∧ (Top g s [a] 0)) ∧
  (∃ (g : Issue) (s : State) (a : Word),
  (Ready g s) ∧ (Top g s [a] 1)) :=
  ⟨⟨issue1, sundopStackResults1s, by decide +kernel⟩,
   ⟨issue1, sundopStackResults1s, by decide +kernel⟩,
   ⟨issue1, sundopBranches3s, by decide +kernel⟩,
   ⟨issue1, sundopCompares3s, 0#64, by decide +kernel⟩,
   ⟨issue1, sundopCompares3s, 0#64, by decide +kernel⟩,
   ⟨issue1, sundopCompares3s, 0#64, by decide +kernel⟩⟩

def issue2 : Issue := { c := 24, t := 1, guard := some (false, 3), lck := false, rep := false }
def issue3 : Issue := { c := 7, t := 1, guard := some (false, 3), lck := false, rep := false }
def sundopFalseGuard9s : State := { State.reset with regs := [(PWR_DOMAIN_LO, 128#64)], tasks := [(449, { st := .run })] }
theorem witness_sundopFalseGuard :
  (∃ (g : Issue) (s : State),
  (s.canIssue g.c g.t = true) ∧ ((tk g s).spills = []) ∧ (NoneWaits s (agentTask ↑g.c ↑g.t)) ∧ ((tk g s).lock = none) ∧ ((tk g s).guardOk g = false) ∧ (g.lck = false) ∧ (g.rep = false)) ∧
  (∃ (g : Issue) (s : State),
  (s.canIssue g.c g.t = true) ∧ ((tk g s).spills = []) ∧ (NoneWaits s (agentTask ↑g.c ↑g.t)) ∧ ((tk g s).lock = none) ∧ ((tk g s).guardOk g = false) ∧ (g.lck = false) ∧ (g.rep = false) ∧ (↑g.c < 24)) :=
  ⟨⟨issue2, sundopStackResults1s, by decide +kernel⟩,
   ⟨issue3, sundopFalseGuard9s, by decide +kernel⟩⟩

def sundopFloat13s : State :=
  { State.reset with
      tasks := [(1537,
                 { st := .run, sp := 131048, rsb := [131072]
                   cached := [{ space := 0, addr := 131048, v := 0#64 }, { space := 0, addr := 131056, v := 0#64 },
                              { space := 0, addr := 131064, v := 9#64 }] })] }
theorem witness_sundopFloat :
  (∃ (g : Issue) (s : State) (a : Word) (b : Word),
  (Ready g s) ∧ (bitsOf (tk g s).fps 24 20 = 0) ∧ (Top g s [a, b] 1)) ∧
  (∃ (g : Issue) (s : State) (a : Word) (b : Word),
  (Ready g s) ∧ (bitsOf (tk g s).fps 24 20 = 0) ∧ (Top g s [a, b] 1)) ∧
  (∃ (g : Issue) (s : State) (a : Word) (b : Word),
  (Ready g s) ∧ (bitsOf (tk g s).fps 24 20 = 0) ∧ (Top g s [a, b] 1)) ∧
  (∃ (g : Issue) (s : State) (a : Word) (b : Word),
  (Ready g s) ∧ (bitsOf (tk g s).fps 24 20 = 0) ∧ (Top g s [a, b] 1)) ∧
  (∃ (g : Issue) (s : State) (a : Word) (b : Word),
  (Ready g s) ∧ (bitsOf (tk g s).fps 24 20 = 0) ∧ (Top g s [a, b] 1)) ∧
  (∃ (g : Issue) (s : State) (a : Word) (b : Word),
  (Ready g s) ∧ (bitsOf (tk g s).fps 24 20 = 0) ∧ (Top g s [a, b] 1)) ∧
  (∃ (g : Issue) (s : State) (a : Word),
  (Ready g s) ∧ (bitsOf (tk g s).fps 24 20 = 0) ∧ (Top g s [a] 1)) ∧
  (∃ (g : Issue) (s : State) (a : Word),
  (Ready g s) ∧ (bitsOf (tk g s).fps 24 20 = 0) ∧ (Top g s [a] 1)) ∧
  (∃ (g : Issue) (s : State) (a : Word),
  (Ready g s) ∧ (bitsOf (tk g s).fps 24 20 = 0) ∧ (Top g s [a] 1)) ∧
  (∃ (g : Issue) (s : State) (a : Word),
  (Ready g s) ∧ (bitsOf (tk g s).fps 24 20 = 0) ∧ (Top g s [a] 1)) ∧
  (∃ (g : Issue) (s : State) (a : Word),
  (Ready g s) ∧ (bitsOf (tk g s).fps 24 20 = 0) ∧ (Top g s [a] 1)) ∧
  (∃ (g : Issue) (s : State) (a : Word),
  (Ready g s) ∧ (bitsOf (tk g s).fps 24 20 = 0) ∧ (Top g s [a] 1)) ∧
  (∃ (g : Issue) (s : State) (a : Word) (b : Word) (c : Word),
  (Ready g s) ∧ (bitsOf (tk g s).fps 24 20 = 0) ∧ (Top g s [a, b, c] 1)) :=
  ⟨⟨issue1, sundopStackResults4s, 0#64, 0#64, by decide +kernel⟩,
   ⟨issue1, sundopStackResults4s, 0#64, 0#64, by decide +kernel⟩,
   ⟨issue1, sundopStackResults4s, 0#64, 0#64, by decide +kernel⟩,
   ⟨issue1, sundopStackResults4s, 0#64, 0#64, by decide +kernel⟩,
   ⟨issue1, sundopStackResults4s, 0#64, 0#64, by decide +kernel⟩,
   ⟨issue1, sundopStackResults4s, 0#64, 0#64, by decide +kernel⟩,
   ⟨issue1, sundopStackResults2s, 0#64, by decide +kernel⟩,
   ⟨issue1, sundopStackResults2s, 0#64, by decide +kernel⟩,
   ⟨issue1, sundopStackResults2s, 0#64, by decide +kernel⟩,
   ⟨issue1, sundopStackResults2s, 0#64, by decide +kernel⟩,
   ⟨issue1, sundopStackResults2s, 0#64, by decide +kernel⟩,
   ⟨issue1, sundopStackResults2s, 0#64, by decide +kernel⟩,
   ⟨issue1, sundopFloat13s, 9#64, 0#64, 0#64, by decide +kernel⟩⟩

def sundopFpStatus3s : State :=
  { State.reset with
      tasks := [(1537,
                 { st := .run, sp := 131056, rsb := [131072]
                   cached := [{ space := 0, addr := 131056, v := 18446744073709551615#64 }] })] }
theorem witness_sundopFpStatus :
  (∃ (g : Issue) (s : State),
  (Ready g s) ∧ ((tk g s).fpPend = false) ∧ (Top g s [] 1)) ∧
  (∃ (g : Issue) (s : State) (a : Word),
  (Ready g s) ∧ ((tk g s).fpPend = false) ∧ (Top g s [a] 0) ∧ (bitsOf a.toNat 27 25 ≤ 4)) ∧
  (∃ (g : Issue) (s : State) (a : Word),
  (Ready g s) ∧ ((tk g s).fpPend = false) ∧ (Top g s [a] 0) ∧ (5 ≤ bitsOf a.toNat 27 25)) ∧
  (∃ (g : Issue) (s : State),
  (Ready g s) ∧ ((tk g s).fpPend = false) ∧ (Top g s [] 0) ∧ (s.loftBusy g.c.val g.t.val = false)) :=
  ⟨⟨issue1, sundopBranches3s, by decide +kernel⟩,
   ⟨issue1, sundopCompares3s, 0#64, by decide +kernel⟩,
   ⟨issue1, sundopFpStatus3s, 18446744073709551615#64, by decide +kernel⟩,
   ⟨issue1, sundopStackResults1s, by decide +kernel⟩⟩

def sundopDecimal3s : State :=
  { State.reset with
      tasks := [(1537,
                 { st := .run, sp := 131040, rsb := [131072]
                   cached := [{ space := 0, addr := 131040, v := 0#64 }, { space := 0, addr := 131048, v := 317#64 },
                              { space := 0, addr := 131056, v := 68#64 }, { space := 0, addr := 131064, v := 428#64 }] })] }
theorem witness_sundopDecimal :
  (∃ (g : Issue) (s : State) (al : Word) (ah : Word) (bl : Word) (bh : Word) (x : Int) (y : Int),
  (Ready g s) ∧ (bitsOf (tk g s).fps 24 20 = 0) ∧ (Top g s [al, ah, bl, bh] 2) ∧ (decOf (ah.toNat * 2 ^ 64 + al.toNat) = some x) ∧ (decOf (bh.toNat * 2 ^ 64 + bl.toNat) = some y)) ∧
  (∃ (g : Issue) (s : State) (al : Word) (ah : Word) (bl : Word) (bh : Word) (x : Int) (y : Int),
  (Ready g s) ∧ (bitsOf (tk g s).fps 24 20 = 0) ∧ (Top g s [al, ah, bl, bh] 2) ∧ (decOf (ah.toNat * 2 ^ 64 + al.toNat) = some x) ∧ (decOf (bh.toNat * 2 ^ 64 + bl.toNat) = some y)) ∧
  (∃ (g : Issue) (s : State) (al : Word) (ah : Word) (bl : Word) (bh : Word),
  (Ready g s) ∧ (bitsOf (tk g s).fps 24 20 = 0) ∧ (Top g s [al, ah, bl, bh] 2) ∧ (decOf (ah.toNat * 2 ^ 64 + al.toNat) = none ∨ decOf (bh.toNat * 2 ^ 64 + bl.toNat) = none)) ∧
  (∃ (g : Issue) (s : State) (al : Word) (ah : Word) (bl : Word) (bh : Word),
  (Ready g s) ∧ (bitsOf (tk g s).fps 24 20 = 0) ∧ (Top g s [al, ah, bl, bh] 2) ∧ (decOf (ah.toNat * 2 ^ 64 + al.toNat) = none ∨ decOf (bh.toNat * 2 ^ 64 + bl.toNat) = none)) :=
  ⟨⟨issue1, sundopRealCompares2s, 300#64, 68#64, 317#64, 0#64, 44000000000000012, (-13), by decide +kernel⟩,
   ⟨issue1, sundopRealCompares2s, 300#64, 68#64, 317#64, 0#64, 44000000000000012, (-13), by decide +kernel⟩,
   ⟨issue1, sundopDecimal3s, 428#64, 68#64, 317#64, 0#64, by decide +kernel⟩,
   ⟨issue1, sundopDecimal3s, 428#64, 68#64, 317#64, 0#64, by decide +kernel⟩⟩

def sundopWaitAndFences4s : State :=
  { State.reset with tasks := [(1537, { st := .run })], sup := { held := [{ task := 1, ga := 16384, size := 8, v := 5 }] } }
theorem witness_sundopWaitAndFences :
  (∃ (g : Issue) (s : State),
  (Ready g s) ∧ (Top g s [] 0)) ∧
  (∃ (g : Issue) (s : State),
  (Ready g s) ∧ (Top g s [] 0) ∧ (s.storesDone g.c.val g.t.val = true)) ∧
  (∃ (g : Issue) (s : State),
  (Ready g s) ∧ (Top g s [] 0) ∧ (s.storesDone g.c.val g.t.val = true)) ∧
  (∃ (g : Issue) (s : State),
  (Ready g s) ∧ (Top g s [] 0) ∧ (s.storesDone g.c.val g.t.val = false)) ∧
  (∃ (g : Issue) (s : State),
  (Ready g s) ∧ (Top g s [] 0) ∧ (s.storesDone g.c.val g.t.val = false)) :=
  ⟨⟨issue1, sundopStackResults1s, by decide +kernel⟩,
   ⟨issue1, sundopStackResults1s, by decide +kernel⟩,
   ⟨issue1, sundopStackResults1s, by decide +kernel⟩,
   ⟨issue1, sundopWaitAndFences4s, by decide +kernel⟩,
   ⟨issue1, sundopWaitAndFences4s, by decide +kernel⟩⟩

def sundopLoads1s : State :=
  { State.reset with
      regs := [(MEMC_STATUS 53, 1538#64)]
      tasks := [(1537, { st := .run, sp := 131064, rsb := [131072], cached := [{ space := 0, addr := 131064, v := 16384#64 }] })] }
theorem witness_sundopLoads :
  (∃ (g : Issue) (s : State) (va : Word) (ga : Nat) (sz : Fin 4),
  (Ready g s) ∧ (Top g s [va] 1) ∧ (Addr g s .read va.toNat ga) ∧ (gaNode ga = s.node) ∧ (va.toNat % 2 ^ sz.val = 0) ∧ (Plain s (gaOff ga) (2 ^ sz.val)) ∧ (Settled g s ga (2 ^ sz.val))) ∧
  (∃ (g : Issue) (s : State) (va : Word) (ga : Nat) (sx : Fin 3),
  (Ready g s) ∧ (Top g s [va] 1) ∧ (Addr g s .read va.toNat ga) ∧ (gaNode ga = s.node) ∧ (va.toNat % 2 ^ sx.val = 0) ∧ (Plain s (gaOff ga) (2 ^ sx.val)) ∧ (Settled g s ga (2 ^ sx.val))) :=
  ⟨⟨issue1, sundopLoads1s, 16384#64, 16384, 0, by decide +kernel⟩,
   ⟨issue1, sundopLoads1s, 16384#64, 16384, 0, by decide +kernel⟩⟩

def sundopLoadsOwnStore1e : StoreEntry := { task := 1, ga := 16384, size := 1, v := 129 }
def sundopLoadsOwnStore1s : State :=
  { State.reset with
      tasks := [(1537, { st := .run, sp := 131064, rsb := [131072], cached := [{ space := 0, addr := 131064, v := 16384#64 }] })]
      sup := { held := [sundopLoadsOwnStore1e] } }
theorem witness_sundopLoadsOwnStore :
  (∃ (g : Issue) (s : State) (va : Word) (ga : Nat) (sz : Fin 4) (es : List StoreEntry) (e : StoreEntry),
  (Ready g s) ∧ (Top g s [va] 1) ∧ (Addr g s .read va.toNat ga) ∧ (va.toNat % 2 ^ sz.val = 0) ∧ (s.ownStores g.c.val g.t.val = es ++ [e]) ∧ (e.ga = ga) ∧ (e.size = 2 ^ sz.val)) :=
  ⟨issue1, sundopLoadsOwnStore1s, 16384#64, 16384, 0, [], sundopLoadsOwnStore1e, by decide +kernel⟩

def sundopStores1s : State :=
  { State.reset with
      regs := [(MEMC_STATUS 53, 1538#64)]
      tasks := [(1537,
                 { st := .run, sp := 131056, rsb := [131072]
                   cached := [{ space := 0, addr := 131056, v := 9837979819026121345#64 },
                              { space := 0, addr := 131064, v := 16384#64 }] })] }
theorem witness_sundopStores :
  (∃ (g : Issue) (s : State) (va : Word) (v : Word) (ga : Nat) (sz : Fin 4),
  (Ready g s) ∧ (Top g s [va, v] 0) ∧ (Addr g s .write va.toNat ga) ∧ (gaNode ga = s.node) ∧ (va.toNat % 2 ^ sz.val = 0) ∧ (Plain s (gaOff ga) (2 ^ sz.val)) ∧ (s.storeRoom g.c.val 1 = true)) :=
  ⟨issue1, sundopStores1s, 16384#64, 9837979819026121345#64, 16384, 0, by decide +kernel⟩

def sundopAlign1s : State :=
  { State.reset with
      tasks := [(1537, { st := .run, sp := 131064, rsb := [131072], cached := [{ space := 0, addr := 131064, v := 16388#64 }] })] }
def sundopAlign2s : State :=
  { State.reset with
      tasks := [(1537, { st := .run, sp := 131064, rsb := [131072], cached := [{ space := 0, addr := 131064, v := 16385#64 }] })] }
def sundopAlign3s : State :=
  { State.reset with
      tasks := [(1537,
                 { st := .run, sp := 131056, rsb := [131072]
                   cached := [{ space := 0, addr := 131056, v := 5#64 }, { space := 0, addr := 131064, v := 16388#64 }] })] }
def issue4 : Issue := { c := 7, t := 1, guard := none, lck := false, rep := false }
def sundopAlign4s : State :=
  { State.reset with
      regs := [(PWR_DOMAIN_LO, 128#64)]
      tasks := [(449, { st := .run, sp := 131064, rsb := [131072], cached := [{ space := 0, addr := 131064, v := 16392#64 }] })] }
theorem witness_sundopAlign :
  (∃ (g : Issue) (s : State) (va : Word),
  (Ready g s) ∧ (Top g s [va] 1) ∧ (va.toNat % 8 ≠ 0)) ∧
  (∃ (g : Issue) (s : State) (va : Word),
  (Ready g s) ∧ (Top g s [va] 1) ∧ (va.toNat % 4 ≠ 0)) ∧
  (∃ (g : Issue) (s : State) (va : Word) (v : Word),
  (Ready g s) ∧ (Top g s [va, v] 1) ∧ (va.toNat % 8 ≠ 0)) ∧
  (∃ (g : Issue) (s : State) (va : Word),
  (Ready g s) ∧ (Top g s [va] 0) ∧ (va.toNat % 64 ≠ 0) ∧ (g.c.val < 24) ∧ ((tk g s).fpPend = false)) :=
  ⟨⟨issue1, sundopAlign1s, 16388#64, by decide +kernel⟩,
   ⟨issue1, sundopAlign2s, 16385#64, by decide +kernel⟩,
   ⟨issue1, sundopAlign3s, 16388#64, 5#64, by decide +kernel⟩,
   ⟨issue4, sundopAlign4s, 16392#64, by decide +kernel⟩⟩

def sundopAtomics1s : State :=
  { State.reset with
      regs := [(MEMC_STATUS 53, 1538#64), (MEMC_STATUS 288, 2#64)]
      tasks := [(1537,
                 { st := .run, sp := 131056, rsb := [131072]
                   cached := [{ space := 0, addr := 131056, v := 5#64 }, { space := 0, addr := 131064, v := 16384#64 }] })] }
def sundopAtomics3s : State :=
  { State.reset with
      regs := [(MEMC_STATUS 53, 1538#64), (MEMC_STATUS 288, 2#64)]
      tasks := [(1537,
                 { st := .run, sp := 131048, rsb := [131072]
                   cached := [{ space := 0, addr := 131048, v := 6#64 }, { space := 0, addr := 131056, v := 5#64 },
                              { space := 0, addr := 131064, v := 16384#64 }] })] }
theorem witness_sundopAtomics :
  (∃ (g : Issue) (s : State) (va : Word) (e : Word) (old : Word),
  (Ready g s) ∧ (s.checked g.c.val = false) ∧ ((tk g s).ring ≤ 1) ∧ (va.toNat < 2 ^ 52) ∧ (gaNode va.toNat = s.node) ∧ (Plain s (gaOff va.toNat) 8) ∧ (Settled g s va.toNat 8) ∧ (memWf s.mem = true) ∧ (s.peek (gaOff va.toNat) 8 = leBytes 8 old.toNat) ∧ (Top g s [va, e] 1)) ∧
  (∃ (g : Issue) (s : State) (va : Word) (e : Word) (old : Word),
  (Ready g s) ∧ (s.checked g.c.val = false) ∧ ((tk g s).ring ≤ 1) ∧ (va.toNat < 2 ^ 52) ∧ (gaNode va.toNat = s.node) ∧ (Plain s (gaOff va.toNat) 8) ∧ (Settled g s va.toNat 8) ∧ (memWf s.mem = true) ∧ (s.peek (gaOff va.toNat) 8 = leBytes 8 old.toNat) ∧ (Top g s [va, e] 1)) ∧
  (∃ (g : Issue) (s : State) (va : Word) (e : Word) (n : Word) (old : Word),
  (Ready g s) ∧ (s.checked g.c.val = false) ∧ ((tk g s).ring ≤ 1) ∧ (va.toNat < 2 ^ 52) ∧ (gaNode va.toNat = s.node) ∧ (Plain s (gaOff va.toNat) 8) ∧ (Settled g s va.toNat 8) ∧ (memWf s.mem = true) ∧ (s.peek (gaOff va.toNat) 8 = leBytes 8 old.toNat) ∧ (Top g s [va, e, n] 1)) :=
  ⟨⟨issue1, sundopAtomics1s, 16384#64, 5#64, 0#64, by decide +kernel⟩,
   ⟨issue1, sundopAtomics1s, 16384#64, 5#64, 0#64, by decide +kernel⟩,
   ⟨issue1, sundopAtomics3s, 16384#64, 5#64, 6#64, 0#64, by decide +kernel⟩⟩

def sundopStrings1s : State :=
  { State.reset with
      regs := [(MEMC_STATUS 53, 1538#64), (MEMC_STATUS 288, 2#64)]
      tasks := [(1537, { st := .run, src := 16384#64, dst := 16384#64, cnt := 79#64 })] }
def sundopStrings3s : State :=
  { State.reset with
      regs := [(MEMC_STATUS 53, 1538#64), (MEMC_STATUS 288, 2#64)]
      tasks := [(1537,
                 { st := .run, sp := 131064, rsb := [131072], cached := [{ space := 0, addr := 131064, v := 129#64 }]
                   src := 16384#64
                   dst := 16384#64, cnt := 79#64 })] }
theorem witness_sundopStrings :
  (∃ (g : Issue) (s : State) (wl : Fin 4),
  let x := tk g s
  let w := 2 ^ wl.val
  let src := x.src.toNat
  let dst := x.dst.toNat
  (Ready g s) ∧ (s.checked g.c.val = false) ∧ (x.ring ≤ 1) ∧ (x.cnt ≠ 0) ∧ (s.ownStores g.c.val g.t.val = []) ∧ (memWf s.mem = true) ∧ (src < 2 ^ 52) ∧ (gaNode src = s.node) ∧ (Plain s (gaOff src) w) ∧ (dst < 2 ^ 52) ∧ (gaNode dst = s.node) ∧ (Plain s (gaOff dst) w) ∧ (Top g s [] 0)) ∧
  (∃ (g : Issue) (s : State) (wl : Fin 4),
  let x := tk g s
  let w := 2 ^ wl.val
  let src := x.src.toNat
  let dst := x.dst.toNat
  (Ready g s) ∧ (s.checked g.c.val = false) ∧ (x.ring ≤ 1) ∧ (x.cnt ≠ 0) ∧ (s.ownStores g.c.val g.t.val = []) ∧ (memWf s.mem = true) ∧ (src < 2 ^ 52) ∧ (gaNode src = s.node) ∧ (Plain s (gaOff src) w) ∧ (dst < 2 ^ 52) ∧ (gaNode dst = s.node) ∧ (Plain s (gaOff dst) w) ∧ (Top g s [] 0)) ∧
  (∃ (g : Issue) (s : State) (v : Word) (wl : Fin 4),
  let x := tk g s
  let w := 2 ^ wl.val
  let src := x.src.toNat
  let dst := x.dst.toNat
  (Ready g s) ∧ (s.checked g.c.val = false) ∧ (x.ring ≤ 1) ∧ (x.cnt ≠ 0) ∧ (s.ownStores g.c.val g.t.val = []) ∧ (memWf s.mem = true) ∧ (src < 2 ^ 52) ∧ (gaNode src = s.node) ∧ (Plain s (gaOff src) w) ∧ (dst < 2 ^ 52) ∧ (gaNode dst = s.node) ∧ (Plain s (gaOff dst) w) ∧ (Top g s [v] 1)) ∧
  (∃ (g : Issue) (s : State) (v : Word) (wl : Fin 4),
  let x := tk g s
  let w := 2 ^ wl.val
  let src := x.src.toNat
  let dst := x.dst.toNat
  (Ready g s) ∧ (s.checked g.c.val = false) ∧ (x.ring ≤ 1) ∧ (x.cnt ≠ 0) ∧ (s.ownStores g.c.val g.t.val = []) ∧ (memWf s.mem = true) ∧ (src < 2 ^ 52) ∧ (gaNode src = s.node) ∧ (Plain s (gaOff src) w) ∧ (dst < 2 ^ 52) ∧ (gaNode dst = s.node) ∧ (Plain s (gaOff dst) w) ∧ (Top g s [v] 1)) :=
  ⟨⟨issue1, sundopStrings1s, 0, by decide +kernel⟩,
   ⟨issue1, sundopStrings1s, 0, by decide +kernel⟩,
   ⟨issue1, sundopStrings3s, 129#64, 0, by decide +kernel⟩,
   ⟨issue1, sundopStrings3s, 129#64, 0, by decide +kernel⟩⟩

def sundopEmptyStrings3s : State :=
  { State.reset with
      tasks := [(1537, { st := .run, sp := 131064, rsb := [131072], cached := [{ space := 0, addr := 131064, v := 9#64 }] })] }
theorem witness_sundopEmptyStrings :
  (∃ (g : Issue) (s : State),
  (Ready g s) ∧ ((tk g s).cnt = 0) ∧ ((past g s 2).pc + 1 < 2 ^ 64) ∧ (Top g s [] 0)) ∧
  (∃ (g : Issue) (s : State),
  (Ready g s) ∧ ((tk g s).cnt = 0) ∧ ((past g s 2).pc + 1 < 2 ^ 64) ∧ (Top g s [] 0)) ∧
  (∃ (g : Issue) (s : State) (v : Word),
  (Ready g s) ∧ ((tk g s).cnt = 0) ∧ ((past g s 2).pc + 1 < 2 ^ 64) ∧ (Top g s [v] 1)) ∧
  (∃ (g : Issue) (s : State) (v : Word),
  (Ready g s) ∧ ((tk g s).cnt = 0) ∧ ((past g s 2).pc + 1 < 2 ^ 64) ∧ (Top g s [v] 1)) :=
  ⟨⟨issue1, sundopStackResults1s, by decide +kernel⟩,
   ⟨issue1, sundopStackResults1s, by decide +kernel⟩,
   ⟨issue1, sundopEmptyStrings3s, 9#64, by decide +kernel⟩,
   ⟨issue1, sundopEmptyStrings3s, 9#64, by decide +kernel⟩⟩

def issue5 : Issue := { c := 24, t := 1, guard := none, lck := true, rep := false }
def sundopLocks1s : State :=
  { State.reset with
      tasks := [(1537,
                 { st := .run, sp := 131064, rsb := [131072], cached := [{ space := 0, addr := 131064, v := 4398046511104#64 }] })] }
def sundopLocks2s : State :=
  { State.reset with
      tasks := [(1537,
                 { st := .run, sp := 131056, rsb := [131072]
                   cached := [{ space := 0, addr := 131056, v := 5#64 }, { space := 0, addr := 131064, v := 16384#64 }] })] }
def sundopLocks3s : State :=
  { State.reset with
      tasks := [(1537,
                 { st := .run, sp := 131056, rsb := [131072], cached := [{ space := 0, addr := 131056, v := 16384#64 }]
                   lock := some ({ off := 262144, width := 8 }) })] }
def sundopLocks4s : State :=
  { State.reset with
      tasks := [(1537,
                 { st := .run, sp := 131064, rsb := [131072], cached := [{ space := 0, addr := 131064, v := 4329327296512#64 }] })] }
theorem witness_sundopLocks :
  (∃ (g : Issue) (s : State) (va : Word),
  (s.canIssue g.c g.t = true) ∧ ((tk g s).spills = []) ∧ (g.rep = false) ∧ (g.guard = none) ∧ (NoneWaits s (agentTask ↑g.c ↑g.t)) ∧ (s.mxc = []) ∧ ((tk g s).ring ≤ 1) ∧ (BitVec.toNat va < 2 ^ 52) ∧ (BitVec.toNat va % 8 = 0) ∧ (g.lck = true) ∧ ((tk g s).lock = none) ∧ (gaNode (BitVec.toNat va) ≠ s.node) ∧ (Claim.Top g s [va] 1)) ∧
  (∃ (g : Issue) (s : State) (va : Word) (v : Word),
  (s.canIssue g.c g.t = true) ∧ ((tk g s).spills = []) ∧ (g.rep = false) ∧ (g.guard = none) ∧ (NoneWaits s (agentTask ↑g.c ↑g.t)) ∧ (s.mxc = []) ∧ ((tk g s).ring ≤ 1) ∧ (BitVec.toNat va < 2 ^ 52) ∧ (BitVec.toNat va % 8 = 0) ∧ (g.lck = true) ∧ ((tk g s).lock = none) ∧ (Claim.Top g s [va, v] 0)) ∧
  (∃ (g : Issue) (s : State) (va : Word),
  (s.canIssue g.c g.t = true) ∧ ((tk g s).spills = []) ∧ (g.rep = false) ∧ (g.guard = none) ∧ (NoneWaits s (agentTask ↑g.c ↑g.t)) ∧ (s.mxc = []) ∧ ((tk g s).ring ≤ 1) ∧ (BitVec.toNat va < 2 ^ 52) ∧ (BitVec.toNat va % 8 = 0) ∧ (g.lck = false) ∧ ((tk g s).lock.isSome = true) ∧ (Claim.Top g s [va] 1)) ∧
  (∃ (g : Issue) (s : State) (va : Word),
  (s.canIssue g.c g.t = true) ∧ ((tk g s).spills = []) ∧ (g.rep = false) ∧ (g.guard = none) ∧ (NoneWaits s (agentTask ↑g.c ↑g.t)) ∧ (s.mxc = []) ∧ ((tk g s).ring ≤ 1) ∧ (BitVec.toNat va < 2 ^ 52) ∧ (BitVec.toNat va % 8 = 0) ∧ (g.lck = true) ∧ ((tk g s).lock = none) ∧ (BitVec.toNat va = s.node * 2 ^ 42 + regBase + FLT_CFG) ∧ (Claim.Top g s [va] 1) ∧ (s.power.off = false) ∧ (s.node < 1024) ∧ (∀ (m : Fin 6), s.rd (MXC_LOCK_HELD m.val) = 0) ∧ (Settled g s (BitVec.toNat va) 8)) :=
  ⟨⟨issue5, sundopLocks1s, 4398046511104#64, by decide +kernel⟩,
   ⟨issue5, sundopLocks2s, 16384#64, 5#64, by decide +kernel⟩,
   ⟨issue1, sundopLocks3s, 16384#64, by decide +kernel⟩,
   ⟨issue5, sundopLocks4s, 4329327296512#64, by decide +kernel⟩⟩

def sundopStoreLeaves1e : StoreEntry := { task := 1, ga := 16392, size := 8, v := 5 }
def sundopStoreLeaves1s : State :=
  { State.reset with regs := [(MEMC_STATUS 53, 1538#64)], cores := [(24, { stores := [sundopStoreLeaves1e] })] }
theorem witness_sundopStoreLeaves :
  (∃ (c : Core) (s : State) (e : StoreEntry),
  ((s.coreSt c.val).stores = [e]) ∧ (e.sent = false) ∧ (gaNode e.ga = s.node) ∧ (Plain s (gaOff e.ga) e.size) ∧ (memWf s.mem = true) ∧ ((∀ t : Task, (s.task c.val t.val).spills = []))) :=
  ⟨24, sundopStoreLeaves1s, sundopStoreLeaves1e, by decide +kernel⟩

def sundopChain1s : State :=
  { State.reset with
      regs := [(PWR_DOMAIN_LO, 128#64), (MEMC_STATUS 53, 1538#64), (MEMC_STATUS 85, 2562#64)]
      tasks := [(449, { st := .run, sp := 131064, rsb := [131072], cached := [{ space := 0, addr := 131064, v := 16384#64 }] })] }
theorem witness_sundopChain :
  (∃ (g : Issue) (s : State) (va : Word),
  (Ready g s) ∧ (g.c.val < 24) ∧ ((tk g s).fpPend = false) ∧ (Top g s [va] 0) ∧ ((tk g s).ring ≤ 1) ∧ (va.toNat < 2 ^ 52) ∧ (va.toNat % 64 = 0) ∧ (gaNode va.toNat = s.node) ∧ ((∀ k : Fin 6, Plain s (gaOff va.toNat + 64 * k.val) 64)) ∧ ((s.coreSt g.c.val).stores = []) ∧ ((s.taskChains g.c.val g.t.val).length < 4)) :=
  ⟨issue4, sundopChain1s, 16384#64, by decide +kernel⟩

def sundopLoft1s : State :=
  { State.reset with
      regs := [(PWR_DOMAIN_LO, 128#64)]
      tasks := [(449,
                 { st := .run, sp := 131048, rsb := [131072]
                   cached := [{ space := 0, addr := 131048, v := 13835058055282163712#64 },
                              { space := 0, addr := 131056, v := 16384#64 }] })] }
def sundopLoft2s : State :=
  { State.reset with
      regs := [(PWR_DOMAIN_LO, 128#64)]
      tasks := [(449,
                 { st := .run, sp := 131048, rsb := [131072]
                   cached := [{ space := 0, addr := 131048, v := 14987979559889010688#64 },
                              { space := 0, addr := 131056, v := 16384#64 }, { space := 0, addr := 131064, v := 7#64 }] })] }
theorem witness_sundopLoft :
  (∃ (g : Issue) (s : State) (w0 : Word) (w1 : Word),
  let i := 4 * g.c.val + w1.toNat / 2 ^ 62
  (Ready g s) ∧ (g.c.val < 24) ∧ ((tk g s).fpPend = false) ∧ ((s.coreSt g.c.val).stores = []) ∧ (((s.svu i).queue.filter (fun o => o.mark == 0)).length < 8) ∧ (w1.getLsbD 60 = false) ∧ (Top g s [w0, w1] 0)) ∧
  (∃ (g : Issue) (s : State) (sc : Word) (w0 : Word) (w1 : Word),
  let i := 4 * g.c.val + w1.toNat / 2 ^ 62
  (Ready g s) ∧ (g.c.val < 24) ∧ ((tk g s).fpPend = false) ∧ ((s.coreSt g.c.val).stores = []) ∧ (((s.svu i).queue.filter (fun o => o.mark == 0)).length < 8) ∧ (w1.getLsbD 60 = true) ∧ (Top g s [sc, w0, w1] 0)) :=
  ⟨⟨issue4, sundopLoft1s, 16384#64, 13835058055282163712#64, by decide +kernel⟩,
   ⟨issue4, sundopLoft2s, 7#64, 16384#64, 14987979559889010688#64, by decide +kernel⟩⟩

def sundopCwait1s : State :=
  { State.reset with regs := [(PWR_DOMAIN_LO, 128#64)], tasks := [(449, { st := .run, sp := 131072 })] }
def words1 : List Nat :=
  [9538406401702602369, 12432013310930701993, 15325620224436991697, 18219227137959993081, 2666089977773508129,
   5487357822281936457, 8380963636293375601, 11274570545521475225, 14168177459027764929, 17061784372550766313,
   1508647212364281361, 4330196531849420345, 7223521970395776609, 10117127784407215753, 13010734693635315377,
   15904341607141605081, 351204446955054593, 3172753766440193577, 6066079204986549841, 8959685018997988985, 11853291928226088609,
   14746898841732378313, 17640505755255379697, 2087368595068894745, 4908917914554033729, 7802243353100389993,
   10695849162816861841, 13589456076323151545, 16483062989846152929, 929925829659667977, 3751475149144806961,
   6644800587691163225, 9538406401702602369, 12432013310930701993, 15325620224436991697, 18219227137959993081,
   2666089977773508129, 5487357822281936457, 8380963636293375601, 11274570545521475225, 14168177459027764929,
   17061784372550766313, 1508647212364281361, 4330196531849420345, 7223521970395776609, 10117127784407215753,
   13010734693635315377, 15904341607141605081]
def sundopCwait2c : Chain :=
  { id := 1, issuer := .task 7 1, desc := words1, start0 := 196320409362169, start := 196320409362169, phase := .ended
    status := 17
    endIndex := 196320409362169 }
def sundopCwait2s : State :=
  { State.reset with
      regs := [(PWR_DOMAIN_LO, 128#64)], chains := [sundopCwait2c], tasks := [(449, { st := .run, sp := 131072 })] }
def sundopCwait3c : Chain :=
  { id := 1, issuer := .task 7 1, desc := words1, start0 := 196320409362169, start := 196320409362169, phase := .running
    status := 17
    endIndex := 196320409362169 }
def sundopCwait3s : State :=
  { State.reset with
      regs := [(PWR_DOMAIN_LO, 128#64)], chains := [sundopCwait3c], tasks := [(449, { st := .run, sp := 131072 })] }
theorem witness_sundopCwait :
  (∃ (g : Issue) (s : State),
  (Ready g s) ∧ (Top g s [] 1) ∧ (s.taskChains g.c.val g.t.val = [])) ∧
  (∃ (g : Issue) (s : State) (c : Chain) (l : List Chain),
  (Ready g s) ∧ (Top g s [] 1) ∧ (s.taskChains g.c.val g.t.val = c :: l) ∧ (c.phase = .ended)) ∧
  (∃ (g : Issue) (s : State) (c : Chain) (l : List Chain),
  (Ready g s) ∧ (Top g s [] 1) ∧ (s.taskChains g.c.val g.t.val = c :: l) ∧ (c.phase ≠ .ended)) :=
  ⟨⟨issue4, sundopCwait1s, by decide +kernel⟩,
   ⟨issue4, sundopCwait2s, sundopCwait2c, [], by decide +kernel⟩,
   ⟨issue4, sundopCwait3s, sundopCwait3c, [], by decide +kernel⟩⟩

def sundopSaveRestore1s : State :=
  { State.reset with
      regs := [(MEMC_STATUS 53, 1538#64), (MEMC_STATUS 288, 2#64)]
      tasks := [(1537, { st := .run, sp := 131064, rsb := [131072], cached := [{ space := 0, addr := 131064, v := 16384#64 }] })] }
theorem witness_sundopSaveRestore :
  (∃ (g : Issue) (s : State) (a : Word),
  let u := s.selTask g.c.val
  let y := s.task g.c.val u
  let off := gaOff a.toNat
  (Ready g s) ∧ (s.checked g.c.val = false) ∧ (Top g s [a] 1) ∧ ((tk g s).ring = 0) ∧ (u ≠ g.t.val) ∧ (y.st.idle = true) ∧ (a.toNat < 2 ^ 52) ∧ (a.toNat % 256 = 0) ∧ (gaNode a.toNat = s.node) ∧ (memWf s.mem = true) ∧ ((∀ n : Fin 4, Plain s (off + 64 * n.val) 64)) ∧ (s.ownStores g.c.val g.t.val = []) ∧ (y.cached.length < 32)) ∧
  (∃ (g : Issue) (s : State) (a : Word),
  let u := s.selTask g.c.val
  let y := s.task g.c.val u
  let off := gaOff a.toNat
  (Ready g s) ∧ (s.checked g.c.val = false) ∧ (Top g s [a] 1) ∧ ((tk g s).ring = 0) ∧ (u ≠ g.t.val) ∧ (y.st.idle = true) ∧ (a.toNat < 2 ^ 52) ∧ (a.toNat % 256 = 0) ∧ (gaNode a.toNat = s.node) ∧ (memWf s.mem = true) ∧ ((∀ n : Fin 4, Plain s (off + 64 * n.val) 64)) ∧ (s.ownStores g.c.val g.t.val = []) ∧ (y.cached.length < 32)) ∧
  (∃ (g : Issue) (s : State) (a : Word),
  let u := s.selTask g.c.val
  let y := s.task g.c.val u
  let off := gaOff a.toNat
  let word := fun n : Nat => leNat (s.peek (off + 8 * n) 8)
  (Ready g s) ∧ (s.checked g.c.val = false) ∧ (Top g s [a] 1) ∧ ((tk g s).ring = 0) ∧ (u ≠ g.t.val) ∧ (y.st.idle = true) ∧ (a.toNat < 2 ^ 52) ∧ (a.toNat % 256 = 0) ∧ (gaNode a.toNat = s.node) ∧ (memWf s.mem = true) ∧ ((∀ n : Fin 4, Plain s (off + 64 * n.val) 64)) ∧ (s.ownStores g.c.val g.t.val = []) ∧ (bitsOf (word 3) 20 16 = 0)) ∧
  (∃ (g : Issue) (s : State) (a : Word),
  let u := s.selTask g.c.val
  let y := s.task g.c.val u
  let off := gaOff a.toNat
  (Ready g s) ∧ (s.checked g.c.val = false) ∧ (Top g s [a] 1) ∧ ((tk g s).ring = 0) ∧ (u ≠ g.t.val) ∧ (y.st.idle = true) ∧ (a.toNat < 2 ^ 52) ∧ (a.toNat % 256 = 0) ∧ (gaNode a.toNat = s.node) ∧ (memWf s.mem = true) ∧ ((∀ n : Fin 4, Plain s (off + 64 * n.val) 64)) ∧ (s.ownStores g.c.val g.t.val = [])) :=
  ⟨⟨issue1, sundopSaveRestore1s, 16384#64, by decide +kernel⟩,
   ⟨issue1, sundopSaveRestore1s, 16384#64, by decide +kernel⟩,
   ⟨issue1, sundopSaveRestore1s, 16384#64, by decide +kernel⟩,
   ⟨issue1, sundopSaveRestore1s, 16384#64, by decide +kernel⟩⟩

def sundopGate2s : State :=
  { State.reset with
      regs := [(MEMC_STATUS 90, 2818#64), (19927048, 20484#64)], mem := [(20512, 119#8), (20513, 119#8), (20520, 57#8)]
      tasks := [(1537, { st := .run, sp := 32768 })] }
theorem witness_sundopGate :
  (∃ (g : Issue) (s : State) (n : Byte),
  let c := g.c.val
  (Ready g s) ∧ (Top g s [] 0) ∧ ((tk g s).fpPend = false) ∧ ((tk g s).drogue = false) ∧ (s.rd (CORE_GATE_COUNT c) ≤ n.toNat)) ∧
  (∃ (g : Issue) (s : State) (n : Byte) (e0 : Word) (r : Fin 4) (target : Fin 4),
  let c := g.c.val
  let at' := 4096 * s.rd (CORE_GATE_BASE c) + 16 * n.toNat
  let y := onStack (tk g s) (min (tk g s).ring target.val)
  (Ready g s) ∧ (Top g s [] 0) ∧ ((tk g s).fpPend = false) ∧ ((tk g s).drogue = false) ∧ (n.toNat < s.rd (CORE_GATE_COUNT c)) ∧ (gaNode at' = s.node) ∧ (Plain s (gaOff at') 16) ∧ (Settled g s at' 16) ∧ (s.peek (gaOff at') 16 = leBytes 8 e0.toNat ++ leBytes 8 (1 + 4 * target.val + 16 * r.val)) ∧ ((tk g s).ring ≤ r.val) ∧ (y.sl + 32 ≤ y.sp) ∧ (y.cached.length ≤ 28)) :=
  ⟨⟨issue1, sundopStackResults1s, 9#8, by decide +kernel⟩,
   ⟨issue1, sundopGate2s, 2#8, 30583#64, 3, 2, by decide +kernel⟩⟩

def sundopGret1s : State :=
  { State.reset with
      tasks := [(1537,
                 { st := .run, sp := 98264, rsb := [196608]
                   cached := [{ space := 0, addr := 98264, v := 0#64 }, { space := 0, addr := 98272, v := 77#64 },
                              { space := 0, addr := 98280, v := 1152921504606864986#64 },
                              { space := 0, addr := 98288, v := 32768#64 }, { space := 0, addr := 98296, v := 4660#64 }]
                   nest := 1 })] }
def sundopGret2s : State :=
  { State.reset with
      tasks := [(1537,
                 { st := .run, sp := 98264, rsb := [131072, 196608]
                   cached := [{ space := 1, addr := 98264, v := 0#64 }, { space := 1, addr := 98272, v := 77#64 },
                              { space := 1, addr := 98280, v := 1152921504606898266#64 },
                              { space := 1, addr := 98288, v := 32768#64 }, { space := 1, addr := 98296, v := 4660#64 }]
                   ring := 1 })] }
theorem witness_sundopGret :
  (∃ (g : Issue) (s : State) (ret : Word) (osp : Word) (info : Word) (ring : Nat) (nest : Nat) (cpl : Nat) (k : Bool) (preds : Byte) (cause : Byte),
  let x := tk g s
  let w : Word := BitVec.ofNat 64 (cause.toNat * 2 ^ 56 + (if k then 2 ^ 15 else 0) + cpl * 2 ^ 13 + nest * 2 ^ 10 + ring * 2 ^ 8
      + preds.toNat)
  let kept := if ring = x.ring then x.cached.filter (fun e => decide (x.sp + 40 ≤ e.addr) || e.space != x.space)
      else x.cached.filter (fun e => e.space != x.space)
  let y : TaskRegs := { x with
      pc := ret.toNat, sp := osp.toNat, ring := ring, nest := nest
      cached := kept.filter (fun e => e.space != ring || decide (osp.toNat ≤ e.addr)) }
  let nested := if k then nest + 1 = x.nest else nest = x.nest
  (Ready g s) ∧ ((tk g s).fpPend = false) ∧ ((tk g s).drogue = false) ∧ (ring < 4) ∧ (nest < 8) ∧ (cpl < 4) ∧ (Top g s [ret, osp, w, info, 0] 0) ∧ (x.ring ≤ ring) ∧ (nested) ∧ (y.sl ≤ y.sp)) ∧
  (∃ (g : Issue) (s : State) (ret : Word) (osp : Word) (info : Word) (ring : Nat) (nest : Nat) (cpl : Nat) (k : Bool) (preds : Byte) (cause : Byte),
  let x := tk g s
  let w : Word := BitVec.ofNat 64 (cause.toNat * 2 ^ 56 + (if k then 2 ^ 15 else 0) + cpl * 2 ^ 13 + nest * 2 ^ 10 + ring * 2 ^ 8
      + preds.toNat)
  let nested := if k then nest + 1 = x.nest else nest = x.nest
  (Ready g s) ∧ ((tk g s).fpPend = false) ∧ ((tk g s).drogue = false) ∧ (ring < 4) ∧ (nest < 8) ∧ (cpl < 4) ∧ (Top g s [ret, osp, w, info, 0] 0) ∧ (ring < x.ring ∨ ¬ nested)) :=
  ⟨⟨issue1, sundopGret1s, 4660#64, 32768#64, 77#64, 2, 1, 2, false, 90#8, 16#8, by decide +kernel⟩,
   ⟨issue1, sundopGret2s, 4660#64, 32768#64, 77#64, 0, 2, 2, true, 90#8, 16#8, by decide +kernel⟩⟩

def sundopLineFetch1s : State :=
  { State.reset with regs := [(MEMC_STATUS 53, 1538#64)], tasks := [(1537, { st := .run, pc := 16452 })] }
theorem witness_sundopLineFetch :
  (∃ (c : Core) (t : Task) (s : State),
  (s.canIssue c t = true) ∧ (NoneWaits s (agentTask c.val t.val)) ∧ ((s.task c.val t.val).ring ≤ 1) ∧ ((s.task c.val t.val).pc / 64 * 64 < 2 ^ 52) ∧ (gaNode ((s.task c.val t.val).pc / 64 * 64) = s.node) ∧ (Plain s (gaOff ((s.task c.val t.val).pc / 64 * 64)) 64) ∧ (s.lineHeld (c.val) ((s.task c.val t.val).pc / 64 * 64 / 64) = false) ∧ (List.length (s.coreSt c.val).lines < 2048)) :=
  ⟨24, 1, sundopLineFetch1s, by decide +kernel⟩

def trapEntered1tr : Trap := { cause := 5, status := 17, info := 2457, sub := 3, aux := 4, flags := 5, line := 6 }
def trapEntered1s : State :=
  { State.reset with
      regs := [(19927056, 3265#64)]
      tasks := [(1537, { st := .run, rsb := [196608], ring := 1, trap := some (trapEntered1tr) })] }
theorem witness_trapEntered :
  (∃ (c : Core) (t : Task) (s : State) (tr : Trap),
  (s.mayEnter c t = true) ∧ ((s.task c.val t.val).st = TaskState.run) ∧ ((s.task c.val t.val).fpPend = false) ∧ ((s.task c.val t.val).trap = some tr) ∧ (tr.cause ≠ 12) ∧ (tr.fpp = false) ∧ ((s.task c.val t.val).drogue = false) ∧ ((s.task c.val t.val).spills = []) ∧ ((s.task c.val t.val).lock = none) ∧ (s.mxc = []) ∧ ((s.task c.val t.val).nest < 4) ∧ (s.rd (vecValid (c.val) 0) = 1) ∧ ((onStack (s.task c.val t.val) (min (s.task c.val t.val).ring (s.rd (vecRing (c.val) 0)))).sl + 32 ≤
  (onStack (s.task c.val t.val) (min (s.task c.val t.val).ring (s.rd (vecRing (c.val) 0)))).sp) ∧ ((onStack (s.task c.val t.val) (min (s.task c.val t.val).ring (s.rd (vecRing (c.val) 0)))).cached.length ≤ 28)) :=
  ⟨24, 1, trapEntered1s, trapEntered1tr, by decide +kernel⟩

def interruptEntered1s : State :=
  { State.reset with
      regs := [(19927064, 4353#64)], tasks := [(1537, { st := .wait, rsb := [196608], ring := 3, pend := 160, prio := 51200 })] }
theorem witness_interruptEntered :
  (∃ (c : Core) (t : Task) (s : State) (line : ℕ),
  (s.mayEnter c t = true) ∧ ((s.task c.val t.val).st = TaskState.run ∨ (s.task c.val t.val).st = TaskState.wait) ∧ ((s.task c.val t.val).fpPend = false) ∧ ((s.task c.val t.val).trap = none) ∧ ((s.task c.val t.val).drogue = false) ∧ ((s.task c.val t.val).spills = []) ∧ ((s.task c.val t.val).lock = none) ∧ ((s.task c.val t.val).nest < 4) ∧ ((s.task c.val t.val).taken = some line) ∧ (NoneWaits s (agentTask c.val t.val)) ∧ (s.mxc = []) ∧ (s.rd (vecValid (c.val) 1) = 1) ∧ ((onStack (s.task c.val t.val) (min (s.task c.val t.val).ring (s.rd (vecRing (c.val) 1)))).sl + 32 ≤
  (onStack (s.task c.val t.val) (min (s.task c.val t.val).ring (s.rd (vecRing (c.val) 1)))).sp) ∧ ((onStack (s.task c.val t.val) (min (s.task c.val t.val).ring (s.rd (vecRing (c.val) 1)))).cached.length ≤ 28)) :=
  ⟨24, 1, interruptEntered1s, 7, by decide +kernel⟩

def drogueEntered1tr : Trap := { cause := 18, status := 17, info := 2457 }
def drogueEntered1s : State :=
  { State.reset with regs := [(19927072, 5441#64)], tasks := [(1537, { due := some (drogueEntered1tr) })] }
def drogueEntered2e : StackEntry := { space := 1, addr := 9007199254740992, v := 5#64 }
def drogueEntered2s : State := { State.reset with tasks := [(1537, { spills := [drogueEntered2e] })] }
theorem witness_drogueEntered :
  (∃ (c : Core) (t : Task) (s : State) (tr : Trap),
  ((s.task c.val t.val).due = some tr) ∧ (s.mayServe c t = true) ∧ (∀ t' < t, (s.task c.val ↑t').due = none) ∧ ((s.task c.val t.val).drogue = false) ∧ ((s.task c.val t.val).spills = []) ∧ ((s.task c.val t.val).cached.length ≤ 28) ∧ (s.mxc = []) ∧ (s.rd (vecValid (c.val) 2) = 1) ∧ (Alive s (380 + c.val))) ∧
  (∃ (c : Core) (t : Task) (s : State) (e : StackEntry) (rest : List StackEntry),
  let x := s.task c.val t.val
  (x.spills = e :: rest) ∧ (e.space ≤ 1) ∧ (2 ^ 52 ≤ e.addr) ∧ (x.due = none) ∧ (x.drogue = false) ∧ (s.coreRuns c.val = true) ∧ (Quiet s 636)) :=
  ⟨⟨24, 1, drogueEntered1s, drogueEntered1tr, by decide +kernel⟩,
   ⟨24, 1, drogueEntered2s, drogueEntered2e, [], by decide +kernel⟩⟩

def doubleFaultHalts1s : State :=
  { State.reset with tasks := [(1537, { st := .run, trap := some (drogueEntered1tr), drogue := true })] }
theorem witness_doubleFaultHalts :
  (∃ (c : Core) (t : Task) (s : State) (tr : Trap),
  (s.mayEnter c t = true) ∧ ((s.task c.val t.val).st = TaskState.run) ∧ ((s.task c.val t.val).fpPend = false) ∧ ((s.task c.val t.val).trap = some tr) ∧ (tr.cause ≠ 12) ∧ ((s.task c.val t.val).drogue = true) ∧ (s.mxc = []) ∧ (Alive s (406 + c.val)) ∧ (First s (406 + c.val))) :=
  ⟨24, 1, doubleFaultHalts1s, drogueEntered1tr, by decide +kernel⟩

def taskControl2s : State := { State.reset with tasks := [(1537, { st := .wait })] }
def taskControl5s : State := { State.reset with regs := [(19927040, 1#64)] }
theorem witness_taskControl :
  (∃ (c : Core) (t : Task) (m : Master) (s : State) (v : Word),
  (s.fw0 m = true) ∧ (taskExists c t = true) ∧ (Reaches s (whole m v) (CORE_TASK c.val)) ∧ (v = BitVec.ofNat 64 (2 ^ 17 + t.val)) ∧ ((s.task c.val t.val).st = TaskState.run) ∧ ((s.task c.val t.val).drogue = false) ∧ ((s.task c.val t.val).due = none) ∧ ((s.task c.val t.val).lock = none) ∧ ((s.task c.val t.val).spills = []) ∧ (s.accessSent c.val t.val = false)) ∧
  (∃ (c : Core) (t : Task) (m : Master) (s : State) (v : Word),
  let x := s.task c.val t.val
  (s.fw0 m = true) ∧ (taskExists c t = true) ∧ (Reaches s (whole m v) (CORE_TASK c.val)) ∧ (v = BitVec.ofNat 64 (2 ^ 17 + t.val)) ∧ (x.st = .wait)) ∧
  (∃ (c : Core) (t : Task) (m : Master) (s : State) (v : Word),
  let x := s.task c.val t.val
  (s.fw0 m = true) ∧ (taskExists c t = true) ∧ (Reaches s (whole m v) (CORE_TASK c.val)) ∧ (v = BitVec.ofNat 64 (2 ^ 18 + t.val)) ∧ (x.st.idle = true)) ∧
  (∃ (c : Core) (t : Task) (m : Master) (s : State) (v : Word) (line : Fin 16),
  (s.fw0 m = true) ∧ (taskExists c t = true) ∧ (Reaches s (whole m v) (CORE_INT_RAISE c.val)) ∧ (v = BitVec.ofNat 64 (256 * t.val + line.val)) ∧ ((c.val = 24 → s.supFenced 0 = false))) ∧
  (∃ (c : Core) (t : Task) (m : Master) (s : State) (v : Word) (k : Fin 5),
  let x := s.task c.val t.val
  let n := [1, 5, 6, 7, 8].getD k.val 1
  (s.fw0 m = true) ∧ (taskExists c t = true) ∧ (s.selTask c.val = t.val) ∧ (x.st.idle = true) ∧ (x.boundsOk = true) ∧ (Reaches s (whole m v) (CORE_TWIN c.val n))) :=
  ⟨⟨24, 1, .core 24 2, sundopStackResults1s, 131073#64, by decide +kernel⟩,
   ⟨24, 1, .core 24 2, taskControl2s, 131073#64, by decide +kernel⟩,
   ⟨24, 1, .core 24 2, State.reset, 262145#64, by decide +kernel⟩,
   ⟨24, 1, .core 24 2, State.reset, 268#64, 12, by decide +kernel⟩,
   ⟨24, 1, .core 24 2, taskControl5s, 268#64, 0, by decide +kernel⟩⟩

def pinsAndVectors1s : State := { State.reset with regs := [(MEMC_STATUS 53, 1538#64)] }
def pinsAndVectors2s : State := { State.reset with regs := [(19927128, 16387#64)] }
theorem witness_pinsAndVectors :
  (∃ (c : Core) (n : Fin 8) (m : Master) (s : State) (line : Nat),
  let pin : Word := BitVec.ofNat 64 (64 * line + 1)
  (s.fw0 m = true) ∧ (line < 2 ^ 46) ∧ (Reaches s (whole m pin) (CORE_PIN c.val n.val)) ∧ (s.rd (CORE_PIN_VALID c.val n.val) = 0) ∧ (gaNode (64 * line) = s.node) ∧ (Plain s (gaOff (64 * line)) 64)) ∧
  (∃ (c : Core) (which : Fin 3) (m : Master) (s : State) (line : Nat) (ring : Fin 2),
  let vec : Word := BitVec.ofNat 64 (64 * line + (if which = 2 then 0 else 2 * ring.val) + 1)
  (s.fw0 m = true) ∧ (line < 2 ^ 46) ∧ (Reaches s (whole m vec) (coreVec c.val which.val)) ∧ (s.pinHolds c.val line = true)) ∧
  (∃ (c : Core) (which : Fin 3) (m : Master) (s : State) (line : Nat) (ring : Fin 2),
  let vec : Word := BitVec.ofNat 64 (64 * line + (if which = 2 then 0 else 2 * ring.val) + 1)
  (s.fw0 m = true) ∧ (line < 2 ^ 46) ∧ (Reaches s (whole m vec) (coreVec c.val which.val)) ∧ (s.pinHolds c.val line = false) ∧ (Alive s 637) ∧ (First s 637)) :=
  ⟨⟨24, 0, .core 24 2, pinsAndVectors1s, 256, by decide +kernel⟩,
   ⟨24, 0, .core 24 2, pinsAndVectors2s, 256, 0, by decide +kernel⟩,
   ⟨24, 0, .core 24 2, State.reset, 256, 0, by decide +kernel⟩⟩

def supervisorChecks2e : StoreEntry := { task := 1, ga := 16392, size := 4, v := 305419896 }
def supervisorChecks2s : State :=
  { State.reset with regs := [(MEMC_STATUS 53, 1538#64)], sup := { held := [supervisorChecks2e] } }
def supervisorChecks4s : State := { State.reset with sup := { testing := true } }
theorem witness_supervisorChecks :
  (∃ (s : State),
  (s.rd VERIF_SUP_MODE = 0) ∧ (s.supFenced 0 = false) ∧ (s.sup.testing = false) ∧ (s.sup.closing = false) ∧ (s.sup.held = []) ∧ (s.rd VERIF_SUP_CNT_INTERVALS < 2 ^ 48 - 1)) ∧
  (∃ (s : State) (e : StoreEntry),
  (s.rd VERIF_SUP_MODE = 0) ∧ (s.supFenced 0 = false) ∧ (s.sup.testing = false) ∧ (s.sup.closing = false) ∧ (s.sup.held = [e]) ∧ (e.sent = false) ∧ ((s.coreSt 24).stores = []) ∧ (gaNode e.ga = s.node) ∧ (Plain s (gaOff e.ga) e.size) ∧ (memWf s.mem = true)) ∧
  (∃ (s : State),
  (s.rd VERIF_SUP_MODE = 0) ∧ (s.supFenced 0 = false) ∧ (s.sup.testing = false) ∧ (s.sup.again = false) ∧ (s.sup.closing = false) ∧ (s.rd VERIF_SUP_CNT_MISMATCH < 2 ^ 16 - 1) ∧ (Alive s 623) ∧ (First s 623)) ∧
  (∃ (s : State),
  (s.rd VERIF_SUP_MODE = 0) ∧ (s.supFenced 0 = false) ∧ (s.sup.testing = true) ∧ (s.mxc = [])) ∧
  (∃ (s : State),
  (s.rd VERIF_SUP_MODE = 0) ∧ (s.supFenced 0 = false) ∧ (s.sup.testing = true) ∧ (s.mxc = []) ∧ (Alive s 622)) :=
  ⟨⟨State.reset, by decide +kernel⟩,
   ⟨supervisorChecks2s, supervisorChecks2e, by decide +kernel⟩,
   ⟨State.reset, by decide +kernel⟩,
   ⟨supervisorChecks4s, by decide +kernel⟩,
   ⟨supervisorChecks4s, by decide +kernel⟩⟩

theorem witness_registerWrites :
  (∃ (m : Master) (s : State),
  (s.fw0 m = true) ∧ (s.power.off = false) ∧ (s.mxc = []) ∧ (∀ (n : Fin 6), s.rd (MXC_LOCK_HELD n.val) = 0)) :=
  ⟨.core 24 2, State.reset, by decide +kernel⟩

theorem witness_registerEncodingKept :
  (∃ (m : Master) (s : State) (ch : Chan) (lane : Fin 256),
  let v : Word := BitVec.ofNat 64 (2 ^ 16 * lane.val)
  (s.fw0 m = true) ∧ (lane ≠ 0) ∧ (First s 637) ∧ (Alive s 637) ∧ (Reaches s (whole m v) (MEMC_SPARE_CTL ch.val))) :=
  ⟨.core 24 2, State.reset, 3, 1, by decide +kernel⟩

def registerRefusals1s : State := { State.reset with host := { linkUp := true, cfg := [(4, 6)], ready := true } }
theorem witness_registerRefusals :
  (∃ (s : State) (off : ℕ),
  (s.regBlocked Master.host off 8 = some 35) ∧ (s.hostUp = true) ∧ (First s 636) ∧ (Quiet s 636) ∧ (s.mxc = []) ∧ ((regAt (off / 8 * 8)).isNone = true)) :=
  ⟨registerRefusals1s, 19, by decide +kernel⟩

theorem witness_registerReads :
  (∃ (s : State),
  (s.hostUp = true) ∧ (∀ (n : Fin 6), s.rd (MXC_LOCK_HELD n.val) = 0) ∧ (s.mxc = [])) :=
  ⟨registerRefusals1s, by decide +kernel⟩

def hostBar21s : State :=
  { State.reset with regs := [(MEMC_STATUS 53, 1538#64)], host := { linkUp := true, cfg := [(4, 6)], ready := true } }
theorem witness_hostBar2 :
  (∃ (s : State) (off : ℕ) (bs : List Byte),
  (s.hostUp = true) ∧ (Plain s off bs.length) ∧ (off + bs.length ≤ 2 ^ s.host.bar2Log) ∧ (NoneWaits s agentHost)) ∧
  (∃ (s : State) (off : Nat) (bs : List Byte),
  (s.hostUp = true) ∧ (Plain s off bs.length) ∧ (off + bs.length ≤ 2 ^ s.host.bar2Log) ∧ (memWf s.mem = true)) ∧
  (∃ (s : State) (off : Nat) (bs : List Byte),
  (s.hostUp = true) ∧ (Plain s off bs.length) ∧ (off + bs.length ≤ 2 ^ s.host.bar2Log) ∧ (memWf s.mem = true) ∧ (Alive s (264 + channelOf off / 8)) ∧ (s.rd (MEMC_INJECT_ARM (channelOf off)) = 0)) :=
  ⟨⟨hostBar21s, 16384, [1#8, 2#8, 3#8, 4#8], by decide +kernel⟩,
   ⟨hostBar21s, 16384, [1#8, 2#8, 3#8, 4#8], by decide +kernel⟩,
   ⟨hostBar21s, 16384, [1#8, 2#8, 3#8, 4#8], by decide +kernel⟩⟩

def channelGrants1r : MemReq :=
  { op := .write [{ off := 16448, mask := 13407807929942597099574024998205846127479365820592393377723561443721764030073546976801874298166903427690031858186486050853753882811946569946433649006084095, data := 2037035976334486086268445688409378161051468393665936250636140449354381299763336706183397383, poison := false }]
    src := none, port := 3, arrived := 0, sink := .none }
def channelGrants1w : WordWrite :=
  { off := 16448
    mask := 13407807929942597099574024998205846127479365820592393377723561443721764030073546976801874298166903427690031858186486050853753882811946569946433649006084095
    data := 2037035976334486086268445688409378161051468393665936250636140449354381299763336706183397383 }
def channelGrants1s : State :=
  { State.reset with regs := [(MEMC_STATUS 53, 1538#64)], chans := [(53, { queue := [channelGrants1r] })] }
def channelGrants2r : MemReq := { op := .read 16448 64, src := none, port := 3, arrived := 0, sink := .buffer 9 }
def channelGrants2b : RBuf := { id := 9, agent := agentHost, ga := 16448, len := 64, res := none }
def channelGrants2s : State :=
  { State.reset with
      regs := [(MEMC_STATUS 53, 1538#64)], chans := [(53, { queue := [channelGrants2r] })]
      rbuf := [channelGrants2b] }
theorem witness_channelGrants :
  (∃ (s : State) (ch : Chan) (r : MemReq) (w : WordWrite),
  ((s.chan ch.val).queue = [r]) ∧ (r.src = none) ∧ (r.prov = false) ∧ (w.off % 64 = 0) ∧ (w.off < 3 * 2 ^ 40) ∧ (channelOf w.off = ch.val) ∧ (s.rd (MEMC_STATUS_STATE ch.val) = 2) ∧ (s.damage w.off = { }) ∧ (s.host.dir = []) ∧ ((s.scrubSync ch.val).rd (MEMC_SCRUB_LAG_BEHIND ch.val) = 0) ∧ ((s.chan ch.val).needRows = []) ∧ (r.op = MemOp.write [w]) ∧ (r.sink = Sink.none) ∧ (w.mask = 2 ^ 512 - 1) ∧ (w.poison = false) ∧ (memWf s.mem = true)) ∧
  (∃ (s : State) (ch : Chan) (r : MemReq) (w : WordWrite) (b : RBuf),
  ((s.chan ch.val).queue = [r]) ∧ (r.src = none) ∧ (r.prov = false) ∧ (w.off % 64 = 0) ∧ (w.off < 3 * 2 ^ 40) ∧ (channelOf w.off = ch.val) ∧ (s.rd (MEMC_STATUS_STATE ch.val) = 2) ∧ (s.damage w.off = { }) ∧ (s.host.dir = []) ∧ ((s.scrubSync ch.val).rd (MEMC_SCRUB_LAG_BEHIND ch.val) = 0) ∧ ((s.chan ch.val).needRows = []) ∧ (r.op = MemOp.read w.off 64) ∧ (r.sink = Sink.buffer b.id) ∧ (s.rbuf = [b])) :=
  ⟨⟨channelGrants1s, 53, channelGrants1r, channelGrants1w, by decide +kernel⟩,
   ⟨channelGrants2s, 53, channelGrants2r, channelGrants1w, channelGrants2b, by decide +kernel⟩⟩

def refreshTakesTime1s : State := { State.reset with regs := [(MEMC_STATUS 5, 2#64)] }
theorem witness_refreshTakesTime :
  (∃ (s : State) (ch : Chan) (clocks : Nat),
  (s.rd (MEMC_STATUS_STATE ch.val) = 2) ∧ (clocks ≤ 437)) :=
  ⟨refreshTakesTime1s, 5, 0, by decide +kernel⟩

def scrubReads1s : State :=
  { State.reset with regs := [(MEMC_STATUS 5, 2#64)], chans := [(5, { scrubClock := 108000000000000 })] }
theorem witness_scrubReads :
  (∃ (s : State) (ch : Chan),
  let p := s.rd (MEMC_SCRUB_POS_POSITION ch.val)
  let base := granuleOffset ch.val p
  (s.rd (MEMC_STATUS_STATE ch.val) = 2) ∧ (s.rd (MEMC_SCRUB_CTL_ENABLE ch.val) = 1) ∧ ((s.chan ch.val).queue = []) ∧ (s.now = (s.chan ch.val).scrubSince) ∧ (p + 1 < 2 ^ 27) ∧ (p < 2 ^ 27 * (s.chan ch.val).scrubClock / ((s.chan ch.val).scrubPeriod * 3600000000000)) ∧ (Alive s (240 + ch.val / 8)) ∧ (Alive s (252 + ch.val / 8)) ∧ ((∀ j : Fin 4, (s.damage (base + 64 * j.val)).poison = false ∧ (s.damage (base + 64 * j.val)).syms.length ≤ 1))) :=
  ⟨scrubReads1s, 5, by decide +kernel⟩

def memoryControl4s : State := { State.reset with regs := [(LCS_STATE, 0#64)] }
def memoryControl5s : State := { State.reset with regs := [(LCS_STATE, 1#64)] }
theorem witness_memoryControl :
  (∃ (m : Master) (s : State),
  (Reaches s (whole m 0#64) INTLV_ARB) ∧ (s.fwOrInstaller m = true)) ∧
  (∃ (m : Master) (s : State) (ch : Chan) (period : Fin 256),
  (Reaches s (whole m 0#64) (MEMC_SCRUB_CTL ch.val)) ∧ (s.fwOrInstaller m = true) ∧ (period ≠ 0)) ∧
  (∃ (m : Master) (s : State) (ch : Chan),
  (Reaches s (whole m 0#64) (MEMC_SCRUB_CTL ch.val)) ∧ (s.fwOrInstaller m = true) ∧ (First s 637) ∧ (Alive s 637)) ∧
  (∃ (m : Master) (s : State) (ch : Chan),
  (Reaches s (whole m 0#64) (MEMC_PERF_CTL ch.val))) ∧
  (∃ (m : Master) (s : State) (ch : Chan),
  (Reaches s (whole m 0#64) (MEMC_INJECT ch.val)) ∧ (s.fw0 m = true) ∧ (s.lcs = 0 ∨ s.lcs = 3)) ∧
  (∃ (m : Master) (s : State) (ch : Chan),
  (Reaches s (whole m 0#64) (MEMC_INJECT ch.val)) ∧ (s.fw0 m = false ∨ s.lcs ≠ 0 ∧ s.lcs ≠ 3) ∧ (First s 636) ∧ (Quiet s 636)) :=
  ⟨⟨.core 24 2, State.reset, by decide +kernel⟩,
   ⟨.core 24 2, State.reset, 7, 1, by decide +kernel⟩,
   ⟨.core 24 2, State.reset, 7, by decide +kernel⟩,
   ⟨.core 24 2, State.reset, 7, by decide +kernel⟩,
   ⟨.core 24 2, memoryControl4s, 7, by decide +kernel⟩,
   ⟨.core 24 2, memoryControl5s, 7, by decide +kernel⟩⟩

def sparing1s : State :=
  { State.reset with regs := [(MEMC_SPARE 9, 562949953421313#64)], chans := [(9, { needRows := [(453, true)] })] }
def sparing2s : State := { State.reset with regs := [(MEMC_SPARE 9, 0#64)], chans := [(9, { needRows := [(453, true)] })] }
def sparing3s : State := { State.reset with regs := [(MEMC_SPARE 9, 562949953421312#64)], chans := [(9, { needLanes := [3] })] }
theorem witness_sparing :
  (∃ (s : State) (ch : Chan) (bank : Fin 64) (row : ℕ),
  (Alive s (288 + ch.val / 8)) ∧ (Alive s (240 + ch.val / 8)) ∧ (List.find? (fun n => n.1 == bank.val + 64 * row) (s.chan ch.val).needRows = some (bank.val + 64 * row, true)) ∧ (0 < s.rowsLeft ch.val) ∧ ((List.filter (fun r => r % 64 == bank.val) (s.chan ch.val).spareRows).length < 4)) ∧
  (∃ (s : State) (ch : Chan) (bank : Fin 64) (row : ℕ),
  (Alive s (288 + ch.val / 8)) ∧ (Alive s (240 + ch.val / 8)) ∧ (List.find? (fun n => n.1 == bank.val + 64 * row) (s.chan ch.val).needRows = some (bank.val + 64 * row, true)) ∧ (s.rowsLeft ch.val = 0)) ∧
  (∃ (s : State) (ch : Chan) (lane : Nat),
  let c := ch.val
  (Alive s (288 + ch.val / 8)) ∧ (Alive s (240 + ch.val / 8)) ∧ (lane ∈ (s.chan c).needLanes) ∧ (0 < s.rd (MEMC_SPARE_LANE_FREE c))) :=
  ⟨⟨sparing1s, 9, 5, 7, by decide +kernel⟩,
   ⟨sparing2s, 9, 5, 7, by decide +kernel⟩,
   ⟨sparing3s, 9, 3, by decide +kernel⟩⟩

def wipeZeroes1s : State := { State.reset with regs := [(PWR_DOMAIN_LO, 18014398509481984#64)] }
theorem witness_wipeZeroes :
  (∃ (s : State) (ch : Chan),
  (s.rd (MEMC_STATUS_STATE ch.val) = 1) ∧ (s.rd (MEMC_WIPE_DONE ch.val) = 0) ∧ (s.domainOn (48 + ch.val / 8) = true) ∧ (s.chFenced ch.val = false) ∧ (Quiet s (288 + ch.val / 8)) ∧ (memWf s.mem = true)) :=
  ⟨wipeZeroes1s, 53, by decide +kernel⟩

def wear1s : State := { State.reset with regs := [(MEMC_STATUS 24, 770#64)] }
theorem witness_wear :
  (∃ (s : State) (tower : Tower),
  let c := fun j : Nat => 8 * tower.val + j
  (s.rd (MEMC_STATUS_STATE (c 0)) = 2) ∧ (s.rd (MEMC_WEAR_EQ_QMIN (c 0)) + 16 < 2 ^ 32) ∧ (Alive s (288 + tower.val))) :=
  ⟨wear1s, 3, by decide +kernel⟩

def tailArea3s : State := { State.reset with regs := [(INTLV_TAIL_SIZE, 9223372036854775808#64)] }
def tailArea4s : State :=
  { State.reset with
      regs := [(INTLV_TAIL_SIZE, 9223372036854775808#64)], tail := [{ chain := 0, chan := 0, word := 0, top := 0, old := 0, oldDmg := {} }] }
theorem witness_tailArea :
  (∃ (m : Master) (s : State) (v : Word) (lane width : Nat),
  let old := s.rd INTLV_TAIL_SIZE_SIZE
  let size := (if width = 8 then v.toNat else if lane = 0 then old / 2 ^ 32 * 2 ^ 32 + v.toNat % 2 ^ 32 else v.toNat % 2 ^ 32 * 2 ^ 32 + old % 2 ^ 32) % 2 ^ 42
  (s.fwOrInstaller m = true) ∧ ((lane, width) ∈ [(0, 8), (0, 4), (4, 4)]) ∧ (Reaches s { m := m, lane := lane, width := width, v := v } INTLV_TAIL_SIZE) ∧ (s.rd INTLV_TAIL_BASE_BASE % 24576 = 0) ∧ (size % 24576 = 0) ∧ (s.rd INTLV_TAIL_BASE_BASE + size ≤ 3 * 2 ^ 40)) ∧
  (∃ (m : Master) (s : State) (v : Word) (lane width : Nat),
  let old := s.rd INTLV_TAIL_SIZE_SIZE
  let size := (if width = 8 then v.toNat else if lane = 0 then old / 2 ^ 32 * 2 ^ 32 + v.toNat % 2 ^ 32 else v.toNat % 2 ^ 32 * 2 ^ 32 + old % 2 ^ 32) % 2 ^ 42
  (s.fwOrInstaller m = true) ∧ ((lane, width) ∈ [(0, 8), (0, 4), (4, 4)]) ∧ (Reaches s { m := m, lane := lane, width := width, v := v } INTLV_TAIL_SIZE) ∧ (s.rd INTLV_TAIL_BASE_BASE % 24576 ≠ 0 ∨ size % 24576 ≠ 0 ∨ 3 * 2 ^ 40 < s.rd INTLV_TAIL_BASE_BASE + size) ∧ (First s 637) ∧ (Alive s 637)) ∧
  (∃ (s : State),
  (s.rd INTLV_TAIL_SIZE_PENDING = 1) ∧ (s.tail = [])) ∧
  (∃ (s : State),
  (s.rd INTLV_TAIL_SIZE_PENDING = 1) ∧ (s.tail ≠ [])) :=
  ⟨⟨.core 24 2, State.reset, 24576, 0, 8, by decide +kernel⟩,
   ⟨.core 24 2, State.reset, 24577, 0, 4, by decide +kernel⟩,
   ⟨tailArea3s, by decide +kernel⟩,
   ⟨tailArea4s, by decide +kernel⟩⟩

def words2 : List Nat :=
  [257, 0, 55, 0, 0, 0, 0, 0, 0, 0, 0, 0, 0, 0, 0, 0, 0, 0, 0, 0, 0, 0, 0, 0, 0, 0, 0, 0, 0, 0, 0, 0, 0, 0, 0, 0, 0, 0, 0, 0, 0,
   0, 0, 0, 0, 0, 0, 0]
def ringQueries1p : Packet := { words := words2, seq := 7, fin := 9 }
def ringQueries1s : State := { State.reset with rings := [(3, { running := [{ words := words2, seq := 7, fin := 9 }] })] }
def words3 : List Nat :=
  [353, 0, 55, 0, 0, 0, 0, 0, 0, 0, 0, 0, 0, 0, 0, 0, 0, 0, 0, 0, 0, 0, 0, 0, 0, 0, 0, 0, 0, 0, 0, 0, 0, 0, 0, 0, 0, 0, 0, 0, 0,
   0, 0, 0, 0, 0, 0, 0]
def ringQueries2p : Packet := { words := words3, seq := 7, fin := 9 }
def ringQueries2s : State := { State.reset with rings := [(3, { running := [{ words := words3, seq := 7, fin := 9 }] })] }
def words4 : List Nat :=
  [369, 0, 55, 0, 0, 0, 0, 0, 0, 0, 0, 0, 0, 0, 0, 0, 0, 0, 0, 0, 0, 0, 0, 0, 0, 0, 0, 0, 0, 0, 0, 0, 0, 0, 0, 0, 0, 0, 0, 0, 0,
   0, 0, 0, 0, 0, 0, 0]
def ringQueries3p : Packet := { words := words4, seq := 7, fin := 9 }
def ringQueries3s : State := { State.reset with rings := [(3, { running := [{ words := words4, seq := 7, fin := 9 }] })] }
def words5 : List Nat :=
  [258, 24, 55, 0, 0, 0, 0, 0, 0, 0, 0, 0, 0, 0, 0, 0, 0, 0, 0, 0, 0, 0, 0, 0, 0, 0, 0, 0, 0, 0, 0, 0, 0, 0, 0, 0, 0, 0, 0, 0, 0,
   0, 0, 0, 0, 0, 0, 0]
def ringQueries4p : Packet := { words := words5, seq := 7, fin := 9 }
def ringQueries4s : State := { State.reset with rings := [(3, { running := [{ words := words5, seq := 7, fin := 9 }] })] }
def ringQueries5s : State :=
  { State.reset with
      rings := [(3, { running := [{ words := words5, seq := 7, fin := 9 }] }), (4, { order := [(9, 77)] })], bells := [(4, 77)] }
def words6 : List Nat :=
  [352, 0, 55, 0, 0, 0, 0, 0, 0, 0, 0, 0, 0, 0, 0, 0, 0, 0, 0, 0, 0, 0, 0, 0, 0, 0, 0, 0, 0, 0, 0, 0, 0, 0, 0, 0, 0, 0, 0, 0, 0,
   0, 0, 0, 0, 0, 0, 0]
def ringQueries6p : Packet := { words := words6, seq := 7, fin := 9 }
def ringQueries6s : State :=
  { State.reset with
      regs := [(MEMC_RD_BYTES 256, 2#64)], rings := [(3, { running := [{ words := words6, seq := 7, fin := 9 }] })] }
def ringQueries7s : State := { State.reset with rings := [(3, { running := [{ words := words6, seq := 7, fin := 9 }] })] }
def words7 : List Nat :=
  [4448, 0, 55, 0, 0, 0, 0, 0, 0, 0, 0, 0, 0, 0, 0, 0, 0, 0, 0, 0, 0, 0, 0, 0, 0, 0, 0, 0, 0, 0, 0, 0, 0, 0, 0, 0, 0, 0, 0, 0, 0,
   0, 0, 0, 0, 0, 0, 0]
def ringQueries8p : Packet := { words := words7, seq := 7, fin := 9 }
def ringQueries8s : State := { State.reset with rings := [(3, { running := [{ words := words7, seq := 7, fin := 9 }] })] }
def words8 : List Nat :=
  [368, 1800, 55, 0, 0, 0, 0, 0, 0, 0, 0, 0, 0, 0, 0, 0, 0, 0, 0, 0, 0, 0, 0, 0, 0, 0, 0, 0, 0, 0, 0, 0, 0, 0, 0, 0, 0, 0, 0, 0,
   0, 0, 0, 0, 0, 0, 0, 0]
def ringQueries9p : Packet := { words := words8, seq := 7, fin := 9 }
def ringQueries9s : State := { State.reset with rings := [(3, { running := [{ words := words8, seq := 7, fin := 9 }] })] }
def words9 : List Nat :=
  [368, 100, 55, 0, 0, 0, 0, 0, 0, 0, 0, 0, 0, 0, 0, 0, 0, 0, 0, 0, 0, 0, 0, 0, 0, 0, 0, 0, 0, 0, 0, 0, 0, 0, 0, 0, 0, 0, 0, 0,
   0, 0, 0, 0, 0, 0, 0, 0]
def ringQueries10p : Packet := { words := words9, seq := 7, fin := 9 }
def ringQueries10s : State := { State.reset with rings := [(3, { running := [{ words := words9, seq := 7, fin := 9 }] })] }
theorem witness_ringQueries :
  (∃ (r : Ring) (s : State) (p : Packet),
  (Has s r 0x01 p)) ∧
  (∃ (r : Ring) (s : State) (p : Packet),
  (Has s r 0x61 p)) ∧
  (∃ (r : Ring) (s : State) (p : Packet),
  (Has s r 0x71 p)) ∧
  (∃ (r : Ring) (s : State) (p : Packet),
  (Has s r 0x02 p) ∧ ((∀ b ∈ s.bells, b.1 = r.val ∨ 64 ≤ b.1 ∨ p.w 1 / 2 ^ b.1 % 2 = 0))) ∧
  (∃ (r : Ring) (s : State) (p : Packet) (n : Nat) (t : Nat) (seq : Nat),
  (Has s r 0x02 p) ∧ (s.bells = [(n, t)]) ∧ (n ≠ r.val) ∧ (n < 64) ∧ (p.w 1 / 2 ^ n % 2 = 1) ∧ (t < 2 ^ 32) ∧ ((seq, t) ∈ (s.ring n).order)) ∧
  (∃ (r : Ring) (s : State) (p : Packet),
  (Has s r 0x60 p) ∧ (p.w 0 / 2 ^ 12 % 2 = 0) ∧ (p.w 1 < 2 ^ 64) ∧ (2 ≤ s.rd JFAB_TIME_SOURCE)) ∧
  (∃ (r : Ring) (s : State) (p : Packet),
  (Has s r 0x60 p) ∧ (p.w 0 / 2 ^ 12 % 2 = 0) ∧ (p.w 1 < 2 ^ 64) ∧ (s.rd JFAB_TIME_SOURCE < 2)) ∧
  (∃ (r : Ring) (s : State) (p : Packet),
  (Has s r 0x60 p) ∧ (p.w 0 / 2 ^ 12 % 2 = 1) ∧ (p.w 1 < 2 ^ 64)) ∧
  (∃ (r : Ring) (s : State) (p : Packet),
  let w := p.w 1 % 2 ^ 16
  let c := if s.rd PWR_CAP_BOARD = 0 then w else min w (s.rd PWR_CAP_BOARD)
  (Has s r 0x70 p) ∧ (w ≠ 0) ∧ (s.rd PWR_LIMIT_CAP_MIN ≤ w) ∧ (w ≤ s.rd PWR_LIMIT_MAX_W) ∧ (s.committed ≤ ((min (envelopeD s.power.vin) c : Nat) : Rat)) ∧ (s.power.waiting = [])) ∧
  (∃ (r : Ring) (s : State) (p : Packet),
  let w := p.w 1 % 2 ^ 16
  (Has s r 0x70 p) ∧ (w ≠ 0) ∧ (w < s.rd PWR_LIMIT_CAP_MIN ∨ s.rd PWR_LIMIT_MAX_W < w)) :=
  ⟨⟨3, ringQueries1s, ringQueries1p, by decide +kernel⟩,
   ⟨3, ringQueries2s, ringQueries2p, by decide +kernel⟩,
   ⟨3, ringQueries3s, ringQueries3p, by decide +kernel⟩,
   ⟨3, ringQueries4s, ringQueries4p, by decide +kernel⟩,
   ⟨3, ringQueries5s, ringQueries4p, 4, 77, 9, by decide +kernel⟩,
   ⟨3, ringQueries6s, ringQueries6p, by decide +kernel⟩,
   ⟨3, ringQueries7s, ringQueries6p, by decide +kernel⟩,
   ⟨3, ringQueries8s, ringQueries8p, by decide +kernel⟩,
   ⟨3, ringQueries9s, ringQueries9p, by decide +kernel⟩,
   ⟨3, ringQueries10s, ringQueries10p, by decide +kernel⟩⟩

def words10 : List Nat :=
  [1411811584778528, 4660, 55, 4096, 256, 11, 12, 13, 0, 0, 0, 0, 0, 0, 0, 0, 0, 0, 0, 0, 0, 0, 0, 0, 0, 0, 0, 0, 0, 0, 0, 0, 0,
   0, 0, 0, 0, 0, 0, 0, 0, 0, 0, 0, 0, 0, 0, 0]
def ringObjects1p : Packet := { words := words10, seq := 7, fin := 9 }
def ringObjects1s : State := { State.reset with rings := [(3, { running := [{ words := words10, seq := 7, fin := 9 }] })] }
def words11 : List Nat :=
  [1411811584819489, 0, 55, 0, 0, 0, 0, 0, 0, 0, 0, 0, 0, 0, 0, 0, 0, 0, 0, 0, 0, 0, 0, 0, 0, 0, 0, 0, 0, 0, 0, 0, 0, 0, 0, 0, 0,
   0, 0, 0, 0, 0, 0, 0, 0, 0, 0, 0]
def ringObjects2p : Packet := { words := words11, seq := 7, fin := 9 }
def ringObjects2s : State :=
  { State.reset with
      tasks := [(265, { st := .wait })], rings := [(3, { running := [{ words := words11, seq := 7, fin := 9 }] })] }
def words12 : List Nat :=
  [49488, 0, 55, 0, 0, 0, 0, 0, 0, 0, 0, 0, 0, 0, 0, 0, 0, 0, 0, 0, 0, 0, 0, 0, 0, 0, 0, 0, 0, 0, 0, 0, 0, 0, 0, 0, 0, 0, 0, 0,
   0, 0, 0, 0, 0, 0, 0, 0]
def ringObjects3p : Packet := { words := words12, seq := 7, fin := 9 }
def ringObjects3s : State :=
  { State.reset with
      regs := [(BMV_POOL_CFG 12, 9225060886715039744#64)]
      rings := [(3, { running := [{ words := words12, seq := 7, fin := 9 }] })]
      pools := [(12, { free := [4, 5] })] }
def ringObjects4s : State :=
  { State.reset with
      regs := [(BMV_POOL_CFG 12, 9225060886715039744#64)]
      rings := [(3, { running := [{ words := words12, seq := 7, fin := 9 }] })] }
def words13 : List Nat :=
  [337, 805307395, 55, 0, 0, 0, 0, 0, 0, 0, 0, 0, 0, 0, 0, 0, 0, 0, 0, 0, 0, 0, 0, 0, 0, 0, 0, 0, 0, 0, 0, 0, 0, 0, 0, 0, 0, 0,
   0, 0, 0, 0, 0, 0, 0, 0, 0, 0]
def ringObjects5p : Packet := { words := words13, seq := 7, fin := 9 }
def ringObjects5s : State :=
  { State.reset with
      regs := [(BMV_POOL_CFG 12, 9225060886715039754#64)]
      rings := [(3, { running := [{ words := words13, seq := 7, fin := 9 }] })]
      pools := [(12, { gen := [(4, 3)], owner := [(4, 3)] })] }
def ringObjects6s : State :=
  { State.reset with
      regs := [(BMV_POOL_CFG 12, 9225060886715039754#64)]
      rings := [(3, { running := [{ words := words13, seq := 7, fin := 9 }] })] }
theorem witness_ringObjects :
  (∃ (r : Ring) (s : State) (p : Packet),
  let k := p.w 0 / 2 ^ 40 % 32
  let n := p.w 0 / 2 ^ 32 % 16
  let g := p.w 0 / 2 ^ 12 % 4
  (Has s r 0x20 p) ∧ (k < 24) ∧ (2 ≤ g) ∧ (p.w 3 % 8 = 0) ∧ (p.w 4 % 8 = 0) ∧ (p.w 4 + 24 ≤ p.w 3) ∧ ((s.task k n).st = .off) ∧ (s.clusFenced k = false) ∧ ((s.task k n).rsb.length = 4) ∧ ((s.task k n).rsl.length = 4)) ∧
  (∃ (r : Ring) (s : State) (p : Packet),
  let k := p.w 0 / 2 ^ 40 % 32
  let n := p.w 0 / 2 ^ 32 % 16
  (Has s r 0x21 p) ∧ (k < 24) ∧ (s.clusFenced k = false) ∧ ((s.task k n).st ≠ .off)) ∧
  (∃ (r : Ring) (s : State) (p : Packet) (free : List Nat) (i : Nat),
  let q := p.w 0 / 2 ^ 12 % 64
  (Has s r 0x50 p) ∧ (s.rd (BMV_POOL_CFG_ENABLE q) = 1) ∧ ((s.pool q).free = i :: free) ∧ (i < 2 ^ 18) ∧ (free.length < 2 ^ 18)) ∧
  (∃ (r : Ring) (s : State) (p : Packet),
  let q := p.w 0 / 2 ^ 12 % 64
  (Has s r 0x50 p) ∧ (s.rd (BMV_POOL_CFG_ENABLE q) = 1) ∧ ((s.pool q).free = [])) ∧
  (∃ (r : Ring) (s : State) (p : Packet),
  let v := p.w 1 % 2 ^ 32
  let b := v / 2 ^ 26
  let j := v / 2 ^ 8 % 2 ^ 18
  (Has s r 0x51 p) ∧ (s.rd (BMV_POOL_CFG_ENABLE b) = 1) ∧ (j < s.rd (BMV_POOL_CFG_COUNT b)) ∧ (Quiet s 635) ∧ (First s 635) ∧ (tabFind (s.pool b).owner j = some r.val) ∧ (v % 2 ^ 8 = tabGet (s.pool b).gen 0 j) ∧ ((s.pool b).free.length + 1 < 2 ^ 18)) ∧
  (∃ (r : Ring) (s : State) (p : Packet) (o : Nat),
  let v := p.w 1 % 2 ^ 32
  let b := v / 2 ^ 26
  let j := v / 2 ^ 8 % 2 ^ 18
  (Has s r 0x51 p) ∧ (s.rd (BMV_POOL_CFG_ENABLE b) = 1) ∧ (j < s.rd (BMV_POOL_CFG_COUNT b)) ∧ (Quiet s 635) ∧ (First s 635) ∧ (tabFind (s.pool b).owner j = none ∨ (tabFind (s.pool b).owner j = some o ∧ o ≠ r.val ∧ v % 2 ^ 8 = tabGet (s.pool b).gen 0 j))) :=
  ⟨⟨3, ringObjects1s, ringObjects1p, by decide +kernel⟩,
   ⟨3, ringObjects2s, ringObjects2p, by decide +kernel⟩,
   ⟨3, ringObjects3s, ringObjects3p, [5], 4, by decide +kernel⟩,
   ⟨3, ringObjects4s, ringObjects3p, by decide +kernel⟩,
   ⟨3, ringObjects5s, ringObjects5p, by decide +kernel⟩,
   ⟨3, ringObjects6s, ringObjects5p, 8, by decide +kernel⟩⟩

def words14 : List Nat :=
  [1407374883692864, 28672, 55, 0, 0, 0, 0, 0, 0, 0, 0, 0, 0, 0, 0, 0, 0, 0, 0, 0, 0, 0, 0, 0, 0, 0, 0, 0, 0, 0, 0, 0, 0, 0, 0,
   0, 0, 0, 0, 0, 0, 0, 0, 0, 0, 0, 0, 0]
def ringTranslation1p : Packet := { words := words14, seq := 7, fin := 9 }
def ringTranslation1s : State := { State.reset with rings := [(3, { running := [{ words := words14, seq := 7, fin := 9 }] })] }
def words15 : List Nat :=
  [1407374883553601, 315392, 55, 3, 0, 0, 0, 0, 0, 0, 0, 0, 0, 0, 0, 0, 0, 0, 0, 0, 0, 0, 0, 0, 0, 0, 0, 0, 0, 0, 0, 0, 0, 0, 0,
   0, 0, 0, 0, 0, 0, 0, 0, 0, 0, 0, 0, 0]
def ringTranslation2p : Packet := { words := words15, seq := 7, fin := 9 }
def ringTranslation2s : State := { State.reset with rings := [(3, { running := [{ words := words15, seq := 7, fin := 9 }] })] }
def words16 : List Nat :=
  [1407374883557697, 315392, 55, 3, 0, 0, 0, 0, 0, 0, 0, 0, 0, 0, 0, 0, 0, 0, 0, 0, 0, 0, 0, 0, 0, 0, 0, 0, 0, 0, 0, 0, 0, 0, 0,
   0, 0, 0, 0, 0, 0, 0, 0, 0, 0, 0, 0, 0]
def ringTranslation3p : Packet := { words := words16, seq := 7, fin := 9, held := true }
def ringTranslation3s : State := { State.reset with rings := [(3, { running := [ringTranslation3p] })] }
def ringTranslation4m : MemReq := { op := .read 0 64, src := none, port := 3, arrived := 0, sink := .none }
def ringTranslation4s : State :=
  { State.reset with chans := [(4, { queue := [ringTranslation4m] })], rings := [(3, { running := [ringTranslation3p] })] }
theorem witness_ringTranslation :
  (∃ (r : Ring) (s : State) (p : Packet),
  (Has s r 0x40 p) ∧ (p.w 1 % 4096 = 0) ∧ (p.w 1 < 2 ^ 52)) ∧
  (∃ (r : Ring) (s : State) (p : Packet),
  let scope := p.w 0 / 2 ^ 12 % 4
  let pages := p.w 3 % 2 ^ 48
  (Has s r 0x41 p) ∧ ((scope = 2 → p.w 1 % 4096 = 0 ∧ 0 < pages ∧ p.w 1 + 4096 * pages ≤ 2 ^ 57)) ∧ (scope ≠ 3)) ∧
  (∃ (r : Ring) (s : State) (p : Packet),
  (s.begun (r.val) 65 = some p ∨ s.begun (r.val) 65 = none ∧ s.begun (r.val) 64 = some p) ∧ ((List.all s.chans fun x => x.2.queue.isEmpty) = true) ∧ ((List.all s.svus fun x => List.all x.2.bankQ fun b => b.2.isEmpty) = true) ∧ (s.freqs = []) ∧ (s.chains = []) ∧ ((List.all s.cores fun x => x.2.stores.isEmpty) = true) ∧ (s.sup.held = [])) ∧
  (∃ (r : Ring) (s : State) (p : Packet) (m : MemReq) (ch : Chan),
  (s.begun r.val 0x41 = some p ∨ (s.begun r.val 0x41 = none ∧ s.begun r.val 0x40 = some p)) ∧ (m ∈ (s.chan ch.val).queue) ∧ (m.src = none) ∧ (m.arrived ≤ p.at0)) :=
  ⟨⟨3, ringTranslation1s, ringTranslation1p, by decide +kernel⟩,
   ⟨3, ringTranslation2s, ringTranslation2p, by decide +kernel⟩,
   ⟨3, ringTranslation3s, ringTranslation3p, by decide +kernel⟩,
   ⟨3, ringTranslation4s, ringTranslation3p, ringTranslation4m, 4, by decide +kernel⟩⟩

def words17 : List Nat :=
  [1407374883553584, 4096, 55, 8192, 256, 0, 0, 0, 0, 0, 0, 0, 0, 0, 0, 0, 0, 0, 0, 0, 0, 0, 0, 0, 0, 0, 0, 0, 0, 0, 0, 0, 0, 0,
   0, 0, 0, 0, 0, 0, 0, 0, 0, 0, 0, 0, 0, 0]
def ringMoves1p : Packet := { words := words17, seq := 7, fin := 9 }
def ringMoves1s : State := { State.reset with rings := [(3, { running := [{ words := words17, seq := 7, fin := 9 }] })] }
def words18 : List Nat :=
  [1407374883553585, 4096, 55, 8192, 256, 0, 0, 0, 0, 0, 0, 0, 0, 0, 0, 0, 0, 0, 0, 0, 0, 0, 0, 0, 0, 0, 0, 0, 0, 0, 0, 0, 0, 0,
   0, 0, 0, 0, 0, 0, 0, 0, 0, 0, 0, 0, 0, 0]
def ringMoves2p : Packet := { words := words18, seq := 7, fin := 9 }
def ringMoves2s : State := { State.reset with rings := [(3, { running := [{ words := words18, seq := 7, fin := 9 }] })] }
def words19 : List Nat :=
  [1407374883553584, 4096, 55, 4100, 256, 0, 0, 0, 0, 0, 0, 0, 0, 0, 0, 0, 0, 0, 0, 0, 0, 0, 0, 0, 0, 0, 0, 0, 0, 0, 0, 0, 0, 0,
   0, 0, 0, 0, 0, 0, 0, 0, 0, 0, 0, 0, 0, 0]
def ringMoves3p : Packet := { words := words19, seq := 7, fin := 9 }
def ringMoves3s : State := { State.reset with rings := [(3, { running := [{ words := words19, seq := 7, fin := 9 }] })] }
theorem witness_ringMoves :
  (∃ (r : Ring) (s : State) (p : Packet) (c : Nat),
  let n := p.w 4 % 2 ^ 48
  ((List.range 32).find? (fun c => s.rd (BMV_OWN_OWNER c) == 2 && s.rd (BMV_CMD_STATE c) == 0) = some c) ∧ (p.w 1 < 2 ^ 57) ∧ (p.w 3 < 2 ^ 64) ∧ (n ≠ 0) ∧ (Has s r 0x30 p) ∧ (p.w 3 < 2 ^ 57) ∧ (p.w 1 + n ≤ p.w 3 ∨ p.w 3 + n ≤ p.w 1)) ∧
  (∃ (r : Ring) (s : State) (p : Packet) (c : Nat),
  let n := p.w 4 % 2 ^ 48
  ((List.range 32).find? (fun c => s.rd (BMV_OWN_OWNER c) == 2 && s.rd (BMV_CMD_STATE c) == 0) = some c) ∧ (p.w 1 < 2 ^ 57) ∧ (p.w 3 < 2 ^ 64) ∧ (n ≠ 0) ∧ (Has s r 0x31 p) ∧ (n % 8 = 0) ∧ (p.w 1 % 8 = 0)) ∧
  (∃ (r : Ring) (s : State) (p : Packet) (c : Nat),
  let n := p.w 4 % 2 ^ 48
  ((List.range 32).find? (fun c => s.rd (BMV_OWN_OWNER c) == 2 && s.rd (BMV_CMD_STATE c) == 0) = some c) ∧ (p.w 1 < 2 ^ 57) ∧ (p.w 3 < 2 ^ 64) ∧ (n ≠ 0) ∧ (Has s r 0x30 p) ∧ (p.w 1 < p.w 3 + n) ∧ (p.w 3 < p.w 1 + n)) :=
  ⟨⟨3, ringMoves1s, ringMoves1p, 0, by decide +kernel⟩,
   ⟨3, ringMoves2s, ringMoves2p, 0, by decide +kernel⟩,
   ⟨3, ringMoves3s, ringMoves3p, 0, by decide +kernel⟩⟩

def ringMerge1x : Acc :=
  { kind := .sum, itype := 0, held := false, any := true, inv := false, nan := false, ninf := false, pinf := false
    nonz := false
    negz := false, posz := false, nanIndex := 0, nanBits := 0, value := 12345 }
def words20 : List Nat :=
  [1407374883557651, 20480, 55, 2, 28672, 0, 0, 0, 0, 0, 0, 0, 0, 0, 0, 0, 0, 0, 0, 0, 0, 0, 0, 0, 0, 0, 0, 0, 0, 0, 0, 0, 0, 0,
   0, 0, 0, 0, 0, 0, 0, 0, 0, 0, 0, 0, 0, 0]
def ringMerge1p : Packet := { words := words20, seq := 7, fin := 9 }
def ringMerge1y : Acc :=
  { kind := .sum, itype := 0, held := false, any := false, inv := false, nan := false, ninf := false, pinf := false
    nonz := false
    negz := false, posz := false, nanIndex := 0, nanBits := 0, value := 7 }
def ringMerge1s : State :=
  { State.reset with
      regs := [(MEMC_STATUS 1, 2#64), (MEMC_STATUS 7, 2#64), (MEMC_STATUS 10, 258#64), (MEMC_STATUS 33, 1026#64),
               (MEMC_STATUS 36, 1026#64), (MEMC_STATUS 42, 1282#64), (MEMC_STATUS 62, 1794#64), (MEMC_STATUS 65, 2050#64),
               (MEMC_STATUS 68, 2050#64), (MEMC_STATUS 75, 2306#64), (MEMC_STATUS 81, 2562#64), (MEMC_STATUS 90, 2818#64),
               (XLAT_CTX_ROOT 5, 1048576#64), (XLAT_CTX_CFG 5, 129#64)]
      mem := [(20481, 96#8), (20489, 128#8), (24576, 1#8), (24577, 128#8), (24640, 57#8), (24641, 48#8), (32768, 1#8),
              (32832, 7#8), (1048576, 1#8), (1048577, 16#8), (1048578, 16#8), (1052672, 1#8), (1052673, 32#8), (1052674, 16#8),
              (1056768, 111#8)]
      rings := [(3, { running := [{ words := words20, seq := 7, fin := 9 }] })] }
def ringMerge2y : Acc :=
  { kind := .cnt, itype := 0, held := false, any := false, inv := false, nan := false, ninf := false, pinf := false
    nonz := false
    negz := false, posz := false, nanIndex := 0, nanBits := 0, value := 7 }
def ringMerge2s : State :=
  { State.reset with
      regs := [(MEMC_STATUS 1, 2#64), (MEMC_STATUS 10, 258#64), (MEMC_STATUS 33, 1026#64), (MEMC_STATUS 42, 1282#64),
               (MEMC_STATUS 62, 1794#64), (MEMC_STATUS 65, 2050#64), (MEMC_STATUS 75, 2306#64), (MEMC_STATUS 81, 2562#64),
               (MEMC_STATUS 90, 2818#64), (XLAT_CTX_ROOT 5, 1048576#64), (XLAT_CTX_CFG 5, 129#64)]
      mem := [(20481, 96#8), (20489, 128#8), (24576, 1#8), (24577, 128#8), (24640, 57#8), (24641, 48#8), (32768, 4#8),
              (32832, 7#8), (1048576, 1#8), (1048577, 16#8), (1048578, 16#8), (1052672, 1#8), (1052673, 32#8), (1052674, 16#8),
              (1056768, 111#8)]
      rings := [(3, { running := [{ words := words20, seq := 7, fin := 9 }] })] }
def mergeWalker : Walker := { agent := agentRing 3, ctx := 5, ring := 1, acc := .read, who := some ringRequester }
def ringMerge1u1 : State := (ringMerge1s.vaRead mergeWalker ringRequester 20480 16).1
def ringMerge1u2 : State := ((ringMerge1u1.rbufClear (agentRing 3)).vaRead mergeWalker ringRequester 24576 640).1
def ringMerge1u3 : State := ((ringMerge1u2.rbufClear (agentRing 3)).vaRead mergeWalker ringRequester 32768 640).1
def ringMerge1u4 : State :=
  ((ringMerge1u3.rbufClear (agentRing 3)).vaWrite { mergeWalker with acc := .write } ringRequester 28672 (ringMerge1x.merge ringMerge1y).bytes).1
def ringMerge2u1 : State := (ringMerge2s.vaRead mergeWalker ringRequester 20480 16).1
def ringMerge2u2 : State := ((ringMerge2u1.rbufClear (agentRing 3)).vaRead mergeWalker ringRequester 24576 640).1
def ringMerge2u3 : State := ((ringMerge2u2.rbufClear (agentRing 3)).vaRead mergeWalker ringRequester 32768 640).1
theorem witness_ringMerge :
  (∃ (r : Ring) (s : State) (p : Packet) (a b : Nat) (im im' bs : List Byte) (x y : Acc) (u1 u2 u3 u4 : State),
  let ctx := p.w 0 / 2 ^ 48 % 256
  let w : Walker := { agent := agentRing r.val, ctx := ctx, ring := s.rd (XLAT_CTX_CFG_RING ctx), acc := .read, who := some ringRequester }
  let rest := fun u : State => u.rbufClear w.agent
  (Has s r 0x13 p) ∧ (p.ref = []) ∧ (p.merged = none) ∧ (p.at0 = 0) ∧ (p.w 0 / 2 ^ 12 % 4 = 1) ∧ (p.w 3 % 2 ^ 11 = 2) ∧ (p.w 4 % 64 = 0) ∧ (a % 64 = 0) ∧ (b % 64 = 0) ∧ (a < 2 ^ 64) ∧ (b < 2 ^ 64) ∧ (im.length = 640) ∧ (im'.length = 640) ∧ (s.vaRead w ringRequester (p.w 1) 16 = (u1, .bytes (leBytes 8 a ++ leBytes 8 b))) ∧ ((rest u1).vaRead w ringRequester a 640 = (u2, .bytes im)) ∧ ((rest u2).vaRead w ringRequester b 640 = (u3, .bytes im')) ∧ (accOfBytes im = some x) ∧ (accOfBytes im' = some y) ∧ (x.kind = y.kind) ∧ (x.itype = y.itype) ∧ ((x.merge y).overflows = false) ∧ ((rest u3).vaWrite { w with acc := .write } ringRequester (p.w 4) (x.merge y).bytes = (u4, .bytes bs))) ∧
  (∃ (r : Ring) (s : State) (p : Packet) (a b : Nat) (im im' : List Byte) (x y : Acc) (u1 u2 u3 : State),
  let ctx := p.w 0 / 2 ^ 48 % 256
  let w : Walker := { agent := agentRing r.val, ctx := ctx, ring := s.rd (XLAT_CTX_CFG_RING ctx), acc := .read, who := some ringRequester }
  let rest := fun u : State => u.rbufClear w.agent
  (Has s r 0x13 p) ∧ (p.ref = []) ∧ (p.merged = none) ∧ (p.at0 = 0) ∧ (p.w 0 / 2 ^ 12 % 4 = 1) ∧ (p.w 3 % 2 ^ 11 = 2) ∧ (p.w 4 % 64 = 0) ∧ (a % 64 = 0) ∧ (b % 64 = 0) ∧ (a < 2 ^ 64) ∧ (b < 2 ^ 64) ∧ (im.length = 640) ∧ (im'.length = 640) ∧ (s.vaRead w ringRequester (p.w 1) 16 = (u1, .bytes (leBytes 8 a ++ leBytes 8 b))) ∧ ((rest u1).vaRead w ringRequester a 640 = (u2, .bytes im)) ∧ ((rest u2).vaRead w ringRequester b 640 = (u3, .bytes im')) ∧ (accOfBytes im = some x) ∧ (accOfBytes im' = some y) ∧ (x.kind ≠ y.kind ∨ x.itype ≠ y.itype)) :=
  ⟨⟨3, ringMerge1s, ringMerge1p, 24576, 32768, ringMerge1x.bytes, ringMerge1y.bytes, [], ringMerge1x, ringMerge1y, ringMerge1u1, ringMerge1u2, ringMerge1u3, ringMerge1u4, by decide +kernel⟩,
   ⟨3, ringMerge2s, ringMerge1p, 24576, 32768, ringMerge1x.bytes, ringMerge2y.bytes, ringMerge1x, ringMerge2y, ringMerge2u1, ringMerge2u2, ringMerge2u3, by decide +kernel⟩⟩

def words21 : List Nat :=
  [12885164432, 8, 55, 328450, 0, 0, 0, 0, 0, 0, 0, 0, 0, 0, 0, 0, 0, 0, 0, 0, 0, 0, 0, 0, 0, 0, 0, 0, 0, 0, 0, 0, 0, 0, 0, 0, 0,
   0, 0, 0, 0, 0, 0, 0, 0, 0, 0, 0]
def ringTables1p : Packet := { words := words21, seq := 7, fin := 9 }
def ringTables1s : State := { State.reset with rings := [(3, { running := [{ words := words21, seq := 7, fin := 9 }] })] }
def words22 : List Nat :=
  [20864, 9295429630892703747, 55, 4, 0, 0, 0, 0, 0, 0, 0, 0, 0, 0, 0, 0, 0, 0, 0, 0, 0, 0, 0, 0, 0, 0, 0, 0, 0, 0, 0, 0, 0, 0,
   0, 0, 0, 0, 0, 0, 0, 0, 0, 0, 0, 0, 0, 0]
def ringTables2p : Packet := { words := words22, seq := 7, fin := 9 }
def ringTables2s : State := { State.reset with rings := [(3, { running := [{ words := words22, seq := 7, fin := 9 }] })] }
def words23 : List Nat :=
  [65952, 16416, 55, 5, 1, 0, 0, 0, 0, 0, 0, 0, 0, 0, 0, 0, 0, 0, 0, 0, 0, 0, 0, 0, 0, 0, 0, 0, 0, 0, 0, 0, 0, 0, 0, 0, 0, 0, 0,
   0, 0, 0, 0, 0, 0, 0, 0, 0]
def ringTables3p : Packet := { words := words23, seq := 7, fin := 9 }
def ringTables3s : State :=
  { State.reset with
      rings := [(3, { running := [{ words := words23, seq := 7, fin := 9 }] })], host := { linkUp := true, cfg := [(4, 6)] } }
def words24 : List Nat :=
  [416, 16416, 55, 5, 1, 0, 0, 0, 0, 0, 0, 0, 0, 0, 0, 0, 0, 0, 0, 0, 0, 0, 0, 0, 0, 0, 0, 0, 0, 0, 0, 0, 0, 0, 0, 0, 0, 0, 0, 0,
   0, 0, 0, 0, 0, 0, 0, 0]
def ringTables4p : Packet := { words := words24, seq := 7, fin := 9 }
def ringTables4s : State :=
  { State.reset with
      regs := [(MEMC_STATUS 53, 1538#64)]
      tlog := [{ time := 5, epoch := 1, source := 5, cls := 0, promoted := false, escalated := false, data := true
                 fence := false
                 seq := 5, inst := 0, status := 0, merged := 0, aux := 0, addr := 5 }]
      rings := [(3, { running := [{ words := words24, seq := 7, fin := 9 }] })] }
theorem witness_ringTables :
  (∃ (r : Ring) (s : State) (p : Packet) (q : Ring),
  let n := p.w 0 / 2 ^ 32 % 128
  let map := (List.range 96).map (fun j => p.w (3 + j / 8) / 2 ^ (8 * (j % 8)) % 256)
  (Has s r 0x90 p) ∧ (0 < n) ∧ (n ≤ 96) ∧ ((map.take n).all (fun x => decide (x < 96)) = true) ∧ ((map.take n).dedup = map.take n) ∧ ((map.drop n).all (fun x => x == 0) = true) ∧ (p.w 1 / 2 ^ q.val % 2 = 1)) ∧
  (∃ (r : Ring) (s : State) (p : Packet),
  (Has s r 0x80 p) ∧ (routeOk (p.w 1) (p.w 3) = true)) ∧
  (∃ (r : Ring) (s : State) (p : Packet),
  (Has s r 160 p) ∧ (p.at0 = 0) ∧ (p.w 0 / 2 ^ 12 % 2 = 0) ∧ (p.w 1 % 32 = 0) ∧ (0 < p.w 4 % 2 ^ 17) ∧ (p.w 4 % 2 ^ 17 ≤ 8192) ∧ (p.w 0 / 2 ^ 16 % 2 = 1) ∧ (s.busMaster = true)) ∧
  (∃ (r : Ring) (s : State) (p : Packet),
  (Has s r 160 p) ∧ (p.at0 = 0) ∧ (p.w 0 / 2 ^ 12 % 2 = 0) ∧ (p.w 1 % 32 = 0) ∧ (0 < p.w 4 % 2 ^ 17) ∧ (p.w 4 % 2 ^ 17 ≤ 8192) ∧ (p.w 0 / 2 ^ 16 % 2 = 0) ∧ ((List.filter (fun x => decide ((x.seq + 2 ^ 32 - p.w 3 % 2 ^ 32) % 2 ^ 32 < p.w 4 % 2 ^ 17)) s.tlog).length = 1) ∧ (Plain s (gaOff (p.w 1)) 32) ∧ (gaNode (p.w 1) = s.node) ∧ (p.w 1 < 2 ^ 52) ∧ (memWf s.mem = true) ∧ (s.rd (MEMC_INJECT_ARM (channelOf (gaOff (p.w 1)))) = 0) ∧ (NoneWaits s (agentRing r.val))) :=
  ⟨⟨3, ringTables1s, ringTables1p, 3, by decide +kernel⟩,
   ⟨3, ringTables2s, ringTables2p, by decide +kernel⟩,
   ⟨3, ringTables3s, ringTables3p, by decide +kernel⟩,
   ⟨3, ringTables4s, ringTables4p, by decide +kernel⟩⟩

def ringDoorbells1s : State :=
  { State.reset with regs := [(CMDR_PTR 3, 21474836485#64)], host := { linkUp := true, cfg := [(4, 6)], ready := true } }
theorem witness_ringDoorbells :
  (∃ (via : Doorbell) (r : Ring) (v : BitVec 32) (s : State),
  let tail := s.rd (CMDR_PTR_TAIL r.val)
  (Quiet s (496 + r.val)) ∧ (Heard s via r 0) ∧ (v.toNat = tail)) ∧
  (∃ (via : Doorbell) (r : Ring) (v : BitVec 32) (s : State),
  let tail := s.rd (CMDR_PTR_TAIL r.val)
  (Quiet s (496 + r.val)) ∧ (Heard s via r 0) ∧ (v.toNat ≠ tail)) ∧
  (∃ (via : Doorbell) (r : Ring) (s : State),
  (Quiet s (496 + r.val)) ∧ (Heard s via r 4)) :=
  ⟨⟨.bar4, 3, 5#32, ringDoorbells1s, by unfold Heard; decide +kernel⟩,
   ⟨.bar4, 3, 8#32, registerRefusals1s, by unfold Heard; decide +kernel⟩,
   ⟨.bar4, 3, registerRefusals1s, by unfold Heard; decide +kernel⟩⟩

def ringStates2s : State :=
  { State.reset with regs := [(CMDR_CTL 3, 256#64)], host := { linkUp := true, cfg := [(4, 6)], ready := true } }
def words25 : List Nat :=
  [257, 0, 0, 0, 0, 0, 0, 0, 0, 0, 0, 0, 0, 0, 0, 0, 0, 0, 0, 0, 0, 0, 0, 0, 0, 0, 0, 0, 0, 0, 0, 0, 0, 0, 0, 0, 0, 0, 0, 0, 0,
   0, 0, 0, 0, 0, 0, 0]
def ringStates4p : Packet := { words := words25, seq := 9, fin := 9 }
def ringStates4s : State :=
  { State.reset with
      regs := [(CMDR_CTL 3, 256#64)], rings := [(3, { read := [{ words := words25, seq := 9, fin := 9 }] })]
      host := { linkUp := true, cfg := [(4, 6)], ready := true } }
theorem witness_ringStates :
  (∃ (r : Ring) (m : Master) (s : State),
  let w := fun n : Nat => whole m (BitVec.ofNat 64 n)
  let st := s.rd (CMDR_CTL_STATE r.val)
  (s.fwOrHost m = true) ∧ (Reaches s (w 0) (CMDR_CTL r.val)) ∧ (Quiet s 637) ∧ (st = 0)) ∧
  (∃ (r : Ring) (m : Master) (s : State),
  let w := fun n : Nat => whole m (BitVec.ofNat 64 n)
  let st := s.rd (CMDR_CTL_STATE r.val)
  (s.fwOrHost m = true) ∧ (Reaches s (w 0) (CMDR_CTL r.val)) ∧ (Quiet s 637) ∧ (st ≠ 0)) ∧
  (∃ (r : Ring) (m : Master) (s : State),
  let w := fun n : Nat => whole m (BitVec.ofNat 64 n)
  (s.fwOrHost m = true) ∧ (Reaches s (w 0) (CMDR_CTL r.val)) ∧ (Quiet s 637)) ∧
  (∃ (r : Ring) (m : Master) (s : State) (p : Packet),
  let w := fun n : Nat => whole m (BitVec.ofNat 64 n)
  let st := s.rd (CMDR_CTL_STATE r.val)
  (s.fwOrHost m = true) ∧ (Reaches s (w 0) (CMDR_CTL r.val)) ∧ (Quiet s 637) ∧ (st = 1 ∨ st = 2) ∧ (s.chains = []) ∧ ((s.ring r.val).running.all (fun x => x.cmd != 2) = true) ∧ (s.rd LCS_UPDATE_OPEN = 0) ∧ ((List.range 4).all (fun i => s.rd (LCS_SESSION_ACTIVE i) == 0) = true) ∧ (p ∈ (s.ring r.val).read)) :=
  ⟨⟨3, .host, registerRefusals1s, by decide +kernel⟩,
   ⟨3, .host, ringStates2s, by decide +kernel⟩,
   ⟨3, .host, registerRefusals1s, by decide +kernel⟩,
   ⟨3, .host, ringStates4s, ringStates4p, by decide +kernel⟩⟩

def ringPackets1bs : List Byte :=
  [1#8, 1#8, 0#8, 0#8, 0#8, 0#8, 0#8, 0#8, 5#8, 0#8, 0#8, 0#8, 0#8, 0#8, 0#8, 0#8, 0#8, 1#8, 2#8, 3#8, 4#8, 5#8, 6#8, 7#8, 8#8,
   9#8, 10#8, 11#8, 12#8, 13#8, 14#8, 15#8, 16#8, 17#8, 18#8, 19#8, 20#8, 21#8, 22#8, 23#8, 24#8, 25#8, 26#8, 27#8, 28#8, 29#8,
   30#8, 31#8, 32#8, 33#8, 34#8, 35#8, 36#8, 37#8, 38#8, 39#8, 40#8, 41#8, 42#8, 43#8, 44#8, 45#8, 46#8, 47#8]
def ringPackets1s : State :=
  { State.reset with
      regs := [(CMDR_CFG 3, 4294967558#64), (CMDR_CTL 3, 256#64), (CMDR_PTR 3, 8589934592#64),
               (LCS_BOOT, 9223373136366403584#64)]
      host := { linkUp := true, cfg := [(4, 6)] } }
def ringPackets2s : State :=
  { State.reset with
      regs := [(CMDR_CTL 3, 256#64), (CMDR_PTR 3, 8589934592#64), (LCS_BOOT, 9223373136366403584#64), (MEMC_STATUS 0, 2#64)] }
def words26 : List Nat :=
  [0, 0, 0, 0, 0, 0, 0, 0, 0, 0, 0, 0, 0, 0, 0, 0, 0, 0, 0, 0, 0, 0, 0, 0, 0, 0, 0, 0, 0, 0, 0, 0, 0, 0, 0, 0, 0, 0, 0, 0, 0, 0,
   0, 0, 0, 0, 0, 0]
def ringPackets4rest : List Packet := [{ words := words26, seq := 10, fin := 9 }]
def words27 : List Nat :=
  [257, 0, 5, 0, 0, 0, 0, 0, 0, 0, 0, 0, 0, 0, 0, 0, 0, 0, 0, 0, 0, 0, 0, 0, 0, 0, 0, 0, 0, 0, 0, 0, 0, 0, 0, 0, 0, 0, 0, 0, 0,
   0, 0, 0, 0, 0, 0, 0]
def ringPackets4p : Packet := { words := words27, seq := 9, fin := 9 }
def ringPackets4s : State :=
  { State.reset with
      regs := [(CMDR_CTL 3, 256#64)]
      rings := [(3, { read := [{ words := words27, seq := 9, fin := 9 }, { words := words26, seq := 10, fin := 9 }] })] }
theorem witness_ringPackets :
  (∃ (r : Ring) (s : State) (bs : List Byte),
  let one := fun b : List Byte => b.length = 64 ∧ leNat b / 2 ^ 8 % 16 ∉ [2, 3, 4, 5, 6] ∧ leNat b % 2 ^ 8 ≠ 0x11
  (s.mayRead r.val = true) ∧ (s.readTurn r.val = true) ∧ (s.rd (CMDR_CFG_SPACE r.val) = 1) ∧ (one bs)) ∧
  (∃ (r : Ring) (s : State),
  (s.mayRead r.val = true) ∧ (s.readTurn r.val = true) ∧ (s.rd (CMDR_CFG_SPACE r.val) = 0) ∧ (s.rd (CMDR_CFG_LOG2 r.val) ≤ 16) ∧ (gaNode (s.rd (CMDR_BASE_BASE r.val) + 64 * (s.rd (CMDR_PTR_HEAD r.val) % 2 ^ s.rd (CMDR_CFG_LOG2 r.val))) = s.node) ∧ (s.rd (CMDR_BASE_BASE r.val) + 64 * (s.rd (CMDR_PTR_HEAD r.val) % 2 ^ s.rd (CMDR_CFG_LOG2 r.val)) < 2 ^ 52) ∧ (Plain s (gaOff (s.rd (CMDR_BASE_BASE r.val) + 64 * (s.rd (CMDR_PTR_HEAD r.val) % 2 ^ s.rd (CMDR_CFG_LOG2 r.val)))) 64) ∧ (NoneWaits s (agentRing r.val)) ∧ ((s.peek (gaOff (s.rd (CMDR_BASE_BASE r.val) + 64 * (s.rd (CMDR_PTR_HEAD r.val) % 2 ^ s.rd (CMDR_CFG_LOG2 r.val)))) 64).length =
  64) ∧ (leNat (s.peek (gaOff (s.rd (CMDR_BASE_BASE r.val) + 64 * (s.rd (CMDR_PTR_HEAD r.val) % 2 ^ s.rd (CMDR_CFG_LOG2 r.val)))) 64) /
      2 ^ 8 %
    16 ∉
  [2, 3, 4, 5, 6]) ∧ (leNat (s.peek (gaOff (s.rd (CMDR_BASE_BASE r.val) + 64 * (s.rd (CMDR_PTR_HEAD r.val) % 2 ^ s.rd (CMDR_CFG_LOG2 r.val)))) 64) %
    2 ^ 8 ≠
  17)) ∧
  (∃ (r : Ring) (s : State),
  (s.mayRead r.val = true) ∧ (s.readTurn r.val = true) ∧ (s.rd (CMDR_CFG_SPACE r.val) = 1) ∧ (Quiet s (496 + r.val))) ∧
  (∃ (r : Ring) (s : State) (p : Packet) (rest : List Packet),
  let q := s.ring r.val
  (s.readyRings = [r.val]) ∧ (s.rd PWR_STATE_STATE = 0) ∧ (q.read = p :: rest) ∧ (p.needsI = false)) :=
  ⟨⟨3, ringPackets1s, ringPackets1bs, by decide +kernel⟩,
   ⟨3, ringPackets2s, by decide +kernel⟩,
   ⟨3, ringPackets1s, by decide +kernel⟩,
   ⟨3, ringPackets4s, ringPackets4p, ringPackets4rest, by decide +kernel⟩⟩

def ringCompletions1x : Result := { seq := 7, cmd := 48, tag := 99, status := 0, index := 5, reply0 := 3 }
def ringCompletions1s : State :=
  { State.reset with
      regs := [(CMDR_CQ_CFG 3, 16793894#64), (CMDR_CTL 3, 256#64)]
      rings := [(3, { done := [ringCompletions1x], order := [(7, 9), (8, 10)] })]
      host := { linkUp := true, cfg := [(4, 6)] } }
def ringCompletions2s : State :=
  { State.reset with
      regs := [(CMDR_CQ_CFG 3, 16793894#64), (HIF_MSIX_DATA 0, 0#64)], rings := [(3, { coalTime := some (500) })]
      host := { linkUp := true, cfg := [(4, 6), (64, 2147483648)] } }
theorem witness_ringCompletions :
  (∃ (r : Ring) (s : State) (x : Result) (fin : Nat) (rest : List (Nat × Nat)),
  let log := s.rd (CMDR_CQ_CFG_LOG2 r.val)
  (s.chains = []) ∧ (s.rd (CMDR_CTL_STATE r.val) = 1) ∧ (s.life.resetDue = none) ∧ (s.rd (CMDR_CQ_CFG_SPACE r.val) = 1) ∧ (s.busMaster = true) ∧ ((s.ring r.val).order = (x.seq, fin) :: rest) ∧ ((s.ring r.val).done.find? (fun y => y.seq == x.seq) = some x) ∧ ((s.ring r.val).hostReset = false) ∧ (log ≤ 16) ∧ (s.cqOcc r.val < 2 ^ log)) ∧
  (∃ (r : Ring) (s : State) (t0 : Nat),
  let v := s.rd (CMDR_CQ_CFG_VECTOR r.val)
  ((s.ring r.val).coalTime = some t0) ∧ (s.rd (CMDR_CQ_CFG_MSI_EN r.val) = 1) ∧ (s.msixOn = true) ∧ (s.msixMasked v = false)) :=
  ⟨⟨3, ringCompletions1s, ringCompletions1x, 9, [(8, 10)], by decide +kernel⟩,
   ⟨3, ringCompletions2s, 500, by decide +kernel⟩⟩

def mailboxes3q : List Word := [0#64, 0#64, 0#64, 0#64, 0#64, 0#64, 0#64, 0#64, 0#64, 0#64, 0#64, 0#64, 0#64, 0#64, 0#64]
def mailboxes3s : State :=
  { State.reset with
      mbx := [(49, { queue := [0#64, 0#64, 0#64, 0#64, 0#64, 0#64, 0#64, 0#64, 0#64, 0#64, 0#64, 0#64, 0#64, 0#64, 0#64, 0#64] })]
      host := { linkUp := true, cfg := [(4, 6)], ready := true } }
theorem witness_mailboxes :
  (∃ (b : Mbx) (side : Bool) (m : Master) (s : State) (v : Word),
  let d := if side then 1 else 0
  let w : RegWrite := whole m v
  (s.mbxAgent b.val d m = true) ∧ (Quiet s (560 + b.val)) ∧ (Reaches s w (MBX_DB_OUT b.val d))) ∧
  (∃ (b : Mbx) (side : Bool) (m : Master) (s : State) (v : Word),
  let d := if side then 1 else 0
  let w : RegWrite := whole m v
  (s.mbxAgent b.val d m = true) ∧ (Quiet s (560 + b.val)) ∧ (Reaches s w (MBX_SEND b.val d))) ∧
  (∃ (b : Mbx) (side : Bool) (m : Master) (s : State) (v : Word) (q : List Word),
  let d := if side then 1 else 0
  let w : RegWrite := whole m v
  (s.mbxAgent b.val d m = true) ∧ (Quiet s (560 + b.val)) ∧ (Reaches s w (MBX_RECV b.val d)) ∧ ((s.side b.val d).queue = v :: q)) ∧
  (∃ (b : Mbx) (side : Bool) (m : Master) (s : State) (v : Word),
  let d := if side then 1 else 0
  let w : RegWrite := whole m v
  (s.mbxAgent b.val d m = true) ∧ (Quiet s (560 + b.val)) ∧ (Reaches s w (MBX_RECV b.val d)) ∧ ((s.side b.val d).queue = [])) ∧
  (∃ (b : Mbx) (side : Bool) (m : Master) (s : State) (v : Word) (ready : Fin 2),
  let d := if side then 1 else 0
  let w : RegWrite := whole m v
  (s.mbxAgent b.val d m = true) ∧ (Quiet s (560 + b.val)) ∧ (Reaches s w (MBX_STAT b.val d)) ∧ (v.toNat = ready.val * 2 ^ 63)) :=
  ⟨⟨29, true, .core 25 1, State.reset, 0#64, by decide +kernel⟩,
   ⟨29, true, .core 25 1, State.reset, 0#64, by decide +kernel⟩,
   ⟨24, true, .host, mailboxes3s, 0#64, mailboxes3q, by decide +kernel⟩,
   ⟨29, true, .core 25 1, State.reset, 0#64, by decide +kernel⟩,
   ⟨29, true, .core 25 1, State.reset, 0#64, 0, by decide +kernel⟩⟩

def blockMoverControl1s : State := { State.reset with regs := [(CMDR_PTR 514, 256#64)] }
theorem witness_blockMoverControl :
  (∃ (ch : BmvCh) (m : Master) (s : State),
  (s.rd (BMV_OWN_OWNER ch.val) = 0) ∧ (s.fw0 m = true) ∧ (Reaches s (whole m 1) (BMV_CMD ch.val)) ∧ (s.rd (BMV_CMD_STATE ch.val) = 0) ∧ (BitVec.toNat (s.reg (BMV_SH_XFER ch.val)) / 2 ^ 56 % 2 ^ 5 = 0) ∧ (BitVec.toNat (s.reg (BMV_SH_XFER ch.val)) / 2 ^ 48 % 2 ^ 4 = 0) ∧ (Quiet s 636)) ∧
  (∃ (ch : BmvCh) (m : Master) (s : State),
  let c := ch.val
  let arm := whole m 1
  let mine := s.rd (BMV_OWN_OWNER c) = 0 ∧ s.fw0 m = true ∧ Reaches s arm (BMV_CMD c)
  (mine) ∧ (s.rd (BMV_CMD_STATE c) = 1)) ∧
  (∃ (ch : BmvCh) (m : Master) (s : State),
  let c := ch.val
  let arm := whole m 1
  let mine := s.rd (BMV_OWN_OWNER c) = 0 ∧ s.fw0 m = true ∧ Reaches s arm (BMV_CMD c)
  let rest := (s.bmvCh c).bursts = [] ∧ (s.bmvCh c).fail = none ∧ s.rd (BMV_CMD_STATE c) = 1
  (mine) ∧ (rest) ∧ (s.rd (BMV_ACT_XFER_IRQ c) = 0)) ∧
  (∃ (ch : BmvCh) (s : State),
  let c := ch.val
  let rest := (s.bmvCh c).bursts = [] ∧ (s.bmvCh c).fail = none ∧ s.rd (BMV_CMD_STATE c) = 1
  (rest) ∧ ((s.bmvCh c).aborting = false) ∧ (s.rd (BMV_ACT_XFER_LEN c) ≤ (s.bmvCh c).nextOff) ∧ (s.rd (BMV_CMD_ARMED c) = 0) ∧ (s.rd (BMV_OWN_OWNER c) = 0) ∧ (s.supFenced 0 = false)) ∧
  (∃ (p : Pool) (m : Master) (s : State) (count : Nat),
  let arm := whole m 1
  (s.fw0 m = true) ∧ (Reaches s arm (BMV_POOL_CFG p.val)) ∧ (s.rd (BMV_POOL_CFG_ENABLE p.val) = 0) ∧ (1 ≤ count) ∧ (count ≤ 2 ^ 18)) :=
  ⟨⟨4, .core 24 2, State.reset, by decide +kernel⟩,
   ⟨4, .core 24 2, blockMoverControl1s, by decide +kernel⟩,
   ⟨4, .core 24 2, blockMoverControl1s, by decide +kernel⟩,
   ⟨4, blockMoverControl1s, by decide +kernel⟩,
   ⟨9, .core 24 2, State.reset, 1, by decide +kernel⟩⟩

def blockMoverBursts1s : State := { State.reset with regs := [(CMDR_CTL 514, 27021597764223432#64), (CMDR_PTR 514, 256#64)] }
def blockMoverBursts2s : State :=
  { State.reset with regs := [(MEMC_STATUS 0, 2#64)], bmv := [(4, { bursts := [{ base := 64, len := 64 }] })] }
theorem witness_blockMoverBursts :
  (∃ (ch : BmvCh) (s : State),
  let c := ch.val
  ((List.range 32).filter s.bmvWaits = [c]) ∧ (s.bmvFlight < 64) ∧ (s.rd (BMV_ACT_XFER_SRC_HOST c) = 0)) ∧
  (∃ (ch : BmvCh) (s : State) (base : ℕ) (waited : ℕ),
  ((s.bmvCh ch.val).bursts = [{ base := base, len := 64 }]) ∧ ((s.bmvCh ch.val).fail = none) ∧ ((s.bmvCh ch.val).waited = waited) ∧ (s.rd (BMV_OWN_OWNER ch.val) ≠ 2) ∧ (s.rd (BMV_ACT_XFER_MODE ch.val) = 0) ∧ (s.rd (BMV_ACT_XFER_SRC_HOST ch.val) = 0) ∧ (s.rd (BMV_ACT_XFER_DST_HOST ch.val) = 0) ∧ (s.rd (BMV_ACT_SRC_ADDR ch.val) + base < 2 ^ 52) ∧ (s.rd (BMV_ACT_DST_ADDR ch.val) + base < 2 ^ 52) ∧ (gaNode (s.rd (BMV_ACT_SRC_ADDR ch.val) + base) = s.node) ∧ (gaNode (s.rd (BMV_ACT_DST_ADDR ch.val) + base) = s.node) ∧ (Plain s (gaOff (s.rd (BMV_ACT_SRC_ADDR ch.val) + base)) 64) ∧ (Plain s (gaOff (s.rd (BMV_ACT_DST_ADDR ch.val) + base)) 64) ∧ (memWf s.mem = true) ∧ (NoneWaits s (agentBmv ch.val)) ∧ (NoneWaits s (agentBmv ch.val + 100)) ∧ (base + 64 < 2 ^ 48) ∧ (s.rd (MEMC_INJECT_ARM (channelOf (gaOff (s.rd (BMV_ACT_DST_ADDR ch.val) + base)))) = 0)) :=
  ⟨⟨4, blockMoverBursts1s, by decide +kernel⟩,
   ⟨4, blockMoverBursts2s, 64, 0, by decide +kernel⟩⟩

def words28 : List Nat :=
  [65968, 4660, 5, 64, 0, 0, 0, 0, 0, 0, 0, 0, 0, 0, 0, 0, 0, 0, 0, 0, 0, 0, 0, 0, 0, 0, 0, 0, 0, 0, 0, 0, 0, 0, 0, 0, 0, 0, 0,
   0, 0, 0, 0, 0, 0, 0, 0, 0]
def sessions1p : Packet := { words := words28, seq := 7, fin := 9 }
def sessions1s : State :=
  { State.reset with
      rings := [(3, { running := [{ words := words28, seq := 7, fin := 9 }] })], host := { linkUp := true, cfg := [(4, 6)] } }
def sessions2sig : List Byte :=
  [0#8, 1#8, 2#8, 3#8, 4#8, 5#8, 6#8, 7#8, 8#8, 9#8, 10#8, 11#8, 12#8, 13#8, 14#8, 15#8, 16#8, 17#8, 18#8, 19#8, 20#8, 21#8,
   22#8, 23#8, 24#8, 25#8, 26#8, 27#8, 28#8, 29#8, 30#8, 31#8, 32#8, 33#8, 34#8, 35#8, 36#8, 37#8, 38#8, 39#8, 40#8, 41#8, 42#8,
   43#8, 44#8, 45#8, 46#8, 47#8, 48#8, 49#8, 50#8, 51#8, 52#8, 53#8, 54#8, 55#8, 56#8, 57#8, 58#8, 59#8, 60#8, 61#8, 62#8, 63#8,
   64#8, 65#8, 66#8, 67#8, 68#8, 69#8, 70#8, 71#8, 72#8, 73#8, 74#8, 75#8, 76#8, 77#8, 78#8, 79#8, 80#8, 81#8, 82#8, 83#8, 84#8,
   85#8, 86#8, 87#8, 88#8, 89#8, 90#8, 91#8, 92#8, 93#8, 94#8, 95#8]
def words29 : List Nat :=
  [82352, 4660, 5, 96, 0, 0, 0, 0, 0, 0, 0, 0, 0, 0, 0, 0, 0, 0, 0, 0, 0, 0, 0, 0, 0, 0, 0, 0, 0, 0, 0, 0, 0, 0, 0, 0, 0, 0, 0,
   0, 0, 0, 0, 0, 0, 0, 0, 0]
def sessions2p : Packet := { words := words29, seq := 7, fin := 9 }
def sessions2s : State :=
  { State.reset with
      rings := [(3, { running := [{ words := words29, seq := 7, fin := 9 }] })], host := { linkUp := true, cfg := [(4, 6)] }
      life := { challenges := [(3, (0, (9, (0, 77))))] } }
def words30 : List Nat :=
  [98736, 0, 5, 0, 0, 0, 0, 0, 0, 0, 0, 0, 0, 0, 0, 0, 0, 0, 0, 0, 0, 0, 0, 0, 0, 0, 0, 0, 0, 0, 0, 0, 0, 0, 0, 0, 0, 0, 0, 0, 0,
   0, 0, 0, 0, 0, 0, 0]
def sessions3p : Packet := { words := words30, seq := 7, fin := 9 }
def sessions3s : State :=
  { State.reset with
      regs := [(LCS_SESSION 0, 9277415232383221859#64)]
      rings := [(3, { running := [{ words := words30, seq := 7, fin := 9 }] })] }
def sessions4s : State := { State.reset with regs := [(LCS_SESSION 0, 9277415232383221859#64)] }
def sessions5s : State := { State.reset with life := { challenges := [(3, (0, (9, (0, 77))))] } }
def sessions6s : State := { State.reset with life := { locked := [(3, 60000)] } }
theorem witness_sessions :
  (∃ (r : Ring) (s : State) (p : Packet) (role : Nat),
  let host := p.w 0 / 2 ^ 16 % 2 = 1 ∧ s.busMaster = true
  let step := p.w 0 / 2 ^ 14 % 4
  let path := r.val
  let none' := s.started r.val 0xb0 = some p ∧ p.held = false ∧ role ≤ 2 ∧ p.w 0 / 2 ^ 12 % 4 = role ∧ (role < 2 → s.life.keysErased = false)
      ∧ (role = 2 → s.rd LCS_STATE_STATE = 0 ∨ s.rd LCS_STATE_STATE = 3)
      ∧ NoSessions s ∧ tabFind s.life.locked path = none
  (none') ∧ (host) ∧ (step = 0) ∧ (p.w 3 % 2 ^ 16 = 64)) ∧
  (∃ (r : Ring) (s : State) (p : Packet) (role : Nat) (sid : Nat) (at0 : Nat) (block : Nat) (sig : List Byte),
  let host := p.w 0 / 2 ^ 16 % 2 = 1 ∧ s.busMaster = true
  let step := p.w 0 / 2 ^ 14 % 4
  let path := r.val
  let none' := s.started r.val 0xb0 = some p ∧ p.held = false ∧ role ≤ 2 ∧ p.w 0 / 2 ^ 12 % 4 = role ∧ (role < 2 → s.life.keysErased = false)
      ∧ (role = 2 → s.rd LCS_STATE_STATE = 0 ∨ s.rd LCS_STATE_STATE = 3)
      ∧ NoSessions s ∧ tabFind s.life.locked path = none
  (none') ∧ (host) ∧ (step = 1) ∧ (p.w 3 % 2 ^ 16 = 96) ∧ (tabFind s.life.challenges path = some (role, sid, at0, block)) ∧ (s.now < at0 + 10000000000) ∧ (sig.length = 96) ∧ (sid < 2 ^ 32)) ∧
  (∃ (r : Ring) (s : State) (p : Packet) (i : Fin 4) (role : Nat),
  let step := p.w 0 / 2 ^ 14 % 4
  let path := r.val
  (s.started r.val 0xb0 = some p) ∧ (p.held = false) ∧ (step = 2) ∧ (p.w 0 / 2 ^ 12 % 4 = role) ∧ (role ≤ 2) ∧ (Holds s i path role) ∧ (s.rd LCS_UPDATE_OPEN = 0)) ∧
  (∃ (r : Ring) (s : State) (i : Fin 4) (role : Nat),
  let path := r.val
  (Holds s i path role) ∧ (role ≤ 2) ∧ (s.rd LCS_UPDATE_OPEN = 0)) ∧
  (∃ (r : Ring) (s : State) (role : Nat) (sid : Nat) (at0 : Nat) (block : Nat),
  let path := r.val
  (s.life.challenges = [(path, role, sid, at0, block)])) ∧
  (∃ (r : Ring) (s : State) (at0 : Nat),
  let path := r.val
  (s.life.locked = [(path, at0)])) :=
  ⟨⟨3, sessions1s, sessions1p, 0, by decide +kernel⟩,
   ⟨3, sessions2s, sessions2p, 0, 9, 0, 77, sessions2sig, by decide +kernel⟩,
   ⟨3, sessions3s, sessions3p, 0, 0, by decide +kernel⟩,
   ⟨3, sessions4s, 0, 0, by decide +kernel⟩,
   ⟨3, sessions5s, 0, 9, 0, 77, by decide +kernel⟩,
   ⟨3, sessions6s, 60000, by decide +kernel⟩⟩

def words31 : List Nat :=
  [4529, 0, 5, 0, 0, 0, 0, 0, 0, 0, 0, 0, 0, 0, 0, 0, 0, 0, 0, 0, 0, 0, 0, 0, 0, 0, 0, 0, 0, 0, 0, 0, 0, 0, 0, 0, 0, 0, 0, 0, 0,
   0, 0, 0, 0, 0, 0, 0]
def lifeCycle1p : Packet := { words := words31, seq := 7, fin := 9 }
def lifeCycle1s : State :=
  { State.reset with
      regs := [(CMDR_CFG 3, 4295032838#64), (LCS_STATE, 21474836482#64)]
      rings := [(3, { running := [{ words := words31, seq := 7, fin := 9 }] })] }
def words32 : List Nat :=
  [433, 0, 5, 0, 0, 0, 0, 0, 0, 0, 0, 0, 0, 0, 0, 0, 0, 0, 0, 0, 0, 0, 0, 0, 0, 0, 0, 0, 0, 0, 0, 0, 0, 0, 0, 0, 0, 0, 0, 0, 0,
   0, 0, 0, 0, 0, 0, 0]
def lifeCycle2p : Packet := { words := words32, seq := 7, fin := 9 }
def lifeCycle2s : State :=
  { State.reset with
      regs := [(LCS_STATE, 21474836480#64)], rings := [(3, { running := [{ words := words32, seq := 7, fin := 9 }] })] }
theorem witness_lifeCycle :
  (∃ (r : Ring) (s : State) (p : Packet) (i : Fin 4) (new : Fin 8),
  (Has s r 0xb1 p) ∧ (p.w 0 / 2 ^ 12 % 8 = new.val) ∧ ((List.range 64).all (fun q => q == r.val || (s.ring q).running.isEmpty) = true) ∧ (s.rd LCS_UPDATE_OPEN = 0) ∧ (0 < s.rd LCS_STATE_LEFT) ∧ (((s.rd LCS_STATE_STATE, new.val) ∈ [(1, 2), (2, 1), (1, 3)] ∧ s.rd (CMDR_CFG_OWNER r.val) = 1 ∧ NoSessions s) ∨ ((s.rd LCS_STATE_STATE, new.val) ∈ [(1, 2), (2, 1), (1, 3), (0, 1), (3, 1), (3, 4)] ∧ Holds s i r.val 2))) ∧
  (∃ (r : Ring) (s : State) (p : Packet) (new : Fin 8),
  (Has s r 0xb1 p) ∧ (p.w 0 / 2 ^ 12 % 8 = new.val) ∧ ((List.range 64).all (fun q => q == r.val || (s.ring q).running.isEmpty) = true) ∧ (s.rd LCS_UPDATE_OPEN = 0) ∧ (0 < s.rd LCS_STATE_LEFT) ∧ ((s.rd LCS_STATE_STATE, new.val) ∉ [(1, 2), (2, 1), (1, 3), (0, 1), (3, 1), (3, 4)])) :=
  ⟨⟨3, lifeCycle1s, lifeCycle1p, 1, 1, by decide +kernel⟩,
   ⟨3, lifeCycle2s, lifeCycle2p, 0, by decide +kernel⟩⟩

def words33 : List Nat :=
  [448, 0, 5, 4096, 0, 0, 0, 0, 0, 0, 0, 0, 0, 0, 0, 0, 0, 0, 0, 0, 0, 0, 0, 0, 0, 0, 0, 0, 0, 0, 0, 0, 0, 0, 0, 0, 0, 0, 0, 0,
   0, 0, 0, 0, 0, 0, 0, 0]
def firmwareUpdate1p : Packet := { words := words33, seq := 7, fin := 9 }
def firmwareUpdate1s : State :=
  { State.reset with
      regs := [(CMDR_CFG 3, 4295032838#64)], rings := [(3, { running := [{ words := words33, seq := 7, fin := 9 }] })] }
def words34 : List Nat :=
  [65985, 30583, 5, 4096, 0, 0, 0, 0, 0, 0, 0, 0, 0, 0, 0, 0, 0, 0, 0, 0, 0, 0, 0, 0, 0, 0, 0, 0, 0, 0, 0, 0, 0, 0, 0, 0, 0, 0,
   0, 0, 0, 0, 0, 0, 0, 0, 0, 0]
def firmwareUpdate2p : Packet := { words := words34, seq := 7, fin := 9 }
def firmwareUpdate2s : State :=
  { State.reset with
      regs := [(CMDR_CFG 3, 4295032838#64), (LCS_FW, 0#64), (LCS_UPDATE, 425510999949312#64)]
      rings := [(3, { running := [{ words := words34, seq := 7, fin := 9 }] })]
      life := { flashOpen := some ((201326592, 65536)) } }
def firmwareUpdate3p : Packet := { words := words34, seq := 7, fin := 9, at0 := 4096, at1 := 1, held := true }
def firmwareUpdate3s : State :=
  { State.reset with
      regs := [(CMDR_CFG 3, 4295032838#64), (LCS_UPDATE, 425510999949568#64)], rings := [(3, { running := [firmwareUpdate3p] })] }
def words35 : List Nat :=
  [450, 0, 5, 0, 0, 0, 0, 0, 0, 0, 0, 0, 0, 0, 0, 0, 0, 0, 0, 0, 0, 0, 0, 0, 0, 0, 0, 0, 0, 0, 0, 0, 0, 0, 0, 0, 0, 0, 0, 0, 0,
   0, 0, 0, 0, 0, 0, 0]
def firmwareUpdate4p : Packet := { words := words35, seq := 7, fin := 9 }
def firmwareUpdate4s : State :=
  { State.reset with
      regs := [(CMDR_CFG 3, 4295032838#64), (LCS_UPDATE, 706985976660224#64)]
      rings := [(3, { running := [{ words := words35, seq := 7, fin := 9 }] })] }
def words36 : List Nat :=
  [451, 0, 5, 0, 0, 0, 0, 0, 0, 0, 0, 0, 0, 0, 0, 0, 0, 0, 0, 0, 0, 0, 0, 0, 0, 0, 0, 0, 0, 0, 0, 0, 0, 0, 0, 0, 0, 0, 0, 0, 0,
   0, 0, 0, 0, 0, 0, 0]
def firmwareUpdate5p : Packet := { words := words36, seq := 7, fin := 9 }
def firmwareUpdate5s : State :=
  { State.reset with
      regs := [(CMDR_CFG 3, 4295032838#64), (LCS_UPDATE, 988460953370880#64)]
      rings := [(3, { running := [{ words := words36, seq := 7, fin := 9 }] })] }
def firmwareUpdate6s : State :=
  { State.reset with
      regs := [(CMDR_CFG 3, 4295032838#64), (LCS_UPDATE, 425510999949568#64)]
      rings := [(3, { running := [{ words := words36, seq := 7, fin := 9 }] })] }
def firmwareUpdate7s : State :=
  { State.reset with regs := [(CMDR_CFG 3, 4295032838#64), (LCS_BOOT, 9223373136366403584#64), (LCS_FW, 50659360#64)] }
set_option maxRecDepth 100000 in
theorem witness_firmwareUpdate :
  (∃ (r : Ring) (s : State) (p : Packet),
  let n := p.w 3 % 2 ^ 32
  (s.rd (CMDR_CFG_OWNER r.val) = 1) ∧ (NoSessions s) ∧ (Has s r 0xc0 p) ∧ (s.rd LCS_UPDATE_OPEN = 0) ∧ (n ≤ 0x0c000000)) ∧
  (∃ (r : Ring) (s : State) (p : Packet) (c : Nat) (o : Nat),
  let n := p.w 3 % 2 ^ 32
  let bank := 1 - s.rd LCS_FW_RUN_BANK
  let base := if bank = 0 then 0 else 0x0c000000
  let mine := s.rd LCS_UPDATE_OPEN = 1 ∧ s.rd LCS_UPDATE_RING = r.val ∧ s.life.updSession = 0
  (s.rd (CMDR_CFG_OWNER r.val) = 1) ∧ (NoSessions s) ∧ (Has s r 0xc1 p) ∧ (mine) ∧ (s.rd LCS_UPDATE_STAGE = 1 ∨ s.rd LCS_UPDATE_STAGE = 2) ∧ (s.life.flashOpen = some (base, c)) ∧ (0 < n) ∧ (n + s.rd LCS_UPDATE_WRITTEN ≤ c) ∧ (p.w 0 / 2 ^ 16 % 2 = 1) ∧ (p.w 1 < 2 ^ 64) ∧ (c ≤ 0x0c000000) ∧ ((List.range 32).find? (fun k => s.rd (BMV_OWN_OWNER k) == 2 && s.rd (BMV_CMD_STATE k) == 0) = some o) ∧ (s.begun r.val 0xc1 = none)) ∧
  (∃ (r : Ring) (s : State) (p : Packet),
  (s.rd (CMDR_CFG_OWNER r.val) = 1) ∧ (NoSessions s) ∧ (s.begun r.val 0xc1 = some p) ∧ (p.at1 = 1) ∧ (s.rd LCS_UPDATE_OPEN = 1) ∧ (s.rd LCS_UPDATE_WRITTEN + p.at0 < 2 ^ 32)) ∧
  (∃ (r : Ring) (s : State) (p : Packet),
  let mine := s.rd LCS_UPDATE_OPEN = 1 ∧ s.rd LCS_UPDATE_RING = r.val ∧ s.life.updSession = 0
  (s.rd (CMDR_CFG_OWNER r.val) = 1) ∧ (NoSessions s) ∧ (Has s r 0xc2 p) ∧ (mine) ∧ (s.rd LCS_UPDATE_STAGE = 2)) ∧
  (∃ (r : Ring) (s : State) (p : Packet),
  let mine := s.rd LCS_UPDATE_OPEN = 1 ∧ s.rd LCS_UPDATE_RING = r.val ∧ s.life.updSession = 0
  (s.rd (CMDR_CFG_OWNER r.val) = 1) ∧ (NoSessions s) ∧ (Has s r 0xc3 p) ∧ (mine) ∧ (s.rd LCS_UPDATE_STAGE = 3)) ∧
  (∃ (r : Ring) (s : State) (p : Packet),
  let mine := s.rd LCS_UPDATE_OPEN = 1 ∧ s.rd LCS_UPDATE_RING = r.val ∧ s.life.updSession = 0
  (s.rd (CMDR_CFG_OWNER r.val) = 1) ∧ (NoSessions s) ∧ (Has s r 0xc3 p) ∧ (mine) ∧ (s.rd LCS_UPDATE_STAGE ≠ 3)) ∧
  (∃ (r : Ring) (s : State) (m : Master),
  (s.rd (CMDR_CFG_OWNER r.val) = 1) ∧ (NoSessions s) ∧ (s.fw0 m = true) ∧ (Reaches s (whole m 0) LCS_FW) ∧ (s.rd LCS_FW_TRIAL = 1) ∧ (s.rd LCS_BOOT_READY = 1)) :=
  ⟨⟨3, firmwareUpdate1s, firmwareUpdate1p, by decide +kernel⟩,
   ⟨3, firmwareUpdate2s, firmwareUpdate2p, 65536, 0, by decide +kernel⟩,
   ⟨3, firmwareUpdate3s, firmwareUpdate3p, by decide +kernel⟩,
   ⟨3, firmwareUpdate4s, firmwareUpdate4p, by decide +kernel⟩,
   ⟨3, firmwareUpdate5s, firmwareUpdate5p, by decide +kernel⟩,
   ⟨3, firmwareUpdate6s, firmwareUpdate5p, by decide +kernel⟩,
   ⟨3, firmwareUpdate7s, .core 24 2, by decide +kernel⟩⟩

def words37 : List Nat :=
  [464, 9, 5, 0, 0, 0, 0, 0, 0, 0, 0, 0, 0, 0, 0, 0, 0, 0, 0, 0, 0, 0, 0, 0, 0, 0, 0, 0, 0, 0, 0, 0, 0, 0, 0, 0, 0, 0, 0, 0, 0,
   0, 0, 0, 0, 0, 0, 0]
def unitResets1p : Packet := { words := words37, seq := 7, fin := 9 }
def unitResets1s : State :=
  { State.reset with regs := [(PWR_DOMAIN_LO, 4#64)], rings := [(3, { running := [{ words := words37, seq := 7, fin := 9 }] })] }
def unitResets2s : State :=
  { State.reset with
      regs := [(BMV_ACT_DST 512, 512#64)], rings := [(3, { running := [{ words := words37, seq := 7, fin := 9 }] })] }
def unitResets3u : UnitReset := { ring := 3, seq := 7, kind := 0, inst := 9, forced := false, began := 0 }
def unitResets3s : State := { State.reset with unitResets := [unitResets3u] }
def unitResets4s : State :=
  { State.reset with
      chains := [{ id := 4, issuer := .ring 3 1, desc := [], start0 := 0, start := 0
                   slices := [{ lsl := 0, svu := 9, first := 0, fin := 10, next := 5, base := 0 }] }]
      unitResets := [unitResets3u] }
def unitResets5u : UnitReset := { ring := 3, seq := 7, kind := 0, inst := 9, forced := false, began := 0, drained := true }
def unitResets5s : State :=
  { State.reset with rings := [(3, { running := [{ words := words37, seq := 7, fin := 9 }] })], unitResets := [unitResets5u] }
def unitResets6s : State := { State.reset with ports := [(2, { draining := some (500) })] }
def unitResets7x : FltRec :=
  { time := 5, epoch := 1, source := 9, cls := 2, promoted := false, escalated := false, data := true, fence := false
    seq := 17, inst := 0, status := 0, merged := 0, aux := 0, addr := 5 }
def unitResets7p : Packet := { words := (List.replicate 48 0).set 0 0xe0 |>.set 1 9 |>.set 3 17, seq := 7, fin := 9 }
def unitResets7s : State :=
  ({ State.reset with rings := [(3, { running := [unitResets7p] })], srcTimer := [(9, 1000, unitResets7x)] } : State).wr (FLT_SRC_PENDING 9) 2
def unitResets8s : State := unitResets7s.wr (FLT_SRC_PENDING 9) 1
theorem witness_unitResets :
  (∃ (r : Ring) (s : State) (p : Packet) (i : Svu),
  let busy := s.chains = [] ∧ (s.svu i.val).queue = []
  (Has s r 0xd0 p) ∧ (p.w 0 / 2 ^ 12 % 16 = 0) ∧ (p.w 1 % 2 ^ 8 = i.val) ∧ (busy) ∧ (s.svuFenced i.val = false) ∧ (s.domainOn (i.val / 4) = true) ∧ (s.unitResets = [])) ∧
  (∃ (r : Ring) (s : State) (p : Packet) (i : Svu),
  (Has s r 0xd0 p) ∧ (p.w 0 / 2 ^ 12 % 8 = 0) ∧ (p.w 1 % 2 ^ 8 = i.val) ∧ (s.svuFenced i.val = true)) ∧
  (∃ (s : State) (i : Svu) (u : UnitReset),
  let busy := s.chains = [] ∧ (s.svu i.val).queue = []
  (busy) ∧ (s.unitResets = [u]) ∧ (u.kind = 0) ∧ (u.inst = i.val) ∧ (u.drained = false)) ∧
  (∃ (s : State) (i : Svu) (u : UnitReset),
  (s.unitResets = [u]) ∧ (u.kind = 0) ∧ (u.inst = i.val) ∧ (u.drained = false) ∧ (s.unitDrained u = false) ∧ ((s.svu i.val).queue = []) ∧ (Alive s 633)) ∧
  (∃ (r : Ring) (s : State) (p : Packet) (i : Svu) (u : UnitReset),
  (s.unitResets = [u]) ∧ (u.kind = 0) ∧ (u.inst = i.val) ∧ (u.drained = true) ∧ (u.ring = r.val) ∧ (u.seq = p.seq) ∧ ((s.ring r.val).running.find? (fun q => q.seq == p.seq) = some p)) ∧
  (∃ (s : State) (port : Port) (t0 : Nat),
  ((s.port port.val).draining = some t0) ∧ (Alive s (348 + port.val)) ∧ (s.portFenced port.val = false)) ∧
  (∃ (r : Ring) (s : State) (p : Packet) (x : FltRec) (t0 : ℕ) (src : ℕ),
  (Has s r 224 p) ∧ (p.w 1 % 2 ^ 10 = src) ∧ (src < 640) ∧ (tabFind s.srcTimer src = some (t0, x)) ∧ (x.seq ≤ p.w 3 % 2 ^ 32) ∧ (p.w 3 % 2 ^ 32 < x.seq + 2 ^ 31) ∧ (s.rd (FLT_SRC_PENDING src) = if s.rd (CMDR_CFG_OWNER r.val) = 1 then 1 else 2)) ∧
  (∃ (r : Ring) (s : State) (p : Packet) (x : FltRec) (t0 : ℕ) (src : ℕ),
  (Has s r 224 p) ∧ (p.w 1 % 2 ^ 10 = src) ∧ (src < 640) ∧ (tabFind s.srcTimer src = some (t0, x)) ∧ (x.seq ≤ p.w 3 % 2 ^ 32) ∧ (p.w 3 % 2 ^ 32 < x.seq + 2 ^ 31) ∧ (s.rd (FLT_SRC_PENDING src) = if s.rd (CMDR_CFG_OWNER r.val) = 1 then 2 else 1)) :=
  ⟨⟨3, unitResets1s, unitResets1p, 9, by decide +kernel⟩,
   ⟨3, unitResets2s, unitResets1p, 9, by decide +kernel⟩,
   ⟨unitResets3s, 9, unitResets3u, by decide +kernel⟩,
   ⟨unitResets4s, 9, unitResets3u, by decide +kernel⟩,
   ⟨3, unitResets5s, unitResets1p, 9, unitResets5u, by decide +kernel⟩,
   ⟨unitResets6s, 2, 500, by decide +kernel⟩,
   ⟨3, unitResets7s, unitResets7p, unitResets7x, 1000, 9, by decide +kernel⟩,
   ⟨3, unitResets8s, unitResets7p, unitResets7x, 1000, 9, by decide +kernel⟩⟩

def words38 : List Nat :=
  [1407379178524688, 100, 85, 0, 38653659393, 32768, 34425800969, 40960, 0, 0, 0, 0, 0, 0, 0, 0, 0, 0, 0, 0, 0, 0, 0, 0, 0, 0, 0,
   0, 133728089211648, 0, 0, 0, 0, 0, 0, 0, 0, 0, 0, 0, 0, 0, 0, 0, 0, 0, 0, 0]
def chainIssue1x : StopState :=
  { seq := 44, desc := words38, start0 := 0, index := 40, flags := 3, accs := [], scans := [], cause := { status := 32 } }
def words39 : List Nat :=
  [1407379178524688, 100, 85, 101, 38653660161, 32768, 34425801737, 40960, 0, 0, 0, 0, 0, 0, 0, 0, 0, 0, 0, 0, 0, 0, 0, 0, 0, 0,
   0, 0, 137232782525184, 0, 0, 0, 0, 0, 0, 0, 0, 0, 0, 0, 0, 0, 0, 0, 0, 0, 0, 0]
def chainIssue1p : Packet := { words := words39, seq := 7, fin := 9 }
def chainIssue1d : List Nat := words39
def chainIssue1s : State := { State.reset with rings := [(3, { running := [{ words := words39, seq := 7, fin := 9 }] })] }
def words40 : List Nat :=
  [1407379178524688, 100, 85, 100, 38653660161, 32768, 34425801737, 40960, 0, 0, 0, 0, 0, 0, 0, 0, 0, 0, 0, 0, 0, 0, 0, 0, 0, 0,
   0, 0, 137232782525184, 0, 0, 0, 0, 0, 0, 0, 0, 0, 0, 0, 0, 0, 0, 0, 0, 0, 0, 0]
def chainIssue2p : Packet := { words := words40, seq := 7, fin := 9 }
def chainIssue2d : List Nat := words40
def chainIssue2s : State :=
  { State.reset with
      regs := [(XLAT_CTX_CFG 5, 129#64)], rings := [(3, { running := [{ words := words40, seq := 7, fin := 9 }] })] }
def words41 : List Nat :=
  [1407379178524688, 100, 85, 0, 38653660161, 32768, 34425801737, 40960, 0, 0, 0, 0, 0, 0, 0, 0, 0, 0, 0, 0, 0, 0, 0, 0, 0, 0, 0,
   0, 137232782525184, 0, 0, 0, 0, 0, 0, 0, 0, 0, 0, 0, 0, 0, 0, 0, 0, 0, 0, 0]
def chainIssue3p : Packet := { words := words41, seq := 7, fin := 9 }
def chainIssue3d : List Nat := words41
def chainIssue3s : State :=
  { State.reset with
      regs := [(XLAT_CTX_CFG 5, 129#64)], rings := [(3, { running := [{ words := words41, seq := 7, fin := 9 }] })] }
def words42 : List Nat :=
  [17, 449, 0, 0, 0, 0, 0, 0, 0, 0, 0, 0, 0, 0, 0, 0, 0, 0, 0, 0, 0, 0, 0, 0, 0, 0, 0, 0, 0, 0, 0, 0, 0, 0, 0, 0, 0, 0, 0, 0, 0,
   0, 0, 0, 0, 0, 0, 0]
def chainIssue4p : Packet := { words := words42, seq := 7, fin := 9, ref := words41 }
def chainIssue4s : State := { State.reset with rings := [(3, { running := [chainIssue4p] })] }
def words43 : List Nat :=
  [18, 45, 0, 0, 0, 0, 0, 0, 0, 0, 0, 0, 0, 0, 0, 0, 0, 0, 0, 0, 0, 0, 0, 0, 0, 0, 0, 0, 0, 0, 0, 0, 0, 0, 0, 0, 0, 0, 0, 0, 0,
   0, 0, 0, 0, 0, 0, 0]
def chainIssue5p : Packet := { words := words43, seq := 7, fin := 9 }
def chainIssue5s : State := { State.reset with rings := [(3, { running := [{ words := words43, seq := 7, fin := 9 }] })] }
def chainIssue6x : StopState :=
  { seq := 44, desc := words41, start0 := 0, index := 40, flags := 3, accs := [], scans := [], cause := { status := 32 } }
def words44 : List Nat :=
  [4114, 44, 0, 0, 0, 0, 0, 0, 0, 0, 0, 0, 0, 0, 0, 0, 0, 0, 0, 0, 0, 0, 0, 0, 0, 0, 0, 0, 0, 0, 0, 0, 0, 0, 0, 0, 0, 0, 0, 0, 0,
   0, 0, 0, 0, 0, 0, 0]
def chainIssue6p : Packet := { words := words44, seq := 7, fin := 9 }
def chainIssue6s : State :=
  { State.reset with rings := [(3, { running := [{ words := words44, seq := 7, fin := 9 }], stops := [chainIssue6x] })] }
def chainIssue7s : State :=
  { State.reset with
      regs := [(PWR_CAP, 10#64), (XLAT_CTX_CFG 5, 129#64), (CMDR_CFG 128, 185207048#64), (CMDR_PART_MAP 0 12, 4#64), (PWR_DOMAIN_LO, 67108868#64)]
      rings := [(3, { running := [{ words := words41, seq := 7, fin := 9 }] })] }
theorem witness_chainIssue :
  (∃ (r : Ring) (s : State) (p : Packet) (st : Nat) (i : Instr) (d : List Nat) (old : Option StopState) (x : StopState),
  let k := p.w 1 % 2 ^ 32
  let stop := (s.ring r.val).stops.find? (fun y => y.seq == k)
  let d0 := x.desc.set 3 (x.desc.getD 3 0 / 2 ^ 48 * 2 ^ 48 + x.index % 2 ^ 48)
  ((i = .chain r ∧ Has s r 0x10 p ∧ d = p.words ∧ old = none) ∨ (i = .chainRef r ∧ Has s r 0x11 p ∧ p.w 1 % 64 = 0 ∧ d = p.ref ∧ old = none) ∨ (i = .chainResume r ∧ Has s r 0x12 p ∧ stop = some x ∧ p.w 0 / 2 ^ 12 % 2 = 0 ∧ old = some x ∧ d = (if p.w 0 / 2 ^ 13 % 2 = 1 then d0.set 0 (mergeBits (d0.getD 0 0) (p.w 0) 0x1f00000) else d0))) ∧ (checked s r d = some st)) ∧
  (∃ (r : Ring) (s : State) (p : Packet) (i : Instr) (d : List Nat) (old : Option StopState) (x : StopState),
  let k := p.w 1 % 2 ^ 32
  let stop := (s.ring r.val).stops.find? (fun y => y.seq == k)
  let d0 := x.desc.set 3 (x.desc.getD 3 0 / 2 ^ 48 * 2 ^ 48 + x.index % 2 ^ 48)
  ((i = .chain r ∧ Has s r 0x10 p ∧ d = p.words ∧ old = none) ∨ (i = .chainRef r ∧ Has s r 0x11 p ∧ p.w 1 % 64 = 0 ∧ d = p.ref ∧ old = none) ∨ (i = .chainResume r ∧ Has s r 0x12 p ∧ stop = some x ∧ p.w 0 / 2 ^ 12 % 2 = 0 ∧ old = some x ∧ d = (if p.w 0 / 2 ^ 13 % 2 = 1 then d0.set 0 (mergeBits (d0.getD 0 0) (p.w 0) 0x1f00000) else d0))) ∧ (checked s r d = none) ∧ (dStart d = dCount d)) ∧
  (∃ (r : Ring) (s : State) (p : Packet) (i : Instr) (d : List Nat) (old : Option StopState) (x : StopState),
  let c := issued s r p d old
  let k := p.w 1 % 2 ^ 32
  let stop := (s.ring r.val).stops.find? (fun y => y.seq == k)
  let d0 := x.desc.set 3 (x.desc.getD 3 0 / 2 ^ 48 * 2 ^ 48 + x.index % 2 ^ 48)
  ((i = .chain r ∧ Has s r 0x10 p ∧ d = p.words ∧ old = none) ∨ (i = .chainRef r ∧ Has s r 0x11 p ∧ p.w 1 % 64 = 0 ∧ d = p.ref ∧ old = none) ∨ (i = .chainResume r ∧ Has s r 0x12 p ∧ stop = some x ∧ p.w 0 / 2 ^ 12 % 2 = 0 ∧ old = some x ∧ d = (if p.w 0 / 2 ^ 13 % 2 = 1 then d0.set 0 (mergeBits (d0.getD 0 0) (p.w 0) 0x1f00000) else d0))) ∧ (checked s r d = none) ∧ (dStart d ≠ dCount d) ∧ (s.denied c = false)) ∧
  (∃ (r : Ring) (s : State) (p : Packet) (i : Instr) (d : List Nat) (old : Option StopState) (x : StopState),
  let c := issued s r p d old
  let k := p.w 1 % 2 ^ 32
  let stop := (s.ring r.val).stops.find? (fun y => y.seq == k)
  let d0 := x.desc.set 3 (x.desc.getD 3 0 / 2 ^ 48 * 2 ^ 48 + x.index % 2 ^ 48)
  ((i = .chain r ∧ Has s r 0x10 p ∧ d = p.words ∧ old = none) ∨ (i = .chainRef r ∧ Has s r 0x11 p ∧ p.w 1 % 64 = 0 ∧ d = p.ref ∧ old = none) ∨ (i = .chainResume r ∧ Has s r 0x12 p ∧ stop = some x ∧ p.w 0 / 2 ^ 12 % 2 = 0 ∧ old = some x ∧ d = (if p.w 0 / 2 ^ 13 % 2 = 1 then d0.set 0 (mergeBits (d0.getD 0 0) (p.w 0) 0x1f00000) else d0))) ∧ (checked s r d = none) ∧ (dStart d ≠ dCount d) ∧ (s.denied c = true) ∧ ((s.ring r.val).running.find? (fun q => q.seq == p.seq) = some p)) ∧
  (∃ (r : Ring) (s : State) (p : Packet),
  (Has s r 0x11 p) ∧ (p.w 1 % 64 ≠ 0)) ∧
  (∃ (r : Ring) (s : State) (p : Packet),
  let k := p.w 1 % 2 ^ 32
  let stop := (s.ring r.val).stops.find? (fun y => y.seq == k)
  (Has s r 0x12 p) ∧ (stop = none)) ∧
  (∃ (r : Ring) (s : State) (p : Packet) (x : StopState),
  let k := p.w 1 % 2 ^ 32
  let stop := (s.ring r.val).stops.find? (fun y => y.seq == k)
  (Has s r 0x12 p) ∧ (stop = some x) ∧ (p.w 0 / 2 ^ 12 % 2 = 1)) :=
  ⟨⟨3, chainIssue1s, chainIssue1p, 17, .chain 3, chainIssue1d, none, chainIssue1x, by decide +kernel⟩,
   ⟨3, chainIssue2s, chainIssue2p, .chain 3, chainIssue2d, none, chainIssue1x, by decide +kernel⟩,
   ⟨3, chainIssue3s, chainIssue3p, .chain 3, chainIssue3d, none, chainIssue1x, by decide +kernel⟩,
   ⟨3, chainIssue7s, chainIssue3p, .chain 3, chainIssue3d, none, chainIssue1x, by decide +kernel⟩,
   ⟨3, chainIssue4s, chainIssue4p, by decide +kernel⟩,
   ⟨3, chainIssue5s, chainIssue5p, by decide +kernel⟩,
   ⟨3, chainIssue6s, chainIssue6p, chainIssue6x, by decide +kernel⟩⟩

def chainDispatch1c : Chain := { id := 1, issuer := .ring 3 7, desc := [65636, 85], start0 := 0, start := 0 }
def chainDispatch1s : State :=
  { State.reset with
      regs := [(CMDR_CFG 128, 185207048#64), (CMDR_PART_MAP 0 12, 4#64), (PWR_DOMAIN_LO, 67108868#64)]
      chains := [chainDispatch1c] }
def words45 : List Nat :=
  [1407379178524688, 9000, 85, 7, 38653660161, 32768, 34425801737, 40960, 0, 0, 0, 0, 0, 0, 0, 0, 0, 0, 0, 0, 0, 0, 0, 0, 0, 0,
   0, 0, 137232782525184, 0, 0, 0, 0, 0, 0, 0, 0, 0, 0, 0, 0, 0, 0, 0, 0, 0, 0, 0]
def chainDispatch2c : Chain := { id := 5, issuer := .ring 3 7, desc := words45, ring := 2, start0 := 7, start := 7 }
def chainDispatch2e : Chain := { id := 1, issuer := .ring 3 6, desc := [], start0 := 7, start := 7 }
def chainDispatch2s : State := { State.reset with chains := [chainDispatch2e, chainDispatch2c] }
def chainDispatch3s : State := { State.reset with chains := [chainDispatch2c] }
theorem witness_chainDispatch :
  (∃ (s : State) (c : Chain),
  (s.chains = [c]) ∧ (c.phase = ChainPhase.checked) ∧ (c.stop = none) ∧ (∀ (q m : ℕ), c.issuer = Issuer.ring q m → dRelax c.desc = true ∨ s.ringState q = 1 ∧ (s.ring q).chainsMade m = true) ∧ (∀ j ∈ s.mapOf c.issuer, j < 96 ∧ s.serves j = true ∧ s.takes j c = true) ∧ (∀ x ∈ rangesOf c.desc c.start (s.mapOf c.issuer).length, x.1 < (s.mapOf c.issuer).length ∧ x.2.1 < x.2.2)) ∧
  (∃ (s : State) (c : Chain) (e : Chain),
  (s.chainOf c.id = some c) ∧ (c.phase = ChainPhase.checked) ∧ (e ∈ s.chains) ∧ (e.before c = true) ∧ (e.computed = false ∨ e.stop ≠ none)) ∧
  (∃ (s : State) (c : Chain) (r : ℕ) (n : ℕ),
  (s.chainOf c.id = some c) ∧ (c.phase = ChainPhase.checked) ∧ (c.issuer = Issuer.ring r n) ∧ (dRelax c.desc = false) ∧ (s.ringState r ≠ 1 ∨ (s.ring r).chainsMade n = false)) :=
  ⟨⟨chainDispatch1s, chainDispatch1c, by decide +kernel, by decide +kernel, by decide +kernel,
      by intro q m h; cases h; decide +kernel, by decide +kernel, by decide +kernel⟩,
   ⟨chainDispatch2s, chainDispatch2c, chainDispatch2e, by decide +kernel⟩,
   ⟨chainDispatch3s, chainDispatch2c, 3, 7, by decide +kernel⟩⟩

def lifts1s : State := { State.reset with chains := [chainDispatch2e], power := { waiting := [{ chain := 1, since := 0 }] } }
def lifts2s : State :=
  { State.reset with
      regs := [(PWR_CAP, 7730941132830#64)], chains := [chainDispatch2e], power := { waiting := [{ chain := 1, since := 0 }] } }
def lifts3x : Ramp := { chain := none, start := 5975, pipes := 6000, fin := 6025 }
def lifts3s : State := { State.reset with now := 1000000000, power := { ramps := [lifts3x] } }
def lifts4x : Ramp := { chain := none, start := 5975, pipes := 6000, fin := 6025, begun := true }
def lifts4s : State := { State.reset with now := 1000000000, power := { ramps := [lifts4x] } }
def lifts5s : State :=
  { State.reset with
      regs := [(CMDR_CFG 128, 185207048#64), (CMDR_PART_MAP 0 12, 4#64), (PWR_DOMAIN_LO, 67108868#64)]
      chains := [{ id := 1, issuer := .ring 3 7, desc := [9000, 85], start0 := 7, start := 7, granted := true }] }
theorem witness_lifts :
  (∃ (s : State) (q : LiftReq) (rest : List LiftReq) (c : Chain),
  let new := s.committedWith (s.grantedChains ++ [{ c with granted := true }]) s.level
  (s.power.waiting = q :: rest) ∧ (s.chainOf q.chain = some c) ∧ (new ≤ (s.envelope : Rat))) ∧
  (∃ (s : State) (q : LiftReq) (rest : List LiftReq) (c : Chain),
  let new := s.committedWith (s.grantedChains ++ [{ c with granted := true }]) s.level
  (s.power.waiting = q :: rest) ∧ (s.chainOf q.chain = some c) ∧ ((s.envelope : Rat) < new)) ∧
  (∃ (s : State) (x : Ramp),
  (s.power.ramps.filter (fun y => !y.begun) = [x]) ∧ (x.start ≤ s.now)) ∧
  (∃ (s : State) (x : Ramp),
  (s.power.ramps.filter (fun y => y.begun) = [x]) ∧ (x.fin ≤ s.now)) ∧
  (∃ (s : State) (i : Svu),
  let down := s.svuLift s.grantedChains i.val s.level
  (0 < down)) :=
  ⟨⟨lifts1s, { chain := 1, since := 0 }, [], chainDispatch2e, by decide +kernel⟩,
   ⟨lifts2s, { chain := 1, since := 0 }, [], chainDispatch2e, by decide +kernel⟩,
   ⟨lifts3s, lifts3x, by decide +kernel⟩,
   ⟨lifts4s, lifts4x, by decide +kernel⟩,
   ⟨lifts5s, 11, by decide +kernel⟩⟩

def streams1c : Chain :=
  { id := 1, issuer := .ring 3 7, desc := [1407379178524688, 9000, 85, 7, 38653660161, 32768], start0 := 7, start := 7
    slices := [{ lsl := 1, svu := 9, first := 7, fin := 4103, next := 7, base := 7 }] }
def streams1l : Slice := { lsl := 1, svu := 9, first := 7, fin := 4103, next := 7, base := 7 }
def streams1e : CacheEntry := { ctx := 5, level := 0, va := 8, entry := 32879 }
def streams1s : State :=
  { State.reset with
      regs := [(MEMC_STATUS 75, 2306#64), (XLAT_CTX_CFG 5, 129#64)], chains := [streams1c]
      svus := [(9, { ctxs := [(1, 0)], leaf := [streams1e] })] }
def streams2c : Chain :=
  { id := 5, issuer := .ring 3 7, desc := [1407379178524688, 8, 85, 7, 38653660161, 32768], start0 := 7, start := 7
    slices := [{ lsl := 3, svu := 11, first := 7, fin := 8, next := 7, base := 7 }] }
def streams2l : Slice := { lsl := 3, svu := 11, first := 7, fin := 8, next := 7, base := 7 }
def streams2s : State :=
  { State.reset with
      regs := [(MEMC_STATUS 75, 2306#64), (XLAT_CTX_CFG 5, 129#64)]
      chains := [{ id := 0, issuer := .ring 3 6, desc := [], start0 := 7, start := 7
                   flying := [{ elem := 0, slot := 1, node := 0, word := 32768, mask := 1, data := 0 }] },
                 streams2c]
      svus := [(11, { ctxs := [(5, 0)], leaf := [streams1e] })] }
def words46 : List Nat :=
  [1407379178524688, 8, 85, 7, 38653660161, 32768, 34425801737, 40960, 0, 0, 0, 0, 0, 0, 0, 0, 0, 0, 0, 0, 0, 0, 0, 0, 0, 0, 0,
   0, 137232782525184, 0, 0, 0, 0, 0, 0, 0, 0, 0, 0, 0, 0, 0, 0, 0, 0, 0, 0, 0]
def streams3c : Chain :=
  { id := 5, issuer := .ring 3 7, desc := words46, ring := 2, start0 := 7, start := 7, map := [8, 9, 10, 11], phase := .running
    granted := true
    slices := [streams2l] }
def streams3s : State :=
  { State.reset with
      regs := [(MEMC_STATUS 75, 2306#64), (XLAT_CTX_CFG 5, 129#64)]
      chains := [{ id := 5, issuer := .ring 3 7, desc := words46, ring := 2, start0 := 7, start := 7, map := [8, 9, 10, 11]
                   phase := .running
                   granted := true, slices := [streams2l] }]
      svus := [(11, { ctxs := [(5, 0)], leaf := [streams1e] })], heldReads := [(11, (0, (128, 5)))] }
def streams4s : State :=
  { State.reset with
      chains := [{ id := 0, issuer := .ring 3 6, desc := [], start0 := 7, start := 7
                   flying := [{ elem := 0, slot := 1, node := 0, word := 32768, mask := 1, data := 0 }] },
                 { id := 5, issuer := .ring 3 7, desc := [], start0 := 7, start := 7 }]
      heldReads := [(11, (0, (128, 5)))] }
def streams5y : Walk := { chain := 1, lsl := 3, slot := 0, elem := 7, ctx := 5, va := 32824, level := 0, table := 1064960 }
def streams5e : CacheEntry := { ctx := 0, level := 0, va := 8, entry := 111 }
def streams5s : State :=
  { State.reset with
      regs := [(MEMC_STATUS 64, 2050#64)], mem := [(1065024, 111#8)], chains := [chainDispatch2e]
      svus := [(11, { walks := [streams5y] })] }
def streams6y : Walk := { chain := 1, lsl := 3, slot := 0, elem := 7, ctx := 5, va := 32824, level := 3, table := 1052672 }
def streams6e : CacheEntry := { ctx := 0, level := 3, va := 0, entry := 1 }
def streams6s : State :=
  { State.reset with
      regs := [(MEMC_STATUS 81, 2562#64)], mem := [(1052672, 1#8)], chains := [chainDispatch2e]
      svus := [(11, { walks := [streams6y] })] }
def streams7c : Chain := { id := 1, issuer := .ring 3 7, desc := [], start0 := 7, start := 7, slices := [streams2l] }
def streams7s : State :=
  { State.reset with
      chains := [{ id := 1, issuer := .ring 3 7, desc := [], start0 := 7, start := 7, slices := [streams2l] }]
      svus := [(11, { walks := [streams5y] })] }
def streams5u : State := (streams5s.walkLevel (streams5s.walker chainDispatch2e 11 .read) 32824 0 1064960).1
def streams6u : State := (streams6s.walkLevel (streams6s.walker chainDispatch2e 11 .read) 32824 3 1052672).1
def streams7x : StopCause := match streams7s.walkLevel (streams7s.walker streams7c 11 .read) 32824 0 1064960 with
  | (_, .fail x) => x
  | _ => { status := 0 }
def streams7u : State := (streams7s.walkLevel (streams7s.walker streams7c 11 .read) 32824 0 1064960).1
theorem witness_streams :
  (∃ (s : State) (i : Svu) (k : Slot) (c : Chain) (l : Slice) (e : CacheEntry) (g : ℕ),
  (Alone s i c l) ∧ (l.stop = none) ∧ ((s.svu i.val).testing = none) ∧ ((slotD c.desc k.val).input = true) ∧ ((slotD c.desc k.val).kind = kStrided) ∧ ((jumpSlots c.desc).contains k.val = false) ∧ (l.fetchAt c.desc k.val = l.next) ∧ (l.next < (l.wants c (k.val) 1).2) ∧ (0 ≤ ↑(slotD c.desc k.val).base + toSigned 32 (slotD c.desc k.val).kspec * ↑l.next) ∧ (↑(slotD c.desc k.val).base + toSigned 32 (slotD c.desc k.val).kspec * ↑l.next < 2 ^ 57) ∧ (s.on (XLAT_CTX_CFG_ENABLE (dCtx c.desc)) = true) ∧ (cacheHit (s.svu i.val).leaf (dCtx c.desc) (↑(slotD c.desc k.val).base + toSigned 32 (slotD c.desc k.val).kspec * ↑l.next).toNat =
  some e) ∧ (checkEntry e.level e.entry (s.walker c (i.val) XAcc.read).ring XAcc.read = EntryRes.leaf) ∧ (g = leafGa e.entry (↑(slotD c.desc k.val).base + toSigned 32 (slotD c.desc k.val).kspec * ↑l.next).toNat e.level) ∧ (gaNode g = s.node) ∧ (gaOff g < memTop) ∧ (s.blocked ReachKind.streamRead (gaOff g) (max 1 ((slotD c.desc k.val).bits / 8)) = none) ∧ (s.host.dir = []) ∧ (s.tethered c.id (g / 256) = false)) ∧
  (∃ (s : State) (i : Svu) (k : Slot) (c : Chain) (l : Slice) (e : CacheEntry) (g : ℕ),
  (Alone s i c l) ∧ (l.stop = none) ∧ ((s.svu i.val).testing = none) ∧ ((slotD c.desc k.val).input = true) ∧ ((slotD c.desc k.val).kind = kStrided) ∧ ((jumpSlots c.desc).contains k.val = false) ∧ (l.fetchAt c.desc k.val = l.next) ∧ (l.next < (l.wants c (k.val) 1).2) ∧ (0 ≤ ↑(slotD c.desc k.val).base + toSigned 32 (slotD c.desc k.val).kspec * ↑l.next) ∧ (↑(slotD c.desc k.val).base + toSigned 32 (slotD c.desc k.val).kspec * ↑l.next < 2 ^ 57) ∧ (s.on (XLAT_CTX_CFG_ENABLE (dCtx c.desc)) = true) ∧ (cacheHit (s.svu i.val).leaf (dCtx c.desc) (↑(slotD c.desc k.val).base + toSigned 32 (slotD c.desc k.val).kspec * ↑l.next).toNat =
  some e) ∧ (checkEntry e.level e.entry (s.walker c (i.val) XAcc.read).ring XAcc.read = EntryRes.leaf) ∧ (g = leafGa e.entry (↑(slotD c.desc k.val).base + toSigned 32 (slotD c.desc k.val).kspec * ↑l.next).toNat e.level) ∧ (gaNode g = s.node) ∧ (gaOff g < memTop) ∧ (s.blocked ReachKind.streamRead (gaOff g) (max 1 ((slotD c.desc k.val).bits / 8)) = none) ∧ (s.host.dir = []) ∧ (s.tethered c.id (g / 256) = true) ∧ ((i.val, k.val, g / 256, c.id) ∉ s.heldReads)) ∧
  (∃ (s : State) (i : Svu) (k : Slot) (c : Chain) (l : Slice) (e : CacheEntry) (g : ℕ),
  (Alone s i c l) ∧ ((slotD c.desc k.val).input = true) ∧ ((slotD c.desc k.val).kind = kStrided) ∧ ((jumpSlots c.desc).contains k.val = false) ∧ (l.fetchAt c.desc k.val = l.next) ∧ (l.next < (l.wants c (k.val) 1).2) ∧ (0 ≤ ↑(slotD c.desc k.val).base + toSigned 32 (slotD c.desc k.val).kspec * ↑l.next) ∧ (↑(slotD c.desc k.val).base + toSigned 32 (slotD c.desc k.val).kspec * ↑l.next < 2 ^ 57) ∧ (s.on (XLAT_CTX_CFG_ENABLE (dCtx c.desc)) = true) ∧ (cacheHit (s.svu i.val).leaf (dCtx c.desc) (↑(slotD c.desc k.val).base + toSigned 32 (slotD c.desc k.val).kspec * ↑l.next).toNat =
  some e) ∧ (checkEntry e.level e.entry (s.walker c (i.val) XAcc.read).ring XAcc.read = EntryRes.leaf) ∧ (g = leafGa e.entry (↑(slotD c.desc k.val).base + toSigned 32 (slotD c.desc k.val).kspec * ↑l.next).toNat e.level) ∧ (gaNode g = s.node) ∧ (gaOff g < memTop) ∧ (s.blocked ReachKind.streamRead (gaOff g) (max 1 ((slotD c.desc k.val).bits / 8)) = none) ∧ (s.host.dir = []) ∧ (s.heldReads = [(i.val, k.val, g / 256, c.id)]) ∧ (s.tethered c.id (g / 256) = false)) ∧
  (∃ (s : State) (i : Svu) (k : Slot) (c : Chain) (m : Nat),
  (s.heldReads = [(i.val, k.val, m, c.id)]) ∧ (s.tethered c.id m = true)) ∧
  (∃ (s : State) (u : State) (i : Svu) (k : Slot) (c : Chain) (e : CacheEntry) (y : Walk),
  ((s.svu i.val).walks = [y]) ∧ (y.slot = k.val) ∧ (s.chainOf y.chain = some c) ∧ ((u.svu i.val).walks = [y]) ∧ (s.walkLevel (s.walker c (i.val) XAcc.read) y.va y.level y.table = (u, LevelRes.leaf e))) ∧
  (∃ (s : State) (u : State) (i : Svu) (k : Slot) (c : Chain) (e : CacheEntry) (y : Walk) (ga : ℕ),
  ((s.svu i.val).walks = [y]) ∧ (y.slot = k.val) ∧ (s.chainOf y.chain = some c) ∧ ((u.svu i.val).walks = [y]) ∧ (s.walkLevel (s.walker c (i.val) XAcc.read) y.va y.level y.table = (u, LevelRes.table ga e))) ∧
  (∃ (s : State) (u : State) (i : Svu) (k : Slot) (c : Chain) (l : Slice) (y : Walk) (x : StopCause),
  ((s.svu i.val).walks = [y]) ∧ (y.slot = k.val) ∧ (s.chainOf y.chain = some c) ∧ ((u.svu i.val).walks = [y]) ∧ (s.walkLevel (s.walker c (i.val) XAcc.read) y.va y.level y.table = (u, LevelRes.fail x)) ∧ (u.chainOf c.id = some c) ∧ (y.lsl = l.lsl) ∧ (List.find? (fun z => z.lsl == l.lsl) c.slices = some l)) :=
  ⟨⟨streams1s, 9, 0, streams1c, streams1l, streams1e, 32824, by decide +kernel⟩,
   ⟨streams2s, 11, 0, streams2c, streams2l, streams1e, 32824, by decide +kernel⟩,
   ⟨streams3s, 11, 0, streams3c, streams2l, streams1e, 32824, by decide +kernel⟩,
   ⟨streams4s, 11, 0, streams3c, 128, by decide +kernel⟩,
   ⟨streams5s, streams5u, 11, 0, chainDispatch2e, streams5e, streams5y, by decide +kernel⟩,
   ⟨streams6s, streams6u, 11, 0, chainDispatch2e, streams6e, streams6y, 0, by decide +kernel⟩,
   ⟨streams7s, streams7u, 11, 0, streams7c, streams2l, streams5y, streams7x, by decide +kernel⟩⟩

def spoolWrites1c : Chain :=
  { id := 1, issuer := .ring 3 7, desc := words46, start0 := 7, start := 7
    slices := [{ lsl := 3, svu := 11, first := 7, fin := 8, next := 8, base := 7
                 outs := [{ elem := 7, slot := 1, loc := 41016, bits := 4102397017333398834 }] }] }
def spoolWrites1l : Slice :=
  { lsl := 3, svu := 11, first := 7, fin := 8, next := 8, base := 7
    outs := [{ elem := 7, slot := 1, loc := 41016, bits := 4102397017333398834 }] }
def spoolWrites1o : OutEl := { elem := 7, slot := 1, loc := 41016, bits := 4102397017333398834 }
def spoolWrites1s : State := { State.reset with regs := [(MEMC_STATUS 52, 1538#64)], chains := [spoolWrites1c] }
theorem witness_spoolWrites :
  (∃ (s : State) (i : Svu) (k : Slot) (c : Chain) (l : Slice) (o : OutEl),
  let os := s.nextWrite i.val c l k.val
  let g := o.ga c.desc s.node i.val
  let cs := os.flatMap (fun x => x.contribs c.desc s.node i.val)
  (s.chains = [c]) ∧ (c.slices = [l]) ∧ (l.svu = i.val) ∧ (os.head? = some o) ∧ ((∀ x ∈ os, x.elem < c.clear)) ∧ (s.tethered c.id (g / 256) = false) ∧ (gaNode g = s.node) ∧ (gaOff g < memTop) ∧ ((∀ x ∈ cs, x.word / 256 = gaOff g / 256)) ∧ (cs ≠ []) ∧ (s.host.dir = []) ∧ (s.heldReads = []) ∧ ((∀ x ∈ os, s.blocked .streamWrite (gaOff (x.ga c.desc s.node i.val)) 1 = none))) :=
  ⟨spoolWrites1s, 11, 1, spoolWrites1c, spoolWrites1l, spoolWrites1o, by decide +kernel⟩

def compute1c : Chain :=
  { id := 1, issuer := .ring 3 7, desc := [], start0 := 7, start := 7, granted := true, slices := [streams2l] }
def compute1s : State :=
  { State.reset with
      chains := [{ id := 1, issuer := .ring 3 7, desc := [], start0 := 7, start := 7, granted := true, slices := [streams2l] }]
      svus := [(11, { ctxs := [(1, 0)] })] }
def compute2c : Chain :=
  { id := 1, issuer := .ring 3 7, desc := [], start0 := 7, start := 7, granted := true
    slices := [{ lsl := 3, svu := 11, first := 7, fin := 8, next := 7, base := 7, phase := .run }] }
def compute2l : Slice := { lsl := 3, svu := 11, first := 7, fin := 8, next := 7, base := 7, phase := .run }
def compute2s : State := { State.reset with chains := [compute2c], svus := [(11, { ctxs := [(1, 0)] })] }
def words47 : List Nat :=
  [1407379178524688, 8, 85, 7, 38653660161, 32768, 34425801737, 40960, 0, 0, 0, 0, 0, 0, 0, 0, 0, 0, 0, 0, 0, 0, 0, 0, 0, 0, 0,
   0, 137232782525184]
def compute3c : Chain :=
  { id := 1, issuer := .ring 3 7, desc := words47, start0 := 7, start := 7, granted := true
    slices := [{ lsl := 3, svu := 11, first := 7, fin := 8, next := 7, base := 7, phase := .run, pf := [(0, 8)], inp := [{ slot := 0, elem := 7, bits := 5 }] }] }
def compute3l : Slice := { lsl := 3, svu := 11, first := 7, fin := 8, next := 7, base := 7, phase := .run, pf := [(0, 8)], inp := [{ slot := 0, elem := 7, bits := 5 }] }
def compute3q : StopCause := { status := 33, slot := 1, va := 41016, level := 0, cause := 4 }
def compute3s : State :=
  { State.reset with
      regs := [(XLAT_CTX_CFG 5, 129#64)], chains := [compute3c]
      svus := [(11, { ctxs := [(1, 0)], leaf := [{ ctx := 5, level := 0, va := 10, entry := 41061 }] })] }
def words48 : List Nat :=
  [1407379178524688, 8, 85, 7, 38653660161, 32768, 34425801737, 40960, 0, 0, 0, 0, 0, 0, 0, 0, 0, 0, 0, 0, 0, 0, 0, 0, 0, 0, 0,
   0, 137232782527233]
def compute4c : Chain :=
  { id := 1, issuer := .ring 3 7, desc := words48, start0 := 7, start := 7
    slices := [{ lsl := 3, svu := 11, first := 7, fin := 8, next := 7, base := 7
                 inp := [{ slot := 0, elem := 7, bits := 41024 }]
                 atomWait := some ((7, (0, 0))) }] }
def compute4l : Slice :=
  { lsl := 3, svu := 11, first := 7, fin := 8, next := 7, base := 7, inp := [{ slot := 0, elem := 7, bits := 41024 }]
    atomWait := some ((7, (0, 0))) }
def compute4s : State :=
  { State.reset with
      regs := [(PWR_DOMAIN_LO, 67108868#64), (XLAT_CTX_CFG 5, 129#64)], chains := [compute4c]
      svus := [(11, { ctxs := [(1, 0)], leaf := [{ ctx := 5, level := 0, va := 10, entry := 3298572632175 }] })] }
def compute5c : Chain :=
  { id := 1, issuer := .ring 3 7, desc := words48, start0 := 7, start := 7
    slices := [{ lsl := 0, first := 0, fin := 7, next := 0, base := 0 }, compute4l] }
def compute5s : State :=
  { State.reset with
      regs := [(PWR_DOMAIN_LO, 67108868#64), (XLAT_CTX_CFG 5, 129#64)]
      chains := [{ id := 1, issuer := .ring 3 7, desc := words48, start0 := 7, start := 7
                   slices := [{ lsl := 0, first := 0, fin := 7, next := 0, base := 0 }, compute4l] }]
      svus := [(11, { ctxs := [(1, 0)], leaf := [{ ctx := 5, level := 0, va := 10, entry := 3298572632175 }] })] }
theorem witness_compute :
  (∃ (s : State) (i : Svu) (c : Chain) (l : Slice),
  (Alone s i c l) ∧ (s.startable (i.val) c l = true) ∧ (l.firstGroup c = true) ∧ (hasLoft c.desc = false)) ∧
  (∃ (s : State) (i : Svu) (c : Chain) (l : Slice) (outs : List OutEl),
  let e := l.env c l.next none
  let goes := s.power.stalled = false ∧ l.phase = .run ∧ l.pass2 = none ∧ (s.svu i.val).testing = none ∧ l.stop = none ∧ l.next < l.top c
      ∧ s.blockGoesOn i.val l = true ∧ s.spoolRoom i.val c l = true ∧ s.lifted c = true
      ∧ (slotsOf c.desc).all (fun k => (slotD c.desc k).kind != kScratch && (slotD c.desc k).kind != kLoft) = true
      ∧ l.groupReady c = true ∧ min (l.groupEnd c.desc) (l.top c) = l.next + 1 ∧ l.verify = false
  (Alone s i c l) ∧ (goes) ∧ (s.elemStep i.val c l e = (s, .done outs []))) ∧
  (∃ (s : State) (i : Svu) (c : Chain) (l : Slice) (q : StopCause),
  (Alone s i c l) ∧ (s.power.stalled = false) ∧ (l.phase = Phase.run) ∧ (l.pass2 = none) ∧ ((s.svu i.val).testing = none) ∧ (l.stop = none) ∧ (l.next < l.top c) ∧ (s.blockGoesOn (i.val) l = true) ∧ (s.spoolRoom (i.val) c l = true) ∧ (s.lifted c = true) ∧ (((slotsOf c.desc).all fun k => (slotD c.desc k).kind != kScratch && (slotD c.desc k).kind != kLoft) = true) ∧ (l.groupReady c = true) ∧ (min (l.groupEnd c.desc) (l.top c) = l.next + 1) ∧ (l.verify = false) ∧ (s.elemStep (i.val) c l (l.env c l.next none) = (s, ElemStep.stop q)) ∧ (c.stop = none)) ∧
  (∃ (s : State) (i : Svu) (c : Chain) (l : Slice) (n : ℕ) (g : ℕ),
  (Alone s i c l) ∧ (l.atomWait = some (l.next, n, 0)) ∧ (nodesOf c.desc = [n]) ∧ ((nodeD c.desc n).op = 2817) ∧ ((l.env c l.next none).nodeCause n = none) ∧ (((l.env c l.next none).operands n (l.env c l.next none).x).atomOff = false) ∧ (s.atomGa (i.val) c n (nodeD c.desc n).it.bits ((l.env c l.next none).operands n (l.env c l.next none).x).a.bits =
  (s, Found.ga g)) ∧ (tabFind l.atomRes (l.next * 16 + n) = none) ∧ (gaNode g = s.node) ∧ (memTop ≤ gaOff g) ∧ (l.next ≤ c.clear)) ∧
  (∃ (s : State) (i : Svu) (c : Chain) (l : Slice) (n : ℕ) (g : ℕ),
  (Alone s i c l) ∧ (l.atomWait = some (l.next, n, 0)) ∧ (nodesOf c.desc = [n]) ∧ ((nodeD c.desc n).op = 2817) ∧ ((l.env c l.next none).nodeCause n = none) ∧ (((l.env c l.next none).operands n (l.env c l.next none).x).atomOff = false) ∧ (s.atomGa (i.val) c n (nodeD c.desc n).it.bits ((l.env c l.next none).operands n (l.env c l.next none).x).a.bits =
  (s, Found.ga g)) ∧ (tabFind l.atomRes (l.next * 16 + n) = none) ∧ (gaNode g = s.node) ∧ (memTop ≤ gaOff g) ∧ (c.clear < l.next)) ∧
  (∃ (s : State) (i : Svu) (c : Chain) (l : Slice),
  (Holding s i c l) ∧ (s.atBoundary i.val = true) ∧ ((decide433 (s.svu i.val).blkTurn (s.svu i.val).blkCredit
      (List.map (fun z => (z.id, s.shareOf z))
        (List.filter
          (fun c => s.lifted c && Option.any (fun l => l.stop.isNone && decide (l.next < l.fin)) (c.sliceOn i.val))
          (List.filterMap (fun y => s.chainOf y.1) (s.svu i.val).ctxs)))).1 =
  some c.id)) :=
  ⟨⟨compute1s, 11, compute1c, streams2l, by decide +kernel⟩,
   ⟨compute2s, 11, compute2c, compute2l, [], by decide +kernel⟩,
   ⟨compute3s, 11, compute3c, compute3l, compute3q, by decide +kernel⟩,
   ⟨compute4s, 11, compute4c, compute4l, 0, 3298572632128, by decide +kernel⟩,
   ⟨compute5s, 11, compute5c, compute4l, 0, 3298572632128, by decide +kernel⟩,
   ⟨compute1s, 11, compute1c, streams2l, by decide +kernel⟩⟩

def verifiedWindows1c : Chain :=
  { id := 1, issuer := .ring 3 7, desc := [], start0 := 7, start := 7
    slices := [{ lsl := 3, svu := 11, first := 7, fin := 8, next := 8, base := 7
                 pass1 := some ({ sig := 8761414943722718301, stop := none, accs := [], scans := [], outs := [], flags := [] })
                 pass2 := some ({ sig := 8761414943722718301, stop := none, accs := [], scans := [], outs := [], flags := [] }) }] }
def verifiedWindows1l : Slice :=
  { lsl := 3, svu := 11, first := 7, fin := 8, next := 8, base := 7
    pass1 := some ({ sig := 8761414943722718301, stop := none, accs := [], scans := [], outs := [], flags := [] })
    pass2 := some ({ sig := 8761414943722718301, stop := none, accs := [], scans := [], outs := [], flags := [] }) }
def verifiedWindows1p : PassRes := { sig := 8761414943722718301, stop := none, accs := [], scans := [], outs := [], flags := [] }
def verifiedWindows1s : State := { State.reset with chains := [verifiedWindows1c], svus := [(11, { ctxs := [(1, 0)] })] }
def verifiedWindows2c : Chain :=
  { id := 1, issuer := .ring 3 7, desc := [], start0 := 7, start := 7
    slices := [{ lsl := 3, svu := 11, first := 7, fin := 8, next := 8, base := 7, pass1 := some (verifiedWindows1p)
                 pass2 := some ({ sig := 9925593354686138635, stop := none, accs := [], scans := [], outs := [], flags := [] }) }] }
def verifiedWindows2l : Slice :=
  { lsl := 3, svu := 11, first := 7, fin := 8, next := 8, base := 7, pass1 := some (verifiedWindows1p)
    pass2 := some ({ sig := 9925593354686138635, stop := none, accs := [], scans := [], outs := [], flags := [] }) }
def verifiedWindows2q : PassRes := { sig := 9925593354686138635, stop := none, accs := [], scans := [], outs := [], flags := [] }
def verifiedWindows2s : State :=
  { State.reset with
      chains := [{ id := 1, issuer := .ring 3 7, desc := [], start0 := 7, start := 7
                   slices := [{ lsl := 3, svu := 11, first := 7, fin := 8, next := 8, base := 7
                                pass1 := some (verifiedWindows1p)
                                pass2 := some (verifiedWindows2q) }] }]
      svus := [(11, { ctxs := [(1, 0)] })] }
def verifiedWindows3p : PassRes :=
  { sig := 9925593354686138635, stop := some (7, { status := 32 }), accs := [], scans := [], outs := [], flags := [] }
def verifiedWindows3l : Slice :=
  { lsl := 3, svu := 11, first := 7, fin := 8, next := 8, base := 7, pass1 := some verifiedWindows3p, pass2 := some verifiedWindows3p }
def verifiedWindows3c : Chain := { id := 1, issuer := .ring 3 7, desc := [], start0 := 7, start := 7, slices := [verifiedWindows3l] }
def verifiedWindows3s : State := { State.reset with chains := [verifiedWindows3c], svus := [(11, { ctxs := [(1, 0)] })] }
theorem witness_verifiedWindows :
  (∃ (s : State) (i : Svu) (c : Chain) (l : Slice) (p : PassRes) (q : PassRes),
  (Alone s i c l) ∧ (l.pass1 = some p) ∧ (l.pass2 = some q) ∧ ((s.svu i.val).testing = none) ∧ (p.sig = q.sig) ∧ (q.stop = none) ∧ (hasLoft c.desc = false)) ∧
  (∃ (s : State) (i : Svu) (c : Chain) (l : Slice) (p : PassRes) (q : PassRes) (f : ℕ) (x : StopCause),
  (Alone s i c l) ∧ (l.pass1 = some p) ∧ (l.pass2 = some q) ∧ ((s.svu i.val).testing = none) ∧ (p.sig = q.sig) ∧ (q.stop = some (f, x)) ∧ (c.stop = none) ∧ (l.stop = none)) ∧
  (∃ (s : State) (i : Svu) (c : Chain) (l : Slice) (p : PassRes) (q : PassRes),
  (Alone s i c l) ∧ (l.pass1 = some p) ∧ (l.pass2 = some q) ∧ ((s.svu i.val).testing = none) ∧ (p.sig ≠ q.sig) ∧ (Quiet s (srcVerifyMismatch + i.val / 4)) ∧ (First s (srcVerifyMismatch + i.val / 4)) ∧ (l.retried = false)) :=
  ⟨⟨verifiedWindows1s, 11, verifiedWindows1c, verifiedWindows1l, verifiedWindows1p, verifiedWindows1p, by decide +kernel⟩,
   ⟨verifiedWindows3s, 11, verifiedWindows3c, verifiedWindows3l, verifiedWindows3p, verifiedWindows3p, 7, { status := 32 }, by decide +kernel⟩,
   ⟨verifiedWindows2s, 11, verifiedWindows2c, verifiedWindows2l, verifiedWindows1p, verifiedWindows2q, by decide +kernel⟩⟩

def selfTests1c : Chain :=
  { id := 1, issuer := .ring 3 7, desc := [], start0 := 7, start := 7
    slices := [{ lsl := 3, svu := 11, first := 7, fin := 8, next := 8, base := 7 }] }
def selfTests1l : Slice := { lsl := 3, svu := 11, first := 7, fin := 8, next := 8, base := 7 }
def selfTests1s : State := { State.reset with chains := [selfTests1c], svus := [(11, { testing := some ((1, (3, 0))) })] }
def selfTests2c : Chain := { id := 1, issuer := .ring 3 7, desc := [], start0 := 7, start := 7, slices := [selfTests1l] }
def selfTests3s : State := { State.reset with chains := [selfTests1c], svus := [(11, { testing := some ((1, (3, 1))) })] }
theorem witness_selfTests :
  (∃ (s : State) (i : Svu) (c : Chain) (l : Slice) (n : ℕ) (pass : Bool),
  (Holding s i c l) ∧ ((s.svu i.val).testing = some (c.id, l.lsl, n)) ∧ (s.svuFenced i.val = false) ∧ (s.rd VERIF_LAST_INFO_VALID = 0) ∧ (l.svu = i.val) ∧ (c.stop = none) ∧ (l.stop = none) ∧ (∀ (r m : ℕ), c.issuer = Issuer.ring r m → r < 64) ∧ (pass = true) ∧ (n = 0)) ∧
  (∃ (s : State) (i : Svu) (c : Chain) (l : Slice) (n : ℕ) (pass : Bool),
  (Holding s i c l) ∧ ((s.svu i.val).testing = some (c.id, l.lsl, n)) ∧ (s.svuFenced i.val = false) ∧ (s.rd VERIF_LAST_INFO_VALID = 0) ∧ (l.svu = i.val) ∧ (c.stop = none) ∧ (l.stop = none) ∧ (∀ (r m : ℕ), c.issuer = Issuer.ring r m → r < 64) ∧ (pass = false) ∧ (n = 0) ∧ (Alive s (srcSvuBist + i.val / 4)) ∧ (Kept s (srcSvuBist + i.val / 4)) ∧ (First s (srcSvuBist + i.val / 4))) ∧
  (∃ (s : State) (i : Svu) (c : Chain) (l : Slice) (n : ℕ) (pass : Bool),
  (Holding s i c l) ∧ ((s.svu i.val).testing = some (c.id, l.lsl, n)) ∧ (s.svuFenced i.val = false) ∧ (s.rd VERIF_LAST_INFO_VALID = 0) ∧ (l.svu = i.val) ∧ (c.stop = none) ∧ (l.stop = none) ∧ (∀ (r m : ℕ), c.issuer = Issuer.ring r m → r < 64) ∧ (pass = true) ∧ (n = 1)) :=
  ⟨⟨selfTests1s, 11, selfTests1c, selfTests1l, 0, true, by decide +kernel, by decide +kernel, by decide +kernel, by decide +kernel, by decide +kernel, by decide +kernel, by decide +kernel, 
      by intro r m h; cases h; decide +kernel,
      by decide +kernel, by decide +kernel⟩,
   ⟨selfTests1s, 11, selfTests2c, selfTests1l, 0, false, by decide +kernel, by decide +kernel, by decide +kernel, by decide +kernel, by decide +kernel, by decide +kernel, by decide +kernel, 
      by intro r m h; cases h; decide +kernel,
      by decide +kernel, by decide +kernel, by decide +kernel, by decide +kernel, by decide +kernel⟩,
   ⟨selfTests3s, 11, selfTests2c, selfTests1l, 1, true, by decide +kernel, by decide +kernel, by decide +kernel, by decide +kernel, by decide +kernel, by decide +kernel, by decide +kernel, 
      by intro r m h; cases h; decide +kernel,
      by decide +kernel, by decide +kernel⟩⟩

def chainEnds1c : Chain :=
  { id := 1, issuer := .ring 3 7, desc := [], start0 := 7, start := 7
    slices := [{ lsl := 3, svu := 11, first := 7, fin := 8, next := 8, base := 7, phase := .drain }] }
def chainEnds1l : Slice := { lsl := 3, svu := 11, first := 7, fin := 8, next := 8, base := 7, phase := .drain }
def chainEnds1s : State := { State.reset with chains := [chainEnds1c] }
def chainEnds2c : Chain :=
  { id := 1, issuer := .ring 3 7, desc := words46, start0 := 7, start := 7, phase := .running
    slices := [{ lsl := 3, first := 7, fin := 8, next := 8, base := 7, phase := .done }] }
def chainEnds2p : Packet := { words := words46, seq := 7, fin := 9, held := true }
def chainEnds2s : State := { State.reset with chains := [chainEnds2c], rings := [(3, { running := [chainEnds2p] })] }
def chainEnds3c : Chain :=
  { id := 1, issuer := .ring 3 7, desc := [1407379178524688, 8, 85, 7, 38653660161, 32768, 34425801737, 40960], start0 := 7
    start := 7
    phase := .reducing, redTodo := [1] }
def chainEnds3s : State :=
  { State.reset with
      regs := [(MEMC_STATUS 10, 258#64), (MEMC_STATUS 47, 1282#64), (MEMC_STATUS 52, 1538#64), (MEMC_STATUS 62, 1794#64),
               (MEMC_STATUS 64, 2050#64), (MEMC_STATUS 81, 2562#64), (XLAT_CTX_ROOT 5, 1048576#64), (XLAT_CTX_CFG 5, 129#64)]
      mem := [(1048576, 1#8), (1048577, 16#8), (1048578, 16#8), (1052672, 1#8), (1052673, 32#8), (1052674, 16#8), (1056768, 1#8),
              (1056769, 48#8), (1056770, 16#8), (1060864, 1#8), (1060865, 64#8), (1060866, 16#8), (1065040, 111#8),
              (1065041, 160#8)]
      chains := [chainEnds3c] }
def chainEnds3u : State := (chainEnds3s.reduceGas chainEnds3c (slotD chainEnds3c.desc 1).base (slotD chainEnds3c.desc 1).et.size).1
def chainEnds7c : Chain :=
  { id := 1, issuer := .ring 3 7, desc := words46, start0 := 7, start := 7, phase := .reducing
    slices := [{ lsl := 3, first := 7, fin := 8, next := 8, base := 7, phase := .done }], xstop := some { status := 1 } }
def chainEnds7s : State := { State.reset with chains := [chainEnds7c], rings := [(3, { running := [chainEnds2p] })] }
def chainEnds4c : Chain :=
  { id := 1, issuer := .ring 3 7, desc := words46, start0 := 7, start := 7, phase := .stopping
    stop := some ((7, { status := 1 })) }
def chainEnds4s : State := { State.reset with chains := [chainEnds4c], rings := [(3, { running := [chainEnds2p] })] }
def chainEnds5c : Chain :=
  { id := 1, issuer := .ring 3 7, desc := words46, start0 := 7, start := 7, phase := .stopping
    stop := some ((7, { status := 1 }))
    wrote := [{ elem := 7, slot := 1, node := 0, word := 40960
                mask := 13407807929942597098847186273910239236930042012704388843369920083034445969792056777621235010053505504363840807472722485292991361205680392012899047377469440
                data := 2981781014632710317180394289478341048853153055511691653536336853318381003898660092418957811835212870168959741392585197716952524804189072298515779345711104 }]
    olds := [{ chain := 1, chan := 52, word := 40960, top := 9, old := 77, oldDmg := {} }] }
def chainEnds5w : Contrib :=
  { elem := 7, slot := 1, node := 0, word := 40960
    mask := 13407807929942597098847186273910239236930042012704388843369920083034445969792056777621235010053505504363840807472722485292991361205680392012899047377469440
    data := 2981781014632710317180394289478341048853153055511691653536336853318381003898660092418957811835212870168959741392585197716952524804189072298515779345711104 }
def chainEnds5o : TailRec := { chain := 1, chan := 52, word := 40960, top := 9, old := 77, oldDmg := {} }
def chainEnds5s : State :=
  { State.reset with tail := [chainEnds5o], chains := [chainEnds5c], rings := [(3, { running := [chainEnds2p] })] }
theorem witness_chainEnds :
  (∃ (s : State) (i : Svu) (c : Chain) (l : Slice),
  (s.chains = [c]) ∧ (List.find? (fun z => z.svu == i.val && z.phase == Phase.drain && z.outs.isEmpty) c.slices = some l) ∧ ((List.map (fun z => z.lsl) c.slices).Nodup)) ∧
  (∃ (s : State) (c : Chain) (r : Ring) (p : Packet),
  (s.chainOf c.id = some c) ∧ (c.issuer = Issuer.ring (r.val) p.seq) ∧ (List.find? (fun z => z.seq == p.seq) (s.ring r.val).running = some p) ∧ (c.slicesDone = true) ∧ (s.reducePlaces c = []) ∧ (c.redLeft = []) ∧ (c.xstop = none)) ∧
  (∃ (s : State) (c : Chain) (r : Ring) (p : Packet) (x : StopCause),
  (s.chainOf c.id = some c) ∧ (c.issuer = Issuer.ring (r.val) p.seq) ∧ (List.find? (fun z => z.seq == p.seq) (s.ring r.val).running = some p) ∧ (c.finished = true) ∧ (c.xstop = some x) ∧ (Quiet s (srcXlatStop + r.val)) ∧ (First s (srcXlatStop + r.val)) ∧ (s.rd (XLAT_STOP_INFO_VALID r.val) = 0)) ∧
  (∃ (s : State) (u : State) (c : Chain) (k : ℕ) (g : ℕ),
  (s.chainOf c.id = some c) ∧ (c.phase = ChainPhase.reducing) ∧ (c.stop = none) ∧ (c.redTodo = [k]) ∧ (k < 12) ∧ ((slotD c.desc k).kind = kStrided) ∧ ((slotD c.desc k).et.size ∈ [1, 2, 4, 8, 16]) ∧ ((slotD c.desc k).base % (slotD c.desc k).et.size = 0) ∧ ((slotD c.desc k).base < 2 ^ 57) ∧ (s.reduceGas c (slotD c.desc k).base (slotD c.desc k).et.size = (u, Found.ga 0, [(g, (slotD c.desc k).base)])) ∧ (gaNode g = u.node) ∧ (gaOff g < memTop) ∧ (gaOff g % (slotD c.desc k).et.size = 0) ∧ (u.host.dir = [])) ∧
  (∃ (s : State) (c : Chain) (r : Ring) (p : Packet) (f : ℕ) (x : StopCause),
  (s.chainOf c.id = some c) ∧ (c.issuer = Issuer.ring (r.val) p.seq) ∧ (List.find? (fun z => z.seq == p.seq) (s.ring r.val).running = some p) ∧ (c.stop = some (f, x)) ∧ (c.settledBelow f = true) ∧ (c.phase = ChainPhase.stopping ∨ c.phase = ChainPhase.running) ∧ (c.torn = none) ∧ (∀ z ∈ c.slices, z.outs = []) ∧ (c.atoms = []) ∧ (c.undo = none) ∧ (c.undoLeft = 0) ∧ (c.loftOlds = []) ∧ (s.host.dir = []) ∧ (Quiet s (srcXlatStop + r.val)) ∧ (First s (srcXlatStop + r.val)) ∧ (s.rd (XLAT_STOP_INFO_VALID r.val) = 0) ∧ (x.status < 256) ∧ (x.slot < 16) ∧ (x.node < 16) ∧ (p.seq < 2 ^ 32) ∧ (x.va < 2 ^ 57) ∧ (x.level < 8) ∧ (x.cause < 16) ∧ (f < 2 ^ 48) ∧ (x.ga = noGa) ∧ (c.wrote = [])) ∧
  (∃ (s : State) (c : Chain) (r : Ring) (p : Packet) (f : ℕ) (x : StopCause) (o : TailRec) (w : Contrib),
  (s.chainOf c.id = some c) ∧ (c.issuer = Issuer.ring (r.val) p.seq) ∧ (List.find? (fun z => z.seq == p.seq) (s.ring r.val).running = some p) ∧ (c.stop = some (f, x)) ∧ (c.settledBelow f = true) ∧ (c.phase = ChainPhase.stopping ∨ c.phase = ChainPhase.running) ∧ (c.torn = none) ∧ (∀ z ∈ c.slices, z.outs = []) ∧ (c.atoms = []) ∧ (c.undo = none) ∧ (c.undoLeft = 0) ∧ (c.loftOlds = []) ∧ (s.host.dir = []) ∧ (Quiet s (srcXlatStop + r.val)) ∧ (First s (srcXlatStop + r.val)) ∧ (s.rd (XLAT_STOP_INFO_VALID r.val) = 0) ∧ (x.status < 256) ∧ (x.slot < 16) ∧ (x.node < 16) ∧ (p.seq < 2 ^ 32) ∧ (x.va < 2 ^ 57) ∧ (x.level < 8) ∧ (x.cause < 16) ∧ (f < 2 ^ 48) ∧ (x.ga = noGa) ∧ (c.wrote = [w]) ∧ (w.node = s.node) ∧ (f ≤ w.elem) ∧ (w.word < memTop) ∧ (w.word % 64 = 0) ∧ (c.olds = [o]) ∧ (o.word = w.word) ∧ (w.shown < 2 ^ 512) ∧ (memWf s.mem = true)) :=
  ⟨⟨chainEnds1s, 11, chainEnds1c, chainEnds1l, by decide +kernel⟩,
   ⟨chainEnds2s, chainEnds2c, 3, chainEnds2p, by decide +kernel⟩,
   ⟨chainEnds7s, chainEnds7c, 3, chainEnds2p, { status := 1 }, by decide +kernel⟩,
   ⟨chainEnds3s, chainEnds3u, chainEnds3c, 1, 40960, by decide +kernel⟩,
   ⟨chainEnds4s, chainEnds4c, 3, chainEnds2p, 7, { status := 1 }, by decide +kernel⟩,
   ⟨chainEnds5s, chainEnds5c, 3, chainEnds2p, 7, { status := 1 }, chainEnds5o, chainEnds5w, by decide +kernel⟩⟩

def scratchBanks1r : MemReq :=
  { op := .read 3298572632080 8, src := none, port := 9, owner := true, arrived := 0, sink := .buffer 4 }
def scratchBanks1s : State :=
  { State.reset with regs := [(PWR_DOMAIN_LO, 67108868#64)], svus := [(9, { bankQ := [(3, [scratchBanks1r])] })] }
def scratchBanks2s : State :=
  { State.reset with regs := [(BMV_ACT_DST 512, 512#64)], svus := [(9, { bankQ := [(3, [scratchBanks1r])] })] }
def scratchBanks3r : MemReq :=
  { op := .write [{ off := 3298572632088, mask := 18446744073709551615, data := 1234605616436508552, poison := false }]
    src := none
    port := 9, owner := true, arrived := 0, sink := .none }
def scratchBanks3bs : List Byte := [136#8, 119#8, 102#8, 85#8, 68#8, 51#8, 34#8, 17#8]
def scratchBanks3s : State :=
  { State.reset with regs := [(PWR_DOMAIN_LO, 67108868#64)], svus := [(9, { bankQ := [(3, [scratchBanks3r])] })] }
def scratchBanks4r : MemReq :=
  { op := .atom 3298572632080 1 85 0, src := none, port := 9, owner := true, arrived := 0, sink := .buffer 4 }
def scratchBanks4s : State :=
  { State.reset with regs := [(PWR_DOMAIN_LO, 67108868#64)], svus := [(9, { bankQ := [(3, [scratchBanks4r])] })] }
def scratchBanks5r : MemReq := { op := .read 3298572632080 8, src := none, port := 9, owner := true, arrived := 0, sink := .none }
def scratchBanks5r2 : MemReq := { op := .read 3298572632080 8, src := none, port := 9, arrived := 0, sink := .none }
def scratchBanks5s : State :=
  { State.reset with regs := [(BMV_ACT_DST 512, 512#64)], svus := [(9, { bankQ := [(3, [scratchBanks5r2, scratchBanks5r])] })] }
def scratchBanks6s : State :=
  { State.reset with regs := [(PWR_DOMAIN_LO, 67108868#64)], spDmg := [(412321579012, { syms := [4] })] }
def scratchBanks7s : State := { State.reset with regs := [(CLUS_ARRAY_STATE 2, 33#64)] }
def scratchBanks9s : State := { State.reset with now := 60000000000 }
def scratchBanks8s : State := { State.reset with regs := [(CLUS_ARRAY_STATE 2, 18#64)] }
theorem witness_scratchBanks :
  (∃ (s : State) (i : Svu) (b : ℕ) (o : ℕ) (n : ℕ) (id : ℕ) (r : MemReq),
  (tabGet (s.svu i.val).bankQ [] (b % 16) = [r]) ∧ (s.bankOverdue (i.val) (b % 16) = false) ∧ (r.off = o) ∧ (rangeOf o = Range.scratch i.val) ∧ (s.storageOut o = none) ∧ (∀ w ∈ wordsIn o n, s.damage w = { }) ∧ (r.op = MemOp.read o n) ∧ (0 < n) ∧ (r.sink = Sink.buffer id)) ∧
  (∃ (s : State) (i : Svu) (b : ℕ) (o : ℕ) (id : ℕ) (st : ℕ) (r : MemReq),
  (tabGet (s.svu i.val).bankQ [] (b % 16) = [r]) ∧ (s.bankOverdue (i.val) (b % 16) = false) ∧ (r.off = o) ∧ (rangeOf o = Range.scratch i.val) ∧ (s.storageOut o = some st) ∧ (Quiet s srcAccessRefused) ∧ (First s srcAccessRefused) ∧ (r.sink = Sink.buffer id)) ∧
  (∃ (s : State) (i : Svu) (b : ℕ) (o : ℕ) (n : ℕ) (r : MemReq) (bs : List Byte),
  (tabGet (s.svu i.val).bankQ [] (b % 16) = [r]) ∧ (s.bankOverdue (i.val) (b % 16) = false) ∧ (r.off = o) ∧ (rangeOf o = Range.scratch i.val) ∧ (s.storageOut o = none) ∧ (∀ w ∈ wordsIn o n, s.damage w = { }) ∧ (memWf s.mem = true) ∧ (n = 8) ∧ (o % 8 = 0) ∧ (bs.length = 8) ∧ (r.op = MemOp.write (wordWrites o bs false)) ∧ (r.sink = Sink.none)) ∧
  (∃ (s : State) (i : Svu) (b : ℕ) (o : ℕ) (n : ℕ) (v : ℕ) (id : ℕ) (r : MemReq),
  (tabGet (s.svu i.val).bankQ [] (b % 16) = [r]) ∧ (s.bankOverdue (i.val) (b % 16) = false) ∧ (r.off = o) ∧ (rangeOf o = Range.scratch i.val) ∧ (s.storageOut o = none) ∧ (∀ w ∈ wordsIn o n, s.damage w = { }) ∧ (memWf s.mem = true) ∧ (n = 8) ∧ (o % 8 = 0) ∧ (r.op = MemOp.atom o 1 v 0) ∧ (r.sink = Sink.buffer id)) ∧
  (∃ (s : State) (i : Svu) (b : ℕ) (st : ℕ) (r : MemReq) (r2 : MemReq),
  (tabGet (s.svu i.val).bankQ [] (b % 16) = [r2, r]) ∧ (s.bankOverdue (i.val) (b % 16) = false) ∧ (r2.owner = false) ∧ (r.owner = true) ∧ (s.storageOut r.off = some st) ∧ (s.storageOut r2.off = some st) ∧ (Quiet s srcAccessRefused) ∧ (First s srcAccessRefused) ∧ (r.sink = Sink.none) ∧ (r2.sink = Sink.none)) ∧
  (∃ (s : State) (i : Svu) (b : ℕ),
  (s.bankOverdue (i.val) (b % 16) = true)) ∧
  (∃ (s : State) (i : Svu) (line : Nat) (sym : Nat),
  let base := scratchBase + 2 ^ 22 * i.val + 16 * (line % 262144)
  (s.arrayOn (i.val / 4) = true) ∧ (tabGet (s.svu i.val).bankQ [] (spBankOf (16 * (line % 262144))) = []) ∧ (s.damage base = { syms := [sym] }) ∧ (sym < 72) ∧ (s.damage (base + 8) = {}) ∧ (Alive s (srcSpCe + i.val / 4)) ∧ (Kept s (srcSpCe + i.val / 4)) ∧ (First s (srcSpCe + i.val / 4))) ∧
  (∃ (s : State) (k : Cluster),
  (s.rd (CLUS_ARRAY_STATE_ARRAY k.val) = 1) ∧ (s.rd (CLUS_ARRAY_STATE_LOGIC k.val) = 2) ∧ (memWf s.mem = true)) ∧
  (∃ (s : State) (k : Cluster),
  (s.rd (CLUS_ARRAY_STATE_LOGIC k.val) = 1) ∧ (s.rd (CLUS_ARRAY_STATE_ARRAY k.val) ≠ 1)) :=
  ⟨⟨scratchBanks1s, 9, 3, 3298572632080, 8, 4, scratchBanks1r, by decide +kernel⟩,
   ⟨scratchBanks2s, 9, 3, 3298572632080, 4, 65, scratchBanks1r, by decide +kernel⟩,
   ⟨scratchBanks3s, 9, 3, 3298572632088, 8, scratchBanks3r, scratchBanks3bs, by decide +kernel⟩,
   ⟨scratchBanks4s, 9, 3, 3298572632080, 8, 85, 4, scratchBanks4r, by decide +kernel⟩,
   ⟨scratchBanks5s, 9, 3, 65, scratchBanks5r, scratchBanks5r2, by decide +kernel⟩,
   ⟨scratchBanks9s, 9, 3, by decide +kernel⟩,
   ⟨scratchBanks6s, 9, 2, 4, by decide +kernel⟩,
   ⟨scratchBanks7s, 2, by decide +kernel⟩,
   ⟨scratchBanks8s, 2, by decide +kernel⟩⟩

def loftStarts1rest : List LoftOp :=
  [{ core := 2, task := 1, w0 := 15255707587328, w1 := 844446404968452, scalar := 7, te := 0 },
   { core := 2, task := 2, w0 := 15255707587328, w1 := 844446404968452, scalar := 7, te := 0 }]
def loftStarts1o : LoftOp := { core := 2, task := 1, w0 := 15255707587328, w1 := 562962838323240, scalar := 7, te := 0 }
def loftStarts1s : State :=
  { State.reset with
      svus := [(9,
                { queue := [loftStarts1o,
                            { core := 2, task := 1, w0 := 15255707587328, w1 := 844446404968452, scalar := 7, te := 0 },
                            { core := 2, task := 2, w0 := 15255707587328, w1 := 844446404968452, scalar := 7, te := 0 }] })] }
def loftStarts2o : LoftOp := { core := 2, task := 1, w0 := 15255707587328, w1 := 562975723225093, scalar := 7, te := 0 }
def loftStarts2s : State :=
  { State.reset with
      svus := [(9,
                { queue := [loftStarts2o,
                            { core := 2, task := 1, w0 := 15255707587328, w1 := 844446404968452, scalar := 7, te := 0 },
                            { core := 2, task := 2, w0 := 15255707587328, w1 := 844446404968452, scalar := 7, te := 0 }] })] }
theorem witness_loftStarts :
  (∃ (s : State) (i : Svu) (o : LoftOp) (rest : List LoftOp),
  let x := s.svu i.val
  (x.queue = o :: rest) ∧ (o.mark = 0) ∧ (o.started = false) ∧ (x.testing = none) ∧ (s.loftCheck i.val o = none)) ∧
  (∃ (s : State) (i : Svu) (o : LoftOp) (rest : List LoftOp) (st : Nat),
  let x := s.svu i.val
  let gone := rest.filter (fun p => p.mark == 0 && p.core == o.core && p.task == o.task)
  (x.queue = o :: rest) ∧ (o.mark = 0) ∧ (o.started = false) ∧ (x.testing = none) ∧ (s.loftCheck i.val o = some st) ∧ (s.rd (SVU_LOFT_STOP_VALID i.val) = 0) ∧ (o.task < 16) ∧ (st < 256) ∧ (gone.length < 16)) :=
  ⟨⟨loftStarts1s, 9, loftStarts1o, loftStarts1rest, by decide +kernel⟩,
   ⟨loftStarts2s, 9, loftStarts2o, loftStarts1rest, 17, by decide +kernel⟩⟩

def loftOps1o : LoftOp :=
  { core := 2, task := 1, w0 := 15255707587328, w1 := 844437815033896, scalar := 7, te := 0, started := true, next := 3 }
def loftOps1s : State := { State.reset with svus := [(9, { queue := [loftOps1o] })] }
def loftOps2o : LoftOp :=
  { core := 2, task := 1, w0 := 15255707587328, w1 := 844424930131978, scalar := 7, te := 0, started := true }
def loftOps2s : State := { State.reset with svus := [(9, { queue := [loftOps2o] })] }
theorem witness_loftOps :
  (∃ (s : State) (i : Svu) (o : LoftOp) (rest : List LoftOp),
  let x := s.svu i.val
  let n := nodeOfWord o.w0
  let hi := min o.vl (o.next + 16)
  let goes := x.queue = o :: rest ∧ o.started = true ∧ x.testing = none ∧ s.power.stalled = false ∧ x.loftDmg = []
      ∧ (x.loft.all (fun z => decide (z.2 < 2 ^ 64))) = true
  let adds := n.op = 0x300 ∧ n.itype = 13 ∧ n.otype = 13 ∧ n.a < 32 / 2 ^ o.grp ∧ n.b < 32 / 2 ^ o.grp ∧ n.c = 0x3f ∧ n.msrc = 0x3f
      ∧ o.vdm = false ∧ o.vd < 32 / 2 ^ o.grp ∧ o.vl ≤ 64 * 2 ^ o.grp
  let sofar := o.start ≤ o.next ∧ o.next < o.vl ∧ o.res.map (fun z => z.1) = rangeFrom o.start (o.next - o.start)
      ∧ (o.res.all (fun z => decide (z.2 < 2 ^ 64))) = true
  (goes) ∧ (adds) ∧ (sofar) ∧ (hi < o.vl)) ∧
  (∃ (s : State) (i : Svu) (o : LoftOp) (rest : List LoftOp),
  let x := s.svu i.val
  let n := nodeOfWord o.w0
  let hi := min o.vl (o.next + 16)
  let goes := x.queue = o :: rest ∧ o.started = true ∧ x.testing = none ∧ s.power.stalled = false ∧ x.loftDmg = []
      ∧ (x.loft.all (fun z => decide (z.2 < 2 ^ 64))) = true
  let adds := n.op = 0x300 ∧ n.itype = 13 ∧ n.otype = 13 ∧ n.a < 32 / 2 ^ o.grp ∧ n.b < 32 / 2 ^ o.grp ∧ n.c = 0x3f ∧ n.msrc = 0x3f
      ∧ o.vdm = false ∧ o.vd < 32 / 2 ^ o.grp ∧ o.vl ≤ 64 * 2 ^ o.grp
  let sofar := o.start ≤ o.next ∧ o.next < o.vl ∧ o.res.map (fun z => z.1) = rangeFrom o.start (o.next - o.start)
      ∧ (o.res.all (fun z => decide (z.2 < 2 ^ 64))) = true
  (goes) ∧ (adds) ∧ (sofar) ∧ (hi = o.vl)) :=
  ⟨⟨loftOps1s, 9, loftOps1o, [], by decide +kernel⟩,
   ⟨loftOps2s, 9, loftOps2o, [], by decide +kernel⟩⟩

def hostLink1s : State := { State.reset with regs := [(PWR_DOMAIN_HI, 36864#64)] }
def hostLink3s : State := { State.reset with host := { linkUp := true } }
def hostLink4s : State := { State.reset with host := { linkUp := true, ready := true } }
def hostLink10s : State :=
  { State.reset with
      regs := [(PWR_DOMAIN_HI, 36864#64), (HIF_PBA 3, 32#64)]
      host := { linkUp := true, cfg := [(4, 6), (64, 2147483648)], ready := true } }
theorem witness_hostLink :
  (∃ (s : State) (width : Nat) (speed : Nat),
  (s.domainOn 76 = true) ∧ (s.host.perst = false) ∧ (s.power.off = false) ∧ (s.power.ripcord = false) ∧ (s.rd LCS_BOOT_PHASE ≠ 6) ∧ (s.host.linkUp = false) ∧ (0 < width) ∧ (0 < speed) ∧ (s.pllCoasts 30 = false)) ∧
  (∃ (s : State),
  (s.domainOn 76 = true) ∧ (s.host.perst = false) ∧ (s.power.off = false) ∧ (s.power.ripcord = false) ∧ (s.rd LCS_BOOT_PHASE ≠ 6) ∧ (s.host.ready = false) ∧ ((List.range 64).all (fun r => !((s.ring r).hostReset && s.rd (CMDR_CTL_STATE r) == 3)) = true)) ∧
  (∃ (s : State),
  (s.host.linkUp = true) ∧ (s.host.ready = false ∨ s.host.flr = true)) ∧
  (∃ (s : State),
  let up := s.host.linkUp = true ∧ s.host.ready = true ∧ s.host.flr = false
  (up)) ∧
  (∃ (s : State) (n : Nat),
  let up := s.host.linkUp = true ∧ s.host.ready = true ∧ s.host.flr = false
  (up) ∧ (28 ≤ n) ∧ (n ≤ 42)) ∧
  (∃ (s : State) (n : Nat),
  let up := s.host.linkUp = true ∧ s.host.ready = true ∧ s.host.flr = false
  (up) ∧ ((n < 28 ∨ 42 < n)) ∧ (20 ≤ n) ∧ (n < 84)) ∧
  (∃ (s : State),
  let up := s.host.linkUp = true ∧ s.host.ready = true ∧ s.host.flr = false
  (up) ∧ (tabGet s.host.cfg 0 0x40 / 2 ^ 31 % 2 = 0)) ∧
  (∃ (s : State),
  let up := s.host.linkUp = true ∧ s.host.ready = true ∧ s.host.flr = false
  (up)) ∧
  (∃ (s : State),
  let up := s.host.linkUp = true ∧ s.host.ready = true ∧ s.host.flr = false
  (up) ∧ ((List.range 32).all (fun i => s.reg (HIF_PBA i) == 0) = true)) ∧
  (∃ (s : State) (k : Nat) (m : Master) (d : BitVec 64),
  (s.fwOrHost m = true) ∧ (Reaches s (whole m d) (HIF_MSIX_DATA k)) ∧ (k < 2048) ∧ (s.msixOn = true) ∧ (tabGet s.host.cfg 0 0x40 / 2 ^ 30 % 2 = 0) ∧ (d.toNat / 2 ^ 32 % 2 = 0) ∧ ((List.range 32).all (fun i => s.reg (HIF_PBA i) == if i = k / 64 then BitVec.ofNat 64 (2 ^ (k % 64)) else 0) = true)) :=
  ⟨⟨hostLink1s, 3, 7, by decide +kernel⟩,
   ⟨hostLink1s, by decide +kernel⟩,
   ⟨hostLink3s, by decide +kernel⟩,
   ⟨hostLink4s, by decide +kernel⟩,
   ⟨hostLink4s, 28, by decide +kernel⟩,
   ⟨hostLink4s, 20, by decide +kernel⟩,
   ⟨hostLink4s, by decide +kernel⟩,
   ⟨hostLink4s, by decide +kernel⟩,
   ⟨hostLink4s, by decide +kernel⟩,
   ⟨hostLink10s, 197, .host, 85#64, by decide +kernel⟩⟩

def hostMemory3s : State :=
  { State.reset with regs := [(HIF_LINK_STAT, 524288#64), (MEMC_STATUS 53, 1538#64)], host := { linkUp := true, hdmOn := true } }
def hostMemory4bs : List Byte :=
  [7#8, 7#8, 7#8, 7#8, 7#8, 7#8, 7#8, 7#8, 7#8, 7#8, 7#8, 7#8, 7#8, 7#8, 7#8, 7#8, 7#8, 7#8, 7#8, 7#8, 7#8, 7#8, 7#8, 7#8, 7#8,
   7#8, 7#8, 7#8, 7#8, 7#8, 7#8, 7#8, 7#8, 7#8, 7#8, 7#8, 7#8, 7#8, 7#8, 7#8, 7#8, 7#8, 7#8, 7#8, 7#8, 7#8, 7#8, 7#8, 7#8, 7#8,
   7#8, 7#8, 7#8, 7#8, 7#8, 7#8, 7#8, 7#8, 7#8, 7#8, 7#8, 7#8, 7#8, 7#8]
def hostMemory5s : State := { State.reset with regs := [(HIF_LINK_STAT, 524288#64)], host := { linkUp := true } }
def hostMemory6s : State :=
  { State.reset with regs := [(HIF_LINK_STAT, 524288#64)], host := { linkUp := true, snooping := [256] } }
def hostMemory7s : State :=
  { State.reset with
      regs := [(HIF_LINK_STAT, 524288#64), (MEMC_STATUS 53, 1538#64)], host := { linkUp := true, snooping := [256] } }
theorem witness_hostMemory :
  (∃ (s : State) (op : AtomicKind) (off : ℕ) (size : ℕ),
  let code := match op, size with
      | .fetchAdd, 4 => some 0 | .fetchAdd, 8 => some 1 | .swap, 4 => some 2 | .swap, 8 => some 3 | .cas, 8 => some 4 | _, _ => none
  (code ≠ none) ∧ (HostServes s off size) ∧ (off % size = 0) ∧ (NoneWaits s agentHost) ∧ (memWf s.mem = true)) ∧
  (∃ (s : State) (op : AtomicKind) (off : Nat) (size : Nat),
  let code := match op, size with
      | .fetchAdd, 4 => some 0 | .fetchAdd, 8 => some 1 | .swap, 4 => some 2 | .swap, 8 => some 3 | .cas, 8 => some 4 | _, _ => none
  (s.host.linkUp = true) ∧ (s.hostUp = true) ∧ ((code = none ∨ off % size ≠ 0))) ∧
  (∃ (s : State) (off : ℕ),
  (Cxl s) ∧ (s.host.hdmOn = true) ∧ (off / 64 ∉ s.host.snooping) ∧ (off % 64 = 0) ∧ (off < memTop) ∧ (s.block ReachKind.hostBar2 Requester.host off 64 = none) ∧ (Calm s (channelOf off)) ∧ (NoneWaits s agentHost) ∧ (s.damage off = { }) ∧ (memWf s.mem = true) ∧ (s.host.dir.length < 2 ^ 24)) ∧
  (∃ (s : State) (off : ℕ) (bs : List Byte),
  (Cxl s) ∧ (s.host.hdmOn = true) ∧ (off / 64 ∉ s.host.snooping) ∧ (off % 64 = 0) ∧ (off < memTop) ∧ (s.block ReachKind.hostBar2 Requester.host off 64 = none) ∧ (Calm s (channelOf off)) ∧ (NoneWaits s agentHost) ∧ (s.damage off = { }) ∧ (memWf s.mem = true) ∧ (bs.length = 64)) ∧
  (∃ (s : State) (off : ℕ) (bs : List Byte),
  (Cxl s) ∧ (s.host.hdmOn = true) ∧ (off / 64 ∉ s.host.snooping) ∧ (off % 64 = 0) ∧ (off < memTop) ∧ (s.block ReachKind.hostBar2 Requester.host off 64 = none) ∧ (Calm s (channelOf off)) ∧ (NoneWaits s agentHost) ∧ (s.damage off = { }) ∧ (memWf s.mem = true) ∧ (bs.length = 64) ∧ (Alive s (264 + channelOf off / 8)) ∧ (s.rd (MEMC_INJECT_ARM (channelOf off)) = 0)) ∧
  (∃ (s : State),
  (Cxl s)) ∧
  (∃ (s : State) (off : Nat),
  let line := off / 64
  (Cxl s) ∧ (line ∈ s.host.snooping)) ∧
  (∃ (s : State) (off : ℕ) (bs : List Byte),
  (Cxl s) ∧ (off / 64 ∈ s.host.snooping) ∧ (off % 64 = 0) ∧ (off < memTop) ∧ (s.block ReachKind.hostBar2 Requester.host off 64 = none) ∧ (Calm s (channelOf off)) ∧ (NoneWaits s agentHost) ∧ (s.damage off = { }) ∧ (memWf s.mem = true) ∧ (bs.length = 64)) :=
  ⟨⟨hostBar21s, .cas, 16384, 8, by decide +kernel⟩,
   ⟨registerRefusals1s, .cas, 16384, 1, by decide +kernel⟩,
   ⟨hostMemory3s, 16384, by decide +kernel⟩,
   ⟨hostMemory3s, 16384, hostMemory4bs, by decide +kernel⟩,
   ⟨hostMemory3s, 16384, hostMemory4bs, by decide +kernel⟩,
   ⟨hostMemory5s, by decide +kernel⟩,
   ⟨hostMemory6s, 16384, by decide +kernel⟩,
   ⟨hostMemory7s, 16384, hostMemory4bs, by decide +kernel⟩⟩

def hostCompletions1s : State :=
  { State.reset with bmv := [(5, { bursts := [{ base := 64, len := 128 }] })], host := { reads := [(9, (5, (64, 128)))] } }
def hostCompletions2data : List Byte :=
  [3#8, 3#8, 3#8, 3#8, 3#8, 3#8, 3#8, 3#8, 3#8, 3#8, 3#8, 3#8, 3#8, 3#8, 3#8, 3#8, 3#8, 3#8, 3#8, 3#8, 3#8, 3#8, 3#8, 3#8, 3#8,
   3#8, 3#8, 3#8, 3#8, 3#8, 3#8, 3#8, 3#8, 3#8, 3#8, 3#8, 3#8, 3#8, 3#8, 3#8, 3#8, 3#8, 3#8, 3#8, 3#8, 3#8, 3#8, 3#8, 3#8, 3#8,
   3#8, 3#8, 3#8, 3#8, 3#8, 3#8, 3#8, 3#8, 3#8, 3#8, 3#8, 3#8, 3#8, 3#8, 3#8, 3#8, 3#8, 3#8, 3#8, 3#8, 3#8, 3#8, 3#8, 3#8, 3#8,
   3#8, 3#8, 3#8, 3#8, 3#8, 3#8, 3#8, 3#8, 3#8, 3#8, 3#8, 3#8, 3#8, 3#8, 3#8, 3#8, 3#8, 3#8, 3#8, 3#8, 3#8, 3#8, 3#8, 3#8, 3#8,
   3#8, 3#8, 3#8, 3#8, 3#8, 3#8, 3#8, 3#8, 3#8, 3#8, 3#8, 3#8, 3#8, 3#8, 3#8, 3#8, 3#8, 3#8, 3#8, 3#8, 3#8, 3#8, 3#8, 3#8, 3#8,
   3#8, 3#8, 3#8]
theorem witness_hostCompletions :
  (∃ (s : State) (tag : Nat) (c : Nat) (base : Nat) (left : Nat) (data : List Byte) (b : Burst),
  let x := s.bmvCh c
  (tabFind s.host.reads tag = some (c, base, left)) ∧ (x.bursts = [b]) ∧ (b.base = base) ∧ (b.readDone = false) ∧ (x.fail = none) ∧ (0 < data.length) ∧ (data.length < left)) ∧
  (∃ (s : State) (tag : Nat) (c : Nat) (base : Nat) (left : Nat) (data : List Byte) (b : Burst),
  let x := s.bmvCh c
  (tabFind s.host.reads tag = some (c, base, left)) ∧ (x.bursts = [b]) ∧ (b.base = base) ∧ (b.readDone = false) ∧ (x.fail = none) ∧ (data.length = left) ∧ (0 < left)) ∧
  (∃ (s : State) (tag : Nat) (c : Nat) (base : Nat) (left : Nat) (st : Nat) (b : Burst),
  let x := s.bmvCh c
  (tabFind s.host.reads tag = some (c, base, left)) ∧ (x.bursts = [b]) ∧ (b.base = base) ∧ (b.readDone = false) ∧ (x.fail = none) ∧ (st ≠ 0)) ∧
  (∃ (s : State) (tag : Nat) (c : Nat) (base : Nat) (left : Nat) (b : Burst),
  let x := s.bmvCh c
  (tabFind s.host.reads tag = some (c, base, left)) ∧ (x.bursts = [b]) ∧ (b.base = base) ∧ (b.readDone = false) ∧ (x.fail = none)) :=
  ⟨⟨hostCompletions1s, 9, 5, 64, 128, [3#8], { base := 64, len := 128 }, by decide +kernel⟩,
   ⟨hostCompletions1s, 9, 5, 64, 128, hostCompletions2data, { base := 64, len := 128 }, by decide +kernel⟩,
   ⟨hostCompletions1s, 9, 5, 64, 128, 18, { base := 64, len := 128 }, by decide +kernel⟩,
   ⟨hostCompletions1s, 9, 5, 64, 128, { base := 64, len := 128 }, by decide +kernel⟩⟩

theorem witness_hostResets :
  (∃ (s : State) (r : Ring) (i : Instr) (cause : Nat),
  let quiet := s.chains = [] ∧ s.rd LCS_UPDATE_OPEN = 0 ∧ (List.range 4).all (fun j => s.rd (LCS_SESSION_ACTIVE j) == 0) = true
      ∧ (List.range 32).all (fun c => !s.bmvBusy c) = true ∧ s.rd (CMDR_CFG_OWNER r.val) = 0
  ((i = .flr ∧ cause = 1 ∧ s.host.linkUp = true ∧ s.host.ready = true) ∨ (i = .hotReset ∧ cause = 2 ∧ s.host.linkUp = true) ∨ (i = .hostLinkDown ∧ cause = 3 ∧ s.host.linkUp = true) ∨ (i = .perstNAssert ∧ cause = 4 ∧ s.host.perst = false ∧ s.power.off = false)) ∧ (quiet)) :=
  ⟨hostLink4s, 3, .flr, 1, by decide +kernel⟩

def linkStates1s : State := { State.reset with regs := [(PWR_DOMAIN_HI, 32769#64)] }
def linkStates2s : State := { State.reset with regs := [(BMV_SH_SRC 588, 4764808405761584768#64), (MEMC_STATUS 244, 1#64)] }
def linkStates3rec : TrainRec := { node := 7, boot := 70000, serial := 0x0000000000000005#64, lanes := 3, delay := 99 }
def linkStates3s : State := { State.reset with regs := [(MEMC_PERF_CTL 244, 1#64)] }
def linkStates4rec : TrainRec := { node := 7, boot := 70000, serial := 0x0000000000000005#64, lanes := 15, delay := 99 }
def linkStates4s : State := { State.reset with regs := [(MEMC_STATUS 244, 2147483649#64), (MEMC_PERF_CTL 244, 983041#64)] }
def linkStates5s : State := { State.reset with regs := [(MEMC_PERF_CTL 244, 1#64)], now := 5000000000000 }
def linkStates6s : State := { State.reset with regs := [(MEMC_PERF_CTL 244, 2#64)], now := 5000000000000 }
def linkStates7s : State := { State.reset with regs := [(MEMC_PERF_CTL 244, 983042#64)] }
def linkStates8s : State :=
  { State.reset with regs := [(BMV_SH_SRC 588, 4764808405761584768#64), (MEMC_PERF_CTL 244, 3#64)], now := 5000000000000 }
def linkStates9s : State :=
  { State.reset with regs := [(MEMC_STATUS 244, 1#64), (MEMC_PERF_CTL 244, 4#64)], now := 5000000000000 }
theorem witness_linkStates :
  (∃ (p : Port) (m : Master) (s : State) (v : Word),
  (s.fw0 m = true) ∧ (Reaches s (whole m v) (JP_CFG p.val)) ∧ (s.portFenced p.val = false) ∧ (s.rd (JP_CFG_MODE p.val) = 0) ∧ (v.toNat / 2 ^ 8 % 2 = 0) ∧ (s.rd (JP_CFG_ENABLE p.val) = 0) ∧ (v.toNat % 2 = 1) ∧ (s.domainOn (60 + p.val) = true)) ∧
  (∃ (p : Port) (m : Master) (s : State) (v : Word),
  (s.fw0 m = true) ∧ (Reaches s (whole m v) (JP_CFG p.val)) ∧ (s.portFenced p.val = false) ∧ (s.rd (JP_CFG_MODE p.val) = 0) ∧ (v.toNat / 2 ^ 8 % 2 = 0) ∧ (s.rd (JP_CFG_ENABLE p.val) = 1) ∧ (v.toNat % 2 = 0) ∧ (s.freqs = []) ∧ (s.routeHeld = []) ∧ (Quiet s (srcJpDown + p.val))) ∧
  (∃ (p : Port) (s : State) (rec : TrainRec),
  let st := s.rd (JP_STAT_STATE p.val)
  (st = 1) ∧ (s.rd (JP_CFG_MODE p.val) = 0) ∧ ((rec.lanes % 16 = 15 ∨ rec.lanes % 4 = 3 ∨ rec.lanes / 4 % 4 = 3)) ∧ (s.rd (JP_CFG_EXPECT_EN p.val) = 0) ∧ ((s.port p.val).txq = []) ∧ ((s.port p.val).lastBoot = none) ∧ (Quiet s (srcJpRetrain + p.val)) ∧ (s.pllCoasts (14 + p.val) = false)) ∧
  (∃ (p : Port) (s : State) (rec : TrainRec),
  let st := s.rd (JP_STAT_STATE p.val)
  (st = 1) ∧ (s.rd (JP_CFG_MODE p.val) = 0) ∧ (rec.lanes % 16 = 15) ∧ (s.rd (JP_CFG_EXPECT_EN p.val) = 1) ∧ (s.rd (JP_CFG_EXPECT_NODE p.val) ≠ rec.node.val) ∧ (Quiet s (srcJpPeer + p.val)) ∧ (s.pllCoasts (14 + p.val) = false)) ∧
  (∃ (p : Port) (s : State),
  let st := s.rd (JP_STAT_STATE p.val)
  let since := (s.port p.val).since
  (st = 1) ∧ (since + 1000000000 ≤ s.now)) ∧
  (∃ (p : Port) (s : State),
  let st := s.rd (JP_STAT_STATE p.val)
  (st = 2) ∧ (s.rd (JP_CFG_MODE p.val) = 0) ∧ ((s.port p.val).calLast + 250000000 ≤ s.now)) ∧
  (∃ (p : Port) (s : State) (lanes : Nat),
  let st := s.rd (JP_STAT_STATE p.val)
  (st = 2) ∧ (s.rd (JP_STAT_LANES p.val) &&& lanes ≠ 0) ∧ (Quiet s (srcJpRetrain + p.val))) ∧
  (∃ (p : Port) (s : State),
  let st := s.rd (JP_STAT_STATE p.val)
  let since := (s.port p.val).since
  (st = 3) ∧ (since + s.rd JFAB_CFG_RETRAIN_MAX * 1000000 ≤ s.now) ∧ (s.freqs = []) ∧ (s.routeHeld = []) ∧ (Quiet s (srcJpDown + p.val))) ∧
  (∃ (p : Port) (s : State),
  let st := s.rd (JP_STAT_STATE p.val)
  let since := (s.port p.val).since
  (st = 4) ∧ (s.rd (JP_CFG_ENABLE p.val) = 1) ∧ (s.portFenced p.val = false) ∧ (since + 1000000000 ≤ s.now)) :=
  ⟨⟨4, .core 24 2, linkStates1s, 1#64, by decide +kernel⟩,
   ⟨4, .core 24 2, linkStates2s, 0#64, by decide +kernel⟩,
   ⟨4, linkStates3s, linkStates3rec, by decide +kernel⟩,
   ⟨4, linkStates4s, linkStates4rec, by decide +kernel⟩,
   ⟨4, linkStates5s, by decide +kernel⟩,
   ⟨4, linkStates6s, by decide +kernel⟩,
   ⟨4, linkStates7s, 1, by decide +kernel⟩,
   ⟨4, linkStates8s, by decide +kernel⟩,
   ⟨4, linkStates9s, by decide +kernel⟩⟩

def flits1body : List Byte :=
  [0#8, 52#8, 18#8, 128#8, 0#8, 209#8, 4#8, 0#8, 0#8, 64#8, 0#8, 0#8, 0#8, 0#8, 0#8, 0#8, 0#8, 1#8, 2#8, 3#8, 4#8, 5#8, 6#8, 7#8,
   8#8, 9#8, 10#8, 11#8, 12#8, 13#8, 14#8, 15#8, 0#8, 0#8, 0#8, 0#8, 0#8, 15#8, 0#8, 0#8, 0#8, 0#8, 0#8, 0#8, 0#8, 0#8, 0#8, 0#8,
   0#8, 0#8, 0#8, 0#8, 0#8, 0#8, 0#8, 0#8, 0#8, 0#8, 0#8, 0#8, 0#8, 0#8, 0#8, 0#8, 0#8, 0#8, 0#8, 0#8, 0#8, 0#8, 0#8, 0#8, 0#8,
   0#8, 0#8, 0#8, 0#8, 0#8, 0#8, 0#8, 0#8, 0#8, 0#8, 0#8, 0#8, 0#8, 0#8, 0#8, 0#8, 0#8, 0#8, 0#8, 0#8, 0#8, 0#8, 0#8, 0#8, 0#8,
   0#8, 0#8, 0#8, 0#8, 0#8, 0#8, 0#8, 0#8, 0#8, 0#8, 0#8, 0#8, 0#8, 0#8, 0#8, 0#8, 0#8, 0#8, 0#8, 0#8, 0#8, 0#8, 0#8, 0#8, 0#8,
   0#8, 0#8, 0#8, 0#8, 0#8, 0#8, 0#8, 0#8, 0#8, 0#8, 0#8, 0#8, 0#8, 0#8, 0#8, 0#8, 0#8, 0#8, 0#8, 0#8, 0#8, 0#8, 0#8, 0#8, 0#8,
   0#8, 0#8, 0#8, 0#8, 0#8, 0#8, 0#8, 0#8, 0#8, 0#8, 0#8, 0#8, 0#8, 0#8, 0#8, 0#8, 0#8, 0#8, 0#8, 0#8, 0#8, 0#8, 0#8, 0#8, 0#8,
   0#8, 0#8, 0#8, 0#8, 0#8, 0#8, 0#8, 0#8, 0#8, 0#8, 0#8, 0#8, 0#8, 0#8, 0#8, 0#8, 0#8, 0#8, 0#8, 0#8, 0#8, 0#8, 0#8, 0#8, 0#8,
   0#8, 0#8, 0#8, 0#8, 0#8, 0#8, 0#8, 0#8, 0#8, 0#8, 0#8, 0#8, 0#8, 0#8, 0#8, 0#8, 0#8, 0#8, 0#8, 0#8, 0#8, 0#8, 0#8, 0#8, 0#8,
   0#8, 0#8, 0#8, 0#8, 0#8, 0#8, 0#8, 0#8, 0#8, 0#8, 0#8, 0#8, 0#8, 0#8, 0#8, 0#8, 0#8]
def flits1s : State := { State.reset with regs := [(MEMC_PERF_CTL 244, 2#64)] }
def flits2ms : List FMsg :=
  [{ dst := 0, src := 77, typ := 1, len := 16, tag := 4660, offset := 16384
     data := [0#8, 1#8, 2#8, 3#8, 4#8, 5#8, 6#8, 7#8, 8#8, 9#8, 10#8, 11#8, 12#8, 13#8, 14#8, 15#8] }]
def flits2s : State := { State.reset with regs := [(MEMC_PERF_CTL 244, 2#64)], ports := [(4, { rxNext := 5 })] }
set_option maxRecDepth 100000 in
theorem witness_flits :
  (∃ (p : Port) (s : State) (seq : Nat) (ack : Nat) (cvc : Nat) (n : Nat) (v : Nat) (body : List Byte),
  let x := s.port p.val
  let up := s.rd (JP_STAT_STATE p.val) = 2 ∧ s.rd (JP_CFG_MODE p.val) = 0 ∧ x.txq = []
  let fits := seq < 4096 ∧ ack < 4096 ∧ cvc < 4 ∧ n < 1024 ∧ v < 4 ∧ body.length = 240
  (up) ∧ (fits)) ∧
  (∃ (p : Port) (s : State) (seq : Nat) (ack : Nat) (cvc : Nat) (n : Nat) (v : Nat) (body : List Byte) (ms : List FMsg),
  let x := s.port p.val
  let up := s.rd (JP_STAT_STATE p.val) = 2 ∧ s.rd (JP_CFG_MODE p.val) = 0 ∧ x.txq = []
  let fits := seq < 4096 ∧ ack < 4096 ∧ cvc < 4 ∧ n < 1024 ∧ v < 4 ∧ body.length = 240
  (up) ∧ (fits) ∧ (seq = x.rxNext) ∧ (tabFind x.partials v = none) ∧ (parseMsgs 64 body [] = (ms, [], false)) ∧ (ms.length = 1)) ∧
  (∃ (p : Port) (s : State) (seq : Nat) (ack : Nat) (cvc : Nat) (n : Nat) (v : Nat) (body : List Byte),
  let x := s.port p.val
  let up := s.rd (JP_STAT_STATE p.val) = 2 ∧ s.rd (JP_CFG_MODE p.val) = 0 ∧ x.txq = []
  let fits := seq < 4096 ∧ ack < 4096 ∧ cvc < 4 ∧ n < 1024 ∧ v < 4 ∧ body.length = 240
  (up) ∧ (fits) ∧ (seq ≠ x.rxNext)) ∧
  (∃ (p : Port) (s : State) (bytes : List Byte),
  let x := s.port p.val
  let up := s.rd (JP_STAT_STATE p.val) = 2 ∧ s.rd (JP_CFG_MODE p.val) = 0 ∧ x.txq = []
  (up) ∧ (bytes.length = 256) ∧ (crc64 (bytes.take 248) ≠ leNat (bytes.drop 248)) ∧ (Quiet s (srcJpCrc + p.val)) ∧ (First s (srcJpCrc + p.val)) ∧ (x.crcTimes.length < 63)) ∧
  (∃ (p : Port) (s : State) (ack : Nat),
  let x := s.port p.val
  let up := s.rd (JP_STAT_STATE p.val) = 2 ∧ s.rd (JP_CFG_MODE p.val) = 0 ∧ x.txq = []
  (up) ∧ (ack < 4096)) ∧
  (∃ (p : Port) (s : State),
  let x := s.port p.val
  let up := s.rd (JP_STAT_STATE p.val) = 2 ∧ s.rd (JP_CFG_MODE p.val) = 0 ∧ x.txq = []
  (up)) :=
  ⟨⟨4, flits1s, 4, 8, 2, 7, 0, flits1body, by decide +kernel⟩,
   ⟨4, flits2s, 5, 8, 2, 7, 0, flits1body, flits2ms, by decide +kernel⟩,
   ⟨4, flits1s, 4, 8, 2, 7, 0, flits1body, by decide +kernel⟩,
   ⟨4, flits1s, (List.replicate 256 5), by decide +kernel⟩,
   ⟨4, flits1s, 8, by decide +kernel⟩,
   ⟨4, flits1s, by decide +kernel⟩⟩

def peerRequests4q (typ : Nat) : FReq :=
  { sent := 0, node := 77, typ := typ, offset := 16384, len := 16, port := 4, svu := none, deadline := 500000000000, sink := .buffer 9 }
def peerRequests1m : FMsg :=
  { dst := 0, src := 77, typ := 0, len := 16, tag := 4660, offset := 16384
    data := [0#8, 1#8, 2#8, 3#8, 4#8, 5#8, 6#8, 7#8, 8#8, 9#8, 10#8, 11#8, 12#8, 13#8, 14#8, 15#8] }
def peerRequests1s : State :=
  { State.reset with regs := [(LCS_BOOT, 9223373136366403584#64), (MEMC_STATUS 53, 2#64)], ports := [(4, { inbox := [(peerRequests1m, 1)] })] }
def peerRequests2m : FMsg :=
  { dst := 0, src := 77, typ := 1, len := 16, tag := 4660, offset := 16384
    data := [0#8, 1#8, 2#8, 3#8, 4#8, 5#8, 6#8, 7#8, 8#8, 9#8, 10#8, 11#8, 12#8, 13#8, 14#8, 15#8] }
def peerRequests2s : State :=
  { State.reset with regs := [(LCS_BOOT, 9223373136366403584#64), (MEMC_STATUS 53, 2#64)], ports := [(4, { inbox := [(peerRequests2m, 1)] })] }
def peerRequests3m : FMsg :=
  { dst := 0, src := 77, typ := 2, len := 16, tag := 4660, offset := 16384
    data := [1#8, 0#8, 0#8, 0#8, 0#8, 0#8, 0#8, 0#8, 7#8, 0#8, 0#8, 0#8, 0#8, 0#8, 0#8, 0#8, 3#8, 0#8, 0#8, 0#8, 0#8, 0#8, 0#8,
             0#8] }
def peerRequests3s : State :=
  { State.reset with regs := [(LCS_BOOT, 9223373136366403584#64), (MEMC_STATUS 53, 2#64)], ports := [(4, { inbox := [(peerRequests3m, 1)] })] }
def peerRequests4m : FMsg :=
  { dst := 0, src := 77, typ := 3, len := 16, tag := 4660, offset := 16384
    data := [0#8, 1#8, 2#8, 3#8, 4#8, 5#8, 6#8, 7#8, 8#8, 9#8, 10#8, 11#8, 12#8, 13#8, 14#8, 15#8] }
def peerRequests4s : State :=
  { State.reset with ports := [(4, { inbox := [(peerRequests4m, 1)] })], freqs := [(4660, peerRequests4q 0)] }
def peerRequests5m : FMsg :=
  { dst := 0, src := 77, typ := 4, len := 16, tag := 4660, offset := 16384
    data := [0#8, 1#8, 2#8, 3#8, 4#8, 5#8, 6#8, 7#8, 8#8, 9#8, 10#8, 11#8, 12#8, 13#8, 14#8, 15#8] }
def peerRequests5s : State :=
  { State.reset with ports := [(4, { inbox := [(peerRequests5m, 1)] })], freqs := [(4660, peerRequests4q 1)] }
def peerRequests6m : FMsg :=
  { dst := 0, src := 77, typ := 5, len := 16, tag := 4660, offset := 16384
    data := [0#8, 1#8, 2#8, 3#8, 4#8, 5#8, 6#8, 7#8, 8#8, 9#8, 10#8, 11#8, 12#8, 13#8, 14#8, 15#8] }
def peerRequests6s : State :=
  { State.reset with ports := [(4, { inbox := [(peerRequests6m, 1)] })], freqs := [(4660, peerRequests4q 2)] }
def peerRequests7m : FMsg :=
  { dst := 0, src := 77, typ := 7, len := 16, tag := 4660, offset := 16384
    data := [0#8, 1#8, 2#8, 3#8, 4#8, 5#8, 6#8, 7#8, 8#8, 9#8, 10#8, 11#8, 12#8, 13#8, 14#8, 15#8] }
def peerRequests7q : FReq :=
  { sent := 0, node := 77, typ := 6, offset := 16384, len := 16, port := 4, svu := none, deadline := 500000000000, sink := .txGo }
def peerRequests7s : State :=
  { State.reset with ports := [(4, { inbox := [(peerRequests7m, 1)] })], freqs := [(4660, peerRequests7q)] }
def peerRequests8q : FReq :=
  { sent := 0, node := 77, typ := 0, offset := 16384, len := 16, port := 4, svu := none, deadline := 500000000000
    sink := .buffer 9 }
def peerRequests8s : State := { State.reset with now := 5000000000000, freqs := [(4660, peerRequests8q)] }
def peerRequests9m (typ : Nat) : FMsg :=
  { dst := 0, src := 77, typ := typ, len := 16, tag := 4660, offset := 16632
    data := [0#8, 1#8, 2#8, 3#8, 4#8, 5#8, 6#8, 7#8, 8#8, 9#8, 10#8, 11#8, 12#8, 13#8, 14#8, 15#8] }
def peerRequests9s (typ : Nat) : State :=
  { State.reset with
      regs := [(LCS_BOOT, 9223373136366403584#64), (MEMC_STATUS 53, 2#64), (MEMC_STATUS 85, 2#64)]
      ports := [(4, { inbox := [(peerRequests9m typ, 1)] })] }
theorem witness_peerRequests :
  (∃ (p : Port) (s : State) (m : FMsg) (n : ℕ),
  (Waits s (p.val) m n) ∧ (m.typ = 0) ∧ (s.rd LCS_BOOT_READY = 1) ∧ (s.block ReachKind.peer (Requester.peer m.src) m.offset m.len = none) ∧ (m.offset < memTop) ∧ (s.host.dir = []) ∧ (0 < m.len) ∧ (m.offset % 256 + m.len ≤ 256)) ∧
  (∃ (p : Port) (s : State) (m : FMsg) (n : ℕ),
  (Waits s (p.val) m n) ∧ (m.typ = 0) ∧ (s.rd LCS_BOOT_READY = 1) ∧ (s.block ReachKind.peer (Requester.peer m.src) m.offset m.len = none) ∧ (m.offset < memTop) ∧ (s.host.dir = []) ∧ (0 < m.len) ∧ (256 < m.offset % 256 + m.len)) ∧
  (∃ (p : Port) (s : State) (m : FMsg) (n : ℕ),
  (Waits s (p.val) m n) ∧ (m.typ = 1) ∧ (s.rd LCS_BOOT_READY = 1) ∧ (s.block ReachKind.peer (Requester.peer m.src) m.offset m.len = none) ∧ (m.offset < memTop) ∧ (s.host.dir = []) ∧ (0 < m.len) ∧ (m.offset % 256 + m.len ≤ 256)) ∧
  (∃ (p : Port) (s : State) (m : FMsg) (n : ℕ),
  (Waits s (p.val) m n) ∧ (m.typ = 1) ∧ (s.rd LCS_BOOT_READY = 1) ∧ (s.block ReachKind.peer (Requester.peer m.src) m.offset m.len = none) ∧ (m.offset < memTop) ∧ (s.host.dir = []) ∧ (0 < m.len) ∧ (256 < m.offset % 256 + m.len)) ∧
  (∃ (p : Port) (s : State) (m : FMsg) (n : ℕ),
  (Waits s (p.val) m n) ∧ (m.typ = 2) ∧ (leNat (List.take 1 m.data) ≤ 5) ∧ (if leNat (List.take 1 m.data) = 0 ∨ leNat (List.take 1 m.data) = 2 then m.offset % 4 = 0 else m.offset % 8 = 0) ∧ (s.rd LCS_BOOT_READY = 1) ∧ (s.block ReachKind.peer (Requester.peer m.src) m.offset
    (if leNat (List.take 1 m.data) = 0 ∨ leNat (List.take 1 m.data) = 2 then 4 else 8) =
  none) ∧ (m.offset < memTop) ∧ (s.host.dir = []) ∧ (0 < if leNat (List.take 1 m.data) = 0 ∨ leNat (List.take 1 m.data) = 2 then 4 else 8) ∧ ((m.offset % 256 + if leNat (List.take 1 m.data) = 0 ∨ leNat (List.take 1 m.data) = 2 then 4 else 8) ≤ 256)) ∧
  (∃ (p : Port) (s : State) (m : FMsg) (n : ℕ) (id : ℕ) (q : FReq),
  (Waits s (p.val) m n) ∧ (m.typ = 3) ∧ (s.freqs = [(m.tag, q)]) ∧ (q.typ = 0) ∧ (s.routeHeld = []) ∧ (q.sink = Sink.buffer id)) ∧
  (∃ (p : Port) (s : State) (m : FMsg) (n : ℕ) (id : ℕ) (q : FReq),
  (Waits s (p.val) m n) ∧ (m.typ = 4) ∧ (s.freqs = [(m.tag, q)]) ∧ (q.typ = 1) ∧ (s.routeHeld = []) ∧ (q.sink = Sink.buffer id)) ∧
  (∃ (p : Port) (s : State) (m : FMsg) (n : ℕ) (id : ℕ) (q : FReq),
  (Waits s (p.val) m n) ∧ (m.typ = 5) ∧ (s.freqs = [(m.tag, q)]) ∧ (q.typ = 2) ∧ (s.routeHeld = []) ∧ (q.sink = Sink.buffer id)) ∧
  (∃ (p : Port) (s : State) (m : FMsg) (n : Nat) (q : FReq),
  (Waits s p.val m n) ∧ (m.typ = 7) ∧ (s.freqs = [(m.tag, q)]) ∧ (q.typ = 6) ∧ (s.routeHeld = []) ∧ (q.sink = .txGo) ∧ (m.status < 256)) ∧
  (∃ (s : State) (m : FMsg) (id : ℕ) (q : FReq),
  (s.freqs = [(m.tag, q)]) ∧ (q.deadline ≤ s.now) ∧ (s.routeHeld = []) ∧ (q.sink = Sink.buffer id) ∧ (Quiet s srcJfabTimeout) ∧ (First s srcJfabTimeout)) :=
  ⟨⟨4, peerRequests1s, peerRequests1m, 1, by decide +kernel⟩,
   ⟨4, peerRequests9s 0, peerRequests9m 0, 1, by decide +kernel⟩,
   ⟨4, peerRequests2s, peerRequests2m, 1, by decide +kernel⟩,
   ⟨4, peerRequests9s 1, peerRequests9m 1, 1, by decide +kernel⟩,
   ⟨4, peerRequests3s, peerRequests3m, 1, by decide +kernel⟩,
   ⟨4, peerRequests4s, peerRequests4m, 1, 9, peerRequests4q 0, by decide +kernel⟩,
   ⟨4, peerRequests5s, peerRequests5m, 1, 9, peerRequests4q 1, by decide +kernel⟩,
   ⟨4, peerRequests6s, peerRequests6m, 1, 9, peerRequests4q 2, by decide +kernel⟩,
   ⟨4, peerRequests7s, peerRequests7m, 1, peerRequests7q, by decide +kernel⟩,
   ⟨peerRequests8s, peerRequests1m, 9, peerRequests8q, by decide +kernel⟩⟩

def fabricMessages1m : FMsg :=
  { dst := 90, src := 4, typ := 0, hops := 2, len := 16, tag := 4660, offset := 16384
    data := [0#8, 1#8, 2#8, 3#8, 4#8, 5#8, 6#8, 7#8, 8#8, 9#8, 10#8, 11#8, 12#8, 13#8, 14#8, 15#8] }
def fabricMessages1s : State :=
  { State.reset with
      regs := [(LCS_BOOT, 9223373136366403584#64), (MEMC_PERF_CTL 246, 2#64), (JFAB_ROUTE_PRI 90, 9439544818968559680#64)]
      ports := [(4, { inbox := [(fabricMessages1m, 1)] })] }
def fabricMessages2m : FMsg :=
  { dst := 90, src := 4, typ := 8, len := 16, tag := 4660, offset := 16384
    data := [0#8, 1#8, 2#8, 3#8, 4#8, 5#8, 6#8, 7#8, 8#8, 9#8, 10#8, 11#8, 12#8, 13#8, 14#8, 15#8] }
def fabricMessages2s : State := { State.reset with ports := [(4, { inbox := [(fabricMessages2m, 1)] })] }
def fabricMessages3s : State := { State.reset with regs := [(MEMC_PERF_CTL 244, 2#64), (MEMC_RD_BYTES 256, 9912784519169#64)] }
def fabricMessages4m : FMsg :=
  { dst := 0, src := 77, typ := 8, len := 16, tag := 4660, offset := 16384
    data := [10#8, 0#8, 0#8, 0#8, 0#8, 0#8, 0#8, 0#8, 4#8, 0#8, 4#8, 0#8, 0#8, 0#8, 0#8, 0#8] }
def fabricMessages4s : State :=
  { State.reset with regs := [(MEMC_RD_BYTES 256, 9912784519170#64)], ports := [(4, { inbox := [(fabricMessages4m, 1)] })] }
def fabricMessages5m : FMsg :=
  { dst := 0, src := 77, typ := 8, len := 16, tag := 4660, offset := 16384
    data := [64#8, 84#8, 137#8, 0#8, 0#8, 0#8, 0#8, 0#8, 3#8, 0#8, 4#8, 0#8, 0#8, 0#8, 0#8, 0#8] }
def fabricMessages5s : State :=
  { State.reset with
      regs := [(TIME_EPOCH, 3#64), (MEMC_RD_BYTES 256, 9912784519170#64)], ports := [(4, { inbox := [(fabricMessages5m, 1)] })] }
def fabricMessages6m : FMsg :=
  { dst := 0, src := 77, typ := 8, len := 16, tag := 4660, offset := 16384
    data := [10#8, 0#8, 0#8, 0#8, 0#8, 0#8, 0#8, 0#8, 3#8, 0#8, 4#8, 0#8, 0#8, 0#8, 0#8, 0#8] }
def fabricMessages6s : State :=
  { State.reset with
      regs := [(TIME_NOW, 5000000#64), (TIME_EPOCH, 3#64), (MEMC_RD_BYTES 256, 9912784519170#64)]
      ports := [(4, { inbox := [(fabricMessages6m, 1)] })] }
def fabricMessages7m : FMsg :=
  { dst := 0, src := 77, typ := 8, len := 16, tag := 4660, offset := 16384
    data := [10#8, 0#8, 0#8, 0#8, 0#8, 0#8, 0#8, 0#8, 2#8, 0#8, 4#8, 0#8, 0#8, 0#8, 0#8, 0#8] }
def fabricMessages7s : State :=
  { State.reset with
      regs := [(TIME_EPOCH, 3#64), (MEMC_RD_BYTES 256, 9912784519170#64)], ports := [(4, { inbox := [(fabricMessages7m, 1)] })] }
def fabricMessages8m : FMsg :=
  { dst := 0, src := 77, typ := 9, len := 8, tag := 4660, offset := 16384, data := [5#8, 0#8, 0#8, 0#8, 0#8, 0#8, 0#8, 0#8] }
def fabricMessages8f : FReq :=
  { sent := 0, node := 77, typ := 1, offset := 16384, len := 16, port := 4, svu := none, deadline := 500000000000, sink := .none }
def fabricMessages8s : State :=
  { State.reset with
      ports := [(4, { inbox := [(fabricMessages8m, 1)] })], freqs := [(3, fabricMessages8f)], nodeBoot := [(77, 5)] }
theorem witness_fabricMessages :
  (∃ (p : Port) (s : State) (m : FMsg) (n : Nat) (q : Nat),
  ((s.port p.val).inbox = [(m, n)]) ∧ (m.dst ≠ s.node) ∧ (m.hops ≠ 0) ∧ (s.rd LCS_BOOT_READY = 1) ∧ (s.routePort m.dst m.src (routeG m.typ m.offset) = some q) ∧ (q ≠ p.val) ∧ (Sends s q (vcOf m.typ)) ∧ (m.bytes.length ≤ 240)) ∧
  (∃ (p : Port) (s : State) (m : FMsg) (n : Nat),
  ((s.port p.val).inbox = [(m, n)]) ∧ (m.dst ≠ s.node) ∧ (m.hops = 0) ∧ (m.typ ∉ [0, 1, 2, 6]) ∧ (Quiet s srcJfabHops) ∧ (First s srcJfabHops)) ∧
  (∃ (p : Port) (s : State),
  (Sends s p.val 3) ∧ (s.rd JFAB_TIME_SOURCE ≠ 0)) ∧
  (∃ (p : Port) (s : State) (m : FMsg) (n : Nat),
  let time := leNat (m.data.take 8) + s.rd (JP_STAT_DELAY p.val)
  let epoch := leNat (m.data.drop 8) % 2 ^ 16
  let mine := s.rd TIME_EPOCH_EPOCH
  (Waits s p.val m n) ∧ (m.typ = 8) ∧ (m.data.length = 16) ∧ (s.rd JFAB_TIME_SOURCE = 2) ∧ (s.rd JFAB_TIME_UP_PORT = p.val) ∧ (time < 2 ^ 64) ∧ (mine < epoch)) ∧
  (∃ (p : Port) (s : State) (m : FMsg) (n : Nat),
  let time := leNat (m.data.take 8) + s.rd (JP_STAT_DELAY p.val)
  let epoch := leNat (m.data.drop 8) % 2 ^ 16
  let mine := s.rd TIME_EPOCH_EPOCH
  (Waits s p.val m n) ∧ (m.typ = 8) ∧ (m.data.length = 16) ∧ (s.rd JFAB_TIME_SOURCE = 2) ∧ (s.rd JFAB_TIME_UP_PORT = p.val) ∧ (time < 2 ^ 64) ∧ (epoch = mine) ∧ (s.rd TIME_NOW_NS + 1000000 < time)) ∧
  (∃ (p : Port) (s : State) (m : FMsg) (n : Nat),
  let time := leNat (m.data.take 8) + s.rd (JP_STAT_DELAY p.val)
  let epoch := leNat (m.data.drop 8) % 2 ^ 16
  let mine := s.rd TIME_EPOCH_EPOCH
  (Waits s p.val m n) ∧ (m.typ = 8) ∧ (m.data.length = 16) ∧ (s.rd JFAB_TIME_SOURCE = 2) ∧ (s.rd JFAB_TIME_UP_PORT = p.val) ∧ (time < 2 ^ 64) ∧ (epoch = mine) ∧ (time < s.rd TIME_NOW_NS) ∧ (s.rd TIME_NOW_NS < time + 2 ^ 32)) ∧
  (∃ (p : Port) (s : State) (m : FMsg) (n : Nat),
  let time := leNat (m.data.take 8) + s.rd (JP_STAT_DELAY p.val)
  let epoch := leNat (m.data.drop 8) % 2 ^ 16
  let mine := s.rd TIME_EPOCH_EPOCH
  (Waits s p.val m n) ∧ (m.typ = 8) ∧ (m.data.length = 16) ∧ (s.rd JFAB_TIME_SOURCE = 2) ∧ (s.rd JFAB_TIME_UP_PORT = p.val) ∧ (time < 2 ^ 64) ∧ (epoch < mine)) ∧
  (∃ (p : Port) (s : State) (m : FMsg) (n : Nat) (t0 : Nat) (f : FReq),
  (Waits s p.val m n) ∧ (m.typ = 9) ∧ (s.freqs = [(t0, f)]) ∧ (s.routeHeld = []) ∧ (f.sink = .none) ∧ ((tabFind s.nodeBoot m.src).isSome = true)) ∧
  (∃ (s : State) (node : Node) (alt : Bool) (ms : Master) (v : Word),
  let off := if alt then JFAB_ROUTE_ALT node.val else JFAB_ROUTE_PRI node.val
  (s.fw0 ms = true) ∧ (Reaches s (whole ms v) off) ∧ (Quiet s 637)) :=
  ⟨⟨4, fabricMessages1s, fabricMessages1m, 1, 6, by decide +kernel⟩,
   ⟨4, fabricMessages2s, fabricMessages2m, 1, by decide +kernel⟩,
   ⟨4, fabricMessages3s, by decide +kernel⟩,
   ⟨4, fabricMessages4s, fabricMessages4m, 1, by decide +kernel⟩,
   ⟨4, fabricMessages5s, fabricMessages5m, 1, by decide +kernel⟩,
   ⟨4, fabricMessages6s, fabricMessages6m, 1, by decide +kernel⟩,
   ⟨4, fabricMessages7s, fabricMessages7m, 1, by decide +kernel⟩,
   ⟨4, fabricMessages8s, fabricMessages8m, 1, 3, fabricMessages8f, by decide +kernel⟩,
   ⟨State.reset, 90, false, .core 24 2, 9439544818968559680#64, by decide +kernel⟩⟩

def fabricBuffers1m : FMsg :=
  { dst := 0, src := 77, typ := 6, len := 16, tag := 4660, last := true, pool := 5
    data := [0#8, 1#8, 2#8, 3#8, 4#8, 5#8, 6#8, 7#8, 8#8, 9#8, 10#8, 11#8, 12#8, 13#8, 14#8, 15#8] }
def fabricBuffers1s : State :=
  { State.reset with
      regs := [(BMV_CMD 65, 9225623836668461056#64), (LCS_BOOT, 9223373136366403584#64), (MEMC_STATUS 0, 2#64),
               (MEMC_STATUS 1, 2#64), (MEMC_WEAR 256, 9584504431974547460#64)]
      pools := [(5, { free := [3, 4, 7] })], ports := [(4, { inbox := [(fabricBuffers1m, 1)] })] }
def fabricBuffers2frame : List Byte :=
  [20#8, 21#8, 22#8, 23#8, 24#8, 25#8, 26#8, 27#8, 28#8, 29#8, 30#8, 31#8, 32#8, 33#8, 34#8, 35#8, 36#8, 37#8, 38#8, 39#8, 40#8,
   41#8, 42#8, 43#8, 44#8, 45#8, 46#8, 47#8, 48#8, 49#8, 50#8, 51#8, 52#8, 53#8, 54#8, 55#8, 56#8, 57#8, 58#8, 59#8, 60#8, 61#8,
   62#8, 63#8, 64#8, 65#8, 66#8, 67#8, 68#8, 69#8, 70#8, 71#8, 72#8, 73#8, 74#8, 75#8, 76#8, 77#8, 78#8, 79#8, 80#8, 81#8, 82#8,
   83#8]
def fabricBuffers2s : State :=
  { State.reset with
      regs := [(BMV_CMD 65, 9225623836668461056#64), (MEMC_STATUS 1, 2#64), (MEMC_STATUS 17, 514#64), (MEMC_STATUS 244, 256#64),
               (MEMC_PERF_CTL 244, 2#64), (MEMC_WR_BYTES 244, 42949672960#64), (MEMC_WEAR 256, 9584504431974547460#64),
               (MEMC_INJECT 256, 36864#64)]
      pools := [(5, { free := [3, 4, 7] })] }
def fabricBuffers4frame : List Byte := List.replicate 12 0#8 ++ [136#8, 247#8] ++ List.replicate 50 0#8
def fabricBuffers3s : State := { State.reset with regs := [(MEMC_STATUS 244, 256#64), (MEMC_PERF_CTL 244, 2#64)] }
def fabricBuffers5s : State := { State.reset with ports := [(4, { stamps := [(true, (99, (3, 7))), (false, (5, (5, 5)))] })] }
def fabricBuffers7s : State :=
  { State.reset with regs := [(MEMC_WR_BYTES 256, 9223372036854775808#64), (MEMC_GRANTS 256, 4611686018427387904#64)] }
theorem witness_fabricBuffers :
  (∃ (p : Port) (s : State) (m : FMsg) (n : ℕ) (q : ℕ) (i : ℕ) (free : List ℕ),
  (Waits s (p.val) m n) ∧ (m.typ = 6) ∧ (m.src < 1024) ∧ (m.offset = 0) ∧ (m.last = true) ∧ (m.poison = false) ∧ (s.rxMsgs = []) ∧ (s.rd LCS_BOOT_READY = 1) ∧ (List.find? (fun k => s.rd (JFAB_RXQ_CFG_EN k) == 1 && s.rd (JFAB_RXQ_CFG_POOL k) == m.pool) (List.range 8) = some q) ∧ (s.rd (JFAB_RXQ_CFG_EN q) = 1) ∧ ((s.rd (JFAB_RXQ_PTR_POSTED q) + 2 ^ 32 - s.rd (JFAB_RXQ_PTR_CONSUMED q)) % 2 ^ 32 < 2 ^ s.rd (JFAB_RXQ_CFG_LOG2 q)) ∧ (s.rd (BMV_POOL_CFG_ENABLE (s.rd (JFAB_RXQ_CFG_POOL q))) = 1) ∧ ((s.pool (s.rd (JFAB_RXQ_CFG_POOL q))).free = i :: free) ∧ (i < 2 ^ 18) ∧ (m.data.length ≤ 2 ^ s.rd (BMV_POOL_CFG_SIZE (s.rd (JFAB_RXQ_CFG_POOL q)))) ∧ (tabGet (s.pool (s.rd (JFAB_RXQ_CFG_POOL q))).gen 0 i < 256) ∧ (memWf s.mem = true) ∧ (Plain s
  (s.rd (BMV_POOL_BUF_BASE (s.rd (JFAB_RXQ_CFG_POOL q))) +
    i * 2 ^ s.rd (BMV_POOL_CFG_SIZE (s.rd (JFAB_RXQ_CFG_POOL q))))
  m.data.length) ∧ (Plain s (s.rd (JFAB_RXQ_BASE_BASE q) + 16 * (s.rd (JFAB_RXQ_PTR_POSTED q) % 2 ^ s.rd (JFAB_RXQ_CFG_LOG2 q))) 16) ∧ (s.rd (BMV_POOL_BUF_BASE (s.rd (JFAB_RXQ_CFG_POOL q))) + i * 2 ^ s.rd (BMV_POOL_CFG_SIZE (s.rd (JFAB_RXQ_CFG_POOL q))) +
      m.data.length ≤
    s.rd (JFAB_RXQ_BASE_BASE q) + 16 * (s.rd (JFAB_RXQ_PTR_POSTED q) % 2 ^ s.rd (JFAB_RXQ_CFG_LOG2 q)) ∨
  s.rd (JFAB_RXQ_BASE_BASE q) + 16 * (s.rd (JFAB_RXQ_PTR_POSTED q) % 2 ^ s.rd (JFAB_RXQ_CFG_LOG2 q)) + 16 ≤
    s.rd (BMV_POOL_BUF_BASE (s.rd (JFAB_RXQ_CFG_POOL q))) +
      i * 2 ^ s.rd (BMV_POOL_CFG_SIZE (s.rd (JFAB_RXQ_CFG_POOL q)))) ∧ ((s.rd (BMV_POOL_BUF_BASE (s.rd (JFAB_RXQ_CFG_POOL q))) +
      i * 2 ^ s.rd (BMV_POOL_CFG_SIZE (s.rd (JFAB_RXQ_CFG_POOL q)))) /
    64 ≠
  (s.rd (JFAB_RXQ_BASE_BASE q) + 16 * (s.rd (JFAB_RXQ_PTR_POSTED q) % 2 ^ s.rd (JFAB_RXQ_CFG_LOG2 q))) / 64) ∧ (s.block ReachKind.peer (Requester.peer s.node)
    (s.rd (BMV_POOL_BUF_BASE (s.rd (JFAB_RXQ_CFG_POOL q))) +
      i * 2 ^ s.rd (BMV_POOL_CFG_SIZE (s.rd (JFAB_RXQ_CFG_POOL q))))
    m.data.length =
  none) ∧ (s.block ReachKind.peer (Requester.peer s.node)
    (s.rd (JFAB_RXQ_BASE_BASE q) + 16 * (s.rd (JFAB_RXQ_PTR_POSTED q) % 2 ^ s.rd (JFAB_RXQ_CFG_LOG2 q)) + 8) 8 =
  none) ∧ (s.block ReachKind.peer (Requester.peer s.node)
    (s.rd (JFAB_RXQ_BASE_BASE q) + 16 * (s.rd (JFAB_RXQ_PTR_POSTED q) % 2 ^ s.rd (JFAB_RXQ_CFG_LOG2 q))) 8 =
  none) ∧ (s.rd
    (MEMC_INJECT_ARM
      (channelOf
        (s.rd (JFAB_RXQ_BASE_BASE q) + 16 * (s.rd (JFAB_RXQ_PTR_POSTED q) % 2 ^ s.rd (JFAB_RXQ_CFG_LOG2 q))))) =
  0) ∧ (s.routePort m.src s.node 0 = none)) ∧
  (∃ (p : Port) (s : State) (q : ℕ) (i : ℕ) (free : List ℕ) (frame : List Byte),
  (s.rd (JP_STAT_STATE p.val) = 2) ∧ (s.rd (JP_CFG_MODE p.val) = 1) ∧ (frame.length ≤ 9216) ∧ ((s.port p.val).ethFrames = []) ∧ (frame.length ≤ s.rd (JP_ETH_WM_THRESH p.val) * 1024) ∧ (s.rd (JP_ETH_WM_LEVEL p.val) = 0) ∧ (s.rd (JP_ETH_CFG_TRANSPORT_EN p.val) = 0) ∧ (s.rd (JP_ETH_CFG_RXQ_EN p.val) = 1) ∧ (s.rd (JP_ETH_CFG_RXQ p.val) = q) ∧ (s.rd (JFAB_RXQ_CFG_EN q) = 1) ∧ ((s.rd (JFAB_RXQ_PTR_POSTED q) + 2 ^ 32 - s.rd (JFAB_RXQ_PTR_CONSUMED q)) % 2 ^ 32 < 2 ^ s.rd (JFAB_RXQ_CFG_LOG2 q)) ∧ (s.rd (BMV_POOL_CFG_ENABLE (s.rd (JFAB_RXQ_CFG_POOL q))) = 1) ∧ ((s.pool (s.rd (JFAB_RXQ_CFG_POOL q))).free = i :: free) ∧ (i < 2 ^ 18) ∧ (frame.length ≤ 2 ^ s.rd (BMV_POOL_CFG_SIZE (s.rd (JFAB_RXQ_CFG_POOL q)))) ∧ (tabGet (s.pool (s.rd (JFAB_RXQ_CFG_POOL q))).gen 0 i < 256) ∧ (memWf s.mem = true) ∧ (Plain s
  (s.rd (BMV_POOL_BUF_BASE (s.rd (JFAB_RXQ_CFG_POOL q))) +
    i * 2 ^ s.rd (BMV_POOL_CFG_SIZE (s.rd (JFAB_RXQ_CFG_POOL q))))
  frame.length) ∧ (Plain s (s.rd (JFAB_RXQ_BASE_BASE q) + 16 * (s.rd (JFAB_RXQ_PTR_POSTED q) % 2 ^ s.rd (JFAB_RXQ_CFG_LOG2 q))) 16) ∧ (s.rd (BMV_POOL_BUF_BASE (s.rd (JFAB_RXQ_CFG_POOL q))) + i * 2 ^ s.rd (BMV_POOL_CFG_SIZE (s.rd (JFAB_RXQ_CFG_POOL q))) +
      frame.length ≤
    s.rd (JFAB_RXQ_BASE_BASE q) + 16 * (s.rd (JFAB_RXQ_PTR_POSTED q) % 2 ^ s.rd (JFAB_RXQ_CFG_LOG2 q)) ∨
  s.rd (JFAB_RXQ_BASE_BASE q) + 16 * (s.rd (JFAB_RXQ_PTR_POSTED q) % 2 ^ s.rd (JFAB_RXQ_CFG_LOG2 q)) + 16 ≤
    s.rd (BMV_POOL_BUF_BASE (s.rd (JFAB_RXQ_CFG_POOL q))) +
      i * 2 ^ s.rd (BMV_POOL_CFG_SIZE (s.rd (JFAB_RXQ_CFG_POOL q)))) ∧ ((s.rd (BMV_POOL_BUF_BASE (s.rd (JFAB_RXQ_CFG_POOL q))) +
      i * 2 ^ s.rd (BMV_POOL_CFG_SIZE (s.rd (JFAB_RXQ_CFG_POOL q)))) /
    64 ≠
  (s.rd (JFAB_RXQ_BASE_BASE q) + 16 * (s.rd (JFAB_RXQ_PTR_POSTED q) % 2 ^ s.rd (JFAB_RXQ_CFG_LOG2 q))) / 64) ∧ (s.block ReachKind.peer (Requester.peer s.node)
    (s.rd (BMV_POOL_BUF_BASE (s.rd (JFAB_RXQ_CFG_POOL q))) +
      i * 2 ^ s.rd (BMV_POOL_CFG_SIZE (s.rd (JFAB_RXQ_CFG_POOL q))))
    frame.length =
  none) ∧ (s.block ReachKind.peer (Requester.peer s.node)
    (s.rd (JFAB_RXQ_BASE_BASE q) + 16 * (s.rd (JFAB_RXQ_PTR_POSTED q) % 2 ^ s.rd (JFAB_RXQ_CFG_LOG2 q)) + 8) 8 =
  none) ∧ (s.block ReachKind.peer (Requester.peer s.node)
    (s.rd (JFAB_RXQ_BASE_BASE q) + 16 * (s.rd (JFAB_RXQ_PTR_POSTED q) % 2 ^ s.rd (JFAB_RXQ_CFG_LOG2 q))) 8 =
  none) ∧ (s.rd
    (MEMC_INJECT_ARM
      (channelOf
        (s.rd (JFAB_RXQ_BASE_BASE q) + 16 * (s.rd (JFAB_RXQ_PTR_POSTED q) % 2 ^ s.rd (JFAB_RXQ_CFG_LOG2 q))))) =
  0)) ∧
  (∃ (p : Port) (s : State) (frame : List Byte),
  (s.rd (JP_STAT_STATE p.val) = 2) ∧ (s.rd (JP_CFG_MODE p.val) = 1) ∧ (frame.length ≤ 9216) ∧ ((s.port p.val).ethFrames = []) ∧ (frame.length ≤ s.rd (JP_ETH_WM_THRESH p.val) * 1024) ∧ (s.rd (JP_ETH_WM_LEVEL p.val) = 0) ∧ (s.rd (JP_ETH_CFG_TRANSPORT_EN p.val) = 0) ∧ (s.rd (JP_ETH_CFG_RXQ_EN p.val) = 0) ∧ (ptpStart frame = none)) ∧
  (∃ (p : Port) (s : State) (frame : List Byte),
  (s.rd (JP_STAT_STATE p.val) = 2) ∧ (s.rd (JP_CFG_MODE p.val) = 1) ∧ (frame.length ≤ 9216) ∧ ((s.port p.val).ethFrames = []) ∧ (frame.length ≤ s.rd (JP_ETH_WM_THRESH p.val) * 1024) ∧ (s.rd (JP_ETH_WM_LEVEL p.val) = 0) ∧ (s.rd (JP_ETH_CFG_TRANSPORT_EN p.val) = 0) ∧ (s.rd (JP_ETH_CFG_RXQ_EN p.val) = 0) ∧ ((ptpStart frame).isSome = true) ∧ ((s.port p.val).stamps.length < 16)) ∧
  (∃ (p : Port) (s : State) (ms : Master) (tx : Bool) (t0 : ℕ) (e0 : ℕ) (s0 : ℕ) (rest : List (Bool × ℕ × ℕ × ℕ)),
  (s.regBlocked ms (JP_PTP_INFO p.val) 8 = none) ∧ (ms = Master.host → s.hostUp = true) ∧ (s.lockedFor ms (JP_PTP_INFO p.val) = false) ∧ (s.mxc = []) ∧ ((s.port p.val).stamps = (tx, t0, e0, s0) :: rest)) ∧
  (∃ (s : State) (ms : Master) (v : Word),
  (s.fw0 ms = true) ∧ (Reaches s (whole ms v) JFAB_TX_GO) ∧ (s.rd JFAB_TX_STAT_BUSY = 0) ∧ (s.allocated (v.toNat % 2 ^ 32) = false)) ∧
  (∃ (s : State),
  (s.rd JFAB_TX_STAT_BUSY = 1) ∧ (s.rd JFAB_TX_DEST_ETH = 1) ∧ (s.freqs.all (fun x => x.2.sink != .txGo) = true)) :=
  ⟨⟨4, fabricBuffers1s, fabricBuffers1m, 1, 2, 3, [4, 7], by decide +kernel⟩,
   ⟨4, fabricBuffers2s, 2, 3, [4, 7], fabricBuffers2frame, by decide +kernel⟩,
   ⟨4, fabricBuffers3s, fabricBuffers2frame, by decide +kernel⟩,
   ⟨4, fabricBuffers3s, fabricBuffers4frame, by decide +kernel⟩,
   ⟨4, fabricBuffers5s, .core 24 2, true, 99, 3, 7, [(false, (5, (5, 5)))], by decide +kernel⟩,
   ⟨State.reset, .core 24 2, 0#64, by decide +kernel⟩,
   ⟨fabricBuffers7s, by decide +kernel⟩⟩

def fabricSends1s : State :=
  { State.reset with
      regs := [(BMV_POOL_BUF 5, 65536#64), (BMV_CMD 65, 9225623836668461056#64), (MEMC_STATUS 52, 1538#64),
               (MEMC_PERF_CTL 246, 2#64), (MEMC_WR_BYTES 256, 1689236407451648#64), (JFAB_ROUTE_PRI 90, 9439544818968559680#64)]
      pools := [(5, { gen := [(3, 9)], owner := [(3, 3)] })] }
def fabricSends2s : State :=
  { State.reset with
      regs := [(BMV_POOL_BUF 5, 65536#64), (BMV_CMD 65, 9225623836668461056#64), (MEMC_STATUS 52, 1538#64),
               (MEMC_STATUS 246, 256#64), (MEMC_PERF_CTL 246, 2#64), (MEMC_WR_BYTES 256, 9225061273262227456#64)]
      pools := [(5, { gen := [(3, 9)], owner := [(3, 3)] })] }
theorem witness_fabricSends :
  (∃ (s : State) (ms : Master) (v : Word) (q : ℕ) (tag : ℕ),
  (s.fw0 ms = true) ∧ (Reaches s (whole ms v) JFAB_TX_GO) ∧ (s.rd JFAB_TX_STAT_BUSY = 0) ∧ (s.allocated (BitVec.toNat v % 2 ^ 32) = true) ∧ (BitVec.toNat v / 2 ^ 32 % 2 ^ 17 ≤ 2 ^ s.rd (BMV_POOL_CFG_SIZE (BitVec.toNat v % 2 ^ 32 / 2 ^ 26))) ∧ (Plain s
  (s.rd (BMV_POOL_BUF_BASE (BitVec.toNat v % 2 ^ 32 / 2 ^ 26)) +
    BitVec.toNat v % 2 ^ 32 / 2 ^ 8 % 2 ^ 18 * 2 ^ s.rd (BMV_POOL_CFG_SIZE (BitVec.toNat v % 2 ^ 32 / 2 ^ 26)))
  (BitVec.toNat v / 2 ^ 32 % 2 ^ 17)) ∧ (s.block ReachKind.peer (Requester.peer s.node)
    (s.rd (BMV_POOL_BUF_BASE (BitVec.toNat v % 2 ^ 32 / 2 ^ 26)) +
      BitVec.toNat v % 2 ^ 32 / 2 ^ 8 % 2 ^ 18 * 2 ^ s.rd (BMV_POOL_CFG_SIZE (BitVec.toNat v % 2 ^ 32 / 2 ^ 26)))
    (BitVec.toNat v / 2 ^ 32 % 2 ^ 17) =
  none) ∧ (NoneWaits s agentTx) ∧ (s.rd JFAB_TX_DEST_ETH = 0) ∧ (s.rd JFAB_TX_DEST_NODE ≠ s.node) ∧ (s.freqs = []) ∧ (s.tagCool = []) ∧ (s.routeOld = []) ∧ (s.tagNext = tag) ∧ (tag < 2 ^ 16) ∧ (s.routePort (s.rd JFAB_TX_DEST_NODE) s.node 0 = some q) ∧ (Sends s q 2)) ∧
  (∃ (s : State) (ms : Master) (v : Word),
  (s.fw0 ms = true) ∧ (Reaches s (whole ms v) JFAB_TX_GO) ∧ (s.rd JFAB_TX_STAT_BUSY = 0) ∧ (s.allocated (BitVec.toNat v % 2 ^ 32) = true) ∧ (BitVec.toNat v / 2 ^ 32 % 2 ^ 17 ≤ 2 ^ s.rd (BMV_POOL_CFG_SIZE (BitVec.toNat v % 2 ^ 32 / 2 ^ 26))) ∧ (Plain s
  (s.rd (BMV_POOL_BUF_BASE (BitVec.toNat v % 2 ^ 32 / 2 ^ 26)) +
    BitVec.toNat v % 2 ^ 32 / 2 ^ 8 % 2 ^ 18 * 2 ^ s.rd (BMV_POOL_CFG_SIZE (BitVec.toNat v % 2 ^ 32 / 2 ^ 26)))
  (BitVec.toNat v / 2 ^ 32 % 2 ^ 17)) ∧ (s.block ReachKind.peer (Requester.peer s.node)
    (s.rd (BMV_POOL_BUF_BASE (BitVec.toNat v % 2 ^ 32 / 2 ^ 26)) +
      BitVec.toNat v % 2 ^ 32 / 2 ^ 8 % 2 ^ 18 * 2 ^ s.rd (BMV_POOL_CFG_SIZE (BitVec.toNat v % 2 ^ 32 / 2 ^ 26)))
    (BitVec.toNat v / 2 ^ 32 % 2 ^ 17) =
  none) ∧ (NoneWaits s agentTx) ∧ (s.rd JFAB_TX_DEST_ETH = 1) ∧ (s.rd (JP_CFG_MODE (s.rd JFAB_TX_DEST_PORT)) = 1) ∧ (s.rd (JP_STAT_STATE (s.rd JFAB_TX_DEST_PORT)) = 2) ∧ (ptpStart
    (s.peek
      (s.rd (BMV_POOL_BUF_BASE (BitVec.toNat v % 2 ^ 32 / 2 ^ 26)) +
        BitVec.toNat v % 2 ^ 32 / 2 ^ 8 % 2 ^ 18 * 2 ^ s.rd (BMV_POOL_CFG_SIZE (BitVec.toNat v % 2 ^ 32 / 2 ^ 26)))
      (BitVec.toNat v / 2 ^ 32 % 2 ^ 17)) =
  none)) :=
  ⟨⟨fabricSends1s, .core 24 2, 69055021833#64, 6, 0, by decide +kernel⟩,
   ⟨fabricSends2s, .core 24 2, 69055021833#64, by decide +kernel⟩⟩

def inputAndLevel2s : State := { State.reset with power := { off := true } }
def inputAndLevel4q : LiftReq := { chain := 5, since := 100, timer := 200 }
def inputAndLevel4s : State :=
  { State.reset with regs := [(PWR_ENV, 0#64)], power := { waiting := [inputAndLevel4q], rules := true } }
def inputAndLevel5s : State := { State.reset with regs := [(CLK_PLL 1, 2#64)], power := { rules := true } }
theorem witness_inputAndLevel :
  (∃ (s : State),
  (s.power.off = true)) ∧
  (∃ (s : State),
  (s.power.off = false) ∧ (Unloaded s)) ∧
  (∃ (s : State) (q : LiftReq) (rest : List LiftReq),
  (s.power.waiting = q :: rest) ∧ (s.power.rules = true) ∧ (s.level < 3)) ∧
  (∃ (s : State),
  (s.mayRaise = true)) ∧
  (∃ (s : State),
  (s.power.stalled = false)) ∧
  (∃ (hot : Nat) (i : Instr),
  (i ∈ [.throttle hot, .throttleRepeat hot])) ∧
  (∃ (s : State) (m : Master) (v : Word),
  (s.fwOrInstaller m = true) ∧ (Reaches s (whole m v) PWR_LIMIT) ∧ (Unloaded s)) :=
  ⟨⟨inputAndLevel2s, by decide +kernel⟩,
   ⟨State.reset, by decide +kernel⟩,
   ⟨inputAndLevel4s, inputAndLevel4q, [], by decide +kernel⟩,
   ⟨inputAndLevel5s, by decide +kernel⟩,
   ⟨State.reset, by decide +kernel⟩,
   ⟨50, .throttle 50, by decide +kernel⟩,
   ⟨State.reset, .core 24 2, 0#64, by decide +kernel⟩⟩

def domains2s : State := { State.reset with regs := [(LCS_UPDATE, 140737488355328#64)] }
def domains3s : State := { State.reset with power := { vin := 0 } }
def domains6s : State := { State.reset with regs := [(PWR_DOMAIN_LO, 1152921504606846976#64)] }
def domains7s : State := { State.reset with power := { domWait := [(0, true)] } }
def domains8s : State := { State.reset with power := { domWait := [(0, false)] } }
def domains9s : State := { State.reset with power := { flashIdle := 77777 } }
theorem witness_domains :
  (∃ (s : State) (m : Master) (d : Nat) (on : Bool),
  let w := fun n : Nat => BitVec.ofNat 64 (n + if on then 256 else 0)
  let free := Fw0 s m (w d) PWR_DOMAIN_REQ ∧ s.rd PWR_DOMAIN_REQ_BUSY = 0
  (free) ∧ (79 < d) ∧ (d < 128)) ∧
  (∃ (s : State) (m : Master) (d : Nat) (on : Bool),
  let w := fun n : Nat => BitVec.ofNat 64 (n + if on then 256 else 0)
  let free := Fw0 s m (w d) PWR_DOMAIN_REQ ∧ s.rd PWR_DOMAIN_REQ_BUSY = 0
  let busy := d < 24 ∧ (s.rangesOn (rangeFrom (4 * d) 4) ≠ [] ∨ s.loftsOn (rangeFrom (4 * d) 4) ≠ []) ∨ d = 77
      ∨ d = 79 ∧ s.rd LCS_UPDATE_OPEN = 1
  (free) ∧ (d ≤ 79) ∧ (on = false) ∧ (busy)) ∧
  (∃ (s : State) (m : Master) (d : Nat) (on : Bool),
  let w := fun n : Nat => BitVec.ofNat 64 (n + if on then 256 else 0)
  let free := Fw0 s m (w d) PWR_DOMAIN_REQ ∧ s.rd PWR_DOMAIN_REQ_BUSY = 0
  let short := (s.envelope : Rat) < s.floorW + ((domainFloor d : Nat) : Rat) / 100
  (free) ∧ (d ≤ 79) ∧ (on = true) ∧ (s.domainOn d = false) ∧ (short)) ∧
  (∃ (s : State) (m : Master) (d : Nat) (on : Bool),
  let w := fun n : Nat => BitVec.ofNat 64 (n + if on then 256 else 0)
  let free := Fw0 s m (w d) PWR_DOMAIN_REQ ∧ s.rd PWR_DOMAIN_REQ_BUSY = 0
  let busy := d < 24 ∧ (s.rangesOn (rangeFrom (4 * d) 4) ≠ [] ∨ s.loftsOn (rangeFrom (4 * d) 4) ≠ []) ∨ d = 77
      ∨ d = 79 ∧ s.rd LCS_UPDATE_OPEN = 1
  (free) ∧ (d ≤ 79) ∧ (s.domainOn d = on) ∧ ((if on then s.floorW ≤ (s.envelope : Rat) else ¬ busy))) ∧
  (∃ (s : State) (m : Master) (d : Nat) (on : Bool),
  let w := fun n : Nat => BitVec.ofNat 64 (n + if on then 256 else 0)
  let free := Fw0 s m (w d) PWR_DOMAIN_REQ ∧ s.rd PWR_DOMAIN_REQ_BUSY = 0
  let short := (s.envelope : Rat) < s.floorW + ((domainFloor d : Nat) : Rat) / 100
  (free) ∧ (d ≤ 79) ∧ (on = true) ∧ (s.domainOn d = false) ∧ (¬ short)) ∧
  (∃ (s : State) (m : Master) (d : Nat) (on : Bool),
  let w := fun n : Nat => BitVec.ofNat 64 (n + if on then 256 else 0)
  let free := Fw0 s m (w d) PWR_DOMAIN_REQ ∧ s.rd PWR_DOMAIN_REQ_BUSY = 0
  let busy := d < 24 ∧ (s.rangesOn (rangeFrom (4 * d) 4) ≠ [] ∨ s.loftsOn (rangeFrom (4 * d) 4) ≠ []) ∨ d = 77
      ∨ d = 79 ∧ s.rd LCS_UPDATE_OPEN = 1
  (free) ∧ (d ≤ 79) ∧ (on = false) ∧ (s.domainOn d = true) ∧ (¬ busy)) ∧
  (∃ (s : State) (d : Nat),
  (d ≤ 79) ∧ ((d, true) ∈ s.power.domWait) ∧ (s.wakeReady d = true)) ∧
  (∃ (s : State) (d : Nat),
  ((d, false) ∈ s.power.domWait)) ∧
  (∃ (s : State),
  (s.power.flashIdle ≠ 0)) :=
  ⟨⟨State.reset, .core 24 2, 80, true, by decide +kernel⟩,
   ⟨domains2s, .core 24 2, 79, false, by decide +kernel⟩,
   ⟨domains3s, .core 24 2, 0, true, by decide +kernel⟩,
   ⟨State.reset, .core 24 2, 79, true, by decide +kernel⟩,
   ⟨State.reset, .core 24 2, 0, true, by decide +kernel⟩,
   ⟨domains6s, .core 24 2, 60, false, by decide +kernel⟩,
   ⟨domains7s, 0, by decide +kernel⟩,
   ⟨domains8s, 0, by decide +kernel⟩,
   ⟨domains9s, by decide +kernel⟩⟩

def powerStates1s : State := { State.reset with regs := [(PWR_STATE, 3#64)] }
def powerStates3s : State := { State.reset with rings := [(5, { running := [{ words := [], seq := 7 }] })] }
def powerStates5s : State := { State.reset with regs := [(PWR_STATE, 2#64)], power := { vin := 0 } }
def powerStates6s : State := { State.reset with regs := [(PWR_STATE, 1#64)] }
def powerStates7s : State := { State.reset with regs := [(PWR_STATE, 3#64)], power := { target := some (3) } }
def powerStates9s : State := { State.reset with power := { stowed := true } }
theorem witness_powerStates :
  (∃ (s : State) (m : Master) (target : Fin 4) (susp : Bool),
  let w := BitVec.ofNat 64 (512 + target.val + if susp then 256 else 0)
  let now := s.rd PWR_STATE_STATE
  let asks := Fw0 s m w PWR_STATE_REQ
  (asks) ∧ (now = 3)) ∧
  (∃ (s : State) (m : Master) (target : Fin 4) (susp : Bool),
  let w := BitVec.ofNat 64 (512 + target.val + if susp then 256 else 0)
  let now := s.rd PWR_STATE_STATE
  let asks := Fw0 s m w PWR_STATE_REQ
  (asks) ∧ (now < 3) ∧ (target.val = now)) ∧
  (∃ (s : State) (m : Master) (target : Fin 4) (susp : Bool),
  (Fw0 s m (BitVec.ofNat 64 (512 + target.val + if susp = true then 256 else 0)) PWR_STATE_REQ) ∧ (s.rd PWR_STATE_STATE < 3) ∧ (s.rd PWR_STATE_STATE < target.val) ∧ (s.remoteWrite = true ∨ s.otherWork = true ∨ susp = false ∧ s.working = true)) ∧
  (∃ (s : State) (m : Master) (target : Fin 4) (susp : Bool),
  let w := BitVec.ofNat 64 (512 + target.val + if susp then 256 else 0)
  let now := s.rd PWR_STATE_STATE
  let asks := Fw0 s m w PWR_STATE_REQ
  (asks) ∧ (now < 3) ∧ (now < target.val) ∧ (s.remoteWrite = false) ∧ (s.working = false)) ∧
  (∃ (s : State) (m : Master) (target : Fin 4) (susp : Bool),
  (Fw0 s m (BitVec.ofNat 64 (512 + target.val + if susp = true then 256 else 0)) PWR_STATE_REQ) ∧ (s.rd PWR_STATE_STATE < 3) ∧ (s.rd PWR_STATE_STATE < target.val) ∧ (s.remoteWrite = false) ∧ (s.otherWork = false) ∧ (susp = true)) ∧
  (∃ (s : State) (m : Master) (target : Fin 4) (susp : Bool),
  let w := BitVec.ofNat 64 (512 + target.val + if susp then 256 else 0)
  let now := s.rd PWR_STATE_STATE
  let asks := Fw0 s m w PWR_STATE_REQ
  let fits := floorOf (s.targetDomains target.val) ≤ (s.envelope : Rat)
  (asks) ∧ (now < 3) ∧ (target.val < now) ∧ (¬ fits)) ∧
  (∃ (s : State) (m : Master) (target : Fin 4) (susp : Bool),
  let w := BitVec.ofNat 64 (512 + target.val + if susp then 256 else 0)
  let now := s.rd PWR_STATE_STATE
  let asks := Fw0 s m w PWR_STATE_REQ
  let fits := floorOf (s.targetDomains target.val) ≤ (s.envelope : Rat)
  (asks) ∧ (now < 3) ∧ (target.val < now) ∧ (fits)) ∧
  (∃ (s : State) (target : Fin 4),
  let now := s.rd PWR_STATE_STATE
  let rests := s.chains = [] ∧ (List.range 64).all (fun r => (s.ring r).running.isEmpty) = true ∧ s.power.domWait.any (fun x => x.2) = false
  (now = 3) ∧ (rests) ∧ (s.power.target = some target.val)) ∧
  (∃ (s : State),
  let now := s.rd PWR_STATE_STATE
  (s.power.off = false) ∧ (s.power.ripcord = false) ∧ (now ≠ 1) ∧ (now ≠ 2)) ∧
  (∃ (s : State),
  (s.power.ripcord = false) ∧ (s.power.stowed = true)) ∧
  (∃ (s : State) (target : Fin 4),
  let now := s.rd PWR_STATE_STATE
  let fits := floorOf (s.targetDomains target.val) ≤ (s.envelope : Rat)
  (s.power.ripcord = false) ∧ (s.power.stowed = false) ∧ (s.power.off = false) ∧ (now = 1 ∨ now = 2) ∧ (target = 0) ∧ (fits)) ∧
  (∃ (s : State),
  let now := s.rd PWR_STATE_STATE
  (s.power.ripcord = false) ∧ (s.power.stowed = false) ∧ (s.power.off = false) ∧ (now = 0)) :=
  ⟨⟨powerStates1s, .core 24 2, 2, true, by decide +kernel⟩,
   ⟨State.reset, .core 24 2, 0, false, by decide +kernel⟩,
   ⟨powerStates3s, .core 24 2, 1, false, by decide +kernel⟩,
   ⟨State.reset, .core 24 2, 2, true, by decide +kernel⟩,
   ⟨State.reset, .core 24 2, 2, true, by decide +kernel⟩,
   ⟨powerStates5s, .core 24 2, 0, false, by decide +kernel⟩,
   ⟨powerStates6s, .core 24 2, 0, false, by decide +kernel⟩,
   ⟨powerStates7s, 3, by decide +kernel⟩,
   ⟨State.reset, by decide +kernel⟩,
   ⟨powerStates9s, by decide +kernel⟩,
   ⟨powerStates6s, 0, by decide +kernel⟩,
   ⟨State.reset, by decide +kernel⟩⟩

def clocks2s : State := { State.reset with clock := { refLost := true } }
def clocks3s : State := { State.reset with regs := [(CLK_PLL 0, 4294967296003#64)] }
def clocks4s : State := { State.reset with regs := [(CLK_PLL 2, 2#64)] }
theorem witness_clocks :
  (∃ (s : State),
  (s.clock.refLost = false)) ∧
  (∃ (s : State),
  (s.clock.refLost = true)) ∧
  (∃ (s : State) (n : Pll),
  let st := fun t : State => t.rd (CLK_PLL_STATE n.val)
  (s.clock.refLost = false) ∧ (s.pllPowered n.val = true) ∧ (st s = 1 ∨ st s = 3)) ∧
  (∃ (s : State) (n : Pll),
  let st := fun t : State => t.rd (CLK_PLL_STATE n.val)
  (s.clock.refLost = false) ∧ (st s = 2)) :=
  ⟨⟨State.reset, by decide +kernel⟩,
   ⟨clocks2s, by decide +kernel⟩,
   ⟨clocks3s, 0, by decide +kernel⟩,
   ⟨clocks4s, 2, by decide +kernel⟩⟩

def moduleResets2s : State := { State.reset with power := { ripcord := true } }
def moduleResets3s : State := { State.reset with life := {} }
def moduleResets4s : State :=
  { State.reset with
      regs := [(LCS_STATE, 1#64), (LCS_BOOT, 9223372036854775808#64), (MEMC_STATUS 0, 2#64), (MEMC_STATUS 1, 2#64),
               (MEMC_STATUS 2, 2#64), (MEMC_STATUS 3, 2#64), (MEMC_STATUS 4, 2#64), (MEMC_STATUS 5, 2#64), (MEMC_STATUS 6, 2#64),
               (MEMC_STATUS 7, 2#64), (MEMC_STATUS 8, 258#64), (MEMC_STATUS 9, 258#64), (MEMC_STATUS 10, 258#64),
               (MEMC_STATUS 11, 258#64), (MEMC_STATUS 12, 258#64), (MEMC_STATUS 13, 258#64), (MEMC_STATUS 14, 258#64),
               (MEMC_STATUS 15, 258#64), (MEMC_STATUS 16, 514#64), (MEMC_STATUS 17, 514#64), (MEMC_STATUS 18, 514#64),
               (MEMC_STATUS 19, 514#64), (MEMC_STATUS 20, 514#64), (MEMC_STATUS 21, 514#64), (MEMC_STATUS 22, 514#64),
               (MEMC_STATUS 23, 514#64), (MEMC_STATUS 24, 770#64), (MEMC_STATUS 25, 770#64), (MEMC_STATUS 26, 770#64),
               (MEMC_STATUS 27, 770#64), (MEMC_STATUS 28, 770#64), (MEMC_STATUS 29, 770#64), (MEMC_STATUS 30, 770#64),
               (MEMC_STATUS 31, 770#64), (MEMC_STATUS 32, 1026#64), (MEMC_STATUS 33, 1026#64), (MEMC_STATUS 34, 1026#64),
               (MEMC_STATUS 35, 1026#64), (MEMC_STATUS 36, 1026#64), (MEMC_STATUS 37, 1026#64), (MEMC_STATUS 38, 1026#64),
               (MEMC_STATUS 39, 1026#64), (MEMC_STATUS 40, 1282#64), (MEMC_STATUS 41, 1282#64), (MEMC_STATUS 42, 1282#64),
               (MEMC_STATUS 43, 1282#64), (MEMC_STATUS 44, 1282#64), (MEMC_STATUS 45, 1282#64), (MEMC_STATUS 46, 1282#64),
               (MEMC_STATUS 47, 1282#64), (MEMC_STATUS 48, 1538#64), (MEMC_STATUS 49, 1538#64), (MEMC_STATUS 50, 1538#64),
               (MEMC_STATUS 51, 1538#64), (MEMC_STATUS 52, 1538#64), (MEMC_STATUS 53, 1538#64), (MEMC_STATUS 54, 1538#64),
               (MEMC_STATUS 55, 1538#64), (MEMC_STATUS 56, 1794#64), (MEMC_STATUS 57, 1794#64), (MEMC_STATUS 58, 1794#64),
               (MEMC_STATUS 59, 1794#64), (MEMC_STATUS 60, 1794#64), (MEMC_STATUS 61, 1794#64), (MEMC_STATUS 62, 1794#64),
               (MEMC_STATUS 63, 1794#64), (MEMC_STATUS 64, 2050#64), (MEMC_STATUS 65, 2050#64), (MEMC_STATUS 66, 2050#64),
               (MEMC_STATUS 67, 2050#64), (MEMC_STATUS 68, 2050#64), (MEMC_STATUS 69, 2050#64), (MEMC_STATUS 70, 2050#64),
               (MEMC_STATUS 71, 2050#64), (MEMC_STATUS 72, 2306#64), (MEMC_STATUS 73, 2306#64), (MEMC_STATUS 74, 2306#64),
               (MEMC_STATUS 75, 2306#64), (MEMC_STATUS 76, 2306#64), (MEMC_STATUS 77, 2306#64), (MEMC_STATUS 78, 2306#64),
               (MEMC_STATUS 79, 2306#64), (MEMC_STATUS 80, 2562#64), (MEMC_STATUS 81, 2562#64), (MEMC_STATUS 82, 2562#64),
               (MEMC_STATUS 83, 2562#64), (MEMC_STATUS 84, 2562#64), (MEMC_STATUS 85, 2562#64), (MEMC_STATUS 86, 2562#64),
               (MEMC_STATUS 87, 2562#64), (MEMC_STATUS 88, 2818#64), (MEMC_STATUS 89, 2818#64), (MEMC_STATUS 90, 2818#64),
               (MEMC_STATUS 91, 2818#64), (MEMC_STATUS 92, 2818#64), (MEMC_STATUS 93, 2818#64), (MEMC_STATUS 94, 2818#64),
               (MEMC_STATUS 95, 2818#64)]
      life := {} }
def moduleResets5s : State :=
  { State.reset with
      regs := [(LCS_STATE, 1#64), (MEMC_STATUS 0, 2#64), (MEMC_STATUS 1, 2#64), (MEMC_STATUS 2, 2#64), (MEMC_STATUS 3, 2#64),
               (MEMC_STATUS 4, 2#64), (MEMC_STATUS 5, 2#64), (MEMC_STATUS 6, 2#64), (MEMC_STATUS 7, 2#64),
               (MEMC_STATUS 8, 258#64), (MEMC_STATUS 9, 258#64), (MEMC_STATUS 10, 258#64), (MEMC_STATUS 11, 258#64),
               (MEMC_STATUS 12, 258#64), (MEMC_STATUS 13, 258#64), (MEMC_STATUS 14, 258#64), (MEMC_STATUS 15, 258#64),
               (MEMC_STATUS 16, 514#64), (MEMC_STATUS 17, 514#64), (MEMC_STATUS 18, 514#64), (MEMC_STATUS 19, 514#64),
               (MEMC_STATUS 20, 514#64), (MEMC_STATUS 21, 514#64), (MEMC_STATUS 22, 514#64), (MEMC_STATUS 23, 514#64),
               (MEMC_STATUS 24, 770#64), (MEMC_STATUS 25, 770#64), (MEMC_STATUS 26, 770#64), (MEMC_STATUS 27, 770#64),
               (MEMC_STATUS 28, 770#64), (MEMC_STATUS 29, 770#64), (MEMC_STATUS 30, 770#64), (MEMC_STATUS 31, 770#64),
               (MEMC_STATUS 32, 1026#64), (MEMC_STATUS 33, 1026#64), (MEMC_STATUS 34, 1026#64), (MEMC_STATUS 35, 1026#64),
               (MEMC_STATUS 36, 1026#64), (MEMC_STATUS 37, 1026#64), (MEMC_STATUS 38, 1026#64), (MEMC_STATUS 39, 1026#64),
               (MEMC_STATUS 40, 1282#64), (MEMC_STATUS 41, 1282#64), (MEMC_STATUS 42, 1282#64), (MEMC_STATUS 43, 1282#64),
               (MEMC_STATUS 44, 1282#64), (MEMC_STATUS 45, 1282#64), (MEMC_STATUS 46, 1282#64), (MEMC_STATUS 47, 1282#64),
               (MEMC_STATUS 48, 1538#64), (MEMC_STATUS 49, 1538#64), (MEMC_STATUS 50, 1538#64), (MEMC_STATUS 51, 1538#64),
               (MEMC_STATUS 52, 1538#64), (MEMC_STATUS 53, 1538#64), (MEMC_STATUS 54, 1538#64), (MEMC_STATUS 55, 1538#64),
               (MEMC_STATUS 56, 1794#64), (MEMC_STATUS 57, 1794#64), (MEMC_STATUS 58, 1794#64), (MEMC_STATUS 59, 1794#64),
               (MEMC_STATUS 60, 1794#64), (MEMC_STATUS 61, 1794#64), (MEMC_STATUS 62, 1794#64), (MEMC_STATUS 63, 1794#64),
               (MEMC_STATUS 64, 2050#64), (MEMC_STATUS 65, 2050#64), (MEMC_STATUS 66, 2050#64), (MEMC_STATUS 67, 2050#64),
               (MEMC_STATUS 68, 2050#64), (MEMC_STATUS 69, 2050#64), (MEMC_STATUS 70, 2050#64), (MEMC_STATUS 71, 2050#64),
               (MEMC_STATUS 72, 2306#64), (MEMC_STATUS 73, 2306#64), (MEMC_STATUS 74, 2306#64), (MEMC_STATUS 75, 2306#64),
               (MEMC_STATUS 76, 2306#64), (MEMC_STATUS 77, 2306#64), (MEMC_STATUS 78, 2306#64), (MEMC_STATUS 79, 2306#64),
               (MEMC_STATUS 80, 2562#64), (MEMC_STATUS 81, 2562#64), (MEMC_STATUS 82, 2562#64), (MEMC_STATUS 83, 2562#64),
               (MEMC_STATUS 84, 2562#64), (MEMC_STATUS 85, 2562#64), (MEMC_STATUS 86, 2562#64), (MEMC_STATUS 87, 2562#64),
               (MEMC_STATUS 88, 2818#64), (MEMC_STATUS 89, 2818#64), (MEMC_STATUS 90, 2818#64), (MEMC_STATUS 91, 2818#64),
               (MEMC_STATUS 92, 2818#64), (MEMC_STATUS 93, 2818#64), (MEMC_STATUS 94, 2818#64), (MEMC_STATUS 95, 2818#64)]
      life := {} }
set_option maxRecDepth 100000 in
theorem witness_moduleResets :
  (∃ (s : State),
  (s.power.ripcord = false ∨ s.power.vin < 3000)) ∧
  (∃ (s : State),
  (s.power.ripcord = true) ∧ (3000 ≤ s.power.vin)) ∧
  (∃ (s : State) (m : Master) (v : Word),
  (Fw0 s m v RST_MODULE) ∧ (v.toNat % 2 = 1) ∧ (s.life.loading = false) ∧ (s.power.ripcord = false) ∧ (s.power.off = false)) ∧
  (∃ (s : State) (m : Master) (v : Word),
  (Fw0 s m v LCS_BOOT) ∧ (v.toNat / 2 ^ 61 % 2 = 1) ∧ (s.life.loading = false) ∧ (s.readyOk = true) ∧ (s.rd LCS_BOOT_READY = 1)) ∧
  (∃ (s : State) (m : Master) (v : Word),
  (Fw0 s m v LCS_BOOT) ∧ (v.toNat / 2 ^ 61 % 2 = 1) ∧ (s.life.loading = false) ∧ (s.readyOk = true) ∧ (s.rd LCS_BOOT_READY = 0) ∧ (s.routedNodes.filter (fun n => n != s.node) = [])) ∧
  (∃ (s : State) (m : Master) (v : Word),
  (Fw0 s m v LCS_BOOT) ∧ (v.toNat / 2 ^ 61 % 2 = 1) ∧ (s.life.loading = false) ∧ (s.readyOk = false)) ∧
  (∃ (s : State),
  (s.life.loading = false) ∧ (s.rd LCS_BOOT_PHASE < 5)) ∧
  (∃ (s : State) (temp : Nat),
  (115 ≤ temp) ∧ (s.power.off = false)) ∧
  (∃ (temp : Nat),
  (temp < 115)) :=
  ⟨⟨State.reset, by decide +kernel⟩,
   ⟨moduleResets2s, by decide +kernel⟩,
   ⟨moduleResets3s, .core 24 2, 1#64, by decide +kernel⟩,
   ⟨moduleResets4s, .core 24 2, 2305843009213693952#64, by decide +kernel⟩,
   ⟨moduleResets5s, .core 24 2, 2305843009213693952#64, by decide +kernel⟩,
   ⟨moduleResets3s, .core 24 2, 2305843009213693952#64, by decide +kernel⟩,
   ⟨moduleResets3s, by decide +kernel⟩,
   ⟨State.reset, 200, by decide +kernel⟩,
   ⟨5, by decide +kernel⟩⟩

theorem witness_idleStep :
  (∃ (s : State),
  (s.pending = []) ∧ (s.life.loading = false) ∧ (s.life.slewLeft = 0) ∧ (s.rd TIME_NOW_NS < 2 ^ 64 - 1)) :=
  ⟨moduleResets3s, by decide +kernel⟩

def faultRecords2s : State := { State.reset with srcLast := [(628, 5)] }
def faultRecords3s : State := { State.reset with regs := [(BMV_OWN 622, 145526961009520256#64)] }
def faultRecords4s : State := { State.reset with regs := [(BMV_OWN 622, 2451365572176703104#64)] }
def faultRecords5s : State := { State.reset with regs := [(BMV_OWN 622, 3748406662905917056#64)] }
theorem witness_faultRecords :
  (∃ (s : State),
  let src := 628
  let leak := min 255 (s.rd (FLT_SRC_LEAK src) + 1)
  let full := s.rd (FLT_SRC_PROMOTE_EN src) = 1 ∧ leak = s.rd (FLT_SRC_N src)
  let cls := s.rd (FLT_SRC_CLASS src)
  (s.power.stalled = false) ∧ (s.tlog.length < 8192) ∧ (cls = 0) ∧ (¬ full) ∧ (tabFind s.srcLast src = none)) ∧
  (∃ (s : State) (t0 : Nat),
  let src := 628
  let leak := min 255 (s.rd (FLT_SRC_LEAK src) + 1)
  let full := s.rd (FLT_SRC_PROMOTE_EN src) = 1 ∧ leak = s.rd (FLT_SRC_N src)
  let cls := s.rd (FLT_SRC_CLASS src)
  (s.power.stalled = false) ∧ (s.tlog.length < 8192) ∧ (cls = 0) ∧ (¬ full) ∧ (tabFind s.srcLast src = some t0) ∧ (s.now < t0 + s.rd FLT_CFG_HOLDOFF * 1000)) ∧
  (∃ (s : State),
  let src := 628
  let leak := min 255 (s.rd (FLT_SRC_LEAK src) + 1)
  let full := s.rd (FLT_SRC_PROMOTE_EN src) = 1 ∧ leak = s.rd (FLT_SRC_N src)
  let cls := s.rd (FLT_SRC_CLASS src)
  (s.power.stalled = false) ∧ (s.tlog.length < 8192) ∧ (cls = 0) ∧ (full) ∧ (s.rd (FLT_SRC_PENDING src) = 0)) ∧
  (∃ (s : State),
  (s.power.stalled = false) ∧ (s.tlog.length < 8192) ∧ (s.rd (FLT_SRC_CLASS 628) = 2) ∧ (s.rd (FLT_SRC_PENDING 628) = 0) ∧ (s.rd FLT_STAT_C_PEND ≤ 640)) ∧
  (∃ (s : State),
  let src := 628
  let cls := s.rd (FLT_SRC_CLASS src)
  (s.power.stalled = false) ∧ (s.tlog.length < 8192) ∧ (cls = 3)) :=
  ⟨⟨State.reset, by decide +kernel⟩,
   ⟨faultRecords2s, 5, by decide +kernel⟩,
   ⟨faultRecords3s, by decide +kernel⟩,
   ⟨faultRecords4s, by decide +kernel⟩,
   ⟨faultRecords5s, by decide +kernel⟩⟩

def faultCommands1s : State := { State.reset with regs := [(BMV_SH_SRC 544, 2819256665272413824#64)] }
def faultCommands3x : FltRec :=
  { time := 1, epoch := 2, source := 0, cls := 1, promoted := true, escalated := false, data := false, fence := true, seq := 50
    inst := 3
    status := 9, merged := 4, aux := 7, addr := 6 }
def faultCommands3s : State :=
  { State.reset with regs := [(BMV_SH_SRC 544, 513410357523836544#64)], srcTimer := [(0, (1000, faultCommands3x))] }
def faultCommands4s : State :=
  { State.reset with regs := [(BMV_SH_SRC 544, 801640733675548288#64)], srcTimer := [(0, (1000, faultCommands3x))] }
def faultCommands5x : FltRec :=
  { time := 1, epoch := 2, source := 390, cls := 1, promoted := true, escalated := false, data := false, fence := true
    seq := 50
    inst := 3, status := 9, merged := 4, aux := 7, addr := 6 }
def faultCommands5s : State :=
  { State.reset with
      regs := [(FLT_SRC 390, 6494190662671855232#64)], srcTimer := [(390, (1000, faultCommands5x))]
      host := { linkUp := true, cfg := [(4, 6)], ready := true } }
def faultCommands6x : FltRec :=
  { time := 1, epoch := 2, source := 110, cls := 1, promoted := true, escalated := false, data := false, fence := true
    seq := 50
    inst := 3, status := 9, merged := 4, aux := 7, addr := 6 }
def faultCommands6s : State :=
  { State.reset with
      regs := [(FLT_SRC 110, 7430942683699801728#64)], srcTimer := [(110, (1000, faultCommands6x))]
      host := { linkUp := true, cfg := [(4, 6)], ready := true } }
theorem witness_faultCommands :
  (∃ (s : State) (src : Source),
  let f := src.val
  (0 < s.rd (FLT_SRC_LEAK f))) ∧
  (∃ (s : State) (src : Source),
  let f := src.val
  (srcDefault f < s.rd (FLT_SRC_CLASS f))) ∧
  (∃ (s : State) (src : Source) (x : FltRec) (t0 : ℕ),
  (tabFind s.srcTimer src.val = some (t0, x)) ∧ (x.source = src.val) ∧ (s.rd (FLT_SRC_PENDING src.val) = 1) ∧ (s.fenceOf (src.val) x.inst 2 = none) ∧ (s.rd FLT_STAT_C_PEND ≤ 640)) ∧
  (∃ (s : State) (src : Source) (x : FltRec) (t0 : Nat),
  let f := src.val
  let pend := fun t : State => t.rd (FLT_SRC_PENDING f)
  let runs := tabFind s.srcTimer f = some (t0, x) ∧ x.source = f
  (runs) ∧ (pend s = 2) ∧ (s.power.off = false) ∧ (s.power.ripcord = false)) ∧
  (∃ (s : State) (src : Source) (x : FltRec) (t0 : Nat) (m : Master) (v : Word),
  let f := src.val
  let pend := fun t : State => t.rd (FLT_SRC_PENDING f)
  let n := v.toNat
  let seq := n % 2 ^ 32
  let acks := s.fwOrHost m = true ∧ Reaches s (whole m v) FLT_ACK ∧ n / 2 ^ 32 % 2 ^ 10 = f
  (acks) ∧ (tabFind s.srcTimer f = some (t0, x)) ∧ (x.seq ≤ seq) ∧ (seq < x.seq + 2 ^ 31) ∧ (pend s = (if m = .host then 2 else 1))) ∧
  (∃ (s : State) (src : Source) (x : FltRec) (t0 : Nat) (m : Master) (v : Word),
  let f := src.val
  let pend := fun t : State => t.rd (FLT_SRC_PENDING f)
  let n := v.toNat
  let seq := n % 2 ^ 32
  let acks := s.fwOrHost m = true ∧ Reaches s (whole m v) FLT_ACK ∧ n / 2 ^ 32 % 2 ^ 10 = f
  (acks) ∧ (tabFind s.srcTimer f = some (t0, x)) ∧ (x.seq ≤ seq) ∧ (seq < x.seq + 2 ^ 31) ∧ (pend s = (if m = .host then 1 else 2)) ∧ (f ≠ 637) ∧ (Alive s 637)) ∧
  (∃ (s : State) (m : Master) (v : Word),
  let n := v.toNat
  let kind := n / 2 ^ 8 % 8
  let i := n % 2 ^ 7
  let fences := Fw0 s m v FLT_FENCE ∧ n / 2 ^ 16 % 2 = 1
  (fences) ∧ (kind = 0) ∧ (i < 96) ∧ (s.chains = [])) ∧
  (∃ (s : State) (m : Master) (v : Word),
  let n := v.toNat
  let kind := n / 2 ^ 8 % 8
  let i := n % 2 ^ 7
  let fences := Fw0 s m v FLT_FENCE ∧ n / 2 ^ 16 % 2 = 1
  (fences) ∧ (kind = 1) ∧ (i < 24) ∧ (s.chains = []) ∧ (s.clusFenced i = false)) ∧
  (∃ (s : State) (m : Master) (v : Word),
  let n := v.toNat
  let kind := n / 2 ^ 8 % 8
  let i := n % 2 ^ 7
  let fences := Fw0 s m v FLT_FENCE ∧ n / 2 ^ 16 % 2 = 1
  (fences) ∧ (kind = 2) ∧ (i < 96) ∧ (s.chFenced i = false) ∧ ((s.chan i).queue = [])) ∧
  (∃ (s : State) (m : Master) (v : Word),
  let n := v.toNat
  let kind := n / 2 ^ 8 % 8
  let i := n % 2 ^ 7
  let fences := Fw0 s m v FLT_FENCE ∧ n / 2 ^ 16 % 2 = 1
  (fences) ∧ (kind = 3) ∧ (i < 16) ∧ (s.portFenced i = false) ∧ (Alive s (348 + i))) :=
  ⟨⟨faultCommands1s, 0, by decide +kernel⟩,
   ⟨faultCommands1s, 0, by decide +kernel⟩,
   ⟨faultCommands3s, 0, faultCommands3x, 1000, by decide +kernel⟩,
   ⟨faultCommands4s, 0, faultCommands3x, 1000, by decide +kernel⟩,
   ⟨faultCommands5s, 390, faultCommands5x, 1000, .host, 1675037245490#64, by decide +kernel⟩,
   ⟨faultCommands6s, 110, faultCommands6x, 1000, .host, 472446402610#64, by decide +kernel⟩,
   ⟨State.reset, .core 24 2, 65536#64, by decide +kernel⟩,
   ⟨State.reset, .core 24 2, 65792#64, by decide +kernel⟩,
   ⟨State.reset, .core 24 2, 66051#64, by decide +kernel⟩,
   ⟨State.reset, .core 24 2, 66307#64, by decide +kernel⟩⟩

def locksAndTap1s : State := { State.reset with regs := [(MXC_LOCK 0, 9223372036854775907#64)], lockAt := [(0, 77)] }
theorem witness_locksAndTap :
  (∃ (s : State) (n : ℕ) (t0 : ℕ),
  (s.lockAt = [(n, t0)]) ∧ (s.rd (MXC_LOCK_HELD n) = 1) ∧ (s.lockPaused n = false) ∧ (s.mxc = [])) ∧
  (∃ (s : State) (ir : Nat),
  (s.power.off = false) ∧ (ir = 1)) ∧
  (∃ (s : State) (ir : Nat),
  (s.power.off = false) ∧ (ir = 2)) ∧
  (∃ (s : State) (ir : Nat),
  (s.power.off = false) ∧ (3 ≤ ir) ∧ (ir ≤ 7) ∧ (s.power.ripcord = false)) ∧
  (∃ (s : State) (ir : Nat),
  (s.power.off = false) ∧ (ir = 0 ∨ 8 < ir ∨ (ir = 8 ∧ s.lcs ≠ 0 ∧ s.lcs ≠ 3))) ∧
  (∃ (s : State) (ir : Nat),
  (s.power.off = false) ∧ (ir = 8) ∧ (s.lcs = 0 ∨ s.lcs = 3)) ∧
  (∃ (s : State),
  (s.power.off = false)) :=
  ⟨⟨locksAndTap1s, 0, 77, by decide +kernel⟩,
   ⟨State.reset, 1, by decide +kernel⟩,
   ⟨State.reset, 2, by decide +kernel⟩,
   ⟨State.reset, 4, by decide +kernel⟩,
   ⟨memoryControl5s, 8, by decide +kernel⟩,
   ⟨memoryControl4s, 8, by decide +kernel⟩,
   ⟨State.reset, by decide +kernel⟩⟩

def gloleyAvailability5s : State := { State.reset with gloley := { readyAt := 1000 } }
def gloleyAvailability3s : State := { State.reset with regs := [(LCS_STATE, 1#64)], life := {} }
theorem witness_gloleyAvailability :
  (∃ (s : State) (bs : List Byte),
  (s.power.off = false) ∧ (PortFree s) ∧ (bs.length ≠ 18 + frameField bs 4 2 ∨
  256 < frameField bs 4 2 ∨
    frameField bs 0 1 ≠ 1 ∨
      frameField bs 2 1 ≠ 0 ∨
        frameField bs 6 2 ≠ 0 ∨ crc16 (List.take (16 + frameField bs 4 2) bs) ≠ frameField bs (16 + frameField bs 4 2) 2)) ∧
  (∃ (s : State) (tag : ℕ) (arg : ℕ) (data : List Byte) (op : ℕ),
  (s.power.off = false) ∧ (PortFree s) ∧ (Fits tag 0 arg data) ∧ (op < 256) ∧ (op = 0 ∨ 10 < op)) ∧
  (∃ (s : State) (tag : Nat) (arg : Nat) (data : List Byte),
  (ServesHw s) ∧ (Fits tag 0 arg data) ∧ (s.life.loading = false) ∧ (s.rd LCS_BOOT_READY = 0) ∧ (s.rd PWR_STATE_STATE ≠ 2)) ∧
  (∃ (s : State) (tag : ℕ) (arg : ℕ) (data : List Byte),
  (s.power.off = false) ∧ (s.power.ripcord = true) ∧ (PortFree s) ∧ (Fits tag 0 arg data)) ∧
  (∃ (s : State),
  (s.power.off = false) ∧ (s.now < s.gloley.readyAt)) ∧
  (∃ (s : State),
  (s.power.off = true)) :=
  ⟨⟨State.reset, [1#8], by decide +kernel⟩,
   ⟨State.reset, 255, 0, [3#8], 11, by decide +kernel⟩,
   ⟨gloleyAvailability3s, 255, 0, [3#8], by decide +kernel⟩,
   ⟨moduleResets2s, 255, 0, [3#8], by decide +kernel⟩,
   ⟨gloleyAvailability5s, by decide +kernel⟩,
   ⟨inputAndLevel2s, by decide +kernel⟩⟩

def gloleyRequests3s : State := { State.reset with regs := [(LCS_STATE, 1#64)], tlog := [faultCommands3x] }
def gloleyRequests4s : State :=
  { State.reset with
      regs := [(BMV_SH_SRC 544, 801640733675548288#64), (LCS_STATE, 1#64)], srcTimer := [(0, (6, faultCommands3x))] }
def gloleyRequests5s : State :=
  { State.reset with
      regs := [(BMV_SH_SRC 544, 513410357523836544#64), (LCS_STATE, 1#64)], srcTimer := [(0, (6, faultCommands3x))] }
def gloleyRequests8s : State := { State.reset with regs := [(CMDR_CTL 368, 9223372036854775808#64), (LCS_STATE, 1#64)] }
theorem witness_gloleyRequests :
  (∃ (s : State) (tag : Nat) (arg : Nat),
  (ServesHw s) ∧ (Fits tag 0 arg [])) ∧
  (∃ (s : State) (tag : Nat) (arg : Nat),
  (ServesHw s) ∧ (Fits tag 0 arg [])) ∧
  (∃ (s : State) (tag : Nat) (arg : Nat) (x : FltRec),
  (ServesHw s) ∧ (Fits tag 0 arg []) ∧ (s.tlog = [x]) ∧ (x.seq = arg)) ∧
  (∃ (s : State) (tag : Nat) (arg : Nat) (src : Nat) (t0 : Nat) (x : FltRec),
  (ServesHw s) ∧ (Fits tag 0 arg []) ∧ (tabFind s.srcTimer src = some (t0, x)) ∧ (src < 640) ∧ (x.seq ≤ arg) ∧ (arg < x.seq + 2 ^ 31) ∧ (s.rd (FLT_SRC_PENDING src) = 2)) ∧
  (∃ (s : State) (tag : Nat) (arg : Nat) (src : Nat) (t0 : Nat) (x : FltRec),
  (ServesHw s) ∧ (Fits tag 0 arg []) ∧ (tabFind s.srcTimer src = some (t0, x)) ∧ (src < 640) ∧ (x.seq ≤ arg) ∧ (arg < x.seq + 2 ^ 31) ∧ (s.rd (FLT_SRC_PENDING src) = 1)) ∧
  (∃ (s : State) (tag : Nat) (arg : Nat),
  (ServesHw s) ∧ (Fits tag 0 arg []) ∧ (Unloaded s) ∧ (arg = 0 ∨ (s.rd PWR_LIMIT_CAP_MIN ≤ arg ∧ arg ≤ s.rd PWR_LIMIT_MAX_W))) ∧
  (∃ (s : State) (tag : Nat) (arg : Nat),
  (ServesHw s) ∧ (Fits tag 0 arg []) ∧ (arg ≠ 0) ∧ (arg < s.rd PWR_LIMIT_CAP_MIN ∨ s.rd PWR_LIMIT_MAX_W < arg)) ∧
  (∃ (s : State) (tag : Nat) (arg : Nat),
  let q := (s.side 28 1).queue
  (ServesHw s) ∧ (Fits tag 0 arg []) ∧ (arg = 0) ∧ (s.rd (MBX_STAT_READY 28 0) = 1) ∧ ((s.side 28 0).queue.length < 16) ∧ (q.length ≤ 16)) ∧
  (∃ (s : State) (tag : Nat) (arg : Nat),
  let q := (s.side 28 1).queue
  (ServesHw s) ∧ (Fits tag 0 arg []) ∧ (arg = 0) ∧ (s.rd (MBX_STAT_READY 28 0) = 0) ∧ (q = []) ∧ (Alive s 588)) :=
  ⟨⟨memoryControl5s, 255, 0, by decide +kernel⟩,
   ⟨memoryControl5s, 255, 0, by decide +kernel⟩,
   ⟨gloleyRequests3s, 255, 50, faultCommands3x, by decide +kernel⟩,
   ⟨gloleyRequests4s, 255, 50, 0, 6, faultCommands3x, by decide +kernel⟩,
   ⟨gloleyRequests5s, 255, 50, 0, 6, faultCommands3x, by decide +kernel⟩,
   ⟨memoryControl5s, 255, 0, by decide +kernel⟩,
   ⟨memoryControl5s, 255, 50, by decide +kernel⟩,
   ⟨gloleyRequests8s, 255, 0, by decide +kernel⟩,
   ⟨memoryControl5s, 255, 0, by decide +kernel⟩⟩

def gloleyControl1s : State := { State.reset with regs := [(LCS_STATE, 1#64), (LCS_BOOT, 9223377534412914688#64)] }
def gloleyControl3s : State := { State.reset with regs := [(LCS_STATE, 1#64)], gloley := { resetAt := some (700) } }
def gloleyControl4s : State := { State.reset with regs := [(PWR_STATE, 3#64), (LCS_STATE, 1#64)] }
def gloleyControl8s : State := { State.reset with regs := [(LCS_STATE, 1#64)], gloley := { response := [2#8], lost := true } }
def gloleyControl7s : State := { State.reset with regs := [(LCS_STATE, 1#64)], gloley := { response := [2#8] } }
theorem witness_gloleyControl :
  (∃ (s : State) (tag : Nat) (role : Nat),
  (ServesHw s) ∧ (Fits tag 0 0 []) ∧ (ServesFw s) ∧ (role < 2) ∧ (s.life.keysErased = false) ∧ (NoSessions s) ∧ (tabFind s.life.locked 64 = none) ∧ (s.life.nextSession < 2 ^ 32)) ∧
  (∃ (s : State) (tag : Nat),
  (ServesHw s) ∧ (Fits tag 0 0 [])) ∧
  (∃ (s : State) (tag : Nat) (t0 : Nat),
  (ServesHw s) ∧ (Fits tag 0 0 []) ∧ (s.gloley.resetAt = some t0)) ∧
  (∃ (s : State) (tag : Nat) (target : Nat),
  let now := s.rd PWR_STATE_STATE
  (ServesHw s) ∧ (Fits tag 0 0 []) ∧ (target < 4) ∧ (now = 3)) ∧
  (∃ (s : State) (tag : Nat) (target : Nat),
  let now := s.rd PWR_STATE_STATE
  (ServesHw s) ∧ (Fits tag 0 0 []) ∧ (target < 4) ∧ (now < 3) ∧ (target = now)) ∧
  (∃ (s : State) (tag : Nat) (target : Nat),
  let now := s.rd PWR_STATE_STATE
  (ServesHw s) ∧ (Fits tag 0 0 []) ∧ (target < 4) ∧ (now < target) ∧ (target ≠ 3 ∨ now < 3) ∧ (s.remoteWrite = false) ∧ (s.working = false)) ∧
  (∃ (s : State) (tag : ℕ),
  (ServesHw s) ∧ (Fits tag 0 0 []) ∧ (s.gloley.response ≠ []) ∧ (s.gloley.lost = true)) ∧
  (∃ (s : State) (tag : ℕ),
  (ServesHw s) ∧ (Fits tag 0 0 []) ∧ (s.gloley.response ≠ []) ∧ (s.gloley.lost = false)) ∧
  (∃ (s : State) (tag : Nat),
  (ServesHw s) ∧ (Fits tag 0 0 []) ∧ (s.gloley.response = [])) :=
  ⟨⟨gloleyControl1s, 3, 0, by decide +kernel⟩,
   ⟨memoryControl5s, 3, by decide +kernel⟩,
   ⟨gloleyControl3s, 3, 700, by decide +kernel⟩,
   ⟨gloleyControl4s, 3, 3, by decide +kernel⟩,
   ⟨memoryControl5s, 3, 0, by decide +kernel⟩,
   ⟨memoryControl5s, 3, 3, by decide +kernel⟩,
   ⟨gloleyControl8s, 3, by decide +kernel⟩,
   ⟨gloleyControl7s, 3, by decide +kernel⟩,
   ⟨memoryControl5s, 3, by decide +kernel⟩⟩

def gloleyRecovery1s : State :=
  { State.reset with regs := [(LCS_STATE, 1#64), (LCS_BOOT, 6597069766656#64), (LCS_SESSION 0, 12682136550675321396#64)] }
def gloleyRecovery2s : State :=
  { State.reset with
      regs := [(LCS_STATE, 1#64), (LCS_BOOT, 6597069766656#64), (LCS_UPDATE, 703687441776640#64),
               (LCS_SESSION 3, 12682136550675321396#64)]
      life := { updSession := 4660, flashOpen := some ((0, 4096)) } }
def gloleyRecovery3s : State :=
  { State.reset with
      regs := [(LCS_STATE, 1#64), (LCS_BOOT, 6597069766656#64), (LCS_UPDATE, 703687441776640#64),
               (LCS_SESSION 0, 12682136550675321396#64)]
      life := { updSession := 4660 } }
def gloleyRecovery4s : State :=
  { State.reset with
      regs := [(LCS_STATE, 1#64), (LCS_BOOT, 6597069766656#64), (LCS_UPDATE, 985162418487296#64),
               (LCS_SESSION 0, 12682136550675321396#64)]
      life := { updSession := 4660 } }
theorem witness_gloleyRecovery :
  (∃ (s : State) (tag : Nat) (sess : Nat) (arg : Nat) (i : Fin 4) (data : List Byte),
  let session := s.reg (LCS_SESSION i.val) = BitVec.ofNat 64 (2 ^ 63 + 2 ^ 61 + 2 ^ 60 + sess)
      ∧ (List.range 4).all (fun j => j == i.val || s.rd (LCS_SESSION_ACTIVE j) == 0) = true
  let asks := session ∧ s.rd LCS_BOOT_PHASE = 6
  (ServesHw s) ∧ (Fits tag sess arg data) ∧ (asks) ∧ (s.rd LCS_UPDATE_OPEN = 0) ∧ (arg ≤ 0x0c000000)) ∧
  (∃ (s : State) (tag : Nat) (sess : Nat) (arg : Nat) (i : Fin 4) (data : List Byte),
  let session := s.reg (LCS_SESSION i.val) = BitVec.ofNat 64 (2 ^ 63 + 2 ^ 61 + 2 ^ 60 + sess)
      ∧ (List.range 4).all (fun j => j == i.val || s.rd (LCS_SESSION_ACTIVE j) == 0) = true
  let asks := session ∧ s.rd LCS_BOOT_PHASE = 6
  let mine := asks ∧ s.rd LCS_UPDATE_OPEN = 1 ∧ s.life.updSession = sess
  let written := s.rd LCS_UPDATE_WRITTEN
  (ServesHw s) ∧ (Fits tag sess arg data) ∧ (mine) ∧ (s.rd LCS_UPDATE_STAGE = 1 ∨ s.rd LCS_UPDATE_STAGE = 2) ∧ (s.life.flashOpen = some (0, arg)) ∧ (arg ≤ 0x0c000000) ∧ (data ≠ []) ∧ (written + data.length ≤ arg)) ∧
  (∃ (s : State) (tag : Nat) (sess : Nat) (arg : Nat) (i : Fin 4) (data : List Byte),
  let session := s.reg (LCS_SESSION i.val) = BitVec.ofNat 64 (2 ^ 63 + 2 ^ 61 + 2 ^ 60 + sess)
      ∧ (List.range 4).all (fun j => j == i.val || s.rd (LCS_SESSION_ACTIVE j) == 0) = true
  let asks := session ∧ s.rd LCS_BOOT_PHASE = 6
  let mine := asks ∧ s.rd LCS_UPDATE_OPEN = 1 ∧ s.life.updSession = sess
  (ServesHw s) ∧ (Fits tag sess arg data) ∧ (mine) ∧ (s.rd LCS_UPDATE_STAGE = 2)) ∧
  (∃ (s : State) (tag : Nat) (sess : Nat) (arg : Nat) (i : Fin 4) (data : List Byte),
  let session := s.reg (LCS_SESSION i.val) = BitVec.ofNat 64 (2 ^ 63 + 2 ^ 61 + 2 ^ 60 + sess)
      ∧ (List.range 4).all (fun j => j == i.val || s.rd (LCS_SESSION_ACTIVE j) == 0) = true
  let asks := session ∧ s.rd LCS_BOOT_PHASE = 6
  let mine := asks ∧ s.rd LCS_UPDATE_OPEN = 1 ∧ s.life.updSession = sess
  (ServesHw s) ∧ (Fits tag sess arg data) ∧ (mine) ∧ (s.rd LCS_UPDATE_STAGE = 3)) ∧
  (∃ (s : State) (tag : Nat) (sess : Nat) (arg : Nat) (data : List Byte),
  (ServesHw s) ∧ (Fits tag sess arg data) ∧ (ServesFw s)) :=
  ⟨⟨gloleyRecovery1s, 8, 4660, 0, 0, [9#8, 8#8], by decide +kernel⟩,
   ⟨gloleyRecovery2s, 8, 4660, 4096, 3, [9#8, 8#8], by decide +kernel⟩,
   ⟨gloleyRecovery3s, 8, 4660, 0, 0, [9#8, 8#8], by decide +kernel⟩,
   ⟨gloleyRecovery4s, 8, 4660, 0, 0, [9#8, 8#8], by decide +kernel⟩,
   ⟨gloleyControl1s, 8, 4660, 77, [9#8, 8#8], by decide +kernel⟩⟩

theorem witness_gloleyBus :
  (∃ (s : State),
  (s.power.off = false)) ∧
  (∃ (s : State),
  (s.power.off = false)) ∧
  (∃ (s : State),
  (s.power.off = false)) ∧
  (∃ (s : State),
  (s.power.off = false)) ∧
  (∃ (s : State),
  (s.power.off = false)) ∧
  (∃ (s : State),
  (s.power.off = false)) ∧
  (∃ (s : State),
  (s.power.off = false)) ∧
  (∃ (s : State),
  (s.power.off = false)) :=
  ⟨⟨State.reset, by decide +kernel⟩,
   ⟨State.reset, by decide +kernel⟩,
   ⟨State.reset, by decide +kernel⟩,
   ⟨State.reset, by decide +kernel⟩,
   ⟨State.reset, by decide +kernel⟩,
   ⟨State.reset, by decide +kernel⟩,
   ⟨State.reset, by decide +kernel⟩,
   ⟨State.reset, by decide +kernel⟩⟩

def powerCaps1p : Packet := { words := [112, 0, 7], seq := 7, fin := 9 }
def powerCaps1s : State := { State.reset with rings := [(5, { running := [powerCaps1p] })] }
def powerCaps2p : Packet := { words := [112, 599, 7], seq := 7, fin := 9 }
def powerCaps2s : State := { State.reset with rings := [(5, { running := [powerCaps2p] })] }
theorem witness_powerCaps :
  (∃ (r : Ring) (s : State) (p : Packet) (cap : Nat),
  let inRange := cap = 0 ∨ (s.rd PWR_LIMIT_CAP_MIN ≤ cap ∧ cap ≤ s.rd PWR_LIMIT_MAX_W)
  (Unloaded s) ∧ (Has s r 0x70 p) ∧ (p.w 1 % 2 ^ 16 = cap) ∧ (inRange)) ∧
  (∃ (r : Ring) (s : State) (p : Packet) (cap : Nat),
  let inRange := cap = 0 ∨ (s.rd PWR_LIMIT_CAP_MIN ≤ cap ∧ cap ≤ s.rd PWR_LIMIT_MAX_W)
  (Unloaded s) ∧ (Has s r 0x70 p) ∧ (p.w 1 % 2 ^ 16 = cap) ∧ (¬ inRange)) ∧
  (∃ (s : State) (cap : Nat) (tag : Nat),
  let inRange := cap = 0 ∨ (s.rd PWR_LIMIT_CAP_MIN ≤ cap ∧ cap ≤ s.rd PWR_LIMIT_MAX_W)
  (Unloaded s) ∧ (ServesHw s) ∧ (tag < 256) ∧ (cap < 2 ^ 16) ∧ (inRange)) ∧
  (∃ (s : State) (cap : Nat) (tag : Nat),
  let inRange := cap = 0 ∨ (s.rd PWR_LIMIT_CAP_MIN ≤ cap ∧ cap ≤ s.rd PWR_LIMIT_MAX_W)
  (Unloaded s) ∧ (ServesHw s) ∧ (tag < 256) ∧ (cap < 2 ^ 16) ∧ (¬ inRange)) :=
  ⟨⟨5, powerCaps1s, powerCaps1p, 0, by decide +kernel⟩,
   ⟨5, powerCaps2s, powerCaps2p, 599, by decide +kernel⟩,
   ⟨memoryControl5s, 0, 5, by decide +kernel⟩,
   ⟨memoryControl5s, 599, 5, by decide +kernel⟩⟩

def slewTakesEffect2r : Ramp := { chain := none, start := 7, pipes := 8, fin := 99, begun := true }
def slewTakesEffect2s : State := { State.reset with power := { ramps := [slewTakesEffect2r] } }
def slewTakesEffect3r : Ramp := { chain := none, start := 7, pipes := 8, fin := 99 }
def slewTakesEffect3s : State := { State.reset with power := { ramps := [slewTakesEffect3r] } }
theorem witness_slewTakesEffect :
  (∃ (s : State) (m : Master) (v : Word),
  (Unloaded s) ∧ (s.fwOrInstaller m = true) ∧ (Reaches s (whole m v) PWR_LIMIT) ∧ (1 ≤ v.toNat % 16) ∧ (v.toNat % 16 ≤ 8)) ∧
  (∃ (s : State) (r : Ramp),
  (Unloaded s) ∧ (s.power.ramps = [r]) ∧ (r.begun = true)) ∧
  (∃ (s : State) (r : Ramp),
  (Unloaded s) ∧ (r ∈ s.power.ramps) ∧ (r.begun = false)) :=
  ⟨⟨State.reset, .core 24 2, 1#64, by decide +kernel⟩,
   ⟨slewTakesEffect2s, slewTakesEffect2r, by decide +kernel⟩,
   ⟨slewTakesEffect3s, slewTakesEffect3r, by decide +kernel⟩⟩

def classDemoted1s : State := { State.reset with regs := [(BMV_SH_SRC 544, 1378101485978971776#64)] }
theorem witness_classDemoted :
  (∃ (s : State) (src : Source),
  let f := src.val
  (srcDefault f < s.rd (FLT_SRC_CLASS f))) ∧
  (∃ (s : State) (src : Source),
  let f := src.val
  (s.rd (FLT_SRC_CLASS f) ≤ srcDefault f)) :=
  ⟨⟨classDemoted1s, 0, by decide +kernel⟩,
   ⟨State.reset, 0, by decide +kernel⟩⟩

def gloleyReset2s : State :=
  { State.reset with regs := [(LCS_STATE, 1#64)], gloley := { response := [2#8], resetAt := some (700) } }
theorem witness_gloleyReset :
  (∃ (s : State) (tag : Nat),
  (ServesHw s) ∧ (tag < 256)) ∧
  (∃ (s : State) (tag : ℕ) (t0 : ℕ),
  (ServesHw s) ∧ (tag < 256) ∧ (s.gloley.resetAt = some t0) ∧ (s.gloley.response ≠ []) ∧ (s.gloley.lost = false)) ∧
  (∃ (s : State) (tag : Nat) (t0 : Nat),
  (ServesHw s) ∧ (tag < 256) ∧ (s.gloley.resetAt = some t0)) :=
  ⟨⟨memoryControl5s, 3, by decide +kernel⟩,
   ⟨gloleyReset2s, 3, 700, by decide +kernel⟩,
   ⟨gloleyControl3s, 3, 700, by decide +kernel⟩⟩

theorem witness_gloleyAcknowledges :
  (∃ (s : State) (tag : Nat) (seq : Nat) (src : Nat) (t0 : Nat) (x : FltRec),
  let pend := s.rd (FLT_SRC_PENDING src)
  let early := (seq + 1 ≤ x.seq ∧ x.seq < seq + 2 ^ 31) ∨ x.seq + 2 ^ 31 < seq
  (ServesHw s) ∧ (Fits tag 0 seq []) ∧ (src < 2 ^ 16) ∧ (tabFind s.srcTimer src = some (t0, x)) ∧ (x.seq < 2 ^ 32) ∧ (src < 640) ∧ (pend = 2) ∧ (¬ early)) ∧
  (∃ (s : State) (tag : Nat) (seq : Nat) (src : Nat) (t0 : Nat) (x : FltRec),
  let pend := s.rd (FLT_SRC_PENDING src)
  let early := (seq + 1 ≤ x.seq ∧ x.seq < seq + 2 ^ 31) ∨ x.seq + 2 ^ 31 < seq
  (ServesHw s) ∧ (Fits tag 0 seq []) ∧ (src < 2 ^ 16) ∧ (tabFind s.srcTimer src = some (t0, x)) ∧ (x.seq < 2 ^ 32) ∧ (src < 640) ∧ (pend = 1) ∧ (¬ early)) ∧
  (∃ (s : State) (tag : Nat) (seq : Nat) (src : Nat) (t0 : Nat) (x : FltRec),
  let pend := s.rd (FLT_SRC_PENDING src)
  let early := (seq + 1 ≤ x.seq ∧ x.seq < seq + 2 ^ 31) ∨ x.seq + 2 ^ 31 < seq
  (ServesHw s) ∧ (Fits tag 0 seq []) ∧ (src < 2 ^ 16) ∧ (640 ≤ src ∨ pend = 0 ∨ (tabFind s.srcTimer src = some (t0, x) ∧ x.seq < 2 ^ 32 ∧ early))) :=
  ⟨⟨gloleyRequests4s, 255, 51, 0, 6, faultCommands3x, by decide +kernel⟩,
   ⟨gloleyRequests5s, 255, 2147483698, 0, 6, faultCommands3x, by decide +kernel⟩,
   ⟨memoryControl5s, 255, 0, 0, 6, faultCommands3x, by decide +kernel⟩⟩

theorem witness_resetState :
  (∃ (a : Nat),
  (a < 80)) :=
  ⟨0, by decide +kernel⟩

def storageStaysCanonical1s : State := { State.reset with pending := [.nop 3] }
theorem witness_storageStaysCanonical :
  (∃ (s : State) (t : State),
  (Memory.wf s.mem) ∧ (step s = .next t)) :=
  ⟨storageStaysCanonical1s, _, by decide, rfl⟩

end Sys2Proof.Tests
end

section
/-! Power: what a change of the envelope and a fault record leave of the power manager (R531, R537, R538, R578 to R592). -/
namespace Sys2Proof.Machine
open Reg Claim

/-! The level. -/

/-- `t` is `s` but for the envelope's level: its registers, and since when the raise conditions hold (R538, R565). -/
def State.LevelApart (s t : State) : Prop :=
  t = { s with regs := t.regs, power := { s.power with upFrom := t.power.upFrom } }
  ∧ ∀ o, o ≠ PWR_ENV → o ≠ CLK_PLL 1 → o ≠ CLK_SWITCHES → o ≠ PWR_STAT → t.reg o = s.reg o

namespace State.LevelApart

theorem refl (s : State) : s.LevelApart s := ⟨rfl, fun _ _ _ _ _ => rfl⟩

theorem trans {s t u : State} (h : s.LevelApart t) (h' : t.LevelApart u) : s.LevelApart u := by
  obtain ⟨e, r⟩ := h
  obtain ⟨e', r'⟩ := h'
  refine ⟨?_, fun o h1 h2 h3 h4 => (r' o h1 h2 h3 h4).trans (r o h1 h2 h3 h4)⟩
  calc u = { t with regs := u.regs, power := { t.power with upFrom := u.power.upFrom } } := e'
    _ = _ := by rw [e]

theorem wr (s : State) (f : RF) (v : Nat) (h : f.off ∈ [PWR_ENV, CLK_PLL 1, CLK_SWITCHES, PWR_STAT]) : s.LevelApart (s.wr f v) := by
  refine ⟨rfl, fun o h1 h2 h3 h4 => State.reg_wr_other _ _ _ _ ?_⟩
  rintro rfl
  simp [h1, h2, h3, h4] at h

theorem upFrom (s : State) (n : Nat) : s.LevelApart { s with power := { s.power with upFrom := n } } :=
  ⟨rfl, fun _ _ _ _ _ => rfl⟩

theorem setLevel (s : State) (l : Nat) : s.LevelApart (s.setLevel l) := by
  have h1 := (wr s PWR_ENV_LEVEL l (by simp [PWR_ENV_LEVEL])).trans (upFrom _ s.now)
  unfold State.setLevel
  split
  · exact refl s
  · dsimp only
    split
    · exact h1
    · exact h1.trans ((wr _ (CLK_PLL_FREQ 1) _ (by simp [CLK_PLL_FREQ])).trans (wr _ CLK_SWITCHES_CORE _ (by simp [CLK_SWITCHES_CORE])))

theorem lowerLevel (s : State) : s.LevelApart s.lowerLevel := by
  unfold State.lowerLevel
  split
  · exact refl s
  · exact (setLevel s _).trans (wr _ PWR_STAT_LEVEL_DOWNS _ (by simp [PWR_STAT_LEVEL_DOWNS]))

theorem fitLevel (s : State) (n : Nat) : s.LevelApart (s.fitLevel n) := by
  induction n generalizing s with
  | zero => exact refl s
  | succ n ih =>
    unfold State.fitLevel
    split
    · exact refl s
    · exact (lowerLevel s).trans (ih _)

theorem holdFrom {s t : State} (s0 : State) (h : s.LevelApart t) : s.LevelApart (s0.holdFrom t) := by
  unfold State.holdFrom
  split
  · exact h.trans (upFrom t _)
  · exact h

/-- With no chain and no waiting request an envelope that changed lowers the level, and withdraws and denies nothing (R537, R546). -/
theorem fit {s : State} (hc : s.chains = []) (hw : s.power.waiting = []) : s.LevelApart s.fit := by
  have h := fitLevel s 3
  have hw' : (s.fitLevel 3).power.waiting = [] := by rw [h.1]; exact hw
  have e : s.fit = s.fitLevel 3 := by simp [State.fit, hc, State.fitGrants, State.denyWaiting, hw']
  rwa [e]

/-- The limits and the caps read as before. -/
theorem rd {s t : State} (h : s.LevelApart t) (f : RF) (hf : f.off = PWR_LIMIT ∨ f.off = PWR_CAP) : t.rd f = s.rd f := by
  have e : t.reg f.off = s.reg f.off := by
    rcases hf with hf | hf <;> rw [hf] <;> exact h.2 _ (by decide) (by decide) (by decide) (by decide)
  rw [State.rd, State.rd, e]

end State.LevelApart

/-! What a fault record leaves of the limits and the ramps. -/

/-- The registers of the fault sources are not the limits (R578). -/
theorem limit_ne_src {src : Nat} (h : src < 640) : PWR_LIMIT ≠ FLT_SRC src ∧ PWR_LIMIT ≠ FLT_SRC_CNT src := by
  simp only [PWR_LIMIT, FLT_SRC, FLT_SRC_CNT]
  omega

theorem srcCollector_lt {n : Nat} (h : n < 640) : srcCollector n < 38 := by
  unfold srcCollector
  split_ifs <;> omega

/-- `t` keeps the limits, the requests and the ramps of `s`, and begins no chain. -/
structure State.RampsKept (s t : State) : Prop where
  limit : t.reg PWR_LIMIT = s.reg PWR_LIMIT
  chains : s.chains = [] → t.chains = []
  waiting : t.power.waiting = s.power.waiting
  ramps : t.power.ramps = s.power.ramps
  slew : t.power.slew = s.power.slew

/-- An event whose class fences no unit. -/
theorem State.recordWith_unfenced (s : State) (e : FaultEv) {unit : Nat → Option (Nat × Nat)} (h : ∀ c, unit c = none) :
    (s.recordWith e unit).2 = none := by
  unfold State.recordWith
  extract_lets
  split
  · rfl
  · exact h _

namespace State.RampsKept

theorem refl (s : State) : s.RampsKept s := ⟨rfl, id, rfl, rfl, rfl⟩

theorem trans {s t u : State} (h : s.RampsKept t) (h' : t.RampsKept u) : s.RampsKept u :=
  ⟨h'.limit.trans h.limit, h'.chains ∘ h.chains, h'.waiting.trans h.waiting, h'.ramps.trans h.ramps, h'.slew.trans h.slew⟩

theorem foldl {α : Type} (f : State → α → State) (l : List α) (h : ∀ s, ∀ a ∈ l, State.RampsKept s (f s a)) (s : State) :
    s.RampsKept (l.foldl f s) := by
  induction l generalizing s with
  | nil => exact refl s
  | cons a l ih => exact (h s a (by simp)).trans (ih (fun s b hb => h s b (by simp [hb])) _)

section
variable {s t u : State} {c : Prop} [Decidable c]

theorem ite (h : s.RampsKept t) (h' : s.RampsKept u) : s.RampsKept (if c then t else u) := by
  split <;> assumption

/-- An update of other parts of the state. -/
theorem congr (h : s.RampsKept t) (hr : u.regs = t.regs) (hc : t.chains = [] → u.chains = []) (hw : u.power.waiting = t.power.waiting)
    (hp : u.power.ramps = t.power.ramps) (hs : u.power.slew = t.power.slew) : s.RampsKept u :=
  h.trans ⟨State.reg_congr hr _, hc, hw, hp, hs⟩

theorem setReg {o : Nat} {w : Word} (h : s.RampsKept t) (ho : PWR_LIMIT ≠ o) : s.RampsKept (t.setReg o w) :=
  h.trans ⟨State.reg_setReg_other _ _ _ _ ho, id, rfl, rfl, rfl⟩

theorem wr {f : RF} {v : Nat} (h : s.RampsKept t) (hf : PWR_LIMIT ≠ f.off) : s.RampsKept (t.wr f v) := h.setReg hf

theorem count {f : RF} {n : Nat} (h : s.RampsKept t) (hf : PWR_LIMIT ≠ f.off) : s.RampsKept (t.count f n) := h.wr hf
end

theorem rd {s t : State} (h : s.RampsKept t) {f : RF} (hf : f.off = PWR_LIMIT) : t.rd f = s.rd f := by
  rw [State.rd, State.rd, hf, h.limit]

theorem advance (s : State) (t : Nat) : s.RampsKept (s.advance t) := by
  unfold State.advance
  extract_lets _ _ _ _ _ _ _ s1 s2 s3
  have h1 : s.RampsKept s1 := (refl s).congr rfl id rfl rfl rfl
  have h2 : s.RampsKept s2 := h1.wr (by decide)
  have h3 : s.RampsKept s3 := ite h2 (h2.wr (by decide))
  exact ite h3 (h3.wr (by decide))

theorem flashTouch (s : State) : s.RampsKept s.flashTouch := by
  have h : s.RampsKept (s.setDomain 79 true) := (refl s).wr (f := ⟨PWR_DOMAIN_HI, 15, 15⟩) (by decide)
  unfold State.flashTouch
  split
  · exact h.congr rfl id rfl rfl rfl
  · exact ite (refl s) ((refl s).congr rfl id rfl rfl rfl)

theorem audit (s : State) (action status : Nat) (a : Actor) (x y z : Nat) : s.RampsKept (s.audit action status a x y z) := by
  unfold State.audit
  extract_lets _ _ _ _ s1 _ s2
  have h1 : s.RampsKept s1 := flashTouch s
  have h2 : s.RampsKept s2 := h1.congr rfl id rfl rfl rfl
  exact (h2.wr (by decide)).wr (by decide)

theorem auditWrite (s : State) (w : RegWrite) (off : Nat) : s.RampsKept (s.auditWrite w off) := by
  unfold State.auditWrite
  split
  · split
    · extract_lets _ s1
      have h1 : s.RampsKept s1 := (refl s).congr rfl id rfl rfl rfl
      exact h1.trans (audit ..)
    · exact refl s
  · exact refl s

theorem mxcGrant (s : State) (m : Master) (off : Nat) : s.RampsKept (s.mxcGrant m off) :=
  ite (refl s) ((refl s).congr rfl id rfl rfl rfl)

/-! Records (R580 to R592). -/

theorem setWords (s : State) (off : Nat) (ws : List Nat) (h : off + 8 * ws.length ≤ PWR_LIMIT) : s.RampsKept (s.setWords off ws) := by
  refine foldl _ _ (fun s p hp => (refl s).setReg ?_) s
  have := List.mem_range.mp (List.of_mem_zip hp).1
  omega

theorem logRecord (s : State) (r : FltRec) : s.RampsKept (s.logRecord r) := by
  unfold State.logRecord
  extract_lets _ _ s1 s2
  have h1 : s.RampsKept s1 := (refl s).congr rfl id rfl rfl rfl
  have h2 : s.RampsKept s2 := h1.wr (by decide)
  exact h2.wr (by decide)

theorem setPending (s : State) {src : Nat} (v : Nat) (h : src < 640) : s.RampsKept (s.setPending src v) := by
  unfold State.setPending
  extract_lets _ s1 s2 s3
  have h1 : s.RampsKept s1 := (refl s).wr (limit_ne_src h).1
  have h2 : s.RampsKept s2 := h1.wr (by decide)
  have h3 : s.RampsKept s3 := h2.wr (by decide)
  exact h3.congr rfl id rfl rfl rfl

theorem capture (s : State) (r : FltRec) (h : r.source < 640) : s.RampsKept (s.capture r) := by
  have hc := srcCollector_lt h
  have hn : s.rd (FLT_HIST_PTR_NEXT (srcCollector r.source)) < 16 := s.rd_lt _
  have hl : r.words.length = 4 := rfl
  have hctl : PWR_LIMIT ≠ FLT_FIRST_CTL (srcCollector r.source) := by simp only [PWR_LIMIT, FLT_FIRST_CTL]; omega
  have hptr : PWR_LIMIT ≠ FLT_HIST_PTR (srcCollector r.source) := by simp only [PWR_LIMIT, FLT_HIST_PTR]; omega
  have hfirst : s.RampsKept (s.setWords (FLT_FIRST (srcCollector r.source) 0) r.words) :=
    setWords _ _ _ (by simp only [PWR_LIMIT, FLT_FIRST, hl]; omega)
  have hhist : s.RampsKept (s.setWords (FLT_HIST (srcCollector r.source) (s.rd (FLT_HIST_PTR_NEXT (srcCollector r.source))) 0) r.words) :=
    setWords _ _ _ (by simp only [PWR_LIMIT, FLT_HIST, hl]; omega)
  unfold State.capture
  split
  · exact (hhist.wr hptr).wr hptr
  · exact ite ((refl s).wr hctl) (hfirst.wr hctl)

theorem msix (s : State) (v : Nat) : s.RampsKept (s.msix v) :=
  ite ((refl s).wr (by simp only [PWR_LIMIT, HIF_PBA]; omega)) ((refl s).congr rfl id rfl rfl rfl)

theorem alert (s : State) (n : Nat) : s.RampsKept (s.alert n) := by
  unfold State.alert
  extract_lets _ _ _ s1
  have h1 : s.RampsKept s1 := (refl s).congr rfl id rfl rfl rfl
  exact ite (h1.congr rfl id rfl rfl rfl) h1

theorem allDomainsOff (s : State) : s.RampsKept s.allDomainsOff := by
  unfold State.allDomainsOff
  extract_lets s1 s2 s3 s4 s5 s6
  have h1 : s.RampsKept s1 := ((refl s).wr (by decide)).wr (by decide)
  have h2 : s.RampsKept s2 := h1.trans (foldl _ _ (fun s k _ => ((refl s).wr
    (by simp only [PWR_LIMIT, CLUS_ARRAY_STATE_LOGIC, CLUS_ARRAY_STATE]; omega)).wr
    (by simp only [PWR_LIMIT, CLUS_ARRAY_STATE_ARRAY, CLUS_ARRAY_STATE]; omega)) _)
  have h3 : s.RampsKept s3 := h2.trans (foldl _ _ (fun s c _ => ite (refl s)
    ((refl s).wr (by simp only [PWR_LIMIT, MEMC_STATUS_STATE, MEMC_STATUS]; omega))) _)
  have h4 : s.RampsKept s4 := h3.trans (foldl _ _ (fun s p _ => (refl s).wr
    (by simp only [PWR_LIMIT, JP_STAT_STATE, JP_STAT]; omega)) _)
  have h5 : s.RampsKept s5 := h4.trans (foldl _ _ (fun s n _ => (refl s).setReg (by simp only [PWR_LIMIT, CLK_PLL]; omega)) _)
  have h6 : s.RampsKept s6 := (h5.wr (by decide)).wr (by decide)
  clear_value s6
  exact h6.congr rfl (fun _ => rfl) rfl rfl rfl

theorem ripcord (s : State) : s.RampsKept s.ripcord := by
  unfold State.ripcord
  extract_lets s1 s2
  have h2 : s.RampsKept s2 := ((allDomainsOff s).wr (by decide)).wr (by decide)
  clear_value s2
  exact h2.congr rfl id rfl rfl rfl

theorem actOn (s : State) (r : FltRec) (h : r.source < 640) : s.RampsKept (s.actOn r) := by
  unfold State.actOn
  extract_lets s1 s2
  have h1 : s.RampsKept s1 := setPending s _ h
  have h2 : s.RampsKept s2 := ite (h1.congr rfl id rfl rfl rfl) (refl s)
  split
  · exact h2
  · exact h2.congr rfl id rfl rfl rfl
  · exact (h2.trans (msix ..)).trans (alert ..)
  · exact (h2.trans (ripcord _)).trans (alert ..)

theorem writeRecord (s : State) (r : FltRec) (h : r.source < 640) : s.RampsKept (s.writeRecord r) := by
  unfold State.writeRecord
  extract_lets _ _ s1 s2 s3
  have h1 : s.RampsKept s1 := (refl s).wr (by decide)
  have h2 : s.RampsKept s2 := h1.wr (limit_ne_src h).2
  have h3 : s.RampsKept s3 := (h2.trans (logRecord ..)).trans (capture _ _ h)
  exact h3.trans (actOn _ _ h)

theorem recordWith (s : State) (e : FaultEv) (unit : Nat → Option (Nat × Nat)) (h : e.src < 640) :
    s.RampsKept (s.recordWith e unit).1 := by
  obtain ⟨hsrc, hcnt⟩ := limit_ne_src h
  unfold State.recordWith
  extract_lets s1 s2 s3 _ _ _ s4 _ s5 _ _ _ s6
  have h1 : s.RampsKept s1 := (refl s).count hcnt
  have h2 : s.RampsKept s2 := h1.congr rfl id rfl rfl rfl
  have h3 : s.RampsKept s3 := ite h2 (h2.congr rfl id rfl rfl rfl)
  have h4 : s.RampsKept s4 := h3.wr hsrc
  have h5 : s.RampsKept s5 := ite (h4.wr hsrc) h4
  have h6 : s.RampsKept s6 := h5.congr rfl id rfl rfl rfl
  split
  · exact h5.congr rfl id rfl rfl rfl
  · exact h6.trans (writeRecord _ _ h)

/-- An event that fences no unit keeps what its record keeps. -/
theorem record (s : State) (e : FaultEv) (h : e.src < 640)
    (hu : ∀ c, (if e.fence then fenceByKind e.src e.inst else s.fenceOf e.src e.inst c) = none) : s.RampsKept (s.record e) := by
  unfold State.record
  dsimp only
  rw [State.recordWith_unfenced s e hu]
  exact recordWith s e _ h

theorem regRecord (s : State) (off v : Nat) : s.RampsKept (s.regRecord off v) := by
  refine record s _ (show srcRegWrite < 640 by decide) (fun c => ?_)
  simp [State.fenceOf, srcRegWrite, srcSpUe, srcLoftUe, srcMemUe, srcJpDown]

end State.RampsKept

/-! PWR_LIMIT (R531). -/

/-- A mask of all ones takes the new word whole (R4). -/
theorem mergeBits_whole {old new : Nat} (ho : old < 2 ^ 64) (hn : new < 2 ^ 64) : mergeBits old new (2 ^ 64 - 1) = new := by
  have hold : old &&& (2 ^ 64 - 1) = old := by rw [Nat.and_two_pow_sub_one_eq_mod, Nat.mod_eq_of_lt ho]
  have hnew : new &&& (2 ^ 64 - 1) = new := by rw [Nat.and_two_pow_sub_one_eq_mod, Nat.mod_eq_of_lt hn]
  have hz : old &&& (old ^^^ (2 ^ 64 - 1)) = 0 := by
    rw [Nat.and_xor_distrib_left, Nat.and_self, hold, Nat.xor_self]
  rw [mergeBits, hz, hnew, Nat.zero_or]

/-- After a write of the whole register a field has its bits of the word. -/
theorem State.after_whole (s : State) (m : Master) (v : Word) (f : RF) : s.after (whole m v) f = bitsOf v.toNat f.hi f.lo := by
  have e : (whole m v).mask = 2 ^ 64 - 1 := rfl
  have e' : (whole m v).bits = v.toNat := rfl
  rw [State.after, e, e', mergeBits_whole (s.reg f.off).isLt v.isLt]

/-- A SLEW that takes effect where no ramp is scheduled or in progress. -/
def State.takeSlew (s : State) (v : Nat) : State :=
  if s.power.ramps.isEmpty then { s with power := { s.power with slew := v } } else s

theorem State.takeSlew_slew (s : State) (v : Nat) : (s.takeSlew v).power.slew = if s.power.ramps = [] then v else s.power.slew := by
  cases h : s.power.ramps <;> simp [State.takeSlew, h]

@[simp] theorem State.takeSlew_regs (s : State) (v : Nat) : (s.takeSlew v).regs = s.regs := by
  unfold State.takeSlew; split <;> rfl

@[simp] theorem State.takeSlew_chains (s : State) (v : Nat) : (s.takeSlew v).chains = s.chains := by
  unfold State.takeSlew; split <;> rfl

@[simp] theorem State.takeSlew_waiting (s : State) (v : Nat) : (s.takeSlew v).power.waiting = s.power.waiting := by
  unfold State.takeSlew; split <;> rfl

/-- A write with SLEW in its range holds it, in effect at once where no ramp is scheduled or in progress. -/
theorem State.limitWrite_slew {s : State} {m : Master} {v : Word} (hc : s.chains = []) (hw : s.power.waiting = [])
    (h1 : 1 ≤ v.toNat % 16) (h8 : v.toNat % 16 ≤ 8) :
    (s.limitWrite (whole m v)).rd PWR_LIMIT_SLEW = v.toNat % 16
    ∧ (s.limitWrite (whole m v)).power.slew = if s.power.ramps = [] then v.toNat % 16 else s.power.slew := by
  have hafter : s.after (whole m v) PWR_LIMIT_SLEW = v.toNat % 16 := by
    rw [State.after_whole]
    simp [bitsOf, PWR_LIMIT_SLEW]
  unfold State.limitWrite
  extract_lets _ _ _ _ _ _ _ _ _ _ _ slewW slewOk slew1 s1 s2 _ s3
  have hslew : slew1 = v.toNat % 16 := by
    simp [slew1, slewOk, slewW, hafter, h1, h8]
  have e1 : s1.rd PWR_LIMIT_SLEW = v.toNat % 16 := by
    rw [State.rd_wr_same _ _ _ (by decide) (by decide), hslew]
    simp [PWR_LIMIT_SLEW]
  have k2 : s1.RampsKept s2 := .ite (.refl s1) (.regRecord ..)
  have e3 : s3 = s2.takeSlew slew1 := rfl
  clear_value s3 s2
  subst e3
  have hfit : (s2.takeSlew slew1).LevelApart (s.holdFrom (s2.takeSlew slew1).fit) :=
    (State.LevelApart.fit (by simpa using k2.chains hc) (by simpa using k2.waiting.trans hw)).holdFrom s
  have hr : s2.power.ramps = s.power.ramps := k2.ramps
  have hs : s2.power.slew = s.power.slew := k2.slew
  constructor
  · rw [hfit.rd _ (.inl rfl), State.rd_congr (State.takeSlew_regs s2 slew1), k2.rd rfl, e1]
  · rw [hfit.1, ← hslew, ← hr, ← hs]
    exact State.takeSlew_slew s2 slew1

/-- A write that reaches its register, by a master with the right, is performed (R25, R644). -/
theorem State.regRow_of_reaches {s : State} {m : Master} {v : Word} {off : Nat} (h : Reaches s (whole m v) off) (f : State → State) :
    s.regRow (whole m v) off true f = f (s.mxcGrant m off) := by
  obtain ⟨hb, hh, hl, hq⟩ := h
  have hup : (m == Master.host && !s.hostUp) = false := by
    by_cases hm : m = .host
    · simp [hh hm]
    · simp [hm]
  have hwait : s.mxcWaits (s.mxcAhead m off false) m off = false := by
    simpa [State.mxcWaits, State.mxcAhead, hq] using hl
  change s.regBlocked m off 8 = none at hb
  simp [State.regRow, hup, hb, hwait]

/-! The end of a ramp (R531, R541). -/

/-- The least entry of a list is one of its entries. -/
theorem leastBy_mem {α : Type} {f : α → Nat} {l : List α} {x : α} (h : leastBy f l = some x) : x ∈ l := by
  refine List.foldlRecOn (motive := fun m => ∀ x, m = some x → x ∈ l) l _ (by simp) (fun m hm a ha x hx => ?_) x h
  cases m with
  | none => exact Option.some.inj hx ▸ ha
  | some y =>
    dsimp only at hx
    split at hx
    · exact Option.some.inj hx ▸ ha
    · exact hm x hx

theorem State.advanceTo_kept (s : State) (t : Nat) : s.RampsKept (s.advanceTo t) := .ite (.advance s t) (.refl s)

@[simp] theorem State.advance_now (s : State) (t : Nat) : (s.advance t).now = s.now + (t - s.now) := by
  unfold State.advance
  extract_lets _ _ _ _ _ _ _ s1 s2 s3
  have h3 : s3.now = s.now + (t - s.now) := by unfold s3; split <;> rfl
  split
  · exact h3
  · exact h3

theorem State.advanceTo_now (s : State) (t : Nat) : (s.advanceTo t).now = max s.now t := by
  unfold State.advanceTo
  split
  · rw [State.advance_now]; omega
  · omega

/-- The only ramp, in progress, ends: the SLEW of PWR_LIMIT takes effect (R531). -/
theorem rampDone_last {s : State} {r : Ramp} (hr : s.power.ramps = [r]) (hb : r.begun = true) :
    execInputRampDone s = .next { s.advanceTo r.fin with
      power := { (s.advanceTo r.fin).power with ramps := [], slew := (s.advanceTo r.fin).rd PWR_LIMIT_SLEW } } := by
  have h : (s.advanceTo r.fin).power.ramps = [r] := (s.advanceTo_kept r.fin).ramps.trans hr
  simp [execInputRampDone, hr, hb, h, leastBy]

/-- While a ramp has not begun, the end of others leaves it and the slew in effect (R531). -/
theorem rampDone_scheduled {s : State} {r : Ramp} (hr : r ∈ s.power.ramps) (hb : r.begun = false) :
    ∃ t, execInputRampDone s = .next t ∧ r ∈ t.power.ramps ∧ t.power.slew = s.power.slew := by
  refine ⟨_, rfl, ?_⟩
  split
  · exact ⟨hr, rfl⟩
  next r' hleast =>
    have hne : r ≠ r' := by
      rintro rfl
      simpa [hb] using (List.mem_filter.mp (leastBy_mem hleast)).2
    have k := s.advanceTo_kept r'.fin
    have hmem : r ∈ (s.advanceTo r'.fin).power.ramps.filter (fun x => decide (x ≠ r')) := by
      rw [k.ramps]
      exact List.mem_filter.mpr ⟨hr, by simpa using hne⟩
    refine ⟨hmem, ?_⟩
    rw [← k.slew]
    exact if_neg (by simpa using List.ne_nil_of_mem hmem)

end Sys2Proof.Machine

section
open Sys2Proof.Machine Sys2Proof.Machine.Reg Sys2Proof.Claim

/-- Settles O19: a write of PWR_LIMIT checks its fields, and SLEW takes effect with no ramp left; records, audit and level keep it. -/
theorem slewTakesEffect : Obligations.SlewTakesEffect := by
  intro s m v r hu
  refine ⟨fun hfw hreach h1 h8 => ?_, fun hr hb => ⟨_, rampDone_last hr hb, rfl, (s.advanceTo_kept r.fin).rd rfl, s.advanceTo_now r.fin⟩,
    fun hr hb => rampDone_scheduled hr hb⟩
  obtain ⟨hc, hw⟩ := hu
  have k : s.RampsKept ((s.mxcGrant m PWR_LIMIT).auditWrite (whole m v) PWR_LIMIT) := (State.RampsKept.mxcGrant ..).trans (.auditWrite ..)
  obtain ⟨hslew, heff⟩ := State.limitWrite_slew (s := (s.mxcGrant m PWR_LIMIT).auditWrite (whole m v) PWR_LIMIT) (m := m) (v := v)
    (k.chains hc) (k.waiting.trans hw) h1 h8
  rw [k.ramps, k.slew] at heff
  refine ⟨_, ?_, hslew, heff⟩
  change execPwrLimitWrite (whole m v) s = _
  rw [execPwrLimitWrite, show s.fwOrInstaller (whole m v).m = true from hfw, State.regRow_of_reaches hreach]

end
end

section
/-! The caps (R545), the frames of the Gloley port (R633 to R635), and a request that hardware serves (R636, R637). -/
namespace Sys2Proof.Machine
open Reg Claim

/-! Caps. -/

theorem State.capInEffect_eq (s : State) : s.capInEffect =
    (let m := s.rd PWR_LIMIT_MAX_W
     let a := if s.rd PWR_CAP_OPERATOR = 0 then m else min m (s.rd PWR_CAP_OPERATOR)
     if s.rd PWR_CAP_BOARD = 0 then a else min a (s.rd PWR_CAP_BOARD)) := by
  simp only [State.capInEffect, State.on, bne_iff_ne, ne_eq, ite_not]

/-- A cap out of its range is refused (R545). -/
theorem State.setCap_refused {s : State} {f : RF} {v : Nat} (h : ¬ (v = 0 ∨ (s.rd PWR_LIMIT_CAP_MIN ≤ v ∧ v ≤ s.rd PWR_LIMIT_MAX_W))) :
    s.setCap f v = (s, ST_BAD_PARAM) := if_neg h

/-- `t` is `s` with the cap `f` set to `v` and the cap `g` kept: storage and the rings are as they were. -/
structure State.CapSet (s t : State) (f g : RF) (v : Nat) : Prop where
  own : t.rd f = v
  kept : t.rd g = s.rd g
  mem : t.mem = s.mem
  rings : t.rings = s.rings

/-- A cap in its range is set (R545); the other one in the register's low half is kept. -/
theorem State.setCap_set {s : State} {f g : RF} {v : Nat} (hu : Unloaded s)
    (hv : v = 0 ∨ (s.rd PWR_LIMIT_CAP_MIN ≤ v ∧ v ≤ s.rd PWR_LIMIT_MAX_W))
    (hf : f.off = PWR_CAP ∧ f.lo ≤ f.hi ∧ f.hi < 32 ∧ v < 2 ^ (f.hi + 1 - f.lo))
    (hg : g.off = PWR_CAP ∧ g.hi < 32 ∧ (g.hi < f.lo ∨ f.hi < g.lo)) :
    ∃ t, s.setCap f v = (t, ST_OK) ∧ s.CapSet t f g v := by
  obtain ⟨hfo, hfl, hfh, hfv⟩ := hf
  obtain ⟨hgo, hgh, hfg⟩ := hg
  obtain ⟨hc, hw⟩ := hu
  have k := (State.LevelApart.fit (s := (s.wr f v).wr PWR_CAP_IN_EFFECT (s.wr f v).capInEffect) hc hw).holdFrom s
  refine ⟨_, if_pos hv, ?_, ?_, by rw [k.1]; rfl, by rw [k.1]; rfl⟩
  · rw [k.rd _ (.inr hfo), State.rd_wr_apart _ _ _ _ (by decide) (by decide) hfo (.inl hfh),
      State.rd_wr_same _ _ _ hfl (by omega), Nat.mod_eq_of_lt hfv]
  · rw [k.rd _ (.inr hgo), State.rd_wr_apart _ _ _ _ (by decide) (by decide) hgo (.inl hgh),
      State.rd_wr_apart _ _ _ _ hfl (by omega) (hgo.trans hfo.symm) hfg]

/-! A command of a ring. -/

theorem Packet.result_eq_ans (p : Packet) (st : Nat) : p.result st = ans p st := by
  simp [Packet.result, ans, Packet.w, bitsOf]

theorem State.command_of_has {s : State} {r : Ring} {cmd : Nat} {p : Packet} (h : Has s r cmd p) (f : Packet → State) :
    s.command r.val cmd f = f p := by
  simp only [State.command, h]

/-- A command that left its ring alone ends with its result. -/
theorem State.finishCmd_answered {s t : State} (r : Ring) (x : Result) (h : t.rings = s.rings) : Answered s (t.finishCmd r.val x) r x := by
  have e : t.ring r.val = s.ring r.val := by simp [State.ring, h]
  simp [Answered, State.finishCmd, e]

/-! Bytes and frames (R633). -/

@[simp] theorem leBytes_length (k n : Nat) : (leBytes k n).length = k := by
  induction k generalizing n with
  | zero => rfl
  | succ k ih => simp [leBytes, ih]

theorem leNat_leBytes (k n : Nat) : leNat (leBytes k n) = n % 256 ^ k := by
  induction k generalizing n with
  | zero => simp [leBytes, leNat, Nat.mod_one]
  | succ k ih =>
    have e : 256 ^ (k + 1) = 256 * 256 ^ k := by ring
    simp only [leBytes, leNat, ih, BitVec.toNat_ofNat]
    rw [e, Nat.mod_mul]

/-- A field between other bytes of a frame. -/
theorem frameField_between (a b : List Byte) {k n v : Nat} (ha : a.length = k) (hv : v < 256 ^ n) :
    frameField (a ++ (leBytes n v ++ b)) k n = v := by
  rw [frameField, ← ha, List.drop_left, List.take_left' (leBytes_length n v), leNat_leBytes, Nat.mod_eq_of_lt hv]

theorem crc16Bit_lt (c i : Nat) (h : c < 2 ^ 16) : crc16Bit c i < 2 ^ 16 := by
  unfold crc16Bit
  split
  · exact Nat.xor_lt_two_pow (Nat.mod_lt _ (by decide)) (by decide)
  · omega

theorem crc16_lt (bs : List Byte) : crc16 bs < 2 ^ 16 := by
  refine List.foldlRecOn (motive := fun c => c < 2 ^ 16) bs _ (by decide) (fun c hc b _ => ?_)
  have hb : b.toNat * 2 ^ 8 < 2 ^ 16 := by have := b.isLt; omega
  exact List.foldlRecOn (motive := fun c => c < 2 ^ 16) _ _ (Nat.xor_lt_two_pow hc hb) (fun c hc i _ => crc16Bit_lt c i hc)

section
variable {op tag sess arg : Nat} {data : List Byte}

@[simp] theorem frameHead_length (op tag sess arg : Nat) (data : List Byte) : (frameHead op tag sess arg data).length = 16 + data.length := by
  simp [frameHead]; omega

/-- The fields of a frame are those that it was given. -/
theorem frameOf_fields (hop : op < 256) (h : Fits tag sess arg data) :
    let bs := (frameOf op tag sess arg data).bytes
    frameField bs 0 1 = 1 ∧ frameField bs 1 1 = op ∧ frameField bs 2 1 = 0 ∧ frameField bs 3 1 = tag ∧ frameField bs 4 2 = data.length
    ∧ frameField bs 6 2 = 0 ∧ frameField bs 8 4 = sess ∧ frameField bs 12 4 = arg := by
  obtain ⟨ht, hs, ha, hd⟩ := h
  simp [frameOf, frameHead, frameField, leBytes, leNat]
  omega

/-- A frame up to its CRC. -/
theorem frameOf_take : (frameOf op tag sess arg data).bytes.take (16 + data.length) = frameHead op tag sess arg data :=
  List.take_left' (frameHead_length ..)

theorem frameReq_frameOf (hop : op < 256) (h : Fits tag sess arg data) :
    frameReq (frameOf op tag sess arg data).bytes = { op := op, tag := tag, session := sess, arg := arg, data := data } := by
  obtain ⟨-, hop', -, htag, hlen, -, hsess, harg⟩ := frameOf_fields hop h
  have hdata : ((frameOf op tag sess arg data).bytes.drop 16).take data.length = data := by
    rw [List.take_drop, frameOf_take]
    simp [frameHead, leBytes]
  rw [frameReq, hop', htag, hsess, harg, hlen, hdata]

/-- It is accepted (R635). -/
theorem frameBad_frameOf (hop : op < 256) (h : Fits tag sess arg data) : frameBad (frameOf op tag sess arg data).bytes = false := by
  obtain ⟨hver, -, hkind, -, hlen, hzero, -, -⟩ := frameOf_fields hop h
  obtain ⟨-, -, -, hd⟩ := h
  have hcrc : frameField (frameOf op tag sess arg data).bytes (16 + data.length) 2 = crc16 (frameHead op tag sess arg data) := by
    simpa [frameOf] using frameField_between (frameHead op tag sess arg data) [] (n := 2) (frameHead_length ..) (crc16_lt _)
  have hbytes : (frameOf op tag sess arg data).bytes.length = 18 + data.length := by
    simp [frameOf]; omega
  simp [frameBad, hver, hkind, hzero, hlen, hcrc, frameOf_take, hbytes, hd]
end

/-! Responses. -/

/-- The response of an accepted request is a frame of R633. -/
theorem State.glReady_responds (s : State) (q : GlReq) (kind status reply : Nat) (data : List Byte) :
    Responds (s.glReady q kind status reply data) q.op q.tag kind status reply data := by
  simp [Responds, State.glReady, State.glFrame, leBytes, Nat.add_comm 16]

/-- Nothing but the response changed. -/
theorem State.glReady_only (s : State) (q : GlReq) (kind status reply : Nat) (data : List Byte) :
    OnlyResponse s (s.glReady q kind status reply data) := rfl

/-- A port that serves what hardware serves performs such a request in the step that accepts it (R634, R636, R637). -/
theorem State.glRequest_served {s : State} {x : Frame} {op : Nat} {f : State → GlReq → State × Nat × Nat × List Byte} (hs : ServesHw s)
    (hbad : frameBad x.bytes = false) (hop : (frameReq x.bytes).op = op) (hl : glListed op = true) :
    s.glRequest x op (fun _ => true) (fun _ => true) f =
      (f s (frameReq x.bytes)).1.glReady (frameReq x.bytes) kindDone (f s (frameReq x.bytes)).2.1 (f s (frameReq x.bytes)).2.2.1
        (f s (frameReq x.bytes)).2.2.2 := by
  obtain ⟨hoff, hrip, hlcs, hfree⟩ := hs
  have hgate : s.glGate op true = none := by
    have h4 : s.lcs ≠ 4 := Nat.ne_of_lt hlcs
    simp [State.glGate, hrip, h4]
  have hnow : ¬ s.now < s.gloley.readyAt := Nat.not_lt.mpr hfree
  simp [State.glRequest, State.glAnswers, hoff, hnow, hbad, hop, hl, hgate]

/-- POWER_CAP of the port, served: the board cap is set or refused, and the least cap answers (R545, R636). -/
theorem execGloleyPowerCap_served {s : State} {tag cap : Nat} (hs : ServesHw s) (ht : tag < 256) (hc : cap < 2 ^ 16) :
    execGloleyPowerCap (frameOf 5 tag 0 cap []) s = .next ((s.setCap PWR_CAP_BOARD cap).1.glReady
      { op := 5, tag := tag, session := 0, arg := cap, data := [] } kindDone (s.setCap PWR_CAP_BOARD cap).2
      (s.setCap PWR_CAP_BOARD cap).1.capInEffect []) := by
  have hfits : Fits tag 0 cap [] := ⟨ht, by decide, by omega, by simp⟩
  have hreq := frameReq_frameOf (op := 5) (by decide) hfits
  have hlow : ¬ 65536 ≤ cap := by omega
  rw [execGloleyPowerCap, State.glRequest_served hs (frameBad_frameOf (by decide) hfits) (by rw [hreq]) (by decide), hreq]
  simp [hlow]

end Sys2Proof.Machine

section
open Sys2Proof.Machine Sys2Proof.Machine.Reg Sys2Proof.Claim

/-- Settles O18: both caps go through one check and one setting, and the least cap is read in the state they leave. -/
theorem powerCaps : Obligations.PowerCaps := by
  intro r s p cap tag hu inRange least
  have hleast : least = State.capInEffect := funext fun t => t.capInEffect_eq.symm
  clear_value least
  subst hleast
  refine ⟨fun hp hcap => ?_, fun hs ht hc => ⟨fun hin => ?_, fun hout => ?_⟩⟩
  · have hbits : bitsOf (p.w 1) 15 0 = cap := by simpa [bitsOf] using hcap
    have hexec : execPowerCap r s = .next ((s.setCap PWR_CAP_OPERATOR cap).1.finishCmd r.val
        { ans p (s.setCap PWR_CAP_OPERATOR cap).2 with reply0 := (s.setCap PWR_CAP_OPERATOR cap).1.capInEffect }) := by
      rw [execPowerCap, State.command_of_has hp, hbits, ← Packet.result_eq_ans]
    refine ⟨fun hin => ?_, fun hout => ?_⟩
    · obtain ⟨t, ht, hset⟩ := State.setCap_set (f := PWR_CAP_OPERATOR) (g := PWR_CAP_BOARD) hu hin
        ⟨rfl, by decide, by decide, hcap ▸ Nat.mod_lt _ (by decide)⟩ ⟨rfl, by decide, .inr (by decide)⟩
      rw [ht] at hexec
      exact ⟨_, hexec, hset.own, hset.kept, State.finishCmd_answered r _ hset.rings, hset.mem⟩
    · rw [State.setCap_refused hout] at hexec
      exact hexec
  · obtain ⟨t, ht', hset⟩ := State.setCap_set (f := PWR_CAP_BOARD) (g := PWR_CAP_OPERATOR) hu hin
      ⟨rfl, by decide, by decide, hc⟩ ⟨rfl, by decide, .inl (by decide)⟩
    have hexec := execGloleyPowerCap_served hs ht hc
    rw [ht'] at hexec
    exact ⟨_, hexec, hset.own, hset.kept, t.glReady_responds .., hset.mem⟩
  · have hexec := execGloleyPowerCap_served hs ht hc
    rw [State.setCap_refused hout] at hexec
    exact ⟨_, hexec, s.glReady_only .., s.glReady_responds ..⟩

end
end

section
/-! Time that moves on to a deadline, and the fault sources (R578, R585). -/
namespace Sys2Proof.Machine
open Reg Claim

@[simp] theorem State.advance_mem (s : State) (t : Nat) : (s.advance t).mem = s.mem := by
  unfold State.advance
  extract_lets _ _ _ _ _ _ _ s1 s2 s3
  have h3 : s3.mem = s.mem := by unfold s3; split <;> rfl
  split
  · exact h3
  · exact h3

/-- The registers that change with the time are TIME_NOW, TIME_SLEW and LCS_BOOT (R610, R612). -/
theorem State.reg_advance (s : State) (t : Nat) {o : Nat} (hnow : o ≠ TIME_NOW) (hslew : o ≠ TIME_SLEW) (hboot : o ≠ LCS_BOOT) :
    (s.advance t).reg o = s.reg o := by
  unfold State.advance
  extract_lets _ _ _ _ _ _ _ s1 s2 s3
  have h2 : s2.reg o = s.reg o := State.reg_wr_other s1 TIME_NOW_NS _ _ hnow
  have h3 : s3.reg o = s.reg o := by
    unfold s3
    split
    · exact h2
    · exact (State.reg_wr_other s2 TIME_SLEW_AHEAD _ _ hslew).trans h2
  split
  · exact h3
  · exact (State.reg_wr_other s3 LCS_BOOT_BOOT_MS _ _ hboot).trans h3

@[simp] theorem State.advanceTo_mem (s : State) (t : Nat) : (s.advanceTo t).mem = s.mem := by
  unfold State.advanceTo
  split
  · exact s.advance_mem t
  · rfl

theorem State.reg_advanceTo (s : State) (t : Nat) {o : Nat} (hnow : o ≠ TIME_NOW) (hslew : o ≠ TIME_SLEW) (hboot : o ≠ LCS_BOOT) :
    (s.advanceTo t).reg o = s.reg o := by
  unfold State.advanceTo
  split
  · exact s.reg_advance t hnow hslew hboot
  · rfl

/-- A source keeps its class, whatever time passes. -/
theorem State.srcClass_advanceTo (s : State) (t : Nat) (f : Source) :
    (s.advanceTo t).rd (FLT_SRC_CLASS f) = s.rd (FLT_SRC_CLASS f) := by
  have hf := f.isLt
  have h : (s.advanceTo t).reg (FLT_SRC f) = s.reg (FLT_SRC f) := by
    apply State.reg_advanceTo <;> simp only [FLT_SRC, TIME_NOW, TIME_SLEW, LCS_BOOT] <;> omega
  rw [State.rd, State.rd, FLT_SRC_CLASS, h]

/-- Sources have registers of their own. -/
theorem fltSrc_ne {f g : Nat} (h : g ≠ f) : FLT_SRC g ≠ FLT_SRC f := by
  simp only [FLT_SRC]
  omega

theorem execClassDemotion_promoted {s : State} {f : Source} (h : srcDefault f < s.rd (FLT_SRC_CLASS f)) :
    execClassDemotion f s =
      let t := s.advanceTo (tabGet s.srcQuiet 0 f + 1000000 * s.rd (FLT_SRC_WINDOW f))
      .next { t.wr (FLT_SRC_CLASS f) (s.rd (FLT_SRC_CLASS f) - 1) with srcQuiet := tabPut t.srcQuiet f t.now } := by
  simp only [execClassDemotion, if_neg (Nat.not_le.mpr h), State.srcClass_advanceTo]

theorem execClassDemotion_default {s : State} {f : Source} (h : s.rd (FLT_SRC_CLASS f) ≤ srcDefault f) :
    execClassDemotion f s = .next s := by
  rw [execClassDemotion, if_pos h]

end Sys2Proof.Machine

section
open Sys2Proof.Machine Sys2Proof.Machine.Reg Sys2Proof.Claim

/-- Settles O20: the time that passes leaves every source's register, and the write lowers the class of this source alone. -/
theorem classDemoted : Obligations.ClassDemoted := by
  intro s src f
  refine ⟨fun hup => ⟨_, execClassDemotion_promoted hup, ?_, State.advanceTo_now .., tabGet_tabPut_same .., fun g hg => ?_,
    State.advanceTo_mem ..⟩, execClassDemotion_default⟩
  · have hlt : s.rd (FLT_SRC_CLASS src) < 4 := s.rd_lt _
    have hpos : 0 < s.rd (FLT_SRC_CLASS src) := Nat.zero_lt_of_lt hup
    have hwidth : (FLT_SRC_CLASS src).lo ≤ (FLT_SRC_CLASS src).hi := show 60 ≤ 61 by decide
    have h64 : (FLT_SRC_CLASS src).hi < 64 := show 61 < 64 by decide
    calc (State.wr _ (FLT_SRC_CLASS src) (s.rd (FLT_SRC_CLASS src) - 1)).rd (FLT_SRC_CLASS src) + 1
      _ = (s.rd (FLT_SRC_CLASS src) - 1) % 4 + 1 := by rw [State.rd_wr_same _ _ _ hwidth h64]; rfl
      _ = s.rd (FLT_SRC_CLASS src) := by omega
  · have hne : FLT_SRC g ≠ FLT_SRC src := fltSrc_ne (fun e => hg (Fin.ext e))
    exact (State.rd_wr_off _ (FLT_SRC_CLASS src) (FLT_SRC_CLASS g) _ hne).trans (s.srcClass_advanceTo _ g)

end
end

section
/-! The Gloley port's RESET and the module reset that it starts (R569, R602, R634, R640). -/
namespace Sys2Proof.Machine
open Reg Claim

/-! What time leaves. -/

@[simp] theorem State.advance_gloley (s : State) (t : Nat) : (s.advance t).gloley = s.gloley := by
  unfold State.advance
  extract_lets _ _ _ _ _ _ _ s1 s2 s3
  have h3 : s3.gloley = s.gloley := by unfold s3; split <;> rfl
  split
  · exact h3
  · exact h3

@[simp] theorem State.advance_power (s : State) (t : Nat) : (s.advance t).power = s.power := by
  unfold State.advance
  extract_lets _ _ _ _ _ _ _ s1 s2 s3
  have h3 : s3.power = s.power := by unfold s3; split <;> rfl
  split
  · exact h3
  · exact h3

@[simp] theorem State.advanceTo_gloley (s : State) (t : Nat) : (s.advanceTo t).gloley = s.gloley := by
  unfold State.advanceTo
  split
  · exact s.advance_gloley t
  · rfl

@[simp] theorem State.advanceTo_power (s : State) (t : Nat) : (s.advanceTo t).power = s.power := by
  unfold State.advanceTo
  split
  · exact s.advance_power t
  · rfl

/-! What the steps of a module reset leave of the time, of storage and of the port. -/

/-- `t` keeps the time, storage and the chains of `s`, and the port's mode, address and scheduled reset. -/
structure State.PortKept (s t : State) : Prop where
  now : t.now = s.now
  mem : t.mem = s.mem
  chains : t.chains = s.chains
  resetAt : t.gloley.resetAt = s.gloley.resetAt
  i3c : t.gloley.i3c = s.gloley.i3c
  dyn : t.gloley.dyn = s.gloley.dyn

namespace State.PortKept

theorem refl (s : State) : s.PortKept s := ⟨rfl, rfl, rfl, rfl, rfl, rfl⟩

theorem trans {s t u : State} (h : s.PortKept t) (h' : t.PortKept u) : s.PortKept u :=
  ⟨h'.now.trans h.now, h'.mem.trans h.mem, h'.chains.trans h.chains, h'.resetAt.trans h.resetAt, h'.i3c.trans h.i3c, h'.dyn.trans h.dyn⟩

theorem ite {s t u : State} {c : Prop} [Decidable c] (h : s.PortKept t) (h' : s.PortKept u) : s.PortKept (if c then t else u) := by
  split <;> assumption

theorem setReg (s : State) (o : Nat) (w : Word) : s.PortKept (s.setReg o w) := ⟨rfl, rfl, rfl, rfl, rfl, rfl⟩

theorem wr (s : State) (f : RF) (v : Nat) : s.PortKept (s.wr f v) := setReg ..

theorem foldl {α : Type} {f : State → α → State} (h : ∀ s a, State.PortKept s (f s a)) (l : List α) (s : State) : s.PortKept (l.foldl f s) :=
  List.foldlRecOn (motive := s.PortKept) l f (refl s) (fun t ht a _ => ht.trans (h t a))

theorem flashTouch (s : State) : s.PortKept s.flashTouch := by
  unfold State.flashTouch
  split
  · exact ⟨rfl, rfl, rfl, rfl, rfl, rfl⟩
  · exact ite (refl s) ⟨rfl, rfl, rfl, rfl, rfl, rfl⟩

theorem audit (s : State) (action status : Nat) (a : Actor) (x y z : Nat) : s.PortKept (s.audit action status a x y z) :=
  (flashTouch s).trans ⟨rfl, rfl, rfl, rfl, rfl, rfl⟩

theorem abandonUpdate (s : State) : s.PortKept s.abandonUpdate := by
  unfold State.abandonUpdate
  split
  · exact refl s
  · dsimp only
    split
    · exact (flashTouch s).trans ⟨rfl, rfl, rfl, rfl, rfl, rfl⟩
    · exact ⟨rfl, rfl, rfl, rfl, rfl, rfl⟩

theorem endSession (s : State) (i : Nat) : s.PortKept (s.endSession i) := by
  unfold State.endSession
  extract_lets _ s1 s2 _ s3
  have h2 : s.PortKept s2 := (audit ..).trans (setReg ..)
  have h3 : s2.PortKept s3 := ⟨rfl, rfl, rfl, rfl, rfl, rfl⟩
  exact ite (refl s) (ite ((h2.trans h3).trans (abandonUpdate s3)) (h2.trans h3))

theorem endSessions (s : State) (p : State → Nat → Bool) : s.PortKept (s.endSessions p) :=
  foldl (fun s i => ite (endSession s i) (refl s)) _ s

theorem glLoses (s : State) : s.PortKept s.glLoses := ite ⟨rfl, rfl, rfl, rfl, rfl, rfl⟩ (refl s)

theorem alert (s : State) (n : Nat) : s.PortKept (s.alert n) := ite ⟨rfl, rfl, rfl, rfl, rfl, rfl⟩ ⟨rfl, rfl, rfl, rfl, rfl, rfl⟩

end State.PortKept

@[simp] theorem State.alert_regs (s : State) (n : Nat) : (s.alert n).regs = s.regs := by
  unfold State.alert
  extract_lets
  split <;> rfl

/-! Registers in a module reset (R10). -/

/-- A register of which a module reset keeps no field returns to its reset value. -/
theorem State.reg_resetRegs (s : State) {lo hi o : Nat} (hlo : lo ≤ o) (hhi : o < hi) (hk : keptMask o = 0) :
    (s.resetRegs lo hi).reg o = resetWord o := by
  simp only [State.reg, State.resetRegs]
  induction s.regs with
  | nil => rfl
  | cons p t ih =>
    obtain ⟨k, w⟩ := p
    by_cases h : k = o
    · subst h
      simp [tabFind, hlo, hhi, hk, mergeBits]
    · have hmap : ∀ w' : Word, tabFind ((k, w') :: t) o = tabFind t o := fun w' => if_neg h
      rw [List.map_cons]
      split <;> simpa [tabFind, h] using ih

/-- What a module reset leaves (R569, R618): storage is empty, no chain runs and no update is open; the port keeps its mode and
address, and no reset of its own is scheduled (R640). -/
structure State.ModuleReset (s t : State) (cause : Nat) : Prop where
  now : t.now = s.now
  mem : t.mem = []
  chains : t.chains = []
  last : t.rd RST_CAUSE_LAST = cause % 8
  update : t.rd LCS_UPDATE_OPEN = 0
  resetAt : t.gloley.resetAt = none
  i3c : t.gloley.i3c = s.gloley.i3c
  dyn : t.gloley.dyn = s.gloley.dyn

/-- The loader's start writes LCS_BOOT alone. -/
theorem State.startLoader_reg (s : State) {o : Nat} (h : o ≠ LCS_BOOT) : s.startLoader.reg o = s.reg o := State.reg_wr_other _ _ _ _ h

theorem State.PortKept.startLoader (s : State) : s.PortKept s.startLoader := ⟨rfl, rfl, rfl, rfl, rfl, rfl⟩

theorem State.PortKept.setDomain (s : State) (d : Nat) (v : Bool) : s.PortKept (s.setDomain d v) := .ite (.wr ..) (.wr ..)

/-- The states of the fenced channels lie in registers of their own. -/
theorem State.fencedChannels_update (s : State) :
    ((List.range 96).foldl (fun s c => if s.chFenced c then s.wr (MEMC_STATUS_STATE c) 4 else s) s).reg LCS_UPDATE = s.reg LCS_UPDATE := by
  refine List.foldlRecOn (motive := fun t : State => t.reg LCS_UPDATE = s.reg LCS_UPDATE) _ _ rfl (fun t ht c _ => ?_)
  split
  · refine (State.reg_wr_other _ _ _ _ ?_).trans ht
    simp only [LCS_UPDATE, MEMC_STATUS_STATE, MEMC_STATUS]
    omega
  · exact ht

/-- Sessions and an open update end first; then storage, the units and the registers return to their reset state, and the loader starts. -/
theorem State.moduleReset_reset {s : State} (cause : Nat) (hrip : s.power.ripcord = false) (hoff : s.power.off = false) :
    s.ModuleReset (s.moduleReset cause) cause := by
  have hpower : ¬ (s.power.ripcord || s.power.off) = true := by simp [hrip, hoff]
  unfold State.moduleReset
  rw [if_neg hpower]
  extract_lets s1 wasReady s2 area s3 _ _ _ _ s4 s5 coasts s6 s7 s8 s9
  have h1 : s.PortKept s1 := (State.PortKept.endSessions ..).trans (.abandonUpdate _)
  have h2 : s.PortKept s2 := .ite (h1.trans (.glLoses s1)) h1
  have h5 : s4.PortKept s5 := .foldl (fun s c => .ite (.wr ..) (.refl s)) _ _
  have h7 : s5.PortKept s7 :=
    (((State.PortKept.wr ..).trans (.wr ..)).trans (.wr ..)).trans (((State.PortKept.wr ..).trans (.wr ..)).trans (.setDomain ..))
  have h9 : s7.PortKept s9 := ((State.PortKept.wr ..).trans (.wr ..)).trans ((State.PortKept.wr ..).trans (.startLoader _))
  have h : s9.PortKept (if wasReady then s9.alert 3 else s9) := .ite (.alert ..) (.refl s9)
  have hregs : (if wasReady then s9.alert 3 else s9).regs = s9.regs := by split <;> simp
  have k := ((h5.trans h7).trans h9).trans h
  have hlast : s9.rd RST_CAUSE_LAST = cause % 8 := by
    have e : s9.reg RST_CAUSE = (s8.wr RST_CAUSE_LAST cause).reg RST_CAUSE := State.startLoader_reg _ (by decide)
    rw [State.rd, show RST_CAUSE_LAST.off = RST_CAUSE from rfl, e]
    exact State.rd_wr_same _ _ _ (by decide) (by decide)
  have hupdate : s9.reg LCS_UPDATE = 0 := by
    have e4 : s4.reg LCS_UPDATE = 0 := s2.reg_resetRegs (by decide) (by decide) rfl
    have e5 : s5.reg LCS_UPDATE = s4.reg LCS_UPDATE := s4.fencedChannels_update
    have e8 : s8.reg LCS_UPDATE = s5.reg LCS_UPDATE := by
      clear_value s5
      simp (disch := decide) only [s8, s7, s6, State.count, State.setDomain, if_neg, State.reg_wr_other]
    have e9 : s9.reg LCS_UPDATE = s8.reg LCS_UPDATE := (State.startLoader_reg _ (by decide)).trans (State.reg_wr_other _ _ _ _ (by decide))
    rw [e9, e8, e5, e4]
  clear_value s9
  have hopen : s9.rd LCS_UPDATE_OPEN = 0 := by
    rw [State.rd, show LCS_UPDATE_OPEN.off = LCS_UPDATE from rfl, hupdate]
    rfl
  exact ⟨k.now.trans h2.now, k.mem, k.chains, (State.rd_congr hregs _).trans hlast, (State.rd_congr hregs _).trans hopen,
    k.resetAt, k.i3c.trans h2.i3c, k.dyn.trans h2.dyn⟩

/-! RESET, its response and its start (R634, R640). -/

/-- A byte of a frame as a field, where the frame may end before it. -/
theorem frameField_byte (bs : List Byte) (k : Nat) {v : Nat} (hv : v ≠ 0) :
    frameField bs k 1 = v ↔ ((bs.drop k).take 1).map (·.toNat) = [v] := by
  rw [frameField]
  cases bs.drop k with
  | nil => simp [leNat, hv.symm]
  | cons b bs => simp [leNat]

/-- RESET of the port, served: the reset starts 10 ms after the request, or when an earlier RESET starts it (R640). -/
theorem execGloleyReset_served {s : State} {tag : Nat} (hs : ServesHw s) (ht : tag < 256) :
    execGloleyReset (frameOf 7 tag 0 0 []) s = .next (({ s with gloley := { s.gloley with
      resetAt := some ((s.gloley.resetAt.map (fun u => min u (s.now + 10000000))).getD (s.now + 10000000)) } } : State).glReady
        { op := 7, tag := tag, session := 0, arg := 0, data := [] } kindDone ST_OK 0 []) := by
  have hfits : Fits tag 0 0 [] := ⟨ht, by decide, by decide, by simp⟩
  have hreq := frameReq_frameOf (op := 7) (by decide) hfits
  rw [execGloleyReset, State.glRequest_served hs (frameBad_frameOf (by decide) hfits) (by rw [hreq]) (by decide), hreq]
  cases s.gloley.resetAt <;> rfl

/-- A waiting response is read, and the first read of a RESET's brings the reset to 1 ms from now (R634, R640). -/
theorem execGloleyResponseRead_waiting {s : State} (hs : ServesHw s) (hr : s.gloley.response ≠ []) (hl : s.gloley.lost = false) :
    execGloleyResponseRead s = .next (({ s with gloley := { s.gloley with
      readOnce := true
      resetAt := s.gloley.resetAt.map (fun t =>
        if s.gloley.readOnce = false ∧ frameField s.gloley.response 1 1 = 7 then s.now + 1000000 else t) } } : State).emit
      (.gloley s.gloley.response)) := by
  obtain ⟨hoff, -, -, hfree⟩ := hs
  have hnow : ¬ s.now < s.gloley.readyAt := Nat.not_lt.mpr hfree
  simp [execGloleyResponseRead, State.glAnswers, State.glAbort, hoff, hnow, hr, hl]

/-- The scheduled reset starts at its moment, with the cause GLOLEY (R640). -/
theorem execGloleyResetStart_scheduled {s : State} {t0 : Nat} (h : s.gloley.resetAt = some t0) :
    execGloleyResetStart s = .next (State.moduleReset { s.advanceTo t0 with gloley := { (s.advanceTo t0).gloley with resetAt := none } } 3) := by
  simp only [execGloleyResetStart, h]

end Sys2Proof.Machine

section
open Sys2Proof.Machine Sys2Proof.Machine.Reg Sys2Proof.Claim

/-- Settles O21: a request and a read set when the reset starts; the time that passes keeps the port, and the module reset keeps its mode and address. -/
theorem gloleyReset : Obligations.GloleyReset := by
  intro s tag t0 hs ht
  refine ⟨⟨_, execGloleyReset_served hs ht, rfl, rfl, State.glReady_responds .., rfl, rfl⟩,
    fun h0 hr hl => ⟨_, execGloleyResponseRead_waiting hs hr hl, ?_, rfl, rfl, rfl⟩,
    fun h0 => ⟨_, execGloleyResetStart_scheduled h0, ?_⟩⟩
  · simp only [State.emit_gloley, h0, Option.map_some, frameField_byte _ _ (show 7 ≠ 0 by decide)]
  · obtain ⟨hoff, hrip, -, -⟩ := hs
    have k := State.moduleReset_reset (s := { s.advanceTo t0 with gloley := { (s.advanceTo t0).gloley with resetAt := none } }) 3
      (by simpa using hrip) (by simpa using hoff)
    have hnow := k.now.trans (s.advanceTo_now t0)
    exact ⟨hnow ▸ le_max_left .., hnow ▸ le_max_right .., k.last, k.mem, k.chains, k.update, k.i3c.trans (by simp), k.dyn.trans (by simp), k.resetAt⟩

end
end

section
/-! Acknowledgements of fault records (R587, R589), and FAULT_ACK of the Gloley port (R639). -/
namespace Sys2Proof.Machine
open Reg Claim

/-- Of two SEQ values of 32 bits the first is earlier by less than half their range, counted around its end (R589). -/
theorem seqEarlier_iff {a b : Nat} (ha : a < 2 ^ 32) (hb : b < 2 ^ 32) :
    seqEarlier a b = true ↔ (a + 1 ≤ b ∧ b < a + 2 ^ 31) ∨ b + 2 ^ 31 < a := by
  simp only [seqEarlier, Bool.and_eq_true, decide_eq_true_eq]
  omega

/-- A source that is not pending, or whose record is later than the SEQ, is not acknowledged. -/
theorem State.acknowledge_bad {s : State} {src seq : Nat} {fw : Bool}
    (h : 640 ≤ src ∨ s.rd (FLT_SRC_PENDING src) = 0 ∨ ∃ t0 x, tabFind s.srcTimer src = some (t0, x) ∧ seqEarlier seq x.seq = true) :
    s.acknowledge src seq fw = (s, ST_BAD_PARAM) := by
  unfold State.acknowledge
  split
  · rfl
  next x hx =>
    refine if_pos (h.imp_right (Or.imp_right ?_))
    rintro ⟨t0, y, hy, hearly⟩
    cases hx.symm.trans hy
    exact hearly

section
variable {s : State} {src seq t0 : Nat} {fw : Bool} {x : FltRec}

/-- A record that is pending and no later than the SEQ is acknowledged by the side whose class it is (R589). -/
theorem State.acknowledge_pending (hx : tabFind s.srcTimer src = some (t0, x)) (hsrc : src < 640) (hp : s.rd (FLT_SRC_PENDING src) ≠ 0)
    (hseq : seqEarlier seq x.seq = false) :
    s.acknowledge src seq fw =
      if (fw && s.rd (FLT_SRC_PENDING src) == 2) || (!fw && s.rd (FLT_SRC_PENDING src) == 1) then (s, ST_NO_RIGHT)
      else ({ s.setPending src 0 with srcTimer := tabDel (s.setPending src 0).srcTimer src }, ST_OK) := by
  have hgood : ¬ (640 ≤ src ∨ s.rd (FLT_SRC_PENDING src) = 0 ∨ seqEarlier seq x.seq = true) := by simp [hsrc, hp, hseq]
  simp only [State.acknowledge, hx, if_neg hgood]
end

/-- A source reads its pending class as it was set; the counts are of another register (R587). -/
theorem State.rd_setPending (s : State) {src : Nat} (v : Nat) (h : src < 640) : (s.setPending src v).rd (FLT_SRC_PENDING src) = v % 4 := by
  have hne : FLT_SRC src ≠ FLT_STAT := by
    simp only [FLT_SRC, FLT_STAT]
    omega
  unfold State.setPending
  extract_lets _ s1 s2 s3
  have h1 : s1.rd (FLT_SRC_PENDING src) = v % 4 :=
    State.rd_wr_same s (FLT_SRC_PENDING src) v (show 58 ≤ 59 by decide) (show 59 < 64 by decide)
  have h2 : s2.rd (FLT_SRC_PENDING src) = v % 4 := (State.rd_wr_off s1 FLT_STAT_B_PEND _ _ hne).trans h1
  have h3 : s3.rd (FLT_SRC_PENDING src) = v % 4 := (State.rd_wr_off s2 FLT_STAT_C_PEND _ _ hne).trans h2
  clear_value s3
  exact (State.rd_congr (s := s3) (by rfl) _).trans h3

/-- FAULT_ACK of the port, served: it acknowledges as the host does, and answers the status (R639). -/
theorem execGloleyFaultAck_served {s : State} {tag seq src : Nat} (hs : ServesHw s) (hf : Fits tag 0 seq []) (hsrc : src < 2 ^ 16) :
    execGloleyFaultAck (frameOf 4 tag 0 seq (leBytes 2 src)) s = .next ((s.acknowledge src seq false).1.glReady
      { op := 4, tag := tag, session := 0, arg := seq, data := leBytes 2 src } kindDone (s.acknowledge src seq false).2 0 []) := by
  obtain ⟨htag, hsess, harg, -⟩ := hf
  have hfits : Fits tag 0 seq (leBytes 2 src) := ⟨htag, hsess, harg, by simp⟩
  have hreq := frameReq_frameOf (op := 4) (by decide) hfits
  have hdata : leNat (leBytes 2 src) = src := (leNat_leBytes 2 src).trans (Nat.mod_eq_of_lt hsrc)
  rw [execGloleyFaultAck, State.glRequest_served hs (frameBad_frameOf (by decide) hfits) (by rw [hreq]) (by decide), hreq]
  simp [hdata, glOnly]

end Sys2Proof.Machine

section
open Sys2Proof.Machine Sys2Proof.Machine.Reg Sys2Proof.Claim

/-- Settles O22: the port acknowledges as the host does (R589), with the three outcomes of an acknowledgement. -/
theorem gloleyAcknowledges : Obligations.GloleyAcknowledges := by
  intro s tag seq src t0 x hs hf hsrc pend early
  have hexec := execGloleyFaultAck_served hs hf hsrc
  obtain ⟨-, -, hseq, -⟩ := hf
  have hlater : x.seq < 2 ^ 32 → ¬ early → seqEarlier seq x.seq = false := fun hx he =>
    Bool.eq_false_iff.mpr (mt (seqEarlier_iff hseq hx).mp he)
  refine ⟨fun hx hx32 h640 (hp : s.rd (FLT_SRC_PENDING src) = 2) he => ?_, fun hx hx32 h640 (hp : s.rd (FLT_SRC_PENDING src) = 1) he => ?_,
    fun h => ?_⟩
  · rw [State.acknowledge_pending hx h640 (by simp [hp]) (hlater hx32 he), if_neg (by simp [hp])] at hexec
    exact ⟨_, hexec, s.rd_setPending 0 h640, tabFind_tabDel_same .., State.glReady_responds .., rfl⟩
  · rw [State.acknowledge_pending hx h640 (by simp [hp]) (hlater hx32 he), if_pos (by simp [hp])] at hexec
    exact ⟨_, hexec, s.glReady_only .., s.glReady_responds ..⟩
  · have hbad : 640 ≤ src ∨ pend = 0 ∨ ∃ t0 x, tabFind s.srcTimer src = some (t0, x) ∧ seqEarlier seq x.seq = true :=
      h.imp_right (Or.imp_right fun ⟨hx, hx32, he⟩ => ⟨t0, x, hx, (seqEarlier_iff hseq hx32).mpr he⟩)
    rw [State.acknowledge_bad hbad] at hexec
    exact ⟨_, hexec, s.glReady_only .., s.glReady_responds ..⟩

end
end
section
/-! PROOF. Six families of Sundop statements fail in a state whose cache of stack entries is stale: it holds an entry of a stack that lies below
that stack's SP. A push of the model keeps such an entry; `Claim.stacked` drops every entry of the space below the new top. -/

namespace Sys2Proof.Machine
open Sys2Proof.Tests

/-- Task 1 of SUP_A runs; its stack is empty from SP 64, and its cache holds an entry at address 8. -/
def staleStack : State :=
  { State.reset with tasks := [(1537, { st := .run, sp := 64, rsb := [128], cached := [{ space := 0, addr := 8, v := 0 }] })] }

/-- The same task at ring 3, whose gate 2 enters ring 2. -/
def staleGate : State :=
  { sundopGate2s with
      tasks := [(1537, { st := .run, sp := 64, rsb := [0, 0, 32768, 64], ring := 3, cached := [{ space := 3, addr := 8, v := 0 }] })] }

/-- The same task with a precise trap before it. -/
def staleTrap : State :=
  { trapEntered1s with
      tasks := [(1537, { st := .run, sp := 64, rsb := [128], cached := [{ space := 0, addr := 8, v := 0 }], trap := some trapEntered1tr })] }

/-- The stack entries that task 1 of SUP_A has cached after a command. -/
def cachedAfter : Host.Outcome State Fault Refusal → List StackEntry
  | .next t => (t.task 24 1).cached
  | _ => []

theorem cachedAfter_of_next {o : Host.Outcome State Fault Refusal} {t : State} (h : o = .next t) : cachedAfter o = (t.task 24 1).cached :=
  congrArg cachedAfter h

end Sys2Proof.Machine

section
open Sys2Proof.Machine Sys2Proof.Machine.Reg Sys2Proof.Claim Sys2Proof.Tests

theorem staleStack_ready : Ready issue1 staleStack := by decide +kernel

theorem staleStack_top (n : Fin 2) : Top issue1 staleStack [] n := by
  revert n
  decide +kernel

/-- Refutes O25: DEPTH at `staleStack` keeps the stale entry beneath the new one. -/
theorem not_sundopStackAndIntegers : ¬ Obligations.SundopStackAndIntegers := by
  rintro ⟨results, -, -⟩
  obtain ⟨-, -, -, -, -, -, -, -, depth, -⟩ := results issue1 staleStack 0 0 0 0 0 staleStack_ready
  exact absurd (congrArg cachedAfter (depth (staleStack_top 1))) (by decide +kernel)

/-- Refutes O26: CALL at `staleStack` keeps the stale entry beneath the return address. -/
theorem not_sundopConditions : ¬ Obligations.SundopConditions := by
  rintro ⟨-, -, branches⟩
  obtain ⟨-, call, -⟩ := branches issue1 staleStack 0 0 0 staleStack_ready
  exact absurd (congrArg cachedAfter (call (staleStack_top 1))) (by decide +kernel)

/-- Refutes O27: FPGET at `staleStack` keeps the stale entry beneath FPS. -/
theorem not_sundopFloating : ¬ Obligations.SundopFloating := by
  rintro ⟨-, status, -⟩
  obtain ⟨fpget, -⟩ := status issue1 staleStack 0 staleStack_ready (by decide +kernel)
  exact absurd (congrArg cachedAfter (fpget (staleStack_top 1))) (by decide +kernel)

/-- Refutes O32: CWAIT of a task without a chain, at `staleStack`, keeps the stale entry beneath the completion word. -/
theorem not_sundopUnits : ¬ Obligations.SundopUnits := by
  rintro ⟨-, -, cwait⟩
  obtain ⟨none, -⟩ := cwait issue1 staleStack { id := 0, issuer := .task 24 1, desc := [], start0 := 0, start := 0 } []
    staleStack_ready (staleStack_top 1)
  exact absurd (congrArg cachedAfter (none (by decide +kernel))) (by decide +kernel)

/-- Refutes O33: GATE at `staleGate` drops the stale entry of the stack that it leaves, where the statement keeps the entries of that stack. -/
theorem not_sundopGates : ¬ Obligations.SundopGates := by
  rintro ⟨gate, -⟩
  obtain ⟨-, enter⟩ := gate issue1 staleGate 2 30583 3 2 (by decide +kernel) (by decide +kernel) (by decide +kernel) (by decide +kernel)
  obtain ⟨t, exec_t, task_t, -⟩ := enter (by decide +kernel) (by decide +kernel) (by decide +kernel) (by decide +kernel) (by decide +kernel)
    (by decide +kernel) (by decide +kernel) (by decide +kernel)
  exact absurd ((cachedAfter_of_next exec_t).trans (congrArg TaskRegs.cached task_t)) (by decide +kernel)

/-- Refutes O34: the entry of the trap handler at `staleTrap` keeps the stale entry beneath the frame. -/
theorem not_handlers : ¬ Obligations.Handlers := by
  rintro ⟨trap, -⟩
  obtain ⟨t, exec_t, task_t, -⟩ := trap 24 1 staleTrap trapEntered1tr (by decide +kernel) (by decide +kernel) (by decide +kernel)
    (by decide +kernel) (by decide +kernel) (by decide +kernel) (by decide +kernel) (by decide +kernel) (by decide +kernel)
    (by decide +kernel) (by decide +kernel) (by decide +kernel) (by decide +kernel) (by decide +kernel)
  exact absurd ((cachedAfter_of_next exec_t).trans (congrArg TaskRegs.cached task_t)) (by decide +kernel)

end
end
section
/-! PROOF. O44 fails at a reset of a ring whose CHAIN command has started and has made no chain yet: step 2 of R426 ends that command, so it runs
no more, and the statement has every running command go on. -/

namespace Sys2Proof.Machine
open Sys2Proof.Tests

/-- Ring 3 with a packet read, and a CHAIN command that has started and has made no chain yet. -/
def startedChain : State :=
  { ringStates4s with rings := [(3, { read := [ringStates4p], running := [{ words := [0x110], seq := 1, fin := 1 }] })] }

/-- How many commands of ring 3 run after a command. -/
def runningAfter : Host.Outcome State Fault Refusal → Nat
  | .next t => (t.ring 3).running.length
  | _ => 1

end Sys2Proof.Machine

section
open Sys2Proof.Machine Sys2Proof.Machine.Reg Sys2Proof.Claim Sys2Proof.Tests

/-- Refutes O44: RING_RESET at `startedChain` ends the CHAIN command that runs. -/
theorem not_ringLife : ¬ Obligations.RingLife := by
  rintro ⟨-, states⟩
  obtain ⟨-, -, -, reset⟩ := states 3 .host startedChain ringStates4p (by decide +kernel) (by decide +kernel) (by decide +kernel)
  obtain ⟨t, ht, -, -, running, -⟩ := reset (by decide +kernel) (by decide +kernel) (by decide +kernel) (by decide +kernel)
    (by decide +kernel) (by decide +kernel)
  have after : runningAfter (.next t) = 1 := congrArg List.length running
  rw [← ht] at after
  exact absurd after (by decide +kernel)

end
end
section
/-! PROOF. O12 fails at a chain whose reduction write ended with TORN after a range of it was torn: the end of the torn range is reported in
REPLY0 (log 18), and the statement has REPLY0 0 there. -/

namespace Sys2Proof.Machine
open Sys2Proof.Tests

/-- A finished chain whose first failing reduction write ended with TORN; its elements from 3 on to below 8 were torn. -/
def tornChain : Chain := { chainEnds7c with xstop := some { status := ST_TORN }, torn := some (3, 8) }

def tornState : State := { chainEnds7s with chains := [tornChain] }

/-- REPLY0 of the results of ring 3 that wait to be posted after a command. -/
def repliesAfter : Host.Outcome State Fault Refusal → List Nat
  | .next t => (t.ring 3).done.map (fun x => x.reply0)
  | _ => [0]

end Sys2Proof.Machine

section
open Sys2Proof.Machine Sys2Proof.Machine.Reg Sys2Proof.Claim Sys2Proof.Tests

/-- Refutes O12: REDUCTION_WRITE at `tornState` answers with REPLY0 8. -/
theorem not_chainEnds : ¬ Obligations.ChainEnds := by
  intro holds
  obtain ⟨-, -, ends, -⟩ := holds tornState tornState 0 tornChain chainEnds1l 3 chainEnds2p 0 0 0 { status := ST_TORN } chainEnds5o chainEnds5w
  obtain ⟨t, ht, -, done, -⟩ := ends (by decide +kernel) (by decide +kernel) rfl (by decide +kernel)
  have after : repliesAfter (.next t) = [0] := congrArg (List.map (fun x : Result => x.reply0)) done
  rw [← ht] at after
  exact absurd after (by decide +kernel)

end
end
section
/-! PROOF. O14 fails at a BAR2 size beyond what the field of its capability holds: a configuration read answers 32 bits, and the statement has
the whole number. -/

namespace Sys2Proof.Machine
open Sys2Proof.Tests

/-- A host link whose BAR2 has 2^(20 + 2^24) bytes. -/
def hugeBar2 : State := { State.reset with host := { linkUp := true, ready := true, bar2Log := 20 + 2 ^ 24 } }

/-- What a command sent out. -/
def outAfter : Host.Outcome State Fault Refusal → List Out
  | .next t => t.out
  | _ => []

end Sys2Proof.Machine

section
open Sys2Proof.Machine Sys2Proof.Machine.Reg Sys2Proof.Claim Sys2Proof.Tests

/-- Refutes O14: the configuration read of offset 0x108 at `hugeBar2` answers 0. -/
theorem not_hostLink : ¬ Obligations.HostLink := by
  intro holds
  obtain ⟨-, -, -, read, -⟩ := holds hugeBar2 0 0 0 false 0 0 .host 0
  obtain ⟨t, ht, reply, -⟩ := read ⟨rfl, rfl, rfl⟩
  have after : outAfter (.next t) = hugeBar2.out ++ [.cfgReply 0 ((hugeBar2.host.bar2Log - 20) * 256)] := reply
  rw [← ht] at after
  exact absurd after (by decide +kernel)

end
end
section
/-! PROOF. O17, O56 and O57 fail at states that no hypothesis rules out. The lock number of O17 is any number: that of 8 puts its bits into
MXC_CNT, which counts the breaks. O56 has a domain that is off answered at once, also while its wake-up is still to come. O57 has every PLL
coast after a loss of REFCLK, also where the record of that loss is of class D and so switches the PLLs off. -/

namespace Sys2Proof.Machine
open Reg Sys2Proof.Tests

/-- A field after a command. -/
def fieldAfter (f : RF) : Host.Outcome State Fault Refusal → Option Nat
  | .next t => some (t.rd f)
  | _ => none

/-- `MXC_LOCK 8` is MXC_CNT, whose BREAKS are 2^31 here. -/
def lockOnCounter : State := { State.reset with regs := [(MXC_LOCK 8, BitVec.ofNat 64 (2 ^ 63))], lockAt := [(8, 77)] }

/-- Domain 0 is off and waits to be on. -/
def wakingDomain : State := { State.reset with power := { domWait := [(0, true)] } }

/-- PLL 2 is locked, and a loss of REFCLK is of class D. -/
def deadlyRefclk : State := (State.reset.setReg (CLK_PLL 2) 2).wr (FLT_SRC_CLASS srcClkLost) 3

end Sys2Proof.Machine

section
open Sys2Proof.Machine Sys2Proof.Machine.Reg Sys2Proof.Claim Sys2Proof.Tests

/-- Refutes O17: breaking lock 8 at `lockOnCounter` leaves BREAKS 1. -/
theorem not_locksAndTap : ¬ Obligations.LocksAndTap := by
  intro holds
  obtain ⟨breaks, -⟩ := holds lockOnCounter 8 77 0 0
  obtain ⟨t, ht, -, -, counted, -⟩ := breaks rfl (by decide +kernel) (by decide +kernel) rfl
  have after : fieldAfter MXC_CNT_BREAKS (.next t) = some (2 ^ 31 + 1) := by
    rw [fieldAfter, counted]
    decide +kernel
  rw [← ht] at after
  exact absurd after (by decide +kernel)

/-- Refutes O56: switching domain 0 off at `wakingDomain` leaves BUSY set, as the switch takes its time. -/
theorem not_powerControl : ¬ Obligations.PowerControl := by
  rintro ⟨domains, -⟩
  obtain ⟨-, -, -, answers, -⟩ := domains wakingDomain (.core 24 2) 0 false
  obtain ⟨t, ht, -, idle, -⟩ := answers (by decide +kernel) (by decide) (by decide +kernel) (by decide +kernel)
  have after : fieldAfter PWR_DOMAIN_REQ_BUSY (.next t) = some 0 := congrArg some idle
  rw [← ht] at after
  exact absurd after (by decide +kernel)

/-- Refutes O57: the loss of REFCLK at `deadlyRefclk` is the ripcord state, in which PLL 2 is off and does not coast. -/
theorem not_clocksAndResets : ¬ Obligations.ClocksAndResets := by
  rintro ⟨clocks, -⟩
  obtain ⟨lost, -⟩ := clocks deadlyRefclk 2
  obtain ⟨t, ht, -, -, -, -, coasts, -⟩ := lost rfl
  rw [if_neg (by decide +kernel)] at coasts
  have after : fieldAfter (CLK_PLL_STATE 2) (.next t) = some 3 := congrArg some coasts.1
  rw [← ht] at after
  exact absurd after (by decide +kernel)

end
end
section
/-! PROOF. O1 and O23: a step performs the command in front, and what a power-on reset leaves. -/
open Sys2Proof.Machine Sys2Proof.Machine.Reg Sys2Proof.Claim

/-- Settles O1: the queue is matched as it stands. -/
theorem stepRunsFront : Obligations.StepRunsFront := by
  intro c rest s queue
  simp only [step, queue]

/-- Settles O23: the reset state is one closed value, whose empty storage reads 0 at every address. -/
theorem resetState : Obligations.ResetState := by
  intro a
  have domains : ∀ a < 80, State.reset.domainOn a = decide (a = 79) := by decide +kernel
  refine ⟨by decide +kernel, rfl, rfl, ?_⟩
  refine ⟨by decide +kernel, by decide +kernel, by decide +kernel, by decide +kernel, by decide +kernel, by decide +kernel,
    by decide +kernel, domains a, ?_⟩
  decide +kernel

end
section
/-! PROOF. Four families of Sundop statements fail for a task whose ring is none of 0 to 3: every row of the instruction set lets ring 3 at most
execute it, so the instruction traps with PRIV. No hypothesis of these statements bounds the ring. -/

namespace Sys2Proof.Machine
open Sys2Proof.Tests

/-- Task 1 of SUP_A runs at ring 4, with one entry on its stack. -/
def ringFour : State :=
  { State.reset with tasks := [(1537, { st := .run, sp := 64, rsb := [0, 0, 0, 0, 72], ring := 4, cached := [{ space := 4, addr := 64, v := 1 }] })] }

/-- The cause of the trap that task 1 of SUP_A has pending after a command. -/
def trapAfter : Host.Outcome State Fault Refusal → Option Nat
  | .next t => (t.task 24 1).trap.map (fun tr => tr.cause)
  | _ => none

end Sys2Proof.Machine

section
open Sys2Proof.Machine Sys2Proof.Machine.Reg Sys2Proof.Claim Sys2Proof.Tests

theorem ringFour_ready : Ready issue1 ringFour := by decide +kernel

/-- Refutes O2: SWAP at `ringFour` traps with PRIV, though its stack holds one entry only. -/
theorem not_sundopStackBounds : ¬ Obligations.SundopStackBounds := by
  intro holds
  obtain ⟨-, under, -⟩ := holds issue1 ringFour ringFour_ready
  exact absurd (congrArg trapAfter (under (by decide +kernel) (.swap issue1) (by simp))) (by decide +kernel)

/-- Refutes O4: WAIT at `ringFour` traps with PRIV. -/
theorem not_sundopWaitAndFences : ¬ Obligations.SundopWaitAndFences := by
  intro holds
  obtain ⟨waits, -⟩ := holds issue1 ringFour ringFour_ready (by decide +kernel)
  exact absurd (congrArg trapAfter waits) (by decide +kernel)

/-- Refutes O29: a load of eight bytes at address 1 at `ringFour` traps with PRIV, not with ALIGN. -/
theorem not_sundopStoring : ¬ Obligations.SundopStoring := by
  rintro ⟨-, -, align⟩
  obtain ⟨load, -⟩ := align issue1 ringFour 1 0 ringFour_ready
  exact absurd (congrArg trapAfter (load (by decide +kernel) (by decide))) (by decide +kernel)

/-- Refutes O31: MOVS with CNT zero at `ringFour` traps with PRIV. -/
theorem not_sundopStringOps : ¬ Obligations.SundopStringOps := by
  rintro ⟨-, empty⟩
  obtain ⟨strings, -⟩ := empty issue1 ringFour 0 0 0 false none ringFour_ready (by decide +kernel) (by decide +kernel)
  obtain ⟨movs, -⟩ := strings (by decide +kernel)
  exact absurd (congrArg trapAfter movs) (by decide +kernel)

end
end
section
/-! PROOF. How a Sundop instruction issues: what `State.insn` comes to in a state that is ready for it, by what its body gives. O3 follows: an
instruction whose guard is false. -/

namespace Sys2Proof.Machine
open Reg Sys2Proof.Claim

/-- What issuing an instruction rests on in the state: nothing is taken before it, no spill is queued, no access waits, and no locked
sequence is open. -/
structure Issues (g : Issue) (s : State) : Prop where
  can : s.canIssue g.c g.t = true
  spills : (tk g s).spills = []
  lock : (tk g s).lock = none
  noLck : g.lck = false
  noRep : g.rep = false
  quiet : NoneWaits s (agentTask g.c.val g.t.val)

theorem Issues.of_ready {g : Issue} {s : State} (ready : Ready g s) : Issues g s := by
  obtain ⟨can, spills, quiet, lock, -, lck, rep⟩ := ready
  exact ⟨can, spills, lock, lck, rep, quiet⟩

/-- The state in which the body of an instruction is performed. -/
abbrev begun (g : Issue) (s : State) : State := s.beginInterval g.c.val

/-! The state as SUP_A's interval begins. -/

theorem beginInterval_eq (s : State) (c : Nat) :
    s.beginInterval c = { s with sup := (s.beginInterval c).sup } := by
  unfold State.beginInterval
  split <;> rfl

theorem beginInterval_of_first {s : State} {c : Nat} (checked : s.checked c = true) (first : s.sup.start = []) :
    s.beginInterval c = { s with sup := { s.sup with start := s.tasks.filter (fun p => p.1 / 64 == 24), began := s.now } } := by
  rw [State.beginInterval, if_pos (by simp [checked, first])]

theorem beginInterval_of_later {s : State} {c : Nat} (h : ¬ (s.checked c = true ∧ s.sup.start = [])) : s.beginInterval c = s := by
  rw [State.beginInterval, if_neg (by simpa using h)]

@[simp] theorem beginInterval_tasks (s : State) (c : Nat) : (s.beginInterval c).tasks = s.tasks := by rw [beginInterval_eq]
@[simp] theorem beginInterval_regs (s : State) (c : Nat) : (s.beginInterval c).regs = s.regs := by rw [beginInterval_eq]
@[simp] theorem beginInterval_life (s : State) (c : Nat) : (s.beginInterval c).life = s.life := by rw [beginInterval_eq]
@[simp] theorem beginInterval_cores (s : State) (c : Nat) : (s.beginInterval c).cores = s.cores := by rw [beginInterval_eq]
@[simp] theorem beginInterval_mem (s : State) (c : Nat) : (s.beginInterval c).mem = s.mem := by rw [beginInterval_eq]
@[simp] theorem beginInterval_task (s : State) (c k t : Nat) : (s.beginInterval c).task k t = s.task k t := by
  simp only [State.task, beginInterval_tasks]
@[simp] theorem beginInterval_coreSt (s : State) (c k : Nat) : (s.beginInterval c).coreSt k = s.coreSt k := by
  simp only [State.coreSt, beginInterval_cores]
@[simp] theorem beginInterval_checked (s : State) (c k : Nat) : (s.beginInterval c).checked k = s.checked k := by
  simp only [State.checked, State.rd, State.reg, beginInterval_regs]
@[simp] theorem beginInterval_held (s : State) (c : Nat) : (s.beginInterval c).sup.held = s.sup.held := by
  unfold State.beginInterval
  split <;> rfl
@[simp] theorem beginInterval_storesDone (s : State) (c k t : Nat) : (s.beginInterval c).storesDone k t = s.storesDone k t := by
  simp only [State.storesDone, beginInterval_task, beginInterval_coreSt, beginInterval_checked, beginInterval_held]

/-! The task that issues. -/

theorem Issues.existing {g : Issue} {s : State} (h : Issues g s) :
    (tk g s).st = .run ∧ (tk g s).trap = none ∧ ((tk g s).stopping = true → (tk g s).drogue = true) := by
  have can := h.can
  have notSent : s.accessSent g.c.val g.t.val = false := by
    rw [State.accessSent, List.any_eq_false]
    intro b hb
    simp [h.quiet b hb]
  simp only [State.canIssue, notSent, Bool.and_eq_true, Bool.or_eq_true, beq_iff_eq, Option.isNone_iff_eq_none] at can
  obtain ⟨⟨⟨⟨⟨⟨⟨⟨⟨-, -⟩, run⟩, trap⟩, -⟩, -⟩, stop⟩, -⟩, -⟩, -⟩ := can
  refine ⟨run, trap, fun stopping => ?_⟩
  simpa [stopping] using stop

theorem drainSpills_of_none {s : State} {c : Core} {t : Task} (h : (s.task c.val t.val).spills = []) : s.drainSpills c t = s := by
  simp only [State.drainSpills, h, List.length_nil, List.range_zero, List.foldl_nil]

theorem drainSpills_begun {g : Issue} {s : State} (h : Issues g s) : (begun g s).drainSpills g.c g.t = begun g s :=
  drainSpills_of_none (by rw [beginInterval_task]; exact h.spills)

theorem prefixBytes_eq {g : Issue} {s : State} (h : Issues g s) : prefixBytes g = if g.guard.isSome then 1 else 0 := by
  simp only [prefixBytes, h.noLck, h.noRep, b2n, Bool.false_eq_true, if_false, Nat.add_zero]

/-- The registers as the body of an instruction of `len` bytes gets them. -/
theorem past_eq {g : Issue} {s : State} (h : Issues g s) (len : Nat) :
    { tk g s with pc := ((tk g s).pc + prefixBytes g + len) % 2 ^ 64 } = past g s len := by
  rw [prefixBytes_eq h]

theorem countLock_of_none {x : TaskRegs} (h : x.lock = none) (y : TaskRegs) : x.countLock y = y := by
  unfold TaskRegs.countLock
  split
  next same =>
    obtain ⟨⟩ := y
    rw [h] at same
    subst same
    rfl
  next => rfl

theorem breaksLock_of_none {x : TaskRegs} (h : x.lock = none) (f : Form) : x.breaksLock f = false := by
  simp only [TaskRegs.breaksLock, h]

theorem settleStop_of_drogue {x : TaskRegs} (h : x.stopping = true → x.drogue = true) : x.settleStop = x := by
  unfold TaskRegs.settleStop
  split
  next stops =>
    simp only [Bool.and_eq_true, Bool.not_eq_true'] at stops
    obtain ⟨⟨⟨stopping, noDrogue⟩, -⟩, -⟩ := stops
    simp [h stopping] at noDrogue
  next => rfl

/-! What an issue comes to. -/

/-- What an instruction leaves, by what its body gives. -/
def settled (g : Issue) (s : State) (r : State × Go TaskRegs) : State :=
  match r.2 with
  | .trap tr => r.1.raise g.c g.t tr
  | .ok z => r.1.commit s.life.boot g.c g.t (tk g s) z
  | .wait => r.1

/-- An instruction of the task that may execute it at its ring and that no pending FP trap comes before. -/
theorem insn_of_ready {g : Issue} {s : State} {f : Form} {body : Nat → TaskRegs → Act TaskRegs} (ready : Ready g s) (legal : f.bad = false)
    (ring : (tk g s).ring ≤ f.ring) (fp : f.fpFirst = true → (tk g s).fpPend = false) :
    s.insn g f body = settled g s (match (tk g s).stackCheck f.pops f.pops f.pushes with
      | some tr => (begun g s, .trap tr)
      | none => body (tk g s).pc (past g s f.len) (begun g s)) := by
  have h := Issues.of_ready ready
  obtain ⟨-, -, -, -, guard, -, -⟩ := ready
  have pending : (f.fpFirst && (tk g s).fpPend) = false := by
    cases hf : f.fpFirst
    · rfl
    · simp [fp hf]
  unfold State.insn
  simp only [h.can, drainSpills_begun h, beginInterval_task, past_eq h, legal, h.noLck, h.noRep, guard, Nat.not_lt.mpr ring, pending,
    countLock_of_none h.lock, breaksLock_of_none h.lock, beginInterval_life, Bool.not_true, Bool.false_and, Bool.or_self, Bool.false_eq_true,
    decide_false, if_false]
  rfl

/-- An instruction whose guard is false. -/
theorem insn_of_guard_false {g : Issue} {s : State} {f : Form} {body : Nat → TaskRegs → Act TaskRegs} (h : Issues g s)
    (guard : (tk g s).guardOk g = false) (legal : f.bad = false) :
    s.insn g f body = (begun g s).commit s.life.boot g.c g.t (tk g s) (past g s f.len) := by
  unfold State.insn
  simp only [h.can, drainSpills_begun h, beginInterval_task, past_eq h, legal, h.noLck, h.noRep, guard, countLock_of_none h.lock,
    beginInterval_life, Bool.not_true, Bool.not_false, Bool.false_and, Bool.or_self, Bool.false_eq_true, if_false, if_true]

/-- Registers that an instruction wrote: it touched nothing by which a task ends, stops or takes an entry. -/
structure Goes (x y : TaskRegs) : Prop where
  pend : y.pend = x.pend
  due : y.due = x.due
  trap : y.trap = none
  loftStop : y.loftStop = x.loftStop
  stopping : y.stopping = x.stopping
  drogue : y.drogue = x.drogue

/-- Registers `y` computed from `x` as they become the task's, which holds `z` by then. -/
def TaskRegs.over (z x y : TaskRegs) : TaskRegs :=
  { y with
    st := if y.st = x.st then z.st else y.st, pend := z.pend, due := z.due, trap := y.trap.orElse (fun _ => z.trap)
    loftStop := z.loftStop, fps := if y.fps = x.fps then z.fps else y.fps
    stopping := if z.stopping = x.stopping then y.stopping else z.stopping }

theorem over_eq {x y : TaskRegs} (goes : Goes x y) (noTrap : x.trap = none) : TaskRegs.over x x y = y := by
  obtain ⟨pend, due, trap, loftStop, -, -⟩ := goes
  have st : (if y.st = x.st then x.st else y.st) = y.st := by split <;> simp [*]
  have fps : (if y.fps = x.fps then x.fps else y.fps) = y.fps := by split <;> simp [*]
  have orElse : y.trap.orElse (fun _ => x.trap) = y.trap := by rw [trap, noTrap]; rfl
  unfold TaskRegs.over
  rw [st, fps, orElse, if_pos rfl, ← pend, ← due, ← loftStop]

/-- In CHECKED mode SUP_A's interval counts an instruction. -/
def State.countRetired (s : State) (c : Nat) : State :=
  if s.checked c then { s with sup := { s.sup with retired := s.sup.retired + 1 } } else s

theorem countRetired_of_checked {s : State} {c : Nat} (h : s.checked c = true) :
    s.countRetired c = { s with sup := { s.sup with retired := s.sup.retired + 1 } } := if_pos h
theorem countRetired_of_not_checked {s : State} {c : Nat} (h : ¬ s.checked c = true) : s.countRetired c = s := if_neg h

theorem commit_of_run {s : State} {boot : Nat} {c : Core} {t : Task} {x y : TaskRegs} (same : s.life.boot = boot)
    (run : (s.task c.val t.val).st = .run) :
    s.commit boot c t x y =
      ((s.setTask c.val t.val ((s.task c.val t.val).over x y).settleStop).rbufClear (agentTask c.val t.val)).countRetired c.val := by
  unfold State.commit
  rw [if_neg (by simp [same, run])]
  rfl

/-- The registers become the task's; what the body did elsewhere stays. -/
theorem commit_eq {g : Issue} {s s' : State} {y : TaskRegs} (h : Issues g s) (task : s'.task g.c.val g.t.val = tk g s)
    (boot : s'.life.boot = s.life.boot) (goes : Goes (tk g s) y) :
    s'.commit s.life.boot g.c g.t (tk g s) y =
      ((s'.setTask g.c.val g.t.val y).rbufClear (agentTask g.c.val g.t.val)).countRetired g.c.val := by
  obtain ⟨run, trap, stop⟩ := h.existing
  rw [commit_of_run boot (by rw [task]; exact run), task, over_eq goes trap,
    settleStop_of_drogue (by rw [goes.stopping, goes.drogue]; exact stop)]

theorem checked_iff (s : State) (c : Nat) : s.checked c = true ↔ c = 24 ∧ s.rd VERIF_SUP_MODE = 0 := by
  simp [State.checked]

/-- An instruction that changed only its task leaves the state that the statements call `ran`. -/
theorem commit_begun {g : Issue} {s : State} {y : TaskRegs} (h : Issues g s) (goes : Goes (tk g s) y) :
    (begun g s).commit s.life.boot g.c g.t (tk g s) y = ran g s y := by
  rw [commit_eq h (beginInterval_task ..) (by rw [beginInterval_life]) goes]
  by_cases c : s.checked g.c.val = true
  · obtain on := (checked_iff s _).mp c
    refine (countRetired_of_checked (by exact (beginInterval_checked s g.c.val g.c.val).trans c)).trans ?_
    by_cases e : s.sup.start = []
    · simp only [beginInterval_of_first c e, ran, if_pos on, if_pos e]
      rfl
    · simp only [beginInterval_of_later (fun h => e h.2), ran, if_pos on, if_neg e]
      rfl
  · have no : ¬ (g.c.val = 24 ∧ s.rd VERIF_SUP_MODE = 0) := fun h => c ((checked_iff s _).mpr h)
    refine (countRetired_of_not_checked (by exact fun h => c ((beginInterval_checked s g.c.val g.c.val).symm.trans h))).trans ?_
    simp only [beginInterval_of_later (fun h => c h.1), ran, if_neg no]
    rfl

/-! Instructions without an effect, and those that only change their task. -/

theorem stackCheck_of_fits {x : TaskRegs} {f : Form} (deep : f.pops ≤ x.depth) (room : x.sl + 8 * f.pushes ≤ x.sp + 8 * f.pops) :
    x.stackCheck f.pops f.pops f.pushes = none := by
  rw [TaskRegs.stackCheck, if_neg (by omega), if_neg (by omega)]

/-- A part that completes at once and changed nothing. -/
theorem insn_of_done {g : Issue} {s : State} {f : Form} {body : Nat → TaskRegs → Act TaskRegs} {y : TaskRegs} (ready : Ready g s)
    (legal : f.bad = false) (ring : (tk g s).ring ≤ f.ring) (fp : f.fpFirst = true → (tk g s).fpPend = false)
    (bounds : (tk g s).stackCheck f.pops f.pops f.pushes = none)
    (done : body (tk g s).pc (past g s f.len) (begun g s) = (begun g s, .ok y)) (goes : Goes (tk g s) y) : s.insn g f body = ran g s y := by
  rw [insn_of_ready ready legal ring fp, bounds, done]
  exact commit_begun (.of_ready ready) goes

/-- An instruction whose guard is false passes; `row` says which row it is. -/
theorem exec_of_guard_false {i : Instr} {g : Issue} {s : State} {n : Nat} {f : Form} {body : Nat → TaskRegs → Act TaskRegs} (h : Issues g s)
    (guard : (tk g s).guardOk g = false) (row : exec i s = .next (s.insn g f body)) (legal : f.bad = false)
    (len : f.len = n) : exec i s = .next (ran g s (past g s n)) := by
  obtain ⟨-, trap, -⟩ := h.existing
  subst len
  rw [row, insn_of_guard_false h guard legal, commit_begun h (y := past g s f.len) ⟨rfl, rfl, trap, rfl, rfl, rfl⟩]

theorem exec_of_guard_false_binary {i : Instr} {g : Issue} {s : State} {f : Word → Word → Go Word} (h : Issues g s)
    (guard : (tk g s).guardOk g = false) (row : exec i s = .next (s.binary g f)) : exec i s = .next (ran g s (past g s 1)) :=
  exec_of_guard_false h guard (row.trans (by rw [State.binary, State.plainInsn])) rfl rfl

theorem exec_of_guard_false_unary {i : Instr} {g : Issue} {s : State} {f : Word → Word} (h : Issues g s)
    (guard : (tk g s).guardOk g = false) (row : exec i s = .next (s.unary g f)) : exec i s = .next (ran g s (past g s 1)) :=
  exec_of_guard_false h guard (row.trans (by rw [State.unary, State.plainInsn])) rfl rfl

/-! The rows, by kind. -/

section
variable {g : Issue} {s : State}

theorem stack_passes (h : Issues g s) (guard : (tk g s).guardOk g = false) :
    ∀ i ∈ [Instr.sundopNop g, .wait g, .sync g, .iflush g, .fbar g, .dup g, .drop g, .swap g, .over g, .rot g, .pick g, .depth g],
      exec i s = .next (ran g s (past g s 1)) := by
  simp only [List.forall_mem_cons, List.not_mem_nil, false_imp_iff, implies_true, and_true]
  and_intros <;> exact exec_of_guard_false h guard (by rfl) (by rfl) (by rfl)

theorem integer_passes (h : Issues g s) (guard : (tk g s).guardOk g = false) :
    ∀ i ∈ [Instr.add g, .sub g, .mul g, .mulh g, .mulhu g, .div g, .divu g, .rem g, .remu g, .neg g, .and g, .or g, .xor g, .not g, .shl g, .shr g, .sar g],
      exec i s = .next (ran g s (past g s 1)) := by
  simp only [List.forall_mem_cons, List.not_mem_nil, false_imp_iff, implies_true, and_true]
  refine ⟨?_, ?_, ?_, ?_, ?_, ?_, ?_, ?_, ?_, ?_, ?_, ?_, ?_, ?_, ?_, ?_, ?_⟩
  case refine_10 => exact exec_of_guard_false_unary h guard rfl
  case refine_14 => exact exec_of_guard_false_unary h guard rfl
  all_goals exact exec_of_guard_false_binary h guard rfl

theorem register_passes (h : Issues g s) (guard : (tk g s).guardOk g = false) :
    ∀ i ∈ [Instr.pget g, .pset g, .ret g, .jmpi g, .calli g, .gret g, .setsrc g, .setdst g, .setcnt g, .getsrc g, .getdst g, .getcnt g],
      exec i s = .next (ran g s (past g s 1)) := by
  simp only [List.forall_mem_cons, List.not_mem_nil, false_imp_iff, implies_true, and_true]
  and_intros <;> exact exec_of_guard_false h guard (by rfl) (by rfl) (by rfl)

theorem floating_passes (h : Issues g s) (guard : (tk g s).guardOk g = false) :
    ∀ i ∈ [Instr.fadd g, .fsub g, .fmul g, .fdiv g, .fsqrt g, .fma g, .fmin g, .fmax g, .frint g, .cvtif g, .cvtfi g, .cvtsd g, .cvtds g, .fpget g, .fpset g],
      exec i s = .next (ran g s (past g s 1)) := by
  simp only [List.forall_mem_cons, List.not_mem_nil, false_imp_iff, implies_true, and_true]
  and_intros <;> exact exec_of_guard_false h guard (by rfl) (by rfl) (by rfl)

theorem other_passes (h : Issues g s) (guard : (tk g s).guardOk g = false) :
    ∀ i ∈ [Instr.dadd g, .dsub g, .cwait g, .xadd g, .xchg g, .cas g, .savel g, .saveu g, .restl g, .restu g],
      exec i s = .next (ran g s (past g s 1)) := by
  simp only [List.forall_mem_cons, List.not_mem_nil, false_imp_iff, implies_true, and_true]
  and_intros <;> exact exec_of_guard_false h guard (by rfl) (by rfl) (by rfl)

theorem memory_passes (h : Issues g s) (guard : (tk g s).guardOk g = false) :
    ∀ i ∈ [Instr.ld g 3, .lds g 2, .st g 3, .sext g 0],
      exec i s = .next (ran g s (past g s 1)) := by
  simp only [List.forall_mem_cons, List.not_mem_nil, false_imp_iff, implies_true, and_true]
  exact ⟨exec_of_guard_false h guard (by rfl) (by rfl) (by rfl), exec_of_guard_false h guard (by rfl) (by rfl) (by rfl),
    exec_of_guard_false h guard (by rfl) (by rfl) (by rfl), exec_of_guard_false_unary h guard rfl⟩

theorem two_byte_passes (h : Issues g s) (guard : (tk g s).guardOk g = false) (d8 : Byte) :
    ∀ i ∈ [Instr.br8 g d8, .push g 0 (d8.setWidth 64), .gate g d8, .icmp g 0, .ucmp g 0, .fcmp g 0, .dcmp g 0, .test g 0, .movs g 0 none, .fills g 0 none, .cmps g 0 none, .scans g 0 none],
      exec i s = .next (ran g s (past g s 2)) := by
  simp only [List.forall_mem_cons, List.not_mem_nil, false_imp_iff, implies_true, and_true]
  and_intros <;> exact exec_of_guard_false h guard (by rfl) (by rfl) (by rfl)

theorem five_byte_passes (h : Issues g s) (guard : (tk g s).guardOk g = false) (d : BitVec 32) :
    ∀ i ∈ [Instr.br32 g d, .call g d, .push g 2 (d.setWidth 64)],
      exec i s = .next (ran g s (past g s 5)) := by
  simp only [List.forall_mem_cons, List.not_mem_nil, false_imp_iff, implies_true, and_true]
  and_intros <;> exact exec_of_guard_false h guard (by rfl) (by rfl) (by rfl)

end

end Sys2Proof.Machine

section
open Sys2Proof.Machine Sys2Proof.Machine.Reg Sys2Proof.Claim

/-- Settles O3: the guard is looked at before anything else that an instruction's row asks for, but an encoding that is ILLEGAL. -/
theorem sundopFalseGuard : Obligations.SundopFalseGuard := by
  intro g s d8 d can spills quiet lock guard lck rep
  have h : Issues g s := ⟨can, spills, lock, lck, rep, quiet⟩
  refine ⟨stack_passes h guard, integer_passes h guard, register_passes h guard, floating_passes h guard, other_passes h guard,
    memory_passes h guard, two_byte_passes h guard d8, five_byte_passes h guard d, fun cluster => ?_⟩
  have own : decide (24 ≤ g.c.val) = false := decide_eq_false (by omega)
  simp only [List.forall_mem_cons, List.not_mem_nil, false_imp_iff, implies_true, and_true]
  exact ⟨exec_of_guard_false h guard (by rfl) own rfl, exec_of_guard_false h guard (by rfl) own rfl⟩

end
end
section
/-! PROOF. Storage in canonical form: the tools, what an update of the rest of the state leaves of storage, and folds over states. -/
namespace Sys2Proof.Machine
open Reg

/-- What a step that goes on leaves is in canonical form. -/
def Canonical (o : Host.Outcome State Fault Refusal) : Prop := ∀ t, o = .next t → memWf t.mem = true

@[simp] theorem canonical_next (s : State) : Canonical (.next s) ↔ memWf s.mem = true :=
  ⟨fun h => h s rfl, fun h t ht => by cases ht; exact h⟩

@[simp] theorem canonical_fault (f : Fault) : Canonical (.fault f) := fun _ h => nomatch h

@[simp] theorem canonical_refused (r : Refusal) : Canonical (.refused r) := fun _ h => nomatch h

@[simp] theorem memWf_nil : memWf [] = true := rfl

theorem mem_of_pair {α : Type} {p : State × α} {t : State} {a : α} (h : p = (t, a)) : t.mem = p.1.mem := by rw [h]

@[simp] theorem State.mem_ite (c : Prop) [Decidable c] (a b : State) : (if c then a else b).mem = if c then a.mem else b.mem :=
  apply_ite State.mem c a b

@[simp] theorem State.fst_ite {α : Type} (c : Prop) [Decidable c] (a b : State × α) : (if c then a else b).1 = if c then a.1 else b.1 :=
  apply_ite Prod.fst c a b

@[simp] theorem State.snd_ite {α : Type} (c : Prop) [Decidable c] (a b : α × State) : (if c then a else b).2 = if c then a.2 else b.2 :=
  apply_ite Prod.snd c a b

@[simp] theorem foldl_mem {α : Type} (f : State → α → State) (h : ∀ s a t, f s a = t → t.mem = s.mem) (l : List α) (s : State) :
    (l.foldl f s).mem = s.mem := by
  induction l generalizing s with
  | nil => rfl
  | cons a l ih => exact (ih _).trans (h s a _ rfl)

@[simp] theorem foldl_fst_mem {α β : Type} (f : State × β → α → State × β) (h : ∀ p a q, f p a = q → q.1.mem = p.1.mem) (l : List α) (p : State × β) :
    (l.foldl f p).1.mem = p.1.mem := by
  induction l generalizing p with
  | nil => rfl
  | cons a l ih => exact (ih _).trans (h p a _ rfl)

theorem foldl_bind_mem {α : Type} (f : State → α → Option State) (hf : ∀ s a t, f s a = some t → t.mem = s.mem) (l : List α) (s : State) {t}
    (h : l.foldl (fun s? a => s?.bind (fun s => f s a)) (some s) = some t) : t.mem = s.mem := by
  have none_stays : ∀ l : List α, l.foldl (fun (s? : Option State) a => s?.bind (fun s => f s a)) none = none := fun l => by
    induction l with
    | nil => rfl
    | cons a l ih => exact ih
  induction l generalizing s with
  | nil => cases h; rfl
  | cons a l ih =>
    rw [List.foldl_cons, Option.bind_some] at h
    cases ha : f s a with
    | none => rw [ha, none_stays] at h; cases h
    | some u =>
      rw [ha] at h
      exact (ih u h).trans (hf _ _ _ ha)

theorem getD_mem {o : Option State} {s : State} (h : ∀ t, o = some t → t.mem = s.mem) : (o.getD s).mem = s.mem := by
  cases o with
  | none => rfl
  | some t => exact h t rfl

theorem foldl_fst_wf {α β : Type} (f : State × β → α → State × β) (h : ∀ p a, memWf p.1.mem = true → memWf (f p a).1.mem = true) (l : List α)
    (p : State × β) (hp : memWf p.1.mem = true) : memWf (l.foldl f p).1.mem = true := by
  induction l generalizing p with
  | nil => exact hp
  | cons a l ih => exact ih _ (h p a hp)

theorem foldl_wf {α : Type} (f : State → α → State) (h : ∀ s a, memWf s.mem = true → memWf (f s a).mem = true) (l : List α) (s : State)
    (hs : memWf s.mem = true) : memWf (l.foldl f s).mem = true := by
  induction l generalizing s with
  | nil => exact hs
  | cons a l ih => exact ih _ (h s a hs)

theorem wf_ite {c : Prop} [Decidable c] {a b : State} (ha : memWf a.mem = true) (hb : memWf b.mem = true) :
    memWf (if c then a else b).mem = true := by
  split
  · exact ha
  · exact hb

theorem wf_of_pair {α : Type} {p : State × α} {t : State} {a : α} (h : p = (t, a)) (hp : memWf p.1.mem = true) : memWf t.mem = true := by
  rwa [mem_of_pair h]

theorem mem_of_pair_snd {α : Type} {p : α × State} {t : State} {a : α} (h : p = (a, t)) : t.mem = p.2.mem := by rw [h]

theorem wf_of_pair_snd {α : Type} {p : α × State} {t : State} {a : α} (h : p = (a, t)) (hp : memWf p.2.mem = true) : memWf t.mem = true := by
  rwa [mem_of_pair_snd h]

theorem mem_ite_eq {c : Prop} [Decidable c] {a b : State} {m : List Host.Cell} (ha : a.mem = m) (hb : b.mem = m) : (if c then a else b).mem = m := by
  split
  · exact ha
  · exact hb

end Sys2Proof.Machine
end

section
/-! PROOF. What the operations of `Machine.Ops` leave of storage: the same storage (`…_mem`), or one in canonical form (`…_wf`). -/
namespace Sys2Proof.Machine
open Reg

@[simp] theorem State.peak_mem (s : State) (f : RF) (n : Nat) : (s.peak f n).mem = s.mem := by simp [State.peak]

@[simp] theorem State.watermark_mem (s : State) (msg : State → Nat → State) (hm : ∀ s v, (msg s v).mem = s.mem) (off thresh occupancy vector : Nat) :
    (s.watermark msg off thresh occupancy vector).mem = s.mem := by
  simp [State.watermark, hm]

@[simp] theorem State.idle_mem (s : State) : (s.idle).mem = s.mem := by simp [State.idle]

@[simp] theorem State.setDomain_mem (s : State) (d : Nat) (v : Bool) : (s.setDomain d v).mem = s.mem := by simp [State.setDomain]

@[simp] theorem State.setDamage_mem (s : State) (off : Nat) (d : Damage) : (s.setDamage off d).mem = s.mem := by simp [State.setDamage]

@[simp] theorem State.setWordBits_wf (s : State) (off v : Nat) (h : memWf s.mem = true) : memWf (s.setWordBits off v).mem = true :=
  s.poke_wf off _ h

@[simp] theorem State.flashTouch_mem (s : State) : (s.flashTouch).mem = s.mem := by simp [State.flashTouch]

@[simp] theorem State.flashWrite_mem (s : State) (x1 : Nat) (x2 : List Byte) : (s.flashWrite x1 x2).mem = s.mem := by
  fun_induction s.flashWrite x1 x2
  all_goals simp_all

@[simp] theorem State.flashErase_mem (s : State) (o n : Nat) : (s.flashErase o n).mem = s.mem := rfl

@[simp] theorem State.msix_mem (s : State) (v : Nat) : (s.msix v).mem = s.mem := by simp [State.msix]

@[simp] theorem State.alert_mem (s : State) (n : Nat) : (s.alert n).mem = s.mem := by simp [State.alert]

@[simp] theorem State.raiseLine_mem (s : State) (c t line : Nat) : (s.raiseLine c t line).mem = s.mem := rfl

end Sys2Proof.Machine
end

section
/-! PROOF. What the operations of `Machine.FabricLink` leave of storage: the same storage (`…_mem`), or one in canonical form (`…_wf`). -/
namespace Sys2Proof.Machine
open Reg

@[simp] theorem State.putFlit_mem (s : State) (p : Nat) (bs : List Byte) : (s.putFlit p bs).mem = s.mem := by simp [State.putFlit]

@[simp] theorem State.sendIdle_mem (s : State) (p cvc n : Nat) : (s.sendIdle p cvc n).mem = s.mem := by simp [State.sendIdle]

@[simp] theorem State.sendNak_mem (s : State) (p : Nat) : (s.sendNak p).mem = s.mem := by simp [State.sendNak]

@[simp] theorem State.sendSeq_mem (s : State) (p seq : Nat) (f : TxFlit) : (s.sendSeq p seq f).mem = s.mem := by simp [State.sendSeq]

@[simp] theorem State.flushPort_mem (s : State) (p n : Nat) : (s.flushPort p n).mem = s.mem := by
  induction n generalizing s with
  | zero => simp [State.flushPort]
  | succ n ih =>
    unfold State.flushPort
    dsimp only
    repeat' split
    all_goals simp [ih]

@[simp] theorem State.flush_mem (s : State) (p : Nat) : (s.flush p).mem = s.mem := by simp [State.flush]

@[simp] theorem State.queueMsg_mem (s : State) (p : Nat) (m : FMsg) (src : Nat) (tag : Option Nat) : (s.queueMsg p m src tag).mem = s.mem := by simp [State.queueMsg]

theorem State.sendOwn_mem (s : State) (m : FMsg) (g : Nat) (tag : Option Nat) {r} (hr : s.sendOwn m g tag = some r) : r.1.mem = s.mem := by
  unfold State.sendOwn at hr
  repeat' split at hr
  all_goals cases hr
  all_goals simp

@[simp] theorem State.respond_mem (s : State) (m : FMsg) (g : Nat) : (s.respond m g).mem = s.mem := by
  unfold State.respond
  repeat' split
  all_goals grind [→ State.sendOwn_mem]

end Sys2Proof.Machine
end

section
/-! PROOF. What the operations of `Machine.Deliver` leave of storage: the same storage (`…_mem`), or one in canonical form (`…_wf`). -/
namespace Sys2Proof.Machine
open Reg

@[simp] theorem State.dropAdds_mem (s : State) (p : AddRec → Bool) : (s.dropAdds p).mem = s.mem := rfl

@[simp] theorem State.deliver_mem (s : State) (k : Sink) (r : Reply) : (s.deliver k r).mem = s.mem := by
  unfold State.deliver
  dsimp only
  repeat' split
  all_goals simp

@[simp] theorem State.endReq_mem (s : State) (tag : Nat) (r : Reply) : (s.endReq tag r).mem = s.mem := by
  unfold State.endReq
  split <;> simp

@[simp] theorem State.launch_mem (s : State) (m : FMsg) : (s.launch m).mem = s.mem := by
  unfold State.launch
  repeat' split
  all_goals grind [→ State.sendOwn_mem, State.endReq_mem]

@[simp] theorem State.releaseRoutes_mem (s : State) : (s.releaseRoutes).mem = s.mem := by simp [State.releaseRoutes]

theorem State.post_mem (s : State) (m : FMsg) (svu : Option Nat) (k : Sink) {r} (hr : s.post m svu k = some r) : r.mem = s.mem := by
  unfold State.post at hr
  repeat' split at hr
  all_goals cases hr
  all_goals simp

@[simp] theorem State.failReqs_mem (s : State) (p : Nat → FReq → Bool) (status : Nat) : (s.failReqs p status).mem = s.mem := by simp [State.failReqs]

@[simp] theorem State.dropLink_mem (s : State) (p : Nat) : (s.dropLink p).mem = s.mem := by simp [State.dropLink]

@[simp] theorem State.holdRoute_mem (s : State) (n : Nat) : (s.holdRoute n).mem = s.mem := by simp [State.holdRoute]

@[simp] theorem State.setPortState_mem (s : State) (p st : Nat) : (s.setPortState p st).mem = s.mem := by simp [State.setPortState]

@[simp] theorem State.portDown_mem (s : State) (p : Nat) : (s.portDown p).mem = s.mem := by simp [State.portDown]

@[simp] theorem State.peerReset_mem (s : State) (n : Nat) : (s.peerReset n).mem = s.mem := by simp [State.peerReset]

end Sys2Proof.Machine
end

section
/-! PROOF. What the operations of `Machine.Faults` leave of storage: the same storage (`…_mem`), or one in canonical form (`…_wf`). -/
namespace Sys2Proof.Machine
open Reg

@[simp] theorem State.allDomainsOff_mem (s : State) : (s.allDomainsOff).mem = s.mem := by simp -implicitDefEqProofs [State.allDomainsOff]

@[simp] theorem State.ripcord_mem (s : State) : (s.ripcord).mem = s.mem := by
  unfold State.ripcord
  repeat' split
  all_goals grind [State.allDomainsOff_mem, State.wr_mem]

@[simp] theorem State.logRecord_mem (s : State) (r : FltRec) : (s.logRecord r).mem = s.mem := rfl

@[simp] theorem State.setWords_mem (s : State) (off : Nat) (ws : List Nat) : (s.setWords off ws).mem = s.mem := by simp -implicitDefEqProofs [State.setWords]

@[simp] theorem State.capture_mem (s : State) (r : FltRec) : (s.capture r).mem = s.mem := by
  unfold State.capture
  repeat' split
  all_goals grind [State.setWords_mem, State.wr_mem]

@[simp] theorem State.setPending_mem (s : State) (src v : Nat) : (s.setPending src v).mem = s.mem := rfl

@[simp] theorem State.actOn_mem (s : State) (r : FltRec) : (s.actOn r).mem = s.mem := by
  unfold State.actOn
  repeat' split
  all_goals simp

@[simp] theorem State.writeRecord_mem (s : State) (r : FltRec) : (s.writeRecord r).mem = s.mem := by simp [State.writeRecord]

@[simp] theorem State.recordWith_mem (s : State) (e : FaultEv) (unit : Nat → Option (Nat × Nat)) : (s.recordWith e unit).1.mem = s.mem := by
  unfold State.recordWith
  repeat' split
  all_goals grind [State.count_mem, State.wr_mem, State.writeRecord_mem]

@[simp] theorem State.refuseBy_mem (s : State) (q : Nat × Nat) (off status : Nat) : (s.refuseBy q off status).mem = s.mem := by simp [State.refuseBy]

@[simp] theorem State.refuse_mem (s : State) (q : Requester) (off status : Nat) : (s.refuse q off status).mem = s.mem := by simp [State.refuse]

@[simp] theorem State.endQueued_mem (s : State) (r : MemReq) (status : Nat) : (s.endQueued r status).mem = s.mem := by
  unfold State.endQueued
  split <;> simp

@[simp] theorem State.dropCtx_mem (s : State) (i id : Nat) : (s.dropCtx i id).mem = s.mem := rfl

@[simp] theorem State.fenceSvu_mem (s : State) (i : Nat) : (s.fenceSvu i).mem = s.mem := by simp [State.fenceSvu]

@[simp] theorem State.fenceChannel_mem (s : State) (c : Nat) : (s.fenceChannel c).mem = s.mem := by simp -implicitDefEqProofs [State.fenceChannel]

@[simp] theorem State.fencePort_mem (s : State) (p : Nat) : (s.fencePort p).mem = s.mem := by simp [State.fencePort]

@[simp] theorem State.fenceUnit_mem (s : State) (u : Nat × Nat) : (s.fenceUnit u).mem = s.mem := by
  unfold State.fenceUnit
  split <;> simp

@[simp] theorem State.record_mem (s : State) (e : FaultEv) : (s.record e).mem = s.mem := by
  unfold State.record
  dsimp only
  repeat' split
  all_goals simp

@[simp] theorem State.regRecord_mem (s : State) (off v : Nat) : (s.regRecord off v).mem = s.mem := by simp [State.regRecord]

end Sys2Proof.Machine
end

section
/-! PROOF. What the operations of `Machine.MemOps` leave of storage: the same storage (`…_mem`), or one in canonical form (`…_wf`). -/
namespace Sys2Proof.Machine
open Reg

theorem State.block_mem (s : State) (k : ReachKind) (q : Requester) (off len : Nat) {r} (hr : s.block k q off len = some r) : r.1.mem = s.mem := by
  unfold State.block at hr
  repeat' split at hr
  all_goals cases hr
  all_goals simp

@[simp] theorem State.memCount_mem (s : State) (c : Nat) (f : RF) (n : Nat) : (s.memCount c f n).mem = s.mem := by simp [State.memCount]

@[simp] theorem State.memEvent_mem (s : State) (off sym kind : Nat) (src : Option Nat) (who : Option (Nat × Nat)) : (s.memEvent off sym kind src who).mem = s.mem := by
  unfold State.memEvent
  split <;> simp

@[simp] theorem State.countCe_mem (s : State) (off sym : Nat) : (s.countCe off sym).mem = s.mem := rfl

@[simp] theorem State.needRow_mem (s : State) (off : Nat) : (s.needRow off).mem = s.mem := rfl

@[simp] theorem State.spEvent_mem (s : State) (off kind : Nat) (src : Option Nat) (who : Option (Nat × Nat)) : (s.spEvent off kind src who).mem = s.mem := by
  unfold State.spEvent
  repeat' split
  all_goals simp

@[simp] theorem State.decode_mem (s : State) (off : Nat) : (s.decode off).1.mem = s.mem := by simp [State.decode]

@[simp] theorem State.readEcc_mem (s : State) (off : Nat) (scrub : Bool) (who : Option (Nat × Nat)) : (s.readEcc off scrub who).1.mem = s.mem := by
  unfold State.readEcc
  dsimp only
  repeat' split
  all_goals simp

@[simp] theorem State.reportPoison_mem (s : State) (off : Nat) (who : Option (Nat × Nat)) : (s.reportPoison off who).mem = s.mem := by simp [State.reportPoison]

@[simp] theorem State.readWords_mem (s : State) (ws : List Nat) : (s.readWords ws).1.mem = s.mem := by simp -implicitDefEqProofs [State.readWords]

@[simp] theorem State.unpoisoned_mem (s : State) (off len : Nat) (bad : List Nat) : (s.unpoisoned off len bad).1.mem = s.mem := by simp [State.unpoisoned]

@[simp] theorem State.readStore_mem (s : State) (off len : Nat) : (s.readStore off len).1.mem = s.mem := by
  unfold State.readStore
  repeat' split
  all_goals simp -implicitDefEqProofs

@[simp] theorem State.reportAll_mem (s : State) (bad made : List Nat) : (s.reportAll bad made).mem = s.mem := by simp -implicitDefEqProofs [State.reportAll]

@[simp] theorem State.inject_mem (s : State) (off : Nat) : (s.inject off).mem = s.mem := by
  simp only [State.inject]
  repeat' split
  all_goals simp [*]

@[simp] theorem State.writeEcc_wf (s : State) (w : WordWrite) (who : Option (Nat × Nat)) (h : memWf s.mem = true) : memWf (s.writeEcc w who).mem = true := by
  unfold State.writeEcc
  dsimp only
  repeat' split
  all_goals simp [h]

@[simp] theorem State.writeStore_wf (s : State) (ws : List WordWrite) (who : Option (Nat × Nat)) (h : memWf s.mem = true) :
    memWf (s.writeStore ws who).mem = true := by
  unfold State.writeStore
  refine foldl_wf _ (fun s g h => ?_) _ _ (foldl_wf _ (fun s w h => by simp [h]) _ _ h)
  split <;> simp [h]

@[simp] theorem State.atomStore_wf (s : State) (off op v n : Nat) (who : Option (Nat × Nat)) (h : memWf s.mem = true) : memWf (s.atomStore off op v n who).1.mem = true := by
  unfold State.atomStore
  dsimp only
  repeat' split
  all_goals simp [h]

@[simp] theorem State.snoopLines_mem (s : State) (ls : List Nat) : (s.snoopLines ls).mem = s.mem := by simp [State.snoopLines]

theorem State.waitSnoop_mem (s : State) (off len : Nat) {r} (hr : s.waitSnoop off len = some r) : r.mem = s.mem := by
  unfold State.waitSnoop at hr
  dsimp only at hr
  repeat' split at hr
  all_goals cases hr
  all_goals simp

@[simp] theorem State.wearCheck_mem (s : State) (c before after total : Nat) : (s.wearCheck c before after total).mem = s.mem := by simp [State.wearCheck]

@[simp] theorem State.tailStat_mem (s : State) : (s.tailStat).mem = s.mem := by simp [State.tailStat]

@[simp] theorem State.keepOld_mem (s : State) (chain svu top : Nat) (ws : List WordWrite) : (s.keepOld chain svu top ws).mem = s.mem := by simp [State.keepOld]

@[simp] theorem State.rememberOld_mem (s : State) (chain top : Nat) (ws : List WordWrite) : (s.rememberOld chain top ws).mem = s.mem := rfl

end Sys2Proof.Machine
end

section
/-! PROOF. What the operations of `Machine.Ports` leave of storage: the same storage (`…_mem`), or one in canonical form (`…_wf`). -/
namespace Sys2Proof.Machine
open Reg

@[simp] theorem State.pushChan_mem (s : State) (off : Nat) (r : MemReq) : (s.pushChan off r).mem = s.mem := rfl

@[simp] theorem State.pushBank_mem (s : State) (off : Nat) (r : MemReq) : (s.pushBank off r).mem = s.mem := rfl

@[simp] theorem State.push_mem (s : State) (off : Nat) (r : MemReq) : (s.push off r).mem = s.mem := by simp [State.push]

@[simp] theorem State.scrubSync_mem (s : State) (c : Nat) : (s.scrubSync c).mem = s.mem := by simp [State.scrubSync]

@[simp] theorem State.takeSlot_mem (s : State) (c : Nat) (r : MemReq) (rest : List MemReq) : (s.takeSlot c r rest).mem = s.mem := by simp [State.takeSlot]

@[simp] theorem State.takeBank_mem (s : State) (i b : Nat) (r : MemReq) (q rest : List MemReq) : (s.takeBank i b r q rest).mem = s.mem := by simp [State.takeBank]

theorem State.slotNow_mem (s : State) (r : MemReq) {t} (hr : s.slotNow r = some t) : t.mem = s.mem := by
  unfold State.slotNow at hr
  dsimp only at hr
  repeat' split at hr
  all_goals simp at hr
  all_goals simp [← hr]

@[simp] theorem State.rbufClear_mem (s : State) (agent : Nat) : (s.rbufClear agent).mem = s.mem := rfl

@[simp] theorem State.askBuffered_mem (s : State) (agent ga len : Nat) (walk : Option (Nat × Nat)) (send : State → Sink → Option State)
    (hsend : ∀ s k t, send s k = some t → t.mem = s.mem) : (s.askBuffered agent ga len walk send).1.mem = s.mem := by
  unfold State.askBuffered
  dsimp only
  repeat' split
  · rfl
  · next t h => exact (hsend _ _ t h).trans rfl
  · rfl

@[simp] theorem State.askRemote_mem (s : State) (agent ga len : Nat) (m : FMsg) (walk : Option (Nat × Nat)) :
    (s.askRemote agent ga len m walk).1.mem = s.mem :=
  s.askBuffered_mem agent ga len walk _ (fun s k _ h => s.post_mem m none k h)

theorem State.slotsNow_mem (s : State) (b : LocalBy) (o : LocalOp) (ps : List (Nat × Nat)) {t} (hr : s.slotsNow b o ps = some t) :
    t.mem = s.mem :=
  foldl_bind_mem _ (fun _ _ _ h => State.slotNow_mem _ _ h) ps s hr

theorem State.localStop_mem (s : State) (b : LocalBy) (off len : Nat) {r} (hr : s.localStop b off len = some r) : r.1.mem = s.mem := by
  unfold State.localStop at hr
  repeat' split at hr
  all_goals simp at hr
  · simp [← hr]
  · simp [← hr]
  · simp [← hr]
  · obtain ⟨t, ht, rfl⟩ := hr
    exact s.waitSnoop_mem off len ht

theorem State.localAccess_wf (s : State) (b : LocalBy) (off len : Nat) (o : LocalOp) (h : memWf s.mem = true)
    (hnow : ∀ s, memWf s.mem = true → memWf (o.now s).1.mem = true) : memWf (s.localAccess b off len o).1.mem = true := by
  unfold State.localAccess
  dsimp only
  generalize (if rangeOf off = .flash then [] else accessPieces off len) = ps
  split
  · simp -implicitDefEqProofs [h]
  split
  · next r hr => rw [State.localStop_mem _ _ _ _ hr]; exact h
  split
  · next t ht => exact hnow _ (by rw [State.slotsNow_mem _ _ _ _ ht]; exact h)
  · simp -implicitDefEqProofs [h]

@[simp] theorem State.localRead_wf (s : State) (b : LocalBy) (off len : Nat) (h : memWf s.mem = true) :
    memWf (s.localRead b off len).1.mem = true :=
  s.localAccess_wf b off len _ h (fun s h => by simp [h])

@[simp] theorem State.localAtom_wf (s : State) (b : LocalBy) (off op v n : Nat) (h : memWf s.mem = true) :
    memWf (s.localAtom b off op v n).1.mem = true := by
  have hl := s.localAccess_wf b off (atomBytes op) { key := 8192 + op, piece := fun o _ => .atom o op v n, now := fun s => s.atomStore off op v n (b.who.map Requester.code) } h
    (fun s h => by simp [h])
  unfold State.localAtom
  split
  · next h => rw [h] at hl; exact hl
  · exact hl

@[simp] theorem State.localWrite_wf (s : State) (b : LocalBy) (off len : Nat) (ws : List WordWrite) (h : memWf s.mem = true) :
    memWf (s.localWrite b off len ws).1.mem = true :=
  s.localAccess_wf b off len _ h (fun s h => by simp [LocalBy.writes, h])

@[simp] theorem State.writeOnce_wf (s : State) (b : LocalBy) (off len : Nat) (ws : List WordWrite) (h : memWf s.mem = true) :
    memWf (s.writeOnce b off len ws).1.mem = true := by
  unfold State.writeOnce
  repeat' split
  · next r hr => rw [State.localStop_mem _ _ _ _ hr]; exact h
  · next t ht => exact State.writeStore_wf _ _ _ (by rw [State.slotsNow_mem _ _ _ _ ht]; exact h)
  · exact h

@[simp] theorem State.pushPeer_mem (s : State) (typ : Nat) (m : FMsg) (len : Nat) (r : MemReq) (op : Nat → Nat → MemOp) : (s.pushPeer typ m len r op).mem = s.mem := by simp [State.pushPeer]

@[simp] theorem State.postLocal_wf (s : State) (off len : Nat) (ws : List WordWrite) (r : MemReq) (h : memWf s.mem = true) :
    memWf (s.postLocal off len ws r).mem = true := by
  unfold State.postLocal
  refine foldl_wf _ (fun s p h => ?_) _ _ h
  dsimp only
  split
  · next t ht => simp [State.slotNow_mem _ _ ht, h]
  · simp [h]

end Sys2Proof.Machine
end

section
/-! PROOF. What the operations of `Machine.Xlat` leave of storage: the same storage (`…_mem`), or one in canonical form (`…_wf`). -/
namespace Sys2Proof.Machine
open Reg

@[simp] theorem State.readEntry_wf (s : State) (w : Walker) (va ga : Nat) (h : memWf s.mem = true) : memWf (s.readEntry w va ga).1.mem = true := by
  unfold State.readEntry
  repeat' split
  all_goals grind [State.askRemote_mem, State.localRead_wf, State.reportAll_mem]

@[simp] theorem State.install_mem (s : State) (w : Walker) (leaf : CacheEntry) (path : List CacheEntry) : (s.install w leaf path).mem = s.mem := by
  unfold State.install
  split <;> simp

@[simp] theorem State.walkBegun_mem (s : State) : (s.walkBegun).mem = s.mem := rfl

@[simp] theorem State.walkFailed_mem (s : State) : (s.walkFailed).mem = s.mem := rfl

@[simp] theorem State.walkLevel_wf (s : State) (w : Walker) (va level table : Nat) (h : memWf s.mem = true) : memWf (s.walkLevel w va level table).1.mem = true := by
  unfold State.walkLevel
  repeat' split
  all_goals grind [State.readEntry_wf]

@[simp] theorem State.walkDown_wf (s : State) (w : Walker) (va n level table : Nat) (path : List CacheEntry) (h : memWf s.mem = true) :
    memWf (s.walkDown w va n level table path).1.mem = true := by
  induction n generalizing s level table path with
  | zero => exact h
  | succ n ih =>
    have hl := s.walkLevel_wf w va level table h
    unfold State.walkDown
    split <;> (next he => rw [he] at hl; simp [hl, ih])

@[simp] theorem State.walkEnds_mem (s : State) (w : Walker) (va : Nat) : (s.walkEnds w va).mem = s.mem := rfl

@[simp] theorem State.translate_wf (s : State) (w : Walker) (va : Nat) (h : memWf s.mem = true) : memWf (s.translate w va).1.mem = true := by
  unfold State.translate
  split
  · exact h
  split
  · simp [h]
  split
  · exact h
  dsimp only
  split <;> split
  all_goals try exact h
  all_goals split <;> (next he => simp [mem_of_pair he, h])

@[simp] theorem State.invalidate_mem (s : State) (x : InvScope) : (s.invalidate x).mem = s.mem := rfl

end Sys2Proof.Machine
end

section
/-! PROOF. What the operations of `Machine.Access` leave of storage: the same storage (`…_mem`), or one in canonical form (`…_wf`). -/
namespace Sys2Proof.Machine
open Reg

@[simp] theorem State.bmRead_wf (s : State) (agent : Nat) (q : Requester) (ga len : Nat) (h : memWf s.mem = true) :
    memWf (s.bmRead agent q ga len).1.mem = true := by
  unfold State.bmRead
  split
  · simp [h]
  split
  · simp [h]
  split
  · have hl := s.localRead_wf { agent := agent, kind := .bmvRead, who := some q } (gaOff ga) len h
    dsimp only
    split
    · next he => simpa [he] using hl
    · next he => split <;> simpa [he] using hl
    · next he => simpa [he] using hl
  · refine foldl_fst_wf _ (fun p a h => ?_) _ _ h
    repeat' split
    · next he => simp [mem_of_pair he, h]
    · next he => simp [mem_of_pair he, h]
    · exact h

@[simp] theorem State.bmWrite_wf (s : State) (agent : Nat) (q : Requester) (ga : Nat) (bs : List Byte) (flash : Bool) (h : memWf s.mem = true) :
    memWf (s.bmWrite agent q ga bs flash).1.mem = true := by
  unfold State.bmWrite
  dsimp only
  split
  · simp [h]
  split
  · simp [h]
  split
  · split
    · simp [h]
    split <;> (next he => simp [mem_of_pair he, h])
  · refine foldl_fst_wf _ (fun p a h => ?_) _ _ h
    repeat' split
    · next he => simp [mem_of_pair he, h]
    · next he _ => simp [mem_of_pair he, h]
    · next he _ => simp [mem_of_pair he, h]
    · exact h

@[simp] theorem State.vaParts_wf (s : State) (w : Walker) (va len : Nat) (h : memWf s.mem = true) : memWf (s.vaParts w va len).1.mem = true := by
  unfold State.vaParts
  refine foldl_fst_wf _ (fun p a h => ?_) _ _ h
  dsimp only
  split
  · split <;> (next he => simp [mem_of_pair he, h])
  · exact h

theorem State.partsBlocked_mem (s : State) (k : ReachKind) (q : Requester) (ps : List VaPart) (one : Bool) {r} (hr : s.partsBlocked k q ps one = some r) : r.1.mem = s.mem := by
  unfold State.partsBlocked at hr
  repeat' split at hr
  all_goals cases hr
  all_goals simp

@[simp] theorem State.vaRead_wf (s : State) (w : Walker) (q : Requester) (va len : Nat) (h : memWf s.mem = true) :
    memWf (s.vaRead w q va len).1.mem = true := by
  unfold State.vaRead
  split
  · next he => simp [mem_of_pair he, h]
  · next t ps he =>
    have ht : memWf t.mem = true := by simp [mem_of_pair he, h]
    split
    · next hr =>
      split at hr
      · cases hr
      · simp [State.partsBlocked_mem _ _ _ _ _ hr, ht]
    · refine foldl_fst_wf _ (fun p a h => ?_) _ _ ht
      split
      · split <;> (next he => simp [mem_of_pair he, h])
      · exact h

@[simp] theorem State.vaWrite_wf (s : State) (w : Walker) (q : Requester) (va : Nat) (bs : List Byte) (h : memWf s.mem = true) :
    memWf (s.vaWrite w q va bs).1.mem = true := by
  unfold State.vaWrite
  split
  · next he => simp [mem_of_pair he, h]
  · next t ps he =>
    have ht : memWf t.mem = true := by simp [mem_of_pair he, h]
    split
    · next hr =>
      split at hr
      · cases hr
      · simp [State.partsBlocked_mem _ _ _ _ _ hr, ht]
    · refine foldl_fst_wf _ (fun p a h => ?_) _ _ ht
      split
      · split
        · next he => simp [mem_of_pair he, h]
        · simp [h]
      · exact h

end Sys2Proof.Machine
end

section
/-! PROOF. What the operations of `Machine.Envelope` leave of storage: the same storage (`…_mem`), or one in canonical form (`…_wf`). -/
namespace Sys2Proof.Machine
open Reg

@[simp] theorem State.requestLift_mem (s : State) (q : LiftReq) : (s.requestLift q).mem = s.mem := rfl

@[simp] theorem State.setLevel_mem (s : State) (l : Nat) : (s.setLevel l).mem = s.mem := by simp [State.setLevel]

@[simp] theorem State.holdFrom_mem (s t : State) : (s.holdFrom t).mem = t.mem := by
  unfold State.holdFrom
  split <;> rfl

@[simp] theorem State.lowerLevel_mem (s : State) : (s.lowerLevel).mem = s.mem := by simp [State.lowerLevel]

end Sys2Proof.Machine
end

section
/-! PROOF. What the operations of `Machine.LoftRegs` leave of storage: the same storage (`…_mem`), or one in canonical form (`…_wf`). -/
namespace Sys2Proof.Machine
open Reg

@[simp] theorem State.loftEvent_mem (s : State) (i kind key : Nat) : (s.loftEvent i kind key).mem = s.mem := by simp [State.loftEvent]

@[simp] theorem State.setLoftDmg_mem (s : State) (i key : Nat) (d : Damage) : (s.setLoftDmg i key d).mem = s.mem := rfl

@[simp] theorem State.loftDecode_mem (s : State) (i key : Nat) : (s.loftDecode i key).1.mem = s.mem := by
  unfold State.loftDecode
  dsimp only
  repeat' split
  all_goals simp

@[simp] theorem State.loftRead_mem (s : State) (i lin w : Nat) : (s.loftRead i lin w).1.mem = s.mem := by simp -implicitDefEqProofs [State.loftRead]

@[simp] theorem State.maskRead_mem (s : State) (i lin : Nat) : (s.maskRead i lin).1.mem = s.mem := by simp [State.maskRead]

@[simp] theorem State.loftWordPut_mem (s : State) (i key mask data : Nat) : (s.loftWordPut i key mask data).mem = s.mem := by simp [State.loftWordPut]

@[simp] theorem State.loftWrite_mem (s : State) (i : Nat) (ps : List LoftPiece) : (s.loftWrite i ps).mem = s.mem := by simp -implicitDefEqProofs [State.loftWrite]

@[simp] theorem State.loftUpset_mem (s : State) (i : Nat) (us : List LoftUpset) : (s.loftUpset i us).mem = s.mem := by simp -implicitDefEqProofs [State.loftUpset]

@[simp] theorem State.forgetLofts_mem (s : State) (i : Nat) : (s.forgetLofts i).mem = s.mem := rfl

@[simp] theorem State.loftClear_mem (s : State) (i : Nat) : (s.loftClear i).mem = s.mem := rfl

end Sys2Proof.Machine
end

section
/-! PROOF. What the operations of `Machine.ChainEnd` leave of storage: the same storage (`…_mem`), or one in canonical form (`…_wf`). -/
namespace Sys2Proof.Machine
open Reg

@[simp] theorem State.finishCmd_mem (s : State) (r : Nat) (x : Result) : (s.finishCmd r x).mem = s.mem := rfl

@[simp] theorem State.releaseTail_mem (s : State) (id : Nat) : (s.releaseTail id).mem = s.mem := by
  unfold State.releaseTail
  split <;> simp

@[simp] theorem State.dropTail_mem (s : State) (id : Nat) : (s.dropTail id).mem = s.mem := by simp [State.dropTail]

@[simp] theorem State.latchStop_mem (s : State) (r seq : Nat) (d : List Nat) (x : StopCause) (index : Nat) : (s.latchStop r seq d x index).mem = s.mem := by simp [State.latchStop]

@[simp] theorem State.reportCause_mem (s : State) (svu : Nat) (x : StopCause) : (s.reportCause svu x).mem = s.mem := by simp [State.reportCause]

@[simp] theorem State.restoreWord_wf (s : State) (c : Chain) (f w : Nat) (h : memWf s.mem = true) : memWf (s.restoreWord c f w).mem = true := by
  unfold State.restoreWord
  dsimp only
  repeat' split
  all_goals simp [h]

@[simp] theorem State.restore_wf (s : State) (c : Chain) (f : Nat) (h : memWf s.mem = true) : memWf (s.restore c f).mem = true := by
  unfold State.restore
  exact foldl_wf _ (fun s o h => by simp [h]) _ _ (foldl_wf _ (fun s w h => by simp [h]) _ _ h)

theorem State.sendUndo_mem (s : State) (id : Nat) (u : UndoRec) {r} (hr : s.sendUndo id u = some r) : r.mem = s.mem := by
  unfold State.sendUndo at hr
  dsimp only at hr
  repeat' split at hr
  all_goals grind [State.updChain_mem, State.push_mem, → State.post_mem]

@[simp] theorem State.sendUndos_mem (s : State) (id : Nat) (l : List UndoRec) : (s.sendUndos id l).mem = s.mem := by
  induction l generalizing s with
  | nil => simp [State.sendUndos]
  | cons u rest ih =>
    unfold State.sendUndos
    split
    · next t ht => exact (ih t).trans (s.sendUndo_mem id u ht)
    · simp

@[simp] theorem State.dropChain_mem (s : State) (id : Nat) : (s.dropChain id).mem = s.mem := by simp [State.dropChain]

@[simp] theorem State.abortLater_mem (s : State) (c : Chain) : (s.abortLater c).mem = s.mem := by simp -implicitDefEqProofs [State.abortLater]

@[simp] theorem State.endChain_mem (s : State) (c : Chain) (status index flags : Nat) : (s.endChain c status index flags).mem = s.mem := by
  unfold State.endChain
  dsimp only
  repeat' split
  all_goals simp

@[simp] theorem State.reportStop_mem (s : State) (c : Chain) (f : Nat) (x : StopCause) : (s.reportStop c f x).mem = s.mem := by
  unfold State.reportStop
  split <;> simp

@[simp] theorem State.endStopped_wf (s : State) (c : Chain) (f : Nat) (x : StopCause) (h : memWf s.mem = true) : memWf (s.endStopped c f x).mem = true := by
  unfold State.endStopped
  dsimp only
  repeat' split
  all_goals simp [h]

end Sys2Proof.Machine
end

section
/-! PROOF. What the operations of `Machine.RegBase` leave of storage: the same storage (`…_mem`), or one in canonical form (`…_wf`). -/
namespace Sys2Proof.Machine
open Reg

@[simp] theorem State.hostUrWrite_mem (s : State) : (s.hostUrWrite).mem = s.mem := rfl

@[simp] theorem State.hostMissed_mem (s : State) (read : Bool) : (s.hostMissed read).mem = s.mem := by simp [State.hostMissed]

@[simp] theorem State.refuseReg_mem (s : State) (m : Master) (off : Nat) (read : Bool) (status : Nat) : (s.refuseReg m off read status).mem = s.mem := by
  unfold State.refuseReg
  split <;> simp

@[simp] theorem State.unlock_mem (s : State) (n : Nat) : (s.unlock n).mem = s.mem := rfl

@[simp] theorem State.mxcHold_mem (s : State) (q : MxcReq) : (s.mxcHold q).mem = s.mem := by simp [State.mxcHold]

@[simp] theorem State.mxcGrant_mem (s : State) (m : Master) (off : Nat) : (s.mxcGrant m off).mem = s.mem := by simp [State.mxcGrant]

@[simp] theorem State.applyWrite_mem (s : State) (off mask bits : Nat) : (s.applyWrite off mask bits).mem = s.mem := by
  unfold State.applyWrite
  split <;> simp

@[simp] theorem State.regRow_mem (s : State) (w : RegWrite) (off : Nat) (right : Bool) (f : State → State) (hf : ∀ s t, f s = t → t.mem = s.mem) :
    (s.regRow w off right f).mem = s.mem := by
  unfold State.regRow
  split
  · simp
  split
  · simp
  simp [hf _ _ rfl]

theorem State.regRow_wf (s : State) (w : RegWrite) (off : Nat) (right : Bool) (f : State → State)
    (hf : ∀ s t, f s = t → memWf s.mem = true → memWf t.mem = true) (h : memWf s.mem = true) : memWf (s.regRow w off right f).mem = true := by
  unfold State.regRow
  split
  · simp [h]
  split
  · simp [h]
  split
  · simp [h]
  split
  · simp [h]
  · exact hf _ _ rfl (by simp [h])

@[simp] theorem State.audit_mem (s : State) (action status : Nat) (a : Actor) (arg0 arg1 digest : Nat) : (s.audit action status a arg0 arg1 digest).mem = s.mem := by simp [State.audit]

@[simp] theorem State.auditWrite_mem (s : State) (w : RegWrite) (off : Nat) : (s.auditWrite w off).mem = s.mem := by
  unfold State.auditWrite
  repeat' split
  all_goals simp

end Sys2Proof.Machine
end

section
/-! PROOF. What the operations of `Machine.Memory` leave of storage: the same storage (`…_mem`), or one in canonical form (`…_wf`). -/
namespace Sys2Proof.Machine
open Reg

@[simp] theorem State.hostUr_mem (s : State) : (s.hostUr).mem = s.mem := rfl

@[simp] theorem execHostBar2Read_wf (off len : Nat) (s : State) (h : memWf s.mem = true) : Canonical (execHostBar2Read off len s) := by
  unfold execHostBar2Read
  rw [canonical_next]
  split
  · exact h
  split
  · simp [h]
  split
  · next he => simp [mem_of_pair he, h]
  · next he => simp -implicitDefEqProofs [mem_of_pair he, h]
  · next he => simp [mem_of_pair he, h]

@[simp] theorem execHostBar2Write_wf (off : Nat) (data : List Byte) (poisoned : Bool) (s : State) (h : memWf s.mem = true) :
    Canonical (execHostBar2Write off data poisoned s) := by
  unfold execHostBar2Write
  rw [canonical_next]
  split
  · exact h
  split
  · simp [h]
  split
  · next hb =>
    have ht := State.block_mem _ _ _ _ _ hb
    simp_all
  · simp [h]

@[simp] theorem State.upset_mem (s : State) (base : Nat) (us : List Upset) : (s.upset base us).mem = s.mem := by simp -implicitDefEqProofs [State.upset]

@[simp] theorem State.performChain_wf (s : State) (r : MemReq) (id : Nat) (cs : List Contrib) (h : memWf s.mem = true) : memWf (s.performChain r id cs).mem = true := by
  unfold State.performChain
  split <;> simp [h]

@[simp] theorem State.performReq_wf (s : State) (r : MemReq) (h : memWf s.mem = true) : memWf (s.performReq r).mem = true := by
  unfold State.performReq
  dsimp only
  repeat' split
  all_goals simp [h]

@[simp] theorem execChannelGrant_wf (ch : Chan) (upsets : List Upset) (xbar : XbarParity) (s : State) (h : memWf s.mem = true) : Canonical (execChannelGrant ch upsets xbar s) := by
  unfold execChannelGrant
  dsimp only
  repeat' split
  all_goals simp [h]

@[simp] theorem execRefresh_wf (ch : Chan) (clocks : Nat) (s : State) (h : memWf s.mem = true) : Canonical (execRefresh ch clocks s) := by simp [execRefresh, h]

@[simp] theorem State.setMemcState_mem (s : State) (c v : Nat) : (s.setMemcState c v).mem = s.mem := by
  unfold State.setMemcState
  repeat' split
  all_goals grind [State.wr_mem, State.scrubSync_mem]

@[simp] theorem State.newPass_mem (s : State) (c : Nat) : (s.newPass c).mem = s.mem := rfl

/-- What a scrub read that is due does to a granule leaves storage as it was. -/
theorem scrubbed_mem (c base p : Nat) (s : State) :
    (let s := (List.range 4).foldl (fun s k => (s.readEcc (base + 64 * k) true).1) s
     let s := s.setChan c { s.chan c with scrubTurn := 0 }
     if p + 1 = 2 ^ 27 then (s.memCount c (MEMC_SCRUB_POS_PASSES c) 1).newPass c
     else (s.wr (MEMC_SCRUB_POS_POSITION c) (p + 1)).scrubSync c).mem = s.mem := by
  simp -implicitDefEqProofs

@[simp] theorem execScrubRead_wf (ch : Chan) (upsets : List Upset) (s : State) (h : memWf s.mem = true) :
    Canonical (execScrubRead ch upsets s) := by
  unfold execScrubRead
  rw [canonical_next]
  split
  · simp [h]
  · rw [scrubbed_mem]
    simp [h]

@[simp] theorem execScrubCtlWrite_wf (ch : Chan) (w : RegWrite) (s : State) (h : memWf s.mem = true) : Canonical (execScrubCtlWrite ch w s) := by
  simp -implicitDefEqProofs [execScrubCtlWrite, h]

@[simp] theorem execIntlvArbWrite_wf (w : RegWrite) (s : State) (h : memWf s.mem = true) : Canonical (execIntlvArbWrite w s) := by simp [execIntlvArbWrite, h]

@[simp] theorem execMemcPerfClear_wf (ch : Chan) (w : RegWrite) (s : State) (h : memWf s.mem = true) : Canonical (execMemcPerfClear ch w s) := by simp -implicitDefEqProofs [execMemcPerfClear, h]

@[simp] theorem execMemcInjectWrite_wf (ch : Chan) (w : RegWrite) (s : State) (h : memWf s.mem = true) : Canonical (execMemcInjectWrite ch w s) := by simp [execMemcInjectWrite, h]

@[simp] theorem State.copyRow_mem (s : State) (c row : Nat) : (s.copyRow c row).mem = s.mem := by simp [State.copyRow]

@[simp] theorem State.spareRecord_mem (s : State) (c src least : Nat) : (s.spareRecord c src least).mem = s.mem := by simp [State.spareRecord]

@[simp] theorem execRowSpare_wf (ch : Chan) (bank row : Nat) (s : State) (h : memWf s.mem = true) : Canonical (execRowSpare ch bank row s) := by
  unfold execRowSpare
  dsimp only
  repeat' split
  all_goals simp [h]

@[simp] theorem execLaneSpare_wf (ch : Chan) (lane : Nat) (s : State) (h : memWf s.mem = true) : Canonical (execLaneSpare ch lane s) := by simp [execLaneSpare, h]

@[simp] theorem State.trainChannel_mem (s : State) (c : Nat) : (s.trainChannel c).mem = s.mem := by simp [State.trainChannel]

@[simp] theorem execWipeComplete_wf (ch : Chan) (s : State) (h : memWf s.mem = true) : Canonical (execWipeComplete ch s) := by
  unfold execWipeComplete
  dsimp only
  rw [canonical_next]
  split
  · exact h
  · simp [memWf_filter _ _ h]

@[simp] theorem execWearTick_wf (tower : Tower) (temp : Nat) (s : State) (h : memWf s.mem = true) : Canonical (execWearTick tower temp s) := by simp [execWearTick, h]

@[simp] theorem State.saveWear_mem (s : State) : (s.saveWear).mem = s.mem := by simp [State.saveWear]

@[simp] theorem execWearSave_wf (s : State) (h : memWf s.mem = true) : Canonical (execWearSave s) := by simp [execWearSave, h]

end Sys2Proof.Machine
end

section
/-! PROOF. What the operations of `Machine.StreamBase` leave of storage: the same storage (`…_mem`), or one in canonical form (`…_wf`). -/
namespace Sys2Proof.Machine
open Reg

@[simp] theorem State.updSlice_mem (s : State) (id lsl : Nat) (f : Slice → Slice) : (s.updSlice id lsl f).mem = s.mem := by simp [State.updSlice]

theorem State.postWrites_mem (s : State) (i id : Nat) (cs : List Contrib) {t} (hr : s.postWrites i id cs = some t) : t.mem = s.mem :=
  (foldl_bind_mem _ (fun _ _ _ h => State.post_mem _ _ _ _ h) _ _ hr).trans (s.updChain_mem ..)

@[simp] theorem State.denyLoft_mem (s : State) (c : Chain) : (s.denyLoft c).mem = s.mem := by
  unfold State.denyLoft
  split <;> simp

end Sys2Proof.Machine
end

section
/-! PROOF. What the operations of `Machine.StreamRun` leave of storage: the same storage (`…_mem`), or one in canonical form (`…_wf`). -/
namespace Sys2Proof.Machine
open Reg

@[simp] theorem State.putElem_mem (s : State) (c : Chain) (lsl k j : Nat) (x : Option StopCause) : (s.putElem c lsl k j x).mem = s.mem := by simp [State.putElem]

@[simp] theorem State.findGa_mem (s : State) (i : Nat) (c : Chain) (lsl k j va : Nat) : (s.findGa i c lsl k j va).1.mem = s.mem := by
  unfold State.findGa
  dsimp only
  repeat' split
  all_goals simp

@[simp] theorem State.hold_mem (s : State) (i k granule id : Nat) : (s.hold i k granule id).mem = s.mem := by simp [State.hold]

@[simp] theorem State.readElems_mem (s : State) (i : Nat) (c : Chain) (l : Slice) (k j hi : Nat) (x : Int) (g va : Nat) :
    (s.readElems i c l k j hi x g va).mem = s.mem := by
  unfold State.readElems
  extract_lets sd off far u base es last asks sink
  have h0 : (asks s).mem = s.mem := s.updSlice_mem ..
  split
  · simp
  split
  · cases hp : (asks s).post (readMsg base 64) (some i) sink with
    | none => rfl
    | some t => exact (State.post_mem _ _ _ _ hp).trans h0
  split
  · simp
  split <;> simp [h0]

@[simp] theorem State.readOwn_mem (s : State) (i : Nat) (c : Chain) (l : Slice) (k j hi : Nat) : (s.readOwn i c l k j hi).mem = s.mem := by
  unfold State.readOwn
  dsimp only
  repeat' split
  all_goals simp

@[simp] theorem State.fetch_mem (s : State) (i : Nat) (c : Chain) (l : Slice) (k : Nat) : (s.fetch i c l k).mem = s.mem := by
  unfold State.fetch
  repeat' split
  all_goals grind [State.readOwn_mem, State.putElem_mem, State.findGa_mem, State.readElems_mem]

@[simp] theorem State.fetchOwn_mem (s : State) (i id lsl : Nat) : (s.fetchOwn i id lsl).mem = s.mem := by
  unfold State.fetchOwn
  split
  · rfl
  · refine foldl_mem _ (fun s k t ht => ht ▸ foldl_mem _ (fun s j t ht => ?_) _ _) _ _
    subst ht
    split
    · rfl
    split
    · rfl
    · dsimp only
      split <;> simp

@[simp] theorem State.atomGa_wf (s : State) (i : Nat) (c : Chain) (n bits a : Nat) (h : memWf s.mem = true) :
    memWf (s.atomGa i c n bits a).1.mem = true := by
  unfold State.atomGa
  split
  · exact h
  split
  · exact h
  split
  · next he => simp [mem_of_pair he, h]
  · next he => simp [mem_of_pair he, h]
  · next t g he =>
    have ht : memWf t.mem = true := by simp [mem_of_pair he, h]
    extract_lets window bad
    clear_value bad
    split
    · exact ht
    · split <;> exact ht

theorem State.sendAtom_mem (s : State) (i : Nat) (c : Chain) (lsl x : Nat) (a : AtomReq) (swap : Bool) {r} (hr : s.sendAtom i c lsl x a swap = some r) : r.mem = s.mem := by
  unfold State.sendAtom at hr
  dsimp only at hr
  repeat' split at hr
  all_goals grind [State.updChain_mem, State.push_mem, → State.post_mem]

@[simp] theorem State.trySwap_mem (s : State) (i : Nat) (c : Chain) (l : Slice) (x : Nat) (a : AtomReq) : (s.trySwap i c l x a).mem = s.mem := by
  unfold State.trySwap
  repeat' split
  all_goals grind [State.updSlice_mem, → State.sendAtom_mem]

@[simp] theorem State.nodesStep_wf (s : State) (i : Nat) (c : Chain) (l : Slice) (e : ElemEnv) (h : memWf s.mem = true) :
    memWf (s.nodesStep i c l e).1.mem = true := by
  unfold State.nodesStep
  refine foldl_fst_wf _ (fun p n h => ?_) _ _ h
  split
  · next s outs adds =>
    split
    · exact h
    extract_lets x o
    split
    · exact h
    split
    · exact h
    split
    · next he => simp [mem_of_pair he, h]
    · next he => simp [mem_of_pair he, h]
    · next t g he =>
      have ht : memWf t.mem = true := by simp [mem_of_pair he, h]
      extract_lets q
      split
      · exact ht
      · split <;> simp [ht]
  · exact h

@[simp] theorem State.outGa_wf (s : State) (i : Nat) (c : Chain) (k p : Nat) (x : Int) (h : memWf s.mem = true) :
    memWf (s.outGa i c k p x).1.mem = true := by
  unfold State.outGa
  extract_lets sd
  split
  rename_i n check _ _ _ _
  have checked (s : State) (g loc va : Nat) : (check s g loc va).1.mem = s.mem := by
    simp only [check]
    repeat' split
    all_goals rfl
  split
  · exact h
  split
  · exact h
  split
  · rw [checked]; exact h
  split
  · next he => simp [mem_of_pair he, h]
  · next he => simp [mem_of_pair he, h]
  · next he => rw [checked, mem_of_pair he]; simp [h]

@[simp] theorem State.outsStep_wf (s : State) (i : Nat) (c : Chain) (e : ElemEnv) (adds : List AtomReq) (h : memWf s.mem = true) :
    memWf (s.outsStep i c e adds).1.mem = true := by
  unfold State.outsStep
  refine foldl_fst_wf _ (fun p k h => ?_) _ _ h
  split
  · split
    · exact h
    · exact h
    · split <;> (next he => simp [mem_of_pair he, h])
  · exact h

@[simp] theorem State.elemStep_wf (s : State) (i : Nat) (c : Chain) (l : Slice) (e : ElemEnv) (h : memWf s.mem = true) :
    memWf (s.elemStep i c l e).1.mem = true := by
  unfold State.elemStep
  split
  · exact h
  split
  · next he => exact State.outsStep_wf _ _ _ _ _ (by simp [mem_of_pair he, h])
  · simp [h]

theorem State.sendAdds_mem (s : State) (i : Nat) (c : Chain) (lsl x : Nat) (adds : List AtomReq) {t} (hr : s.sendAdds i c lsl x adds = some t) :
    t.mem = s.mem := by
  refine foldl_bind_mem _ (fun s a t h => ?_) adds s hr
  dsimp only at h
  split at h
  · cases h
  · exact (State.sendAtom_mem _ _ _ _ _ _ _ h).trans (s.setSvu_mem ..)

@[simp] theorem State.writeLofts_mem (s : State) (i id : Nat) (d : List Nat) (outs : List OutEl) : (s.writeLofts i id d outs).mem = s.mem := by simp [State.writeLofts]

@[simp] theorem State.elems_wf (s : State) (i id lsl hi : Nat) (up : Option (Nat × Nat × Nat)) (n : Nat) (h : memWf s.mem = true) :
    memWf (s.elems i id lsl hi up n).1.mem = true := by
  induction n generalizing s with
  | zero => exact h
  | succ n ih =>
    unfold State.elems
    split
    · exact h
    split
    · exact h
    split
    · exact h
    extract_lets e
    split
    · next he => simp [mem_of_pair he, h]
    · next he => simp [mem_of_pair he, h]
    · next t outs adds he =>
      have ht : memWf t.mem = true := by simp [mem_of_pair he, h]
      split
      · exact ht
      · next hs => exact ih _ (by simp [State.sendAdds_mem _ _ _ _ _ _ hs, ht])

@[simp] theorem State.afterGroup_mem (s : State) (i id lsl : Nat) (stop : Option (Nat × StopCause × Nat)) : (s.afterGroup i id lsl stop).mem = s.mem := by
  unfold State.afterGroup
  repeat' split
  all_goals simp

@[simp] theorem State.issueWrite_mem (s : State) (i : Nat) (c : Chain) (l : Slice) (k : Nat) (os : List OutEl) :
    (s.issueWrite i c l k os).mem = s.mem := by
  unfold State.issueWrite
  split
  · rfl
  dsimp only
  split
  · simp
  split
  · split
    · simp
    · exact getD_mem (fun t ht => (State.postWrites_mem _ _ _ _ ht).trans (State.updSlice_mem ..))
  split
  · split <;> simp
  split
  · simp
  · simp -implicitDefEqProofs

@[simp] theorem State.writeOut_mem (s : State) (i id k : Nat) : (s.writeOut i id k).mem = s.mem := by
  unfold State.writeOut
  repeat' split
  all_goals simp

end Sys2Proof.Machine
end

section
/-! PROOF. What the operations of `Machine.ChainRun` leave of storage: the same storage (`…_mem`), or one in canonical form (`…_wf`). -/
namespace Sys2Proof.Machine
open Reg

@[simp] theorem State.handOut_mem (s : State) (c : Chain) (lsl j : Nat) : (s.handOut c lsl j).mem = s.mem := by simp [State.handOut]

@[simp] theorem State.assign_mem (s : State) (id : Nat) : (s.assign id).mem = s.mem := by
  unfold State.assign
  split
  · rfl
  · refine foldl_mem _ (fun s l t ht => ?_) _ _
    subst ht
    split
    · split <;> simp
    · simp

@[simp] theorem execChainDispatch_wf (id : Nat) (s : State) (h : memWf s.mem = true) : Canonical (execChainDispatch id s) := by
  unfold execChainDispatch
  rw [canonical_next]
  repeat' split
  all_goals simp [h]

@[simp] theorem execSpoolPrefetch_wf (i : Svu) (slot : Slot) (s : State) (h : memWf s.mem = true) : Canonical (execSpoolPrefetch i slot s) := by
  unfold execSpoolPrefetch
  dsimp only
  repeat' split
  all_goals simp [h]

@[simp] theorem execTableWalkRead_wf (i : Svu) (slot : Slot) (upsets : List Upset) (s : State) (h : memWf s.mem = true) :
    Canonical (execTableWalkRead i slot upsets s) := by
  unfold execTableWalkRead
  rw [canonical_next]
  split
  · exact h
  split
  · exact h
  dsimp only
  split <;> (next he => simp [mem_of_pair he, h])

@[simp] theorem execTetherRelease_wf (granule : Nat) (s : State) (h : memWf s.mem = true) : Canonical (execTetherRelease granule s) := by
  unfold execTetherRelease
  dsimp only
  rw [canonical_next]
  refine foldl_wf _ (fun s x h => ?_) _ _ h
  repeat' split
  all_goals simp [h]

@[simp] theorem State.beginBlock_mem (s : State) (i : Nat) (c : Chain) (l : Slice) : (s.beginBlock i c l).mem = s.mem := by simp -implicitDefEqProofs [State.beginBlock]

@[simp] theorem execPipesStart_wf (i : Svu) (s : State) (h : memWf s.mem = true) : Canonical (execPipesStart i s) := by
  unfold execPipesStart
  dsimp only
  repeat' split
  all_goals simp [h]

@[simp] theorem execBlockSwitch_wf (i : Svu) (s : State) (h : memWf s.mem = true) : Canonical (execBlockSwitch i s) := by
  unfold execBlockSwitch
  dsimp only
  repeat' split
  all_goals simp [h]

@[simp] theorem State.mismatch_mem (s : State) (i : Nat) (c : Chain) (l : Slice) : (s.mismatch i c l).mem = s.mem := by simp [State.mismatch]

@[simp] theorem State.parity_mem (s : State) (i src aux : Nat) (c : Chain) (l : Slice) : (s.parity i src aux c l).mem = s.mem := by simp [State.parity]

@[simp] theorem execGroupCompute_wf (i : Svu) (check : GroupCheck) (s : State) (h : memWf s.mem = true) : Canonical (execGroupCompute i check s) := by
  unfold execGroupCompute
  dsimp only
  repeat' split
  all_goals simp [h]

@[simp] theorem execSpSwapWait_wf (i : Svu) (s : State) (h : memWf s.mem = true) : Canonical (execSpSwapWait i s) := by
  unfold execSpSwapWait
  repeat' split
  all_goals simp [h]

@[simp] theorem execSpoolWriteIssue_wf (i : Svu) (slot : Slot) (s : State) (h : memWf s.mem = true) : Canonical (execSpoolWriteIssue i slot s) := by
  unfold execSpoolWriteIssue
  dsimp only
  repeat' split
  all_goals simp [h]

@[simp] theorem State.release_mem (s : State) (i : Nat) (c : Chain) (l : Slice) (p : PassRes) : (s.release i c l p).mem = s.mem := by simp -implicitDefEqProofs [State.release]

@[simp] theorem execWindowCompare_wf (i : Svu) (s : State) (h : memWf s.mem = true) : Canonical (execWindowCompare i s) := by
  unfold execWindowCompare
  repeat' split
  all_goals simp [h]

@[simp] theorem State.latchVerif_mem (s : State) (i outcome : Nat) (c : Chain) (l : Slice) : (s.latchVerif i outcome c l).mem = s.mem := by simp [State.latchVerif]

@[simp] theorem execSvuSelfTestDone_wf (i : Svu) (pass : Bool) (s : State) (h : memWf s.mem = true) : Canonical (execSvuSelfTestDone i pass s) := by
  unfold execSvuSelfTestDone
  dsimp only
  repeat' split
  all_goals simp [h]

@[simp] theorem State.leaveSvu_mem (s : State) (c : Chain) (i lsl : Nat) : (s.leaveSvu c i lsl).mem = s.mem := by simp [State.leaveSvu]

@[simp] theorem execSliceEnd_wf (i : Svu) (s : State) (h : memWf s.mem = true) : Canonical (execSliceEnd i s) := by
  unfold execSliceEnd
  dsimp only
  repeat' split
  all_goals simp [h]

@[simp] theorem State.beginReduce_mem (s : State) (c : Chain) : (s.beginReduce c).mem = s.mem := by simp -implicitDefEqProofs [State.beginReduce]

@[simp] theorem State.readIndex_wf (s : State) (c : Chain) (sd : SlotD) (va g : Nat) (h : memWf s.mem = true) : memWf (s.readIndex c sd va g).1.mem = true := by
  unfold State.readIndex
  repeat' split
  all_goals grind [State.askRemote_mem, State.localRead_wf]

@[simp] theorem State.index0_wf (s : State) (c : Chain) (k : Nat) (h : memWf s.mem = true) : memWf (s.index0 c k).1.mem = true := by
  unfold State.index0
  repeat' split
  all_goals grind [State.loftRead_mem, State.readIndex_wf, State.translate_wf]

@[simp] theorem State.reduceAddr_wf (s : State) (c : Chain) (place : Nat) (h : memWf s.mem = true) : memWf (s.reduceAddr c place).1.mem = true := by
  unfold State.reduceAddr
  repeat' split
  all_goals grind [State.index0_wf]

@[simp] theorem State.reduceGas_wf (s : State) (c : Chain) (va n : Nat) (h : memWf s.mem = true) : memWf (s.reduceGas c va n).1.mem = true := by
  unfold State.reduceGas
  refine foldl_fst_wf _ (fun p k h => ?_) _ _ h
  split
  · dsimp only
    split
    · next he => simp [mem_of_pair he, h]
    · next he => simp [mem_of_pair he, h]
    · next t g he =>
      have ht : memWf t.mem = true := by simp [mem_of_pair he, h]
      split
      · exact ht
      · split <;> exact ht
  · exact h

theorem State.putParts_mem (s : State) (id svu place : Nat) (ps : List (Nat × Nat × List Byte)) {t}
    (hr : s.putParts id svu place ps = some t) : t.mem = s.mem := by
  refine foldl_bind_mem _ (fun s p t h => ?_) _ s hr
  dsimp only at h
  split at h
  · exact State.post_mem _ _ _ _ h
  · cases h
    simp

/-- The scratchpad half of `State.reduceOne`: whatever the refusal and the requests do. -/
theorem reduceScratch_wf (t : State) (id g n va : Nat) (fail : State → StopCause → State) (put : State → List (Nat × Nat) → State)
    (hfail : ∀ s x, (fail s x).mem = s.mem) (hput : ∀ s gs, (put s gs).mem = s.mem) (ht : memWf t.mem = true) :
    memWf (if t.tethered id (g / 256) then t
      else match t.blocked .streamWrite (gaOff g) n with
        | some st => fail t { status := st, ga := g }
        | none => put t [(g, va)]).mem = true := by
  split
  · exact ht
  · split <;> simp [hfail, hput, ht]

@[simp] theorem State.reduceOne_wf (s : State) (c : Chain) (place : Nat) (h : memWf s.mem = true) : memWf (s.reduceOne c place).mem = true := by
  unfold State.reduceOne
  extract_lets sd kind svu popped fail bs put
  have hfail (s : State) (x : StopCause) : (fail s x).mem = s.mem := by simp [fail]
  have hput (s : State) (gs : List (Nat × Nat)) : (put s gs).mem = s.mem := by
    exact (getD_mem (fun t ht => (State.putParts_mem _ _ _ _ _ ht).trans (State.setChain_mem ..))).trans (s.rbufClear_mem _)
  clear_value fail put
  split
  · simp [h]
  split
  · next he => simp [mem_of_pair he, h]
  · next he => simp [hfail, mem_of_pair he, h]
  · next t a he =>
    have ht : memWf t.mem = true := by simp [mem_of_pair he, h]
    split
    · simp [hfail, ht]
    extract_lets va
    split
    · exact reduceScratch_wf _ _ _ _ _ _ _ hfail hput ht
    · split <;> (next he => simp [hfail, hput, mem_of_pair he, ht])

@[simp] theorem State.endOk_mem (s : State) (c : Chain) : (s.endOk c).mem = s.mem := by
  unfold State.endOk
  repeat' split
  all_goals simp

@[simp] theorem State.stepEnd_wf (s : State) (id : Nat) (h : memWf s.mem = true) : memWf (s.stepEnd id).mem = true := by
  unfold State.stepEnd
  dsimp only
  repeat' split
  all_goals simp [h]

@[simp] theorem execReductionWrite_wf (id : Nat) (s : State) (h : memWf s.mem = true) : Canonical (execReductionWrite id s) := by simp [execReductionWrite, h]

@[simp] theorem State.discardAbove_mem (s : State) (id f : Nat) : (s.discardAbove id f).mem = s.mem := by simp [State.discardAbove]

@[simp] theorem execChainStop_wf (id : Nat) (s : State) (h : memWf s.mem = true) : Canonical (execChainStop id s) := by
  unfold execChainStop
  dsimp only
  repeat' split
  all_goals simp [h]

@[simp] theorem execTailSizeWrite_wf (w : RegWrite) (s : State) (h : memWf s.mem = true) : Canonical (execTailSizeWrite w s) := by simp [execTailSizeWrite, h]

@[simp] theorem execTailAreaApply_wf (s : State) (h : memWf s.mem = true) : Canonical (execTailAreaApply s) := by simp [execTailAreaApply, h]

end Sys2Proof.Machine
end

section
/-! PROOF. What the operations of `Machine.Sessions` leave of storage: the same storage (`…_mem`), or one in canonical form (`…_wf`). -/
namespace Sys2Proof.Machine
open Reg

@[simp] theorem State.abandonUpdate_mem (s : State) : (s.abandonUpdate).mem = s.mem := by
  unfold State.abandonUpdate
  repeat' split
  all_goals simp

@[simp] theorem State.endSession_mem (s : State) (i : Nat) : (s.endSession i).mem = s.mem := by simp -implicitDefEqProofs [State.endSession]

@[simp] theorem State.endSessions_mem (s : State) (p : State → Nat → Bool) : (s.endSessions p).mem = s.mem := by simp -implicitDefEqProofs [State.endSessions]

theorem State.useRole_mem (s : State) (path role : Nat) {r} (hr : s.useRole path role = some r) : r.1.mem = s.mem := by
  unfold State.useRole at hr
  repeat' split at hr
  all_goals cases hr
  all_goals simp

end Sys2Proof.Machine
end

section
/-! PROOF. What the operations of `Machine.Rings` leave of storage: the same storage (`…_mem`), or one in canonical form (`…_wf`). -/
namespace Sys2Proof.Machine
open Reg

@[simp] theorem State.ringMarks_mem (s : State) (r : Nat) : (s.ringMarks r).mem = s.mem := by simp [State.ringMarks]

@[simp] theorem State.ringErr_mem (s : State) (r aux addr : Nat) : (s.ringErr r aux addr).mem = s.mem := by simp [State.ringErr]

@[simp] theorem State.setTail_mem (s : State) (r t : Nat) : (s.setTail r t).mem = s.mem := by simp [State.setTail]

@[simp] theorem State.setCqHead_mem (s : State) (r h : Nat) : (s.setCqHead r h).mem = s.mem := by simp [State.setCqHead]

@[simp] theorem State.doorbell_mem (s : State) (via : Doorbell) (r lane : Nat) (f : State → State) (hf : ∀ s t, f s = t → t.mem = s.mem) :
    (s.doorbell via r lane f).mem = s.mem := by
  unfold State.doorbell
  split
  · split
    · simp
    · split
      · simp
      · exact hf _ _ rfl
  · exact s.regRow_mem _ _ _ _ hf

@[simp] theorem execDoorbellTail_wf (via : Doorbell) (r : Ring) (v : BitVec 32) (s : State) (h : memWf s.mem = true) : Canonical (execDoorbellTail via r v s) := by simp [execDoorbellTail, h]

@[simp] theorem execDoorbellCqHead_wf (via : Doorbell) (r : Ring) (v : BitVec 32) (s : State) (h : memWf s.mem = true) :
    Canonical (execDoorbellCqHead via r v s) := by
  simp -implicitDefEqProofs [execDoorbellCqHead, h]

@[simp] theorem State.readEntryOf_wf (s : State) (r n : Nat) (h : memWf s.mem = true) : memWf (s.readEntryOf r n).1.mem = true := by simp [State.readEntryOf, h]

@[simp] theorem State.readErr_mem (s : State) (r : Nat) : (s.readErr r).mem = s.mem := by simp [State.readErr]

/-- One more entry of a packet read, as `State.getPacket` does. -/
def readMore (r head : Nat) (a : State × Got) (k : Nat) : State × Got :=
  match a with
  | (s, .bytes bs) =>
    match s.readEntryOf r (head + k) with
    | (s, .bytes b) => (s, .bytes (bs ++ b))
    | x => x
  | x => x

@[simp] theorem readMore_wf (r head : Nat) (a : State × Got) (k : Nat) (h : memWf a.1.mem = true) : memWf (readMore r head a k).1.mem = true := by
  unfold readMore
  split
  · split
    · next he => simp [mem_of_pair he, h]
    · simp [h]
  · exact h

@[simp] theorem State.getPacket_wf (s : State) (r : Nat) (host : HostData) (h : memWf s.mem = true) : memWf (s.getPacket r host).1.mem = true := by
  unfold State.getPacket
  dsimp only
  split
  · split
    · exact h
    · repeat' split
      all_goals simp [h]
  · split
    · next he => simp [mem_of_pair he, h]
    · next he => simp [mem_of_pair he, h]
    · next he => simp [mem_of_pair he, h]
    · next t b0 he =>
      have ht : memWf t.mem = true := by simp [mem_of_pair he, h]
      split
      · exact ht
      have hread (n : Nat) : memWf ((rangeFrom 1 n).foldl (readMore r (s.rd (CMDR_PTR_HEAD r))) (t, .bytes b0)).1.mem = true :=
        foldl_fst_wf _ (fun p k h => by simp [h]) _ _ ht
      split <;> exact hread _

@[simp] theorem State.getRef_wf (s : State) (r : Nat) (p : Packet) (rest : List Byte) (host : HostData) (h : memWf s.mem = true) : memWf (s.getRef r p rest host).1.mem = true := by
  unfold State.getRef
  repeat' split
  all_goals grind [State.emit_mem, State.bmRead_wf]

@[simp] theorem execPacketRead_wf (r : Ring) (host : HostData) (s : State) (h : memWf s.mem = true) : Canonical (execPacketRead r host s) := by
  unfold execPacketRead
  extract_lets k
  rw [canonical_next]
  split
  · exact h
  next s1 _ =>
  have h1 : memWf s1.mem = true := h
  clear_value s1
  split
  · next he => simp [mem_of_pair he, h1]
  · next he => simp [mem_of_pair he, h1]
  · next he => simp [mem_of_pair he, h1]
  · next t ws rest he =>
    have ht : memWf t.mem = true := by simp [mem_of_pair he, h1]
    extract_lets fin p
    have hq : memWf (if p.cmd = 0x11 ∧ p.entries = 1 ∧ p.w 1 % 64 = 0 then t.getRef k p rest host else (t, some p)).1.mem = true := by
      split <;> simp [ht]
    split
    next u _ he2 =>
    have hu : memWf u.mem = true := by rw [mem_of_pair he2]; exact hq
    split
    · exact hu
    · simp [hu]

@[simp] theorem State.startCmd_mem (s : State) (r : Nat) : (s.startCmd r).mem = s.mem := by
  unfold State.startCmd
  extract_lets q
  split
  · rfl
  next p rest _ =>
  extract_lets err p s1 s2
  have h1 : s1.mem = s.mem := by simp [s1]
  have h2 : s2.mem = s.mem := by
    simp only [s2]
    split
    · refine (getD_mem fun t ht => ?_).trans h1
      obtain ⟨u, hu, rfl⟩ := Option.map_eq_some_iff.mp ht
      exact s1.useRole_mem _ _ hu
    · exact h1
  split
  · simp [h2]
  · split <;> simp [h2]

@[simp] theorem State.dispatchOne_mem (s : State) : s.dispatchOne.mem = s.mem := by
  unfold State.dispatchOne
  dsimp only
  split
  · rfl
  · split <;> simp

@[simp] theorem State.setPacket_mem (s : State) (r : Nat) (p : Packet) : (s.setPacket r p).mem = s.mem := by simp [State.setPacket]

@[simp] theorem State.haltRing_mem (s : State) (r : Nat) : (s.haltRing r).mem = s.mem := by simp [State.haltRing]

@[simp] theorem State.sendCoal_mem (s : State) (r : Nat) : (s.sendCoal r).mem = s.mem := by simp [State.sendCoal]

@[simp] theorem State.coalesce_mem (s : State) (r : Nat) : (s.coalesce r).mem = s.mem := by simp [State.coalesce]

@[simp] theorem State.writeEntry_wf (s : State) (r : Nat) (x : Result) (hostOk : Bool) (h : memWf s.mem = true) : memWf (s.writeEntry r x hostOk).1.mem = true := by
  unfold State.writeEntry
  repeat' split
  all_goals grind [State.emit_mem, State.bmWrite_wf]

@[simp] theorem State.postNext_wf (s : State) (r : Nat) (hostOk : Bool) (h : memWf s.mem = true) : memWf (s.postNext r hostOk).mem = true := by
  unfold State.postNext
  extract_lets q
  split
  · exact h
  split
  · exact h
  split
  · exact h
  split
  · next he => simp [mem_of_pair he, h]
  · next t res _ he =>
    have ht : memWf t.mem = true := by simp [mem_of_pair he, h]
    split <;> simp [ht]

@[simp] theorem State.haltChain_wf (s : State) (id status : Nat) (h : memWf s.mem = true) : memWf (s.haltChain id status).mem = true := by
  unfold State.haltChain
  split
  · exact h
  split
  · simp [h]
  · simp -implicitDefEqProofs [h]
  · simp -implicitDefEqProofs [h]
  · exact h

@[simp] theorem State.endRingReset_mem (s : State) (r : Nat) (freeTokens : State → Nat → State) (hf : ∀ s r t, freeTokens s r = t → t.mem = s.mem) :
    (s.endRingReset r freeTokens).mem = s.mem := by
  simp [State.endRingReset, hf _ _ _ rfl]

@[simp] theorem State.ringReset_wf (s : State) (r : Nat) (host : Bool) (h : memWf s.mem = true) : memWf (s.ringReset r host).mem = true := by
  unfold State.ringReset
  split
  · extract_lets s1 mine s2 q s3 fences s4 q' s5 s6
    have h2 : memWf s2.mem = true := foldl_wf _ (fun s id h => by simp [h]) _ _ (by simp [s1, h])
    have h3 : memWf s3.mem = true := foldl_wf _ (fun s p h => by split <;> simp [h]) _ _ h2
    have h4 : memWf s4.mem = true := foldl_wf _ (fun s p h => by simp [h]) _ _ h3
    have h6 : memWf s6.mem = true := by simp [s6, s5, h4]
    split <;> simp [h6]
  · split <;> simp [h]

@[simp] theorem State.ringEnable_mem (s : State) (r v : Nat) : (s.ringEnable r v).mem = s.mem := by simp [State.ringEnable]

@[simp] theorem State.ctlWrite_wf (s : State) (r : Nat) (w : RegWrite) (h : memWf s.mem = true) : memWf (s.ctlWrite r w).mem = true := by
  unfold State.ctlWrite
  refine State.regRow_wf _ _ _ _ _ (fun s t ht h => ?_) h
  subst ht
  dsimp only
  repeat' split
  all_goals simp [h]

@[simp] theorem execRingEnable_wf (r : Ring) (w : RegWrite) (s : State) (h : memWf s.mem = true) : Canonical (execRingEnable r w s) := by simp [execRingEnable, h]

@[simp] theorem execRingRestart_wf (r : Ring) (w : RegWrite) (s : State) (h : memWf s.mem = true) : Canonical (execRingRestart r w s) := by simp [execRingRestart, h]

@[simp] theorem execRingReset_wf (r : Ring) (w : RegWrite) (s : State) (h : memWf s.mem = true) : Canonical (execRingReset r w s) := by simp [execRingReset, h]

@[simp] theorem execCompletionMsi_wf (r : Ring) (s : State) (h : memWf s.mem = true) : Canonical (execCompletionMsi r s) := by
  unfold execCompletionMsi
  split <;> simp [h]

end Sys2Proof.Machine
end

section
/-! PROOF. What the operations of `Machine.BlockMover` leave of storage: the same storage (`…_mem`), or one in canonical form (`…_wf`). -/
namespace Sys2Proof.Machine
open Reg

@[simp] theorem State.putPool_mem (s : State) (p : Nat) (x : PoolState) : (s.putPool p x).mem = s.mem := by simp [State.putPool]

@[simp] theorem State.poolTake_mem (s : State) (p owner : Nat) : (s.poolTake p owner).1.mem = s.mem := by
  unfold State.poolTake
  dsimp only
  repeat' split
  all_goals simp

@[simp] theorem State.poolPut_mem (s : State) (p i : Nat) : (s.poolPut p i).mem = s.mem := by simp [State.poolPut]

@[simp] theorem State.misuse_mem (s : State) (p : Nat) : (s.misuse p).mem = s.mem := by simp [State.misuse]

@[simp] theorem State.freeToken_mem (s : State) (token owner : Nat) : (s.freeToken token owner).1.mem = s.mem := by
  unfold State.freeToken
  dsimp only
  repeat' split
  all_goals simp

@[simp] theorem State.freeAllOf_mem (s : State) (r : Nat) : (s.freeAllOf r).mem = s.mem := by simp -implicitDefEqProofs [State.freeAllOf]

@[simp] theorem State.poolCfgWrite_mem (s : State) (p : Nat) (w : RegWrite) : (s.poolCfgWrite p w).mem = s.mem := by simp [State.poolCfgWrite]

@[simp] theorem execPoolEnable_wf (p : Pool) (w : RegWrite) (s : State) (h : memWf s.mem = true) : Canonical (execPoolEnable p w s) := by simp [execPoolEnable, h]

@[simp] theorem State.bmvEvent_mem (s : State) (c status index : Nat) : (s.bmvEvent c status index).mem = s.mem := by
  unfold State.bmvEvent
  repeat' split
  all_goals simp

@[simp] theorem State.bmvFinish_mem (s : State) (c status index : Nat) (bad : Bool) : (s.bmvFinish c status index bad).mem = s.mem := by simp [State.bmvFinish]

@[simp] theorem State.bmvStart_mem (s : State) (c : Nat) : (s.bmvStart c).mem = s.mem := by
  unfold State.bmvStart
  dsimp only
  repeat' split
  all_goals simp

@[simp] theorem State.bmvTake_mem (s : State) (c : Nat) : (s.bmvTake c).mem = s.mem := by simp [State.bmvTake]

@[simp] theorem State.bmvNext_mem (s : State) (c : Nat) : (s.bmvNext c).mem = s.mem := by simp [State.bmvNext]

@[simp] theorem State.hostAsk_mem (s : State) (c base len : Nat) : (s.hostAsk c base len).mem = s.mem := by simp [State.hostAsk]

@[simp] theorem State.hostAnswered_mem (s : State) (c base : Nat) : (s.hostAnswered c base).mem = s.mem := by simp [State.hostAnswered]

@[simp] theorem execBurstGrant_wf (s : State) (h : memWf s.mem = true) : Canonical (execBurstGrant s) := by
  unfold execBurstGrant
  dsimp only
  repeat' split
  all_goals simp [h]

@[simp] theorem State.burstRead_wf (s : State) (c : Nat) (b : Burst) (host : HostData) (h : memWf s.mem = true) : memWf (s.burstRead c b host).1.mem = true := by
  unfold State.burstRead
  repeat' split
  all_goals simp [h]

@[simp] theorem State.burstWrite_wf (s : State) (c : Nat) (b : Burst) (h : memWf s.mem = true) : memWf (s.burstWrite c b).1.mem = true := by
  unfold State.burstWrite
  repeat' split
  all_goals simp [h]

@[simp] theorem State.bmvWrites_wf (s : State) (c n : Nat) (h : memWf s.mem = true) : memWf (s.bmvWrites c n).mem = true := by
  induction n generalizing s with
  | zero => exact h
  | succ n ih =>
    unfold State.bmvWrites
    extract_lets x
    split
    · next b rest _ =>
      extract_lets stop
      split
      · exact h
      split
      · exact ih _ (by simp [h])
      split
      · next he => simp [mem_of_pair he, h]
      · next he => exact ih _ (by simp [mem_of_pair he, h])
      · next he => simp [mem_of_pair he, h]
    · exact h

@[simp] theorem State.bmvRead_wf (s : State) (c : Nat) (host : HostData) (h : memWf s.mem = true) : memWf (s.bmvRead c host).mem = true := by
  unfold State.bmvRead
  extract_lets x
  split
  · exact h
  extract_lets put lower
  split <;> (next he => simp [put, mem_of_pair he, h])

@[simp] theorem State.bmvEnd_mem (s : State) (c : Nat) : (s.bmvEnd c).mem = s.mem := by
  unfold State.bmvEnd
  split <;> simp

@[simp] theorem execBurstReadComplete_wf (ch : BmvCh) (host : HostData) (s : State) (h : memWf s.mem = true) : Canonical (execBurstReadComplete ch host s) := by simp [execBurstReadComplete, h]

@[simp] theorem execTransferEnd_wf (ch : BmvCh) (s : State) (h : memWf s.mem = true) : Canonical (execTransferEnd ch s) := by simp [execTransferEnd, h]

@[simp] theorem State.bmvAbort_wf (s : State) (c : Nat) (h : memWf s.mem = true) : memWf (s.bmvAbort c).mem = true := by
  unfold State.bmvAbort
  dsimp only
  repeat' split
  all_goals simp [h]

@[simp] theorem State.bmvCmdWrite_wf (s : State) (c : Nat) (w : RegWrite) (h : memWf s.mem = true) : memWf (s.bmvCmdWrite c w).mem = true := by
  unfold State.bmvCmdWrite
  refine State.regRow_wf _ _ _ _ _ (fun s t ht h => ?_) h
  subst ht
  dsimp only
  repeat' split
  all_goals simp [h]

@[simp] theorem execBmvArm_wf (ch : BmvCh) (w : RegWrite) (s : State) (h : memWf s.mem = true) : Canonical (execBmvArm ch w s) := by simp [execBmvArm, h]

@[simp] theorem execBmvAbort_wf (ch : BmvCh) (w : RegWrite) (s : State) (h : memWf s.mem = true) : Canonical (execBmvAbort ch w s) := by simp [execBmvAbort, h]

@[simp] theorem State.engineMove_mem (s : State) (r : Nat) (p : Packet) (src dst xfer ctx : Nat) : (s.engineMove r p src dst xfer ctx).mem = s.mem := by
  unfold State.engineMove
  split <;> simp

@[simp] theorem State.bmvPeerReset_wf (s : State) (c : Nat) (h : memWf s.mem = true) : memWf (s.bmvPeerReset c).mem = true := by
  unfold State.bmvPeerReset
  dsimp only
  repeat' split
  all_goals simp [h]

end Sys2Proof.Machine
end

section
/-! PROOF. What the operations of `Machine.Mailbox` leave of storage: the same storage (`…_mem`), or one in canonical form (`…_wf`). -/
namespace Sys2Proof.Machine
open Reg

@[simp] theorem State.mbxEvent_mem (s : State) (m d : Nat) : (s.mbxEvent m d).mem = s.mem := by simp [State.mbxEvent]

@[simp] theorem State.mbxCheck_mem (s : State) (m d : Nat) : (s.mbxCheck m d).mem = s.mem := by simp [State.mbxCheck]

@[simp] theorem State.mbxDrop_mem (s : State) (m d : Nat) : (s.mbxDrop m d).mem = s.mem := by simp [State.mbxDrop]

@[simp] theorem State.mbxRing_mem (s : State) (m d bits : Nat) : (s.mbxRing m d bits).mem = s.mem := by simp [State.mbxRing]

@[simp] theorem State.mbxSend_mem (s : State) (m d : Nat) (v : Word) : (s.mbxSend m d v).mem = s.mem := by simp [State.mbxSend]

@[simp] theorem State.mbxTake_mem (s : State) (m d : Nat) : (s.mbxTake m d).1.mem = s.mem := by
  unfold State.mbxTake
  dsimp only
  repeat' split
  all_goals simp

@[simp] theorem State.mbxReset_mem (s : State) (m d : Nat) : (s.mbxReset m d).mem = s.mem := by simp [State.mbxReset]

@[simp] theorem execMbxDoorbell_wf (b : Mbx) (side : Bool) (w : RegWrite) (s : State) (h : memWf s.mem = true) : Canonical (execMbxDoorbell b side w s) := by simp [execMbxDoorbell, h]

@[simp] theorem execMbxSend_wf (b : Mbx) (side : Bool) (w : RegWrite) (s : State) (h : memWf s.mem = true) : Canonical (execMbxSend b side w s) := by simp [execMbxSend, h]

@[simp] theorem State.readRow_mem (s : State) (m : Master) (off width : Nat) (right : Bool) (f : State → State × Word)
    (hf : ∀ s p, f s = p → p.1.mem = s.mem) : (s.readRow m off width right f).mem = s.mem := by
  unfold State.readRow
  split
  · simp
  split
  · simp
  split
  · simp
  split
  · simp
  · exact (State.emit_mem ..).trans ((hf _ _ rfl).trans (s.mxcGrant_mem _ _))

@[simp] theorem execMbxRecv_wf (b : Mbx) (side : Bool) (m : Master) (width : Nat) (s : State) (h : memWf s.mem = true) :
    Canonical (execMbxRecv b side m width s) := by
  unfold execMbxRecv
  rw [canonical_next, State.readRow_mem]
  · exact h
  · rintro s p rfl
    simp

@[simp] theorem execMbxReady_wf (b : Mbx) (side : Bool) (w : RegWrite) (s : State) (h : memWf s.mem = true) : Canonical (execMbxReady b side w s) := by simp [execMbxReady, h]

end Sys2Proof.Machine
end

section
/-! PROOF. What the operations of `Machine.Scratch` leave of storage: the same storage (`…_mem`), or one in canonical form (`…_wf`). -/
namespace Sys2Proof.Machine
open Reg

@[simp] theorem State.spUpset_mem (s : State) (base : Nat) (us : List Upset) : (s.spUpset base us).mem = s.mem := by simp -implicitDefEqProofs [State.spUpset]

@[simp] theorem execScratchBankAccess_wf (i : Svu) (bank : Nat) (upsets : List Upset) (s : State) (h : memWf s.mem = true) :
    Canonical (execScratchBankAccess i bank upsets s) := by
  unfold execScratchBankAccess
  extract_lets b q
  rw [canonical_next]
  split
  · exact h
  · dsimp only
    split <;> simp [h]

@[simp] theorem execScratchLineScrub_wf (i : Svu) (line : Nat) (upsets : List Upset) (s : State) (h : memWf s.mem = true) : Canonical (execScratchLineScrub i line upsets s) := by simp [execScratchLineScrub, h]

@[simp] theorem execArrayClearDone_wf (k : Cluster) (s : State) (h : memWf s.mem = true) : Canonical (execArrayClearDone k s) := by
  unfold execArrayClearDone
  extract_lets svus
  rw [canonical_next]
  have h1 : memWf (if s.rd (CLUS_ARRAY_STATE_ARRAY k.val) = 1 then
        let lo := windowOf (4 * k.val)
        let s := s.wipe (fun o => decide (lo ≤ o) && decide (o < lo + 2 ^ 24))
        svus.foldl (fun s i => s.setSvu i { s.svu i with lineRead := [], linesFrom := s.now }) (s.wr (CLUS_ARRAY_STATE_ARRAY k.val) 2)
      else s).mem = true := by
    split
    · exact foldl_wf _ (fun s i h => by simp [h]) _ _ (by simp [memWf_filter _ _ h])
    · exact h
  split
  · exact foldl_wf _ (fun s i h => by simp [h]) _ _ (by rw [State.wr_mem]; exact h1)
  · exact h1

@[simp] theorem State.writeVd_mem (s : State) (i : Nat) (o : LoftOp) (res : List (Nat × Nat)) : (s.writeVd i o res).mem = s.mem := by simp [State.writeVd]

@[simp] theorem State.orFps_mem (s : State) (c t flags : Nat) : (s.orFps c t flags).mem = s.mem := by simp [State.orFps]

@[simp] theorem State.popLoft_mem (s : State) (i : Nat) : (s.popLoft i).mem = s.mem := by simp [State.popLoft]

@[simp] theorem State.stopLoft_mem (s : State) (i : Nat) (o : LoftOp) (status index : Nat) : (s.stopLoft i o status index).mem = s.mem := by simp [State.stopLoft]

@[simp] theorem execLoftOpStart_wf (i : Svu) (s : State) (h : memWf s.mem = true) : Canonical (execLoftOpStart i s) := by
  unfold execLoftOpStart
  dsimp only
  repeat' split
  all_goals simp [h]

@[simp] theorem State.endLoft_mem (s : State) (i : Nat) (o : LoftOp) : (s.endLoft i o).mem = s.mem := by simp [State.endLoft]

@[simp] theorem State.decodeWords_mem (s : State) (i : Nat) (o : LoftOp) (es : List (Nat × Nat)) : (s.decodeWords i o es).mem = s.mem := by simp -implicitDefEqProofs [State.decodeWords]

@[simp] theorem State.decodeSources_mem (s : State) (i : Nat) (o : LoftOp) (a b : Nat) : (s.decodeSources i o a b).mem = s.mem := by simp [State.decodeSources]

@[simp] theorem execLoftGroup_wf (i : Svu) (upsets : List LoftUpset) (s : State) (h : memWf s.mem = true) : Canonical (execLoftGroup i upsets s) := by
  unfold execLoftGroup
  dsimp only
  repeat' split
  all_goals simp [h]

end Sys2Proof.Machine
end

section
/-! PROOF. What the operations of `Machine.Teardown` leave of storage: the same storage (`…_mem`), or one in canonical form (`…_wf`). -/
namespace Sys2Proof.Machine
open Reg

@[simp] theorem State.drainRange_mem (s : State) (id lsl status : Nat) : (s.drainRange id lsl status).mem = s.mem := by simp [State.drainRange]

@[simp] theorem State.drainSvus_mem (s : State) (svus : List Nat) (status : Nat) : (s.drainSvus svus status).mem = s.mem := by simp -implicitDefEqProofs [State.drainSvus]

@[simp] theorem State.tearSvus_mem (s : State) (svus : List Nat) : (s.tearSvus svus).mem = s.mem := by simp -implicitDefEqProofs [State.tearSvus]

@[simp] theorem State.resetLoft_mem (s : State) (i n : Nat) : (s.resetLoft i n).mem = s.mem := by
  induction n generalizing s with
  | zero => simp [State.resetLoft]
  | succ n ih =>
    unfold State.resetLoft
    dsimp only
    repeat' split
    all_goals simp [ih]

@[simp] theorem State.resetLofts_mem (s : State) (svus : List Nat) : (s.resetLofts svus).mem = s.mem := by simp -implicitDefEqProofs [State.resetLofts]

@[simp] theorem State.releaseLock_mem (s : State) (c t : Nat) : (s.releaseLock c t).mem = s.mem := by simp [State.releaseLock]

@[simp] theorem State.abandonLock_mem (s : State) (c t : Nat) : (s.abandonLock c t).mem = s.mem := by
  unfold State.abandonLock
  dsimp only
  repeat' split
  all_goals simp

@[simp] theorem State.stopTask_mem (s : State) (c t : Nat) : (s.stopTask c t).mem = s.mem := by simp [State.stopTask]

@[simp] theorem State.stopTasks_mem (s : State) (c : Nat) : (s.stopTasks c).mem = s.mem := by simp -implicitDefEqProofs [State.stopTasks]

@[simp] theorem State.dropWaits_mem (s : State) (c : Nat) : (s.dropWaits c).mem = s.mem := by simp -implicitDefEqProofs [State.dropWaits]

@[simp] theorem State.coreOff_mem (s : State) (c : Nat) : (s.coreOff c).mem = s.mem := by simp [State.coreOff]

@[simp] theorem State.resetRegs_mem (s : State) (lo hi : Nat) : (s.resetRegs lo hi).mem = s.mem := by simp [State.resetRegs]

@[simp] theorem State.portLost_mem (s : State) (p : Nat) : (s.portLost p).mem = s.mem := by simp [State.portLost]

@[simp] theorem State.dropHostReads_mem (s : State) (c : Nat) : (s.dropHostReads c).mem = s.mem := by
  unfold State.dropHostReads
  dsimp only
  repeat' split
  all_goals simp

@[simp] theorem State.hifReset_wf (s : State) (last : Nat) (h : memWf s.mem = true) : memWf (s.hifReset last).mem = true := by
  unfold State.hifReset
  extract_lets host s1 s2 s3 s4 s5 s6 s7
  have h2 : memWf s2.mem = true := foldl_wf _ (fun s c h => by simp [h]) _ _ h
  have h3 : memWf s3.mem = true := foldl_wf _ (fun s c h => by split <;> simp [h]) _ _ h2
  have h4 : memWf s4.mem = true := foldl_wf _ (fun s c h => by split <;> simp [h]) _ _ h3
  have h5 : memWf s5.mem = true := foldl_wf _ (fun s c h => by simp [h]) _ _ h4
  have h6 : memWf s6.mem = true := by simp [s6, h5]
  have h7 : memWf s7.mem = true := by simp [s7, h6]
  clear_value s7
  split
  · exact h7
  · exact h7

@[simp] theorem State.clusterLogicOff_mem (s : State) (k : Nat) : (s.clusterLogicOff k).mem = s.mem := by simp -implicitDefEqProofs [State.clusterLogicOff]

@[simp] theorem State.clusterArrayOff_mem (s : State) (k : Nat) : (s.clusterArrayOff k).mem = s.mem := by simp -implicitDefEqProofs [State.clusterArrayOff]

@[simp] theorem State.channelOff_mem (s : State) (c state status : Nat) : (s.channelOff c state status).mem = s.mem := by simp -implicitDefEqProofs [State.channelOff]

@[simp] theorem State.towerOff_mem (s : State) (t : Nat) : (s.towerOff t).mem = s.mem := by simp -implicitDefEqProofs [State.towerOff]

@[simp] theorem State.portOff_mem (s : State) (p : Nat) : (s.portOff p).mem = s.mem := by simp [State.portOff]

@[simp] theorem State.pllOff_mem (s : State) (n : Nat) : (s.pllOff n).mem = s.mem := by simp [State.pllOff]

@[simp] theorem State.pllFreq_mem (s : State) (n : Nat) : (s.pllFreq n).2.mem = s.mem := by simp [State.pllFreq]

@[simp] theorem State.pllOn_mem (s : State) (n : Nat) : (s.pllOn n).mem = s.mem := by simp [State.pllOn]

@[simp] theorem State.domainOff_wf (s : State) (d : Nat) (h : memWf s.mem = true) : memWf (s.domainOff d).mem = true := by
  unfold State.domainOff
  extract_lets s1
  have h1 : memWf s1.mem = true := by
    simp only [s1]
    repeat' split
    all_goals simp [h]
  split <;> simp [h1]

@[simp] theorem State.domainWake_mem (s : State) (d : Nat) : (s.domainWake d).mem = s.mem := by
  unfold State.domainWake
  repeat' split
  all_goals simp -implicitDefEqProofs

end Sys2Proof.Machine
end

section
/-! PROOF. What the operations of `Machine.Power` leave of storage: the same storage (`…_mem`), or one in canonical form (`…_wf`). -/
namespace Sys2Proof.Machine
open Reg

@[simp] theorem State.dropLift_mem (s : State) (id : Nat) : (s.dropLift id).mem = s.mem := by simp [State.dropLift]

@[simp] theorem execLiftGrant_wf (s : State) (h : memWf s.mem = true) : Canonical (execLiftGrant s) := by
  unfold execLiftGrant
  repeat' split
  all_goals simp [h]

@[simp] theorem execInputRampStart_wf (s : State) (h : memWf s.mem = true) : Canonical (execInputRampStart s) := by
  unfold execInputRampStart
  split <;> simp [h]

@[simp] theorem execInputRampDone_wf (s : State) (h : memWf s.mem = true) : Canonical (execInputRampDone s) := by
  unfold execInputRampDone
  split <;> simp [h]

@[simp] theorem execInputRampDown_wf (i : Svu) (s : State) (h : memWf s.mem = true) : Canonical (execInputRampDown i s) := by simp [execInputRampDown, h]

@[simp] theorem State.fitLevel_mem (s : State) (n : Nat) : (s.fitLevel n).mem = s.mem := by
  induction n generalizing s with
  | zero => simp [State.fitLevel]
  | succ n ih => simp [State.fitLevel, ih]

@[simp] theorem State.fitGrants_mem (s : State) (n : Nat) : (s.fitGrants n).mem = s.mem := by
  induction n generalizing s with
  | zero => simp [State.fitGrants]
  | succ n ih =>
    unfold State.fitGrants
    dsimp only
    repeat' split
    all_goals simp [ih]

@[simp] theorem State.denyChain_mem (s : State) (c : Chain) : (s.denyChain c).mem = s.mem := by simp [State.denyChain]

@[simp] theorem State.denyWaiting_wf (s : State) (h : memWf s.mem = true) : memWf (s.denyWaiting).mem = true := by
  unfold State.denyWaiting
  refine foldl_wf _ (fun s a h => ?_) _ _ (by simp [h])
  repeat' split
  all_goals simp [h]

@[simp] theorem State.fit_wf (s : State) (h : memWf s.mem = true) : memWf (s.fit).mem = true := by simp [State.fit, h]

@[simp] theorem State.pinMark_mem (s : State) : (s.pinMark).mem = s.mem := by simp [State.pinMark]

@[simp] theorem execVinSample_wf (vin iin : Nat) (s : State) (h : memWf s.mem = true) : Canonical (execVinSample vin iin s) := by
  unfold execVinSample
  dsimp only
  repeat' split
  all_goals simp [h]

@[simp] theorem execEnvWaitExpiry_wf (s : State) (h : memWf s.mem = true) : Canonical (execEnvWaitExpiry s) := by
  unfold execEnvWaitExpiry
  split <;> simp [h]

@[simp] theorem execUpHoldExpiry_wf (s : State) (h : memWf s.mem = true) : Canonical (execUpHoldExpiry s) := by simp [execUpHoldExpiry, h]

@[simp] theorem execBusStall_wf (s : State) (h : memWf s.mem = true) : Canonical (execBusStall s) := by simp [execBusStall, h]

@[simp] theorem execBusRecover_wf (s : State) (h : memWf s.mem = true) : Canonical (execBusRecover s) := by simp [execBusRecover, h]

@[simp] theorem State.throttle_mem (s : State) (hottest : Nat) : (s.throttle hottest).mem = s.mem := by simp [State.throttle]

@[simp] theorem execThrottle_wf (hottest : Nat) (s : State) (h : memWf s.mem = true) : Canonical (execThrottle hottest s) := by simp [execThrottle, h]

@[simp] theorem execThrottleRepeat_wf (hottest : Nat) (s : State) (h : memWf s.mem = true) : Canonical (execThrottleRepeat hottest s) := by simp [execThrottleRepeat, h]

@[simp] theorem State.limitWrite_wf (s : State) (w : RegWrite) (h : memWf s.mem = true) : memWf (s.limitWrite w).mem = true := by simp [State.limitWrite, h]

@[simp] theorem execPwrLimitWrite_wf (w : RegWrite) (s : State) (h : memWf s.mem = true) : Canonical (execPwrLimitWrite w s) := by
  unfold execPwrLimitWrite
  rw [canonical_next]
  refine State.regRow_wf _ _ _ _ _ (fun s t ht h => ?_) h
  subst ht
  simp [h]

@[simp] theorem State.setCap_wf (s : State) (f : RF) (v : Nat) (h : memWf s.mem = true) : memWf (s.setCap f v).1.mem = true := by
  unfold State.setCap
  split <;> simp [h]

@[simp] theorem State.domainResult_mem (s : State) (st : Nat) : (s.domainResult st).mem = s.mem := by simp [State.domainResult]

@[simp] theorem State.domainRequest_wf (s : State) (d : Nat) (on : Bool) (w : RegWrite) (h : memWf s.mem = true) :
    memWf (s.domainRequest d on w).mem = true := by
  unfold State.domainRequest
  split
  · simp [h]
  extract_lets power s1 waiting other s2 s3
  have h1 : memWf s1.mem = true := by
    simp only [s1]
    split <;> exact h
  split
  · simp [h1]
  · have h2 : memWf s2.mem = true := by
      simp only [s2]
      repeat' split
      all_goals simp [h1]
    simp [s3, h2]

@[simp] theorem execDomainRequest_wf (w : RegWrite) (s : State) (h : memWf s.mem = true) : Canonical (execDomainRequest w s) := by
  unfold execDomainRequest
  rw [canonical_next]
  refine State.regRow_wf _ _ _ _ _ (fun s t ht h => ?_) h
  subst ht
  repeat' split
  all_goals simp [h]

@[simp] theorem State.domainEnds_mem (s : State) (d : Nat) : (s.domainEnds d).mem = s.mem := by simp [State.domainEnds]

@[simp] theorem execDomainWakeDone_wf (d : Nat) (s : State) (h : memWf s.mem = true) : Canonical (execDomainWakeDone d s) := by simp [execDomainWakeDone, h]

@[simp] theorem execDomainOffDone_wf (d : Nat) (s : State) (h : memWf s.mem = true) : Canonical (execDomainOffDone d s) := by simp [execDomainOffDone, h]

@[simp] theorem execFlashIdleOff_wf (s : State) (h : memWf s.mem = true) : Canonical (execFlashIdleOff s) := by simp [execFlashIdleOff, h]

@[simp] theorem State.wakeFor_mem (s : State) (target : Nat) : (s.wakeFor target).mem = s.mem := by simp -implicitDefEqProofs [State.wakeFor]

@[simp] theorem State.acceptState_wf (s : State) (target : Nat) (suspend : Bool) (h : memWf s.mem = true) :
    memWf (s.acceptState target suspend).mem = true := by
  unfold State.acceptState
  extract_lets up s1 s2 power s3 s4
  have h1 : memWf s1.mem = true := by
    simp only [s1]
    split
    · exact foldl_wf _ (fun s c h => by simp [h]) _ _ h
    · exact h
  have h3 : memWf s3.mem = true := by simp [s3, s2, h1]
  clear_value s3
  have h4 : memWf s4.mem = true := by
    simp only [s4]
    split <;> simp [h3]
  simp [h4]

@[simp] theorem State.requestState_wf (s : State) (target : Nat) (suspend : Bool) (h : memWf s.mem = true) :
    memWf (s.requestState target suspend).mem = true := by
  unfold State.requestState
  dsimp only
  repeat' split
  all_goals simp [h]

@[simp] theorem execPowerStateRequest_wf (w : RegWrite) (s : State) (h : memWf s.mem = true) : Canonical (execPowerStateRequest w s) := by
  unfold execPowerStateRequest
  rw [canonical_next]
  refine State.regRow_wf _ _ _ _ _ (fun s t ht h => ?_) h
  subst ht
  split <;> simp [h]

@[simp] theorem State.selfRefresh_mem (s : State) (enter : Bool) : (s.selfRefresh enter).mem = s.mem := by simp -implicitDefEqProofs [State.selfRefresh]

@[simp] theorem State.leaveDomains_wf (s : State) (target : Nat) (h : memWf s.mem = true) : memWf (s.leaveDomains target).mem = true := by
  unfold State.leaveDomains
  dsimp only
  rw [State.holdFrom_mem]
  exact foldl_wf _ (fun s d h => by simp [h]) _ _ h

@[simp] theorem State.endTorn_wf (s : State) (h : memWf s.mem = true) : memWf (s.endTorn).mem = true := by
  unfold State.endTorn
  refine foldl_wf _ (fun s a h => ?_) _ _ (by simp [h])
  repeat' split
  all_goals simp [h]

@[simp] theorem State.glLoses_mem (s : State) : (s.glLoses).mem = s.mem := by simp [State.glLoses]

@[simp] theorem State.clearReady_mem (s : State) : (s.clearReady).mem = s.mem := by simp [State.clearReady]

@[simp] theorem execTransitionComplete_wf (s : State) (h : memWf s.mem = true) : Canonical (execTransitionComplete s) := by
  unfold execTransitionComplete
  rw [canonical_next]
  split
  · exact h
  split
  · exact h
  extract_lets waits power s1
  have h1 : memWf s1.mem = true := h
  clear_value s1
  split
  · exact h
  split <;> simp +zetaDelta [h1]

@[simp] theorem execBrownOut_wf (s : State) (h : memWf s.mem = true) : Canonical (execBrownOut s) := by
  unfold execBrownOut
  rw [canonical_next]
  split
  · exact h
  simp -implicitDefEqProofs +zetaDelta [h]

end Sys2Proof.Machine
end

section
/-! PROOF. What the operations of `Machine.Clock` leave of storage: the same storage (`…_mem`), or one in canonical form (`…_wf`). -/
namespace Sys2Proof.Machine
open Reg

@[simp] theorem State.pllCoast_mem (s : State) (n : Nat) : (s.pllCoast n).mem = s.mem := by simp [State.pllCoast]

@[simp] theorem State.pllLocked_mem (s : State) (n : Nat) : (s.pllLocked n).mem = s.mem := by simp [State.pllLocked]

@[simp] theorem State.levelToThree_mem (s : State) : (s.levelToThree).mem = s.mem := by simp [State.levelToThree]

@[simp] theorem execRefclkLost_wf (s : State) (h : memWf s.mem = true) : Canonical (execRefclkLost s) := by simp [execRefclkLost, h]

@[simp] theorem execRefclkGood_wf (s : State) (h : memWf s.mem = true) : Canonical (execRefclkGood s) := by simp [execRefclkGood, h]

@[simp] theorem execPllLock_wf (n : Pll) (s : State) (h : memWf s.mem = true) : Canonical (execPllLock n s) := by simp [execPllLock, h]

@[simp] theorem execPllUnlock_wf (n : Pll) (s : State) (h : memWf s.mem = true) : Canonical (execPllUnlock n s) := by simp [execPllUnlock, h]

end Sys2Proof.Machine
end

section
/-! PROOF. What the operations of `Machine.Reset` leave of storage: the same storage (`…_mem`), or one in canonical form (`…_wf`). -/
namespace Sys2Proof.Machine
open Reg

@[simp] theorem State.loaded_mem (s : State) : (s.loaded).mem = s.mem := by simp [State.loaded]

@[simp] theorem State.enterRecovery_mem (s : State) : (s.enterRecovery).mem = s.mem := by simp [State.enterRecovery]

@[simp] theorem State.startImage_mem (s : State) (b : Nat) : (s.startImage b).mem = s.mem := by simp [State.startImage]

@[simp] theorem State.fallback_mem (s : State) (b : Nat) : (s.fallback b).mem = s.mem := by simp [State.fallback]

@[simp] theorem State.boot_mem (s : State) : (s.boot).mem = s.mem := by simp [State.boot]

@[simp] theorem State.startLoader_mem (s : State) : (s.startLoader).mem = s.mem := by simp [State.startLoader]

@[simp] theorem State.moduleReset_wf (s : State) (cause : Nat) (h : memWf s.mem = true) : memWf (s.moduleReset cause).mem = true := by
  by_cases hoff : (s.power.ripcord || s.power.off) = true
  · simp [State.moduleReset, hoff, h]
  · obtain ⟨hrip, hoff⟩ : s.power.ripcord = false ∧ s.power.off = false := by simpa using hoff
    rw [(State.moduleReset_reset cause hrip hoff).mem]
    rfl

@[simp] theorem State.reset_mem : State.reset.mem = [] := rfl

@[simp] theorem State.powerOn_mem (s : State) (cause bootMode glAddr : Nat) : (s.powerOn cause bootMode glAddr).mem = [] := by
  simp -implicitDefEqProofs [State.powerOn]

@[simp] theorem execPowerOnReset_wf (straps : Straps) (s : State) (h : memWf s.mem = true) : Canonical (execPowerOnReset straps s) := by
  unfold execPowerOnReset
  split <;> simp [h]

@[simp] theorem execModuleReset_wf (w : RegWrite) (s : State) (h : memWf s.mem = true) : Canonical (execModuleReset w s) := by
  unfold execModuleReset
  rw [canonical_next]
  refine State.regRow_wf _ _ _ _ _ (fun s t ht h => ?_) h
  subst ht
  split <;> simp [h]

@[simp] theorem execWakeN_wf (s : State) (h : memWf s.mem = true) : Canonical (execWakeN s) := by
  unfold execWakeN
  repeat' split
  all_goals simp [h]

@[simp] theorem State.sendNotices_mem (s : State) : s.sendNotices.mem = s.mem := by
  unfold State.sendNotices
  refine foldl_mem _ (fun s n t ht => ?_) _ _
  subst ht
  refine getD_mem fun t ht => ?_
  obtain ⟨u, hu, rfl⟩ := Option.map_eq_some_iff.mp ht
  exact State.sendOwn_mem _ _ _ _ hu

@[simp] theorem execSetReady_wf (w : RegWrite) (s : State) (h : memWf s.mem = true) : Canonical (execSetReady w s) := by
  unfold execSetReady
  dsimp only
  rw [canonical_next]
  refine State.regRow_wf _ _ _ _ _ (fun s t ht h => ?_) h
  subst ht
  repeat' split
  all_goals simp [h]

@[simp] theorem execBootTimeout_wf (s : State) (h : memWf s.mem = true) : Canonical (execBootTimeout s) := by simp -implicitDefEqProofs [execBootTimeout, h]

@[simp] theorem execFwConfirm_wf (w : RegWrite) (s : State) (h : memWf s.mem = true) : Canonical (execFwConfirm w s) := by simp -implicitDefEqProofs [execFwConfirm, h]

@[simp] theorem execTimeSlewDone_wf (s : State) (h : memWf s.mem = true) : Canonical (execTimeSlewDone s) := by simp [execTimeSlewDone, h]

@[simp] theorem State.unitEnds_mem (s : State) (r : Nat) (p : Packet) (kind inst status stopped : Nat) : (s.unitEnds r p kind inst status stopped).mem = s.mem := by simp [State.unitEnds]

@[simp] theorem State.forceUnit_mem (s : State) (u : UnitReset) : (s.forceUnit u).mem = s.mem := by
  unfold State.forceUnit
  split <;> simp

@[simp] theorem State.drainUnit_mem (s : State) (u : UnitReset) : (s.drainUnit u).mem = s.mem := by
  unfold State.drainUnit
  split <;> simp

@[simp] theorem State.channelReset_mem (s : State) (c : Nat) : (s.channelReset c).mem = s.mem := by simp [State.channelReset]

@[simp] theorem State.portReset_mem (s : State) (p : Nat) : (s.portReset p).mem = s.mem := by simp [State.portReset]

@[simp] theorem State.resetUnitNow_mem (s : State) (u : UnitReset) : (s.resetUnitNow u).mem = s.mem := by
  unfold State.resetUnitNow
  repeat' split
  all_goals simp -implicitDefEqProofs

@[simp] theorem State.unitAdvance_mem (s : State) (u : UnitReset) : (s.unitAdvance u).mem = s.mem := by simp [State.unitAdvance]

@[simp] theorem execResetUnit_wf (r : Ring) (s : State) (h : memWf s.mem = true) : Canonical (execResetUnit r s) := by
  unfold execResetUnit
  dsimp only
  repeat' split
  all_goals simp [h]

@[simp] theorem execDrainDone_wf (s : State) (h : memWf s.mem = true) : Canonical (execDrainDone s) := by
  unfold execDrainDone
  split <;> simp [h]

@[simp] theorem execDrainTimeout_wf (s : State) (h : memWf s.mem = true) : Canonical (execDrainTimeout s) := by
  unfold execDrainTimeout
  split <;> simp [h]

@[simp] theorem execUnitResetDone_wf (s : State) (h : memWf s.mem = true) : Canonical (execUnitResetDone s) := by
  unfold execUnitResetDone
  rw [canonical_next]
  split
  · exact h
  extract_lets svus s1 s2 s3 s4
  have h1 : memWf s1.mem = true := foldl_wf _ (fun s i h => by simp [h]) _ _ h
  have h2 : memWf s2.mem = true := by
    simp only [s2]
    split <;> simp [h1]
  have h4 : memWf s4.mem = true := by simp [s4, s3, h2]
  split <;> simp [h4]

@[simp] theorem execPortDrainExpiry_wf (p : Port) (s : State) (h : memWf s.mem = true) : Canonical (execPortDrainExpiry p s) := by
  unfold execPortDrainExpiry
  split <;> simp [h]

@[simp] theorem execThermalTrip_wf (temp : Nat) (s : State) (h : memWf s.mem = true) : Canonical (execThermalTrip temp s) := by simp [execThermalTrip, h]

@[simp] theorem execVinLoss_wf (s : State) (h : memWf s.mem = true) : Canonical (execVinLoss s) := by simp [execVinLoss, h]

end Sys2Proof.Machine
end

section
/-! PROOF. What the operations of `Machine.RingCmds` leave of storage: the same storage (`…_mem`), or one in canonical form (`…_wf`). -/
namespace Sys2Proof.Machine
open Reg

theorem State.command_wf (s : State) (r cmd : Nat) (f : Packet → State) (hf : ∀ p t, f p = t → memWf t.mem = true)
    (h : memWf s.mem = true) : memWf (s.command r cmd f).mem = true := by
  unfold State.command
  split
  · exact h
  · exact hf _ _ rfl

@[simp] theorem State.finish_mem (s : State) (r : Nat) (p : Packet) (status : Nat) : (s.finish r p status).mem = s.mem := by simp [State.finish]

@[simp] theorem State.makeChain_mem (s : State) (r : Nat) (p : Packet) (d : List Nat) (old : Option StopState) : (s.makeChain r p d old).mem = s.mem := by simp [State.makeChain]

@[simp] theorem State.issueChain_mem (s : State) (r : Nat) (p : Packet) (d : List Nat) (old : Option StopState) : (s.issueChain r p d old).mem = s.mem := by
  unfold State.issueChain
  repeat' split
  all_goals simp

@[simp] theorem execChain_wf (r : Ring) (s : State) (h : memWf s.mem = true) : Canonical (execChain r s) := by
  unfold execChain
  rw [canonical_next]
  refine State.command_wf _ _ _ _ (fun p t ht => ?_) h
  subst ht
  simp [h]

@[simp] theorem execChainRef_wf (r : Ring) (s : State) (h : memWf s.mem = true) : Canonical (execChainRef r s) := by
  unfold execChainRef
  rw [canonical_next]
  refine State.command_wf _ _ _ _ (fun p t ht => ?_) h
  subst ht
  simp [h]

@[simp] theorem execChainResume_wf (r : Ring) (s : State) (h : memWf s.mem = true) : Canonical (execChainResume r s) := by
  unfold execChainResume
  rw [canonical_next]
  refine State.command_wf _ _ _ _ (fun p t ht => ?_) h
  subst ht
  repeat' split
  all_goals simp [h]

@[simp] theorem State.endChains_wf (s : State) (r : Nat) (h : memWf s.mem = true) : memWf (s.endChains r).mem = true := by
  unfold State.endChains
  exact foldl_wf _ (fun s a h => by simp [h]) _ _ (by simp [h])

@[simp] theorem State.returnKept_mem (s : State) : (s.returnKept).mem = s.mem := by simp -implicitDefEqProofs [State.returnKept]

@[simp] theorem State.clearFaults_mem (s : State) : (s.clearFaults).mem = s.mem := by simp -implicitDefEqProofs [State.clearFaults]

@[simp] theorem State.lifeReset_wf (s : State) (r : Nat) (h : memWf s.mem = true) : memWf (s.lifeReset r).mem = true := by
  unfold State.lifeReset
  split <;> simp [h]

@[simp] theorem execCompletionPost_wf (r : Ring) (hostOk : Bool) (s : State) (h : memWf s.mem = true) : Canonical (execCompletionPost r hostOk s) := by
  unfold execCompletionPost
  rw [canonical_next]
  refine State.lifeReset_wf _ _ ?_
  rw [State.endRingReset_mem _ _ _ fun s r t ht => ht ▸ State.freeAllOf_mem s r]
  simp [h]

@[simp] theorem State.autoWake_wf (s : State) (h : memWf s.mem = true) : memWf (s.autoWake).mem = true := by
  unfold State.autoWake
  split <;> simp [h]

@[simp] theorem execDispatchDecision_wf (s : State) (h : memWf s.mem = true) : Canonical (execDispatchDecision s) := by simp [execDispatchDecision, h]

@[simp] theorem execNop_wf (r : Ring) (s : State) (h : memWf s.mem = true) : Canonical (execNop r s) := by
  unfold execNop
  rw [canonical_next]
  refine State.command_wf _ _ _ _ (fun p t ht => ?_) h
  subst ht
  simp [h]

@[simp] theorem execFence_wf (r : Ring) (s : State) (h : memWf s.mem = true) : Canonical (execFence r s) := by
  unfold execFence
  rw [canonical_next]
  refine State.command_wf _ _ _ _ (fun p t ht => ?_) h
  subst ht
  simp [h]

@[simp] theorem State.mergeReads_wf (s : State) (w : Walker) (p : Packet) (k : Nat) (h : memWf s.mem = true) :
    memWf (s.mergeReads w p k).1.mem = true := by
  induction k generalizing s p with
  | zero => exact h
  | succ k ih =>
    have hv := fun va len => State.vaRead_wf s w ringRequester va len h
    unfold State.mergeReads
    repeat' split
    · exact h
    · exact h
    · next he => exact ih _ _ (mem_of_pair he ▸ hv _ _)
    · next he => exact mem_of_pair he ▸ hv _ _

@[simp] theorem State.mergeWrites_wf (s : State) (r : Nat) (w : Walker) (p : Packet) (x : Acc) (h : memWf s.mem = true) :
    memWf (s.mergeWrites r w p x).mem = true := by
  unfold State.mergeWrites
  split
  next u k g he =>
  have hu : memWf u.mem = true := mem_of_pair he ▸ foldl_fst_wf _ (fun a o ha => by
    obtain ⟨u, k, g⟩ := a
    have hv := State.vaWrite_wf u { w with acc := .write } ringRequester o.1 o.2 ha
    repeat' split
    · next he _ _ _ hw => cases he; exact mem_of_pair hw ▸ hv
    · next he _ _ _ _ hw => cases he; exact mem_of_pair hw ▸ hv
    · exact ha) _ _ h
  split
  · simpa using hu
  · simpa using hu

@[simp] theorem execAccMerge_wf (r : Ring) (s : State) (h : memWf s.mem = true) : Canonical (execAccMerge r s) := by
  unfold execAccMerge
  rw [canonical_next]
  dsimp only
  split
  · exact h
  · next p _ =>
    have hm := fun w p k => State.mergeReads_wf s w p k h
    split
    · exact State.mergeWrites_wf _ _ _ _ _ h
    · split
      · simp [h]
      · split
        · next he =>
          have hu := mem_of_pair he ▸ hm _ _ _
          split
          · simp [hu]
          · exact State.mergeWrites_wf _ _ _ _ _ hu
        · next he => simp [mem_of_pair he, hm]
        · next he => simp [mem_of_pair he, hm]

@[simp] theorem execProgLaunch_wf (r : Ring) (s : State) (h : memWf s.mem = true) : Canonical (execProgLaunch r s) := by
  unfold execProgLaunch
  rw [canonical_next]
  refine State.command_wf _ _ _ _ (fun p t ht => ?_) h
  subst ht
  simp [h]

@[simp] theorem execProgSignal_wf (r : Ring) (s : State) (h : memWf s.mem = true) : Canonical (execProgSignal r s) := by
  unfold execProgSignal
  rw [canonical_next]
  refine State.command_wf _ _ _ _ (fun p t ht => ?_) h
  subst ht
  simp [h]

@[simp] theorem execCopy_wf (r : Ring) (s : State) (h : memWf s.mem = true) : Canonical (execCopy r s) := by
  unfold execCopy
  rw [canonical_next]
  refine State.command_wf _ _ _ _ (fun p t ht => ?_) h
  subst ht
  simp [h]

@[simp] theorem execFill_wf (r : Ring) (s : State) (h : memWf s.mem = true) : Canonical (execFill r s) := by
  unfold execFill
  rw [canonical_next]
  refine State.command_wf _ _ _ _ (fun p t ht => ?_) h
  subst ht
  simp [h]

@[simp] theorem State.beginInval_mem (s : State) (r : Nat) (p : Packet) : (s.beginInval r p).mem = s.mem := by simp [State.beginInval]

@[simp] theorem execXlatCtxSet_wf (r : Ring) (s : State) (h : memWf s.mem = true) : Canonical (execXlatCtxSet r s) := by
  unfold execXlatCtxSet
  rw [canonical_next]
  refine State.command_wf _ _ _ _ (fun p t ht => ?_) h
  subst ht
  simp [h]

@[simp] theorem execXlatInval_wf (r : Ring) (s : State) (h : memWf s.mem = true) : Canonical (execXlatInval r s) := by
  unfold execXlatInval
  rw [canonical_next]
  refine State.command_wf _ _ _ _ (fun p t ht => ?_) h
  subst ht
  simp [h]

@[simp] theorem execXlatInvalComplete_wf (r : Ring) (s : State) (h : memWf s.mem = true) : Canonical (execXlatInvalComplete r s) := by
  unfold execXlatInvalComplete
  split <;> simp [h]

@[simp] theorem execBufAlloc_wf (r : Ring) (s : State) (h : memWf s.mem = true) : Canonical (execBufAlloc r s) := by
  unfold execBufAlloc
  rw [canonical_next]
  refine State.command_wf _ _ _ _ (fun p t ht => ?_) h
  subst ht
  dsimp only
  split <;> (next he => simp [mem_of_pair he, h])

@[simp] theorem execBufFree_wf (r : Ring) (s : State) (h : memWf s.mem = true) : Canonical (execBufFree r s) := by
  unfold execBufFree
  rw [canonical_next]
  refine State.command_wf _ _ _ _ (fun p t ht => ?_) h
  subst ht
  simp [h]

@[simp] theorem State.setTime_mem (s : State) (t : Nat) : (s.setTime t).mem = s.mem := by simp [State.setTime]

@[simp] theorem State.slewTime_mem (s : State) (ahead : ℤ) : (s.slewTime ahead).mem = s.mem := by simp [State.slewTime]

@[simp] theorem execTimeSet_wf (r : Ring) (s : State) (h : memWf s.mem = true) : Canonical (execTimeSet r s) := by
  unfold execTimeSet
  rw [canonical_next]
  refine State.command_wf _ _ _ _ (fun p t ht => ?_) h
  subst ht
  simp [h]

@[simp] theorem execTimeGet_wf (r : Ring) (s : State) (h : memWf s.mem = true) : Canonical (execTimeGet r s) := by
  unfold execTimeGet
  rw [canonical_next]
  refine State.command_wf _ _ _ _ (fun p t ht => ?_) h
  subst ht
  simp [h]

@[simp] theorem execPowerCap_wf (r : Ring) (s : State) (h : memWf s.mem = true) : Canonical (execPowerCap r s) := by
  unfold execPowerCap
  rw [canonical_next]
  refine State.command_wf _ _ _ _ (fun p t ht => ?_) h
  subst ht
  simp [h]

@[simp] theorem execEnvelopeQuery_wf (r : Ring) (s : State) (h : memWf s.mem = true) : Canonical (execEnvelopeQuery r s) := by
  unfold execEnvelopeQuery
  rw [canonical_next]
  refine State.command_wf _ _ _ _ (fun p t ht => ?_) h
  subst ht
  simp [h]

@[simp] theorem State.setRoute_mem (s : State) (n pri alt : Nat) : (s.setRoute n pri alt).mem = s.mem := by simp [State.setRoute]

@[simp] theorem execFabricRouteSet_wf (r : Ring) (s : State) (h : memWf s.mem = true) : Canonical (execFabricRouteSet r s) := by
  unfold execFabricRouteSet
  rw [canonical_next]
  refine State.command_wf _ _ _ _ (fun p t ht => ?_) h
  subst ht
  simp [h]

@[simp] theorem execPartition_wf (r : Ring) (s : State) (h : memWf s.mem = true) : Canonical (execPartition r s) := by
  unfold execPartition
  rw [canonical_next]
  refine State.command_wf _ _ _ _ (fun p t ht => ?_) h
  subst ht
  simp [h]

@[simp] theorem State.logCopy_wf (s : State) (r : Nat) (host : Bool) (dst size : Nat) (recs : List (List Byte)) (k : Nat) (h : memWf s.mem = true) :
    memWf (s.logCopy r host dst size recs k).1.mem = true := by
  unfold State.logCopy
  refine foldl_fst_wf _ (fun a bs ha => ?_) _ _ h
  obtain ⟨u, k, g⟩ := a
  have hv := fun d => State.bmWrite_wf u (agentRing r) ringRequester d bs false ha
  repeat' split
  · next he _ _ => cases he; exact ha
  · next he _ _ => cases he; exact ha
  · next he _ _ _ _ hw => cases he; exact mem_of_pair hw ▸ hv _
  · next he _ _ _ _ _ hw => cases he; exact mem_of_pair hw ▸ hv _
  · exact ha

@[simp] theorem execLogRead_wf (r : Ring) (s : State) (h : memWf s.mem = true) : Canonical (execLogRead r s) := by
  unfold execLogRead
  rw [canonical_next]
  split
  · exact h
  · next p _ =>
    extract_lets audit count size u q recs
    refine wf_ite (by simp [h]) ?_
    · have hu : memWf u.mem = true := by simp [u, h]
      have hc := fun a b c d e => State.logCopy_wf u r.val a b c d e hu
      split
      · next he => simp [mem_of_pair he, hc]
      · next he => simp [mem_of_pair he, hc]

@[simp] theorem State.acknowledge_mem (s : State) (src seq : Nat) (fw : Bool) : (s.acknowledge src seq fw).1.mem = s.mem := by
  unfold State.acknowledge
  split <;> simp

@[simp] theorem execFaultAck_wf (r : Ring) (s : State) (h : memWf s.mem = true) : Canonical (execFaultAck r s) := by
  unfold execFaultAck
  rw [canonical_next]
  refine State.command_wf _ _ _ _ (fun p t ht => ?_) h
  subst ht
  simp [h]

end Sys2Proof.Machine
end

section
/-! PROOF. What the operations of `Machine.Roles` leave of storage: the same storage (`…_mem`), or one in canonical form (`…_wf`). -/
namespace Sys2Proof.Machine
open Reg

@[simp] theorem State.authFail_mem (s : State) (path role sid status : Nat) : (s.authFail path role sid status).mem = s.mem := by simp [State.authFail]

@[simp] theorem State.newChallenge_mem (s : State) (role : Nat) : (s.newChallenge role).1.mem = s.mem := by simp [State.newChallenge]

@[simp] theorem State.setChallenge_mem (s : State) (path role sid block : Nat) : (s.setChallenge path role sid block).mem = s.mem := by simp [State.setChallenge]

@[simp] theorem State.openSession_mem (s : State) (path role sid : Nat) : (s.openSession path role sid).mem = s.mem := by
  unfold State.openSession
  repeat' split
  all_goals grind [State.audit_mem, State.setReg_mem]

@[simp] theorem State.failResponse_mem (s : State) (path role sid : Nat) : (s.failResponse path role sid).mem = s.mem := by simp [State.failResponse]

@[simp] theorem State.answerChallenge_mem (s : State) (path role : Nat) (sig : List Byte) : (s.answerChallenge path role sig).1.mem = s.mem := by
  unfold State.answerChallenge
  split <;> simp

@[simp] theorem State.closeSession_mem (s : State) (path role : Nat) : (s.closeSession path role).mem = s.mem := by simp [State.closeSession]

@[simp] theorem State.ringChallenge_wf (s : State) (r : Nat) (p : Packet) (role : Nat) (h : memWf s.mem = true) :
    memWf (s.ringChallenge r p role).mem = true := by
  unfold State.ringChallenge
  split
  next u sid block he =>
  have hu : memWf u.mem = true := by
    split at he
    · cases he; exact h
    · rw [← State.newChallenge_mem s role] at h; rwa [he] at h
  dsimp only
  have hw := fun d b => State.bmWrite_wf u (agentRing r) ringRequester d b false hu
  repeat' split
  · exact hu
  · simp [hu]
  · next hb => simp [mem_of_pair hb, hw]
  · next hb => exact (mem_of_pair hb) ▸ hw _ _
  · next hb => simp [mem_of_pair hb, hw]

@[simp] theorem State.ringResponse_wf (s : State) (r : Nat) (p : Packet) (role : Nat) (host : HostData) (h : memWf s.mem = true) :
    memWf (s.ringResponse r p role host).mem = true := by
  have hw := fun d n => State.bmRead_wf s (agentRing r) ringRequester d n h
  unfold State.ringResponse
  dsimp only
  repeat' split
  · exact h
  · simp [h]
  · simp [h]
  · exact h
  · next hb => simp [mem_of_pair hb, hw]
  · next hb => simp [mem_of_pair hb, hw]
  · next hb => simp [mem_of_pair hb, hw]

@[simp] theorem execRoleAuth_wf (r : Ring) (host : HostData) (s : State) (h : memWf s.mem = true) : Canonical (execRoleAuth r host s) := by
  unfold execRoleAuth
  rw [canonical_next]
  dsimp only
  split
  · exact h
  · next p _ =>
    generalize (if p.held = true then none else s.authRefused r.val (bitsOf (p.w 0) 13 12) (bitsOf (p.w 0) 15 14) (bitsOf (p.w 3) 15 0) : Option Nat) = o
    cases o with
    | some st => simp [h]
    | none =>
      dsimp only
      repeat' split
      all_goals simp [h]

@[simp] theorem execChallengeExpiry_wf (s : State) (h : memWf s.mem = true) : Canonical (execChallengeExpiry s) := by
  unfold execChallengeExpiry
  split <;> simp [h]

@[simp] theorem execPathUnlock_wf (path : Nat) (s : State) (h : memWf s.mem = true) : Canonical (execPathUnlock path s) := by
  unfold execPathUnlock
  split <;> simp [h]

@[simp] theorem execSessionIdleExpiry_wf (i : Nat) (s : State) (h : memWf s.mem = true) : Canonical (execSessionIdleExpiry i s) := by simp [execSessionIdleExpiry, h]

@[simp] theorem State.lifeEffects_mem (s : State) (new : Nat) : (s.lifeEffects new).mem = s.mem := by simp [State.lifeEffects]

@[simp] theorem State.burn_mem (s : State) (new : Nat) : (s.burn new).mem = s.mem := by simp [State.burn]

@[simp] theorem execLifecycle_wf (r : Ring) (s : State) (h : memWf s.mem = true) : Canonical (execLifecycle r s) := by
  unfold execLifecycle
  rw [canonical_next]
  refine State.command_wf _ _ _ _ (fun p t ht => ?_) h
  subst ht
  dsimp only
  repeat' split
  all_goals simp [h]

@[simp] theorem State.stageEnds_mem (s : State) (r : Nat) (p : Packet) (status reply : Nat) : (s.stageEnds r p status reply).mem = s.mem := by simp [State.stageEnds]

theorem State.stage_wf (s : State) (r : Nat) (p : Packet) (inOrder : Bool) (digest : Nat) (f : State → State × Nat × Nat)
    (hf : ∀ u, f s = u → memWf u.1.mem = true) (h : memWf s.mem = true) : memWf (s.stage r p inOrder digest f).mem = true := by
  unfold State.stage
  extract_lets o sid st
  split
  · rw [State.stageEnds_mem]; exact h
  · split
    next u a b he =>
    have hu : memWf u.mem = true := by
      split at he
      · exact wf_of_pair he (hf _ rfl)
      · exact wf_of_pair he h
    rw [State.stageEnds_mem, State.audit_mem]
    exact hu

@[simp] theorem execFwUpdateOpen_wf (r : Ring) (s : State) (h : memWf s.mem = true) : Canonical (execFwUpdateOpen r s) := by
  unfold execFwUpdateOpen
  rw [canonical_next]
  refine State.command_wf _ _ _ _ (fun p t ht => ?_) h
  subst ht
  refine State.stage_wf _ _ _ _ _ _ (fun u hu => ?_) h
  subst hu
  simp [h]

@[simp] theorem execFwUpdateWrite_wf (r : Ring) (s : State) (h : memWf s.mem = true) : Canonical (execFwUpdateWrite r s) := by
  unfold execFwUpdateWrite
  rw [canonical_next]
  split
  · split
    · exact h
    · dsimp only
      simp [State.stageEnds, h]
  · refine State.command_wf _ _ _ _ (fun p t ht => ?_) h
    subst ht
    dsimp only
    refine wf_ite (wf_ite (by simp [h]) h) (State.stage_wf _ _ _ _ _ _ (fun u hu => ?_) h)
    subst hu
    exact h

@[simp] theorem execFwUpdateCheck_wf (r : Ring) (s : State) (h : memWf s.mem = true) : Canonical (execFwUpdateCheck r s) := by
  unfold execFwUpdateCheck
  rw [canonical_next]
  refine State.command_wf _ _ _ _ (fun p t ht => ?_) h
  subst ht
  refine State.stage_wf _ _ _ _ _ _ (fun u hu => ?_) h
  subst hu
  split <;> simp [h]

@[simp] theorem execFwUpdateActivate_wf (r : Ring) (s : State) (h : memWf s.mem = true) : Canonical (execFwUpdateActivate r s) := by
  unfold execFwUpdateActivate
  rw [canonical_next]
  refine State.command_wf _ _ _ _ (fun p t ht => ?_) h
  subst ht
  refine State.stage_wf _ _ _ _ _ _ (fun u hu => ?_) h
  subst hu
  simp [h]

end Sys2Proof.Machine
end

section
/-! PROOF. What the operations of `Machine.HostIf` leave of storage: the same storage (`…_mem`), or one in canonical form (`…_wf`). -/
namespace Sys2Proof.Machine
open Reg

@[simp] theorem execHostLinkTraining_wf (width speed : Nat) (cxl : Bool) (s : State) (h : memWf s.mem = true) : Canonical (execHostLinkTraining width speed cxl s) := by simp [execHostLinkTraining, h]

@[simp] theorem State.sendPending_mem (s : State) : (s.sendPending).mem = s.mem := by simp -implicitDefEqProofs [State.sendPending]

@[simp] theorem execMsixUnmask_wf (vec : Nat) (w : RegWrite) (s : State) (h : memWf s.mem = true) : Canonical (execMsixUnmask vec w s) := by simp [execMsixUnmask, h]

@[simp] theorem State.cfgRead_mem (s : State) (off : Nat) : (s.cfgRead off).2.mem = s.mem := by
  unfold State.cfgRead
  split <;> simp

@[simp] theorem State.cfgWrite_mem (s : State) (off mask v : Nat) : (s.cfgWrite off mask v).mem = s.mem := by simp [State.cfgWrite]

@[simp] theorem execConfigurationRequest_wf (write : Option Word) (off width : Nat) (s : State) (h : memWf s.mem = true) : Canonical (execConfigurationRequest write off width s) := by
  unfold execConfigurationRequest
  repeat' split
  all_goals simp [h]

@[simp] theorem execConfigurationReady_wf (s : State) (h : memWf s.mem = true) : Canonical (execConfigurationReady s) := by simp [execConfigurationReady, h]

@[simp] theorem execAtomicOp_wf (op : AtomicKind) (off size a b : Nat) (s : State) (h : memWf s.mem = true) :
    Canonical (execAtomicOp op off size a b s) := by
  unfold execAtomicOp
  rw [canonical_next]
  refine wf_ite h (wf_ite (by simp [h]) ?_)
  split
  · simp [h]
  · refine wf_ite (by simp [h]) ?_
    have ha := fun code => State.localAtom_wf s byHost off code a b h
    split <;> next he => simp [mem_of_pair he, ha]

@[simp] theorem State.track_mem (s : State) (line : Nat) (exclusive : Bool) : (s.track line exclusive).mem = s.mem := by simp [State.track]

@[simp] theorem State.untrack_mem (s : State) (line : Nat) : (s.untrack line).mem = s.mem := by simp [State.untrack]

@[simp] theorem State.cxlUnmapped_mem (s : State) (read : Bool) : (s.cxlUnmapped read).mem = s.mem := by simp [State.cxlUnmapped]

@[simp] theorem State.cxlRead_wf (s : State) (line : Nat) (exclusive : Bool) (h : memWf s.mem = true) : memWf (s.cxlRead line exclusive).mem = true := by
  unfold State.cxlRead
  split <;> (next he => simp [mem_of_pair he, h])

@[simp] theorem execCxlMemRequest_wf (write : Option LineData) (ga : Nat) (exclusive : Bool) (s : State) (h : memWf s.mem = true) :
    Canonical (execCxlMemRequest write ga exclusive s) := by
  unfold execCxlMemRequest
  extract_lets off line held
  rw [canonical_next]
  refine wf_ite h (wf_ite (by simp [h]) (wf_ite h ?_))
  split
  · have hw := fun ws => State.localWrite_wf s byCxl off 64 ws h
    split <;> next he => simp [mem_of_pair he, hw]
  · split
    · exact wf_ite (by simp [h]) (by simp [h])
    · simp [h]

@[simp] theorem execHdmDecoderCommit_wf (base size ways : Nat) (s : State) (h : memWf s.mem = true) : Canonical (execHdmDecoderCommit base size ways s) := by simp [execHdmDecoderCommit, h]

@[simp] theorem execBackInvalidate_wf (line : Nat) (data : Option LineData) (s : State) (h : memWf s.mem = true) :
    Canonical (execBackInvalidate line data s) := by
  unfold execBackInvalidate
  rw [canonical_next]
  refine wf_ite h ?_
  split
  · simp [h]
  · have hw := fun ws => State.localWrite_wf s byCxl (64 * line) 64 ws h
    split <;> next he => simp [mem_of_pair he, hw]

@[simp] theorem execCxlCacheSnoop_wf (s : State) (h : memWf s.mem = true) : Canonical (execCxlCacheSnoop s) := by simp [execCxlCacheSnoop, h]

@[simp] theorem State.hostReadFails_mem (s : State) (c base status : Nat) : (s.hostReadFails c base status).mem = s.mem := by simp [State.hostReadFails]

@[simp] theorem State.hostReadData_mem (s : State) (c base : Nat) (data : List Byte) (last : Bool) : (s.hostReadData c base data last).mem = s.mem := by simp [State.hostReadData]

@[simp] theorem execHostCompletion_wf (tag status : Nat) (data : List Byte) (s : State) (h : memWf s.mem = true) : Canonical (execHostCompletion tag status data s) := by
  unfold execHostCompletion
  repeat' split
  all_goals simp [h]

@[simp] theorem execHostCompletionTimeout_wf (tag : Nat) (s : State) (h : memWf s.mem = true) : Canonical (execHostCompletionTimeout tag s) := by
  unfold execHostCompletionTimeout
  split <;> simp [h]

@[simp] theorem execFlr_wf (s : State) (h : memWf s.mem = true) : Canonical (execFlr s) := by
  unfold execFlr
  split <;> simp [h]

@[simp] theorem execHotReset_wf (s : State) (h : memWf s.mem = true) : Canonical (execHotReset s) := by
  unfold execHotReset
  split <;> simp [h]

@[simp] theorem State.hostLost_wf (s : State) (last : Nat) (h : memWf s.mem = true) : memWf (s.hostLost last).mem = true := by simp [State.hostLost, h]

@[simp] theorem execHostLinkDown_wf (s : State) (h : memWf s.mem = true) : Canonical (execHostLinkDown s) := by
  unfold execHostLinkDown
  split <;> simp [h]

@[simp] theorem execPerstNAssert_wf (s : State) (h : memWf s.mem = true) : Canonical (execPerstNAssert s) := by
  unfold execPerstNAssert
  repeat' split
  all_goals simp [h]

@[simp] theorem execPerstNRelease_wf (s : State) (h : memWf s.mem = true) : Canonical (execPerstNRelease s) := by simp [execPerstNRelease, h]

@[simp] theorem execD3hot_wf (enter : Bool) (s : State) (h : memWf s.mem = true) : Canonical (execD3hot enter s) := by simp [execD3hot, h]

@[simp] theorem execHostLinkError_wf (uncorrectable : Bool) (s : State) (h : memWf s.mem = true) : Canonical (execHostLinkError uncorrectable s) := by simp [execHostLinkError, h]

end Sys2Proof.Machine
end

section
/-! PROOF. What the operations of `Machine.Fabric` leave of storage: the same storage (`…_mem`), or one in canonical form (`…_wf`). -/
namespace Sys2Proof.Machine
open Reg

@[simp] theorem State.jpCfgWrite_mem (s : State) (p : Nat) (w : RegWrite) : (s.jpCfgWrite p w).mem = s.mem := by simp [State.jpCfgWrite]

@[simp] theorem execPortEnable_wf (p : Port) (w : RegWrite) (s : State) (h : memWf s.mem = true) : Canonical (execPortEnable p w s) := by simp [execPortEnable, h]

@[simp] theorem execPortDisable_wf (p : Port) (w : RegWrite) (s : State) (h : memWf s.mem = true) : Canonical (execPortDisable p w s) := by simp [execPortDisable, h]

@[simp] theorem State.portEntersUp_mem (s : State) (p lanes : Nat) : (s.portEntersUp p lanes).mem = s.mem := by simp -implicitDefEqProofs [State.portEntersUp]

@[simp] theorem State.dropReplay_mem (s : State) (p : Nat) : (s.dropReplay p).mem = s.mem := by simp [State.dropReplay]

@[simp] theorem execTrainRecord_wf (p : Port) (rec : TrainRec) (s : State) (h : memWf s.mem = true) : Canonical (execTrainRecord p rec s) := by simp [execTrainRecord, h]

@[simp] theorem execTrainingRetry_wf (p : Port) (s : State) (h : memWf s.mem = true) : Canonical (execTrainingRetry p s) := by simp -implicitDefEqProofs [execTrainingRetry, h]

@[simp] theorem execCalPause_wf (p : Port) (s : State) (h : memWf s.mem = true) : Canonical (execCalPause p s) := by simp [execCalPause, h]

@[simp] theorem State.portRetrains_mem (s : State) (p : Nat) : (s.portRetrains p).mem = s.mem := by simp [State.portRetrains]

@[simp] theorem execLaneLockLoss_wf (p : Port) (lanes : Nat) (s : State) (h : memWf s.mem = true) : Canonical (execLaneLockLoss p lanes s) := by simp [execLaneLockLoss, h]

@[simp] theorem execRetrainTimeout_wf (p : Port) (s : State) (h : memWf s.mem = true) : Canonical (execRetrainTimeout p s) := by simp [execRetrainTimeout, h]

@[simp] theorem execDownRetry_wf (p : Port) (s : State) (h : memWf s.mem = true) : Canonical (execDownRetry p s) := by simp -implicitDefEqProofs [execDownRetry, h]

@[simp] theorem State.nak_mem (s : State) (p ack : Nat) : (s.nak p ack).mem = s.mem := by simp -implicitDefEqProofs [State.nak]

@[simp] theorem execNak_wf (p : Port) (seq : Nat) (s : State) (h : memWf s.mem = true) : Canonical (execNak p seq s) := by simp [execNak, h]

@[simp] theorem State.linkReset_mem (s : State) (p : Nat) : (s.linkReset p).mem = s.mem := by simp [State.linkReset]

@[simp] theorem execReset_wf (p : Port) (s : State) (h : memWf s.mem = true) : Canonical (execReset p s) := by simp [execReset, h]

@[simp] theorem State.rxBody_mem (s : State) (p v : Nat) (body : List Byte) : (s.rxBody p v body).mem = s.mem := by simp [State.rxBody]

@[simp] theorem State.flitBad_mem (s : State) (p : Nat) : (s.flitBad p).mem = s.mem := by simp [State.flitBad]

@[simp] theorem State.flitCredits_mem (s : State) (p ack cvc n : Nat) : (s.flitCredits p ack cvc n).mem = s.mem := by simp [State.flitCredits]

@[simp] theorem State.rxFlit_mem (s : State) (p : Nat) (bytes : List Byte) : (s.rxFlit p bytes).mem = s.mem := by simp [State.rxFlit]

@[simp] theorem execFlitReceive_wf (p : Port) (bytes : List Byte) (s : State) (h : memWf s.mem = true) : Canonical (execFlitReceive p bytes s) := by simp [execFlitReceive, h]

end Sys2Proof.Machine
end

section
/-! PROOF. What the operations of `Machine.FabricMsg` leave of storage: the same storage (`…_mem`), or one in canonical form (`…_wf`). -/
namespace Sys2Proof.Machine
open Reg

@[simp] theorem State.leaves_mem (s : State) (p i : Nat) : (s.leaves p i).mem = s.mem := by simp [State.leaves]

theorem State.consume_wf (s : State) (p typ : Nat) (f : State → FMsg → State)
    (hf : ∀ u m t, f u m = t → memWf u.mem = true → memWf t.mem = true) (h : memWf s.mem = true) : memWf (s.consume p typ f).mem = true := by
  unfold State.consume
  split
  · exact h
  · exact hf _ _ _ rfl (by simp [h])

@[simp] theorem State.answer_mem (s : State) (m : FMsg) (typ status : Nat) : (s.answer m typ status).mem = s.mem := by simp [State.answer]

theorem State.peerRequest_wf (s : State) (p typ resp : Nat) (len : FMsg → Nat) (op : FMsg → Nat → Nat → MemOp) (ok : FMsg → Bool)
    (h : memWf s.mem = true) : memWf (s.peerRequest p typ resp len op ok).mem = true := by
  unfold State.peerRequest
  refine State.consume_wf _ _ _ _ (fun u m t ht hu => ?_) h
  subst ht
  refine wf_ite (by simp [hu]) (wf_ite (by simp [hu]) ?_)
  split
  · next hb =>
    rw [State.answer_mem]
    exact (State.block_mem _ _ _ _ _ hb).symm ▸ hu
  · simp [hu]

@[simp] theorem execRdReq_wf (p : Port) (s : State) (h : memWf s.mem = true) : Canonical (execRdReq p s) := by
  unfold execRdReq
  rw [canonical_next]
  exact State.peerRequest_wf _ _ _ _ _ _ _ h

@[simp] theorem execWrReq_wf (p : Port) (s : State) (h : memWf s.mem = true) : Canonical (execWrReq p s) := by
  unfold execWrReq
  rw [canonical_next]
  exact State.peerRequest_wf _ _ _ _ _ _ _ h

@[simp] theorem execAtomReq_wf (p : Port) (s : State) (h : memWf s.mem = true) : Canonical (execAtomReq p s) := by
  unfold execAtomReq
  rw [canonical_next]
  exact State.peerRequest_wf _ _ _ _ _ _ _ h

theorem State.response_wf (s : State) (p typ req : Nat) (good : FReq → FMsg → Reply) (h : memWf s.mem = true) :
    memWf (s.response p typ req good).mem = true := by
  unfold State.response
  refine State.consume_wf _ _ _ _ (fun u m t ht hu => ?_) h
  subst ht
  split
  · exact hu
  · refine wf_ite hu ?_
    rw [State.releaseRoutes_mem, State.endReq_mem]
    exact hu

@[simp] theorem execRdResp_wf (p : Port) (s : State) (h : memWf s.mem = true) : Canonical (execRdResp p s) := by
  unfold execRdResp
  rw [canonical_next]
  exact State.response_wf _ _ _ _ _ h

@[simp] theorem execWrAck_wf (p : Port) (s : State) (h : memWf s.mem = true) : Canonical (execWrAck p s) := by
  unfold execWrAck
  rw [canonical_next]
  exact State.response_wf _ _ _ _ _ h

@[simp] theorem execAtomResp_wf (p : Port) (s : State) (h : memWf s.mem = true) : Canonical (execAtomResp p s) := by
  unfold execAtomResp
  rw [canonical_next]
  exact State.response_wf _ _ _ _ _ h

@[simp] theorem execMsgAck_wf (p : Port) (s : State) (h : memWf s.mem = true) : Canonical (execMsgAck p s) := by
  unfold execMsgAck
  rw [canonical_next]
  exact State.response_wf _ _ _ _ _ h

@[simp] theorem execResponseTimeout_wf (s : State) (h : memWf s.mem = true) : Canonical (execResponseTimeout s) := by
  unfold execResponseTimeout
  split <;> simp [h]

@[simp] theorem State.rxWrite_wf (s : State) (off : Nat) (bs : List Byte) (poison : Bool) (h : memWf s.mem = true) : memWf (s.rxWrite off bs poison).1.mem = true := by
  unfold State.rxWrite
  split <;> (next he => simp [mem_of_pair he, h])

@[simp] theorem State.rxReturn_mem (s : State) (token : Nat) : (s.rxReturn token).mem = s.mem := by simp [State.rxReturn]

@[simp] theorem State.rxTake_mem (s : State) (q : Nat) : (s.rxTake q).1.mem = s.mem := by simp [State.rxTake]

@[simp] theorem State.rxPost_wf (s : State) (q kind src len token : Nat) (h : memWf s.mem = true) :
    memWf (s.rxPost q kind src len token).1.mem = true := by
  unfold State.rxPost
  split
  · exact h
  · extract_lets n size a phase w0
    have hw := State.rxWrite_wf s (a + 8) (leBytes 8 s.dev) false h
    generalize s.rxWrite (a + 8) (leBytes 8 s.dev) false = x at hw
    split
    · next u =>
      have hu := State.rxWrite_wf u a (leBytes 8 w0) false hw
      generalize u.rxWrite a (leBytes 8 w0) false = y at hu
      split
      · simp only [State.mem_ite, State.msix_mem, State.raiseLine_mem, ite_self]
        exact hu
      · exact hu
    · exact hw

@[simp] theorem State.setRxMsg_mem (s : State) (m : FMsg) (x : Option RxMsg) : (s.setRxMsg m x).mem = s.mem := by simp [State.setRxMsg]

@[simp] theorem State.rxFail_mem (s : State) (m : FMsg) (token : Option Nat) (status : Nat) : (s.rxFail m token status).1.mem = s.mem := by
  unfold State.rxFail
  split <;> simp

@[simp] theorem State.rxData_wf (s : State) (m : FMsg) (x : RxMsg) (h : memWf s.mem = true) : memWf (s.rxData m x).1.mem = true := by
  unfold State.rxData
  have hw := fun off bs p => State.rxWrite_wf s off bs p h
  have hp := State.rxPost_wf
  have hfail := fun s t st => State.rxFail_mem s m t st
  obtain ⟨write, hwrite⟩ : ∃ f, f = State.rxWrite := ⟨_, rfl⟩
  obtain ⟨post, hpost⟩ : ∃ f, f = State.rxPost := ⟨_, rfl⟩
  rw [← hwrite] at hw ⊢
  rw [← hpost] at hp ⊢
  split
  refine (congrArg memWf (congrArg State.mem (apply_ite Prod.fst _ _ _))).trans (wf_ite ?_ ?_)
  · rwa [hfail]
  · split
    · next u hu =>
      have hu := wf_of_pair hu (hw _ _ _)
      split
      · rw [State.setRxMsg_mem]; exact hu
      · split
        · rwa [hfail]
        · dsimp only
          split
          · next he =>
            rw [State.setRxMsg_mem]
            exact wf_of_pair he (hp _ _ _ _ _ _ hu)
          · next he =>
            rw [hfail]
            exact wf_of_pair he (hp _ _ _ _ _ _ hu)
    · next he =>
      rw [hfail]
      exact wf_of_pair he (hw _ _ _)

@[simp] theorem State.rxPiece_wf (s : State) (m : FMsg) (h : memWf s.mem = true) : memWf (s.rxPiece m).1.mem = true := by
  unfold State.rxPiece
  have ht := State.rxTake_mem s
  obtain ⟨take, htake⟩ : ∃ f, f = State.rxTake := ⟨_, rfl⟩
  rw [← htake] at ht ⊢
  split
  · split
    · exact wf_ite h h
    · exact State.rxData_wf _ _ _ h
  · split
    · rwa [State.rxFail_mem]
    · split
      · rwa [State.rxFail_mem]
      · next q _ =>
        rw [← ht q] at h
        split
        · next he =>
          rw [State.rxFail_mem]
          exact wf_of_pair he h
        · next he => exact State.rxData_wf _ _ _ (wf_of_pair he h)

@[simp] theorem State.snoopedBy_mem (s t : State) : (s.snoopedBy t).mem = s.mem := by simp [State.snoopedBy]

@[simp] theorem execMsg_wf (p : Port) (s : State) (h : memWf s.mem = true) : Canonical (execMsg p s) := by
  unfold execMsg
  rw [canonical_next]
  split
  · exact h
  · next i m _ =>
    have hp := State.rxPiece_wf s m h
    generalize s.rxPiece m = y at hp
    split
    · refine wf_ite (by simp [h]) ?_
      rw [State.answer_mem, State.leaves_mem]
      exact hp
    · rw [State.leaves_mem]
      exact hp

@[simp] theorem State.correctTime_mem (s : State) (o : ℤ) : (s.correctTime o).mem = s.mem := by simp [State.correctTime]

@[simp] theorem execTime_wf (p : Port) (s : State) (h : memWf s.mem = true) : Canonical (execTime p s) := by
  unfold execTime
  rw [canonical_next]
  refine State.consume_wf _ _ _ _ (fun u m t ht hu => ?_) h
  subst ht
  refine wf_ite hu ?_
  dsimp only
  refine wf_ite hu (wf_ite ?_ ?_)
  · simp [hu]
  · simp [hu]

@[simp] theorem execTimeSend_wf (p : Port) (s : State) (h : memWf s.mem = true) : Canonical (execTimeSend p s) := by simp [execTimeSend, h]

@[simp] theorem execResetNotice_wf (p : Port) (s : State) (h : memWf s.mem = true) : Canonical (execResetNotice p s) := by
  unfold execResetNotice
  rw [canonical_next]
  refine State.consume_wf _ _ _ _ (fun u m t ht hu => ?_) h
  subst ht
  extract_lets boot changed near a b
  have ha : memWf a.mem = true := hu
  have hb : memWf b.mem = true := by
    refine foldl_wf _ (fun v q hv => ?_) _ _ ha
    rw [State.setPort_mem]
    exact hv
  exact wf_ite (foldl_wf _ (fun v q hv => by rw [State.dropReplay_mem]; exact hv) _ _ (by rw [State.peerReset_mem]; exact hb)) hb

@[simp] theorem State.discard_mem (s : State) (m : FMsg) : (s.discard m).mem = s.mem := by
  unfold State.discard
  split <;> simp

@[simp] theorem State.forward_mem (s : State) (p : Nat) (m : FMsg) : (s.forward p m).mem = s.mem := by
  unfold State.forward
  repeat' split
  all_goals simp

@[simp] theorem execMessageForward_wf (p : Port) (s : State) (h : memWf s.mem = true) : Canonical (execMessageForward p s) := by
  unfold execMessageForward
  split <;> simp [h]

@[simp] theorem execJfabRouteWrite_wf (n : Node) (alt : Bool) (w : RegWrite) (s : State) (h : memWf s.mem = true) : Canonical (execJfabRouteWrite n alt w s) := by simp [execJfabRouteWrite, h]

@[simp] theorem State.stamp_mem (s : State) (p : Nat) (tx : Bool) (f : List Byte) : (s.stamp p tx f).mem = s.mem := by simp [State.stamp]

@[simp] theorem State.txEnds_mem (s : State) (status : Nat) : (s.txEnds status).mem = s.mem := by simp [State.txEnds]

@[simp] theorem State.txRead_wf (s : State) (off len : Nat) (h : memWf s.mem = true) : memWf (s.txRead off len).1.mem = true := by
  unfold State.txRead
  split <;> (next he => simp [mem_of_pair he, h])

@[simp] theorem State.txPieces_wf (s : State) (m : FMsg) (base len : Nat) (h : memWf s.mem = true) :
    memWf (s.txPieces m base len).1.mem = true := by
  unfold State.txPieces
  refine foldl_fst_wf _ (fun a k ha => ?_) _ _ h
  split
  · exact ha
  · next u ms =>
    extract_lets n
    have hr := State.txRead_wf u (base + 256 * k) n ha
    generalize u.txRead (base + 256 * k) n = y at hr
    split
    · exact hr
    · exact hr

@[simp] theorem State.txMsg_wf (s : State) (ms : List FMsg) (h : memWf s.mem = true) : memWf (s.txMsg ms).1.mem = true := by
  unfold State.txMsg
  split
  · exact h
  · split
    · split
      next u st he =>
      rw [State.txEnds_mem]
      refine wf_of_pair he (foldl_fst_wf _ (fun a m ha => ?_) _ _ h)
      exact State.rxPiece_wf _ _ ha
    · split
      · exact h
      · next hp =>
        have hu := (State.post_mem _ _ _ _ hp).symm ▸ h
        extract_lets tag
        refine foldl_wf _ (fun v q hv => ?_) _ _ hu
        extract_lets m'
        refine wf_ite hv (wf_ite hv ?_)
        rw [State.launch_mem]
        exact hv

@[simp] theorem State.txFrame_mem (s : State) (p : Nat) (f : List Byte) : (s.txFrame p f).mem = s.mem := by simp [State.txFrame]

@[simp] theorem State.txStops_mem (s : State) (st : Nat) : (s.txStops st).1.mem = s.mem := by simp [State.txStops]

@[simp] theorem State.txStart_wf (s : State) (token len : Nat) (h : memWf s.mem = true) : memWf (s.txStart token len).1.mem = true := by
  unfold State.txStart
  split
  next base size _ =>
  extract_lets eth p m
  split
  · simp [h]
  · split
    · split
      · simp [h]
      · have hr := State.txRead_wf s base len h
        generalize s.txRead base len = y at hr
        split
        · simpa using hr
        · simpa using hr
        · simpa using hr
    · have hr := State.txPieces_wf s m base len h
      generalize s.txPieces m base len = y at hr
      split
      · simpa using hr
      · exact State.txMsg_wf _ _ hr

@[simp] theorem execTxGo_wf (w : RegWrite) (s : State) (h : memWf s.mem = true) : Canonical (execTxGo w s) := by
  unfold execTxGo
  rw [canonical_next]
  refine State.regRow_wf _ _ _ _ _ (fun s t ht h => ?_) h
  subst ht
  refine wf_ite h (wf_ite (by simp [h]) ?_)
  extract_lets token len
  have ht := State.txStart_wf (s.wr JFAB_TX_STAT_BUSY 1) token len (by simp [h])
  generalize (s.wr JFAB_TX_STAT_BUSY 1).txStart token len = y at ht
  split
  · rw [State.wr_mem]; exact ht
  · rw [State.rbufClear_mem]; exact ht

@[simp] theorem execEthernetSendDone_wf (s : State) (h : memWf s.mem = true) : Canonical (execEthernetSendDone s) := by simp [execEthernetSendDone, h]

@[simp] theorem State.ethMark_mem (s : State) (p : Nat) : (s.ethMark p).mem = s.mem := by simp [State.ethMark]

@[simp] theorem State.dropFrame_mem (s : State) (p : Nat) : (s.dropFrame p).mem = s.mem := by simp [State.dropFrame]

@[simp] theorem State.rxFrame_wf (s : State) (p : Nat) (f : List Byte) (h : memWf s.mem = true) : memWf (s.rxFrame p f).1.mem = true := by
  unfold State.rxFrame
  extract_lets q
  have ht := State.rxTake_mem s
  have hw := State.rxWrite_wf
  have hp := State.rxPost_wf
  obtain ⟨take, htake⟩ : ∃ f, f = State.rxTake := ⟨_, rfl⟩
  obtain ⟨write, hwrite⟩ : ∃ f, f = State.rxWrite := ⟨_, rfl⟩
  obtain ⟨post, hpost⟩ : ∃ f, f = State.rxPost := ⟨_, rfl⟩
  rw [← htake] at ht ⊢
  rw [← hwrite] at hw ⊢
  rw [← hpost] at hp ⊢
  rw [← ht q] at h
  split
  · rw [State.dropFrame_mem, ← ht q]; exact h
  · split
    · next he => rw [State.dropFrame_mem]; exact wf_of_pair he h
    · next u token he =>
      have hu : memWf u.mem = true := wf_of_pair he h
      split
      next base size _ =>
      split
      · rw [State.dropFrame_mem, State.rxReturn_mem]; exact hu
      · have hv := hw u base f false hu
        split
        · next v hv' =>
          have hv := wf_of_pair hv' hv
          have hx := hp v q 1 p f.length token hv
          split
          · next he => exact wf_of_pair he hx
          · next he => rw [State.dropFrame_mem, State.rxReturn_mem]; exact wf_of_pair he hx
        · next he => rw [State.dropFrame_mem, State.rxReturn_mem]; exact wf_of_pair he hv

@[simp] theorem State.passFrame_wf (s : State) (p : Nat) (f : List Byte) (h : memWf s.mem = true) : memWf (s.passFrame p f).1.mem = true := by
  unfold State.passFrame
  split
  split
  · rw [State.rxFlit_mem]; exact h
  · exact State.rxFrame_wf _ _ _ h

@[simp] theorem State.passFrames_wf (s : State) (p : Nat) (l : List (List Byte)) (h : memWf s.mem = true) :
    memWf (s.passFrames p l).mem = true := by
  induction l generalizing s with
  | nil => simpa [State.passFrames] using h
  | cons f rest ih =>
    unfold State.passFrames
    split
    · rw [State.setPort_mem, State.snoopedBy_mem]; exact h
    · next he => exact ih _ (wf_of_pair he (State.passFrame_wf _ _ _ h))

@[simp] theorem State.ethHolds_mem (s : State) (p : Nat) (fs : List (List Byte)) : (s.ethHolds p fs).mem = s.mem := by simp [State.ethHolds]

@[simp] theorem execEthernetFrame_wf (p : Port) (frame : List Byte) (fcsError : Bool) (s : State) (h : memWf s.mem = true) :
    Canonical (execEthernetFrame p frame fcsError s) := by
  unfold execEthernetFrame
  extract_lets p prio t old u high pfc v w
  rw [canonical_next]
  have ht : memWf t.mem = true := wf_ite (by rw [State.stamp_mem]; exact h) h
  have hu : memWf u.mem = true := by rw [State.ethHolds_mem]; exact ht
  have hv : memWf v.mem = true := wf_ite (by rw [State.count_mem]; exact hu) hu
  refine wf_ite h (wf_ite (by rw [State.dropFrame_mem]; exact h) ?_)
  rw [State.ethHolds_mem]
  exact wf_ite (State.passFrames_wf _ _ _ (by rw [State.dropFrame_mem]; exact hv)) (State.passFrames_wf _ _ _ hv)

@[simp] theorem State.ptpTake_mem (s : State) (p width lane : Nat) : (s.ptpTake p width lane).1.mem = s.mem := by
  unfold State.ptpTake
  split <;> simp

@[simp] theorem execPtpInfoRead_wf (p : Port) (m : Master) (width lane : Nat) (s : State) (h : memWf s.mem = true) : Canonical (execPtpInfoRead p m width lane s) := by simp [execPtpInfoRead, h]

end Sys2Proof.Machine
end

section
/-! PROOF. What the operations of `Machine.FaultCmds` leave of storage: the same storage (`…_mem`), or one in canonical form (`…_wf`). -/
namespace Sys2Proof.Machine
open Reg

@[simp] theorem execLeakStep_wf (src : Source) (s : State) (h : memWf s.mem = true) : Canonical (execLeakStep src s) := by simp [execLeakStep, h]

@[simp] theorem execClassDemotion_wf (src : Source) (s : State) (h : memWf s.mem = true) : Canonical (execClassDemotion src s) := by simp [execClassDemotion, h]

@[simp] theorem State.escalate_mem (s : State) (r : FltRec) (status : Nat) : (s.escalate r status).mem = s.mem := by
  unfold State.escalate
  dsimp only
  repeat' split
  all_goals simp

@[simp] theorem execEscBExpiry_wf (src : Source) (s : State) (h : memWf s.mem = true) : Canonical (execEscBExpiry src s) := by
  unfold execEscBExpiry
  split <;> simp [h]

@[simp] theorem execEscCExpiry_wf (src : Source) (s : State) (h : memWf s.mem = true) : Canonical (execEscCExpiry src s) := by
  unfold execEscCExpiry
  repeat' split
  all_goals simp [h]

@[simp] theorem execFltAck_wf (w : RegWrite) (s : State) (h : memWf s.mem = true) : Canonical (execFltAck w s) := by
  unfold execFltAck
  rw [canonical_next]
  refine State.regRow_wf _ _ _ _ _ (fun s t ht h => ?_) h
  subst ht
  rw [← State.acknowledge_mem s (w.get FLT_ACK_SOURCE) (w.get FLT_ACK_SEQ) (w.m != .host)] at h
  split
  · next he => exact wf_of_pair he h
  · next he => rw [State.regRecord_mem]; exact wf_of_pair he h

@[simp] theorem State.fenceCluster_mem (s : State) (k : Nat) : (s.fenceCluster k).mem = s.mem := by simp -implicitDefEqProofs [State.fenceCluster]

@[simp] theorem State.fencePortNow_mem (s : State) (p : Nat) : (s.fencePortNow p).mem = s.mem := by simp [State.fencePortNow]

@[simp] theorem execFltFence_wf (w : RegWrite) (s : State) (h : memWf s.mem = true) : Canonical (execFltFence w s) := by
  unfold execFltFence
  repeat' split
  all_goals simp [h]

@[simp] theorem State.idcode_mem (s : State) : (s.idcode).2.mem = s.mem := by simp [State.idcode]

@[simp] theorem State.boundaryStop_mem (s : State) : (s.boundaryStop).mem = s.mem := by simp [State.boundaryStop]

@[simp] theorem execTapInstruction_wf (ir : Nat) (dr : Word) (s : State) (h : memWf s.mem = true) : Canonical (execTapInstruction ir dr s) := by
  unfold execTapInstruction
  repeat' split
  all_goals simp [h]

@[simp] theorem execTestLogicReset_wf (s : State) (h : memWf s.mem = true) : Canonical (execTestLogicReset s) := by simp [execTestLogicReset, h]

end Sys2Proof.Machine
end

section
/-! PROOF. What the operations of `Machine.LiveRegs` leave of storage: the same storage (`…_mem`), or one in canonical form (`…_wf`). -/
namespace Sys2Proof.Machine
open Reg

@[simp] theorem State.watts_mem (s : State) (p : ℚ) : (s.watts p).2.mem = s.mem := by simp [State.watts]

@[simp] theorem State.envWord_mem (s : State) : (s.envWord).2.mem = s.mem := by simp [State.envWord]

@[simp] theorem State.bootWord_mem (s : State) : (s.bootWord).2.mem = s.mem := by simp [State.bootWord]

@[simp] theorem State.grown_mem (s : State) (f : RF) : (s.grown f).2.mem = s.mem := by simp [State.grown]

@[simp] theorem State.svuWord_mem (s : State) (i off : Nat) : (s.svuWord i off).2.mem = s.mem := by simp [State.svuWord]

@[simp] theorem State.live_mem (s : State) (off : Nat) : (s.live off).2.mem = s.mem := by simp [State.live]

end Sys2Proof.Machine
end

section
/-! PROOF. What the operations of `Machine.Gloley` leave of storage: the same storage (`…_mem`), or one in canonical form (`…_wf`). -/
namespace Sys2Proof.Machine
open Reg

@[simp] theorem State.glFrame_mem (s : State) (op tag kind status reply : Nat) (data : List Byte) : (s.glFrame op tag kind status reply data).1.mem = s.mem := by simp [State.glFrame]

@[simp] theorem State.glReady_mem (s : State) (q : GlReq) (kind status reply : Nat) (data : List Byte) : (s.glReady q kind status reply data).mem = s.mem := by simp [State.glReady]

@[simp] theorem State.glWorks_mem (s : State) (q : GlReq) (ready : Bool) : (s.glWorks q ready).mem = s.mem := by simp [State.glWorks]

theorem State.glRequest_wf (s : State) (x : Frame) (op : Nat) (hw mine : GlReq → Bool) (f : State → GlReq → State × Nat × Nat × List Byte)
    (hf : ∀ u q t, f u q = t → memWf u.mem = true → memWf t.1.mem = true) (h : memWf s.mem = true) :
    memWf (s.glRequest x op hw mine f).mem = true := by
  unfold State.glRequest
  extract_lets q ready u
  have hu : memWf u.mem = true := wf_ite (by rw [State.flashTouch_mem]; exact h) h
  have hr := fun k st r d => (State.glReady_mem s q k st r d).symm ▸ h
  refine wf_ite h (wf_ite (hr _ _ _ _) (wf_ite (hr _ _ _ _) (wf_ite h ?_)))
  split
  · exact hr _ _ _ _
  · split
    next v st reply data he =>
    extract_lets a
    have ha : memWf a.mem = true := by
      rw [State.glReady_mem]
      exact wf_of_pair he (hf _ _ _ rfl hu)
    exact wf_ite ha (by rw [State.glWorks_mem]; exact ha)

@[simp] theorem glOnly_mem (s : State) (st : Nat) : (glOnly s st).1.mem = s.mem := by simp [glOnly]

@[simp] theorem State.images_mem (s : State) (offs : List Nat) : (s.images offs).1.mem = s.mem := by simp -implicitDefEqProofs [State.images]

@[simp] theorem execGloleyStatus_wf (f : Frame) (s : State) (h : memWf s.mem = true) : Canonical (execGloleyStatus f s) := by
  unfold execGloleyStatus
  rw [canonical_next]
  refine State.glRequest_wf _ _ _ _ _ _ (fun u q t ht hu => ?_) h
  subst ht
  split
  · rw [glOnly_mem]; exact hu
  · split
    next v bs he =>
    have hv : memWf v.mem = true := wf_of_pair he ((State.images_mem _ _).symm ▸ hu)
    exact hv

@[simp] theorem execTelemetry_wf (f : Frame) (s : State) (h : memWf s.mem = true) : Canonical (execTelemetry f s) := by
  unfold execTelemetry
  rw [canonical_next]
  refine State.glRequest_wf _ _ _ _ _ _ (fun u q t ht hu => ?_) h
  subst ht
  split
  · rw [glOnly_mem]; exact hu
  · split
    next he => exact wf_of_pair he (by rw [State.images_mem]; exact hu)

@[simp] theorem execGloleyLogRead_wf (f : Frame) (s : State) (h : memWf s.mem = true) : Canonical (execGloleyLogRead f s) := by
  unfold execGloleyLogRead
  rw [canonical_next]
  refine State.glRequest_wf _ _ _ _ _ _ (fun u q t ht hu => ?_) h
  subst ht
  extract_lets log count ws v
  rw [State.fst_ite]
  refine wf_ite ?_ ?_
  · rw [glOnly_mem]; exact hu
  · exact wf_ite (by rw [State.flashTouch_mem]; exact hu) hu

@[simp] theorem execGloleyFaultAck_wf (f : Frame) (s : State) (h : memWf s.mem = true) : Canonical (execGloleyFaultAck f s) := by
  unfold execGloleyFaultAck
  rw [canonical_next]
  refine State.glRequest_wf _ _ _ _ _ _ (fun u q t ht hu => ?_) h
  subst ht
  split
  · rw [glOnly_mem]; exact hu
  · split
    next he =>
    rw [glOnly_mem]
    exact wf_of_pair he (by rw [State.acknowledge_mem]; exact hu)

@[simp] theorem execGloleyPowerCap_wf (f : Frame) (s : State) (h : memWf s.mem = true) : Canonical (execGloleyPowerCap f s) := by
  unfold execGloleyPowerCap
  rw [canonical_next]
  refine State.glRequest_wf _ _ _ _ _ _ (fun u q t ht hu => ?_) h
  subst ht
  split
  · rw [glOnly_mem]; exact hu
  · split
    next he => exact wf_of_pair he (State.setCap_wf _ _ _ hu)

@[simp] theorem execGloleyRoleAuth_wf (f : Frame) (s : State) (h : memWf s.mem = true) : Canonical (execGloleyRoleAuth f s) := by
  unfold execGloleyRoleAuth
  rw [canonical_next]
  refine State.glRequest_wf _ _ _ _ _ _ (fun u q t ht hu => ?_) h
  subst ht
  extract_lets role step len
  split
  · rw [glOnly_mem]; exact hu
  · split
    · rw [glOnly_mem, State.authFail_mem]; exact hu
    · split
      · split
        next he =>
        rw [State.setChallenge_mem]
        exact wf_of_pair he (by rw [State.newChallenge_mem]; exact hu)
      · split
        · split
          next he => exact wf_of_pair he (by rw [State.answerChallenge_mem]; exact hu)
        · rw [glOnly_mem, State.closeSession_mem]; exact hu

@[simp] theorem execGloleyReset_wf (f : Frame) (s : State) (h : memWf s.mem = true) : Canonical (execGloleyReset f s) := by
  unfold execGloleyReset
  rw [canonical_next]
  refine State.glRequest_wf _ _ _ _ _ _ (fun u q t ht hu => ?_) h
  subst ht
  split
  · rw [glOnly_mem]; exact hu
  · rw [glOnly_mem]; exact hu

@[simp] theorem execGloleyResetStart_wf (s : State) (h : memWf s.mem = true) : Canonical (execGloleyResetStart s) := by
  unfold execGloleyResetStart
  split <;> simp [h]

@[simp] theorem execGloleyPowerState_wf (f : Frame) (s : State) (h : memWf s.mem = true) : Canonical (execGloleyPowerState f s) := by
  unfold execGloleyPowerState
  rw [canonical_next]
  refine State.glRequest_wf _ _ _ _ _ _ (fun u q t ht hu => ?_) h
  subst ht
  split
  · rw [glOnly_mem]; exact hu
  · rw [glOnly_mem]; exact State.requestState_wf _ _ _ hu

@[simp] theorem State.glSends_mem (s : State) (l : List Nat) : (s.glSends l).1.mem = s.mem := by
  induction l generalizing s with
  | nil => simp [State.glSends]
  | cons a l ih => simp [State.glSends, ih]

@[simp] theorem State.glTakes_mem (s : State) (n : Nat) : (s.glTakes n).1.mem = s.mem := by
  induction n generalizing s with
  | zero => simp [State.glTakes]
  | succ n ih => simp [State.glTakes, ih]

@[simp] theorem execMailbox_wf (f : Frame) (s : State) (h : memWf s.mem = true) : Canonical (execMailbox f s) := by
  unfold execMailbox
  rw [canonical_next]
  refine State.glRequest_wf _ _ _ _ _ _ (fun u q t ht hu => ?_) h
  subst ht
  split
  · rw [glOnly_mem]; exact hu
  · extract_lets a bell b
    have ha : memWf a.mem = true := wf_ite (by rw [State.wr_mem]; exact hu) hu
    have hb : memWf b.mem = true := wf_ite ha (by rw [State.mbxRing_mem]; exact ha)
    split
    next hs =>
    split
    next ht =>
    exact wf_of_pair ht (by rw [State.glTakes_mem]; exact wf_of_pair hs (by rw [State.glSends_mem]; exact hb))

theorem State.glSession_mem (s : State) (sid : Nat) {r} (hr : s.glSession sid = some r) : r.1.mem = s.mem := by
  unfold State.glSession at hr
  repeat' split at hr
  all_goals cases hr
  all_goals simp

theorem State.recover_wf (s : State) (f : Frame) (stage : Nat) (inOrder : State → GlReq → Bool) (act : State → GlReq → State × Nat × Nat)
    (ha : ∀ u q t, act u q = t → memWf u.mem = true → memWf t.1.mem = true) (h : memWf s.mem = true) :
    memWf (s.recover f stage inOrder act).mem = true := by
  unfold State.recover
  refine State.glRequest_wf _ _ _ _ _ _ (fun u q t ht hu => ?_) h
  subst ht
  split
  · rw [glOnly_mem]; exact hu
  · split
    · rw [glOnly_mem]; exact hu
    · next v i hv =>
      have hv : memWf v.mem = true := (State.glSession_mem _ _ hv).symm ▸ hu
      split
      · rw [glOnly_mem, State.wr_mem]; exact hv
      · split
        next t st reply he =>
        rw [State.wr_mem, State.audit_mem]
        split at he
        · exact wf_of_pair he (ha _ _ _ rfl hv)
        · exact wf_of_pair he hv

@[simp] theorem execFwRecoveryOpen_wf (f : Frame) (s : State) (h : memWf s.mem = true) : Canonical (execFwRecoveryOpen f s) := by
  unfold execFwRecoveryOpen
  rw [canonical_next]
  refine State.recover_wf _ _ _ _ _ (fun u q t ht hu => ?_) h
  subst ht
  simpa using hu

@[simp] theorem execFwRecoveryWrite_wf (f : Frame) (s : State) (h : memWf s.mem = true) : Canonical (execFwRecoveryWrite f s) := by
  unfold execFwRecoveryWrite
  rw [canonical_next]
  refine State.recover_wf _ _ _ _ _ (fun u q t ht hu => ?_) h
  subst ht
  simpa using hu

@[simp] theorem execFwRecoveryCheck_wf (f : Frame) (s : State) (h : memWf s.mem = true) : Canonical (execFwRecoveryCheck f s) := by
  unfold execFwRecoveryCheck
  rw [canonical_next]
  refine State.recover_wf _ _ _ _ _ (fun u q t ht hu => ?_) h
  subst ht
  split
  · rw [State.wr_mem, State.flashTouch_mem]; exact hu
  · rw [State.flashTouch_mem]; exact hu

@[simp] theorem State.recovered_mem (s : State) : (s.recovered).mem = s.mem := by simp [State.recovered]

@[simp] theorem execFwRecoveryCommit_wf (f : Frame) (s : State) (h : memWf s.mem = true) : Canonical (execFwRecoveryCommit f s) := by
  unfold execFwRecoveryCommit
  rw [canonical_next]
  have ht := State.recover_wf s f 3 (fun s _ => s.on LCS_UPDATE_OPEN && s.rd LCS_UPDATE_STAGE == 3) (fun s _ => (s.recovered, ST_OK, 0))
    (fun u q t ht hu => by subst ht; rw [State.recovered_mem]; exact hu) h
  exact wf_ite (State.moduleReset_wf _ _ ht) ht

@[simp] theorem State.glAbort_mem (s : State) : (s.glAbort).mem = s.mem := by simp [State.glAbort]

@[simp] theorem execGloleyResponseRead_wf (s : State) (h : memWf s.mem = true) : Canonical (execGloleyResponseRead s) := by simp [execGloleyResponseRead, h]

@[simp] theorem State.takeAddress_mem (s : State) (addr : Nat) : (s.takeAddress addr).mem = s.mem := by simp [State.takeAddress]

@[simp] theorem execSetdasa_wf (addr : Nat) (s : State) (h : memWf s.mem = true) : Canonical (execSetdasa addr s) := by simp [execSetdasa, h]

@[simp] theorem execEntdaa_wf (addr : Nat) (s : State) (h : memWf s.mem = true) : Canonical (execEntdaa addr s) := by simp [execEntdaa, h]

@[simp] theorem execSetnewda_wf (addr : Nat) (s : State) (h : memWf s.mem = true) : Canonical (execSetnewda addr s) := by simp [execSetnewda, h]

@[simp] theorem execRstdaa_wf (s : State) (h : memWf s.mem = true) : Canonical (execRstdaa s) := by simp [execRstdaa, h]

@[simp] theorem execGetmrl_wf (s : State) (h : memWf s.mem = true) : Canonical (execGetmrl s) := by simp [execGetmrl, h]

@[simp] theorem execGetmwl_wf (s : State) (h : memWf s.mem = true) : Canonical (execGetmwl s) := by simp [execGetmwl, h]

@[simp] theorem execEnec_wf (s : State) (h : memWf s.mem = true) : Canonical (execEnec s) := by simp [execEnec, h]

@[simp] theorem execDisec_wf (s : State) (h : memWf s.mem = true) : Canonical (execDisec s) := by simp [execDisec, h]

end Sys2Proof.Machine
end

section
/-! PROOF. What the operations of `Machine.CoreRegs` leave of storage: the same storage (`…_mem`), or one in canonical form (`…_wf`). -/
namespace Sys2Proof.Machine
open Reg

@[simp] theorem State.freshN_mem (s : State) (n : Nat) : (s.freshN n).2.mem = s.mem := by
  induction n generalizing s with
  | zero => simp [State.freshN]
  | succ n ih => simp [State.freshN, ih]

@[simp] theorem State.twinWrite_mem (s : State) (c k : Nat) (w : RegWrite) : (s.twinWrite c k w).mem = s.mem := by simp [State.twinWrite]

@[simp] theorem execTwinWrite_wf (c : Core) (k : Fin 64) (w : RegWrite) (s : State) (h : memWf s.mem = true) : Canonical (execTwinWrite c k w s) := by simp [execTwinWrite, h]

@[simp] theorem State.startTask_mem (s : State) (c t : Nat) : (s.startTask c t).mem = s.mem := by simp [State.startTask]

@[simp] theorem State.writeCoreTask_mem (s : State) (c : Nat) (w : RegWrite) : (s.writeCoreTask c w).mem = s.mem := by simp [State.writeCoreTask]

@[simp] theorem State.taskRow_mem (s : State) (c : Nat) (w : RegWrite) : (s.taskRow c w).mem = s.mem := by simp [State.taskRow]

@[simp] theorem execCoreIntRaise_wf (c : Core) (w : RegWrite) (s : State) (h : memWf s.mem = true) : Canonical (execCoreIntRaise c w s) := by simp [execCoreIntRaise, h]

@[simp] theorem State.loadPin_wf (s : State) (m : Master) (c n line : Nat) (h : memWf s.mem = true) : memWf (s.loadPin m c n line).mem = true := by
  unfold State.loadPin
  extract_lets ga off r
  refine wf_ite ?_ ?_
  · rw [getD_mem fun t ht => State.post_mem _ _ _ _ ht]; exact h
  · split
    · next he => exact (State.block_mem _ _ _ _ _ he).symm ▸ h
    · split
      · next he =>
        refine State.performReq_wf _ _ ?_
        split at he
        · cases he; exact h
        · exact (State.slotNow_mem _ _ he).symm ▸ h
      · rw [State.push_mem]; exact h

@[simp] theorem State.writePin_wf (s : State) (c n : Nat) (w : RegWrite) (h : memWf s.mem = true) : memWf (s.writePin c n w).mem = true := by
  unfold State.writePin
  extract_lets old was line valid a b d
  have hb : memWf d.mem = true := by rw [State.setCore_mem, State.setReg_mem]; exact h
  exact wf_ite (by rw [State.regRecord_mem]; exact h) (wf_ite (State.loadPin_wf _ _ _ _ _ hb) hb)

@[simp] theorem execCorePinWrite_wf (c : Core) (n : Fin 8) (w : RegWrite) (s : State) (h : memWf s.mem = true) :
    Canonical (execCorePinWrite c n w s) := by
  unfold execCorePinWrite
  rw [canonical_next]
  refine State.regRow_wf _ _ _ _ _ (fun s t ht h => ?_) h
  subst ht
  exact State.writePin_wf _ _ _ _ h

@[simp] theorem State.writeVec_mem (s : State) (c k : Nat) (w : RegWrite) : (s.writeVec c k w).mem = s.mem := by simp [State.writeVec]

@[simp] theorem execCoreVecWrite_wf (c : Core) (which : Fin 3) (w : RegWrite) (s : State) (h : memWf s.mem = true) : Canonical (execCoreVecWrite c which w s) := by simp [execCoreVecWrite, h]

end Sys2Proof.Machine
end

section
/-! PROOF. What the operations of `Machine.RegAccess` leave of storage: the same storage (`…_mem`), or one in canonical form (`…_wf`). -/
namespace Sys2Proof.Machine
open Reg

@[simp] theorem State.shown_mem (s : State) (off : Nat) : (s.shown off).2.mem = s.mem := by
  unfold State.shown
  split <;> simp

@[simp] theorem State.clearRead_mem (s : State) (off mask : Nat) (hw : Option Nat) : (s.clearRead off mask hw).mem = s.mem := by
  unfold State.clearRead
  repeat' split
  all_goals simp -implicitDefEqProofs

@[simp] theorem State.latchHalf_mem (s : State) (m : Master) (off lane width : Nat) (w : Word) : (s.latchHalf m off lane width w).1.mem = s.mem := by
  unfold State.latchHalf
  dsimp only
  repeat' split
  all_goals simp

@[simp] theorem State.readAt_mem (s : State) (m : Master) (off width : Nat) (hw : Option Nat) : (s.readAt m off width hw).1.mem = s.mem := by
  unfold State.readAt
  dsimp only
  repeat' split
  all_goals simp

@[simp] theorem State.readReg_mem (s : State) (m : Master) (off width : Nat) (hw : Option Nat) (insn : Bool) : (s.readReg m off width hw insn).1.mem = s.mem := by
  unfold State.readReg
  split <;> simp

@[simp] theorem State.readOut_mem (s : State) (m : Master) (off width : Nat) (hw : Option Nat) : (s.readOut m off width hw).mem = s.mem := by
  unfold State.readOut
  have hr := State.readReg_mem s m off width hw false
  obtain ⟨read, hread⟩ : ∃ f, f = @State.readReg := ⟨_, rfl⟩
  rw [← hread] at hr ⊢
  split
  · rw [State.hostMissed_mem]
  · split
    · next he => rw [State.emit_mem, mem_of_pair he, hr]
    · next he => rw [State.refuseReg_mem, mem_of_pair he, hr]
    · next he => rw [State.mxcHold_mem, mem_of_pair he, hr]

theorem stateOf_wf {o : Host.Outcome State Fault Refusal} {s : State} (ho : Canonical o) (h : memWf s.mem = true) :
    memWf (stateOf o s).mem = true := by
  unfold stateOf
  split
  · exact ho _ rfl
  · exact h

@[simp] theorem State.plainWrite_mem (s : State) (w : RegWrite) (off : Nat) (right : Bool) : (s.plainWrite w off right).mem = s.mem := by simp [State.plainWrite]

theorem inFin_wf {n : Nat} (k : Nat) (f : Fin n → State) (d : State) (hf : ∀ i t, f i = t → memWf t.mem = true) (hd : memWf d.mem = true) :
    memWf (inFin k f d).mem = true := by
  unfold inFin
  split
  · exact hf _ _ rfl
  · exact hd

theorem inFin_stateOf_wf {n : Nat} (k : Nat) (f : Fin n → Host.Outcome State Fault Refusal) (s : State) (hf : ∀ i, Canonical (f i))
    (h : memWf s.mem = true) : memWf (inFin k (fun i => stateOf (f i) s) s).mem = true :=
  inFin_wf _ _ _ (fun i _ ht => ht ▸ stateOf_wf (hf i) h) h

theorem State.installerWrite_mem (s : State) (w : RegWrite) (off : Nat) (f : State → State) (hf : ∀ u t, f u = t → t.mem = u.mem) :
    (s.installerWrite w off f).mem = s.mem := by
  unfold State.installerWrite
  refine State.regRow_mem _ _ _ _ _ fun u t ht => ?_
  rw [hf _ _ ht, State.applyWrite_mem, State.auditWrite_mem]

@[simp] theorem State.installerWrite_id_mem (s : State) (w : RegWrite) (off : Nat) : (s.installerWrite w off id).mem = s.mem :=
  State.installerWrite_mem _ _ _ _ fun _ _ ht => ht ▸ rfl

theorem State.regRow_id_mem (s : State) (w : RegWrite) (off : Nat) (right : Bool) : (s.regRow w off right id).mem = s.mem :=
  State.regRow_mem _ _ _ _ _ fun _ _ ht => ht ▸ rfl

@[simp] theorem State.ignoredWrite_mem (s : State) (w : RegWrite) (off : Nat) : (s.ignoredWrite w off).mem = s.mem := by simp [State.ignoredWrite]

@[simp] theorem State.cmdrCfgWrite_mem (s : State) (w : RegWrite) (off r : Nat) : (s.cmdrCfgWrite w off r).mem = s.mem := by simp [State.cmdrCfgWrite]

theorem doorbellHalf_wf (s : State) (w : RegWrite) (r : Nat) (hi : Bool) (h : memWf s.mem = true) :
    memWf ((fun (s : State) (hi : Bool) =>
      let v := BitVec.ofNat 32 (w.bits / 2 ^ (if hi then 32 else 0))
      inFin (n := 64) r (fun r =>
        stateOf (if hi then execDoorbellCqHead (.cmdr w.m) r v s else execDoorbellTail (.cmdr w.m) r v s) s) s) s hi).mem = true := by
  refine inFin_stateOf_wf _ _ _ (fun i => ?_) h
  cases hi with
  | true => exact execDoorbellCqHead_wf _ _ _ _ h
  | false => exact execDoorbellTail_wf _ _ _ _ h

@[simp] theorem State.writeCmdr_wf (s : State) (w : RegWrite) (off : Nat) (h : memWf s.mem = true) : memWf (s.writeCmdr w off).mem = true := by
  unfold State.writeCmdr
  have hh := fun u hi hu => doorbellHalf_wf u w ((off - 0x10000) / 0x100) hi hu
  refine wf_ite ?_ (wf_ite ?_ (wf_ite ?_ (wf_ite ?_ (wf_ite ?_ ?_))))
  · rw [State.regRow_id_mem]; exact h
  · rw [State.regRow_mem _ _ _ _ _ fun u t ht => ?_]
    · exact h
    · subst ht
      split
      · rw [State.regRecord_mem]
      · split
        · rw [State.cmdrCfgWrite_mem]
        · rw [State.applyWrite_mem]
  · exact inFin_stateOf_wf _ _ _ (fun i => execRingEnable_wf _ _ _ h) h
  · exact wf_ite (hh _ _ (hh _ _ h)) (hh _ _ h)
  · rw [State.regRow_mem _ _ _ _ _ fun u t ht => ?_]
    · exact h
    · subst ht
      rw [State.ringMarks_mem, State.applyWrite_mem]
  · rw [State.regRow_id_mem]; exact h

@[simp] theorem State.writeMbx_wf (s : State) (w : RegWrite) (off b d o : Nat) (h : memWf s.mem = true) :
    memWf (s.writeMbx w off b d o).mem = true := by
  unfold State.writeMbx
  extract_lets side
  refine wf_ite ?_ (wf_ite ?_ (wf_ite ?_ (wf_ite ?_ ?_)))
  · exact inFin_stateOf_wf _ _ _ (fun i => execMbxDoorbell_wf _ _ _ _ h) h
  · exact inFin_stateOf_wf _ _ _ (fun i => execMbxSend_wf _ _ _ _ h) h
  · exact inFin_stateOf_wf _ _ _ (fun i => execMbxReady_wf _ _ _ _ h) h
  · rw [State.regRow_mem _ _ _ _ _ fun u t ht => ?_]
    · exact h
    · subst ht
      rw [State.mbxCheck_mem, State.applyWrite_mem]
  · rw [State.regRow_id_mem]; exact h

@[simp] theorem State.writeBmv_wf (s : State) (w : RegWrite) (off : Nat) (h : memWf s.mem = true) : memWf (s.writeBmv w off).mem = true := by
  unfold State.writeBmv
  extract_lets c k
  refine wf_ite ?_ (wf_ite ?_ (wf_ite ?_ (wf_ite ?_ ?_)))
  · rw [State.regRow_mem _ _ _ _ _ fun u t ht => ?_]
    · exact h
    · subst ht
      rw [State.mem_ite, State.regRecord_mem, State.applyWrite_mem, ite_self]
  · exact inFin_stateOf_wf _ _ _ (fun i => execBmvArm_wf _ _ _ h) h
  · rw [State.plainWrite_mem]; exact h
  · rw [State.regRow_mem _ _ _ _ _ fun u t ht => ?_]
    · exact h
    · subst ht
      rw [State.mem_ite, State.regRecord_mem, State.applyWrite_mem, ite_self]
  · rw [State.ignoredWrite_mem]; exact h

@[simp] theorem State.writePool_wf (s : State) (w : RegWrite) (off : Nat) (h : memWf s.mem = true) : memWf (s.writePool w off).mem = true := by
  unfold State.writePool
  extract_lets p k
  refine wf_ite ?_ (wf_ite ?_ ?_)
  · exact inFin_stateOf_wf _ _ _ (fun i => execPoolEnable_wf _ _ _ h) h
  · rw [State.regRow_mem _ _ _ _ _ fun u t ht => ?_]
    · exact h
    · subst ht
      rw [State.mem_ite, State.regRecord_mem, State.applyWrite_mem, ite_self]
  · rw [State.ignoredWrite_mem]; exact h

@[simp] theorem State.writeFlt_wf (s : State) (w : RegWrite) (off : Nat) (h : memWf s.mem = true) : memWf (s.writeFlt w off).mem = true := by
  unfold State.writeFlt
  refine wf_ite ?_ (wf_ite ?_ (wf_ite ?_ (wf_ite ?_ (wf_ite ?_ ?_))))
  · rw [State.installerWrite_id_mem]; exact h
  · exact stateOf_wf (execFltAck_wf _ _ h) h
  · exact stateOf_wf (execFltFence_wf _ _ h) h
  · rw [State.installerWrite_id_mem]; exact h
  · rw [State.plainWrite_mem]; exact h
  · rw [State.ignoredWrite_mem]; exact h

@[simp] theorem State.writePwr_wf (s : State) (w : RegWrite) (off : Nat) (h : memWf s.mem = true) : memWf (s.writePwr w off).mem = true := by
  unfold State.writePwr
  refine wf_ite ?_ (wf_ite ?_ (wf_ite ?_ (wf_ite ?_ (wf_ite ?_ ?_))))
  · exact stateOf_wf (execPwrLimitWrite_wf _ _ h) h
  · exact stateOf_wf (execDomainRequest_wf _ _ h) h
  · exact stateOf_wf (execPowerStateRequest_wf _ _ h) h
  · rw [State.plainWrite_mem]; exact h
  · rw [State.pinMark_mem, State.plainWrite_mem]; exact h
  · rw [State.ignoredWrite_mem]; exact h

@[simp] theorem State.writeLcs_wf (s : State) (w : RegWrite) (off : Nat) (h : memWf s.mem = true) : memWf (s.writeLcs w off).mem = true := by
  unfold State.writeLcs
  refine wf_ite ?_ (wf_ite ?_ (wf_ite ?_ ?_))
  · exact stateOf_wf (execSetReady_wf _ _ h) h
  · exact stateOf_wf (execFwConfirm_wf _ _ h) h
  · rw [State.installerWrite_id_mem]; exact h
  · rw [State.ignoredWrite_mem]; exact h

@[simp] theorem State.writeHif_wf (s : State) (w : RegWrite) (off : Nat) (h : memWf s.mem = true) : memWf (s.writeHif w off).mem = true := by
  unfold State.writeHif
  refine wf_ite ?_ (wf_ite (wf_ite ?_ ?_) ?_)
  · rw [State.installerWrite_id_mem]; exact h
  · exact stateOf_wf (execMsixUnmask_wf _ _ _ h) h
  · rw [State.plainWrite_mem]; exact h
  · rw [State.ignoredWrite_mem]; exact h

@[simp] theorem State.writeIntlv_wf (s : State) (w : RegWrite) (off : Nat) (h : memWf s.mem = true) : memWf (s.writeIntlv w off).mem = true := by
  unfold State.writeIntlv
  refine wf_ite ?_ (wf_ite ?_ (wf_ite ?_ (wf_ite ?_ ?_)))
  · exact stateOf_wf (execIntlvArbWrite_wf _ _ h) h
  · rw [State.plainWrite_mem]; exact h
  · rw [State.installerWrite_id_mem]; exact h
  · exact stateOf_wf (execTailSizeWrite_wf _ _ h) h
  · rw [State.ignoredWrite_mem]; exact h

@[simp] theorem State.writeMemc_wf (s : State) (w : RegWrite) (off : Nat) (h : memWf s.mem = true) : memWf (s.writeMemc w off).mem = true := by
  unfold State.writeMemc
  extract_lets c
  refine wf_ite ?_ (wf_ite ?_ (wf_ite ?_ (wf_ite ?_ ?_)))
  · exact inFin_stateOf_wf _ _ _ (fun i => execMemcPerfClear_wf _ _ _ h) h
  · exact inFin_stateOf_wf _ _ _ (fun i => execScrubCtlWrite_wf _ _ _ h) h
  · rw [State.installerWrite_id_mem]; exact h
  · exact inFin_stateOf_wf _ _ _ (fun i => execMemcInjectWrite_wf _ _ _ h) h
  · rw [State.ignoredWrite_mem]; exact h

@[simp] theorem State.writeCore_wf (s : State) (w : RegWrite) (off c o : Nat) (h : memWf s.mem = true) :
    memWf (s.writeCore w off c o).mem = true := by
  unfold State.writeCore
  refine inFin_wf _ _ _ (fun c t ht => ?_) h
  subst ht
  refine wf_ite ?_ (wf_ite ?_ (wf_ite ?_ (wf_ite ?_ (wf_ite ?_ ?_))))
  · rw [State.taskRow_mem]; exact h
  · exact inFin_stateOf_wf _ _ _ (fun i => execCoreVecWrite_wf _ _ _ _ h) h
  · exact inFin_stateOf_wf _ _ _ (fun i => execCorePinWrite_wf _ _ _ _ h) h
  · exact stateOf_wf (execCoreIntRaise_wf _ _ _ h) h
  · exact inFin_stateOf_wf _ _ _ (fun i => execTwinWrite_wf _ _ _ _ h) h
  · rw [State.plainWrite_mem]; exact h

@[simp] theorem State.writeClus_mem (s : State) (w : RegWrite) (off : Nat) : (s.writeClus w off).mem = s.mem := by simp [State.writeClus]

@[simp] theorem State.writeJp_wf (s : State) (w : RegWrite) (off p k : Nat) (h : memWf s.mem = true) :
    memWf (s.writeJp w off p k).mem = true := by
  unfold State.writeJp
  refine wf_ite ?_ (wf_ite ?_ (wf_ite (wf_ite ?_ ?_) ?_))
  · exact inFin_stateOf_wf _ _ _ (fun i => execPortEnable_wf _ _ _ h) h
  · rw [State.regRow_mem _ _ _ _ _ fun u t ht => ?_]
    · exact h
    · subst ht
      rw [State.mem_ite, State.regRecord_mem, State.applyWrite_mem, State.auditWrite_mem, ite_self]
  · rw [State.installerWrite_mem _ _ _ _ fun u t ht => by rw [← ht, State.ethMark_mem]]; exact h
  · rw [State.plainWrite_mem]; exact h
  · rw [State.ignoredWrite_mem]; exact h

@[simp] theorem State.writeJfab_wf (s : State) (w : RegWrite) (off : Nat) (h : memWf s.mem = true) : memWf (s.writeJfab w off).mem = true := by
  unfold State.writeJfab
  refine wf_ite ?_ (wf_ite ?_ (wf_ite ?_ (wf_ite ?_ (wf_ite ?_ (wf_ite ?_ (wf_ite ?_ ?_))))))
  · exact inFin_stateOf_wf _ _ _ (fun i => execJfabRouteWrite_wf _ _ _ _ h) h
  · rw [State.regRow_mem _ _ _ _ _ fun u t ht => ?_]
    · exact h
    · subst ht
      rw [State.mem_ite, State.regRecord_mem, State.applyWrite_mem, State.auditWrite_mem, ite_self]
  · rw [State.installerWrite_id_mem]; exact h
  · rw [State.installerWrite_mem _ _ _ _ fun u t ht => by rw [← ht, State.mem_ite, State.wr_mem, ite_self]]; exact h
  · rw [State.plainWrite_mem]; exact h
  · exact stateOf_wf (execTxGo_wf _ _ h) h
  · extract_lets q
    refine wf_ite ?_ (wf_ite ?_ (wf_ite ?_ ?_))
    · rw [State.installerWrite_mem _ _ _ _ fun u t ht => ?_]
      · exact h
      · subst ht
        rw [State.mem_ite, State.regRecord_mem, State.wr_mem, ite_self]
    · rw [State.installerWrite_id_mem]; exact h
    · rw [State.plainWrite_mem]; exact h
    · rw [State.ignoredWrite_mem]; exact h
  · rw [State.ignoredWrite_mem]; exact h

@[simp] theorem State.writeXlat_mem (s : State) (w : RegWrite) (off : Nat) : (s.writeXlat w off).mem = s.mem := by simp [State.writeXlat]

@[simp] theorem State.writeReg_wf (s : State) (w : RegWrite) (off : Nat) (h : memWf s.mem = true) : memWf (s.writeReg w off).mem = true := by
  unfold State.writeReg
  refine wf_ite ?_ ?_
  · rw [State.ignoredWrite_mem]; exact h
  split
  · exact State.writeCore_wf _ _ _ _ _ h
  · exact State.writeMbx_wf _ _ _ _ _ _ h
  · exact State.writeJp_wf _ _ _ _ _ h
  · refine wf_ite ?_ (wf_ite ?_ (wf_ite ?_ (wf_ite ?_ (wf_ite ?_ (wf_ite ?_ (wf_ite ?_ (wf_ite ?_ (wf_ite ?_ (wf_ite ?_ (wf_ite ?_ (wf_ite ?_
      (wf_ite ?_ (wf_ite ?_ (wf_ite ?_ (wf_ite ?_ ?_)))))))))))))))
    · exact State.writeCmdr_wf _ _ _ h
    · exact State.writeBmv_wf _ _ _ h
    · exact State.writePool_wf _ _ _ h
    · exact State.writeFlt_wf _ _ _ h
    · rw [State.plainWrite_mem]; exact h
    · exact State.writePwr_wf _ _ _ h
    · rw [State.plainWrite_mem]; exact h
    · exact stateOf_wf (execModuleReset_wf _ _ h) h
    · exact State.writeLcs_wf _ _ _ h
    · exact State.writeHif_wf _ _ _ h
    · exact State.writeIntlv_wf _ _ _ h
    · exact State.writeMemc_wf _ _ _ h
    · rw [State.writeClus_mem]; exact h
    · exact State.writeJfab_wf _ _ _ h
    · rw [State.writeXlat_mem]; exact h
    · rw [State.plainWrite_mem]; exact h
    · rw [State.ignoredWrite_mem]; exact h

@[simp] theorem State.mxcCount_mem (s : State) : (s.mxcCount).mem = s.mem := by simp -implicitDefEqProofs [State.mxcCount]

@[simp] theorem State.mxcPerform_wf (s : State) (q : MxcReq) (h : memWf s.mem = true) : memWf (s.mxcPerform q).mem = true := by
  unfold State.mxcPerform
  split
  · exact State.writeReg_wf _ _ _ h
  · rw [State.readOut_mem]; exact h

@[simp] theorem State.mxcGrants_wf (s : State) (n : Nat) (h : memWf s.mem = true) : memWf (s.mxcGrants n).mem = true := by
  induction n generalizing s with
  | zero => exact h
  | succ n ih =>
    unfold State.mxcGrants
    split
    · exact h
    · next q k _ =>
      refine ih _ ?_
      have hp : memWf ({ s with mxc := s.mxc.take k } : State).mem = true := h
      exact State.mxcPerform_wf _ q hp

@[simp] theorem State.mxcDrain_wf (s : State) (h : memWf s.mem = true) : memWf s.mxcDrain.mem = true := by
  unfold State.mxcDrain
  rw [State.mxcCount_mem]
  exact State.mxcGrants_wf _ _ h

@[simp] theorem State.endLock_wf (s : State) (c t : Nat) (h : memWf s.mem = true) : memWf (s.endLock c t).mem = true :=
  State.mxcDrain_wf _ (by rw [State.releaseLock_mem]; exact h)

@[simp] theorem State.leaveLock_wf (s : State) (c t : Nat) (h : memWf s.mem = true) : memWf (s.leaveLock c t).mem = true :=
  State.mxcDrain_wf _ (by rw [State.abandonLock_mem]; exact h)

@[simp] theorem execTaskStop_wf (c : Core) (w : RegWrite) (s : State) (h : memWf s.mem = true) : Canonical (execTaskStop c w s) :=
  (canonical_next _).mpr (State.mxcDrain_wf _ (by rw [State.taskRow_mem]; exact h))

@[simp] theorem execTaskStart_wf (c : Core) (w : RegWrite) (s : State) (h : memWf s.mem = true) : Canonical (execTaskStart c w s) :=
  (canonical_next _).mpr (State.mxcDrain_wf _ (by rw [State.taskRow_mem]; exact h))

@[simp] theorem execLockBreak_wf (s : State) (h : memWf s.mem = true) : Canonical (execLockBreak s) := by
  unfold execLockBreak
  rw [canonical_next]
  split
  · exact State.mxcDrain_wf _ h
  · refine State.mxcDrain_wf _ ?_
    rw [State.record_mem, State.count_mem, State.unlock_mem, State.advanceTo_mem]
    exact h

@[simp] theorem State.hwSets_mem (s : State) (off : Nat) (hw : Word) : (s.hwSets off hw).mem = s.mem := by
  unfold State.hwSets
  repeat' split
  all_goals simp -implicitDefEqProofs

@[simp] theorem execRegisterWrite_wf (m : Master) (off width : Nat) (v : RegData) (s : State) (h : memWf s.mem = true) :
    Canonical (execRegisterWrite m off width v s) := by
  unfold execRegisterWrite
  rw [canonical_next]
  refine State.mxcDrain_wf _ ?_
  rw [State.hwSets_mem]
  exact State.writeReg_wf _ _ _ h

@[simp] theorem execReadClearField_wf (m : Master) (off width : Nat) (hw : Option Nat) (s : State) (h : memWf s.mem = true) : Canonical (execReadClearField m off width hw s) := by simp [execReadClearField, h]

@[simp] theorem execCounterLowHalfRead_wf (m : Master) (off : Nat) (s : State) (h : memWf s.mem = true) : Canonical (execCounterLowHalfRead m off s) := by simp [execCounterLowHalfRead, h]

end Sys2Proof.Machine
end

section
/-! PROOF. What the operations of `Machine.Operands` leave of storage: the same storage (`…_mem`), or one in canonical form (`…_wf`). -/
namespace Sys2Proof.Machine
open Reg

@[simp] theorem State.buffer_mem (s : State) (c : Nat) (e : StoreEntry) : (s.buffer c e).mem = s.mem := by simp -implicitDefEqProofs [State.buffer]

@[simp] theorem State.putStore_mem (s : State) (c : Nat) (e : StoreEntry) : (s.putStore c e).mem = s.mem := by simp [State.putStore]

@[simp] theorem State.mxcDone_mem (s : State) (m : Master) (off : Nat) : (s.mxcDone m off).mem = s.mem := by simp [State.mxcDone]

/-- A part of an instruction leaves storage in canonical form, whatever it comes to. -/
def ActWf {α : Type} (x : Act α) : Prop := ∀ s, memWf s.mem = true → memWf (x s).1.mem = true

theorem actWf_pure {α : Type} (a : α) : ActWf (Act.pure a) := fun _ h => h

theorem actWf_trap {α : Type} (t : Trap) : ActWf (Act.trap t : Act α) := fun _ h => h

theorem actWf_wait {α : Type} : ActWf (Act.wait : Act α) := fun _ h => h

theorem actWf_modify (f : State → State) (hf : ∀ s t, f s = t → memWf s.mem = true → memWf t.mem = true) : ActWf (Act.modify f) :=
  fun _ h => hf _ _ rfl h

theorem actWf_bind {α β : Type} {x : Act α} {f : α → Act β} (hx : ActWf x) (hf : ∀ a, ActWf (f a)) : ActWf (x.bind f) := by
  intro s h
  have hs := hx s h
  unfold Act.bind
  split
  · next he => exact hf _ _ (wf_of_pair he hs)
  · next he => exact wf_of_pair he hs
  · next he => exact wf_of_pair he hs

theorem actWf_ite {α : Type} {c : Prop} [Decidable c] {x y : Act α} (hx : ActWf x) (hy : ActWf y) : ActWf (if c then x else y) := by
  split
  · exact hx
  · exact hy

theorem wf_ite_fst {α : Type} {c : Prop} [Decidable c] {x y : State × α} (hx : memWf x.1.mem = true) (hy : memWf y.1.mem = true) :
    memWf (if c then x else y).1.mem = true := by
  split
  · exact hx
  · exact hy

theorem actWf_forEach {α : Type} (l : List α) (f : α → Act Unit) (hf : ∀ a, ActWf (f a)) : ActWf (Act.forEach l f) := by
  induction l with
  | nil => exact actWf_pure ()
  | cons a l ih => exact actWf_bind (hf a) fun _ => ih

theorem actWf_collect {α β : Type} (l : List α) (f : α → Act β) (hf : ∀ a, ActWf (f a)) : ActWf (Act.collect l f) := by
  induction l with
  | nil => exact actWf_pure []
  | cons a l ih => exact actWf_bind (hf a) fun _ => actWf_bind ih fun _ => actWf_pure _

theorem taskGa_wf (c t ring ctx : Nat) (acc : XAcc) (va : Nat) : ActWf (taskGa c t ring ctx acc va) := by
  intro s h
  unfold taskGa
  refine wf_ite_fst (wf_ite_fst ?_ h) ?_
  · rw [State.refuse_mem]; exact h
  · split
    · next he => exact wf_of_pair he (State.translate_wf _ _ _ h)
    · next he => exact wf_of_pair he (State.translate_wf _ _ _ h)
    · next he => exact wf_of_pair he (State.translate_wf _ _ _ h)

theorem readLocal_wf (b : LocalBy) (va off len : Nat) : ActWf (readLocal b va off len) := by
  intro s h
  unfold readLocal
  have hr := State.localRead_wf s b off len h
  split
  · next he => exact wf_of_pair he hr
  · next he => exact wf_of_pair he hr
  · next he => rw [State.reportAll_mem]; exact wf_of_pair he hr
  · next he => exact wf_of_pair he hr

theorem readGa_wf (c t ring va ga len : Nat) : ActWf (readGa c t ring va ga len) := by
  intro s h
  unfold readGa
  refine wf_ite_fst ?_ (readLocal_wf _ _ _ _ _ h)
  rw [← State.askRemote_mem s (agentTask c t) ga len (readMsg ga len)] at h
  split
  · next he => exact wf_of_pair he h
  · next he => exact wf_of_pair he h

theorem readTaskReg_wf (c : Core) (t : Task) (va off len : Nat) : ActWf (readTaskReg c t va off len) := by
  intro s h
  unfold readTaskReg
  rw [← State.readReg_mem s (.core c t) off len none true] at h
  split
  · next he => rw [State.mxcDone_mem]; exact wf_of_pair he h
  · next he => rw [State.refuse_mem]; exact wf_of_pair he h
  · next he => rw [State.mxcHold_mem]; exact wf_of_pair he h

theorem loadGa_wf (c : Core) (t : Task) (ring va ga len : Nat) : ActWf (loadGa c t ring va ga len) := by
  intro s h
  unfold loadGa
  exact wf_ite_fst h (wf_ite_fst h (actWf_bind (actWf_ite (readTaskReg_wf _ _ _ _ _) (readGa_wf _ _ _ _ _ _)) (fun _ => actWf_pure _) s h))

theorem loadVa_wf (c : Core) (t : Task) (x : TaskRegs) (va len : Nat) : ActWf (loadVa c t x va len) :=
  actWf_ite (actWf_trap _) (actWf_bind (taskGa_wf _ _ _ _ _ _) fun _ => loadGa_wf _ _ _ _ _ _)

theorem loadLines_wf (c : Core) (t : Task) (x : TaskRegs) (va n : Nat) : ActWf (loadLines c t x va n) :=
  actWf_bind (actWf_collect _ _ fun _ => loadVa_wf _ _ _ _ _) fun _ => actWf_pure _

theorem storeCheck_wf (c : Core) (t : Task) (ring va ga len : Nat) : ActWf (storeCheck c t ring va ga len) := by
  intro s h
  unfold storeCheck
  refine wf_ite_fst h (wf_ite_fst ?_ (wf_ite_fst (wf_ite_fst h ?_) ?_))
  · extract_lets off
    split
    · rw [State.refuse_mem]; exact h
    · refine wf_ite_fst ?_ ?_
      · rw [State.mxcHold_mem]; exact h
      · rw [State.mxcDone_mem]; exact h
  · rw [State.refuse_mem]; exact h
  · split
    · next he => exact (State.block_mem _ _ _ _ _ he).symm ▸ h
    · exact h

theorem writeTaskReg_wf (c : Core) (t : Task) (va off len v : Nat) : ActWf (writeTaskReg c t va off len v) := by
  intro s h
  unfold writeTaskReg
  have hw := State.mxcDrain_wf _ (State.writeReg_wf s { m := .core c t, lane := off % 8, width := len, v := BitVec.ofNat 64 v } (off / 8 * 8) h)
  extract_lets u x
  split
  · rw [State.setTask_mem]; exact hw
  · exact hw

theorem storeNow_wf (c : Core) (t : Task) (ring va ga : Nat) (bs : List Byte) : ActWf (storeNow c t ring va ga bs) := by
  refine actWf_bind (storeCheck_wf _ _ _ _ _ _) fun _ s h => ?_
  refine wf_ite_fst (wf_ite_fst ?_ h) (wf_ite_fst h (wf_ite_fst (writeTaskReg_wf _ _ _ _ _ _ _ h) (wf_ite_fst ?_ (wf_ite_fst ?_ ?_))))
  · rw [State.putStore_mem]; exact h
  · rw [State.flashWrite_mem, State.flashTouch_mem]; exact h
  · rw [← State.askRemote_mem s (agentTask c.val t.val) ga (writeKey bs.length) (writeMsg ga bs false)] at h
    split
    · next he => exact wf_of_pair he h
    · next he => exact wf_ite_fst (wf_of_pair he h) (wf_of_pair he h)
  · have hl := State.localWrite_wf s (taskBy c.val t.val (.store ring)) (gaOff ga) bs.length (wordWrites (gaOff ga) bs false) h
    split
    · next he => exact wf_of_pair he hl
    · next he => exact wf_of_pair he hl
    · next he => exact wf_of_pair he hl

theorem storeGa_wf (c : Core) (t : Task) (ring va ga : Nat) (bs : List Byte) : ActWf (storeGa c t ring va ga bs) := by
  intro s h
  unfold storeGa
  refine wf_ite_fst (storeNow_wf _ _ _ _ _ _ _ h) (actWf_bind (storeCheck_wf _ _ _ _ _ _) (fun _ s h => wf_ite_fst h ?_) s h)
  rw [State.putStore_mem]; exact h

theorem storeVa_wf (c : Core) (t : Task) (x : TaskRegs) (va : Nat) (bs : List Byte) : ActWf (storeVa c t x va bs) :=
  actWf_ite (actWf_trap _) (actWf_bind (taskGa_wf _ _ _ _ _ _) fun _ => storeGa_wf _ _ _ _ _ _)

theorem stackEntry_wf (c : Core) (t : Task) (x : TaskRegs) (a : Nat) : ActWf (stackEntry c t x a) := by
  intro s h
  unfold stackEntry
  split
  · exact h
  · exact h
  · exact wf_ite_fst h (actWf_bind (loadVa_wf _ _ _ _ _) (fun _ => actWf_pure _) s h)

theorem takeTop_wf (c : Core) (t : Task) (x : TaskRegs) (k : Nat) : ActWf (takeTop c t x k) :=
  actWf_bind (actWf_collect _ _ fun _ => stackEntry_wf _ _ _ _) fun _ => actWf_pure _

theorem spillEntry_wf (c : Core) (t : Task) (ctx : Nat) (e : StackEntry) : ActWf (spillEntry c t ctx e) := by
  intro s h
  unfold spillEntry
  refine wf_ite_fst ?_ (actWf_bind (taskGa_wf _ _ _ _ _ _) (fun _ => storeGa_wf _ _ _ _ _ _) s h)
  rw [State.setCore_mem]; exact h

theorem pushOut_wf (c : Core) (t : Task) (x : TaskRegs) (vs : List Word) : ActWf (pushOut c t x vs) := by
  intro s h
  unfold pushOut
  exact wf_ite_fst h (actWf_bind (actWf_forEach _ _ fun _ => spillEntry_wf _ _ _ _) (fun _ => actWf_pure _) s h)

theorem stackOp_wf (c : Core) (t : Task) (k : Nat) (f : List Word → Go (List Word)) (x : TaskRegs) : ActWf (stackOp c t k f x) := by
  refine actWf_bind (takeTop_wf _ _ _ _) fun p s h => ?_
  split
  · exact pushOut_wf _ _ _ _ _ h
  · exact h
  · exact h

@[simp] theorem State.drainSpill_wf (s : State) (c : Core) (t : Task) (h : memWf s.mem = true) : memWf (s.drainSpill c t).mem = true := by
  unfold State.drainSpill
  extract_lets x
  split
  · exact h
  · next e rest _ =>
    extract_lets a b
    refine wf_ite ?_ ?_
    · rw [State.setTask_mem, State.setCore_mem]; exact h
    · have ht := actWf_bind (taskGa_wf c.val t.val e.space x.ctx .write e.addr)
        (fun ga => storeGa_wf c t e.space e.addr ga (leBytes 8 e.v.toNat))
        (s.setTask c.val t.val { s.task c.val t.val with spills := [] }) (by rw [State.setTask_mem]; exact h)
      dsimp only
      split
      · next he => rw [State.setTask_mem]; exact wf_of_pair he ht
      · next he => rw [State.setTask_mem]; exact wf_of_pair he ht
      · exact h

@[simp] theorem State.drainSpills_wf (s : State) (c : Core) (t : Task) (h : memWf s.mem = true) : memWf (s.drainSpills c t).mem = true :=
  foldl_wf _ (fun _ _ hu => State.drainSpill_wf _ _ _ hu) _ _ h

@[simp] theorem State.beginInterval_mem (s : State) (c : Nat) : (s.beginInterval c).mem = s.mem := by
  unfold State.beginInterval
  split
  · rfl
  · rfl

@[simp] theorem State.raise_wf (s : State) (c : Core) (t : Task) (tr : Trap) (h : memWf s.mem = true) : memWf (s.raise c t tr).mem = true := by
  unfold State.raise
  extract_lets u x
  have hu : memWf u.mem = true := wf_ite (State.endLock_wf _ _ _ h) h
  rw [State.rbufClear_mem, State.setTask_mem]
  exact hu

@[simp] theorem State.commit_mem (s : State) (boot : Nat) (c : Core) (t : Task) (x y : TaskRegs) : (s.commit boot c t x y).mem = s.mem := by
  unfold State.commit
  extract_lets z w u
  have hu : u.mem = s.mem := (State.rbufClear_mem _ _).trans (State.setTask_mem _ _ _ _)
  rw [State.mem_ite]
  split
  · rfl
  · rw [State.mem_ite]
    exact ite_eq_iff.mpr (by simp [hu])

theorem State.insn_wf (s : State) (g : Issue) (f : Form) (body : Nat → TaskRegs → Act TaskRegs) (hb : ∀ a x, ActWf (body a x))
    (h : memWf s.mem = true) : memWf (s.insn g f body).mem = true := by
  unfold State.insn
  extract_lets u x y
  have hu : memWf u.mem = true := State.drainSpills_wf _ _ _ (by rw [State.beginInterval_mem]; exact h)
  have hc : ∀ v b z, memWf v.mem = true → memWf (State.commit v b g.c g.t x z).mem = true := fun v b z hv => by
    rw [State.commit_mem]; exact hv
  refine wf_ite h (wf_ite (State.raise_wf _ _ _ _ hu) (wf_ite (hc _ _ _ hu) (wf_ite (State.raise_wf _ _ _ _ hu) (wf_ite hu ?_))))
  split
  next v r he =>
  have hv : memWf v.mem = true := by
    split at he
    · exact wf_of_pair he hu
    · exact wf_of_pair he (hb _ _ _ hu)
  split
  · exact wf_ite (State.raise_wf _ _ _ _ hu) (State.raise_wf _ _ _ _ hv)
  · exact wf_ite (State.raise_wf _ _ _ _ hu) (hc _ _ _ hv)
  · exact wf_ite (State.raise_wf _ _ _ _ hu) hv

theorem canonical_insn {s : State} {g : Issue} {f : Form} {body : Nat → TaskRegs → Act TaskRegs} (hb : ∀ a x, ActWf (body a x))
    (h : memWf s.mem = true) : Canonical (.next (s.insn g f body)) := (canonical_next _).mpr (State.insn_wf _ _ _ _ hb h)

@[simp] theorem State.plainInsn_wf (s : State) (g : Issue) (len k n : Nat) (f : List Word → Go (List Word)) (h : memWf s.mem = true) :
    memWf (s.plainInsn g len k n f).mem = true := State.insn_wf _ _ _ _ (fun _ _ => stackOp_wf _ _ _ _ _) h

end Sys2Proof.Machine
end

section
/-! PROOF. What the operations of `Machine.Flags` leave of storage: the same storage (`…_mem`), or one in canonical form (`…_wf`). -/
namespace Sys2Proof.Machine
open Reg

@[simp] theorem State.compareInsn_wf (s : State) (g : Issue) (b2 : Byte) (cond : Word → Word → Bool × Nat) (h : memWf s.mem = true) :
    memWf (s.compareInsn g b2 cond).mem = true :=
  State.insn_wf _ _ _ _ (fun _ _ => actWf_bind (takeTop_wf _ _ _ _) fun _ => actWf_pure _) h

@[simp] theorem State.fpInsn_wf (s : State) (g : Issue) (k : Nat) (f : RMode → List Nat → Nat × Nat) (h : memWf s.mem = true) :
    memWf (s.fpInsn g k f).mem = true :=
  State.insn_wf _ _ _ _ (fun _ _ => actWf_bind (takeTop_wf _ _ _ _) fun _ => actWf_bind (pushOut_wf _ _ _ _) fun _ => actWf_pure _) h

end Sys2Proof.Machine
end

section
/-! PROOF. What the operations of `Machine.SundopStack` leave of storage: the same storage (`…_mem`), or one in canonical form (`…_wf`). -/
namespace Sys2Proof.Machine
open Reg

@[simp] theorem execSundopNop_wf (g : Issue) (s : State) (h : memWf s.mem = true) : Canonical (execSundopNop g s) := by simp [execSundopNop, h]

@[simp] theorem execWait_wf (g : Issue) (s : State) (h : memWf s.mem = true) : Canonical (execWait g s) :=
  canonical_insn (fun _ _ => actWf_pure _) h

@[simp] theorem execSync_wf (g : Issue) (s : State) (h : memWf s.mem = true) : Canonical (execSync g s) :=
  canonical_insn (fun _ _ _ h => wf_ite_fst h h) h

@[simp] theorem execIflush_wf (g : Issue) (s : State) (h : memWf s.mem = true) : Canonical (execIflush g s) :=
  canonical_insn (fun _ _ _ h => wf_ite_fst (by rw [State.setCore_mem]; exact h) h) h

@[simp] theorem execFbar_wf (g : Issue) (s : State) (h : memWf s.mem = true) : Canonical (execFbar g s) :=
  canonical_insn (fun _ _ _ h => wf_ite_fst h h) h

@[simp] theorem execDup_wf (g : Issue) (s : State) (h : memWf s.mem = true) : Canonical (execDup g s) := by simp [execDup, h]

@[simp] theorem execDrop_wf (g : Issue) (s : State) (h : memWf s.mem = true) : Canonical (execDrop g s) := by simp [execDrop, h]

@[simp] theorem execSwap_wf (g : Issue) (s : State) (h : memWf s.mem = true) : Canonical (execSwap g s) := by simp [execSwap, h]

@[simp] theorem execOver_wf (g : Issue) (s : State) (h : memWf s.mem = true) : Canonical (execOver g s) := by simp [execOver, h]

@[simp] theorem execRot_wf (g : Issue) (s : State) (h : memWf s.mem = true) : Canonical (execRot g s) := by simp [execRot, h]

@[simp] theorem execPick_wf (g : Issue) (s : State) (h : memWf s.mem = true) : Canonical (execPick g s) :=
  canonical_insn (fun _ _ => actWf_bind (takeTop_wf _ _ _ _) fun _ => actWf_ite (actWf_trap _) (actWf_bind (stackEntry_wf _ _ _ _) fun _ => pushOut_wf _ _ _ _)) h

@[simp] theorem execDepth_wf (g : Issue) (s : State) (h : memWf s.mem = true) : Canonical (execDepth g s) :=
  canonical_insn (fun _ _ => pushOut_wf _ _ _ _) h

@[simp] theorem execPush_wf (g : Issue) (sz : Fin 4) (imm : Word) (s : State) (h : memWf s.mem = true) : Canonical (execPush g sz imm s) := by simp [execPush, h]

@[simp] theorem execSetsrc_wf (g : Issue) (s : State) (h : memWf s.mem = true) : Canonical (execSetsrc g s) :=
  canonical_insn (fun _ _ => actWf_bind (takeTop_wf _ _ _ _) fun _ => actWf_pure _) h

@[simp] theorem execSetdst_wf (g : Issue) (s : State) (h : memWf s.mem = true) : Canonical (execSetdst g s) :=
  canonical_insn (fun _ _ => actWf_bind (takeTop_wf _ _ _ _) fun _ => actWf_pure _) h

@[simp] theorem execSetcnt_wf (g : Issue) (s : State) (h : memWf s.mem = true) : Canonical (execSetcnt g s) :=
  canonical_insn (fun _ _ => actWf_bind (takeTop_wf _ _ _ _) fun _ => actWf_pure _) h

@[simp] theorem execGetsrc_wf (g : Issue) (s : State) (h : memWf s.mem = true) : Canonical (execGetsrc g s) :=
  canonical_insn (fun _ _ => pushOut_wf _ _ _ _) h

@[simp] theorem execGetdst_wf (g : Issue) (s : State) (h : memWf s.mem = true) : Canonical (execGetdst g s) :=
  canonical_insn (fun _ _ => pushOut_wf _ _ _ _) h

@[simp] theorem execGetcnt_wf (g : Issue) (s : State) (h : memWf s.mem = true) : Canonical (execGetcnt g s) :=
  canonical_insn (fun _ _ => pushOut_wf _ _ _ _) h

end Sys2Proof.Machine
end

section
/-! PROOF. What the operations of `Machine.SundopAlu` leave of storage: the same storage (`…_mem`), or one in canonical form (`…_wf`). -/
namespace Sys2Proof.Machine
open Reg

@[simp] theorem State.binary_wf (s : State) (g : Issue) (f : Word → Word → Go Word) (h : memWf s.mem = true) : memWf (s.binary g f).mem = true := by simp [State.binary, h]

@[simp] theorem State.unary_wf (s : State) (g : Issue) (f : Word → Word) (h : memWf s.mem = true) : memWf (s.unary g f).mem = true := by simp [State.unary, h]

@[simp] theorem execAdd_wf (g : Issue) (s : State) (h : memWf s.mem = true) : Canonical (execAdd g s) := by simp [execAdd, h]

@[simp] theorem execSub_wf (g : Issue) (s : State) (h : memWf s.mem = true) : Canonical (execSub g s) := by simp [execSub, h]

@[simp] theorem execMul_wf (g : Issue) (s : State) (h : memWf s.mem = true) : Canonical (execMul g s) := by simp [execMul, h]

@[simp] theorem execMulh_wf (g : Issue) (s : State) (h : memWf s.mem = true) : Canonical (execMulh g s) := by simp [execMulh, h]

@[simp] theorem execMulhu_wf (g : Issue) (s : State) (h : memWf s.mem = true) : Canonical (execMulhu g s) := by simp [execMulhu, h]

@[simp] theorem execDiv_wf (g : Issue) (s : State) (h : memWf s.mem = true) : Canonical (execDiv g s) := by simp [execDiv, h]

@[simp] theorem execDivu_wf (g : Issue) (s : State) (h : memWf s.mem = true) : Canonical (execDivu g s) := by simp [execDivu, h]

@[simp] theorem execRem_wf (g : Issue) (s : State) (h : memWf s.mem = true) : Canonical (execRem g s) := by simp [execRem, h]

@[simp] theorem execRemu_wf (g : Issue) (s : State) (h : memWf s.mem = true) : Canonical (execRemu g s) := by simp [execRemu, h]

@[simp] theorem execNeg_wf (g : Issue) (s : State) (h : memWf s.mem = true) : Canonical (execNeg g s) := by simp [execNeg, h]

@[simp] theorem execAnd_wf (g : Issue) (s : State) (h : memWf s.mem = true) : Canonical (execAnd g s) := by simp [execAnd, h]

@[simp] theorem execOr_wf (g : Issue) (s : State) (h : memWf s.mem = true) : Canonical (execOr g s) := by simp [execOr, h]

@[simp] theorem execXor_wf (g : Issue) (s : State) (h : memWf s.mem = true) : Canonical (execXor g s) := by simp [execXor, h]

@[simp] theorem execNot_wf (g : Issue) (s : State) (h : memWf s.mem = true) : Canonical (execNot g s) := by simp [execNot, h]

@[simp] theorem execShl_wf (g : Issue) (s : State) (h : memWf s.mem = true) : Canonical (execShl g s) := by simp [execShl, h]

@[simp] theorem execShr_wf (g : Issue) (s : State) (h : memWf s.mem = true) : Canonical (execShr g s) := by simp [execShr, h]

@[simp] theorem execSar_wf (g : Issue) (s : State) (h : memWf s.mem = true) : Canonical (execSar g s) := by simp [execSar, h]

@[simp] theorem execSext_wf (g : Issue) (sz : Fin 3) (s : State) (h : memWf s.mem = true) : Canonical (execSext g sz s) := by simp [execSext, h]

@[simp] theorem execIcmp_wf (g : Issue) (b2 : Byte) (s : State) (h : memWf s.mem = true) : Canonical (execIcmp g b2 s) := by simp [execIcmp, h]

@[simp] theorem execUcmp_wf (g : Issue) (b2 : Byte) (s : State) (h : memWf s.mem = true) : Canonical (execUcmp g b2 s) := by simp [execUcmp, h]

@[simp] theorem execFcmp_wf (g : Issue) (b2 : Byte) (s : State) (h : memWf s.mem = true) : Canonical (execFcmp g b2 s) := by simp [execFcmp, h]

@[simp] theorem execDcmp_wf (g : Issue) (b2 : Byte) (s : State) (h : memWf s.mem = true) : Canonical (execDcmp g b2 s) := by
  refine canonical_insn (fun _ _ => actWf_bind (takeTop_wf _ _ _ _) fun _ => ?_) h
  split
  · exact actWf_pure _
  · exact actWf_trap _

@[simp] theorem execTest_wf (g : Issue) (b2 : Byte) (s : State) (h : memWf s.mem = true) : Canonical (execTest g b2 s) :=
  canonical_insn (fun _ _ => actWf_bind (takeTop_wf _ _ _ _) fun _ => actWf_pure _) h

@[simp] theorem execPget_wf (g : Issue) (s : State) (h : memWf s.mem = true) : Canonical (execPget g s) :=
  canonical_insn (fun _ _ => pushOut_wf _ _ _ _) h

@[simp] theorem execPset_wf (g : Issue) (s : State) (h : memWf s.mem = true) : Canonical (execPset g s) :=
  canonical_insn (fun _ _ => actWf_bind (takeTop_wf _ _ _ _) fun _ => actWf_pure _) h

@[simp] theorem execBr8_wf (g : Issue) (disp : Byte) (s : State) (h : memWf s.mem = true) : Canonical (execBr8 g disp s) :=
  canonical_insn (fun _ _ => actWf_pure _) h

@[simp] theorem execBr32_wf (g : Issue) (disp : BitVec 32) (s : State) (h : memWf s.mem = true) : Canonical (execBr32 g disp s) :=
  canonical_insn (fun _ _ => actWf_pure _) h

@[simp] theorem execCall_wf (g : Issue) (disp : BitVec 32) (s : State) (h : memWf s.mem = true) : Canonical (execCall g disp s) :=
  canonical_insn (fun _ _ => pushOut_wf _ _ _ _) h

@[simp] theorem execRet_wf (g : Issue) (s : State) (h : memWf s.mem = true) : Canonical (execRet g s) :=
  canonical_insn (fun _ _ => actWf_bind (takeTop_wf _ _ _ _) fun _ => actWf_pure _) h

@[simp] theorem execJmpi_wf (g : Issue) (s : State) (h : memWf s.mem = true) : Canonical (execJmpi g s) :=
  canonical_insn (fun _ _ => actWf_bind (takeTop_wf _ _ _ _) fun _ => actWf_pure _) h

@[simp] theorem execCalli_wf (g : Issue) (s : State) (h : memWf s.mem = true) : Canonical (execCalli g s) :=
  canonical_insn (fun _ _ => actWf_bind (takeTop_wf _ _ _ _) fun _ => pushOut_wf _ _ _ _) h

end Sys2Proof.Machine
end

section
/-! PROOF. What the operations of `Machine.SundopFp` leave of storage: the same storage (`…_mem`), or one in canonical form (`…_wf`). -/
namespace Sys2Proof.Machine
open Reg

@[simp] theorem execFadd_wf (g : Issue) (s : State) (h : memWf s.mem = true) : Canonical (execFadd g s) := by simp [execFadd, h]

@[simp] theorem execFsub_wf (g : Issue) (s : State) (h : memWf s.mem = true) : Canonical (execFsub g s) := by simp [execFsub, h]

@[simp] theorem execFmul_wf (g : Issue) (s : State) (h : memWf s.mem = true) : Canonical (execFmul g s) := by simp [execFmul, h]

@[simp] theorem execFdiv_wf (g : Issue) (s : State) (h : memWf s.mem = true) : Canonical (execFdiv g s) := by simp [execFdiv, h]

@[simp] theorem execFsqrt_wf (g : Issue) (s : State) (h : memWf s.mem = true) : Canonical (execFsqrt g s) := by simp [execFsqrt, h]

@[simp] theorem execFma_wf (g : Issue) (s : State) (h : memWf s.mem = true) : Canonical (execFma g s) := by simp [execFma, h]

@[simp] theorem execFmin_wf (g : Issue) (s : State) (h : memWf s.mem = true) : Canonical (execFmin g s) := by simp [execFmin, h]

@[simp] theorem execFmax_wf (g : Issue) (s : State) (h : memWf s.mem = true) : Canonical (execFmax g s) := by simp [execFmax, h]

@[simp] theorem execFrint_wf (g : Issue) (s : State) (h : memWf s.mem = true) : Canonical (execFrint g s) := by simp [execFrint, h]

@[simp] theorem execCvtif_wf (g : Issue) (s : State) (h : memWf s.mem = true) : Canonical (execCvtif g s) := by simp [execCvtif, h]

@[simp] theorem execCvtfi_wf (g : Issue) (s : State) (h : memWf s.mem = true) : Canonical (execCvtfi g s) := by simp [execCvtfi, h]

@[simp] theorem execCvtsd_wf (g : Issue) (s : State) (h : memWf s.mem = true) : Canonical (execCvtsd g s) := by simp [execCvtsd, h]

@[simp] theorem execCvtds_wf (g : Issue) (s : State) (h : memWf s.mem = true) : Canonical (execCvtds g s) := by simp [execCvtds, h]

@[simp] theorem execFpget_wf (g : Issue) (s : State) (h : memWf s.mem = true) : Canonical (execFpget g s) :=
  canonical_insn (fun _ _ => pushOut_wf _ _ _ _) h

@[simp] theorem execFpset_wf (g : Issue) (s : State) (h : memWf s.mem = true) : Canonical (execFpset g s) :=
  canonical_insn (fun _ _ => actWf_bind (takeTop_wf _ _ _ _) fun _ => actWf_ite (actWf_trap _) (actWf_pure _)) h

@[simp] theorem State.decInsn_wf (s : State) (g : Issue) (f : Int → Int → Int) (h : memWf s.mem = true) : memWf (s.decInsn g f).mem = true := by
  refine State.insn_wf _ _ _ _ (fun _ _ => actWf_bind (takeTop_wf _ _ _ _) fun _ => ?_) h
  split
  · exact actWf_bind (pushOut_wf _ _ _ _) fun _ => actWf_pure _
  · exact actWf_trap _

@[simp] theorem execDadd_wf (g : Issue) (s : State) (h : memWf s.mem = true) : Canonical (execDadd g s) := by simp [execDadd, h]

@[simp] theorem execDsub_wf (g : Issue) (s : State) (h : memWf s.mem = true) : Canonical (execDsub g s) := by simp [execDsub, h]

end Sys2Proof.Machine
end

section
/-! PROOF. What the operations of `Machine.SundopMem` leave of storage: the same storage (`…_mem`), or one in canonical form (`…_wf`). -/
namespace Sys2Proof.Machine
open Reg

theorem lockedLoad_wf (g : Issue) (at' : Nat) (x y : TaskRegs) (va len : Nat) : ActWf (lockedLoad g at' x y va len) := by
  refine actWf_ite (actWf_trap _) (actWf_bind (taskGa_wf _ _ _ _ _ _) fun ga s h => ?_)
  refine wf_ite_fst h (wf_ite_fst h (actWf_bind (loadGa_wf _ _ _ _ _ _) (fun bs s h => ?_) s h))
  simpa only [State.wr_mem] using h

theorem closingStore_wf (g : Issue) (x : TaskRegs) (q : LockSeq) (va : Nat) (bs : List Byte) : ActWf (closingStore g x q va bs) := by
  refine actWf_bind (taskGa_wf _ _ _ _ _ _) fun ga s h => ?_
  refine wf_ite_fst h (actWf_bind (storeCheck_wf _ _ _ _ _ _) (fun _ s h => ?_) s h)
  refine wf_ite_fst (wf_ite_fst h ?_) ?_
  · have hp : memWf (s.putStore g.c.val { task := g.t.val, ga := ga, size := bs.length, v := leNat bs }).mem = true := by
      rw [State.putStore_mem]; exact h
    exact hp
  · refine actWf_bind (writeTaskReg_wf _ _ _ _ _ _) (fun _ => actWf_bind (actWf_modify _ fun s t ht h => ?_) fun _ => actWf_pure _) _ ?_
    · subst ht; exact State.endLock_wf _ _ _ h
    · rw [State.setTask_mem]; exact h

theorem State.loadInsn_wf (s : State) (g : Issue) (len : Nat) (lckOk : Bool) (ext : Nat → Word) (h : memWf s.mem = true) :
    memWf (s.loadInsn g len lckOk ext).mem = true := by
  refine State.insn_wf _ _ _ _ (fun _ _ => actWf_bind (takeTop_wf _ _ _ _) fun _ => ?_) h
  exact actWf_ite (actWf_bind (lockedLoad_wf _ _ _ _ _ _) fun _ => pushOut_wf _ _ _ _)
    (actWf_bind (loadVa_wf _ _ _ _ _) fun _ => pushOut_wf _ _ _ _)

@[simp] theorem execLd_wf (g : Issue) (sz : Fin 4) (s : State) (h : memWf s.mem = true) : Canonical (execLd g sz s) :=
  (canonical_next _).mpr (State.loadInsn_wf _ _ _ _ _ h)

@[simp] theorem execLds_wf (g : Issue) (sz : Fin 3) (s : State) (h : memWf s.mem = true) : Canonical (execLds g sz s) :=
  (canonical_next _).mpr (State.loadInsn_wf _ _ _ _ _ h)

@[simp] theorem execSt_wf (g : Issue) (sz : Fin 4) (s : State) (h : memWf s.mem = true) : Canonical (execSt g sz s) := by
  refine canonical_insn (fun _ _ => actWf_bind (takeTop_wf _ _ _ _) fun _ => actWf_ite (actWf_trap _) ?_) h
  split
  · exact closingStore_wf _ _ _ _ _
  · exact actWf_ite (actWf_trap _) (actWf_bind (storeVa_wf _ _ _ _ _) fun _ => actWf_pure _)

theorem taskAtom_wf (c : Core) (t : Task) (ring va ga op v n : Nat) : ActWf (taskAtom c t ring va ga op v n) := by
  intro s h
  refine wf_ite_fst ?_ (wf_ite_fst ?_ (wf_ite_fst h (wf_ite_fst ?_ ?_)))
  · rw [State.refuse_mem]; exact h
  · refine actWf_bind (storeCheck_wf _ _ _ _ _ _) (fun _ => actWf_bind (loadGa_wf _ _ _ _ _ _) fun _ s h => ?_) s h
    refine wf_ite_fst h (wf_ite_fst h ?_)
    rw [State.putStore_mem]; exact h
  · rw [← State.askRemote_mem s (agentTask c.val t.val) ga (8192 + op) (atomMsg ga op v n)] at h
    split
    · next he => exact wf_of_pair he h
    · next he =>
      have hu := wf_of_pair he h
      split
      · exact hu
      · exact hu
      · exact hu
  · have hl := State.localAtom_wf s (taskBy c.val t.val (.store ring)) (gaOff ga) op v n h
    split
    · next he => exact wf_of_pair he hl
    · next he => exact wf_of_pair he hl
    · next he => exact wf_of_pair he hl
    · next he => exact wf_of_pair he hl

@[simp] theorem State.atomInsn_wf (s : State) (g : Issue) (k op : Nat) (h : memWf s.mem = true) : memWf (s.atomInsn g k op).mem = true := by
  refine State.insn_wf _ _ _ _ (fun _ _ => actWf_bind (takeTop_wf _ _ _ _) fun _ => actWf_ite (actWf_trap _) ?_) h
  exact actWf_bind (taskGa_wf _ _ _ _ _ _) fun _ => actWf_bind (taskAtom_wf _ _ _ _ _ _ _ _) fun _ => pushOut_wf _ _ _ _

@[simp] theorem execXadd_wf (g : Issue) (s : State) (h : memWf s.mem = true) : Canonical (execXadd g s) := by simp [execXadd, h]

@[simp] theorem execXchg_wf (g : Issue) (s : State) (h : memWf s.mem = true) : Canonical (execXchg g s) := by simp [execXchg, h]

@[simp] theorem execCas_wf (g : Issue) (s : State) (h : memWf s.mem = true) : Canonical (execCas g s) := by simp [execCas, h]

theorem strRun_wf (step : TaskRegs → Act (TaskRegs × Bool)) (hstep : ∀ x, ActWf (step x)) (first : Bool) (n : Nat) (x : TaskRegs) (s : State)
    (h : memWf s.mem = true) : memWf (strRun step first n x s).1.mem = true := by
  induction n generalizing first x s with
  | zero => exact h
  | succ n ih =>
    have hs := hstep x s h
    unfold strRun
    split
    · next he => exact wf_ite_fst (wf_of_pair he hs) (ih _ _ _ (wf_of_pair he hs))
    · next he => exact wf_of_pair he hs
    · next he => exact wf_ite (wf_of_pair he hs) h

theorem strBody_wf (g : Issue) (limit : Option Nat) (at' : Nat) (x : TaskRegs) (step : TaskRegs → Act (TaskRegs × Bool))
    (fin : TaskRegs → Bool → TaskRegs) (hstep : ∀ x, ActWf (step x)) : ActWf (strBody g limit at' x step fin) := by
  intro s h
  unfold strBody
  extract_lets total n each
  have he : ∀ y, ActWf (each y) := fun y => actWf_bind (hstep y) fun _ => actWf_bind
    (actWf_modify _ fun s t ht h => by subst ht; rw [State.rbufClear_mem]; exact h) fun _ => actWf_pure _
  have hr := strRun_wf each he true n x s h
  split
  · next hp => exact wf_ite_fst (wf_of_pair hp hr) (wf_of_pair hp hr)
  · next hp => exact wf_ite_fst (wf_of_pair hp hr) (wf_of_pair hp hr)
  · next hp => exact wf_ite_fst (wf_of_pair hp hr) (wf_of_pair hp hr)

theorem strStore_wf (g : Issue) (x : TaskRegs) (va : Nat) (bs : List Byte) : ActWf (strStore g x va bs) :=
  actWf_ite (actWf_trap _) (actWf_bind (taskGa_wf _ _ _ _ _ _) fun _ => storeNow_wf _ _ _ _ _ _)

theorem keepTop_wf (g : Issue) (x : TaskRegs) : ActWf (keepTop g x) :=
  actWf_bind (takeTop_wf _ _ _ _) fun _ => actWf_bind (pushOut_wf _ _ _ _) fun _ => actWf_pure _

@[simp] theorem execMovs_wf (g : Issue) (b2 : Byte) (limit : Option Nat) (s : State) (h : memWf s.mem = true) :
    Canonical (execMovs g b2 limit s) :=
  canonical_insn (fun _ _ => strBody_wf _ _ _ _ _ _ fun _ => actWf_bind (loadVa_wf _ _ _ _ _) fun _ =>
    actWf_bind (strStore_wf _ _ _ _) fun _ => actWf_pure _) h

@[simp] theorem execFills_wf (g : Issue) (b2 : Byte) (limit : Option Nat) (s : State) (h : memWf s.mem = true) :
    Canonical (execFills g b2 limit s) :=
  canonical_insn (fun _ _ => actWf_bind (keepTop_wf _ _) fun _ => strBody_wf _ _ _ _ _ _ fun _ =>
    actWf_bind (strStore_wf _ _ _ _) fun _ => actWf_pure _) h

@[simp] theorem execCmps_wf (g : Issue) (b2 : Byte) (limit : Option Nat) (s : State) (h : memWf s.mem = true) :
    Canonical (execCmps g b2 limit s) :=
  canonical_insn (fun _ _ => strBody_wf _ _ _ _ _ _ fun _ => actWf_bind (loadVa_wf _ _ _ _ _) fun _ =>
    actWf_bind (loadVa_wf _ _ _ _ _) fun _ => actWf_pure _) h

@[simp] theorem execScans_wf (g : Issue) (b2 : Byte) (limit : Option Nat) (s : State) (h : memWf s.mem = true) :
    Canonical (execScans g b2 limit s) :=
  canonical_insn (fun _ _ => actWf_bind (keepTop_wf _ _) fun _ => strBody_wf _ _ _ _ _ _ fun _ =>
    actWf_bind (loadVa_wf _ _ _ _ _) fun _ => actWf_pure _) h

@[simp] theorem State.storeFailed_mem (s : State) (c : Nat) (e : StoreEntry) (status : Nat) : (s.storeFailed c e status).mem = s.mem :=
  State.setTask_mem _ _ _ _

theorem performWrite_wf (s : State) (w : RegWrite) (o b : Nat) (h : memWf s.mem = true) :
    memWf (let u := (s.writeReg w o).mxcDrain
      if u.on (MXC_LOCK_HELD 0) && u.rd (MXC_LOCK_OFFSET 0) == b then (u.unlock 0).mxcDrain else u).mem = true := by
  have hu := State.mxcDrain_wf _ (State.writeReg_wf s w o h)
  exact wf_ite (State.mxcDrain_wf _ (by rw [State.unlock_mem]; exact hu)) hu

@[simp] theorem State.performAct_wf (s : State) (e : StoreEntry) (h : memWf s.mem = true) : memWf (s.performAct e).mem = true := by
  unfold State.performAct
  refine wf_ite (performWrite_wf s _ _ _ h) (wf_ite ?_ ?_)
  · rw [State.flashWrite_mem, State.flashTouch_mem]; exact h
  · rw [State.storeFailed_mem, State.refuse_mem]; exact h

@[simp] theorem State.releaseStore_wf (s : State) (c : Nat) (e : StoreEntry) (h : memWf s.mem = true) : memWf (s.releaseStore c e).mem = true := by
  unfold State.releaseStore
  extract_lets gone sent
  have hg : ∀ u, memWf u.mem = true → memWf (gone u).mem = true := fun u hu => by rw [State.setCore_mem]; exact hu
  have hs : ∀ u, memWf u.mem = true → memWf (sent u).mem = true := fun u hu => by rw [State.setCore_mem]; exact hu
  refine wf_ite (wf_ite h (State.performAct_wf _ _ (hg _ h))) (wf_ite ?_ ?_)
  · split
    · next hp => exact hs _ ((State.post_mem _ _ _ _ hp).symm ▸ h)
    · exact h
  · split
    · next hb =>
      rw [State.storeFailed_mem]
      exact hg _ ((State.block_mem _ _ _ _ _ hb).symm ▸ h)
    · exact State.postLocal_wf _ _ _ _ _ (hs _ h)

@[simp] theorem execStoreBufferRelease_wf (c : Core) (s : State) (h : memWf s.mem = true) : Canonical (execStoreBufferRelease c s) := by
  unfold execStoreBufferRelease
  rw [canonical_next]
  dsimp only
  have hf : memWf s.fresh.2.mem = true := h
  generalize s.fresh = p at hf
  split
  · exact h
  · split
    · exact hf
    · exact foldl_wf _ (fun _ _ hv => State.drainSpills_wf _ _ _ hv) _ _ (State.releaseStore_wf _ _ _ hf)

end Sys2Proof.Machine
end

section
/-! PROOF. What the operations of `Machine.SundopChain` leave of storage: the same storage (`…_mem`), or one in canonical form (`…_wf`). -/
namespace Sys2Proof.Machine
open Reg

@[simp] theorem State.addTaskChain_mem (s : State) (c t ring : Nat) (d : List Nat) : (s.addTaskChain c t ring d).mem = s.mem := by
  unfold State.addTaskChain
  extract_lets failed x add ended
  have ha : ∀ y, (add y).mem = s.mem := fun y => rfl
  split
  · exact mem_ite_eq (ha _) (ha _)
  · exact mem_ite_eq (ha _) (mem_ite_eq (ha _) (mem_ite_eq ((State.denyChain_mem _ _).trans (ha x)) ((State.requestLift_mem _ _).trans (ha x))))

@[simp] theorem execChainInstruction_wf (g : Issue) (s : State) (h : memWf s.mem = true) : Canonical (execChainInstruction g s) := by
  refine canonical_insn (fun _ x => actWf_bind (takeTop_wf _ _ _ _) fun p => actWf_ite (actWf_trap _) fun s h => ?_) h
  refine wf_ite_fst h (actWf_bind (loadLines_wf _ _ _ _ _) (fun bs => actWf_bind (actWf_modify _ fun u t ht hu => ?_) fun _ => actWf_pure _) s h)
  subst ht
  rw [State.addTaskChain_mem]; exact hu

@[simp] theorem execCwait_wf (g : Issue) (s : State) (h : memWf s.mem = true) : Canonical (execCwait g s) := by
  refine canonical_insn (fun _ x s h => ?_) h
  split
  · exact pushOut_wf _ _ _ _ _ h
  · exact wf_ite_fst h (actWf_bind (pushOut_wf _ _ _ _)
      (fun _ => actWf_bind (actWf_modify _ fun u t ht hu => by subst ht; exact hu) fun _ => actWf_pure _) s h)

@[simp] theorem execLoft_wf (g : Issue) (s : State) (h : memWf s.mem = true) : Canonical (execLoft g s) := by
  refine canonical_insn (fun _ x => actWf_bind (takeTop_wf _ _ _ _) fun p => actWf_ite (actWf_trap _)
    (actWf_bind (takeTop_wf _ _ _ _) fun q s h => wf_ite_fst h ?_)) h
  rw [State.setSvu_mem]; exact h

theorem State.saveInsn_wf (s : State) (g : Issue) (f : TaskRegs → Nat → Nat → TaskRegs → Act Nat) (hf : ∀ x a u y, ActWf (f x a u y))
    (h : memWf s.mem = true) : memWf (s.saveInsn g f).mem = true := by
  refine State.insn_wf _ _ _ _ (fun _ x => actWf_bind (takeTop_wf _ _ _ _) fun p s h => wf_ite_fst h ?_) h
  split
  · exact h
  · exact actWf_bind (hf _ _ _ _) (fun _ => pushOut_wf _ _ _ _) s h

theorem spillFull_wf (c : Core) (t : Task) (u : Nat) (y : TaskRegs) : ActWf (spillFull c t u y) := by
  unfold spillFull
  split
  · refine actWf_ite (actWf_pure _) (actWf_bind (spillEntry_wf _ _ _ _) fun _ s h => ?_)
    dsimp only
    rw [State.setTask_mem]; exact h
  · exact actWf_pure _

theorem storeHalf_wf (c : Core) (t : Task) (x : TaskRegs) (a : Nat) (w : Nat → Nat) : ActWf (storeHalf c t x a w) :=
  actWf_bind (loadVa_wf _ _ _ _ _) fun _ =>
    actWf_bind (actWf_collect _ _ fun _ => actWf_bind (taskGa_wf _ _ _ _ _ _) fun _ =>
      actWf_bind (storeCheck_wf _ _ _ _ _ _) fun _ => actWf_pure _) fun _ =>
    actWf_bind (actWf_forEach _ _ fun _ => storeNow_wf _ _ _ _ _ _) fun _ => actWf_pure _

@[simp] theorem execSavel_wf (g : Issue) (s : State) (h : memWf s.mem = true) : Canonical (execSavel g s) :=
  (canonical_next _).mpr (State.saveInsn_wf _ _ _ (fun _ _ _ _ => actWf_bind (spillFull_wf _ _ _ _) fun _ => storeHalf_wf _ _ _ _ _) h)

@[simp] theorem execSaveu_wf (g : Issue) (s : State) (h : memWf s.mem = true) : Canonical (execSaveu g s) :=
  (canonical_next _).mpr (State.saveInsn_wf _ _ _ (fun _ _ _ _ => actWf_bind (spillFull_wf _ _ _ _) fun _ => storeHalf_wf _ _ _ _ _) h)

@[simp] theorem execRestl_wf (g : Issue) (s : State) (h : memWf s.mem = true) : Canonical (execRestl g s) := by
  refine (canonical_next _).mpr (State.saveInsn_wf _ _ _ (fun _ _ _ _ => actWf_bind (loadLines_wf _ _ _ _ _) fun bs s h => ?_) h)
  dsimp only
  rw [State.setTask_mem, State.freshN_mem]; exact h

@[simp] theorem execRestu_wf (g : Issue) (s : State) (h : memWf s.mem = true) : Canonical (execRestu g s) := by
  refine (canonical_next _).mpr (State.saveInsn_wf _ _ _ (fun _ _ _ _ => actWf_bind (loadLines_wf _ _ _ _ _) fun bs s h => ?_) h)
  dsimp only
  rw [State.setTask_mem]; exact h

end Sys2Proof.Machine
end

section
/-! PROOF. What the operations of `Machine.Handlers` leave of storage: the same storage (`…_mem`), or one in canonical form (`…_wf`). -/
namespace Sys2Proof.Machine
open Reg

@[simp] theorem State.putLine_mem (s : State) (c line : Nat) (bs : List Byte) : (s.putLine c line bs).mem = s.mem := by
  unfold State.putLine
  extract_lets ls
  split
  · exact State.setCore_mem _ _ _
  · split
    next he =>
    rw [State.setCore_mem]
    exact mem_of_pair_snd he

theorem fetchGa_wf (c t va ga : Nat) : ActWf (fetchGa c t va ga) := by
  intro s h
  unfold fetchGa
  refine wf_ite_fst ?_ (readLocal_wf _ _ _ _ _ h)
  rw [← State.askRemote_mem s (agentTask c t) ga 64 (readMsg ga 64)] at h
  split
  · next he => exact wf_of_pair he h
  · next he => exact wf_of_pair he h

@[simp] theorem execLineFetch_wf (c : Core) (t : Task) (s : State) (h : memWf s.mem = true) : Canonical (execLineFetch c t s) := by
  unfold execLineFetch
  rw [canonical_next]
  refine wf_ite h ?_
  extract_lets x fetch va here
  have hf : ∀ va u, memWf u.mem = true → memWf (fetch va u).mem = true := fun va u hu => by
    have hg := taskGa_wf c.val t.val x.ring x.ctx .fetch va u hu
    dsimp only [fetch]
    split
    · next he => exact State.raise_wf _ _ _ _ (wf_of_pair he hg)
    · next he => exact wf_of_pair he hg
    · next v ga he =>
      have hv := wf_of_pair he hg
      refine wf_ite hv ?_
      have hl := fetchGa_wf c.val t.val va ga v hv
      split
      · next he =>
        rw [State.rbufClear_mem, State.putLine_mem]
        exact wf_of_pair he hl
      · next he => exact State.raise_wf _ _ _ _ (wf_of_pair he hl)
      · next he => exact wf_of_pair he hl
  exact hf _ _ h

@[simp] theorem State.doubleFault_wf (s : State) (c : Core) (t : Task) (cause : Nat) (h : memWf s.mem = true) :
    memWf (s.doubleFault c t cause).mem = true := by
  unfold State.doubleFault
  extract_lets u x v w
  have hu : memWf u.mem = true := State.endLock_wf _ _ _ h
  have hv : memWf v.mem = true := wf_ite (by rw [State.wr_mem]; exact hu) hu
  rw [State.record_mem, State.rbufClear_mem, State.setTask_mem]
  exact hv

@[simp] theorem State.entryFault_wf (s : State) (c : Core) (t : Task) (due : Trap) (h : memWf s.mem = true) :
    memWf (s.entryFault c t due).mem = true :=
  wf_ite (State.doubleFault_wf _ _ _ _ h) (by rw [State.setTask_mem]; exact h)

@[simp] theorem State.enter_wf (s : State) (c : Core) (t : Task) (k : Nat) (tr : Trap) (cpl : Nat) (h : memWf s.mem = true) :
    memWf (s.enter c t k tr cpl).mem = true := by
  refine wf_ite (State.entryFault_wf _ _ _ _ h) (wf_ite (State.entryFault_wf _ _ _ _ h) (wf_ite (State.entryFault_wf _ _ _ _ h) ?_))
  refine State.drainSpills_wf _ _ _ ?_
  rw [State.setTask_mem]; exact h

@[simp] theorem execTrapEntry_wf (c : Core) (t : Task) (illegal : Option (List Byte)) (s : State) (h : memWf s.mem = true) :
    Canonical (execTrapEntry c t illegal s) := by
  unfold execTrapEntry
  extract_lets x
  rw [canonical_next]
  refine wf_ite h ?_
  split
  · exact h
  · refine wf_ite h ?_
    have hu := State.endLock_wf _ c.val t.val ((State.beginInterval_mem s c.val).symm ▸ h)
    have hv := fun i (d : Prop) [Decidable d] y => wf_ite (c := d) (a := ((s.beginInterval c.val).endLock c.val t.val).setTask c.val i y)
      (by rw [State.setTask_mem]; exact hu) hu
    exact wf_ite (State.doubleFault_wf _ _ _ _ (hv _ _ _)) (State.enter_wf _ _ _ _ _ _ (hv _ _ _))

@[simp] theorem execInterruptEntry_wf (c : Core) (t : Task) (s : State) (h : memWf s.mem = true) : Canonical (execInterruptEntry c t s) := by
  unfold execInterruptEntry
  extract_lets x
  rw [canonical_next]
  refine wf_ite h ?_
  split
  · exact h
  · have hu : memWf (((s.beginInterval c.val).leaveLock c.val t.val).rbufClear (agentTask c.val t.val)).mem = true := by
      rw [State.rbufClear_mem]
      exact State.leaveLock_wf _ _ _ (by rw [State.beginInterval_mem]; exact h)
    refine State.enter_wf _ _ _ _ _ _ ?_
    rw [State.setTask_mem]
    exact wf_ite hu hu

@[simp] theorem State.enterDrogue_wf (s : State) (c : Core) (t : Task) (due : Trap) (h : memWf s.mem = true) :
    memWf (s.enterDrogue c t due).mem = true := by
  unfold State.enterDrogue
  have hu := State.endLock_wf s c.val t.val h
  refine wf_ite (State.doubleFault_wf _ _ _ _ hu) (State.drainSpills_wf _ _ _ ?_)
  rw [State.record_mem, State.wr_mem, State.wr_mem, State.wr_mem, State.count_mem, State.setTask_mem]
  exact hu

@[simp] theorem execDrogueEntry_wf (c : Core) (s : State) (h : memWf s.mem = true) : Canonical (execDrogueEntry c s) := by
  unfold execDrogueEntry
  rw [canonical_next]
  split
  · exact h
  · split
    · exact h
    · exact State.enterDrogue_wf _ _ _ _ (by rw [State.beginInterval_mem]; exact h)

@[simp] theorem execEntrySpillFault_wf (c : Core) (t : Task) (s : State) (h : memWf s.mem = true) : Canonical (execEntrySpillFault c t s) := by
  unfold execEntrySpillFault
  extract_lets x
  rw [canonical_next]
  split
  · exact h
  · next e rest _ =>
    refine wf_ite h ?_
    have ht := actWf_bind (taskGa_wf c.val t.val e.space x.ctx .write e.addr) (fun ga => storeCheck_wf c t e.space e.addr ga 8) s h
    split
    · next he => exact State.entryFault_wf _ _ _ _ (by rw [State.setTask_mem]; exact wf_of_pair he ht)
    · next he => exact wf_of_pair he ht

theorem pageReach_wf (c t : Nat) (x : TaskRegs) (wr : Bool) (va : Nat) : ActWf (pageReach c t x wr va) := by
  intro s h
  unfold pageReach
  extract_lets served
  refine wf_ite_fst (wf_ite_fst h h) ?_
  have ht := taskGa_wf c t x.ring x.ctx (if wr then .atomic else .read) va s h
  split
  · next he => exact wf_ite_fst (wf_of_pair he ht) (wf_of_pair he ht)
  · next he => exact wf_of_pair he ht
  · next he => exact wf_of_pair he ht

theorem ptrReach_wf (c t : Nat) (x : TaskRegs) (wr : Bool) (va len : Nat) : ActWf (ptrReach c t x wr va len) :=
  actWf_ite (actWf_trap _) (actWf_ite (actWf_pure _) (actWf_forEach _ _ fun _ => pageReach_wf _ _ _ _ _))

theorem gateCall_wf (g : Issue) (n e0 e1 : Nat) (x : TaskRegs) : ActWf (gateCall g n e0 e1 x) :=
  actWf_ite (actWf_trap _) (actWf_bind (takeTop_wf _ _ _ _) fun _ => actWf_ite (actWf_trap _)
    (actWf_bind (actWf_forEach _ _ fun _ => actWf_ite (ptrReach_wf _ _ _ _ _ _) (actWf_pure _)) fun _ =>
      actWf_ite (actWf_pure _) actWf_wait))

@[simp] theorem execGate_wf (g : Issue) (n : Byte) (s : State) (h : memWf s.mem = true) : Canonical (execGate g n s) :=
  canonical_insn (fun _ _ s h => wf_ite_fst h (actWf_bind (loadGa_wf _ _ _ _ _ _)
    (fun _ => actWf_ite (actWf_trap _) (gateCall_wf _ _ _ _ _)) s h)) h

@[simp] theorem execGret_wf (g : Issue) (s : State) (h : memWf s.mem = true) : Canonical (execGret g s) := by
  refine canonical_insn (fun _ x => actWf_bind (takeTop_wf _ _ _ _) fun _ => actWf_ite (actWf_trap _)
    (actWf_bind (takeTop_wf _ _ _ _) fun _ => actWf_ite (actWf_trap _) (actWf_ite (actWf_trap _)
      (actWf_bind (pushOut_wf _ _ _ _) fun z s h => wf_ite_fst ?_ h)))) h
  rw [State.wr_mem]; exact h

end Sys2Proof.Machine
end

section
/-! PROOF. What the operations of `Machine.Supervisor` leave of storage: the same storage (`…_mem`), or one in canonical form (`…_wf`). -/
namespace Sys2Proof.Machine
open Reg

@[simp] theorem State.performHeld_wf (s : State) (e : StoreEntry) (h : memWf s.mem = true) : memWf (s.performHeld e).mem = true := by
  unfold State.performHeld
  extract_lets u
  have hu : memWf u.mem = true := by rw [State.buffer_mem]; exact h
  split
  · exact State.releaseStore_wf _ _ _ hu
  · exact hu

@[simp] theorem execSupIntervalEnd_wf (agree : Bool) (s : State) (h : memWf s.mem = true) : Canonical (execSupIntervalEnd agree s) := by
  unfold execSupIntervalEnd
  rw [canonical_next]
  refine wf_ite h (wf_ite (wf_ite h ?_) ?_)
  · extract_lets held closing u v
    have hu : memWf u.mem = true := by rw [State.count_mem]; exact h
    have hv : memWf v.mem = true := foldl_wf _ (fun _ _ hw => State.performHeld_wf _ _ hw) _ _ hu
    exact wf_ite (State.mxcDrain_wf _ (by rw [State.unlock_mem]; exact hv)) hv
  · have hu : memWf (s.count VERIF_SUP_CNT_MISMATCH 1).mem = true := by rw [State.count_mem]; exact h
    have hd := fun (d : Prop) [Decidable d] => wf_ite (c := d) (State.mxcDrain_wf _ ((State.unlock_mem _ 0).symm ▸ hu)) hu
    have hv := fun (v : State) e (hv : memWf v.mem = true) => (State.record_mem v e).symm ▸ hv
    exact wf_ite (hv _ _ (hv _ _ (hd _))) (hv _ _ (hd _))

@[simp] theorem State.rewind_mem (s : State) : s.rewind.mem = s.mem := by
  unfold State.rewind
  extract_lets old
  split
  · rfl
  · rfl

@[simp] theorem State.takeOver_mem (s : State) : s.takeOver.mem = s.mem := by
  unfold State.takeOver
  extract_lets mine rest u v
  rw [State.setCore_mem, State.setCore_mem]
  exact foldl_mem _ (fun s k t ht => by subst ht; exact State.setReg_mem _ _ _) _ _

@[simp] theorem execSupSelfTestDone_wf (passA passB : Bool) (s : State) (h : memWf s.mem = true) : Canonical (execSupSelfTestDone passA passB s) := by
  unfold execSupSelfTestDone
  rw [canonical_next]
  refine wf_ite h ?_
  extract_lets u v now'
  have hu : memWf u.mem = true := wf_ite (State.mxcDrain_wf _ (by rw [State.unlock_mem]; exact h)) h
  have hv : memWf v.mem = true := by rw [State.rewind_mem]; exact hu
  split
  · exact hv
  · rw [State.record_mem, State.mbxReset_mem, State.wr_mem, State.wr_mem]; exact hv
  · rw [State.record_mem, State.mbxReset_mem, State.wr_mem, State.takeOver_mem, State.wr_mem]; exact hv
  · rw [State.record_mem]; exact hv

end Sys2Proof.Machine
end

section
/-! PROOF. What the operations of `Machine.Dispatch` leave of storage: the same storage (`…_mem`), or one in canonical form (`…_wf`). -/
namespace Sys2Proof.Machine
open Reg

@[simp] theorem exec_wf (i : Instr) (s : State) (h : memWf s.mem = true) : Canonical (exec i s) := by
  unfold exec
  split <;> simp [h]

end Sys2Proof.Machine
end

section
/-! PROOF. What the operations of `Machine.Step` leave of storage: the same storage (`…_mem`), or one in canonical form (`…_wf`). -/
namespace Sys2Proof.Machine
open Reg

@[simp] theorem step_wf (s : State) (h : memWf s.mem = true) : Canonical (step s) := by
  unfold step
  split <;> simp [h]

@[simp] theorem State.withFront_mem (s : State) (c : Instr) : (s.withFront c).mem = s.mem := by simp [State.withFront]

@[simp] theorem State.withFetchWord_mem (s : State) (nbits w : Nat) : (s.withFetchWord nbits w).mem = s.mem := by
  unfold State.withFetchWord
  split <;> simp

end Sys2Proof.Machine
end

section
open Sys2Proof.Machine

/-- Settles O24: every operation of the model either leaves storage alone or changes it by the writes of single bytes, which keep its form,
or empties it, and a step is one command's meaning. -/
theorem storageStaysCanonical : Obligations.StorageStaysCanonical := by
  unfold Obligations.StorageStaysCanonical
  intro s t h hs
  exact step_wf s h t hs

end
section
/-! PROOF. Lifts and input ramps (O10): the moment a grant's pipes start, and the one ramp that is due. -/
namespace Sys2Proof.Machine

theorem le_firstFrom (ok : Nat → Bool) (n fuel : Nat) : n ≤ firstFrom ok n fuel := by
  induction fuel generalizing n with
  | zero => exact Nat.le_refl n
  | succ fuel ih =>
    unfold firstFrom
    split
    · exact Nat.le_refl n
    · exact Nat.le_trans (Nat.le_succ n) (ih (n + 1))

/-- The updraft lead of R540. -/
theorem State.lead_le_pipesFrom (s : State) (dp : Rat) : s.now + 6000 ≤ s.pipesFrom dp := by
  unfold State.pipesFrom
  split
  · exact Nat.le_refl _
  · exact le_firstFrom _ _ _

theorem State.advanceTo_of_le {s : State} {t : Nat} (h : t ≤ s.now) : s.advanceTo t = s := if_neg (Nat.not_lt.mpr h)

theorem leastBy_singleton {α : Type} (f : α → Nat) (x : α) : leastBy f [x] = some x := rfl

@[simp] theorem State.holdFrom_chains (s t : State) : (s.holdFrom t).chains = t.chains := by
  unfold State.holdFrom; split <;> rfl

@[simp] theorem State.holdFrom_regs (s t : State) : (s.holdFrom t).regs = t.regs := by
  unfold State.holdFrom; split <;> rfl

@[simp] theorem State.holdFrom_waiting (s t : State) : (s.holdFrom t).power.waiting = t.power.waiting := by
  unfold State.holdFrom; split <;> rfl

@[simp] theorem State.holdFrom_granted (s t : State) : (s.holdFrom t).power.granted = t.power.granted := by
  unfold State.holdFrom; split <;> rfl

@[simp] theorem State.holdFrom_ramps (s t : State) : (s.holdFrom t).power.ramps = t.power.ramps := by
  unfold State.holdFrom; split <;> rfl

/-- The change of the committed power that the grant of a chain makes. -/
def State.liftOf (s : State) (c : Chain) : Rat :=
  s.committedWith (s.grantedChains ++ [{ c with granted := true }]) s.level - s.committed

/-- The state that the grant of a chain's lift leaves, but for UP_HOLD's wait. -/
def State.liftGranted (s : State) (q : LiftReq) (c : Chain) : State :=
  let s1 := s.updChain c.id (fun c => { c with granted := true })
  { s1 with power := { s1.power with
    waiting := s1.power.waiting.filter (fun x => x.chain != q.chain)
    granted := s1.power.granted ++ [(c.id, q.since)]
    ramps := s1.power.ramps ++ [s.rampAt (some c.id) (s.liftOf c) (s.pipesFrom (s.liftOf c))] } }

theorem execLiftGrant_fits {s : State} {q : LiftReq} {rest : List LiftReq} {c : Chain} (hq : s.power.waiting = q :: rest)
    (hc : s.chainOf q.chain = some c)
    (hfit : s.committedWith (s.grantedChains ++ [{ c with granted := true }]) s.level ≤ (s.envelope : Rat)) :
    execLiftGrant s = .next (s.holdFrom (s.liftGranted q c)) := by
  simp only [execLiftGrant, hq, hc, if_neg (Rat.not_lt.mpr hfit)]
  rw [State.liftGranted, State.liftOf]

theorem execLiftGrant_exceeds {s : State} {q : LiftReq} {rest : List LiftReq} {c : Chain} (hq : s.power.waiting = q :: rest)
    (hc : s.chainOf q.chain = some c)
    (hover : (s.envelope : Rat) < s.committedWith (s.grantedChains ++ [{ c with granted := true }]) s.level) :
    execLiftGrant s = .next s := by
  simp only [execLiftGrant, hq, hc, if_pos hover]

end Sys2Proof.Machine
section
open Sys2Proof.Machine Sys2Proof.Machine.Reg Sys2Proof.Claim

/-- Settles O10: each command looks at the first waiting lift, or at the one ramp that is due, and writes the power state alone. -/
theorem lifts : Obligations.Lifts := by
  intro s q rest c x i new dp ts tr down fall
  refine ⟨fun hq hc => ⟨fun hfit => ?_, fun hover => execLiftGrant_exceeds hq hc hover⟩, fun hx hdue => ?_, fun hx hdue => ?_, fun hdown => ?_⟩
  · refine ⟨_, execLiftGrant_fits hq hc hfit, ?_⟩
    beta_reduce
    rw [State.holdFrom_chains, State.holdFrom_waiting, State.holdFrom_granted, State.holdFrom_ramps, State.holdFrom_mem,
      State.holdFrom_regs]
    exact ⟨rfl, hq ▸ rfl, rfl, rfl, s.lead_le_pipesFrom _, rfl, rfl⟩
  · have h : execInputRampStart s = .next { s with power := { s.power with
        ramps := s.power.ramps.map (fun y => if y = x then { y with begun := true } else y) } } := by
      simp only [execInputRampStart, hx, leastBy_singleton, State.advanceTo_of_le hdue]
    exact ⟨_, h, rfl, rfl, rfl⟩
  · have h : execInputRampDone s = .next { s with power := { s.power with
        ramps := s.power.ramps.filter (fun y => decide (y ≠ x))
        slew := if (s.power.ramps.filter (fun y => decide (y ≠ x))).isEmpty then s.rd PWR_LIMIT_SLEW else s.power.slew } } := by
      simp only [execInputRampDone, hx, leastBy_singleton, State.advanceTo_of_le hdue]
    refine ⟨_, h, rfl, fun hnone => ?_, fun hsome => ?_, rfl, rfl⟩
    · exact if_pos (List.isEmpty_iff.mpr hnone)
    · exact if_neg (mt List.isEmpty_iff.mp hsome)
  · have h : execInputRampDown i s = .next { s with power := { s.power with ramps := s.power.ramps
        ++ [{ chain := none, start := s.now, pipes := s.now + fall / 2, fin := s.now + fall, begun := true, dp := -down }] } } := by
      have hd : ¬ s.svuLift s.grantedChains i.val s.level ≤ 0 := Rat.not_le.mpr hdown
      simp only [execInputRampDown, if_neg hd]
      rfl
    exact ⟨_, h, rfl, rfl, rfl, rfl⟩

end
end
section
/-! PROOF. Records (R580 to R592): what a fault event changes of the state, by its class, and the record that it leaves. -/
namespace Sys2Proof.Machine
open Reg

/-- The registers that an event of source `n` may change: the collector's state, the source's own two, the captures, and the log's state. -/
def logReg (n o : Nat) : Prop :=
  o = FLT_STAT ∨ o = FLT_SRC n ∨ o = FLT_SRC_CNT n ∨ (0x44000 ≤ o ∧ o < 0x4b000) ∨ o = TLOG_STAT

/-- `t` follows `s` by a record of class A, or an event merged: the log, the source's times and counts, and their registers changed alone. -/
structure State.Logged (n : Nat) (s t : State) : Prop where
  rest : t = { s with
    regs := t.regs, tlog := t.tlog, srcLast := t.srcLast, srcMerged := t.srcMerged, srcQuiet := t.srcQuiet, srcLeak := t.srcLeak }
  regs : ∀ o, ¬ logReg n o → t.reg o = s.reg o

namespace State.Logged
variable {n : Nat} {s t u : State}

theorem refl (n : Nat) (s : State) : s.Logged n s := ⟨rfl, fun _ _ => rfl⟩

theorem trans (h : s.Logged n t) (h' : t.Logged n u) : s.Logged n u :=
  ⟨h'.rest.trans (congrArg (fun x : State => { x with
      regs := u.regs, tlog := u.tlog, srcLast := u.srcLast, srcMerged := u.srcMerged, srcQuiet := u.srcQuiet, srcLeak := u.srcLeak }) h.rest),
    fun o ho => (h'.regs o ho).trans (h.regs o ho)⟩

theorem ite {c : Prop} [Decidable c] (h : s.Logged n t) (h' : s.Logged n u) : s.Logged n (if c then t else u) := by
  split
  · exact h
  · exact h'

theorem setReg (s : State) {o : Nat} {w : Word} (ho : logReg n o) : s.Logged n (s.setReg o w) :=
  ⟨rfl, fun _ hp => State.reg_setReg_other _ _ _ _ (fun h => hp (h ▸ ho))⟩

theorem wr (s : State) {f : RF} {v : Nat} (hf : logReg n f.off) : s.Logged n (s.wr f v) := setReg s hf

theorem count (s : State) {f : RF} {v : Nat} (hf : logReg n f.off) : s.Logged n (s.count f v) := setReg s hf

/-- A field of a register that no event of the source changes. -/
theorem rd (h : s.Logged n t) {f : RF} (hf : ¬ logReg n f.off) : t.rd f = s.rd f := by rw [State.rd, State.rd, h.regs _ hf]

theorem mem (h : s.Logged n t) : t.mem = s.mem := by rw [h.rest]
theorem now (h : s.Logged n t) : t.now = s.now := by rw [h.rest]
theorem out (h : s.Logged n t) : t.out = s.out := by rw [h.rest]
theorem host (h : s.Logged n t) : t.host = s.host := by rw [h.rest]
theorem mxc (h : s.Logged n t) : t.mxc = s.mxc := by rw [h.rest]
theorem mxcLast (h : s.Logged n t) : t.mxcLast = s.mxcLast := by rw [h.rest]
theorem chains (h : s.Logged n t) : t.chains = s.chains := by rw [h.rest]
theorem tasks (h : s.Logged n t) : t.tasks = s.tasks := by rw [h.rest]
theorem svus (h : s.Logged n t) : t.svus = s.svus := by rw [h.rest]
theorem pins (h : s.Logged n t) : t.pins = s.pins := by rw [h.rest]
theorem power (h : s.Logged n t) : t.power = s.power := by rw [h.rest]
theorem chans (h : s.Logged n t) : t.chans = s.chans := by rw [h.rest]
theorem rings (h : s.Logged n t) : t.rings = s.rings := by rw [h.rest]
theorem life (h : s.Logged n t) : t.life = s.life := by rw [h.rest]
theorem gloley (h : s.Logged n t) : t.gloley = s.gloley := by rw [h.rest]
theorem srcTimer (h : s.Logged n t) : t.srcTimer = s.srcTimer := by rw [h.rest]

theorem foldl {α : Type} (f : State → α → State) (l : List α) (h : ∀ s, ∀ a ∈ l, State.Logged n s (f s a)) (s : State) :
    s.Logged n (l.foldl f s) := by
  induction l generalizing s with
  | nil => exact refl n s
  | cons a l ih => exact (h s a (by simp)).trans (ih (fun s b hb => h s b (by simp [hb])) _)

theorem setWords (s : State) {off : Nat} {ws : List Nat} (h : 0x44000 ≤ off) (h' : off + 8 * ws.length ≤ 0x4b000) :
    s.Logged n (s.setWords off ws) := by
  refine foldl _ _ (fun s p hp => setReg s ?_) s
  have := List.mem_range.mp (List.of_mem_zip hp).1
  exact Or.inr (Or.inr (Or.inr (Or.inl (by omega))))

theorem ofTlog (s : State) (l : List FltRec) : s.Logged n { s with tlog := l } := ⟨rfl, fun _ _ => rfl⟩

theorem logRecord (s : State) (r : FltRec) : s.Logged n (s.logRecord r) := by
  have htlog : logReg n TLOG_STAT := Or.inr (Or.inr (Or.inr (Or.inr rfl)))
  rw [State.logRecord]
  exact ((ofTlog s _).trans (wr _ htlog)).trans (wr _ htlog)

theorem capture (s : State) (r : FltRec) (hr : r.source < 640) : s.Logged n (s.capture r) := by
  have hc := srcCollector_lt hr
  have hn : s.rd (FLT_HIST_PTR_NEXT (srcCollector r.source)) < 16 := s.rd_lt _
  have hl : r.words.length = 4 := rfl
  have hctl : logReg n (FLT_FIRST_CTL (srcCollector r.source)) :=
    Or.inr (Or.inr (Or.inr (Or.inl (by simp only [FLT_FIRST_CTL]; omega))))
  have hptr : logReg n (FLT_HIST_PTR (srcCollector r.source)) :=
    Or.inr (Or.inr (Or.inr (Or.inl (by simp only [FLT_HIST_PTR]; omega))))
  have hfirst : s.Logged n (s.setWords (FLT_FIRST (srcCollector r.source) 0) r.words) :=
    setWords s (by simp only [FLT_FIRST]; omega) (by simp only [FLT_FIRST, hl]; omega)
  have hhist : s.Logged n (s.setWords (FLT_HIST (srcCollector r.source) (s.rd (FLT_HIST_PTR_NEXT (srcCollector r.source))) 0) r.words) :=
    setWords s (by simp only [FLT_HIST]; omega) (by simp only [FLT_HIST, hl]; omega)
  unfold State.capture
  split
  · exact (hhist.trans (wr _ hptr)).trans (wr _ hptr)
  · exact ite (wr _ hctl) (hfirst.trans (wr _ hctl))

end State.Logged

/-- The records' own times: those of R580. -/
def State.stamped (s : State) (r : FltRec) : FltRec :=
  { r with seq := s.rd FLT_STAT_NEXT_SEQ, time := s.dev, epoch := s.rd TIME_EPOCH_EPOCH, data := srcIsData r.source }

/-- A record written, before its class acts. -/
def State.logged (s : State) (r : FltRec) : State :=
  (((s.wr FLT_STAT_NEXT_SEQ (s.rd FLT_STAT_NEXT_SEQ + 1)).wr (FLT_SRC_CNT_LAST_SEQ r.source) (s.rd FLT_STAT_NEXT_SEQ)).logRecord
    (s.stamped r)).capture (s.stamped r)

theorem State.writeRecord_eq (s : State) (r : FltRec) : s.writeRecord r = (s.logged r).actOn (s.stamped r) := rfl

theorem State.Logged.logged (s : State) (r : FltRec) (hr : r.source < 640) : s.Logged r.source (s.logged r) := by
  have hstat : logReg r.source FLT_STAT := Or.inl rfl
  have hcnt : logReg r.source (FLT_SRC_CNT r.source) := Or.inr (Or.inr (Or.inl rfl))
  exact (((Logged.wr s hstat).trans (Logged.wr _ hcnt)).trans (Logged.logRecord ..)).trans (Logged.capture _ _ hr)

/-- The next event of a source promotes it (R584). -/
def State.fills (s : State) (n : Nat) : Bool :=
  s.on (FLT_SRC_PROMOTE_EN n) && min 255 (s.rd (FLT_SRC_LEAK n) + 1) == s.rd (FLT_SRC_N n)

/-- The next event of a source raises its class (R584). -/
def State.promotes (s : State) (n : Nat) : Bool := s.fills n && decide (s.rd (FLT_SRC_CLASS n) < 2)

/-- The class of the next event of a source (R584). -/
def State.eventClass (s : State) (n : Nat) : Nat := if s.promotes n then s.rd (FLT_SRC_CLASS n) + 1 else s.rd (FLT_SRC_CLASS n)

/-- An event of a source counted, its times noted (R582, R583, R585). -/
def State.counted (s : State) (n : Nat) : State :=
  let s := s.count (FLT_SRC_CNT_EVENTS n) 1
  let s := { s with srcQuiet := tabPut s.srcQuiet n s.now }
  if s.on (FLT_SRC_LEAK n) then s else { s with srcLeak := tabPut s.srcLeak n s.now }

/-- The leak counter one further, or emptied with the class raised (R583, R584). -/
def State.leaked (s : State) (n : Nat) : State :=
  let t := s.wr (FLT_SRC_LEAK n) (if s.fills n then 0 else min 255 (s.rd (FLT_SRC_LEAK n) + 1))
  if s.promotes n then t.wr (FLT_SRC_CLASS n) (s.rd (FLT_SRC_CLASS n) + 1) else t

/-- An event of class A inside the hold-off of its source's last record (R582). -/
def State.merges (s : State) (n c : Nat) : Bool :=
  c == 0 && match tabFind s.srcLast n with
    | some t => decide (s.now < t + s.rd FLT_CFG_HOLDOFF * 1000)
    | none => false

/-- The record of an event of a class. -/
def FaultEv.entry (e : FaultEv) (c : Nat) (up fence : Bool) (merged : Nat) : FltRec :=
  { time := 0, epoch := 0, source := e.src, cls := c, promoted := up, escalated := false, data := false, fence := fence, seq := 0
    inst := e.inst, status := e.status, merged := merged, aux := e.aux, addr := e.addr, writer := e.writer }

/-- The event merged, or its record written, once it is counted. -/
def State.entered (s : State) (e : FaultEv) (unit : Nat → Option (Nat × Nat)) (c : Nat) (up : Bool) : State × Option (Nat × Nat) :=
  if s.merges e.src c then ({ s with srcMerged := tabPut s.srcMerged e.src (satAdd 16 (tabGet s.srcMerged 0 e.src) 1) }, none)
  else
    (({ s with srcMerged := tabDel s.srcMerged e.src, srcLast := tabPut s.srcLast e.src s.now } : State).writeRecord
      (e.entry c up (unit c).isSome (tabGet s.srcMerged 0 e.src)), unit c)

theorem State.recordWith_counted (s : State) (e : FaultEv) (unit : Nat → Option (Nat × Nat)) :
    s.recordWith e unit = ((s.counted e.src).leaked e.src).entered e unit (max ((s.counted e.src).eventClass e.src) e.least)
      ((s.counted e.src).promotes e.src) := rfl

section
variable {s t : State} {n : Nat} (h : ∀ f : RF, f.off = FLT_SRC n → t.rd f = s.rd f)
include h

/-- What an event does to its source depends on the source's register alone (R583, R584). -/
theorem State.fills_congr : t.fills n = s.fills n := by
  simp only [State.fills, State.on, h (FLT_SRC_PROMOTE_EN n) rfl, h (FLT_SRC_LEAK n) rfl, h (FLT_SRC_N n) rfl]

theorem State.promotes_congr : t.promotes n = s.promotes n := by
  rw [State.promotes, State.promotes, State.fills_congr h, h (FLT_SRC_CLASS n) rfl]

theorem State.eventClass_congr : t.eventClass n = s.eventClass n := by
  rw [State.eventClass, State.eventClass, State.promotes_congr h, h (FLT_SRC_CLASS n) rfl]

end

section
variable (s : State) (n : Nat)

theorem State.regs_counted : (s.counted n).regs = (s.count (FLT_SRC_CNT_EVENTS n) 1).regs := by
  unfold State.counted
  extract_lets s1 s2
  exact (apply_ite State.regs _ _ _).trans (ite_self _)

theorem State.rd_counted {f : RF} (hf : f.off = FLT_SRC n) : (s.counted n).rd f = s.rd f := by
  rw [State.rd_congr (s.regs_counted n)]
  exact State.rd_count_off _ _ _ _ (by rw [hf]; simp only [FLT_SRC, FLT_SRC_CNT_EVENTS, FLT_SRC_CNT]; omega)

theorem State.fills_counted : (s.counted n).fills n = s.fills n := State.fills_congr (fun _ => s.rd_counted n)

theorem State.promotes_counted : (s.counted n).promotes n = s.promotes n := State.promotes_congr (fun _ => s.rd_counted n)

theorem State.eventClass_counted : (s.counted n).eventClass n = s.eventClass n := State.eventClass_congr (fun _ => s.rd_counted n)

end

theorem State.recordWith_eq (s : State) (e : FaultEv) (unit : Nat → Option (Nat × Nat)) :
    s.recordWith e unit = ((s.counted e.src).leaked e.src).entered e unit (max (s.eventClass e.src) e.least) (s.promotes e.src) := by
  rw [State.recordWith_counted, State.promotes_counted, State.eventClass_counted]

/-! What an event leaves of the state, by the parts of its course. -/

section
variable (s : State) (n : Nat)

theorem State.Logged.counted : s.Logged n (s.counted n) := by
  have hcnt : logReg n (FLT_SRC_CNT_EVENTS n).off := Or.inr (Or.inr (Or.inl rfl))
  unfold State.counted
  extract_lets s1 s2
  have h1 : s.Logged n s1 := Logged.count s hcnt
  have h2 : s.Logged n s2 := h1.trans ⟨rfl, fun _ _ => rfl⟩
  exact h2.ite (h2.trans ⟨rfl, fun _ _ => rfl⟩)

theorem State.Logged.leaked : s.Logged n (s.leaked n) := by
  have hsrc : logReg n (FLT_SRC n) := Or.inr (Or.inl rfl)
  unfold State.leaked
  extract_lets t
  have h : s.Logged n t := Logged.wr s hsrc
  exact (h.trans (Logged.wr _ hsrc)).ite h

/-- An event counted and its leak counter one further. -/
theorem State.Logged.noticed : s.Logged n ((s.counted n).leaked n) := (Logged.counted s n).trans (Logged.leaked _ n)

theorem State.tlog_counted : (s.counted n).tlog = s.tlog := by
  unfold State.counted
  extract_lets s1 s2
  split <;> simp only [s1, s2, State.count_tlog]

theorem State.tlog_leaked : (s.leaked n).tlog = s.tlog := by
  unfold State.leaked
  extract_lets t
  split <;> simp only [t, State.wr_tlog]

theorem State.tlog_noticed : ((s.counted n).leaked n).tlog = s.tlog := (State.tlog_leaked _ n).trans (State.tlog_counted s n)

theorem State.srcLast_counted : (s.counted n).srcLast = s.srcLast := by
  unfold State.counted
  extract_lets s1 s2
  split <;> simp only [s1, s2, State.count_srcLast]

theorem State.srcLast_noticed : ((s.counted n).leaked n).srcLast = s.srcLast := by
  unfold State.leaked
  extract_lets t
  split <;> simp only [t, State.wr_srcLast, s.srcLast_counted]

theorem State.srcMerged_counted : (s.counted n).srcMerged = s.srcMerged := by
  unfold State.counted
  extract_lets s1 s2
  split <;> simp only [s1, s2, State.count_srcMerged]

theorem State.srcMerged_noticed : ((s.counted n).leaked n).srcMerged = s.srcMerged := by
  unfold State.leaked
  extract_lets t
  split <;> simp only [t, State.wr_srcMerged, s.srcMerged_counted]

end

/-- A field that no event of the source changes. -/
theorem State.rd_noticed (s : State) (n : Nat) {f : RF} (hf : ¬ logReg n f.off) : ((s.counted n).leaked n).rd f = s.rd f :=
  (State.Logged.noticed s n).rd hf

theorem State.merges_noticed (s : State) (n c : Nat) (hn : n < 640) : ((s.counted n).leaked n).merges n c = s.merges n c := by
  have hoff : ¬ logReg n FLT_CFG_HOLDOFF.off := by
    simp only [logReg, FLT_CFG_HOLDOFF, FLT_CFG, FLT_STAT, FLT_SRC, FLT_SRC_CNT, TLOG_STAT]; omega
  rw [State.merges, State.merges, State.srcLast_noticed, State.rd_noticed s n hoff, (State.Logged.noticed s n).now]

/-- No record of the source is within the hold-off when it has none. -/
theorem State.merges_first {s : State} {n : Nat} (h : tabFind s.srcLast n = none) (c : Nat) : s.merges n c = false := by
  simp [State.merges, h]

theorem State.actOn_zero (s : State) (r : FltRec) (h : r.cls = 0) : s.actOn r = s := by
  simp [State.actOn, h]

theorem State.tlog_setWords (s : State) (off : Nat) (ws : List Nat) : (s.setWords off ws).tlog = s.tlog := by
  unfold State.setWords
  generalize (List.range ws.length).zip ws = l
  induction l generalizing s with
  | nil => rfl
  | cons p l ih => exact ih _

theorem State.tlog_capture (s : State) (r : FltRec) : (s.capture r).tlog = s.tlog := by
  unfold State.capture
  repeat' split
  all_goals grind [State.tlog_setWords, State.wr_tlog]

/-- The log with a record entered: the latest 8,192. -/
def State.logWith (s : State) (r : FltRec) : List FltRec := (s.tlog ++ [r]).drop ((s.tlog ++ [r]).length - 8192)

theorem State.logWith_getLast (s : State) (r : FltRec) : (s.logWith r).getLast? = some r := by
  have hlen : (s.tlog ++ [r]).length = s.tlog.length + 1 := by simp
  rw [State.logWith, List.getLast?_drop, if_neg (by rw [hlen]; omega), List.getLast?_concat]

theorem State.logWith_short {s : State} (r : FltRec) (h : s.tlog.length < 8192) : s.logWith r = s.tlog ++ [r] := by
  have hlen : (s.tlog ++ [r]).length = s.tlog.length + 1 := by simp
  rw [State.logWith, Nat.sub_eq_zero_of_le (by omega), List.drop_zero]

theorem State.tlog_logged (s : State) (r : FltRec) : (s.logged r).tlog = s.logWith (s.stamped r) := by
  simp only [State.logged, State.tlog_capture, State.logRecord, State.wr_tlog, State.logWith]

/-- The record that an event leaves: the next one of the log, at the time of the event. -/
def State.recordOf (s : State) (e : FaultEv) (c : Nat) (up fence : Bool) : FltRec :=
  s.stamped (e.entry c up fence (tabGet s.srcMerged 0 e.src))

/-- An event of another register does not touch the record's stamps: its SEQ, the device's time and the epoch. -/
theorem State.Logged.stamped {n : Nat} {s t : State} (h : s.Logged n t) (hseq : t.rd FLT_STAT_NEXT_SEQ = s.rd FLT_STAT_NEXT_SEQ)
    (hn : n < 640) (r : FltRec) : t.stamped r = s.stamped r := by
  have htime : ¬ logReg n TIME_NOW_NS.off := by
    simp only [logReg, TIME_NOW_NS, TIME_NOW, FLT_STAT, FLT_SRC, FLT_SRC_CNT, TLOG_STAT]; omega
  have hepoch : ¬ logReg n TIME_EPOCH_EPOCH.off := by
    simp only [logReg, TIME_EPOCH_EPOCH, TIME_EPOCH, FLT_STAT, FLT_SRC, FLT_SRC_CNT, TLOG_STAT]; omega
  rw [State.stamped, State.stamped, hseq, State.dev, State.dev, h.rd htime, h.rd hepoch]

theorem State.nextSeq_noticed (s : State) (n : Nat) : ((s.counted n).leaked n).rd FLT_STAT_NEXT_SEQ = s.rd FLT_STAT_NEXT_SEQ := by
  have hsrc : FLT_STAT_NEXT_SEQ.off ≠ FLT_SRC n := by simp only [FLT_STAT_NEXT_SEQ, FLT_STAT, FLT_SRC]; omega
  have hcnt : FLT_STAT_NEXT_SEQ.off ≠ FLT_SRC_CNT n := by simp only [FLT_STAT_NEXT_SEQ, FLT_STAT, FLT_SRC_CNT]; omega
  have h1 : (s.counted n).rd FLT_STAT_NEXT_SEQ = s.rd FLT_STAT_NEXT_SEQ := by
    rw [State.rd_congr (s.regs_counted n)]
    exact State.rd_count_off _ _ _ _ hcnt
  unfold State.leaked
  extract_lets t
  have h2 : t.rd FLT_STAT_NEXT_SEQ = s.rd FLT_STAT_NEXT_SEQ := (State.rd_wr_off _ _ _ _ hsrc).trans h1
  split
  · exact (State.rd_wr_off _ _ _ _ hsrc).trans h2
  · exact h2

/-- What no step of a fold changes, the fold does not change. -/
theorem foldl_keeps {α β : Type} (p : State → β) {f : State → α → State} (h : ∀ s a, p (f s a) = p s) (l : List α) (s : State) :
    p (l.foldl f s) = p s := by
  induction l generalizing s with
  | nil => rfl
  | cons a l ih => exact (ih _).trans (h s a)

theorem State.tlog_allDomainsOff (s : State) : s.allDomainsOff.tlog = s.tlog := by
  simp -implicitDefEqProofs [State.allDomainsOff, foldl_keeps State.tlog, apply_ite State.tlog]

theorem State.tlog_ripcord (s : State) : s.ripcord.tlog = s.tlog := by
  unfold State.ripcord
  grind [State.tlog_allDomainsOff, State.wr_tlog]

theorem State.tlog_setPending (s : State) (n v : Nat) : (s.setPending n v).tlog = s.tlog := rfl

theorem State.tlog_msix (s : State) (v : Nat) : (s.msix v).tlog = s.tlog := by
  unfold State.msix
  split
  · exact State.wr_tlog ..
  · rfl

theorem State.tlog_alert (s : State) (n : Nat) : (s.alert n).tlog = s.tlog := by
  unfold State.alert
  extract_lets old new t
  split <;> rfl

theorem State.tlog_actOn (s : State) (r : FltRec) : (s.actOn r).tlog = s.tlog := by
  unfold State.actOn
  repeat' split
  all_goals simp [State.tlog_alert, State.tlog_msix, State.tlog_ripcord, State.tlog_setPending, State.raiseLine]

theorem State.tlog_writeRecord (s : State) (r : FltRec) : (s.writeRecord r).tlog = s.logWith (s.stamped r) := by
  rw [State.writeRecord_eq, State.tlog_actOn, State.tlog_logged]

/-- The state in which the record of an event is written: no merged events and no earlier record hold it back any more (R582). -/
def State.opened (s : State) (n : Nat) : State := { s with srcMerged := tabDel s.srcMerged n, srcLast := tabPut s.srcLast n s.now }

theorem State.entered_new {s : State} {e : FaultEv} {c : Nat} (h : s.merges e.src c = false) (unit : Nat → Option (Nat × Nat)) (up : Bool) :
    s.entered e unit c up =
      ((s.opened e.src).writeRecord (e.entry c up (unit c).isSome (tabGet s.srcMerged 0 e.src)), unit c) := by
  rw [State.entered, h]
  rfl

/-- The record of an event, as the log takes it. -/
def State.recordMade (s : State) (e : FaultEv) (unit : Nat → Option (Nat × Nat)) : FltRec :=
  s.stamped (e.entry (max (s.eventClass e.src) e.least) (s.promotes e.src) (unit (max (s.eventClass e.src) e.least)).isSome
    (tabGet s.srcMerged 0 e.src))

section
variable {s : State} {e : FaultEv} (unit : Nat → Option (Nat × Nat)) (hn : e.src < 640)
include hn

/-- An event that is not merged is recorded (R580, R582). -/
theorem State.recordWith_new (h : s.merges e.src (max (s.eventClass e.src) e.least) = false) :
    s.recordWith e unit =
      ((((s.counted e.src).leaked e.src).opened e.src).writeRecord
        (e.entry (max (s.eventClass e.src) e.least) (s.promotes e.src) (unit (max (s.eventClass e.src) e.least)).isSome
          (tabGet s.srcMerged 0 e.src)), unit (max (s.eventClass e.src) e.least)) := by
  rw [State.recordWith_eq, State.entered_new ((State.merges_noticed s _ _ hn).trans h), State.srcMerged_noticed]

omit hn in
theorem State.Logged.opened (s : State) : s.Logged e.src (((s.counted e.src).leaked e.src).opened e.src) :=
  (Logged.noticed s e.src).trans ⟨rfl, fun _ _ => rfl⟩

theorem State.tlog_recordWith (h : s.merges e.src (max (s.eventClass e.src) e.least) = false) :
    (s.recordWith e unit).1.tlog = s.logWith (s.recordMade e unit) := by
  have hseq : (((s.counted e.src).leaked e.src).opened e.src).rd FLT_STAT_NEXT_SEQ = s.rd FLT_STAT_NEXT_SEQ := s.nextSeq_noticed _
  have htlog : (((s.counted e.src).leaked e.src).opened e.src).tlog = s.tlog := s.tlog_noticed _
  rw [State.recordWith_new unit hn h, State.tlog_writeRecord, (State.Logged.opened s).stamped hseq hn, State.logWith, htlog,
    State.recordMade, State.logWith]

/-- An event of class A changes the log and the source's own registers alone (R586). -/
theorem State.Logged.recordWith (h : max (s.eventClass e.src) e.least = 0) : s.Logged e.src (s.recordWith e unit).1 := by
  rw [State.recordWith_eq, State.entered, h]
  split
  · exact (Logged.noticed s e.src).trans ⟨rfl, fun _ _ => rfl⟩
  · rw [State.writeRecord_eq, State.actOn_zero _ _ rfl]
    exact (Logged.opened s).trans (Logged.logged _ (e.entry ..) hn)

end

/-- A source whose class is A, and which is not promoted, gives events of class A. -/
theorem State.eventClass_quiet {s : State} {n : Nat} (h : Claim.Quiet s n) : s.eventClass n = 0 := by
  obtain ⟨hcls, hkept⟩ := h
  have hup : s.promotes n = false := by
    rw [State.promotes, State.fills]
    have : s.rd (FLT_SRC_PROMOTE_EN n) < 2 := s.rd_lt _
    by_contra hc
    simp only [State.on, Bool.not_eq_false, Bool.and_eq_true, bne_iff_ne, beq_iff_eq] at hc
    exact hkept ⟨by omega, hc.1.2⟩
  rw [State.eventClass, hup, hcls]
  rfl

end Sys2Proof.Machine
end
section
/-! PROOF. Refused accesses (R25, R29): the class A record of ACCESS_REFUSED, and the host's refused register accesses. -/
namespace Sys2Proof.Machine
open Reg

/-- The record of a refused access. -/
def refusal (q : Requester) (off status : Nat) : FaultEv :=
  { src := srcAccessRefused, inst := q.code.1, aux := q.code.2, addr := off, status := status }

theorem State.refuse_eq (s : State) (q : Requester) (off status : Nat) :
    s.refuse q off status = (s.recordWith (refusal q off status) (fun _ => none)).1 := rfl

/-- A refusal of class A changes the log and the registers of its source alone. -/
theorem State.Logged.refuse {s : State} (h : Claim.Quiet s 636) (q : Requester) (off status : Nat) :
    s.Logged 636 (s.refuse q off status) := by
  rw [State.refuse_eq]
  refine Logged.recordWith (e := refusal q off status) _ (show srcAccessRefused < 640 by decide) ?_
  exact congrArg (fun c => max c 0) (State.eventClass_quiet h)

/-- The refusal is the last record of the log when its source has no record in its hold-off. -/
theorem State.tlog_refuse {s : State} (h : Claim.First s 636) (q : Requester) (off status : Nat) :
    (s.refuse q off status).tlog = s.logWith (s.recordMade (refusal q off status) (fun _ => none)) := by
  rw [State.refuse_eq]
  exact State.tlog_recordWith _ (show srcAccessRefused < 640 by decide) (State.merges_first h _)

/-- The registers that a record changes are those of the fault collector and of the log. -/
theorem State.Logged.regsBut {n : Nat} {s t : State} (h : s.Logged n t) (hn : n < 640) : Claim.RegsBut s t 0x40000 0x60000 := by
  intro o ho
  refine h.regs o ?_
  simp only [logReg, FLT_STAT, FLT_SRC, FLT_SRC_CNT, TLOG_STAT]
  omega

theorem State.mxcDrain_nil {s : State} (h : s.mxc = []) : s.mxcDrain = s := by
  simp [State.mxcDrain, State.mxcGrants, State.mxcCount, h]

theorem State.hwSets_noReg {s : State} {off : Nat} (h : (regAt off).isNone = true) (hw : Word) : s.hwSets off hw = s := by
  rw [State.hwSets, Option.isNone_iff_eq_none.mp h]

/-- A refused write of a row goes no further (R25). -/
theorem State.regRow_refused {s : State} {w : RegWrite} {off st : Nat} (hup : w.m = .host → s.hostUp = true)
    (h : s.regBlocked w.m (off + w.lane) w.width = some st) (right : Bool) (f : State → State) :
    s.regRow w off right f = s.refuseReg w.m (off + w.lane) false st := by
  have hhost : (w.m == .host && !s.hostUp) = false := by
    by_cases hm : w.m = .host
    · simp [hup hm]
    · simp [hm]
  simp [State.regRow, hhost, h]

/-- A refused read goes no further (R25). -/
theorem State.readOut_refused {s : State} {m : Master} {off width st : Nat} (hup : m = .host → s.hostUp = true)
    (h : s.regBlocked m off width = some st) (hw : Option Nat) : s.readOut m off width hw = s.refuseReg m off true st := by
  have hhost : (m == .host && !s.hostUp) = false := by
    by_cases hm : m = .host
    · simp [hup hm]
    · simp [hm]
  simp [State.readOut, State.readReg, hhost, h]

end Sys2Proof.Machine

section
open Sys2Proof.Machine Sys2Proof.Machine.Reg Sys2Proof.Claim

/-- Settles O7: the access is refused before its register is looked at, and the refusal is the log's last record. -/
theorem registerRefusals : Obligations.RegisterRefusals := by
  intro s off v hw hblocked hup hfirst hquiet hmxc hnone
  have hoff : off / 8 * 8 + off % 8 = off := by omega
  have hlog : ∀ t : State, t.tlog = (s.refuse .host (regBase + off) 0x23).tlog →
      (t.tlog.getLast?).map (fun r => (r.source, r.inst, r.status, r.addr)) = some (636, 3, 0x23, 0x3f000000000 + off) := by
    intro t ht
    rw [ht, State.tlog_refuse hfirst, State.logWith_getLast]
    rfl
  have hkept := State.Logged.refuse hquiet .host (regBase + off) 0x23
  have hregs := hkept.regsBut (by decide)
  constructor
  · have hwrite : s.writeReg { m := .host, lane := off % 8, width := 8, v := v } (off / 8 * 8)
        = (s.refuse .host (regBase + off) 0x23).hostUrWrite := by
      rw [State.writeReg, if_pos hnone, State.ignoredWrite,
        State.regRow_refused (fun _ => hup) (st := 0x23) (by rw [hoff]; exact hblocked), hoff]
      rfl
    have hexec : exec (.registerWrite .host off 8 ⟨v, hw⟩) s = .next (s.refuse .host (regBase + off) 0x23).hostUrWrite := by
      change execRegisterWrite .host off 8 ⟨v, hw⟩ s = _
      rw [execRegisterWrite, hwrite, State.hwSets_noReg hnone, State.mxcDrain_nil (s := State.hostUrWrite _) (hkept.mxc.trans hmxc)]
    exact ⟨_, hexec, hlog _ rfl, hkept.out, rfl, hkept.mem, hregs⟩
  · have hexec : exec (.readClearField .host off 8 none) s
        = .next ((s.refuse .host (regBase + off) 0x23).emit (.coreValue .host 0 0x23)) := by
      change execReadClearField .host off 8 none s = _
      rw [execReadClearField, State.readOut_refused (fun _ => hup) hblocked]
      rfl
    exact ⟨_, hexec, congrArg (· ++ [Out.coreValue .host 0 0x23]) hkept.out, hlog _ rfl⟩

end
end
section
/-! PROOF. Records of every class (R586 to R590): what they change of the collector's registers, and what a record of class A, B or C
leaves of the rest of the module. -/
namespace Sys2Proof.Machine
open Reg

/-! The registers of a source under a record. -/

theorem State.reg_setWords (s : State) {off o : Nat} {ws : List Nat} (h : o < off ∨ off + 8 * ws.length ≤ o) :
    (s.setWords off ws).reg o = s.reg o := by
  have hl : ∀ l : List (Nat × Nat), (∀ p ∈ l, p.1 < ws.length) → ∀ s : State,
      (l.foldl (fun s p => s.setReg (off + 8 * p.1) (BitVec.ofNat 64 p.2)) s).reg o = s.reg o := by
    intro l hl
    induction l with
    | nil => exact fun s => rfl
    | cons p l ih =>
      intro s
      have hp := hl p (by simp)
      exact (ih (fun q hq => hl q (by simp [hq])) _).trans (State.reg_setReg_other _ _ _ _ (by omega))
  exact hl _ (fun p hp => List.mem_range.mp (List.of_mem_zip hp).1) s

/-- The captures are above the sources' registers (R591, R592). -/
theorem State.reg_capture (s : State) (r : FltRec) {o : Nat} (ho : o < 0x44000) : (s.capture r).reg o = s.reg o := by
  have hl : r.words.length = 4 := rfl
  have hctl : o ≠ FLT_FIRST_CTL (srcCollector r.source) := by simp only [FLT_FIRST_CTL]; omega
  have hptr : o ≠ FLT_HIST_PTR (srcCollector r.source) := by simp only [FLT_HIST_PTR]; omega
  have hfirst : ∀ s : State, (s.setWords (FLT_FIRST (srcCollector r.source) 0) r.words).reg o = s.reg o :=
    fun s => s.reg_setWords (Or.inl (by simp only [FLT_FIRST]; omega))
  have hhist : ∀ k, (s.setWords (FLT_HIST (srcCollector r.source) k 0) r.words).reg o = s.reg o :=
    fun k => s.reg_setWords (Or.inl (by simp only [FLT_HIST]; omega))
  unfold State.capture
  split
  · exact ((State.reg_wr_other _ _ _ _ hptr).trans (State.reg_wr_other _ _ _ _ hptr)).trans (hhist _)
  · dsimp only
    split
    · exact State.reg_wr_other _ _ _ _ hctl
    · exact (State.reg_wr_other _ _ _ _ hctl).trans (hfirst _)

theorem State.reg_withTlog (s : State) (l : List FltRec) (o : Nat) : ({ s with tlog := l } : State).reg o = s.reg o := rfl

theorem State.reg_logRecord (s : State) (r : FltRec) {o : Nat} (ho : o ≠ TLOG_STAT) : (s.logRecord r).reg o = s.reg o := by
  rw [State.logRecord]
  exact ((State.reg_wr_other _ _ _ _ ho).trans (State.reg_wr_other _ _ _ _ ho)).trans (s.reg_withTlog _ o)

/-- A record written keeps the sources' registers and the other counts, and the next SEQ is one further. -/
theorem State.reg_logged (s : State) (r : FltRec) {o : Nat} (ho : o < 0x44000) :
    (s.logged r).reg o =
      ((s.wr FLT_STAT_NEXT_SEQ (s.rd FLT_STAT_NEXT_SEQ + 1)).wr (FLT_SRC_CNT_LAST_SEQ r.source) (s.rd FLT_STAT_NEXT_SEQ)).reg o := by
  rw [State.logged, State.reg_capture _ _ ho, State.reg_logRecord _ _ (by simp only [TLOG_STAT]; omega)]

theorem State.rd_src_logged (s : State) (r : FltRec) {f : RF} {n : Nat} (hn : n < 640) (hf : f.off = FLT_SRC n) :
    (s.logged r).rd f = s.rd f := by
  have ho : f.off < 0x44000 := by rw [hf, FLT_SRC]; omega
  have hcnt : f.off ≠ FLT_SRC_CNT r.source := by rw [hf, FLT_SRC, FLT_SRC_CNT]; omega
  have hstat : f.off ≠ FLT_STAT := by rw [hf, FLT_SRC, FLT_STAT]; omega
  rw [State.rd, State.reg_logged s r ho]
  exact (State.rd_wr_off _ _ _ _ hcnt).trans (State.rd_wr_off _ _ _ _ hstat)

theorem State.events_logged (s : State) (r : FltRec) (n : Nat) (hn : n < 640) :
    (s.logged r).rd (FLT_SRC_CNT_EVENTS n) = s.rd (FLT_SRC_CNT_EVENTS n) := by
  have ho : FLT_SRC_CNT n < 0x44000 := by rw [FLT_SRC_CNT]; omega
  have hstat : FLT_SRC_CNT n ≠ FLT_STAT := by rw [FLT_SRC_CNT, FLT_STAT]; omega
  have h1 : (s.wr FLT_STAT_NEXT_SEQ (s.rd FLT_STAT_NEXT_SEQ + 1)).rd (FLT_SRC_CNT_EVENTS n) = s.rd (FLT_SRC_CNT_EVENTS n) :=
    State.rd_wr_off _ _ _ _ hstat
  rw [← h1, State.rd, FLT_SRC_CNT_EVENTS, State.reg_logged s r ho]
  by_cases h : n = r.source
  · subst h
    exact State.rd_wr_apart _ (FLT_SRC_CNT_LAST_SEQ _) (FLT_SRC_CNT_EVENTS _) _ (show 32 ≤ 63 by decide) (show 63 < 64 by decide) rfl
      (Or.inl (show 31 < 32 by decide))
  · exact State.rd_wr_off _ (FLT_SRC_CNT_LAST_SEQ _) (FLT_SRC_CNT_EVENTS n) _
      (show FLT_SRC_CNT n ≠ FLT_SRC_CNT r.source by rw [FLT_SRC_CNT, FLT_SRC_CNT]; omega)

theorem State.nextSeq_logged (s : State) (r : FltRec) :
    (s.logged r).rd FLT_STAT_NEXT_SEQ = (s.rd FLT_STAT_NEXT_SEQ + 1) % 2 ^ 32 := by
  have hcnt : FLT_STAT ≠ FLT_SRC_CNT r.source := by rw [FLT_SRC_CNT, FLT_STAT]; omega
  rw [State.rd, FLT_STAT_NEXT_SEQ, State.reg_logged s r (by decide)]
  exact (State.rd_wr_off _ _ _ _ hcnt).trans (State.rd_wr_same s FLT_STAT_NEXT_SEQ _ (by decide) (by decide))

theorem State.cPend_logged (s : State) (r : FltRec) :
    (s.logged r).rd FLT_STAT_C_PEND = s.rd FLT_STAT_C_PEND := by
  have hcnt : FLT_STAT ≠ FLT_SRC_CNT r.source := by rw [FLT_SRC_CNT, FLT_STAT]; omega
  rw [State.rd, FLT_STAT_C_PEND, State.reg_logged s r (by decide)]
  exact (State.rd_wr_off _ _ _ _ hcnt).trans
    (State.rd_wr_apart s FLT_STAT_NEXT_SEQ FLT_STAT_C_PEND _ (by decide) (by decide) rfl (Or.inl (by decide)))

/-! What a class does (R586, R587, R590). -/

/-- What a record makes of its source: pending in its class where it is not pending in a higher one (R587). -/
def State.pends (s : State) (r : FltRec) : State :=
  if 1 ≤ r.cls ∧ r.cls ≤ 2 ∧ s.rd (FLT_SRC_PENDING r.source) < r.cls then
    { s.setPending r.source r.cls with srcTimer := tabPut (s.setPending r.source r.cls).srcTimer r.source ((s.setPending r.source r.cls).now, r) }
  else s

section
variable (s : State) {r : FltRec}

theorem State.actOn_eq : s.actOn r = match r.cls with
    | 0 => s.pends r
    | 1 => (s.pends r).raiseLine 24 ((s.pends r).rd FLT_CFG_FW_TASK) ((s.pends r).rd FLT_CFG_FW_LINE)
    | 2 => ((s.pends r).msix ((s.pends r).rd FLT_CFG_HOST_VECTOR)).alert 1
    | _ => (s.pends r).ripcord.alert 2 := rfl

/-- Classes A and D make no source pending. -/
theorem State.pends_of (h : r.cls = 0 ∨ r.cls = 3) : s.pends r = s := by
  rw [State.pends, if_neg (by omega)]

theorem State.actOn_B (h : r.cls = 1) : s.actOn r = (s.pends r).raiseLine 24 ((s.pends r).rd FLT_CFG_FW_TASK) ((s.pends r).rd FLT_CFG_FW_LINE) := by
  rw [s.actOn_eq]
  simp only [h]

theorem State.actOn_C (h : r.cls = 2) : s.actOn r = ((s.pends r).msix ((s.pends r).rd FLT_CFG_HOST_VECTOR)).alert 1 := by
  rw [s.actOn_eq]
  simp only [h]

theorem State.actOn_D (h : r.cls = 3) : s.actOn r = s.ripcord.alert 2 := by
  rw [s.actOn_eq, s.pends_of (Or.inr h)]
  simp only [h]

end

/-- Below the clocks' registers only the domains' own change when every domain switches off (R590). -/
theorem State.reg_allDomainsOff_low (s : State) {o : Nat} (h : o < 0x70000) (hlo : o ≠ PWR_DOMAIN_LO) (hhi : o ≠ PWR_DOMAIN_HI) :
    s.allDomainsOff.reg o = s.reg o := by
  unfold State.allDomainsOff
  extract_lets s1 s2 s3 s4 s5 s6
  have h1 : s1.reg o = s.reg o := (State.reg_wr_other _ _ _ _ hhi).trans (State.reg_wr_other _ _ _ _ hlo)
  have h2 : s2.reg o = s1.reg o := foldl_keeps (fun s => s.reg o) (fun s k =>
    (State.reg_wr_other _ _ _ _ (by simp only [CLUS_ARRAY_STATE_ARRAY, CLUS_ARRAY_STATE]; omega)).trans
      (State.reg_wr_other _ _ _ _ (by simp only [CLUS_ARRAY_STATE_LOGIC, CLUS_ARRAY_STATE]; omega))) _ _
  have h3 : s3.reg o = s2.reg o := by
    refine foldl_keeps (fun s => s.reg o) (fun s k => ?_) _ _
    split
    · rfl
    · exact State.reg_wr_other _ _ _ _ (by simp only [MEMC_STATUS_STATE, MEMC_STATUS]; omega)
  have h4 : s4.reg o = s3.reg o := foldl_keeps (fun s => s.reg o) (fun s k =>
    State.reg_wr_other _ _ _ _ (by simp only [JP_STAT_STATE, JP_STAT]; omega)) _ _
  have h5 : s5.reg o = s4.reg o := foldl_keeps (fun s => s.reg o) (fun s k =>
    State.reg_setReg_other _ _ _ _ (by simp only [CLK_PLL]; omega)) _ _
  have h6 : s6.reg o = s5.reg o := (State.reg_wr_other _ _ _ _ (show o ≠ CLK_STAT by rw [CLK_STAT]; omega)).trans
    (State.reg_wr_other _ _ _ _ (show o ≠ CLK_STAT by rw [CLK_STAT]; omega))
  clear_value s6
  refine (State.reg_congr (s := s6) (by rfl) o).trans ?_
  exact ((((h6.trans h5).trans h4).trans h3).trans h2).trans h1

theorem State.reg_ripcord_low (s : State) {o : Nat} (h : o < 0x70000) (hlo : o ≠ PWR_DOMAIN_LO) (hhi : o ≠ PWR_DOMAIN_HI) :
    s.ripcord.reg o = s.reg o := by
  unfold State.ripcord
  extract_lets s1 s2
  have h2 : s2.reg o = s1.reg o := (State.reg_wr_other _ _ _ _ (show o ≠ HIF_LINK_STAT by rw [HIF_LINK_STAT]; omega)).trans
    (State.reg_wr_other _ _ _ _ (show o ≠ HIF_LINK_STAT by rw [HIF_LINK_STAT]; omega))
  clear_value s2
  refine (State.reg_congr (s := s2) (by rfl) o).trans ?_
  exact h2.trans (s.reg_allDomainsOff_low h hlo hhi)

/-- The registers of the fault collector keep in the ripcord state. -/
theorem State.reg_ripcord (s : State) {o : Nat} (_ : 0x40000 ≤ o) (h' : o < 0x50000) : s.ripcord.reg o = s.reg o :=
  s.reg_ripcord_low (by omega) (by rw [PWR_DOMAIN_LO]; omega) (by rw [PWR_DOMAIN_HI]; omega)

theorem State.reg_msix (s : State) (v : Nat) {o : Nat} (h : o < 0xb0000) : (s.msix v).reg o = s.reg o := by
  unfold State.msix
  split
  · exact State.reg_wr_other _ _ _ _ (show o ≠ HIF_PBA (v / 64) by rw [HIF_PBA]; omega)
  · rfl

theorem State.reg_alert (s : State) (n o : Nat) : (s.alert n).reg o = s.reg o := State.reg_congr (s.alert_regs n) o

theorem State.reg_raiseLine (s : State) (c t line o : Nat) : (s.raiseLine c t line).reg o = s.reg o := rfl

/-- The collector's registers after a record acted: those of its pending source alone changed. -/
theorem State.reg_actOn (s : State) (r : FltRec) (hc : r.cls ≤ 3) {o : Nat} (h : 0x40000 ≤ o) (h' : o < 0x50000) :
    (s.actOn r).reg o = (s.pends r).reg o := by
  have hcases : r.cls = 0 ∨ r.cls = 1 ∨ r.cls = 2 ∨ r.cls = 3 := by omega
  obtain h0 | h1 | h2 | h3 := hcases
  · rw [s.actOn_zero r h0, s.pends_of (Or.inl h0)]
  · rw [s.actOn_B h1, State.reg_raiseLine]
  · rw [s.actOn_C h2, State.reg_alert, State.reg_msix _ _ (by omega)]
  · rw [s.actOn_D h3, State.reg_alert, s.reg_ripcord h h', s.pends_of (Or.inr h3)]

/-- No domain is on in the ripcord state. -/
theorem State.allOff_ripcord (s : State) : Claim.AllOff s.ripcord := by
  have hoff : ∀ f : RF, f = PWR_DOMAIN_LO_ON ∨ f = PWR_DOMAIN_HI_ON → s.allDomainsOff.rd f = 0 := by
    intro f hf
    have hin : f.off = 0x60038 ∨ f.off = 0x60040 := by
      rcases hf with rfl | rfl
      · exact Or.inl rfl
      · exact Or.inr rfl
    unfold State.allDomainsOff
    extract_lets s1 s2 s3 s4 s5 s6
    have h1 : s1.rd f = 0 := by
      rcases hf with rfl | rfl
      · exact (State.rd_wr_off _ _ _ _ (by decide)).trans ((State.rd_wr_same _ _ _ (by decide) (by decide)).trans (Nat.zero_mod _))
      · exact (State.rd_wr_same _ _ _ (by decide) (by decide)).trans (Nat.zero_mod _)
    have h2 : s2.rd f = s1.rd f := foldl_keeps (fun s => s.rd f) (fun s k =>
      (State.rd_wr_off _ _ _ _ (by simp only [CLUS_ARRAY_STATE_ARRAY, CLUS_ARRAY_STATE]; omega)).trans
        (State.rd_wr_off _ _ _ _ (by simp only [CLUS_ARRAY_STATE_LOGIC, CLUS_ARRAY_STATE]; omega))) _ _
    have h3 : s3.rd f = s2.rd f := by
      refine foldl_keeps (fun s => s.rd f) (fun s k => ?_) _ _
      split
      · rfl
      · exact State.rd_wr_off _ _ _ _ (by simp only [MEMC_STATUS_STATE, MEMC_STATUS]; omega)
    have h4 : s4.rd f = s3.rd f := foldl_keeps (fun s => s.rd f) (fun s k =>
      State.rd_wr_off _ _ _ _ (by simp only [JP_STAT_STATE, JP_STAT]; omega)) _ _
    have h5 : s5.rd f = s4.rd f := foldl_keeps (fun s => s.rd f) (fun s k => by
      rw [State.rd, State.rd, State.reg_setReg_other _ _ _ _ (by simp only [CLK_PLL]; omega)]) _ _
    have h6 : s6.rd f = s5.rd f := (State.rd_wr_off _ _ _ _ (show f.off ≠ CLK_STAT by rw [CLK_STAT]; omega)).trans
      (State.rd_wr_off _ _ _ _ (show f.off ≠ CLK_STAT by rw [CLK_STAT]; omega))
    clear_value s6
    refine (State.rd_congr (s := s6) (by rfl) f).trans ?_
    exact (((((h6.trans h5).trans h4).trans h3).trans h2).trans h1)
  have hrip : ∀ f : RF, f.off = 0x60038 ∨ f.off = 0x60040 → s.ripcord.rd f = s.allDomainsOff.rd f := by
    intro f hf
    unfold State.ripcord
    extract_lets s1 s2
    have h2 : s2.rd f = s1.rd f := (State.rd_wr_off _ _ _ _ (show f.off ≠ HIF_LINK_STAT by rw [HIF_LINK_STAT]; omega)).trans
      (State.rd_wr_off _ _ _ _ (show f.off ≠ HIF_LINK_STAT by rw [HIF_LINK_STAT]; omega))
    clear_value s2
    exact (State.rd_congr (s := s2) (by rfl) f).trans h2
  exact ⟨(hrip PWR_DOMAIN_LO_ON (Or.inl rfl)).trans (hoff _ (Or.inl rfl)), (hrip PWR_DOMAIN_HI_ON (Or.inr rfl)).trans (hoff _ (Or.inr rfl))⟩

end Sys2Proof.Machine
end
section
/-! PROOF. Events of classes A, B and C (R586, R587): what one leaves of the rest of the module, whether it is merged or recorded. -/
namespace Sys2Proof.Machine
open Reg

/-- `t` follows `s` by an event of source `n` of class A, B or C: beside the log and the source's own state, only the pending bits of
the host's vectors, the alerts, and the firmware's interrupt line may have changed. -/
structure State.Noted (n : Nat) (s t : State) : Prop where
  rest : t = { s with
    regs := t.regs, tlog := t.tlog, srcLast := t.srcLast, srcMerged := t.srcMerged, srcQuiet := t.srcQuiet, srcLeak := t.srcLeak
    srcTimer := t.srcTimer, pins := t.pins, tasks := t.tasks, gloley := t.gloley, out := t.out }
  regs : ∀ o, ¬ logReg n o → ¬ (0xb4000 ≤ o ∧ o < 0xb4100) → t.reg o = s.reg o
  timer : ∀ m, m ≠ n → tabFind t.srcTimer m = tabFind s.srcTimer m

theorem State.Logged.toNoted {n : Nat} {s t : State} (h : s.Logged n t) : s.Noted n t where
  rest := by
    have h := h.rest
    rw [h]
  regs o ho _ := h.regs o ho
  timer m _ := by rw [h.srcTimer]

namespace State.Noted
variable {n : Nat} {s t u : State}

theorem refl (n : Nat) (s : State) : s.Noted n s := (Logged.refl n s).toNoted

theorem trans (h : s.Noted n t) (h' : t.Noted n u) : s.Noted n u :=
  ⟨h'.rest.trans (congrArg (fun x : State => { x with
      regs := u.regs, tlog := u.tlog, srcLast := u.srcLast, srcMerged := u.srcMerged, srcQuiet := u.srcQuiet, srcLeak := u.srcLeak
      srcTimer := u.srcTimer, pins := u.pins, tasks := u.tasks, gloley := u.gloley, out := u.out }) h.rest),
    fun o ho hp => (h'.regs o ho hp).trans (h.regs o ho hp), fun m hm => (h'.timer m hm).trans (h.timer m hm)⟩

theorem ite {c : Prop} [Decidable c] (h : s.Noted n t) (h' : s.Noted n u) : s.Noted n (if c then t else u) := by
  split
  · exact h
  · exact h'

/-- A field of a register that no event of the source changes. -/
theorem rd (h : s.Noted n t) {f : RF} (hf : ¬ logReg n f.off) (hp : ¬ (0xb4000 ≤ f.off ∧ f.off < 0xb4100)) : t.rd f = s.rd f := by
  rw [State.rd, State.rd, h.regs _ hf hp]

theorem mem (h : s.Noted n t) : t.mem = s.mem := by rw [h.rest]
theorem now (h : s.Noted n t) : t.now = s.now := by rw [h.rest]
theorem host (h : s.Noted n t) : t.host = s.host := by rw [h.rest]
theorem mxc (h : s.Noted n t) : t.mxc = s.mxc := by rw [h.rest]
theorem chains (h : s.Noted n t) : t.chains = s.chains := by rw [h.rest]
theorem svus (h : s.Noted n t) : t.svus = s.svus := by rw [h.rest]
theorem power (h : s.Noted n t) : t.power = s.power := by rw [h.rest]
theorem chans (h : s.Noted n t) : t.chans = s.chans := by rw [h.rest]
theorem rings (h : s.Noted n t) : t.rings = s.rings := by rw [h.rest]

theorem ofPins (n : Nat) (s : State) (p : Pins) : s.Noted n { s with pins := p } := ⟨rfl, fun _ _ _ => rfl, fun _ _ => rfl⟩

theorem emit (n : Nat) (s : State) (o : Out) : s.Noted n (s.emit o) := ⟨rfl, fun _ _ _ => rfl, fun _ _ => rfl⟩

theorem ofTimer (s : State) (n : Nat) (x : Nat × FltRec) : s.Noted n { s with srcTimer := tabPut s.srcTimer n x } :=
  ⟨rfl, fun _ _ _ => rfl, fun _ hm => tabFind_tabPut_other _ _ _ _ hm⟩

theorem setPending (s : State) (n v : Nat) : s.Noted n (s.setPending n v) := by
  have hsrc : logReg n (FLT_SRC n) := Or.inr (Or.inl rfl)
  have hstat : logReg n FLT_STAT := Or.inl rfl
  unfold State.setPending
  extract_lets old s1 s2 s3
  have h1 : s.Logged n s1 := Logged.wr s hsrc
  have h2 : s.Logged n s2 := h1.trans (Logged.wr s1 hstat)
  have h3 : s.Logged n s3 := h2.trans (Logged.wr s2 hstat)
  exact h3.toNoted.trans (ofPins n s3 _)

theorem pends (s : State) (r : FltRec) : s.Noted r.source (s.pends r) :=
  ite ((setPending s _ _).trans (ofTimer _ _ _)) (refl _ s)

theorem raiseLine (n : Nat) (s : State) (c t line : Nat) : s.Noted n (s.raiseLine c t line) := ⟨rfl, fun _ _ _ => rfl, fun _ _ => rfl⟩

theorem wrPending (n : Nat) (s : State) {f : RF} (v : Nat) (hf : 0xb4000 ≤ f.off ∧ f.off < 0xb4100) : s.Noted n (s.wr f v) :=
  ⟨rfl, fun _ _ hp => State.reg_wr_other _ _ _ _ (fun h => hp (h ▸ hf)), fun _ _ => rfl⟩

theorem msix (n : Nat) (s : State) {v : Nat} (hv : v < 2048) : s.Noted n (s.msix v) :=
  ite (wrPending n s 1 (by simp only [HIF_PBA]; omega)) (emit n s _)

theorem alert (n : Nat) (s : State) (k : Nat) : s.Noted n (s.alert k) :=
  ite ⟨rfl, fun _ _ _ => rfl, fun _ _ => rfl⟩ ⟨rfl, fun _ _ _ => rfl, fun _ _ => rfl⟩

theorem actOn (s : State) (r : FltRec) (h : r.cls ≤ 2) : s.Noted r.source (s.actOn r) := by
  have hcases : r.cls = 0 ∨ r.cls = 1 ∨ r.cls = 2 := by omega
  obtain h0 | h1 | h2 := hcases
  · rw [s.actOn_zero r h0]
    exact refl _ s
  · rw [s.actOn_B h1]
    exact (pends s r).trans (raiseLine ..)
  · rw [s.actOn_C h2]
    exact ((pends s r).trans (msix _ _ (s.pends r |>.rd_lt _))).trans (alert ..)

section
variable {e : FaultEv} (unit : Nat → Option (Nat × Nat)) (hn : e.src < 640)
include hn

/-- An event of a class below D. -/
theorem recordWith (h : max (s.eventClass e.src) e.least ≤ 2) : s.Noted e.src (s.recordWith e unit).1 := by
  have hnot := (Logged.noticed s e.src).toNoted
  rw [State.recordWith_eq, State.entered]
  split
  · exact hnot.trans ⟨rfl, fun _ _ _ => rfl, fun _ _ => rfl⟩
  · rw [State.writeRecord_eq]
    exact ((Logged.opened s).toNoted.trans (Logged.logged _ (e.entry ..) hn).toNoted).trans (actOn _ (State.stamped _ (e.entry ..)) h)

end
end State.Noted

/-- Promotion does not reach class D (R584). -/
theorem State.eventClass_alive {s : State} {n : Nat} (h : Claim.Alive s n) : s.eventClass n ≤ 2 := by
  rw [State.eventClass, State.promotes]
  split
  next hp =>
    have := decide_eq_true_eq.mp (Bool.and_eq_true_iff.mp hp).2
    omega
  · exact h

/-- A record that fences no unit is the event's alone. -/
theorem State.record_unfenced (s : State) (e : FaultEv)
    (hu : ∀ c, (if e.fence then fenceByKind e.src e.inst else s.fenceOf e.src e.inst c) = none) :
    s.record e = (s.recordWith e (fun _ => none)).1 := by
  have hunit : (fun c => if e.fence then fenceByKind e.src e.inst else s.fenceOf e.src e.inst c) = fun _ => none := funext hu
  unfold State.record
  rw [hunit]
  dsimp only
  rw [State.recordWith_unfenced s e (fun _ => rfl)]

/-- Sources of no fenced unit: every one outside the kinds of R593. -/
theorem State.fenceOf_none (s : State) {n : Nat} (inst c : Nat)
    (h : ¬ (srcSpUe ≤ n ∧ n < srcSpUe + 24) ∧ ¬ (srcLoftUe ≤ n ∧ n < srcLoftUe + 24) ∧ ¬ (srcMemUe ≤ n ∧ n < srcMemUe + 12)
      ∧ ¬ (srcJpDown ≤ n ∧ n < srcJpDown + 16)) : s.fenceOf n inst c = none := by
  obtain ⟨h1, h2, h3, h4⟩ := h
  simp only [State.fenceOf, ← Bool.decide_and, h1, h2, h3, h4, decide_false, Bool.false_and, Bool.false_eq_true, if_false]

end Sys2Proof.Machine
end
section
/-! PROOF. The registers of a source after its event (R582 to R587): its counts, its leak counter, its class and what is pending. -/
namespace Sys2Proof.Machine
open Reg

section
variable (s : State) (n : Nat)

theorem State.events_leaked : (s.leaked n).rd (FLT_SRC_CNT_EVENTS n) = s.rd (FLT_SRC_CNT_EVENTS n) := by
  have hne : FLT_SRC_CNT n ≠ FLT_SRC n := by rw [FLT_SRC_CNT, FLT_SRC]; omega
  unfold State.leaked
  extract_lets t
  have ht : t.rd (FLT_SRC_CNT_EVENTS n) = s.rd (FLT_SRC_CNT_EVENTS n) := State.rd_wr_off _ _ _ _ hne
  split
  · exact (State.rd_wr_off _ _ _ _ hne).trans ht
  · exact ht

theorem State.events_noticed : ((s.counted n).leaked n).rd (FLT_SRC_CNT_EVENTS n) = satAdd 32 (s.rd (FLT_SRC_CNT_EVENTS n)) 1 % 2 ^ 32 := by
  rw [State.events_leaked, State.rd_congr (s.regs_counted n)]
  exact State.rd_count_same s (FLT_SRC_CNT_EVENTS n) 1 (show 0 ≤ 31 by decide) (show 31 < 64 by decide)

theorem State.leak_leaked : (s.leaked n).rd (FLT_SRC_LEAK n) = if s.fills n then 0 else min 255 (s.rd (FLT_SRC_LEAK n) + 1) := by
  have hlt : (if s.fills n then 0 else min 255 (s.rd (FLT_SRC_LEAK n) + 1)) % 2 ^ 8
      = if s.fills n then 0 else min 255 (s.rd (FLT_SRC_LEAK n) + 1) := Nat.mod_eq_of_lt (by split <;> omega)
  unfold State.leaked
  extract_lets t
  have ht : t.rd (FLT_SRC_LEAK n) = if s.fills n then 0 else min 255 (s.rd (FLT_SRC_LEAK n) + 1) :=
    (State.rd_wr_same s (FLT_SRC_LEAK n) _ (show 40 ≤ 47 by decide) (show 47 < 64 by decide)).trans hlt
  split
  · exact (State.rd_wr_apart t (FLT_SRC_CLASS n) (FLT_SRC_LEAK n) _ (show 60 ≤ 61 by decide) (show 61 < 64 by decide) rfl
      (Or.inl (show 47 < 60 by decide))).trans ht
  · exact ht

theorem State.leak_noticed : ((s.counted n).leaked n).rd (FLT_SRC_LEAK n) = if s.fills n then 0 else min 255 (s.rd (FLT_SRC_LEAK n) + 1) := by
  rw [State.leak_leaked, State.fills_counted, s.rd_counted n (show (FLT_SRC_LEAK n).off = _ from rfl)]

theorem State.class_leaked : (s.leaked n).rd (FLT_SRC_CLASS n) = s.eventClass n := by
  unfold State.leaked
  extract_lets t
  have ht : t.rd (FLT_SRC_CLASS n) = s.rd (FLT_SRC_CLASS n) :=
    State.rd_wr_apart s (FLT_SRC_LEAK n) (FLT_SRC_CLASS n) _ (show 40 ≤ 47 by decide) (show 47 < 64 by decide) rfl
      (Or.inr (show 47 < 60 by decide))
  rw [State.eventClass]
  split
  next hp =>
    have hlow : s.rd (FLT_SRC_CLASS n) < 2 := decide_eq_true_eq.mp (Bool.and_eq_true_iff.mp hp).2
    exact (State.rd_wr_same t (FLT_SRC_CLASS n) _ (show 60 ≤ 61 by decide) (show 61 < 64 by decide)).trans
      (Nat.mod_eq_of_lt (show s.rd (FLT_SRC_CLASS n) + 1 < 4 by omega))
  · exact ht

theorem State.class_noticed : ((s.counted n).leaked n).rd (FLT_SRC_CLASS n) = s.eventClass n := by
  rw [State.class_leaked, State.eventClass_counted]

theorem State.pending_leaked : (s.leaked n).rd (FLT_SRC_PENDING n) = s.rd (FLT_SRC_PENDING n) := by
  unfold State.leaked
  extract_lets t
  have ht : t.rd (FLT_SRC_PENDING n) = s.rd (FLT_SRC_PENDING n) :=
    State.rd_wr_apart s (FLT_SRC_LEAK n) (FLT_SRC_PENDING n) _ (show 40 ≤ 47 by decide) (show 47 < 64 by decide) rfl
      (Or.inr (show 47 < 58 by decide))
  split
  · exact (State.rd_wr_apart t (FLT_SRC_CLASS n) (FLT_SRC_PENDING n) _ (show 60 ≤ 61 by decide) (show 61 < 64 by decide) rfl
      (Or.inl (show 59 < 60 by decide))).trans ht
  · exact ht

theorem State.pending_noticed : ((s.counted n).leaked n).rd (FLT_SRC_PENDING n) = s.rd (FLT_SRC_PENDING n) := by
  rw [State.pending_leaked, s.rd_counted n (show (FLT_SRC_PENDING n).off = _ from rfl)]

theorem State.cPend_noticed : ((s.counted n).leaked n).rd FLT_STAT_C_PEND = s.rd FLT_STAT_C_PEND := by
  have hsrc : FLT_STAT ≠ FLT_SRC n := by simp only [FLT_STAT, FLT_SRC]; omega
  have hcnt : FLT_STAT ≠ FLT_SRC_CNT n := by simp only [FLT_STAT, FLT_SRC_CNT]; omega
  have h1 : (s.counted n).rd FLT_STAT_C_PEND = s.rd FLT_STAT_C_PEND := by
    rw [State.rd_congr (s.regs_counted n)]
    exact State.rd_count_off _ _ _ _ hcnt
  unfold State.leaked
  extract_lets t
  have h2 : t.rd FLT_STAT_C_PEND = s.rd FLT_STAT_C_PEND := (State.rd_wr_off _ _ _ _ hsrc).trans h1
  split
  · exact (State.rd_wr_off _ _ _ _ hsrc).trans h2
  · exact h2

end

/-! A source pending. -/

section
variable (s : State) (n v : Nat)

/-- Setting what a source has pending keeps its other fields. -/
theorem State.rd_src_setPending {f : RF} (hf : f.off = FLT_SRC n) (hd : f.hi < 58 ∨ 59 < f.lo) : (s.setPending n v).rd f = s.rd f := by
  have hne : f.off ≠ FLT_STAT := by rw [hf, FLT_SRC, FLT_STAT]; omega
  unfold State.setPending
  extract_lets _ s1 s2 s3
  have h1 : s1.rd f = s.rd f :=
    State.rd_wr_apart s (FLT_SRC_PENDING n) f v (show 58 ≤ 59 by decide) (show 59 < 64 by decide) hf hd
  have h2 : s2.rd f = s.rd f := (State.rd_wr_off s1 FLT_STAT_B_PEND _ _ hne).trans h1
  have h3 : s3.rd f = s.rd f := (State.rd_wr_off s2 FLT_STAT_C_PEND _ _ hne).trans h2
  clear_value s3
  exact (State.rd_congr (s := s3) (by rfl) f).trans h3

theorem State.rd_off_setPending {f : RF} (hsrc : f.off ≠ FLT_SRC n) (hstat : f.off ≠ FLT_STAT) : (s.setPending n v).rd f = s.rd f := by
  unfold State.setPending
  extract_lets _ s1 s2 s3
  have h3 : s3.rd f = s.rd f :=
    ((State.rd_wr_off s2 FLT_STAT_C_PEND _ _ hstat).trans (State.rd_wr_off s1 FLT_STAT_B_PEND _ _ hstat)).trans
      (State.rd_wr_off s (FLT_SRC_PENDING n) _ _ hsrc)
  clear_value s3
  exact (State.rd_congr (s := s3) (by rfl) f).trans h3

theorem State.nextSeq_setPending : (s.setPending n v).rd FLT_STAT_NEXT_SEQ = s.rd FLT_STAT_NEXT_SEQ := by
  have hne : FLT_STAT ≠ FLT_SRC n := by rw [FLT_SRC, FLT_STAT]; omega
  unfold State.setPending
  extract_lets _ s1 s2 s3
  have h1 : s1.rd FLT_STAT_NEXT_SEQ = s.rd FLT_STAT_NEXT_SEQ := State.rd_wr_off s (FLT_SRC_PENDING n) _ _ hne
  have h2 : s2.rd FLT_STAT_NEXT_SEQ = s.rd FLT_STAT_NEXT_SEQ :=
    (State.rd_wr_apart s1 FLT_STAT_B_PEND FLT_STAT_NEXT_SEQ _ (by decide) (by decide) rfl (Or.inr (by decide))).trans h1
  have h3 : s3.rd FLT_STAT_NEXT_SEQ = s.rd FLT_STAT_NEXT_SEQ :=
    (State.rd_wr_apart s2 FLT_STAT_C_PEND FLT_STAT_NEXT_SEQ _ (by decide) (by decide) rfl (Or.inr (by decide))).trans h2
  clear_value s3
  exact (State.rd_congr (s := s3) (by rfl) _).trans h3

/-- A source that becomes pending in class C asserts ALERT_N (R587). -/
theorem State.alertN_setPending (hn : s.rd (FLT_SRC_PENDING n) ≠ 2) (hc : s.rd FLT_STAT_C_PEND ≤ 640) :
    (s.setPending n 2).pins.alertN = false := by
  have hne : FLT_STAT ≠ FLT_SRC n := by rw [FLT_SRC, FLT_STAT]; omega
  have hold : b2n (s.rd (FLT_SRC_PENDING n) == 2) = 0 := by simp [hn, b2n]
  unfold State.setPending
  extract_lets old s1 s2 s3
  have h1 : s1.rd FLT_STAT_C_PEND = s.rd FLT_STAT_C_PEND := State.rd_wr_off s (FLT_SRC_PENDING n) _ _ hne
  have h2 : s2.rd FLT_STAT_C_PEND = s.rd FLT_STAT_C_PEND :=
    (State.rd_wr_apart s1 FLT_STAT_B_PEND FLT_STAT_C_PEND _ (by decide) (by decide) rfl (Or.inr (by decide))).trans h1
  have h3 : s3.rd FLT_STAT_C_PEND = s.rd FLT_STAT_C_PEND + 1 := by
    refine (State.rd_wr_same s2 FLT_STAT_C_PEND _ (by decide) (by decide)).trans ?_
    rw [h2, hold]
    exact Nat.mod_eq_of_lt (show s.rd FLT_STAT_C_PEND + 1 < 1024 by omega)
  clear_value s3
  exact beq_eq_false_iff_ne.mpr (by rw [h3]; omega)

end

/-! The source's registers once its record acted. -/

section
variable (s : State) {r : FltRec}

theorem State.rd_actOn (hc : r.cls ≤ 3) {f : RF} (h : 0x40000 ≤ f.off) (h' : f.off < 0x50000) : (s.actOn r).rd f = (s.pends r).rd f := by
  rw [State.rd, State.rd, s.reg_actOn r hc h h']

theorem State.rd_src_actOn (hc : r.cls ≤ 3) (hr : r.source < 640) {f : RF} (hf : f.off = FLT_SRC r.source) (hd : f.hi < 58 ∨ 59 < f.lo) :
    (s.actOn r).rd f = s.rd f := by
  have hlo : 0x40000 ≤ f.off ∧ f.off < 0x50000 := by rw [hf, FLT_SRC]; omega
  rw [s.rd_actOn hc hlo.1 hlo.2, State.pends]
  split
  · exact (State.rd_congr (by rfl) f).trans (s.rd_src_setPending _ _ hf hd)
  · rfl

theorem State.events_actOn (hc : r.cls ≤ 3) {n : Nat} (hn : n < 640) :
    (s.actOn r).rd (FLT_SRC_CNT_EVENTS n) = s.rd (FLT_SRC_CNT_EVENTS n) := by
  have hlo : 0x40000 ≤ FLT_SRC_CNT n ∧ FLT_SRC_CNT n < 0x50000 := by rw [FLT_SRC_CNT]; omega
  rw [s.rd_actOn hc (f := FLT_SRC_CNT_EVENTS n) hlo.1 hlo.2, State.pends]
  split
  · exact (State.rd_congr (by rfl) _).trans (s.rd_off_setPending _ _ (f := FLT_SRC_CNT_EVENTS n)
      (show FLT_SRC_CNT n ≠ FLT_SRC r.source by rw [FLT_SRC_CNT, FLT_SRC]; omega)
      (show FLT_SRC_CNT n ≠ FLT_STAT by rw [FLT_SRC_CNT, FLT_STAT]; omega))
  · rfl

theorem State.pending_actOn (hr : r.source < 640) (hc : 1 ≤ r.cls ∧ r.cls ≤ 2) (hp : s.rd (FLT_SRC_PENDING r.source) < r.cls) :
    (s.actOn r).rd (FLT_SRC_PENDING r.source) = r.cls := by
  have hlo : 0x40000 ≤ FLT_SRC r.source ∧ FLT_SRC r.source < 0x50000 := by rw [FLT_SRC]; omega
  rw [s.rd_actOn (by omega) (f := FLT_SRC_PENDING r.source) hlo.1 hlo.2, State.pends, if_pos ⟨hc.1, hc.2, hp⟩]
  exact ((State.rd_congr (by rfl) _).trans (s.rd_setPending _ hr)).trans (Nat.mod_eq_of_lt (by omega))

theorem State.nextSeq_actOn (hc : r.cls ≤ 3) : (s.actOn r).rd FLT_STAT_NEXT_SEQ = s.rd FLT_STAT_NEXT_SEQ := by
  rw [s.rd_actOn hc (f := FLT_STAT_NEXT_SEQ) (by decide) (by decide), State.pends]
  split
  · exact (State.rd_congr (by rfl) _).trans (s.nextSeq_setPending _ _)
  · rfl

end

end Sys2Proof.Machine
end
section
/-! PROOF. Events of a source, here a stall of the bus (R580 to R590): the counts, the record, and what its class does. -/
namespace Sys2Proof.Machine
open Reg

section
variable {s : State} {e : FaultEv} (unit : Nat → Option (Nat × Nat)) (hn : e.src < 640) (hc : max (s.eventClass e.src) e.least ≤ 3)
include hn hc

/-- A field of the source's own register, but what is pending, after its event is merged or recorded. -/
theorem State.rd_src_recordWith {f : RF} (hf : f.off = FLT_SRC e.src) (hd : f.hi < 58 ∨ 59 < f.lo) :
    (s.recordWith e unit).1.rd f = ((s.counted e.src).leaked e.src).rd f := by
  rw [State.recordWith_eq, State.entered]
  split
  · exact State.rd_congr (by rfl) f
  · rw [State.writeRecord_eq]
    refine (State.rd_src_actOn _ (r := State.stamped _ (e.entry ..)) hc hn hf hd).trans ?_
    exact (State.rd_src_logged _ _ hn hf).trans (State.rd_congr (by rfl) f)

theorem State.events_recordWith :
    (s.recordWith e unit).1.rd (FLT_SRC_CNT_EVENTS e.src) = satAdd 32 (s.rd (FLT_SRC_CNT_EVENTS e.src)) 1 % 2 ^ 32 := by
  rw [← s.events_noticed e.src, State.recordWith_eq, State.entered]
  split
  · exact State.rd_congr (by rfl) _
  · rw [State.writeRecord_eq]
    refine (State.events_actOn _ (r := State.stamped _ (e.entry ..)) hc hn).trans ?_
    exact (State.events_logged _ _ _ hn).trans (State.rd_congr (by rfl) _)

theorem State.leak_recordWith :
    (s.recordWith e unit).1.rd (FLT_SRC_LEAK e.src) = if s.fills e.src then 0 else min 255 (s.rd (FLT_SRC_LEAK e.src) + 1) :=
  (State.rd_src_recordWith unit hn hc (f := FLT_SRC_LEAK e.src) rfl (Or.inl (show 47 < 58 by decide))).trans (s.leak_noticed e.src)

theorem State.class_recordWith : (s.recordWith e unit).1.rd (FLT_SRC_CLASS e.src) = s.eventClass e.src :=
  (State.rd_src_recordWith unit hn hc (f := FLT_SRC_CLASS e.src) rfl (Or.inr (show 59 < 60 by decide))).trans (s.class_noticed e.src)

variable (hm : s.merges e.src (max (s.eventClass e.src) e.least) = false)
include hm

theorem State.nextSeq_recordWith : (s.recordWith e unit).1.rd FLT_STAT_NEXT_SEQ = (s.rd FLT_STAT_NEXT_SEQ + 1) % 2 ^ 32 := by
  rw [State.recordWith_new unit hn hm, State.writeRecord_eq]
  refine (State.nextSeq_actOn _ (r := State.stamped _ (e.entry ..)) hc).trans ((State.nextSeq_logged _ _).trans ?_)
  exact congrArg (fun n => (n + 1) % 2 ^ 32) (s.nextSeq_noticed e.src)

omit hc in
/-- The class of a record that exceeds what its source has pending is pending then (R587). -/
theorem State.pending_recordWith (hcls : 1 ≤ max (s.eventClass e.src) e.least ∧ max (s.eventClass e.src) e.least ≤ 2)
    (hp : s.rd (FLT_SRC_PENDING e.src) < max (s.eventClass e.src) e.least) :
    (s.recordWith e unit).1.rd (FLT_SRC_PENDING e.src) = max (s.eventClass e.src) e.least := by
  have hsame : ∀ r : FltRec, ((((s.counted e.src).leaked e.src).opened e.src).logged r).rd (FLT_SRC_PENDING e.src) = s.rd (FLT_SRC_PENDING e.src) :=
    fun r => (State.rd_src_logged _ r hn (f := FLT_SRC_PENDING e.src) rfl).trans (s.pending_noticed e.src)
  rw [State.recordWith_new unit hn hm, State.writeRecord_eq]
  exact State.pending_actOn _ (r := State.stamped _ (e.entry ..)) hn hcls (by rw [State.stamped, FaultEv.entry, hsame]; exact hp)

end

section
variable (s : State) (r : FltRec)

theorem State.power_alert (n : Nat) : (s.alert n).power = s.power := by
  unfold State.alert
  extract_lets
  split <;> rfl

theorem State.pins_alert (n : Nat) : (s.alert n).pins = s.pins := by
  unfold State.alert
  extract_lets
  split <;> rfl

theorem State.pins_msix (v : Nat) : (s.msix v).pins = s.pins := by
  unfold State.msix
  split
  · exact State.wr_pins ..
  · rfl

/-- A record of class C asserts ALERT_N when its source had no class C record pending (R587). -/
theorem State.alertN_actOn (hcls : r.cls = 2) (hp : s.rd (FLT_SRC_PENDING r.source) < 2) (hc : s.rd FLT_STAT_C_PEND ≤ 640) :
    (s.actOn r).pins.alertN = false := by
  rw [s.actOn_C hcls, State.pins_alert, State.pins_msix, State.pends, if_pos (by omega), hcls]
  exact s.alertN_setPending _ (by omega) hc

end

/-- A stall of the bus counted in PWR_STAT (R543). -/
def State.stalled (s : State) : State := { s with power := { s.power with stalled := true } }

theorem State.rd_stalled (s : State) {f : RF} (hf : f.off ≠ PWR_STAT) : (s.stalled.count PWR_STAT_STALLS 1).rd f = s.rd f :=
  (State.rd_count_off _ _ _ _ hf).trans (State.rd_congr (by rfl) f)

theorem execBusStall_first {s : State} (h : s.power.stalled = false) :
    execBusStall s = .next ((s.stalled.count PWR_STAT_STALLS 1).recordWith { src := 628 } (fun _ => none)).1 := by
  have hf : ∀ c, (s.stalled.count PWR_STAT_STALLS 1).fenceOf 628 0 c = none := fun c => State.fenceOf_none _ _ _ (by decide)
  rw [execBusStall, h]
  exact congrArg Host.Outcome.next (State.record_unfenced _ _ hf)

/-- The leak counter fills as R584 says. -/
theorem State.fills_iff (s : State) (n : Nat) :
    s.fills n = true ↔ s.rd (FLT_SRC_PROMOTE_EN n) = 1 ∧ min 255 (s.rd (FLT_SRC_LEAK n) + 1) = s.rd (FLT_SRC_N n) := by
  have : s.rd (FLT_SRC_PROMOTE_EN n) < 2 := s.rd_lt _
  rw [State.fills, State.on, Bool.and_eq_true, bne_iff_ne, beq_iff_eq]
  omega

/-- A stall counted is at the registers of the sources as before. -/
theorem State.eventClass_stalled (s : State) : (s.stalled.count PWR_STAT_STALLS 1).eventClass 628 = s.eventClass 628 :=
  State.eventClass_congr fun f hf => s.rd_stalled (by rw [hf]; decide)

theorem State.fills_stalled (s : State) : (s.stalled.count PWR_STAT_STALLS 1).fills 628 = s.fills 628 :=
  State.fills_congr fun f hf => s.rd_stalled (by rw [hf]; decide)

theorem State.promotes_stalled (s : State) : (s.stalled.count PWR_STAT_STALLS 1).promotes 628 = s.promotes 628 :=
  State.promotes_congr fun f hf => s.rd_stalled (by rw [hf]; decide)

theorem State.merges_stalled (s : State) (c : Nat) : (s.stalled.count PWR_STAT_STALLS 1).merges 628 c = s.merges 628 c := by
  rw [State.merges, State.merges, s.rd_stalled (by decide)]
  rfl

/-- The record of a stall. -/
theorem State.recordMade_stalled (s : State) (c : Nat) (p : Bool) (hc : s.eventClass 628 = c) (hp : s.promotes 628 = p) :
    (s.stalled.count PWR_STAT_STALLS 1).recordMade { src := 628 } (fun _ => none) = {
      time := s.dev, epoch := s.rd TIME_EPOCH_EPOCH, source := 628, cls := c, promoted := p, escalated := false, data := false, fence := false
      seq := s.rd FLT_STAT_NEXT_SEQ, inst := 0, status := 0, merged := tabGet s.srcMerged 0 628, aux := 0, addr := 0 } := by
  rw [State.recordMade, s.eventClass_stalled, s.promotes_stalled, hc, hp, State.stamped, State.dev, s.rd_stalled (by decide),
    s.rd_stalled (by decide), s.rd_stalled (by decide)]
  simp [FaultEv.entry, State.dev, State.stalled]
  decide

end Sys2Proof.Machine
end
section
/-! PROOF. A stall of the bus as it is recorded (R580 to R590): by its class, or merged under the hold-off. -/
namespace Sys2Proof.Machine
open Reg

theorem State.eventClass_of {s : State} {n cls : Nat} {up : Bool} (hp : s.promotes n = up) (hc : s.rd (FLT_SRC_CLASS n) = cls) :
    s.eventClass n = if up then cls + 1 else cls := by
  rw [State.eventClass, hp, hc]

/-- Classes C and D are promoted no further, and A when the leak counter fills (R584). -/
theorem State.promotes_of {s : State} {n cls : Nat} {full : Bool} (hf : s.fills n = full) (hc : s.rd (FLT_SRC_CLASS n) = cls) :
    s.promotes n = (full && decide (cls < 2)) := by
  rw [State.promotes, hf, hc]

/-- An event that is not of class A is never merged (R582). -/
theorem State.merges_high (s : State) (n : Nat) {c : Nat} (h : c ≠ 0) : s.merges n c = false := by
  simp [State.merges, h]

theorem State.merges_holdoff {s : State} {n t0 : Nat} (h : tabFind s.srcLast n = some t0) (ht : s.now < t0 + s.rd FLT_CFG_HOLDOFF * 1000) :
    s.merges n 0 = true := by
  simp [State.merges, h, ht]

theorem State.entered_merged {s : State} {e : FaultEv} {c : Nat} (h : s.merges e.src c = true) (unit : Nat → Option (Nat × Nat)) (up : Bool) :
    s.entered e unit c up = ({ s with srcMerged := tabPut s.srcMerged e.src (satAdd 16 (tabGet s.srcMerged 0 e.src) 1) }, none) := by
  rw [State.entered, if_pos h]

/-- A stall of a class below E: counted, its leak counter one further, no storage touched. -/
theorem State.stall_counted {s : State} {c : Nat} (hc : s.eventClass 628 = c) (h3 : c ≤ 3) :
    let t := ((s.stalled.count PWR_STAT_STALLS 1).recordWith { src := 628 } (fun _ => none)).1
    t.rd (FLT_SRC_CNT_EVENTS 628) = min (s.rd (FLT_SRC_CNT_EVENTS 628) + 1) (2 ^ 32 - 1)
      ∧ t.rd (FLT_SRC_LEAK 628) = (if s.fills 628 then 0 else min 255 (s.rd (FLT_SRC_LEAK 628) + 1)) ∧ t.mem = s.mem
      ∧ t.rd (FLT_SRC_CLASS 628) = c := by
  have hcls : max ((s.stalled.count PWR_STAT_STALLS 1).eventClass 628) 0 ≤ 3 := by rw [s.eventClass_stalled, hc]; omega
  refine ⟨?_, ?_, ?_, ?_⟩
  · rw [State.events_recordWith (e := { src := 628 }) _ (by decide) hcls, s.rd_stalled (by decide), satAdd, Nat.mod_eq_of_lt (by omega)]
  · rw [State.leak_recordWith (e := { src := 628 }) _ (by decide) hcls, s.fills_stalled, s.rd_stalled (by decide)]
  · rw [State.recordWith_mem]
    rfl
  · rw [State.class_recordWith (e := { src := 628 }) _ (by decide) hcls, s.eventClass_stalled, hc]

/-- A stall that is not merged enters the log, and the next SEQ is one further. -/
theorem State.stall_recorded {s : State} {c : Nat} {p : Bool} (hlog : s.tlog.length < 8192) (hc : s.eventClass 628 = c) (hp : s.promotes 628 = p)
    (hm : s.merges 628 c = false) :
    ((s.stalled.count PWR_STAT_STALLS 1).recordWith { src := 628 } (fun _ => none)).1.tlog = s.tlog ++ [{
      time := s.dev, epoch := s.rd TIME_EPOCH_EPOCH, source := 628, cls := c, promoted := p, escalated := false, data := false, fence := false
      seq := s.rd FLT_STAT_NEXT_SEQ, inst := 0, status := 0, merged := tabGet s.srcMerged 0 628, aux := 0, addr := 0 }] := by
  have hm' : (s.stalled.count PWR_STAT_STALLS 1).merges 628 (max ((s.stalled.count PWR_STAT_STALLS 1).eventClass 628) 0) = false := by
    rw [s.merges_stalled, s.eventClass_stalled, hc, Nat.max_zero, hm]
  rw [State.tlog_recordWith (e := { src := 628 }) _ (by decide) hm', s.recordMade_stalled c p hc hp]
  exact State.logWith_short (s := s.stalled.count PWR_STAT_STALLS 1) _ hlog

/-- A stall merged under the hold-off of the source's last record is only counted (R582). -/
theorem State.stall_merged {s : State} {t0 : Nat} (hc : s.eventClass 628 = 0) (ht0 : tabFind s.srcLast 628 = some t0)
    (hnow : s.now < t0 + s.rd FLT_CFG_HOLDOFF * 1000) :
    let t := ((s.stalled.count PWR_STAT_STALLS 1).recordWith { src := 628 } (fun _ => none)).1
    t.tlog = s.tlog ∧ tabGet t.srcMerged 0 628 = min (tabGet s.srcMerged 0 628 + 1) 65535 := by
  have hm : (((s.stalled.count PWR_STAT_STALLS 1).counted 628).leaked 628).merges 628 0 = true := by
    rw [State.merges_noticed _ _ _ (by decide), s.merges_stalled, State.merges_holdoff ht0 hnow]
  have hcls : max ((s.stalled.count PWR_STAT_STALLS 1).eventClass 628) 0 = 0 := by rw [s.eventClass_stalled, hc, Nat.max_zero]
  rw [State.recordWith_eq, hcls, State.entered_merged hm]
  refine ⟨State.tlog_noticed .., ?_⟩
  rw [tabGet_tabPut_same, State.srcMerged_noticed]
  rfl

/-- What a stall of class B or C leaves pending (R587). -/
theorem State.stall_pending {s : State} {c : Nat} (hc : s.eventClass 628 = c) (hb : 1 ≤ c ∧ c ≤ 2) (hp : s.rd (FLT_SRC_PENDING 628) = 0) :
    ((s.stalled.count PWR_STAT_STALLS 1).recordWith { src := 628 } (fun _ => none)).1.rd (FLT_SRC_PENDING 628) = c := by
  have hcls : max ((s.stalled.count PWR_STAT_STALLS 1).eventClass 628) 0 = c := by rw [s.eventClass_stalled, hc, Nat.max_zero]
  have h := State.pending_recordWith (s := s.stalled.count PWR_STAT_STALLS 1) (e := { src := 628 }) (fun _ => none) (by decide)
    (State.merges_high _ _ (by rw [hcls]; omega)) (by rw [hcls]; exact hb) (by rw [hcls, s.rd_stalled (by decide), hp]; omega)
  exact h.trans hcls

theorem State.stall_written {s : State} {c : Nat} (hc : s.eventClass 628 = c) (h0 : c ≠ 0) :
    ∃ u r, ((s.stalled.count PWR_STAT_STALLS 1).recordWith { src := 628 } (fun _ => none)).1 = State.actOn u r ∧ r.cls = c ∧ r.source = 628
      ∧ u.rd (FLT_SRC_PENDING 628) = s.rd (FLT_SRC_PENDING 628) ∧ u.rd FLT_STAT_C_PEND = s.rd FLT_STAT_C_PEND := by
  have hcls : max ((s.stalled.count PWR_STAT_STALLS 1).eventClass 628) 0 = c := by rw [s.eventClass_stalled, hc, Nat.max_zero]
  have hw := State.recordWith_new (s := s.stalled.count PWR_STAT_STALLS 1) (e := { src := 628 }) (fun _ => none) (by decide)
    (State.merges_high _ _ (by rw [hcls]; exact h0))
  refine ⟨_, _, (congrArg Prod.fst hw).trans (State.writeRecord_eq ..), hcls, rfl, ?_, ?_⟩
  · refine (State.rd_src_logged _ _ (n := 628) (by decide) rfl).trans ?_
    exact (State.pending_noticed _ 628).trans (s.rd_stalled (by decide))
  · refine (State.cPend_logged _ _).trans ?_
    exact (State.cPend_noticed _ 628).trans (s.rd_stalled (by decide))

end Sys2Proof.Machine

section
open Sys2Proof.Machine Sys2Proof.Machine.Reg Sys2Proof.Claim

/-- A stall of the bus by the class of its source. -/
theorem stallRecords : FaultRecords := by
  intro s t0 hst hlog src leak full cls newRec counted
  have hexec : exec .busStall s = .next ((s.stalled.count PWR_STAT_STALLS 1).recordWith { src := 628 } (fun _ => none)).1 :=
    execBusStall_first hst
  have hfills : s.fills 628 = decide full := by
    rw [Bool.eq_iff_iff, State.fills_iff, decide_eq_true_iff]
  have hcounted : ∀ c, s.eventClass 628 = c → c ≤ 3 →
      counted ((s.stalled.count PWR_STAT_STALLS 1).recordWith { src := 628 } (fun _ => none)).1 := by
    intro c hc h3
    obtain ⟨hev, hleak, hmem, -⟩ := State.stall_counted hc h3
    refine ⟨hev, hleak.trans ?_, hmem⟩
    simp only [hfills, decide_eq_true_iff]
    rfl
  refine ⟨fun h0 hn hfirst => ?_, fun h0 hn hlast hnow => ?_, fun h0 hf hp => ?_, fun h2 hp hcp => ?_, fun h3 => ?_⟩
  · have hup : s.promotes 628 = false := by rw [State.promotes_of hfills h0, decide_eq_false hn, Bool.false_and]
    have hc : s.eventClass 628 = 0 := State.eventClass_of hup h0
    have hm : s.merges 628 0 = false := State.merges_first hfirst _
    have hcls : max ((s.stalled.count PWR_STAT_STALLS 1).eventClass 628) 0 = 0 := by rw [s.eventClass_stalled, hc, Nat.max_zero]
    refine ⟨_, hexec, hcounted 0 hc (by decide), State.stall_recorded hlog hc hup hm, ?_, (State.stall_counted hc (by decide)).2.2.2⟩
    have h := State.nextSeq_recordWith (s := s.stalled.count PWR_STAT_STALLS 1) (e := { src := 628 }) (fun _ => none) (by decide)
      (by rw [hcls]; decide) (by rw [hcls, s.merges_stalled, hm])
    rw [h, s.rd_stalled (by decide)]
  · have hup : s.promotes 628 = false := by rw [State.promotes_of hfills h0, decide_eq_false hn, Bool.false_and]
    have hc : s.eventClass 628 = 0 := State.eventClass_of hup h0
    obtain ⟨htlog, hmerged⟩ := State.stall_merged hc hlast hnow
    exact ⟨_, hexec, hcounted 0 hc (by decide), htlog, hmerged⟩
  · have hup : s.promotes 628 = true := by rw [State.promotes_of hfills h0, decide_eq_true hf]; rfl
    have hc : s.eventClass 628 = 1 := State.eventClass_of hup h0
    exact ⟨_, hexec, hcounted 1 hc (by decide), State.stall_recorded hlog hc hup (s.merges_high _ (by decide)),
      (State.stall_counted hc (by decide)).2.2.2, State.stall_pending hc (by decide) hp⟩
  · have hup : s.promotes 628 = false := by rw [State.promotes_of hfills h2]; exact Bool.and_false _
    have hc : s.eventClass 628 = 2 := State.eventClass_of hup h2
    obtain ⟨u, r, hu, hr, hsrc, hpend, hcpend⟩ := State.stall_written hc (by decide)
    refine ⟨_, hexec, hcounted 2 hc (by decide), State.stall_recorded hlog hc hup (s.merges_high _ (by decide)),
      (State.stall_counted hc (by decide)).2.2.2, State.stall_pending hc (by decide) hp, ?_⟩
    rw [hu]
    refine u.alertN_actOn r hr ?_ (hcpend.trans_le hcp)
    rw [hsrc, hpend]
    exact Nat.lt_of_le_of_lt hp.le (by decide)
  · have hup : s.promotes 628 = false := by rw [State.promotes_of hfills h3]; exact Bool.and_false _
    have hc : s.eventClass 628 = 3 := State.eventClass_of hup h3
    obtain ⟨u, r, hu, hr, -⟩ := State.stall_written hc (by decide)
    refine ⟨_, hexec, hcounted 3 hc (by decide), State.stall_recorded hlog hc hup (s.merges_high _ (by decide)), ?_⟩
    rw [hu, u.actOn_D hr]
    have halloff := u.allOff_ripcord
    refine ⟨by rw [State.power_alert]; rfl, by rw [State.pins_alert]; rfl, ?_⟩
    exact ⟨(State.rd_congr (State.alert_regs ..) _).trans halloff.1, (State.rd_congr (State.alert_regs ..) _).trans halloff.2⟩

end
end
section
/-! PROOF. Escalation (R588): the record of class C that follows a pending one, and what it leaves. -/
namespace Sys2Proof.Machine
open Reg

/-- The record that an escalation writes, before its stamps. -/
def FltRec.raised (r : FltRec) (status merged : Nat) : FltRec :=
  { r with cls := 2, promoted := false, escalated := true, fence := false, status := status, merged := merged }

theorem State.escalate_unfenced {s : State} {r : FltRec} {status : Nat} (h : status = 0 → s.fenceOf r.source r.inst 2 = none) :
    s.escalate r status = (s.opened r.source).writeRecord (r.raised status (tabGet s.srcMerged 0 r.source)) := by
  have hunit : (if status = 0 then s.fenceOf r.source r.inst 2 else none) = none := by
    split
    next h0 => exact h h0
    · rfl
  rw [State.escalate, hunit]
  rfl

theorem State.Noted.opened (s : State) (n : Nat) : s.Noted n (s.opened n) := ⟨rfl, fun _ _ _ => rfl, fun _ _ => rfl⟩

theorem State.Noted.writeRecord (s : State) {r : FltRec} (hr : r.source < 640) (hc : r.cls ≤ 2) : s.Noted r.source (s.writeRecord r) := by
  rw [State.writeRecord_eq]
  exact (Logged.logged s r hr).toNoted.trans (actOn _ (s.stamped r) hc)

/-- A record of REG_WRITE fences no unit. -/
theorem State.regRecord_eq (s : State) (off v : Nat) :
    s.regRecord off v = (s.recordWith { src := srcRegWrite, aux := v % 2 ^ 32, addr := off } (fun _ => none)).1 := by
  have hu : ∀ c, s.fenceOf srcRegWrite 0 c = none := fun c => s.fenceOf_none _ _ (by decide)
  rw [State.regRecord]
  exact s.record_unfenced _ hu

theorem State.Noted.regRecord {s : State} (h : Claim.Alive s 637) (off v : Nat) : s.Noted 637 (s.regRecord off v) := by
  rw [State.regRecord_eq]
  exact recordWith (e := { src := srcRegWrite, aux := v % 2 ^ 32, addr := off }) _ (show srcRegWrite < 640 by decide)
    ((Nat.max_zero _).trans_le (State.eventClass_alive h))

/-- An event of the collector leaves device time (R517). -/
theorem State.Noted.dev {n : Nat} {s t : State} (h : s.Noted n t) (hn : n < 640) : t.dev = s.dev :=
  h.rd (f := TIME_NOW_NS) (by simp only [logReg, TIME_NOW_NS, TIME_NOW, FLT_STAT, FLT_SRC, FLT_SRC_CNT, TLOG_STAT]; omega)
    (by simp only [TIME_NOW_NS, TIME_NOW]; omega)

section
variable {s : State} {r : FltRec} {status : Nat} (h : status = 0 → s.fenceOf r.source r.inst 2 = none)
include h

theorem State.tlog_escalate : (s.escalate r status).tlog.getLast? = some (s.stamped (r.raised status (tabGet s.srcMerged 0 r.source))) := by
  rw [State.escalate_unfenced h, State.tlog_writeRecord, State.logWith_getLast]
  rfl

variable (hr : r.source < 640)
include hr

theorem State.Noted.escalate : s.Noted r.source (s.escalate r status) := by
  rw [State.escalate_unfenced h]
  exact (opened s _).trans (writeRecord _ (r := r.raised ..) hr (le_refl 2))

theorem State.pending_escalate (hp : s.rd (FLT_SRC_PENDING r.source) < 2) : (s.escalate r status).rd (FLT_SRC_PENDING r.source) = 2 := by
  have hlog : ∀ x : FltRec, ((s.opened r.source).logged x).rd (FLT_SRC_PENDING r.source) = s.rd (FLT_SRC_PENDING r.source) :=
    fun x => (State.rd_src_logged _ x hr rfl).trans (State.rd_congr (by rfl) _)
  rw [State.escalate_unfenced h, State.writeRecord_eq]
  exact State.pending_actOn _ (r := State.stamped _ (r.raised ..)) hr ⟨Nat.le_succ 1, le_refl 2⟩ ((hlog _).trans_lt hp)

theorem State.alertN_escalate (hp : s.rd (FLT_SRC_PENDING r.source) < 2) (hc : s.rd FLT_STAT_C_PEND ≤ 640) :
    (s.escalate r status).pins.alertN = false := by
  have hlog : ∀ x : FltRec, ((s.opened r.source).logged x).rd (FLT_SRC_PENDING r.source) = s.rd (FLT_SRC_PENDING r.source) :=
    fun x => (State.rd_src_logged _ x hr rfl).trans (State.rd_congr (by rfl) _)
  rw [State.escalate_unfenced h, State.writeRecord_eq]
  refine State.alertN_actOn _ (State.stamped _ (r.raised ..)) rfl ((hlog _).trans_lt hp) ?_
  rw [State.cPend_logged]
  exact (State.rd_congr (by rfl) _).trans_le hc

end

/-- Device time and the loader's clock alone follow the passing of time: no register of the fault collector does. -/
theorem State.rd_flt_advanceTo (s : State) (t : Nat) {f : RF} (h : 0x40000 ≤ f.off) (h' : f.off < 0x50000) : (s.advanceTo t).rd f = s.rd f := by
  have hreg : (s.advanceTo t).reg f.off = s.reg f.off := by
    apply State.reg_advanceTo <;> simp only [TIME_NOW, TIME_SLEW, LCS_BOOT] <;> omega
  rw [State.rd, State.rd, hreg]

theorem State.rd_src_advanceTo (s : State) (t n : Nat) (hn : n < 640) {f : RF} (hf : f.off = FLT_SRC n) : (s.advanceTo t).rd f = s.rd f :=
  s.rd_flt_advanceTo t (by rw [hf, FLT_SRC]; omega) (by rw [hf, FLT_SRC]; omega)

end Sys2Proof.Machine
end
section
/-! PROOF. Fencing (R594, R596): the bit that a fence sets, and what the fence of a cluster leaves. -/
namespace Sys2Proof.Machine
open Reg

/-! Bits of a register. -/

theorem bitOf_bitsOf (n : Nat) {hi lo k : Nat} (h : lo + k ≤ hi) : bitOf (bitsOf n hi lo) k = (bitsOf n (lo + k) (lo + k) == 1) := by
  have hw : 2 ^ (hi + 1 - lo) = 2 ^ k * (2 * 2 ^ (hi - lo - k)) := by
    rw [← Nat.pow_succ', ← Nat.pow_add]
    congr 1
    omega
  have hone : lo + k + 1 - (lo + k) = 1 := by omega
  rw [bitOf, bitsOf, bitsOf, hw, Nat.mod_mul_right_div_self, Nat.mod_mul_right_mod, Nat.div_div_eq_div_mul, ← Nat.pow_add, hone, Nat.pow_one]

/-- A bit of a field is a field of one bit. -/
theorem State.bitOf_rd (s : State) (f : RF) {k : Nat} (h : f.lo + k ≤ f.hi) :
    bitOf (s.rd f) k = (s.rd ⟨f.off, f.lo + k, f.lo + k⟩ == 1) := bitOf_bitsOf _ h

theorem State.rd_bit_set (s : State) {off b : Nat} (hb : b < 64) : (s.wr ⟨off, b, b⟩ 1).rd ⟨off, b, b⟩ = 1 := by
  have hone : b + 1 - b = 1 := by omega
  refine (State.rd_wr_same s ⟨off, b, b⟩ 1 (le_refl b) hb).trans ?_
  simp [hone]

/-- Another bit keeps. -/
theorem State.rd_bit_other (s : State) {off b off' b' : Nat} (hb : b < 64) (h : off' ≠ off ∨ b' ≠ b) :
    (s.wr ⟨off, b, b⟩ 1).rd ⟨off', b', b'⟩ = s.rd ⟨off', b', b'⟩ := by
  by_cases ho : off' = off
  · subst ho
    have hd : b' ≠ b := by simpa using h
    exact State.rd_wr_apart s ⟨off', b, b⟩ ⟨off', b', b'⟩ 1 (le_refl b) hb rfl (by dsimp only; omega)
  · exact State.rd_wr_off s ⟨off, b, b⟩ ⟨off', b', b'⟩ 1 ho

theorem State.svuFenced_eq (s : State) (i : Nat) : s.svuFenced i = (s.rd ⟨FLT_FENCED_SVU (i / 64), i % 64, i % 64⟩ == 1) := by
  have h := s.bitOf_rd (FLT_FENCED_SVU_FENCED (i / 64)) (k := i % 64) (show 0 + i % 64 ≤ 63 by omega)
  rw [State.svuFenced]
  simpa only [FLT_FENCED_SVU_FENCED, Nat.zero_add] using h

theorem State.chFenced_eq (s : State) (c : Nat) : s.chFenced c = (s.rd ⟨FLT_FENCED_CH (c / 64), c % 64, c % 64⟩ == 1) := by
  have h := s.bitOf_rd (FLT_FENCED_CH_FENCED (c / 64)) (k := c % 64) (show 0 + c % 64 ≤ 63 by omega)
  rw [State.chFenced]
  simpa only [FLT_FENCED_CH_FENCED, Nat.zero_add] using h

theorem State.clusFenced_eq (s : State) {k : Nat} (hk : k < 24) : s.clusFenced k = (s.rd ⟨FLT_FENCED_UNIT, 16 + k, 16 + k⟩ == 1) :=
  s.bitOf_rd FLT_FENCED_UNIT_CLUS (k := k) (show 16 + k ≤ 39 by omega)

theorem State.portFenced_eq (s : State) {p : Nat} (hp : p < 16) : s.portFenced p = (s.rd ⟨FLT_FENCED_UNIT, p, p⟩ == 1) := by
  have h := s.bitOf_rd FLT_FENCED_UNIT_JP (k := p) (show 0 + p ≤ 15 by omega)
  rw [State.portFenced]
  simpa only [FLT_FENCED_UNIT_JP, Nat.zero_add] using h

/-! SVUs. -/

/-- The fence of an SVU that holds no chain sets its bit and changes nothing else. -/
theorem State.fenceSvu_idle {s : State} (h : s.chains = []) (i : Nat) : s.fenceSvu i = s.wr ⟨FLT_FENCED_SVU (i / 64), i % 64, i % 64⟩ 1 := by
  have hc : (s.wr ⟨FLT_FENCED_SVU (i / 64), i % 64, i % 64⟩ 1).chains = [] := h
  rw [State.fenceSvu]
  generalize s.wr ⟨FLT_FENCED_SVU (i / 64), i % 64, i % 64⟩ 1 = t at hc ⊢
  rw [hc]
  rfl

theorem State.svuFenced_fenceSvu {s : State} (h : s.chains = []) (i : Nat) : (s.fenceSvu i).svuFenced i = true := by
  rw [State.fenceSvu_idle h, State.svuFenced_eq, State.rd_bit_set _ (Nat.mod_lt _ (by decide))]
  rfl

theorem State.svuFenced_fenceSvu_mono {s : State} (h : s.chains = []) (i : Nat) {u : Nat} (hu : s.svuFenced u = true) :
    (s.fenceSvu i).svuFenced u = true := by
  by_cases hui : u = i
  · rw [hui]
    exact State.svuFenced_fenceSvu h i
  · rw [State.svuFenced_eq] at hu
    rw [State.fenceSvu_idle h, State.svuFenced_eq, State.rd_bit_other _ (Nat.mod_lt _ (by decide))]
    · exact hu
    · have hne : u / 64 ≠ i / 64 ∨ u % 64 ≠ i % 64 := by omega
      refine hne.imp_left fun hn => ?_
      simp only [FLT_FENCED_SVU]
      omega

/-- Several SVUs fenced, those fenced before left so. -/
def State.fenceSvus (s : State) (l : List Nat) : State := l.foldl (fun s i => if s.svuFenced i then s else s.fenceSvu i) s

/-- What the fence of idle SVUs changes: registers of the fences of SVUs alone. -/
theorem State.fenceSvus_idle {s : State} (h : s.chains = []) (l : List Nat) (hl : ∀ i ∈ l, i < 96) :
    ∃ r, s.fenceSvus l = { s with regs := r }
      ∧ (∀ o, o < 0x40020 ∨ 0x40030 ≤ o → (s.fenceSvus l).reg o = s.reg o) ∧ (∀ u, s.svuFenced u = true → (s.fenceSvus l).svuFenced u = true)
      ∧ ∀ u ∈ l, (s.fenceSvus l).svuFenced u = true := by
  induction l generalizing s with
  | nil => exact ⟨s.regs, rfl, fun _ _ => rfl, fun _ hu => hu, by simp⟩
  | cons i l ih =>
    have hl' : ∀ i ∈ l, i < 96 := fun j hj => hl j (by simp [hj])
    by_cases hi : s.svuFenced i = true
    · have he : s.fenceSvus (i :: l) = s.fenceSvus l := by
        rw [State.fenceSvus, List.foldl_cons, if_pos hi]
        rfl
      obtain ⟨r, hr, hreg, hmono, hall⟩ := ih h hl'
      rw [he]
      refine ⟨r, hr, hreg, hmono, fun u hu => ?_⟩
      rcases List.mem_cons.mp hu with rfl | hu
      · exact hmono _ hi
      · exact hall u hu
    · have he : s.fenceSvus (i :: l) = (s.fenceSvu i).fenceSvus l := by
        rw [State.fenceSvus, List.foldl_cons, if_neg hi]
        rfl
      have hidle := State.fenceSvu_idle h i
      have hc : (s.fenceSvu i).chains = [] := by rw [hidle]; exact h
      obtain ⟨r, hr, hreg, hmono, hall⟩ := ih hc hl'
      rw [he]
      refine ⟨r, ?_, fun o ho => ?_, fun u hu => hmono u (State.svuFenced_fenceSvu_mono h i hu), fun u hu => ?_⟩
      · rw [hr, hidle]
        rfl
      · refine (hreg o ho).trans ?_
        have hi96 := hl i (by simp)
        rw [hidle]
        exact State.reg_wr_other _ _ _ _ (by simp only [FLT_FENCED_SVU]; omega)
      · rcases List.mem_cons.mp hu with rfl | hu
        · exact hmono _ (State.svuFenced_fenceSvu h u)
        · exact hall u hu

/-! The core and the mailbox of a cluster. -/

theorem State.reg_ite {c : Prop} [Decidable c] {a b : State} {o : Nat} {w : Word} (ha : a.reg o = w) (hb : b.reg o = w) :
    (if c then a else b).reg o = w := by
  split
  · exact ha
  · exact hb

theorem State.reg_unlock (s : State) (n : Nat) {o : Nat} (ho : o < 0xc0000) : (s.unlock n).reg o = s.reg o := by
  have hne : o ≠ MXC_LOCK n := by rw [MXC_LOCK]; omega
  refine (State.reg_congr (s := ((s.wr (MXC_LOCK_HELD n) 0).wr (MXC_LOCK_ID n) 0).wr (MXC_LOCK_OFFSET n) 0) (by rfl) o).trans ?_
  exact ((State.reg_wr_other _ _ _ _ hne).trans (State.reg_wr_other _ _ _ _ hne)).trans (State.reg_wr_other _ _ _ _ hne)

theorem State.reg_releaseLock (s : State) (c t : Nat) {o : Nat} (ho : o < 0xc0000) : (s.releaseLock c t).reg o = s.reg o :=
  State.reg_ite (s.reg_unlock _ ho) rfl

theorem State.reg_rbufClear (s : State) (a o : Nat) : (s.rbufClear a).reg o = s.reg o := rfl

theorem State.reg_dropWaits (s : State) (c : Nat) {o : Nat} (ho : o < 0xc0000) : (s.dropWaits c).reg o = s.reg o := by
  have hclear : ((rangeFrom (64 * c) 64).foldl (fun s a => s.rbufClear a) s).reg o = s.reg o :=
    foldl_keeps (fun s => s.reg o) (f := fun s a => s.rbufClear a) (fun s a => s.reg_rbufClear a o) _ _
  exact (State.reg_releaseLock _ _ _ ho).trans hclear

theorem State.reg_coreOff (s : State) (c : Nat) {o : Nat} (ho : o < 0xc0000) : (s.coreOff c).reg o = s.reg o := by
  unfold State.coreOff
  have hne : o ≠ CORE_DROGUE c := by
    simp only [CORE_DROGUE, coreBase]
    repeat' split
    all_goals omega
  extract_lets t u src
  have ht : t.reg o = s.reg o := s.reg_dropWaits c ho
  refine (State.reg_wr_other _ _ _ _ hne).trans ((State.reg_congr (s := t) (by rfl) o).trans ht)

theorem State.tasks_coreOff (s : State) (c : Nat) : ∀ y ∈ (s.coreOff c).tasks, y.1 / 64 ≠ c := by
  intro y hy
  unfold State.coreOff at hy
  extract_lets t u v at hy
  have hy : y ∈ t.tasks.filter (fun y => y.1 / 64 != c) := hy
  simpa using (List.mem_filter.mp hy).2

theorem mem_tabPut {α : Type} {l : Tab α} {k : Nat} {v : α} {y : Nat × α} (h : y ∈ tabPut l k v) : y = (k, v) ∨ y ∈ l := by
  induction l with
  | nil => simpa [tabPut] using h
  | cons x l ih =>
    obtain ⟨j, w⟩ := x
    simp only [tabPut] at h
    split at h
    · rcases List.mem_cons.mp h with rfl | h
      · exact Or.inl rfl
      · exact Or.inr (List.mem_cons_of_mem _ h)
    · split at h
      · rcases List.mem_cons.mp h with rfl | h
        · exact Or.inl rfl
        · exact Or.inr h
      · rcases List.mem_cons.mp h with rfl | h
        · exact Or.inr (by simp)
        · exact (ih h).imp_right (List.mem_cons_of_mem _)

/-- An event of a side of a cluster's mailbox is a line of a core: of the supervisors' for the F side (R448). -/
theorem State.mbxEvent_cluster (s : State) {m : Nat} (hm : m < 24) (d : Nat) :
    s.mbxEvent m d = s ∨ ∃ c t line, s.mbxEvent m d = s.raiseLine c t line ∧ (d = 0 → 24 ≤ c) := by
  unfold State.mbxEvent
  dsimp only
  rw [if_pos hm]
  split
  next hd => exact Or.inr ⟨_, _, _, rfl, fun _ => Nat.le_add_right 24 _⟩
  next hd =>
    split
    · exact Or.inr ⟨_, _, _, rfl, fun h => absurd h hd⟩
    · exact Or.inl rfl

theorem State.reg_setSide (s : State) (m d : Nat) (x : MbxSide) (o : Nat) : (s.setSide m d x).reg o = s.reg o := rfl

theorem State.reg_mbxEvent (s : State) {m : Nat} (hm : m < 24) (d o : Nat) : (s.mbxEvent m d).reg o = s.reg o := by
  obtain h | ⟨c, k, line, h, -⟩ := s.mbxEvent_cluster hm d
  · rw [h]
  · rw [h]
    rfl

theorem State.reg_mbxCheck (s : State) {m : Nat} (hm : m < 24) (d o : Nat) : (s.mbxCheck m d).reg o = s.reg o := by
  rw [State.mbxCheck]
  exact State.reg_ite ((State.reg_mbxEvent _ hm d o).trans (s.reg_setSide ..)) (s.reg_setSide ..)

/-- A side without a condition raises nothing. -/
theorem State.mbxCheck_quiet {s : State} {m d : Nat} (h : s.mbxCond m d = false) : s.mbxCheck m d = s.setSide m d { s.side m d with armed := false } := by
  simp [State.mbxCheck, h]

/-- The tasks after a check of a cluster's F side: one of a supervisor core may have a line pending. -/
theorem State.tasks_mbxCheck (s : State) {m : Nat} (hm : m < 24) : ∀ y ∈ (s.mbxCheck m 0).tasks, y ∈ s.tasks ∨ 24 ≤ y.1 / 64 := by
  intro y hy
  rw [State.mbxCheck] at hy
  dsimp only at hy
  split at hy
  · obtain h | ⟨c, k, line, h, hc⟩ := (s.setSide m 0 { s.side m 0 with armed := s.mbxCond m 0 }).mbxEvent_cluster hm 0
    · rw [h] at hy
      exact Or.inl hy
    · rw [h, State.raiseLine] at hy
      have hc := hc rfl
      rcases mem_tabPut hy with rfl | hy
      · refine Or.inr ?_
        dsimp only
        split <;> omega
      · exact Or.inl hy
  · exact Or.inl hy

/-- A side in its reset, before either side is told (R449). -/
def State.mbxCleared (s : State) (m d : Nat) : State :=
  ((((((s.setReg (MBX_DB_IN m d) 0).wr (MBX_STAT_READY m d) 0).setSide m d {}).wr (MBX_STAT_DISCARDED m (otherSide d))
    (min 255 (s.side m d).queue.length))).wr (MBX_DB_IN_PEER_RESET m (otherSide d)) 1)

theorem State.mbxReset_eq (s : State) (m d : Nat) : s.mbxReset m d = ((s.mbxCleared m d).mbxCheck m d).mbxCheck m (otherSide d) := rfl

/-- A side's reset changes registers of the mailboxes alone. -/
theorem State.reg_mbxCleared (s : State) {m d o : Nat} (hm : m < 30) (hd : d ≤ 1) (ho : 0x40000 ≤ o) : (s.mbxCleared m d).reg o = s.reg o := by
  have hdb : ∀ d ≤ 1, o ≠ MBX_DB_IN m d := fun d hd => by rw [MBX_DB_IN]; omega
  have hstat : ∀ d ≤ 1, o ≠ MBX_STAT m d := fun d hd => by rw [MBX_STAT]; omega
  have he : otherSide d ≤ 1 := Nat.sub_le _ _
  rw [State.mbxCleared, State.reg_wr_other _ _ _ _ (hdb _ he), State.reg_wr_other _ _ _ _ (hstat _ he), State.reg_setSide,
    State.reg_wr_other _ _ _ _ (hstat d hd), State.reg_setReg_other _ _ _ _ (hdb d hd)]

theorem State.reg_mbxReset (s : State) {m d o : Nat} (hm : m < 24) (hd : d ≤ 1) (ho : 0x40000 ≤ o) : (s.mbxReset m d).reg o = s.reg o := by
  rw [State.mbxReset_eq, State.reg_mbxCheck _ hm, State.reg_mbxCheck _ hm, State.reg_mbxCleared _ (by omega) hd ho]

/-- A side reset has no doorbell and no word, and so nothing to tell its own agent. -/
theorem State.mbxCond_cleared (s : State) (m : Nat) : (s.mbxCleared m 1).mbxCond m 1 = false := by
  have hside : (s.mbxCleared m 1).side m 1 = {} := by
    simp -implicitDefEqProofs only [State.mbxCleared, State.side, State.wr_mbx, State.setSide_mbx, tabGet_tabPut_same]
  have hdb : (s.mbxCleared m 1).reg (MBX_DB_IN m 1) = 0 := by
    have h1 : MBX_DB_IN m 1 ≠ MBX_DB_IN m (otherSide 1) := by simp only [MBX_DB_IN, otherSide]; omega
    have h2 : MBX_DB_IN m 1 ≠ MBX_STAT m (otherSide 1) := by simp only [MBX_DB_IN, MBX_STAT, otherSide]; omega
    have h3 : MBX_DB_IN m 1 ≠ MBX_STAT m 1 := by simp only [MBX_DB_IN, MBX_STAT]; omega
    rw [State.mbxCleared, State.reg_wr_other _ _ _ _ h1, State.reg_wr_other _ _ _ _ h2, State.reg_setSide,
      State.reg_wr_other _ _ _ _ h3, State.reg_setReg_same]
  have hz : (0 : Word).toNat % 2 ^ 32 = 0 := rfl
  rw [State.mbxCond, hside, hdb, hz]
  simp

/-- A side reset has nothing to tell its own agent; the other side's event goes to a supervisor. -/
theorem State.tasks_mbxReset (s : State) {m : Nat} (hm : m < 24) : ∀ y ∈ (s.mbxReset m 1).tasks, y ∈ s.tasks ∨ 24 ≤ y.1 / 64 := by
  intro y hy
  rw [State.mbxReset_eq, State.mbxCheck_quiet (s.mbxCond_cleared m)] at hy
  have h := State.tasks_mbxCheck _ hm y hy
  exact h

end Sys2Proof.Machine
end
section
/-! PROOF. The commands of the fault collector (R583 to R589, R594): leak steps, demotions, escalations, acknowledgements and fences. -/
namespace Sys2Proof.Machine
open Reg

/-- What a grant of the matrix changes: whom the block granted last (R646). -/
theorem State.mxcGrant_eq (s : State) (m : Master) (off : Nat) : ∃ l, s.mxcGrant m off = { s with mxcLast := l } := by
  unfold State.mxcGrant
  split
  · exact ⟨_, rfl⟩
  · exact ⟨_, rfl⟩

theorem execLeakStep_counting {s : State} {f : Source} (h : 0 < s.rd (FLT_SRC_LEAK f)) :
    execLeakStep f s =
      let t := s.advanceTo (tabGet s.srcLeak 0 f + 1000 * max 1 (1000 * s.rd (FLT_SRC_WINDOW f) / max 1 (s.rd (FLT_SRC_N f))))
      .next { t.wr (FLT_SRC_LEAK f) (t.rd (FLT_SRC_LEAK f) - 1) with srcLeak := tabPut t.srcLeak f t.now } := by
  have hon : (!s.on (FLT_SRC_LEAK f)) = false := by simp [State.on]; omega
  simp only [execLeakStep, hon, Bool.false_eq_true, if_false]

theorem execEscBExpiry_pending {s : State} {f : Source} {t0 : Nat} {x : FltRec} (h : tabFind s.srcTimer f = some (t0, x))
    (hp : s.rd (FLT_SRC_PENDING f) = 1) : execEscBExpiry f s = .next ((s.advanceTo (t0 + 1000 * s.rd FLT_CFG_ESC_B_TIME)).escalate x 0) := by
  simp only [execEscBExpiry, h, hp, if_true]

theorem execEscCExpiry_pending {s : State} {f : Source} {t0 : Nat} {x : FltRec} (h : tabFind s.srcTimer f = some (t0, x))
    (hp : s.rd (FLT_SRC_PENDING f) = 2) :
    execEscCExpiry f s = .next (((s.advanceTo (t0 + 1000000 * s.rd FLT_CFG_ESC_C_TIME)).escalate x ST_ABORTED_RESET).moduleReset 4) := by
  simp only [execEscCExpiry, h, hp, if_true]

section
variable {s t : State} {m : Master} {v : Word} (h : Claim.Reaches s (Claim.whole m v) FLT_ACK) (hright : s.fwOrHost m = true)
include h hright

/-- A FLT_ACK that acknowledges its record does nothing else. -/
theorem execFltAck_ok (ha : (s.mxcGrant m FLT_ACK).acknowledge ((Claim.whole m v).get FLT_ACK_SOURCE) ((Claim.whole m v).get FLT_ACK_SEQ)
    (m != .host) = (t, ST_OK)) : execFltAck (Claim.whole m v) s = .next t := by
  have hr : (s.fwOrHost m && (Claim.whole m v).width == 8) = true := by simp [hright]
  rw [execFltAck, show (Claim.whole m v).m = m from rfl, hr, State.regRow_of_reaches h, ha]
  rfl

/-- One that does not is recorded with the register (R589). -/
theorem execFltAck_bad {st : Nat} (hst : st ≠ 0) (ha : (s.mxcGrant m FLT_ACK).acknowledge ((Claim.whole m v).get FLT_ACK_SOURCE)
    ((Claim.whole m v).get FLT_ACK_SEQ) (m != .host) = (t, st)) :
    execFltAck (Claim.whole m v) s = .next (t.regRecord FLT_ACK (Claim.whole m v).bits) := by
  have hr : (s.fwOrHost m && (Claim.whole m v).width == 8) = true := by simp [hright]
  rw [execFltAck, show (Claim.whole m v).m = m from rfl, hr, State.regRow_of_reaches h, ha]
  cases st with
  | zero => exact absurd rfl hst
  | succ n => rfl

end

theorem whole_get (m : Master) (v : Word) (f : RF) : (Claim.whole m v).get f = bitsOf v.toNat f.hi f.lo := rfl

/-- A SEQ that is not behind the record's acknowledges it (R589). -/
theorem seqEarlier_of_range {a b : Nat} (h : b ≤ a) (h' : a < b + 2 ^ 31) : seqEarlier a b = false := by
  rw [Bool.eq_false_iff]
  intro hc
  simp only [seqEarlier, Bool.and_eq_true, decide_eq_true_eq] at hc
  omega

/-! Time passing changes the registers of time, the time itself and the slew left alone. -/

/-- A state as another one, but for its registers, its time and its life-cycle state. -/
def State.Elapsed (s t : State) : Prop := ∃ r n l, t = { s with regs := r, now := n, life := l }

theorem State.Elapsed.refl (s : State) : s.Elapsed s := ⟨_, _, _, rfl⟩

theorem State.Elapsed.trans {s t u : State} (h : s.Elapsed t) (h' : t.Elapsed u) : s.Elapsed u := by
  obtain ⟨r, n, l, rfl⟩ := h
  obtain ⟨r', n', l', rfl⟩ := h'
  exact ⟨r', n', l', rfl⟩

theorem State.Elapsed.wr (s : State) (f : RF) (v : Nat) : s.Elapsed (s.wr f v) := ⟨_, _, _, rfl⟩

theorem State.Elapsed.ite {s t u : State} {c : Prop} [Decidable c] (h : s.Elapsed t) (h' : s.Elapsed u) : s.Elapsed (if c then t else u) := by
  split
  · exact h
  · exact h'

theorem State.elapsed_advance (s : State) (t : Nat) : s.Elapsed (s.advance t) := by
  unfold State.advance
  extract_lets _ _ _ _ _ _ src s1 s2 s3
  have h1 : s.Elapsed s1 := ⟨_, _, _, rfl⟩
  have h2 : s.Elapsed s2 := h1.trans (Elapsed.wr ..)
  have h3 : s.Elapsed s3 := Elapsed.ite h2 (h2.trans (Elapsed.wr ..))
  exact Elapsed.ite h3 (h3.trans (Elapsed.wr ..))

theorem State.elapsed_advanceTo (s : State) (t : Nat) : s.Elapsed (s.advanceTo t) := Elapsed.ite (s.elapsed_advance t) (Elapsed.refl s)

section
variable (s : State) (t : Nat)

theorem State.tlog_advanceTo : (s.advanceTo t).tlog = s.tlog := by
  obtain ⟨r, n, l, h⟩ := s.elapsed_advanceTo t
  rw [h]

theorem State.chans_advanceTo : (s.advanceTo t).chans = s.chans := by
  obtain ⟨r, n, l, h⟩ := s.elapsed_advanceTo t
  rw [h]

theorem State.srcMerged_advanceTo : (s.advanceTo t).srcMerged = s.srcMerged := by
  obtain ⟨r, n, l, h⟩ := s.elapsed_advanceTo t
  rw [h]

theorem State.fenceOf_advanceTo (src inst c : Nat) : (s.advanceTo t).fenceOf src inst c = s.fenceOf src inst c := by
  have hchan : ∀ c, (s.advanceTo t).chan c = s.chan c := fun c => by rw [State.chan, State.chan, s.chans_advanceTo t]
  rw [State.fenceOf, State.fenceOf, hchan]

end

end Sys2Proof.Machine
end
section
/-! PROOF. What requests that fail, and a port that goes DOWN (R506), leave of the registers: what a send or a response leaves, and then
the deliveries of a failure. -/
namespace Sys2Proof.Machine
open Reg

@[simp] theorem State.regs_ite (c : Prop) [Decidable c] (a b : State) : (if c then a else b).regs = if c then a.regs else b.regs :=
  apply_ite State.regs c a b

@[simp] theorem foldl_regs {α : Type} (f : State → α → State) (h : ∀ s a t, f s a = t → t.regs = s.regs) (l : List α) (s : State) :
    (l.foldl f s).regs = s.regs := by
  induction l generalizing s with
  | nil => rfl
  | cons a l ih => exact (ih _).trans (h s a _ rfl)

@[simp] theorem foldl_fst_regs {α β : Type} (f : State × β → α → State × β) (h : ∀ p a q, f p a = q → q.1.regs = p.1.regs) (l : List α) (p : State × β) :
    (l.foldl f p).1.regs = p.1.regs := by
  induction l generalizing p with
  | nil => rfl
  | cons a l ih => exact (ih _).trans (h p a _ rfl)

@[simp] theorem State.putFlit_regs (s : State) (p : Nat) (bs : List Byte) : (s.putFlit p bs).regs = s.regs := by simp [State.putFlit]

@[simp] theorem State.sendSeq_regs (s : State) (p seq : Nat) (f : TxFlit) : (s.sendSeq p seq f).regs = s.regs := by simp [State.sendSeq]

@[simp] theorem State.flushPort_regs (s : State) (p n : Nat) : (s.flushPort p n).regs = s.regs := by
  induction n generalizing s with
  | zero => simp [State.flushPort]
  | succ n ih =>
    unfold State.flushPort
    dsimp only
    repeat' split
    all_goals simp [ih]

@[simp] theorem State.flush_regs (s : State) (p : Nat) : (s.flush p).regs = s.regs := by simp [State.flush]

@[simp] theorem State.queueMsg_regs (s : State) (p : Nat) (m : FMsg) (src : Nat) (tag : Option Nat) : (s.queueMsg p m src tag).regs = s.regs := by simp [State.queueMsg]

theorem State.sendOwn_regs (s : State) (m : FMsg) (g : Nat) (tag : Option Nat) {r} (hr : s.sendOwn m g tag = some r) : r.1.regs = s.regs := by
  unfold State.sendOwn at hr
  repeat' split at hr
  all_goals cases hr
  all_goals simp

@[simp] theorem State.respond_regs (s : State) (m : FMsg) (g : Nat) : (s.respond m g).regs = s.regs := by
  unfold State.respond
  repeat' split
  all_goals grind [→ State.sendOwn_regs]

@[simp] theorem State.holdRoute_regs (s : State) (n : Nat) : (s.holdRoute n).regs = s.regs := by simp [State.holdRoute]

theorem State.reg_respond (s : State) (m : FMsg) (g o : Nat) : (s.respond m g).reg o = s.reg o := State.reg_congr (State.respond_regs s m g) o

theorem State.reg_updChain (s : State) (id : Nat) (f : Chain → Chain) (o : Nat) : (s.updChain id f).reg o = s.reg o := rfl

/-- A failure delivered changes at most the state of a send (R513). -/
theorem State.reg_deliver_fail (s : State) (k : Sink) (st : Nat) {o : Nat} (ho : o ≠ JFAB_TX_STAT) : (s.deliver k (.fail st)).reg o = s.reg o := by
  cases k with
  | remote node tag typ offset => exact s.reg_respond ..
  | peer id place =>
    unfold State.deliver
    dsimp only
    split
    · rfl
    · exact (State.reg_respond _ _ _ _).trans rfl
  | store core id =>
    unfold State.deliver
    dsimp only
    split <;> rfl
  | txGo =>
    exact ((State.reg_wr_other _ _ _ _ ho).trans (State.reg_wr_other _ _ _ _ ho)).trans (State.reg_wr_other _ _ _ _ ho)
  | atom id lsl elem node va ga => rfl
  | spool | chainWrite | chainEnd | buffer | pin | undo | none => rfl

section
variable {o : Nat} (ho : o ≠ JFAB_TX_STAT)
include ho

theorem State.reg_endReq_fail (s : State) (tag st : Nat) : (s.endReq tag (.fail st)).reg o = s.reg o := by
  unfold State.endReq
  split
  · rfl
  · exact (State.reg_deliver_fail _ _ _ ho).trans (State.reg_congr (by rfl) o)

theorem State.reg_launch (s : State) (m : FMsg) : (s.launch m).reg o = s.reg o := by
  unfold State.launch
  split
  next t p hsend =>
    have ht : t.reg o = s.reg o := State.reg_congr (State.sendOwn_regs _ _ _ _ hsend) o
    split
    · exact (State.reg_congr (by rfl) o).trans ht
    · exact ht
  · exact State.reg_endReq_fail ho _ _ _

theorem State.reg_releaseRoutes (s : State) : s.releaseRoutes.reg o = s.reg o := by
  unfold State.releaseRoutes
  extract_lets go
  exact (foldl_keeps (fun s => s.reg o) (f := fun s m => s.launch m) (fun s m => State.reg_launch ho s m) go _).trans
    (State.reg_congr (s := s) (by rfl) o)

theorem State.reg_failReqs (s : State) (p : Nat → FReq → Bool) (st : Nat) : (s.failReqs p st).reg o = s.reg o :=
  (State.reg_releaseRoutes ho _).trans
    (foldl_keeps (fun s => s.reg o) (f := fun s (q : Nat × FReq) => s.endReq q.1 (.fail st)) (fun s q => State.reg_endReq_fail ho s q.1 st) _ s)

theorem State.reg_dropLink (s : State) (p : Nat) : (s.dropLink p).reg o = s.reg o := by
  unfold State.dropLink
  extract_lets x tags t
  exact (State.reg_failReqs ho _ _ _).trans (State.reg_congr (s := s) (by rfl) o)

end

theorem State.reg_setPortState (s : State) (p st o : Nat) : (s.setPortState p st).reg o = (s.wr (JP_STAT_STATE p) st).reg o := by
  unfold State.setPortState
  extract_lets t
  exact foldl_keeps (fun s => s.reg o) (f := fun t n => t.holdRoute n) (fun t n => State.reg_congr (State.holdRoute_regs t n) o) _ t

/-- A port that goes DOWN changes its own state (R506). -/
theorem State.reg_portDown (s : State) (p : Nat) {o : Nat} (ho : o ≠ JFAB_TX_STAT) :
    (s.portDown p).reg o = (s.wr (JP_STAT_STATE p) 4).reg o := by
  unfold State.portDown
  extract_lets t
  exact ((State.reg_dropLink ho _ p).trans (State.reg_congr (s := t) (by rfl) o)).trans (s.reg_setPortState p 4 o)

end Sys2Proof.Machine
end
section
/-! PROOF. The commands of the fault collector, carried out (R583 to R589, R594); the trouble log survives a module reset (R569). -/
namespace Sys2Proof.Machine
open Reg

@[simp] theorem State.tlog_ite (c : Prop) [Decidable c] (a b : State) : (if c then a else b).tlog = if c then a.tlog else b.tlog :=
  apply_ite State.tlog c a b

@[simp] theorem foldl_tlog {α : Type} (f : State → α → State) (h : ∀ s a t, f s a = t → t.tlog = s.tlog) (l : List α) (s : State) :
    (l.foldl f s).tlog = s.tlog := by
  induction l generalizing s with
  | nil => rfl
  | cons a l ih => exact (ih _).trans (h s a _ rfl)

@[simp] theorem foldl_fst_tlog {α β : Type} (f : State × β → α → State × β) (h : ∀ p a q, f p a = q → q.1.tlog = p.1.tlog) (l : List α) (p : State × β) :
    (l.foldl f p).1.tlog = p.1.tlog := by
  induction l generalizing p with
  | nil => rfl
  | cons a l ih => exact (ih _).trans (h p a _ rfl)

@[simp] theorem State.setDomain_tlog (s : State) (d : Nat) (v : Bool) : (s.setDomain d v).tlog = s.tlog := by simp [State.setDomain]

@[simp] theorem State.flashTouch_tlog (s : State) : (s.flashTouch).tlog = s.tlog := by simp [State.flashTouch]

@[simp] theorem State.flashErase_tlog (s : State) (o n : Nat) : (s.flashErase o n).tlog = s.tlog := rfl

@[simp] theorem State.alert_tlog (s : State) (n : Nat) : (s.alert n).tlog = s.tlog := by simp [State.alert]

@[simp] theorem State.audit_tlog (s : State) (action status : Nat) (a : Actor) (arg0 arg1 digest : Nat) : (s.audit action status a arg0 arg1 digest).tlog = s.tlog := by simp [State.audit]

@[simp] theorem State.abandonUpdate_tlog (s : State) : (s.abandonUpdate).tlog = s.tlog := by
  unfold State.abandonUpdate
  repeat' split
  all_goals simp

@[simp] theorem State.endSession_tlog (s : State) (i : Nat) : (s.endSession i).tlog = s.tlog := by simp -implicitDefEqProofs [State.endSession]

@[simp] theorem State.endSessions_tlog (s : State) (p : State → Nat → Bool) : (s.endSessions p).tlog = s.tlog := by simp -implicitDefEqProofs [State.endSessions]

@[simp] theorem State.resetRegs_tlog (s : State) (lo hi : Nat) : (s.resetRegs lo hi).tlog = s.tlog := by simp [State.resetRegs]

@[simp] theorem State.glLoses_tlog (s : State) : (s.glLoses).tlog = s.tlog := by simp [State.glLoses]

@[simp] theorem State.startLoader_tlog (s : State) : (s.startLoader).tlog = s.tlog := by simp [State.startLoader]

@[simp] theorem State.moduleReset_tlog (s : State) (cause : Nat) : (s.moduleReset cause).tlog = s.tlog := by simp -implicitDefEqProofs [State.moduleReset]

/-- The stamps of a record follow the collector's registers, the time and the epoch. -/
theorem State.stamped_eq (s : State) (r : FltRec) : s.stamped r =
    { r with seq := s.rd FLT_STAT_NEXT_SEQ, time := s.dev, epoch := s.rd TIME_EPOCH_EPOCH, data := srcIsData r.source } := rfl

theorem State.epoch_advanceTo (s : State) (t : Nat) : (s.advanceTo t).rd TIME_EPOCH_EPOCH = s.rd TIME_EPOCH_EPOCH := by
  have hreg : (s.advanceTo t).reg TIME_EPOCH = s.reg TIME_EPOCH := s.reg_advanceTo t (by decide) (by decide) (by decide)
  rw [State.rd, State.rd, TIME_EPOCH_EPOCH, hreg]

/-- A pending record acknowledged after the grant, by the side whose class it is or by the other one (R589). -/
theorem acknowledge_granted {s : State} {m : Master} {v : Word} {f t0 : Nat} {x : FltRec} (hf : f < 640) (hsrc : v.toNat / 2 ^ 32 % 2 ^ 10 = f)
    (hx : tabFind s.srcTimer f = some (t0, x)) (hle : x.seq ≤ v.toNat % 2 ^ 32) (hlt : v.toNat % 2 ^ 32 < x.seq + 2 ^ 31)
    (hp : s.rd (FLT_SRC_PENDING f) ≠ 0) :
    (s.mxcGrant m FLT_ACK).acknowledge ((Claim.whole m v).get FLT_ACK_SOURCE) ((Claim.whole m v).get FLT_ACK_SEQ) (m != .host) =
      if ((m != .host) && s.rd (FLT_SRC_PENDING f) == 2) || (!(m != .host) && s.rd (FLT_SRC_PENDING f) == 1) then
        (s.mxcGrant m FLT_ACK, ST_NO_RIGHT)
      else
        ({ (s.mxcGrant m FLT_ACK).setPending f 0 with srcTimer := tabDel ((s.mxcGrant m FLT_ACK).setPending f 0).srcTimer f }, ST_OK) := by
  obtain ⟨l, hl⟩ := s.mxcGrant_eq m FLT_ACK
  have hget : (Claim.whole m v).get FLT_ACK_SOURCE = f := hsrc
  have hseq : (Claim.whole m v).get FLT_ACK_SEQ = v.toNat % 2 ^ 32 := by
    rw [whole_get, bitsOf]
    simp [FLT_ACK_SEQ]
  have hrd : (s.mxcGrant m FLT_ACK).rd (FLT_SRC_PENDING f) = s.rd (FLT_SRC_PENDING f) := by
    rw [hl]
    exact State.rd_congr (by rfl) _
  have htimer : tabFind (s.mxcGrant m FLT_ACK).srcTimer f = some (t0, x) := by rw [hl]; exact hx
  rw [hget, hseq, State.acknowledge_pending htimer hf (by rw [hrd]; exact hp) (seqEarlier_of_range hle hlt), hrd]

/-! FLT_FENCE. -/

section
variable {s : State} {m : Master} {v : Word} {i : Nat} (hright : s.fw0 m = true) (hreach : Claim.Reaches s (Claim.whole m v) FLT_FENCE)
  (hgo : v.toNat / 2 ^ 16 % 2 = 1) (hinst : v.toNat % 2 ^ 7 = i)
include hright hreach hgo hinst

/-- A write of FLT_FENCE with GO set reaches the rule of its kind. -/
theorem execFltFence_go {t : State} (h : ∀ u : State, u = s.mxcGrant m FLT_FENCE →
    (match (Claim.whole m v).get FLT_FENCE_KIND with
      | 0 => if 96 ≤ i then u.regRecord FLT_FENCE (Claim.whole m v).bits else if u.svuFenced i then u else u.fenceSvu i
      | 1 => if 24 ≤ i then u.regRecord FLT_FENCE (Claim.whole m v).bits else if u.clusFenced i then u else u.fenceCluster i
      | 2 => if 96 ≤ i then u.regRecord FLT_FENCE (Claim.whole m v).bits else if u.chFenced i then u else u.fenceChannel i
      | 3 => if 16 ≤ i then u.regRecord FLT_FENCE (Claim.whole m v).bits else if u.portFenced i then u else u.fencePortNow i
      | _ => u.regRecord FLT_FENCE (Claim.whole m v).bits) = t) : execFltFence (Claim.whole m v) s = .next t := by
  have hcov : (Claim.whole m v).covers FLT_FENCE_GO = true := by
    rw [RegWrite.covers, show (Claim.whole m v).mask = 2 ^ 64 - 1 from rfl]
    decide
  have hget : (Claim.whole m v).get FLT_FENCE_GO = 1 := hgo
  have hi : (Claim.whole m v).get FLT_FENCE_INSTANCE = i := by
    rw [whole_get, bitsOf, ← hinst]
    simp [FLT_FENCE_INSTANCE]
  have hno : ¬ (!(Claim.whole m v).covers FLT_FENCE_GO || (Claim.whole m v).get FLT_FENCE_GO = 0) := by simp [hcov, hget]
  rw [execFltFence, show (Claim.whole m v).m = m from rfl, hright, State.regRow_of_reaches hreach, if_neg hno, hi, ← h _ rfl] <;> rfl

theorem execFltFence_svu (hk : v.toNat / 2 ^ 8 % 8 = 0) (hi : i < 96) (hn : (s.mxcGrant m FLT_FENCE).svuFenced i = false) :
    execFltFence (Claim.whole m v) s = .next ((s.mxcGrant m FLT_FENCE).fenceSvu i) := by
  have hkind : (Claim.whole m v).get FLT_FENCE_KIND = 0 := hk
  refine execFltFence_go hright hreach hgo hinst fun u hu => ?_
  simp only [hkind]
  rw [if_neg (by omega), hu, hn]
  rfl

theorem execFltFence_svuAgain (hk : v.toNat / 2 ^ 8 % 8 = 0) (hi : i < 96) (hn : (s.mxcGrant m FLT_FENCE).svuFenced i = true) :
    execFltFence (Claim.whole m v) s = .next (s.mxcGrant m FLT_FENCE) := by
  have hkind : (Claim.whole m v).get FLT_FENCE_KIND = 0 := hk
  refine execFltFence_go hright hreach hgo hinst fun u hu => ?_
  simp only [hkind]
  rw [if_neg (by omega), hu, hn]
  rfl

theorem execFltFence_cluster (hk : v.toNat / 2 ^ 8 % 8 = 1) (hi : i < 24) (hn : (s.mxcGrant m FLT_FENCE).clusFenced i = false) :
    execFltFence (Claim.whole m v) s = .next ((s.mxcGrant m FLT_FENCE).fenceCluster i) := by
  have hkind : (Claim.whole m v).get FLT_FENCE_KIND = 1 := hk
  refine execFltFence_go hright hreach hgo hinst fun u hu => ?_
  simp only [hkind]
  rw [if_neg (by omega), hu, hn]
  rfl

theorem execFltFence_channel (hk : v.toNat / 2 ^ 8 % 8 = 2) (hi : i < 96) (hn : (s.mxcGrant m FLT_FENCE).chFenced i = false) :
    execFltFence (Claim.whole m v) s = .next ((s.mxcGrant m FLT_FENCE).fenceChannel i) := by
  have hkind : (Claim.whole m v).get FLT_FENCE_KIND = 2 := hk
  refine execFltFence_go hright hreach hgo hinst fun u hu => ?_
  simp only [hkind]
  rw [if_neg (by omega), hu, hn]
  rfl

theorem execFltFence_port (hk : v.toNat / 2 ^ 8 % 8 = 3) (hi : i < 16) (hn : (s.mxcGrant m FLT_FENCE).portFenced i = false) :
    execFltFence (Claim.whole m v) s = .next ((s.mxcGrant m FLT_FENCE).fencePortNow i) := by
  have hkind : (Claim.whole m v).get FLT_FENCE_KIND = 3 := hk
  refine execFltFence_go hright hreach hgo hinst fun u hu => ?_
  simp only [hkind]
  rw [if_neg (by omega), hu, hn]
  rfl

end

/-- The fence of a cluster, by its parts: its own bit, its SVUs, its core, and the P side of its mailbox (R596). -/
theorem State.fenceCluster_eq (s : State) (k : Nat) : s.fenceCluster k =
    (((s.wr ⟨FLT_FENCED_UNIT, 16 + k, 16 + k⟩ 1).fenceSvus (rangeFrom (4 * k) 4)).coreOff k).mbxReset k 1 := rfl

/-- A cluster fenced while no chain runs: its SVUs are fenced, and its core has no task. -/
theorem State.fenceCluster_idle {s : State} (h : s.chains = []) {k : Nat} (hk : k < 24) :
    (s.fenceCluster k).clusFenced k = true ∧ (∀ u ∈ rangeFrom (4 * k) 4, (s.fenceCluster k).svuFenced u = true)
      ∧ ∀ y ∈ (s.fenceCluster k).tasks, y.1 / 64 ≠ k := by
  have hin : ∀ i ∈ rangeFrom (4 * k) 4, i < 96 := by
    intro i hi
    obtain ⟨j, hj, rfl⟩ := List.mem_map.mp hi
    have := List.mem_range.mp hj
    omega
  rw [State.fenceCluster_eq]
  obtain ⟨r, -, hreg, -, hall⟩ := State.fenceSvus_idle (s := s.wr ⟨FLT_FENCED_UNIT, 16 + k, 16 + k⟩ 1) h _ hin
  have hflt : ∀ o, 0x40000 ≤ o → o < 0xc0000 →
      (((((s.wr ⟨FLT_FENCED_UNIT, 16 + k, 16 + k⟩ 1).fenceSvus (rangeFrom (4 * k) 4)).coreOff k).mbxReset k 1).reg o)
        = ((s.wr ⟨FLT_FENCED_UNIT, 16 + k, 16 + k⟩ 1).fenceSvus (rangeFrom (4 * k) 4)).reg o := fun o ho ho' =>
    (State.reg_mbxReset _ hk (le_refl 1) ho).trans (State.reg_coreOff _ _ ho')
  refine ⟨?_, fun u hu => ?_, fun y hy => ?_⟩
  · rw [State.clusFenced_eq _ hk, State.rd, hflt _ (by simp only [FLT_FENCED_UNIT]; omega) (by simp only [FLT_FENCED_UNIT]; omega),
      hreg _ (by simp only [FLT_FENCED_UNIT]; omega), ← State.rd, State.rd_bit_set _ (by omega)]
    rfl
  · have h96 := hin u hu
    have hfenced := hall u hu
    rw [State.svuFenced_eq, State.rd] at hfenced ⊢
    rw [hflt _ (by simp only [FLT_FENCED_SVU]; omega) (by simp only [FLT_FENCED_SVU]; omega)]
    exact hfenced
  · rcases State.tasks_mbxReset _ hk y hy with hy | hy
    · exact State.tasks_coreOff _ _ y hy
    · omega

/-- The fence of a channel where nothing waits sets its bit and its state alone (R596). -/
theorem State.fenceChannel_idle {s : State} {c : Nat} (h : (s.chan c).queue = []) :
    ∃ x, s.fenceChannel c = ((s.wr ⟨FLT_FENCED_CH (c / 64), c % 64, c % 64⟩ 1).wr (MEMC_STATUS_STATE c) 4).setChan c x := by
  refine ⟨{ ((s.wr ⟨FLT_FENCED_CH (c / 64), c % 64, c % 64⟩ 1).wr (MEMC_STATUS_STATE c) 4).chan c with queue := [] }, ?_⟩
  have hq : (((s.wr ⟨FLT_FENCED_CH (c / 64), c % 64, c % 64⟩ 1).wr (MEMC_STATUS_STATE c) 4).chan c).queue = [] := h
  rw [State.fenceChannel]
  dsimp only
  rw [hq]
  rfl

/-! Ports. -/

/-- The record of a port's loss can fence only that port (R593). -/
theorem State.fenceOf_port (s : State) {p : Nat} (hp : p < 16) (inst c : Nat) :
    s.fenceOf (srcJpDown + p) inst c = none ∨ s.fenceOf (srcJpDown + p) inst c = some (3, p) := by
  have h1 : ¬ (srcSpUe ≤ srcJpDown + p ∧ srcJpDown + p < srcSpUe + 24) := by simp only [srcSpUe, srcJpDown]; omega
  have h2 : ¬ (srcLoftUe ≤ srcJpDown + p ∧ srcJpDown + p < srcLoftUe + 24) := by simp only [srcLoftUe, srcJpDown]; omega
  have h3 : ¬ (srcMemUe ≤ srcJpDown + p ∧ srcJpDown + p < srcMemUe + 12) := by simp only [srcMemUe, srcJpDown]; omega
  simp only [State.fenceOf, ← Bool.decide_and, h1, h2, h3, decide_false, Bool.false_and, Bool.false_eq_true, if_false, Nat.add_sub_cancel_left]
  split
  · exact Or.inr rfl
  · exact Or.inl rfl

/-- The second result of an event is the unit of some class, or none. -/
theorem State.recordWith_unit (s : State) (e : FaultEv) (unit : Nat → Option (Nat × Nat)) :
    (s.recordWith e unit).2 = none ∨ ∃ c, (s.recordWith e unit).2 = unit c := by
  rw [State.recordWith_eq, State.entered]
  split
  · exact Or.inl rfl
  · exact Or.inr ⟨_, rfl⟩

/-- A port that is DOWN and fenced stays so when its loss is recorded (R506). -/
theorem State.record_portDown {s : State} {p aux : Nat} (hp : p < 16) (hdown : s.portState p = 4) (hf : s.portFenced p = true)
    (ha : Claim.Alive s (348 + p)) :
    (s.record { src := srcJpDown + p, aux := aux }).portState p = 4 ∧ (s.record { src := srcJpDown + p, aux := aux }).portFenced p = true := by
  have hunit := s.recordWith_unit { src := srcJpDown + p, aux := aux } (fun c => s.fenceOf (srcJpDown + p) 0 c)
  have hnoted := State.Noted.recordWith (s := s) (e := { src := srcJpDown + p, aux := aux }) (fun c => s.fenceOf (srcJpDown + p) 0 c)
    (show srcJpDown + p < 640 by simp only [srcJpDown]; omega) ((Nat.max_zero _).trans_le (State.eventClass_alive ha))
  have hstate : (s.recordWith { src := srcJpDown + p, aux := aux } (fun c => s.fenceOf (srcJpDown + p) 0 c)).1.portState p = 4 := by
    refine (hnoted.rd (f := JP_STAT_STATE p) ?_ ?_).trans hdown
    · simp only [logReg, JP_STAT_STATE, JP_STAT, FLT_STAT, FLT_SRC, FLT_SRC_CNT, TLOG_STAT, srcJpDown]; omega
    · simp only [JP_STAT_STATE, JP_STAT]; omega
  have hfenced : (s.recordWith { src := srcJpDown + p, aux := aux } (fun c => s.fenceOf (srcJpDown + p) 0 c)).1.portFenced p = true := by
    rw [State.portFenced_eq _ hp] at hf ⊢
    refine (congrArg (· == 1) (hnoted.rd (f := ⟨FLT_FENCED_UNIT, p, p⟩) ?_ ?_)).trans hf
    · simp only [logReg, FLT_FENCED_UNIT, FLT_STAT, FLT_SRC, FLT_SRC_CNT, TLOG_STAT, srcJpDown]; omega
    · simp only [FLT_FENCED_UNIT]; omega
  have hrec : s.record { src := srcJpDown + p, aux := aux } =
      match (s.recordWith { src := srcJpDown + p, aux := aux } (fun c => s.fenceOf (srcJpDown + p) 0 c)).2 with
      | some u => (s.recordWith { src := srcJpDown + p, aux := aux } (fun c => s.fenceOf (srcJpDown + p) 0 c)).1.fenceUnit u
      | none => (s.recordWith { src := srcJpDown + p, aux := aux } (fun c => s.fenceOf (srcJpDown + p) 0 c)).1 := rfl
  rw [hrec]
  generalize s.recordWith { src := srcJpDown + p, aux := aux } (fun c => s.fenceOf (srcJpDown + p) 0 c) = r at *
  have hcases : r.2 = none ∨ r.2 = some (3, p) := hunit.elim Or.inl fun ⟨c, hc⟩ => (s.fenceOf_port hp 0 c).imp hc.trans hc.trans
  obtain h | h := hcases
  · rw [h]
    exact ⟨hstate, hfenced⟩
  · have hoff : JP_STAT p ≠ FLT_FENCED_UNIT := by rw [JP_STAT, FLT_FENCED_UNIT]; omega
    have hkept : (r.1.wr ⟨FLT_FENCED_UNIT, p, p⟩ 1).portState p = 4 := (State.rd_wr_off _ _ _ _ hoff).trans hstate
    have hfence : r.1.fenceUnit (3, p) = r.1.wr ⟨FLT_FENCED_UNIT, p, p⟩ 1 := by
      change r.1.fencePort p = _
      rw [State.fencePort, if_pos hkept]
    rw [h]
    dsimp only
    rw [hfence]
    refine ⟨hkept, ?_⟩
    rw [State.portFenced_eq _ hp, State.rd_bit_set _ (by omega)]
    rfl

/-- A port fenced by firmware is DOWN (R594, R596). -/
theorem State.fencePortNow_down {s : State} {p : Nat} (hp : p < 16) (ha : Claim.Alive s (348 + p)) :
    (s.fencePortNow p).portState p = 4 ∧ (s.fencePortNow p).portFenced p = true := by
  have hset : (s.wr ⟨FLT_FENCED_UNIT, p, p⟩ 1).portFenced p = true := by
    rw [State.portFenced_eq _ hp, State.rd_bit_set _ (by omega)]
    rfl
  rw [State.fencePortNow]
  generalize hu : s.wr ⟨FLT_FENCED_UNIT, p, p⟩ 1 = u at hset
  have hau : Claim.Alive u (348 + p) := by
    rw [← hu, Claim.Alive, State.rd_wr_off _ _ _ _ (by simp only [FLT_SRC_CLASS, FLT_SRC, FLT_FENCED_UNIT]; omega)]
    exact ha
  split
  next hdown => exact ⟨hdown, hset⟩
  · have hreg : ∀ o, o ≠ JFAB_TX_STAT → (u.portDown p).reg o = (u.wr (JP_STAT_STATE p) 4).reg o := fun o ho => u.reg_portDown p ho
    have hdown : (u.portDown p).portState p = 4 := by
      rw [State.portState, State.rd, hreg _ (by simp only [JP_STAT_STATE, JP_STAT, JFAB_TX_STAT]; omega)]
      exact State.rd_wr_same u (JP_STAT_STATE p) 4 (show 0 ≤ 2 by decide) (show 2 < 64 by decide)
    have hfence : (u.portDown p).portFenced p = true := by
      rw [State.portFenced_eq _ hp, State.rd, hreg _ (by simp only [FLT_FENCED_UNIT, JFAB_TX_STAT]; omega),
        State.reg_wr_other _ _ _ _ (by simp only [FLT_FENCED_UNIT, JP_STAT_STATE, JP_STAT]; omega), ← State.rd, ← State.portFenced_eq _ hp]
      exact hset
    refine State.record_portDown hp hdown hfence ?_
    rw [Claim.Alive, State.rd, hreg _ (by simp only [FLT_SRC_CLASS, FLT_SRC, JFAB_TX_STAT]; omega),
      State.reg_wr_other _ _ _ _ (by simp only [FLT_SRC_CLASS, FLT_SRC, JP_STAT_STATE, JP_STAT]; omega)]
    exact hau

end Sys2Proof.Machine

section
open Sys2Proof.Machine Sys2Proof.Machine.Reg Sys2Proof.Claim

/-- The commands of the fault collector. -/
theorem faultCommandsCarried : FaultCommands := by
  intro s src x t0 m v f pend P esc runs n seq kind i acks fences
  have hf : f < 640 := src.isLt
  refine ⟨fun hleak => ?_, fun hcls => ?_, fun hruns hp hfence hc => ?_, fun hruns hp hoff hrip => ?_, fun hacks hx hle hlt => ⟨fun hp => ?_, fun hp hne halive => ?_⟩,
    fun hfences hk hi hc => ?_, fun hfences hk hi hc hnf => ?_, fun hfences hk hi hnf hq => ?_, fun hfences hk hi hnf halive => ?_⟩
  · refine ⟨_, execLeakStep_counting hleak, ?_, State.advanceTo_now .., State.advanceTo_mem .., State.tlog_advanceTo ..⟩
    have hrd : ∀ t : State, (t.wr (FLT_SRC_LEAK f) (t.rd (FLT_SRC_LEAK f) - 1)).rd (FLT_SRC_LEAK f) = t.rd (FLT_SRC_LEAK f) - 1 := by
      intro t
      have hlt : t.rd (FLT_SRC_LEAK f) < 256 := t.rd_lt _
      exact (State.rd_wr_same t (FLT_SRC_LEAK f) _ (show 40 ≤ 47 by decide) (show 47 < 64 by decide)).trans (Nat.mod_eq_of_lt (show _ < 256 by omega))
    have hsame := s.rd_src_advanceTo (tabGet s.srcLeak 0 f + 1000 * P) f hf (f := FLT_SRC_LEAK f) rfl
    have h := (hrd (s.advanceTo (tabGet s.srcLeak 0 f + 1000 * P))).trans (congrArg (· - 1) hsame)
    have hleak' : 0 < s.rd (FLT_SRC_LEAK f) := hleak
    exact (congrArg (· + 1) ((State.rd_congr (by rfl) _).trans h)).trans (Nat.sub_add_cancel hleak')
  · refine ⟨_, execClassDemotion_promoted hcls, ?_, State.advanceTo_now .., State.advanceTo_mem .., State.tlog_advanceTo ..⟩
    have hpos : 0 < s.rd (FLT_SRC_CLASS f) := Nat.zero_lt_of_lt hcls
    have hlt : s.rd (FLT_SRC_CLASS f) < 4 := s.rd_lt _
    have hrd : ∀ t : State, (t.wr (FLT_SRC_CLASS f) (s.rd (FLT_SRC_CLASS f) - 1)).rd (FLT_SRC_CLASS f) = s.rd (FLT_SRC_CLASS f) - 1 := fun t =>
      (State.rd_wr_same t (FLT_SRC_CLASS f) _ (show 60 ≤ 61 by decide) (show 61 < 64 by decide)).trans (Nat.mod_eq_of_lt (show _ < 4 by omega))
    exact (congrArg (· + 1) ((State.rd_congr (by rfl) _).trans (hrd _))).trans (Nat.sub_add_cancel hpos)
  · obtain ⟨hx, hxs⟩ := hruns
    have hp1 : s.rd (FLT_SRC_PENDING x.source) = 1 := by rw [hxs]; exact hp
    have hn : x.source < 640 := by rw [hxs]; exact hf
    have hu : ∀ k, (0 = 0 → (s.advanceTo k).fenceOf x.source x.inst 2 = none) := fun k _ => by rw [State.fenceOf_advanceTo, hxs]; exact hfence
    have hpu : ∀ k, (s.advanceTo k).rd (FLT_SRC_PENDING x.source) < 2 := fun k => by
      rw [State.rd_src_advanceTo s k x.source hn rfl, hp1]
      decide
    have hnoted := State.Noted.escalate (hu (t0 + 1000 * s.rd FLT_CFG_ESC_B_TIME)) hn
    have hpend := State.pending_escalate (hu (t0 + 1000 * s.rd FLT_CFG_ESC_B_TIME)) hn (hpu _)
    refine ⟨_, execEscBExpiry_pending hx hp, ?_, State.alertN_escalate (hu _) hn (hpu _) ?_, ?_, ?_, ?_⟩
    · rw [hxs] at hpend
      exact hpend
    · rw [State.rd_flt_advanceTo _ _ (by decide) (by decide)]
      exact hc
    · rw [hnoted.now, State.advanceTo_now]
    · refine (State.tlog_escalate (hu _)).trans ?_
      have hseq : ∀ k, (s.advanceTo k).rd FLT_STAT_NEXT_SEQ = s.rd FLT_STAT_NEXT_SEQ := fun k =>
        State.rd_flt_advanceTo _ _ (by decide) (by decide)
      rw [State.stamped_eq, hseq, State.epoch_advanceTo, ← hnoted.dev hn, State.srcMerged_advanceTo]
      simp only [FltRec.raised, hxs]
    · rw [hnoted.mem, State.advanceTo_mem]
  · obtain ⟨hx, hxs⟩ := hruns
    have hn : x.source < 640 := by rw [hxs]; exact hf
    have hu : ∀ k, (ST_ABORTED_RESET = 0 → (s.advanceTo k).fenceOf x.source x.inst 2 = none) := fun k h0 => absurd h0 (by decide)
    have hpow : ((s.advanceTo (t0 + 1000000 * s.rd FLT_CFG_ESC_C_TIME)).escalate x ST_ABORTED_RESET).power = s.power := by
      rw [(State.Noted.escalate (hu _) hn).power, State.advanceTo_power]
    have hreset := State.moduleReset_reset (s := (s.advanceTo (t0 + 1000000 * s.rd FLT_CFG_ESC_C_TIME)).escalate x ST_ABORTED_RESET) 4
      (by rw [hpow]; exact hrip) (by rw [hpow]; exact hoff)
    refine ⟨_, execEscCExpiry_pending hx hp, hreset.last, ?_, hreset.mem, hreset.chains⟩
    rw [State.moduleReset_tlog, State.tlog_escalate (hu _), Option.any_some, State.stamped_eq]
    simp [FltRec.raised, hxs, ST_ABORTED_RESET]
  · obtain ⟨hright, hreach, hsrc⟩ := hacks
    have hp : s.rd (FLT_SRC_PENDING f) = if m = .host then 2 else 1 := hp
    obtain ⟨l, hl⟩ := s.mxcGrant_eq m FLT_ACK
    have hack := acknowledge_granted (m := m) hf hsrc hx hle hlt (by rw [hp]; split <;> decide)
    have hside : ¬ ((((m != .host) && s.rd (FLT_SRC_PENDING f) == 2) || (!(m != .host) && s.rd (FLT_SRC_PENDING f) == 1)) = true) := by
      rw [hp]
      by_cases hm : m = .host <;> simp [hm]
    rw [if_neg hside] at hack
    refine ⟨_, execFltAck_ok hreach hright hack, ?_, tabFind_tabDel_same .., ?_, ?_⟩
    · exact (State.rd_congr (by rfl) _).trans (State.rd_setPending _ 0 hf)
    · rw [hl]
      rfl
    · rw [hl]
      rfl
  · obtain ⟨hright, hreach, hsrc⟩ := hacks
    have hp : s.rd (FLT_SRC_PENDING f) = if m = .host then 1 else 2 := hp
    obtain ⟨l, hl⟩ := s.mxcGrant_eq m FLT_ACK
    have hack := acknowledge_granted (m := m) hf hsrc hx hle hlt (by rw [hp]; split <;> decide)
    have hside : (((m != .host) && s.rd (FLT_SRC_PENDING f) == 2) || (!(m != .host) && s.rd (FLT_SRC_PENDING f) == 1)) = true := by
      rw [hp]
      by_cases hm : m = .host <;> simp [hm]
    rw [if_pos hside] at hack
    have hgrant : ∀ g : RF, (s.mxcGrant m FLT_ACK).rd g = s.rd g := fun g => by rw [hl]; exact State.rd_congr (by rfl) _
    have hnoted := State.Noted.regRecord (s := s.mxcGrant m FLT_ACK) (by rw [Alive, hgrant]; exact halive) FLT_ACK (whole m v).bits
    have hnot : ¬ logReg 637 (FLT_SRC_PENDING f).off := by
      simp only [logReg, FLT_SRC_PENDING, FLT_STAT, FLT_SRC, FLT_SRC_CNT, TLOG_STAT]
      omega
    refine ⟨_, execFltAck_bad hreach hright (by decide) hack, ?_, ?_, ?_⟩
    · exact (hnoted.rd hnot (by simp only [FLT_SRC_PENDING, FLT_SRC]; omega)).trans (hgrant _)
    · rw [hnoted.timer f hne, hl]
      exact hx
    · rw [hnoted.mem, hl]
  · obtain ⟨⟨hright, hreach⟩, hgo⟩ := hfences
    obtain ⟨l, hl⟩ := s.mxcGrant_eq m FLT_FENCE
    have hrange : ∀ o, o < FLT_FENCED_SVU (i / 64) ∨ FLT_FENCED_SVU (i / 64) + 8 ≤ o → o ≠ FLT_FENCED_SVU (i / 64) := fun o ho => by omega
    by_cases hn : (s.mxcGrant m FLT_FENCE).svuFenced i = true
    · refine ⟨_, execFltFence_svuAgain hright hreach hgo rfl hk hi hn, hn, fun o _ => ?_, ?_⟩ <;> rw [hl]
      rfl
    · have hc' : (s.mxcGrant m FLT_FENCE).chains = [] := by rw [hl]; exact hc
      refine ⟨_, execFltFence_svu hright hreach hgo rfl hk hi (Bool.eq_false_iff.mpr hn), State.svuFenced_fenceSvu hc' i, fun o ho => ?_, ?_⟩
      · rw [State.fenceSvu_idle hc', State.reg_wr_other _ _ _ _ (hrange o ho), hl]
        rfl
      · rw [State.fenceSvu_idle hc', State.wr_mem, hl]
  · obtain ⟨⟨hright, hreach⟩, hgo⟩ := hfences
    obtain ⟨l, hl⟩ := s.mxcGrant_eq m FLT_FENCE
    have hc' : (s.mxcGrant m FLT_FENCE).chains = [] := by rw [hl]; exact hc
    have hn : (s.mxcGrant m FLT_FENCE).clusFenced i = false := by rw [hl]; exact hnf
    obtain ⟨hclus, hsvus, htasks⟩ := State.fenceCluster_idle hc' hi
    refine ⟨_, execFltFence_cluster hright hreach hgo rfl hk hi hn, hclus, List.all_eq_true.mpr hsvus, List.all_eq_true.mpr fun y hy => ?_, ?_⟩
    · simpa using htasks y hy
    · rw [State.fenceCluster_mem, hl]
  · obtain ⟨⟨hright, hreach⟩, hgo⟩ := hfences
    obtain ⟨l, hl⟩ := s.mxcGrant_eq m FLT_FENCE
    have hn : (s.mxcGrant m FLT_FENCE).chFenced i = false := by rw [hl]; exact hnf
    obtain ⟨x, hx⟩ := State.fenceChannel_idle (s := s.mxcGrant m FLT_FENCE) (c := i) (by rw [hl]; exact hq)
    refine ⟨_, execFltFence_channel hright hreach hgo rfl hk hi hn, ?_, ?_, ?_⟩ <;> rw [hx]
    · have hne : FLT_FENCED_CH (i / 64) ≠ MEMC_STATUS i := by rw [FLT_FENCED_CH, MEMC_STATUS]; omega
      rw [State.chFenced_eq, State.rd_congr (State.setChan_regs ..), State.rd_wr_off _ _ _ _ hne, State.rd_bit_set _ (Nat.mod_lt _ (by decide))]
      rfl
    · rw [State.rd_congr (State.setChan_regs ..)]
      exact State.rd_wr_same _ (MEMC_STATUS_STATE i) 4 (show 0 ≤ 2 by decide) (show 2 < 64 by decide)
    · rw [State.setChan_mem, State.wr_mem, State.wr_mem, hl]
  · obtain ⟨⟨hright, hreach⟩, hgo⟩ := hfences
    obtain ⟨l, hl⟩ := s.mxcGrant_eq m FLT_FENCE
    have hn : (s.mxcGrant m FLT_FENCE).portFenced i = false := by rw [hl]; exact hnf
    obtain ⟨hdown, hfenced⟩ := State.fencePortNow_down (s := s.mxcGrant m FLT_FENCE) hi (by rw [hl]; exact halive)
    refine ⟨_, execFltFence_port hright hreach hgo rfl hk hi hn, hfenced, hdown, ?_⟩
    rw [State.fencePortNow_mem, hl]

/-- Settles O58: a stall of the bus by the class of its source, and the commands of the fault collector. -/
theorem faults : Obligations.Faults := ⟨stallRecords, faultCommandsCarried⟩

end
end
section
/-! PROOF. Mailboxes (R444 to R450): what a check of a side's interrupt condition changes, and a read of a register with a row of its own. -/
namespace Sys2Proof.Machine
open Reg

/-- A read of a register with a row of its own that reaches it is performed by the row. -/
theorem State.readRow_of_reaches {s : State} {m : Master} {v : Word} {off : Nat} (h : Claim.Reaches s (Claim.whole m v) off)
    (f : State → State × Word) :
    s.readRow m off 8 true f = (f (s.mxcGrant m off)).1.emit (.coreValue m (f (s.mxcGrant m off)).2 ST_OK) := by
  obtain ⟨hb, hh, hl, hq⟩ := h
  have hup : (m == Master.host && !s.hostUp) = false := by
    by_cases hm : m = .host
    · simp [hh hm]
    · simp [hm]
  have hwait : s.mxcWaits (s.mxcAhead m off false) m off = false := by
    simpa [State.mxcWaits, State.mxcAhead, hq] using hl
  change s.regBlocked m off 8 = none at hb
  simp [State.readRow, hup, hb, hwait]

theorem State.Logged.mbx {n : Nat} {s t : State} (h : s.Logged n t) : t.mbx = s.mbx := by rw [h.rest]

theorem State.msix_mbx (s : State) (v : Nat) : (s.msix v).mbx = s.mbx := by
  unfold State.msix
  split
  · exact State.wr_mbx ..
  · rfl

theorem State.alert_mbx (s : State) (n : Nat) : (s.alert n).mbx = s.mbx := by
  unfold State.alert
  extract_lets old new t
  split <;> rfl

/-- The event of a side is told to a task, to the host or to the port (R448). -/
theorem State.mbxEvent_cases (s : State) (m d : Nat) :
    s.mbxEvent m d = s ∨ (∃ c k line, s.mbxEvent m d = s.raiseLine c k line) ∨ (∃ v, s.mbxEvent m d = s.msix v) ∨ s.mbxEvent m d = s.alert 0 := by
  unfold State.mbxEvent
  dsimp only
  repeat' split
  · exact Or.inr (Or.inl ⟨_, _, _, rfl⟩)
  · exact Or.inr (Or.inl ⟨_, _, _, rfl⟩)
  · exact Or.inl rfl
  · exact Or.inr (Or.inr (Or.inl ⟨_, rfl⟩))
  · exact Or.inr (Or.inr (Or.inr rfl))
  · exact Or.inr (Or.inl ⟨_, _, _, rfl⟩)

theorem State.mbxEvent_mbx (s : State) (m d : Nat) : (s.mbxEvent m d).mbx = s.mbx := by
  obtain h | ⟨c, k, line, h⟩ | ⟨v, h⟩ | h := s.mbxEvent_cases m d
  · rw [h]
  · rw [h]
    rfl
  · rw [h, State.msix_mbx]
  · rw [h, State.alert_mbx]

/-- The registers that the event of a side changes are pending bits of the host's vectors at most. -/
theorem State.reg_mbxEvent_low (s : State) (m d : Nat) {o : Nat} (ho : o < 0xb0000) : (s.mbxEvent m d).reg o = s.reg o := by
  obtain h | ⟨c, k, line, h⟩ | ⟨v, h⟩ | h := s.mbxEvent_cases m d
  · rw [h]
  · rw [h, State.reg_raiseLine]
  · rw [h, State.reg_msix _ _ ho]
  · rw [h, State.reg_alert]

theorem State.reg_mbxCheck_low (s : State) (m d : Nat) {o : Nat} (ho : o < 0xb0000) : (s.mbxCheck m d).reg o = s.reg o := by
  rw [State.mbxCheck]
  exact State.reg_ite ((State.reg_mbxEvent_low _ m d ho).trans (s.reg_setSide ..)) (s.reg_setSide ..)

theorem State.rd_mbxCheck (s : State) (m d : Nat) {f : RF} (hf : f.off < 0xb0000) : (s.mbxCheck m d).rd f = s.rd f := by
  rw [State.rd, State.rd, State.reg_mbxCheck_low s m d hf]

/-- A check notes the condition, and nothing else of a mailbox. -/
theorem State.mbxCheck_mbx (s : State) (m d : Nat) :
    (s.mbxCheck m d).mbx = (s.setSide m d { s.side m d with armed := s.mbxCond m d }).mbx := by
  rw [State.mbxCheck]
  dsimp only
  split
  · exact State.mbxEvent_mbx ..
  · rfl

theorem State.side_congr {s t : State} (h : t.mbx = s.mbx) (m d : Nat) : t.side m d = s.side m d := by rw [State.side, State.side, h]

theorem State.queue_mbxCheck (s : State) (m d : Nat) : ((s.mbxCheck m d).side m d).queue = (s.side m d).queue := by
  rw [State.side_congr (s.mbxCheck_mbx m d), State.side_setSide_same]

theorem State.side_mbxCheck_other (s : State) (m : Nat) {d e : Nat} (h : e ≠ d) : (s.mbxCheck m d).side m e = s.side m e := by
  rw [State.side_congr (s.mbxCheck_mbx m d), State.side_setSide_other]
  omega

/-- A condition of the F side that has come about is a line of its supervisor's task (R448). -/
theorem State.pend_mbxCheck {s : State} {m : Nat} (hcond : s.mbxCond m 0 = true) (harmed : (s.side m 0).armed = false)
    (hsup : s.supFenced 0 = false) :
    ((s.mbxCheck m 0).task (24 + s.rd (MBX_IRQ_CORE m 0)) (s.rd (MBX_IRQ_TASK m 0))).pend =
      (s.task (24 + s.rd (MBX_IRQ_CORE m 0)) (s.rd (MBX_IRQ_TASK m 0))).pend ||| 2 ^ s.rd (MBX_IRQ_LINE m 0) := by
  have hev : s.mbxCheck m 0 = (s.setSide m 0 { s.side m 0 with armed := s.mbxCond m 0 }).mbxEvent m 0 := by
    rw [State.mbxCheck]
    simp only [hcond, harmed]
    rfl
  have hsup' : (s.setSide m 0 { s.side m 0 with armed := s.mbxCond m 0 }).supFenced 0 = false := hsup
  rw [hev, State.mbxEvent, if_pos rfl, State.raiseLine, hsup']
  simp only [Bool.false_eq_true, and_false, if_false]
  exact congrArg TaskRegs.pend (State.task_setTask_same ..)

/-- An enabled doorbell bit is the condition (R448). -/
theorem State.mbxCond_of_doorbell {s : State} {m d : Nat} (h : s.rd (MBX_DB_IN_DB m d) &&& s.rd (MBX_DB_MASK_MASK m d) ≠ 0) :
    s.mbxCond m d = true := by
  have hbits : (s.reg (MBX_DB_IN m d)).toNat % 2 ^ 32 &&& s.rd (MBX_DB_MASK_MASK m d) ≠ 0 := by
    intro h0
    refine h (Nat.eq_of_testBit_eq fun i => ?_)
    have hi := congrArg (fun n => n.testBit i) h0
    have hdb : s.rd (MBX_DB_IN_DB m d) = (s.reg (MBX_DB_IN m d)).toNat % 2 ^ 31 := by
      rw [State.rd, fieldOf, bitsOf]
      exact congrArg (· % 2 ^ 31) (Nat.div_one _)
    simp only [Nat.testBit_and, Nat.testBit_mod_two_pow, Nat.zero_testBit, hdb] at hi ⊢
    by_cases h31 : i < 31
    · simpa [h31, show i < 32 by omega] using hi
    · simp [h31]
  rw [State.mbxCond, bne_iff_ne.mpr hbits, Bool.true_or]

/-- A send or doorbell dropped (R446): an event of class A and SEND_OVF. -/
theorem State.Logged.mbxDrop {s : State} {m d : Nat} (hm : m < 30) (h : Claim.Quiet s (560 + m)) :
    (s.wr (MBX_STAT_SEND_OVF m d) 1).Logged (560 + m) (s.mbxDrop m d) := by
  have hcls : (s.wr (MBX_STAT_SEND_OVF m d) 1).eventClass (560 + m) = 0 := by
    rw [State.eventClass_congr (s := s), State.eventClass_quiet h]
    intro f hf
    refine State.rd_wr_off _ _ _ _ ?_
    rw [hf]
    simp only [FLT_SRC, MBX_STAT_SEND_OVF, MBX_STAT]
    omega
  have hrec : s.mbxDrop m d = ((s.wr (MBX_STAT_SEND_OVF m d) 1).recordWith { src := 560 + m, inst := d } (fun _ => none)).1 :=
    State.record_unfenced _ _ (fun c => State.fenceOf_none _ _ c (by simp only [srcMbxDrop, srcSpUe, srcLoftUe, srcMemUe, srcJpDown]; omega))
  rw [hrec]
  exact Logged.recordWith (e := { src := 560 + m, inst := d }) _ (show 560 + m < 640 by omega) (congrArg (fun c => max c 0) hcls)

/-- A flag that is not 1 is off. -/
theorem State.on_of_ne_one {s : State} {o b : Nat} (h : s.rd ⟨o, b, b⟩ ≠ 1) : s.on ⟨o, b, b⟩ = false := by
  have hlt : s.rd ⟨o, b, b⟩ < 2 ^ (b + 1 - b) := s.rd_lt _
  rw [show b + 1 - b = 1 by omega] at hlt
  simp only [State.on, bne_eq_false_iff_eq]
  omega

theorem State.on_of_one {s : State} {f : RF} (h : s.rd f = 1) : s.on f = true := by simp [State.on, h]

section
variable {s : State} {m d : Nat} (hm : m < 30) (hd : d ≤ 1)
include hm hd

/-- What a dropped send or doorbell leaves: SEND_OVF, and the mailboxes and doorbells as they were. -/
theorem State.mbxDrop_keeps (h : Claim.Quiet s (560 + m)) :
    (s.mbxDrop m d).rd (MBX_STAT_SEND_OVF m d) = 1 ∧ (s.mbxDrop m d).rd (MBX_DB_IN_DB m (1 - d)) = s.rd (MBX_DB_IN_DB m (1 - d))
      ∧ (s.mbxDrop m d).mbx = s.mbx := by
  have hlog := Logged.mbxDrop (d := d) hm h
  have hstat : ¬ logReg (560 + m) (MBX_STAT m d) := by
    simp only [logReg, MBX_STAT, FLT_STAT, FLT_SRC, FLT_SRC_CNT, TLOG_STAT]; omega
  have hdb : ¬ logReg (560 + m) (MBX_DB_IN m (1 - d)) := by
    simp only [logReg, MBX_DB_IN, FLT_STAT, FLT_SRC, FLT_SRC_CNT, TLOG_STAT]; omega
  have hne : MBX_DB_IN m (1 - d) ≠ MBX_STAT m d := by simp only [MBX_DB_IN, MBX_STAT]; omega
  refine ⟨(hlog.rd hstat).trans (State.rd_bit_set s (by decide)), (hlog.rd hdb).trans (State.rd_wr_off s _ _ _ hne), ?_⟩
  rw [hlog.mbx, State.wr_mbx]

omit hm hd in
/-- The doorbell bits after a ring: those there with the new ones. -/
theorem State.rd_ring (s : State) (bits : Nat) (e : Nat) :
    (s.wr (MBX_DB_IN_DB m e) (s.rd (MBX_DB_IN_DB m e) ||| bits % 2 ^ 31)).rd (MBX_DB_IN_DB m e) = s.rd (MBX_DB_IN_DB m e) ||| bits % 2 ^ 31 := by
  rw [State.rd_wr_same _ _ _ (by simp only [MBX_DB_IN_DB]; omega) (by simp only [MBX_DB_IN_DB]; omega)]
  exact Nat.mod_eq_of_lt (Nat.or_lt_two_pow (s.rd_lt (MBX_DB_IN_DB m e)) (Nat.mod_lt bits (by decide)))

/-- A doorbell (R444, R446, R448). -/
theorem State.mbxRing_spec (hq : Claim.Quiet s (560 + m)) (bits : Nat) :
    (if s.rd (MBX_STAT_READY m (1 - d)) = 1 then
        (s.mbxRing m d bits).rd (MBX_DB_IN_DB m (1 - d)) = s.rd (MBX_DB_IN_DB m (1 - d)) ||| bits % 2 ^ 31
          ∧ (s.mbxRing m d bits).rd (MBX_STAT_SEND_OVF m d) = s.rd (MBX_STAT_SEND_OVF m d)
      else (s.mbxRing m d bits).rd (MBX_DB_IN_DB m (1 - d)) = s.rd (MBX_DB_IN_DB m (1 - d))
          ∧ (s.mbxRing m d bits).rd (MBX_STAT_SEND_OVF m d) = 1)
      ∧ (s.rd (MBX_STAT_READY m (1 - d)) = 1 → 1 - d = 0 → (s.side m 0).armed = false →
          (s.rd (MBX_DB_IN_DB m (1 - d)) ||| bits % 2 ^ 31) &&& s.rd (MBX_DB_MASK_MASK m 0) ≠ 0 → s.supFenced 0 = false →
          ((s.mbxRing m d bits).task (24 + s.rd (MBX_IRQ_CORE m 0)) (s.rd (MBX_IRQ_TASK m 0))).pend =
            (s.task (24 + s.rd (MBX_IRQ_CORE m 0)) (s.rd (MBX_IRQ_TASK m 0))).pend ||| 2 ^ s.rd (MBX_IRQ_LINE m 0))
      ∧ ((s.mbxRing m d bits).side m (1 - d)).queue = (s.side m (1 - d)).queue ∧ (s.mbxRing m d bits).side m d = s.side m d
      ∧ (s.mbxRing m d bits).mem = s.mem := by
  have hdb : ∀ e ≤ 1, MBX_DB_IN m e < 0xb0000 := fun e he => by simp only [MBX_DB_IN]; omega
  have hstat : MBX_STAT m d < 0xb0000 := by simp only [MBX_STAT]; omega
  have hoff : MBX_STAT m d ≠ MBX_DB_IN m (1 - d) := by simp only [MBX_STAT, MBX_DB_IN]; omega
  have hne : d ≠ 1 - d := by omega
  by_cases hup : s.rd (MBX_STAT_READY m (1 - d)) = 1
  · have hring : s.mbxRing m d bits =
        (s.wr (MBX_DB_IN_DB m (1 - d)) (s.rd (MBX_DB_IN_DB m (1 - d)) ||| bits % 2 ^ 31)).mbxCheck m (1 - d) := by
      simp [State.mbxRing, State.on, otherSide, hup]
    have hnew := s.rd_ring (m := m) bits (1 - d)
    generalize hw : s.wr (MBX_DB_IN_DB m (1 - d)) (s.rd (MBX_DB_IN_DB m (1 - d)) ||| bits % 2 ^ 31) = w at hring hnew
    have hkeep : ∀ f : RF, f.off ≠ MBX_DB_IN m (1 - d) → w.rd f = s.rd f := fun f hf => hw ▸ State.rd_wr_off s _ _ _ hf
    have hmbx : w.mbx = s.mbx := hw ▸ State.wr_mbx ..
    have htask : ∀ c k, w.task c k = s.task c k := fun c k => by
      rw [State.task, State.task, ← hw, State.wr_tasks]
    have hmem : w.mem = s.mem := hw ▸ State.wr_mem ..
    rw [hring, if_pos hup]
    refine ⟨⟨(State.rd_mbxCheck _ _ _ (hdb _ (by omega))).trans hnew, (State.rd_mbxCheck _ _ _ hstat).trans (hkeep _ hoff)⟩, ?_, ?_, ?_, ?_⟩
    · intro _ he harmed hbits hsup
      rw [he] at hbits hnew hkeep ⊢
      have hcore := hkeep (MBX_IRQ_CORE m 0) (by simp only [MBX_IRQ_CORE, MBX_IRQ, MBX_DB_IN]; omega)
      have htsk := hkeep (MBX_IRQ_TASK m 0) (by simp only [MBX_IRQ_TASK, MBX_IRQ, MBX_DB_IN]; omega)
      have hline := hkeep (MBX_IRQ_LINE m 0) (by simp only [MBX_IRQ_LINE, MBX_IRQ, MBX_DB_IN]; omega)
      have hmask := hkeep (MBX_DB_MASK_MASK m 0) (by simp only [MBX_DB_MASK_MASK, MBX_DB_MASK, MBX_DB_IN]; omega)
      have hcond : w.mbxCond m 0 = true := State.mbxCond_of_doorbell (by rw [hnew, hmask]; exact hbits)
      have hsup' : w.supFenced 0 = false := by
        rw [← hsup, State.supFenced, State.supFenced, hkeep _ (by simp only [FLT_FENCED_UNIT_SUP, FLT_FENCED_UNIT, MBX_DB_IN]; omega)]
      have harm' : (w.side m 0).armed = false := by rw [State.side_congr hmbx]; exact harmed
      have hp := State.pend_mbxCheck hcond harm' hsup'
      rw [hcore, htsk, hline, htask] at hp
      exact hp
    · rw [State.queue_mbxCheck, State.side_congr hmbx]
    · rw [State.side_mbxCheck_other _ _ hne, State.side_congr hmbx]
    · rw [State.mbxCheck_mem, hmem]
  · have hring : s.mbxRing m d bits = s.mbxDrop m d := by
      have hoff : s.on (MBX_STAT_READY m (1 - d)) = false := State.on_of_ne_one hup
      simp only [State.mbxRing, otherSide, hoff]
      rfl
    obtain ⟨hovf, hold, hmbx⟩ := State.mbxDrop_keeps hm hd hq
    rw [hring, if_neg hup]
    exact ⟨⟨hold, hovf⟩, fun h => absurd h hup, congrArg MbxSide.queue (State.side_congr hmbx _ _), State.side_congr hmbx _ _, State.mbxDrop_mem ..⟩

/-- A word sent (R445, R446). -/
theorem State.mbxSend_spec (hq : Claim.Quiet s (560 + m)) (v : Word) :
    (if s.rd (MBX_STAT_READY m (1 - d)) = 1 ∧ (s.side m (1 - d)).queue.length < 16 then
        ((s.mbxSend m d v).side m (1 - d)).queue = (s.side m (1 - d)).queue ++ [v]
          ∧ (s.mbxSend m d v).rd (MBX_STAT_SEND_OVF m d) = s.rd (MBX_STAT_SEND_OVF m d)
      else (s.mbxSend m d v).side m (1 - d) = s.side m (1 - d) ∧ (s.mbxSend m d v).rd (MBX_STAT_SEND_OVF m d) = 1)
      ∧ (s.mbxSend m d v).side m d = s.side m d ∧ (s.mbxSend m d v).mem = s.mem := by
  have hstat : MBX_STAT m d < 0xb0000 := by simp only [MBX_STAT]; omega
  have hne : d ≠ 1 - d := by omega
  by_cases hup : s.rd (MBX_STAT_READY m (1 - d)) = 1 ∧ (s.side m (1 - d)).queue.length < 16
  · have hsend : s.mbxSend m d v =
        (s.setSide m (1 - d) { s.side m (1 - d) with queue := (s.side m (1 - d)).queue ++ [v] }).mbxCheck m (1 - d) := by
      have hon : s.on (MBX_STAT_READY m (1 - d)) = true := State.on_of_one hup.1
      have hroom : ¬ (!s.on (MBX_STAT_READY m (1 - d)) || decide (16 ≤ (s.side m (1 - d)).queue.length)) = true := by
        simp only [hon, Bool.not_true, Bool.false_or, decide_eq_true_eq]
        omega
      rw [State.mbxSend, otherSide]
      exact if_neg hroom
    rw [hsend, if_pos hup]
    refine ⟨⟨?_, State.rd_mbxCheck _ _ _ hstat⟩, ?_, State.mbxCheck_mem ..⟩
    · rw [State.queue_mbxCheck, State.side_setSide_same]
    · rw [State.side_mbxCheck_other _ _ hne, State.side_setSide_other _ _ _ _ _ _ (by omega)]
  · have hsend : s.mbxSend m d v = s.mbxDrop m d := by
      have : (!s.on (MBX_STAT_READY m (1 - d)) || decide (16 ≤ (s.side m (1 - d)).queue.length)) = true := by
        by_cases h1 : s.rd (MBX_STAT_READY m (1 - d)) = 1
        · simp only [Bool.or_eq_true, decide_eq_true_eq]
          exact Or.inr (by have := fun h => hup ⟨h1, h⟩; omega)
        · have hoff : s.on (MBX_STAT_READY m (1 - d)) = false := State.on_of_ne_one h1
          rw [hoff]
          rfl
      rw [State.mbxSend, otherSide]
      exact if_pos this
    obtain ⟨hovf, -, hmbx⟩ := State.mbxDrop_keeps hm hd hq
    rw [hsend, if_neg hup]
    exact ⟨⟨State.side_congr hmbx _ _, hovf⟩, State.side_congr hmbx _ _, State.mbxDrop_mem ..⟩

/-- The oldest word received (R445). -/
theorem State.mbxTake_word {v : Word} {q : List Word} (h : (s.side m d).queue = v :: q) :
    (s.mbxTake m d).2 = v ∧ ((s.mbxTake m d).1.side m d).queue = q ∧ (s.mbxTake m d).1.side m (1 - d) = s.side m (1 - d)
      ∧ (s.mbxTake m d).1.rd (MBX_STAT_RECV_EMPTY m d) = s.rd (MBX_STAT_RECV_EMPTY m d) ∧ (s.mbxTake m d).1.mem = s.mem := by
  have hstat : MBX_STAT m d < 0xb0000 := by simp only [MBX_STAT]; omega
  have htake : s.mbxTake m d = ((s.setSide m d { s.side m d with queue := q }).mbxCheck m d, v) := by simp only [State.mbxTake, h]
  rw [htake]
  refine ⟨rfl, ?_, ?_, State.rd_mbxCheck _ _ _ hstat, State.mbxCheck_mem ..⟩
  · rw [State.queue_mbxCheck, State.side_setSide_same]
  · rw [State.side_mbxCheck_other _ _ (by omega), State.side_setSide_other _ _ _ _ _ _ (by omega)]

end

/-- The fields of MBX_STAT (R450). -/
def mbxStatFields : List FieldDef :=
  [{ hi := 63, lo := 63, acc := .rw }, { hi := 62, lo := 62, acc := .ro }, { hi := 61, lo := 61, acc := .w1c },
    { hi := 60, lo := 60, acc := .w1c }, { hi := 20, lo := 16, acc := .ro }, { hi := 12, lo := 8, acc := .ro }, { hi := 7, lo := 0, acc := .ro }]

theorem regAt_mbxStat : ∀ (b : Mbx) (d : Fin 2), (regAt (MBX_STAT b.val d.val)).map (fun p => p.1.fields) = some mbxStatFields := by
  decide +kernel

/-- A write of READY alone gives every other field of MBX_STAT a value it may have, and sets READY (R450). -/
theorem mbxStat_write (d : RegDef) (hd : d.fields = mbxStatFields) {old : Nat} (ready : Fin 2) :
    ∃ new, d.write old (2 ^ 64 - 1) (ready.val * 2 ^ 63) = (new, false) ∧ new.testBit 63 = (ready.val == 1) := by
  refine ⟨mergeBits old (ready.val * 2 ^ 63) (2 ^ 63), ?_, ?_⟩
  · rw [RegDef.write, hd]
    fin_cases ready <;> simp [mbxStatFields, FieldDef.write, maskOf, bitsOf] <;> omega
  · rw [mergeBits, Nat.testBit_or, Nat.testBit_and, Nat.testBit_and, Nat.testBit_xor, Nat.testBit_two_pow_self]
    fin_cases ready
    · simp
    · simp [Nat.testBit_two_pow_self (n := 63), -Nat.reducePow]

/-- READY written (R450). -/
theorem State.applyWrite_ready (s : State) (b : Mbx) {d : Nat} (hd : d ≤ 1) (ready : Fin 2) :
    ∃ w, s.applyWrite (MBX_STAT b.val d) (2 ^ 64 - 1) (ready.val * 2 ^ 63) = s.setReg (MBX_STAT b.val d) w
      ∧ fieldOf w 63 63 = ready.val := by
  obtain ⟨⟨r, ix⟩, hat, hfields⟩ := Option.map_eq_some_iff.mp (regAt_mbxStat b ⟨d, by omega⟩)
  obtain ⟨new, hnew, hbit⟩ := mbxStat_write r hfields (old := (s.reg (MBX_STAT b.val d)).toNat) ready
  refine ⟨BitVec.ofNat 64 new, ?_, ?_⟩
  · simp only [State.applyWrite, hat, hnew, Bool.false_eq_true, if_false]
  · have hmod : new % 2 ^ 64 / 2 ^ 63 = new / 2 ^ 63 % 2 := by omega
    rw [fieldOf, bitsOf, BitVec.toNat_ofNat, hmod]
    rw [Nat.testBit_eq_decide_div_mod_eq] at hbit
    fin_cases ready <;> simp at hbit ⊢ <;> omega

end Sys2Proof.Machine

section
open Sys2Proof.Machine Sys2Proof.Machine.Reg Sys2Proof.Claim

/-- Settles O8: each access reaches its row; a drop is an event of class A, and a check notes the condition and tells the event. -/
theorem mailboxes : Obligations.Mailboxes := by
  intro b side m s v q ready d e w up old hagent hquiet
  have hside : b2n side = d := by cases side <;> rfl
  have hd : d ≤ 1 := by cases side <;> decide
  clear_value d
  subst hside
  refine ⟨fun hreach => ?_, fun hreach => ?_, fun hreach => ⟨fun hq => ?_, fun hq => ?_⟩, fun hreach hv => ?_⟩
  · obtain ⟨l, hl⟩ := s.mxcGrant_eq m (MBX_DB_OUT b.val (b2n side))
    have hcov : w.covers (MBX_DB_OUT_DB b.val (b2n side)) = true := by
      show ((2 ^ 64 - 1 : Nat) &&& maskOf 31 0 == maskOf 31 0) = true
      decide
    have hbits : w.get (MBX_DB_OUT_DB b.val (b2n side)) % 2 ^ 31 = v.toNat % 2 ^ 31 := by
      show v.toNat / 2 ^ 0 % 2 ^ 32 % 2 ^ 31 = v.toNat % 2 ^ 31
      omega
    have hspec := State.mbxRing_spec (s := { s with mxcLast := l }) b.isLt hd hquiet (w.get (MBX_DB_OUT_DB b.val (b2n side)))
    rw [hbits] at hspec
    refine ⟨_, rfl, ?_⟩
    rw [hagent, State.regRow_of_reaches hreach, hl, hcov]
    exact hspec
  · obtain ⟨l, hl⟩ := s.mxcGrant_eq m (MBX_SEND b.val (b2n side))
    refine ⟨_, rfl, ?_⟩
    rw [hagent, Bool.true_and, show (w.width == 8) = true from rfl, State.regRow_of_reaches hreach, hl]
    exact State.mbxSend_spec (s := { s with mxcLast := l }) b.isLt hd hquiet v
  · obtain ⟨l, hl⟩ := s.mxcGrant_eq m (MBX_RECV b.val (b2n side))
    obtain ⟨hword, hqueue, hother, hempty, hmem⟩ := State.mbxTake_word (s := { s with mxcLast := l }) b.isLt hd hq
    refine ⟨_, rfl, ?_⟩
    rw [hagent, Bool.true_and, beq_self_eq_true, State.readRow_of_reaches hreach, hl, hword]
    exact ⟨hqueue, List.mem_append_right _ (List.mem_singleton.mpr rfl), hother, hempty, hmem⟩
  · obtain ⟨l, hl⟩ := s.mxcGrant_eq m (MBX_RECV b.val (b2n side))
    have htake : State.mbxTake { s with mxcLast := l } b.val (b2n side) =
        (State.wr { s with mxcLast := l } (MBX_STAT_RECV_EMPTY b.val (b2n side)) 1, 0) := by
      simp only [State.mbxTake]
      rw [show (State.side { s with mxcLast := l } b.val (b2n side)).queue = [] from hq]
    refine ⟨_, rfl, ?_⟩
    rw [hagent, Bool.true_and, beq_self_eq_true, State.readRow_of_reaches hreach, hl, htake]
    exact ⟨rfl, State.rd_bit_set (s := { s with mxcLast := l }) (by decide), rfl, rfl⟩
  · obtain ⟨l, hl⟩ := s.mxcGrant_eq m (MBX_STAT b.val (b2n side))
    obtain ⟨x, hwrite, hready⟩ := State.applyWrite_ready { s with mxcLast := l } b hd ready
    have hbits : w.bits = ready.val * 2 ^ 63 := hv
    refine ⟨_, rfl, ?_⟩
    rw [hagent, State.regRow_of_reaches hreach, hl, hbits]
    exact hwrite ▸ ⟨(congrArg (fun y => fieldOf y 63 63) (State.reg_setReg_same ..)).trans hready, rfl,
      fun o ho => State.reg_setReg_other _ _ _ _ (by omega), rfl⟩

end
end
section
/-! PROOF. Unit resets (R572 to R574) and the acknowledgement of a ring (R589): the work of a ring's command, what a drain of an idle SVU
leaves, and a port that goes DOWN while it drains. -/
namespace Sys2Proof.Machine
open Reg

/-- The acknowledgement of a pending record (R589). -/
theorem State.acknowledge_pending_eq {s : State} {f t0 seq : Nat} {x : FltRec} (hf : f < 640) (hx : tabFind s.srcTimer f = some (t0, x))
    (hle : x.seq ≤ seq) (hlt : seq < x.seq + 2 ^ 31) (hp : s.rd (FLT_SRC_PENDING f) ≠ 0) (fw : Bool) :
    s.acknowledge f seq fw =
      if (fw && s.rd (FLT_SRC_PENDING f) == 2) || (!fw && s.rd (FLT_SRC_PENDING f) == 1) then (s, ST_NO_RIGHT)
      else ({ s.setPending f 0 with srcTimer := tabDel (s.setPending f 0).srcTimer f }, ST_OK) :=
  State.acknowledge_pending hx hf hp (seqEarlier_of_range hle hlt)

/-- A counter counts on up to its greatest value (R50). -/
theorem State.rd_count_min (s : State) (f : RF) (n : Nat) (h : f.lo ≤ f.hi) (h64 : f.hi < 64) :
    (s.count f n).rd f = min (s.rd f + n) (2 ^ (f.hi + 1 - f.lo) - 1) := by
  rw [State.rd_count_same s f n h h64, satAdd, Nat.mod_eq_of_lt]
  have : 0 < 2 ^ (f.hi + 1 - f.lo) := by positivity
  omega

theorem State.hostRing_eq (s : State) (r : Nat) : s.hostRing r = !decide (s.rd (CMDR_CFG_OWNER r) = 1) := by
  have : s.rd (CMDR_CFG_OWNER r) < 2 := s.rd_lt _
  by_cases h : s.rd (CMDR_CFG_OWNER r) = 1
  · simp [State.hostRing, State.on, h]
  · have h0 : s.rd (CMDR_CFG_OWNER r) = 0 := by omega
    simp [State.hostRing, State.on, h0]

section
variable {r : Ring} {s : State} {p : Packet} {x : FltRec} {t0 src : Nat}
  (hhas : Claim.Has s r 0xe0 p) (hsrc : p.w 1 % 2 ^ 10 = src) (hlt : src < 640) (hx : tabFind s.srcTimer src = some (t0, x))
  (hle : x.seq ≤ p.w 3 % 2 ^ 32) (hran : p.w 3 % 2 ^ 32 < x.seq + 2 ^ 31)
include hhas hsrc hlt hx hle hran

/-- The sender may acknowledge the pending class: class B from firmware's rings, class C from the host's (R589). -/
theorem execFaultAck_right (hp : s.rd (FLT_SRC_PENDING src) = if s.rd (CMDR_CFG_OWNER r.val) = 1 then 1 else 2) :
    execFaultAck r s = .next (Claim.answer { s.setPending src 0 with srcTimer := tabDel (s.setPending src 0).srcTimer src } r (Claim.ans p 0)) := by
  have h1 : bitsOf (p.w 1) 9 0 = src := by rw [← hsrc, bitsOf]; simp
  have h3 : bitsOf (p.w 3) 31 0 = p.w 3 % 2 ^ 32 := by rw [bitsOf]; simp
  have hne : s.rd (FLT_SRC_PENDING src) ≠ 0 := by rw [hp]; split <;> decide
  have hright : ((!s.hostRing r.val && s.rd (FLT_SRC_PENDING src) == 2) || (!!s.hostRing r.val && s.rd (FLT_SRC_PENDING src) == 1)) = false := by
    rw [hp, State.hostRing_eq]
    split <;> simp [*]
  rw [execFaultAck, State.command_of_has hhas, h1, h3, State.acknowledge_pending_eq hlt hx hle hran hne, hright]
  simp only [Bool.false_eq_true, if_false]
  rw [State.finish, Packet.result_eq_ans]
  rfl

theorem execFaultAck_wrong (hp : s.rd (FLT_SRC_PENDING src) = if s.rd (CMDR_CFG_OWNER r.val) = 1 then 2 else 1) :
    execFaultAck r s = .next (Claim.answer s r (Claim.ans p ST_NO_RIGHT)) := by
  have h1 : bitsOf (p.w 1) 9 0 = src := by rw [← hsrc, bitsOf]; simp
  have h3 : bitsOf (p.w 3) 31 0 = p.w 3 % 2 ^ 32 := by rw [bitsOf]; simp
  have hne : s.rd (FLT_SRC_PENDING src) ≠ 0 := by rw [hp]; split <;> decide
  have hright : ((!s.hostRing r.val && s.rd (FLT_SRC_PENDING src) == 2) || (!!s.hostRing r.val && s.rd (FLT_SRC_PENDING src) == 1)) = true := by
    rw [hp, State.hostRing_eq]
    split <;> simp [*]
  rw [execFaultAck, State.command_of_has hhas, h1, h3, State.acknowledge_pending_eq hlt hx hle hran hne, hright]
  simp only [if_true]
  rw [State.finish, Packet.result_eq_ans]
  rfl

end

/-! Unit resets of an SVU. -/

/-- An SVU that a reset may take (R572, R573). -/
theorem State.unitRefused_svu {s : State} {i : Nat} (hi : i < 96) (hf : s.svuFenced i = false) (hd : s.domainOn (i / 4) = true)
    (hu : s.unitResets = []) : s.unitRefused 0 i = none := by
  have hmost : ¬ 96 ≤ i := by omega
  delta State.unitRefused
  simp [hmost, hf, hd, hu]

theorem State.unitRefused_fenced {s : State} {i : Nat} (hi : i < 96) (hf : s.svuFenced i = true) : s.unitRefused 0 i = some ST_FENCED := by
  have hmost : ¬ 96 ≤ i := by omega
  delta State.unitRefused
  simp [hmost, hf]

/-- Without chains no SVU holds a range. -/
theorem State.rangesOn_idle {s : State} (h : s.chains = []) (l : List Nat) : s.rangesOn l = [] := by
  rw [State.rangesOn, h]
  rfl

theorem State.drainSvus_idle {s : State} (h : s.chains = []) (l : List Nat) (st : Nat) : s.drainSvus l st = s := by
  rw [State.drainSvus, State.rangesOn_idle h]
  rfl

theorem State.resetLofts_idle {s : State} {i : Nat} (h : (s.svu i).queue = []) : s.resetLofts [i] = s := by
  simp [State.resetLofts, h, State.resetLoft]

/-- What a reset of an SVU clears. -/
def SvuState.cleared (x : SvuState) : SvuState :=
  { x with ctxs := [], current := none, blockEnd := 0, leaf := [], table := [], walks := [], loftAcc := [], blkCredit := [], blkTurn := 0 }

/-- The only reset goes on to reset its SVU (R572). -/
theorem State.unitAdvance_svu {s : State} {u : UnitReset} (hu : s.unitResets = [u]) (hk : u.kind = 0) :
    s.unitAdvance u = { s.setSvu u.inst (s.svu u.inst).cleared with unitResets := [{ u with drained := true }] } := by
  have hnow : s.resetUnitNow u = s.setSvu u.inst (s.svu u.inst).cleared := by
    simp [State.resetUnitNow, unitSvus, hk, SvuState.cleared]
  rw [State.unitAdvance, hnow]
  simp [hu]



/-- A RESET_UNIT of an SVU without work: the SVU drains, and its command is held (R572). -/
theorem execResetUnit_svu {r : Ring} {s : State} {p : Packet} {i : Nat} (hi : i < 96) (hhas : Claim.Has s r 0xd0 p)
    (hw0 : p.w 0 / 2 ^ 12 % 16 = 0) (hw1 : p.w 1 % 2 ^ 8 = i) (hc : s.chains = []) (hq : (s.svu i).queue = [])
    (hf : s.svuFenced i = false) (hd : s.domainOn (i / 4) = true) (hu : s.unitResets = []) :
    execResetUnit r s = .next (State.setPacket
      { (s.wr RST_UNIT_STAT_ESCALATED 0).setSvu i { s.svu i with draining := true } with
        unitResets := [{ ring := r.val, seq := p.seq, kind := 0, inst := i, forced := false, began := s.now }] }
      r.val { p with held := true }) := by
  have hkind : bitsOf (p.w 0) 14 12 = 0 := by
    rw [bitsOf]
    omega
  have hforced : bitOf (p.w 0) 15 = false := by
    rw [bitOf, beq_eq_false_iff_ne]
    omega
  have hinst : bitsOf (p.w 1) 7 0 = i := by rw [← hw1, bitsOf]; simp
  have hsvu : (s.wr RST_UNIT_STAT_ESCALATED 0).svu i = s.svu i := rfl
  have hrange : (s.wr RST_UNIT_STAT_ESCALATED 0).rangesOn [i] = [] := State.rangesOn_idle (by rw [State.wr_chains, hc]) _
  have hloft : (s.wr RST_UNIT_STAT_ESCALATED 0).loftsOn [i] = [] := by
    rw [State.loftsOn, List.flatMap_singleton, hsvu, hq]
    rfl
  have hnone : (s.wr RST_UNIT_STAT_ESCALATED 0).unitRefused 0 i = none := by
    refine State.unitRefused_svu hi ?_ ?_ hu
    · rw [State.svuFenced_eq, ← hf, State.svuFenced_eq, State.rd_wr_off _ _ _ _ (by simp only [FLT_FENCED_SVU, RST_UNIT_STAT_ESCALATED, RST_UNIT_STAT]; omega)]
    · rw [← hd, State.domainOn, State.domainOn, State.rd_wr_off _ _ _ _ (by decide), State.rd_wr_off _ _ _ _ (by decide)]
  rw [execResetUnit, hhas]
  simp -implicitDefEqProofs only [hkind, hinst, hnone, hforced, unitSvus, if_true, List.foldl_cons, List.foldl_nil, Bool.false_eq_true, if_false,
    hrange, hloft, List.length_nil, Nat.add_zero, State.drainUnit]
  rw [State.drainSvus_idle, State.resetLofts_idle]
  · simp [hu, hsvu]
  · exact (congrArg SvuState.queue (State.svu_setSvu_same ..)).trans hq
  · exact hc

/-- A RESET_UNIT of a fenced SVU is refused (R573). -/
theorem execResetUnit_fenced {r : Ring} {s : State} {p : Packet} {i : Nat} (hi : i < 96) (hhas : Claim.Has s r 0xd0 p)
    (hw0 : p.w 0 / 2 ^ 12 % 8 = 0) (hw1 : p.w 1 % 2 ^ 8 = i) (hf : s.svuFenced i = true) :
    execResetUnit r s = .next ((s.wr RST_UNIT_STAT_ESCALATED 0).unitEnds r.val p 0 i ST_FENCED 0) := by
  have hkind : bitsOf (p.w 0) 14 12 = 0 := by
    rw [bitsOf]
    omega
  have hinst : bitsOf (p.w 1) 7 0 = i := by rw [← hw1, bitsOf]; simp
  have hfenced : (s.wr RST_UNIT_STAT_ESCALATED 0).unitRefused 0 i = some ST_FENCED := by
    refine State.unitRefused_fenced hi ?_
    rw [State.svuFenced_eq, ← hf, State.svuFenced_eq, State.rd_wr_off _ _ _ _ (by simp only [FLT_FENCED_SVU, RST_UNIT_STAT_ESCALATED, RST_UNIT_STAT]; omega)]
  rw [execResetUnit, hhas]
  simp -implicitDefEqProofs only [hkind, hinst, hfenced]

section
variable (s : State) {r : Ring} (p : Packet) (inst st stopped : Nat)

/-- The completion of a RESET_UNIT of an SVU: what RST_UNIT_STAT shows (R574). -/
theorem State.unitEnds_spec (hi : inst < 96) (hst : st < 2 ^ 8) :
    let t := s.unitEnds r.val p 0 inst st stopped
    t.rd RST_UNIT_STAT_STATUS = st ∧ t.rd RST_UNIT_STAT_INSTANCE = inst ∧ t.rd RST_UNIT_STAT_COUNT = s.rd RST_UNIT_STAT_COUNT
      ∧ Claim.Answered s t r { Claim.ans p st with index := stopped } ∧ t.svus = s.svus ∧ t.unitResets = s.unitResets ∧ t.mem = s.mem := by
  have hres : ({ p.result st with index := stopped } : Result) = { Claim.ans p st with index := stopped } := by rw [Packet.result_eq_ans]
  have happart : ∀ {f g : RF} (u : State) (v : Nat), f.lo ≤ f.hi ∧ f.hi < 64 ∧ g.off = f.off ∧ (g.hi < f.lo ∨ f.hi < g.lo) →
      (u.wr f v).rd g = u.rd g := fun u v ⟨h1, h2, h3, h4⟩ => State.rd_wr_apart u _ _ v h1 h2 h3 h4
  have hrd : ∀ f, (s.unitEnds r.val p 0 inst st stopped).rd f =
      (((s.wr RST_UNIT_STAT_STATUS st).wr RST_UNIT_STAT_KIND 0).wr RST_UNIT_STAT_INSTANCE inst).rd f :=
    fun f => State.rd_congr (by rfl) f
  refine ⟨?_, ?_, ?_, hres ▸ State.finishCmd_answered r _ rfl, rfl, rfl, rfl⟩
  · rw [hrd, happart _ _ (by decide), happart _ _ (by decide), State.rd_wr_same _ _ _ (by decide) (by decide)]
    exact Nat.mod_eq_of_lt hst
  · rw [hrd, State.rd_wr_same _ _ _ (by decide) (by decide)]
    exact Nat.mod_eq_of_lt (by simp only [RST_UNIT_STAT_INSTANCE]; omega)
  · rw [hrd, happart _ _ (by decide), happart _ _ (by decide), happart _ _ (by decide)]

end

/-- The only reset is done once its drain has ended (R233, R572). -/
theorem execDrainDone_only {s : State} {u : UnitReset} (hu : s.unitResets = [u]) (hn : u.drained = false) (hd : s.unitDrained u = true) :
    execDrainDone s = .next (s.unitAdvance u) := by
  simp [execDrainDone, hu, hn, hd]

/-- An SVU that holds no range has drained. -/
theorem State.unitDrained_idle {s : State} {u : UnitReset} (hc : s.chains = []) (hk : u.kind = 0) : s.unitDrained u = true := by
  simp [State.unitDrained, hk, hc]

/-- What a torn SVU loses (R235, R570): ranges, its LOFT operations' marks and reads under way; its registers and all times keep. -/
theorem State.tearSvus_svu (s : State) (i : Nat) : ∃ (y : SvuState) (ch : List Chain) (hr : _) (rb : _) (wk : _) (mx : _),
    y.queue = (s.svu i).queue.filter (fun o => o.mark == 0) ∧
    s.tearSvus [i] = { s.setSvu i y with chains := ch, heldReads := hr, rbuf := rb, walking := wk, mxc := mx } := by
  have hids : ∀ (f : Nat → Chain → Chain) (l : List Nat) (t : State), ∃ ch, l.foldl (fun t id => t.updChain id (f id)) t = { t with chains := ch } := by
    intro f l
    induction l with
    | nil => exact fun t => ⟨_, rfl⟩
    | cons a l ih => exact fun t => ih _
  unfold State.tearSvus
  extract_lets ids t
  obtain ⟨ch, hch⟩ : ∃ ch, t = { s with chains := ch } := hids _ ids s
  clear_value t
  subst hch
  exact ⟨_, ch, _, _, _, _, rfl, rfl⟩

theorem State.Noted.unitResets {n : Nat} {s t : State} (h : s.Noted n t) : t.unitResets = s.unitResets := by rw [h.rest]
theorem State.Noted.ports {n : Nat} {s t : State} (h : s.Noted n t) : t.ports = s.ports := by rw [h.rest]

section
variable {s : State} {u : UnitReset} (hu : s.unitResets = [u]) (hk : u.kind = 0)
include hu hk

/-- The only reset is forced when 40 us did not end its drain (R574). -/
theorem execDrainTimeout_only (hn : u.drained = false) (hd : s.unitDrained u = false) :
    execDrainTimeout s = .next ((State.forceUnit (((s.advanceTo (u.began + 40000)).wr RST_UNIT_STAT_ESCALATED 1).record { src := srcRstLate }) u).unitAdvance u) := by
  simp [execDrainTimeout, hu, hn, hd, hk]

omit hu in
theorem State.forceUnit_svu (hq : (s.svu u.inst).queue = []) : s.forceUnit u = s.tearSvus [u.inst] := by
  obtain ⟨y, ch, hr, rb, wk, mx, hy, htear⟩ := s.tearSvus_svu u.inst
  have hq' : ((s.tearSvus [u.inst]).svu u.inst).queue = [] := by
    rw [htear]
    refine (congrArg SvuState.queue (State.svu_setSvu_same s u.inst y)).trans ?_
    rw [hy, hq]
    rfl
  simp only [State.forceUnit, hk, unitSvus, if_true]
  exact State.resetLofts_idle hq'

/-- A forced reset of an SVU whose drain did not end (R235, R572). -/
theorem State.forced_svu (hq : (s.svu u.inst).queue = []) :
    let t := (s.forceUnit u).unitAdvance u
    (t.svu u.inst).ctxs = [] ∧ t.regs = s.regs ∧ t.now = s.now ∧ t.mem = s.mem ∧ t.unitResets = [{ u with drained := true }] := by
  obtain ⟨y, ch, hr, rb, wk, mx, hy, htear⟩ := s.tearSvus_svu u.inst
  rw [State.forceUnit_svu hk hq, htear, State.unitAdvance_svu (by exact hu) hk]
  exact ⟨congrArg SvuState.ctxs (State.svu_setSvu_same ..), rfl, rfl, rfl, rfl⟩

/-- What a reset of an SVU that is over leaves (R572, R574). -/
theorem execUnitResetDone_svu {p : Packet} (hd : u.drained = true) (hp : (s.ring u.ring).running.find? (fun q => q.seq == u.seq) = some p) :
    execUnitResetDone s = .next (State.unitEnds
      (State.count { s.setSvu u.inst { s.svu u.inst with draining := false } with unitResets := [] } RST_UNIT_STAT_COUNT 1)
      u.ring p 0 u.inst ST_OK u.stopped) := by
  have hfind : s.unitResets.find? (fun u => u.drained) = some u := by rw [hu, List.find?_singleton, if_pos hd]
  have hgone : ([u].filter fun x => !(x.kind == 0 && x.inst == u.inst)) = [] := by simp [hk]
  have hno : (decide (u.kind = 2) && (s.setSvu u.inst { s.svu u.inst with draining := false }).rd (MEMC_STATUS_STATE u.inst) == 1) = false := by
    rw [hk]
    rfl
  rw [execUnitResetDone, hfind]
  simp only [hk, unitSvus, if_true, List.foldl_cons, List.foldl_nil] at hno ⊢
  rw [hno]
  simp only [Bool.false_eq_true, if_false]
  split
  next q hq =>
    have : q = p := Option.some.inj (hq.symm.trans hp)
    subst this
    rw [show (s.setSvu u.inst { s.svu u.inst with draining := false }).unitResets = [u] from hu, hgone]
  next hq => cases hq.symm.trans hp

end

/-! Time, over what a port that goes DOWN does. -/

@[simp] theorem State.now_ite (c : Prop) [Decidable c] (a b : State) : (if c then a else b).now = if c then a.now else b.now :=
  apply_ite State.now c a b

@[simp] theorem foldl_now {α : Type} (f : State → α → State) (h : ∀ s a t, f s a = t → t.now = s.now) (l : List α) (s : State) :
    (l.foldl f s).now = s.now := by
  induction l generalizing s with
  | nil => rfl
  | cons a l ih => exact (ih _).trans (h s a _ rfl)

@[simp] theorem foldl_fst_now {α β : Type} (f : State × β → α → State × β) (h : ∀ p a q, f p a = q → q.1.now = p.1.now) (l : List α) (p : State × β) :
    (l.foldl f p).1.now = p.1.now := by
  induction l generalizing p with
  | nil => rfl
  | cons a l ih => exact (ih _).trans (h p a _ rfl)

@[simp] theorem State.putFlit_now (s : State) (p : Nat) (bs : List Byte) : (s.putFlit p bs).now = s.now := by simp [State.putFlit]

@[simp] theorem State.sendSeq_now (s : State) (p seq : Nat) (f : TxFlit) : (s.sendSeq p seq f).now = s.now := by simp [State.sendSeq]

@[simp] theorem State.flushPort_now (s : State) (p n : Nat) : (s.flushPort p n).now = s.now := by
  induction n generalizing s with
  | zero => simp [State.flushPort]
  | succ n ih =>
    unfold State.flushPort
    dsimp only
    repeat' split
    all_goals simp [ih]

@[simp] theorem State.flush_now (s : State) (p : Nat) : (s.flush p).now = s.now := by simp [State.flush]

@[simp] theorem State.queueMsg_now (s : State) (p : Nat) (m : FMsg) (src : Nat) (tag : Option Nat) : (s.queueMsg p m src tag).now = s.now := by simp [State.queueMsg]

theorem State.sendOwn_now (s : State) (m : FMsg) (g : Nat) (tag : Option Nat) {r} (hr : s.sendOwn m g tag = some r) : r.1.now = s.now := by
  unfold State.sendOwn at hr
  repeat' split at hr
  all_goals cases hr
  all_goals simp

@[simp] theorem State.respond_now (s : State) (m : FMsg) (g : Nat) : (s.respond m g).now = s.now := by
  unfold State.respond
  repeat' split
  all_goals grind [→ State.sendOwn_now]

@[simp] theorem State.dropAdds_now (s : State) (p : AddRec → Bool) : (s.dropAdds p).now = s.now := rfl

@[simp] theorem State.deliver_now (s : State) (k : Sink) (r : Reply) : (s.deliver k r).now = s.now := by
  unfold State.deliver
  dsimp only
  repeat' split
  all_goals simp

@[simp] theorem State.endReq_now (s : State) (tag : Nat) (r : Reply) : (s.endReq tag r).now = s.now := by
  unfold State.endReq
  split <;> simp

@[simp] theorem State.launch_now (s : State) (m : FMsg) : (s.launch m).now = s.now := by
  unfold State.launch
  repeat' split
  all_goals grind [→ State.sendOwn_now, State.endReq_now]

@[simp] theorem State.releaseRoutes_now (s : State) : (s.releaseRoutes).now = s.now := by simp [State.releaseRoutes]

@[simp] theorem State.failReqs_now (s : State) (p : Nat → FReq → Bool) (status : Nat) : (s.failReqs p status).now = s.now := by simp [State.failReqs]

@[simp] theorem State.dropLink_now (s : State) (p : Nat) : (s.dropLink p).now = s.now := by simp [State.dropLink]

@[simp] theorem State.holdRoute_now (s : State) (n : Nat) : (s.holdRoute n).now = s.now := by simp [State.holdRoute]

@[simp] theorem State.setPortState_now (s : State) (p st : Nat) : (s.setPortState p st).now = s.now := by simp [State.setPortState]

@[simp] theorem State.portDown_now (s : State) (p : Nat) : (s.portDown p).now = s.now := by simp [State.portDown]

/-! A draining port. What is sent, and requests that fail, leave the ports' drains as they are. -/

theorem State.port_congr {s t : State} (h : t.ports = s.ports) (p : Nat) : t.port p = s.port p := by rw [State.port, State.port, h]

theorem State.draining_setPort (s : State) {p : Nat} {x : PortState} (h : x.draining = (s.port p).draining) (k : Nat) :
    ((s.setPort p x).port k).draining = (s.port k).draining := by
  by_cases hk : k = p
  · rw [hk, State.port_setPort_same, h]
  · rw [State.port_setPort_other _ _ _ _ hk]

theorem State.sendSeq_ports (s : State) (p seq : Nat) (f : TxFlit) : (s.sendSeq p seq f).ports = s.ports := by
  rw [State.sendSeq, State.putFlit]
  split <;> rfl

theorem State.draining_flushPort (s : State) (p n k : Nat) : ((s.flushPort p n).port k).draining = (s.port k).draining := by
  induction n generalizing s with
  | zero => rfl
  | succ n ih =>
    unfold State.flushPort
    dsimp only
    split
    · rfl
    · split
      · rfl
      · split
        · rfl
        · exact ((ih _).trans (congrArg PortState.draining (State.port_congr (State.sendSeq_ports ..) k))).trans (State.draining_setPort s (by rfl) k)

theorem State.draining_queueMsg (s : State) (p : Nat) (m : FMsg) (src : Nat) (tag : Option Nat) (k : Nat) :
    ((s.queueMsg p m src tag).port k).draining = (s.port k).draining := by
  unfold State.queueMsg State.flush
  dsimp only
  exact (State.draining_flushPort ..).trans (State.draining_setPort s (by rfl) k)

theorem State.draining_sendOwn (s : State) (m : FMsg) (g : Nat) (tag : Option Nat) {r : State × Nat} (hr : s.sendOwn m g tag = some r) (k : Nat) :
    (r.1.port k).draining = (s.port k).draining := by
  unfold State.sendOwn at hr
  split at hr
  · cases hr
  · cases hr
    exact State.draining_queueMsg ..

theorem State.draining_respond (s : State) (m : FMsg) (g k : Nat) : ((s.respond m g).port k).draining = (s.port k).draining := by
  unfold State.respond
  split
  next t q hsend => exact State.draining_sendOwn _ _ _ _ hsend k
  · rfl

/-- A failure delivered to whoever waits for it. -/
theorem State.draining_deliver_fail (s : State) (k : Sink) (st n : Nat) : ((s.deliver k (.fail st)).port n).draining = (s.port n).draining := by
  cases k with
  | remote node tag typ offset => exact s.draining_respond ..
  | peer id place =>
    unfold State.deliver
    dsimp only
    split
    · rfl
    · exact (State.draining_respond _ _ _ _).trans rfl
  | store core id =>
    unfold State.deliver
    dsimp only
    split <;> rfl
  | txGo | atom | spool | chainWrite | chainEnd | buffer | pin | undo | none => rfl

theorem State.draining_endReq_fail (s : State) (tag st n : Nat) : ((s.endReq tag (.fail st)).port n).draining = (s.port n).draining := by
  unfold State.endReq
  split
  · rfl
  · exact (State.draining_deliver_fail _ _ _ _).trans rfl

theorem State.draining_launch (s : State) (m : FMsg) (n : Nat) : ((s.launch m).port n).draining = (s.port n).draining := by
  unfold State.launch
  split
  next t p hsend =>
    have ht := State.draining_sendOwn _ _ _ _ hsend n
    split
    · exact ht
    · exact ht
  · exact State.draining_endReq_fail ..

theorem State.draining_failReqs (s : State) (p : Nat → FReq → Bool) (st n : Nat) : ((s.failReqs p st).port n).draining = (s.port n).draining := by
  unfold State.failReqs State.releaseRoutes
  extract_lets go
  refine (foldl_keeps (fun s => (s.port n).draining) (f := fun s m => s.launch m) (fun s m => State.draining_launch s m n) go _).trans ?_
  exact foldl_keeps (fun s => (s.port n).draining) (f := fun s (q : Nat × FReq) => s.endReq q.1 (.fail st))
    (fun s q => State.draining_endReq_fail s q.1 st n) _ s

/-- A port that goes DOWN drains on only as it did. -/
theorem State.draining_portDown (s : State) (p n : Nat) : ((s.portDown p).port n).draining = (s.port n).draining := by
  have hset : (s.setPortState p 4).ports = s.ports := by
    unfold State.setPortState
    extract_lets t
    refine (foldl_keeps State.ports (f := fun t n => t.holdRoute n) (fun t n => ?_) _ t).trans rfl
    unfold State.holdRoute
    dsimp only
    split <;> rfl
  unfold State.portDown State.dropLink
  extract_lets t y u x tags v
  have ht : (t.port n).draining = (s.port n).draining := congrArg PortState.draining (State.port_congr hset n)
  have hu : (u.port n).draining = (t.port n).draining := State.draining_setPort t (by rfl) n
  have hv : (v.port n).draining = (u.port n).draining := State.draining_setPort u (by rfl) n
  exact ((State.draining_failReqs v _ _ n).trans hv).trans (hu.trans ht)

/-- The record of a port's loss, of class A to C: the record's own registers, and the port's fence at most (R593). -/
theorem State.record_lost {s : State} {p : Nat} (aux : Nat) (hp : p < 16) (hdown : s.portState p = 4) (ha : Claim.Alive s (348 + p)) :
    ∃ t, s.Noted (348 + p) t ∧ (s.record { src := srcJpDown + p, aux := aux } = t
      ∨ s.record { src := srcJpDown + p, aux := aux } = t.wr ⟨FLT_FENCED_UNIT, p, p⟩ 1) := by
  have hunit := s.recordWith_unit { src := srcJpDown + p, aux := aux } (fun c => s.fenceOf (srcJpDown + p) 0 c)
  have hnoted := State.Noted.recordWith (s := s) (e := { src := srcJpDown + p, aux := aux }) (fun c => s.fenceOf (srcJpDown + p) 0 c)
    (show srcJpDown + p < 640 by simp only [srcJpDown]; omega) ((Nat.max_zero _).trans_le (State.eventClass_alive ha))
  have hrec : s.record { src := srcJpDown + p, aux := aux } =
      match (s.recordWith { src := srcJpDown + p, aux := aux } (fun c => s.fenceOf (srcJpDown + p) 0 c)).2 with
      | some u => (s.recordWith { src := srcJpDown + p, aux := aux } (fun c => s.fenceOf (srcJpDown + p) 0 c)).1.fenceUnit u
      | none => (s.recordWith { src := srcJpDown + p, aux := aux } (fun c => s.fenceOf (srcJpDown + p) 0 c)).1 := rfl
  rw [hrec]
  generalize s.recordWith { src := srcJpDown + p, aux := aux } (fun c => s.fenceOf (srcJpDown + p) 0 c) = r at *
  refine ⟨r.1, hnoted, ?_⟩
  obtain h | h : r.2 = none ∨ r.2 = some (3, p) := hunit.elim Or.inl fun ⟨c, hc⟩ => (s.fenceOf_port hp 0 c).imp hc.trans hc.trans
  · rw [h]
    exact Or.inl rfl
  · have hstate : r.1.portState p = 4 := by
      refine (hnoted.rd (f := JP_STAT_STATE p) ?_ ?_).trans hdown
      · simp only [logReg, JP_STAT_STATE, JP_STAT, FLT_STAT, FLT_SRC, FLT_SRC_CNT, TLOG_STAT, srcJpDown]; omega
      · simp only [JP_STAT_STATE, JP_STAT]; omega
    have hoff : JP_STAT p ≠ FLT_FENCED_UNIT := by rw [JP_STAT, FLT_FENCED_UNIT]; omega
    have hkept : (r.1.wr ⟨FLT_FENCED_UNIT, p, p⟩ 1).portState p = 4 := (State.rd_wr_off _ _ _ _ hoff).trans hstate
    rw [h]
    exact Or.inr (if_pos hkept)

/-- A port lost is DOWN (R506): its drain, the time and storage are as they were. -/
theorem State.portLost_spec {s : State} {p : Nat} (hp : p < 16) (ha : Claim.Alive s (348 + p)) :
    (s.portLost p).rd (JP_STAT_STATE p) = 4 ∧ ((s.portLost p).port p).draining = (s.port p).draining
      ∧ (s.portLost p).now = (s.portDown p).now := by
  have hreg : ∀ o, o ≠ JFAB_TX_STAT → (s.portDown p).reg o = (s.wr (JP_STAT_STATE p) 4).reg o := fun o ho => s.reg_portDown p ho
  have hdown : (s.portDown p).portState p = 4 := by
    rw [State.portState, State.rd, hreg _ (by simp only [JP_STAT_STATE, JP_STAT, JFAB_TX_STAT]; omega)]
    exact State.rd_wr_same s (JP_STAT_STATE p) 4 (show 0 ≤ 2 by decide) (show 2 < 64 by decide)
  have ha' : Claim.Alive (s.portDown p) (348 + p) := by
    rw [Claim.Alive, State.rd, hreg _ (by simp only [FLT_SRC_CLASS, FLT_SRC, JFAB_TX_STAT]; omega),
      State.reg_wr_other _ _ _ _ (by simp only [FLT_SRC_CLASS, FLT_SRC, JP_STAT_STATE, JP_STAT]; omega)]
    exact ha
  obtain ⟨t, hnoted, hrec⟩ := State.record_lost (s.rd (JP_STAT_PEER_NODE p)) hp hdown ha'
  have hstate : t.rd (JP_STAT_STATE p) = 4 := by
    refine (hnoted.rd (f := JP_STAT_STATE p) ?_ ?_).trans hdown
    · simp only [logReg, JP_STAT_STATE, JP_STAT, FLT_STAT, FLT_SRC, FLT_SRC_CNT, TLOG_STAT]; omega
    · simp only [JP_STAT_STATE, JP_STAT]; omega
  have hdrain : (t.port p).draining = (s.port p).draining :=
    (congrArg PortState.draining (State.port_congr hnoted.ports p)).trans (s.draining_portDown p p)
  rw [State.portLost]
  obtain hrec | hrec := hrec
  · rw [hrec]
    exact ⟨hstate, hdrain, hnoted.now⟩
  · rw [hrec]
    refine ⟨(State.rd_wr_off _ _ _ _ ?_).trans hstate, (congrArg PortState.draining (State.port_congr (State.wr_ports ..) p)).trans hdrain, ?_⟩
    · simp only [JP_STAT_STATE, JP_STAT, FLT_FENCED_UNIT]; omega
    · exact (State.wr_now ..).trans hnoted.now

/-- The record of a late reset: of class A to C, and fencing nothing (R574). -/
theorem State.Noted.late {s : State} (ha : Claim.Alive s 633) : s.Noted 633 (s.record { src := srcRstLate }) := by
  have hrec : s.record { src := srcRstLate } = (s.recordWith { src := srcRstLate } (fun _ => none)).1 :=
    State.record_unfenced _ _ (fun c => s.fenceOf_none (n := srcRstLate) 0 c (by decide))
  rw [hrec]
  exact Noted.recordWith (e := { src := srcRstLate }) _ (show srcRstLate < 640 by decide) ((Nat.max_zero _).trans_le (State.eventClass_alive ha))

/-- A drain that 40 us did not end (R574). -/
theorem execDrainTimeout_svu {s : State} {u : UnitReset} (hu : s.unitResets = [u]) (hk : u.kind = 0) (hn : u.drained = false)
    (hd : s.unitDrained u = false) (hq : (s.svu u.inst).queue = []) (ha : Claim.Alive s 633) :
    ∃ t, execDrainTimeout s = .next t ∧ t.rd RST_UNIT_STAT_ESCALATED = 1 ∧ t.now = max s.now (u.began + 40000) ∧ (t.svu u.inst).ctxs = []
      ∧ t.mem = s.mem ∧ t.unitResets = [{ u with drained := true }] := by
  have hexec := execDrainTimeout_only hu hk hn hd
  have hnow : ((s.advanceTo (u.began + 40000)).wr RST_UNIT_STAT_ESCALATED 1).now = max s.now (u.began + 40000) := State.advanceTo_now ..
  have hesc : ((s.advanceTo (u.began + 40000)).wr RST_UNIT_STAT_ESCALATED 1).rd RST_UNIT_STAT_ESCALATED = 1 :=
    State.rd_wr_same _ _ _ (by decide) (by decide)
  have halive : Claim.Alive ((s.advanceTo (u.began + 40000)).wr RST_UNIT_STAT_ESCALATED 1) 633 := by
    rw [Claim.Alive, State.rd_wr_off _ _ _ _ (by decide), State.rd_src_advanceTo _ _ 633 (by decide) rfl]
    exact ha
  obtain ⟨rg, nw, lf, hel⟩ := s.elapsed_advanceTo (u.began + 40000)
  have hkeep : ((s.advanceTo (u.began + 40000)).wr RST_UNIT_STAT_ESCALATED 1).unitResets = s.unitResets
      ∧ ((s.advanceTo (u.began + 40000)).wr RST_UNIT_STAT_ESCALATED 1).svus = s.svus
      ∧ ((s.advanceTo (u.began + 40000)).wr RST_UNIT_STAT_ESCALATED 1).mem = s.mem := by
    rw [hel]
    exact ⟨rfl, rfl, rfl⟩
  generalize (s.advanceTo (u.began + 40000)).wr RST_UNIT_STAT_ESCALATED 1 = v at *
  obtain ⟨hunits, hsvus, hmem⟩ := hkeep
  have hnoted := State.Noted.late halive
  generalize v.record { src := srcRstLate } = w at *
  have hq' : (w.svu u.inst).queue = [] := by
    rw [State.svu, hnoted.svus, hsvus]
    exact hq
  obtain ⟨hctx, hregs, hnow', hmem', hu'⟩ := State.forced_svu (hnoted.unitResets.trans (hunits.trans hu)) hk hq'
  refine ⟨_, hexec, (State.rd_congr hregs _).trans ((hnoted.rd ?_ (by decide)).trans hesc), hnow'.trans (hnoted.now.trans hnow), hctx,
    hmem'.trans (hnoted.mem.trans hmem), hu'⟩
  simp only [logReg, RST_UNIT_STAT_ESCALATED, RST_UNIT_STAT, FLT_STAT, FLT_SRC, FLT_SRC_CNT, TLOG_STAT]
  omega

/-- A drain of a port that is over (R572). -/
theorem execPortDrainExpiry_spec {s : State} {p : Port} {t0 : Nat} (hd : (s.port p.val).draining = some t0) (ha : Claim.Alive s (348 + p.val)) :
    ∃ t, execPortDrainExpiry p s = .next t ∧ t.rd (JP_STAT_STATE p.val) = 4 ∧ (t.port p.val).draining = none ∧ t.now = max s.now t0
      ∧ t.mem = s.mem := by
  have halive : Claim.Alive ((s.advanceTo t0).setPort p.val { (s.advanceTo t0).port p.val with draining := none }) (348 + p.val) := by
    have hsame : ((s.advanceTo t0).setPort p.val { (s.advanceTo t0).port p.val with draining := none }).rd (FLT_SRC_CLASS (348 + p.val)) =
        s.rd (FLT_SRC_CLASS (348 + p.val)) :=
      (State.rd_congr (by rfl) _).trans (State.rd_src_advanceTo s t0 (348 + p.val) (by omega) rfl)
    rw [Claim.Alive, hsame]
    exact ha
  obtain ⟨hdown, hdrain, hnow⟩ := State.portLost_spec p.isLt halive
  refine ⟨_, by rw [execPortDrainExpiry, hd], hdown, ?_, ?_, ?_⟩
  · exact hdrain.trans (congrArg PortState.draining (State.port_setPort_same ..))
  · exact hnow.trans ((State.portDown_now ..).trans (State.advanceTo_now ..))
  · rw [State.portLost_mem, State.setPort_mem, State.advanceTo_mem]

end Sys2Proof.Machine

section
open Sys2Proof.Machine Sys2Proof.Machine.Reg Sys2Proof.Claim

/-- Settles O9: the only reset is the one that each command finds; its SVU holds nothing, or what it holds is torn. -/
theorem unitResets : Obligations.UnitResets := by
  intro r s p i port u x t0 src busy unit
  refine ⟨fun hhas hw0 hw1 hbusy hf hd hu => ?_, fun hhas hw0 hw1 hf => ?_, fun hbusy hu hk hi hn => ?_, fun hu hk hi hn hd hq ha => ?_,
    fun hu hk hi hd hring hseq hp => ?_, fun hd ha _ => ?_, fun hhas hsrc hlt hx hle hran => ⟨fun hp => ?_, fun hp => ?_⟩⟩
  · refine ⟨_, execResetUnit_svu i.isLt hhas hw0 hw1 hbusy.1 hbusy.2 hf hd hu, rfl, ?_, ?_, ?_, rfl⟩
    · exact congrArg SvuState.draining (State.svu_setSvu_same ..)
    · exact congrArg RingState.running (State.ring_setRing_same ..)
    · exact (State.rd_congr (s := s.wr RST_UNIT_STAT_ESCALATED 0) (by rfl) _).trans (State.rd_wr_same s RST_UNIT_STAT_ESCALATED 0 (by decide) (by decide))
  · have hend := (s.wr RST_UNIT_STAT_ESCALATED 0).unitEnds_spec (r := r) p i.val ST_FENCED 0 i.isLt (by decide)
    obtain ⟨hst, -, -, hans, hsvus, -, hmem⟩ := hend
    exact ⟨_, execResetUnit_fenced i.isLt hhas hw0 hw1 hf, hst, hans, hsvus, hmem⟩
  · refine ⟨_, execDrainDone_only hu hn (State.unitDrained_idle hbusy.1 hk), ?_⟩
    rw [State.unitAdvance_svu hu hk, hi]
    have hsvu := State.svu_setSvu_same s i.val (s.svu i.val).cleared
    exact ⟨rfl, congrArg SvuState.leaf hsvu, congrArg SvuState.table hsvu, congrArg SvuState.ctxs hsvu, rfl, rfl⟩
  · obtain ⟨t, hexec, hspec⟩ := execDrainTimeout_svu hu hk hn hd (by rw [hi]; exact hq) ha
    obtain ⟨hesc, hnow, hctx, hmem, hunits⟩ := hspec
    exact ⟨t, hexec, hesc, hnow, hi ▸ hctx, hmem, hunits⟩
  · rw [← hring, ← hseq] at hp
    obtain ⟨hst, hinst, hcount, hans, hsvus, hunits, hmem⟩ := State.unitEnds_spec
      (State.count { s.setSvu u.inst { s.svu u.inst with draining := false } with unitResets := [] } RST_UNIT_STAT_COUNT 1)
      (r := r) p u.inst ST_OK u.stopped (by omega) (by decide)
    refine ⟨_, execUnitResetDone_svu hu hk hd hp, ?_⟩
    rw [hring]
    refine ⟨hunits, ?_, hst, hinst.trans hi, hcount.trans ?_, hans, hmem⟩
    · rw [State.svu, hsvus, hi]
      exact congrArg SvuState.draining (State.svu_setSvu_same s i.val { s.svu i.val with draining := false })
    · exact (State.rd_count_min _ RST_UNIT_STAT_COUNT 1 (by decide) (by decide)).trans
        (congrArg (fun n => min (n + 1) (2 ^ 32 - 1)) (State.rd_congr (s := s) (by rfl) _))
  · exact execPortDrainExpiry_spec hd ha
  · refine ⟨_, execFaultAck_right hhas hsrc hlt hx hle hran hp, ?_, tabFind_tabDel_same .., rfl, rfl, rfl⟩
    exact (State.rd_congr (s := s.setPending src 0) (by rfl) _).trans (s.rd_setPending 0 hlt)
  · exact execFaultAck_wrong hhas hsrc hlt hx hle hran hp

end
end
section
/-! PROOF. The input and the level (R526 to R547): what a record of any class leaves of the power manager, the level's steps, and
PWR_LIMIT. -/
namespace Sys2Proof.Machine
open Reg

theorem State.power_allDomainsOff (s : State) : s.allDomainsOff.power = s.power := by
  simp -implicitDefEqProofs [State.allDomainsOff, foldl_keeps State.power, apply_ite State.power]

theorem State.now_allDomainsOff (s : State) : s.allDomainsOff.now = s.now := by
  simp -implicitDefEqProofs [State.allDomainsOff, foldl_keeps State.now, apply_ite State.now]

theorem State.chains_allDomainsOff (s : State) : s.allDomainsOff.chains = [] := by
  simp -implicitDefEqProofs [State.allDomainsOff]

/-- Beside the domains that it switches off, the ripcord state notes itself (R590). -/
theorem State.ripcord_parts (s : State) : s.ripcord.power = { s.allDomainsOff.power with ripcord := true }
    ∧ s.ripcord.chains = s.allDomainsOff.chains ∧ s.ripcord.now = s.allDomainsOff.now := by
  refine ⟨?_, ?_, ?_⟩ <;> simp -implicitDefEqProofs only [State.ripcord, State.wr_power, State.wr_chains, State.wr_now]

/-- `t` follows `s` by a record of whatever class: beside the ripcord state, the power manager keeps all but the domains' bits. -/
structure State.PowerKept (s t : State) : Prop where
  power : ∃ b, t.power = { s.power with ripcord := b }
  chains : s.chains = [] → t.chains = []
  now : t.now = s.now
  regs : ∀ o, 0x60000 ≤ o → o < 0x70000 → o ≠ PWR_DOMAIN_LO → o ≠ PWR_DOMAIN_HI → t.reg o = s.reg o

namespace State.PowerKept
variable {s t u : State}

theorem refl (s : State) : s.PowerKept s := ⟨⟨_, rfl⟩, id, rfl, fun _ _ _ _ _ => rfl⟩

theorem trans (h : s.PowerKept t) (h' : t.PowerKept u) : s.PowerKept u := by
  obtain ⟨b, hb⟩ := h.power
  obtain ⟨b', hb'⟩ := h'.power
  refine ⟨⟨b', ?_⟩, h'.chains ∘ h.chains, h'.now.trans h.now, fun o h1 h2 h3 h4 => (h'.regs o h1 h2 h3 h4).trans (h.regs o h1 h2 h3 h4)⟩
  rw [hb', hb]

theorem ofNoted {n : Nat} (h : s.Noted n t) (hn : n < 640) : s.PowerKept t := by
  refine ⟨⟨s.power.ripcord, h.power⟩, fun hc => h.chains.trans hc, h.now, fun o h1 h2 _ _ => h.regs o ?_ (by omega)⟩
  simp only [logReg, FLT_STAT, FLT_SRC, FLT_SRC_CNT, TLOG_STAT]
  omega

theorem ripcord (s : State) : s.PowerKept s.ripcord := by
  obtain ⟨hp, hc, hn⟩ := s.ripcord_parts
  exact ⟨⟨true, hp.trans (by rw [s.power_allDomainsOff])⟩, fun _ => hc.trans s.chains_allDomainsOff, hn.trans s.now_allDomainsOff,
    fun o _ h2 h3 h4 => s.reg_ripcord_low h2 h3 h4⟩

theorem actOn (s : State) (r : FltRec) (hr : r.source < 640) (hc : r.cls ≤ 3) : s.PowerKept (s.actOn r) := by
  by_cases h : r.cls ≤ 2
  · exact ofNoted (Noted.actOn s r h) hr
  · have h3 : r.cls = 3 := by omega
    rw [s.actOn_D h3]
    exact (ripcord s).trans (ofNoted (n := 0) (Noted.alert 0 _ 2) (by decide))

/-- A source's class, raised at most by one from A or B, is one of the four. -/
theorem eventClass_le (s : State) (n : Nat) : s.eventClass n ≤ 3 := by
  have hlt : s.rd (FLT_SRC_CLASS n) < 4 := s.rd_lt _
  rw [State.eventClass, State.promotes]
  split
  next hp =>
    have := decide_eq_true_eq.mp (Bool.and_eq_true_iff.mp hp).2
    omega
  · omega

theorem recordWith (s : State) (e : FaultEv) (unit : Nat → Option (Nat × Nat)) (hn : e.src < 640) (hl : e.least ≤ 3) :
    s.PowerKept (s.recordWith e unit).1 := by
  have hc : max (s.eventClass e.src) e.least ≤ 3 := max_le (eventClass_le s e.src) hl
  rw [State.recordWith_eq, State.entered]
  split
  · exact (ofNoted (Logged.noticed s e.src).toNoted hn).trans (ofNoted (n := e.src) ⟨rfl, fun _ _ _ => rfl, fun _ _ => rfl⟩ hn)
  · rw [State.writeRecord_eq]
    have hlog := (Logged.opened (e := e) s).trans
      (Logged.logged _ (e.entry (max (s.eventClass e.src) e.least) (s.promotes e.src) (unit (max (s.eventClass e.src) e.least)).isSome
        (tabGet ((s.counted e.src).leaked e.src).srcMerged 0 e.src)) hn)
    exact (ofNoted hlog.toNoted hn).trans (actOn _ _ hn hc)

theorem record (s : State) (e : FaultEv) (hn : e.src < 640) (hl : e.least ≤ 3)
    (hu : ∀ c, (if e.fence then fenceByKind e.src e.inst else s.fenceOf e.src e.inst c) = none) : s.PowerKept (s.record e) := by
  rw [State.record_unfenced s e hu]
  exact recordWith s e _ hn hl

/-- A field of the power manager, the domains' bits apart. -/
theorem rd (h : s.PowerKept t) {f : RF} (hf : 0x60000 ≤ f.off ∧ f.off < 0x70000 ∧ f.off ≠ PWR_DOMAIN_LO ∧ f.off ≠ PWR_DOMAIN_HI) :
    t.rd f = s.rd f := by
  obtain ⟨h1, h2, h3, h4⟩ := hf
  rw [State.rd, State.rd, h.regs _ h1 h2 h3 h4]

end State.PowerKept

/-! The level (R538, R546). -/

theorem State.LevelApart.now {s t : State} (h : s.LevelApart t) : t.now = s.now := by rw [h.1]

theorem State.LevelApart.mem {s t : State} (h : s.LevelApart t) : t.mem = s.mem := by rw [h.1]

theorem State.LevelApart.power {s t : State} (h : s.LevelApart t) : t.power = { s.power with upFrom := t.power.upFrom } := by
  conv_lhs => rw [h.1]


theorem State.level_lt (s : State) : s.level < 4 := s.rd_lt PWR_ENV_LEVEL

theorem State.level_setLevel (s : State) {l : Nat} (h : l < 4) : (s.setLevel l).level = l := by
  unfold State.setLevel
  split
  next heq => exact heq
  · extract_lets s1 y s2
    have h1 : s1.level = l := (State.rd_wr_same s PWR_ENV_LEVEL l (by decide) (by decide)).trans (Nat.mod_eq_of_lt h)
    have h2 : s2.level = l := h1
    split
    · exact h2
    · exact ((State.rd_count_off _ _ _ _ (by decide)).trans (State.rd_wr_off _ _ _ _ (by decide))).trans h2

/-- The level lowered is the next one. -/
theorem State.level_lowerLevel (s : State) (h : s.level ≠ 3) : s.lowerLevel.level = s.level + 1 := by
  have hlt := s.level_lt
  rw [State.lowerLevel, if_neg h]
  exact (State.rd_count_off _ _ _ _ (by decide)).trans (s.level_setLevel (by omega))

/-- With enough steps the committed power fits, or the level is 3. -/
theorem State.fitLevel_fits (s : State) (n : Nat) (h : 3 ≤ s.level + n) :
    (s.fitLevel n).committed ≤ ((s.fitLevel n).envelope : Rat) ∨ (s.fitLevel n).level = 3 := by
  induction n generalizing s with
  | zero =>
    have hlt := s.level_lt
    exact Or.inr (show s.level = 3 by omega)
  | succ n ih =>
    rw [State.fitLevel]
    split
    next hfit => exact hfit
    next hfit =>
      have hne : s.level ≠ 3 := fun h3 => hfit (Or.inr h3)
      exact ih _ (by rw [s.level_lowerLevel hne]; omega)

/-- The committed power and the envelope do not ask since when the raise conditions hold. -/
theorem State.holdFrom_fits {s t : State} (h : t.committed ≤ (t.envelope : Rat) ∨ t.level = 3) :
    (s.holdFrom t).committed ≤ ((s.holdFrom t).envelope : Rat) ∨ (s.holdFrom t).level = 3 := by
  unfold State.holdFrom
  split
  · exact h
  · exact h

theorem State.fit_eq {s : State} (hc : s.chains = []) (hw : s.power.waiting = []) : s.fit = s.fitLevel 3 := by
  have hw' : (s.fitLevel 3).power.waiting = [] := by rw [(State.LevelApart.fitLevel s 3).1]; exact hw
  simp [State.fit, hc, State.fitGrants, State.denyWaiting, hw']

theorem State.rd_pwr_advanceTo (s : State) (t : Nat) {f : RF} (h : 0x60000 ≤ f.off) (h' : f.off < 0x70000) : (s.advanceTo t).rd f = s.rd f := by
  have hreg : (s.advanceTo t).reg f.off = s.reg f.off := by
    apply State.reg_advanceTo <;> simp only [TIME_NOW, TIME_SLEW, LCS_BOOT] <;> omega
  rw [State.rd, State.rd, hreg]

/-- What a step of the level changes of the counters. -/
theorem State.rd_setLevel (s : State) (l : Nat) {f : RF} (h : f.off ≠ PWR_ENV ∧ f.off ≠ CLK_PLL 1 ∧ f.off ≠ CLK_SWITCHES ∧ f.off ≠ PWR_STAT) :
    (s.setLevel l).rd f = s.rd f := by
  obtain ⟨h1, h2, h3, h4⟩ := h
  rw [State.rd, State.rd, (State.LevelApart.setLevel s l).2 _ h1 h2 h3 h4]

theorem State.rd_stat_setLevel (s : State) (l : Nat) {f : RF} (hf : f.off = PWR_STAT) : (s.setLevel l).rd f = s.rd f := by
  unfold State.setLevel
  split
  · rfl
  · extract_lets s1 y s2
    have h1 : s1.rd f = s.rd f := State.rd_wr_off _ _ _ _ (by rw [hf]; decide)
    have h2 : s2.rd f = s1.rd f := State.rd_congr (by rfl) f
    split
    · exact h2.trans h1
    · exact (((State.rd_count_off _ _ _ _ (by rw [hf]; decide)).trans (State.rd_wr_off _ _ _ _ (by rw [hf]; decide))).trans h2).trans h1

/-- A level lowered is counted. -/
theorem State.downs_lowerLevel (s : State) (h : s.level ≠ 3) :
    s.lowerLevel.rd PWR_STAT_LEVEL_DOWNS = min (s.rd PWR_STAT_LEVEL_DOWNS + 1) (2 ^ 16 - 1) := by
  rw [State.lowerLevel, if_neg h, State.rd_count_min _ _ _ (by decide) (by decide), State.rd_stat_setLevel _ _ rfl]
  rfl

theorem State.power_lowerLevel (s : State) : ∃ n, s.lowerLevel.power = { s.power with upFrom := n } :=
  ⟨_, State.LevelApart.power (State.LevelApart.lowerLevel s)⟩

theorem State.now_lowerLevel (s : State) : s.lowerLevel.now = s.now := State.LevelApart.now (State.LevelApart.lowerLevel s)

/-- The first waiting lift begins its wait again. -/
def State.waitAgain (s : State) (q : LiftReq) (rest : List LiftReq) : State :=
  { s with power := { s.power with waiting := { q with timer := s.now } :: rest } }

theorem State.rd_waitAgain (s : State) (q : LiftReq) (rest : List LiftReq) (f : RF) : (s.waitAgain q rest).rd f = s.rd f :=
  State.rd_congr (by rfl) f

theorem execEnvWaitExpiry_eq {s : State} {q : LiftReq} {rest : List LiftReq} (hw : s.power.waiting = q :: rest) (hr : s.power.rules = true) :
    execEnvWaitExpiry s = .next ((s.advanceTo (q.timer + s.rd PWR_CFG_ENV_WAIT * 1000)).waitAgain q rest).lowerLevel := by
  rw [execEnvWaitExpiry, hw]
  dsimp only
  rw [hr]
  rfl

/-- A lift that waits lowers the level after ENV_WAIT (R538). -/
theorem execEnvWaitExpiry_spec {s : State} {q : LiftReq} {rest : List LiftReq} (hw : s.power.waiting = q :: rest) (hr : s.power.rules = true)
    (hl : s.level < 3) : ∃ t, execEnvWaitExpiry s = .next t ∧ t.now = max s.now (q.timer + s.rd PWR_CFG_ENV_WAIT * 1000) ∧ t.level = s.level + 1
      ∧ t.rd PWR_STAT_LEVEL_DOWNS = min (s.rd PWR_STAT_LEVEL_DOWNS + 1) (2 ^ 16 - 1) ∧ t.power.waiting = { q with timer := t.now } :: rest
      ∧ t.mem = s.mem := by
  have hexec := execEnvWaitExpiry_eq hw hr
  have hnow := s.advanceTo_now (q.timer + s.rd PWR_CFG_ENV_WAIT * 1000)
  have hrd : ∀ f : RF, 0x60000 ≤ f.off → f.off < 0x70000 →
      ((s.advanceTo (q.timer + s.rd PWR_CFG_ENV_WAIT * 1000)).waitAgain q rest).rd f = s.rd f :=
    fun f h h' => (State.rd_waitAgain ..).trans (s.rd_pwr_advanceTo _ h h')
  have hmem := s.advanceTo_mem (q.timer + s.rd PWR_CFG_ENV_WAIT * 1000)
  generalize s.advanceTo (q.timer + s.rd PWR_CFG_ENV_WAIT * 1000) = u at hexec hnow hrd hmem
  have hvl : (u.waitAgain q rest).level = s.level := hrd _ (by decide) (by decide)
  have hlevel : (u.waitAgain q rest).lowerLevel.level = s.level + 1 := by rw [State.level_lowerLevel _ (by omega), hvl]
  have hdowns : (u.waitAgain q rest).lowerLevel.rd PWR_STAT_LEVEL_DOWNS = min (s.rd PWR_STAT_LEVEL_DOWNS + 1) (2 ^ 16 - 1) := by
    rw [State.downs_lowerLevel _ (by omega), hrd _ (by decide) (by decide)]
  have hmem' : (u.waitAgain q rest).lowerLevel.mem = s.mem := (State.lowerLevel_mem _).trans hmem
  obtain ⟨n, hp⟩ := (u.waitAgain q rest).power_lowerLevel
  have hwait : (u.waitAgain q rest).lowerLevel.power.waiting = { q with timer := u.now } :: rest := by
    rw [hp]
    rfl
  have hvnow : (u.waitAgain q rest).lowerLevel.now = u.now := (u.waitAgain q rest).now_lowerLevel
  generalize (u.waitAgain q rest).lowerLevel = t at *
  exact ⟨t, hexec, hvnow.trans hnow, hlevel, hdowns, hwait.trans (by rw [hvnow]), hmem'⟩

/-- A change of the level begins UP_HOLD's wait again. -/
theorem State.upFrom_setLevel (s : State) {l : Nat} (h : s.level ≠ l) : (s.setLevel l).power.upFrom = s.now := by
  rw [State.setLevel, if_neg h]
  dsimp only
  split <;> rfl

/-- The level is raised after UP_HOLD (R538). -/
theorem execUpHoldExpiry_spec {s : State} (h : s.mayRaise = true) :
    ∃ t, execUpHoldExpiry s = .next t ∧ t.now = max s.now (s.power.upFrom + s.rd PWR_CFG_UP_HOLD * 1000000) ∧ t.level + 1 = s.level
      ∧ t.power.upFrom = t.now ∧ t.mem = s.mem := by
  have hne : s.level ≠ 0 := by
    rw [State.mayRaise] at h
    simp -implicitDefEqProofs only [Bool.and_eq_true, bne_iff_ne] at h
    obtain ⟨⟨⟨⟨⟨-, hne⟩, -⟩, -⟩, -⟩, -⟩ := h
    exact hne
  have hlt := s.level_lt
  have hnow := s.advanceTo_now (s.power.upFrom + s.rd PWR_CFG_UP_HOLD * 1000000)
  have hlevel : (s.advanceTo (s.power.upFrom + s.rd PWR_CFG_UP_HOLD * 1000000)).level = s.level := s.rd_pwr_advanceTo _ (by decide) (by decide)
  have hmem := s.advanceTo_mem (s.power.upFrom + s.rd PWR_CFG_UP_HOLD * 1000000)
  have hexec : execUpHoldExpiry s = .next ((s.advanceTo (s.power.upFrom + s.rd PWR_CFG_UP_HOLD * 1000000)).setLevel
      ((s.advanceTo (s.power.upFrom + s.rd PWR_CFG_UP_HOLD * 1000000)).level - 1)) := by
    rw [execUpHoldExpiry]
    exact congrArg Host.Outcome.next (if_neg (by simp [h]))
  generalize s.advanceTo (s.power.upFrom + s.rd PWR_CFG_UP_HOLD * 1000000) = u at *
  have hnow' : (u.setLevel (u.level - 1)).now = u.now := State.LevelApart.now (State.LevelApart.setLevel u (u.level - 1))
  refine ⟨_, hexec, hnow'.trans hnow, ?_, hnow'.symm ▸ u.upFrom_setLevel (by omega), (State.setLevel_mem ..).trans hmem⟩
  rw [u.level_setLevel (by omega), hlevel]
  omega

/-- A stall of the bus (R543). -/
theorem execBusStall_spec {s : State} (h : s.power.stalled = false) :
    ∃ t, execBusStall s = .next t ∧ t.power.stalled = true ∧ t.rd PWR_STAT_STALLS = min (s.rd PWR_STAT_STALLS + 1) (2 ^ 16 - 1) ∧ t.mem = s.mem := by
  have hkept := State.PowerKept.recordWith (s.stalled.count PWR_STAT_STALLS 1) { src := 628 } (fun _ => none) (by decide) (by decide)
  obtain ⟨b, hp⟩ := hkept.power
  refine ⟨_, execBusStall_first h, by rw [hp]; rfl, ?_, ?_⟩
  · rw [hkept.rd (by decide), State.rd_count_min _ _ _ (by decide) (by decide)]
    rfl
  · rw [State.recordWith_mem]
    rfl

theorem State.power_holdFrom (s t : State) : (s.holdFrom t).power = { t.power with upFrom := (s.holdFrom t).power.upFrom } :=
  State.LevelApart.power (State.LevelApart.holdFrom s (State.LevelApart.refl t))

/-- The hottest junction noted. -/
def State.heated (s : State) (hot : Nat) (thermal : Bool) : State := { s with power := { s.power with hot := hot, thermal := thermal } }

theorem State.rd_heated (s : State) (hot : Nat) (b : Bool) (f : RF) : (s.heated hot b).rd f = s.rd f := State.rd_congr (by rfl) f

theorem State.throttle_eq (s : State) (hot : Nat) : s.throttle hot =
    if s.rd PWR_CFG_THROTTLE ≤ hot then
      (if (s.heated hot true).level = 3 then s.heated hot true else (s.heated hot true).lowerLevel.record { src := srcPwrThrottle })
    else if hot + 5 ≤ s.rd PWR_CFG_THROTTLE then (s.heated hot s.power.thermal).holdFrom (s.heated hot false)
    else s.heated hot s.power.thermal := rfl

/-- A junction's temperature acts on the level (R547). -/
theorem State.throttle_spec (s : State) (hot : Nat) :
    let t := s.throttle hot
    let T := s.rd PWR_CFG_THROTTLE
    t.power.hot = hot ∧ t.level = (if T ≤ hot then min 3 (s.level + 1) else s.level)
      ∧ t.power.thermal = (if T ≤ hot then true else if hot + 5 ≤ T then false else s.power.thermal) ∧ t.mem = s.mem := by
  intro t T
  have hlevel : ∀ b, (s.heated hot b).level = s.level := fun b => s.rd_heated hot b _
  have heq : t = _ := s.throttle_eq hot
  clear_value t
  subst heq
  by_cases hT : s.rd PWR_CFG_THROTTLE ≤ hot
  · rw [if_pos hT, if_pos hT, if_pos hT, hlevel]
    by_cases h3 : s.level = 3
    · rw [if_pos h3, hlevel, h3]
      exact ⟨rfl, rfl, rfl, rfl⟩
    · rw [if_neg h3]
      have hlt := s.level_lt
      have hdown : (s.heated hot true).lowerLevel.level = s.level + 1 := by rw [State.level_lowerLevel _ (by rw [hlevel]; exact h3), hlevel]
      have hpow : ∃ n, (s.heated hot true).lowerLevel.power = { (s.heated hot true).power with upFrom := n } := State.power_lowerLevel _
      have hmem : (s.heated hot true).lowerLevel.mem = s.mem := State.lowerLevel_mem _
      generalize (s.heated hot true).lowerLevel = u at *
      obtain ⟨n, hpow⟩ := hpow
      have hkept := State.PowerKept.record u { src := srcPwrThrottle } (by decide) (by decide)
        (fun c => u.fenceOf_none (n := srcPwrThrottle) 0 c (by decide))
      obtain ⟨b, hp⟩ := hkept.power
      have hrec : (u.record { src := srcPwrThrottle }).level = u.level := hkept.rd (by decide)
      rw [hrec, hdown, hp, hpow, State.record_mem, hmem, Nat.min_eq_right (by omega)]
      exact ⟨rfl, rfl, rfl, rfl⟩
  · rw [if_neg hT, if_neg hT, if_neg hT]
    by_cases h5 : hot + 5 ≤ s.rd PWR_CFG_THROTTLE
    · rw [if_pos h5, if_pos h5]
      have hpow := (s.heated hot s.power.thermal).power_holdFrom (s.heated hot false)
      have hlev : ((s.heated hot s.power.thermal).holdFrom (s.heated hot false)).level = s.level :=
        (State.rd_congr (State.holdFrom_regs ..) _).trans (hlevel false)
      rw [hlev, State.holdFrom_mem, hpow]
      exact ⟨rfl, rfl, rfl, rfl⟩
    · rw [if_neg h5, if_neg h5, hlevel]
      exact ⟨rfl, rfl, rfl, rfl⟩

/-! A sample of the input (R526, R527, R546). -/

/-- What a watermark of the power manager leaves: it sets its own register, and a message's pending bit. -/
theorem State.pinMark_kept (s : State) : s.pinMark.power = s.power ∧ s.pinMark.chains = s.chains
    ∧ ∀ f : RF, f.off ≠ PWR_WM_PIN → f.off < 0xb0000 → s.pinMark.rd f = s.rd f := by
  have hmsix : ∀ (u : State) (v : Nat), (u.msix v).power = u.power ∧ (u.msix v).chains = u.chains := by
    intro u v
    unfold State.msix
    split
    · exact ⟨State.wr_power .., State.wr_chains ..⟩
    · exact ⟨rfl, rfl⟩
  unfold State.pinMark State.watermark
  extract_lets level old quiet u v
  split
  · exact ⟨rfl, rfl, fun _ _ _ => rfl⟩
  · split
    · exact ⟨State.wr_power .., State.wr_chains .., fun f hf _ => State.rd_wr_off _ _ _ _ hf⟩
    · have hv : v.power = s.power ∧ v.chains = s.chains := ⟨rfl, rfl⟩
      have hrd : ∀ f : RF, f.off ≠ PWR_WM_PIN → v.rd f = s.rd f := fun f hf =>
        (State.rd_wr_off _ _ _ _ (by split <;> exact hf)).trans ((State.rd_count_off _ _ _ _ hf).trans (State.rd_wr_off _ _ _ _ hf))
      clear_value v
      split
      · refine ⟨(hmsix v _).1.trans hv.1, (hmsix v _).2.trans hv.2, fun f hf hlt => ?_⟩
        rw [State.rd, State.reg_msix _ _ hlt]
        exact hrd f hf
      · exact ⟨hv.1, hv.2, fun f hf _ => hrd f hf⟩

/-- The state with a sample in PWR_INPUT (R526). -/
def State.sampled (s : State) (vin iin : Nat) : State :=
  let u := ({ s with power := { s.power with vin := vin } } : State).fresh
  (((u.2.wr PWR_INPUT_PIN (vin * iin / 100000)).wr PWR_INPUT_IIN iin).wr PWR_INPUT_VIN (vin / 10)).wr PWR_INPUT_BUS u.1

/-- VIN has left its range (R555). -/
def vinLeaves (old vin : Nat) : Bool := (decide (6000 ≤ old) && decide (old ≤ 60000)) && !(decide (6000 ≤ vin) && decide (vin ≤ 60000))

theorem execVinSample_on {s : State} (h : s.power.off = false) (vin iin : Nat) : execVinSample vin iin s = .next (s.holdFrom
    (if vinLeaves s.power.vin vin then (s.sampled vin iin).pinMark.record { src := srcPwrVin } else (s.sampled vin iin).pinMark).fit) := by
  have hoff : ¬ s.power.off = true := by simp [h]
  exact congrArg Host.Outcome.next (if_neg hoff)

section
variable (s : State) (vin iin : Nat)

theorem State.sampled_input : (s.sampled vin iin).rd PWR_INPUT_VIN = vin / 10 % 2 ^ 16 ∧ (s.sampled vin iin).rd PWR_INPUT_IIN = iin % 2 ^ 16
    ∧ (s.sampled vin iin).rd PWR_INPUT_PIN = vin * iin / 100000 % 2 ^ 16 := by
  have happart : ∀ {f g : RF} (u : State) (v : Nat), f.lo ≤ f.hi ∧ f.hi < 64 ∧ g.off = f.off ∧ (g.hi < f.lo ∨ f.hi < g.lo) →
      (u.wr f v).rd g = u.rd g := fun u v ⟨h1, h2, h3, h4⟩ => State.rd_wr_apart u _ _ v h1 h2 h3 h4
  unfold State.sampled
  extract_lets u
  clear_value u
  refine ⟨?_, ?_, ?_⟩
  · rw [happart _ _ (by decide), State.rd_wr_same _ _ _ (by decide) (by decide)]
    rfl
  · rw [happart _ _ (by decide), happart _ _ (by decide), State.rd_wr_same _ _ _ (by decide) (by decide)]
    rfl
  · rw [happart _ _ (by decide), happart _ _ (by decide), happart _ _ (by decide), State.rd_wr_same _ _ _ (by decide) (by decide)]
    rfl

theorem State.sampled_power : (s.sampled vin iin).power = { s.power with vin := vin } ∧ (s.sampled vin iin).chains = s.chains := ⟨rfl, rfl⟩

variable {s}

/-- A sample shows, and the module fits the envelope or reaches level 3 (R526, R546). -/
theorem execVinSample_spec (hoff : s.power.off = false) (hu : Claim.Unloaded s) : ∃ t, execVinSample vin iin s = .next t ∧ t.power.vin = vin
    ∧ t.rd PWR_INPUT_VIN = vin / 10 % 2 ^ 16 ∧ t.rd PWR_INPUT_IIN = iin % 2 ^ 16 ∧ t.rd PWR_INPUT_PIN = vin * iin / 100000 % 2 ^ 16
    ∧ (t.committed ≤ (t.envelope : Rat) ∨ t.level = 3) := by
  have hexec := execVinSample_on hoff vin iin
  obtain ⟨hp, hc⟩ := s.sampled_power vin iin
  obtain ⟨hvin, hiin, hpin⟩ := s.sampled_input vin iin
  obtain ⟨hmp, hmc, hmr⟩ := (s.sampled vin iin).pinMark_kept
  have hrec : ∀ u : State, u.PowerKept (if vinLeaves s.power.vin vin then u.record { src := srcPwrVin } else u) := by
    intro u
    split
    · exact State.PowerKept.record u { src := srcPwrVin } (by decide) (by decide) (fun c => u.fenceOf_none (n := srcPwrVin) 0 c (by decide))
    · exact .refl u
  have hkept := hrec (s.sampled vin iin).pinMark
  generalize (if vinLeaves s.power.vin vin then (s.sampled vin iin).pinMark.record { src := srcPwrVin } else (s.sampled vin iin).pinMark) = w
    at hexec hkept
  obtain ⟨b, hwp⟩ := hkept.power
  have hwc : w.chains = [] := hkept.chains (by rw [hmc, hc]; exact hu.1)
  have hww : w.power.waiting = [] := by rw [hwp, hmp, hp]; exact hu.2
  have hwv : w.power.vin = vin := by rw [hwp, hmp, hp]
  have hrd : ∀ f : RF, f.off = PWR_INPUT → (s.holdFrom w.fit).rd f = (s.sampled vin iin).rd f := by
    intro f hf
    have hl := State.LevelApart.holdFrom s (State.LevelApart.fit hwc hww)
    have hreg : (s.holdFrom w.fit).reg f.off = w.reg f.off := hl.2 _ (by rw [hf]; decide) (by rw [hf]; decide) (by rw [hf]; decide) (by rw [hf]; decide)
    have hw : (s.holdFrom w.fit).rd f = w.rd f := by rw [State.rd, State.rd, hreg]
    rw [hw, hkept.rd (by rw [hf]; decide), hmr f (by rw [hf]; decide) (by rw [hf]; decide)]
  have hpow : (s.holdFrom w.fit).power.vin = vin := by
    rw [State.LevelApart.power (State.LevelApart.holdFrom s (State.LevelApart.fit hwc hww))]
    exact hwv
  have hfits := State.holdFrom_fits (s := s) (t := w.fit) (by rw [State.fit_eq hwc hww]; exact State.fitLevel_fits _ 3 (by omega))
  exact ⟨_, hexec, hpow, (hrd _ rfl).trans hvin, (hrd _ rfl).trans hiin, (hrd _ rfl).trans hpin, hfits⟩

end

/-! PWR_LIMIT (R531, R556). -/

section
variable {s : State} {m : Master} {v : Word}

/-- What a write of PWR_LIMIT gives each field: MAX_W and CAP_MIN in their ranges and in order, SLEW in its own (R531, R556). -/
def limitOf (s : State) (n : Nat) : Nat × Nat × Nat :=
  let mx := n / 2 ^ 48
  let mn := n / 2 ^ 32 % 2 ^ 16
  let sl := n % 16
  let mx1 := if 450 ≤ mx ∧ mx ≤ 1800 then mx else s.rd PWR_LIMIT_MAX_W
  let mn1 := if 450 ≤ mn ∧ mn ≤ mx1 then mn else s.rd PWR_LIMIT_CAP_MIN
  (if mn1 ≤ mx1 then mx1 else s.rd PWR_LIMIT_MAX_W, mn1, if 1 ≤ sl ∧ sl ≤ 8 then sl else s.rd PWR_LIMIT_SLEW)

theorem limitOf_lt (s : State) (v : Word) : (limitOf s v.toNat).1 < 2 ^ 16 ∧ (limitOf s v.toNat).2.1 < 2 ^ 16 ∧ (limitOf s v.toNat).2.2 < 2 ^ 4 := by
  have h1 : s.rd PWR_LIMIT_MAX_W < 2 ^ 16 := s.rd_lt _
  have h2 : s.rd PWR_LIMIT_CAP_MIN < 2 ^ 16 := s.rd_lt _
  have h3 : s.rd PWR_LIMIT_SLEW < 2 ^ 4 := s.rd_lt _
  have hv := v.isLt
  unfold limitOf
  dsimp only
  refine ⟨?_, ?_, ?_⟩
  · repeat' split
    all_goals omega
  · repeat' split
    all_goals omega
  · split <;> omega

/-- The three fields of PWR_LIMIT written. -/
theorem State.rd_limits (u : State) (x : Nat × Nat × Nat) (hx : x.1 < 2 ^ 16 ∧ x.2.1 < 2 ^ 16 ∧ x.2.2 < 2 ^ 4) :
    let t := ((u.wr PWR_LIMIT_MAX_W x.1).wr PWR_LIMIT_CAP_MIN x.2.1).wr PWR_LIMIT_SLEW x.2.2
    t.rd PWR_LIMIT_MAX_W = x.1 ∧ t.rd PWR_LIMIT_CAP_MIN = x.2.1 ∧ t.rd PWR_LIMIT_SLEW = x.2.2 := by
  have happart : ∀ {f g : RF} (u : State) (v : Nat), f.lo ≤ f.hi ∧ f.hi < 64 ∧ g.off = f.off ∧ (g.hi < f.lo ∨ f.hi < g.lo) →
      (u.wr f v).rd g = u.rd g := fun u v ⟨h1, h2, h3, h4⟩ => State.rd_wr_apart u _ _ v h1 h2 h3 h4
  refine ⟨?_, ?_, ?_⟩
  · rw [happart _ _ (by decide), happart _ _ (by decide), State.rd_wr_same _ _ _ (by decide) (by decide)]
    exact Nat.mod_eq_of_lt hx.1
  · rw [happart _ _ (by decide), State.rd_wr_same _ _ _ (by decide) (by decide)]
    exact Nat.mod_eq_of_lt hx.2.1
  · rw [State.rd_wr_same _ _ _ (by decide) (by decide)]
    exact Nat.mod_eq_of_lt hx.2.2

/-- A write of PWR_LIMIT (R531, R556). -/
theorem State.limitWrite_spec (hc : s.chains = []) (hw : s.power.waiting = []) :
    let t := s.limitWrite (Claim.whole m v)
    let x := limitOf s v.toNat
    t.rd PWR_LIMIT_MAX_W = x.1 ∧ t.rd PWR_LIMIT_CAP_MIN = x.2.1 ∧ t.rd PWR_LIMIT_SLEW = x.2.2
      ∧ t.power.slew = (if s.power.ramps = [] then x.2.2 else s.power.slew) ∧ t.mem = s.mem := by
  have hmax : s.after (Claim.whole m v) PWR_LIMIT_MAX_W = v.toNat / 2 ^ 48 := by
    have := v.isLt
    rw [State.after_whole, bitsOf]
    exact Nat.mod_eq_of_lt (by simp only [PWR_LIMIT_MAX_W]; omega)
  have hmin : s.after (Claim.whole m v) PWR_LIMIT_CAP_MIN = v.toNat / 2 ^ 32 % 2 ^ 16 := State.after_whole ..
  have hslew : s.after (Claim.whole m v) PWR_LIMIT_SLEW = v.toNat % 16 := by
    rw [State.after_whole]
    simp [bitsOf, PWR_LIMIT_SLEW]
  unfold State.limitWrite
  extract_lets s0 max0 min0 slew0 maxW maxOk max1 minW minOk min1 max2 slewW slewOk slew1 s1 s2 y s3 t x
  have hx : x = (max2, min1, slew1) := by
    have h1 : max1 = if 450 ≤ v.toNat / 2 ^ 48 ∧ v.toNat / 2 ^ 48 ≤ 1800 then v.toNat / 2 ^ 48 else s.rd PWR_LIMIT_MAX_W := by
      simp only [max1, maxOk, maxW, max0, hmax, Bool.and_eq_true, decide_eq_true_eq]
    have h2 : min1 = if 450 ≤ v.toNat / 2 ^ 32 % 2 ^ 16 ∧ v.toNat / 2 ^ 32 % 2 ^ 16 ≤ max1 then v.toNat / 2 ^ 32 % 2 ^ 16 else s.rd PWR_LIMIT_CAP_MIN := by
      simp only [min1, minOk, minW, min0, hmin, Bool.and_eq_true, decide_eq_true_eq]
    have h3 : slew1 = if 1 ≤ v.toNat % 16 ∧ v.toNat % 16 ≤ 8 then v.toNat % 16 else s.rd PWR_LIMIT_SLEW := by
      simp only [slew1, slewOk, slewW, slew0, hslew, Bool.and_eq_true, decide_eq_true_eq]
    have h4 : max2 = if min1 ≤ max1 then max1 else s.rd PWR_LIMIT_MAX_W := by
      simp only [max2, max0]
      split <;> split <;> first | rfl | omega
    clear_value max2 min1 max1 slew1
    subst h4 h3 h2 h1
    rfl
  have hlt := limitOf_lt s v
  rw [show limitOf s v.toNat = (max2, min1, slew1) from hx] at hlt
  have h1 := State.rd_limits s (max2, min1, slew1) hlt
  have k2 : s1.RampsKept s2 := .ite (.refl s1) (.regRecord ..)
  have e3 : s3 = s2.takeSlew slew1 := rfl
  have hm2 : s2.mem = s.mem := (State.mem_ite _ _ _).trans (by rw [State.regRecord_mem]; exact ite_self _)
  have hm3 : (s2.takeSlew slew1).mem = s2.mem := (State.mem_ite _ _ _).trans (ite_self _)
  have hs1 : s1.chains = [] ∧ s1.power = s.power := ⟨hc, rfl⟩
  have h1' : s1.rd PWR_LIMIT_MAX_W = max2 ∧ s1.rd PWR_LIMIT_CAP_MIN = min1 ∧ s1.rd PWR_LIMIT_SLEW = slew1 := h1
  have ht : t = s.holdFrom s3.fit := rfl
  clear_value x t s3 s2 s1
  subst e3 ht hx
  have hfit : (s2.takeSlew slew1).LevelApart (s.holdFrom (s2.takeSlew slew1).fit) :=
    (State.LevelApart.fit (by simpa using k2.chains hs1.1) (by rw [State.takeSlew_waiting, k2.waiting, hs1.2]; exact hw)).holdFrom s
  have hrd : ∀ f : RF, f.off = PWR_LIMIT → (s.holdFrom (s2.takeSlew slew1).fit).rd f = s1.rd f := fun f hf => by
    rw [hfit.rd _ (.inl hf), State.rd_congr (State.takeSlew_regs s2 slew1), k2.rd hf]
  obtain ⟨hm1, hmn, hm3'⟩ := h1'
  refine ⟨(hrd _ rfl).trans hm1, (hrd _ rfl).trans hmn, (hrd _ rfl).trans hm3', ?_, (State.LevelApart.mem hfit).trans (hm3.trans hm2)⟩
  rw [State.LevelApart.power hfit, ← hs1.2, ← k2.ramps, ← k2.slew]
  exact State.takeSlew_slew s2 slew1

end

end Sys2Proof.Machine

section
open Sys2Proof.Machine Sys2Proof.Machine.Reg Sys2Proof.Claim

/-- Settles O16: the level's steps, the fit of the committed power, and the fields of PWR_LIMIT in order. -/
theorem inputAndLevel : Obligations.InputAndLevel := by
  intro s vin iin q rest hot i m v sat T
  refine ⟨fun hoff => ?_, fun hoff hu => ?_, fun hw hr hl => execEnvWaitExpiry_spec hw hr hl, fun h => execUpHoldExpiry_spec h,
    fun h => execBusStall_spec h, ⟨_, rfl, rfl⟩, fun hi => ?_, fun hright hreach hu => ?_⟩
  · exact congrArg Host.Outcome.next (if_pos hoff)
  · obtain ⟨t, hexec, hvin, h1, h2, h3, hfits⟩ := execVinSample_spec vin iin hoff hu
    have henv : t.envelope = min (envelopeD vin) t.capInEffect := by rw [State.envelope, hvin]
    refine ⟨t, hexec, hvin, h1, h2, h3, hfits, fun h => ?_, fun h h' => ?_, fun h h' => ?_⟩
    · rw [henv, envelopeD, if_pos h]
    · rw [henv, envelopeD, if_neg (by omega), if_pos h, Nat.mul_assoc]
    · rw [henv, envelopeD, if_neg (by omega), if_neg (by omega), if_pos h]
  · have hexec : exec i s = .next (s.throttle hot) := by
      rcases List.mem_pair.mp hi with rfl | rfl <;> rfl
    exact ⟨_, hexec, s.throttle_spec hot⟩
  · have hexec : exec (.pwrLimitWrite (whole m v)) s =
        .next (((s.mxcGrant m PWR_LIMIT).auditWrite (whole m v) PWR_LIMIT).limitWrite (whole m v)) := by
      refine congrArg Host.Outcome.next ?_
      rw [show s.fwOrInstaller (whole m v).m = true from hright, State.regRow_of_reaches hreach]
    have hkept : s.RampsKept ((s.mxcGrant m PWR_LIMIT).auditWrite (whole m v) PWR_LIMIT) :=
      (State.RampsKept.mxcGrant s m PWR_LIMIT).trans (State.RampsKept.auditWrite _ _ _)
    have hmem : ((s.mxcGrant m PWR_LIMIT).auditWrite (whole m v) PWR_LIMIT).mem = s.mem := by rw [State.auditWrite_mem, State.mxcGrant_mem]
    generalize (s.mxcGrant m PWR_LIMIT).auditWrite (whole m v) PWR_LIMIT = u at hexec hkept hmem
    have hx : limitOf u v.toNat = limitOf s v.toNat := by
      rw [limitOf, limitOf, hkept.rd rfl, hkept.rd rfl, hkept.rd rfl]
    obtain ⟨h1, h2, h3, h4, h5⟩ := State.limitWrite_spec (m := m) (v := v) (hkept.chains hu.1) (hkept.waiting.trans hu.2)
    rw [hx] at h1 h2 h3 h4
    rw [hkept.ramps, hkept.slew] at h4
    exact ⟨_, hexec, h1, h2, h3, h4, h5.trans hmem⟩

end
end
section
/-! PROOF. The Gloley port's service (R634 to R642): which requests it answers without performing them, and what hardware serves. -/
namespace Sys2Proof.Machine
open Reg

/-- The request commands of the port for one frame (R636). -/
def IsGlRequest (f : Frame) (i : Instr) : Prop :=
  i ∈ [Instr.gloleyStatus f, .telemetry f, .gloleyLogRead f, .gloleyFaultAck f, .gloleyPowerCap f, .gloleyRoleAuth f,
    .gloleyReset f, .gloleyPowerState f, .mailbox f, .fwRecoveryOpen f, .fwRecoveryWrite f, .fwRecoveryCheck f, .fwRecoveryCommit f]

/-- A frame that every request code answers alike, with no effect on an update's stage, is answered so. -/
theorem exec_glRequest {f : Frame} {i : Instr} (hi : IsGlRequest f i) {s u : State} (h : ∀ op hw mine g, s.glRequest f op hw mine g = u)
    (hu : u.rd LCS_UPDATE_STAGE = s.rd LCS_UPDATE_STAGE) : exec i s = .next u := by
  have hrecover : ∀ stage ok act, s.recover f stage ok act = u := fun stage ok act => h _ _ _ _
  simp only [IsGlRequest, List.mem_cons, List.not_mem_nil, or_false] at hi
  have hnext : ∀ {a : State}, a = u → Host.Outcome.next a = (Host.Outcome.next u : Host.Outcome State Fault Refusal) := fun h => congrArg _ h
  rcases hi with rfl | rfl | rfl | rfl | rfl | rfl | rfl | rfl | rfl | rfl | rfl | rfl | rfl
  · exact hnext (h ..)
  · exact hnext (h ..)
  · exact hnext (h ..)
  · exact hnext (h ..)
  · exact hnext (h ..)
  · exact hnext (h ..)
  · exact hnext (h ..)
  · exact hnext (h ..)
  · exact hnext (h ..)
  · exact hnext (hrecover ..)
  · exact hnext (hrecover ..)
  · exact hnext (hrecover ..)
  · have hcommit : ¬ (s.rd LCS_UPDATE_STAGE = 3 ∧ u.rd LCS_UPDATE_STAGE = 4) := fun hc => by omega
    change execFwRecoveryCommit f s = _
    rw [execFwRecoveryCommit, hrecover]
    exact hnext (if_neg hcommit)

theorem State.rd_glReady (s : State) (q : GlReq) (kind status reply : Nat) (data : List Byte) (f : RF) :
    (s.glReady q kind status reply data).rd f = s.rd f := State.rd_congr (by rfl) f

section
variable {s : State} {x : Frame} (op : Nat) (hw mine : GlReq → Bool) (g : State → GlReq → State × Nat × Nat × List Byte)

theorem State.glRequest_silent (h : s.power.off = true ∨ s.now < s.gloley.readyAt) : s.glRequest x op hw mine g = s := by
  refine if_pos ?_
  rcases h with h | h
  · simp [State.glAnswers, h]
  · simp [h]

variable (hoff : s.power.off = false) (hfree : s.gloley.readyAt ≤ s.now)
include hoff hfree

theorem State.glHears : ¬ (!s.glAnswers || decide (s.now < s.gloley.readyAt)) = true := by
  simp [State.glAnswers, hoff, hfree]

theorem State.glRequest_bad (h : frameBad x.bytes = true) :
    s.glRequest x op hw mine g = s.glReady (frameReq x.bytes) kindFrameErr 0 0 [] :=
  (if_neg (State.glHears hoff hfree)).trans (if_pos h)

theorem State.glRequest_unlisted (h : frameBad x.bytes = false) (hl : glListed (frameReq x.bytes).op = false) :
    s.glRequest x op hw mine g = s.glReady (frameReq x.bytes) kindDone ST_BAD_OPCODE 0 [] :=
  ((if_neg (State.glHears hoff hfree)).trans (if_neg (by simp [h]))).trans (if_pos (by simp [hl]))

/-- A request that the module's state does not let it serve is answered with what R637 says. -/
theorem State.glRequest_gated (h : frameBad x.bytes = false) (hop : (frameReq x.bytes).op = op) (hl : glListed op = true)
    (hmine : mine (frameReq x.bytes) = true) {k st : Nat} (hg : s.glGate op (hw (frameReq x.bytes)) = some (k, st)) :
    s.glRequest x op hw mine g = s.glReady (frameReq x.bytes) k st 0 [] := by
  subst hop
  have hno : ¬ ((frameReq x.bytes).op ≠ (frameReq x.bytes).op || !mine (frameReq x.bytes)) = true := by simp [hmine]
  refine (((if_neg (State.glHears hoff hfree)).trans (if_neg (by simp [h]))).trans (if_neg (by simp [hl]))).trans ((if_neg hno).trans ?_)
  rw [hg]

end

/-- The pending response is a frame of 18 bytes (R634). -/
theorem State.glFrame_pending (s : State) (op tag : Nat) : ((s.glFrame op tag kindPending 0 0 []).2.length = 18
    ∧ frameField (s.glFrame op tag kindPending 0 0 []).2 2 1 = 0x83 ∧ frameField (s.glFrame op tag kindPending 0 0 []).2 4 2 = 0)
    ∧ ∃ n, (s.glFrame op tag kindPending 0 0 []).1 = { s with free := n } := by
  refine ⟨⟨?_, ?_, ?_⟩, _, rfl⟩
  · simp [State.glFrame]
  · simp [State.glFrame, frameField, leBytes, leNat, kindPending]
  · simp [State.glFrame, frameField, leBytes, leNat]

/-- While a request is being performed a read is answered PENDING (R634). -/
theorem execGloleyResponseRead_pending {s : State} (hoff : s.power.off = false) (h : s.now < s.gloley.readyAt) :
    ∃ n bs, execGloleyResponseRead s = .next (({ s with free := n } : State).emit (.gloley bs)) ∧ bs.length = 18 ∧ frameField bs 2 1 = 0x83
      ∧ frameField bs 4 2 = 0 := by
  obtain ⟨⟨h1, h2, h3⟩, n, hn⟩ := s.glFrame_pending (frameField s.gloley.response 1 1) (frameField s.gloley.response 3 1)
  refine ⟨n, _, ?_, h1, h2, h3⟩
  rw [← hn, execGloleyResponseRead]
  have ha : ¬ (!s.glAnswers) = true := by simp [State.glAnswers, hoff]
  have hr : (decide (s.gloley.response = []) || decide (s.now < s.gloley.readyAt)) = true := by simp [h]
  exact congrArg Host.Outcome.next ((if_neg ha).trans (if_pos hr))

/-- R634, R635, R637. -/
theorem gloleyAvailability : Claim.GloleyAvailability := by
  intro s bs tag arg data i op bad requests
  have hanswer : ∀ (q : GlReq) (k st r : Nat) (d : List Byte), Claim.OnlyResponse s (s.glReady q k st r d)
      ∧ Claim.Responds (s.glReady q k st r d) q.op q.tag k st r d := fun q k st r d => ⟨s.glReady_only .., s.glReady_responds ..⟩
  refine ⟨fun hoff hfree hbad hi => ?_, fun hoff hfree hfits hop hun hi => ?_, fun hs hfits hload hready hstate => ?_,
    fun hoff hrip hfree hfits hi => ?_, fun hoff hbusy => ⟨fun hi => ?_, ?_⟩, fun hoff hi => ?_⟩
  · have hb : frameBad (⟨bs⟩ : Frame).bytes = true := by
      simp only [frameBad, Bool.or_eq_true, decide_eq_true_eq, bne_iff_ne]
      simpa only [bad, or_assoc] using hbad
    exact ⟨_, exec_glRequest hi (fun op hw mine g => State.glRequest_bad op hw mine g hoff hfree hb) (State.rd_glReady ..), hanswer ..⟩
  · have hreq := frameReq_frameOf hop hfits
    have hl : glListed (frameReq (Claim.frameOf op tag 0 arg data).bytes).op = false := by
      rw [hreq, glListed, ← Bool.decide_and, decide_eq_false_iff_not]
      show ¬ (1 ≤ op ∧ op ≤ 10)
      omega
    have hexec := exec_glRequest hi (fun op hw mine g => State.glRequest_unlisted op hw mine g hoff hfree (frameBad_frameOf hop hfits) hl)
      (State.rd_glReady ..)
    rw [hreq] at hexec
    exact ⟨_, hexec, hanswer ..⟩
  · refine ⟨_, rfl, fun h6 => ?_⟩
    obtain ⟨hoff, hrip, hlcs, hfree⟩ := hs
    have hreq := frameReq_frameOf (op := 6) (by decide) hfits
    have hgate : s.glGate 6 false = some (if s.rd LCS_BOOT_PHASE = 7 then 2 else 1, 0) := by
      have h4 : s.lcs ≠ 4 := Nat.ne_of_lt hlcs
      have hrip' : ¬ s.power.ripcord = true := by simp [hrip]
      have hno : ¬ (s.isReady || s.rd PWR_STATE_STATE == 2 || ((6 : Nat) == 6 && s.holdBoot)) = true := by
        simp [State.isReady, State.on, hready, hstate, State.holdBoot, hload]
      rw [State.glGate, if_neg hrip', if_neg h4, if_neg (by decide)]
      by_cases h7 : s.rd LCS_BOOT_PHASE = 7
      · rw [if_pos h7, if_pos h7]
      · rw [if_neg h7, if_neg h6, if_neg hno, if_neg h7]
    rw [State.glRequest_gated 6 (fun _ => false) (fun _ => true) _ hoff hfree (frameBad_frameOf (by decide) hfits)
      (by rw [hreq]) (by decide) rfl hgate, hreq]
    exact hanswer ..
  · have hgate : ∀ op, op = 4 ∨ op = 5 ∨ op = 7 ∨ op = 8 ∨ op = 9 → s.glGate op true = some (kindDone, ST_NOT_READY) := by
      intro op hop
      rw [State.glGate, if_pos hrip, if_neg (by omega)]
    have hserve : ∀ op g, op = 4 ∨ op = 5 ∨ op = 7 ∨ op = 8 ∨ op = 9 →
        Claim.OnlyResponse s (s.glRequest (Claim.frameOf op tag 0 arg data) op (fun _ => true) (fun _ => true) g)
        ∧ Claim.Responds (s.glRequest (Claim.frameOf op tag 0 arg data) op (fun _ => true) (fun _ => true) g) op tag 0 0x12 0 [] := by
      intro op g hop
      have hlt : op < 256 := by omega
      have hreq := frameReq_frameOf hlt hfits
      have hl : glListed op = true := by
        rw [glListed, ← Bool.decide_and, decide_eq_true_eq]
        omega
      rw [State.glRequest_gated op (fun _ => true) (fun _ => true) g hoff hfree (frameBad_frameOf hlt hfits) (by rw [hreq]) hl rfl (hgate op hop), hreq]
      exact hanswer ..
    simp only [List.mem_cons, List.not_mem_nil, or_false, Prod.mk.injEq] at hi
    rcases hi with ⟨rfl, rfl⟩ | ⟨rfl, rfl⟩ | ⟨rfl, rfl⟩ | ⟨rfl, rfl⟩ | ⟨rfl, rfl⟩
    · exact ⟨_, rfl, hserve 4 _ (by decide)⟩
    · exact ⟨_, rfl, hserve 5 _ (by decide)⟩
    · exact ⟨_, rfl, hserve 7 _ (by decide)⟩
    · exact ⟨_, rfl, hserve 8 _ (by decide)⟩
    · exact ⟨_, rfl, hserve 9 _ (by decide)⟩
  · exact exec_glRequest hi (fun op hw mine g => State.glRequest_silent op hw mine g (Or.inr hbusy)) rfl
  · obtain ⟨n, x, hexec, h1, h2, h3⟩ := execGloleyResponseRead_pending hoff hbusy
    refine ⟨_, hexec, rfl, rfl, rfl, by simp [State.emit], ?_⟩
    simp [State.emit, h1, h2, h3]
  · exact exec_glRequest hi (fun op hw mine g => State.glRequest_silent op hw mine g (Or.inl hoff)) rfl

/-! What hardware serves (R636, R639). -/

/-- A request that hardware serves, on a port that serves it. -/
theorem State.glRequest_hw {s : State} {x : Frame} {op : Nat} {hw : GlReq → Bool} {f : State → GlReq → State × Nat × Nat × List Byte}
    (hop : (frameReq x.bytes).op = op) (hl : glListed op = true) (hhw : hw (frameReq x.bytes) = true) : s.glRequest x op hw (fun _ => true) f = s.glRequest x op (fun _ => true) (fun _ => true) f := by
  simp only [State.glRequest, hop, hl, hhw, Bool.not_true, Bool.or_false]

/-- A request of code `op` whose fields fit is served. -/
theorem State.glRequest_frame {s : State} {op tag arg : Nat} {data : List Byte} {f : State → GlReq → State × Nat × Nat × List Byte}
    (hs : Claim.ServesHw s) (hop : op < 256) (hl : glListed op = true) (hfits : Claim.Fits tag 0 arg data) :
    s.glRequest (Claim.frameOf op tag 0 arg data) op (fun _ => true) (fun _ => true) f =
      (f s ⟨op, tag, 0, arg, data⟩).1.glReady ⟨op, tag, 0, arg, data⟩ kindDone (f s ⟨op, tag, 0, arg, data⟩).2.1 (f s ⟨op, tag, 0, arg, data⟩).2.2.1
        (f s ⟨op, tag, 0, arg, data⟩).2.2.2 := by
  have hreq := frameReq_frameOf hop hfits
  rw [State.glRequest_served hs (frameBad_frameOf hop hfits) (by rw [hreq]) hl, hreq]

/-- A part of the payload of a response. -/
theorem State.glReady_payload (s : State) (q : GlReq) (kind status reply : Nat) (data : List Byte) {k n : Nat} (h : k + n ≤ data.length) :
    ((s.glReady q kind status reply data).gloley.response.drop (16 + k)).take n = (data.drop k).take n := by
  obtain ⟨-, -, -, hdrop, -⟩ := s.glReady_responds q kind status reply data
  rw [← List.drop_drop, hdrop, List.drop_append_of_le_length (by omega), List.take_append_of_le_length (by simp; omega)]

/-- The image of a register behind those read already. -/
def State.imageStep (a : State × List Byte) (o : Nat) : State × List Byte := ((a.1.live o).2, a.2 ++ leBytes 8 (a.1.live o).1.toNat)

theorem State.images_append (s : State) (os : List Nat) (bs : List Byte) :
    os.foldl State.imageStep (s, bs) = ((s.images os).1, bs ++ (s.images os).2) := by
  induction os generalizing s bs with
  | nil => exact (by rw [List.append_nil] : ((s, bs) : State × List Byte) = (s, bs ++ []))
  | cons o os ih =>
    have himages : s.images (o :: os) = os.foldl State.imageStep (State.imageStep (s, []) o) := rfl
    rw [List.foldl_cons, himages, State.imageStep, State.imageStep, ih, ih, List.nil_append, List.append_assoc]

theorem State.images_cons (s : State) (o : Nat) (os : List Nat) :
    s.images (o :: os) = (((s.live o).2.images os).1, leBytes 8 (s.live o).1.toNat ++ ((s.live o).2.images os).2) := by
  have hfold : s.images (o :: os) = os.foldl State.imageStep ((s.live o).2, [] ++ leBytes 8 (s.live o).1.toNat) := rfl
  rw [hfold, State.images_append, List.nil_append]

theorem State.images_nil (s : State) : s.images [] = (s, []) := rfl

/-- Registers that a read finds as they stand. -/
theorem State.live_reg (s : State) {o : Nat}
    (h : o ∈ [TIME_NOW, TIME_EPOCH, FLT_STAT, PWR_INPUT, PWR_STATE, PWR_DOMAIN_LO, PWR_DOMAIN_HI, CLK_STAT]) : s.live o = (s.reg o, s) := by
  simp only [List.mem_cons, List.not_mem_nil, or_false] at h
  rcases h with rfl | rfl | rfl | rfl | rfl | rfl | rfl | rfl <;> rfl

theorem State.live_boot (s : State) : s.live LCS_BOOT = (BitVec.ofNat 64 s.bootWord.1, s.bootWord.2) := rfl
theorem State.live_env (s : State) : s.live PWR_ENV = (BitVec.ofNat 64 s.envWord.1, s.envWord.2) := rfl
theorem State.live_cap (s : State) : s.live PWR_CAP = (withField (s.reg PWR_CAP) PWR_CAP_IN_EFFECT s.capInEffect, s) := rfl

/-- Only the free values that it used changed. -/
def State.SameBut (s t : State) : Prop := ∃ n, t = { s with free := n }

theorem State.bootWord_free (s : State) : s.SameBut s.bootWord.2 := ⟨_, rfl⟩

theorem State.envWord_free (s : State) : s.SameBut s.envWord.2 := by
  simp only [State.envWord, State.watts]
  split
  · exact ⟨s.free, rfl⟩
  · exact ⟨_, rfl⟩

/-- READY as an image of LCS_BOOT shows it. -/
theorem State.bootWord_ready (s : State) : leNat (leBytes 8 (BitVec.ofNat 64 s.bootWord.1).toNat) / 2 ^ 63 = s.rd LCS_BOOT_READY := by
  have hkept : ∀ w v v', fieldOf (withField (withField w LCS_BOOT_PHASE v) LCS_BOOT_PROGRESS v') 63 63 = fieldOf w 63 63 := fun w v v' =>
    (fieldOf_setField_above _ 55 48 v' 63 63 (by decide) (by decide) (by decide)).trans
      (fieldOf_setField_above w 43 40 v 63 63 (by decide) (by decide) (by decide))
  have htop : ∀ w : Word, w.toNat % 256 ^ 8 / 2 ^ 63 = fieldOf w 63 63 := by
    intro w
    have h := w.isLt
    simp only [fieldOf, bitsOf]
    omega
  have himage : leNat (leBytes 8 (BitVec.ofNat 64 s.bootWord.1).toNat) = s.bootWord.1 % 256 ^ 8 := by
    rw [leNat_leBytes, BitVec.toNat_ofNat]
    omega
  rw [himage]
  exact (htop _).trans (hkept (s.reg LCS_BOOT) _ _)

/-- The envelope and the level as an image of PWR_ENV shows them. -/
theorem State.envWord_fields (s : State) : leNat (leBytes 8 (BitVec.ofNat 64 s.envWord.1).toNat) / 2 ^ 48 = s.envelope % 2 ^ 16
    ∧ leNat (leBytes 8 (BitVec.ofNat 64 s.envWord.1).toNat) % 4 = s.level := by
  have hfields : ∀ e c h n l : Nat, l < 4 →
      (e * 2 ^ 48 + c % 65536 * 2 ^ 32 + h % 256 * 2 ^ 24 + min 255 n * 2 ^ 16 + l) % 256 ^ 8 / 2 ^ 48 = e % 2 ^ 16
      ∧ (e * 2 ^ 48 + c % 65536 * 2 ^ 32 + h % 256 * 2 ^ 24 + min 255 n * 2 ^ 16 + l) % 256 ^ 8 % 4 = l := by
    intro e c h n l hl
    omega
  have hlevel := s.level_lt
  obtain ⟨n, hn⟩ := s.envWord_free
  have henv : s.envWord.1 = s.envWord.2.envelope * 2 ^ 48 + (s.watts s.committed).1 % 65536 * 2 ^ 32 + s.envWord.2.power.hot % 256 * 2 ^ 24
      + min 255 s.envWord.2.power.waiting.length * 2 ^ 16 + s.envWord.2.level := rfl
  have he : s.envWord.2.envelope = s.envelope := by rw [hn]; rfl
  have hl : s.envWord.2.level = s.level := by rw [hn]; rfl
  have himage : leNat (leBytes 8 (BitVec.ofNat 64 s.envWord.1).toNat) = s.envWord.1 % 256 ^ 8 := by
    rw [leNat_leBytes, BitVec.toNat_ofNat]
    omega
  rw [himage, henv, he, hl]
  exact hfields _ _ _ _ _ hlevel

/-- The caps as an image of PWR_CAP shows them. -/
theorem capImage_low (w : Word) (v : Nat) :
    leNat (leBytes 8 (withField w PWR_CAP_IN_EFFECT v).toNat) % 2 ^ 32 = w.toNat % 2 ^ 32 := by
  rw [leNat_leBytes]
  have h := fieldOf_setField_below w 47 32 v 31 0 (by decide) (by decide) (by decide)
  simp only [fieldOf, bitsOf, pow_zero, Nat.div_one] at h
  have h' : (withField w PWR_CAP_IN_EFFECT v).toNat % 2 ^ 32 = w.toNat % 2 ^ 32 := h
  omega

/-- A response of images alone: its payload in three parts. -/
theorem State.glReady_parts (s : State) (q : GlReq) (kind status reply : Nat) (a b c : List Byte) :
    Claim.Responds (s.glReady q kind status reply (a ++ b ++ c)) q.op q.tag kind status reply
        (((s.glReady q kind status reply (a ++ b ++ c)).gloley.response.drop (16 + 0)).take (a ++ b ++ c).length)
      ∧ ((s.glReady q kind status reply (a ++ b ++ c)).gloley.response.drop (16 + 0)).take a.length = a
      ∧ ((s.glReady q kind status reply (a ++ b ++ c)).gloley.response.drop (16 + a.length)).take b.length = b
      ∧ ((s.glReady q kind status reply (a ++ b ++ c)).gloley.response.drop (16 + (a.length + b.length))).take c.length = c := by
  have hlen : (a ++ b ++ c).length = a.length + b.length + c.length := by rw [List.length_append, List.length_append]
  rw [State.glReady_payload _ _ _ _ _ _ (by omega), State.glReady_payload _ _ _ _ _ _ (by omega), State.glReady_payload _ _ _ _ _ _ (by omega),
    State.glReady_payload _ _ _ _ _ _ (by omega)]
  refine ⟨?_, ?_, ?_, ?_⟩
  · rw [List.drop_zero, List.take_length]
    exact s.glReady_responds ..
  · rw [List.drop_zero, List.append_assoc, List.take_left]
  · rw [List.append_assoc, List.drop_left, List.take_left]
  · rw [← List.length_append, List.drop_left, List.take_length]

/-- STATUS, served (R636, R642): the four images, and the alert causes, which are cleared. -/
theorem execGloleyStatus_served {s : State} {tag arg : Nat} (hs : Claim.ServesHw s) (hf : Claim.Fits tag 0 arg []) :
    ∃ n, execGloleyStatus (Claim.frameOf 1 tag 0 arg []) s =
      .next (({ s with free := n, gloley := { s.gloley with alerts := 0 } } : State).glReady ⟨1, tag, 0, arg, []⟩ kindDone ST_OK s.gloley.alerts
        (leBytes 8 (s.reg TIME_NOW).toNat ++ leBytes 8 (s.reg TIME_EPOCH).toNat ++ leBytes 8 (s.reg FLT_STAT).toNat
          ++ leBytes 8 (BitVec.ofNat 64 s.bootWord.1).toNat ++ [])) := by
  obtain ⟨n, hn⟩ := s.bootWord_free
  have himages : s.images [TIME_NOW, TIME_EPOCH, FLT_STAT, LCS_BOOT] = ({ s with free := n }, leBytes 8 (s.reg TIME_NOW).toNat
      ++ leBytes 8 (s.reg TIME_EPOCH).toNat ++ leBytes 8 (s.reg FLT_STAT).toNat ++ leBytes 8 (BitVec.ofNat 64 s.bootWord.1).toNat) := by
    rw [State.images_cons, State.live_reg s (by decide), State.images_cons, State.live_reg s (by decide), State.images_cons,
      State.live_reg s (by decide), State.images_cons, State.live_boot, State.images_nil, ← hn]
    simp only [List.append_nil, List.append_assoc]
  refine ⟨n, ?_⟩
  rw [execGloleyStatus, State.glRequest_frame hs (by decide) (by decide) hf]
  simp only [himages, ne_eq, not_true_eq_false, if_false, List.append_nil]

/-- The bytes of TELEMETRY (R636). -/
def State.telemetryBytes (s : State) : List Byte :=
  leBytes 8 (s.reg PWR_INPUT).toNat ++ (leBytes 8 (BitVec.ofNat 64 s.envWord.1).toNat
      ++ leBytes 8 (withField (s.reg PWR_CAP) PWR_CAP_IN_EFFECT s.capInEffect).toNat)
    ++ (leBytes 8 (s.reg PWR_STATE).toNat ++ leBytes 8 (s.reg PWR_DOMAIN_LO).toNat ++ leBytes 8 (s.reg PWR_DOMAIN_HI).toNat
      ++ leBytes 8 (s.reg CLK_STAT).toNat ++ leBytes 8 (s.reg FLT_STAT).toNat)

/-- The images, each at its place. -/
theorem State.telemetryBytes_parts (s : State) : s.telemetryBytes.length = 64 ∧ (s.telemetryBytes.drop 0).take 8 = leBytes 8 (s.reg PWR_INPUT).toNat
    ∧ (s.telemetryBytes.drop 8).take 8 = leBytes 8 (BitVec.ofNat 64 s.envWord.1).toNat
    ∧ (s.telemetryBytes.drop 16).take 8 = leBytes 8 (withField (s.reg PWR_CAP) PWR_CAP_IN_EFFECT s.capInEffect).toNat
    ∧ (s.telemetryBytes.drop 24).take 40 = leBytes 8 (s.reg PWR_STATE).toNat ++ leBytes 8 (s.reg PWR_DOMAIN_LO).toNat
      ++ leBytes 8 (s.reg PWR_DOMAIN_HI).toNat ++ leBytes 8 (s.reg CLK_STAT).toNat ++ leBytes 8 (s.reg FLT_STAT).toNat := by
  have hparts : ∀ a b c d : List Byte, a.length = 8 → b.length = 8 → c.length = 8 → d.length = 40 →
      (a ++ (b ++ c) ++ d).length = 64 ∧ ((a ++ (b ++ c) ++ d).drop 0).take 8 = a ∧ ((a ++ (b ++ c) ++ d).drop 8).take 8 = b
      ∧ ((a ++ (b ++ c) ++ d).drop 16).take 8 = c ∧ ((a ++ (b ++ c) ++ d).drop 24).take 40 = d := by
    intro a b c d ha hb hc hd
    simp [List.drop_append, List.take_of_length_le, List.drop_eq_nil_of_le, ha, hb, hc, hd]
  exact hparts _ _ _ _ (leBytes_length ..) (leBytes_length ..) (leBytes_length ..) (by simp only [List.length_append, leBytes_length])

theorem State.images_telemetry (s : State) : s.images [PWR_INPUT, PWR_ENV, PWR_CAP, PWR_STATE, PWR_DOMAIN_LO, PWR_DOMAIN_HI, CLK_STAT, FLT_STAT] =
    (s.envWord.2, s.telemetryBytes) := by
  obtain ⟨n, hn⟩ := s.envWord_free
  have hreg : ∀ o, s.envWord.2.reg o = s.reg o := fun o => State.reg_congr (by rw [hn]) o
  have hcap : s.envWord.2.capInEffect = s.capInEffect := by
    have hrd : ∀ f, s.envWord.2.rd f = s.rd f := fun f => State.rd_congr (by rw [hn]) f
    simp only [State.capInEffect_eq, hrd]
  rw [State.images_cons, State.live_reg s (by decide), State.images_cons, State.live_env, State.telemetryBytes, ← hcap, ← hreg PWR_CAP,
    ← hreg PWR_STATE, ← hreg PWR_DOMAIN_LO, ← hreg PWR_DOMAIN_HI, ← hreg CLK_STAT, ← hreg FLT_STAT]
  generalize s.envWord.2 = t
  rw [State.images_cons, State.live_cap, State.images_cons, State.live_reg t (by decide), State.images_cons, State.live_reg t (by decide),
    State.images_cons, State.live_reg t (by decide), State.images_cons, State.live_reg t (by decide), State.images_cons,
    State.live_reg t (by decide), State.images_nil]
  simp only [List.append_nil, List.append_assoc]

/-- TELEMETRY, served (R636): the eight images. -/
theorem execTelemetry_served {s : State} {tag arg : Nat} (hs : Claim.ServesHw s) (hf : Claim.Fits tag 0 arg []) :
    execTelemetry (Claim.frameOf 2 tag 0 arg []) s = .next (s.envWord.2.glReady ⟨2, tag, 0, arg, []⟩ kindDone ST_OK 0 s.telemetryBytes) := by
  have himages := s.images_telemetry
  generalize s.envWord.2 = t at himages ⊢
  generalize s.telemetryBytes = bs at himages ⊢
  rw [execTelemetry]
  have hdata : ¬ (⟨2, tag, 0, arg, []⟩ : GlReq).data ≠ [] := by simp
  rw [State.glRequest_frame hs (by decide) (by decide) hf, if_neg hdata, himages]

/-- The record of a LOG_READ that names the one record that the trouble log holds. -/
theorem State.logWords_held {s : State} {x : FltRec} (h : s.tlog = [x]) : s.logWords false x.seq 1 = x.words := by
  have hcnt : decide (cnt x.seq x.seq < 1) = true := by
    rw [decide_eq_true_eq, cnt]
    omega
  rw [State.logWords, h]
  simp only [List.filter_cons, hcnt, if_true, List.filter_nil, List.flatMap_cons, List.flatMap_nil, List.append_nil]
  rfl

/-- A LOG_READ of the one record that the trouble log holds, served (R598, R636). -/
theorem execGloleyLogRead_served {s : State} {tag : Nat} {x : FltRec} (hs : Claim.ServesHw s) (hf : Claim.Fits tag 0 x.seq []) (h : s.tlog = [x]) :
    execGloleyLogRead (Claim.frameOf 3 tag 0 x.seq [0, 1]) s = .next (s.glReady ⟨3, tag, 0, x.seq, [0, 1]⟩ kindDone ST_OK 1 x.bytes) := by
  obtain ⟨htag, hsess, harg, -⟩ := hf
  have hf : Claim.Fits tag 0 x.seq [0, 1] := ⟨htag, hsess, harg, by decide⟩
  have hreq := frameReq_frameOf (op := 3) (by decide) hf
  have hlog : leNat ([0, 1].take 1) = 0 := by decide
  have hcount : leNat ([0, 1].drop 1) = 1 := by decide
  have hhw : (leNat ((frameReq (Claim.frameOf 3 tag 0 x.seq [0, 1]).bytes).data.take 1) != 1) = true := by
    rw [hreq]
    exact (by decide : (leNat (([0, 1] : List Byte).take 1) != 1) = true)
  have hok : ¬ (([0, 1] : List Byte).length ≠ 2 ∨ 1 < 0 ∨ 1 = 0 ∨ (if True then 8 else 4) < 1) := by decide
  rw [execGloleyLogRead, State.glRequest_hw (by rw [hreq]) (by decide) hhw, State.glRequest_frame hs (by decide) (by decide) hf]
  simp only [hlog, hcount]
  have hw : s.logWords ((0 : Nat) == 1) x.seq 1 = x.words := State.logWords_held h
  have hlen : x.words.length / 4 = 1 := by
    simp [FltRec.words]
  rw [if_neg hok, hw, if_neg (by decide), if_pos trivial, hlen, FltRec.bytes]

/-! The words of a mailbox (R445, R446, R636). -/

theorem State.Noted.mbx {n : Nat} {s t : State} (h : s.Noted n t) : t.mbx = s.mbx := by rw [h.rest]

section
variable {s : State}

/-- A word sent to a side that is ready and has room waits in its queue, and the sender's own side stays. -/
theorem State.glSends_ready (hr : s.rd (MBX_STAT_READY 28 0) = 1) (hlen : (s.side 28 0).queue.length < 16) (v : Word) :
    ∃ t, s.glSends [v.toNat] = (t, false) ∧ (t.side 28 0).queue = (s.side 28 0).queue ++ [v] ∧ t.side 28 1 = s.side 28 1
      ∧ t.rd (MBX_STAT_READY 28 0) = 1 ∧ t.mem = s.mem := by
  have hroom : (!s.on (MBX_STAT_READY 28 0) || decide (16 ≤ (s.side 28 0).queue.length)) = false := by
    simp [State.on_of_one hr, hlen]
  have hsend : s.mbxSend 28 1 v = (s.setSide 28 0 { s.side 28 0 with queue := (s.side 28 0).queue ++ [v] }).mbxCheck 28 0 := by
    rw [State.mbxSend]
    exact if_neg (by rw [Bool.not_eq_true]; exact hroom)
  have hgl : s.glSends [v.toNat] = (s.mbxSend 28 1 v, false) := by
    rw [State.glSends, BitVec.ofNat_toNat, BitVec.setWidth_eq]
    exact if_neg (by rw [Bool.not_eq_true]; exact hroom)
  rw [hgl, hsend]
  refine ⟨_, rfl, ?_, ?_, (State.rd_mbxCheck _ _ _ (by decide)).trans hr, State.mbxCheck_mem ..⟩
  · rw [State.queue_mbxCheck, State.side_setSide_same]
  · rw [State.side_mbxCheck_other _ _ (by decide), State.side_setSide_other _ _ _ _ _ _ (by decide)]

/-- A word sent to a side that is not ready is dropped. -/
theorem State.glSends_dropped (hr : s.rd (MBX_STAT_READY 28 0) = 0) (ha : Claim.Alive s 588) (v : Word) :
    ∃ t, s.glSends [v.toNat] = (t, true) ∧ t.mbx = s.mbx ∧ t.rd (MBX_STAT_READY 28 0) = 0 ∧ t.mem = s.mem := by
  have hoff : s.on (MBX_STAT_READY 28 0) = false := by simp [State.on, hr]
  have hroom : (!s.on (MBX_STAT_READY 28 0) || decide (16 ≤ (s.side 28 0).queue.length)) = true := by simp [hoff]
  have hsend : s.mbxSend 28 1 v = s.mbxDrop 28 1 := if_pos hroom
  have hgl : s.glSends [v.toNat] = (s.mbxSend 28 1 v, true) := by
    rw [State.glSends, BitVec.ofNat_toNat, BitVec.setWidth_eq]
    exact if_pos hroom
  have halive : (s.wr (MBX_STAT_SEND_OVF 28 1) 1).eventClass 588 ≤ 2 := by
    refine State.eventClass_alive ?_
    rw [Claim.Alive, State.rd_wr_off _ _ _ _ (by decide)]
    exact ha
  have hnoted : (s.wr (MBX_STAT_SEND_OVF 28 1) 1).Noted 588 (s.mbxDrop 28 1) := by
    have hrec : s.mbxDrop 28 1 = ((s.wr (MBX_STAT_SEND_OVF 28 1) 1).recordWith { src := 588, inst := 1 } (fun _ => none)).1 :=
      State.record_unfenced _ _ (fun c => State.fenceOf_none (s.wr (MBX_STAT_SEND_OVF 28 1) 1) (n := 588) 1 c (by decide))
    rw [hrec]
    exact State.Noted.recordWith (e := { src := 588, inst := 1 }) _ (show 588 < 640 by decide) ((Nat.max_zero _).trans_le halive)
  rw [hgl, hsend]
  refine ⟨_, rfl, hnoted.mbx, ?_, State.mbxDrop_mem ..⟩
  have hlog : ¬ logReg 588 (MBX_STAT 28 0) := by
    simp only [logReg, MBX_STAT, FLT_STAT, FLT_SRC, FLT_SRC_CNT, TLOG_STAT]
    omega
  have hother : MBX_STAT 28 0 ≠ MBX_STAT 28 1 := by decide
  exact (hnoted.rd (f := MBX_STAT_READY 28 0) hlog (by decide)).trans ((State.rd_wr_off s _ _ _ hother).trans hr)

/-- The words taken from the port's own queue, all of them. -/
theorem State.glTakes_all (q : List Word) : ∀ s : State, (s.side 28 1).queue = q → (s.glTakes q.length).2 = q.flatMap (fun y => leBytes 8 y.toNat)
    ∧ ((s.glTakes q.length).1.side 28 1).queue = [] ∧ (s.glTakes q.length).1.side 28 0 = s.side 28 0
    ∧ (s.glTakes q.length).1.rd (MBX_STAT_READY 28 0) = s.rd (MBX_STAT_READY 28 0) ∧ (s.glTakes q.length).1.mem = s.mem := by
  induction q with
  | nil => exact fun s h => ⟨rfl, h, rfl, rfl, rfl⟩
  | cons v q ih =>
    intro s h
    obtain ⟨hword, hqueue, hother, -, hmem⟩ := State.mbxTake_word (m := 28) (d := 1) (by decide) (by decide) h
    have hready : (s.mbxTake 28 1).1.rd (MBX_STAT_READY 28 0) = s.rd (MBX_STAT_READY 28 0) := by
      have htake : (s.mbxTake 28 1).1 = (s.setSide 28 1 { s.side 28 1 with queue := q }).mbxCheck 28 1 := by simp only [State.mbxTake, h]
      rw [htake]
      exact State.rd_mbxCheck _ _ _ (by decide)
    obtain ⟨hbytes, hempty, hside, hrd, hmem'⟩ := ih _ hqueue
    have htakes : s.glTakes (v :: q).length = (((s.mbxTake 28 1).1.glTakes q.length).1,
        leBytes 8 (s.mbxTake 28 1).2.toNat ++ ((s.mbxTake 28 1).1.glTakes q.length).2) := rfl
    rw [htakes]
    exact ⟨by rw [hword, hbytes, List.flatMap_cons], hempty, hside.trans hother, hrd.trans hready, hmem'.trans hmem⟩

end

/-- MAILBOX that sends one word and reads the words that wait, served (R636). -/
theorem execMailbox_served {s u : State} {tag : Nat} {v : Word} {dropped : Bool} (hs : Claim.ServesHw s) (hf : Claim.Fits tag 0 0 [])
    (hsend : s.glSends [v.toNat] = (u, dropped)) (hq : (u.side 28 1).queue.length ≤ 16) :
    ∃ t : State, t.mem = u.mem ∧ t.side 28 0 = u.side 28 0 ∧ (t.side 28 1).queue = []
      ∧ execMailbox (Claim.frameOf 9 tag 0 0 (leBytes 8 v.toNat)) s = .next (t.glReady ⟨9, tag, 0, 0, leBytes 8 v.toNat⟩ kindDone
          (if dropped then ST_BUSY else ST_OK)
          ((if u.on (MBX_STAT_READY 28 0) then 16 - (u.side 28 0).queue.length else 0) * 2 ^ 8)
          ((u.side 28 1).queue.flatMap (fun y => leBytes 8 y.toNat))) := by
  obtain ⟨htag, hsess, harg, -⟩ := hf
  have hf : Claim.Fits tag 0 0 (leBytes 8 v.toNat) := ⟨htag, hsess, harg, by rw [leBytes_length]; decide⟩
  obtain ⟨hbytes, hempty, hside, hready, hmem⟩ := State.glTakes_all _ u rfl
  refine ⟨_, hmem, hside, hempty, ?_⟩
  have hwords : (List.range ((leBytes 8 v.toNat).length / 8)).map (fun k => leNat (((leBytes 8 v.toNat).drop (8 * k)).take 8)) = [v.toNat] := by
    rw [leBytes_length]
    have hword : leNat ((leBytes 8 v.toNat).take 8) = v.toNat := by
      rw [List.take_of_length_le (by rw [leBytes_length]), leNat_leBytes]
      exact Nat.mod_eq_of_lt v.isLt
    exact congrArg (fun x => [x]) hword
  have hok : ¬ (128 < (leBytes 8 v.toNat).length ∨ (leBytes 8 v.toNat).length % 8 ≠ 0) := by
    rw [leBytes_length]
    decide
  have hmin : min 16 (u.side 28 1).queue.length = (u.side 28 1).queue.length := Nat.min_eq_right hq
  rw [execMailbox, State.glRequest_frame hs (by decide) (by decide) hf, if_neg hok, hwords]
  have hbit : bitOf 0 31 = false := by decide
  have hbell : 0 % 2 ^ 31 = 0 := by decide
  simp only [hbit, hbell, if_true, Bool.false_eq_true, if_false, hsend, hmin]
  have hon : (u.glTakes (u.side 28 1).queue.length).1.on (MBX_STAT_READY 28 0) = u.on (MBX_STAT_READY 28 0) := by rw [State.on, State.on, hready]
  rw [hempty, hside, hbytes, hon, List.length_nil, Nat.zero_add]

/-! What the module does for the port's requests (R545, R636, R639). -/

theorem State.fit_fits {s : State} (hc : s.chains = []) (hw : s.power.waiting = []) :
    s.fit.committed ≤ (s.fit.envelope : Rat) ∨ s.fit.level = 3 := by
  rw [State.fit_eq hc hw]
  exact State.fitLevel_fits s 3 (Nat.le_add_left _ _)

/-- The powers and the caps do not turn on the port. -/
theorem State.power_gloley (s : State) (n : Nat) (g : GloleyState) : ({ s with free := n, gloley := g } : State).committed = s.committed
    ∧ ({ s with free := n, gloley := g } : State).envelope = s.envelope ∧ ({ s with free := n, gloley := g } : State).level = s.level
    ∧ ({ s with free := n, gloley := g } : State).capInEffect = s.capInEffect := ⟨rfl, rfl, rfl, rfl⟩

/-- POWER_CAP in its range, served: the cap is set, and the module fits the envelope or is at level 3 (R545). -/
theorem execGloleyPowerCap_fits {s : State} {tag cap : Nat} (hs : Claim.ServesHw s) (ht : tag < 256) (hu : Claim.Unloaded s)
    (hin : cap = 0 ∨ (s.rd PWR_LIMIT_CAP_MIN ≤ cap ∧ cap ≤ s.rd PWR_LIMIT_MAX_W)) :
    ∃ t : State, t.rd PWR_CAP_BOARD = cap ∧ (t.committed ≤ (t.envelope : Rat) ∨ t.level = 3) ∧ t.mem = s.mem
      ∧ execGloleyPowerCap (Claim.frameOf 5 tag 0 cap []) s = .next (t.glReady ⟨5, tag, 0, cap, []⟩ kindDone ST_OK t.capInEffect []) := by
  have hc : cap < 2 ^ 16 := by
    have hmax := s.rd_lt PWR_LIMIT_MAX_W
    have hwidth : PWR_LIMIT_MAX_W.hi + 1 - PWR_LIMIT_MAX_W.lo = 16 := by decide
    rw [hwidth] at hmax
    omega
  have hexec := execGloleyPowerCap_served hs ht hc
  obtain ⟨t, hset, hcap⟩ := State.setCap_set (f := PWR_CAP_BOARD) (g := PWR_CAP_OPERATOR) hu hin
    ⟨rfl, by decide, by decide, hc⟩ ⟨rfl, by decide, .inl (by decide)⟩
  rw [hset] at hexec
  refine ⟨t, hcap.own, ?_, hcap.mem, hexec⟩
  have ht : t = s.holdFrom ((s.wr PWR_CAP_BOARD cap).wr PWR_CAP_IN_EFFECT (s.wr PWR_CAP_BOARD cap).capInEffect).fit := by
    rw [State.setCap, if_pos hin] at hset
    exact (congrArg Prod.fst hset).symm
  rw [ht]
  refine State.holdFrom_fits ?_
  exact State.fit_fits hu.1 hu.2

/-- POWER_CAP out of its range is answered so, and nothing else happens (R545). -/
theorem execGloleyPowerCap_refused {s : State} {tag cap : Nat} (hs : Claim.ServesHw s) (hf : Claim.Fits tag 0 cap []) (h0 : cap ≠ 0)
    (hout : cap < s.rd PWR_LIMIT_CAP_MIN ∨ s.rd PWR_LIMIT_MAX_W < cap) :
    execGloleyPowerCap (Claim.frameOf 5 tag 0 cap []) s =
      .next (s.glReady ⟨5, tag, 0, cap, []⟩ kindDone ST_BAD_PARAM (if cap < 65536 then s.capInEffect else 0) []) := by
  by_cases hc : cap < 65536
  · have hexec := execGloleyPowerCap_served hs hf.1 hc
    rw [State.setCap_refused (by omega)] at hexec
    rw [hexec, if_pos hc]
  · rw [execGloleyPowerCap, State.glRequest_frame hs (by decide) (by decide) hf, if_pos (Or.inr (Nat.le_of_not_lt hc)), if_neg hc]
    rfl

/-- R636, R639, R642. -/
theorem gloleyRequests : Claim.GloleyRequests := by
  intro s tag arg src t0 x v hs hf payload q
  have hanswer : ∀ (u : State) (q : GlReq) (k st r : Nat) (d : List Byte), Claim.Responds (u.glReady q k st r d) q.op q.tag k st r d :=
    fun u q k st r d => u.glReady_responds ..
  refine ⟨?_, ?_, fun hlog hseq => ?_, fun htimer hsrc hle hlt => ⟨fun hp => ?_, fun hp => ?_⟩, fun hu hin => ?_, fun h0 hout => ?_,
    fun h0 hr hroom hq => ?_, fun h0 hr hq ha => ?_⟩
  · obtain ⟨n, hexec⟩ := execGloleyStatus_served hs hf
    obtain ⟨hall, hfirst, hlast, -⟩ := State.glReady_parts ({ s with free := n, gloley := { s.gloley with alerts := 0 } } : State) ⟨1, tag, 0, arg, []⟩
      kindDone ST_OK s.gloley.alerts (leBytes 8 (s.reg TIME_NOW).toNat ++ leBytes 8 (s.reg TIME_EPOCH).toNat ++ leBytes 8 (s.reg FLT_STAT).toNat)
      (leBytes 8 (BitVec.ofNat 64 s.bootWord.1).toNat) []
    simp only [List.length_append, leBytes_length, List.length_nil] at hall hfirst hlast
    exact ⟨_, hexec, rfl, hall, hfirst, (congrArg (fun b => leNat b / 2 ^ 63) hlast).trans s.bootWord_ready, rfl, rfl⟩
  · have hexec := execTelemetry_served hs hf
    obtain ⟨n, hn⟩ := s.envWord_free
    obtain ⟨hlen, hinput, henv, hcap, hrest⟩ := s.telemetryBytes_parts
    have hpay : ∀ k n, k + n ≤ 64 → payload (s.envWord.2.glReady ⟨2, tag, 0, arg, []⟩ kindDone ST_OK 0 s.telemetryBytes) k n
        = (s.telemetryBytes.drop k).take n := fun k n h => State.glReady_payload _ _ _ _ _ _ (h.trans_eq hlen.symm)
    have hans := hanswer s.envWord.2 ⟨2, tag, 0, arg, []⟩ kindDone ST_OK 0 s.telemetryBytes
    have honly := s.envWord.2.glReady_only ⟨2, tag, 0, arg, []⟩ kindDone ST_OK 0 s.telemetryBytes
    generalize s.envWord.2.glReady ⟨2, tag, 0, arg, []⟩ kindDone ST_OK 0 s.telemetryBytes = t at hexec hpay hans honly
    have hall : payload t 0 64 = s.telemetryBytes := by
      rw [hpay 0 64 (by decide), List.drop_zero, List.take_of_length_le (by rw [hlen])]
    refine ⟨t, hexec, by rw [hall]; exact hans, (hpay 0 8 (by decide)).trans hinput, ?_, ?_, ?_, (hpay 24 40 (by decide)).trans hrest, ?_, ?_⟩
    · rw [hpay 8 8 (by decide), henv]
      exact s.envWord_fields.1
    · rw [hpay 8 8 (by decide), henv]
      exact s.envWord_fields.2
    · rw [hpay 16 8 (by decide), hcap]
      exact capImage_low ..
    · rw [honly, hn]
    · rw [honly, hn]
  · subst hseq
    exact ⟨_, execGloleyLogRead_served hs hf hlog, hanswer .., rfl, rfl⟩
  · have hexec := execGloleyFaultAck_served (src := src) hs hf (by omega)
    rw [State.acknowledge_pending htimer hsrc (by omega) (seqEarlier_of_range hle hlt), if_neg (by simp [hp])] at hexec
    exact ⟨_, hexec, s.rd_setPending 0 hsrc, tabFind_tabDel_same .., hanswer .., rfl⟩
  · have hexec := execGloleyFaultAck_served (src := src) hs hf (by omega)
    rw [State.acknowledge_pending htimer hsrc (by omega) (seqEarlier_of_range hle hlt), if_pos (by simp [hp])] at hexec
    exact ⟨_, hexec, s.glReady_only .., hanswer ..⟩
  · obtain ⟨t, hcap, hfits, hmem, hexec⟩ := execGloleyPowerCap_fits hs hf.1 hu hin
    have hans := hanswer t ⟨5, tag, 0, arg, []⟩ kindDone ST_OK t.capInEffect []
    have hboard := (State.rd_glReady t ⟨5, tag, 0, arg, []⟩ kindDone ST_OK t.capInEffect [] PWR_CAP_BOARD).trans hcap
    have honly := t.glReady_only ⟨5, tag, 0, arg, []⟩ kindDone ST_OK t.capInEffect []
    generalize t.glReady ⟨5, tag, 0, arg, []⟩ kindDone ST_OK t.capInEffect [] = w at hexec hans hboard honly
    refine ⟨w, hexec, hboard, ?_⟩
    obtain ⟨hcom, henv, hlev, hleast⟩ := t.power_gloley w.free
      { t.gloley with response := w.gloley.response, readOnce := w.gloley.readOnce, owed := false, lost := false }
    rw [← honly] at hcom henv hlev hleast
    refine ⟨by rw [hleast]; exact hans, by rw [hcom, henv, hlev]; exact hfits, ?_⟩
    rw [honly]
    exact hmem
  · have hexec := execGloleyPowerCap_refused hs hf h0 hout
    exact ⟨_, hexec, s.glReady_only .., hanswer ..⟩
  · subst h0
    obtain ⟨u, hsend, hto, hown, hready, hmem⟩ := State.glSends_ready hr hroom v
    obtain ⟨t, htmem, hside, hempty, hexec⟩ := execMailbox_served (tag := tag) hs hf hsend (by rw [hown]; exact hq)
    refine ⟨_, hexec, (congrArg MbxSide.queue hside).trans hto, hempty, htmem.trans hmem, ?_⟩
    have hspace : 16 - (u.side 28 0).queue.length = 15 - (s.side 28 0).queue.length := by
      rw [hto, List.length_append]
      exact Nat.succ_sub_succ 15 _
    have hans := hanswer t ⟨9, tag, 0, 0, leBytes 8 v.toNat⟩ kindDone ST_OK ((15 - (s.side 28 0).queue.length) * 2 ^ 8)
      (q.flatMap (fun y => leBytes 8 y.toNat))
    rw [if_neg (by decide), State.on_of_one hready, if_pos rfl, hspace, hown]
    exact hans
  · subst h0
    obtain ⟨u, hsend, hmbx, hready, hmem⟩ := State.glSends_dropped hr ha v
    have hside : ∀ d, u.side 28 d = s.side 28 d := fun d => State.side_congr hmbx 28 d
    have hown : (u.side 28 1).queue = [] := (congrArg MbxSide.queue (hside 1)).trans hq
    obtain ⟨t, htmem, hside0, hempty, hexec⟩ := execMailbox_served (tag := tag) hs hf hsend (by rw [hown]; decide)
    refine ⟨_, hexec, congrArg MbxSide.queue (hside0.trans (hside 0)), ?_, htmem.trans hmem⟩
    have hoff : u.on (MBX_STAT_READY 28 0) = false := by simp [State.on, hready]
    have hans := hanswer t ⟨9, tag, 0, 0, leBytes 8 v.toNat⟩ kindDone ST_BUSY 0 []
    rw [if_pos rfl, hoff, if_neg (by decide), hown]
    exact hans

end Sys2Proof.Machine

section
open Sys2Proof.Machine Sys2Proof.Machine.Reg Sys2Proof.Claim

/-- Settles O59: the port answers by its own and the module's state before it looks at a request, and hardware serves the rest in one step. -/
theorem gloleyService : Obligations.GloleyService := ⟨gloleyAvailability, gloleyRequests⟩

end
end
section
/-! PROOF. What a register write makes of the fields of its register, by their access codes (R4, R5, R9). -/
namespace Sys2Proof.Machine
open Reg

/-! Bits. -/

theorem testBit_mergeBits (old new m i : Nat) : (mergeBits old new m).testBit i = if m.testBit i then new.testBit i else old.testBit i := by
  rw [mergeBits, Nat.testBit_or, Nat.testBit_and, Nat.testBit_and, Nat.testBit_xor]
  cases m.testBit i <;> cases old.testBit i <;> simp

theorem testBit_maskOf (hi lo i : Nat) : (maskOf hi lo).testBit i = decide (lo ≤ i ∧ i ≤ hi) := by
  rw [maskOf, Nat.testBit_mul_two_pow, Nat.testBit_two_pow_sub_one]
  by_cases h : lo ≤ i
  · simp [h]
    omega
  · simp [h]

theorem testBit_bitsOf (n hi lo i : Nat) : (bitsOf n hi lo).testBit i = (decide (lo + i ≤ hi) && n.testBit (lo + i)) := by
  rw [bitsOf, Nat.testBit_mod_two_pow, Nat.testBit_div_two_pow, Nat.add_comm i lo]
  congr 1
  exact decide_eq_decide.mpr (by omega)

/-- Two words with the same bits in a range. -/
theorem bitsOf_congr {a b hi lo : Nat} (h : ∀ i, lo ≤ i → i ≤ hi → a.testBit i = b.testBit i) : bitsOf a hi lo = bitsOf b hi lo := by
  refine Nat.eq_of_testBit_eq fun i => ?_
  rw [testBit_bitsOf, testBit_bitsOf]
  by_cases hi' : lo + i ≤ hi
  · rw [h (lo + i) (Nat.le_add_right ..) hi']
  · simp [hi']

theorem fieldOf_ofNat {n hi lo : Nat} (h : hi < 64) : fieldOf (BitVec.ofNat 64 n) hi lo = bitsOf n hi lo := by
  refine bitsOf_congr fun i _ h' => ?_
  rw [BitVec.toNat_ofNat, Nat.testBit_mod_two_pow]
  simp [show i < 64 by omega]

/-! One field. -/

/-- A field of a register holds bit `i`. -/
abbrev FieldDef.Has (f : FieldDef) (i : Nat) : Prop := f.lo ≤ i ∧ i ≤ f.hi

/-- Outside its bits a field's write changes nothing. -/
theorem FieldDef.write_outside (f : FieldDef) (old mask bits : Nat) {i : Nat} (h : ¬ f.Has i) : (f.write old mask bits).1.testBit i = old.testBit i := by
  have hm : (mask &&& maskOf f.hi f.lo).testBit i = false := by
    rw [Nat.testBit_and, testBit_maskOf, decide_eq_false h, Bool.and_false]
  unfold FieldDef.write
  dsimp only
  split
  · split
    · rfl
    · split
      · dsimp only
        rw [testBit_mergeBits, hm]
        rfl
      · rfl
  · simp [Nat.testBit_and, Nat.testBit_xor, hm]
  · simp [Nat.testBit_or, Nat.testBit_and, hm]
  · rfl

/-- A field's write turns on the bits of the field alone. -/
theorem FieldDef.write_congr (f : FieldDef) {old old' : Nat} (mask bits : Nat) (h : ∀ i, f.Has i → old.testBit i = old'.testBit i) :
    (f.write old mask bits).2 = (f.write old' mask bits).2
      ∧ ∀ i, f.Has i → (f.write old mask bits).1.testBit i = (f.write old' mask bits).1.testBit i := by
  have hnew : ∀ i, f.Has i → (mergeBits old bits (mask &&& maskOf f.hi f.lo)).testBit i
      = (mergeBits old' bits (mask &&& maskOf f.hi f.lo)).testBit i := fun i hi => by
    rw [testBit_mergeBits, testBit_mergeBits, h i hi]
  have hv : bitsOf (mergeBits old bits (mask &&& maskOf f.hi f.lo)) f.hi f.lo = bitsOf (mergeBits old' bits (mask &&& maskOf f.hi f.lo)) f.hi f.lo :=
    bitsOf_congr fun i h1 h2 => hnew i ⟨h1, h2⟩
  unfold FieldDef.write
  dsimp only
  rw [hv]
  split
  · split
    · exact ⟨rfl, h⟩
    · split
      · exact ⟨rfl, hnew⟩
      · exact ⟨rfl, h⟩
  · exact ⟨rfl, fun i hi => by simp only [Nat.testBit_and, Nat.testBit_xor, h i hi]⟩
  · exact ⟨rfl, fun i hi => by simp only [Nat.testBit_or, Nat.testBit_and, h i hi]⟩
  · exact ⟨rfl, h⟩

section
variable {f : FieldDef} {mask bits : Nat} (old : Nat)

/-- A field that the write does not address is kept. -/
theorem FieldDef.write_untouched (h : mask &&& maskOf f.hi f.lo = 0) (ha : f.acc = .rw) : f.write old mask bits = (old, false) := by
  simp [FieldDef.write, h, ha]

/-- A read-write field that is written whole takes an encoding that its table lists, and keeps its value for another one. -/
theorem FieldDef.write_rw (h : mask &&& maskOf f.hi f.lo = maskOf f.hi f.lo) (hl : f.lo ≤ f.hi) (ha : f.acc = .rw) :
    (f.write old mask bits).2 = !(decide (f.least ≤ bitsOf bits f.hi f.lo) && decide (bitsOf bits f.hi f.lo ≤ f.most))
      ∧ bitsOf (f.write old mask bits).1 f.hi f.lo =
        if f.least ≤ bitsOf bits f.hi f.lo ∧ bitsOf bits f.hi f.lo ≤ f.most then bitsOf bits f.hi f.lo else bitsOf old f.hi f.lo := by
  have hne : maskOf f.hi f.lo ≠ 0 := fun h0 => by
    have hbit := testBit_maskOf f.hi f.lo f.lo
    rw [h0, Nat.zero_testBit] at hbit
    simp [hl] at hbit
  have hv : bitsOf (mergeBits old bits (maskOf f.hi f.lo)) f.hi f.lo = bitsOf bits f.hi f.lo := bitsOf_congr fun i h1 h2 => by
    rw [testBit_mergeBits, testBit_maskOf, decide_eq_true ⟨h1, h2⟩, if_pos rfl]
  simp only [FieldDef.write, h, ha, if_neg hne, hv]
  split
  next hok => simp [hok, hv]
  next hbad =>
    refine ⟨?_, rfl⟩
    rw [← Bool.decide_and, decide_eq_false hbad]
    rfl

/-- A field that hardware alone sets, or that reads as zero, is kept. -/
theorem FieldDef.write_ro (ha : f.acc ≠ .rw) (ha' : f.acc ≠ .w1c) (ha'' : f.acc ≠ .w1s) : f.write old mask bits = (old, false) := by
  unfold FieldDef.write
  split
  · exact absurd ‹_› ha
  · exact absurd ‹_› ha'
  · exact absurd ‹_› ha''
  · rfl

end

/-! All fields of a register. -/

/-- No bit lies in two fields. -/
abbrev FieldsApart (l : List FieldDef) : Prop := l.Pairwise (fun f g => f.hi < g.lo ∨ g.hi < f.lo)

/-- One field of a register written. -/
def writeStep (mask bits : Nat) (a : Nat × Bool) (f : FieldDef) : Nat × Bool := ((f.write a.1 mask bits).1, a.2 || (f.write a.1 mask bits).2)

theorem RegDef.write_eq (d : RegDef) (old mask bits : Nat) : d.write old mask bits = d.fields.foldl (writeStep mask bits) (old, false) := rfl

/-- Fields that lie apart are written each by itself. -/
theorem foldl_writeStep {l : List FieldDef} (h : FieldsApart l) (mask bits : Nat) (a : Nat × Bool) :
    (l.foldl (writeStep mask bits) a).2 = (a.2 || l.any (fun f => (f.write a.1 mask bits).2))
      ∧ (∀ f ∈ l, ∀ i, f.Has i → (l.foldl (writeStep mask bits) a).1.testBit i = (f.write a.1 mask bits).1.testBit i)
      ∧ (∀ i, (∀ f ∈ l, ¬ f.Has i) → (l.foldl (writeStep mask bits) a).1.testBit i = a.1.testBit i) := by
  induction l generalizing a with
  | nil => simp
  | cons g l ih =>
    obtain ⟨hg, hl⟩ := List.pairwise_cons.mp h
    obtain ⟨hbad, hin, hout⟩ := ih hl (writeStep mask bits a g)
    have hfirst : ∀ f ∈ l, ∀ i, f.Has i → (writeStep mask bits a g).1.testBit i = a.1.testBit i := fun f hf i hi =>
      g.write_outside a.1 mask bits (fun hgi => by
        obtain ⟨h1, h2⟩ := hi
        obtain ⟨h3, h4⟩ := hgi
        have := hg f hf
        omega)
    rw [List.foldl_cons, List.any_cons]
    refine ⟨?_, ?_, ?_⟩
    · have hany : l.any (fun f => (f.write (writeStep mask bits a g).1 mask bits).2) = l.any (fun f => (f.write a.1 mask bits).2) := by
        rw [Bool.eq_iff_iff, List.any_eq_true, List.any_eq_true]
        exact exists_congr fun f => and_congr_right fun hf => by rw [(f.write_congr mask bits (hfirst f hf)).1]
      rw [hbad, hany, writeStep, Bool.or_assoc]
    · intro f hf i hi
      obtain rfl | hf := List.mem_cons.mp hf
      · exact hout i (fun k hk hki => by
          obtain ⟨h1, h2⟩ := hi
          obtain ⟨h3, h4⟩ := hki
          have := hg k hk
          omega)
      · rw [hin f hf i hi]
        exact (f.write_congr mask bits (hfirst f hf)).2 i hi
    · intro i hi
      rw [hout i (fun f hf => hi f (List.mem_cons_of_mem _ hf))]
      exact g.write_outside a.1 mask bits (hi g List.mem_cons_self)

section
variable {d : RegDef} (h : FieldsApart d.fields) (old mask bits : Nat)
include h

theorem RegDef.write_bad : (d.write old mask bits).2 = d.fields.any (fun f => (f.write old mask bits).2) := by
  rw [d.write_eq, (foldl_writeStep h mask bits (old, false)).1, Bool.false_or]

theorem RegDef.write_field {f : FieldDef} (hf : f ∈ d.fields) :
    bitsOf (d.write old mask bits).1 f.hi f.lo = bitsOf (f.write old mask bits).1 f.hi f.lo := by
  rw [d.write_eq]
  exact bitsOf_congr fun i h1 h2 => (foldl_writeStep h mask bits (old, false)).2.1 f hf i ⟨h1, h2⟩

end

/-! A register written in the module. -/

/-- The word that a write leaves in a register whose row is known. -/
theorem State.applyWrite_row {s : State} {off : Nat} {d : RegDef} {ix : List Nat} (hat : regAt off = some (d, ix)) (mask bits : Nat) :
    s.applyWrite off mask bits =
      if (d.write (s.reg off).toNat mask bits).2 then
        (s.setReg off (BitVec.ofNat 64 (d.write (s.reg off).toNat mask bits).1)).regRecord off bits
      else s.setReg off (BitVec.ofNat 64 (d.write (s.reg off).toNat mask bits).1) := by
  simp only [State.applyWrite, hat]

/-- A write of a register whose fields are `l`: each field as its own write leaves it, every other bit as it was, and a record when one
refused its encoding. -/
theorem State.applyWrite_fields (s : State) {off : Nat} {l : List FieldDef} (hat : (regAt off).map (fun p => p.1.fields) = some l) (hl : FieldsApart l)
    (h64 : ∀ f ∈ l, f.hi < 64) (mask bits : Nat) :
    ∃ w : Word, (∀ f ∈ l, fieldOf w f.hi f.lo = bitsOf (f.write (s.reg off).toNat mask bits).1 f.hi f.lo)
      ∧ (∀ i, i < 64 → (∀ f ∈ l, ¬ f.Has i) → w.toNat.testBit i = (s.reg off).toNat.testBit i)
      ∧ s.applyWrite off mask bits = if l.any (fun f => (f.write (s.reg off).toNat mask bits).2) then (s.setReg off w).regRecord off bits
        else s.setReg off w := by
  obtain ⟨⟨d, ix⟩, hd, rfl⟩ := Option.map_eq_some_iff.mp hat
  refine ⟨BitVec.ofNat 64 (d.write (s.reg off).toNat mask bits).1, fun f hf => ?_, fun i hi hout => ?_, ?_⟩
  · rw [fieldOf_ofNat (h64 f hf)]
    exact RegDef.write_field hl _ _ _ hf
  · rw [BitVec.toNat_ofNat, Nat.testBit_mod_two_pow, decide_eq_true hi, Bool.true_and, RegDef.write_eq,
      (foldl_writeStep hl mask bits _).2.2 i hout]
  · rw [State.applyWrite_row hd, RegDef.write_bad hl]

/-- A read-write field whose table lists every encoding. -/
abbrev FieldDef.Free (f : FieldDef) : Prop := f.acc = .rw ∧ f.least = 0 ∧ f.most = 2 ^ 64 ∧ f.hi < 64

/-- Such a field takes what the write addresses of it. -/
theorem FieldDef.write_free {f : FieldDef} (hf : f.Free) (old mask bits : Nat) : (f.write old mask bits).2 = false
    ∧ bitsOf (f.write old mask bits).1 f.hi f.lo = bitsOf (mergeBits old bits mask) f.hi f.lo := by
  obtain ⟨hacc, hleast, hmost, hhi⟩ := hf
  have hin : ∀ i, f.lo ≤ i → i ≤ f.hi → (mask &&& maskOf f.hi f.lo).testBit i = mask.testBit i := fun i h1 h2 => by
    rw [Nat.testBit_and, testBit_maskOf, decide_eq_true ⟨h1, h2⟩, Bool.and_true]
  have hnew : bitsOf (mergeBits old bits (mask &&& maskOf f.hi f.lo)) f.hi f.lo = bitsOf (mergeBits old bits mask) f.hi f.lo :=
    bitsOf_congr fun i h1 h2 => by rw [testBit_mergeBits, testBit_mergeBits, hin i h1 h2]
  have hlt : ∀ n, bitsOf n f.hi f.lo ≤ 2 ^ 64 := fun n =>
    ((Nat.mod_lt _ (by positivity)).trans_le (Nat.pow_le_pow_right (by decide) (by omega))).le
  unfold FieldDef.write
  rw [hacc, hleast, hmost]
  dsimp only
  split
  next h0 =>
    refine ⟨rfl, bitsOf_congr fun i h1 h2 => ?_⟩
    have hi := hin i h1 h2
    rw [h0, Nat.zero_testBit] at hi
    rw [testBit_mergeBits, ← hi]
    rfl
  · rw [if_pos ⟨Nat.zero_le _, hlt _⟩]
    exact ⟨rfl, hnew⟩

/-- A write of a register all of whose fields are read-write and list every encoding. -/
theorem State.applyWrite_free (s : State) {off : Nat} {l : List FieldDef} (hat : (regAt off).map (fun p => p.1.fields) = some l) (hl : FieldsApart l)
    (hfree : ∀ f ∈ l, f.Free) (mask bits : Nat) :
    ∃ w : Word, (∀ f ∈ l, fieldOf w f.hi f.lo = bitsOf (mergeBits (s.reg off).toNat bits mask) f.hi f.lo)
      ∧ (∀ i, i < 64 → (∀ f ∈ l, ¬ f.Has i) → w.toNat.testBit i = (s.reg off).toNat.testBit i)
      ∧ s.applyWrite off mask bits = s.setReg off w := by
  obtain ⟨w, hin, hout, hw⟩ := s.applyWrite_fields hat hl (fun f hf => (hfree f hf).2.2.2) mask bits
  refine ⟨w, fun f hf => (hin f hf).trans (FieldDef.write_free (hfree f hf) _ _ _).2, hout, ?_⟩
  have hbad : l.any (fun f => (f.write (s.reg off).toNat mask bits).2) = false := by
    rw [List.any_eq_false]
    intro f hf
    rw [(FieldDef.write_free (hfree f hf) _ _ _).1]
    decide
  rw [hw, hbad]
  rfl

end Sys2Proof.Machine
end
section
/-! PROOF. Register accesses of ring 0 firmware that nothing holds up, and the record of a refused encoding (R4 to R9, R28). -/
namespace Sys2Proof.Machine
open Reg

/-! Reaching a register. -/

/-- An access that reaches a row is performed there. -/
theorem State.regRow_reaches {s : State} {w : RegWrite} {off : Nat} (h : Claim.Reaches s w off) (f : State → State) :
    s.regRow w off true f = f (s.mxcGrant w.m off) := by
  obtain ⟨hb, hh, hl, hq⟩ := h
  have hup : (w.m == Master.host && !s.hostUp) = false := by
    by_cases hm : w.m = .host
    · simp [hh hm]
    · simp [hm]
  have hwait : s.mxcWaits (s.mxcAhead w.m (off + w.lane) false) w.m off = false := by
    simpa [State.mxcWaits, State.mxcAhead, hq] using hl
  simp [State.regRow, hup, hb, hwait]

theorem State.lockedFor_free {s : State} (h : ∀ n : Fin 6, s.rd (MXC_LOCK_HELD n.val) = 0) (m : Master) (off : Nat) : s.lockedFor m off = false := by
  rw [State.lockedFor, List.any_eq_false]
  intro n hn
  have hfree : s.on (MXC_LOCK_HELD n) = false := by
    have h0 : s.rd (MXC_LOCK_HELD n) = 0 := h ⟨n, List.mem_range.mp hn⟩
    simp [State.on, h0]
  simp [hfree]

theorem fw0_not_host {s : State} {m : Master} (h : s.fw0 m = true) : m ≠ .host := by
  rintro rfl
  exact Bool.false_ne_true h

/-- The blocks whose registers have power whenever the module has (R648). -/
abbrev AlwaysPowered (off : Nat) : Prop := off < 0xb0000 ∨ (0xc0000 ≤ off ∧ off < 0x800000) ∨ (0xe00000 ≤ off ∧ off < 0x1302000) ∨ 0x1303000 ≤ off

theorem State.regPowered_plain {s : State} {off : Nat} (h : s.power.off = false) (ho : AlwaysPowered off) : s.regPowered off = true := by
  have hoff : ¬ s.power.off = true := by rw [h]; decide
  rw [State.regPowered, if_neg hoff]
  split
  · rfl
  · rw [if_neg (by omega), if_neg (by omega), if_neg (by omega)]

/-- Ring 0 firmware reaches every aligned register that has power and is not locked. -/
theorem State.reaches_fw {s : State} {m : Master} {v : Word} {off width : Nat} (hfw : s.fw0 m = true) (hoff : s.power.off = false)
    (hfree : ∀ n : Fin 6, s.rd (MXC_LOCK_HELD n.val) = 0) (hmxc : s.mxc = []) (hw : width = 4 ∨ width = 8) (ha : off % 8 = 0)
    (hb : (blockOf off).isSome = true) (hp : AlwaysPowered off) : Claim.Reaches s { m := m, lane := 0, width := width, v := v } off := by
  refine ⟨?_, fun hm => absurd hm (fw0_not_host hfw), s.lockedFor_free hfree m off, hmxc⟩
  have halign : ((width == 4 || width == 8) && off % width == 0) = true := by
    obtain rfl | rfl := hw
    · simp; omega
    · simp [ha]
  cases m with
  | core c t =>
    have hring : (s.task c.val t.val).ring ≤ 1 := by
      have h0 : (s.task c.val t.val).ring = 0 := by simpa [State.fw0] using hfw
      omega
    have hnone : (blockOf off).isNone = false := by rw [Option.isNone_eq_false_iff]; exact hb
    simp only [State.regBlocked, Nat.add_zero, halign, State.regPowered_plain hoff hp, hring, hnone]
    rfl
  | bmv _ => exact absurd hfw Bool.false_ne_true
  | host => exact absurd hfw Bool.false_ne_true
  | gloley => exact absurd hfw Bool.false_ne_true

theorem regAt_block {off : Nat} {x : RegDef × List Nat} (h : regAt off = some x) : (blockOf off).isSome = true := by
  unfold regAt at h
  cases hb : blockOf off with
  | none => rw [hb] at h; exact absurd h (by simp)
  | some b => rfl

/-! Bits that hardware sets. -/

/-- Hardware sets no bit of a register without W1C fields. -/
theorem State.hwSets_none (s : State) {off : Nat} {l : List FieldDef} (hat : (regAt off).map (fun p => p.1.fields) = some l)
    (hl : l.all (fun f => f.acc != .w1c) = true) (hw : Word) : s.hwSets off hw = s := by
  obtain ⟨⟨d, ix⟩, hd, rfl⟩ := Option.map_eq_some_iff.mp hat
  have hnone : d.fields.filter (fun f => f.acc == .w1c) = [] := by
    rw [List.filter_eq_nil_iff]
    intro f hf
    simpa using List.all_eq_true.mp hl f hf
  simp [State.hwSets, hd, hnone]

/-- The bits that hardware sets among the W1C fields `mask` of a register. -/
theorem State.hwSets_mask (s : State) {off : Nat} {l : List FieldDef} {mask : Nat} (hat : (regAt off).map (fun p => p.1.fields) = some l)
    (hmask : (l.filter (fun f => f.acc == .w1c)).foldl (fun m f => m ||| maskOf f.hi f.lo) 0 = mask) (hmbx : mbxOfReg off = none) (hw : Word) :
    s.hwSets off hw = if hw.toNat &&& mask = 0 then s else s.setReg off (BitVec.ofNat 64 ((s.reg off).toNat ||| (hw.toNat &&& mask))) := by
  obtain ⟨⟨d, ix⟩, hd, rfl⟩ := Option.map_eq_some_iff.mp hat
  simp only [State.hwSets, hd, hmask, hmbx]

/-- A write of ring 0 firmware with nothing waiting in the matrix. -/
theorem execRegisterWrite_row {s t : State} {m : Master} {off width : Nat} {v hw : Word} (ha : off % 8 = 0)
    (h : s.writeReg { m := m, lane := 0, width := width, v := v } off = t) (hm : (t.hwSets off hw).mxc = []) :
    execRegisterWrite m off width ⟨v, hw⟩ s = .next (t.hwSets off hw) := by
  have hoff : off / 8 * 8 = off := by omega
  rw [execRegisterWrite, hoff, ha, h, State.mxcDrain_nil hm]

/-! The record of an encoding that a field does not list (R9). -/

theorem State.rd_withTimer (s : State) (x : Tab (Nat × FltRec)) (f : RF) : ({ s with srcTimer := x } : State).rd f = s.rd f := rfl

/-- An event's record names its SEQ as the source's last (R580). -/
theorem State.lastSeq_recordWith {s : State} {e : FaultEv} (unit : Nat → Option (Nat × Nat)) (hn : e.src < 640)
    (h : s.merges e.src (max (s.eventClass e.src) e.least) = false) (hc : max (s.eventClass e.src) e.least ≤ 3) :
    (s.recordWith e unit).1.rd (FLT_SRC_CNT_LAST_SEQ e.src) = s.rd FLT_STAT_NEXT_SEQ := by
  rw [State.recordWith_new unit hn h, State.writeRecord_eq]
  generalize hentry : e.entry (max (s.eventClass e.src) e.least) (s.promotes e.src) (unit (max (s.eventClass e.src) e.least)).isSome
    (tabGet s.srcMerged 0 e.src) = r
  have hsrc : r.source = e.src := by rw [← hentry]; rfl
  have hcls : (((((s.counted e.src).leaked e.src).opened e.src)).stamped r).cls ≤ 3 := by
    have : r.cls = max (s.eventClass e.src) e.least := by rw [← hentry]; rfl
    exact this.trans_le hc
  have hseq : (((s.counted e.src).leaked e.src).opened e.src).rd FLT_STAT_NEXT_SEQ = s.rd FLT_STAT_NEXT_SEQ := s.nextSeq_noticed _
  generalize ((s.counted e.src).leaked e.src).opened e.src = u at hcls hseq
  have hcnt : FLT_SRC_CNT e.src < 0x44000 := by rw [FLT_SRC_CNT]; omega
  have hlow : 0x40000 ≤ FLT_SRC_CNT e.src := by rw [FLT_SRC_CNT]; omega
  have hpends : ((u.logged r).pends (u.stamped r)).rd (FLT_SRC_CNT_LAST_SEQ e.src) = (u.logged r).rd (FLT_SRC_CNT_LAST_SEQ e.src) := by
    have hne : FLT_SRC_CNT e.src ≠ FLT_SRC r.source := by rw [hsrc, FLT_SRC_CNT, FLT_SRC]; omega
    have hne' : FLT_SRC_CNT e.src ≠ FLT_STAT := by rw [FLT_SRC_CNT, FLT_STAT]; omega
    unfold State.pends
    split
    · exact (State.rd_withTimer _ _ _).trans (State.rd_off_setPending _ _ _ hne hne')
    · rfl
  have hact : ((u.logged r).actOn (u.stamped r)).rd (FLT_SRC_CNT_LAST_SEQ e.src) = (u.logged r).rd (FLT_SRC_CNT_LAST_SEQ e.src) := by
    rw [← hpends, State.rd, State.rd, FLT_SRC_CNT_LAST_SEQ, State.reg_actOn _ _ hcls hlow (by omega)]
  have hlogged : (u.logged r).rd (FLT_SRC_CNT_LAST_SEQ e.src) =
      ((u.wr FLT_STAT_NEXT_SEQ (u.rd FLT_STAT_NEXT_SEQ + 1)).wr (FLT_SRC_CNT_LAST_SEQ e.src) (u.rd FLT_STAT_NEXT_SEQ)).rd (FLT_SRC_CNT_LAST_SEQ e.src) := by
    rw [State.rd, State.rd, FLT_SRC_CNT_LAST_SEQ, State.reg_logged _ _ hcnt, hsrc]
    rfl
  rw [hact, hlogged, ← hseq]
  have hwidth : u.rd FLT_STAT_NEXT_SEQ < 2 ^ 32 := u.rd_lt FLT_STAT_NEXT_SEQ
  exact (State.rd_wr_same _ (FLT_SRC_CNT_LAST_SEQ e.src) _ (by show 32 ≤ 63; decide) (by show 63 < 64; decide)).trans (Nat.mod_eq_of_lt hwidth)

theorem bitOf_eq_testBit (n i : Nat) : bitOf n i = n.testBit i := by
  rw [bitOf, Nat.testBit_eq_decide_div_mod_eq]
  rfl

theorem fieldOf_bit (w : Word) (i : Nat) : fieldOf w i i = (w.toNat.testBit i).toNat := by
  rw [fieldOf, bitsOf, Nat.add_sub_cancel_left, Nat.toNat_testBit, pow_one]

/-! The registers of R4 to R9's statements. -/

theorem regAt_ctxRoot : ∀ c : Fin 256, (regAt (XLAT_CTX_ROOT c.val)).map (fun p => p.1.fields) = some [{ hi := 51, lo := 12, acc := .rw }] := by
  decide +kernel

theorem regAt_rdBytes : ∀ c : Chan, (regAt (MEMC_RD_BYTES c.val)).map (fun p => p.1.fields) = some [{ hi := 63, lo := 0, acc := .ro }] := by
  decide +kernel

/-- The fields of MEMC_SPARE_CTL (R89). -/
def spareCtlFields : List FieldDef := [{ hi := 23, lo := 16, acc := .rw, least := 1, most := 255 }, { hi := 7, lo := 0, acc := .rw, least := 1, most := 255 }]

theorem regAt_spareCtl : ∀ c : Chan, (regAt (MEMC_SPARE_CTL c.val)).map (fun p => p.1.fields) = some spareCtlFields := by
  decide +kernel

/-- The fields of CLK_STAT (R563). -/
def clkStatFields : List FieldDef := [{ hi := 63, lo := 63, acc := .w1c }, { hi := 62, lo := 62, acc := .ro }, { hi := 61, lo := 61, acc := .ro },
  { hi := 47, lo := 32, acc := .ro }, { hi := 30, lo := 0, acc := .ro }]

theorem regAt_clkStat : (regAt CLK_STAT).map (fun p => p.1.fields) = some clkStatFields := by decide +kernel

theorem regAt_isNone {off : Nat} {l : List FieldDef} (h : (regAt off).map (fun p => p.1.fields) = some l) : ¬ (regAt off).isNone = true := by
  obtain ⟨x, hx, -⟩ := Option.map_eq_some_iff.mp h
  simp [hx]

theorem regAt_blockOf {off : Nat} {l : List FieldDef} (h : (regAt off).map (fun p => p.1.fields) = some l) : (blockOf off).isSome = true := by
  obtain ⟨x, hx, -⟩ := Option.map_eq_some_iff.mp h
  exact regAt_block hx

/-- Registers outside the blocks of cores, mailboxes and ports. -/
theorem ofReg_none {off : Nat} (h : off < 0x20000 ∨ (0x27800 ≤ off ∧ off < 0x800000) ∨ (0x1200000 ≤ off ∧ off < 0x1301000)) :
    coreOfReg off = none ∧ mbxOfReg off = none ∧ portOfReg off = none := by
  refine ⟨?_, ?_, ?_⟩
  · rw [coreOfReg, if_neg (by omega), if_neg (by omega), if_neg (by omega)]
  · rw [mbxOfReg, if_neg (by omega)]
  · rw [portOfReg, if_neg (by omega)]

theorem State.writeReg_ctxRoot (s : State) (w : RegWrite) (c : Fin 256) :
    s.writeReg w (XLAT_CTX_ROOT c.val) = s.plainWrite w (XLAT_CTX_ROOT c.val) (s.fw0 w.m) := by
  have ho : XLAT_CTX_ROOT c.val = 0x1200000 + 0x10 * c.val := rfl
  have hc := c.isLt
  obtain ⟨h1, h2, h3⟩ := ofReg_none (off := XLAT_CTX_ROOT c.val) (by omega)
  have hn := regAt_isNone (regAt_ctxRoot c)
  generalize XLAT_CTX_ROOT c.val = off at *
  rw [State.writeReg, if_neg hn, h1, h2, h3]
  dsimp only
  rw [if_neg (by omega), if_neg (by omega), if_neg (by omega), if_neg (by omega), if_neg (by omega), if_neg (by omega),
    if_neg (by simp only [CLK_STAT]; omega), if_neg (by simp only [RST_MODULE]; omega), if_neg (by omega), if_neg (by omega), if_neg (by omega),
    if_neg (by omega), if_neg (by omega), if_neg (by omega), if_pos (by omega), State.writeXlat, if_pos (by omega)]

theorem State.writeReg_clkStat (s : State) (w : RegWrite) : s.writeReg w CLK_STAT = s.plainWrite w CLK_STAT true := by
  have hn := regAt_isNone regAt_clkStat
  obtain ⟨h1, h2, h3⟩ := ofReg_none (off := CLK_STAT) (by decide)
  rw [State.writeReg, if_neg hn, h1, h2, h3]
  rfl

theorem State.writeReg_memc (s : State) (w : RegWrite) {off : Nat} (hn : ¬ (regAt off).isNone = true) (ho : 0x100000 ≤ off ∧ off < 0x700000) :
    s.writeReg w off = s.writeMemc w off := by
  obtain ⟨h1, h2, h3⟩ := ofReg_none (off := off) (by omega)
  rw [State.writeReg, if_neg hn, h1, h2, h3]
  dsimp only
  rw [if_neg (by omega), if_neg (by omega), if_neg (by omega), if_neg (by omega), if_neg (by omega), if_neg (by omega),
    if_neg (by simp only [CLK_STAT]; omega), if_neg (by simp only [RST_MODULE]; omega), if_neg (by omega), if_neg (by omega), if_neg (by omega),
    if_pos ho]

/-! R4, R5, R7, R28. -/

section
variable {m : Master} {s : State} (hfw : s.fw0 m = true) (hoff : s.power.off = false) (hmxc : s.mxc = [])
  (hfree : ∀ n : Fin 6, s.rd (MXC_LOCK_HELD n.val) = 0)
include hfw hoff hmxc hfree

/-- A write of a context's root, whole or by half: the field takes what the write addresses, nothing else changes. -/
theorem execRegisterWrite_ctxRoot (ctx : Fin 256) {width : Nat} (hwidth : width = 4 ∨ width = 8) (v hw : Word) :
    ∃ (l : Tab Nat) (w : Word), execRegisterWrite m (XLAT_CTX_ROOT ctx.val) width ⟨v, hw⟩ s =
        .next (({ s with mxcLast := l } : State).setReg (XLAT_CTX_ROOT ctx.val) w)
      ∧ (∀ i, i < 64 → w.toNat.testBit i = if 12 ≤ i ∧ i ≤ 51 then (mergeBits (s.reg (XLAT_CTX_ROOT ctx.val)).toNat
          (RegWrite.mk m 0 width v).bits (RegWrite.mk m 0 width v).mask).testBit i else (s.reg (XLAT_CTX_ROOT ctx.val)).toNat.testBit i) := by
  have hat := regAt_ctxRoot ctx
  have ho : XLAT_CTX_ROOT ctx.val % 8 = 0 ∧ AlwaysPowered (XLAT_CTX_ROOT ctx.val) := by
    have := ctx.isLt
    simp only [XLAT_CTX_ROOT]
    omega
  obtain ⟨l, hl⟩ := s.mxcGrant_eq m (XLAT_CTX_ROOT ctx.val)
  have hreach : Claim.Reaches s ⟨m, 0, width, v⟩ (XLAT_CTX_ROOT ctx.val) :=
    State.reaches_fw hfw hoff hfree hmxc hwidth ho.1 (regAt_blockOf hat) ho.2
  obtain ⟨w, hin, hout, hwrite⟩ := State.applyWrite_free ({ s with mxcLast := l } : State) hat (by decide) (by decide)
    (RegWrite.mk m 0 width v).mask (RegWrite.mk m 0 width v).bits
  have hreg : ({ s with mxcLast := l } : State).reg (XLAT_CTX_ROOT ctx.val) = s.reg (XLAT_CTX_ROOT ctx.val) := rfl
  rw [hreg] at hin hout
  refine ⟨l, w, ?_, fun i hi => ?_⟩
  · have hrow : s.writeReg ⟨m, 0, width, v⟩ (XLAT_CTX_ROOT ctx.val) = ({ s with mxcLast := l } : State).setReg (XLAT_CTX_ROOT ctx.val) w := by
      rw [State.writeReg_ctxRoot, State.plainWrite, show s.fw0 (RegWrite.mk m 0 width v).m = true from hfw, State.regRow_reaches hreach, hl, hwrite]
    have hnone := State.hwSets_none (({ s with mxcLast := l } : State).setReg (XLAT_CTX_ROOT ctx.val) w) hat (by decide) hw
    rw [execRegisterWrite_row ho.1 hrow (by rw [hnone]; exact hmxc), hnone]
  · split
    next hf =>
      have hbits := congrArg (fun n => n.testBit (i - 12)) (hin _ List.mem_cons_self)
      simp only [fieldOf, testBit_bitsOf] at hbits
      rw [show 12 + (i - 12) = i by omega, decide_eq_true hf.2, Bool.true_and, Bool.true_and] at hbits
      exact hbits
    next hf => exact hout i hi (fun f hf' => by
        rw [List.mem_singleton.mp hf']
        exact hf)

/-- A write of CLK_STAT: software clears the bit, hardware sets it (R7). -/
theorem execRegisterWrite_clkStat (v hw : Word) :
    ∃ t : State, execRegisterWrite m CLK_STAT 8 ⟨v, hw⟩ s = .next t ∧ (∀ o, o ≠ CLK_STAT → t.reg o = s.reg o) ∧ t.mem = s.mem
      ∧ (t.reg CLK_STAT).toNat.testBit 63 = (hw.toNat.testBit 63 || ((s.reg CLK_STAT).toNat.testBit 63 && !v.toNat.testBit 63))
      ∧ t.rd CLK_STAT_LOSSES = s.rd CLK_STAT_LOSSES := by
  obtain ⟨l, hl⟩ := s.mxcGrant_eq m CLK_STAT
  have hreach : Claim.Reaches s ⟨m, 0, 8, v⟩ CLK_STAT :=
    State.reaches_fw hfw hoff hfree hmxc (Or.inr rfl) (by decide) (regAt_blockOf regAt_clkStat) (by decide)
  obtain ⟨w, hin, -, hwrite⟩ := State.applyWrite_fields ({ s with mxcLast := l } : State) regAt_clkStat (by decide) (by decide) (2 ^ 64 - 1) v.toNat
  have hgood : clkStatFields.any (fun f => (f.write (s.reg CLK_STAT).toNat (2 ^ 64 - 1) v.toNat).2) = false := by
    simp [clkStatFields, FieldDef.write]
  rw [show ({ s with mxcLast := l } : State).reg CLK_STAT = s.reg CLK_STAT from rfl] at hin hwrite
  rw [hgood] at hwrite
  have hrow : s.writeReg ⟨m, 0, 8, v⟩ CLK_STAT = ({ s with mxcLast := l } : State).setReg CLK_STAT w := by
    rw [State.writeReg_clkStat, State.plainWrite, State.regRow_reaches hreach, hl]
    exact hwrite
  have hlost : w.toNat.testBit 63 = ((s.reg CLK_STAT).toNat.testBit 63 && !v.toNat.testBit 63) := by
    have hbit := congrArg (fun n => n.testBit 0) (hin { hi := 63, lo := 63, acc := .w1c } (by decide))
    have hmask : ((2 ^ 64 - 1) &&& maskOf 63 63).testBit 63 = true := by decide
    simp only [fieldOf, testBit_bitsOf, FieldDef.write, Nat.testBit_and, Nat.testBit_xor, Nat.add_zero, le_refl, decide_true, Bool.true_and] at hbit
    rw [hbit]
    simp only [Nat.testBit_and] at hmask
    rw [hmask]
    cases (s.reg CLK_STAT).toNat.testBit 63 <;> cases v.toNat.testBit 63 <;> rfl
  have hlosses : fieldOf w 47 32 = s.rd CLK_STAT_LOSSES := hin { hi := 47, lo := 32, acc := .ro } (by decide)
  have hsets := State.hwSets_mask (({ s with mxcLast := l } : State).setReg CLK_STAT w) regAt_clkStat (mask := 2 ^ 63) (by decide) (by decide) hw
  have hmxc' : ((({ s with mxcLast := l } : State).setReg CLK_STAT w).hwSets CLK_STAT hw).mxc = [] := by
    rw [hsets]
    split
    · exact hmxc
    · exact hmxc
  refine ⟨_, execRegisterWrite_row (by decide) hrow hmxc', ?_⟩
  have hbit : (hw.toNat &&& 2 ^ 63).testBit 63 = hw.toNat.testBit 63 := by
    rw [Nat.testBit_and, Nat.testBit_two_pow_self, Bool.and_true]
  rw [hsets, State.reg_setReg_same]
  split
  next h0 =>
    rw [h0, Nat.zero_testBit] at hbit
    refine ⟨fun o ho => State.reg_setReg_other _ _ _ _ ho, rfl, ?_, ?_⟩
    · rw [State.reg_setReg_same, hlost, ← hbit, Bool.false_or]
    · rw [State.rd, CLK_STAT_LOSSES, State.reg_setReg_same]
      exact hlosses
  · refine ⟨fun o ho => (State.reg_setReg_other _ _ _ _ ho).trans (State.reg_setReg_other _ _ _ _ ho), rfl, ?_, ?_⟩
    · rw [State.reg_setReg_same, BitVec.toNat_ofNat, Nat.testBit_mod_two_pow, Nat.testBit_or, hbit, hlost]
      simp [Bool.or_comm]
    · refine Eq.trans ?_ hlosses
      rw [State.rd, CLK_STAT_LOSSES, State.reg_setReg_same, fieldOf_ofNat (by decide)]
      refine bitsOf_congr fun i (h1 : 32 ≤ i) (h2 : i ≤ 47) => ?_
      rw [Nat.testBit_or, Nat.testBit_and, Nat.testBit_two_pow_of_ne (by omega), Bool.and_false, Bool.or_false]

/-- A register that only hardware sets keeps its word. -/
theorem execRegisterWrite_rdBytes (ch : Chan) (v hw : Word) :
    execRegisterWrite m (MEMC_RD_BYTES ch.val) 8 ⟨v, hw⟩ s = .next (s.mxcGrant m (MEMC_RD_BYTES ch.val)) := by
  have hat := regAt_rdBytes ch
  have hc := ch.isLt
  have ho : MEMC_RD_BYTES ch.val % 8 = 0 ∧ AlwaysPowered (MEMC_RD_BYTES ch.val) ∧ 0x100000 ≤ MEMC_RD_BYTES ch.val ∧ MEMC_RD_BYTES ch.val < 0x700000 := by
    simp only [MEMC_RD_BYTES]
    omega
  have hreach : Claim.Reaches s ⟨m, 0, 8, v⟩ (MEMC_RD_BYTES ch.val) :=
    State.reaches_fw hfw hoff hfree hmxc (Or.inr rfl) ho.1 (regAt_blockOf hat) ho.2.1
  have hchan : (MEMC_RD_BYTES ch.val - 0x100000) / 0x10000 = ch.val := by
    simp only [MEMC_RD_BYTES]
    omega
  have hrow : s.writeReg ⟨m, 0, 8, v⟩ (MEMC_RD_BYTES ch.val) = s.mxcGrant m (MEMC_RD_BYTES ch.val) := by
    rw [State.writeReg_memc _ _ (regAt_isNone hat) ho.2.2, State.writeMemc, hchan,
      if_neg (by simp only [MEMC_RD_BYTES, MEMC_PERF_CTL]; omega), if_neg (by simp only [MEMC_RD_BYTES, MEMC_SCRUB_CTL]; omega),
      if_neg (by simp only [MEMC_RD_BYTES, MEMC_SPARE_CTL]; omega), if_neg (by simp only [MEMC_RD_BYTES, MEMC_INJECT]; omega),
      State.ignoredWrite, State.regRow_reaches hreach]
    rfl
  have hnone := State.hwSets_none (s.mxcGrant m (MEMC_RD_BYTES ch.val)) hat (by decide) hw
  obtain ⟨l, hl⟩ := s.mxcGrant_eq m (MEMC_RD_BYTES ch.val)
  rw [execRegisterWrite_row ho.1 hrow (by rw [hnone, hl]; exact hmxc), hnone]

/-- An offset without a register takes no write (R28). -/
theorem execRegisterWrite_noReg (v hw : Word) : execRegisterWrite m 0xd00f8 8 ⟨v, hw⟩ s = .next (s.mxcGrant m 0xd00f8) := by
  have hn : (regAt 0xd00f8).isNone = true := by decide +kernel
  have hreach : Claim.Reaches s ⟨m, 0, 8, v⟩ 0xd00f8 :=
    State.reaches_fw hfw hoff hfree hmxc (Or.inr rfl) (by decide) (by decide +kernel) (by decide)
  have hrow : s.writeReg ⟨m, 0, 8, v⟩ 0xd00f8 = s.mxcGrant m 0xd00f8 := by
    rw [State.writeReg, if_pos hn, State.ignoredWrite, State.regRow_reaches hreach]
    rfl
  have hnone : ∀ t : State, t.hwSets 0xd00f8 hw = t := fun t => State.hwSets_noReg hn hw
  obtain ⟨l, hl⟩ := s.mxcGrant_eq m 0xd00f8
  rw [execRegisterWrite_row (by decide) hrow (by rw [hnone, hl]; exact hmxc), hnone]

end

/-! R9. -/

/-- The record of a refused encoding, where the source is quiet enough to stay: what it leaves of the register, and its place in the log. -/
theorem State.regRecord_spec {s : State} (ha : Claim.Alive s 637) (hfirst : Claim.First s 637) (off v : Nat) :
    s.Noted 637 (s.regRecord off v) ∧ (s.regRecord off v).rd (FLT_SRC_CNT_LAST_SEQ 637) = s.rd FLT_STAT_NEXT_SEQ
      ∧ ((s.regRecord off v).tlog.getLast?).map (fun r => (r.source, r.addr)) = some (637, off) := by
  have hcls := State.eventClass_alive ha
  have hmerge : ∀ c, s.merges 637 c = false := State.merges_first hfirst
  refine ⟨State.Noted.regRecord ha off v, ?_, ?_⟩
  · rw [State.regRecord_eq]
    exact State.lastSeq_recordWith (e := { src := srcRegWrite, aux := v % 2 ^ 32, addr := off }) _ (show srcRegWrite < 640 by decide) (hmerge _)
      ((Nat.max_zero _).trans_le (hcls.trans (by decide)))
  · rw [State.regRecord_eq, State.tlog_recordWith (e := { src := srcRegWrite, aux := v % 2 ^ 32, addr := off }) _ (show srcRegWrite < 640 by decide) (hmerge _),
      State.logWith_getLast]
    rfl

theorem not_logReg_low {n o : Nat} (h : o < 0x40000 ∨ 0x60000 ≤ o) (hn : n < 640) : ¬ logReg n o := by
  simp only [logReg, FLT_STAT, FLT_SRC, FLT_SRC_CNT, TLOG_STAT]
  omega

/-- A write of MEMC_SPARE_CTL that would set ROW_THRESH to 0 keeps it, sets LANE_THRESH, and is recorded (R9, R89). -/
theorem execRegisterWrite_spareCtl {m : Master} {s : State} (ch : Chan) {lane : Fin 256} (hfw : s.fw0 m = true) (hlane : lane ≠ 0)
    (hfirst : Claim.First s 637) (ha : Claim.Alive s 637)
    (hreach : Claim.Reaches s (Claim.whole m (BitVec.ofNat 64 (2 ^ 16 * lane.val))) (MEMC_SPARE_CTL ch.val)) :
    Claim.Next (.registerWrite m (MEMC_SPARE_CTL ch.val) 8 ⟨BitVec.ofNat 64 (2 ^ 16 * lane.val), 0⟩) s (fun t =>
      t.rd (MEMC_SPARE_CTL_ROW_THRESH ch.val) = s.rd (MEMC_SPARE_CTL_ROW_THRESH ch.val)
      ∧ t.rd (MEMC_SPARE_CTL_LANE_THRESH ch.val) = lane.val
      ∧ t.rd (FLT_SRC_CNT_LAST_SEQ 637) = s.rd FLT_STAT_NEXT_SEQ
      ∧ (t.tlog.getLast?).map (fun r => (r.source, r.addr)) = some (637, MEMC_SPARE_CTL ch.val)) := by
  have hat := regAt_spareCtl ch
  have hc := ch.isLt
  have hl := lane.isLt
  have hl0 : lane.val ≠ 0 := fun h => hlane (Fin.ext h)
  have hoff : MEMC_SPARE_CTL ch.val % 8 = 0 ∧ 0x100000 ≤ MEMC_SPARE_CTL ch.val ∧ MEMC_SPARE_CTL ch.val < 0x700000 := by
    simp only [MEMC_SPARE_CTL]
    omega
  have hchan : (MEMC_SPARE_CTL ch.val - 0x100000) / 0x10000 = ch.val := by
    simp only [MEMC_SPARE_CTL]
    omega
  obtain ⟨l, hgrant⟩ := s.mxcGrant_eq m (MEMC_SPARE_CTL ch.val)
  have hbits : (Claim.whole m (BitVec.ofNat 64 (2 ^ 16 * lane.val))).bits = 2 ^ 16 * lane.val := by
    show (BitVec.ofNat 64 (2 ^ 16 * lane.val)).toNat = _
    rw [BitVec.toNat_ofNat]
    omega
  have hnothost : (m == Master.host) = false := by
    rw [beq_eq_false_iff_ne]
    exact fw0_not_host hfw
  have hright : s.fwOrInstaller m = true := by simp [State.fwOrInstaller, hfw]
  obtain ⟨w, hin, -, hwrite⟩ := State.applyWrite_fields ({ s with mxcLast := l } : State) hat (by decide) (by decide) (2 ^ 64 - 1) (2 ^ 16 * lane.val)
  have hreg : ({ s with mxcLast := l } : State).reg (MEMC_SPARE_CTL ch.val) = s.reg (MEMC_SPARE_CTL ch.val) := rfl
  rw [hreg] at hin hwrite
  have hlaneBits : bitsOf (2 ^ 16 * lane.val) 23 16 = lane.val := by
    simp only [bitsOf]
    omega
  have hrowBits : bitsOf (2 ^ 16 * lane.val) 7 0 = 0 := by
    simp only [bitsOf]
    omega
  obtain ⟨-, hlaneField⟩ := FieldDef.write_rw (f := { hi := 23, lo := 16, acc := .rw, least := 1, most := 255 }) (mask := 2 ^ 64 - 1)
    (bits := 2 ^ 16 * lane.val) (s.reg (MEMC_SPARE_CTL ch.val)).toNat (by decide) (by decide) rfl
  obtain ⟨hbad, hrowField⟩ := FieldDef.write_rw (f := { hi := 7, lo := 0, acc := .rw, least := 1, most := 255 }) (mask := 2 ^ 64 - 1)
    (bits := 2 ^ 16 * lane.val) (s.reg (MEMC_SPARE_CTL ch.val)).toNat (by decide) (by decide) rfl
  simp only [hlaneBits, hrowBits] at hlaneField hrowField hbad
  rw [if_pos (by omega)] at hlaneField
  rw [if_neg (by omega)] at hrowField
  have hany : spareCtlFields.any (fun f => (f.write (s.reg (MEMC_SPARE_CTL ch.val)).toNat (2 ^ 64 - 1) (2 ^ 16 * lane.val)).2) = true :=
    List.any_eq_true.mpr ⟨{ hi := 7, lo := 0, acc := .rw, least := 1, most := 255 }, by decide, hbad⟩
  rw [hany, if_pos rfl] at hwrite
  have hsrc : MEMC_SPARE_CTL ch.val ≠ FLT_SRC 637 ∧ MEMC_SPARE_CTL ch.val ≠ FLT_STAT := by
    simp only [FLT_SRC, FLT_STAT]
    omega
  have halive : Claim.Alive (({ s with mxcLast := l } : State).setReg (MEMC_SPARE_CTL ch.val) w) 637 := by
    rw [Claim.Alive, State.rd, FLT_SRC_CLASS, State.reg_setReg_other _ _ _ _ hsrc.1.symm]
    exact ha
  have hseq : (({ s with mxcLast := l } : State).setReg (MEMC_SPARE_CTL ch.val) w).rd FLT_STAT_NEXT_SEQ = s.rd FLT_STAT_NEXT_SEQ := by
    rw [State.rd, FLT_STAT_NEXT_SEQ, State.reg_setReg_other _ _ _ _ hsrc.2.symm]
    rfl
  obtain ⟨hnoted, hlast, hlog⟩ := State.regRecord_spec halive hfirst (MEMC_SPARE_CTL ch.val) (2 ^ 16 * lane.val)
  have hnolog : ¬ logReg 637 (MEMC_SPARE_CTL ch.val) := not_logReg_low (Or.inr (by omega)) (by decide)
  have hnopin : ¬ (0xb4000 ≤ MEMC_SPARE_CTL ch.val ∧ MEMC_SPARE_CTL ch.val < 0xb4100) := by omega
  have hkept : ∀ hi lo, ((({ s with mxcLast := l } : State).setReg (MEMC_SPARE_CTL ch.val) w).regRecord (MEMC_SPARE_CTL ch.val) (2 ^ 16 * lane.val)).rd
      ⟨MEMC_SPARE_CTL ch.val, hi, lo⟩ = fieldOf w hi lo := fun hi lo => by
    rw [hnoted.rd (f := ⟨MEMC_SPARE_CTL ch.val, hi, lo⟩) hnolog hnopin, State.rd, State.reg_setReg_same]
  have hrow : s.writeReg (Claim.whole m (BitVec.ofNat 64 (2 ^ 16 * lane.val))) (MEMC_SPARE_CTL ch.val) =
      (({ s with mxcLast := l } : State).setReg (MEMC_SPARE_CTL ch.val) w).regRecord (MEMC_SPARE_CTL ch.val) (2 ^ 16 * lane.val) := by
    rw [State.writeReg_memc _ _ (regAt_isNone hat) hoff.2, State.writeMemc, hchan,
      if_neg (by simp only [MEMC_SPARE_CTL, MEMC_PERF_CTL]; omega), if_neg (by simp only [MEMC_SPARE_CTL, MEMC_SCRUB_CTL]; omega),
      if_pos rfl, State.installerWrite, hright, State.regRow_reaches hreach, hgrant, State.auditWrite, hnothost, hbits]
    exact hwrite
  have hnone := State.hwSets_none ((({ s with mxcLast := l } : State).setReg (MEMC_SPARE_CTL ch.val) w).regRecord (MEMC_SPARE_CTL ch.val)
    (2 ^ 16 * lane.val)) hat (by decide) 0
  refine ⟨_, execRegisterWrite_row hoff.1 hrow ?_, ?_⟩
  · rw [hnone, hnoted.mxc]
    exact hreach.2.2.2
  · rw [hnone]
    refine ⟨(hkept 7 0).trans ((hin _ (by decide)).trans hrowField), (hkept 23 16).trans ((hin _ (by decide)).trans hlaneField), hlast.trans hseq, hlog⟩

end Sys2Proof.Machine

section
open Sys2Proof.Machine Sys2Proof.Machine.Reg Sys2Proof.Claim

namespace Sys2Proof.Machine

/-- R4, R5, R7, R28. -/
theorem registerWrites : Claim.RegisterWrites := by
  intro m s ctx ch v hw hfw hoff hmxc hfree
  refine ⟨?_, ?_, ?_, execRegisterWrite_rdBytes hfw hoff hmxc hfree ch v hw, execRegisterWrite_noReg hfw hoff hmxc hfree v hw⟩
  · obtain ⟨l, w, hexec, hbits⟩ := execRegisterWrite_ctxRoot hfw hoff hmxc hfree ctx (Or.inr rfl) v hw
    refine ⟨_, hexec, ?_, fun o ho => State.reg_setReg_other _ _ _ _ (by omega), rfl, rfl⟩
    rw [State.rd, XLAT_CTX_ROOT_ROOT, State.reg_setReg_same]
    refine bitsOf_congr fun i (h1 : 12 ≤ i) (h2 : i ≤ 51) => ?_
    rw [hbits i (by omega), if_pos ⟨h1, h2⟩, testBit_mergeBits]
    have hmask : ((RegWrite.mk m 0 8 v).mask).testBit i = true := by
      rw [show (RegWrite.mk m 0 8 v).mask = 2 ^ 64 - 1 from rfl, Nat.testBit_two_pow_sub_one]
      exact decide_eq_true (by omega)
    rw [if_pos hmask]
    rfl
  · obtain ⟨l, w, hexec, hbits⟩ := execRegisterWrite_ctxRoot hfw hoff hmxc hfree ctx (Or.inl rfl) v hw
    have hmask : ∀ i, ((RegWrite.mk m 0 4 v).mask).testBit i = decide (i < 32) := fun i => by
      rw [show (RegWrite.mk m 0 4 v).mask = 2 ^ 32 - 1 from rfl, Nat.testBit_two_pow_sub_one]
    refine ⟨_, hexec, ?_, ?_⟩
    · rw [State.reg_setReg_same]
      refine bitsOf_congr fun i h1 h2 => ?_
      rw [hbits i (by omega)]
      split
      · rw [testBit_mergeBits, hmask, if_neg (by simp; omega)]
      · rfl
    · rw [State.reg_setReg_same]
      refine bitsOf_congr fun i h1 h2 => ?_
      have hval : (RegWrite.mk m 0 4 v).bits = v.toNat % 2 ^ 32 := Nat.mul_one _
      rw [hbits i (by omega), if_pos (by omega), testBit_mergeBits, hmask, if_pos (by simp; omega), hval, Nat.testBit_mod_two_pow,
        decide_eq_true (by omega), Bool.true_and]
  · obtain ⟨t, hexec, hother, hmem, hlost, hlosses⟩ := execRegisterWrite_clkStat hfw hoff hmxc hfree v hw
    refine ⟨t, hexec, ?_, hlosses, fun o ho => hother o (by omega), hmem⟩
    have hrd : ∀ u : State, u.rd CLK_STAT_CLK_LOST = ((u.reg CLK_STAT).toNat.testBit 63).toNat := fun u => fieldOf_bit _ _
    rw [hrd, hrd, hlost, bitOf_eq_testBit, bitOf_eq_testBit]
    cases hw.toNat.testBit 63 <;> cases v.toNat.testBit 63 <;> simp

end Sys2Proof.Machine

/-- Settles O36: a field takes what its access code lets a write give it, whatever stands beside it. -/
theorem registerWriting : Obligations.RegisterWriting := ⟨registerWrites, fun _ _ ch _ hfw hlane hfirst ha hreach =>
  execRegisterWrite_spareCtl ch hfw hlane hfirst ha hreach⟩

end
end
section
/-! PROOF. The registers of channels and interleave, and the tail area (R46, R50 to R52, R74, R87 to R90, R248 to R250). -/
namespace Sys2Proof.Machine
open Reg

/-! What an audited write leaves (R625). -/

/-- `t` is `s` after a grant of the matrix and an audit record: whom a block granted last, the life cycle's state, the flash domain and the
audit register alone may have changed. -/
structure State.Audited (s t : State) : Prop where
  rest : t = { s with regs := t.regs, life := t.life, power := t.power, mxcLast := t.mxcLast }
  regs : ∀ o, o ≠ LCS_AUDIT → o ≠ PWR_DOMAIN_HI → t.reg o = s.reg o
  domain : ∀ k, k ≠ 79 → t.domainOn k = s.domainOn k

namespace State.Audited
variable {s t u : State}

theorem refl (s : State) : s.Audited s := ⟨rfl, fun _ _ _ => rfl, fun _ _ => rfl⟩

theorem trans (h : s.Audited t) (h' : t.Audited u) : s.Audited u :=
  ⟨h'.rest.trans (congrArg (fun x : State => { x with regs := u.regs, life := u.life, power := u.power, mxcLast := u.mxcLast }) h.rest),
    fun o h1 h2 => (h'.regs o h1 h2).trans (h.regs o h1 h2), fun k hk => (h'.domain k hk).trans (h.domain k hk)⟩

theorem rd (h : s.Audited t) {f : RF} (h1 : f.off ≠ LCS_AUDIT) (h2 : f.off ≠ PWR_DOMAIN_HI) : t.rd f = s.rd f := by
  rw [State.rd, State.rd, h.regs _ h1 h2]

theorem mem (h : s.Audited t) : t.mem = s.mem := by rw [h.rest]
theorem chans (h : s.Audited t) : t.chans = s.chans := by rw [h.rest]
theorem ports (h : s.Audited t) : t.ports = s.ports := by rw [h.rest]
theorem freqs (h : s.Audited t) : t.freqs = s.freqs := by rw [h.rest]
theorem routeHeld (h : s.Audited t) : t.routeHeld = s.routeHeld := by rw [h.rest]
theorem now (h : s.Audited t) : t.now = s.now := by rw [h.rest]
theorem srcLast (h : s.Audited t) : t.srcLast = s.srcLast := by rw [h.rest]
theorem tailArea (h : s.Audited t) : t.tailArea = s.tailArea := by rw [h.rest]
theorem tailNext (h : s.Audited t) : t.tailNext = s.tailNext := by rw [h.rest]

theorem ofLife (s : State) (x : LifeState) : s.Audited { s with life := x } := ⟨rfl, fun _ _ _ => rfl, fun _ _ => rfl⟩
theorem ofGrant (s : State) (x : Tab Nat) : s.Audited { s with mxcLast := x } := ⟨rfl, fun _ _ _ => rfl, fun _ _ => rfl⟩
theorem ofPower (s : State) (x : PowerState) : s.Audited { s with power := x } := ⟨rfl, fun _ _ _ => rfl, fun _ _ => rfl⟩

theorem setDomain (s : State) : s.Audited (s.setDomain 79 true) := by
  have hset : s.setDomain 79 true = s.wr ⟨PWR_DOMAIN_HI, 15, 15⟩ 1 := rfl
  rw [hset]
  refine ⟨rfl, fun o _ h => State.reg_wr_other _ _ _ _ h, fun k hk => ?_⟩
  unfold State.domainOn
  split
  · rw [State.rd_wr_off _ _ _ _ (by decide)]
  · by_cases h16 : k - 64 ≤ 15
    · have hne : PWR_DOMAIN_HI_ON.lo + (k - 64) ≤ PWR_DOMAIN_HI_ON.hi := by
        simp only [PWR_DOMAIN_HI_ON]
        omega
      rw [State.bitOf_rd _ _ hne, State.bitOf_rd _ _ hne]
      have hbit : PWR_DOMAIN_HI_ON.lo + (k - 64) ≠ 15 := by
        simp only [PWR_DOMAIN_HI_ON]
        omega
      exact congrArg (· == 1) (State.rd_bit_other s (by decide) (Or.inr hbit))
    · have hzero : ∀ u : State, bitOf (u.rd PWR_DOMAIN_HI_ON) (k - 64) = false := fun u => by
        have hlt : u.rd PWR_DOMAIN_HI_ON < 2 ^ (k - 64) := (u.rd_lt PWR_DOMAIN_HI_ON).trans_le (Nat.pow_le_pow_right (by decide) (by
          simp only [PWR_DOMAIN_HI_ON]
          omega))
        rw [bitOf_eq_testBit, Nat.testBit_eq_false_of_lt hlt]
      rw [hzero, hzero]

theorem wr (s : State) {f : RF} (v : Nat) (hf : f.off = LCS_AUDIT) : s.Audited (s.wr f v) := by
  refine ⟨rfl, fun o h _ => State.reg_wr_other _ _ _ _ (by rw [hf]; exact h), fun k _ => ?_⟩
  have hlo : PWR_DOMAIN_LO_ON.off ≠ f.off := by rw [hf]; decide
  have hhi : PWR_DOMAIN_HI_ON.off ≠ f.off := by rw [hf]; decide
  rw [State.domainOn, State.domainOn, State.rd_wr_off _ _ _ _ hlo, State.rd_wr_off _ _ _ _ hhi]

theorem flashTouch (s : State) : s.Audited s.flashTouch := by
  unfold State.flashTouch
  split
  · exact (setDomain s).trans (ofPower _ _)
  · split
    · exact refl s
    · exact ofPower _ _

theorem audit (s : State) (action status : Nat) (a : Actor) (x y z : Nat) : s.Audited (s.audit action status a x y z) := by
  unfold State.audit
  extract_lets _ _ _ _ s1 _ s2
  have h2 : s.Audited s2 := (flashTouch s).trans (ofLife _ _)
  exact (h2.trans (wr s2 _ rfl)).trans (wr _ _ rfl)

theorem auditWrite (s : State) (w : RegWrite) (off : Nat) : s.Audited (s.auditWrite w off) := by
  unfold State.auditWrite
  split
  · split
    · extract_lets _ s1
      exact (ofLife s _).trans (audit ..)
    · exact refl s
  · exact refl s

end State.Audited

/-! Fields set to zero. -/

/-- A bit of a word of which a field was set. -/
theorem testBit_setField (w : Word) {hi lo : Nat} (v : Nat) (h : lo ≤ hi) (h64 : hi < 64) {i : Nat} :
    (setField w hi lo v).toNat.testBit i = if lo ≤ i ∧ i ≤ hi then v.testBit (i - lo) else w.toNat.testBit i := by
  have hbit : ∀ u : Word, u.toNat.testBit i = (fieldOf u i i).testBit 0 := fun u => by
    rw [fieldOf, testBit_bitsOf, Nat.add_zero, decide_eq_true (le_refl i), Bool.true_and]
  split
  next hin =>
    have hfield := congrArg (fun n => n.testBit (i - lo)) (fieldOf_setField_same w hi lo v h h64)
    simp only [fieldOf, testBit_bitsOf, Nat.testBit_mod_two_pow] at hfield
    rw [show lo + (i - lo) = i by omega, decide_eq_true hin.2, Bool.true_and, decide_eq_true (by omega), Bool.true_and] at hfield
    exact hfield
  next hout =>
    rw [hbit, hbit]
    by_cases hlow : i < lo
    · rw [fieldOf_setField_below w hi lo v i i h h64 hlow]
    · rw [fieldOf_setField_above w hi lo v i i h h64 (by omega)]

/-- A field that reads zero still does when another one is set to zero. -/
theorem State.rd_wr_zero {s : State} {f g : RF} (hf : f.lo ≤ f.hi ∧ f.hi < 64) (h : s.rd g = 0) : (s.wr f 0).rd g = 0 := by
  by_cases ho : g.off = f.off
  · have hzero : ∀ i, g.lo ≤ i → i ≤ g.hi → (s.reg f.off).toNat.testBit i = false := fun i h1 h2 => by
      have hbit := congrArg (fun n => n.testBit (i - g.lo)) h
      simp only [State.rd, fieldOf, testBit_bitsOf, Nat.zero_testBit, ho] at hbit
      rwa [show g.lo + (i - g.lo) = i by omega, decide_eq_true h2, Bool.true_and] at hbit
    rw [State.rd, ho, State.wr, State.reg_setReg_same, fieldOf]
    have hbits : bitsOf (setField (s.reg f.off) f.hi f.lo 0).toNat g.hi g.lo = bitsOf 0 g.hi g.lo := bitsOf_congr fun i h1 h2 => by
      rw [testBit_setField _ _ hf.1 hf.2, Nat.zero_testBit, hzero i h1 h2, Nat.zero_testBit, ite_self]
    rw [hbits, bitsOf, Nat.zero_div, Nat.zero_mod]
  · rw [State.rd_wr_off _ _ _ _ ho]
    exact h

/-- Every field of a list that is cleared reads zero. -/
theorem State.rd_foldl_zero {l : List RF} (hl : ∀ f ∈ l, f.lo ≤ f.hi ∧ f.hi < 64) (s : State) {g : RF} (h : g ∈ l ∨ s.rd g = 0) :
    (l.foldl (fun s f => s.wr f 0) s).rd g = 0 := by
  induction l generalizing s with
  | nil => exact h.resolve_left (by simp)
  | cons f l ih =>
    have hf := hl f List.mem_cons_self
    refine ih (fun k hk => hl k (List.mem_cons_of_mem _ hk)) _ ?_
    obtain h | h := h
    · obtain rfl | h := List.mem_cons.mp h
      · exact Or.inr (by rw [State.rd_wr_same _ _ _ hf.1 hf.2, Nat.zero_mod])
      · exact Or.inl h
    · exact Or.inr (State.rd_wr_zero hf h)

/-! The rows of the registers. -/

theorem regAt_arb : (regAt INTLV_ARB).map (fun p => p.1.fields) = some [{ hi := 15, lo := 8, acc := .ro }, { hi := 5, lo := 0, acc := .rw, most := 48 }] := by
  decide +kernel

theorem regAt_scrubCtl : ∀ c : Chan, (regAt (MEMC_SCRUB_CTL c.val)).map (fun p => p.1.fields) =
    some [{ hi := 15, lo := 8, acc := .rw, least := 1, most := 255 }, { hi := 0, lo := 0, acc := .rw }] := by
  decide +kernel

theorem regAt_perfCtl : ∀ c : Chan, (regAt (MEMC_PERF_CTL c.val)).map (fun p => p.1.fields) =
    some [{ hi := 1, lo := 1, acc := .wo }, { hi := 0, lo := 0, acc := .rw }] := by
  decide +kernel

theorem regAt_inject : ∀ c : Chan, (regAt (MEMC_INJECT c.val)).map (fun p => p.1.fields) =
    some [{ hi := 8, lo := 8, acc := .rw }, { hi := 1, lo := 0, acc := .rw }] := by
  decide +kernel

/-! Writes of the whole register. -/

/-- A read-write field after a write of the whole register to a value that its table lists. -/
theorem FieldDef.write_whole {f : FieldDef} (hf : f.acc = .rw ∧ f.lo ≤ f.hi ∧ f.hi < 64) (old bits : Nat)
    (hin : f.least ≤ bitsOf bits f.hi f.lo ∧ bitsOf bits f.hi f.lo ≤ f.most) :
    (f.write old (2 ^ 64 - 1) bits).2 = false ∧ bitsOf (f.write old (2 ^ 64 - 1) bits).1 f.hi f.lo = bitsOf bits f.hi f.lo := by
  obtain ⟨hacc, hle, h64⟩ := hf
  have hmask : (2 ^ 64 - 1) &&& maskOf f.hi f.lo = maskOf f.hi f.lo := by
    rw [Nat.and_comm, Nat.and_two_pow_sub_one_eq_mod, Nat.mod_eq_of_lt]
    refine Nat.lt_of_lt_of_le ?_ (Nat.pow_le_pow_right (by decide) h64)
    rw [maskOf]
    have hpow : 2 ^ (f.hi + 1) = 2 ^ (f.hi + 1 - f.lo) * 2 ^ f.lo := by
      rw [← Nat.pow_add]
      congr 1
      omega
    rw [Nat.succ_eq_add_one, hpow]
    exact Nat.mul_lt_mul_of_pos_right (Nat.sub_lt (by positivity) (by decide)) (by positivity)
  obtain ⟨hbad, hval⟩ := FieldDef.write_rw old hmask hle hacc (bits := bits)
  rw [if_pos hin] at hval
  rw [hbad, hval, decide_eq_true hin.1, decide_eq_true hin.2]
  exact ⟨rfl, rfl⟩

/-- A word written whole. -/
theorem whole_bits {m : Master} {n : Nat} (h : n < 2 ^ 64) : (Claim.whole m (BitVec.ofNat 64 n)).bits = n := by
  show (BitVec.ofNat 64 n).toNat = n
  rw [BitVec.toNat_ofNat, Nat.mod_eq_of_lt h]

/-- A master that may write and reaches the register has its write performed, and audited. -/
theorem State.regRow_audited {s : State} {w : RegWrite} {off : Nat} (hr : Claim.Reaches s w off) (hm : s.fwOrInstaller w.m = true) (f : State → State) :
    ∃ t, s.Audited t ∧ (s.fw0 w.m = true → ∀ o, t.reg o = s.reg o) ∧ s.regRow w off (s.fwOrInstaller w.m) (fun u => f (u.auditWrite w off)) = f t := by
  obtain ⟨l, hl⟩ := s.mxcGrant_eq w.m off
  have hgrant : s.Audited (s.mxcGrant w.m off) := by
    rw [hl]
    exact State.Audited.ofGrant s l
  refine ⟨(s.mxcGrant w.m off).auditWrite w off, hgrant.trans (.auditWrite ..), fun hfw o => ?_, ?_⟩
  · have hnot : (w.m == Master.host) = false := beq_eq_false_iff_ne.mpr (fw0_not_host hfw)
    rw [State.auditWrite, hnot, hl]
    rfl
  · rw [hm, State.regRow_reaches hr]

/-! Writes of the interleave and of a channel (R46, R50 to R52, R74, R87 to R90). -/

section
variable {m : Master} {s : State}

/-- LOCAL_SHARE written (R46, R52). -/
theorem execIntlvArbWrite_share {share : Nat} (h : share < 49) (hr : Claim.Reaches s (Claim.whole m (BitVec.ofNat 64 share)) INTLV_ARB)
    (hm : s.fwOrInstaller m = true) :
    ∃ t, execIntlvArbWrite (Claim.whole m (BitVec.ofNat 64 share)) s = .next t ∧ t.rd INTLV_ARB_LOCAL_SHARE = share ∧ t.chans = s.chans ∧ t.mem = s.mem
      ∧ (s.fw0 m = true → Claim.RegsBut s t INTLV_ARB (INTLV_ARB + 8)) := by
  obtain ⟨u, haudit, hfw, hrow⟩ := State.regRow_audited hr hm (fun u => u.applyWrite INTLV_ARB (2 ^ 64 - 1) share)
  obtain ⟨w, hin, -, hwrite⟩ := u.applyWrite_fields regAt_arb (by decide) (by decide) (2 ^ 64 - 1) share
  have hval : bitsOf share 5 0 = share := by
    simp only [bitsOf]
    omega
  obtain ⟨hgood, hfield⟩ := FieldDef.write_whole (f := { hi := 5, lo := 0, acc := .rw, most := 48 }) (by decide) (u.reg INTLV_ARB).toNat share
    (by rw [hval]; exact ⟨Nat.zero_le _, by show share ≤ 48; omega⟩)
  have hro : (FieldDef.write { hi := 15, lo := 8, acc := .ro } (u.reg INTLV_ARB).toNat (2 ^ 64 - 1) share).2 = false := rfl
  have hany : [({ hi := 15, lo := 8, acc := .ro } : FieldDef), { hi := 5, lo := 0, acc := .rw, most := 48 }].any
      (fun f => (f.write (u.reg INTLV_ARB).toNat (2 ^ 64 - 1) share).2) = false := by
    rw [List.any_cons, List.any_cons, hro, hgood]
    rfl
  rw [hany] at hwrite
  have hexec : execIntlvArbWrite (Claim.whole m (BitVec.ofNat 64 share)) s = .next (u.setReg INTLV_ARB w) := by
    rw [execIntlvArbWrite, whole_bits (by omega)]
    exact congrArg Host.Outcome.next (hrow.trans hwrite)
  refine ⟨_, hexec, ?_, haudit.chans, haudit.mem, fun hf o ho => ?_⟩
  · rw [State.rd, INTLV_ARB_LOCAL_SHARE, State.reg_setReg_same]
    exact (hin _ (by decide)).trans (hfield.trans hval)
  · rw [State.reg_setReg_other _ _ _ _ (by omega)]
    exact hfw hf o

/-- Only the lag register and the clock of a channel's scrub may have changed. -/
structure State.Synced (c : Nat) (s t : State) : Prop where
  regs : ∀ o, o ≠ MEMC_SCRUB_LAG c → t.reg o = s.reg o
  period : (t.chan c).scrubPeriod = (s.chan c).scrubPeriod
  mem : t.mem = s.mem
  srcLast : t.srcLast = s.srcLast

theorem State.Synced.wr {s t : State} {c : Nat} (h : s.Synced c t) {f : RF} (hf : f.off = MEMC_SCRUB_LAG c) (v : Nat) : s.Synced c (t.wr f v) :=
  ⟨fun o ho => (State.reg_wr_other t f v o (by rw [hf]; exact ho)).trans (h.regs o ho), h.period, h.mem, h.srcLast⟩

theorem State.Synced.setChan (s : State) {c : Nat} {x : Channel} (h : x.scrubPeriod = (s.chan c).scrubPeriod) : s.Synced c (s.setChan c x) :=
  ⟨fun _ _ => rfl, by rw [State.chan_setChan_same, h], rfl, rfl⟩

/-- The schedule of a channel's scrub is brought up to date (R72). -/
theorem State.scrubSync_synced (s : State) (c : Nat) : s.Synced c (s.scrubSync c) := by
  unfold State.scrubSync
  extract_lets x run t0 s1 target lag s2
  have h1 : s.Synced c s1 := State.Synced.setChan s rfl
  have h2 : s.Synced c s2 := h1.wr rfl _
  clear_value s2
  split
  · exact h2.wr rfl 0
  · split
    · exact h2.wr rfl 1
    · exact h2

/-- MEMC_SCRUB_CTL written, up to the row's effect (R74, R87). -/
theorem execScrubCtlWrite_row {ch : Chan} {n : Nat} (hn : n < 2 ^ 64) (hr : Claim.Reaches s (Claim.whole m (BitVec.ofNat 64 n)) (MEMC_SCRUB_CTL ch.val))
    (hm : s.fwOrInstaller m = true) :
    ∃ u : State, execScrubCtlWrite ch (Claim.whole m (BitVec.ofNat 64 n)) s = .next (u.applyWrite (MEMC_SCRUB_CTL ch.val) (2 ^ 64 - 1) n)
      ∧ (∀ o, o ≠ LCS_AUDIT → o ≠ PWR_DOMAIN_HI → o ≠ MEMC_SCRUB_LAG ch.val → u.reg o = s.reg o)
      ∧ (u.chan ch.val).scrubPeriod = (s.chan ch.val).scrubPeriod ∧ u.mem = s.mem ∧ u.srcLast = s.srcLast := by
  obtain ⟨u, haudit, -, hrow⟩ := State.regRow_audited hr hm (fun u => (u.scrubSync ch.val).applyWrite (MEMC_SCRUB_CTL ch.val) (2 ^ 64 - 1) n)
  obtain ⟨hreg, hchan, hmem, hsrc⟩ := u.scrubSync_synced ch.val
  refine ⟨u.scrubSync ch.val, ?_, fun o h1 h2 h3 => (hreg o h3).trans (haudit.regs o h1 h2), hchan.trans ?_, hmem.trans haudit.mem, hsrc.trans haudit.srcLast⟩
  · rw [execScrubCtlWrite, whole_bits hn]
    exact congrArg Host.Outcome.next hrow
  · rw [State.chan, State.chan, haudit.chans]

/-- A scrub period and ENABLE written (R74, R87). -/
theorem execScrubCtlWrite_spec {ch : Chan} {period en : Nat} (hp : 0 < period ∧ period < 256) (hen : en < 2)
    (hr : Claim.Reaches s (Claim.whole m (BitVec.ofNat 64 (256 * period + en))) (MEMC_SCRUB_CTL ch.val)) (hm : s.fwOrInstaller m = true) :
    ∃ t, execScrubCtlWrite ch (Claim.whole m (BitVec.ofNat 64 (256 * period + en))) s = .next t ∧ t.rd (MEMC_SCRUB_CTL_PERIOD_H ch.val) = period
      ∧ t.rd (MEMC_SCRUB_CTL_ENABLE ch.val) = en ∧ (t.chan ch.val).scrubPeriod = (s.chan ch.val).scrubPeriod
      ∧ t.rd (MEMC_SCRUB_POS_POSITION ch.val) = s.rd (MEMC_SCRUB_POS_POSITION ch.val) ∧ t.mem = s.mem := by
  obtain ⟨u, hexec, hreg, hchan, hmem, -⟩ := execScrubCtlWrite_row (n := 256 * period + en) (by omega) hr hm
  obtain ⟨w, hin, -, hwrite⟩ := u.applyWrite_fields (regAt_scrubCtl ch) (by decide) (by decide) (2 ^ 64 - 1) (256 * period + en)
  have hpv : bitsOf (256 * period + en) 15 8 = period := by
    simp only [bitsOf]
    omega
  have hev : bitsOf (256 * period + en) 0 0 = en := by
    simp only [bitsOf]
    omega
  obtain ⟨hgoodP, hfieldP⟩ := FieldDef.write_whole (f := { hi := 15, lo := 8, acc := .rw, least := 1, most := 255 }) (by decide)
    (u.reg (MEMC_SCRUB_CTL ch.val)).toNat (256 * period + en) (by rw [hpv]; exact ⟨hp.1, by show period ≤ 255; omega⟩)
  obtain ⟨hgoodE, hfieldE⟩ := FieldDef.write_whole (f := { hi := 0, lo := 0, acc := .rw }) (by decide)
    (u.reg (MEMC_SCRUB_CTL ch.val)).toNat (256 * period + en) (by rw [hev]; exact ⟨Nat.zero_le _, by show en ≤ 2 ^ 64; omega⟩)
  have hany : [({ hi := 15, lo := 8, acc := .rw, least := 1, most := 255 } : FieldDef), { hi := 0, lo := 0, acc := .rw }].any
      (fun f => (f.write (u.reg (MEMC_SCRUB_CTL ch.val)).toNat (2 ^ 64 - 1) (256 * period + en)).2) = false := by
    rw [List.any_cons, List.any_cons, hgoodP, hgoodE]
    rfl
  rw [hany, if_neg (by decide)] at hwrite
  rw [hwrite] at hexec
  have hrd : ∀ hi lo, (u.setReg (MEMC_SCRUB_CTL ch.val) w).rd ⟨MEMC_SCRUB_CTL ch.val, hi, lo⟩ = fieldOf w hi lo := fun hi lo => by
    rw [State.rd, State.reg_setReg_same]
  have hc := ch.isLt
  refine ⟨_, hexec, (hrd 15 8).trans ((hin _ (by decide)).trans (hfieldP.trans hpv)), (hrd 0 0).trans ((hin _ (by decide)).trans (hfieldE.trans hev)),
    hchan, ?_, hmem⟩
  rw [State.rd, State.rd, MEMC_SCRUB_POS_POSITION, State.reg_setReg_other _ _ _ _ (by simp only [MEMC_SCRUB_POS, MEMC_SCRUB_CTL]; omega),
    hreg _ (by simp only [MEMC_SCRUB_POS, LCS_AUDIT]; omega) (by simp only [MEMC_SCRUB_POS, PWR_DOMAIN_HI]; omega)
      (by simp only [MEMC_SCRUB_POS, MEMC_SCRUB_LAG]; omega)]

/-- A scrub period of 0 is kept out and recorded (R9, R87). -/
theorem execScrubCtlWrite_zero {ch : Chan} {en : Nat} (hen : en < 2) (hr : Claim.Reaches s (Claim.whole m (BitVec.ofNat 64 en)) (MEMC_SCRUB_CTL ch.val))
    (hm : s.fwOrInstaller m = true) (hfirst : Claim.First s 637) (ha : Claim.Alive s 637) :
    ∃ t, execScrubCtlWrite ch (Claim.whole m (BitVec.ofNat 64 en)) s = .next t
      ∧ t.rd (MEMC_SCRUB_CTL_PERIOD_H ch.val) = s.rd (MEMC_SCRUB_CTL_PERIOD_H ch.val) ∧ t.rd (MEMC_SCRUB_CTL_ENABLE ch.val) = en
      ∧ (t.tlog.getLast?).map (fun r => (r.source, r.addr)) = some (637, MEMC_SCRUB_CTL ch.val) := by
  obtain ⟨u, hexec, hreg, -, -, hsrc⟩ := execScrubCtlWrite_row (n := en) (by omega) hr hm
  obtain ⟨w, hin, -, hwrite⟩ := u.applyWrite_fields (regAt_scrubCtl ch) (by decide) (by decide) (2 ^ 64 - 1) en
  have hpv : bitsOf en 15 8 = 0 := by
    simp only [bitsOf]
    omega
  have hev : bitsOf en 0 0 = en := by
    simp only [bitsOf]
    omega
  obtain ⟨hbad, hfieldP⟩ := FieldDef.write_rw (f := { hi := 15, lo := 8, acc := .rw, least := 1, most := 255 }) (mask := 2 ^ 64 - 1) (bits := en)
    (u.reg (MEMC_SCRUB_CTL ch.val)).toNat (by decide) (by decide) rfl
  obtain ⟨-, hfieldE⟩ := FieldDef.write_whole (f := { hi := 0, lo := 0, acc := .rw }) (by decide)
    (u.reg (MEMC_SCRUB_CTL ch.val)).toNat en (by rw [hev]; exact ⟨Nat.zero_le _, by show en ≤ 2 ^ 64; omega⟩)
  simp only [hpv] at hbad hfieldP
  rw [if_neg (by omega)] at hfieldP
  have hany : [({ hi := 15, lo := 8, acc := .rw, least := 1, most := 255 } : FieldDef), { hi := 0, lo := 0, acc := .rw }].any
      (fun f => (f.write (u.reg (MEMC_SCRUB_CTL ch.val)).toNat (2 ^ 64 - 1) en).2) = true :=
    List.any_eq_true.mpr ⟨_, List.mem_cons_self, hbad⟩
  rw [hany, if_pos rfl] at hwrite
  rw [hwrite] at hexec
  have hc := ch.isLt
  have hrange : 0x100000 ≤ MEMC_SCRUB_CTL ch.val := by
    simp only [MEMC_SCRUB_CTL]
    omega
  have hctl : u.reg (MEMC_SCRUB_CTL ch.val) = s.reg (MEMC_SCRUB_CTL ch.val) :=
    hreg _ (by simp only [LCS_AUDIT]; omega) (by simp only [PWR_DOMAIN_HI]; omega) (by simp only [MEMC_SCRUB_CTL, MEMC_SCRUB_LAG]; omega)
  have halive : Claim.Alive (u.setReg (MEMC_SCRUB_CTL ch.val) w) 637 := by
    rw [Claim.Alive, State.rd, FLT_SRC_CLASS, State.reg_setReg_other _ _ _ _ (by simp only [FLT_SRC]; omega),
      hreg _ (by simp only [FLT_SRC, LCS_AUDIT]; omega) (by simp only [FLT_SRC, PWR_DOMAIN_HI]; omega) (by simp only [FLT_SRC, MEMC_SCRUB_LAG]; omega)]
    exact ha
  have hfirst' : Claim.First (u.setReg (MEMC_SCRUB_CTL ch.val) w) 637 := by
    show tabFind u.srcLast 637 = none
    rw [hsrc]
    exact hfirst
  obtain ⟨hnoted, -, hlog⟩ := State.regRecord_spec halive hfirst' (MEMC_SCRUB_CTL ch.val) en
  have hrd : ∀ hi lo, ((u.setReg (MEMC_SCRUB_CTL ch.val) w).regRecord (MEMC_SCRUB_CTL ch.val) en).rd ⟨MEMC_SCRUB_CTL ch.val, hi, lo⟩ = fieldOf w hi lo :=
    fun hi lo => by
      have hnolog : ¬ logReg 637 (MEMC_SCRUB_CTL ch.val) := not_logReg_low (Or.inr (by omega)) (by decide)
      have hnopin : ¬ (0xb4000 ≤ MEMC_SCRUB_CTL ch.val ∧ MEMC_SCRUB_CTL ch.val < 0xb4100) := by omega
      rw [hnoted.rd (f := ⟨MEMC_SCRUB_CTL ch.val, hi, lo⟩) hnolog hnopin, State.rd, State.reg_setReg_same]
  refine ⟨_, hexec, (hrd 15 8).trans ((hin _ (by decide)).trans (hfieldP.trans ?_)), (hrd 0 0).trans ((hin _ (by decide)).trans (hfieldE.trans hev)), hlog⟩
  rw [hctl]
  rfl

/-- A clear of the counters that a write of MEMC_PERF_CTL names (R50, R88). -/
def State.perfCleared (s : State) (c : Nat) (clear : Bool) : State := if clear then (memcCounters c).foldl (fun s f => s.wr f 0) s else s

/-- The places of the counters in a channel's block. -/
def counterPlaces : List (Nat × Nat × Nat) := [(0x100010, 63, 0), (0x100018, 63, 0), (0x100020, 63, 0), (0x100028, 63, 32), (0x100028, 31, 0),
  (0x100030, 63, 32), (0x100030, 31, 0), (0x100038, 63, 0), (0x100100, 63, 32), (0x100100, 31, 0), (0x100108, 63, 32), (0x100108, 31, 0), (0x100120, 63, 48)]

theorem memcCounters_eq (c : Nat) : memcCounters c = counterPlaces.map (fun x => ⟨x.1 + 0x10000 * c, x.2.1, x.2.2⟩) := rfl

theorem State.perfCleared_spec (s : State) (c : Nat) : (∀ f ∈ memcCounters c, (s.perfCleared c true).rd f = 0)
    ∧ (s.perfCleared c true).reg (MEMC_PERF_CTL c) = s.reg (MEMC_PERF_CTL c) ∧ (s.perfCleared c true).mem = s.mem := by
  have hplaces : ∀ x ∈ counterPlaces, (x.2.2 ≤ x.2.1 ∧ x.2.1 < 64) ∧ x.1 ≠ 0x100008 := by decide
  have hvalid : ∀ f ∈ memcCounters c, f.lo ≤ f.hi ∧ f.hi < 64 := by
    rw [memcCounters_eq]
    intro f hf
    obtain ⟨x, hx, rfl⟩ := List.mem_map.mp hf
    exact (hplaces x hx).1
  have hoff : ∀ f ∈ memcCounters c, MEMC_PERF_CTL c ≠ f.off := by
    rw [memcCounters_eq]
    intro f hf
    obtain ⟨x, hx, rfl⟩ := List.mem_map.mp hf
    have := (hplaces x hx).2
    simp only [MEMC_PERF_CTL]
    omega
  refine ⟨fun f hf => State.rd_foldl_zero hvalid s (Or.inl hf), ?_, foldl_keeps State.mem (f := fun s f => State.wr s f 0) (fun _ _ => rfl) _ s⟩
  show ((memcCounters c).foldl (fun s f => s.wr f 0) s).reg (MEMC_PERF_CTL c) = _
  generalize memcCounters c = l at hoff
  clear hvalid
  induction l generalizing s with
  | nil => rfl
  | cons f l ih =>
    rw [List.foldl_cons, ih _ (fun g hg => hoff g (List.mem_cons_of_mem _ hg)), State.reg_wr_other _ _ _ _ (hoff f List.mem_cons_self)]

/-- MEMC_PERF_CTL written (R50, R88): what a clear leaves, then ENABLE. -/
theorem execMemcPerfClear_row {ch : Chan} {en : Nat} (clear : Bool) (hen : en < 2)
    (hr : Claim.Reaches s (Claim.whole m (BitVec.ofNat 64 (b2n clear * 2 + en))) (MEMC_PERF_CTL ch.val)) :
    ∃ (l : Tab Nat) (w : Word), execMemcPerfClear ch (Claim.whole m (BitVec.ofNat 64 (b2n clear * 2 + en))) s =
        .next ((({ s with mxcLast := l } : State).perfCleared ch.val clear).setReg (MEMC_PERF_CTL ch.val) w) ∧ fieldOf w 0 0 = en := by
  have hn : b2n clear * 2 + en < 2 ^ 64 := by
    cases clear
    · show 0 * 2 + en < _
      omega
    · show 1 * 2 + en < _
      omega
  have hclear : ((Claim.whole m (BitVec.ofNat 64 (b2n clear * 2 + en))).covers (MEMC_PERF_CTL_CLEAR ch.val)
      && (Claim.whole m (BitVec.ofNat 64 (b2n clear * 2 + en))).get (MEMC_PERF_CTL_CLEAR ch.val) == 1) = clear := by
    have hcov : (Claim.whole m (BitVec.ofNat 64 (b2n clear * 2 + en))).covers (MEMC_PERF_CTL_CLEAR ch.val) = true := by
      show ((2 ^ 64 - 1 : Nat) &&& maskOf 1 1 == maskOf 1 1) = true
      decide
    rw [hcov, Bool.true_and, RegWrite.get, whole_bits hn]
    simp only [MEMC_PERF_CTL_CLEAR, bitsOf]
    cases clear
    · show (((0 * 2 + en) / 2 ^ 1 % 2 ^ (1 + 1 - 1)) == 1) = false
      rw [beq_eq_false_iff_ne]
      omega
    · show (((1 * 2 + en) / 2 ^ 1 % 2 ^ (1 + 1 - 1)) == 1) = true
      rw [beq_iff_eq]
      omega
  obtain ⟨l, hl⟩ := s.mxcGrant_eq m (MEMC_PERF_CTL ch.val)
  obtain ⟨w, hin, -, hwrite⟩ := (({ s with mxcLast := l } : State).perfCleared ch.val clear).applyWrite_fields (regAt_perfCtl ch) (by decide) (by decide)
    (2 ^ 64 - 1) (b2n clear * 2 + en)
  have hev : bitsOf (b2n clear * 2 + en) 0 0 = en := by
    simp only [bitsOf]
    omega
  obtain ⟨hgood, hfield⟩ := FieldDef.write_whole (f := { hi := 0, lo := 0, acc := .rw }) (by decide)
    ((({ s with mxcLast := l } : State).perfCleared ch.val clear).reg (MEMC_PERF_CTL ch.val)).toNat (b2n clear * 2 + en)
    (by rw [hev]; exact ⟨Nat.zero_le _, by show en ≤ 2 ^ 64; omega⟩)
  refine ⟨l, w, ?_, (hin _ (by decide)).trans (hfield.trans hev)⟩
  have hrow := State.regRow_reaches hr (fun u => (u.perfCleared ch.val clear).applyWrite (MEMC_PERF_CTL ch.val) (2 ^ 64 - 1) (b2n clear * 2 + en))
  rw [execMemcPerfClear, hclear, whole_bits hn]
  refine congrArg Host.Outcome.next (hrow.trans ?_)
  dsimp only
  rw [hl, hwrite, List.any_cons, List.any_cons, hgood]
  rfl

/-- A write of CLEAR (R50, R88). -/
theorem execMemcPerfClear_clears {ch : Chan} {en : Nat} (hen : en < 2)
    (hr : Claim.Reaches s (Claim.whole m (BitVec.ofNat 64 (b2n true * 2 + en))) (MEMC_PERF_CTL ch.val)) :
    ∃ t, execMemcPerfClear ch (Claim.whole m (BitVec.ofNat 64 (b2n true * 2 + en))) s = .next t ∧ t.rd (MEMC_PERF_CTL_ENABLE ch.val) = en
      ∧ (memcCounters ch.val).all (fun f => t.rd f == 0) = true ∧ t.mem = s.mem := by
  obtain ⟨l, x, hexec, hval⟩ := execMemcPerfClear_row true hen hr
  obtain ⟨hzero, -, hmem⟩ := ({ s with mxcLast := l } : State).perfCleared_spec ch.val
  generalize ({ s with mxcLast := l } : State).perfCleared ch.val true = u at hexec hzero hmem
  refine ⟨_, hexec, ?_, ?_, (State.setReg_mem ..).trans hmem⟩
  · rw [State.rd, MEMC_PERF_CTL_ENABLE, State.reg_setReg_same]
    exact hval
  · rw [List.all_eq_true]
    intro f hf
    have hne : f.off ≠ MEMC_PERF_CTL ch.val := by
      rw [memcCounters_eq] at hf
      obtain ⟨x, hx, rfl⟩ := List.mem_map.mp hf
      have hplaces : ∀ x ∈ counterPlaces, x.1 ≠ 0x100008 := by decide
      have := hplaces x hx
      simp only [MEMC_PERF_CTL, ne_eq]
      omega
    rw [beq_iff_eq, State.rd, State.reg_setReg_other _ _ _ _ hne]
    exact hzero f hf

/-- An injection armed (R90). -/
theorem execMemcInjectWrite_spec {ch : Chan} {kind : Nat} (hk : kind < 4)
    (hr : Claim.Reaches s (Claim.whole m (BitVec.ofNat 64 (256 + kind))) (MEMC_INJECT ch.val)) (hfw : s.fw0 m = true) (hl : s.lcs = 0 ∨ s.lcs = 3) :
    ∃ t, execMemcInjectWrite ch (Claim.whole m (BitVec.ofNat 64 (256 + kind))) s = .next t ∧ t.rd (MEMC_INJECT_ARM ch.val) = (if kind = 0 then 0 else 1)
      ∧ t.rd (MEMC_INJECT_KIND ch.val) = kind ∧ Claim.RegsBut s t (MEMC_INJECT ch.val) (MEMC_INJECT ch.val + 8) ∧ t.mem = s.mem := by
  have hright : (s.fw0 m && (s.lcs == 0 || s.lcs == 3)) = true := by
    rw [hfw, Bool.true_and, Bool.or_eq_true, beq_iff_eq, beq_iff_eq]
    exact hl
  obtain ⟨l, hgrant⟩ := s.mxcGrant_eq m (MEMC_INJECT ch.val)
  obtain ⟨w, hin, -, hwrite⟩ := ({ s with mxcLast := l } : State).applyWrite_free (regAt_inject ch) (by decide) (by decide) (2 ^ 64 - 1) (256 + kind)
  have hmerge := mergeBits_whole (new := 256 + kind) (({ s with mxcLast := l } : State).reg (MEMC_INJECT ch.val)).isLt (by omega)
  rw [hmerge] at hin
  have harm : fieldOf w 8 8 = 1 := (hin { hi := 8, lo := 8, acc := .rw } (by decide)).trans (by simp only [bitsOf]; omega)
  have hkind : fieldOf w 1 0 = kind := (hin { hi := 1, lo := 0, acc := .rw } (by decide)).trans (by simp only [bitsOf]; omega)
  have hrd : (({ s with mxcLast := l } : State).setReg (MEMC_INJECT ch.val) w).rd (MEMC_INJECT_KIND ch.val) = kind := by
    rw [State.rd, MEMC_INJECT_KIND, State.reg_setReg_same]
    exact hkind
  have hrow := State.regRow_reaches hr (fun u => if (u.applyWrite (MEMC_INJECT ch.val) (2 ^ 64 - 1) (256 + kind)).rd (MEMC_INJECT_KIND ch.val) = 0 then
    (u.applyWrite (MEMC_INJECT ch.val) (2 ^ 64 - 1) (256 + kind)).wr (MEMC_INJECT_ARM ch.val) 0 else u.applyWrite (MEMC_INJECT ch.val) (2 ^ 64 - 1) (256 + kind))
  have hexec : execMemcInjectWrite ch (Claim.whole m (BitVec.ofNat 64 (256 + kind))) s = .next (if kind = 0 then
      (({ s with mxcLast := l } : State).setReg (MEMC_INJECT ch.val) w).wr (MEMC_INJECT_ARM ch.val) 0
      else ({ s with mxcLast := l } : State).setReg (MEMC_INJECT ch.val) w) := by
    rw [execMemcInjectWrite, hright, whole_bits (by omega)]
    refine congrArg Host.Outcome.next (hrow.trans ?_)
    rw [hgrant, hwrite, hrd]
  have hbut : Claim.RegsBut s (({ s with mxcLast := l } : State).setReg (MEMC_INJECT ch.val) w) (MEMC_INJECT ch.val) (MEMC_INJECT ch.val + 8) :=
    fun o ho => State.reg_setReg_other _ _ _ _ (by omega)
  refine ⟨_, hexec, ?_⟩
  by_cases h0 : kind = 0
  · rw [if_pos h0, if_pos h0]
    exact ⟨State.rd_wr_same _ _ _ (le_refl 8) (by show 8 < 64; decide),
      (State.rd_wr_apart _ (MEMC_INJECT_ARM ch.val) (MEMC_INJECT_KIND ch.val) 0 (le_refl 8) (by show 8 < 64; decide) rfl
        (Or.inl (by show 1 < 8; decide))).trans hrd,
      fun o ho => (State.reg_wr_other _ (MEMC_INJECT_ARM ch.val) _ _ (by show o ≠ MEMC_INJECT ch.val; omega)).trans (hbut o ho), rfl⟩
  · rw [if_neg h0, if_neg h0]
    refine ⟨?_, hrd, hbut, rfl⟩
    rw [State.rd, MEMC_INJECT_ARM, State.reg_setReg_same]
    exact harm

/-- A write that its master may not make is refused, and recorded with the register's place (R25, R581). -/
theorem State.regRow_noRight {w : RegWrite} {off : Nat} (hr : Claim.Reaches s w off) (hlane : w.lane = 0) (f : State → State)
    (hfirst : Claim.First s 636) (hq : Claim.Quiet s 636) :
    (∀ o, ¬ logReg 636 o → (s.regRow w off false f).reg o = s.reg o) ∧ (s.regRow w off false f).mem = s.mem
      ∧ ((s.regRow w off false f).tlog.getLast?).map (fun r => (r.source, r.status, r.addr)) = some (636, ST_PROTECTION, regBase + off) := by
  obtain ⟨hb, hh, hl, hmxc⟩ := hr
  have hup : (w.m == Master.host && !s.hostUp) = false := by
    by_cases hm : w.m = .host
    · simp [hh hm]
    · simp [hm]
  have hwait : s.mxcWaits (s.mxcAhead w.m (off + w.lane) false) w.m off = false := by
    simpa [State.mxcWaits, State.mxcAhead, hmxc] using hl
  have hrow : s.regRow w off false f = s.refuseReg w.m off false ST_PROTECTION := by
    rw [hlane, Nat.add_zero] at hb hwait
    simp only [State.regRow, hup, hlane, Nat.add_zero, hb, hwait, Bool.false_eq_true, if_false, Bool.not_false, if_true]
  have hlog := State.Logged.refuse hq (requesterOf w.m) (regBase + off) ST_PROTECTION
  have htlog : ((s.refuse (requesterOf w.m) (regBase + off) ST_PROTECTION).tlog.getLast?).map (fun r => (r.source, r.status, r.addr))
      = some (636, ST_PROTECTION, regBase + off) := by
    rw [State.tlog_refuse hfirst, State.logWith_getLast]
    rfl
  rw [hrow]
  unfold State.refuseReg
  generalize s.refuse (requesterOf w.m) (regBase + off) ST_PROTECTION = u at hlog htlog ⊢
  cases w.m with
  | core c t => exact ⟨fun o ho => hlog.regs o ho, hlog.mem, htlog⟩
  | bmv c => exact ⟨fun o ho => hlog.regs o ho, hlog.mem, htlog⟩
  | host => exact ⟨fun o ho => hlog.regs o ho, hlog.mem, htlog⟩
  | gloley => exact ⟨fun o ho => hlog.regs o ho, hlog.mem, htlog⟩

end

/-! The tail area (R248 to R250). -/

/-- The word that a write of INTLV_TAIL_SIZE asks for, whole or by half. -/
def tailSizeAsked (old : Nat) (v : Word) (lane width : Nat) : Nat :=
  (if width = 8 then v.toNat else if lane = 0 then old / 2 ^ 32 * 2 ^ 32 + v.toNat % 2 ^ 32
    else v.toNat % 2 ^ 32 * 2 ^ 32 + old % 2 ^ 32) % 2 ^ 42

theorem testBit_low_high {a b i : Nat} (hb : b < 2 ^ 32) : (a * 2 ^ 32 + b).testBit i = if i < 32 then b.testBit i else a.testBit (i - 32) := by
  rw [Nat.mul_comm, Nat.testBit_two_pow_mul_add _ hb]

/-- The bits of the size: those of the write where it addresses them, the old ones elsewhere. -/
theorem tailSize_bits {n : Nat} {m : Master} {v : Word} {lane width : Nat} (h : (lane, width) ∈ [(0, 8), (0, 4), (4, 4)]) :
    bitsOf (mergeBits n (RegWrite.mk m lane width v).bits (RegWrite.mk m lane width v).mask) 41 0 = tailSizeAsked (bitsOf n 41 0) v lane width := by
  have hbit : ∀ n i, (bitsOf n 41 0).testBit i = (decide (i < 42) && n.testBit i) := fun n i => by
    rw [testBit_bitsOf, Nat.zero_add, decide_eq_decide.mpr (show i ≤ 41 ↔ i < 42 by omega)]
  have hlow : ∀ x : Nat, x % 2 ^ 32 < 2 ^ 32 := fun x => Nat.mod_lt _ (by decide)
  refine Nat.eq_of_testBit_eq fun i => (hbit _ i).trans ?_
  rw [tailSizeAsked, Nat.testBit_mod_two_pow]
  by_cases hi : i < 42
  · have hold : n.testBit i = (bitsOf n 41 0).testBit i := by rw [hbit, decide_eq_true hi, Bool.true_and]
    generalize bitsOf n 41 0 = old at hold
    rw [decide_eq_true hi, Bool.true_and, Bool.true_and, testBit_mergeBits, hold]
    simp only [List.mem_cons, Prod.mk.injEq, List.not_mem_nil, or_false] at h
    obtain ⟨rfl, rfl⟩ | ⟨rfl, rfl⟩ | ⟨rfl, rfl⟩ := h
    · have hmask : ((RegWrite.mk m 0 8 v).mask).testBit i = true := by
        rw [show (RegWrite.mk m 0 8 v).mask = 2 ^ 64 - 1 from rfl, Nat.testBit_two_pow_sub_one]
        exact decide_eq_true (by omega)
      rw [hmask, if_pos rfl, if_pos rfl]
      rfl
    · have hmask : ((RegWrite.mk m 0 4 v).mask).testBit i = decide (i < 32) := by
        rw [show (RegWrite.mk m 0 4 v).mask = 2 ^ 32 - 1 from rfl, Nat.testBit_two_pow_sub_one]
      have hbits : (RegWrite.mk m 0 4 v).bits = v.toNat % 2 ^ 32 := Nat.mul_one _
      rw [hmask, hbits, if_neg (show ¬ 4 = 8 by decide), if_pos rfl, testBit_low_high (hlow _), Nat.testBit_div_two_pow]
      by_cases h32 : i < 32
      · rw [if_pos (decide_eq_true h32), if_pos h32]
      · rw [if_neg (by rwa [decide_eq_true_eq]), if_neg h32, Nat.sub_add_cancel (Nat.le_of_not_lt h32)]
    · have hmask : ((RegWrite.mk m 4 4 v).mask).testBit i = decide (32 ≤ i) := by
        have hhigh : (RegWrite.mk m 4 4 v).mask = maskOf 63 32 := by
          rw [RegWrite.mask, if_neg (show ¬ 4 = 8 by decide)]
          rfl
        rw [hhigh, testBit_maskOf, decide_eq_decide]
        omega
      have hbits : (RegWrite.mk m 4 4 v).bits = v.toNat % 2 ^ 32 * 2 ^ 32 := by
        rw [RegWrite.bits, if_neg (show ¬ 4 = 8 by decide)]
        rfl
      rw [hmask, hbits, if_neg (show ¬ 4 = 8 by decide), if_neg (show ¬ 4 = 0 by decide), testBit_low_high (hlow _), Nat.testBit_mul_two_pow,
        Nat.testBit_mod_two_pow]
      by_cases h32 : i < 32
      · rw [if_neg (by rw [decide_eq_true_eq]; omega), if_pos h32, Nat.testBit_mod_two_pow, decide_eq_true h32, Bool.true_and]
      · have hge : 32 ≤ i := Nat.le_of_not_lt h32
        rw [if_pos (decide_eq_true hge), if_neg h32, decide_eq_true hge, Bool.true_and]
  · rw [decide_eq_false hi, Bool.false_and, Bool.false_and]

theorem State.after_tailSize {s : State} {m : Master} {v : Word} {lane width : Nat} (h : (lane, width) ∈ [(0, 8), (0, 4), (4, 4)]) :
    s.after ⟨m, lane, width, v⟩ INTLV_TAIL_SIZE_SIZE = tailSizeAsked (s.rd INTLV_TAIL_SIZE_SIZE) v lane width := tailSize_bits h

section
variable {m : Master} {s : State} {v : Word} {lane width : Nat}

/-- A write of INTLV_TAIL_SIZE, up to the check of the new area (R248). -/
theorem execTailSizeWrite_row (hm : s.fwOrInstaller m = true) (hl : (lane, width) ∈ [(0, 8), (0, 4), (4, 4)])
    (hr : Claim.Reaches s ⟨m, lane, width, v⟩ INTLV_TAIL_SIZE) :
    ∃ u, s.Audited u ∧ execTailSizeWrite ⟨m, lane, width, v⟩ s = .next
      (if s.rd INTLV_TAIL_BASE_BASE % 0x6000 ≠ 0 || tailSizeAsked (s.rd INTLV_TAIL_SIZE_SIZE) v lane width % 0x6000 ≠ 0
          || 0x30000000000 < s.rd INTLV_TAIL_BASE_BASE + tailSizeAsked (s.rd INTLV_TAIL_SIZE_SIZE) v lane width then
        u.regRecord INTLV_TAIL_SIZE (RegWrite.mk m lane width v).bits
      else (({ u with tailNext := s.rd INTLV_TAIL_BASE_BASE } : State).wr INTLV_TAIL_SIZE_SIZE
        (tailSizeAsked (s.rd INTLV_TAIL_SIZE_SIZE) v lane width)).wr INTLV_TAIL_SIZE_PENDING 1) := by
  obtain ⟨u, haudit, -, hrow⟩ := State.regRow_audited hr hm (fun u =>
    if u.rd INTLV_TAIL_BASE_BASE % 0x6000 ≠ 0 || u.after ⟨m, lane, width, v⟩ INTLV_TAIL_SIZE_SIZE % 0x6000 ≠ 0
        || 0x30000000000 < u.rd INTLV_TAIL_BASE_BASE + u.after ⟨m, lane, width, v⟩ INTLV_TAIL_SIZE_SIZE then
      u.regRecord INTLV_TAIL_SIZE (RegWrite.mk m lane width v).bits
    else (({ u with tailNext := u.rd INTLV_TAIL_BASE_BASE } : State).wr INTLV_TAIL_SIZE_SIZE
      (u.after ⟨m, lane, width, v⟩ INTLV_TAIL_SIZE_SIZE)).wr INTLV_TAIL_SIZE_PENDING 1)
  have hbase : u.rd INTLV_TAIL_BASE_BASE = s.rd INTLV_TAIL_BASE_BASE := haudit.rd (by decide) (by decide)
  have hsize : u.rd INTLV_TAIL_SIZE_SIZE = s.rd INTLV_TAIL_SIZE_SIZE := haudit.rd (by decide) (by decide)
  rw [State.after_tailSize hl, hbase, hsize] at hrow
  exact ⟨u, haudit, congrArg Host.Outcome.next hrow⟩

end

theorem State.Noted.tailNext {n : Nat} {s t : State} (h : s.Noted n t) : t.tailNext = s.tailNext := by rw [h.rest]
theorem State.Noted.tailArea {n : Nat} {s t : State} (h : s.Noted n t) : t.tailArea = s.tailArea := by rw [h.rest]

/-- A new area is pending (R250). -/
theorem State.tailPending_spec {s u : State} {base size : Nat} (h : s.Audited u) (hlt : size < 2 ^ 42) :
    ((({ u with tailNext := base } : State).wr INTLV_TAIL_SIZE_SIZE size).wr INTLV_TAIL_SIZE_PENDING 1).rd INTLV_TAIL_SIZE_SIZE = size
      ∧ ((({ u with tailNext := base } : State).wr INTLV_TAIL_SIZE_SIZE size).wr INTLV_TAIL_SIZE_PENDING 1).rd INTLV_TAIL_SIZE_PENDING = 1
      ∧ ((({ u with tailNext := base } : State).wr INTLV_TAIL_SIZE_SIZE size).wr INTLV_TAIL_SIZE_PENDING 1).tailNext = base
      ∧ ((({ u with tailNext := base } : State).wr INTLV_TAIL_SIZE_SIZE size).wr INTLV_TAIL_SIZE_PENDING 1).tailArea = s.tailArea
      ∧ ((({ u with tailNext := base } : State).wr INTLV_TAIL_SIZE_SIZE size).wr INTLV_TAIL_SIZE_PENDING 1).mem = s.mem := by
  refine ⟨?_, State.rd_wr_same _ _ _ (by decide) (by decide), rfl, ?_, ?_⟩
  · rw [State.rd_wr_apart _ INTLV_TAIL_SIZE_PENDING INTLV_TAIL_SIZE_SIZE 1 (by decide) (by decide) rfl (Or.inl (by decide)),
      State.rd_wr_same _ INTLV_TAIL_SIZE_SIZE _ (by decide) (by decide)]
    exact Nat.mod_eq_of_lt hlt
  · rw [State.wr_tailArea, State.wr_tailArea]
    exact h.tailArea
  · rw [State.wr_mem, State.wr_mem]
    exact h.mem

/-- The area takes effect (R250). -/
theorem execTailAreaApply_spec {s : State} (hp : s.rd INTLV_TAIL_SIZE_PENDING = 1) (ht : s.tail = []) :
    ∃ t, execTailAreaApply s = .next t ∧ t.tailArea = (s.tailNext, s.rd INTLV_TAIL_SIZE_SIZE) ∧ t.rd INTLV_TAIL_SIZE_PENDING = 0
      ∧ t.rd INTLV_TAIL_SIZE_SIZE = s.rd INTLV_TAIL_SIZE_SIZE ∧ t.mem = s.mem := by
  have happly : (s.on INTLV_TAIL_SIZE_PENDING && s.tail.isEmpty) = true := by
    rw [State.on_of_one hp, ht]
    rfl
  refine ⟨_, congrArg Host.Outcome.next (if_pos happly), ?_⟩
  have hstat : ∀ u : State, u.tailStat.tailArea = u.tailArea ∧ u.tailStat.mem = u.mem ∧ ∀ o, o ≠ INTLV_TAIL_STAT → u.tailStat.reg o = u.reg o := by
    intro u
    unfold State.tailStat State.peak
    extract_lets cap held level
    split
    · exact ⟨rfl, rfl, fun o ho => (State.reg_wr_other _ INTLV_TAIL_STAT_PEAK _ _ ho).trans (State.reg_wr_other _ INTLV_TAIL_STAT_LEVEL _ _ ho)⟩
    · exact ⟨rfl, rfl, fun o ho => State.reg_wr_other _ INTLV_TAIL_STAT_LEVEL _ _ ho⟩
  obtain ⟨harea, hmem, hreg⟩ := hstat (({ s with tailArea := (s.tailNext, s.rd INTLV_TAIL_SIZE_SIZE) } : State).wr INTLV_TAIL_SIZE_PENDING 0)
  have hrd : ∀ hi lo, _ = (({ s with tailArea := (s.tailNext, s.rd INTLV_TAIL_SIZE_SIZE) } : State).wr INTLV_TAIL_SIZE_PENDING 0).rd ⟨INTLV_TAIL_SIZE, hi, lo⟩ :=
    fun hi lo => congrArg (fun w => fieldOf w hi lo) (hreg INTLV_TAIL_SIZE (by decide))
  refine ⟨harea, (hrd 63 63).trans (State.rd_wr_same _ _ _ (by decide) (by decide)), (hrd 41 0).trans ?_, hmem⟩
  exact State.rd_wr_apart _ INTLV_TAIL_SIZE_PENDING INTLV_TAIL_SIZE_SIZE 0 (by decide) (by decide) rfl (Or.inl (by decide))

end Sys2Proof.Machine

section
open Sys2Proof.Machine Sys2Proof.Machine.Reg Sys2Proof.Claim
namespace Sys2Proof.Machine

/-- R46, R50 to R52, R74, R87 to R90. -/
theorem memoryControl : Claim.MemoryControl := by
  intro m s ch share period en kind c w
  refine ⟨fun hr hm => ?_, fun hr hm => ⟨fun h0 => ?_, fun hfirst ha => ?_⟩, fun hr => ⟨?_, ?_⟩, fun hr hfw hl => ?_, fun hr hno hfirst hq => ?_⟩
  · obtain ⟨t, hexec, hshare, hchans, hmem, hbut⟩ := execIntlvArbWrite_share share.isLt hr hm
    refine ⟨t, hexec, hshare, hchans, ?_, hmem, hbut⟩
    rw [State.window, State.chan, hchans, hshare]
    rfl
  · exact execScrubCtlWrite_spec ⟨Nat.pos_of_ne_zero fun h => h0 (Fin.ext h), period.isLt⟩ en.isLt hr hm
  · exact execScrubCtlWrite_zero en.isLt hr hm hfirst ha
  · exact execMemcPerfClear_clears en.isLt hr
  · obtain ⟨l, x, hexec, hen⟩ := execMemcPerfClear_row false en.isLt hr
    have hzero : b2n false * 2 + en.val = en.val := Nat.zero_add _
    rw [hzero] at hexec
    refine ⟨_, hexec, ?_, fun o ho => State.reg_setReg_other _ _ _ _ (fun h => by
      have ho' : o < MEMC_PERF_CTL ch.val ∨ MEMC_PERF_CTL ch.val + 8 ≤ o := ho
      omega), rfl⟩
    rw [State.rd, MEMC_PERF_CTL_ENABLE, State.reg_setReg_same]
    exact hen
  · obtain ⟨t, hexec, harm, hkind, hbut, hmem⟩ := execMemcInjectWrite_spec kind.isLt hr hfw hl
    refine ⟨t, hexec, harm.trans ?_, hkind, hbut, hmem⟩
    simp only [Fin.ext_iff, Fin.val_zero]
  · have hright : (s.fw0 m && (s.lcs == 0 || s.lcs == 3)) = false := by
      obtain h | ⟨h0, h3⟩ := hno
      · rw [h, Bool.false_and]
      · rw [beq_eq_false_iff_ne.mpr h0, beq_eq_false_iff_ne.mpr h3, Bool.or_false, Bool.and_false]
    have hc := ch.isLt
    obtain ⟨hreg, hmem, hlog⟩ := State.regRow_noRight (w := w (256 + kind.val)) hr rfl _ hfirst hq
    refine ⟨_, (by
      change execMemcInjectWrite ch (w (256 + kind.val)) s = _
      rw [execMemcInjectWrite, show (s.fw0 (w (256 + kind.val)).m && (s.lcs == 0 || s.lcs == 3)) = false from hright]), hreg _ ?_, hmem, hlog⟩
    exact not_logReg_low (Or.inr (by simp only [MEMC_INJECT]; omega)) (by decide)

/-- R248 to R250. -/
theorem tailArea : Claim.TailArea := by
  intro m s v lane width w old size base may
  refine ⟨fun ⟨hm, hl, hr⟩ hb hs hfits => ?_, fun ⟨hm, hl, hr⟩ hbad hfirst ha => ?_, fun hp ht => ?_, fun hp ht => ?_⟩
  · obtain ⟨u, haudit, hexec⟩ := execTailSizeWrite_row hm hl hr
    have hgood : (decide (base % 0x6000 ≠ 0) || decide (size % 0x6000 ≠ 0) || decide (0x30000000000 < base + size)) = false := by
      simp only [hb, hs, ne_eq, not_true_eq_false, decide_false, Bool.false_or, decide_eq_false_iff_not]
      omega
    have hlt : size < 2 ^ 42 := Nat.mod_lt _ (by decide)
    refine ⟨_, hexec.trans (congrArg Host.Outcome.next (if_neg (Bool.eq_false_iff.mp hgood))), ?_⟩
    exact State.tailPending_spec haudit hlt
  · obtain ⟨u, haudit, hexec⟩ := execTailSizeWrite_row hm hl hr
    have hno : (decide (base % 0x6000 ≠ 0) || decide (size % 0x6000 ≠ 0) || decide (0x30000000000 < base + size)) = true := by
      simp only [Bool.or_eq_true, decide_eq_true_eq, or_assoc]
      exact hbad
    have halive : Claim.Alive u 637 := by
      rw [Claim.Alive, haudit.rd (by decide) (by decide)]
      exact ha
    have hfirst' : Claim.First u 637 := by
      rw [Claim.First, haudit.srcLast]
      exact hfirst
    obtain ⟨hnoted, -, hlog⟩ := State.regRecord_spec halive hfirst' INTLV_TAIL_SIZE w.bits
    refine ⟨_, hexec.trans (congrArg Host.Outcome.next (if_pos hno)), ?_, hnoted.tailNext.trans haudit.tailNext,
      hnoted.tailArea.trans haudit.tailArea, hnoted.mem.trans haudit.mem, hlog⟩
    exact (hnoted.rd (not_logReg_low (by decide) (by decide)) (by decide)).trans (haudit.rd (by decide) (by decide))
  · exact execTailAreaApply_spec hp ht
  · have hkeep : (s.on INTLV_TAIL_SIZE_PENDING && s.tail.isEmpty) = false := by
      rw [List.isEmpty_eq_false_iff.mpr ht, Bool.and_false]
    exact congrArg Host.Outcome.next (if_neg (by rw [hkeep]; exact Bool.false_ne_true))

end Sys2Proof.Machine

/-- Settles O39: a write's fields go by their access codes; the area is checked before it is pending, and applied when no record lies there. -/
theorem memoryRegisters : Obligations.MemoryRegisters := ⟨memoryControl, tailArea⟩
end
end

section
/-! PROOF. The flits of a port (R491, R492, R494, R495): what a flit's bytes say, what an idle, an accepted and a refused flit do. -/
namespace Sys2Proof.Machine
open Reg

/-! The check word, and the fields of a flit's header (R491). -/

theorem crcStep_lt {x : Nat} (hx : x < 2 ^ 64) : (if 2 ^ 63 ≤ x then (2 * x % 2 ^ 64) ^^^ 0x42F0E1EBA9EA3693 else 2 * x) < 2 ^ 64 := by
  split
  · exact Nat.xor_lt_two_pow (Nat.mod_lt _ (by decide)) (by decide)
  · omega

theorem crcByte_lt {c : Nat} (hc : c < 2 ^ 64) (b : Byte) : crcByte c b < 2 ^ 64 := by
  have hfold : ∀ (l : List Nat) (x : Nat), x < 2 ^ 64 →
      l.foldl (fun x _ => if 2 ^ 63 ≤ x then (2 * x % 2 ^ 64) ^^^ 0x42F0E1EBA9EA3693 else 2 * x) x < 2 ^ 64 := by
    intro l
    induction l with
    | nil => exact fun _ hx => hx
    | cons _ l ih =>
      intro x hx
      rw [List.foldl_cons]
      exact ih _ (crcStep_lt hx)
  have hb := b.isLt
  exact hfold _ _ (Nat.xor_lt_two_pow hc (by omega))

theorem crc64_lt (bs : List Byte) : crc64 bs < 2 ^ 64 := by
  have hfold : ∀ (l : List Byte) (c : Nat), c < 2 ^ 64 → l.foldl crcByte c < 2 ^ 64 := by
    intro l
    induction l with
    | nil => exact fun _ hc => hc
    | cons b l ih =>
      intro c hc
      rw [List.foldl_cons]
      exact ih (crcByte c b) (crcByte_lt hc b)
  rw [crc64, crc64From]
  exact hfold bs (2 ^ 64 - 1) (by decide)

/-- The operands of a flit's header lie in their fields (R491). -/
def FlitFits (kind seq ack cvc n v : Nat) : Prop := kind < 16 ∧ seq < 4096 ∧ ack < 4096 ∧ cvc < 4 ∧ n < 1024 ∧ v < 4

/-- Word 0 of a flit (R491). -/
def flitHeader (kind seq ack cvc n v : Nat) : Nat :=
  kind * 2 ^ 60 + seq % 4096 * 2 ^ 48 + ack % 4096 * 2 ^ 36 + cvc * 2 ^ 34 + n * 2 ^ 24 + v * 2 ^ 22

theorem flitHeader_lt {kind seq ack cvc n v : Nat} (h : FlitFits kind seq ack cvc n v) : flitHeader kind seq ack cvc n v < 256 ^ 8 := by
  obtain ⟨hk, hs, ha, hc, hn, hv⟩ := h
  rw [flitHeader]
  omega

theorem flitHeader_fields {kind seq ack cvc n v : Nat} (h : FlitFits kind seq ack cvc n v) :
    bitsOf (flitHeader kind seq ack cvc n v) 63 60 = kind ∧ bitsOf (flitHeader kind seq ack cvc n v) 59 48 = seq
      ∧ bitsOf (flitHeader kind seq ack cvc n v) 47 36 = ack ∧ bitsOf (flitHeader kind seq ack cvc n v) 35 34 = cvc
      ∧ bitsOf (flitHeader kind seq ack cvc n v) 33 24 = n ∧ bitsOf (flitHeader kind seq ack cvc n v) 23 22 = v := by
  obtain ⟨hk, hs, ha, hc, hn, hv⟩ := h
  simp only [bitsOf, flitHeader]
  refine ⟨?_, ?_, ?_, ?_, ?_, ?_⟩ <;> omega

variable {kind seq ack cvc n v : Nat} {body : List Byte}

theorem flitBytes_eq : flitBytes kind seq ack cvc n v body = leBytes 8 (flitHeader kind seq ack cvc n v) ++ body
    ++ leBytes 8 (crc64 (leBytes 8 (flitHeader kind seq ack cvc n v) ++ body)) := rfl

section
variable (hb : body.length = 240)
include hb

theorem flitBytes_length : (flitBytes kind seq ack cvc n v body).length = 256 := by
  rw [flitBytes_eq, List.length_append, List.length_append, leBytes_length, leBytes_length, hb]

theorem flitBytes_checked :
    crc64 ((flitBytes kind seq ack cvc n v body).take 248) = leNat ((flitBytes kind seq ack cvc n v body).drop 248) := by
  have hlen : (leBytes 8 (flitHeader kind seq ack cvc n v) ++ body).length = 248 := by rw [List.length_append, leBytes_length, hb]
  rw [flitBytes_eq, List.take_left' hlen, List.drop_left' hlen, leNat_leBytes]
  exact (Nat.mod_eq_of_lt (crc64_lt _)).symm

theorem flitBytes_body : ((flitBytes kind seq ack cvc n v body).drop 8).take 240 = body := by
  rw [flitBytes_eq, List.append_assoc, List.drop_left' (leBytes_length 8 _), List.take_left' hb]

end

theorem flitBytes_header (h : FlitFits kind seq ack cvc n v) :
    leNat ((flitBytes kind seq ack cvc n v body).take 8) = flitHeader kind seq ack cvc n v := by
  rw [flitBytes_eq, List.append_assoc, List.take_left' (leBytes_length 8 _), leNat_leBytes]
  exact Nat.mod_eq_of_lt (flitHeader_lt h)

theorem State.rxFlit_idle (s : State) (p : Nat) (h : FlitFits 0 seq ack cvc n v) (hb : body.length = 240) :
    s.rxFlit p (flitBytes 0 seq ack cvc n v body) = (s.flitCredits p ack cvc n).flush p := by
  obtain ⟨hk, hs, ha, hc, hn, hv⟩ := flitHeader_fields h
  simp only [State.rxFlit, flitBytes_length hb, flitBytes_checked hb, flitBytes_header h, hk, ha, hc, hn, ne_eq, not_true_eq_false,
    if_false, if_true]

theorem State.rxFlit_data (s : State) (p : Nat) (h : FlitFits 1 seq ack cvc n v) (hb : body.length = 240) :
    s.rxFlit p (flitBytes 1 seq ack cvc n v body) =
      if seq ≠ (s.port p).rxNext then s.sendNak p
      else (((s.flitCredits p ack cvc n).setPort p
        { (s.flitCredits p ack cvc n).port p with rxNext := (seq + 1) % 4096 }).rxBody p v body).flush p := by
  obtain ⟨hk, hs, ha, hc, hn, hv⟩ := flitHeader_fields h
  simp only [State.rxFlit, flitBytes_length hb, flitBytes_checked hb, flitBytes_header h, flitBytes_body hb, hk, hs, ha, hc, hn, hv, ne_eq,
    not_true_eq_false, if_false, true_or, if_true, one_ne_zero, (show ¬ 1 = 2 by decide), (show ¬ 1 = 5 by decide)]

/-! The flits a port sends. -/

theorem State.flush_none {s : State} {p : Nat} (h : (s.port p).txq = []) : s.flush p = s := by
  rw [State.flush, h]
  rfl

section
variable {s : State} {p : Nat} (hmode : s.rd (JP_CFG_MODE p) = 0)
include hmode

theorem State.jusen_on : s.on (JP_CFG_MODE p) = false := on_of_ne_one fun h => absurd (hmode.symm.trans h) (by decide)

theorem State.putFlit_jusen (bs : List Byte) : s.putFlit p bs = { s with out := s.out ++ [.flit p bs] } := by
  rw [State.putFlit, State.jusen_on hmode, if_neg Bool.false_ne_true]
  rfl

theorem State.sendNak_jusen : s.sendNak p = { s with out := s.out ++ [Claim.bare s p 2] } := State.putFlit_jusen hmode _

/-- Flits of the replay buffer sent again, in order (R492). -/
theorem State.resend_jusen (l : List (Nat × TxFlit)) : l.foldl (fun s f => s.sendSeq p f.1 f.2) s =
    { s with out := s.out ++ l.map (fun f => Out.flit p (flitBytes f.2.kind f.1 (s.port p).ack 0 0 f.2.vc f.2.bytes)) } := by
  induction l generalizing s with
  | nil => simp only [List.foldl_nil, List.map_nil, List.append_nil]
  | cons f l ih =>
    rw [List.foldl_cons, State.sendSeq, State.putFlit_jusen hmode,
      ih (s := { s with out := s.out ++ [.flit p (flitBytes f.2.kind f.1 (s.port p).ack 0 0 f.2.vc f.2.bytes)] }) hmode]
    simp only [State.port, List.append_assoc, List.map_cons, List.cons_append, List.nil_append]

end

/-! Records of ports that fence no unit. -/

theorem State.Logged.ports {n : Nat} {s t : State} (h : s.Logged n t) : t.ports = s.ports := by rw [h.rest]

theorem State.Logged.portRecord {s : State} {n : Nat} (aux : Nat) (hn : n < srcJpDown ∧ srcJpCrc ≤ n ∨ srcJpPeer ≤ n ∧ n < 380)
    (hq : Claim.Quiet s n) : s.Logged n (s.record { src := n, aux := aux }) := by
  simp only [srcJpDown, srcJpCrc, srcJpPeer] at hn
  have hrec := s.record_unfenced { src := n, aux := aux } fun c => s.fenceOf_none (n := n) 0 c
    ⟨by rw [srcSpUe]; omega, by rw [srcLoftUe]; omega, by rw [srcMemUe]; omega, by rw [srcJpDown]; omega⟩
  rw [hrec]
  have hcls : max (s.eventClass n) 0 = 0 := by rw [State.eventClass_quiet hq]; rfl
  exact State.Logged.recordWith (s := s) (e := { src := n, aux := aux }) _ (show n < 640 by omega) hcls

theorem quiet_congr {s t : State} {n : Nat} (h : ∀ o, o < 0x60000 → t.reg o = s.reg o) (hn : n < 640) (hq : Claim.Quiet s n) :
    Claim.Quiet t n := by
  have hrd : ∀ f : RF, f.off = FLT_SRC n → t.rd f = s.rd f := fun f hf => by rw [State.rd, State.rd, h _ (by rw [hf, FLT_SRC]; omega)]
  rw [Claim.Quiet, Claim.Kept, hrd _ rfl, hrd _ rfl, hrd _ rfl, hrd _ rfl]
  exact hq

/-! The flits a port receives. -/

theorem State.flitCredits_port (s : State) (p ack cvc n : Nat) : (s.flitCredits p ack cvc n).port p =
    { s.port p with
      replay := (s.port p).replay.filter (fun f => decide (2048 ≤ (ack + 4096 - f.1) % 4096))
      credits := (s.port p).credits.set cvc ((s.port p).credits.getD cvc 0 + n) } := State.port_setPort_same ..

section
variable {s : State} {p : Port} (hup : s.rd (JP_STAT_STATE p.val) = 2) (hmode : s.rd (JP_CFG_MODE p.val) = 0)
include hup

theorem State.portUp_of : s.portUp p.val = true := by rw [State.portUp, State.portState, hup]; rfl

include hmode

theorem execFlitReceive_up (bytes : List Byte) : execFlitReceive p bytes s = .next (s.rxFlit p.val bytes) := by
  rw [execFlitReceive, State.portUp_of hup, State.jusen_on hmode]
  rfl

end

/-- A body that holds one whole message and no bytes after it. -/
theorem State.rxBody_one {s : State} {p v : Nat} {body : List Byte} {m : FMsg} (hnone : tabFind (s.port p).partials v = none)
    (hparse : parseMsgs 64 body [] = ([m], [], false)) : s.rxBody p v body =
      s.setPort p { s.port p with partials := tabDel (s.port p).partials v, inbox := (s.port p).inbox ++ [(m, 1)] } := by
  have hget : tabGet (s.port p).partials (0, []) v = (0, []) := by rw [tabGet_eq_getD, hnone]; rfl
  simp only [State.rxBody, hget, List.nil_append, hparse, List.isEmpty_cons, Bool.false_and, Bool.false_eq_true, if_false,
    List.isEmpty_nil, if_true]
  rfl

/-! The clauses on flits. -/

section
variable {s : State} {p : Port} (hup : s.rd (JP_STAT_STATE p.val) = 2) (hmode : s.rd (JP_CFG_MODE p.val) = 0)
include hup hmode

theorem execFlitReceive_idle (htx : (s.port p.val).txq = []) (h : FlitFits 0 seq ack cvc n v) (hb : body.length = 240) :
    execFlitReceive p (flitBytes 0 seq ack cvc n v body) s = .next (s.flitCredits p.val ack cvc n) := by
  rw [execFlitReceive_up hup hmode, State.rxFlit_idle s p.val h hb, State.flush_none]
  rw [State.flitCredits_port]
  exact htx

theorem execFlitReceive_data {m : FMsg} (htx : (s.port p.val).txq = []) (h : FlitFits 1 seq ack cvc n v) (hb : body.length = 240)
    (hseq : seq = (s.port p.val).rxNext) (hnone : tabFind (s.port p.val).partials v = none) (hparse : parseMsgs 64 body [] = ([m], [], false)) :
    ∃ t, execFlitReceive p (flitBytes 1 seq ack cvc n v body) s = .next t ∧ t.out = s.out ∧ t.regs = s.regs ∧ t.mem = s.mem
      ∧ t.port p.val = { (s.flitCredits p.val ack cvc n).port p.val with
          rxNext := (seq + 1) % 4096, partials := tabDel (s.port p.val).partials v, inbox := (s.port p.val).inbox ++ [(m, 1)] } := by
  have hcred := s.flitCredits_port p.val ack cvc n
  rw [execFlitReceive_up hup hmode, State.rxFlit_data s p.val h hb, if_neg (not_not.mpr hseq), State.rxBody_one (m := m)
    (by rw [State.port_setPort_same, hcred]; exact hnone) hparse, State.port_setPort_same]
  refine ⟨_, congrArg Host.Outcome.next (State.flush_none ?_), rfl, rfl, rfl, ?_⟩
  · rw [State.port_setPort_same, hcred]
    exact htx
  · rw [State.port_setPort_same, hcred]

theorem execFlitReceive_order (h : FlitFits 1 seq ack cvc n v) (hb : body.length = 240) (hseq : seq ≠ (s.port p.val).rxNext) :
    execFlitReceive p (flitBytes 1 seq ack cvc n v body) s = .next { s with out := s.out ++ [Claim.bare s p.val 2] } := by
  rw [execFlitReceive_up hup hmode, State.rxFlit_data s p.val h hb, if_pos hseq, State.sendNak_jusen hmode]

theorem execFlitReceive_bad {bytes : List Byte} (hlen : bytes.length = 256) (hcrc : crc64 (bytes.take 248) ≠ leNat (bytes.drop 248))
    (hq : Claim.Quiet s (srcJpCrc + p.val)) (htimes : (s.port p.val).crcTimes.length < 63) :
    Claim.Next (.flitReceive p bytes) s (fun t => t.out = s.out ++ [Claim.bare s p.val 2]
      ∧ t.rd (JP_ERR_CRC p.val) = min (s.rd (JP_ERR_CRC p.val) + 1) (2 ^ 32 - 1) ∧ (t.port p.val).inbox = (s.port p.val).inbox
      ∧ (t.port p.val).rxNext = (s.port p.val).rxNext ∧ t.mem = s.mem) := by
  obtain ⟨u, hu⟩ : ∃ u, u = (s.count (JP_ERR_CRC p.val) 1).record
    { src := srcJpCrc + p.val, aux := s.rd (JP_STAT_PEER_NODE p.val) } := ⟨_, rfl⟩
  have hq' : Claim.Quiet (s.count (JP_ERR_CRC p.val) 1) (srcJpCrc + p.val) :=
    quiet_congr (fun o ho => State.reg_wr_other _ _ _ _ (by simp only [JP_ERR_CRC, JP_ERR]; omega)) (by rw [srcJpCrc]; omega) hq
  have hlog : (s.count (JP_ERR_CRC p.val) 1).Logged (srcJpCrc + p.val) u :=
    hu ▸ State.Logged.portRecord _ (Or.inl ⟨by simp only [srcJpCrc, srcJpDown]; omega, by omega⟩) hq'
  have hrd : ∀ f : RF, 0x1000000 ≤ f.off → u.rd f = (s.count (JP_ERR_CRC p.val) 1).rd f := fun f hf =>
    hlog.rd (not_logReg_low (Or.inr (by omega)) (by rw [srcJpCrc]; omega))
  have hport : u.port p.val = s.port p.val := State.port_congr (hlog.ports.trans (State.count_ports ..)) p.val
  have hmode' : u.rd (JP_CFG_MODE p.val) = 0 := by
    rw [hrd _ (by simp only [JP_CFG_MODE, JP_CFG]; omega), State.count, State.rd_wr_off _ _ _ _ (by simp only [JP_CFG_MODE, JP_CFG, JP_ERR_CRC, JP_ERR]; omega)]
    exact hmode
  have hfew : ¬ 64 ≤ (((s.port p.val).crcTimes ++ [u.now]).filter (fun t => decide (u.now < t + 1000000))).length := by
    have := List.length_filter_le (fun t => decide (u.now < t + 1000000)) ((s.port p.val).crcTimes ++ [u.now])
    rw [List.length_append, List.length_singleton] at this
    omega
  obtain ⟨x, hx, hin, hrx⟩ : ∃ x : PortState, x = { s.port p.val with
      crcTimes := ((s.port p.val).crcTimes ++ [u.now]).filter (fun t => decide (u.now < t + 1000000)) }
      ∧ x.inbox = (s.port p.val).inbox ∧ x.rxNext = (s.port p.val).rxNext := ⟨_, rfl, rfl, rfl⟩
  have hbare : Claim.bare (u.setPort p.val x) p.val 2 = Claim.bare s p.val 2 := by rw [Claim.bare, State.port_setPort_same, hrx]
  have hexec : execFlitReceive p bytes s = .next ((u.setPort p.val x).sendNak p.val) := by
    rw [execFlitReceive_up hup hmode, State.rxFlit, if_neg (not_not.mpr hlen), if_pos hcrc, State.flitBad, ← hu, hport, if_neg hfew, hx]
  refine ⟨_, hexec, ?_⟩
  rw [State.sendNak_jusen (s := u.setPort p.val x) hmode', hbare]
  refine ⟨?_, ?_, ?_, ?_, ?_⟩
  · exact congrArg (· ++ [Claim.bare s p.val 2]) (hlog.out.trans (State.count_out ..))
  · exact (hrd _ (by simp only [JP_ERR_CRC, JP_ERR]; omega)).trans (State.rd_count_min s _ 1 (show 32 ≤ 63 by decide) (show 63 < 64 by decide))
  · exact (congrArg PortState.inbox (u.port_setPort_same p.val x)).trans hin
  · exact (congrArg PortState.rxNext (u.port_setPort_same p.val x)).trans hrx
  · exact hlog.mem.trans (State.count_mem ..)

/-- A NAK sends the flits after its ACK again, in order (R492). -/
theorem execNak_spec (ack : Nat) : execNak p ack s = .next { s.setPort p.val { s.port p.val with replay := trimReplay (s.port p.val).replay ack } with
      out := s.out ++ (trimReplay (s.port p.val).replay ack).map (fun f =>
        Out.flit p.val (flitBytes f.2.kind f.1 (s.port p.val).ack 0 0 f.2.vc f.2.bytes)) } := by
  rw [execNak, State.portUp_of hup, if_pos rfl, State.nak]
  simp only [State.port_setPort_same]
  rw [State.resend_jusen (s := s.setPort p.val _) hmode, State.port_setPort_same]
  rfl
end

/-- R491, R492, R494, R495: flits. -/
theorem flits : Claim.Flits := by
  intro p s seq ack cvc n v body bytes ms
  refine ⟨?_, ?_, ?_, ?_, ?_, ?_⟩
  · rintro ⟨hup, hmode, htx⟩ ⟨hseq, hack, hcvc, hn, hv, hb⟩
    refine ⟨_, execFlitReceive_idle hup hmode htx ⟨by decide, hseq, hack, hcvc, hn, hv⟩ hb, ?_⟩
    beta_reduce
    rw [State.flitCredits_port]
    exact ⟨⟨rfl, fun _ => rfl⟩, rfl, rfl, rfl, rfl, rfl⟩
  · rintro ⟨hup, hmode, htx⟩ ⟨hseq, hack, hcvc, hn, hv, hb⟩ hnext hnone hparse hone
    obtain ⟨m, rfl⟩ := List.length_eq_one_iff.mp hone
    obtain ⟨t, ht, hout, hregs, hmem, hport⟩ :=
      execFlitReceive_data hup hmode htx ⟨by decide, hseq, hack, hcvc, hn, hv⟩ hb hnext hnone hparse
    refine ⟨t, ht, ?_⟩
    beta_reduce
    rw [hport, State.flitCredits_port]
    exact ⟨⟨rfl, fun _ => rfl⟩, rfl, rfl, hout, hregs, hmem⟩
  · rintro ⟨hup, hmode, -⟩ ⟨hseq, hack, hcvc, hn, hv, hb⟩ hnext
    exact execFlitReceive_order hup hmode ⟨by decide, hseq, hack, hcvc, hn, hv⟩ hb hnext
  · rintro ⟨hup, hmode, -⟩ hlen hcrc hq - htimes
    exact execFlitReceive_bad hup hmode hlen hcrc hq htimes
  · rintro ⟨hup, hmode, -⟩ -
    refine ⟨_, execNak_spec hup hmode ack, ?_⟩
    exact ⟨congrArg PortState.replay (s.port_setPort_same p.val _), rfl, rfl, rfl⟩
  · rintro ⟨hup, -, -⟩
    have hexec : execReset p s = .next (s.linkReset p.val) := by rw [execReset, State.portUp_of hup]; rfl
    have hport : (s.linkReset p.val).port p.val = { s.port p.val with rxNext := 0, partials := [] } := s.port_setPort_same p.val _
    refine ⟨_, hexec, ?_⟩
    beta_reduce
    rw [hport]
    exact ⟨rfl, rfl, rfl, rfl, rfl, rfl⟩

end Sys2Proof.Machine
end

section
/-! PROOF. The states of a port (R488 to R490, R493, R506, R519). -/
namespace Sys2Proof.Machine
open Reg

/-! What a port's change of state leaves. -/

/-- A port's state set: its register, and the tags that a route change waits for (R247). -/
theorem State.setPortState_eq (s : State) (p st : Nat) : ∃ r, s.setPortState p st = { s.wr (JP_STAT_STATE p) st with routeOld := r } := by
  have hfold : ∀ (l : List Nat) (t : State), ∃ r, l.foldl (fun t n => t.holdRoute n) t = { t with routeOld := r } := by
    intro l
    induction l with
    | nil => exact fun t => ⟨t.routeOld, rfl⟩
    | cons n l ih =>
      intro t
      obtain ⟨r, hr⟩ : ∃ r, t.holdRoute n = { t with routeOld := r } := by
        unfold State.holdRoute
        dsimp only
        split
        · exact ⟨t.routeOld, rfl⟩
        · exact ⟨_, rfl⟩
      obtain ⟨r', hr'⟩ := ih (t.holdRoute n)
      refine ⟨r', ?_⟩
      rw [List.foldl_cons, hr', hr]
  exact hfold _ _

/-- A field of JP_STAT keeps its value where another of the register is written. -/
theorem State.rd_stat_apart (s : State) {p : Nat} {f g : RF} (v : Nat) (hf : f.off = JP_STAT p) (hg : g.off = JP_STAT p)
    (h : f.lo ≤ f.hi ∧ f.hi < 64) (hd : g.hi < f.lo ∨ f.hi < g.lo) : (s.wr f v).rd g = s.rd g :=
  State.rd_wr_apart s f g v h.1 h.2 (hg.trans hf.symm) hd

/-- The replay state of a port that has none of the module's requests (R506). -/
theorem State.dropLink_quiet {s : State} {p : Nat} (hreqs : s.freqs = []) (hheld : s.routeHeld = []) :
    ∃ x : PortState, s.dropLink p = s.setPort p x ∧ x.replay = [] ∧ x.txq = [] ∧ x.since = (s.port p).since := by
  refine ⟨{ s.port p with
    txq := [], replay := [], seqNext := 0, rxNext := 0, credits := [192, 192, 96, 32], rr := [16, 16, 16, 16]
    cont := [none, none, none, none], partials := [], inbox := [] }, ?_, rfl, rfl, rfl⟩
  unfold State.dropLink State.failReqs State.releaseRoutes
  simp only [State.setPort, hreqs, hheld, List.filter_nil, List.foldl_nil]

section
variable {s : State} {p : Nat}

theorem State.portDown_quiet (hreqs : s.freqs = []) (hheld : s.routeHeld = []) :
    ∃ r q, s.portDown p = { s.wr (JP_STAT_STATE p) 4 with routeOld := r, ports := q }
      ∧ (tabGet q {} p).replay = [] ∧ (tabGet q {} p).txq = [] ∧ (tabGet q {} p).since = s.now := by
  obtain ⟨r, hr⟩ := s.setPortState_eq p 4
  obtain ⟨x, hx, hrep, htx, hsince⟩ := State.dropLink_quiet (p := p)
    (s := (s.setPortState p 4).setPort p { (s.setPortState p 4).port p with since := (s.setPortState p 4).now })
    (by rw [hr]; exact hreqs) (by rw [hr]; exact hheld)
  have hget : ∀ q : Tab PortState, tabGet (tabPut q p x) {} p = x := fun q => tabGet_tabPut_same ..
  rw [State.portDown, hx, hr]
  refine ⟨r, _, rfl, ?_, ?_, ?_⟩
  · rw [hget, hrep]
  · rw [hget, htx]
  · rw [hget, hsince, State.port_setPort_same, hr]
    rfl

/-- A port without the module's requests is lost (R506): DOWN, its replay state gone, the event of class A recorded. -/
theorem State.portLost_quiet (hp : p < 16) (hq : Claim.Quiet s (srcJpDown + p)) (hreqs : s.freqs = []) (hheld : s.routeHeld = []) :
    (s.portLost p).rd (JP_STAT_STATE p) = 4 ∧ ((s.portLost p).port p).replay = [] ∧ ((s.portLost p).port p).txq = []
      ∧ ((s.portLost p).port p).since = s.now ∧ (s.portLost p).rd (JP_CFG_ENABLE p) = s.rd (JP_CFG_ENABLE p) := by
  obtain ⟨r, q, hdown, hrep, htx, hsince⟩ := State.portDown_quiet (p := p) hreqs hheld
  have hstate : (s.portDown p).portState p = 4 := by
    rw [hdown]
    exact State.rd_wr_same s (JP_STAT_STATE p) 4 (show 0 ≤ 2 by decide) (show 2 < 64 by decide)
  have hcfg : (s.portDown p).rd (JP_CFG_ENABLE p) = s.rd (JP_CFG_ENABLE p) := by
    rw [hdown]
    exact State.rd_wr_off s (JP_STAT_STATE p) _ 4 (by simp only [JP_CFG_ENABLE, JP_CFG, JP_STAT_STATE, JP_STAT]; omega)
  have hq' : Claim.Quiet (s.portDown p) (srcJpDown + p) := by
    rw [hdown]
    exact quiet_congr (fun o ho => State.reg_wr_other s (JP_STAT_STATE p) 4 o (by simp only [JP_STAT_STATE, JP_STAT]; omega)) (by rw [srcJpDown]; omega) hq
  obtain ⟨t, hnoted, hrec⟩ := State.record_lost (s.rd (JP_STAT_PEER_NODE p)) hp hstate (hq'.1.trans_le (by decide))
  have hport : t.port p = tabGet q {} p := (State.port_congr hnoted.ports p).trans (by rw [hdown]; rfl)
  have hrd : ∀ f : RF, 0x1000000 ≤ f.off → t.rd f = (s.portDown p).rd f := fun f hf =>
    hnoted.rd (not_logReg_low (Or.inr (by omega)) (by omega)) (by omega)
  have ht : t.rd (JP_STAT_STATE p) = 4 ∧ t.rd (JP_CFG_ENABLE p) = s.rd (JP_CFG_ENABLE p) :=
    ⟨(hrd _ (by simp only [JP_STAT_STATE, JP_STAT]; omega)).trans hstate, (hrd _ (by simp only [JP_CFG_ENABLE, JP_CFG]; omega)).trans hcfg⟩
  rw [State.portLost]
  obtain hrec | hrec := hrec
  · rw [hrec, hport]
    exact ⟨ht.1, hrep, htx, hsince, ht.2⟩
  · rw [hrec, State.port_congr (State.wr_ports ..), hport, State.rd_wr_off t _ _ _ (by simp only [JP_STAT_STATE, JP_STAT, FLT_FENCED_UNIT]; omega),
      State.rd_wr_off t _ _ _ (by simp only [JP_CFG_ENABLE, JP_CFG, FLT_FENCED_UNIT]; omega)]
    exact ⟨ht.1, hrep, htx, hsince, ht.2⟩

/-- A port enters RETRAIN (R493): the event of class A recorded, its replay buffer kept. -/
theorem State.portRetrains_quiet (hp : p < 16) (hq : Claim.Quiet s (srcJpRetrain + p)) :
    (s.portRetrains p).rd (JP_STAT_STATE p) = 3 ∧ (s.portRetrains p).rd (JP_ERR_RETRAINS p) = min (s.rd (JP_ERR_RETRAINS p) + 1) (2 ^ 16 - 1)
      ∧ ((s.portRetrains p).port p).replay = (s.port p).replay := by
  obtain ⟨t, ht⟩ : ∃ t, t = (s.wr (JP_STAT_STATE p) 3).count (JP_ERR_RETRAINS p) 1 := ⟨_, rfl⟩
  obtain ⟨u, hu⟩ : ∃ u, u = t.setPort p { t.port p with since := t.now, crcTimes := [] } := ⟨_, rfl⟩
  have hreg : ∀ o, o < 0x60000 → u.reg o = s.reg o := fun o ho => by
    rw [hu, State.reg_congr (State.setPort_regs ..), ht, State.count,
      State.reg_wr_other _ (JP_ERR_RETRAINS p) _ o (by simp only [JP_ERR_RETRAINS, JP_ERR]; omega),
      State.reg_wr_other s (JP_STAT_STATE p) 3 o (by simp only [JP_STAT_STATE, JP_STAT]; omega)]
  have hlog : u.Logged (srcJpRetrain + p) (s.portRetrains p) := by
    rw [State.portRetrains, ← ht, ← hu]
    exact State.Logged.portRecord _ (Or.inl ⟨by rw [srcJpRetrain, srcJpDown]; omega, by rw [srcJpRetrain, srcJpCrc]; omega⟩)
      (quiet_congr hreg (by rw [srcJpRetrain]; omega) hq)
  have hrd : ∀ f : RF, 0x1000000 ≤ f.off → (s.portRetrains p).rd f = t.rd f := fun f hf =>
    (hlog.rd (not_logReg_low (Or.inr (by omega)) (by rw [srcJpRetrain]; omega))).trans (State.rd_congr (by rw [hu, State.setPort_regs]) f)
  have hne : (JP_STAT_STATE p).off ≠ (JP_ERR_RETRAINS p).off := by simp only [JP_STAT_STATE, JP_STAT, JP_ERR_RETRAINS, JP_ERR]; omega
  refine ⟨?_, ?_, ?_⟩
  · rw [hrd _ (by simp only [JP_STAT_STATE, JP_STAT]; omega), ht, State.count, State.rd_wr_off _ _ _ _ hne]
    exact State.rd_wr_same s (JP_STAT_STATE p) 3 (show 0 ≤ 2 by decide) (show 2 < 64 by decide)
  · rw [hrd _ (by simp only [JP_ERR_RETRAINS, JP_ERR]; omega), ht,
      State.rd_count_min _ (JP_ERR_RETRAINS p) 1 (show 16 ≤ 31 by decide) (show 31 < 64 by decide), State.rd_wr_off _ _ _ _ hne.symm]
    rfl
  · rw [State.port_congr hlog.ports, hu, State.port_setPort_same]
    exact congrArg PortState.replay (a₁ := t.port p) (State.port_congr (s := s) (t := t) (by rw [ht, State.count_ports, State.wr_ports]) p)

end

/-! Training (R488, R489). -/

section
variable {s : State} {p : Nat}

/-- A port that was not in RETRAIN enters UP with no flit waiting: the record of a half-wide link, of class A, and the RESET flit (R491). -/
theorem State.portEntersUp_new {lanes : Nat} (hp : p < 16) (hlanes : lanes < 16) (hstate : s.rd (JP_STAT_STATE p) ≠ 3) (hmode : s.rd (JP_CFG_MODE p) = 0)
    (htx : (s.port p).txq = []) (hq : Claim.Quiet s (srcJpRetrain + p)) :
    ∃ t : State, s.portEntersUp p lanes = t ∧ t.rd (JP_STAT_STATE p) = 2 ∧ t.rd (JP_STAT_LANES p) = lanes
      ∧ t.rd (JP_STAT_WIDTH p) = (if lanes = 15 then 4 else 2) ∧ t.rd (JP_STAT_PEER_NODE p) = s.rd (JP_STAT_PEER_NODE p)
      ∧ t.rd (JP_STAT_DELAY p) = s.rd (JP_STAT_DELAY p) ∧ (t.port p).lastBoot = (s.port p).lastBoot
      ∧ Claim.bare s p 5 ∈ t.out := by
  obtain ⟨x, hx, hxreg, hxports, hxout⟩ : ∃ x, x = s.setPortState p 2 ∧ x.regs = (s.wr (JP_STAT_STATE p) 2).regs ∧ x.ports = s.ports ∧ x.out = s.out := by
    obtain ⟨r, hr⟩ := s.setPortState_eq p 2
    exact ⟨_, rfl, by rw [hr], by rw [hr, State.wr_ports], by rw [hr, State.wr_out]⟩
  obtain ⟨w, hw⟩ : ∃ w, w = if lanes != 15 then 2 else 4 := ⟨_, rfl⟩
  have hw8 : w < 8 := by rw [hw]; split <;> decide
  obtain ⟨t, ht⟩ : ∃ t, t = (x.wr (JP_STAT_LANES p) lanes).wr (JP_STAT_WIDTH p) w := ⟨_, rfl⟩
  obtain ⟨u, hu⟩ : ∃ u : State, u = t.setPort p { t.port p with since := t.now, calLast := t.now, mismatched := false, crcTimes := [] } := ⟨_, rfl⟩
  have hreg : ∀ o, o < 0x60000 → u.reg o = s.reg o := fun o ho => by
    rw [hu, State.reg_congr (State.setPort_regs ..), ht,
      State.reg_wr_other _ (JP_STAT_WIDTH p) _ o (by simp only [JP_STAT_WIDTH, JP_STAT]; omega),
      State.reg_wr_other _ (JP_STAT_LANES p) _ o (by simp only [JP_STAT_LANES, JP_STAT]; omega), State.reg_congr hxreg,
      State.reg_wr_other s (JP_STAT_STATE p) _ o (by simp only [JP_STAT_STATE, JP_STAT]; omega)]
  have hrd : ∀ f, u.rd f = t.rd f := fun f => by rw [hu, State.rd_congr (State.setPort_regs ..)]
  have hagain : (s.portState p == 3) = false := beq_eq_false_iff_ne.mpr hstate
  have htport : t.port p = s.port p := State.port_congr (by rw [ht, State.wr_ports, State.wr_ports, hxports]) p
  have hport : u.port p = { s.port p with since := t.now, calLast := t.now, mismatched := false, crcTimes := [] } := by
    rw [hu, State.port_setPort_same, htport]
  obtain ⟨v, hv, hlog⟩ : ∃ v, s.portEntersUp p lanes = (if v.on (JP_CFG_MODE p) && !v.on (JP_ETH_CFG_TRANSPORT_EN p) then v
      else v.putFlit p (flitBytes 5 0 (v.port p).ack 0 0 0 (List.replicate 240 0))).flush p ∧ u.Logged (srcJpRetrain + p) v := by
    refine ⟨if lanes != 15 then u.record { src := srcJpRetrain + p, aux := u.rd (JP_STAT_PEER_NODE p) } else u, ?_, ?_⟩
    · rw [hu, ht, hw, hx]
      unfold State.portEntersUp
      rw [hagain]
      rfl
    · exact (State.Logged.portRecord _ (Or.inl ⟨by rw [srcJpRetrain, srcJpDown]; omega, by rw [srcJpRetrain, srcJpCrc]; omega⟩)
        (quiet_congr hreg (by rw [srcJpRetrain]; omega) hq)).ite (State.Logged.refl ..)
  have hvrd : ∀ f : RF, 0x1000000 ≤ f.off → v.rd f = t.rd f := fun f hf =>
    (hlog.rd (not_logReg_low (Or.inr (by omega)) (by rw [srcJpRetrain]; omega))).trans (hrd f)
  have hvport : v.port p = u.port p := State.port_congr hlog.ports p
  have hvmode : v.rd (JP_CFG_MODE p) = 0 := by
    have hne : JP_CFG p ≠ JP_STAT p := by rw [JP_CFG, JP_STAT]; omega
    rw [hvrd _ (by simp only [JP_CFG_MODE, JP_CFG]; omega), ht, State.rd_wr_off _ _ _ _ hne,
      State.rd_wr_off _ _ _ _ hne, State.rd_congr hxreg, State.rd_wr_off _ _ _ _ hne, hmode]
  have hend : s.portEntersUp p lanes = { v with out := v.out ++ [.flit p (flitBytes 5 0 (v.port p).ack 0 0 0 (List.replicate 240 0))] } := by
    rw [hv, State.jusen_on hvmode, Bool.false_and, if_neg Bool.false_ne_true, State.putFlit_jusen hvmode, State.flush_none]
    exact (congrArg PortState.txq (hvport.trans hport)).trans htx
  have hpeer : ∀ f : RF, f.off = JP_STAT p → 19 < f.lo → v.rd f = s.rd f := fun f hf hlo => by
    have hoff : 0x1000000 ≤ f.off := by rw [hf, JP_STAT]; omega
    rw [hvrd f hoff, ht, State.rd_stat_apart _ _ rfl hf (show 8 ≤ 10 ∧ 10 < 64 by decide) (Or.inr (show 10 < f.lo by omega)),
      State.rd_stat_apart _ _ rfl hf (show 16 ≤ 19 ∧ 19 < 64 by decide) (Or.inr hlo), State.rd_congr hxreg,
      State.rd_stat_apart _ _ rfl hf (show 0 ≤ 2 ∧ 2 < 64 by decide) (Or.inr (show 2 < f.lo by omega))]
  have hstat : 0x1000000 ≤ JP_STAT p := by rw [JP_STAT]; omega
  refine ⟨_, hend, ?_, ?_, ?_, hpeer _ rfl (show 19 < 22 by decide), hpeer _ rfl (show 19 < 32 by decide), ?_, ?_⟩
  · refine (hvrd _ hstat).trans ?_
    rw [ht, State.rd_stat_apart _ _ rfl rfl (show 8 ≤ 10 ∧ 10 < 64 by decide) (Or.inl (show 2 < 8 by decide)),
      State.rd_stat_apart _ _ rfl rfl (show 16 ≤ 19 ∧ 19 < 64 by decide) (Or.inl (show 2 < 16 by decide)), State.rd_congr hxreg]
    exact State.rd_wr_same s (JP_STAT_STATE p) 2 (show 0 ≤ 2 by decide) (show 2 < 64 by decide)
  · refine (hvrd _ hstat).trans ?_
    rw [ht, State.rd_stat_apart _ _ rfl rfl (show 8 ≤ 10 ∧ 10 < 64 by decide) (Or.inr (show 10 < 16 by decide))]
    exact (State.rd_wr_same _ (JP_STAT_LANES p) lanes (show 16 ≤ 19 by decide) (show 19 < 64 by decide)).trans (Nat.mod_eq_of_lt hlanes)
  · refine (hvrd _ hstat).trans ?_
    rw [ht]
    refine (State.rd_wr_same _ (JP_STAT_WIDTH p) w (show 8 ≤ 10 by decide) (show 10 < 64 by decide)).trans ((Nat.mod_eq_of_lt hw8).trans ?_)
    rw [hw]
    by_cases h : lanes = 15
    · rw [if_pos h, h]; rfl
    · rw [if_neg h, if_pos (bne_iff_ne.mpr h)]
  · have hlast := congrArg PortState.lastBoot (hvport.trans hport)
    exact hlast
  · have hack : (v.port p).ack = (s.port p).ack := by rw [hvport, hport]; rfl
    rw [hack]
    exact List.mem_append_right _ (List.mem_singleton.mpr rfl)

end

section
variable {s : State} {p : Port}

theorem lanesUsed_eq {l : Nat} (h : l % 16 = 15 ∨ l % 4 = 3 ∨ l / 4 % 4 = 3) :
    lanesUsed l = (if l % 16 = 15 then 15 else if l % 4 = 3 then 3 else 12) := by
  unfold lanesUsed
  split
  · rfl
  · split
    · rfl
    · rw [if_pos (by omega)]

/-- What the other end's record says, as a training port notes it (R489). -/
def State.trainNoted (s : State) (p : Port) (rec : TrainRec) : State :=
  (s.wr (JP_STAT_PEER_NODE p.val) rec.node.val).wr (JP_STAT_DELAY p.val) (min rec.delay 65535)

theorem State.trainNoted_other (rec : TrainRec) {o : Nat} (h : o ≠ JP_STAT p.val) : (s.trainNoted p rec).reg o = s.reg o := by
  rw [State.trainNoted, State.reg_wr_other _ _ _ _ h, State.reg_wr_other _ _ _ _ h]

theorem State.trainNoted_stat (rec : TrainRec) : (s.trainNoted p rec).rd (JP_STAT_STATE p.val) = s.rd (JP_STAT_STATE p.val)
    ∧ (s.trainNoted p rec).rd (JP_STAT_PEER_NODE p.val) = rec.node.val ∧ (s.trainNoted p rec).rd (JP_STAT_DELAY p.val) = min rec.delay 65535 := by
  have hnode : rec.node.val < 1024 := rec.node.isLt
  refine ⟨?_, ?_, ?_⟩
  · rw [State.trainNoted, State.rd_stat_apart _ _ rfl rfl (show 32 ≤ 47 ∧ 47 < 64 by decide) (Or.inl (show 2 < 32 by decide)),
      State.rd_stat_apart _ _ rfl rfl (show 22 ≤ 31 ∧ 31 < 64 by decide) (Or.inl (show 2 < 22 by decide))]
  · rw [State.trainNoted, State.rd_stat_apart _ _ rfl rfl (show 32 ≤ 47 ∧ 47 < 64 by decide) (Or.inl (show 31 < 32 by decide))]
    exact (State.rd_wr_same s (JP_STAT_PEER_NODE p.val) _ (show 22 ≤ 31 by decide) (show 31 < 64 by decide)).trans (Nat.mod_eq_of_lt hnode)
  · exact (State.rd_wr_same _ (JP_STAT_DELAY p.val) _ (show 32 ≤ 47 by decide) (show 47 < 64 by decide)).trans (Nat.mod_eq_of_lt
      (show min rec.delay 65535 < 2 ^ 16 by omega))

theorem State.trainNoted_quiet {n : Nat} (rec : TrainRec) (hn : n < 640) (hq : Claim.Quiet s n) : Claim.Quiet (s.trainNoted p rec) n :=
  quiet_congr (fun o ho => State.trainNoted_other rec (by rw [JP_STAT]; omega)) hn hq

section
variable (hstate : s.rd (JP_STAT_STATE p.val) = 1) (hcoast : s.pllCoasts (14 + p.val) = false)
include hstate hcoast

theorem State.trains : ¬ ((s.portState p.val ≠ 1 ∧ s.portState p.val ≠ 3) ∨ s.pllCoasts (14 + p.val) = true) := by
  rw [hcoast, State.portState, hstate]
  decide

variable (hmode : s.rd (JP_CFG_MODE p.val) = 0)
include hmode

/-- The record of the node that EXPECT_NODE does not name is refused, and told once (R489). -/
theorem execTrainRecord_refused (rec : TrainRec) (hlanes : lanesUsed rec.lanes ≠ 0) (hexp : s.rd (JP_CFG_EXPECT_EN p.val) = 1)
    (hnode : s.rd (JP_CFG_EXPECT_NODE p.val) ≠ rec.node.val) (hq : Claim.Quiet s (srcJpPeer + p.val)) :
    Claim.Next (.trainRecord p rec) s (fun t =>
      t.rd (JP_STAT_STATE p.val) = 1 ∧ (t.port p.val).mismatched = true ∧ t.out = s.out ∧ t.mem = s.mem) := by
  have hp := p.isLt
  obtain ⟨u, hu⟩ : ∃ u, u = s.trainNoted p rec := ⟨_, rfl⟩
  obtain ⟨t, ht⟩ : ∃ t, t = u.setPort p.val { u.port p.val with since := u.now } := ⟨_, rfl⟩
  have hne : JP_CFG p.val ≠ JP_STAT p.val := by rw [JP_CFG, JP_STAT]; omega
  have hcfg : ∀ f : RF, f.off = JP_CFG p.val → u.rd f = s.rd f := fun f hf => by
    rw [State.rd, State.rd, hf, hu, State.trainNoted_other rec hne]
  have hwrong : u.on (JP_CFG_EXPECT_EN p.val) ∧ u.rd (JP_CFG_EXPECT_NODE p.val) ≠ rec.node.val :=
    ⟨State.on_of_one ((hcfg _ rfl).trans hexp), by rw [hcfg _ rfl]; exact hnode⟩
  have hexec : execTrainRecord p rec s = .next (if (t.port p.val).mismatched then t
      else (t.setPort p.val { t.port p.val with mismatched := true }).record { src := srcJpPeer + p.val, aux := rec.node.val }) := by
    rw [execTrainRecord, if_neg (State.trains hstate hcoast), State.jusen_on hmode, if_neg Bool.false_ne_true, if_neg hlanes]
    rw [State.trainNoted] at hu
    dsimp only
    rw [← hu, if_pos hwrong, ← ht]
  have htrd : t.rd (JP_STAT_STATE p.val) = 1 := by
    rw [ht, State.rd_congr (State.setPort_regs ..), hu, (State.trainNoted_stat rec).1, hstate]
  have htout : t.out = s.out := by rw [ht, State.setPort_out, hu, State.trainNoted, State.wr_out, State.wr_out]
  have htmem : t.mem = s.mem := by rw [ht, State.setPort_mem, hu, State.trainNoted, State.wr_mem, State.wr_mem]
  refine ⟨_, hexec, ?_⟩
  split
  next hmis => exact ⟨htrd, hmis, htout, htmem⟩
  next =>
    obtain ⟨v, hv⟩ : ∃ v, v = t.setPort p.val { t.port p.val with mismatched := true } := ⟨_, rfl⟩
    have hregs : v.regs = u.regs := by rw [hv, State.setPort_regs, ht, State.setPort_regs]
    have hqv : Claim.Quiet v (srcJpPeer + p.val) := by
      refine quiet_congr (fun o _ => State.reg_congr hregs o) (by rw [srcJpPeer]; omega) ?_
      rw [hu]
      exact State.trainNoted_quiet rec (by rw [srcJpPeer]; omega) hq
    have hlog := State.Logged.portRecord rec.node.val (Or.inr ⟨by rw [srcJpPeer]; omega, by rw [srcJpPeer]; omega⟩) hqv
    rw [← hv]
    refine ⟨?_, ?_, ?_, ?_⟩
    · rw [hlog.rd (not_logReg_low (Or.inr (by simp only [JP_STAT_STATE, JP_STAT]; omega)) (by rw [srcJpPeer]; omega)), hv, State.rd_congr (State.setPort_regs ..), htrd]
    · rw [State.port_congr hlog.ports, hv, State.port_setPort_same]
    · rw [hlog.out, hv, State.setPort_out, htout]
    · rw [hlog.mem, hv, State.setPort_mem, htmem]

/-- The first record of the other end brings the port up on the lanes that locked (R488, R489). -/
theorem execTrainRecord_first (rec : TrainRec) (hlanes : rec.lanes % 16 = 15 ∨ rec.lanes % 4 = 3 ∨ rec.lanes / 4 % 4 = 3)
    (hexp : s.rd (JP_CFG_EXPECT_EN p.val) = 0) (htx : (s.port p.val).txq = []) (hlast : (s.port p.val).lastBoot = none)
    (hq : Claim.Quiet s (srcJpRetrain + p.val)) :
    Claim.Next (.trainRecord p rec) s (fun t =>
      t.rd (JP_STAT_STATE p.val) = 2 ∧ t.rd (JP_STAT_LANES p.val) = lanesUsed rec.lanes
      ∧ t.rd (JP_STAT_WIDTH p.val) = (if lanesUsed rec.lanes = 15 then 4 else 2)
      ∧ t.rd (JP_STAT_PEER_NODE p.val) = rec.node.val ∧ t.rd (JP_STAT_DELAY p.val) = min rec.delay 65535
      ∧ (t.port p.val).lastBoot = some (rec.node.val, rec.boot % 65536) ∧ Claim.bare s p.val 5 ∈ t.out ∧ t.mem = s.mem) := by
  have hp := p.isLt
  have hused : 0 < lanesUsed rec.lanes ∧ lanesUsed rec.lanes < 16 := by
    rw [lanesUsed_eq hlanes]
    split
    · decide
    · split <;> decide
  obtain ⟨u, hu⟩ : ∃ u, u = s.trainNoted p rec := ⟨_, rfl⟩
  have huport : u.port p.val = s.port p.val := State.port_congr (by rw [hu, State.trainNoted, State.wr_ports, State.wr_ports]) p.val
  obtain ⟨v, hv⟩ : ∃ v : State, v = { u.setPort p.val { u.port p.val with lastBoot := some (rec.node.val, rec.boot % 65536) } with
      nodeBoot := tabPut u.nodeBoot rec.node.val (rec.boot % 65536) } := ⟨_, rfl⟩
  have hne : JP_CFG p.val ≠ JP_STAT p.val := by rw [JP_CFG, JP_STAT]; omega
  have hcfg : ∀ f : RF, f.off = JP_CFG p.val → u.rd f = s.rd f := fun f hf => by
    rw [State.rd, State.rd, hf, hu, State.trainNoted_other rec hne]
  have hright : ¬ (u.on (JP_CFG_EXPECT_EN p.val) = true ∧ u.rd (JP_CFG_EXPECT_NODE p.val) ≠ rec.node.val) := by
    have hoff : u.on (JP_CFG_EXPECT_EN p.val) = false := State.on_of_ne_one fun h =>
      absurd (hexp.symm.trans ((hcfg _ rfl).symm.trans h)) (by decide)
    rw [hoff]
    exact fun h => absurd h.1 (by decide)
  have hexec : execTrainRecord p rec s = .next (v.portEntersUp p.val (lanesUsed rec.lanes)) := by
    rw [execTrainRecord, if_neg (State.trains hstate hcoast), State.jusen_on hmode, if_neg Bool.false_ne_true, if_neg hused.1.ne']
    rw [State.trainNoted] at hu
    dsimp only
    rw [← hu, if_neg hright, huport, hlast]
    rw [huport] at hv
    rw [if_neg Bool.false_ne_true, if_neg Bool.false_ne_true, huport, hv]
  have hregs : v.regs = u.regs := by rw [hv]; rfl
  have hvmem : v.mem = u.mem := by rw [hv]; rfl
  have humem : u.mem = s.mem := by rw [hu, State.trainNoted, State.wr_mem, State.wr_mem]
  have hvport : v.port p.val = { s.port p.val with lastBoot := some (rec.node.val, rec.boot % 65536) } := by
    rw [hv]
    exact (u.port_setPort_same p.val _).trans (by rw [huport])
  have hvq : Claim.Quiet v (srcJpRetrain + p.val) := by
    refine quiet_congr (fun o _ => State.reg_congr hregs o) (by rw [srcJpRetrain]; omega) ?_
    rw [hu]
    exact State.trainNoted_quiet rec (by rw [srcJpRetrain]; omega) hq
  have hstat := State.trainNoted_stat (s := s) (p := p) rec
  rw [← hu] at hstat
  obtain ⟨t, ht, htstate, htlanes, htwidth, htpeer, htdelay, htlast, htout⟩ := State.portEntersUp_new (s := v) (p := p.val) hp hused.2
    (by rw [State.rd_congr hregs, hstat.1, hstate]; decide) (by rw [State.rd_congr hregs, hcfg _ rfl, hmode])
    (by rw [hvport]; exact htx) hvq
  refine ⟨_, hexec, ?_⟩
  have htmem : (v.portEntersUp p.val (lanesUsed rec.lanes)).mem = s.mem := by
    rw [State.portEntersUp_mem, hvmem, humem]
  rw [ht] at htmem ⊢
  refine ⟨htstate, htlanes, htwidth, ?_, ?_, ?_, ?_, htmem⟩
  · rw [htpeer, State.rd_congr hregs, hstat.2.1]
  · rw [htdelay, State.rd_congr hregs, hstat.2.2]
  · rw [htlast, hvport]
  · have hbare : Claim.bare v p.val 5 = Claim.bare s p.val 5 := by rw [Claim.bare, hvport]
    rw [← hbare]
    exact htout

end

/-- A port in DOWN that is enabled and not fenced trains again (R506). -/
theorem execDownRetry_spec (hstate : s.rd (JP_STAT_STATE p.val) = 4) (hen : s.rd (JP_CFG_ENABLE p.val) = 1) (hfence : s.portFenced p.val = false)
    (htime : (s.port p.val).since + 1000000000 ≤ s.now) :
    execDownRetry p s = .next ((s.setPort p.val { s.port p.val with since := s.now }).wr (JP_STAT_STATE p.val) 1) := by
  have hretry : s.portState p.val = 4 ∧ s.on (JP_CFG_ENABLE p.val) = true ∧ (!s.portFenced p.val) = true :=
    ⟨hstate, State.on_of_one hen, by rw [hfence]; rfl⟩
  rw [execDownRetry, if_pos hretry, State.advanceTo_of_le htime]

/-- A calibration pause of a port that is UP (R490). -/
theorem execCalPause_spec (hup : s.rd (JP_STAT_STATE p.val) = 2) (hmode : s.rd (JP_CFG_MODE p.val) = 0) (htime : (s.port p.val).calLast + 250000000 ≤ s.now) :
    execCalPause p s = .next { s.setPort p.val { s.port p.val with calLast := s.now } with out := s.out ++ [Claim.bare s p.val 4] } := by
  rw [execCalPause, State.portUp_of hup, State.jusen_on hmode, decide_eq_true htime]
  exact congrArg Host.Outcome.next (State.putFlit_jusen (s := s.setPort p.val _) hmode _)

/-- A retrain that takes too long ends in DOWN (R493). -/
theorem execRetrainTimeout_spec (hstate : s.rd (JP_STAT_STATE p.val) = 3)
    (htime : (s.port p.val).since + s.rd JFAB_CFG_RETRAIN_MAX * 1000000 ≤ s.now) : execRetrainTimeout p s = .next (s.portLost p.val) := by
  rw [execRetrainTimeout, State.portState, hstate, if_pos rfl, State.advanceTo_of_le htime]

/-- A lane that loses its lock sends the port to RETRAIN (R493). -/
theorem execLaneLockLoss_spec {lanes : Nat} (hup : s.rd (JP_STAT_STATE p.val) = 2) (hlanes : s.rd (JP_STAT_LANES p.val) &&& lanes ≠ 0) :
    execLaneLockLoss p lanes s = .next (s.portRetrains p.val) := by
  rw [execLaneLockLoss, State.portUp_of hup, bne_iff_ne.mpr hlanes]
  rfl

end

/-! ENABLE written (R488, R506, R519). -/

theorem regAt_jpCfg : ∀ p : Port, (regAt (JP_CFG p.val)).map (fun d => d.1.fields) =
    some [{ hi := 41, lo := 32, acc := .rw }, { hi := 31, lo := 31, acc := .rw }, { hi := 8, lo := 8, acc := .rw }, { hi := 0, lo := 0, acc := .rw }] := by
  decide +kernel

/-- What a change of ENABLE starts (R488, R506). -/
def State.jpSwitched (s : State) (p : Nat) (was : Bool) : State :=
  let now := s.on (JP_CFG_ENABLE p)
  if was = now then s
  else if now then
    let s := s.setPort p { s.port p with since := s.now }
    let s := s.wr (JP_STAT_ETH p) 0
    if s.domainOn (60 + p) then s.wr (JP_STAT_STATE p) 1 else s
  else
    let s := if s.portState p = 4 ∨ s.portState p = 0 then s else s.portLost p
    let s := s.setPort p { s.port p with mismatched := false, draining := none }
    ((s.wr (JP_STAT_STATE p) 0).wr (JP_STAT_LANES p) 0).wr (JP_STAT_WIDTH p) 0

/-- A write of JP_CFG that keeps Jusen mode, up to what ENABLE starts. -/
theorem State.jpCfgWrite_jusen {s : State} {p : Port} {m : Master} {v : Word} (hfw : s.fw0 m = true)
    (hr : Claim.Reaches s (Claim.whole m v) (JP_CFG p.val)) (hfence : s.portFenced p.val = false) (hmode : s.rd (JP_CFG_MODE p.val) = 0)
    (hv : v.toNat / 2 ^ 8 % 2 = 0) :
    ∃ (u : State) (w : Word), s.Audited u ∧ (∀ o, u.reg o = s.reg o) ∧ fieldOf w 0 0 = v.toNat % 2
      ∧ s.jpCfgWrite p.val (Claim.whole m v) = (u.setReg (JP_CFG p.val) w).jpSwitched p.val (s.on (JP_CFG_ENABLE p.val)) := by
  have hnot : m ≠ .host := fw0_not_host hfw
  have hm : s.fwOrInstaller m = true := by rw [State.fwOrInstaller, hfw]; rfl
  obtain ⟨l, hl⟩ := s.mxcGrant_eq m (JP_CFG p.val)
  obtain ⟨u, hu⟩ : ∃ u, u = s.mxcGrant m (JP_CFG p.val) := ⟨_, rfl⟩
  have hregs : u.regs = s.regs := by rw [hu, hl]
  have hreg : ∀ o, u.reg o = s.reg o := State.reg_congr hregs
  have haudit : u.auditWrite (Claim.whole m v) (JP_CFG p.val) = u := by
    rw [State.auditWrite, if_neg]
    exact fun h => hnot (eq_of_beq h)
  have hmodeAfter : u.after (Claim.whole m v) (JP_CFG_MODE p.val) = 0 := (u.after_whole m v _).trans hv
  have hmodeBefore : u.rd (JP_CFG_MODE p.val) = 0 := (State.rd_congr hregs _).trans hmode
  have hfence' : u.portFenced p.val = false := by
    rw [State.portFenced, State.rd_congr hregs]
    exact hfence
  obtain ⟨w, hin, -, hw⟩ := u.applyWrite_free (regAt_jpCfg p) (by decide) (by decide) (2 ^ 64 - 1) v.toNat
  have hval : fieldOf w 0 0 = v.toNat % 2 := by
    refine (hin { hi := 0, lo := 0, acc := .rw } (by decide)).trans ?_
    rw [mergeBits_whole (u.reg _).isLt v.isLt]
    exact congrArg (· % 2) (Nat.div_one _)
  refine ⟨u, w, ?_, hreg, hval, ?_⟩
  · rw [hu, hl]
    exact State.Audited.ofGrant s l
  · have hwas : u.on (JP_CFG_ENABLE p.val) = s.on (JP_CFG_ENABLE p.val) := by rw [State.on, State.on, State.rd_congr hregs]
    have hmask : (Claim.whole m v).mask = 2 ^ 64 - 1 := rfl
    have hbits : (Claim.whole m v).bits = v.toNat := rfl
    unfold State.jpCfgWrite
    rw [hm, State.regRow_reaches hr, ← hu]
    dsimp only
    rw [haudit, hmodeAfter, hmodeBefore, hfence', hmask, hbits, hwas]
    simp -implicitDefEqProofs only [bne_self_eq_false, Bool.and_false, Bool.false_and, Bool.or_false, Bool.false_eq_true, if_false,
      Nat.sub_zero, (show ((0 : Nat) == 1) = false from rfl)]
    rw [hw]
    rfl

section
variable {s : State} {p : Port}

theorem State.rd_jpEnable_set (u : State) (w : Word) : (u.setReg (JP_CFG p.val) w).rd (JP_CFG_ENABLE p.val) = fieldOf w 0 0 := by
  rw [State.rd, JP_CFG_ENABLE, State.reg_setReg_same]

section
variable {m : Master} {v : Word} (hfw : s.fw0 m = true)
  (hr : Claim.Reaches s (Claim.whole m v) (JP_CFG p.val)) (hfence : s.portFenced p.val = false) (hmode : s.rd (JP_CFG_MODE p.val) = 0)
  (hv : v.toNat / 2 ^ 8 % 2 = 0)
include hfw hr hfence hmode hv

/-- A disabled port that is enabled trains (R488). -/
theorem execPortEnable_spec (hwas : s.rd (JP_CFG_ENABLE p.val) = 0) (hset : v.toNat % 2 = 1) (hon : s.domainOn (60 + p.val) = true) :
    Claim.Next (.portEnable p (Claim.whole m v)) s (fun t =>
      t.rd (JP_STAT_STATE p.val) = 1 ∧ t.rd (JP_CFG_ENABLE p.val) = 1 ∧ (t.port p.val).since = s.now ∧ t.mem = s.mem) := by
  have hp := p.isLt
  obtain ⟨u, w, haudit, hreg, hw, hwrite⟩ := State.jpCfgWrite_jusen hfw hr hfence hmode hv
  have hoff : s.on (JP_CFG_ENABLE p.val) = false := State.on_of_ne_one fun h => absurd (hwas.symm.trans h) (by decide)
  obtain ⟨x, hx⟩ : ∃ x, x = u.setReg (JP_CFG p.val) w := ⟨_, rfl⟩
  have hxen : x.rd (JP_CFG_ENABLE p.val) = 1 := by rw [hx, State.rd_jpEnable_set, hw, hset]
  obtain ⟨y, hy⟩ : ∃ y, y = x.setPort p.val { x.port p.val with since := x.now } := ⟨_, rfl⟩
  have hdomain : (y.wr (JP_STAT_ETH p.val) 0).domainOn (60 + p.val) = true := by
    have hrd : ∀ f : RF, f.off < 0x1000000 → (y.wr (JP_STAT_ETH p.val) 0).rd f = s.rd f := fun f hf => by
      rw [State.rd_wr_off _ _ _ _ (by simp only [JP_STAT_ETH, JP_STAT]; omega), hy, State.rd_congr (State.setPort_regs ..), hx, State.rd,
        State.reg_setReg_other _ _ _ _ (by simp only [JP_CFG]; omega), hreg, State.rd]
    rw [State.domainOn, hrd _ (by decide), hrd _ (by decide)]
    exact hon
  have hexec : execPortEnable p (Claim.whole m v) s = .next ((y.wr (JP_STAT_ETH p.val) 0).wr (JP_STAT_STATE p.val) 1) := by
    rw [execPortEnable, hwrite, ← hx, hoff, State.jpSwitched, State.on_of_one hxen, if_neg Bool.false_ne_true, if_pos rfl, ← hy]
    exact congrArg Host.Outcome.next (if_pos hdomain)
  have hne : JP_CFG p.val ≠ JP_STAT p.val := by rw [JP_CFG, JP_STAT]; omega
  refine ⟨_, hexec, ?_, ?_, ?_, ?_⟩
  · exact State.rd_wr_same _ (JP_STAT_STATE p.val) 1 (show 0 ≤ 2 by decide) (show 2 < 64 by decide)
  · rw [State.rd_wr_off _ _ _ _ hne, State.rd_wr_off _ _ _ _ hne, hy, State.rd_congr (State.setPort_regs ..), hxen]
  · rw [State.port_congr (State.wr_ports ..), State.port_congr (State.wr_ports ..), hy, State.port_setPort_same, hx]
    exact (State.setReg_now u (JP_CFG p.val) w).trans haudit.now
  · rw [State.wr_mem, State.wr_mem, hy, State.setPort_mem, hx]
    exact (State.setReg_mem u (JP_CFG p.val) w).trans haudit.mem

/-- An enabled port that is disabled is off, its lanes with it (R506). -/
theorem execPortDisable_spec (hwas : s.rd (JP_CFG_ENABLE p.val) = 1) (hset : v.toNat % 2 = 0) (hreqs : s.freqs = []) (hheld : s.routeHeld = [])
    (hq : Claim.Quiet s (srcJpDown + p.val)) :
    Claim.Next (.portDisable p (Claim.whole m v)) s (fun t =>
      t.rd (JP_STAT_STATE p.val) = 0 ∧ t.rd (JP_CFG_ENABLE p.val) = 0 ∧ t.rd (JP_STAT_LANES p.val) = 0 ∧ t.mem = s.mem) := by
  have hp := p.isLt
  obtain ⟨u, w, haudit, hreg, hw, hwrite⟩ := State.jpCfgWrite_jusen hfw hr hfence hmode hv
  obtain ⟨x, hx⟩ : ∃ x, x = u.setReg (JP_CFG p.val) w := ⟨_, rfl⟩
  have hxen : x.rd (JP_CFG_ENABLE p.val) = 0 := by rw [hx, State.rd_jpEnable_set, hw, hset]
  have hxoff : x.on (JP_CFG_ENABLE p.val) = false := State.on_of_ne_one fun h => absurd (hxen.symm.trans h) (by decide)
  have hxmem : x.mem = s.mem := by rw [hx]; exact (State.setReg_mem u (JP_CFG p.val) w).trans haudit.mem
  have hxq : Claim.Quiet x (srcJpDown + p.val) := by
    refine quiet_congr (fun o ho => ?_) (by rw [srcJpDown]; omega) hq
    rw [hx, State.reg_setReg_other _ _ _ _ (by simp only [JP_CFG]; omega), hreg]
  obtain ⟨y, hy⟩ : ∃ y, y = if x.portState p.val = 4 ∨ x.portState p.val = 0 then x else x.portLost p.val := ⟨_, rfl⟩
  have hylost : y.rd (JP_CFG_ENABLE p.val) = 0 ∧ y.mem = s.mem := by
    rw [hy]
    split
    · exact ⟨hxen, hxmem⟩
    · obtain ⟨-, -, -, -, hen⟩ := State.portLost_quiet (s := x) hp hxq (by rw [hx]; exact haudit.freqs.trans hreqs)
        (by rw [hx]; exact haudit.routeHeld.trans hheld)
      exact ⟨hen.trans hxen, (State.portLost_mem ..).trans hxmem⟩
  obtain ⟨z, hz⟩ : ∃ z, z = y.setPort p.val { y.port p.val with mismatched := false, draining := none } := ⟨_, rfl⟩
  have hexec : execPortDisable p (Claim.whole m v) s =
      .next (((z.wr (JP_STAT_STATE p.val) 0).wr (JP_STAT_LANES p.val) 0).wr (JP_STAT_WIDTH p.val) 0) := by
    rw [execPortDisable, hwrite, ← hx, State.on_of_one hwas, State.jpSwitched, hxoff, if_neg (show ¬ true = false by decide), if_neg Bool.false_ne_true, ← hy, hz]
  have hne : JP_CFG p.val ≠ JP_STAT p.val := by rw [JP_CFG, JP_STAT]; omega
  refine ⟨_, hexec, ?_, ?_, ?_, ?_⟩
  · rw [State.rd_stat_apart _ _ rfl rfl (show 8 ≤ 10 ∧ 10 < 64 by decide) (Or.inl (show 2 < 8 by decide)),
      State.rd_stat_apart _ _ rfl rfl (show 16 ≤ 19 ∧ 19 < 64 by decide) (Or.inl (show 2 < 16 by decide))]
    exact State.rd_wr_same _ (JP_STAT_STATE p.val) 0 (show 0 ≤ 2 by decide) (show 2 < 64 by decide)
  · rw [State.rd_wr_off _ _ _ _ hne, State.rd_wr_off _ _ _ _ hne, State.rd_wr_off _ _ _ _ hne, hz, State.rd_congr (State.setPort_regs ..), hylost.1]
  · rw [State.rd_stat_apart _ _ rfl rfl (show 8 ≤ 10 ∧ 10 < 64 by decide) (Or.inr (show 10 < 16 by decide))]
    exact State.rd_wr_same _ (JP_STAT_LANES p.val) 0 (show 16 ≤ 19 by decide) (show 19 < 64 by decide)
  · rw [State.wr_mem, State.wr_mem, State.wr_mem, hz, State.setPort_mem, hylost.2]

end
end

/-- R488 to R490, R493, R506, R519: the states of a port. -/
theorem linkStates : Claim.LinkStates := by
  intro p m s v rec lanes
  refine ⟨fun hfw hr hfence hmode hv => ⟨fun hwas hset hon => execPortEnable_spec hfw hr hfence hmode hv hwas hset hon,
    fun hwas hset hreqs hheld hq => execPortDisable_spec hfw hr hfence hmode hv hwas hset hreqs hheld hq⟩, ?_, ?_, ?_, ?_, ?_, ?_, ?_⟩
  · intro hstate hmode hlanes hexp htx hlast hq hcoast
    have h := execTrainRecord_first hstate hcoast hmode rec hlanes hexp htx hlast hq
    rw [lanesUsed_eq hlanes] at h
    exact h
  · intro hstate hmode hlanes hexp hnode hq hcoast
    have hused : lanesUsed rec.lanes ≠ 0 := by rw [lanesUsed, if_pos hlanes]; decide
    exact execTrainRecord_refused hstate hcoast hmode rec hused hexp hnode hq
  · intro hstate htime
    have hexec : execTrainingRetry p s = .next (s.setPort p.val { s.port p.val with since := s.now }) := by
      rw [execTrainingRetry, State.portState, hstate, if_pos rfl, State.advanceTo_of_le htime]
    refine ⟨_, hexec, ?_, rfl, rfl⟩
    exact congrArg PortState.since (s.port_setPort_same p.val _)
  · intro hstate hmode htime
    refine ⟨_, execCalPause_spec hstate hmode htime, ?_, rfl, rfl, rfl⟩
    exact congrArg PortState.calLast (s.port_setPort_same p.val _)
  · intro hstate hlanes hq
    obtain ⟨h3, hcount, hrep⟩ := State.portRetrains_quiet (s := s) p.isLt hq
    exact ⟨_, execLaneLockLoss_spec hstate hlanes, h3, hcount, hrep, State.portRetrains_mem ..⟩
  · intro hstate htime hreqs hheld hq
    obtain ⟨h4, hrep, htx, hsince, -⟩ := State.portLost_quiet (s := s) p.isLt hq hreqs hheld
    exact ⟨_, execRetrainTimeout_spec hstate htime, h4, hrep, htx, hsince, State.portLost_mem ..⟩
  · intro hstate hen hfence htime
    refine ⟨_, execDownRetry_spec hstate hen hfence htime, ?_, ?_, ?_, rfl⟩
    · exact State.rd_wr_same _ (JP_STAT_STATE p.val) 1 (show 0 ≤ 2 by decide) (show 2 < 64 by decide)
    · rw [State.port_congr (State.wr_ports ..), State.port_setPort_same]
    · intro o ho
      rw [State.reg_wr_other _ _ _ _ (by simp only [JP_STAT_STATE]; omega)]
      rfl

end Sys2Proof.Machine

section
open Sys2Proof.Machine Sys2Proof.Machine.Reg Sys2Proof.Claim

/-- Settles O53: the states of a port from the equations of its commands, and the flits from what a flit's bytes say. -/
theorem ports : Obligations.Ports := ⟨linkStates, flits⟩
end
end

section
/-! PROOF. Bytes of words: the little-endian bytes of a number, and what a write of some bytes of an ECC word stores (R40, R62). -/
namespace Sys2Proof.Machine
open Reg

/-- Byte `k` of a number, little-endian. -/
def byteAt (n k : Nat) : Byte := BitVec.ofNat 8 (n / 256 ^ k)

theorem byteAt_bit (n k : Nat) {j : Nat} (h : j < 8) : (byteAt n k).getLsbD j = n.testBit (8 * k + j) := by
  have e : (256 : Nat) ^ k = 2 ^ (8 * k) := by rw [pow_mul]; rfl
  rw [byteAt, BitVec.getLsbD_ofNat, decide_eq_true h, Bool.true_and, e, Nat.testBit_div_two_pow, Nat.add_comm]

theorem byteAt_ext {b : Byte} {n k : Nat} (h : ∀ j, j < 8 → b.getLsbD j = n.testBit (8 * k + j)) : b = byteAt n k :=
  BitVec.eq_of_getLsbD_eq fun j hj => (h j hj).trans (byteAt_bit n k hj).symm

theorem getElem_leBytes (k n : Nat) {i : Nat} (h : i < (leBytes k n).length) : (leBytes k n)[i] = byteAt n i := by
  induction k generalizing n i with
  | zero => exact absurd h (Nat.not_lt_zero _)
  | succ k ih =>
    cases i with
    | zero => rw [byteAt, pow_zero, Nat.div_one]; rfl
    | succ i =>
      have h' : i < (leBytes k (n / 256)).length := by
        rw [leBytes_length] at h ⊢
        omega
      refine (ih (n / 256) h').trans ?_
      rw [byteAt, byteAt, Nat.div_div_eq_div_mul, pow_succ']

theorem byteAt_leNat (bs : List Byte) (k : Nat) : byteAt (leNat bs) k = bs.getD k 0 := by
  induction bs generalizing k with
  | nil => rw [byteAt, leNat, Nat.zero_div]; rfl
  | cons b bs ih =>
    have hb : b.toNat < 256 := b.isLt
    cases k with
    | zero =>
      refine BitVec.eq_of_toNat_eq ?_
      rw [byteAt, leNat, pow_zero, Nat.div_one, BitVec.toNat_ofNat, List.getD_cons_zero]
      omega
    | succ k =>
      have hdiv : (b.toNat + 256 * leNat bs) / 256 = leNat bs := by omega
      rw [List.getD_cons_succ, ← ih, byteAt, byteAt, leNat, pow_succ', ← Nat.div_div_eq_div_mul, hdiv]

theorem leNat_testBit (bs : List Byte) {k j : Nat} (h : j < 8) : (leNat bs).testBit (8 * k + j) = (bs.getD k 0).getLsbD j := by
  rw [← byteAt_leNat, byteAt_bit _ _ h]

/-- A byte of merged words: the new word's where the mask covers it, the old word's where the mask misses it. -/
theorem byteAt_mergeBits (old new mask k : Nat) (b : Bool) (h : ∀ j, j < 8 → mask.testBit (8 * k + j) = b) :
    byteAt (mergeBits old new mask) k = if b then byteAt new k else byteAt old k := by
  symm
  refine byteAt_ext fun j hj => ?_
  rw [testBit_mergeBits, h j hj]
  cases b
  · exact byteAt_bit old k hj
  · exact byteAt_bit new k hj

theorem byteAt_shift (n : Nat) {a k : Nat} (h : a ≤ k) : byteAt (n * 2 ^ (8 * a)) k = byteAt n (k - a) := by
  refine byteAt_ext fun j hj => ?_
  have hk : 8 * k + j - 8 * a = 8 * (k - a) + j := by omega
  rw [byteAt_bit _ _ hj, Nat.testBit_mul_two_pow, hk, decide_eq_true (show 8 * a ≤ 8 * k + j by omega), Bool.true_and]

/-- The mask of `m` bytes from byte `a` on. -/
theorem testBit_byteMask (m a k : Nat) {j : Nat} (h : j < 8) :
    ((2 ^ (8 * m) - 1) * 2 ^ (8 * a)).testBit (8 * k + j) = decide (a ≤ k ∧ k < a + m) := by
  rw [Nat.testBit_mul_two_pow, Nat.testBit_two_pow_sub_one, ← Bool.decide_and]
  exact decide_eq_decide.mpr (by omega)

/-! Words of storage. -/

theorem memTop_word {w : Nat} (h : w < memTop) : eccBytes w = 64 := if_pos h

section
variable (s : State) {w : Nat}

theorem State.byteAt_wordBits {k : Nat} (hk : k < eccBytes w) : byteAt (s.wordBits w) k = memGet s.mem (w + k) := by
  rw [State.wordBits, byteAt_leNat, State.peek, List.getD_eq_getElem _ _ (by rw [List.length_map, List.length_range]; exact hk),
    List.getElem_map, List.getElem_range]

/-- A byte of storage after the bits of a word are set. -/
theorem State.memGet_setWordBits (h : memWf s.mem = true) (v a : Nat) :
    memGet (s.setWordBits w v).mem a = if w ≤ a ∧ a < w + eccBytes w then byteAt v (a - w) else memGet s.mem a := by
  rw [State.setWordBits, State.poke_mem]
  split
  next ha =>
    have hlen : a - w < (leBytes (eccBytes w) v).length := by
      rw [leBytes_length]
      omega
    have hin := memGet_memPutList_inside s.mem w (a - w) _ h hlen
    rwa [getElem_leBytes, show w + (a - w) = a by omega] at hin
  next ha => exact memGet_memPutList_outside s.mem w a _ h (by rw [leBytes_length]; omega)

end

/-- The write of a word lays the bytes `bs` at `off`, as far as they lie in the word, and no others. -/
def WordWrite.Lays (w : WordWrite) (off : Nat) (bs : List Byte) : Prop :=
  ∀ k, k < eccBytes w.off →
    if off ≤ w.off + k ∧ w.off + k < off + bs.length then
      (∀ j, j < 8 → w.mask.testBit (8 * k + j) = true) ∧ byteAt w.data k = bs.getD (w.off + k - off) 0
    else ∀ j, j < 8 → w.mask.testBit (8 * k + j) = false

/-- An ECC word of bytes of memory. -/
theorem mem_wordsIn {off len w : Nat} (htop : off + len ≤ memTop) (hpos : 0 < len) :
    w ∈ wordsIn off len ↔ w % 64 = 0 ∧ w < off + len ∧ off < w + 64 := by
  have hword : eccBytes off = 64 := memTop_word (by omega)
  rw [wordsIn, hword, List.mem_map]
  constructor
  · rintro ⟨k, hk, rfl⟩
    rw [List.mem_range] at hk
    omega
  · rintro ⟨h0, h1, h2⟩
    refine ⟨w / 64 - off / 64, ?_, ?_⟩
    · rw [List.mem_range]
      omega
    · omega

/-- The words that bytes are written to lay them there. -/
theorem wordWrites_lays {off : Nat} {bs : List Byte} {poison : Bool} (htop : off + bs.length ≤ memTop) (hpos : 0 < bs.length)
    {w : WordWrite} (hw : w ∈ wordWrites off bs poison) : w.off ∈ wordsIn off bs.length ∧ w.poison = poison ∧ w.Lays off bs := by
  obtain ⟨x, hx, rfl⟩ := List.mem_map.mp hw
  obtain ⟨-, hx1, hx2⟩ := (mem_wordsIn htop hpos).mp hx
  have hoff : eccBytes off = 64 := memTop_word (by omega)
  have hxw : eccBytes x = 64 := memTop_word (by omega)
  refine ⟨hx, rfl, fun k hk => ?_⟩
  dsimp only at hk ⊢
  rw [hxw] at hk
  rw [hoff]
  split
  next hin =>
    refine ⟨fun j hj => ?_, ?_⟩
    · rw [testBit_byteMask _ _ _ hj, decide_eq_true_eq]
      omega
    · have hk' : k - (max off x - x) < min (off + bs.length) (x + 64) - max off x := by omega
      have hidx : max off x - off + (k - (max off x - x)) = x + k - off := by omega
      rw [byteAt_shift _ (by omega), byteAt_leNat, List.getD_eq_getElem?_getD, List.getElem?_take_of_lt hk', List.getElem?_drop, hidx,
        List.getD_eq_getElem?_getD]
  next hout =>
    intro j hj
    rw [testBit_byteMask _ _ _ hj, decide_eq_false_iff_not]
    omega

/-- Storage after a word write that lays bytes, the word's other bits kept. -/
theorem memGet_mergedWord (s : State) (h : memWf s.mem = true) {w : WordWrite} {off : Nat} {bs : List Byte} (hl : w.Lays off bs) (a : Nat) :
    memGet (s.setWordBits w.off (mergeBits (s.wordBits w.off) w.data w.mask)).mem a =
      if (w.off ≤ a ∧ a < w.off + eccBytes w.off) ∧ off ≤ a ∧ a < off + bs.length then bs.getD (a - off) 0 else memGet s.mem a := by
  rw [s.memGet_setWordBits h]
  by_cases hin : w.off ≤ a ∧ a < w.off + eccBytes w.off
  · have hlay := hl (a - w.off) (by omega)
    rw [show w.off + (a - w.off) = a by omega] at hlay
    by_cases hb : off ≤ a ∧ a < off + bs.length
    · rw [if_pos hb] at hlay
      rw [if_pos hin, if_pos ⟨hin, hb⟩, byteAt_mergeBits _ _ _ _ true hlay.1, if_pos rfl, hlay.2]
    · rw [if_neg hb] at hlay
      rw [if_pos hin, if_neg fun hh => hb hh.2, byteAt_mergeBits _ _ _ _ false hlay, if_neg Bool.false_ne_true, s.byteAt_wordBits (by omega),
        show w.off + (a - w.off) = a by omega]
  · rw [if_neg hin, if_neg fun hh => hin hh.1]

/-- Storage after a write of a whole word, which its mask covers. -/
theorem memGet_wholeWord (s : State) (h : memWf s.mem = true) {w : WordWrite} {off : Nat} {bs : List Byte} (hl : w.Lays off bs)
    (hm : w.mask = 2 ^ (8 * eccBytes w.off) - 1) (a : Nat) :
    memGet (s.setWordBits w.off w.data).mem a =
      if (w.off ≤ a ∧ a < w.off + eccBytes w.off) ∧ off ≤ a ∧ a < off + bs.length then bs.getD (a - off) 0 else memGet s.mem a := by
  rw [← memGet_mergedWord s h hl, s.memGet_setWordBits h, s.memGet_setWordBits h]
  by_cases hin : w.off ≤ a ∧ a < w.off + eccBytes w.off
  · rw [if_pos hin, if_pos hin, byteAt_mergeBits _ _ _ _ true, if_pos rfl]
    intro j hj
    rw [hm, Nat.testBit_two_pow_sub_one, decide_eq_true_eq]
    omega
  · rw [if_neg hin, if_neg hin]

end Sys2Proof.Machine
end

section
/-! PROOF. A request that its channel serves at once (R43): what the grant of a slot changes, and when it is given. -/
namespace Sys2Proof.Machine
open Reg

/-- The counters of the memory channels that requests advance: bytes read and written, read-modify-writes, grants and waits (R50, R51). -/
def memCounter (o : Nat) : Prop := 0x100000 ≤ o ∧ o < 0x700000 ∧ 0x10 ≤ o % 0x10000 ∧ o % 0x10000 < 0x38

theorem channelOf_lt (off : Nat) : channelOf off < 96 := by
  have hx : bitsOf (off / 256 / 3) 4 0 ^^^ foldOf (off / 256 / 3) < 2 ^ 5 := by
    have hb : ∀ n hi lo, hi + 1 - lo ≤ 5 → bitsOf n hi lo < 2 ^ 5 := fun n hi lo h =>
      (Nat.mod_lt _ (by positivity)).trans_le (Nat.pow_le_pow_right (by decide) h)
    refine Nat.xor_lt_two_pow (hb _ _ _ (by decide)) ?_
    unfold foldOf
    exact Nat.xor_lt_two_pow (Nat.xor_lt_two_pow (Nat.xor_lt_two_pow (Nat.xor_lt_two_pow (Nat.xor_lt_two_pow (hb _ _ _ (by decide))
      (hb _ _ _ (by decide))) (hb _ _ _ (by decide))) (hb _ _ _ (by decide))) (hb _ _ _ (by decide))) (hb _ _ _ (by decide))
  unfold channelOf
  omega

theorem channelOf_granule {a b : Nat} (h : a / 256 = b / 256) : channelOf a = channelOf b := by rw [channelOf, channelOf, h]

/-- `t` follows `s` by grants of slots and counts of their requests: counters, and the windows of channels, changed alone. -/
structure State.Slotted (s t : State) : Prop where
  rest : t = { s with regs := t.regs, chans := t.chans }
  regs : ∀ o, ¬ memCounter o → t.reg o = s.reg o
  chans : ∀ k, ∃ a b c d, t.chan k = { s.chan k with windowLeft := a, localOwed := b, lastRemote := c, scrubTurn := d }

namespace State.Slotted
variable {s t u : State}

theorem refl (s : State) : s.Slotted s := ⟨rfl, fun _ _ => rfl, fun _ => ⟨_, _, _, _, rfl⟩⟩

theorem trans (h : s.Slotted t) (h' : t.Slotted u) : s.Slotted u := by
  refine ⟨h'.rest.trans (congrArg (fun x : State => { x with regs := u.regs, chans := u.chans }) h.rest),
    fun o ho => (h'.regs o ho).trans (h.regs o ho), fun k => ?_⟩
  obtain ⟨a, b, c, d, hk⟩ := h.chans k
  obtain ⟨a', b', c', d', hk'⟩ := h'.chans k
  exact ⟨a', b', c', d', by rw [hk', hk]⟩

theorem ite {c : Prop} [Decidable c] (h : s.Slotted t) (h' : s.Slotted u) : s.Slotted (if c then t else u) := by
  split
  · exact h
  · exact h'

theorem rd (h : s.Slotted t) {f : RF} (hf : ¬ memCounter f.off) : t.rd f = s.rd f := by rw [State.rd, State.rd, h.regs _ hf]

theorem wr (s : State) {f : RF} (hf : memCounter f.off) (v : Nat) : s.Slotted (s.wr f v) :=
  ⟨rfl, fun _ ho => State.reg_wr_other _ _ _ _ fun e => ho (e ▸ hf), fun _ => ⟨_, _, _, _, rfl⟩⟩

theorem memCount (s : State) {c : Nat} {f : RF} (hf : memCounter f.off) (n : Nat) : s.Slotted (s.memCount c f n) := by
  unfold State.memCount State.count
  exact ite (wr s hf _) (refl s)

theorem setChan (s : State) (c a b d e : Nat) :
    s.Slotted (s.setChan c { s.chan c with windowLeft := a, localOwed := b, lastRemote := d, scrubTurn := e }) := by
  refine ⟨rfl, fun _ _ => rfl, fun k => ?_⟩
  by_cases hk : k = c
  · rw [hk, State.chan_setChan_same]
    exact ⟨_, _, _, _, rfl⟩
  · rw [State.chan_setChan_other _ _ _ _ hk]
    exact ⟨_, _, _, _, rfl⟩

theorem mem (h : s.Slotted t) : t.mem = s.mem := by rw [h.rest]
theorem memDmg (h : s.Slotted t) : t.memDmg = s.memDmg := by rw [h.rest]
theorem now (h : s.Slotted t) : t.now = s.now := by rw [h.rest]
theorem host (h : s.Slotted t) : t.host = s.host := by rw [h.rest]
theorem out (h : s.Slotted t) : t.out = s.out := by rw [h.rest]
theorem rbuf (h : s.Slotted t) : t.rbuf = s.rbuf := by rw [h.rest]
theorem cores (h : s.Slotted t) : t.cores = s.cores := by rw [h.rest]
theorem tasks (h : s.Slotted t) : t.tasks = s.tasks := by rw [h.rest]
theorem chains (h : s.Slotted t) : t.chains = s.chains := by rw [h.rest]
theorem sup (h : s.Slotted t) : t.sup = s.sup := by rw [h.rest]
theorem rings (h : s.Slotted t) : t.rings = s.rings := by rw [h.rest]
theorem tailArea (h : s.Slotted t) : t.tailArea = s.tailArea := by rw [h.rest]
theorem damage (h : s.Slotted t) (off : Nat) : t.damage off = s.damage off := by rw [h.rest]; rfl
theorem peek (h : s.Slotted t) (off n : Nat) : t.peek off n = s.peek off n := by rw [State.peek, State.peek, h.mem]

theorem queue (h : s.Slotted t) (k : Nat) : (t.chan k).queue = (s.chan k).queue := by
  obtain ⟨a, b, c, d, hk⟩ := h.chans k
  rw [hk]

theorem needRows (h : s.Slotted t) (k : Nat) : (t.chan k).needRows = (s.chan k).needRows := by
  obtain ⟨a, b, c, d, hk⟩ := h.chans k
  rw [hk]

end State.Slotted

/-- A slot given to a request, the rest of the queue as it was (R43, R51). -/
theorem State.takeSlot_slotted (s : State) {c : Nat} (hc : c < 96) (r : MemReq) : s.Slotted (s.takeSlot c r (s.chan c).queue) := by
  have hcount : ∀ k, 0x28 ≤ k → k < 0x38 → memCounter (0x100000 + k + 0x10000 * c) := fun k h1 h2 => by
    unfold memCounter
    omega
  unfold State.takeSlot
  obtain ⟨left, owed⟩ := s.window c
  dsimp -zeta only
  extract_lets x s1 wait s2 s3
  have h1 : s.Slotted s1 := Slotted.setChan s c _ _ _ _
  clear_value s1
  have h2 : s.Slotted s2 := by
    refine h1.trans (Slotted.memCount s1 ?_ 1)
    split
    · exact hcount 0x28 (by decide) (by decide)
    · exact hcount 0x28 (by decide) (by decide)
  clear_value s2
  have h3 : s.Slotted s3 := Slotted.ite (h2.trans (Slotted.memCount s2 (hcount 0x30 (by decide) (by decide)) 1)) h2
  clear_value s3
  refine Slotted.ite ?_ h3
  unfold State.peak
  exact Slotted.ite (h3.trans (Slotted.wr s3 (hcount 0x30 (by decide) (by decide)) _)) h3

/-! The scrub's claim on a slot (R48, R72). -/

/-- How far the patrol scrub of a channel lies behind its schedule now (R72). -/
def State.scrubLag (s : State) (c : Nat) : Nat :=
  min (2 ^ 27) (2 ^ 27 * (if s.rd (MEMC_STATUS_STATE c) == 2 && s.on (MEMC_SCRUB_CTL_ENABLE c) then (s.chan c).scrubClock + (s.now - (s.chan c).scrubSince)
    else (s.chan c).scrubClock) / ((s.chan c).scrubPeriod * 3600000000000)) - s.rd (MEMC_SCRUB_POS_POSITION c)

theorem State.rd_behind_scrubSync (s : State) (c : Nat) : (s.scrubSync c).rd (MEMC_SCRUB_LAG_BEHIND c) =
    if s.scrubLag c = 0 then 0 else if 13421772 < s.scrubLag c then 1 else s.rd (MEMC_SCRUB_LAG_BEHIND c) := by
  unfold State.scrubSync
  extract_lets x run t s1 target lag s2
  have hlag : lag = s.scrubLag c := rfl
  have hrd : s2.rd (MEMC_SCRUB_LAG_BEHIND c) = s.rd (MEMC_SCRUB_LAG_BEHIND c) :=
    (State.rd_wr_apart s1 (MEMC_SCRUB_LAG_LAG c) (MEMC_SCRUB_LAG_BEHIND c) _ (show 0 ≤ 26 by decide) (show 26 < 64 by decide) rfl
      (Or.inr (show 26 < 63 by decide))).trans (State.rd_congr (State.setChan_regs ..) _)
  clear_value s2
  rw [hlag]
  split
  · exact State.rd_wr_same s2 (MEMC_SCRUB_LAG_BEHIND c) 0 (show 63 ≤ 63 by decide) (show 63 < 64 by decide)
  · split
    · exact State.rd_wr_same s2 (MEMC_SCRUB_LAG_BEHIND c) 1 (show 63 ≤ 63 by decide) (show 63 < 64 by decide)
    · exact hrd

/-- The scrub of a channel is behind as its registers, its clock and the time say. -/
theorem State.behind_congr {s t : State} {c : Nat} (hregs : ∀ o ∈ [MEMC_STATUS c, MEMC_SCRUB_CTL c, MEMC_SCRUB_POS c, MEMC_SCRUB_LAG c], t.reg o = s.reg o)
    (hnow : t.now = s.now) (hchan : ∃ a b d e, t.chan c = { s.chan c with windowLeft := a, localOwed := b, lastRemote := d, scrubTurn := e }) :
    (t.scrubSync c).rd (MEMC_SCRUB_LAG_BEHIND c) = (s.scrubSync c).rd (MEMC_SCRUB_LAG_BEHIND c) := by
  obtain ⟨a, b, d, e, hk⟩ := hchan
  have hrd : ∀ f : RF, f.off ∈ [MEMC_STATUS c, MEMC_SCRUB_CTL c, MEMC_SCRUB_POS c, MEMC_SCRUB_LAG c] → t.rd f = s.rd f := fun f hf => by
    rw [State.rd, State.rd, hregs _ hf]
  have hlag : t.scrubLag c = s.scrubLag c := by
    unfold State.scrubLag State.on
    rw [hrd (MEMC_STATUS_STATE c) (.head _), hrd (MEMC_SCRUB_CTL_ENABLE c) (.tail _ (.head _)),
      hrd (MEMC_SCRUB_POS_POSITION c) (.tail _ (.tail _ (.head _))), hnow, hk]
  rw [State.rd_behind_scrubSync, State.rd_behind_scrubSync, hlag, hrd (MEMC_SCRUB_LAG_BEHIND c) (.tail _ (.tail _ (.tail _ (.head _))))]

/-- What the scrub's schedule rests on is none of the counters. -/
theorem scrub_not_counter {c o : Nat} (h : o ∈ [MEMC_STATUS c, MEMC_SCRUB_CTL c, MEMC_SCRUB_POS c, MEMC_SCRUB_LAG c]) :
    ¬ memCounter o ∧ ∀ d, d < 96 → o ≠ MEMC_INJECT d := by
  simp only [List.mem_cons, List.not_mem_nil, or_false, MEMC_STATUS, MEMC_SCRUB_CTL, MEMC_SCRUB_POS, MEMC_SCRUB_LAG] at h
  refine ⟨?_, fun d hd => ?_⟩
  · unfold memCounter
    omega
  · unfold MEMC_INJECT
    omega

theorem State.Slotted.calm {s t : State} (h : s.Slotted t) {c : Nat} (hc : Claim.Calm s c) : Claim.Calm t c := by
  obtain ⟨hq, hrows, hbehind⟩ := hc
  exact ⟨(h.queue c).trans hq, (h.needRows c).trans hrows,
    (State.behind_congr (fun o ho => h.regs o (scrub_not_counter ho).1) h.now (h.chans c)).trans hbehind⟩

/-! The only candidate of a channel is served next. -/

theorem oldest_singleton (x : MemReq × Nat) {p : MemReq → Bool} (h : p x.1 = true) : oldest [x] p = some x.2 := by
  have hone : [x].filter (fun y => p y.1) = [x] := List.filter_cons_of_pos h
  rw [oldest, hone]
  rfl

theorem nextSource_singleton (n last : Nat) : nextSource [n] last = some n := by
  have hall : leastWith (fun _ => true) [n] = some n := rfl
  unfold nextSource
  by_cases h : last < n
  · have hone : leastWith (fun x => decide (last < x)) [n] = some n := by
      have hf : [n].filter (fun x => decide (last < x)) = [n] := List.filter_cons_of_pos (decide_eq_true h)
      rw [leastWith, hf]
      rfl
    rw [hone]
  · have hone : leastWith (fun x => decide (last < x)) [n] = none := by
      have hf : [n].filter (fun x => decide (last < x)) = [] := List.filter_cons_of_neg (by rw [decide_eq_true_eq]; exact h)
      rw [leastWith, hf]
      rfl
    rw [hone]
    exact hall

theorem chooseGrant_singleton (x : MemReq × Nat) (left owed last now : Nat) : chooseGrant [x] left owed last now = some x.2 := by
  have hfirst : oldest [x] (fun _ => true) = some x.2 := oldest_singleton x rfl
  have hlate : oldest [x] (fun r => decide (r.arrived + 16000 ≤ now)) = some x.2 ∨ oldest [x] (fun r => decide (r.arrived + 16000 ≤ now)) = none := by
    by_cases h : decide (x.1.arrived + 16000 ≤ now) = true
    · exact Or.inl (oldest_singleton x (p := fun r => decide (r.arrived + 16000 ≤ now)) h)
    · have hf : [x].filter (fun y => decide (y.1.arrived + 16000 ≤ now)) = [] := List.filter_cons_of_neg h
      exact Or.inr (by rw [oldest, hf]; rfl)
  unfold chooseGrant
  cases hsrc : x.1.src with
  | none =>
    have hhere : ([x].any (fun y => some y.2 == oldest [x] (fun _ => true) && y.1.src.isNone)) = true := by
      rw [List.any_cons, hfirst, hsrc, beq_self_eq_true]
      rfl
    have hfar : ([x].any (fun y => y.1.src.isSome)) = false := by rw [List.any_cons, List.any_nil, hsrc]; rfl
    dsimp only
    rw [hfar, Bool.and_false, Bool.false_and, if_neg Bool.false_ne_true, hhere, if_pos rfl, hfirst]
    obtain h | h := hlate
    · rw [h]
    · rw [h]
  | some n =>
    have hhere : ([x].any (fun y => y.1.src.isNone)) = false := by rw [List.any_cons, List.any_nil, hsrc]; rfl
    have hnot : ([x].any (fun y => some y.2 == oldest [x] (fun _ => true) && y.1.src.isNone)) = false := by
      rw [List.any_cons, List.any_nil, hsrc, Bool.or_false, show (some n).isNone = false from rfl, Bool.and_false]
    have hnext : [x].filterMap (fun y => y.1.src) = [n] := by rw [List.filterMap_cons, hsrc]; rfl
    have hlast : oldest [x] (fun r => r.src == some n) = some x.2 := oldest_singleton x (by rw [hsrc, beq_self_eq_true])
    dsimp only
    rw [hhere, Bool.false_and, Bool.false_and, if_neg Bool.false_ne_true, hnot, if_neg Bool.false_ne_true, hnext, nextSource_singleton]
    obtain h | h := hlate
    · rw [h]
    · rw [h]
      exact hlast

/-- A request that waits for nothing: the words that it touches are not being copied, the host holds no line, and it is not provisional. -/
def MemReq.Free (r : MemReq) (s : State) : Prop := r.prov = false ∧ (r.holder = true ∨ s.host.dir = [])

theorem State.candidates_only {s : State} {c : Nat} {r : MemReq} (hr : r.Free s) (hrows : (s.chan c).needRows = []) :
    s.candidates c [r] = [(r, 0)] := by
  obtain ⟨hprov, hheld⟩ := hr
  have hfree : s.recordFree r = true := by rw [State.recordFree, State.provNow, hprov]; rfl
  have hwords : ∀ w, (!(s.chan c).needRows.any (fun n => n.1 == rowOf (rowGranuleOf w)) && (r.holder || (s.heldLines w 1).isEmpty)) = true := fun w => by
    rw [hrows]
    obtain h | h := hheld
    · rw [h]; rfl
    · have hlines : s.heldLines w 1 = [] := by rw [State.heldLines, h, List.isEmpty_nil, Bool.not_true, Bool.and_false]; rfl
      rw [hlines, List.isEmpty_nil, Bool.or_true]; rfl
  unfold State.candidates
  refine List.filter_cons_of_pos ?_
  dsimp only
  rw [hfree, List.all_eq_true.mpr fun w _ => hwords w]
  cases r.holder <;> rfl

theorem State.scrubHolds_calm {s : State} {c : Nat} (h : (s.scrubSync c).rd (MEMC_SCRUB_LAG_BEHIND c) = 0) : s.scrubHolds c = false := by
  have hoff : (s.scrubSync c).on (MEMC_SCRUB_LAG_BEHIND c) = false := by rw [State.on, h]; rfl
  rw [State.scrubHolds, hoff, Bool.and_false]

/-- A request that arrives at a calm channel takes its next slot. -/
theorem State.slotNow_calm {s : State} {r : MemReq} (hr : r.Free s) (htop : r.off < memTop) (hc : Claim.Calm s (channelOf r.off)) :
    ∃ t, s.slotNow r = some t ∧ s.Slotted t := by
  obtain ⟨hq, hrows, hbehind⟩ := hc
  have hnext : s.channelNext (channelOf r.off) [r] = some 0 := by
    rw [State.channelNext, State.scrubHolds_calm hbehind, if_neg Bool.false_ne_true, State.candidates_only hr hrows, chooseGrant_singleton]
  refine ⟨s.takeSlot (channelOf r.off) r (s.chan (channelOf r.off)).queue, ?_, s.takeSlot_slotted (channelOf_lt _) r⟩
  rw [State.slotNow, if_pos htop]
  dsimp only
  rw [hq, List.nil_append, hnext]
  rfl

end Sys2Proof.Machine
end

section
/-! PROOF. Accesses to memory that nothing holds up (R40 to R43, R56, R62): what they answer, and what they change. -/
namespace Sys2Proof.Machine
open Reg

/-! Bytes that can be accessed at once. -/

/-- Bytes of one granule of memory whose channel serves and is calm, and whose words are undamaged and outside the tail area. -/
structure State.Open (s : State) (off len : Nat) : Prop where
  pos : 0 < len
  top : off + len ≤ memTop
  one : (off + len - 1) / 256 = off / 256
  fence : s.chFenced (channelOf off) = false
  serves : s.rd (MEMC_STATUS_STATE (channelOf off)) = 2
  calm : Claim.Calm s (channelOf off)
  clean : ∀ w ∈ wordsIn off len, s.damage w = {} ∧ s.inTail w = false

/-- Aligned bytes lie in one word. -/
theorem State.plain_in {s : State} {off len : Nat} (h : Claim.Plain s off len) : 0 < len ∧ off % 64 + len ≤ 64 := by
  obtain ⟨hlen, halign, -⟩ := h
  have hlen' : 0 < len ∧ 64 % len = 0 := by
    simp only [List.mem_cons, List.not_mem_nil, or_false] at hlen
    obtain rfl | rfl | rfl | rfl | rfl | rfl | rfl := hlen <;> decide
  obtain ⟨hpos, h64⟩ := hlen'
  obtain ⟨k, hk⟩ := Nat.dvd_of_mod_eq_zero h64
  obtain ⟨q, hq⟩ := Nat.dvd_of_mod_eq_zero halign
  have hmod : off % 64 = len * (q % k) := by rw [hq, hk, Nat.mul_mod_mul_left]
  have hlt : q % k + 1 ≤ k := Nat.mod_lt _ (Nat.pos_of_ne_zero fun h0 => by rw [h0, Nat.mul_zero] at hk; exact absurd hk (by decide))
  refine ⟨hpos, ?_⟩
  calc off % 64 + len = len * (q % k + 1) := by rw [hmod, Nat.mul_add, Nat.mul_one]
    _ ≤ len * k := Nat.mul_le_mul_left _ hlt
    _ = 64 := hk.symm

theorem State.plain_one {s : State} {off len : Nat} (h : Claim.Plain s off len) : (off + len - 1) / 64 = off / 64 := by
  obtain ⟨hpos, hin⟩ := State.plain_in h
  omega

theorem State.Open.of_plain {s : State} {off len : Nat} (h : Claim.Plain s off len) : s.Open off len := by
  obtain ⟨hpos, hin⟩ := State.plain_in h
  obtain ⟨-, -, htop, hfence, hserves, hcalm, hclean, htail, -⟩ := h
  have hmem : off + len ≤ memTop := by
    rw [memTop]
    omega
  refine ⟨hpos, hmem, by omega, hfence, hserves, hcalm, fun w hw => ?_⟩
  obtain ⟨hw0, hw1, hw2⟩ := (mem_wordsIn hmem hpos).mp hw
  have hword : w = off / 64 * 64 := by omega
  have hwtop : w < memTop := by omega
  have hdamage : s.damage w = s.damage off := by
    rw [State.damage, State.damage, if_pos hwtop, if_pos (show off < memTop by omega), show w / 64 = off / 64 by omega]
  exact ⟨hdamage.trans hclean, by rw [hword]; exact htail⟩

theorem State.Open.slotted {s t : State} {off len : Nat} (h : s.Open off len) (hs : s.Slotted t) : t.Open off len := by
  have hlow : ∀ {c}, ¬ memCounter (MEMC_STATUS c) := fun {c} => by
    unfold memCounter MEMC_STATUS
    omega
  refine ⟨h.pos, h.top, h.one, ?_, (hs.rd hlow).trans h.serves, hs.calm h.calm, fun w hw => ⟨(hs.damage w).trans (h.clean w hw).1, ?_⟩⟩
  · rw [State.chFenced, hs.rd]
    · exact h.fence
    · have := channelOf_lt off
      simp only [memCounter, FLT_FENCED_CH_FENCED, FLT_FENCED_CH]
      omega
  · rw [State.inTail, hs.tailArea]
    exact (h.clean w hw).2

section
variable {s : State} {off len : Nat} (h : s.Open off len)
include h

theorem State.Open.word_channel {w : Nat} (hw : w ∈ wordsIn off len) : w < memTop ∧ channelOf w = channelOf off ∧ w / 256 = off / 256 := by
  obtain ⟨hw0, hw1, hw2⟩ := (mem_wordsIn h.top h.pos).mp hw
  have htop := h.top
  have hone := h.one
  have hgran : w / 256 = off / 256 := by omega
  exact ⟨by omega, channelOf_granule hgran, hgran⟩

theorem State.Open.storageOut {w : Nat} (hw : w ∈ wordsIn off len) : s.storageOut w = none := by
  obtain ⟨hwtop, hchan, -⟩ := h.word_channel hw
  have hrange : rangeOf w = .memory := if_pos hwtop
  rw [State.storageOut, hrange]
  dsimp only
  rw [hchan, h.fence, if_neg Bool.false_ne_true, if_neg (not_not.mpr h.serves)]

theorem State.Open.range : rangeOf off = .memory := if_pos (by have := h.top; have := h.pos; omega)

theorem State.Open.crosses : crosses off len = false := by
  have htop := h.top
  rw [memTop] at htop
  have hpos := h.pos
  have hnode : ∀ a, a < 0x30000000000 → gaNode a = 0 := fun a ha => by
    rw [gaNode, bitsOf]
    omega
  have hrange : ∀ a, a < 0x30000000000 → rangeOf (gaOff a) = .memory := fun a ha => if_pos (by
    rw [gaOff, memTop]
    omega)
  rw [Machine.crosses, hnode _ (by omega), hnode _ (by omega), hrange _ (by omega), hrange _ (by omega)]
  simp only [bne_self_eq_false, Bool.or_self, Bool.and_false]

theorem State.Open.blocked {k : ReachKind} (hk : k ≠ .spAtomic) : s.blocked k off len = none := by
  have hserved : servedIn k .memory = true := bne_iff_ne.mpr hk
  have hout : (wordsIn off len).filterMap s.storageOut = [] := List.filterMap_eq_nil_iff.mpr fun w hw => h.storageOut hw
  have htail : (wordsIn off len).any s.inTail = false := List.any_eq_false.mpr fun w hw => by rw [(h.clean w hw).2]; decide
  rw [State.blocked, h.crosses, h.range, hserved]
  dsimp only
  rw [hout, htail]
  rfl

theorem State.Open.block {k : ReachKind} (hk : k ≠ .spAtomic) (q : Requester) : s.block k q off len = none := by
  rw [State.block, h.blocked hk]

theorem State.Open.pieces : accessPieces off len = [(off, len)] := by
  have htop := h.top
  have hpos := h.pos
  have hone := h.one
  have hunit : (if off < memTop then 256 else 16) = 256 := if_pos (by omega)
  rw [accessPieces, hunit]
  dsimp only
  rw [if_neg (by omega), hone, Nat.sub_self]
  simp only [List.range_one, Nat.zero_add, List.map_cons, List.map_nil, Nat.add_zero]
  rw [show max off (off / 256 * 256) = off by omega, show min (off + len) ((off / 256 + 1) * 256) - off = len by omega]

theorem State.Open.localStop {b : LocalBy} (hk : b.kind ≠ .spAtomic) (hheld : b.holder = true ∨ s.host.dir = []) : s.localStop b off len = none := by
  have hwait : (if b.holder then none else (s.waitSnoop off len).map (fun s => (s, LocalRes.wait))) = none := by
    obtain hb | hb := hheld
    · rw [hb, if_pos rfl]
    · have hlines : s.heldLines off len = [] := by rw [State.heldLines, hb, List.isEmpty_nil, Bool.not_true, Bool.and_false]; rfl
      rw [State.waitSnoop, hlines]
      exact ite_self _
  rw [State.localStop, h.blocked hk]
  exact hwait

/-- An access that nothing holds up is performed at once. -/
theorem State.Open.localAccess {b : LocalBy} {o : LocalOp} (hk : b.kind ≠ .spAtomic) (hheld : b.holder = true ∨ s.host.dir = [])
    (hnone : Claim.NoneWaits s b.agent) (hoff : (b.req s.now (o.piece off len) .none).off ∈ wordsIn off len ∨ (b.req s.now (o.piece off len) .none).off = off) :
    ∃ t, s.Slotted t ∧ s.localAccess b off len o = ((o.now t).1, .done (o.now t).2) := by
  have hflash : ¬ rangeOf off = .flash := by rw [h.range]; decide
  have hrbuf : s.rbufOf b.agent (gaOf s.node off) (o.key + len) = none := by
    rw [State.rbufOf, List.find?_eq_none]
    intro x hx
    rw [beq_eq_false_iff_ne.mpr (hnone x hx), Bool.false_and, Bool.false_and]
    exact Bool.false_ne_true
  have hplace : (b.req s.now (o.piece off len) .none).off < memTop ∧ channelOf (b.req s.now (o.piece off len) .none).off = channelOf off := by
    obtain hw | hw := hoff
    · obtain ⟨h1, h2, -⟩ := h.word_channel hw
      exact ⟨h1, h2⟩
    · have := h.top
      have := h.pos
      rw [hw]
      exact ⟨by omega, rfl⟩
  obtain ⟨t, ht, hslot⟩ := State.slotNow_calm (s := s) (r := b.req s.now (o.piece off len) .none) ⟨rfl, hheld⟩ hplace.1 (by rw [hplace.2]; exact h.calm)
  refine ⟨t, hslot, ?_⟩
  have hslots : s.slotsNow b o [(off, len)] = some t := ht
  unfold State.localAccess
  dsimp only
  rw [if_neg hflash, h.pieces, List.any_cons, List.any_nil, Bool.or_false, hrbuf, Option.isSome_none, if_neg Bool.false_ne_true,
    h.localStop hk hheld]
  dsimp only
  rw [hslots]

end

/-! Reads (R56). -/

theorem State.readEcc_clean {s : State} {w : Nat} (h : s.damage w = {}) (scrub : Bool) (who : Option (Nat × Nat)) :
    s.readEcc w scrub who = (s, false, false) := by
  have hdecode : s.decode w = (s, .clean) := by
    rw [State.decode, h]
    rfl
  rw [State.readEcc, hdecode]

theorem State.readWords_clean {s : State} {ws : List Nat} (h : ∀ w ∈ ws, s.damage w = {}) : s.readWords ws = (s, [], []) := by
  unfold State.readWords
  induction ws with
  | nil => rfl
  | cons w ws ih =>
    rw [List.foldl_cons]
    dsimp only
    rw [State.readEcc_clean (h w List.mem_cons_self)]
    exact ih fun v hv => h v (List.mem_cons_of_mem _ hv)

/-- The bytes that each word of a read counts (R40). -/
theorem State.Slotted.foldl_memCount {s : State} {ws : List Nat} {f : Nat → RF} (hf : ∀ w ∈ ws, memCounter (f (channelOf w)).off) :
    s.Slotted (ws.foldl (fun s w => s.memCount (channelOf w) (f (channelOf w)) 64) s) := by
  induction ws generalizing s with
  | nil => exact .refl s
  | cons w ws ih => exact (memCount s (hf w List.mem_cons_self) 64).trans (ih fun v hv => hf v (List.mem_cons_of_mem _ hv))

theorem memCounter_of {k c : Nat} (hc : c < 96) (h : 0x10 ≤ k) (h' : k < 0x38) : memCounter (0x100000 + k + 0x10000 * c) := by
  unfold memCounter
  omega

section
variable {s : State} {off len : Nat} (h : s.Open off len)
include h

/-- A read of undamaged memory answers its bytes. -/
theorem State.Open.readStore : ∃ t, s.Slotted t ∧ s.readStore off len = (t, .data (s.peek off len) [] []) := by
  have hslot : s.Slotted ((wordsIn off len).foldl (fun s w => s.memCount (channelOf w) (MEMC_RD_BYTES_RD_BYTES (channelOf w)) 64) s) :=
    State.Slotted.foldl_memCount (f := fun c => MEMC_RD_BYTES_RD_BYTES c) fun w _ =>
      memCounter_of (k := 0x10) (channelOf_lt w) (by decide) (by decide)
  refine ⟨_, hslot, ?_⟩
  rw [State.readStore, h.range]
  dsimp only
  rw [if_pos rfl, State.readWords_clean fun w hw => (hslot.damage w).trans (h.clean w hw).1]
  dsimp only
  rw [State.unpoisoned, List.isEmpty_nil, if_pos rfl, hslot.peek]

/-- A read that nothing holds up. -/
theorem State.Open.localRead {b : LocalBy} (hk : b.kind ≠ .spAtomic) (hheld : b.holder = true ∨ s.host.dir = []) (hnone : Claim.NoneWaits s b.agent) :
    ∃ t, s.Slotted t ∧ s.localRead b off len = (t, .done (.data (s.peek off len) [] [])) := by
  obtain ⟨t, ht, hacc⟩ := h.localAccess (o := { piece := fun o n => .read o n, now := fun s => s.readStore off len }) hk hheld hnone (Or.inr rfl)
  obtain ⟨u, hu, hread⟩ := (h.slotted ht).readStore
  refine ⟨u, ht.trans hu, ?_⟩
  rw [State.localRead, hacc]
  dsimp only
  rw [hread, ht.peek]

end

/-! Writes (R40, R62, R677). -/

/-- `t` follows `s` by writes of bytes of memory: counters, windows, storage and the damage of its words changed alone. -/
structure State.Stored (off : Nat) (bs : List Byte) (s t : State) : Prop where
  rest : t = { s with regs := t.regs, chans := t.chans, mem := t.mem, memDmg := t.memDmg }
  regs : ∀ o, ¬ memCounter o → o ≠ MEMC_INJECT (channelOf off) → t.reg o = s.reg o
  chans : ∀ k, ∃ a b c d, t.chan k = { s.chan k with windowLeft := a, localOwed := b, lastRemote := c, scrubTurn := d }
  damage : ∀ a, a / 64 < off / 64 ∨ (off + bs.length - 1) / 64 < a / 64 → t.damage a = s.damage a
  unarmed : s.rd (MEMC_INJECT_ARM (channelOf off)) = 0 → (∀ a, t.damage a = s.damage a) ∧ t.reg (MEMC_INJECT (channelOf off)) = s.reg (MEMC_INJECT (channelOf off))
  bytes : ∀ a, memGet t.mem a = if off ≤ a ∧ a < off + bs.length then bs.getD (a - off) 0 else memGet s.mem a
  wf : memWf t.mem = true

namespace State.Stored
variable {s t : State} {off : Nat} {bs : List Byte}

theorem now (h : s.Stored off bs t) : t.now = s.now := by rw [h.rest]
theorem host (h : s.Stored off bs t) : t.host = s.host := by rw [h.rest]
theorem out (h : s.Stored off bs t) : t.out = s.out := by rw [h.rest]
theorem rbuf (h : s.Stored off bs t) : t.rbuf = s.rbuf := by rw [h.rest]
theorem cores (h : s.Stored off bs t) : t.cores = s.cores := by rw [h.rest]
theorem tasks (h : s.Stored off bs t) : t.tasks = s.tasks := by rw [h.rest]
theorem chains (h : s.Stored off bs t) : t.chains = s.chains := by rw [h.rest]
theorem sup (h : s.Stored off bs t) : t.sup = s.sup := by rw [h.rest]
theorem rings (h : s.Stored off bs t) : t.rings = s.rings := by rw [h.rest]
theorem tailArea (h : s.Stored off bs t) : t.tailArea = s.tailArea := by rw [h.rest]

theorem outside (h : s.Stored off bs t) : Claim.Outside s t off bs.length := fun a ha => by
  rw [h.bytes a, if_neg (by omega)]

theorem peek (h : s.Stored off bs t) : t.peek off bs.length = bs := by
  refine List.ext_getElem (by rw [State.peek, List.length_map, List.length_range]) fun k _ hk => ?_
  simp only [State.peek, List.getElem_map, List.getElem_range]
  rw [h.bytes, if_pos ⟨by omega, by omega⟩, Nat.add_sub_cancel_left, List.getD_eq_getElem _ _ hk]

end State.Stored

/-- Word writes that lay bytes, before an injection: storage and counters changed alone. -/
structure State.Laid (off : Nat) (bs : List Byte) (ws : List WordWrite) (s t : State) : Prop where
  rest : t = { s with regs := t.regs, chans := t.chans, mem := t.mem, memDmg := t.memDmg }
  regs : ∀ o, ¬ memCounter o → t.reg o = s.reg o
  chans : ∀ k, ∃ a b c d, t.chan k = { s.chan k with windowLeft := a, localOwed := b, lastRemote := c, scrubTurn := d }
  damage : ∀ a, t.damage a = s.damage a
  bytes : ∀ a, memGet t.mem a =
    if (∃ w ∈ ws, w.off ≤ a ∧ a < w.off + 64) ∧ off ≤ a ∧ a < off + bs.length then bs.getD (a - off) 0 else memGet s.mem a
  wf : memWf t.mem = true

theorem State.damage_setDamage_clean {s : State} {w : Nat} (hw : s.damage w = {}) (htop : w < memTop) (a : Nat) :
    (s.setDamage w {}).damage a = s.damage a := by
  rw [State.setDamage, if_pos htop, State.damage, State.damage]
  rw [State.damage, if_pos htop] at hw
  dsimp only
  split
  · rw [if_pos rfl, tabGet_eq_getD, tabGet_eq_getD]
    by_cases ha : a / 64 = w / 64
    · rw [tabGet_eq_getD] at hw
      rw [ha, tabFind_tabDel_same, hw]
      rfl
    · rw [tabFind_tabDel_other _ _ _ ha]
  · rfl

/-- What `setDamage` leaves of a state. -/
theorem State.setDamage_eq (s : State) {w : Nat} (htop : w < memTop) (d : Damage) : ∃ x, s.setDamage w d = { s with memDmg := x } := by
  rw [State.setDamage, if_pos htop]
  exact ⟨_, rfl⟩

section
variable {s : State} {off : Nat} {bs : List Byte} {w : WordWrite}

/-- The bytes of one word, laid. -/
theorem laid_single (hword : eccBytes w.off = 64) {m : List Host.Cell}
    (hm : ∀ a, memGet m a = if (w.off ≤ a ∧ a < w.off + eccBytes w.off) ∧ off ≤ a ∧ a < off + bs.length then bs.getD (a - off) 0 else memGet s.mem a) (a : Nat) :
    memGet m a = if (∃ x ∈ [w], x.off ≤ a ∧ a < x.off + 64) ∧ off ≤ a ∧ a < off + bs.length then bs.getD (a - off) 0 else memGet s.mem a := by
  rw [hm, hword]
  simp only [List.mem_singleton, exists_eq_left]

theorem State.Laid.of_slotted {u : State} {ws : List WordWrite} (hs : s.Slotted u) (m : List Host.Cell) (d : Tab Damage)
    (hdamage : ∀ a, ({ u with mem := m, memDmg := d } : State).damage a = s.damage a)
    (hbytes : ∀ a, memGet m a = if (∃ w ∈ ws, w.off ≤ a ∧ a < w.off + 64) ∧ off ≤ a ∧ a < off + bs.length then bs.getD (a - off) 0 else memGet s.mem a)
    (hwf : memWf m = true) : State.Laid off bs ws s { u with mem := m, memDmg := d } :=
  ⟨congrArg (fun x : State => { x with mem := m, memDmg := d }) hs.rest, hs.regs, hs.chans, hdamage, hbytes, hwf⟩

theorem State.Laid.writeEcc (hwf : memWf s.mem = true) (htop : w.off < memTop)
    (hclean : s.damage w.off = {}) (hp : w.poison = false) (hl : w.Lays off bs) (who : Option (Nat × Nat)) :
    State.Laid off bs [w] s (s.writeEcc w who) := by
  have hword : eccBytes w.off = 64 := memTop_word htop
  unfold State.writeEcc
  extract_lets n mem c s1 whole s2
  have h1 : s.Slotted s1 := .ite (.memCount s (memCounter_of (k := 0x18) (channelOf_lt _) (by decide) (by decide)) 64) (.refl s)
  have h2 : s.Slotted s2 := .ite (h1.trans (.memCount s1 (memCounter_of (k := 0x20) (channelOf_lt _) (by decide) (by decide)) 1)) h1
  clear_value s1 s2
  rw [hp, if_neg Bool.false_ne_true]
  split
  next hwhole =>
    have hmask : w.mask = 2 ^ (8 * eccBytes w.off) - 1 := eq_of_beq hwhole
    obtain ⟨x, hx⟩ := (s1.setWordBits w.off w.data).setDamage_eq htop {}
    have hdamage : ∀ a, ((s1.setWordBits w.off w.data).setDamage w.off {}).damage a = s.damage a := fun a =>
      (State.damage_setDamage_clean (s := s1.setWordBits w.off w.data) ((h1.damage w.off).trans hclean) htop a).trans (h1.damage a)
    rw [hx] at hdamage ⊢
    refine State.Laid.of_slotted h1 _ _ hdamage (laid_single hword fun a => ?_) (State.setWordBits_wf s1 w.off w.data (h1.mem ▸ hwf))
    refine (memGet_wholeWord s1 (h1.mem ▸ hwf) hl hmask a).trans ?_
    rw [h1.mem]
  next =>
    rw [State.readEcc_clean ((h2.damage w.off).trans hclean)]
    refine State.Laid.of_slotted h2 _ _ (fun a => h2.damage a) (laid_single hword fun a => ?_) (State.setWordBits_wf s2 w.off _ (h2.mem ▸ hwf))
    refine (memGet_mergedWord s2 (h2.mem ▸ hwf) hl a).trans ?_
    rw [h2.mem]

theorem State.Laid.trans {ws : List WordWrite} {t u : State} (h : State.Laid off bs [w] s t) (h' : State.Laid off bs ws t u) : State.Laid off bs (w :: ws) s u := by
  refine ⟨h'.rest.trans (congrArg (fun x : State => { x with regs := u.regs, chans := u.chans, mem := u.mem, memDmg := u.memDmg }) h.rest),
    fun o ho => (h'.regs o ho).trans (h.regs o ho), fun k => ?_, fun a => (h'.damage a).trans (h.damage a), fun a => ?_, h'.wf⟩
  · obtain ⟨a, b, c, d, hk⟩ := h.chans k
    obtain ⟨a', b', c', d', hk'⟩ := h'.chans k
    exact ⟨a', b', c', d', by rw [hk', hk]⟩
  · have hone : (∃ x ∈ [w], x.off ≤ a ∧ a < x.off + 64) ↔ (w.off ≤ a ∧ a < w.off + 64) := by simp
    have hcons : (∃ x ∈ w :: ws, x.off ≤ a ∧ a < x.off + 64) ↔ (w.off ≤ a ∧ a < w.off + 64) ∨ ∃ x ∈ ws, x.off ≤ a ∧ a < x.off + 64 := by simp
    simp only [h'.bytes, h.bytes, hone, hcons]
    by_cases hin : off ≤ a ∧ a < off + bs.length
    · by_cases hws : ∃ x ∈ ws, x.off ≤ a ∧ a < x.off + 64
      · rw [if_pos ⟨hws, hin⟩, if_pos ⟨Or.inr hws, hin⟩]
      · rw [if_neg fun hh => hws hh.1]
        by_cases hw : w.off ≤ a ∧ a < w.off + 64
        · rw [if_pos ⟨hw, hin⟩, if_pos ⟨Or.inl hw, hin⟩]
        · rw [if_neg fun hh => hw hh.1, if_neg fun hh => hh.1.elim hw hws]
    · rw [if_neg fun hh => hin hh.2, if_neg fun hh => hin hh.2, if_neg fun hh => hin hh.2]

/-- Word writes in order lay their bytes. -/
theorem State.Laid.foldl {ws : List WordWrite} (hws : ∀ w ∈ ws, w.off < memTop ∧ w.poison = false ∧ w.Lays off bs) (who : Option (Nat × Nat)) :
    ∀ {s : State}, memWf s.mem = true → (∀ w ∈ ws, s.damage w.off = {}) → State.Laid off bs ws s (ws.foldl (fun s w => s.writeEcc w who) s) := by
  induction ws with
  | nil =>
    intro s hwf _
    refine ⟨rfl, fun _ _ => rfl, fun _ => ⟨_, _, _, _, rfl⟩, fun _ => rfl, fun a => ?_, hwf⟩
    rw [if_neg]
    · rfl
    · rintro ⟨⟨w, hw, -⟩, -⟩
      exact absurd hw List.not_mem_nil
  | cons w ws ih =>
    intro s hwf hclean
    obtain ⟨htop, hp, hl⟩ := hws w List.mem_cons_self
    have h1 := State.Laid.writeEcc hwf htop (hclean w List.mem_cons_self) hp hl who
    exact h1.trans (ih (fun v hv => hws v (List.mem_cons_of_mem _ hv)) h1.wf fun v hv =>
      (h1.damage v.off).trans (hclean v (List.mem_cons_of_mem _ hv)))

end

/-! An injection into a word that a write stored (R677). -/

/-- Injections at words of a channel: the damage of those words, and the channel's injection register. -/
structure State.Injected (c : Nat) (words : List Nat) (s t : State) : Prop where
  rest : t = { s with regs := t.regs, memDmg := t.memDmg }
  regs : ∀ o, o ≠ MEMC_INJECT c → t.reg o = s.reg o
  damage : ∀ a, (∀ w ∈ words, a / 64 ≠ w / 64) → t.damage a = s.damage a
  unarmed : s.rd (MEMC_INJECT_ARM c) = 0 → t = s

theorem State.damage_setDamage_other (s : State) {w a : Nat} (d : Damage) (h : a / 64 ≠ w / 64) (htop : w < memTop) : (s.setDamage w d).damage a = s.damage a := by
  rw [State.setDamage, if_pos htop, State.damage, State.damage]
  dsimp only
  split
  · split
    · rw [tabGet_eq_getD, tabGet_eq_getD, tabFind_tabDel_other _ _ _ h]
    · exact tabGet_tabPut_other _ _ _ _ _ h
  · rfl

theorem State.Injected.inject (s : State) {c : Nat} {words : List Nat} {w : Nat} (hw : w ∈ words) (htop : w < memTop) (hc : channelOf w = c) :
    s.Injected c words (s.inject w) := by
  subst hc
  unfold State.inject
  rw [if_pos htop]
  extract_lets c
  split
  next d u hon =>
    obtain ⟨x, hx, hdamage⟩ : ∃ x, u = { s with memDmg := x } ∧ ∀ a, a / 64 ≠ w / 64 → u.damage a = s.damage a := by
      have hset : ∀ e, ∃ x, s.setDamage w e = { s with memDmg := x } ∧ ∀ a, a / 64 ≠ w / 64 → (s.setDamage w e).damage a = s.damage a := fun e => by
        obtain ⟨x, hx⟩ := s.setDamage_eq htop e
        exact ⟨x, hx, fun a ha => s.damage_setDamage_other e ha htop⟩
      unfold u
      split
      · exact hset _
      · exact hset _
      · exact hset _
      · exact ⟨_, rfl, fun _ _ => rfl⟩
    clear_value u
    refine ⟨by rw [hx]; rfl, fun o ho => (State.reg_wr_other u (MEMC_INJECT_ARM c) 0 o ho).trans (by rw [hx]; rfl), fun a ha => hdamage a (ha w hw), fun h => ?_⟩
    rw [State.on, h] at hon
    exact absurd hon (by decide)
  next => exact ⟨rfl, fun _ _ => rfl, fun _ _ => rfl, fun _ => rfl⟩

theorem State.Injected.trans {s t u : State} {c : Nat} {words : List Nat} (h : s.Injected c words t) (h' : t.Injected c words u) : s.Injected c words u := by
  refine ⟨h'.rest.trans (congrArg (fun x : State => { x with regs := u.regs, memDmg := u.memDmg }) h.rest),
    fun o ho => (h'.regs o ho).trans (h.regs o ho), fun a ha => (h'.damage a ha).trans (h.damage a ha), fun harm => ?_⟩
  have ht := h.unarmed harm
  rw [ht] at h'
  exact h'.unarmed harm

theorem leastWith_mem {p : Nat → Bool} {l : List Nat} {x : Nat} (h : leastWith p l = some x) : x ∈ l := by
  have hfold : ∀ (l' : List Nat) (m : Option Nat), (∀ y, m = some y → y ∈ l) → (∀ y ∈ l', y ∈ l) →
      l'.foldl (fun m x => match m with | none => some x | some y => some (min x y)) m = some x → x ∈ l := by
    intro l'
    induction l' with
    | nil => exact fun m hm _ h => hm x h
    | cons z l' ih =>
      intro m hm hl' h
      rw [List.foldl_cons] at h
      refine ih _ ?_ (fun y hy => hl' y (List.mem_cons_of_mem _ hy)) h
      intro y hy
      have hz := hl' z List.mem_cons_self
      cases m with
      | none =>
        obtain rfl := Option.some.inj hy
        exact hz
      | some v =>
        obtain rfl := Option.some.inj hy
        obtain hmin | hmin := min_choice z v
        · rw [hmin]; exact hz
        · rw [hmin]; exact hm v rfl
  exact hfold _ none (fun _ h => absurd h (by simp)) (fun y hy => (List.mem_filter.mp hy).1) h

/-- The injections of a write to a channel (R677). -/
theorem State.Injected.foldl {c : Nat} {words : List Nat} (hwords : ∀ w ∈ words, w < memTop ∧ channelOf w = c) (gs : List Nat) (s : State) :
    s.Injected c words (gs.foldl (fun s g =>
      match leastWith (fun o => o / 256 == g) words with
      | some o => s.inject o
      | none => s) s) := by
  induction gs generalizing s with
  | nil => exact ⟨rfl, fun _ _ => rfl, fun _ _ => rfl, fun _ => rfl⟩
  | cons g gs ih =>
    rw [List.foldl_cons]
    refine State.Injected.trans ?_ (ih _)
    split
    next o ho =>
      have hmem := leastWith_mem ho
      exact State.Injected.inject s hmem (hwords o hmem).1 (hwords o hmem).2
    next => exact ⟨rfl, fun _ _ => rfl, fun _ _ => rfl, fun _ => rfl⟩

/-! Whole writes. -/

theorem State.Stored.of_slotted {s t u : State} {off : Nat} {bs : List Byte} (h : s.Slotted t) (h' : t.Stored off bs u) : s.Stored off bs u := by
  have hinject : ¬ memCounter (MEMC_INJECT (channelOf off)) := by
    have := channelOf_lt off
    unfold memCounter MEMC_INJECT
    omega
  refine ⟨h'.rest.trans (congrArg (fun x : State => { x with regs := u.regs, chans := u.chans, mem := u.mem, memDmg := u.memDmg }) h.rest),
    fun o ho ho' => (h'.regs o ho ho').trans (h.regs o ho), fun k => ?_, fun a ha => (h'.damage a ha).trans (h.damage a), fun harm => ?_, fun a => ?_, h'.wf⟩
  · obtain ⟨a, b, c, d, hk⟩ := h.chans k
    obtain ⟨a', b', c', d', hk'⟩ := h'.chans k
    exact ⟨a', b', c', d', by rw [hk', hk]⟩
  · obtain ⟨hd, hr⟩ := h'.unarmed ((h.rd hinject).trans harm)
    exact ⟨fun a => (hd a).trans (h.damage a), hr.trans (h.regs _ hinject)⟩
  · rw [h'.bytes, h.mem]


section
variable {s : State} {off : Nat} {bs : List Byte} (h : s.Open off bs.length) (hwf : memWf s.mem = true)
include h hwf

theorem State.Open.writeStore (who : Option (Nat × Nat)) : s.Stored off bs (s.writeStore (wordWrites off bs false) who) := by
  have hwords : ∀ w ∈ wordWrites off bs false, w.off ∈ wordsIn off bs.length ∧ w.poison = false ∧ w.Lays off bs := fun w hw => wordWrites_lays h.top h.pos hw
  have hlaid := State.Laid.foldl (ws := wordWrites off bs false) (s := s) (off := off) (bs := bs)
    (fun w hw => ⟨(h.word_channel (hwords w hw).1).1, (hwords w hw).2.1, (hwords w hw).2.2⟩) who hwf (fun w hw => (h.clean w.off (hwords w hw).1).1)
  have hinj : ∀ u : State, u.Injected (channelOf off) ((wordWrites off bs false).map (·.off)) _ :=
    State.Injected.foldl (words := (wordWrites off bs false).map (·.off)) (fun w hw => by
      obtain ⟨x, hx, rfl⟩ := List.mem_map.mp hw
      obtain ⟨h1, h2, -⟩ := h.word_channel (hwords x hx).1
      exact ⟨h1, h2⟩) (((wordWrites off bs false).map (fun w => w.off / 256)).dedup)
  have hfinal := hinj ((wordWrites off bs false).foldl (fun s w => s.writeEcc w who) s)
  have heq : s.writeStore (wordWrites off bs false) who = ((wordWrites off bs false).map (fun w => w.off / 256)).dedup.foldl (fun s g =>
      match leastWith (fun o => o / 256 == g) ((wordWrites off bs false).map (·.off)) with
      | some o => s.inject o
      | none => s) ((wordWrites off bs false).foldl (fun s w => s.writeEcc w who) s) := rfl
  rw [← heq] at hfinal
  generalize hv : (wordWrites off bs false).foldl (fun s w => s.writeEcc w who) s = v at hlaid hfinal
  generalize s.writeStore (wordWrites off bs false) who = t at hfinal ⊢
  have hmem : t.mem = v.mem := by rw [hfinal.rest]
  have hinject : ¬ memCounter (MEMC_INJECT (channelOf off)) := by
    have := channelOf_lt off
    unfold memCounter MEMC_INJECT
    omega
  have hchans : t.chans = v.chans := by rw [hfinal.rest]
  refine ⟨by rw [hmem, hchans]; exact hfinal.rest.trans (congrArg (fun x : State => { x with regs := t.regs, memDmg := t.memDmg }) hlaid.rest),
    fun o ho ho' => (hfinal.regs o ho').trans (hlaid.regs o ho), fun k => ?_, fun a ha => (hfinal.damage a ?_).trans (hlaid.damage a), fun harm => ?_, fun a => ?_,
    hmem ▸ hlaid.wf⟩
  · have hk : t.chan k = v.chan k := by rw [hfinal.rest]; rfl
    rw [hk]
    exact hlaid.chans k
  · intro w hw
    obtain ⟨x, hx, rfl⟩ := List.mem_map.mp hw
    obtain ⟨h0, h1, h2⟩ := (mem_wordsIn h.top h.pos).mp (hwords x hx).1
    omega
  · have hreg := hlaid.regs _ hinject
    have htv := hfinal.unarmed ((congrArg (fun w => fieldOf w 8 8) hreg).trans harm)
    rw [htv]
    exact ⟨hlaid.damage, hreg⟩
  · rw [hmem, hlaid.bytes]
    by_cases hin : off ≤ a ∧ a < off + bs.length
    · have hword : a / 64 * 64 ∈ wordsIn off bs.length := (mem_wordsIn h.top h.pos).mpr (by omega)
      obtain ⟨x, hx, hxoff⟩ : ∃ x ∈ wordWrites off bs false, x.off = a / 64 * 64 := ⟨_, List.mem_map_of_mem hword, rfl⟩
      rw [if_pos ⟨⟨x, hx, by omega⟩, hin⟩, if_pos hin]
    · rw [if_neg fun hh => hin hh.2, if_neg hin]

omit hwf in
/-- The words of a write lie in its only piece, and the first of them places the request. -/
theorem State.Open.writesIn_piece (poison : Bool) : writesIn (wordWrites off bs poison) off bs.length = wordWrites off bs poison := by
  refine List.filter_eq_self.mpr fun w hw => ?_
  have htop := h.top
  have hpos := h.pos
  obtain ⟨h0, h1, h2⟩ := (mem_wordsIn htop hpos).mp (wordWrites_lays htop hpos hw).1
  rw [memTop_word (show off < memTop by omega), decide_eq_true h1, decide_eq_true h2]
  rfl

omit hwf in
theorem State.Open.write_off (poison : Bool) (r : MemReq) : { r with op := .write (wordWrites off bs poison) }.off ∈ wordsIn off bs.length := by
  have htop := h.top
  have hpos := h.pos
  have hword : off / 64 * 64 ∈ wordsIn off bs.length := (mem_wordsIn htop hpos).mpr (by omega)
  cases hws : wordWrites off bs poison with
  | nil => exact absurd (List.mem_map_of_mem (f := fun _ => ()) hword) (by rw [List.map_eq_nil_iff.mp hws]; exact List.not_mem_nil)
  | cons w ws =>
    have hw : w ∈ wordWrites off bs poison := by rw [hws]; exact List.mem_cons_self
    exact (wordWrites_lays htop hpos hw).1

/-- A write of an agent that nothing holds up. -/
theorem State.Open.localWrite {b : LocalBy} (hk : b.kind ≠ .spAtomic) (hheld : b.holder = true ∨ s.host.dir = []) (hnone : Claim.NoneWaits s b.agent) :
    ∃ t, s.Stored off bs t ∧ s.localWrite b off bs.length (wordWrites off bs false) = (t, .done .done) := by
  obtain ⟨t, ht, hacc⟩ := h.localAccess (o := b.writes (wordWrites off bs false)) hk hheld hnone (Or.inl (by
    have hpiece : (b.writes (wordWrites off bs false)).piece off bs.length = .write (wordWrites off bs false) := congrArg MemOp.write (h.writesIn_piece false)
    rw [hpiece]
    exact h.write_off false (b.req s.now (.write []) .none)))
  exact ⟨_, .of_slotted ht ((h.slotted ht).writeStore (ht.mem ▸ hwf) _), hacc⟩

omit hwf in
/-- The slot of a write that nothing holds up. -/
theorem State.Open.write_slot (poison : Bool) {r : MemReq} (hr : r.Free s) :
    ∃ t, s.Slotted t ∧ s.slotNow { r with op := .write (writesIn (wordWrites off bs poison) off bs.length) } = some t := by
  rw [h.writesIn_piece]
  obtain ⟨htop, hchan, -⟩ := h.word_channel (h.write_off poison r)
  obtain ⟨t, ht, hslot⟩ := State.slotNow_calm (s := s) (r := { r with op := .write (wordWrites off bs poison) }) hr htop (by rw [hchan]; exact h.calm)
  exact ⟨t, hslot, ht⟩

/-- A write presented once that nothing holds up. -/
theorem State.Open.writeOnce {b : LocalBy} (hk : b.kind ≠ .spAtomic) (hheld : b.holder = true ∨ s.host.dir = []) :
    ∃ t, s.Stored off bs t ∧ s.writeOnce b off bs.length (wordWrites off bs false) = (t, .done .done) := by
  obtain ⟨t, ht, hslot⟩ := h.write_slot (r := b.req s.now (.write []) .none) false ⟨rfl, hheld⟩
  have hslots : s.slotsNow b (b.writes (wordWrites off bs false)) [(off, bs.length)] = some t := hslot
  refine ⟨_, .of_slotted ht ((h.slotted ht).writeStore (ht.mem ▸ hwf) (b.who.map Requester.code)), ?_⟩
  rw [State.writeOnce, h.localStop hk hheld, h.pieces]
  dsimp only
  rw [hslots]

/-- A posted write that nothing holds up. -/
theorem State.Open.postLocal {r : MemReq} (hr : r.Free s) :
    ∃ t, s.Stored off bs t ∧ s.postLocal off bs.length (wordWrites off bs false) r = t.deliver r.sink .done := by
  obtain ⟨t, ht, hslot⟩ := h.write_slot (r := { r with arrived := s.now }) false hr
  refine ⟨_, .of_slotted ht ((h.slotted ht).writeStore (ht.mem ▸ hwf) r.who), ?_⟩
  rw [State.postLocal, h.pieces, List.foldl_cons, List.foldl_nil]
  dsimp only
  rw [hslot, h.writesIn_piece]

end

/-! Atomic operations (R63). -/

/-- An atomic operation of bytes that lie in one word. -/
theorem State.Open.atomStore {s : State} {off op : Nat} (h : s.Open off (atomBytes op)) (hwf : memWf s.mem = true) (v n : Nat) (who : Option (Nat × Nat)) :
    ∃ t, s.Stored off (leBytes (atomBytes op) (atomNew op (leNat (s.peek off (atomBytes op))) v n)) t
      ∧ s.atomStore off op v n who = (t, .old (leNat (s.peek off (atomBytes op)))) := by
  have hopen : s.Open off (leBytes (atomBytes op) (atomNew op (leNat (s.peek off (atomBytes op))) v n)).length := by
    rw [leBytes_length]
    exact h
  refine ⟨_, hopen.writeStore hwf who, ?_⟩
  rw [State.atomStore]
  dsimp only
  rw [State.readWords_clean fun w hw => (h.clean w hw).1]

theorem State.Open.localAtom {s : State} {off op : Nat} (h : s.Open off (atomBytes op)) (hwf : memWf s.mem = true) {b : LocalBy} (v n : Nat)
    (hk : b.kind ≠ .spAtomic) (hheld : b.holder = true ∨ s.host.dir = []) (hnone : Claim.NoneWaits s b.agent) :
    ∃ t, s.Stored off (leBytes (atomBytes op) (atomNew op (leNat (s.peek off (atomBytes op))) v n)) t
      ∧ s.localAtom b off op v n = (t, .done (.old (leNat (s.peek off (atomBytes op))))) := by
  obtain ⟨t, ht, hacc⟩ := h.localAccess
    (o := { key := 8192 + op, piece := fun o _ => .atom o op v n, now := fun s => s.atomStore off op v n (b.who.map Requester.code) })
    hk hheld hnone (Or.inr rfl)
  obtain ⟨u, hu, hatom⟩ := (h.slotted ht).atomStore (ht.mem ▸ hwf) v n (b.who.map Requester.code)
  rw [ht.peek] at hu hatom
  refine ⟨u, .of_slotted ht hu, ?_⟩
  rw [State.localAtom, hacc]
  dsimp only
  rw [hatom]

/-! What a write leaves accessible. -/

/-- Bytes that do not share a word with a write can be accessed after it. -/
theorem State.Open.stored {s t : State} {off len at' : Nat} {bs : List Byte} (h : s.Open off len) (hs : s.Stored at' bs t)
    (hdmg : ∀ w ∈ wordsIn off len, t.damage w = s.damage w) : t.Open off len := by
  have hlow : ∀ o, o < 0x100000 ∨ o % 0x10000 < 0x10 → t.reg o = s.reg o := fun o ho => hs.regs o (by unfold memCounter; omega) (by
    unfold MEMC_INJECT
    have := channelOf_lt at'
    omega)
  refine ⟨h.pos, h.top, h.one, ?_, ?_, ?_, fun w hw => ⟨(hdmg w hw).trans (h.clean w hw).1, ?_⟩⟩
  · rw [State.chFenced, State.rd, hlow]
    · exact h.fence
    · have := channelOf_lt off
      simp only [FLT_FENCED_CH_FENCED, FLT_FENCED_CH]
      omega
  · rw [State.rd, hlow]
    · exact h.serves
    · simp only [MEMC_STATUS_STATE, MEMC_STATUS]
      omega
  · obtain ⟨hq, hrows, hbehind⟩ := h.calm
    obtain ⟨a, b, c, d, hk⟩ := hs.chans (channelOf off)
    refine ⟨by rw [hk]; exact hq, by rw [hk]; exact hrows, (State.behind_congr (fun o ho => ?_) hs.now (hs.chans _)).trans hbehind⟩
    obtain ⟨h1, h2⟩ := scrub_not_counter ho
    exact hs.regs o h1 (h2 _ (channelOf_lt _))
  · rw [State.inTail, hs.tailArea]
    exact (h.clean w hw).2

end Sys2Proof.Machine
end

section
/-! PROOF. Poisoned writes of memory (R60, R64): the word is poison, and no byte outside the write changes. -/
namespace Sys2Proof.Machine
open Reg

theorem State.Noted.memDmg {n : Nat} {s t : State} (h : s.Noted n t) : t.memDmg = s.memDmg := by rw [h.rest]

/-- A record of class A to C of a source that fences no unit. -/
theorem State.Noted.plainRecord {s : State} (e : FaultEv) (hfence : e.fence = false) (hleast : e.least = 0) (hn : e.src < 640)
    (hkind : ¬ (srcSpUe ≤ e.src ∧ e.src < srcSpUe + 24) ∧ ¬ (srcLoftUe ≤ e.src ∧ e.src < srcLoftUe + 24) ∧ ¬ (srcMemUe ≤ e.src ∧ e.src < srcMemUe + 12)
      ∧ ¬ (srcJpDown ≤ e.src ∧ e.src < srcJpDown + 16)) (ha : Claim.Alive s e.src) : s.Noted e.src (s.record e) := by
  rw [State.record_unfenced s e fun c => by rw [hfence]; exact s.fenceOf_none e.inst c hkind]
  exact State.Noted.recordWith _ hn (by rw [hleast]; exact (Nat.max_zero _).trans_le (State.eventClass_alive ha))

/-- The record of poison at a word of memory (R60, R86). -/
theorem State.Noted.reportPoison {s : State} {off : Nat} (htop : off < memTop) (ha : Claim.Alive s (264 + channelOf off / 8)) (who : Option (Nat × Nat)) :
    s.Noted (264 + channelOf off / 8) (s.reportPoison off who) := by
  have hc := channelOf_lt off
  have hkind : ¬ (srcSpUe ≤ 264 + channelOf off / 8 ∧ 264 + channelOf off / 8 < srcSpUe + 24)
      ∧ ¬ (srcLoftUe ≤ 264 + channelOf off / 8 ∧ 264 + channelOf off / 8 < srcLoftUe + 24)
      ∧ ¬ (srcMemUe ≤ 264 + channelOf off / 8 ∧ 264 + channelOf off / 8 < srcMemUe + 12)
      ∧ ¬ (srcJpDown ≤ 264 + channelOf off / 8 ∧ 264 + channelOf off / 8 < srcJpDown + 16) := by
    simp only [srcSpUe, srcLoftUe, srcMemUe, srcJpDown]
    omega
  have hrecord : ∀ e : FaultEv, e.src = 264 + channelOf off / 8 → e.fence = false → e.least = 0 → s.Noted (264 + channelOf off / 8) (s.record e) := by
    intro e hsrc hfence hleast
    rw [← hsrc] at hkind ha ⊢
    exact State.Noted.plainRecord e hfence hleast (by rw [hsrc]; omega) hkind ha
  rw [State.reportPoison, if_pos htop]
  exact hrecord _ rfl rfl rfl

/-- The only word of bytes that share one. -/
theorem wordsIn_one {off len : Nat} (htop : off + len ≤ memTop) (hpos : 0 < len) (hone : (off + len - 1) / 64 = off / 64) :
    wordsIn off len = [off / 64 * 64] := by
  have hword : eccBytes off = 64 := memTop_word (by omega)
  rw [wordsIn, hword, hone, Nat.sub_self]
  simp only [List.range_one, Nat.zero_add, List.map_cons, List.map_nil, Nat.add_zero]

/-- `t` follows `s` by a poisoned write of bytes of one word. -/
structure State.Poisoned (off len : Nat) (s t : State) : Prop where
  poison : (t.damage off).poison = true
  outside : Claim.Outside s t off len

section
variable {s : State} {off : Nat} {bs : List Byte} (h : s.Open off bs.length) (hwf : memWf s.mem = true)
  (hone : (off + bs.length - 1) / 64 = off / 64) (ha : Claim.Alive s (264 + channelOf off / 8)) (harm : s.rd (MEMC_INJECT_ARM (channelOf off)) = 0)
include h hwf hone ha harm

theorem State.Open.writePoisoned (who : Option (Nat × Nat)) : s.Poisoned off bs.length (s.writeStore (wordWrites off bs true) who) := by
  have htop := h.top
  have hpos := h.pos
  obtain ⟨w, hw⟩ : ∃ w, wordWrites off bs true = [w] := by
    rw [wordWrites, wordsIn_one htop hpos hone]
    exact ⟨_, rfl⟩
  obtain ⟨hin, hpoison, hlays⟩ := wordWrites_lays (poison := true) htop hpos (w := w) (by rw [hw]; exact List.mem_cons_self)
  obtain ⟨hwtop, hchan, -⟩ := h.word_channel hin
  have hword : w.off / 64 = off / 64 := by
    rw [wordsIn_one htop hpos hone, List.mem_singleton] at hin
    omega
  obtain ⟨u, hu⟩ : ∃ u, u = if decide (w.off < memTop) then s.memCount (channelOf w.off) (MEMC_WR_BYTES_WR_BYTES (channelOf w.off)) 64 else s := ⟨_, rfl⟩
  have hslot : s.Slotted u := by
    rw [hu]
    exact .ite (.memCount s (memCounter_of (k := 0x18) (channelOf_lt w.off) (by decide) (by decide)) 64) (.refl s)
  obtain ⟨v, hv⟩ : ∃ v, v = (u.setWordBits w.off (mergeBits (u.wordBits w.off) w.data w.mask)).setDamage w.off { poison := true } := ⟨_, rfl⟩
  have hecc : s.writeEcc w who = v.reportPoison w.off who := by
    rw [State.writeEcc, hpoison, if_pos rfl, hv, hu]
  obtain ⟨d, hd⟩ := (u.setWordBits w.off (mergeBits (u.wordBits w.off) w.data w.mask)).setDamage_eq hwtop { poison := true }
  have hvregs : v.regs = u.regs := by rw [hv, hd]; rfl
  have hnoted : v.Noted (264 + channelOf w.off / 8) (v.reportPoison w.off who) := by
    refine State.Noted.reportPoison hwtop ?_ who
    have hlow : ¬ memCounter (FLT_SRC_CLASS (264 + channelOf w.off / 8)).off := by
      have := channelOf_lt w.off
      simp only [memCounter, FLT_SRC_CLASS, FLT_SRC]
      omega
    rw [Claim.Alive, State.rd_congr hvregs, hslot.rd hlow, hchan]
    exact ha
  have hdamage : ((v.reportPoison w.off who).damage off).poison = true := by
    have hvd : (v.reportPoison w.off who).damage off = v.damage w.off := by
      rw [State.damage, State.damage, if_pos (show off < memTop by omega), if_pos hwtop, hnoted.memDmg, hword]
    rw [hvd, hv, State.setDamage, if_pos hwtop, State.damage, if_pos hwtop]
    dsimp only
    rw [if_neg (by decide), tabGet_tabPut_same]
  have hstore : s.writeStore (wordWrites off bs true) who = v.reportPoison w.off who := by
    have hinj := State.Injected.foldl (c := channelOf off) (words := [w.off]) (fun x hx => by
      rw [List.mem_singleton.mp hx]
      exact ⟨hwtop, hchan⟩) [w.off / 256] (v.reportPoison w.off who)
    have hquiet := hinj.unarmed (by
      have hinject : ¬ memCounter (MEMC_INJECT_ARM (channelOf off)).off := by
        have := channelOf_lt off
        simp only [memCounter, MEMC_INJECT_ARM, MEMC_INJECT]
        omega
      rw [hnoted.rd (not_logReg_low (Or.inr (by simp only [MEMC_INJECT_ARM, MEMC_INJECT]; omega)) (by have := channelOf_lt w.off; omega))
        (by simp only [MEMC_INJECT_ARM, MEMC_INJECT]; omega), State.rd_congr hvregs, hslot.rd hinject, harm])
    rw [hw, State.writeStore, List.foldl_cons, List.foldl_nil, hecc]
    exact hquiet
  rw [hstore]
  refine ⟨hdamage, fun a ha => ?_⟩
  have hmem : (v.reportPoison w.off who).mem = (u.setWordBits w.off (mergeBits (u.wordBits w.off) w.data w.mask)).mem := by
    rw [hnoted.mem, hv, hd]
  rw [hmem, memGet_mergedWord u (hslot.mem ▸ hwf) hlays, if_neg (by omega), hslot.mem]

/-- A posted write that carries poison, which nothing holds up. -/
theorem State.Open.postPoisoned {r : MemReq} (hr : r.Free s) (hsink : r.sink = .none) :
    ∃ t, s.Poisoned off bs.length t ∧ s.postLocal off bs.length (wordWrites off bs true) r = t := by
  obtain ⟨t, ht, hslot⟩ := h.write_slot (r := { r with arrived := s.now }) true hr
  have hc := channelOf_lt off
  have hclass : ¬ memCounter (FLT_SRC_CLASS (264 + channelOf off / 8)).off := by
    simp only [memCounter, FLT_SRC_CLASS, FLT_SRC]
    omega
  have hinject : ¬ memCounter (MEMC_INJECT_ARM (channelOf off)).off := by
    simp only [memCounter, MEMC_INJECT_ARM, MEMC_INJECT]
    omega
  obtain ⟨hpoison, hout⟩ := (h.slotted ht).writePoisoned (ht.mem ▸ hwf) hone ((ht.rd hclass).trans_le ha) ((ht.rd hinject).trans harm) r.who
  refine ⟨t.writeStore (wordWrites off bs true) r.who, ⟨hpoison, fun a ha => (hout a ha).trans (by rw [ht.mem])⟩, ?_⟩
  rw [State.postLocal, h.pieces, List.foldl_cons, List.foldl_nil]
  dsimp only
  rw [hslot, h.writesIn_piece, hsink]
  rfl

end

end Sys2Proof.Machine
end

section
/-! PROOF. Register reads, and the host's accesses through BAR2 (R5, R8, R23, R50, R472). -/
namespace Sys2Proof.Machine
open Reg

/-! Reads of a channel's registers. -/

theorem regAt_memcWait : ∀ c : Chan, (regAt (MEMC_WAIT c.val)).map (fun p => p.1.fields) =
    some [{ hi := 63, lo := 32, acc := .ro }, { hi := 31, lo := 0, acc := .rc }] := by
  decide +kernel

theorem blockOf_rdBytes : ∀ c : Chan, (blockOf (MEMC_RD_BYTES c.val + 4)).isSome = true := by
  decide +kernel

theorem State.clearRead_fields (s : State) {off : Nat} {l : List FieldDef} (hat : (regAt off).map (fun p => p.1.fields) = some l) (mask : Nat) (hw : Option Nat) :
    s.clearRead off mask hw =
      (l.filter (fun f => f.acc == .rc && maskOf f.hi f.lo &&& mask != 0)).foldl (fun s f => s.wr ⟨off, f.hi, f.lo⟩ (hw.getD 0)) s := by
  obtain ⟨x, hx, rfl⟩ := Option.map_eq_some_iff.mp hat
  rw [State.clearRead, hx]

/-- Registers of a channel that a read finds as they stand. -/
theorem State.shown_memc (s : State) {off : Nat} (ho : 0x100000 ≤ off ∧ off < 0x700000) (h120 : off % 0x10000 ≠ 0x120) (h128 : off % 0x10000 ≠ 0x128) :
    s.shown off = (s.reg off, s) := by
  obtain ⟨h1, h2, -⟩ := ofReg_none (off := off) (by omega)
  rw [State.shown, h1, h2]
  dsimp only
  rw [State.live, if_neg (by omega), if_neg (by omega), if_neg (by rw [INTLV_PROBE_RESULT]; omega), if_neg (by rw [INTLV_SERVICE_LO]; omega),
    if_neg (by rw [INTLV_SERVICE_HI]; omega), if_neg (by rw [VERIF_SUP]; omega), if_neg (by rw [HIF_BI]; omega), if_neg (by rw [HIF_ERR]; omega),
    if_neg (by rw [PWR_ENV]; omega), if_neg (by rw [PWR_CAP]; omega), if_neg (by rw [PWR_VENT]; omega), if_neg (by rw [TLOG_STAT]; omega),
    if_neg (by simp only [TLOG_DATA]; omega), if_neg (by rw [LCS_BOOT]; omega)]

theorem State.hostUp_power {s : State} (h : s.hostUp = true) : s.power.off = false := by
  rw [State.hostUp, Bool.and_eq_true_iff, Bool.not_eq_true'] at h
  exact h.2

section
variable {s : State} (hup : s.hostUp = true) (hfree : ∀ n : Fin 6, s.rd (MXC_LOCK_HELD n.val) = 0) (hmxc : s.mxc = [])
include hup hfree hmxc

/-- A read of the host that reaches a channel's register (R4, R25). -/
theorem State.readOut_memc {off width : Nat} (hw : Option Nat) (hwidth : width = 4 ∨ width = 8) (halign : off % width = 0)
    (hblock : (blockOf off).isSome = true) (ho : 0x100000 ≤ off / 8 * 8 ∧ off < 0x700000) (hat : (regAt (off / 8 * 8)).isNone = false)
    (h120 : off / 8 * 8 % 0x10000 ≠ 0x120) (h128 : off / 8 * 8 % 0x10000 ≠ 0x128) {u : State} (hu : u = s.mxcGrant .host off) :
    s.readOut .host off width hw =
      (((u.clearRead (off / 8 * 8) (if width = 8 then 2 ^ 64 - 1 else (2 ^ 32 - 1) * 2 ^ (8 * (off % 8))) hw).latchHalf .host (off / 8 * 8) (off % 8) width
        (u.reg (off / 8 * 8))).1).emit (.coreValue .host ((u.clearRead (off / 8 * 8) (if width = 8 then 2 ^ 64 - 1 else (2 ^ 32 - 1) * 2 ^ (8 * (off % 8))) hw).latchHalf
          .host (off / 8 * 8) (off % 8) width (u.reg (off / 8 * 8))).2 0) := by
  obtain ⟨h1, h2, h3⟩ := ofReg_none (off := off / 8 * 8) (by omega)
  have hblocked : s.regBlocked .host off width = none := by
    have hw8 : ((width == 4 || width == 8) && off % width == 0) = true := by
      rw [halign]
      obtain rfl | rfl := hwidth <;> rfl
    have hnone : (blockOf off).isNone = false := by rw [Option.isNone_eq_false_iff]; exact hblock
    unfold State.regBlocked
    rw [hw8, hnone, State.regPowered_plain (State.hostUp_power hup) (by omega)]
    rfl
  have hwait : s.mxcWaits (s.mxcAhead .host off false) .host off = false := by
    have hlock := s.lockedFor_free hfree .host off
    simpa [State.mxcWaits, State.mxcAhead, hmxc] using hlock
  have hmay : s.mayReadReg .host (off / 8 * 8) width = true := by
    rw [State.mayReadReg, h1, h2, Bool.or_true]
  have hread : u.readAt .host off width hw =
      (u.clearRead (off / 8 * 8) (if width = 8 then 2 ^ 64 - 1 else (2 ^ 32 - 1) * 2 ^ (8 * (off % 8))) hw).latchHalf .host (off / 8 * 8) (off % 8) width
        (u.reg (off / 8 * 8)) := by
    rw [State.readAt]
    dsimp only
    rw [h2, h3, hat, if_neg Bool.false_ne_true, State.shown_memc u ⟨ho.1, by omega⟩ h120 h128]
  have hreg : s.readReg .host off width hw = ((u.readAt .host off width hw).1, .value (u.readAt .host off width hw).2) := by
    rw [State.readReg, hblocked]
    dsimp only
    rw [hwait, if_neg Bool.false_ne_true, hmay, hu]
    rfl
  have hnot : (Master.host == Master.host && !s.hostUp) = false := by rw [hup]; rfl
  rw [State.readOut, hnot, if_neg Bool.false_ne_true, hreg, hread]

/-- A read of MEMC_WAIT clears WAIT_MAX, or leaves what hardware sets in that clock (R5, R8). -/
theorem execReadClearField_memcWait (ch : Chan) (hw : Option (Fin 4096)) :
    Claim.Next (.readClearField .host (MEMC_WAIT ch.val) 8 (hw.map Fin.val)) s (fun t =>
      t.out = s.out ++ [.coreValue .host (s.reg (MEMC_WAIT ch.val)) 0]
      ∧ t.rd (MEMC_WAIT_WAIT_MAX ch.val) = (hw.map Fin.val).getD 0
      ∧ t.rd (MEMC_WAIT_URGENT ch.val) = s.rd (MEMC_WAIT_URGENT ch.val)
      ∧ Claim.RegsBut s t (MEMC_WAIT ch.val) (MEMC_WAIT ch.val + 8) ∧ t.mem = s.mem) := by
  have hc := ch.isLt
  have hat := regAt_memcWait ch
  have hoff : MEMC_WAIT ch.val / 8 * 8 = MEMC_WAIT ch.val := by simp only [MEMC_WAIT]; omega
  obtain ⟨l, hl⟩ := s.mxcGrant_eq .host (MEMC_WAIT ch.val)
  obtain ⟨u, hu⟩ : ∃ u, u = s.mxcGrant .host (MEMC_WAIT ch.val) := ⟨_, rfl⟩
  obtain ⟨v, hv⟩ : ∃ v, v = (hw.map Fin.val).getD 0 := ⟨_, rfl⟩
  have hv32 : v < 2 ^ 32 := by
    rw [hv]
    cases hw with
    | none => exact Nat.two_pow_pos 32
    | some x =>
      have hx : x.val < 4096 := x.isLt
      exact hx.trans (by decide)
  have hclear : u.clearRead (MEMC_WAIT ch.val) (2 ^ 64 - 1) (hw.map Fin.val) = u.wr (MEMC_WAIT_WAIT_MAX ch.val) v := by
    rw [State.clearRead_fields u hat, hv]
    rfl
  have hexec : execReadClearField .host (MEMC_WAIT ch.val) 8 (hw.map Fin.val) s =
      .next ((u.wr (MEMC_WAIT_WAIT_MAX ch.val) v).emit (.coreValue .host (u.reg (MEMC_WAIT ch.val)) 0)) := by
    rw [execReadClearField, State.readOut_memc hup hfree hmxc _ (Or.inr rfl) (by simp only [MEMC_WAIT]; omega) (regAt_blockOf hat)
      (by simp only [MEMC_WAIT]; omega) (by rw [hoff]; exact Bool.eq_false_iff.mpr (regAt_isNone hat)) (by simp only [MEMC_WAIT]; omega)
      (by simp only [MEMC_WAIT]; omega) hu, hoff, if_pos rfl, hclear]
    rfl
  have hureg : ∀ o, u.reg o = s.reg o := fun o => by rw [hu, hl]; rfl
  refine ⟨_, hexec, ?_, ?_, ?_, fun o ho => ?_, ?_⟩
  · rw [hureg, hu, hl]
    rfl
  · rw [← hv]
    exact (State.rd_wr_same u (MEMC_WAIT_WAIT_MAX ch.val) v (show 0 ≤ 31 by decide) (show 31 < 64 by decide)).trans (Nat.mod_eq_of_lt hv32)
  · refine (State.rd_wr_apart u (MEMC_WAIT_WAIT_MAX ch.val) (MEMC_WAIT_URGENT ch.val) v (show 0 ≤ 31 by decide) (show 31 < 64 by decide) rfl
      (Or.inr (show 31 < 32 by decide))).trans ?_
    rw [State.rd, State.rd, hureg]
  · refine (State.reg_wr_other u (MEMC_WAIT_WAIT_MAX ch.val) v o ?_).trans (hureg o)
    simp only [MEMC_WAIT_WAIT_MAX]
    omega
  · rw [hu, hl]
    rfl

/-- The low half of a wide counter latches its upper half for the next read of that half (R50). -/
theorem execCounterLowHalfRead_rdBytes (ch : Chan) :
    Claim.Next (.counterLowHalfRead .host (MEMC_RD_BYTES ch.val)) s (fun t =>
      t.out = s.out ++ [.coreValue .host (BitVec.ofNat 64 ((s.reg (MEMC_RD_BYTES ch.val)).toNat % 2 ^ 32)) 0]
      ∧ t.regs = s.regs
      ∧ Claim.Next (.readClearField .host (MEMC_RD_BYTES ch.val + 4) 4 none) t (fun u =>
          u.out = t.out ++ [.coreValue .host (BitVec.ofNat 64 ((s.reg (MEMC_RD_BYTES ch.val)).toNat / 2 ^ 32)) 0])) := by
  have hc := ch.isLt
  have hat := regAt_rdBytes ch
  obtain ⟨off, hoff⟩ : ∃ off, off = MEMC_RD_BYTES ch.val := ⟨_, rfl⟩
  have hval : off = 0x100010 + 0x10000 * ch.val := hoff
  rw [← hoff] at hat
  have hnone : (regAt off).isNone = false := Bool.eq_false_iff.mpr (regAt_isNone hat)
  have hwide : (!wideCounter off) = false := by
    have h10 : off % 0x10000 = 0x10 := by omega
    have hlow : (decide (0x100000 ≤ off) && decide (off < 0x700000)) = true := by
      rw [decide_eq_true (show 0x100000 ≤ off by omega), decide_eq_true (show off < 0x700000 by omega)]
      rfl
    rw [wideCounter, h10, hlow]
    rfl
  have hclear : ∀ (u : State) (mask : Nat), u.clearRead off mask none = u := fun u mask => State.clearRead_fields u hat mask none
  obtain ⟨l, hl⟩ := s.mxcGrant_eq .host off
  obtain ⟨u, hu⟩ : ∃ u, u = s.mxcGrant .host off := ⟨_, rfl⟩
  have huregs : u.regs = s.regs := by rw [hu, hl]
  have hlatch : u.latchHalf .host off 0 4 (u.reg off) = ({ u with halves := tabPut u.halves (masterNo .host * 2 ^ 28 + off) ((u.reg off).toNat / 2 ^ 32) },
      halfOf (u.reg off) 0 4) := by
    rw [State.latchHalf, hwide]
    rfl
  have hhalf : halfOf (u.reg off) 0 4 = BitVec.ofNat 64 ((u.reg off).toNat % 2 ^ 32) := by
    rw [halfOf, if_neg (by decide), Nat.mul_zero, pow_zero, Nat.div_one]
  have hround : off / 8 * 8 = off ∧ off % 8 = 0 ∧ off % 4 = 0 ∧ (off + 4) / 8 * 8 = off ∧ (off + 4) % 8 = 4 ∧ (off + 4) % 4 = 0 := by omega
  obtain ⟨h8, hm8, hm4, h8', hm8', hm4'⟩ := hround
  have hexec : execCounterLowHalfRead .host off s =
      .next (({ u with halves := tabPut u.halves (masterNo .host * 2 ^ 28 + off) ((u.reg off).toNat / 2 ^ 32) } : State).emit
        (.coreValue .host (BitVec.ofNat 64 ((u.reg off).toNat % 2 ^ 32)) 0)) := by
    rw [execCounterLowHalfRead, h8, State.readOut_memc hup hfree hmxc none (Or.inl rfl) hm4 (regAt_blockOf hat)
      (by omega) (by rw [h8]; exact hnone) (by omega) (by omega) hu, h8, hm8, hclear, hlatch, hhalf]
  rw [← hoff]
  have hureg : u.reg off = s.reg off := State.reg_congr huregs off
  obtain ⟨t, ht⟩ : ∃ t : State, t = ({ u with halves := tabPut u.halves (masterNo .host * 2 ^ 28 + off) ((u.reg off).toNat / 2 ^ 32) } : State).emit
        (.coreValue .host (BitVec.ofNat 64 ((u.reg off).toNat % 2 ^ 32)) 0) := ⟨_, rfl⟩
  have htregs : t.regs = s.regs := by rw [ht]; exact huregs
  have hthalves : tabFind t.halves (masterNo .host * 2 ^ 28 + off) = some ((s.reg off).toNat / 2 ^ 32) := by
    rw [ht, ← hureg]
    exact tabFind_tabPut_same ..
  have htup : t.hostUp = true := by
    rw [ht, hu, hl]
    exact hup
  have htmxc : t.mxc = [] := by
    rw [ht, hu, hl]
    exact hmxc
  obtain ⟨l', hl'⟩ := t.mxcGrant_eq .host (off + 4)
  obtain ⟨v, hv⟩ : ∃ v, v = t.mxcGrant .host (off + 4) := ⟨_, rfl⟩
  have hvhalves : tabFind v.halves (masterNo .host * 2 ^ 28 + off) = some ((s.reg off).toNat / 2 ^ 32) := by
    rw [hv, hl']
    exact hthalves
  have hlatch' : v.latchHalf .host off 4 4 (v.reg off) = ({ v with halves := tabDel v.halves (masterNo .host * 2 ^ 28 + off) },
      BitVec.ofNat 64 ((s.reg off).toNat / 2 ^ 32)) := by
    rw [State.latchHalf, hwide]
    dsimp only
    rw [hvhalves]
    rfl
  have hexec' : execReadClearField .host (off + 4) 4 none t =
      .next (({ v with halves := tabDel v.halves (masterNo .host * 2 ^ 28 + off) } : State).emit (.coreValue .host (BitVec.ofNat 64 ((s.reg off).toNat / 2 ^ 32)) 0)) := by
    rw [execReadClearField, State.readOut_memc htup (fun n => (State.rd_congr htregs _).trans (hfree n)) htmxc none (Or.inl rfl) hm4'
      (by rw [hoff]; exact blockOf_rdBytes ch) (by omega) (by rw [h8']; exact hnone) (by omega) (by omega) hv, h8', hm8', hclear, hlatch']
  rw [← ht] at hexec
  refine ⟨t, hexec, ?_, htregs, _, hexec', ?_⟩
  · rw [ht, hureg, hu, hl]
    rfl
  · rw [hv, hl']
    rfl

end

/-- R5, R8, R50: register reads. -/
theorem registerReads : Claim.RegisterReads := fun _ ch hw hup hfree hmxc =>
  ⟨execReadClearField_memcWait hup hfree hmxc ch hw, execCounterLowHalfRead_rdBytes hup hfree hmxc ch⟩

/-! BAR2 (R23, R472). -/

section
variable {s : State} {off : Nat} {bs : List Byte} (hup : s.hostUp = true) (hplain : Claim.Plain s off bs.length) (hbar : off + bs.length ≤ 2 ^ s.host.bar2Log)
include hup hplain hbar

theorem State.bar2_reaches : s.host.linkUp = true ∧ s.pastBar2 off bs.length = false ∧ s.host.dir = [] := by
  have hpos := (State.Open.of_plain hplain).pos
  obtain ⟨-, -, -, -, -, -, -, -, hdir⟩ := hplain
  simp only [State.hostUp, Bool.and_eq_true_iff] at hup
  refine ⟨hup.1.1.1.1.1, ?_, hdir⟩
  rw [State.pastBar2, decide_eq_false_iff_not]
  omega

theorem execHostBar2Read_plain (hnone : Claim.NoneWaits s agentHost) :
    Claim.Next (.hostBar2Read off bs.length) s (fun t => t.out = s.out ++ [.hostReply 0 (s.peek off bs.length) false] ∧ t.mem = s.mem) := by
  obtain ⟨hlink, hpast, hdir⟩ := State.bar2_reaches hup hplain hbar
  have hopen := State.Open.of_plain hplain
  have hpos := hopen.pos
  have htop := hopen.top
  obtain ⟨t, ht, hread⟩ := hopen.localRead (b := byHost) (by decide) (Or.inr hdir) hnone
  have hpieces : completionPieces off bs.length = [(off, bs.length)] := by
    have hone : (off + bs.length - 1) / 512 = off / 512 := by
      have := hopen.one
      omega
    rw [completionPieces, hone, Nat.sub_self]
    simp only [List.range_one, Nat.zero_add, List.map_cons, List.map_nil, Nat.add_zero]
    rw [show max off (off / 512 * 512) = off by omega, show min (off + bs.length) ((off / 512 + 1) * 512) - off = bs.length by omega]
  have hbytes : ((s.peek off bs.length).drop (off - off)).take bs.length = s.peek off bs.length := by
    rw [Nat.sub_self, List.drop_zero, List.take_of_length_le]
    rw [State.peek, List.length_map, List.length_range]
  have hpoison : ((wordsIn off bs.length).any (([] : List Nat).contains ·)) = false := List.any_eq_false.mpr fun _ _ => Bool.false_ne_true
  have hexec : execHostBar2Read off bs.length s = .next ((t.rbufClear agentHost).emit (.hostReply 0 (s.peek off bs.length) false)) := by
    rw [execHostBar2Read, hlink, hup, hpast, hread]
    dsimp only
    rw [hpieces, List.foldl_cons, List.foldl_nil, hbytes, hpoison]
    rw [if_neg (by rw [Bool.not_true, Bool.false_or, decide_eq_true_eq]; omega)]
    rfl
  refine ⟨_, hexec, ?_, ht.mem⟩
  exact congrArg (· ++ [Out.hostReply 0 (s.peek off bs.length) false]) ht.out

theorem execHostBar2Write_posts (poisoned : Bool) : execHostBar2Write off bs poisoned s =
    .next (s.postLocal off bs.length (wordWrites off bs poisoned) (byHost.req s.now (.write []) .none)) := by
  obtain ⟨hlink, hpast, -⟩ := State.bar2_reaches hup hplain hbar
  have hempty : bs.isEmpty = false := by
    have := (State.Open.of_plain hplain).pos
    cases bs with
    | nil => exact absurd this (Nat.lt_irrefl 0)
    | cons _ _ => rfl
  rw [execHostBar2Write, hlink, hup, hpast, hempty, (State.Open.of_plain hplain).block (by decide)]
  rfl

end

/-- R23, R472: BAR2. -/
theorem hostBar2 : Claim.HostBar2 := by
  intro s off bs hup hplain hbar
  have hopen := State.Open.of_plain hplain
  obtain ⟨-, -, hdir⟩ := State.bar2_reaches hup hplain hbar
  have hfree : (byHost.req s.now (.write []) .none).Free s := ⟨rfl, Or.inr hdir⟩
  refine ⟨fun hnone => execHostBar2Read_plain hup hplain hbar hnone, fun hwf => ⟨?_, fun halive harm => ?_⟩⟩
  · obtain ⟨t, ht, hpost⟩ := hopen.postLocal hwf hfree
    exact ⟨t, (execHostBar2Write_posts hup hplain hbar false).trans (congrArg _ hpost), ht.peek, ht.outside, ht.wf⟩
  · obtain ⟨t, ht, hpost⟩ := hopen.postPoisoned hwf (State.plain_one hplain) halive harm hfree rfl
    exact ⟨t, (execHostBar2Write_posts hup hplain hbar true).trans (congrArg _ hpost), ht.poison, ht.outside⟩

end Sys2Proof.Machine

section
open Sys2Proof.Machine Sys2Proof.Machine.Reg Sys2Proof.Claim

/-- Settles O37: register reads as they clear and latch, and BAR2 accesses of memory that nothing holds up. -/
theorem registerReading : Obligations.RegisterReading := ⟨registerReads, hostBar2⟩
end
end

section
/-! PROOF. A channel's grant to the only request that waits there, its refresh, and a tower's wear (R40 to R43, R47, R83, R84). -/
namespace Sys2Proof.Machine
open Reg

theorem State.reg_memCount_other (s : State) {c : Nat} {f : RF} {o : Nat} (n : Nat) (h : o ≠ f.off) : (s.memCount c f n).reg o = s.reg o := by
  unfold State.memCount State.count
  split
  · exact State.reg_wr_other _ _ _ _ h
  · rfl

/-! The slot. -/

/-- A channel's only request has its slot, and is counted (R43, R51). -/
theorem State.takeSlot_only (s : State) (c : Nat) {r : MemReq} (hsrc : r.src = none) :
    ((s.takeSlot c r []).chan c).queue = []
    ∧ (s.rd (MEMC_PERF_CTL_ENABLE c) = 1 → s.rd (MEMC_GRANTS_LOCAL c) < 2 ^ 32 - 1 →
        (s.takeSlot c r []).rd (MEMC_GRANTS_LOCAL c) = s.rd (MEMC_GRANTS_LOCAL c) + 1)
    ∧ (s.takeSlot c r []) = { s with regs := (s.takeSlot c r []).regs, chans := (s.takeSlot c r []).chans } := by
  have hfar : MEMC_GRANTS c ≠ MEMC_WAIT c := by unfold MEMC_GRANTS MEMC_WAIT; omega
  unfold State.takeSlot
  obtain ⟨left, owed⟩ := s.window c
  dsimp -zeta only
  extract_lets x s1 wait s2 s3
  have hlocal : (if r.src.isNone then MEMC_GRANTS_LOCAL c else MEMC_GRANTS_REMOTE c) = MEMC_GRANTS_LOCAL c := by rw [hsrc]; rfl
  have hq1 : (s1.chan c).queue = [] := by
    unfold s1
    rw [State.chan_setChan_same]
  have hr1 : s1 = { s with chans := s1.chans } := rfl
  have hrd1 : ∀ f, s1.rd f = s.rd f := fun f => State.rd_congr (State.setChan_regs ..) f
  clear_value s1
  have h2 : ∃ r, s2 = { s1 with regs := r } := by
    unfold s2 State.memCount
    split
    · exact ⟨_, rfl⟩
    · exact ⟨_, rfl⟩
  have hg2 : s.rd (MEMC_PERF_CTL_ENABLE c) = 1 → s.rd (MEMC_GRANTS_LOCAL c) < 2 ^ 32 - 1 → s2.rd (MEMC_GRANTS_LOCAL c) = s.rd (MEMC_GRANTS_LOCAL c) + 1 := by
    intro hon hlt
    have hyes : s1.on (MEMC_PERF_CTL_ENABLE c) = true := by rw [State.on, hrd1, hon]; rfl
    unfold s2
    rw [hlocal, State.memCount, if_pos hyes,
      State.rd_count_min s1 (MEMC_GRANTS_LOCAL c) 1 (show 0 ≤ 31 by decide) (show 31 < 64 by decide), hrd1]
    exact Nat.min_eq_left (by show _ ≤ 2 ^ 32 - 1; omega)
  clear_value s2
  have h3 : ∃ r, s3 = { s1 with regs := r } := by
    obtain ⟨r2, h2⟩ := h2
    unfold s3 State.memCount
    rw [h2]
    split
    · split
      · exact ⟨_, rfl⟩
      · exact ⟨_, rfl⟩
    · exact ⟨_, rfl⟩
  have hg3 : s3.rd (MEMC_GRANTS_LOCAL c) = s2.rd (MEMC_GRANTS_LOCAL c) := by
    unfold s3
    split
    · rw [State.rd, State.rd]
      exact congrArg (fun w => fieldOf w 31 0) (State.reg_memCount_other s2 1 hfar)
    · rfl
  clear_value s3
  obtain ⟨r3, h3⟩ := h3
  have hend : ∀ t : State, (t = s3 ∨ t = s3.wr (MEMC_WAIT_WAIT_MAX c) (memClocks wait)) →
      (t.chan c).queue = [] ∧ (s.rd (MEMC_PERF_CTL_ENABLE c) = 1 → s.rd (MEMC_GRANTS_LOCAL c) < 2 ^ 32 - 1 →
        t.rd (MEMC_GRANTS_LOCAL c) = s.rd (MEMC_GRANTS_LOCAL c) + 1) ∧ t = { s with regs := t.regs, chans := t.chans } := by
    rintro t (rfl | rfl)
    · refine ⟨?_, fun ha hb => hg3.trans (hg2 ha hb), ?_⟩
      · rw [h3]; exact hq1
      · rw [h3, hr1]
    · refine ⟨?_, fun ha hb => (State.rd_wr_off _ _ _ _ hfar).trans (hg3.trans (hg2 ha hb)), ?_⟩
      · rw [h3]; exact hq1
      · rw [h3, hr1]; rfl
  refine hend _ ?_
  unfold State.peak
  split
  · split
    · exact Or.inr rfl
    · exact Or.inl rfl
  · exact Or.inl rfl

/-! The request, performed. -/

/-- A whole write of an undamaged word (R40, R62). -/
theorem State.writeStore_word {s : State} {w : WordWrite} (who : Option (Nat × Nat)) (hword : w.off % 64 = 0) (htop : w.off < memTop)
    (hclean : s.damage w.off = {}) (hmask : w.mask = 2 ^ (8 * eccBytes w.off) - 1) (hp : w.poison = false) (hwf : memWf s.mem = true) :
    (s.writeStore [w] who).peek w.off 64 = leBytes 64 w.data ∧ Claim.Outside s (s.writeStore [w] who) w.off 64
    ∧ (s.writeStore [w] who).chans = s.chans ∧ (s.writeStore [w] who).reg (MEMC_GRANTS (channelOf w.off)) = s.reg (MEMC_GRANTS (channelOf w.off)) := by
  have hecc : eccBytes w.off = 64 := memTop_word htop
  have hlen : (leBytes 64 w.data).length = 64 := leBytes_length ..
  have hlays : w.Lays w.off (leBytes 64 w.data) := by
    intro k hk
    rw [hecc] at hk
    rw [hlen, if_pos ⟨by omega, by omega⟩, Nat.add_sub_cancel_left]
    refine ⟨fun j hj => ?_, ?_⟩
    · rw [hmask, Nat.testBit_two_pow_sub_one, decide_eq_true_eq, hecc]
      omega
    · rw [List.getD_eq_getElem _ _ (by omega), getElem_leBytes]
  have hfinal : (s.writeEcc w who).Injected (channelOf w.off) [w.off] (s.writeStore [w] who) :=
    State.Injected.foldl (fun x hx => by obtain rfl := List.mem_singleton.mp hx; exact ⟨htop, rfl⟩) ([w.off / 256].dedup) _
  have hlaid := State.Laid.writeEcc (s := s) hwf htop hclean hp hlays who
  have hone : (s.writeEcc w who).chans = s.chans ∧ (s.writeEcc w who).reg (MEMC_GRANTS (channelOf w.off)) = s.reg (MEMC_GRANTS (channelOf w.off)) := by
    unfold State.writeEcc
    extract_lets n mem c s1 whole s2
    have hwhole : whole = true := beq_iff_eq.mpr hmask
    have h1 : s1.chans = s.chans ∧ s1.reg (MEMC_GRANTS (channelOf w.off)) = s.reg (MEMC_GRANTS (channelOf w.off)) := by
      unfold s1
      split
      · exact ⟨by unfold State.memCount; split <;> rfl, State.reg_memCount_other _ _ (by unfold c MEMC_WR_BYTES_WR_BYTES MEMC_WR_BYTES MEMC_GRANTS; dsimp only; omega)⟩
      · exact ⟨rfl, rfl⟩
    clear_value s1
    obtain ⟨x, hx⟩ := (s1.setWordBits w.off w.data).setDamage_eq htop {}
    rw [hp, if_neg Bool.false_ne_true, hwhole, if_pos rfl, hx]
    exact h1
  obtain ⟨hchans, hreg⟩ := hone
  have hbytes : ∀ a, memGet (s.writeStore [w] who).mem a = if w.off ≤ a ∧ a < w.off + 64 then (leBytes 64 w.data).getD (a - w.off) 0 else memGet s.mem a := by
    intro a
    rw [show (s.writeStore [w] who).mem = (s.writeEcc w who).mem by rw [hfinal.rest], hlaid.bytes, hlen]
    by_cases h : w.off ≤ a ∧ a < w.off + 64
    · rw [if_pos ⟨⟨w, List.mem_singleton_self w, h⟩, h⟩, if_pos h]
    · rw [if_neg fun hh => h hh.2, if_neg h]
  refine ⟨?_, fun a ha => ?_, ?_, ?_⟩
  · refine List.ext_getElem (by rw [State.peek, List.length_map, List.length_range, hlen]) fun k hk _ => ?_
    have hk' : k < 64 := by rwa [State.peek, List.length_map, List.length_range] at hk
    simp only [State.peek, List.getElem_map, List.getElem_range]
    rw [hbytes, if_pos ⟨by omega, by omega⟩, Nat.add_sub_cancel_left, List.getD_eq_getElem _ _ (by omega)]
  · rw [hbytes, if_neg (by omega)]
  · rw [show (s.writeStore [w] who).chans = (s.writeEcc w who).chans by rw [hfinal.rest]]
    exact hchans
  · refine (hfinal.regs _ ?_).trans hreg
    unfold MEMC_GRANTS MEMC_INJECT
    omega

/-- A read of an undamaged word (R40, R56). -/
theorem State.readStore_word {s : State} {off : Nat} (hword : off % 64 = 0) (htop : off < memTop) (hclean : s.damage off = {}) :
    ∃ t, s.readStore off 64 = (t, .data (s.peek off 64) [] []) ∧ t = { s with regs := t.regs }
      ∧ t.reg (MEMC_GRANTS (channelOf off)) = s.reg (MEMC_GRANTS (channelOf off)) := by
  have hin : wordsIn off 64 = [off] := by
    rw [memTop] at htop
    rw [wordsIn_one (by rw [memTop]; omega) (by decide) (by omega)]
    exact congrArg (fun x => [x]) (by omega)
  have hrange : rangeOf off = .memory := if_pos htop
  have h1 : s.memCount (channelOf off) (MEMC_RD_BYTES_RD_BYTES (channelOf off)) 64 =
      { s with regs := (s.memCount (channelOf off) (MEMC_RD_BYTES_RD_BYTES (channelOf off)) 64).regs } := by
    unfold State.memCount
    split
    · rfl
    · rfl
  refine ⟨_, ?_, h1, State.reg_memCount_other _ _ (by unfold MEMC_RD_BYTES_RD_BYTES MEMC_RD_BYTES MEMC_GRANTS; dsimp only; omega)⟩
  rw [State.readStore, hrange, hin]
  dsimp only
  rw [if_pos rfl, List.foldl_cons, List.foldl_nil]
  generalize s.memCount (channelOf off) (MEMC_RD_BYTES_RD_BYTES (channelOf off)) 64 = t at h1
  have hd : t.damage off = {} := by rw [h1]; exact hclean
  rw [State.readWords_clean fun x hx => by obtain rfl := List.mem_singleton.mp hx; exact hd]
  dsimp only
  rw [State.unpoisoned, List.isEmpty_nil, if_pos rfl, h1]
  rfl

/-- A grant to the only request of a calm channel performs it (R43). -/
theorem execChannelGrant_only {s : State} {ch : Chan} {r : MemReq} (hserves : s.rd (MEMC_STATUS_STATE ch.val) = 2)
    (hqueue : (s.chan ch.val).queue = [r]) (hfree : r.Free s) (hrows : (s.chan ch.val).needRows = [])
    (hbehind : (s.scrubSync ch.val).rd (MEMC_SCRUB_LAG_BEHIND ch.val) = 0) :
    execChannelGrant ch [] .good s = .next ((s.takeSlot ch.val r []).performReq r) := by
  have hnext : s.channelNext ch.val [r] = some 0 := by
    rw [State.channelNext, State.scrubHolds_calm hbehind, if_neg Bool.false_ne_true, State.candidates_only hfree hrows, chooseGrant_singleton]
  rw [execChannelGrant]
  dsimp only
  rw [if_neg (not_not.mpr hserves), hqueue, hnext]
  rfl

theorem channelGrants : Claim.ChannelGrants := by
  intro s ch r w b hqueue hsrc hprov hword htop hchan hserves hclean hdir hbehind hrows
  have hexec : exec (.channelGrant ch [] .good) s = .next ((s.takeSlot ch.val r []).performReq r) :=
    execChannelGrant_only hserves hqueue ⟨hprov, Or.inr hdir⟩ hrows hbehind
  obtain ⟨hempty, hcount, hrest⟩ := s.takeSlot_only ch.val hsrc
  generalize s.takeSlot ch.val r [] = u at hexec hempty hcount hrest
  have hmem : u.mem = s.mem := by rw [hrest]
  have hdamage : u.damage w.off = {} := by rw [hrest]; exact hclean
  have hpeek : u.peek w.off 64 = s.peek w.off 64 := by rw [State.peek, State.peek, hmem]
  intro fewer
  have hfewer : ∀ t : State, t.chans = u.chans → t.reg (MEMC_GRANTS ch.val) = u.reg (MEMC_GRANTS ch.val) → fewer t := fun t hc hr =>
    ⟨by rw [State.chan, hc]; exact hempty, fun ha hb => (congrArg (fun w => fieldOf w 31 0) hr).trans (hcount ha hb)⟩
  refine ⟨fun hop hsink hmask hp hwf => ?_, fun hop hsink hbuf => ?_⟩
  · obtain ⟨hbytes, houtside, hchans, hreg⟩ := State.writeStore_word (s := u) r.who hword htop hdamage
      (by rw [memTop_word htop, show 8 * 64 = 512 from rfl]; exact hmask) hp (hmem ▸ hwf)
    rw [hchan] at hreg
    have hperform : u.performReq r = u.writeStore [w] r.who := by
      rw [State.performReq, hop, hsink]
      rfl
    refine ⟨_, hexec, ?_⟩
    rw [hperform]
    exact ⟨hfewer _ hchans hreg, hbytes, fun a ha => (houtside a ha).trans (by rw [hmem])⟩
  · obtain ⟨t, hread, ht, hreg⟩ := State.readStore_word (s := u) hword htop hdamage
    rw [hchan] at hreg
    rw [hpeek] at hread
    have hperform : u.performReq r = { t with rbuf := t.rbuf.map (fun b' => if b'.id = b.id then { b' with res := some (Reply.data (s.peek w.off 64) [] []).kept } else b') } := by
      rw [State.performReq, hop]
      dsimp only
      rw [hread, hsink]
      rfl
    refine ⟨_, hexec, ?_⟩
    rw [hperform]
    have hrbuf : t.rbuf = [b] := by rw [ht, hrest]; exact hbuf
    refine ⟨hfewer _ (by rw [ht]) hreg, by rw [ht]; exact hmem, ?_⟩
    dsimp only
    rw [hrbuf, List.map_cons, List.map_nil, if_pos rfl]
    rfl

/-! Refresh. -/

theorem refreshTakesTime : Claim.RefreshTakesTime := by
  intro s ch clocks hserves hclocks
  have hmin : min clocks 437 = clocks := Nat.min_eq_left hclocks
  obtain ⟨u, hu⟩ : ∃ u, u = if (s.chan ch.val).queue.isEmpty then s else s.memCount ch.val (MEMC_REFRESH_STALL_STALL ch.val) clocks := ⟨_, rfl⟩
  have hexec : exec (.refresh ch clocks) s = .next (u.advance (u.now + clocks * 4 / 5)) := by
    rw [show exec (.refresh ch clocks) s = execRefresh ch clocks s from rfl, execRefresh]
    dsimp only
    rw [if_neg (not_not.mpr hserves), hmin, hu]
  have hcase : u = if (s.chan ch.val).queue = [] ∨ s.rd (MEMC_PERF_CTL_ENABLE ch.val) = 0 then s else s.count (MEMC_REFRESH_STALL_STALL ch.val) clocks := by
    rw [hu, State.memCount]
    simp only [List.isEmpty_iff]
    by_cases hq : (s.chan ch.val).queue = []
    · rw [if_pos hq, if_pos (Or.inl hq)]
    · rw [if_neg hq]
      by_cases hon : s.rd (MEMC_PERF_CTL_ENABLE ch.val) = 0
      · rw [if_pos (Or.inr hon), State.on, hon]
        rfl
      · rw [if_neg (not_or.mpr ⟨hq, hon⟩), if_pos (show s.on (MEMC_PERF_CTL_ENABLE ch.val) = true from bne_iff_ne.mpr hon)]
  have hnow : u.now = s.now := by
    rw [hcase]
    split
    · rfl
    · rfl
  have hmem : u.mem = s.mem := by
    rw [hcase]
    split
    · rfl
    · exact State.count_mem ..
  have hfield : ∀ (t : State) (n : Nat), (t.advance n).rd (MEMC_REFRESH_STALL_STALL ch.val) = t.rd (MEMC_REFRESH_STALL_STALL ch.val) := by
    intro t n
    have hoff : ∀ f : RF, f.off < 0x100000 → MEMC_REFRESH_STALL ch.val ≠ f.off := fun f hf => by unfold MEMC_REFRESH_STALL; omega
    unfold State.advance
    extract_lets dt left left' ahead ahead' slower life s1 s2 s3
    have h1 : s1.rd (MEMC_REFRESH_STALL_STALL ch.val) = t.rd (MEMC_REFRESH_STALL_STALL ch.val) := rfl
    have h2 : s2.rd (MEMC_REFRESH_STALL_STALL ch.val) = t.rd (MEMC_REFRESH_STALL_STALL ch.val) :=
      (State.rd_wr_off _ _ _ _ (hoff TIME_NOW_NS (by decide))).trans h1
    have h3 : s3.rd (MEMC_REFRESH_STALL_STALL ch.val) = t.rd (MEMC_REFRESH_STALL_STALL ch.val) := by
      unfold s3
      split
      · exact h2
      · exact (State.rd_wr_off _ _ _ _ (hoff TIME_SLEW_AHEAD (by decide))).trans h2
    split
    · exact h3
    · exact (State.rd_wr_off _ _ _ _ (hoff LCS_BOOT_BOOT_MS (by decide))).trans h3
  refine ⟨_, hexec, ?_, (State.advance_mem _ _).trans hmem, ?_⟩
  · rw [State.advance_now, hnow]
    omega
  · rw [hfield, hcase]
    split
    · rfl
    · exact State.rd_count_min s _ clocks (show 0 ≤ 63 by decide) (show 63 < 64 by decide)

end Sys2Proof.Machine
end

section
/-! PROOF. The patrol scrub of a granule, and the wear of a tower (R71, R73, R83, R84). -/
namespace Sys2Proof.Machine
open Reg

/-! The granules of a channel (R35). -/

/-- The place within a group of 32 channels, folded, names a channel of the group. -/
theorem folded_lt (c w : Nat) :
    c % 32 ^^^ (bitsOf w 4 0 ^^^ bitsOf w 9 5 ^^^ bitsOf w 14 10 ^^^ bitsOf w 19 15 ^^^ bitsOf w 24 20 ^^^ bitsOf w 26 25) < 32 := by
  have hb : ∀ n hi lo, hi + 1 - lo ≤ 5 → bitsOf n hi lo < 2 ^ 5 := fun n hi lo h =>
    (Nat.mod_lt _ (by positivity)).trans_le (Nat.pow_le_pow_right (by decide) h)
  exact Nat.xor_lt_two_pow (n := 5) (Nat.mod_lt _ (by decide)) (Nat.xor_lt_two_pow (Nat.xor_lt_two_pow (Nat.xor_lt_two_pow (Nat.xor_lt_two_pow
    (Nat.xor_lt_two_pow (hb _ _ _ (by decide)) (hb _ _ _ (by decide))) (hb _ _ _ (by decide))) (hb _ _ _ (by decide)))
    (hb _ _ _ (by decide))) (hb _ _ _ (by decide)))

theorem granuleOffset_lt {c w : Nat} (hc : c < 96) (hw : w < 2 ^ 27) : granuleOffset c w + 256 ≤ memTop := by
  have hx := folded_lt c w
  rw [granuleOffset, memTop]
  omega

/-- The granules of a channel lie on it: `granuleOffset` inverts the interleave (R35). -/
theorem channelOf_granuleOffset {c w j : Nat} (hc : c < 96) (hj : j < 256) : channelOf (granuleOffset c w + j) = c := by
  have hx := folded_lt c w
  have hfold : ∀ x, x < 32 → foldOf (w * 32 + x) =
      bitsOf w 4 0 ^^^ bitsOf w 9 5 ^^^ bitsOf w 14 10 ^^^ bitsOf w 19 15 ^^^ bitsOf w 24 20 ^^^ bitsOf w 26 25 := by
    intro x hx
    unfold foldOf bitsOf
    congr 1
    · congr 1
      · congr 1
        · congr 1
          · congr 1
            all_goals omega
          · omega
        · omega
      · omega
    · omega
  rw [channelOf, granuleOffset]
  generalize bitsOf w 4 0 ^^^ bitsOf w 9 5 ^^^ bitsOf w 14 10 ^^^ bitsOf w 19 15 ^^^ bitsOf w 24 20 ^^^ bitsOf w 26 25 = f at hx hfold
  generalize hy : c % 32 ^^^ f = y at hx
  have hq : ((3 * (w * 32 + y) + c / 32) * 256 + j) / 256 = 3 * (w * 32 + y) + c / 32 := by omega
  rw [hq, show (3 * (w * 32 + y) + c / 32) / 3 = w * 32 + y by omega, show (3 * (w * 32 + y) + c / 32) % 3 = c / 32 by omega, hfold y hx,
    show bitsOf (w * 32 + y) 4 0 = y by unfold bitsOf; omega, ← hy, Nat.xor_assoc, Nat.xor_self, Nat.xor_zero]
  omega

/-! One word of a scrub read. -/

/-- A source that fences no unit stays below class D with its event (R584). -/
theorem State.alive_plainRecord {s : State} (e : FaultEv) (hfence : e.fence = false) (hleast : e.least = 0) (hn : e.src < 640)
    (hkind : ¬ (srcSpUe ≤ e.src ∧ e.src < srcSpUe + 24) ∧ ¬ (srcLoftUe ≤ e.src ∧ e.src < srcLoftUe + 24) ∧ ¬ (srcMemUe ≤ e.src ∧ e.src < srcMemUe + 12)
      ∧ ¬ (srcJpDown ≤ e.src ∧ e.src < srcJpDown + 16)) (ha : Claim.Alive s e.src) : Claim.Alive (s.record e) e.src := by
  have hc := State.eventClass_alive ha
  rw [Claim.Alive, State.record_unfenced s e fun c => by rw [hfence]; exact s.fenceOf_none e.inst c hkind,
    State.class_recordWith _ hn (by rw [hleast]; omega)]
  exact hc

/-- `t` follows `s` by the scrub of words of a channel: no word's data changes, and the position stays. -/
structure State.Scrubbed (c : Nat) (s t : State) : Prop where
  mem : t.mem = s.mem
  position : t.rd (MEMC_SCRUB_POS_POSITION c) = s.rd (MEMC_SCRUB_POS_POSITION c)
  alive : Claim.Alive t (240 + c / 8)

theorem State.Scrubbed.trans {c : Nat} {s t u : State} (h : s.Scrubbed c t) (h' : t.Scrubbed c u) : s.Scrubbed c u :=
  ⟨h'.mem.trans h.mem, h'.position.trans h.position, h'.alive⟩

/-- The record of a corrected error at a word (R86). -/
theorem State.memEvent_corrected {s : State} {off c : Nat} (hchan : channelOf off = c) (hc : c < 96) (ha : Claim.Alive s (240 + c / 8)) (sym kind : Nat) :
    s.Scrubbed c (s.memEvent off sym kind (some srcMemCe)) ∧ (s.memEvent off sym kind (some srcMemCe)).memDmg = s.memDmg := by
  have hsrc : ∀ w, Claim.Alive (s.setReg (MEMC_LAST_ERR c) w) (240 + c / 8) := fun w => by
    rw [Claim.Alive, State.rd, State.reg_setReg_other]
    · exact ha
    · simp only [FLT_SRC_CLASS, FLT_SRC, MEMC_LAST_ERR]
      omega
  have hpos : ∀ w, (s.setReg (MEMC_LAST_ERR c) w).rd (MEMC_SCRUB_POS_POSITION c) = s.rd (MEMC_SCRUB_POS_POSITION c) := fun w => by
    rw [State.rd, State.rd, State.reg_setReg_other]
    simp only [MEMC_SCRUB_POS_POSITION, MEMC_SCRUB_POS, MEMC_LAST_ERR]
    omega
  have hrecord : ∀ (t : State) (e : FaultEv), e.src = 240 + c / 8 → e.fence = false → e.least = 0 → Claim.Alive t (240 + c / 8) →
      t.Scrubbed c (t.record e) ∧ (t.record e).memDmg = t.memDmg := by
    intro t e hsrc hfence hleast ha
    rw [← hsrc] at ha
    have hkind : ¬ (srcSpUe ≤ e.src ∧ e.src < srcSpUe + 24) ∧ ¬ (srcLoftUe ≤ e.src ∧ e.src < srcLoftUe + 24)
        ∧ ¬ (srcMemUe ≤ e.src ∧ e.src < srcMemUe + 12) ∧ ¬ (srcJpDown ≤ e.src ∧ e.src < srcJpDown + 16) := by
      simp only [srcSpUe, srcLoftUe, srcMemUe, srcJpDown]
      omega
    have hnoted := State.Noted.plainRecord e hfence hleast (by omega) hkind ha
    refine ⟨⟨hnoted.mem, hnoted.rd (not_logReg_low (Or.inr ?_) (by omega)) ?_, ?_⟩, hnoted.memDmg⟩
    · simp only [MEMC_SCRUB_POS_POSITION, MEMC_SCRUB_POS]
      omega
    · simp only [MEMC_SCRUB_POS_POSITION, MEMC_SCRUB_POS]
      omega
    · rw [← hsrc]
      exact State.alive_plainRecord e hfence hleast (by omega) hkind ha
  unfold State.memEvent
  dsimp only
  rw [hchan]
  obtain ⟨h, hdmg⟩ := hrecord (s.setReg (MEMC_LAST_ERR c) (BitVec.ofNat 64 (lastErr (rowGranuleOf off) (off / 64 % 4) sym kind)))
    { src := srcMemCe + c / 8, inst := c % 8, aux := lastErr (rowGranuleOf off) (off / 64 % 4) sym kind % 2 ^ 32, addr := rowGranuleOf off } rfl rfl rfl (hsrc _)
  exact ⟨⟨h.mem.trans (State.setReg_mem s _ _), h.position.trans (hpos _), h.alive⟩, hdmg.trans (State.setReg_memDmg s _ _)⟩

/-- A word with at most one symbol in error is good after a scrub read; no other word's damage changes (R56, R73). -/
theorem State.readEcc_scrub {s : State} {off c : Nat} (hchan : channelOf off = c) (hc : c < 96) (htop : off < memTop)
    (ha : Claim.Alive s (240 + c / 8)) (hpoison : (s.damage off).poison = false) (hsyms : (s.damage off).syms.length ≤ 1) :
    s.Scrubbed c (s.readEcc off true).1 ∧ (s.readEcc off true).1.damage off = {} ∧
      ∀ a, a < memTop → a / 64 ≠ off / 64 → (s.readEcc off true).1.damage a = s.damage a := by
  obtain ⟨syms, hd⟩ : ∃ l, s.damage off = { poison := false, syms := l } := ⟨_, by rw [← hpoison]⟩
  rw [hd] at hsyms
  match syms, hsyms with
  | [], _ =>
    rw [State.readEcc_clean hd]
    exact ⟨⟨rfl, rfl, ha⟩, hd, fun _ _ _ => rfl⟩
  | [x], _ =>
    have hdecode : s.decode off = (s, .corrected x) := by
      rw [State.decode, hd]
      rfl
    obtain ⟨y, hy⟩ := s.setDamage_eq htop {}
    have hsame : (s.setDamage off {}).damage off = {} := by
      rw [State.setDamage, if_pos htop, State.damage, if_pos htop, tabGet_eq_getD]
      dsimp only
      rw [if_pos rfl, tabFind_tabDel_same]
      rfl
    have hother : ∀ a, a / 64 ≠ off / 64 → (s.setDamage off {}).damage a = s.damage a := fun a h => s.damage_setDamage_other {} h htop
    have hread : (s.readEcc off true).1 =
        (((s.setDamage off {}).memCount c (MEMC_ECC_CE_SCRUB c) 1).memEvent off x 2 (some srcMemCe)).countCe off x := by
      rw [State.readEcc, hdecode]
      dsimp only
      rw [if_pos (decide_eq_true htop), if_pos rfl, if_pos rfl, hchan]
    rw [hread]
    generalize s.setDamage off {} = t at hy hsame hother
    have ht : s.Scrubbed c t := by
      rw [hy]
      exact ⟨rfl, rfl, ha⟩
    have hcount : t.Scrubbed c (t.memCount c (MEMC_ECC_CE_SCRUB c) 1) ∧ (t.memCount c (MEMC_ECC_CE_SCRUB c) 1).memDmg = t.memDmg := by
      refine ⟨⟨State.memCount_mem .., ?_, ?_⟩, ?_⟩
      · refine congrArg (fun w => fieldOf w 26 0) (State.reg_memCount_other t 1 ?_)
        simp only [MEMC_SCRUB_POS_POSITION, MEMC_SCRUB_POS, MEMC_ECC_CE_SCRUB, MEMC_ECC_CE]
        omega
      · rw [Claim.Alive, State.rd, State.reg_memCount_other]
        · exact ht.alive
        · simp only [FLT_SRC_CLASS, FLT_SRC, MEMC_ECC_CE_SCRUB, MEMC_ECC_CE]
          omega
      · unfold State.memCount
        split
        · rfl
        · rfl
    obtain ⟨hcounted, hdmg1⟩ := hcount
    generalize t.memCount c (MEMC_ECC_CE_SCRUB c) 1 = u at hcounted hdmg1
    obtain ⟨hevent, hdmg2⟩ := State.memEvent_corrected hchan hc hcounted.alive x 2
    generalize u.memEvent off x 2 (some srcMemCe) = v at hevent hdmg2
    have hv := (ht.trans hcounted).trans hevent
    have hdamage : ∀ a, a < memTop → (v.countCe off x).damage a = t.damage a := fun a h => by
      rw [State.damage, State.damage, if_pos h, if_pos h, ← hdmg1, ← hdmg2]
      rfl
    exact ⟨⟨hv.mem, hv.position, hv.alive⟩, (hdamage off htop).trans hsame, fun a h hne => (hdamage a h).trans (hother a hne)⟩

/-! A scrub read. -/

/-- The schedule brought up to now leaves storage and its damage (R72). -/
theorem State.scrubSync_storage (s : State) (c : Nat) :
    (s.scrubSync c).memDmg = s.memDmg ∧ ((s.scrubSync c).chan c).queue = (s.chan c).queue := by
  unfold State.scrubSync
  extract_lets x run t0 s1 target lag s2
  have h1 : s1.memDmg = s.memDmg ∧ (s1.chan c).queue = (s.chan c).queue := ⟨State.setChan_memDmg .., by
    unfold s1
    rw [State.chan_setChan_same]⟩
  have hwr : ∀ (t : State) (f : RF) (v : Nat), (t.wr f v).memDmg = t.memDmg ∧ ((t.wr f v).chan c).queue = (t.chan c).queue := fun t f v =>
    ⟨State.wr_memDmg .., by rw [State.chan, State.wr_chans, State.chan]⟩
  have h2 : s2.memDmg = s.memDmg ∧ (s2.chan c).queue = (s.chan c).queue := ⟨(hwr s1 _ _).1.trans h1.1, (hwr s1 _ _).2.trans h1.2⟩
  clear_value s2
  split
  · exact ⟨(hwr s2 _ _).1.trans h2.1, (hwr s2 _ _).2.trans h2.2⟩
  · split
    · exact ⟨(hwr s2 _ _).1.trans h2.1, (hwr s2 _ _).2.trans h2.2⟩
    · exact h2

theorem State.rd_lag_scrubSync (s : State) (c : Nat) : (s.scrubSync c).rd (MEMC_SCRUB_LAG_LAG c) = min (s.scrubLag c) (2 ^ 27 - 1) := by
  unfold State.scrubSync
  extract_lets x run t s1 target lag s2
  have hlag : lag = s.scrubLag c := rfl
  have hrd : s2.rd (MEMC_SCRUB_LAG_LAG c) = min lag (2 ^ 27 - 1) :=
    (State.rd_wr_same s1 (MEMC_SCRUB_LAG_LAG c) _ (show 0 ≤ 26 by decide) (show 26 < 64 by decide)).trans
      (Nat.mod_eq_of_lt (show min lag (2 ^ 27 - 1) < 2 ^ 27 by omega))
  have hkeep : ∀ v, (s2.wr (MEMC_SCRUB_LAG_BEHIND c) v).rd (MEMC_SCRUB_LAG_LAG c) = s2.rd (MEMC_SCRUB_LAG_LAG c) := fun v =>
    State.rd_wr_apart s2 (MEMC_SCRUB_LAG_BEHIND c) (MEMC_SCRUB_LAG_LAG c) _ (show 63 ≤ 63 by decide) (show 63 < 64 by decide) rfl
      (Or.inl (show 26 < 63 by decide))
  clear_value s2
  rw [← hlag]
  split
  · exact (hkeep 0).trans hrd
  · split
    · exact (hkeep 1).trans hrd
    · exact hrd

/-- The scrub of the words of a granule, in ascending order. -/
theorem State.scrubWords {c base n : Nat} (hc : c < 96) (hchan : ∀ k, k < n → channelOf (base + 64 * k) = c ∧ base + 64 * k < memTop) {s : State}
    (ha : Claim.Alive s (240 + c / 8))
    (hgood : ∀ k, k < n → (s.damage (base + 64 * k)).poison = false ∧ (s.damage (base + 64 * k)).syms.length ≤ 1) :
    s.Scrubbed c ((List.range n).foldl (fun s k => (s.readEcc (base + 64 * k) true).1) s)
    ∧ ∀ k, k < n → ((List.range n).foldl (fun s k => (s.readEcc (base + 64 * k) true).1) s).damage (base + 64 * k) = {} := by
  have hsteps : ∀ m, m ≤ n → s.Scrubbed c ((List.range m).foldl (fun s k => (s.readEcc (base + 64 * k) true).1) s)
      ∧ ∀ k, k < n → ((List.range m).foldl (fun s k => (s.readEcc (base + 64 * k) true).1) s).damage (base + 64 * k) =
        if k < m then {} else s.damage (base + 64 * k) := by
    intro m
    induction m with
    | zero => exact fun _ => ⟨⟨rfl, rfl, ha⟩, fun k _ => by rw [if_neg (Nat.not_lt_zero k)]; rfl⟩
    | succ m ih =>
      intro hm
      obtain ⟨hs, hd⟩ := ih (by omega)
      rw [List.range_succ, List.foldl_append, List.foldl_cons, List.foldl_nil]
      generalize (List.range m).foldl (fun s k => (s.readEcc (base + 64 * k) true).1) s = t at hs hd
      have hdm := hd m (by omega)
      rw [if_neg (Nat.lt_irrefl m)] at hdm
      obtain ⟨hread, hsame, hother⟩ := State.readEcc_scrub (hchan m (by omega)).1 hc (hchan m (by omega)).2 hs.alive
        (by rw [hdm]; exact (hgood m (by omega)).1) (by rw [hdm]; exact (hgood m (by omega)).2)
      refine ⟨hs.trans hread, fun k hk => ?_⟩
      by_cases hkm : k = m
      · rw [hkm, hsame, if_pos (Nat.lt_succ_self m)]
      · rw [hother _ (hchan k hk).2 (by omega), hd k hk]
        by_cases h : k < m
        · rw [if_pos h, if_pos (by omega)]
        · rw [if_neg h, if_neg (by omega)]
  obtain ⟨hs, hd⟩ := hsteps n (Nat.le_refl n)
  exact ⟨hs, fun k hk => (hd k hk).trans (if_pos hk)⟩

/-- A scrub read of a channel that serves, whose schedule is due, inside a pass (R73). -/
theorem execScrubRead_due {s s1 t : State} {ch : Chan} {p : Nat} (h1 : s.scrubSync ch.val = s1) (hserves : s1.rd (MEMC_STATUS_STATE ch.val) = 2)
    (henable : s1.rd (MEMC_SCRUB_CTL_ENABLE ch.val) = 1) (hlag : s1.rd (MEMC_SCRUB_LAG_LAG ch.val) ≠ 0) (hqueue : (s1.chan ch.val).queue = [])
    (hpos : s1.rd (MEMC_SCRUB_POS_POSITION ch.val) = p) (hp : p + 1 < 2 ^ 27)
    (ht : (List.range 4).foldl (fun s k => (s.readEcc (granuleOffset ch.val p + 64 * k) true).1) s1 = t) :
    execScrubRead ch [] s =
      .next (((t.setChan ch.val { t.chan ch.val with scrubTurn := 0 }).wr (MEMC_SCRUB_POS_POSITION ch.val) (p + 1)).scrubSync ch.val) := by
  have hgo : (decide (s1.rd (MEMC_STATUS_STATE ch.val) ≠ 2) || !s1.on (MEMC_SCRUB_CTL_ENABLE ch.val)
      || decide (s1.rd (MEMC_SCRUB_LAG_LAG ch.val) = 0) || !((s1.chan ch.val).queue.isEmpty || s1.scrubHolds ch.val)) = false := by
    rw [hqueue, hserves, decide_eq_false hlag, State.on, henable]
    rfl
  rw [execScrubRead, h1]
  dsimp only
  rw [if_neg (by rw [hgo]; exact Bool.false_ne_true), hpos, State.upset, List.foldl_nil, ht, if_neg (Nat.ne_of_lt hp)]

theorem scrubReads : Claim.ScrubReads := by
  intro s ch k hserves henable hqueue hnow p base hp hdue ha _ hgood
  have hc := ch.isLt
  have hsync := s.scrubSync_synced ch.val
  obtain ⟨hdmg, hq1⟩ := s.scrubSync_storage ch.val
  have hlag : (s.scrubSync ch.val).rd (MEMC_SCRUB_LAG_LAG ch.val) ≠ 0 := by
    have hrun : (s.rd (MEMC_STATUS_STATE ch.val) == 2 && s.on (MEMC_SCRUB_CTL_ENABLE ch.val)) = true := by
      rw [hserves, State.on, henable]
      rfl
    rw [s.rd_lag_scrubSync, State.scrubLag, if_pos hrun, hnow, Nat.sub_self, Nat.add_zero]
    have hp2 : s.rd (MEMC_SCRUB_POS_POSITION ch.val) + 1 < 2 ^ 27 := hp
    have hdue2 : s.rd (MEMC_SCRUB_POS_POSITION ch.val) < 2 ^ 27 * (s.chan ch.val).scrubClock / ((s.chan ch.val).scrubPeriod * 3600000000000) := hdue
    generalize 2 ^ 27 * (s.chan ch.val).scrubClock / ((s.chan ch.val).scrubPeriod * 3600000000000) = q at hdue2
    omega
  have hfield : ∀ f : RF, f.off ≠ MEMC_SCRUB_LAG ch.val → (s.scrubSync ch.val).rd f = s.rd f := fun f hf => by rw [State.rd, State.rd, hsync.regs _ hf]
  have hserves1 := (hfield (MEMC_STATUS_STATE ch.val) (by unfold MEMC_STATUS_STATE MEMC_STATUS MEMC_SCRUB_LAG; dsimp only; omega)).trans hserves
  have henable1 := (hfield (MEMC_SCRUB_CTL_ENABLE ch.val) (by unfold MEMC_SCRUB_CTL_ENABLE MEMC_SCRUB_CTL MEMC_SCRUB_LAG; dsimp only; omega)).trans henable
  have hpos1 : (s.scrubSync ch.val).rd (MEMC_SCRUB_POS_POSITION ch.val) = p :=
    hfield (MEMC_SCRUB_POS_POSITION ch.val) (by unfold MEMC_SCRUB_POS_POSITION MEMC_SCRUB_POS MEMC_SCRUB_LAG; dsimp only; omega)
  have halive1 : Claim.Alive (s.scrubSync ch.val) (240 + ch.val / 8) := by
    rw [Claim.Alive, hfield]
    · exact ha
    · simp only [FLT_SRC_CLASS, FLT_SRC, MEMC_SCRUB_LAG]
      omega
  have hchan : ∀ j, j < 4 → channelOf (base + 64 * j) = ch.val ∧ base + 64 * j < memTop := fun j hj =>
    ⟨channelOf_granuleOffset hc (by omega), by have : base + 256 ≤ memTop := granuleOffset_lt hc (by omega); omega⟩
  have hdamage1 : ∀ j, j < 4 → (s.scrubSync ch.val).damage (base + 64 * j) = s.damage (base + 64 * j) := fun j hj => by
    rw [State.damage, State.damage, if_pos (hchan j hj).2, if_pos (hchan j hj).2, hdmg]
  obtain ⟨hscrub, hclean⟩ := State.scrubWords hc hchan halive1 fun j hj => by
    rw [hdamage1 j hj]
    exact hgood ⟨j, hj⟩
  obtain ⟨t, ht⟩ : ∃ t, t = (List.range 4).foldl (fun s k => (s.readEcc (base + 64 * k) true).1) (s.scrubSync ch.val) := ⟨_, rfl⟩
  rw [← ht] at hscrub hclean
  obtain ⟨u, hu⟩ : ∃ u, u = (t.setChan ch.val { t.chan ch.val with scrubTurn := 0 }).wr (MEMC_SCRUB_POS_POSITION ch.val) (p + 1) := ⟨_, rfl⟩
  have hexec : exec (.scrubRead ch []) s = .next (u.scrubSync ch.val) :=
    (execScrubRead_due rfl hserves1 henable1 hlag (hq1.trans hqueue) hpos1 hp ht.symm).trans (by rw [hu])
  have hufield : u.rd (MEMC_SCRUB_POS_POSITION ch.val) = p + 1 := by
    rw [hu]
    exact (State.rd_wr_same _ (MEMC_SCRUB_POS_POSITION ch.val) _ (show 0 ≤ 26 by decide) (show 26 < 64 by decide)).trans
      (Nat.mod_eq_of_lt (show p + 1 < 2 ^ 27 from hp))
  have hdmg2 : (u.scrubSync ch.val).memDmg = t.memDmg := (u.scrubSync_storage ch.val).1.trans (by rw [hu, State.wr_memDmg, State.setChan_memDmg])
  have hmem2 : (u.scrubSync ch.val).mem = t.mem := (u.scrubSync_synced ch.val).mem.trans (by rw [hu, State.wr_mem, State.setChan_mem])
  refine ⟨_, hexec, ?_, ?_, hmem2.trans (hscrub.mem.trans hsync.mem)⟩
  · rw [State.rd, (u.scrubSync_synced ch.val).regs _ (by unfold MEMC_SCRUB_POS_POSITION MEMC_SCRUB_POS MEMC_SCRUB_LAG; dsimp only; omega)]
    exact hufield
  · rw [← hclean k.val k.isLt, State.damage, State.damage, if_pos (hchan k.val k.isLt).2, if_pos (hchan k.val k.isLt).2, hdmg2]

/-! Wear (R83, R84). -/

/-- The wear of channels, one after another: each has the new count and its peak raised. -/
theorem State.wearChannels (new temp : Nat) (hnew : new < 2 ^ 32) (htemp : temp < 256) (cs : List Nat) (hcs : cs.Nodup) (s : State) :
    (cs.foldl (fun s c => (s.wr (MEMC_WEAR_EQ_QMIN c) new).peak (MEMC_WEAR_PEAK_TEMP c) temp) s).mem = s.mem
    ∧ (∀ o, (∀ c ∈ cs, o ≠ MEMC_WEAR c) → (cs.foldl (fun s c => (s.wr (MEMC_WEAR_EQ_QMIN c) new).peak (MEMC_WEAR_PEAK_TEMP c) temp) s).reg o = s.reg o)
    ∧ ∀ c ∈ cs, (cs.foldl (fun s c => (s.wr (MEMC_WEAR_EQ_QMIN c) new).peak (MEMC_WEAR_PEAK_TEMP c) temp) s).rd (MEMC_WEAR_EQ_QMIN c) = new
      ∧ (cs.foldl (fun s c => (s.wr (MEMC_WEAR_EQ_QMIN c) new).peak (MEMC_WEAR_PEAK_TEMP c) temp) s).rd (MEMC_WEAR_PEAK_TEMP c) =
        max (s.rd (MEMC_WEAR_PEAK_TEMP c)) temp := by
  induction cs generalizing s with
  | nil => exact ⟨rfl, fun _ _ => rfl, fun c hc => absurd hc List.not_mem_nil⟩
  | cons c cs ih =>
    obtain ⟨hout, hrest⟩ := List.nodup_cons.mp hcs
    obtain ⟨t, ht⟩ : ∃ t, t = (s.wr (MEMC_WEAR_EQ_QMIN c) new).peak (MEMC_WEAR_PEAK_TEMP c) temp := ⟨_, rfl⟩
    have hapart : (s.wr (MEMC_WEAR_EQ_QMIN c) new).rd (MEMC_WEAR_PEAK_TEMP c) = s.rd (MEMC_WEAR_PEAK_TEMP c) :=
      State.rd_wr_apart s (MEMC_WEAR_EQ_QMIN c) (MEMC_WEAR_PEAK_TEMP c) new (show 0 ≤ 31 by decide) (show 31 < 64 by decide) rfl
        (Or.inr (show 31 < 32 by decide))
    have hqmin : (s.wr (MEMC_WEAR_EQ_QMIN c) new).rd (MEMC_WEAR_EQ_QMIN c) = new :=
      (State.rd_wr_same s (MEMC_WEAR_EQ_QMIN c) new (show 0 ≤ 31 by decide) (show 31 < 64 by decide)).trans (Nat.mod_eq_of_lt hnew)
    have hstep : t.mem = s.mem ∧ (∀ o, o ≠ MEMC_WEAR c → t.reg o = s.reg o) ∧ t.rd (MEMC_WEAR_EQ_QMIN c) = new
        ∧ t.rd (MEMC_WEAR_PEAK_TEMP c) = max (s.rd (MEMC_WEAR_PEAK_TEMP c)) temp := by
      rw [ht, State.peak, hapart]
      split
      next h =>
        refine ⟨rfl, fun o ho => (State.reg_wr_other _ _ _ _ ho).trans (State.reg_wr_other _ _ _ _ ho), ?_, ?_⟩
        · exact (State.rd_wr_apart _ (MEMC_WEAR_PEAK_TEMP c) (MEMC_WEAR_EQ_QMIN c) temp (show 32 ≤ 39 by decide) (show 39 < 64 by decide) rfl
            (Or.inl (show 31 < 32 by decide))).trans hqmin
        · rw [Nat.max_eq_right (Nat.le_of_lt h)]
          exact (State.rd_wr_same _ (MEMC_WEAR_PEAK_TEMP c) temp (show 32 ≤ 39 by decide) (show 39 < 64 by decide)).trans (Nat.mod_eq_of_lt htemp)
      next h => exact ⟨rfl, fun o ho => State.reg_wr_other _ _ _ _ ho, hqmin, by rw [hapart, Nat.max_eq_left (Nat.not_lt.mp h)]⟩
    obtain ⟨hmem, hregs, hq, hpeak⟩ := hstep
    obtain ⟨ihmem, ihregs, ihin⟩ := ih hrest t
    rw [List.foldl_cons, ← ht]
    refine ⟨ihmem.trans hmem, fun o ho => (ihregs o fun d hd => ho d (List.mem_cons_of_mem _ hd)).trans (hregs o (ho c List.mem_cons_self)), ?_⟩
    intro d hd
    obtain rfl | hd := List.mem_cons.mp hd
    · have hkeep := ihregs (MEMC_WEAR d) fun e he h => hout (by
        have : d = e := by unfold MEMC_WEAR at h; omega
        rw [this]; exact he)
      exact ⟨(congrArg (fun w => fieldOf w 31 0) hkeep).trans hq, (congrArg (fun w => fieldOf w 39 32) hkeep).trans hpeak⟩
    · obtain ⟨h1, h2⟩ := ihin d hd
      have hne : MEMC_WEAR d ≠ MEMC_WEAR c := fun h => hout (by
        have : c = d := by unfold MEMC_WEAR at h; omega
        rw [this]; exact hd)
      refine ⟨h1, h2.trans (congrArg (max · temp) ?_)⟩
      exact congrArg (fun w => fieldOf w 39 32) (hregs _ hne)

/-- The record that a tower's wear has passed a limit (R85). -/
theorem State.wear_noted {t : State} {n : Nat} (hn : n < 12) (ha : Claim.Alive t (288 + n)) : t.Noted (288 + n) (t.record { src := srcWear + n }) := by
  refine State.Noted.plainRecord { src := srcWear + n } rfl rfl (show srcWear + n < 640 by unfold srcWear; omega) ?_ ha
  simp only [srcSpUe, srcLoftUe, srcMemUe, srcJpDown, srcWear]
  omega

theorem wear : Claim.Wear := by
  intro s tower temp k c
  have htower := tower.isLt
  have hk := k.isLt
  refine ⟨fun hserves hroom ha => ?_, ?_⟩
  · obtain ⟨new, hnew⟩ : ∃ n, n = s.rd (MEMC_WEAR_EQ_QMIN (8 * tower.val)) + wearWeight temp := ⟨_, rfl⟩
    have hroom' : s.rd (MEMC_WEAR_EQ_QMIN (8 * tower.val)) + 16 < 2 ^ 32 := hroom
    have hweight : wearWeight temp ≤ 16 := by
      unfold wearWeight
      split_ifs
      all_goals decide
    obtain ⟨hmem, hregs, hin⟩ := State.wearChannels new (min temp 255) (by omega) (by omega) (rangeFrom (8 * tower.val) 8)
      (List.Nodup.map (fun a b h => Nat.add_left_cancel h) List.nodup_range) s
    obtain ⟨t, ht⟩ : ∃ t, t = (rangeFrom (8 * tower.val) 8).foldl
      (fun s c => (s.wr (MEMC_WEAR_EQ_QMIN c) new).peak (MEMC_WEAR_PEAK_TEMP c) (min temp 255)) s := ⟨_, rfl⟩
    rw [← ht] at hmem hregs hin
    have hcond : (rangeFrom (8 * tower.val) 8).any (fun c => s.rd (MEMC_STATUS_STATE c) == 2 || s.rd (MEMC_STATUS_STATE c) == 3) = true :=
      List.any_eq_true.mpr ⟨8 * tower.val, List.mem_map_of_mem (f := (8 * tower.val + ·)) (List.mem_range.mpr (show 0 < 8 by decide)), by
        rw [show s.rd (MEMC_STATUS_STATE (8 * tower.val)) = 2 from hserves]
        rfl⟩
    have hexec : ∃ u, exec (.wearTick tower temp) s = .next u ∧ (u = t.record { src := srcWear + tower.val } ∨ u = t) := by
      rw [show exec (.wearTick tower temp) s = execWearTick tower temp s from rfl, execWearTick]
      dsimp only
      rw [hcond, ← hnew, ← ht, if_neg (by decide)]
      split
      · exact ⟨_, rfl, Or.inl rfl⟩
      · exact ⟨_, rfl, Or.inr rfl⟩
    obtain ⟨u, hexec, hu⟩ := hexec
    have halive : Claim.Alive t (288 + tower.val) := by
      rw [Claim.Alive, State.rd, hregs]
      · exact ha
      · intro d _
        simp only [FLT_SRC_CLASS, FLT_SRC, MEMC_WEAR]
        omega
    have hnoted : t.Noted (288 + tower.val) u := by
      obtain rfl | rfl := hu
      · exact State.wear_noted htower halive
      · exact State.Noted.refl _ u
    have hplain : ∀ d, ¬ logReg (288 + tower.val) (MEMC_WEAR d) ∧ ¬ (0xb4000 ≤ MEMC_WEAR d ∧ MEMC_WEAR d < 0xb4100) := fun d =>
      ⟨not_logReg_low (Or.inr (by unfold MEMC_WEAR; omega)) (by omega), by unfold MEMC_WEAR; omega⟩
    have hfield : ∀ d hi lo, u.rd ⟨MEMC_WEAR d, hi, lo⟩ = t.rd ⟨MEMC_WEAR d, hi, lo⟩ := fun d hi lo =>
      hnoted.rd (f := ⟨MEMC_WEAR d, hi, lo⟩) (hplain d).1 (hplain d).2
    obtain ⟨hq, hpeak⟩ := hin (c k.val) (List.mem_map_of_mem (f := (8 * tower.val + ·)) (List.mem_range.mpr hk))
    exact ⟨u, hexec, (hfield (c k.val) 31 0).trans (hq.trans hnew), (hfield (c k.val) 39 32).trans hpeak, hnoted.mem.trans hmem⟩
  · refine ⟨s.saveWear, rfl, ?_, State.flashTouch_mem s⟩
    have hfind : ∀ (l : List Nat) (f : Nat → Nat × Nat) (n : Nat), n ∈ l → tabGet (l.map fun t => (t, f t)) (0, 0) n = f n := by
      intro l f n hn
      induction l with
      | nil => exact absurd hn List.not_mem_nil
      | cons a l ih =>
        rw [List.map_cons, tabGet]
        by_cases h : a = n
        · rw [if_pos h, h]
        · rw [if_neg h]
          exact ih ((List.mem_cons.mp hn).resolve_left fun e => h e.symm)
    exact hfind (List.range 12) (fun t => (s.rd (MEMC_WEAR_EQ_QMIN (8 * t)), s.rd (MEMC_WEAR_PEAK_TEMP (8 * t)))) tower.val
      (List.mem_range.mpr htower)

end Sys2Proof.Machine
section
open Sys2Proof.Machine Sys2Proof.Machine.Reg Sys2Proof.Claim

/-- Settles O38: the only request of a calm channel is granted, a refresh takes its clocks, a scrub read repairs its granule, and wear
adds up. -/
theorem channels : Obligations.Channels := ⟨channelGrants, refreshTakesTime, scrubReads, wear⟩

end
end

section
/-! PROOF. Spare rows and lanes, and the wipe of a channel (R66, R70, R75 to R82). -/
namespace Sys2Proof.Machine
open Reg

/-- The record of a kind of spare that falls below a quarter (R85). -/
theorem State.wearCheck_noted {s : State} {c : Nat} (hc : c < 96) (ha : Claim.Alive s (288 + c / 8)) (before after total : Nat) :
    s.Noted (288 + c / 8) (s.wearCheck c before after total) := by
  have hkind : ¬ (srcSpUe ≤ 288 + c / 8 ∧ 288 + c / 8 < srcSpUe + 24) ∧ ¬ (srcLoftUe ≤ 288 + c / 8 ∧ 288 + c / 8 < srcLoftUe + 24)
      ∧ ¬ (srcMemUe ≤ 288 + c / 8 ∧ 288 + c / 8 < srcMemUe + 12) ∧ ¬ (srcJpDown ≤ 288 + c / 8 ∧ 288 + c / 8 < srcJpDown + 16) := by
    simp only [srcSpUe, srcLoftUe, srcMemUe, srcJpDown]
    omega
  exact State.Noted.ite (State.Noted.plainRecord { src := srcWear + c / 8, inst := c % 8 } rfl rfl (show 288 + c / 8 < 640 by omega) hkind ha)
    (State.Noted.refl _ s)

theorem memcReg_plain {n o : Nat} (hn : n < 640) (ho : 0x100000 ≤ o) : ¬ logReg n o ∧ ¬ (0xb4000 ≤ o ∧ o < 0xb4100) :=
  ⟨not_logReg_low (Or.inr (by omega)) hn, by omega⟩

section
variable {s : State} {c : Nat} (hc : c < 96)
include hc

/-- After a record of wear, the channel and its registers are as before. -/
theorem State.wearCheck_spec (ha : Claim.Alive s (288 + c / 8)) (before after total : Nat) :
    (s.wearCheck c before after total).chan c = s.chan c ∧ (s.wearCheck c before after total).mem = s.mem
    ∧ ∀ f : RF, 0x100000 ≤ f.off → (s.wearCheck c before after total).rd f = s.rd f := by
  have h := State.wearCheck_noted hc ha before after total
  exact ⟨by rw [State.chan, h.chans]; rfl, h.mem, fun f hf => h.rd (memcReg_plain (by omega) hf).1 (memcReg_plain (n := 0) (by omega) hf).2⟩

/-- The record of a spare used for corrected errors (R86). -/
theorem State.spareRecord_spec (ha : Claim.Alive s (240 + c / 8)) :
    (s.spareRecord c srcMemCe 0).chan c = s.chan c ∧ (s.spareRecord c srcMemCe 0).mem = s.mem
    ∧ (∀ f : RF, 0x100000 ≤ f.off → (s.spareRecord c srcMemCe 0).rd f = s.rd f)
    ∧ (Claim.Alive s (288 + c / 8) → Claim.Alive (s.spareRecord c srcMemCe 0) (288 + c / 8)) := by
  have hkind : ¬ (srcSpUe ≤ 240 + c / 8 ∧ 240 + c / 8 < srcSpUe + 24) ∧ ¬ (srcLoftUe ≤ 240 + c / 8 ∧ 240 + c / 8 < srcLoftUe + 24)
      ∧ ¬ (srcMemUe ≤ 240 + c / 8 ∧ 240 + c / 8 < srcMemUe + 12) ∧ ¬ (srcJpDown ≤ 240 + c / 8 ∧ 240 + c / 8 < srcJpDown + 16) := by
    simp only [srcSpUe, srcLoftUe, srcMemUe, srcJpDown]
    omega
  have h : s.Noted (240 + c / 8) (s.spareRecord c srcMemCe 0) :=
    State.Noted.plainRecord { src := srcMemCe + c / 8, inst := c % 8, aux := (s.reg (MEMC_LAST_ERR c)).toNat % 2 ^ 32
                              addr := s.rd (MEMC_LAST_ERR_ROW_GRANULE c), least := 0 } rfl rfl (show 240 + c / 8 < 640 by omega) hkind ha
  refine ⟨by rw [State.chan, h.chans]; rfl, h.mem, fun f hf => h.rd (memcReg_plain (by omega) hf).1 (memcReg_plain (n := 0) (by omega) hf).2, fun h2 => ?_⟩
  rw [Claim.Alive, h.rd]
  · exact h2
  · simp only [logReg, FLT_STAT, FLT_SRC, FLT_SRC_CNT, TLOG_STAT, FLT_SRC_CLASS]
    omega
  · simp only [FLT_SRC_CLASS, FLT_SRC]
    omega

omit hc in
/-- A change of a channel and of one of its registers leaves the classes. -/
theorem State.alive_spared {x : Channel} {f : RF} {v n : Nat} (hf : 0x100000 ≤ f.off) (hn : n < 640) (ha : Claim.Alive s n) :
    Claim.Alive ((s.setChan c x).wr f v) n := by
  rw [Claim.Alive, State.rd_wr_off]
  · exact ha
  · simp only [FLT_SRC_CLASS, FLT_SRC]
    omega

end

/-! Rows. -/

theorem execRowSpare_free {s : State} {ch : Chan} {bank : Fin 64} {row : Nat} (hwear : Claim.Alive s (288 + ch.val / 8))
    (hneed : (s.chan ch.val).needRows.find? (fun n => n.1 == bank.val + 64 * row) = some (bank.val + 64 * row, true))
    (hfree : 0 < s.rowsLeft ch.val) (hbank : ((s.chan ch.val).spareRows.filter (fun r => r % 64 == bank.val)).length < 4) :
    Claim.Next (.rowSpare ch bank.val row) s (fun t =>
      (t.chan ch.val).spareRows = (s.chan ch.val).spareRows ++ [bank.val + 64 * row]
      ∧ t.rd (MEMC_SPARE_ROW_FREE ch.val) =
        (if (s.chan ch.val).rowShort = [] then s.rd (MEMC_SPARE_ROW_FREE ch.val) - 1 else s.rd (MEMC_SPARE_ROW_FREE ch.val))
      ∧ (t.chan ch.val).needRows.all (fun n => n.1 != bank.val + 64 * row) = true ∧ t.mem = s.mem) := by
  have hkey : bank.val % 64 = bank.val := Nat.mod_eq_of_lt bank.isLt
  obtain ⟨x, hx⟩ : ∃ x : Channel, x = { s.chan ch.val with
      needRows := (s.chan ch.val).needRows.filter (fun n => n.1 != bank.val + 64 * row), rowCe := tabDel (s.chan ch.val).rowCe (bank.val + 64 * row)
      symRows := (s.chan ch.val).symRows.filter (fun y => y.2 != bank.val + 64 * row)
      spareRows := (s.chan ch.val).spareRows ++ [bank.val + 64 * row] } := ⟨_, rfl⟩
  obtain ⟨t, ht⟩ : ∃ t, t = if (s.chan ch.val).rowShort.isEmpty
      then (s.setChan ch.val x).wr (MEMC_SPARE_ROW_FREE ch.val) (s.rowsLeft ch.val - 1) else s.setChan ch.val x := ⟨_, rfl⟩
  have hexec : exec (.rowSpare ch bank.val row) s =
      .next ((t.copyRow ch.val (bank.val + 64 * row)).wearCheck ch.val (s.rowsLeft ch.val) (s.rowsLeft ch.val - 1) 256) := by
    have hgo : (decide (0 < s.rowsLeft ch.val) && decide (((s.chan ch.val).spareRows.filter (fun r => r % 64 == bank.val)).length < 4)) = true := by
      rw [decide_eq_true hfree, decide_eq_true hbank]
      rfl
    rw [show exec (.rowSpare ch bank.val row) s = execRowSpare ch bank.val row s from rfl, execRowSpare]
    dsimp only
    rw [hkey, hneed]
    dsimp only
    rw [← Bool.decide_and, Bool.decide_and, hgo, if_pos rfl, if_pos rfl, ht, hx]
  have hspec : t.chan ch.val = x ∧ t.mem = s.mem ∧ Claim.Alive t (288 + ch.val / 8)
      ∧ t.rd (MEMC_SPARE_ROW_FREE ch.val) =
        (if (s.chan ch.val).rowShort = [] then s.rd (MEMC_SPARE_ROW_FREE ch.val) - 1 else s.rd (MEMC_SPARE_ROW_FREE ch.val)) := by
    rw [ht]
    simp only [List.isEmpty_iff]
    split
    next h =>
      have hleft : s.rowsLeft ch.val = s.rd (MEMC_SPARE_ROW_FREE ch.val) := by rw [State.rowsLeft, h]; rfl
      refine ⟨State.chan_setChan_same .., (State.wr_mem ..).trans (State.setChan_mem ..), State.alive_spared ?_ (by omega) hwear, ?_⟩
      · unfold MEMC_SPARE_ROW_FREE MEMC_SPARE
        dsimp only
        omega
      · have hlt : s.rd (MEMC_SPARE_ROW_FREE ch.val) < 2 ^ 9 := s.rd_lt _
        rw [hleft]
        exact (State.rd_wr_same _ (MEMC_SPARE_ROW_FREE ch.val) _ (show 0 ≤ 8 by decide) (show 8 < 64 by decide)).trans
          (Nat.mod_eq_of_lt (show _ - 1 < 2 ^ 9 by omega))
    next h => exact ⟨State.chan_setChan_same .., State.setChan_mem .., hwear, rfl⟩
  obtain ⟨htchan, htmem, htalive, htfree⟩ := hspec
  obtain ⟨hchan, hmem, hrd⟩ := State.wearCheck_spec (s := t.copyRow ch.val (bank.val + 64 * row)) ch.isLt htalive (s.rowsLeft ch.val)
    (s.rowsLeft ch.val - 1) 256
  have hown : ((t.copyRow ch.val (bank.val + 64 * row)).wearCheck ch.val (s.rowsLeft ch.val) (s.rowsLeft ch.val - 1) 256).chan ch.val = x :=
    hchan.trans htchan
  refine ⟨_, hexec, ?_, ?_, ?_, hmem.trans htmem⟩
  · rw [hown, hx]
  · exact (hrd (MEMC_SPARE_ROW_FREE ch.val) (by unfold MEMC_SPARE_ROW_FREE MEMC_SPARE; dsimp only; omega)).trans htfree
  · rw [hown, hx]
    exact List.all_eq_true.mpr fun y hy => (List.mem_filter.mp hy).2

theorem execRowSpare_none {s : State} {ch : Chan} {bank : Fin 64} {row : Nat} (hwear : Claim.Alive s (288 + ch.val / 8))
    (hneed : (s.chan ch.val).needRows.find? (fun n => n.1 == bank.val + 64 * row) = some (bank.val + 64 * row, true))
    (hfree : s.rowsLeft ch.val = 0) :
    Claim.Next (.rowSpare ch bank.val row) s (fun t => (t.chan ch.val).lacksSpare = true ∧ (t.chan ch.val).spareRows = (s.chan ch.val).spareRows
      ∧ t.rd (MEMC_SPARE_ROW_FREE ch.val) = 0) := by
  have hkey : bank.val % 64 = bank.val := Nat.mod_eq_of_lt bank.isLt
  obtain ⟨x, t, ht, hlacks, hrows, hexec⟩ : ∃ (x : Channel) (t : State), t = (s.setChan ch.val x).wr (MEMC_SPARE_ROW_FREE ch.val) 0
      ∧ x.lacksSpare = true ∧ x.spareRows = (s.chan ch.val).spareRows
      ∧ exec (.rowSpare ch bank.val row) s = .next (t.wearCheck ch.val (s.rd (MEMC_SPARE_ROW_FREE ch.val)) 0 256) := by
    refine ⟨{ s.chan ch.val with
      needRows := (s.chan ch.val).needRows.filter (fun n => n.1 != bank.val + 64 * row), rowCe := tabDel (s.chan ch.val).rowCe (bank.val + 64 * row)
      symRows := (s.chan ch.val).symRows.filter (fun y => y.2 != bank.val + 64 * row), lacksSpare := true
      rowShort := if (s.chan ch.val).rowShort.contains bank.val then (s.chan ch.val).rowShort else (s.chan ch.val).rowShort ++ [bank.val] },
      _, rfl, rfl, rfl, ?_⟩
    rw [show exec (.rowSpare ch bank.val row) s = execRowSpare ch bank.val row s from rfl, execRowSpare]
    dsimp only
    rw [hkey, hneed, hfree]
    rfl
  obtain ⟨hchan, -, hrd⟩ := State.wearCheck_spec (s := t) ch.isLt (by
    rw [ht]
    exact State.alive_spared (by unfold MEMC_SPARE_ROW_FREE MEMC_SPARE; dsimp only; omega) (by have := ch.isLt; omega) hwear)
    (s.rd (MEMC_SPARE_ROW_FREE ch.val)) 0 256
  have hown : (t.wearCheck ch.val (s.rd (MEMC_SPARE_ROW_FREE ch.val)) 0 256).chan ch.val = x := by
    rw [hchan, ht]
    exact State.chan_setChan_same ..
  refine ⟨_, hexec, ?_, ?_, ?_⟩
  · rw [hown, hlacks]
  · rw [hown, hrows]
  · refine (hrd (MEMC_SPARE_ROW_FREE ch.val) (by unfold MEMC_SPARE_ROW_FREE MEMC_SPARE; dsimp only; omega)).trans ?_
    rw [ht]
    exact State.rd_wr_same _ (MEMC_SPARE_ROW_FREE ch.val) 0 (show 0 ≤ 8 by decide) (show 8 < 64 by decide)

/-! Lanes. -/

theorem execLaneSpare_free {s : State} {ch : Chan} {lane : Nat} (hwear : Claim.Alive s (288 + ch.val / 8)) (hce : Claim.Alive s (240 + ch.val / 8))
    (hneed : lane ∈ (s.chan ch.val).needLanes) (hfree : 0 < s.rd (MEMC_SPARE_LANE_FREE ch.val)) :
    Claim.Next (.laneSpare ch lane) s (fun t =>
      (t.chan ch.val).spareLanes = (s.chan ch.val).spareLanes ++ [lane]
      ∧ t.rd (MEMC_SPARE_LANE_FREE ch.val) = s.rd (MEMC_SPARE_LANE_FREE ch.val) - 1 ∧ lane ∉ (t.chan ch.val).needLanes ∧ t.mem = s.mem) := by
  have hhigh : 0x100000 ≤ (MEMC_SPARE_LANE_FREE ch.val).off := by
    unfold MEMC_SPARE_LANE_FREE MEMC_SPARE
    dsimp only
    omega
  obtain ⟨x, t, ht, hlanes, hneeds, hexec⟩ : ∃ (x : Channel) (t : State),
      t = (s.setChan ch.val x).wr (MEMC_SPARE_LANE_FREE ch.val) (s.rd (MEMC_SPARE_LANE_FREE ch.val) - 1)
      ∧ x.spareLanes = (s.chan ch.val).spareLanes ++ [lane] ∧ x.needLanes = (s.chan ch.val).needLanes.filter (· != lane)
      ∧ exec (.laneSpare ch lane) s = .next ((t.spareRecord ch.val srcMemCe 0).wearCheck ch.val (s.rd (MEMC_SPARE_LANE_FREE ch.val))
          (s.rd (MEMC_SPARE_LANE_FREE ch.val) - 1) 2) := by
    refine ⟨{ s.chan ch.val with
      needLanes := (s.chan ch.val).needLanes.filter (· != lane), symRows := (s.chan ch.val).symRows.filter (fun y => y.1 != lane)
      spareLanes := (s.chan ch.val).spareLanes ++ [lane] }, _, rfl, rfl, rfl, ?_⟩
    rw [show exec (.laneSpare ch lane) s = execLaneSpare ch lane s from rfl, execLaneSpare]
    dsimp only
    rw [List.contains_iff_mem.mpr hneed, if_neg (by decide), if_pos hfree]
  have halive : ∀ n, n < 640 → Claim.Alive s n → Claim.Alive t n := fun n hn h => by
    rw [ht]
    exact State.alive_spared hhigh hn h
  have hc := ch.isLt
  obtain ⟨hchan1, hmem1, hrd1, halive1⟩ := State.spareRecord_spec (s := t) hc (halive _ (by omega) hce)
  obtain ⟨hchan2, hmem2, hrd2⟩ := State.wearCheck_spec (s := t.spareRecord ch.val srcMemCe 0) hc (halive1 (halive _ (by omega) hwear))
    (s.rd (MEMC_SPARE_LANE_FREE ch.val)) (s.rd (MEMC_SPARE_LANE_FREE ch.val) - 1) 2
  have hx : t.chan ch.val = x := by
    rw [ht]
    exact State.chan_setChan_same ..
  refine ⟨_, hexec, ?_, ?_, ?_, ?_⟩
  · rw [hchan2, hchan1, hx, hlanes]
  · have hlt : s.rd (MEMC_SPARE_LANE_FREE ch.val) < 2 ^ 2 := s.rd_lt _
    rw [hrd2 _ hhigh, hrd1 _ hhigh, ht]
    exact (State.rd_wr_same _ (MEMC_SPARE_LANE_FREE ch.val) _ (show 48 ≤ 49 by decide) (show 49 < 64 by decide)).trans
      (Nat.mod_eq_of_lt (show _ - 1 < 2 ^ 2 by omega))
  · rw [hchan2, hchan1, hx, hneeds]
    exact fun h => absurd (List.mem_filter.mp h).2 (by rw [bne_self_eq_false]; exact Bool.false_ne_true)
  · rw [hmem2, hmem1, ht, State.wr_mem, State.setChan_mem]

theorem sparing : Claim.Sparing := fun _ _ _ _ _ hwear hce =>
  ⟨⟨fun hneed hfree hbank => execRowSpare_free hwear hneed hfree hbank, fun hneed hfree => execRowSpare_none hwear hneed hfree⟩,
    fun hneed hfree => execLaneSpare_free hwear hce hneed hfree⟩

/-! Wipes. -/

theorem tabGet_filter_keys {α : Type} (t : Tab α) (d : α) (p : Nat → Bool) (k : Nat) :
    tabGet (t.filter fun x => p x.1) d k = if p k then tabGet t d k else d := by
  induction t with
  | nil =>
    split
    · rfl
    · rfl
  | cons x t ih =>
    obtain ⟨k', v⟩ := x
    by_cases hp : p k' = true
    · rw [List.filter_cons_of_pos (p := fun x : Nat × α => p x.1) (a := (k', v)) hp, tabGet, tabGet, ih]
      by_cases hk : k' = k
      · rw [if_pos hk, if_pos hk, ← hk, if_pos hp]
      · rw [if_neg hk, if_neg hk]
    · rw [List.filter_cons_of_neg (p := fun x : Nat × α => p x.1) (a := (k', v)) hp, ih, tabGet]
      by_cases hk : k' = k
      · rw [if_pos hk, ← hk, if_neg hp, if_neg hp]
      · rw [if_neg hk]

theorem memGet_filter_keys {m : List Host.Cell} (hwf : memWf m = true) (p : Nat → Bool) (a : Nat) :
    memGet (m.filter fun x => p x.1) a = if p a then memGet m a else 0 := by
  induction m with
  | nil =>
    split
    · rfl
    · rfl
  | cons x m ih =>
    obtain ⟨b, v⟩ := x
    rw [memWf, Bool.and_eq_true, Bool.and_eq_true] at hwf
    obtain ⟨⟨-, hall⟩, htail⟩ := hwf
    have hlow : ∀ m' : List Host.Cell, (∀ y ∈ m', b < y.1) → a ≤ b → memGet m' a = 0 := by
      intro m' hm' hab
      cases m' with
      | nil => rfl
      | cons y m' =>
        have := hm' y List.mem_cons_self
        rw [memGet, if_neg (by omega), if_pos (by omega)]
    have hgt : ∀ y ∈ m, b < y.1 := fun y hy => of_decide_eq_true (List.all_eq_true.mp hall y hy)
    by_cases hp : p b = true
    · rw [List.filter_cons_of_pos (p := fun x : Host.Cell => p x.1) (a := (b, v)) hp, memGet, memGet, ih htail]
      by_cases hk : b = a
      · rw [if_pos hk, if_pos hk, ← hk, if_pos hp]
      · rw [if_neg hk, if_neg hk]
        by_cases hab : a < b
        · rw [if_pos hab, if_pos hab, ite_self]
        · rw [if_neg hab, if_neg hab]
    · rw [List.filter_cons_of_neg (p := fun x : Host.Cell => p x.1) (a := (b, v)) hp, ih htail, memGet]
      by_cases hk : b = a
      · rw [if_pos hk, ← hk, if_neg hp, if_neg hp]
      · rw [if_neg hk]
        by_cases hab : a < b
        · rw [if_pos hab, hlow m hgt (by omega)]
        · rw [if_neg hab]

/-- The training of a channel changes the channel, its spare columns and what their record changes (R80 to R82). -/
theorem State.trainChannel_spec {s : State} {c : Nat} (hc : c < 96) (ha : Claim.Alive s (288 + c / 8)) :
    (s.trainChannel c).mem = s.mem
    ∧ ∀ o, o ≠ MEMC_SPARE c → ¬ logReg (288 + c / 8) o → ¬ (0xb4000 ≤ o ∧ o < 0xb4100) → (s.trainChannel c).reg o = s.reg o := by
  unfold State.trainChannel
  extract_lets x found faults total cols short before free s1
  split
  · exact ⟨rfl, fun _ _ _ _ => rfl⟩
  · split
    · exact ⟨State.setChan_mem .., fun _ _ _ _ => rfl⟩
    · have h := State.wearCheck_noted (s := s1.wr (MEMC_SPARE_COL_FREE c) free) hc
        (State.alive_spared (by unfold MEMC_SPARE_COL_FREE MEMC_SPARE; dsimp only; omega) (by omega) ha) before free 128
      exact ⟨h.mem.trans ((State.wr_mem ..).trans (State.setChan_mem ..)), fun o ho hl hp => (h.regs o hl hp).trans (State.reg_wr_other _ _ _ _ ho)⟩

/-- A pass that begins changes the channel, and the position and lag of its scrub (R71, R74, R77). -/
theorem State.newPass_spec (s : State) (c : Nat) :
    (s.newPass c).mem = s.mem ∧ (s.newPass c).memDmg = s.memDmg ∧ (s.newPass c).rd (MEMC_SCRUB_POS_POSITION c) = 0
    ∧ ∀ o, o ≠ MEMC_SCRUB_POS c → o ≠ MEMC_SCRUB_LAG c → (s.newPass c).reg o = s.reg o := by
  have hne : MEMC_SCRUB_POS c ≠ MEMC_SCRUB_LAG c := by unfold MEMC_SCRUB_POS MEMC_SCRUB_LAG; omega
  unfold State.newPass
  extract_lets x t
  have ht : t.mem = s.mem ∧ t.memDmg = s.memDmg ∧ ∀ o, t.reg o = s.reg o := ⟨State.setChan_mem .., State.setChan_memDmg .., fun _ => rfl⟩
  clear_value t
  obtain ⟨hmem, hdmg, hregs⟩ := ht
  refine ⟨?_, ?_, ?_, fun o h1 h2 => ?_⟩
  · rw [State.wr_mem, State.wr_mem, State.wr_mem, hmem]
  · rw [State.wr_memDmg, State.wr_memDmg, State.wr_memDmg, hdmg]
  · rw [State.rd_wr_off _ (MEMC_SCRUB_LAG_BEHIND c) _ _ hne, State.rd_wr_off _ (MEMC_SCRUB_LAG_LAG c) _ _ hne]
    exact State.rd_wr_same t (MEMC_SCRUB_POS_POSITION c) 0 (show 0 ≤ 26 by decide) (show 26 < 64 by decide)
  · rw [State.reg_wr_other _ (MEMC_SCRUB_LAG_BEHIND c) _ _ h2, State.reg_wr_other _ (MEMC_SCRUB_LAG_LAG c) _ _ h2,
      State.reg_wr_other _ (MEMC_SCRUB_POS_POSITION c) _ _ h1, hregs]

theorem wipeZeroes : Claim.WipeZeroes := by
  intro s ch a hstate hdone hon hfence hquiet hwf
  have hc := ch.isLt
  obtain ⟨htmem, htregs⟩ := State.trainChannel_spec hc (show Claim.Alive s (288 + ch.val / 8) by rw [Claim.Alive, hquiet.1]; exact Nat.zero_le _)
  generalize ht : s.trainChannel ch.val = t at htmem htregs
  obtain ⟨w, hw⟩ : ∃ w, w = t.wipe (fun o => decide (o < memTop) && channelOf o == ch.val) := ⟨_, rfl⟩
  obtain ⟨v, hv⟩ : ∃ v, v = (w.wr (MEMC_WIPE_DONE ch.val) 1).wr (MEMC_WIPE_POSITION ch.val) (2 ^ 27) := ⟨_, rfl⟩
  have hwmem : w.mem = t.mem.filter (fun c => !(decide (c.1 < memTop) && channelOf c.1 == ch.val)) := by rw [hw]; rfl
  have hwdmg : w.memDmg = t.memDmg.filter (fun c => !(decide (64 * c.1 < memTop) && channelOf (64 * c.1) == ch.val)) := by rw [hw]; rfl
  have hwregs : w.regs = t.regs := by rw [hw, State.wipe_regs]
  obtain ⟨hnmem, hndmg, hnpos, hnregs⟩ := v.newPass_spec ch.val
  have hvdone : v.rd (MEMC_WIPE_DONE ch.val) = 1 := by
    rw [hv]
    exact (State.rd_wr_apart _ (MEMC_WIPE_POSITION ch.val) (MEMC_WIPE_DONE ch.val) _ (show 0 ≤ 27 by decide) (show 27 < 64 by decide) rfl
      (Or.inr (show 27 < 63 by decide))).trans
      (State.rd_wr_same _ (MEMC_WIPE_DONE ch.val) 1 (show 63 ≤ 63 by decide) (show 63 < 64 by decide))
  have hunfenced : (v.newPass ch.val).chFenced ch.val = false := by
    have hreg : (v.newPass ch.val).reg (FLT_FENCED_CH (ch.val / 64)) = s.reg (FLT_FENCED_CH (ch.val / 64)) := by
      rw [hnregs _ (by unfold FLT_FENCED_CH MEMC_SCRUB_POS; omega) (by unfold FLT_FENCED_CH MEMC_SCRUB_LAG; omega), hv,
        State.reg_wr_other _ _ _ _ (by unfold FLT_FENCED_CH MEMC_WIPE_POSITION MEMC_WIPE; dsimp only; omega),
        State.reg_wr_other _ _ _ _ (by unfold FLT_FENCED_CH MEMC_WIPE_DONE MEMC_WIPE; dsimp only; omega), State.reg_congr hwregs]
      refine htregs _ (by unfold FLT_FENCED_CH MEMC_SPARE; omega) ?_ (by unfold FLT_FENCED_CH; omega)
      simp only [logReg, FLT_STAT, FLT_SRC, FLT_SRC_CNT, TLOG_STAT, FLT_FENCED_CH]
      omega
    rw [← hfence, State.chFenced, State.chFenced]
    exact congrArg (fun w => bitOf (fieldOf w 63 0) (ch.val % 64)) hreg
  have hexec : exec (.wipeComplete ch) s = .next ((v.newPass ch.val).wr (MEMC_STATUS_STATE ch.val) 2) := by
    have hgo : (decide (s.rd (MEMC_STATUS_STATE ch.val) ≠ 1) && !s.chFenced ch.val || s.on (MEMC_WIPE_DONE ch.val)
        || !(s.domainOn (48 + ch.val / 8) || s.power.domWait.contains (48 + ch.val / 8, true))) = false := by
      rw [hstate, hon, State.on, hdone]
      rfl
    rw [show exec (.wipeComplete ch) s = execWipeComplete ch s from rfl, execWipeComplete]
    dsimp only
    rw [if_neg (by rw [hgo]; exact Bool.false_ne_true), ht, ← hw, ← hv, hunfenced, if_neg Bool.false_ne_true]
  have hmem : ((v.newPass ch.val).wr (MEMC_STATUS_STATE ch.val) 2).mem = w.mem := by
    rw [State.wr_mem, hnmem, hv, State.wr_mem, State.wr_mem]
  have hdmg : ((v.newPass ch.val).wr (MEMC_STATUS_STATE ch.val) 2).memDmg = w.memDmg := by
    rw [State.wr_memDmg, hndmg, hv, State.wr_memDmg, State.wr_memDmg]
  refine ⟨_, hexec, fun htop hchan => ?_, State.rd_wr_same _ (MEMC_STATUS_STATE ch.val) 2 (show 0 ≤ 2 by decide) (show 2 < 64 by decide), ?_, ?_, ?_, ?_⟩
  · have htop' : a < memTop := htop
    have hword : channelOf (64 * (a / 64)) = ch.val := (channelOf_granule (by omega)).trans hchan
    rw [State.damage, if_pos htop', hdmg, hwdmg, tabGet_filter_keys t.memDmg {} (fun k => !(decide (64 * k < memTop) && channelOf (64 * k) == ch.val)),
      hword, decide_eq_true (show 64 * (a / 64) < memTop by omega), beq_self_eq_true]
    rfl
  · rw [State.rd_wr_off _ _ _ _ (by unfold MEMC_WIPE_DONE MEMC_WIPE MEMC_STATUS_STATE MEMC_STATUS; dsimp only; omega), State.rd,
      hnregs _ (by unfold MEMC_WIPE_DONE MEMC_WIPE MEMC_SCRUB_POS; dsimp only; omega) (by unfold MEMC_WIPE_DONE MEMC_WIPE MEMC_SCRUB_LAG; dsimp only; omega)]
    exact hvdone
  · rw [State.rd_wr_off _ _ _ _ (by unfold MEMC_SCRUB_POS_POSITION MEMC_SCRUB_POS MEMC_STATUS_STATE MEMC_STATUS; dsimp only; omega), hnpos]
  · rw [hmem, hwmem, htmem, memGet_filter_keys hwf (fun k => !(decide (k < memTop) && channelOf k == ch.val))]
    by_cases h : a < 3 * 2 ^ 40 ∧ channelOf a = ch.val
    · rw [if_pos h, decide_eq_true (show a < memTop from h.1), h.2, beq_self_eq_true]
      rfl
    · rw [if_neg h, if_pos]
      rw [Bool.not_eq_true', Bool.and_eq_false_iff, decide_eq_false_iff_not, beq_eq_false_iff_ne]
      exact not_and_or.mp h
  · rw [hmem, hw]
    exact State.wipe_wf t _ (by rw [htmem]; exact hwf)

end Sys2Proof.Machine

section
open Sys2Proof.Machine Sys2Proof.Machine.Reg Sys2Proof.Claim

/-- Settles O40: rows and lanes that ask for a spare get one while any is free, and a completed wipe leaves its channel zero and in service. -/
theorem sparingAndWipes : Obligations.SparingAndWipes := ⟨sparing, wipeZeroes⟩

end
end

section
/-! PROOF. Loads and atomic operations of a task: the operand stack, the address, and the access (R238, R335 to R337, R348, R351). -/
namespace Sys2Proof.Machine
open Reg Sys2Proof.Claim

/-! The operand stack. -/

theorem collect_ok {α β : Type} {f : α → Act β} {h : α → β} {s : State} {l : List α} (hf : ∀ a ∈ l, f a s = (s, .ok (h a))) :
    Act.collect l f s = (s, .ok (l.map h)) := by
  induction l with
  | nil => rfl
  | cons a l ih =>
    have htail := ih fun b hb => hf b (List.mem_cons_of_mem _ hb)
    rw [Act.collect, Act.bind, hf a List.mem_cons_self]
    dsimp only
    rw [Act.bind, htail]
    rfl

theorem bind_ok {α β : Type} {x : Act α} {f : α → Act β} {s t : State} {a : α} (h : x s = (t, .ok a)) : (x.bind f) s = f a t := by
  rw [Act.bind, h]

/-- The registers of the task with PC and the locked sequence set. -/
abbrev atPc (g : Issue) (s : State) (pc : Nat) (q : Option LockSeq := (tk g s).lock) : TaskRegs := { tk g s with pc := pc, lock := q }

/-- The top entries, taken: their values, the top first (R335, R336). -/
theorem takeTop_at {g : Issue} {s t : State} {vs : List Word} {n : Nat} (h : Top g s vs n) (pc : Nat) :
    takeTop g.c g.t (atPc g s pc) vs.length t = (t, .ok (vs.reverse, (atPc g s pc).setSp ((tk g s).sp + 8 * vs.length))) := by
  obtain ⟨-, -, -, hcached⟩ := h
  have hentries : Act.collect (List.range vs.length) (fun i => stackEntry g.c g.t (atPc g s pc) ((atPc g s pc).sp + 8 * i)) t = (t, .ok vs.reverse) := by
    rw [collect_ok (h := fun i => vs.reverse.getD i 0)]
    · refine congrArg (fun l => (t, Go.ok l)) (List.ext_getElem (by simp) fun i hi hi' => ?_)
      rw [List.getElem_map, List.getElem_range, List.getD_eq_getElem _ _ hi']
    · intro i hi
      have hlt := List.mem_range.mp hi
      have hrev : vs.reverse[i]? = some (vs.reverse.getD i 0) := by
        rw [List.getD_eq_getElem _ _ (by simpa using hlt), List.getElem?_eq_getElem]
      have hat : (atPc g s pc).cachedAt ((atPc g s pc).sp + 8 * i) = some (vs.reverse.getD i 0) := (hcached i hlt).trans hrev
      rw [stackEntry, hat]
  rw [takeTop, bind_ok hentries]
  rfl

/-- One value pushed where the top `k` entries were: nothing spills. -/
theorem pushOut_at {g : Issue} {s t : State} {vs : List Word} (h : Top g s vs 1) (pc : Nat) (q : Option LockSeq) (v : Word) :
    pushOut g.c g.t ((atPc g s pc q).setSp ((tk g s).sp + 8 * vs.length)) [v] t = (t, .ok (stacked (atPc g s pc q) vs.length [v])) := by
  obtain ⟨-, -, hroom, -⟩ := h
  have hpush : ((atPc g s pc q).setSp ((tk g s).sp + 8 * vs.length)).pushAll [v] = (stacked (atPc g s pc q) vs.length [v], []) := by
    have hlen : ({ space := (tk g s).space, addr := (tk g s).sp + 8 * vs.length - 8, v := v } ::
        (tk g s).cached.filter (fun e => e.space != (tk g s).space || decide ((tk g s).sp + 8 * vs.length ≤ e.addr))).length ≤ 32 := by
      rw [List.length_cons]
      exact hroom
    have hspace : (atPc g s pc q).space = (tk g s).space := rfl
    have hspace' : ((atPc g s pc q).setSp ((tk g s).sp + 8 * vs.length)).space = (tk g s).space := rfl
    unfold TaskRegs.pushAll TaskRegs.pushAll TaskRegs.push
    rw [hspace', TaskRegs.setSp]
    dsimp only
    rw [hspace, List.take_of_length_le hlen, List.drop_of_length_le hlen]
    rfl
  rw [pushOut, hpush]
  rfl

theorem takeTop_top {g : Issue} {s t : State} {vs : List Word} {n : Nat} (h : Top g s vs n) (len : Nat) :
    takeTop g.c g.t (past g s len) vs.length t = (t, .ok (vs.reverse, (past g s len).setSp ((tk g s).sp + 8 * vs.length))) := takeTop_at h _

theorem pushOut_one {g : Issue} {s t : State} {vs : List Word} (h : Top g s vs 1) (len : Nat) (v : Word) :
    pushOut g.c g.t ((past g s len).setSp ((tk g s).sp + 8 * vs.length)) [v] t = (t, .ok (stacked (past g s len) vs.length [v])) := pushOut_at h _ _ v

/-! Addresses (R21, R257, R260). -/

/-- The address of an access that a cached leaf or the ring lets through. -/
theorem taskGa_addr {g : Issue} {s t : State} {acc : XAcc} {va ga : Nat} (h : Addr g s acc va ga) (hcores : t.cores = s.cores) (hregs : t.regs = s.regs) :
    taskGa g.c.val g.t.val (tk g s).ring (tk g s).ctx acc va t = (t, .ok ga) := by
  rw [taskGa]
  obtain ⟨hring, hva, rfl⟩ | ⟨hring, hva, henable, hhit⟩ := h
  · rw [if_pos hring, if_neg (by omega)]
  · have hcore : t.coreSt g.c.val = s.coreSt g.c.val := by rw [State.coreSt, State.coreSt, hcores]
    obtain ⟨e, he, hleaf⟩ := (Option.any_eq_true ..).mp hhit
    rw [Bool.and_eq_true, beq_iff_eq, beq_iff_eq] at hleaf
    obtain ⟨hcheck, hga⟩ := hleaf
    obtain ⟨w, hw⟩ : ∃ w : Walker, w = { agent := agentTask g.c.val g.t.val, ctx := (tk g s).ctx, ring := (tk g s).ring, acc := acc
                                         core := some g.c.val, who := some (.core g.c.val g.t.val) } := ⟨_, rfl⟩
    have htranslate : t.translate w va = (t, .ok ga) := by
      have hoff : t.ctxOff w = false := by
        rw [State.ctxOff, State.on, State.rd_congr hregs, hw, henable]
        rfl
      have hit : t.leafHit w va = some e := by
        rw [State.leafHit, hw]
        dsimp only
        rw [hcore, he]
      rw [State.translate, if_neg (by omega), hoff, if_neg Bool.false_ne_true, hit]
      dsimp only
      rw [leafRes, show w.ring = (tk g s).ring by rw [hw], show w.acc = acc by rw [hw], hcheck, hga]
    rw [if_neg (by omega), ← hw, htranslate]

/-- A ring that a cached leaf lets through is 3 at most. -/
theorem ring_of_addr {g : Issue} {s : State} {acc : XAcc} {va ga : Nat} (h : Addr g s acc va ga) : (tk g s).ring ≤ 3 := by
  obtain ⟨hring, -, -⟩ | ⟨-, -, -, hhit⟩ := h
  · omega
  · obtain ⟨e, -, hleaf⟩ := (Option.any_eq_true ..).mp hhit
    rw [Bool.and_eq_true, beq_iff_eq] at hleaf
    obtain ⟨hcheck, -⟩ := hleaf
    by_contra hhigh
    have hlow : bitsOf e.entry 6 5 < (tk g s).ring := by
      have : bitsOf e.entry 6 5 < 4 := Nat.mod_lt _ (by decide)
      omega
    unfold checkEntry at hcheck
    dsimp only at hcheck
    rw [if_pos hlow] at hcheck
    split_ifs at hcheck

/-! Loads. -/

/-- What an access rests on is the storage, the channels and their registers. -/
theorem State.Open.congr {s t : State} {off len : Nat} (h : s.Open off len) (hregs : t.regs = s.regs) (hchans : t.chans = s.chans) (hnow : t.now = s.now)
    (hdmg : t.memDmg = s.memDmg) (htail : t.tailArea = s.tailArea) : t.Open off len := by
  have hchan : ∀ c, t.chan c = s.chan c := fun c => by rw [State.chan, State.chan, hchans]
  obtain ⟨hq, hrows, hbehind⟩ := h.calm
  refine ⟨h.pos, h.top, h.one, ?_, (State.rd_congr hregs _).trans h.serves, ⟨(congrArg Channel.queue (hchan _)).trans hq,
    (congrArg Channel.needRows (hchan _)).trans hrows, ?_⟩, fun w hw => ⟨?_, ?_⟩⟩
  · rw [State.chFenced, State.rd_congr hregs]
    exact h.fence
  · exact (State.behind_congr (fun o _ => State.reg_congr hregs o) hnow ⟨_, _, _, _, by rw [hchan]⟩).trans hbehind
  · obtain ⟨hwtop, -, -⟩ := h.word_channel hw
    rw [State.damage, if_pos hwtop, hdmg]
    exact (if_pos hwtop).symm.trans (h.clean w hw).1
  · rw [State.inTail, htail]
    exact (h.clean w hw).2

/-- An access finds the storage as it was before SUP_A's interval began. -/
theorem State.Open.of_begun {g : Issue} {s : State} {off len : Nat} (h : s.Open off len) : (Machine.begun g s).Open off len := by
  have hb : Machine.begun g s = { s with sup := (s.beginInterval g.c.val).sup } := beginInterval_eq s g.c.val
  exact h.congr (beginInterval_regs ..) (by rw [hb]) (by rw [hb]) (by rw [hb]) (by rw [hb])

theorem storedByte_none {es : List StoreEntry} {a : Nat} (h : ∀ e ∈ es, a < e.ga ∨ e.ga + e.size ≤ a) : storedByte es a = none := by
  have hfold : ∀ b, es.foldl (fun b e => if e.ga ≤ a ∧ a < e.ga + e.size then some (BitVec.ofNat 8 (e.v / 256 ^ (a - e.ga))) else b) b = b := by
    induction es with
    | nil => exact fun b => rfl
    | cons e es ih =>
      intro b
      have := h e List.mem_cons_self
      rw [List.foldl_cons, if_neg (by omega)]
      exact ih (fun x hx => h x (List.mem_cons_of_mem _ hx)) b
  exact hfold none

theorem zipWith_none (bs : List Byte) : List.zipWith (fun (h : Option Byte) b => h.getD b) (List.replicate bs.length none) bs = bs := by
  induction bs with
  | nil => rfl
  | cons b bs ih =>
    rw [List.length_cons, List.replicate_succ, List.zipWith_cons_cons, ih]
    rfl

/-- The stores of a task that may still stand over its loads. -/
theorem ownStores_begun (g : Issue) (s : State) : (begun g s).ownStores g.c.val g.t.val = s.ownStores g.c.val g.t.val := by
  rw [State.ownStores, State.ownStores, beginInterval_checked, beginInterval_coreSt, beginInterval_held]

/-- A load over which no store of the task stands is the access (R238). -/
theorem loadGa_settled {c : Core} {t : Task} {ring va ga len : Nat} {s u : State} {bs : List Byte} (hpos : 0 < len)
    (hsettled : ∀ e ∈ s.ownStores c.val t.val, ga + len ≤ e.ga ∨ e.ga + e.size ≤ ga) (hspills : (s.task c.val t.val).spills = []) (hlen : bs.length = len)
    (h : (if s.isReg ga then readTaskReg c t va (gaOff ga - regBase) len else readGa c.val t.val ring va ga len) s = (u, .ok bs)) :
    loadGa c t ring va ga len s = (u, .ok bs) := by
  have hheld : (List.range len).map (fun k => storedByte (s.ownStores c.val t.val) (ga + k)) = List.replicate len none := by
    rw [List.eq_replicate_iff]
    refine ⟨by rw [List.length_map, List.length_range], fun b hb => ?_⟩
    obtain ⟨k, hk, rfl⟩ := List.mem_map.mp hb
    have hlt := List.mem_range.mp hk
    exact storedByte_none fun e he => by have := hsettled e he; omega
  have hsome : (List.replicate len (none : Option Byte)).all (fun h => h.isSome) = false := by
    obtain ⟨n, rfl⟩ : ∃ n, len = n + 1 := ⟨len - 1, by omega⟩
    rfl
  rw [loadGa, hspills]
  dsimp only
  rw [hheld, hsome, if_neg Bool.false_ne_true]
  rw [bind_ok h]
  have hlay := zipWith_none bs
  rw [hlen] at hlay
  rw [hlay]
  rfl

/-- A load of memory of this module that nothing holds up, and over which no store of the task stands (R23, R348). -/
theorem loadGa_open {c : Core} {t : Task} {ring va ga len : Nat} {s : State} (h : s.Open (gaOff ga) len) (hnode : gaNode ga = s.node)
    (hsettled : ∀ e ∈ s.ownStores c.val t.val, ga + len ≤ e.ga ∨ e.ga + e.size ≤ ga) (hspills : (s.task c.val t.val).spills = [])
    (hdir : s.host.dir = []) (hnone : NoneWaits s (agentTask c.val t.val)) :
    ∃ u, s.Slotted u ∧ loadGa c t ring va ga len s = (u, .ok (s.peek (gaOff ga) len)) := by
  obtain ⟨u, hu, hread⟩ := h.localRead (b := taskBy c.val t.val (.load ring)) (fun h => by cases h) (Or.inr hdir) hnone
  have hreg : s.isReg ga = false := by
    rw [State.isReg, h.range]
    exact Bool.and_false _
  refine ⟨u, hu, loadGa_settled h.pos hsettled hspills (by rw [State.peek, List.length_map, List.length_range]) ?_⟩
  rw [hreg, if_neg Bool.false_ne_true, readGa, if_neg (not_not.mpr hnode), readLocal, hread]

/-! What an instruction that ends with an access leaves. -/

/-- The registers of the task set, its walks and accesses over, and SUP_A's instruction counted. -/
def State.ended (t : State) (g : Issue) (y : TaskRegs) : State :=
  ((t.setTask g.c.val g.t.val y).rbufClear (agentTask g.c.val g.t.val)).countRetired g.c.val

section
variable (t : State) (g : Issue) (y : TaskRegs)

theorem State.ended_eq : ∃ a b c d, t.ended g y = { t with tasks := tabPut t.tasks (64 * g.c.val + g.t.val) y, rbuf := a, walking := b, mxc := c, sup := d } := by
  unfold State.ended State.countRetired
  split
  · exact ⟨_, _, _, _, rfl⟩
  · exact ⟨_, _, _, _, rfl⟩

theorem State.ended_task : tk g (t.ended g y) = y := by
  obtain ⟨a, b, c, d, h⟩ := t.ended_eq g y
  rw [h]
  exact State.task_setTask_same t g.c.val g.t.val y

theorem State.ended_mem : (t.ended g y).mem = t.mem := by
  obtain ⟨a, b, c, d, h⟩ := t.ended_eq g y
  rw [h]

theorem State.ended_cores : (t.ended g y).cores = t.cores := by
  obtain ⟨a, b, c, d, h⟩ := t.ended_eq g y
  rw [h]

theorem State.ended_chains : (t.ended g y).chains = t.chains := by
  obtain ⟨a, b, c, d, h⟩ := t.ended_eq g y
  rw [h]

theorem State.ended_regs : (t.ended g y).regs = t.regs := by
  obtain ⟨a, b, c, d, h⟩ := t.ended_eq g y
  rw [h]

end

/-- An instruction whose body comes to the registers `y` in a state that has kept the task. -/
theorem insn_of_body {g : Issue} {s t : State} {f : Form} {body : Nat → TaskRegs → Act TaskRegs} {y : TaskRegs} (ready : Ready g s)
    (legal : f.bad = false) (ring : (tk g s).ring ≤ f.ring) (fp : f.fpFirst = true → (tk g s).fpPend = false)
    (bounds : (tk g s).stackCheck f.pops f.pops f.pushes = none)
    (done : body (tk g s).pc (past g s f.len) (begun g s) = (t, .ok y)) (task : t.task g.c.val g.t.val = tk g s)
    (boot : t.life.boot = s.life.boot) (goes : Goes (tk g s) y) : s.insn g f body = t.ended g y := by
  rw [insn_of_ready ready legal ring fp, bounds]
  dsimp only
  rw [done]
  exact commit_eq (.of_ready ready) task boot goes

theorem stackCheck_of_top {g : Issue} {s : State} {vs : List Word} {n : Nat} (h : Top g s vs n) : (tk g s).stackCheck vs.length vs.length n = none := by
  obtain ⟨hdepth, hroom, -, -⟩ := h
  exact stackCheck_of_fits (f := { pops := vs.length, pushes := n }) hdepth hroom

/-- Entries taken and pushed end, stop and trap nothing. -/
theorem Goes.stacked {g : Issue} {s : State} (h : Issues g s) (len k : Nat) (rs : List Word) : Goes (tk g s) (stacked (past g s len) k rs) := by
  obtain ⟨-, trap, -⟩ := h.existing
  exact ⟨rfl, rfl, trap, rfl, rfl, rfl⟩

/-! Loads (R348). -/

/-- A load whose address reaches `ga`, where the load comes to `bs`. -/
theorem loadInsn_of_load {g : Issue} {s t : State} {va : Word} {ga len : Nat} {lckOk : Bool} {ext : Nat → Word} {bs : List Byte} (ready : Ready g s)
    (htop : Top g s [va] 1) (haddr : Addr g s .read va.toNat ga) (halign : va.toNat % len = 0)
    (hload : loadGa g.c g.t (tk g s).ring va.toNat ga len (begun g s) = (t, .ok bs)) (task : t.task g.c.val g.t.val = tk g s)
    (boot : t.life.boot = s.life.boot) :
    s.loadInsn g len lckOk ext = t.ended g (stacked (past g s 1) 1 [ext (leNat bs)]) := by
  have h := Issues.of_ready ready
  unfold State.loadInsn
  refine insn_of_body ready rfl (ring_of_addr haddr) (fun h => by cases h) (stackCheck_of_top htop) ?_ task boot (Goes.stacked h 1 1 _)
  have hbody : loadVa g.c g.t (past g s 1) va.toNat len (begun g s) = (t, .ok bs) := by
    rw [loadVa, if_neg (not_not.mpr halign), bind_ok (taskGa_addr haddr (beginInterval_cores ..) (beginInterval_regs ..))]
    exact hload
  have htake : takeTop g.c g.t (past g s 1) 1 (begun g s) = (begun g s, .ok ([va], (past g s 1).setSp ((tk g s).sp + 8 * 1))) := takeTop_top htop 1
  dsimp only
  rw [bind_ok htake]
  simp only [h.noLck, Bool.false_eq_true, if_false, List.getD_cons_zero]
  rw [bind_ok hbody]
  exact pushOut_one (vs := [va]) htop 1 _

/-- A number of `w` bits, sign-extended. -/
theorem signExtend_eq {w : Nat} (hw : w ≤ 64) (n : Nat) : signExtend w n = ((BitVec.ofNat 64 n).setWidth w).signExtend 64 := by
  have hint : ((BitVec.ofNat 64 n).setWidth w).toInt = toSigned w n := by
    rw [BitVec.toInt_eq_toNat_cond, BitVec.toNat_setWidth, BitVec.toNat_ofNat, toSigned, Nat.mod_mod_of_dvd _ (Nat.pow_dvd_pow 2 hw)]
  have hbits : ofSigned 64 (toSigned w n) < 2 ^ 64 := by
    rw [ofSigned]
    omega
  refine BitVec.eq_of_toNat_eq ?_
  rw [BitVec.signExtend, hint, BitVec.toNat_ofInt, signExtend, BitVec.toNat_ofNat, Nat.mod_eq_of_lt hbits]
  rfl

/-- What every load leaves (R348). -/
theorem load_plain {i : Instr} {g : Issue} {s : State} {va : Word} {ga len : Nat} {lckOk : Bool} {ext : Nat → Word} (ready : Ready g s)
    (htop : Top g s [va] 1) (haddr : Addr g s .read va.toNat ga) (hnode : gaNode ga = s.node) (halign : va.toNat % len = 0)
    (hplain : Plain s (gaOff ga) len) (hsettled : Settled g s ga len) (row : exec i s = .next (s.loadInsn g len lckOk ext)) :
    Next i s (fun t => tk g t = stacked (past g s 1) 1 [ext (leNat (s.peek (gaOff ga) len))]
      ∧ t.mem = s.mem ∧ t.cores = s.cores ∧ t.chains = s.chains ∧ RegsBut s t 0x100000 0x700000) := by
  have h := Issues.of_ready ready
  have hb : begun g s = { s with sup := (s.beginInterval g.c.val).sup } := beginInterval_eq s g.c.val
  obtain ⟨-, -, -, -, -, -, -, -, hdir⟩ := id hplain
  obtain ⟨t, ht, hload⟩ := loadGa_open (c := g.c) (t := g.t) (ring := (tk g s).ring) (va := va.toNat) (State.Open.of_plain hplain).of_begun
    (by rw [hb]; exact hnode) (by rw [ownStores_begun]; exact hsettled) (by rw [beginInterval_task]; exact h.spills) (by rw [hb]; exact hdir)
    (by rw [hb]; exact h.quiet)
  rw [show (begun g s).peek (gaOff ga) len = s.peek (gaOff ga) len by rw [State.peek, State.peek, beginInterval_mem]] at hload
  have hrest := ht.rest
  refine ⟨_, row.trans (congrArg _ (loadInsn_of_load ready htop haddr halign hload ?_ ?_)), State.ended_task .., ?_, ?_, ?_, fun o ho => ?_⟩
  · rw [State.task, ht.tasks, beginInterval_tasks]
    rfl
  · rw [hrest, hb]
  · rw [State.ended_mem, ht.mem, beginInterval_mem]
  · rw [State.ended_cores, ht.cores, beginInterval_cores]
  · rw [State.ended_chains, ht.chains, hb]
  · rw [State.reg_congr (State.ended_regs ..), ht.regs o (by unfold memCounter; omega), State.reg_congr (beginInterval_regs ..)]

theorem sundopLoads : SundopLoads := by
  intro g s va ga sz sx ready htop haddr hnode
  refine ⟨fun halign hplain hsettled => load_plain ready htop haddr hnode halign hplain hsettled rfl, fun halign hplain hsettled => ?_⟩
  have hload := load_plain (i := .lds g sx) ready htop haddr hnode halign hplain hsettled rfl
  rw [signExtend_eq (by fin_cases sx <;> decide)] at hload
  exact hload

/-! A load of what an own store left (R238). -/

/-- The latest store to cover a byte gives it. -/
theorem storedByte_last (es : List StoreEntry) (e : StoreEntry) {a : Nat} (h : e.ga ≤ a ∧ a < e.ga + e.size) :
    storedByte (es ++ [e]) a = some (BitVec.ofNat 8 (e.v / 256 ^ (a - e.ga))) := by
  rw [storedByte, List.foldl_append, List.foldl_cons, List.foldl_nil, if_pos h]

/-- The low bytes of a number, little-endian. -/
theorem leNat_bytes (n v : Nat) : leNat ((List.range n).map fun k => BitVec.ofNat 8 (v / 256 ^ k)) = v % 2 ^ (8 * n) := by
  have hbytes : ((List.range n).map fun k => BitVec.ofNat 8 (v / 256 ^ k)) = leBytes n v :=
    List.ext_getElem (by rw [List.length_map, List.length_range, leBytes_length]) fun k _ hk => by
      rw [List.getElem_map, List.getElem_range, getElem_leBytes]
      rfl
  rw [hbytes, leNat_leBytes, Nat.pow_mul]

theorem sundopLoadsOwnStore : SundopLoadsOwnStore := by
  intro g s va ga sz es e ready htop haddr halign hstores hga hsize
  have h := Issues.of_ready ready
  obtain ⟨hrun, htrap, hstop⟩ := h.existing
  obtain ⟨bs, hbs⟩ : ∃ bs : List Byte, bs = (List.range (2 ^ sz.val)).map fun k => BitVec.ofNat 8 (e.v / 256 ^ k) := ⟨_, rfl⟩
  have hheld : (List.range (2 ^ sz.val)).map (fun k => storedByte ((begun g s).ownStores g.c.val g.t.val) (ga + k)) = bs.map some := by
    rw [hbs, List.map_map, ownStores_begun, hstores]
    refine List.map_congr_left fun k hk => ?_
    have hlt := List.mem_range.mp hk
    rw [storedByte_last es e (by omega), hga, Nat.add_sub_cancel_left]
    rfl
  have hload : loadGa g.c g.t (tk g s).ring va.toNat ga (2 ^ sz.val) (begun g s) = (begun g s, .ok bs) := by
    rw [loadGa, beginInterval_task, h.spills]
    dsimp only
    rw [hheld]
    have hall : (bs.map some).all (fun h => h.isSome) = true := List.all_eq_true.mpr fun b hb => by
      obtain ⟨x, -, rfl⟩ := List.mem_map.mp hb
      rfl
    rw [hall, if_pos rfl, List.map_map]
    refine congrArg (fun l => (begun g s, Go.ok l)) ((List.map_congr_left fun x _ => rfl).trans (List.map_id bs))
  have hinsn := loadInsn_of_load (lckOk := 2 ≤ sz.val) (ext := fun n => BitVec.ofNat 64 n) ready htop haddr halign hload (beginInterval_task ..)
    (by rw [beginInterval_life])
  have hval : leNat bs = e.v % 2 ^ (8 * 2 ^ sz.val) := by rw [hbs, leNat_bytes]
  rw [hval] at hinsn
  have hended : (begun g s).ended g (stacked (past g s 1) 1 [BitVec.ofNat 64 (e.v % 2 ^ (8 * 2 ^ sz.val))]) =
      ran g s (stacked (past g s 1) 1 [BitVec.ofNat 64 (e.v % 2 ^ (8 * 2 ^ sz.val))]) :=
    (commit_eq h (beginInterval_task ..) (by rw [beginInterval_life]) (Goes.stacked h 1 1 _)).symm.trans (commit_begun h (Goes.stacked h 1 1 _))
  exact (show exec (.ld g sz) s = .next (s.loadInsn g (2 ^ sz.val) (2 ≤ sz.val) (fun n => BitVec.ofNat 64 n)) from rfl).trans
    (congrArg _ (hinsn.trans hended))

end Sys2Proof.Machine
section
open Sys2Proof.Machine Sys2Proof.Machine.Reg Sys2Proof.Claim

/-- Settles O28: a load of plain memory, and a load of what an own store left. -/
theorem sundopLoading : Obligations.SundopLoading := ⟨sundopLoads, sundopLoadsOwnStore⟩

end
end

section
/-! PROOF. Atomic operations and locked sequences of a task (R351 to R353, R650). -/
namespace Sys2Proof.Machine
open Reg Sys2Proof.Claim

/-! Atomic operations (R351). -/

/-- An atomic operation of this module's memory that nothing holds up (R42, R351). -/
theorem taskAtom_open {c : Core} {t : Task} {ring va ga op : Nat} {s : State} (v n : Nat) (h : s.Open (gaOff ga) (atomBytes op)) (hop : atomBytes op = 8)
    (hchecked : s.checked c.val = false) (hwf : memWf s.mem = true) (hnode : gaNode ga = s.node)
    (hsettled : ∀ e ∈ s.ownStores c.val t.val, ga + 8 ≤ e.ga ∨ e.ga + e.size ≤ ga) (hspills : (s.task c.val t.val).spills = [])
    (hdir : s.host.dir = []) (hnone : NoneWaits s (agentTask c.val t.val)) :
    ∃ u, s.Stored (gaOff ga) (leBytes 8 (atomNew op (leNat (s.peek (gaOff ga) 8)) v n)) u
      ∧ taskAtom c t ring va ga op v n s = (u, .ok (leNat (s.peek (gaOff ga) 8))) := by
  obtain ⟨u, hu, hatom⟩ := h.localAtom hwf (b := taskBy c.val t.val (.store ring)) v n (fun h => by cases h) (Or.inr hdir) hnone
  rw [hop] at hu hatom
  have hapart : (s.ownStores c.val t.val).any (fun e => overlaps ga 8 e.ga e.size) = false := by
    rw [List.any_eq_false]
    intro e he
    have := hsettled e he
    rw [overlaps, Bool.and_eq_true, decide_eq_true_eq, decide_eq_true_eq]
    omega
  refine ⟨u, hu, ?_⟩
  rw [taskAtom, h.range, hspills, hchecked, hapart]
  dsimp only
  rw [if_neg (by decide), if_neg (by decide), if_neg (by decide), if_neg (not_not.mpr hnode), hatom]

/-- An atomic instruction on plain memory (R351). -/
theorem atomInsn_plain {g : Issue} {s : State} {va : Word} {vs : List Word} {op : Nat} {old : Word} {n : Nat} (ready : Ready g s)
    (hchecked : s.checked g.c.val = false) (hring : (tk g s).ring ≤ 1) (hva : va.toNat < 2 ^ 52) (hnode : gaNode va.toNat = s.node)
    (hplain : Plain s (gaOff va.toNat) 8) (hsettled : Settled g s va.toNat 8) (hwf : memWf s.mem = true)
    (hold : s.peek (gaOff va.toNat) 8 = leBytes 8 old.toNat) (hop : atomBytes op = 8) (htop : Top g s (va :: vs) 1)
    (hn : n = if (va :: vs).length = 3 then (((va :: vs).reverse).getD 0 0).toNat else 0) :
    ∃ t, s.atomInsn g (va :: vs).length op = t ∧ tk g t = stacked (past g s 1) (va :: vs).length [old]
      ∧ t.peek (gaOff va.toNat) 8 = leBytes 8 (atomNew op old.toNat (((va :: vs).reverse).getD ((va :: vs).length - 2) 0).toNat n)
      ∧ Outside s t (gaOff va.toNat) 8 ∧ t.cores = s.cores := by
  have h := Issues.of_ready ready
  have hb : begun g s = s := beginInterval_of_later (by rw [hchecked]; simp)
  obtain ⟨-, halign, -, -, -, -, -, -, hdir⟩ := id hplain
  have hval : leNat (s.peek (gaOff va.toNat) 8) = old.toNat := by
    rw [hold, leNat_leBytes, Nat.mod_eq_of_lt (old.isLt.trans_eq (by decide))]
  have hopen : s.Open (gaOff va.toNat) (atomBytes op) := by
    rw [hop]
    exact State.Open.of_plain hplain
  obtain ⟨u, hu, hatom⟩ := taskAtom_open (c := g.c) (t := g.t) (ring := (tk g s).ring) (va := va.toNat)
    (((va :: vs).reverse).getD ((va :: vs).length - 2) 0).toNat n hopen hop hchecked hwf hnode hsettled h.spills hdir h.quiet
  rw [hval] at hu hatom
  have haddr : taskGa g.c.val g.t.val (tk g s).ring (tk g s).ctx .atomic va.toNat s = (s, .ok va.toNat) := taskGa_addr (Or.inl ⟨hring, hva, rfl⟩) rfl rfl
  have hva8 : va.toNat % 8 = 0 := by
    rw [gaOff] at halign
    omega
  have hlast : ((va :: vs).reverse).getD ((va :: vs).length - 1) 0 = va := by
    rw [List.getD_eq_getElem _ _ (by simp), List.getElem_reverse]
    simp
  have hinsn : s.atomInsn g (va :: vs).length op = u.ended g (stacked (past g s 1) (va :: vs).length [old]) := by
    unfold State.atomInsn
    refine insn_of_body ready rfl (show _ ≤ 3 by omega) (fun h => by cases h) (stackCheck_of_top htop) ?_ (by rw [State.task, hu.tasks]; rfl) (by rw [hu.rest])
      (Goes.stacked h 1 _ _)
    rw [hb]
    dsimp only
    rw [bind_ok (takeTop_top htop 1)]
    dsimp only
    rw [hlast, if_neg (not_not.mpr hva8)]
    rw [bind_ok haddr, ← hn]
    rw [bind_ok hatom]
    rw [show BitVec.ofNat 64 old.toNat = old by rw [BitVec.ofNat_toNat, BitVec.setWidth_eq]]
    exact pushOut_one htop 1 old
  have hpeek := hu.peek
  have houtside := hu.outside
  rw [leBytes_length] at hpeek houtside
  refine ⟨_, hinsn, State.ended_task .., ?_, fun a ha => ?_, (State.ended_cores ..).trans hu.cores⟩
  · rw [State.peek, State.ended_mem]
    exact hpeek
  · rw [State.ended_mem]
    exact houtside a ha

theorem sundopAtomics : SundopAtomics := by
  intro g s va e n old ready hchecked hring hva hnode hplain hsettled hwf hold does
  refine ⟨fun htop => ⟨?_, ?_⟩, fun htop => ?_⟩
  · obtain ⟨t, hinsn, htask, hpeek, houtside, hcores⟩ := atomInsn_plain (op := 1) (n := 0) ready hchecked hring hva hnode hplain hsettled hwf hold rfl htop rfl
    refine ⟨t, congrArg _ hinsn, htask, hpeek.trans ?_, houtside, hcores⟩
    exact congrArg (leBytes 8) (BitVec.toNat_add old e).symm
  · obtain ⟨t, hinsn, htask, hpeek, houtside, hcores⟩ := atomInsn_plain (op := 3) (n := 0) ready hchecked hring hva hnode hplain hsettled hwf hold rfl htop rfl
    refine ⟨t, congrArg _ hinsn, htask, hpeek.trans ?_, houtside, hcores⟩
    exact congrArg (leBytes 8) (Nat.mod_eq_of_lt e.isLt)
  · obtain ⟨t, hinsn, htask, hpeek, houtside, hcores⟩ := atomInsn_plain (op := 4) (n := n.toNat) ready hchecked hring hva hnode hplain hsettled hwf hold rfl htop rfl
    refine ⟨t, congrArg _ hinsn, htask, hpeek.trans ?_, houtside, hcores⟩
    refine congrArg (leBytes 8) ?_
    show (if old.toNat = e.toNat % 2 ^ 64 then n.toNat % 2 ^ 64 else old.toNat) = (if old = e then n else old).toNat
    rw [Nat.mod_eq_of_lt e.isLt, Nat.mod_eq_of_lt n.isLt, apply_ite BitVec.toNat]
    exact if_congr BitVec.toNat_inj rfl rfl

/-! Instructions of a task that may hold a lock (R352). -/

/-- What an instruction leaves, by what its body gives, where it may break the task's locked sequence. -/
def issuedWith (g : Issue) (s : State) (f : Form) (r : State × Go TaskRegs) : State :=
  match r.2 with
  | .trap tr => if (tk g s).breaksLock f && decide (9 ≤ tr.cause) then (begun g s).raise g.c g.t trapLock else r.1.raise g.c g.t tr
  | .ok z => if (tk g s).breaksLock f then (begun g s).raise g.c g.t trapLock else r.1.commit s.life.boot g.c g.t (tk g s) ((tk g s).countLock z)
  | .wait => if (tk g s).breaksLock f then (begun g s).raise g.c g.t trapLock else r.1

/-- What the issue of an instruction without guard and REP rests on, locked or not. -/
structure LocksWell (g : Issue) (s : State) : Prop where
  can : s.canIssue g.c g.t = true
  spills : (tk g s).spills = []
  noRep : g.rep = false
  noGuard : g.guard = none
  quiet : NoneWaits s (agentTask g.c.val g.t.val)
  mxc : s.mxc = []
  ring : (tk g s).ring ≤ 1

section
variable {g : Issue} {s : State} (h : LocksWell g s)
include h

theorem LocksWell.insn {f : Form} {body : Nat → TaskRegs → Act TaskRegs} (legal : f.bad = false) (hlck : g.lck = true → f.lck = true)
    (hring : f.ring = 3) (hfp : f.fpFirst = false) (bounds : (tk g s).stackCheck f.pops f.pops f.pushes = none) :
    s.insn g f body = issuedWith g s f
      (body (tk g s).pc { tk g s with pc := ((tk g s).pc + prefixBytes g + f.len) % 2 ^ 64 } (begun g s)) := by
  have hdrain : (begun g s).drainSpills g.c g.t = begun g s := drainSpills_of_none (by rw [beginInterval_task]; exact h.spills)
  have hlck' : (g.lck && !f.lck) = false := by
    cases hg : g.lck
    · rfl
    · rw [hlck hg]
      rfl
  have hguard : (tk g s).guardOk g = true := by
    rw [TaskRegs.guardOk, h.noGuard]
  have hpriv : (decide (f.ring < (tk g s).ring) || (g.lck && decide (1 < (tk g s).ring))) = false := by
    have := h.ring
    rw [decide_eq_false (by omega), decide_eq_false (by omega), Bool.and_false]
    rfl
  have hfirst : (f.bad || (g.lck && !f.lck) || (g.rep && !f.rep)) = false := by
    rw [legal, hlck', h.noRep]
    rfl
  unfold State.insn
  rw [h.can]
  dsimp only
  rw [hdrain, beginInterval_task, hfirst, hguard, hpriv, hfp, bounds, beginInterval_life]
  rfl

/-- The task runs, without a trap, and stops only in its drogue handler. -/
theorem LocksWell.existing : (tk g s).st = .run ∧ (tk g s).trap = none ∧ ((tk g s).stopping = true → (tk g s).drogue = true) := by
  have can := h.can
  have notSent : s.accessSent g.c.val g.t.val = false := by
    rw [State.accessSent, List.any_eq_false]
    intro b hb
    simp [h.quiet b hb]
  simp only [State.canIssue, notSent, Bool.and_eq_true, Bool.or_eq_true, beq_iff_eq, Option.isNone_iff_eq_none] at can
  obtain ⟨⟨⟨⟨⟨⟨⟨⟨⟨-, -⟩, run⟩, trap⟩, -⟩, -⟩, stop⟩, -⟩, -⟩, -⟩ := can
  refine ⟨run, trap, fun stopping => ?_⟩
  simpa [stopping] using stop

/-- The trap LOCK, where no request waits in the matrix: the lock that the task holds is released. -/
theorem LocksWell.raise_lock :
    tk g ((begun g s).raise g.c g.t trapLock) = { tk g s with trap := lockTrap, lock := none }
    ∧ ((begun g s).raise g.c g.t trapLock).mem = s.mem ∧ ((begun g s).raise g.c g.t trapLock).cores = s.cores
    ∧ ((begun g s).raise g.c g.t trapLock).regs = (s.releaseLock g.c.val g.t.val).regs := by
  obtain ⟨-, -, stop⟩ := h.existing
  have hb : begun g s = { s with sup := (s.beginInterval g.c.val).sup } := beginInterval_eq s g.c.val
  obtain ⟨u, hu⟩ : ∃ u, u = (begun g s).releaseLock g.c.val g.t.val := ⟨_, rfl⟩
  have hrel : ∃ a b, u = { begun g s with regs := a, lockAt := b } := by
    have hcase : ∀ (b : Bool) (n : Nat), ∃ x y, (if b then (begun g s).unlock n else begun g s) = { begun g s with regs := x, lockAt := y } := fun b n => by
      cases b with
      | false => exact ⟨_, _, rfl⟩
      | true => exact ⟨_, _, rfl⟩
    rw [hu]
    exact hcase _ _
  have hregs : u.regs = (s.releaseLock g.c.val g.t.val).regs := by
    have hrd : ∀ f, (begun g s).rd f = s.rd f := fun f => State.rd_congr (beginInterval_regs ..) f
    have hunlock : ∀ n, ((begun g s).unlock n).regs = (s.unlock n).regs := fun n => by
      rw [hb]
      rfl
    rw [hu, State.releaseLock, State.releaseLock, State.on, State.on, hrd, hrd, apply_ite State.regs, apply_ite State.regs, hunlock, beginInterval_regs]
  obtain ⟨a, b, hrel⟩ := hrel
  have hend : (begun g s).endLock g.c.val g.t.val = u := by
    have hmxc : u.mxc = [] := by
      rw [hrel, hb]
      exact h.mxc
    rw [State.endLock, ← hu, State.mxcDrain, hmxc, List.length_nil, State.mxcGrants, State.mxcCount, hmxc]
    rfl
  have htask : u.task g.c.val g.t.val = tk g s := by
    rw [hrel, hb]
    rfl
  have hraise : (begun g s).raise g.c g.t trapLock =
      (u.setTask g.c.val g.t.val { tk g s with trap := lockTrap, lock := none }).rbufClear (agentTask g.c.val g.t.val) := by
    rw [State.raise, if_pos (show trapLock.cause = 11 from rfl), hend]
    dsimp only
    rw [htask, if_pos (show trapLock.cause = 11 from rfl)]
    rw [settleStop_of_drogue (x := ({ tk g s with trap := some trapLock, lock := none } : TaskRegs)) stop]
    rfl
  rw [hraise]
  refine ⟨State.task_setTask_same u g.c.val g.t.val _, ?_, ?_, ?_⟩
  · show u.mem = s.mem
    rw [hrel, hb]
  · show u.cores = s.cores
    rw [hrel, hb]
  · exact hregs

end

/-- A part of an instruction all of whose traps come at or after ACCESS in the order of R345. -/
def Act.LateTraps {α : Type} (x : Act α) : Prop := ∀ s u tr, x s = (u, .trap tr) → 9 ≤ tr.cause

theorem Act.LateTraps.bind {α β : Type} {x : Act α} {f : α → Act β} (hx : x.LateTraps) (hf : ∀ a, (f a).LateTraps) : (x.bind f).LateTraps := by
  intro s u tr h
  rw [Act.bind] at h
  obtain ⟨v, r, hr⟩ : ∃ v r, x s = (v, r) := ⟨_, _, rfl⟩
  rw [hr] at h
  cases r with
  | ok a => exact hf a v u tr h
  | trap tr' =>
    obtain ⟨-, h2⟩ := Prod.mk.inj h
    cases h2
    exact hx s v tr hr
  | wait =>
    obtain ⟨-, h2⟩ := Prod.mk.inj h
    cases h2

theorem trapOf_late (status va : Nat) : 9 ≤ (trapOf status va).cause := by
  rw [trapOf]
  split
  · exact (by decide : 9 ≤ 10)
  · exact Nat.le_refl 9

theorem loadGa_late (c : Core) (t : Task) (ring va ga len : Nat) : (loadGa c t ring va ga len).LateTraps := by
  have hregs : ∀ off, (readTaskReg c t va off len).LateTraps := by
    intro off s u tr h
    rw [readTaskReg] at h
    split at h
    · cases h
    · cases h
      exact Nat.le_refl 9
    · cases h
  have hlocal : (readGa c.val t.val ring va ga len).LateTraps := by
    intro s u tr h
    rw [readGa] at h
    split at h
    · split at h
      · cases h
      next r _ =>
        rw [askedBytes] at h
        split_ifs at h
        · cases h
          exact trapOf_late ..
        · cases h
        · cases h
          exact (by decide : 9 ≤ 10)
    · rw [readLocal] at h
      split at h
      · cases h
        exact trapOf_late ..
      · cases h
      · cases h
        exact (by decide : 9 ≤ 10)
      · cases h
  intro s u tr h
  rw [loadGa] at h
  dsimp only at h
  split_ifs at h
  · cases h
  · cases h
  · exact Act.LateTraps.bind (hregs _) (fun a s u tr h => by cases h) s u tr h
  · exact Act.LateTraps.bind hlocal (fun a s u tr h => by cases h) s u tr h

/-! Locked loads and stores (R352). -/

theorem issuedWith_lock (g : Issue) (s : State) (f : Form) : issuedWith g s f (begun g s, .trap trapLock) = (begun g s).raise g.c g.t trapLock := by
  rw [issuedWith]
  exact ite_self _

theorem issuedWith_breaks {g : Issue} {s : State} {f : Form} {r : State × Go TaskRegs} (hbreaks : (tk g s).breaksLock f = true)
    (hlate : ∀ tr, r.2 = .trap tr → 9 ≤ tr.cause) : issuedWith g s f r = (begun g s).raise g.c g.t trapLock := by
  obtain ⟨u, r⟩ := r
  cases r with
  | ok z => exact if_pos hbreaks
  | wait => exact if_pos hbreaks
  | trap tr =>
    refine if_pos ?_
    rw [hbreaks, decide_eq_true (hlate tr rfl)]
    rfl

section
variable {g : Issue} {s : State} {va : Word} (h : LocksWell g s) (hva : va.toNat < 2 ^ 52) (halign : va.toNat % 8 = 0)
include h hva halign

theorem LocksWell.taskGa {acc : XAcc} : Machine.taskGa g.c.val g.t.val (tk g s).ring (tk g s).ctx acc va.toNat (begun g s) = (begun g s, .ok va.toNat) := by
  rw [Machine.taskGa, if_pos h.ring, if_neg (by omega)]

/-- A locked load outside register space (R352). -/
theorem LocksWell.lockedLoad_far (hlck : g.lck = true) (hnode : gaNode va.toNat ≠ s.node) (htop : Top g s [va] 1) :
    exec (.ld g 3) s = .next ((begun g s).raise g.c g.t trapLock) := by
  have hb : begun g s = { s with sup := (s.beginInterval g.c.val).sup } := beginInterval_eq s g.c.val
  have hreg : (begun g s).isReg va.toNat = false := by
    rw [State.isReg, show (begun g s).node = s.node by rw [hb]; rfl, beq_eq_false_iff_ne.mpr hnode]
    rfl
  have hload : ∀ (y : TaskRegs) pc z, y.ring = (tk g s).ring → y.ctx = (tk g s).ctx →
      lockedLoad g pc y z va.toNat 8 (begun g s) = (begun g s, .trap trapLock) := by
    intro y pc z hring hctx
    rw [lockedLoad, if_neg (not_not.mpr halign), hring, hctx, bind_ok (h.taskGa hva halign)]
    dsimp only
    rw [hreg]
    rfl
  refine congrArg Host.Outcome.next (?_ : s.loadInsn g 8 true _ = _)
  rw [State.loadInsn, h.insn rfl (fun _ => rfl) rfl rfl (stackCheck_of_top htop), ← issuedWith_lock]
  refine congrArg (issuedWith g s _) ?_
  have htake := takeTop_at (t := begun g s) htop (((tk g s).pc + prefixBytes g + 1) % 2 ^ 64)
  rw [bind_ok (show takeTop g.c g.t _ 1 (begun g s) = _ from htake)]
  dsimp only
  rw [if_pos hlck, Act.bind]
  rw [show ([va].reverse.getD 0 0).toNat = va.toNat from rfl, hload (atPc g s (((tk g s).pc + prefixBytes g + 1) % 2 ^ 64)) _ _ rfl rfl]

omit hva in
/-- A locked store without an open sequence (R352). -/
theorem LocksWell.lockedStore_closed {v : Word} (hlck : g.lck = true) (hlock : (tk g s).lock = none) (htop : Top g s [va, v] 0) :
    exec (.st g 3) s = .next ((begun g s).raise g.c g.t trapLock) := by
  refine congrArg Host.Outcome.next (?_ : s.insn g _ _ = _)
  rw [h.insn rfl (fun _ => rfl) rfl rfl (stackCheck_of_top htop), ← issuedWith_lock]
  refine congrArg (issuedWith g s _) ?_
  have htake := takeTop_at (t := begun g s) htop (((tk g s).pc + prefixBytes g + 1) % 2 ^ 64)
  rw [bind_ok (show takeTop g.c g.t _ 2 (begun g s) = _ from htake)]
  dsimp only
  rw [show ([va, v].reverse.getD 1 0) = va from rfl, leBytes_length,
    if_neg (show ¬ va.toNat % 2 ^ (3 : Fin 4).val ≠ 0 from not_not.mpr halign), hlock]
  dsimp only
  rw [if_pos hlck]
  rfl

/-- A memory access inside a locked sequence (R352). -/
theorem LocksWell.load_breaks (hlck : g.lck = false) (hlock : (tk g s).lock.isSome = true) (htop : Top g s [va] 1) :
    exec (.ld g 3) s = .next ((begun g s).raise g.c g.t trapLock) := by
  refine congrArg Host.Outcome.next (?_ : s.loadInsn g 8 true _ = _)
  rw [State.loadInsn, h.insn rfl (fun h => absurd h (by rw [hlck]; decide)) rfl rfl (stackCheck_of_top htop)]
  refine issuedWith_breaks ?_ fun tr htr => ?_
  · obtain ⟨q, hq⟩ := Option.isSome_iff_exists.mp hlock
    rw [TaskRegs.breaksLock, hq]
    rfl
  · have htake := takeTop_at (t := begun g s) htop (((tk g s).pc + prefixBytes g + 1) % 2 ^ 64)
    rw [bind_ok (show takeTop g.c g.t _ 1 (begun g s) = _ from htake)] at htr
    dsimp only at htr
    rw [hlck, if_neg Bool.false_ne_true, Act.bind] at htr
    rw [show ([va].reverse.getD 0 0).toNat = va.toNat from rfl, loadVa, if_neg (not_not.mpr halign), bind_ok (h.taskGa hva halign)] at htr
    obtain ⟨u, r, hr⟩ : ∃ u r, loadGa g.c g.t (tk g s).ring va.toNat va.toNat 8 (begun g s) = (u, r) := ⟨_, _, rfl⟩
    rw [hr] at htr
    cases r with
    | ok bs =>
      dsimp only at htr
      rw [show pushOut g.c g.t _ [_] u = _ from pushOut_at htop (((tk g s).pc + prefixBytes g + 1) % 2 ^ 64) (tk g s).lock _] at htr
      cases htr
    | trap tr' =>
      cases htr
      exact loadGa_late _ _ _ _ _ _ _ _ _ hr
    | wait => cases htr

end

/-! A locked load of a register (R352, R649). -/

theorem regAt_fltCfg : (regAt FLT_CFG).map (fun p => p.1.fields.all fun f => f.acc != .rc) = some true := by decide +kernel

theorem blockOf_fltCfg : (blockOf FLT_CFG).isSome = true := by decide +kernel

/-- A read of FLT_CFG shows the register (R28). -/
theorem State.shown_fltCfg (s : State) : s.shown FLT_CFG = (s.reg FLT_CFG, s) := by
  have h1 : coreOfReg FLT_CFG = none := by decide +kernel
  have h2 : mbxOfReg FLT_CFG = none := by decide +kernel
  rw [State.shown, h1, h2]
  dsimp only
  rw [State.live, if_neg (by decide), if_neg (by decide), if_neg (by decide), if_neg (by decide), if_neg (by decide), if_neg (by decide), if_neg (by decide),
    if_neg (by decide), if_neg (by decide), if_neg (by decide), if_neg (by decide), if_neg (fun h => absurd h.1 (by decide)), if_neg (by decide),
    if_neg (by decide)]

/-- A core at ring 0 or 1 reads FLT_CFG, which no lock covers (R4, R23). -/
theorem State.readReg_fltCfg {s : State} {c : Core} {t : Task} (hring : (s.task c.val t.val).ring ≤ 1) (hoff : s.power.off = false)
    (hfree : ∀ m : Fin 6, s.rd (MXC_LOCK_HELD m.val) = 0) (hmxc : s.mxc = []) :
    s.readReg (.core c t) FLT_CFG 8 none true = (s.mxcGrant (.core c t) FLT_CFG, .value (s.reg FLT_CFG)) := by
  obtain ⟨l, hl⟩ := s.mxcGrant_eq (.core c t) FLT_CFG
  have hblocked : s.regBlocked (.core c t) FLT_CFG 8 = none := by
    have hnone : (blockOf FLT_CFG).isNone = false := by rw [Option.isNone_eq_false_iff]; exact blockOf_fltCfg
    unfold State.regBlocked
    rw [hnone, State.regPowered_plain hoff (by unfold AlwaysPowered FLT_CFG; omega)]
    dsimp only
    rw [decide_eq_true hring]
    rfl
  have hwait : s.mxcWaits (s.mxcAhead (.core c t) FLT_CFG true) (.core c t) FLT_CFG = false := by
    have hlock := s.lockedFor_free hfree (.core c t) FLT_CFG
    simpa [State.mxcWaits, State.mxcAhead, hmxc] using hlock
  have h1 : coreOfReg FLT_CFG = none := by decide +kernel
  have h2 : mbxOfReg FLT_CFG = none := by decide +kernel
  have h3 : portOfReg FLT_CFG = none := by decide +kernel
  have hround : FLT_CFG / 8 * 8 = FLT_CFG := by decide
  have hmay : s.mayReadReg (.core c t) (FLT_CFG / 8 * 8) 8 = true := by rw [hround, State.mayReadReg, h1, h2, Bool.or_true]
  obtain ⟨x, hx, hfields⟩ := Option.map_eq_some_iff.mp regAt_fltCfg
  have hnorc : x.1.fields.filter (fun f => f.acc == .rc && maskOf f.hi f.lo &&& (2 ^ 64 - 1) != 0) = [] := by
    rw [List.filter_eq_nil_iff]
    intro f hf
    have := List.all_eq_true.mp hfields f hf
    rw [bne_iff_ne] at this
    rw [beq_eq_false_iff_ne.mpr this]
    exact Bool.false_ne_true
  obtain ⟨u, hu⟩ : ∃ u, u = s.mxcGrant (.core c t) FLT_CFG := ⟨_, rfl⟩
  have hread : u.readAt (.core c t) FLT_CFG 8 none = (u, u.reg FLT_CFG) := by
    rw [State.readAt]
    dsimp only
    rw [hround, h2, h3]
    dsimp only
    rw [hx, Option.isNone_some, if_neg Bool.false_ne_true, State.shown_fltCfg, if_pos rfl]
    dsimp only
    rw [State.clearRead, hx]
    dsimp only
    rw [hnorc, List.foldl_nil]
    rfl
  have hureg : u.reg FLT_CFG = s.reg FLT_CFG := by rw [hu, hl]; rfl
  rw [State.readReg, hblocked]
  dsimp only
  rw [hwait, if_neg Bool.false_ne_true, hmay, ← hu, hread, hureg]
  rfl

/-- Registers of a running task that an instruction wrote become the task's. -/
theorem LocksWell.commit {g : Issue} {s t : State} (h : LocksWell g s) {y : TaskRegs} (task : t.task g.c.val g.t.val = tk g s)
    (boot : t.life.boot = s.life.boot) (goes : Goes (tk g s) y) : t.commit s.life.boot g.c g.t (tk g s) y = t.ended g y := by
  obtain ⟨run, trap, stop⟩ := h.existing
  rw [commit_of_run boot (by rw [task]; exact run), task, over_eq goes trap,
    settleStop_of_drogue (by rw [goes.stopping, goes.drogue]; exact stop)]
  rfl

section
variable {g : Issue} {s : State} {va : Word} (h : LocksWell g s)
include h

/-- The locked load of FLT_CFG, while no lock is held (R352, R649). -/
theorem LocksWell.lockedLoad_reg (hva52 : va.toNat < 2 ^ 52) (hlck : g.lck = true) (hlock : (tk g s).lock = none)
    (hva : va.toNat = s.node * 2 ^ 42 + regBase + FLT_CFG)
    (htop : Top g s [va] 1) (hoff : s.power.off = false) (hnode : s.node < 1024) (hfree : ∀ m : Fin 6, s.rd (MXC_LOCK_HELD m.val) = 0)
    (hsettled : Settled g s va.toNat 8) :
    Next (.ld g 3) s (fun t =>
      (tk g t).cachedAt (tk g t).sp = some (s.reg FLT_CFG) ∧ (tk g t).lock.isSome = true
      ∧ t.rd (MXC_LOCK_HELD (masterNo (.core g.c g.t))) = 1 ∧ t.rd (MXC_LOCK_ID (masterNo (.core g.c g.t))) = masterId (.core g.c g.t)
      ∧ t.rd (MXC_LOCK_OFFSET (masterNo (.core g.c g.t))) = FLT_CFG ∧ t.mem = s.mem) := by
  have hb : begun g s = { s with sup := (s.beginInterval g.c.val).sup } := beginInterval_eq s g.c.val
  have hregs : (begun g s).regs = s.regs := beginInterval_regs ..
  have hga : gaOff va.toNat = regBase + FLT_CFG ∧ gaNode va.toNat = s.node := by
    rw [hva, gaOff, gaNode, bitsOf, regBase, FLT_CFG]
    omega
  have hisreg : (begun g s).isReg va.toNat = true := by
    rw [State.isReg, hga.1, hga.2, show (begun g s).node = s.node from State.rd_congr hregs _, beq_self_eq_true]
    rfl
  have halign : va.toNat % 8 = 0 := by
    rw [hva, regBase, FLT_CFG]
    omega
  have hfree' : ∀ m : Fin 6, (begun g s).rd (MXC_LOCK_HELD m.val) = 0 := fun m => (State.rd_congr hregs _).trans (hfree m)
  obtain ⟨l, hl⟩ := (begun g s).mxcGrant_eq (.core g.c g.t) FLT_CFG
  obtain ⟨u, hu⟩ : ∃ u : State, u = { begun g s with mxcLast := l } := ⟨_, rfl⟩
  have hread : readTaskReg g.c g.t va.toNat FLT_CFG 8 (begun g s) = (u, .ok (leBytes 8 (s.reg FLT_CFG).toNat)) := by
    rw [readTaskReg, State.readReg_fltCfg (by rw [beginInterval_task]; exact h.ring) (by rw [hb]; exact hoff) hfree' (by rw [hb]; exact h.mxc), hl, ← hu,
      State.reg_congr hregs]
    dsimp only
    have hdone : u.mxcDone (.core g.c g.t) FLT_CFG = u := by
      have hmxc : u.mxc = [] := by
        rw [hu, hb]
        exact h.mxc
      rw [State.mxcDone, hmxc]
      rw [hu, hb] at hmxc ⊢
      rw [List.filter_nil, ← hmxc]
    rw [hdone]
  have hload : loadGa g.c g.t (tk g s).ring va.toNat va.toNat 8 (begun g s) = (u, .ok (leBytes 8 (s.reg FLT_CFG).toNat)) := by
    refine loadGa_settled (by decide) (by rw [ownStores_begun]; exact hsettled) (by rw [beginInterval_task]; exact h.spills) (leBytes_length ..) ?_
    rw [hisreg, if_pos rfl, hga.1, Nat.add_sub_cancel_left]
    exact hread
  have hn : lockOfCore g.c.val < 6 := by
    unfold lockOfCore
    split_ifs
    all_goals decide
  obtain ⟨n, hn'⟩ : ∃ n, n = lockOfCore g.c.val := ⟨_, rfl⟩
  have hmaster : masterNo (.core g.c g.t) = n := hn'.symm ▸ rfl
  have hheld : (begun g s).on (MXC_LOCK_HELD n) = false := by
    rw [State.on, hfree' ⟨n, hn' ▸ hn⟩]
    rfl
  obtain ⟨w, hw⟩ : ∃ w : State, w = { ((u.wr (MXC_LOCK_HELD n) 1).wr (MXC_LOCK_ID n) (masterId (.core g.c g.t))).wr (MXC_LOCK_OFFSET n) FLT_CFG with
      lockAt := tabPut u.lockAt n u.now } := ⟨_, rfl⟩
  obtain ⟨pc, hpc⟩ : ∃ pc, pc = ((tk g s).pc + prefixBytes g + 1) % 2 ^ 64 := ⟨_, rfl⟩
  obtain ⟨q, hlocked⟩ : ∃ q, lockedLoad g (tk g s).pc (atPc g s pc) ((atPc g s pc).setSp ((tk g s).sp + 8 * [va].length)) va.toNat 8 (begun g s) =
      (w, .ok (leBytes 8 (s.reg FLT_CFG).toNat, (atPc g s pc (some q)).setSp ((tk g s).sp + 8 * [va].length))) := by
    refine ⟨{ off := FLT_CFG, width := 8, pc := (tk g s).pc, sp := (w.task g.c.val g.t.val).sp, cached := (w.task g.c.val g.t.val).cached
              preds := (w.task g.c.val g.t.val).preds }, ?_⟩
    rw [lockedLoad, if_neg (not_not.mpr halign), bind_ok (h.taskGa hva52 halign)]
    rw [hisreg, ← hn']
    dsimp only
    rw [hheld, Bool.not_true, if_neg Bool.false_ne_true, if_neg Bool.false_ne_true, bind_ok hload]
    rw [hga.1, Nat.add_sub_cancel_left, show FLT_CFG / 8 * 8 = FLT_CFG by decide, hw]
    rfl
  obtain ⟨y, hy⟩ : ∃ y, y = stacked (atPc g s pc (some q)) 1 [s.reg FLT_CFG] := ⟨_, rfl⟩
  have hbody : (takeTop g.c g.t (atPc g s pc) 1).bind (fun p =>
      if g.lck then (lockedLoad g (tk g s).pc (atPc g s pc) p.2 (p.1.getD 0 0).toNat 8).bind (fun r => pushOut g.c g.t r.2 [BitVec.ofNat 64 (leNat r.1)])
      else (loadVa g.c g.t (atPc g s pc) (p.1.getD 0 0).toNat 8).bind (fun bs => pushOut g.c g.t p.2 [BitVec.ofNat 64 (leNat bs)])) (begun g s) = (w, .ok y) := by
    rw [bind_ok (show takeTop g.c g.t (atPc g s pc) 1 (begun g s) = _ from takeTop_at htop pc)]
    dsimp only
    rw [if_pos hlck, show ([va].reverse.getD 0 0).toNat = va.toNat from rfl, bind_ok hlocked]
    dsimp only
    rw [leNat_leBytes, Nat.mod_eq_of_lt ((s.reg FLT_CFG).isLt.trans_eq (by decide)), BitVec.ofNat_toNat, BitVec.setWidth_eq, hy]
    exact pushOut_at htop pc (some q) _
  have htask : w.task g.c.val g.t.val = tk g s := by
    rw [hw, hu, hb]
    rfl
  have hexec : exec (.ld g 3) s = .next (w.ended g y) := by
    obtain ⟨-, trap, -⟩ := h.existing
    refine congrArg Host.Outcome.next (?_ : s.loadInsn g 8 true _ = _)
    rw [State.loadInsn, h.insn rfl (fun _ => rfl) rfl rfl (stackCheck_of_top htop)]
    subst hpc
    refine (congrArg (issuedWith g s _) hbody).trans ?_
    rw [issuedWith]
    have hnobreak : ∀ f, (tk g s).breaksLock f = false := fun f => by rw [TaskRegs.breaksLock, hlock]
    have hcount : (tk g s).countLock y = y := by
      rw [TaskRegs.countLock, if_neg]
      rw [hy, hlock]
      exact Option.some_ne_none q
    dsimp only
    rw [hnobreak, if_neg Bool.false_ne_true, hcount]
    refine h.commit htask ?_ ?_
    · rw [hw, hu, hb]
      rfl
    · rw [hy]
      exact ⟨rfl, rfl, trap, rfl, rfl, rfl⟩
  have hmid : masterId (.core g.c g.t) < 2 ^ 6 := by
    have := g.c.isLt
    have := g.t.isLt
    rw [masterId]
    split
    all_goals omega
  have hend : ∀ f, (w.ended g y).rd f = (((u.wr (MXC_LOCK_HELD n) 1).wr (MXC_LOCK_ID n) (masterId (.core g.c g.t))).wr (MXC_LOCK_OFFSET n) FLT_CFG).rd f :=
    fun f => (State.rd_congr (State.ended_regs ..) f).trans (State.rd_congr (by rw [hw]) f)
  have hapart : ∀ (t : State) (v : Nat) (f : RF), f.off = MXC_LOCK n → 27 < f.lo → (t.wr (MXC_LOCK_OFFSET n) v).rd f = t.rd f := fun t v f ho hlo =>
    State.rd_wr_apart t (MXC_LOCK_OFFSET n) f v (show 0 ≤ 27 by decide) (show 27 < 64 by decide) ho (Or.inr hlo)
  refine ⟨_, hexec, ?_, ?_, ?_, ?_, ?_, ?_⟩
  · rw [State.ended_task, hy, TaskRegs.cachedAt]
    dsimp only
    rw [show List.range [s.reg FLT_CFG].length = [0] from rfl, List.map_cons, List.map_nil, List.cons_append, List.find?_cons_of_pos]
    · rfl
    · rw [Bool.and_eq_true, beq_iff_eq, beq_iff_eq]
      exact ⟨rfl, rfl⟩
  · rw [State.ended_task, hy]
    rfl
  · rw [hmaster, hend, hapart _ _ (MXC_LOCK_HELD n) rfl (by decide : 27 < 63),
      State.rd_wr_apart _ (MXC_LOCK_ID n) (MXC_LOCK_HELD n) _ (show 40 ≤ 45 by decide) (show 45 < 64 by decide) rfl (Or.inr (show 45 < 63 by decide))]
    exact State.rd_wr_same u (MXC_LOCK_HELD n) 1 (show 63 ≤ 63 by decide) (show 63 < 64 by decide)
  · rw [hmaster, hend, hapart _ _ (MXC_LOCK_ID n) rfl (by decide : 27 < 40)]
    exact (State.rd_wr_same _ (MXC_LOCK_ID n) _ (show 40 ≤ 45 by decide) (show 45 < 64 by decide)).trans (Nat.mod_eq_of_lt hmid)
  · rw [hmaster, hend]
    exact (State.rd_wr_same _ (MXC_LOCK_OFFSET n) FLT_CFG (show 0 ≤ 27 by decide) (show 27 < 64 by decide)).trans
      (Nat.mod_eq_of_lt (show FLT_CFG < 2 ^ 28 by decide))
  · have hwmem : w.mem = (((u.wr (MXC_LOCK_HELD n) 1).wr (MXC_LOCK_ID n) (masterId (.core g.c g.t))).wr (MXC_LOCK_OFFSET n) FLT_CFG).mem := by rw [hw]
    rw [State.ended_mem, hwmem, State.wr_mem, State.wr_mem, State.wr_mem, hu, hb]

end

/-- A lock that is released is held no more (R353). -/
theorem State.rd_held_unlock (s : State) (n : Nat) : (s.unlock n).rd (MXC_LOCK_HELD n) = 0 := by
  have hregs : (s.unlock n).regs = (((s.wr (MXC_LOCK_HELD n) 0).wr (MXC_LOCK_ID n) 0).wr (MXC_LOCK_OFFSET n) 0).regs := by rw [State.unlock]
  rw [State.rd_congr hregs,
    State.rd_wr_apart _ (MXC_LOCK_OFFSET n) (MXC_LOCK_HELD n) _ (show 0 ≤ 27 by decide) (show 27 < 64 by decide) rfl (Or.inr (show 27 < 63 by decide)),
    State.rd_wr_apart _ (MXC_LOCK_ID n) (MXC_LOCK_HELD n) _ (show 40 ≤ 45 by decide) (show 45 < 64 by decide) rfl (Or.inr (show 45 < 63 by decide))]
  exact State.rd_wr_same s (MXC_LOCK_HELD n) 0 (show 63 ≤ 63 by decide) (show 63 < 64 by decide)

theorem State.rd_held_releaseLock {s : State} {c : Core} {t : Task} (hheld : s.rd (MXC_LOCK_HELD (masterNo (.core c t))) = 1)
    (hid : s.rd (MXC_LOCK_ID (masterNo (.core c t))) = masterId (.core c t)) :
    (s.releaseLock c.val t.val).rd (MXC_LOCK_HELD (masterNo (.core c t))) = 0 := by
  have hmine : (s.on (MXC_LOCK_HELD (lockOfCore c.val)) && s.rd (MXC_LOCK_ID (lockOfCore c.val)) == (if c.val < 24 then c.val else t.val)) = true := by
    rw [Bool.and_eq_true, State.on, show s.rd (MXC_LOCK_HELD (lockOfCore c.val)) = 1 from hheld, beq_iff_eq]
    exact ⟨rfl, hid⟩
  rw [State.releaseLock, if_pos hmine]
  exact State.rd_held_unlock s (lockOfCore c.val)

theorem sundopLocks : SundopLocks := by
  intro g s va v can spills noRep noGuard quiet mxc ring hva halign
  have h : LocksWell g s := ⟨can, spills, noRep, noGuard, quiet, mxc, ring⟩
  obtain ⟨htask, hmem, hcores, hregs⟩ := h.raise_lock
  refine ⟨fun hlck hlock hnode htop => ?_, fun hlck hlock htop => ?_, fun hlck hlock htop => ?_, fun hlck hlock heq htop hoff hnode hfree hsettled => ?_⟩
  · refine ⟨_, h.lockedLoad_far hva halign hlck hnode htop, htask.trans ?_, hmem⟩
    rw [← hlock]
  · refine ⟨_, h.lockedStore_closed halign hlck hlock htop, htask.trans ?_, hmem, hcores⟩
    rw [← hlock]
  · refine ⟨_, h.load_breaks hva halign hlck hlock htop, htask, hmem, fun hheld hid => ?_⟩
    rw [State.rd_congr hregs]
    exact State.rd_held_releaseLock hheld hid
  · exact h.lockedLoad_reg hva hlck hlock heq htop hoff hnode hfree hsettled

end Sys2Proof.Machine
section
open Sys2Proof.Machine Sys2Proof.Machine.Reg Sys2Proof.Claim

/-- Settles O30: an atomic instruction on plain memory is one step, and LCK loads and stores open a sequence or trap. -/
theorem sundopExclusive : Obligations.SundopExclusive := ⟨sundopAtomics, sundopLocks⟩

end
end

section
/-! PROOF. The save instructions (R400): a half of a task's context stored and loaded in four lines. -/
namespace Sys2Proof.Machine
open Reg Sys2Proof.Claim

/-! Accesses of a task at ring 0, one after another. -/

/-- The registers that an access of memory may change are the channels'. -/
theorem State.Slotted.rd_outside {s t : State} (h : s.Slotted t) {f : RF} (hf : f.off < 0x100000 ∨ 0x700000 ≤ f.off) : t.rd f = s.rd f :=
  h.rd (by unfold memCounter; omega)

theorem State.Stored.rd_outside {s t : State} {off : Nat} {bs : List Byte} (h : s.Stored off bs t) {f : RF} (hf : f.off < 0x100000 ∨ 0x700000 ≤ f.off) :
    t.rd f = s.rd f := by
  rw [State.rd, State.rd, h.regs]
  · unfold memCounter
    omega
  · have := channelOf_lt off
    unfold MEMC_INJECT
    omega

/-- A task none of whose stores or accesses is under way, while the host holds no line. -/
structure Quietly (g : Issue) (s : State) : Prop where
  checked : s.checked g.c.val = false
  stores : s.ownStores g.c.val g.t.val = []
  spills : (s.task g.c.val g.t.val).spills = []
  dir : s.host.dir = []
  quiet : NoneWaits s (agentTask g.c.val g.t.val)

theorem Quietly.congr {g : Issue} {s t : State} (h : Quietly g s) (hmode : t.rd VERIF_SUP_MODE = s.rd VERIF_SUP_MODE) (hcores : t.cores = s.cores)
    (hsup : t.sup = s.sup) (htasks : t.tasks = s.tasks) (hhost : t.host = s.host) (hrbuf : t.rbuf = s.rbuf) : Quietly g t := by
  have hchecked : t.checked g.c.val = s.checked g.c.val := by rw [State.checked, State.checked, hmode]
  have hcore : t.coreSt g.c.val = s.coreSt g.c.val := by rw [State.coreSt, State.coreSt, hcores]
  refine ⟨hchecked.trans h.checked, ?_, ?_, ?_, ?_⟩
  · rw [State.ownStores, hchecked, hcore, hsup]
    exact h.stores
  · rw [State.task, htasks]
    exact h.spills
  · rw [hhost]
    exact h.dir
  · rw [NoneWaits, hrbuf]
    exact h.quiet

theorem Quietly.slotted {g : Issue} {s t : State} (h : Quietly g s) (hs : s.Slotted t) : Quietly g t :=
  h.congr (hs.rd_outside (by decide)) hs.cores hs.sup hs.tasks hs.host hs.rbuf

theorem Quietly.stored {g : Issue} {s t : State} {off : Nat} {bs : List Byte} (h : Quietly g s) (hs : s.Stored off bs t) : Quietly g t :=
  h.congr (hs.rd_outside (by decide)) hs.cores hs.sup hs.tasks hs.host hs.rbuf

/-- A part that only takes slots of memory, over every element of a list. -/
theorem collect_slotted {α β : Type} {f : α → Act β} {h : α → β} {l : List α} (P : State → Prop)
    (hstep : ∀ a ∈ l, ∀ s, P s → ∃ t, s.Slotted t ∧ P t ∧ f a s = (t, .ok (h a))) {s : State} (hs : P s) :
    ∃ t, s.Slotted t ∧ Act.collect l f s = (t, .ok (l.map h)) := by
  induction l generalizing s with
  | nil => exact ⟨s, .refl s, rfl⟩
  | cons a l ih =>
    obtain ⟨t, ht, hp, hf⟩ := hstep a List.mem_cons_self s hs
    obtain ⟨u, hu, hl⟩ := ih (fun b hb => hstep b (List.mem_cons_of_mem _ hb)) hp
    refine ⟨u, ht.trans hu, ?_⟩
    rw [Act.collect, bind_ok hf, bind_ok hl]
    rfl

section
variable {g : Issue} {x : TaskRegs} (hring : x.ring = 0)
include hring

theorem taskGa_ring0 {acc : XAcc} {va : Nat} (hva : va < 2 ^ 52) (s : State) : taskGa g.c.val g.t.val x.ring x.ctx acc va s = (s, .ok va) := by
  rw [taskGa, hring, if_pos (Nat.zero_le 1), if_neg (by omega)]

theorem loadVa_open {va len : Nat} {s : State} (hva : va < 2 ^ 52) (halign : va % len = 0) (h : s.Open (gaOff va) len) (hnode : gaNode va = s.node)
    (hq : Quietly g s) : ∃ u, s.Slotted u ∧ loadVa g.c g.t x va len s = (u, .ok (s.peek (gaOff va) len)) := by
  obtain ⟨u, hu, hload⟩ := loadGa_open (c := g.c) (t := g.t) (ring := x.ring) (va := va) h hnode (by rw [hq.stores]; exact fun e he => absurd he List.not_mem_nil)
    hq.spills hq.dir hq.quiet
  refine ⟨u, hu, ?_⟩
  rw [loadVa, if_neg (not_not.mpr halign), bind_ok (taskGa_ring0 hring hva s)]
  exact hload

end

section
variable {g : Issue} {ring va : Nat} {bs : List Byte} {s : State} (h : s.Open (gaOff va) bs.length) (hnode : gaNode va = s.node)
include h hnode

/-- Nothing stands against a store to memory that can be accessed. -/
theorem storeCheck_open : storeCheck g.c g.t ring va va bs.length s = (s, .ok ()) := by
  have hreg : s.isReg va = false := by
    rw [State.isReg, h.range]
    exact Bool.and_false _
  have hflash : s.isFlash va = false := by
    rw [State.isFlash, h.range]
    exact Bool.and_false _
  rw [storeCheck, if_neg (not_not.mpr hnode), hreg, if_neg Bool.false_ne_true, hflash, if_neg Bool.false_ne_true, h.block (fun h => by cases h)]

/-- A store performed at once (R400). -/
theorem storeNow_open (hq : Quietly g s) (hwf : memWf s.mem = true) :
    ∃ u, s.Stored (gaOff va) bs u ∧ storeNow g.c g.t ring va va bs s = (u, .ok ()) := by
  have hreg : s.isReg va = false := by
    rw [State.isReg, h.range]
    exact Bool.and_false _
  have hflash : s.isFlash va = false := by
    rw [State.isFlash, h.range]
    exact Bool.and_false _
  obtain ⟨u, hu, hwrite⟩ := h.localWrite hwf (b := taskBy g.c.val g.t.val (.store ring)) (fun h => by cases h) (Or.inr hq.dir) hq.quiet
  refine ⟨u, hu, ?_⟩
  rw [storeNow, bind_ok (storeCheck_open h hnode)]
  dsimp only
  rw [hq.checked, if_neg Bool.false_ne_true, hq.spills, hq.stores, hreg, hflash]
  rw [List.isEmpty_nil, List.any_nil, if_neg (show ¬ (!true || false) = true from Bool.false_ne_true), if_neg Bool.false_ne_true,
    if_neg Bool.false_ne_true, if_neg (not_not.mpr hnode), hwrite]

end

/-- Part of an access stays an access that nothing holds up. -/
theorem State.Open.sub {s : State} {off len off' len' : Nat} (h : s.Open off len) (hlo : off ≤ off') (hhi : off' + len' ≤ off + len) (hpos : 0 < len') :
    s.Open off' len' := by
  have hone := h.one
  have htop := h.top
  have hchan : channelOf off' = channelOf off := channelOf_granule (by omega)
  refine ⟨hpos, by omega, by omega, by rw [hchan]; exact h.fence, by rw [hchan]; exact h.serves, by rw [hchan]; exact h.calm, fun w hw => h.clean w ?_⟩
  obtain ⟨hw0, hw1, hw2⟩ := (mem_wordsIn (by omega) hpos).mp hw
  exact (mem_wordsIn htop h.pos).mpr ⟨hw0, by omega, by omega⟩

/-- Stores performed at once, one behind the other, of pieces that share no word. -/
theorem storesNow_open {g : Issue} {ring : Nat} {ps : List ((Nat × List Byte) × Nat)} :
    ∀ {s : State}, Quietly g s → memWf s.mem = true → (∀ p ∈ ps, p.2 = p.1.1 ∧ s.Open (gaOff p.1.1) p.1.2.length ∧ gaNode p.1.1 = s.node) →
      ps.Pairwise (fun p q => (gaOff p.1.1 + p.1.2.length - 1) / 64 < gaOff q.1.1 / 64) →
      ∃ u, Act.forEach ps (fun p => storeNow g.c g.t ring p.1.1 p.2 p.1.2) s = (u, .ok ()) ∧ u.tasks = s.tasks ∧ u.life = s.life
        ∧ (∀ p ∈ ps, ∀ k < p.1.2.length, memGet u.mem (gaOff p.1.1 + k) = p.1.2.getD k 0)
        ∧ (∀ a, (∀ p ∈ ps, a < gaOff p.1.1 ∨ gaOff p.1.1 + p.1.2.length ≤ a) → memGet u.mem a = memGet s.mem a) := by
  induction ps with
  | nil => exact fun _ _ _ _ => ⟨_, rfl, rfl, rfl, fun p hp => absurd hp List.not_mem_nil, fun _ _ => rfl⟩
  | cons p ps ih =>
    intro s hq hwf hopen hapart
    obtain ⟨hga, hfirst, hnode⟩ := hopen p List.mem_cons_self
    obtain ⟨hhead, htail⟩ := List.pairwise_cons.mp hapart
    obtain ⟨t, ht, hstore⟩ := storeNow_open (g := g) (ring := ring) hfirst hnode hq hwf
    have hopen' : ∀ q ∈ ps, q.2 = q.1.1 ∧ t.Open (gaOff q.1.1) q.1.2.length ∧ gaNode q.1.1 = t.node := by
      intro q hmem
      obtain ⟨hga', hq', hnode'⟩ := hopen q (List.mem_cons_of_mem _ hmem)
      have hafter := hhead q hmem
      refine ⟨hga', hq'.stored ht fun w hw => ht.damage w (Or.inr ?_), ?_⟩
      · obtain ⟨hw0, -, hw2⟩ := (mem_wordsIn hq'.top hq'.pos).mp hw
        omega
      · exact hnode'.trans (ht.rd_outside (f := JFAB_NODE_NODE) (by decide)).symm
    obtain ⟨u, hrun, htasks, hlife, hbytes, hrest⟩ := ih (hq.stored ht) ht.wf hopen' htail
    refine ⟨u, ?_, htasks.trans ht.tasks, hlife.trans (by rw [ht.rest]), ?_, ?_⟩
    · rw [Act.forEach, hga, bind_ok hstore]
      exact hrun
    · intro q hmem k hk
      obtain rfl | hmem := List.mem_cons.mp hmem
      · rw [hrest, ht.bytes, if_pos ⟨by omega, by omega⟩, Nat.add_sub_cancel_left]
        intro r hr
        have := hhead r hr
        omega
      · exact hbytes q hmem k hk
    · intro a ha
      have := ha p List.mem_cons_self
      rw [hrest a fun q hmem => ha q (List.mem_cons_of_mem _ hmem), ht.bytes, if_neg (by omega)]

/-! Words laid as bytes. -/

theorem getElem_flatMap_leBytes (w : Nat → Nat) {m n j : Nat} (hn : n < m) (hj : j < 8) :
    ((List.range m).flatMap fun k => leBytes 8 (w k))[8 * n + j]? = (leBytes 8 (w n))[j]? := by
  induction m with
  | zero => omega
  | succ m ih =>
    have hlen : ((List.range m).flatMap fun k => leBytes 8 (w k)).length = 8 * m := by
      simp [List.length_flatMap, leBytes_length, Nat.mul_comm]
    rw [List.range_succ, List.flatMap_append]
    by_cases h : n < m
    · rw [List.getElem?_append_left (by omega), ih h]
    · obtain rfl : n = m := by omega
      rw [List.getElem?_append_right (by omega), hlen, Nat.add_sub_cancel_left]
      simp

theorem length_flatMap_leBytes (w : Nat → Nat) (m : Nat) : ((List.range m).flatMap fun k => leBytes 8 (w k)).length = 8 * m := by
  simp [List.length_flatMap, leBytes_length, Nat.mul_comm]

theorem wordsOf_peek (s : State) (off : Nat) {m k : Nat} (hk : k < m) : (wordsOf (s.peek off (8 * m))).getD k 0 = leNat (s.peek (off + 8 * k) 8) := by
  have hlen : (s.peek off (8 * m)).length / 8 = m := by
    rw [State.peek, List.length_map, List.length_range]
    omega
  rw [wordsOf, hlen, List.getD_eq_getElem _ _ (by simpa using hk), List.getElem_map, List.getElem_range]
  refine congrArg leNat (List.ext_getElem ?_ fun i hi _ => ?_)
  · simp only [State.peek, List.length_take, List.length_drop, List.length_map, List.length_range]
    omega
  · simp only [State.peek, List.getElem_take, List.getElem_drop, List.getElem_map, List.getElem_range]
    rw [Nat.add_assoc]

theorem flatten_peek (s : State) (off n m : Nat) : ((List.range m).map fun k => s.peek (off + n * k) n).flatten = s.peek off (n * m) := by
  induction m with
  | zero => rfl
  | succ m ih =>
    rw [List.range_succ, List.map_append, List.flatten_append, ih, Nat.mul_succ]
    simp only [State.peek, List.map_cons, List.map_nil, List.flatten_cons, List.flatten_nil, List.append_nil, List.range_add, List.map_append,
      List.map_map, Function.comp_def, Nat.add_assoc]

end Sys2Proof.Machine
end

section
/-! PROOF. O5: SAVEL, SAVEU, RESTL and RESTU (R400). -/
namespace Sys2Proof.Machine
open Reg Sys2Proof.Claim

/-! The context that the restoring instructions set. -/

/-- A mask that covers a field keeps it. -/
theorem bitsOf_and {v m hi lo : Nat} (h : m &&& maskOf hi lo = maskOf hi lo) : bitsOf (v &&& m) hi lo = bitsOf v hi lo := by
  refine bitsOf_congr fun i hlo hhi => ?_
  have hbit : (m &&& maskOf hi lo).testBit i = (maskOf hi lo).testBit i := by rw [h]
  rw [Nat.testBit_and, testBit_maskOf, decide_eq_true ⟨hlo, hhi⟩, Bool.and_true] at hbit
  rw [Nat.testBit_and, hbit, Bool.and_true]

theorem TaskRegs.rebase_nil {x y : TaskRegs} (hx : x.cached = []) : x.rebase y = { y with cached := [] } := by
  rw [TaskRegs.rebase, TaskRegs.mine, TaskRegs.others, hx]
  rfl

theorem TaskRegs.setLower_state {x : TaskRegs} (hx : x.cached = []) {v : Nat} (hv : bitsOf v 20 16 = 0) :
    x.setLower 3 v [] = { x with
      ctx := bitsOf (v &&& lowerMask 3) 39 32, fpFlags := bitsOf (v &&& lowerMask 3) 27 22, fpPend := bitOf (v &&& lowerMask 3) 21
      cpl := bitsOf (v &&& lowerMask 3) 14 13, nest := bitsOf (v &&& lowerMask 3) 12 10, ring := bitsOf (v &&& lowerMask 3) 9 8
      preds := bitsOf (v &&& lowerMask 3) 7 0, cached := [] } := by
  have hbits : bitsOf (v &&& lowerMask 3) 20 16 = 0 := by
    rw [bitsOf_and (by decide), hv]
  rw [TaskRegs.setLower, TaskRegs.rebase_nil hx, hbits, if_pos]
  rfl

/-- The words of a lower half that counts no cached entry, set. -/
theorem TaskRegs.setLower_all (x : TaskRegs) {w : Nat → Nat} (hw : bitsOf (w 3) 20 16 = 0) (h64 : ∀ k, w k < 2 ^ 64) :
    ∃ z, (List.range 17).foldl (fun z k => TaskRegs.setLower z (k + 1) (w (k + 1)) []) { x with cached := [] } = z
      ∧ z.pc = w 1 ∧ z.sp = w 2 ∧ z.ring = bitsOf (w 3) 9 8 ∧ z.nest = bitsOf (w 3) 12 10 ∧ z.cpl = bitsOf (w 3) 14 13
      ∧ z.preds = bitsOf (w 3) 7 0 ∧ z.ctx = bitsOf (w 3) 39 32 ∧ z.fpAddr = w 5 ∧ z.src.toNat = w 6 ∧ z.dst.toNat = w 7 ∧ z.cnt.toNat = w 8
      ∧ z.pend = bitsOf (w 17) 47 32 ∧ z.prio = bitsOf (w 17) 31 0 ∧ z.cached = [] ∧ z.st = x.st := by
  have hwhole : ∀ k, w k &&& (2 ^ 64 - 1) = w k := fun k => by rw [Nat.and_two_pow_sub_one_eq_mod, Nat.mod_eq_of_lt (h64 k)]
  have hword : ∀ k, (BitVec.ofNat 64 (w k &&& (2 ^ 64 - 1))).toNat = w k := fun k => by rw [hwhole, BitVec.toNat_ofNat, Nat.mod_eq_of_lt (h64 k)]
  have hprio : w 17 &&& lowerMask 17 = w 17 % 2 ^ 48 :=
    (congrArg (w 17 &&& ·) (by decide : lowerMask 17 = 2 ^ 48 - 1)).trans (Nat.and_two_pow_sub_one_eq_mod ..)
  obtain ⟨z1, h1⟩ : ∃ z, z = { x with pc := w 1 &&& lowerMask 1, sp := w 2 &&& lowerMask 2, cached := [] } := ⟨_, rfl⟩
  have hsecond : TaskRegs.setLower (TaskRegs.setLower { x with cached := [] } 1 (w 1) []) 2 (w 2) [] = z1 := by
    rw [h1]
    exact TaskRegs.rebase_nil rfl
  have hstate := TaskRegs.setLower_state (x := z1) (by rw [h1]) hw
  have hrange : List.range 17 = [0, 1, 2, 3, 4, 5, 6, 7, 8, 9, 10, 11, 12, 13, 14, 15, 16] := by decide
  rw [hrange]
  simp only [List.foldl_cons, List.foldl_nil, Nat.zero_add, Nat.reduceAdd]
  rw [hsecond, hstate, h1]
  simp only [TaskRegs.setLower, Nat.reduceLeDiff, and_self, and_true, and_false, if_true, if_false]
  refine ⟨_, rfl, hwhole 1, hwhole 2, bitsOf_and (by decide), bitsOf_and (by decide), bitsOf_and (by decide), bitsOf_and (by decide),
    bitsOf_and (by decide), hwhole 5, hword 6, hword 7, hword 8, ?_, ?_, rfl, rfl⟩
  · show (w 17 &&& lowerMask 17) / 2 ^ 32 = _
    rw [hprio, bitsOf]
    omega
  · show (w 17 &&& lowerMask 17) % 2 ^ 32 = _
    rw [hprio, bitsOf]
    omega

/-! The values that RESTU sets. -/

theorem TaskRegs.mine_setUpper (x : TaskRegs) (k v : Nat) : (x.setUpper k v).mine =
    if k = 0 ∨ x.shown < k then x.mine else x.mine.zipIdx.map (fun p => if p.2 = k - 1 then { p.1 with v := BitVec.ofNat 64 v } else p.1) := by
  unfold TaskRegs.setUpper
  split
  · rfl
  · obtain ⟨l, hl⟩ : ∃ l, l = x.mine.zipIdx.map (fun p => if p.2 = k - 1 then { p.1 with v := BitVec.ofNat 64 v } else p.1) := ⟨_, rfl⟩
    have hmine : ∀ e ∈ l, (e.space == x.space) = true := fun e he => by
      rw [hl] at he
      obtain ⟨p, hp, rfl⟩ := List.mem_map.mp he
      have hspace := (List.mem_filter.mp (List.fst_mem_of_mem_zipIdx hp)).2
      split <;> exact hspace
    have hothers : x.others.filter (fun e => e.space == x.space) = [] := List.filter_eq_nil_iff.mpr fun e he => by
      have hspace := (List.mem_filter.mp he).2
      rw [bne, Bool.not_eq_true'] at hspace
      rw [hspace]
      exact Bool.false_ne_true
    show (_ ++ x.others).filter (fun e => e.space == x.space) = _
    rw [← hl, List.filter_append, hothers, List.append_nil, List.filter_eq_self.mpr hmine]

theorem TaskRegs.shown_setUpper (x : TaskRegs) (k v : Nat) : (x.setUpper k v).shown = x.shown := by
  have hlen : (x.setUpper k v).mine.length = x.mine.length := by
    rw [TaskRegs.mine_setUpper]
    split
    · rfl
    · rw [List.length_map, List.length_zipIdx]
  rw [TaskRegs.shown, TaskRegs.shown, hlen]

/-- The values of the entries that the first `n` words of an upper half set. -/
theorem TaskRegs.setUpper_first (y : TaskRegs) (w : Nat → Nat) (n : Nat) : ∃ z,
    (List.range n).foldl (fun z k => TaskRegs.setUpper z (k + 1) (w (k + 1))) y = z ∧ z.shown = y.shown
      ∧ ∀ k, k < n → k < y.shown → (z.mine[k]?).map (·.v) = some (BitVec.ofNat 64 (w (k + 1))) := by
  induction n with
  | zero => exact ⟨_, rfl, rfl, fun k hk => absurd hk (Nat.not_lt_zero k)⟩
  | succ n ih =>
    obtain ⟨z, hz, hshown, hset⟩ := ih
    rw [List.range_succ, List.foldl_append, hz]
    refine ⟨_, rfl, (TaskRegs.shown_setUpper ..).trans hshown, fun k hk hlt => ?_⟩
    rw [List.foldl_cons, List.foldl_nil, TaskRegs.mine_setUpper]
    by_cases hout : n + 1 = 0 ∨ z.shown < n + 1
    · rw [if_pos hout]
      exact hset k (by omega) hlt
    · have hin : k < z.mine.length := by
        rw [← hshown, TaskRegs.shown] at hlt
        omega
      rw [if_neg hout, List.getElem?_map, List.getElem?_zipIdx, List.getElem?_eq_getElem hin]
      by_cases hlast : k = n
      · subst hlast
        simp
      · have hprev := hset k (by omega) hlt
        rw [List.getElem?_eq_getElem hin] at hprev
        simpa [hlast] using hprev

/-! The save instructions. -/

section
variable {g : Issue} {s : State} {a : Word} (ready : Ready g s) (hchecked : s.checked g.c.val = false) (htop : Top g s [a] 1)
  (hring : (tk g s).ring = 0) (hne : s.selTask g.c.val ≠ g.t.val) (hidle : (s.task g.c.val (s.selTask g.c.val)).st.idle = true)
  (hva : a.toNat < 2 ^ 52) (halign : a.toNat % 256 = 0) (hnode : gaNode a.toNat = s.node) (hplain : ∀ n : Fin 4, Plain s (gaOff a.toNat + 64 * n.val) 64)
  (hstores : s.ownStores g.c.val g.t.val = [])

include ready hchecked htop hring hne hidle halign in
/-- A save instruction whose work comes to the link word, with the registers of the issuing task as they were. -/
theorem saveInsn_of_body {t : State} {f : TaskRegs → Nat → Nat → TaskRegs → Act Nat} {n : Nat}
    (hf : f (past g s 1) a.toNat (s.selTask g.c.val) (s.task g.c.val (s.selTask g.c.val)) s = (t, .ok n)) (task : t.task g.c.val g.t.val = tk g s)
    (boot : t.life.boot = s.life.boot) : s.saveInsn g f = t.ended g (stacked (past g s 1) 1 [BitVec.ofNat 64 n]) := by
  have h := Issues.of_ready ready
  have hb : begun g s = s := beginInterval_of_later (by rw [hchecked]; simp)
  have hsave : s.saveTask g.c.val g.t.val = some (s.selTask g.c.val, s.task g.c.val (s.selTask g.c.val)) := by
    rw [State.saveTask, if_pos ⟨hne, hidle⟩]
  unfold State.saveInsn
  refine insn_of_body ready rfl hring.le (fun h => by cases h) (stackCheck_of_top htop) ?_ task boot (Goes.stacked h 1 1 _)
  rw [hb]
  dsimp only
  have htake : takeTop g.c g.t (past g s 1) 1 s = (s, .ok ([a], (past g s 1).setSp ((tk g s).sp + 8 * 1))) := takeTop_top htop 1
  rw [bind_ok htake]
  simp only [List.getD_cons_zero, halign, ne_eq, not_true_eq_false, if_false, hsave]
  refine (bind_ok (f := fun link => pushOut g.c g.t _ [BitVec.ofNat 64 link]) hf).trans ?_
  exact pushOut_one (vs := [a]) htop 1 _

include ready hchecked hplain hstores in
theorem quietly_of_ready : Quietly g s := by
  have h := Issues.of_ready ready
  obtain ⟨-, -, -, -, -, -, -, -, hdir⟩ := hplain 0
  exact ⟨hchecked, hstores, h.spills, hdir, h.quiet⟩

theorem gaOff_add {k : Nat} (halign : a.toNat % 256 = 0) (hk : k < 256) : gaOff (a.toNat + k) = gaOff a.toNat + k ∧ gaNode (a.toNat + k) = gaNode a.toNat := by
  rw [gaOff, gaOff, gaNode, gaNode, bitsOf, bitsOf]
  omega

include ready hchecked hring hva halign hnode hplain hstores in
/-- The four lines of a half, loaded (R400). -/
theorem loadLines_open : ∃ u, s.Slotted u ∧ ∃ bs, loadLines g.c g.t (past g s 1) a.toNat 4 s = (u, .ok bs)
    ∧ (wordsOf bs).length = 32 ∧ ∀ k, k < 32 → (wordsOf bs).getD k 0 = leNat (s.peek (gaOff a.toNat + 8 * k) 8) := by
  have hq := quietly_of_ready ready hchecked hplain hstores
  obtain ⟨u, hu, hload⟩ := collect_slotted (f := fun k => loadVa g.c g.t (past g s 1) (a.toNat + 64 * k) 64)
    (h := fun k => s.peek (gaOff a.toNat + 64 * k) 64) (l := List.range 4) (fun t => s.Slotted t) (fun k hk t ht => by
      have hk := List.mem_range.mp hk
      obtain ⟨hoff, hn⟩ := gaOff_add (k := 64 * k) halign (by omega)
      have hopen : t.Open (gaOff (a.toNat + 64 * k)) 64 := by
        rw [hoff]
        exact (State.Open.of_plain (hplain ⟨k, hk⟩)).slotted ht
      obtain ⟨u, hu, hload⟩ := loadVa_open (g := g) (x := past g s 1) (len := 64) hring (va := a.toNat + 64 * k) (by omega) (by omega) hopen
        (by rw [hn, hnode]; exact (ht.rd_outside (f := JFAB_NODE_NODE) (by decide)).symm) (hq.slotted ht)
      refine ⟨u, hu, ht.trans hu, ?_⟩
      rw [hload, ht.peek, hoff]) (.refl s)
  refine ⟨u, hu, s.peek (gaOff a.toNat) (8 * 32), ?_, ?_, fun k hk => wordsOf_peek s _ hk⟩
  case refine_2 => rw [wordsOf, State.peek, List.length_map, List.length_range, List.length_map, List.length_range]
  rw [loadLines, bind_ok hload, flatten_peek]
  rfl

include ready hchecked hring hva halign hnode hplain hstores in
/-- Words 1 to 31 of a half, stored (R400): the link word keeps, and no byte outside changes. -/
theorem storeHalf_open (hwf : memWf s.mem = true) (w : Nat → Nat) :
    ∃ u, storeHalf g.c g.t (past g s 1) a.toNat w s = (u, .ok (leNat (s.peek (gaOff a.toNat) 8))) ∧ u.tasks = s.tasks ∧ u.life = s.life
      ∧ (∀ n, 1 ≤ n → n < 32 → u.peek (gaOff a.toNat + 8 * n) 8 = leBytes 8 (w n)) ∧ Outside s u (gaOff a.toNat + 8) 248 := by
  have hq := quietly_of_ready ready hchecked hplain hstores
  have hopen : ∀ k, k < 4 → s.Open (gaOff a.toNat + 64 * k) 64 := fun k hk => State.Open.of_plain (hplain ⟨k, hk⟩)
  have hline : gaOff a.toNat % 64 = 0 := by
    rw [gaOff]
    omega
  obtain ⟨u, hu, hlink⟩ := loadVa_open (g := g) (x := past g s 1) (len := 8) hring hva (by omega) ((hopen 0 (by decide)).sub (by omega) (by omega) (by decide))
    hnode hq
  obtain ⟨bs, hbs⟩ : ∃ bs, bs = (List.range 32).flatMap (fun k => leBytes 8 (w k)) := ⟨_, rfl⟩
  have hlen : bs.length = 256 := by rw [hbs, length_flatMap_leBytes]
  obtain ⟨ps, hps⟩ : ∃ ps, ps = [(8, 56), (64, 64), (128, 64), (192, 64)].map (fun p : Nat × Nat => (a.toNat + p.1, (bs.drop p.1).take p.2)) := ⟨_, rfl⟩
  have hpiece : ∀ p ∈ ps, ∃ k n, (k, n) ∈ [(8, 56), (64, 64), (128, 64), (192, 64)] ∧ k + n ≤ 256 ∧ k < 256 ∧ p.1 = a.toNat + k
      ∧ p.2 = (bs.drop k).take n ∧ p.2.length = n ∧ gaOff p.1 = gaOff a.toNat + k ∧ gaNode p.1 = s.node ∧ s.Open (gaOff a.toNat + k) n := by
    intro p hp
    rw [hps] at hp
    obtain ⟨⟨k, n⟩, hkn, rfl⟩ := List.mem_map.mp hp
    have hbound : k + n ≤ 256 ∧ k < 256 ∧ 0 < n ∧ k % 64 + n = 64 := by
      simp only [List.mem_cons, Prod.mk.injEq, List.not_mem_nil, or_false] at hkn
      omega
    obtain ⟨hsum, hk, hpos, hin⟩ := hbound
    obtain ⟨hoff, hn⟩ := gaOff_add halign hk
    refine ⟨k, n, hkn, hsum, hk, rfl, rfl, ?_, hoff, hn.trans hnode, (hopen (k / 64) (by omega)).sub (by omega) (by omega) hpos⟩
    rw [List.length_take, List.length_drop, hlen]
    omega
  have hcollect : Act.collect ps (fun p => (taskGa g.c.val g.t.val (past g s 1).ring (past g s 1).ctx .write p.1).bind (fun ga =>
      (storeCheck g.c g.t (past g s 1).ring p.1 ga p.2.length).bind (fun _ => Act.pure ga))) u = (u, .ok (ps.map (·.1))) := by
    refine collect_ok fun p hp => ?_
    obtain ⟨k, n, -, -, hk, hga, -, hlength, hoff, hn, hopen'⟩ := hpiece p hp
    rw [bind_ok (taskGa_ring0 hring (by omega) u)]
    rw [bind_ok (storeCheck_open (by rw [hoff, hlength]; exact hopen'.slotted hu) (hn.trans (hu.rd_outside (f := JFAB_NODE_NODE) (by decide)).symm))]
    rfl
  have hzipped : ps.zip (ps.map (·.1)) = ps.map (fun p => (p, p.1)) := by
    rw [List.zip_map_right, List.zip_eq_zipWith, List.zipWith_self, List.map_map]
    rfl
  have hzip : ∀ q ∈ ps.zip (ps.map (·.1)), q.1 ∈ ps ∧ q.2 = q.1.1 := by
    intro q hq
    rw [hzipped] at hq
    obtain ⟨p, hp, rfl⟩ := List.mem_map.mp hq
    exact ⟨hp, rfl⟩
  obtain ⟨t, hrun, htasks, hlife, hbytes, hrest⟩ := storesNow_open (g := g) (ring := (past g s 1).ring) (ps := ps.zip (ps.map (·.1))) (hq.slotted hu)
    (hu.mem ▸ hwf) (fun q hq => by
      obtain ⟨hmem, hga⟩ := hzip q hq
      obtain ⟨k, n, -, -, -, -, -, hlength, hoff, hn, hopen'⟩ := hpiece q.1 hmem
      exact ⟨hga, by rw [hoff, hlength]; exact hopen'.slotted hu, hn.trans (hu.rd_outside (f := JFAB_NODE_NODE) (by decide)).symm⟩) (by
      rw [hzipped, List.pairwise_map, hps, List.pairwise_map]
      refine List.Pairwise.imp_of_mem (R := fun p q => p.1 + p.2 ≤ q.1 ∧ p.1 < 256 ∧ q.1 < 256 ∧ q.1 % 64 = 0 ∧ 0 < q.1) (fun {p q} _ _ hr => ?_) (by decide)
      obtain ⟨hr1, hr2, hr3, hr4, hr5⟩ := hr
      have htake : ((bs.drop p.1).take p.2).length ≤ p.2 := by
        rw [List.length_take]
        omega
      dsimp only
      rw [(gaOff_add halign hr2).1, (gaOff_add halign hr3).1]
      omega)
  have hbyte : ∀ i, 8 ≤ i → i < 256 → memGet t.mem (gaOff a.toNat + i) = bs.getD i 0 := by
    intro i hlo hhi
    obtain ⟨k, n, hkn, hk, hkn'⟩ : ∃ k n, (k, n) ∈ [(8, 56), (64, 64), (128, 64), (192, 64)] ∧ k ≤ i ∧ i < k + n := by
      obtain hi | hi | hi | hi : i / 64 = 0 ∨ i / 64 = 1 ∨ i / 64 = 2 ∨ i / 64 = 3 := by omega
      · exact ⟨8, 56, by decide, by omega, by omega⟩
      · exact ⟨64, 64, by decide, by omega, by omega⟩
      · exact ⟨128, 64, by decide, by omega, by omega⟩
      · exact ⟨192, 64, by decide, by omega, by omega⟩
    have hmem : (a.toNat + k, (bs.drop k).take n) ∈ ps := by
      rw [hps]
      exact List.mem_map_of_mem (f := fun p : Nat × Nat => (a.toNat + p.1, (bs.drop p.1).take p.2)) hkn
    have hb := hbytes ((a.toNat + k, (bs.drop k).take n), a.toNat + k) (by rw [hzipped]; exact List.mem_map_of_mem (f := fun p => (p, p.1)) hmem) (i - k) (by
      simp only [List.length_take, List.length_drop, hlen]
      omega)
    rw [show gaOff (a.toNat + k) + (i - k) = gaOff a.toNat + i by rw [(gaOff_add halign (by omega)).1]; omega] at hb
    rw [hb, List.getD_eq_getElem?_getD, List.getD_eq_getElem?_getD, List.getElem?_take, if_pos (by omega), List.getElem?_drop]
    rw [show k + (i - k) = i by omega]
  refine ⟨t, ?_, htasks.trans hu.tasks, hlife.trans (by rw [hu.rest]), fun n hn1 hn2 => ?_, fun b hb => ?_⟩
  · have hcut := bind_ok (f := fun link => (Act.collect ps (fun p => (taskGa g.c.val g.t.val (past g s 1).ring (past g s 1).ctx .write p.1).bind (fun ga =>
      (storeCheck g.c g.t (past g s 1).ring p.1 ga p.2.length).bind (fun _ => Act.pure ga)))).bind (fun gas =>
        (Act.forEach (ps.zip gas) (fun p => storeNow g.c g.t (past g s 1).ring p.1.1 p.2 p.1.2)).bind (fun _ => Act.pure (leNat link)))) hlink
    rw [bind_ok hcollect, bind_ok hrun] at hcut
    rw [storeHalf]
    dsimp only
    rw [← hbs, ← hps, hcut]
    rfl
  · refine List.ext_getElem (by rw [State.peek, List.length_map, List.length_range, leBytes_length]) fun j hj hj' => ?_
    have hj8 : j < 8 := by rwa [leBytes_length] at hj'
    simp only [State.peek, List.getElem_map, List.getElem_range]
    rw [Nat.add_assoc, hbyte _ (by omega) (by omega), List.getD_eq_getElem?_getD, hbs,
      getElem_flatMap_leBytes w hn2 hj8, List.getElem?_eq_getElem hj', Option.getD_some]
  · rw [hrest b fun q hq => ?_, hu.mem]
    obtain ⟨hmem, -⟩ := hzip q hq
    obtain ⟨k, n, hkn, hsum, -, -, -, hlength, hoff, -, -⟩ := hpiece q.1 hmem
    rw [hoff, hlength]
    simp only [List.mem_cons, Prod.mk.injEq, List.not_mem_nil, or_false] at hkn
    omega

end

theorem spillFull_room {c : Core} {t : Task} {u : Nat} {y : TaskRegs} (hroom : y.cached.length < 32) (s : State) : spillFull c t u y s = (s, .ok y) := by
  cases hlast : y.cached.getLast? with
  | none => rw [spillFull, hlast]; rfl
  | some e => rw [spillFull, hlast]; exact congrFun (if_pos hroom) s

theorem leNat_lt (bs : List Byte) : leNat bs < 2 ^ (8 * bs.length) := by
  refine Nat.lt_pow_two_of_testBit _ fun i hi => ?_
  have hbit := leNat_testBit bs (k := i / 8) (j := i % 8) (Nat.mod_lt _ (by decide))
  rw [Nat.div_add_mod] at hbit
  rw [hbit, List.getD_eq_default _ _ (by omega)]
  exact BitVec.getLsbD_zero

theorem leNat_peek_lt (s : State) (off : Nat) : leNat (s.peek off 8) < 2 ^ 64 := by
  have h := leNat_lt (s.peek off 8)
  rwa [State.peek, List.length_map, List.length_range] at h

end Sys2Proof.Machine

section
open Sys2Proof.Machine Sys2Proof.Machine.Reg Sys2Proof.Claim

/-- Settles O5: each instruction is its work on the half, behind the address taken and the link word pushed. -/
theorem sundopSaveRestore : Obligations.SundopSaveRestore := by
  intro g s a k ready hchecked htop hring u y off word hne hidle hva halign hnode hwf hplain hstores
  have hself : ∀ (t : State) z, (t.setTask g.c.val u z).task g.c.val g.t.val = t.task g.c.val g.t.val := fun t z =>
    State.task_setTask_other _ _ _ _ _ _ (by omega)
  have hother : ∀ (t : State) x, (t.ended g x).task g.c.val u = t.task g.c.val u := fun t x => by
    obtain ⟨b, c, d, e, h⟩ := t.ended_eq g x
    rw [h]
    exact State.task_setTask_other t _ _ _ _ _ (by omega)
  refine ⟨fun hroom => ?_, fun hcount => ?_, ?_⟩
  · have hhalf : ∀ w : TaskRegs → Nat → Nat, ∃ t, s.saveInsn g (fun x a u y => (spillFull g.c g.t u y).bind (fun z => storeHalf g.c g.t x a (w z))) = t
        ∧ tk g t = stacked (past g s 1) 1 [BitVec.ofNat 64 (word 0)] ∧ t.peek (off + 8 + 8 * k.val) 8 = leBytes 8 (w y (k.val + 1))
        ∧ Outside s t (off + 8) 248 := by
      intro w
      obtain ⟨t, hstore, htasks, hlife, hwords, hrest⟩ := storeHalf_open ready hchecked hring hva halign hnode hplain hstores hwf (w y)
      have hinsn := saveInsn_of_body ready hchecked htop hring hne hidle halign
        (f := fun x a u y => (spillFull g.c g.t u y).bind (fun z => storeHalf g.c g.t x a (w z))) ((bind_ok (spillFull_room hroom s)).trans hstore)
        (by rw [State.task, htasks]; rfl) (by rw [hlife])
      refine ⟨_, hinsn, State.ended_task .., ?_, fun b hb => ?_⟩
      · rw [State.peek, State.ended_mem]
        have hword := hwords (k.val + 1) (by omega) (by omega)
        rw [show off + 8 + 8 * k.val = off + 8 * (k.val + 1) by omega]
        exact hword
      · rw [State.ended_mem]
        exact hrest b hb
    obtain ⟨t, hl, hlower⟩ := hhalf TaskRegs.lowerWord
    obtain ⟨t', hu, hupper⟩ := hhalf TaskRegs.upperWord
    exact ⟨⟨t, congrArg Host.Outcome.next hl, hlower⟩, ⟨t', congrArg Host.Outcome.next hu, hupper⟩⟩
  · obtain ⟨t, ht, bs, hload, hcut, hwords⟩ := loadLines_open ready hchecked hring hva halign hnode hplain hstores
    obtain ⟨z, hz, hset⟩ := TaskRegs.setLower_all y (w := fun k => (wordsOf bs).getD k 0) (by rw [hwords 3 (by decide)]; exact hcount) (fun n => by
      by_cases hn : n < 32
      · rw [hwords n hn]
        exact leNat_peek_lt ..
      · rw [List.getD_eq_default _ _ (by rw [hcut]; omega)]
        decide)
    have hinsn := saveInsn_of_body ready hchecked htop hring hne hidle halign (t := t.setTask g.c.val u z) (n := word 0)
      (f := fun x a u y => (loadLines g.c g.t x a 4).bind (fun bs s =>
        let ws := wordsOf bs
        let (vs, s) := s.freshN (bitsOf (ws.getD 3 0) 20 16)
        let z := (List.range 17).foldl (fun z k => TaskRegs.setLower z (k + 1) (ws.getD (k + 1) 0) vs) { y with cached := [] }
        (s.setTask g.c.val u z, .ok (ws.getD 0 0)))) (by
          rw [bind_ok hload]
          dsimp only
          rw [hwords 3 (by decide), hcount]
          dsimp only [State.freshN]
          rw [hz, hwords 0 (by decide)]) ((hself ..).trans (by rw [State.task, ht.tasks]; rfl)) (by rw [State.setTask_life, ht.rest])
    refine ⟨_, congrArg Host.Outcome.next hinsn, State.ended_task .., ?_, ?_⟩
    · rw [State.ended_mem]
      exact ht.mem
    · have htask : ((t.setTask g.c.val u z).ended g (stacked (past g s 1) 1 [BitVec.ofNat 64 (word 0)])).task g.c.val u = z :=
        (hother ..).trans (State.task_setTask_same t g.c.val u z)
      rw [htask]
      simp only [hwords 1 (by decide), hwords 2 (by decide), hwords 3 (by decide), hwords 5 (by decide), hwords 6 (by decide), hwords 7 (by decide),
        hwords 8 (by decide), hwords 17 (by decide)] at hset
      exact hset
  · obtain ⟨t, ht, bs, hload, hcut, hwords⟩ := loadLines_open ready hchecked hring hva halign hnode hplain hstores
    obtain ⟨z, hz, hshown, hset⟩ := TaskRegs.setUpper_first y (fun k => (wordsOf bs).getD k 0) 31
    have hinsn := saveInsn_of_body ready hchecked htop hring hne hidle halign (t := t.setTask g.c.val u z) (n := word 0)
      (f := fun x a u y => (loadLines g.c g.t x a 4).bind (fun bs s =>
        let ws := wordsOf bs
        let z := (List.range 31).foldl (fun z k => TaskRegs.setUpper z (k + 1) (ws.getD (k + 1) 0)) y
        (s.setTask g.c.val u z, .ok (ws.getD 0 0)))) (by
          rw [bind_ok hload]
          dsimp only
          rw [hz, hwords 0 (by decide)]) ((hself ..).trans (by rw [State.task, ht.tasks]; rfl)) (by rw [State.setTask_life, ht.rest])
    refine ⟨_, congrArg Host.Outcome.next hinsn, State.ended_task .., ?_, fun hk => ?_⟩
    · rw [State.ended_mem]
      exact ht.mem
    · have htask : ((t.setTask g.c.val u z).ended g (stacked (past g s 1) 1 [BitVec.ofNat 64 (word 0)])).task g.c.val u = z :=
        (hother ..).trans (State.task_setTask_same t g.c.val u z)
      have hv := hset k.val k.isLt hk
      have hmap := congrArg (Option.map BitVec.toNat) hv
      rw [Option.map_map, hwords _ (by omega), Option.map_some, BitVec.toNat_ofNat, Nat.mod_eq_of_lt (leNat_peek_lt ..)] at hmap
      rw [htask]
      exact hmap

end
end
